-- ==== Sys2Proof/Word.lean ====
section
/-! DEFINITION. The word types of the module and the index types that name its replicated parts
(lanes, strands, dies, ports), with the containers that hold one value for each of them. -/

namespace Sys2Proof

abbrev Byte := BitVec 8
abbrev Half := BitVec 16
/-- A register is 32 bits wide (R10). -/
abbrev Word := BitVec 32
abbrev Dword := BitVec 64
/-- A physical address of the map of R161 is 40 bits. -/
abbrev Addr := BitVec 40

/-- Lane dies LA, LB, LC; also replicas A, B, C (R2, "Names"). -/
inductive Lane where
  | a | b | c
deriving DecidableEq, Repr

/-- Strands S0 to S3. -/
inductive Strand where
  | s0 | s1 | s2 | s3
deriving DecidableEq, Repr

/-- Port dies P1 and P2. -/
inductive PDie where
  | p1 | p2
deriving DecidableEq, Repr

/-- Consumer dies (R27, R88). -/
inductive Die where
  | p1 | p2 | f | m
deriving DecidableEq, Repr

/-- The two ports of a KTN channel (R183). -/
inductive Port where
  | west | east
deriving DecidableEq, Repr

/-- The holder of a register space: a lane's pages or a consumer die's window (R161). -/
inductive RUnit where
  | la | lb | lc | p1 | p2 | f | m
deriving DecidableEq, Repr

/-- The three order codes (R2). -/
inductive Variant where
  | kw3120 | kw3111 | kw3101
deriving DecidableEq, Repr

/-- Masters of device registers and locks (R370). -/
inductive Master where
  | mgmt
  | strand (k : Strand)
  | gallery (p : PDie) (second : Bool)
  | debug
deriving DecidableEq, Repr

/-- One value per lane. -/
structure Tri (α : Type) where
  a : α
  b : α
  c : α
deriving DecidableEq, Repr

/-- One value per strand. -/
structure Quad (α : Type) where
  s0 : α
  s1 : α
  s2 : α
  s3 : α
deriving DecidableEq, Repr

/-- One value per port die. -/
structure Duo (α : Type) where
  p1 : α
  p2 : α
deriving DecidableEq, Repr

/-- One value per port of a channel. -/
structure WE (α : Type) where
  west : α
  east : α
deriving DecidableEq, Repr

/-- One value per consumer die. -/
structure Four (α : Type) where
  p1 : α
  p2 : α
  f : α
  m : α
deriving DecidableEq, Repr

/-- One value per register space. -/
structure Seven (α : Type) where
  la : α
  lb : α
  lc : α
  p1 : α
  p2 : α
  f : α
  m : α
deriving DecidableEq, Repr

variable {α : Type}

def Tri.all (x : α) : Tri α := ⟨x, x, x⟩
def Quad.all (x : α) : Quad α := ⟨x, x, x, x⟩
def Duo.all (x : α) : Duo α := ⟨x, x⟩
def WE.all (x : α) : WE α := ⟨x, x⟩
def Four.all (x : α) : Four α := ⟨x, x, x, x⟩

def Tri.get (t : Tri α) : Lane → α
  | .a => t.a
  | .b => t.b
  | .c => t.c
def Tri.set (t : Tri α) (l : Lane) (x : α) : Tri α :=
  match l with
  | .a => { t with a := x }
  | .b => { t with b := x }
  | .c => { t with c := x }

def Quad.get (t : Quad α) : Strand → α
  | .s0 => t.s0
  | .s1 => t.s1
  | .s2 => t.s2
  | .s3 => t.s3
def Quad.set (t : Quad α) (k : Strand) (x : α) : Quad α :=
  match k with
  | .s0 => { t with s0 := x }
  | .s1 => { t with s1 := x }
  | .s2 => { t with s2 := x }
  | .s3 => { t with s3 := x }

def Duo.get (t : Duo α) : PDie → α
  | .p1 => t.p1
  | .p2 => t.p2
def Duo.set (t : Duo α) (p : PDie) (x : α) : Duo α :=
  match p with
  | .p1 => { t with p1 := x }
  | .p2 => { t with p2 := x }

def WE.get (t : WE α) : Port → α
  | .west => t.west
  | .east => t.east
def WE.set (t : WE α) (p : Port) (x : α) : WE α :=
  match p with
  | .west => { t with west := x }
  | .east => { t with east := x }

def Four.get (t : Four α) : Die → α
  | .p1 => t.p1
  | .p2 => t.p2
  | .f => t.f
  | .m => t.m
def Four.set (t : Four α) (d : Die) (x : α) : Four α :=
  match d with
  | .p1 => { t with p1 := x }
  | .p2 => { t with p2 := x }
  | .f => { t with f := x }
  | .m => { t with m := x }

def Seven.get (t : Seven α) : RUnit → α
  | .la => t.la
  | .lb => t.lb
  | .lc => t.lc
  | .p1 => t.p1
  | .p2 => t.p2
  | .f => t.f
  | .m => t.m
def Seven.set (t : Seven α) (u : RUnit) (x : α) : Seven α :=
  match u with
  | .la => { t with la := x }
  | .lb => { t with lb := x }
  | .lc => { t with lc := x }
  | .p1 => { t with p1 := x }
  | .p2 => { t with p2 := x }
  | .f => { t with f := x }
  | .m => { t with m := x }

/-- Lane codes 0 LA, 1 LB, 2 LC (R48). -/
def Lane.idx : Lane → Nat
  | .a => 0
  | .b => 1
  | .c => 2
def Strand.idx : Strand → Nat
  | .s0 => 0
  | .s1 => 1
  | .s2 => 2
  | .s3 => 3
def PDie.idx : PDie → Nat
  | .p1 => 0
  | .p2 => 1
def Port.idx : Port → Nat
  | .west => 0
  | .east => 1
def Lane.list : List Lane := [.a, .b, .c]
def Strand.list : List Strand := [.s0, .s1, .s2, .s3]
def Die.list : List Die := [.p1, .p2, .f, .m]
def Port.list : List Port := [.west, .east]
def PDie.list : List PDie := [.p1, .p2]

def Lane.ofIdx (n : Nat) : Option Lane :=
  if n = 0 then some .a else if n = 1 then some .b else if n = 2 then some .c else none
def Strand.ofIdx (n : Nat) : Strand :=
  if n % 4 = 0 then .s0 else if n % 4 = 1 then .s1 else if n % 4 = 2 then .s2 else .s3
def Die.ofPDie : PDie → Die
  | .p1 => .p1
  | .p2 => .p2
def Lane.unit : Lane → RUnit
  | .a => .la
  | .b => .lb
  | .c => .lc
def Die.unit : Die → RUnit
  | .p1 => .p1
  | .p2 => .p2
  | .f => .f
  | .m => .m
def PDie.unit : PDie → RUnit
  | .p1 => .p1
  | .p2 => .p2
def PDie.other : PDie → PDie
  | .p1 => .p2
  | .p2 => .p1
def Port.other : Port → Port
  | .west => .east
  | .east => .west
/-- The lane that is neither of two (the third of a pair). -/
def Lane.third : Lane → Lane → Lane
  | .a, .b => .c
  | .b, .a => .c
  | .a, .c => .b
  | .c, .a => .b
  | .b, .c => .a
  | .c, .b => .a
  | x, _ => x

/-- Master numbers of R370. -/
def Master.number : Master → Nat
  | .mgmt => 1
  | .strand k => 2 + k.idx
  | .gallery .p1 false => 6
  | .gallery .p1 true => 7
  | .gallery .p2 false => 8
  | .gallery .p2 true => 9
  | .debug => 15

end Sys2Proof
end

