-- ==== Sys2Proof/Syntax.lean ====
section
/-! DEFINITION. The commands of the module, one constructor of `Instr` for each row of
spec/opcode_table.json, and the messages, frames and readings that the commands carry. -/

namespace Sys2Proof

/-! ### Messages of the lanes -/

/-- An occurrence as a publication lists it (R48, R52): source, vector, occurrence number. -/
structure Occ where
  src : BitVec 3
  vec : BitVec 8
  num : Half
deriving DecidableEq, Repr

/-- A publication (R48). The three counts "from each other strand" are indexed by that strand; the entry
of the strand itself is not sent. -/
structure Publication where
  strand : Strand
  point : Word
  lane : BitVec 2
  epoch : Bool
  armed : Bool
  idle : Bool
  fstale : Bool
  fnone : Bool
  timeP1 : Dword
  timeP2 : Dword
  tstatP1 : BitVec 2
  tstatP2 : BitVec 2
  fseq : Half
  sqIn : Quad Half
  sqRxPop : Quad Half
  sqCredPop : Quad Half
  sig : Dword
  digest : Dword
  cfgCrc : Word
  nOcc : BitVec 6
  occ : List Occ
deriving DecidableEq, Repr

/-- A pair of lanes named by a pair claim (R49). -/
inductive Pair where
  | ab | ac | bc
deriving DecidableEq, Repr

structure PairClaim where
  strand : Strand
  point : Word
  sender : Lane
  pair : Pair
deriving DecidableEq, Repr

structure LateClaim where
  strand : Strand
  point : Word
  sender : Lane
  repl : Lane
deriving DecidableEq, Repr

/-- Causes of exclusion and halt (R124). -/
inductive Cause where
  | none | mismatch | odd | late | sumpEcc | roEcc | fetchOdd | sigOdd | scrub | split | diverge2oo2
  | voteFail | starved | laneRetired
deriving DecidableEq, Repr

/-- One channel's part of a field sample triple (R324). -/
structure ChannelSample where
  di : Word
  diValid : Word
  ai : List Half
  aiValid : List Bool
deriving DecidableEq, Repr

/-- A field sample triple, numbered (R324). -/
structure Triple where
  seq : Half
  ch : Tri ChannelSample
deriving DecidableEq, Repr

/-- A beat of a device access (R90). -/
structure Beat where
  strand : Strand
  ordinal : Word
  isRead : Bool
  addr : Nat
  be : Byte
  data : Dword
deriving DecidableEq, Repr

/-- What the protection of the sump entries of an ordinal, or of its read-once buffer entry, finds when they are read (R97, R99):
`ok`, a correctable or an uncorrectable error in the sump entry of one replica (`sump…`) or in the read-once buffer
(`rob…`). -/
inductive BeatEcc where
  | ok
  | sumpCe (owner : Lane)
  | sumpUe (owner : Lane)
  | robCe
  | robUe
deriving DecidableEq, Repr

/-- A broadcast write into lane memory (R107), with the occurrence that announces it and its strand, if any (R109). -/
structure Broadcast where
  die : PDie
  strand : Strand
  addr : Addr
  bytes : List Byte
  unit : Byte
  occ : Option (Strand × Occ)
deriving DecidableEq, Repr

/-- A strand-queue message (R69): its send sequence number, its words, and how many messages its strand has sent to its
destination since power-good, this one included, by which every lane keeps the order of sending (R73). -/
structure SqMsg where
  seq : Half
  words : List Word
  count : Half
deriving DecidableEq, Repr

/-- What one KC64 instruction does that the module can see (R44, R158, R161): the KC64 reference itself is
outside the manual. `plain` stands for every instruction that touches no memory. -/
inductive KcOp where
  | plain
  | load (addr : Addr) (size : Nat)
  | store (addr : Addr) (bytes : List Byte)
  | mask (on : Bool)
  | fetch (addr : Addr)
  | mpuWrite (entry : Nat) (base limit : Addr) (denyR denyW denyX : Bool)
  | fault
deriving DecidableEq, Repr

/-! ### KTN frames -/

/-- The KTN header (R190). -/
structure KHeader where
  kind : BitVec 3
  mode : BitVec 3
  slot : BitVec 10
  sender : Byte
  hop : BitVec 7
  rsv0 : Bool
  cycle : Half
  status : Half
  corr : Word
  ver : BitVec 4
  rsv3 : Bool
  plen : BitVec 11
  hcrc : Half
deriving DecidableEq, Repr

/-- A KTN frame as it stands on a line (R189): destination and source address, EtherType, whether an IEEE 802.1Q tag stands
before it, header, the bytes between header and FCS (payload and padding) and whether its FCS is right. -/
structure KFrame where
  dst : BitVec 48
  src : BitVec 48
  etype : Half
  tagged : Bool
  hdr : KHeader
  payload : List Byte
  fcsOk : Bool
deriving DecidableEq, Repr

/-- A link delay frame (R234): its addresses, EtherType and payload. `ok` is false when its FCS is wrong. -/
structure LinkDelayFrame where
  dst : BitVec 48
  src : BitVec 48
  etype : Half
  serial : Word
  port : Byte
  rxValid : Bool
  seq : Half
  asym : Half
  rxSeq : Half
  txPrev : Dword
  rxPrev : Dword
  dcrc : Word
  ok : Bool
deriving DecidableEq, Repr

/-- A CAN frame (R313). -/
structure CanFrame where
  ide : Bool
  fdf : Bool
  brs : Bool
  id : BitVec 29
  esi : Bool
  rtr : Bool
  dlen : Byte
  data : List Byte
deriving DecidableEq, Repr

/-- What happened to the CAN frame a controller offered (R311, R314; ISO 11898-1). An error may be one of those that ISO 11898-1
excepts from counting, and further errors may follow while the error flag is sent; a ring frame may have an uncorrectable error
in the die's frame buffer (R289). -/
inductive CanTxEnd where
  | sent (time : Dword)
  | lostArbitration
  | error (lec : BitVec 3) (excepted : Bool) (inFlag : Nat)
  | ecc
deriving DecidableEq, Repr

/-- What happened to a frame seen on a CAN bus: `ue` tells of an uncorrectable error in the die's frame buffer (R289); after an
error a dominant bit may follow the node's error flag, and further errors may while it is sent (ISO 11898-1). -/
inductive CanRxEnd where
  | good (f : CanFrame) (time : Dword) (ue : Bool)
  | error (lec : BitVec 3) (dominantAfter : Bool) (inFlag : Nat)
deriving DecidableEq, Repr

/-! ### Other operands -/

/-- Clock references (R37). -/
inductive Ref where
  | lane (l : Lane)
  | port (p : PDie)
  | guard (p : PDie)
  | field
  | mgmt
  | aon
deriving DecidableEq, Repr

/-- Links with flit replay (R31). -/
inductive LinkId where
  | crawl (l other : Lane)
  | junction (l : Lane) (d : Die)
  | sideband
deriving DecidableEq, Repr

/-- Lane-wide fault classes and causes of retirement (R172). -/
inductive LaneFault where
  | none | replicas | dramUe | power | refclk | crawlway | laneUe
deriving DecidableEq, Repr

/-- Where an uncorrectable error of a lane memory lies (R169). -/
inductive UeLoc where
  | cleanCache
  | dirtyCache (l1 : Bool)
  | dram
  | sram
  | control
deriving DecidableEq, Repr

/-- What the DRAM patrol finds at one line (R171). -/
inductive PatrolFind where
  | clean | correctable | uncorrectable | busy
deriving DecidableEq, Repr

/-- Debug requests to a core (R160). -/
inductive DebugReq where
  | halt
  | step
  | run
  | modify (regs : List Dword) (mask : Bool)
  | poke (addr : Addr) (bytes : List Byte)
deriving DecidableEq, Repr

/-- Blocks with a commit register (R16, R20). -/
inductive CommitBlock where
  | tcfg (k : Strand)
  | tt (p : PDie)
  | gw (p : PDie)
  | fd
deriving DecidableEq, Repr

/-- The raw input of one digital input as one channel's comparator and current meter see it at a sample:
the terminal voltage in mV and the OFF-state current in µA (R323, R327). -/
structure DiRaw where
  mv : Int
  ua : Nat
deriving DecidableEq, Repr

/-- One channel's raw view of the 32 digital inputs, and of the 16 output terminals in mV (R335). -/
structure ChannelRaw where
  di : List DiRaw
  doMv : List Int
deriving DecidableEq, Repr

/-- What one channel's converter reads at an input, before its calibration (R385): µV in voltage mode, nA in current mode
(R339). -/
structure AiRaw where
  micro : Int
deriving DecidableEq, Repr

/-- A capture source edge (R265): the source number of SRC and the new level. -/
structure Edge where
  src : Nat
  rising : Bool
  time : Dword
deriving DecidableEq, Repr

/-- What the firmware finds outside the module's own state while it boots (R379): the identity memories
that answered, by I²C address (0 for the module's own), the slot ID contacts, the SLACK_MIN that each lane's governor
reads at each of the steps 0 to 8 at power-up (R413), the voltages in mV that the planner predicts for each lane's steps (R419),
what each lane received of the lane image when it differs from the image
(R380), and a lane-wide fault during the boot (R174), if any. -/
structure BootInput where
  memories : List (Nat × List Byte)
  slotId : BitVec 5
  slackAt : Tri (List Byte)
  predicted : Tri (List Nat)
  received : Tri (Option (List Byte))
  laneFault : Option LaneFault
deriving DecidableEq, Repr

/-- Who speaks to the service protocol (R395): an address and port on X6, or a node on KTN. -/
inductive Requester where
  | x6 (ip : Word) (port : Half)
  | ktn (p : PDie) (node : Byte)
deriving DecidableEq, Repr

/-- The frame of a service message other than its operation and body (R393). -/
structure SvcHead where
  from' : Requester
  seq : Half
  target : Word
  good : Bool
deriving DecidableEq, Repr

/-- The address and data of one write of a device register (R446): die-window or page offset, size in bytes,
data. -/
structure RegWrite where
  off : Nat
  size : Nat
  data : Dword
deriving DecidableEq, Repr

/-- A value that a lane receives for the step in force (R415): the GOV_LIMIT of another lane over the crawlway, or from M over the
sideband PLAN_CEIL of a lane or the ceiling of a strand. -/
inductive PaceValue where
  | limit (sender : Lane) (n : Nat)
  | plan (of' : Lane) (n : Nat)
  | ceiling (k : Strand) (n : Nat)
deriving DecidableEq, Repr

/-- What the sensors of a unit show (R410): the slack of each critical-path replica in 1/256 of the clock period, the counts
of the ring oscillators, and the temperatures in °C, two's complement. -/
structure GovReading where
  replicas : List Byte
  oscillators : List Word
  temps : List Byte
deriving DecidableEq, Repr

/-- The commands of the module: one constructor per row of spec/opcode_table.json, in its order. -/
inductive Instr where
  | genericRegisterWrite (m : Master) (u : RUnit) (w : RegWrite)
  | rcRead (m : Master) (u : RUnit) (off size : Nat)
  | absentUnitAccess (l : Lane) (k : Strand) (addr : Addr) (size : Nat) (write : Bool)
  | commitAbortedByReset (b : CommitBlock)
  | powerGood
  | boot (i : BootInput)
  | wdogRestart
  | refClockLost (r : Ref)
  | flitReplay (k : LinkId)
  | crawlwayLinkFailed (l other : Lane)
  | linkFail (l : Lane) (d : Die)
  | echoTimeout (l : Lane) (k : Strand) (point : Word)
  | kc64Instruction (l : Lane) (k : Strand) (op : KcOp) (regs : List Dword)
  | waitForEvent (l : Lane) (k : Strand)
  | idleAdvance (l : Lane) (k : Strand)
  | eventPoint (l : Lane) (k : Strand)
  | agreedSetApply (l : Lane) (k : Strand)
  | strandTimerExpire (l : Lane) (k : Strand) (t : Nat)
  | publicationReceive (l : Lane) (sender : Lane) (p : Publication)
  | pairClaimReceive (l : Lane) (c : PairClaim)
  | occurrenceLatch (l : Lane) (d : Die) (k : Strand) (o : Occ)
  | evSolo (l : Lane) (k : Strand) (o : Occ)
  | fstaleTimeout (l : Lane)
  | fieldTripleReceive (l : Lane) (t : Triple)
  | starveTimeout (l : Lane) (k : Strand)
  | starveClaimReceive (l sender : Lane) (k : Strand)
  | lateClaim (l : Lane) (k : Strand) (point : Word)
  | lateClaimReceive (l : Lane) (c : LateClaim)
  | sqSend (l : Lane) (k : Strand) (data : Word)
  | sqCopyArrive (l : Lane) (src dst : Strand) (m : SqMsg)
  | sqRxpop (l : Lane) (k : Strand) (data : Word)
  | epochMark (l : Lane) (k : Strand)
  | swEventSet (l : Lane) (k : Strand) (data : Word)
  | evPendClear (l : Lane) (k : Strand) (n : Nat) (data : Word)
  | tcfgCommitGo (l : Lane) (k : Strand)
  | tcfgGoTimeout (k : Strand)
  | beatSend (l : Lane) (k : Strand)
  | beatArrive (d : Die) (l : Lane) (b : Beat) (ecc : BeatEcc)
  | voterSkewTimeout (d : Die) (k : Strand) (ordinal : Word)
  | beatRelease (d : Die) (k : Strand) (ecc : BeatEcc)
  | readOncePerform (d : Die) (k : Strand) (ecc : BeatEcc)
  | rdTimeout (l : Lane) (k : Strand)
  | challengeBeatArrive (d : Die) (l : Lane) (k : Strand) (data : Dword)
  | exclusionNoticeReceive (l : Lane) (k : Strand) (repl : Lane) (c : Cause)
  | splitNoticeReceive (l : Lane) (k : Strand) (c : Cause)
  | fetchCopyArrive (p : PDie) (k : Strand) (id : Nat) (l : Lane) (ue : Bool)
  | fetchSkewTimeout (p : PDie) (k : Strand) (id : Nat)
  | broadcastWriteLand (l : Lane) (w : Broadcast) (ue : Bool)
  | scrubHashDone (l : Lane) (k : Strand)
  | scrubCompare (k : Strand)
  | restart (k : Strand) (image : List Byte) (received : Tri (Option (List Byte)))
  | rejoin (k : Strand) (repl : Lane)
  | abandon (k : Strand)
  | autoRejoinRequest (k : Strand) (repl : Lane)
  | rejoinStart (k : Strand)
  | copyPassEnd
  | rejoinHold
  | holdAck (p : PDie)
  | holdTimeout
  | joinNotice
  | stallOver
  | laneRetire (l : Lane) (c : LaneFault)
  | faultLineAssert (l : Lane) (c : LaneFault)
  | memoryUe (l : Lane) (loc : UeLoc) (addr : Addr)
  | patrolRead (l : Lane) (f : PatrolFind) (addr : Addr)
  | debugAttach (k : Strand) (repl : Lane)
  | debugRequest (l : Lane) (k : Strand) (r : DebugReq)
  | dbgEnChange (on : Bool)
  | portLinkChange (p : PDie) (port : Port) (up : Bool)
  | cycleStart (p : PDie)
  | cycleEndSync (p : PDie)
  | holdoverExpire (p : PDie)
  | ownFrameSend (p : PDie) (slot : Nat) (ue : Bool)
  | frameForward (p : PDie) (port : Port) (f : KFrame) (ago : Nat) (residence : Nat)
  | frameReceive (p : PDie) (port : Port) (f : KFrame) (ago : Nat) (ue : Bool)
  | pathDropExpire (p : PDie) (node : Byte)
  | modeRequest (p : PDie) (k : Strand) (data : Word)
  | modeReqReceive (p : PDie) (f : KFrame)
  | modeExpired (p : PDie)
  | listenTimeout (p : PDie)
  | backoffExpire (p : PDie)
  | idConflictClear (p : PDie)
  | inaugRecordExpire (p : PDie)
  | inaugViewStable (p : PDie)
  | linkDelaySend (p : PDie)
  | linkDelayReceive (p : PDie) (port : Port) (f : LinkDelayFrame) (ago : Nat)
  | linkDelayUpdate (p : PDie) (port : Port)
  | linkDelayStale (p : PDie) (port : Port)
  | ttCommitGo (p : PDie)
  | guardCommitReply (p : PDie)
  | guardTimeout (p : PDie)
  | ttCommitTakeEffect (p : PDie)
  | guardCommitCheck (p : PDie)
  | guardFrameTap (p : PDie) (port : Port) (own : Bool) (f : KFrame) (ago : Nat)
  | guardCycleEnd (p : PDie)
  | guardListenTimeout (p : PDie)
  | guardHoldExpire (p : PDie)
  | guardTxAttempt (p : PDie) (t : Dword)
  | guardLengthLimit (p : PDie) (t : Dword) (lasted : Nat)
  | guardReset (p : PDie)
  | guardFenceCommand (p : PDie) (l : Lane)
  | tsqPop (m : Master) (p : PDie) (port : Port)
  | triggerFire (p : PDie) (t : Nat)
  | triggerWrite (m : Master) (p : PDie) (w : RegWrite)
  | captureEdge (p : PDie) (c : Nat) (e : Edge)
  | dmaEnable (m : Master) (p : PDie) (ch : Nat)
  | dmaDisable (m : Master) (p : PDie) (ch : Nat)
  | resume (m : Master) (p : PDie) (ch : Nat)
  | dmaDoorbell (m : Master) (p : PDie) (ch : Nat) (data : Word)
  | descriptorStart (p : PDie) (ch : Nat)
  | descriptorComplete (p : PDie) (ch : Nat)
  | dmaBusTimeout (p : PDie) (k : Strand) (id : Nat) (l : Lane)
  | quiesceRequest (p : PDie) (domain : BitVec 3)
  | quiesceAck (p : PDie)
  | quiesceTimeout (p : PDie)
  | quiesceRelease (p : PDie)
  | gwCommitGo (p : PDie)
  | gwCommitTakeEffect (p : PDie)
  | pduArrival (p : PDie) (pdu : Nat) (payload : List Byte)
  | pduExchange (p : PDie) (pdu : Nat)
  | gwSwDataWrite (k : Strand) (p : PDie) (w : RegWrite)
  | gwSwPub (k : Strand) (p : PDie) (data : Word)
  | gwEventProcess (p : PDie) (second : Bool)
  | gwFreshnessScan (p : PDie) (e : Nat)
  | gwEcc (p : PDie) (corrected eng0 eng1 : Bool)
  | rrRequest (k : Strand) (p : PDie) (lo hi : Word)
  | rrServe (p : PDie)
  | rrResponseReceive (p : PDie) (payload : List Byte)
  | rrTimeout (p : PDie) (k : Strand) (tag : Nat)
  | rrFree (k : Strand) (p : PDie) (data : Word)
  | rrDiscard (p : PDie) (k : Strand) (tag : Nat)
  | canModeWrite (m : Master) (p : PDie) (second : Bool) (data : Word)
  | recover (m : Master) (p : PDie) (second : Bool)
  | canRecoveryDone (p : PDie) (second : Bool)
  | canFrameReceive (p : PDie) (second : Bool) (e : CanRxEnd)
  | canTransmit (p : PDie) (second : Bool) (e : CanTxEnd)
  | werrPop (m : Master) (d : Die) (q : Nat)
  | fieldSample (raw : Tri ChannelRaw)
  | fdCommitGo
  | channelSelfTest (ch : Lane) (pass : Bool)
  | triggerAnnounce (p : PDie) (ahead : Option Nat)
  | triggerFallback (action : BitVec 2)
  | outputUpdateInstant (p : PDie)
  | doCmdBeat (l : Lane) (k : Strand) (ordinal : Word) (data : Word)
  | outVerifyDelayExpire (n : Nat)
  | offPulseStart (n : Nat)
  | offPulseEnd (n : Nat)
  | overcurrent (n : Nat)
  | groupOvercurrent (second : Bool)
  | thermal (n : Nat)
  | doFaultClear (k : Strand) (data : Word)
  | fieldSupplyChange (second : Bool) (present : Bool)
  | aiConversionStart (trigger : Option PDie) (raw : Tri (List AiRaw))
  | aiDone
  | cosPop (k : Strand)
  | leaseFrameReceive (p : PDie) (port : Port) (own : Bool) (f : KFrame) (ago : Nat)
  | leaseCycleStart (p : PDie)
  | leaseCycleEnd (p : PDie)
  | leaseUnqualified (p : PDie)
  | armLease (p : PDie) (k : Strand)
  | disarm (p : PDie) (k : Strand)
  | release (p : PDie) (k : Strand)
  | modHeldChange
  | leaseStateSample (p : PDie)
  | mbTxword (m : Master) (n : Nat) (far : Bool) (data : Word)
  | mbTxdb (m : Master) (n : Nat) (far : Bool) (data : Word)
  | mbRxpop (m : Master) (n : Nat) (far : Bool) (data : Word)
  | mbRxdbClear (m : Master) (n : Nat) (far : Bool) (data : Word)
  | mbRxmaskWrite (m : Master) (n : Nat) (far : Bool) (data : Word)
  | rxReset (m : Master) (n : Nat) (far : Bool)
  | txReset (m : Master) (n : Nat) (far : Bool)
  | smLockRead (i : Nat) (readers : List Master)
  | smRelease (m : Master) (i : Nat) (data : Word)
  | smForce (m : Master) (data : Word)
  | info (h : SvcHead)
  | nonce (h : SvcHead) (value : List Byte)
  | auth (h : SvcHead) (slot : Nat) (key sig : List Byte)
  | logRead (h : SvcHead) (first : Word) (count : Nat)
  | identRead (h : SvcHead) (address : Nat)
  | stageBegin (h : SvcHead) (length : Nat) (crc : Word)
  | stageData (h : SvcHead) (offset : Nat) (bytes : List Byte)
  | stageEnd (h : SvcHead)
  | arm (h : SvcHead) (t : Dword)
  | cancel (h : SvcHead)
  | revert (h : SvcHead)
  | reboot (h : SvcHead)
  | debugAuth (h : SvcHead) (minutes : Nat)
  | debugRevoke (h : SvcHead)
  | updateRejected
  | sessionExpire
  | debugAuthExpire
  | updActivated
  | veto (k : Strand)
  | confirm (k : Strand)
  | successfulBoot
  | supplyInterruption
  | supplyReturn
  | holdupExhausted
  | governorReading (l : Lane) (r : GovReading)
  | govLimitRaise (l : Lane)
  | govLimitReceive (l : Lane) (v : PaceValue)
  | stepRaise (l : Lane)
  | dsCeilWrite (k : Strand) (writer : Master) (data : Word)
  | dsPlanWrite (l : Lane) (data : Word)
  | plannerSample (lanes : Tri GovReading) (ports : Duo GovReading)
  | plannerReplan (predicted : Tri (List Nat))
  | marginDailyRecord
  | refClockRestored (p : PDie)
  | networkTimeTimeout (l : Lane) (p : PDie)
deriving DecidableEq, Repr

end Sys2Proof
end

