-- ==== Sys2Proof/Config.lean ====
section
/-! DEFINITION. What the manual leaves to an implementation or to standards outside it: constants without a body.
A statement that holds of this model holds whatever their values are. -/

namespace Sys2Proof.Config

/-- Free values: the value the manual leaves open at the n-th occasion that needs one (log entry 6). -/
opaque freeValue : Nat → BitVec 64

/-- SHA-256 (FIPS 180-4), which the manual names and does not define (log entry 9). -/
opaque sha256 : List Byte → BitVec 256

/-- Whether an ECDSA P-256 signature over a message verifies under a public key (FIPS 186-5, log entry 9). -/
opaque signatureOk : (key message signature : List Byte) → Bool

/-- Whether an inexact quotient is rounded up, where the manual gives a result without the rounding (log entry 17). -/
opaque roundUp : (dividend : Int) → (divisor : Nat) → Bool

/-- The areas into which a configuration image divides the common region (R164): base, size, and whether P2 writes it. The
manual gives no record that holds them (log entry 21). -/
opaque imageAreas : List Byte → List (Nat × Nat × Bool)

/-- Buffers of a virtual channel at its receiver (R318), whose number the manual does not give (log entry 124). -/
opaque vcBuffers : Nat

end Sys2Proof.Config
end

