-- ==== Sys2Proof/Machine/Bits.lean ====
section
/-! DEFINITION. Bit fields of words, little-endian bytes and serial arithmetic. -/

namespace Sys2Proof.Machine

/-- Bits hi..lo of a word, as a number. -/
def fieldOf {n : Nat} (w : BitVec n) (hi lo : Nat) : Nat := (w.toNat >>> lo) % 2 ^ (hi + 1 - lo)

/-- The word whose bits hi..lo are 1. -/
def fieldMask (n hi lo : Nat) : BitVec n := BitVec.ofNat n ((2 ^ (hi + 1 - lo) - 1) <<< lo)

/-- The word with bits hi..lo replaced by the low bits of `v`. -/
def withField {n : Nat} (w : BitVec n) (hi lo : Nat) (v : Nat) : BitVec n :=
  (w &&& ~~~fieldMask n hi lo) ||| (BitVec.ofNat n (v <<< lo) &&& fieldMask n hi lo)

def bitOf {n : Nat} (w : BitVec n) (i : Nat) : Bool := w.getLsbD i

def withBit {n : Nat} (w : BitVec n) (i : Nat) (b : Bool) : BitVec n :=
  if b then w ||| BitVec.ofNat n (1 <<< i) else w &&& ~~~BitVec.ofNat n (1 <<< i)

def bitNat (b : Bool) : Nat := if b then 1 else 0

/-- A counter field that saturates at its largest value. -/
def satAdd (width x n : Nat) : Nat := min (x + n) (2 ^ width - 1)

/-- The low `n` bytes of a number, least significant first (R10). -/
def leBytes : Nat → Nat → List Byte
  | 0, _ => []
  | n + 1, v => BitVec.ofNat 8 v :: leBytes n (v / 256)

/-- The number that bytes spell, least significant first (R10). -/
def leNat : List Byte → Nat
  | [] => 0
  | b :: bs => b.toNat + 256 * leNat bs

/-- The number that bytes spell, most significant first. -/
def beNat (bs : List Byte) : Nat := leNat bs.reverse

/-- The halves of a doubleword (R11). -/
def loWord (d : Dword) : Word := d.extractLsb' 0 32
def hiWord (d : Dword) : Word := d.extractLsb' 32 32

/-- Byte i of a list, 0 beyond its end. -/
def byteAt (bs : List Byte) (i : Nat) : Byte := (bs[i]?).getD 0

/-- `n` bytes of a list from index `i`, with 0 beyond its end. -/
def slice (bs : List Byte) : Nat → Nat → List Byte
  | _, 0 => []
  | i, n + 1 => byteAt bs i :: slice bs (i + 1) n

/-- Little-endian number in `n` bytes of a list from index `i`. -/
def leAt (bs : List Byte) (i n : Nat) : Nat := leNat (slice bs i n)

/-- `a` comes before `b` in serial arithmetic of `n` bits (R340, R449). -/
def serialLt {n : Nat} (a b : BitVec n) : Bool := a != b && (b - a).toNat < 2 ^ (n - 1)

/-- The lower of two values in serial arithmetic (R449). -/
def serialMin {n : Nat} (a b : BitVec n) : BitVec n := if serialLt b a then b else a

/-- The higher of two values in serial arithmetic (R449). -/
def serialMax {n : Nat} (a b : BitVec n) : BitVec n := if serialLt a b then b else a

/-- Removes the first element equal to `x`. -/
def eraseFirst {α : Type} [DecidableEq α] (x : α) : List α → List α
  | [] => []
  | y :: t => if y = x then t else y :: eraseFirst x t

/-- The list with element i replaced (unchanged when there is none). -/
def setAt {α : Type} (xs : List α) (i : Nat) (x : α) : List α := xs.set i x

/-- Bit enables as a 64-bit mask: byte i of the mask is 0xFF where bit i is set. -/
def beMask (be : Byte) : Dword :=
  (List.range 8).foldl (fun m i => if be.getLsbD i then m ||| BitVec.ofNat 64 (255 <<< (8 * i)) else m) 0

/-- The part of a fixed 32-bit read pattern that an access of `size` bytes at `addr` returns, as bytes (R6). -/
def patternBytes (pat : Word) (addr size : Nat) : List Byte :=
  (List.range size).map fun i => byteAt (leBytes 4 pat.toNat) ((addr + i) % 4)

end Sys2Proof.Machine
end

