-- ==== Sys2Proof/Machine/Crc.lean ====
section
/-! DEFINITION. The cyclic redundancy codes the manual names. -/

namespace Sys2Proof.Machine

/-- One bit of a reflected (least significant bit first) CRC register. -/
def crcStep {n : Nat} (poly r : BitVec n) : BitVec n :=
  if r.getLsbD 0 then (r >>> 1) ^^^ poly else r >>> 1

def crcSteps {n : Nat} (poly : BitVec n) : Nat → BitVec n → BitVec n
  | 0, r => r
  | k + 1, r => crcSteps poly k (crcStep poly r)

/-- One byte into a reflected CRC register. -/
def crcByte {n : Nat} (poly r : BitVec n) (b : Byte) : BitVec n :=
  crcSteps poly 8 (r ^^^ b.zeroExtend n)

/-- Bytes into a reflected CRC register. -/
def crcFold {n : Nat} (poly : BitVec n) (r : BitVec n) (bs : List Byte) : BitVec n :=
  bs.foldl (crcByte poly) r

/-- The ECMA-182 polynomial 0x42F0_E1EB_A9EA_3693 in reflected order (R112). -/
def poly64 : Dword := 0xC96C5795D7870F42

/-- The signature's initial value (R112). -/
def sigInit : Dword := 0xFFFFFFFFFFFFFFFF

/-- CRC-64 of R112 and R113 over bytes: no final XOR. -/
def crc64 (bs : List Byte) : Dword := crcFold poly64 sigInit bs

/-- One bit of the header CRC, most significant bit first (R191). -/
def crc16Step (r : Half) : Half := if r.getLsbD 15 then (r <<< 1) ^^^ 0x1021 else r <<< 1

def crc16Steps : Nat → Half → Half
  | 0, r => r
  | k + 1, r => crc16Steps k (crc16Step r)

/-- CRC-16 of R191. -/
def crc16 (bs : List Byte) : Half :=
  bs.foldl (fun r b => crc16Steps 8 (r ^^^ BitVec.ofNat 16 (b.toNat <<< 8))) 0xFFFF

/-- The Castagnoli polynomial 0x1EDC_6F41 in reflected order (R196). -/
def poly32c : Word := 0x82F63B78

/-- CRC-32C of R196. -/
def crc32c (bs : List Byte) : Word := crcFold poly32c 0xFFFFFFFF bs ^^^ 0xFFFFFFFF

/-- CRC-32C over 32-bit values, each as 4 bytes least significant first (R206). -/
def crc32cWords (ws : List Word) : Word := crc32c (ws.flatMap fun w => leBytes 4 w.toNat)

end Sys2Proof.Machine
end

