-- ==== Sys2Proof/Machine/RegNames.lean ====
section
/-! DEFINITION. The registers of the manual: one name for each, and the key of each in its register space (the
strand page of strand k lies at k × 0x1_0000 and the lane-common page at 0x8_0000 of a lane's space; a consumer
die's space is its 256 MiB window). Each offset is the one the rule named beside it gives. -/

namespace Sys2Proof.Machine

/-- The registers. -/
inductive RegId where
  | mgCaps | lnIcountLo | lnIcountHi | lnPointLo | lnPointHi | lnEpochLo | lnEpochHi | lnStimeLo
  | lnStimeHi | lnStimeStat | lnTcfg | lnRepl | lnFinSeq | lnFinDi | lnFinDqLo | lnFinDqHi | lnFinAi
  | lnSqTxbuf | lnSqSend | lnSqCred | lnSqDrop | lnSqRxsel | lnSqRxcnt | lnSqRxhdr | lnSqRxpop | lnSqRxbuf
  | lnTcfgStg | lnTcfgCommit | ecPairs | ecLeadMax | ecSkewMax | ecXchgMax | ecFaults | ecStat | ecLink
  | vtChkCfg | vtScrub | vtSigcmp | vtLcause | vtStat | vtCause | vtOrd | vtCnt | vtSumpHwm | vtRob
  | vtChal | vtFence | rjCfg | rjCmd | rjStat | rjDirty | rjStall | rjHist | rjLane | rjDbg | lnEvPend
  | lnEvEn | lnEvSwset | lnEvCur | lnTmrCmpLo | lnTmrCmpHi | lnTmrPer | lnTmrCtl | lnTmrMiss | lnEccCnt
  | lnEccAddrLo | lnEccAddrHi | lnPatrol | lnLfault | ttCfg | ttCfgStg | ttTimeCfg | ttTimeCfgStg
  | ttSynclist | ttSynclistStg | ttCslist | ttCslistStg | ttAuth | ttAuthStg | ttCommit | ttTblCrc
  | ttTblCrcStg | ttGdCrc | ttState | ttCycle | ttStatusWord | ttInaug | ttModeReq | ttModeStat | ttErr0
  | ttErr1 | ttErr2 | ttModeCyc | ttModeCycStg | ttModeSel | ttModeSelStg | tbTimeLo | tbTimeHi | tbStat
  | tbRate | tbMid | tbCfg | tbPath | tbWin | tbAsym | tbLink | tbNbr | tbSync | tbTrigCmpLo | tbTrigCmpHi
  | tbTrigPer | tbTrigCtl | tbCapLo | tbCapHi | tbCapCtl | tbCapStat | pdTsqPop | pdTsqTimeLo | pdTsqTimeHi
  | pdTsqOvf | pdTsqOwn | gdStat | gdViol | gdCtl | gdFence | gdLimits | gdLimitsStg | dmBaseLo | dmBaseHi
  | dmRcfg | dmCtl | dmDb | dmStat | dmIdx | dmErrLo | dmErrHi | dmCnt | dmOwn | dmCfg | dmQuiesce | dmHold
  | gwCommit | gwStat | gwCnt | gwRrCfg | gwSwPub | gwStale | gwObj | gwObjStg | fdStat | fdCommit
  | fdTrigSel | fdDiType | fdDiTypeStg | fdDiWben | fdDiWbenStg | fdDiOwnLo | fdDiOwnHi | fdDiOwnStgLo
  | fdDiOwnStgHi | fdDiCosLo | fdDiCosHi | fdDiFilt | fdDiFiltStg | fdDoOwn | fdDoOwnStg | fdDoCfg
  | fdDoCfgStg | fdDoTime | fdDoTimeStg | fdAiCfg | fdAiCfgStg | fdAiLim | fdAiLimStg | fdDoCmd | fdDoClr
  | fdDoStat | fdDoFltLo | fdDoFltHi | fdDoLatch | fdDoPulse | fdWbStat | fdAiStat | fdCosPop | fdCosTimeLo
  | fdCosTimeHi | fdCosOvf | lsCfg | lsPair | lsPserial | lsBind | lsCmd | lsStat | lsCnt | fdLsBind
  | smLock | smPeek | smForce | smStat | mgStat | mgPwr | mgSerial | mgSlots | mgUpd | mgUpdTLo | mgUpdTHi
  | mgUpdCtl | mgPkg | mgPkgVer | mgSec | mgDbg | mgDisagree | dsStep | dsCeil | dsLane | dsPlan | dsMargin
  | dsStat | mgBoard | ttSlotLo | ttSlotHi | ttSlotLoStg | ttSlotHiStg | gdCfg | gdCfgStg | gdTimeCfg
  | gdTimeCfgStg | gdSynclist | gdSynclistStg | gdCslist | gdCslistStg | gdAuth | gdAuthStg | gdTblCrc
  | gdTblCrcStg | gdModeCyc | gdModeCycStg | gdModeSel | gdModeSelStg | gdSlotLo | gdSlotHi | gdSlotLoStg
  | gdSlotHiStg | gwPduCfg | gwPduCfgStg | gwPduBuf | gwPduBufStg | gwPduMap | gwPduMapStg | gwPduKey
  | gwPduKeyStg | gwMap | gwMapStg | gwSwData | gwRrReqLo | gwRrReqHi | gwRrSel | gwRrHdr | gwRrFree
  | gwRrStat | gwRrData | cnCtl | cnNbt | cnDbt | cnStat | cnCnt | cnFltId | cnFltIdStg | cnFltMask
  | cnFltMaskStg | cnFltRt | cnFltRtStg | pdWerrPop | pdWerrAddrLo | pdWerrAddrHi | pdWerrOvf | mbTxword
  | mbTxdb | mbTxstat | mbRxhdr | mbRxpop | mbRxdb | mbRxmask | mbRxstat | mbCtl | mbRxdata
deriving DecidableEq, Repr

namespace Reg

/-- `MG_CAPS` (R4) -/
def mgCaps : Nat := 0x0
/-- `LN_ICOUNT_LO` (R87) -/
def lnIcountLo (k : Strand) : Nat := k.idx * 0x10000 + 0x0
/-- `LN_ICOUNT_HI` (R87) -/
def lnIcountHi (k : Strand) : Nat := k.idx * 0x10000 + 0x4
/-- `LN_POINT_LO` (R87) -/
def lnPointLo (k : Strand) : Nat := k.idx * 0x10000 + 0x8
/-- `LN_POINT_HI` (R87) -/
def lnPointHi (k : Strand) : Nat := k.idx * 0x10000 + 0xc
/-- `LN_EPOCH_LO` (R87) -/
def lnEpochLo (k : Strand) : Nat := k.idx * 0x10000 + 0x10
/-- `LN_EPOCH_HI` (R87) -/
def lnEpochHi (k : Strand) : Nat := k.idx * 0x10000 + 0x14
/-- `LN_STIME_LO` (R87) -/
def lnStimeLo (k : Strand) : Nat := k.idx * 0x10000 + 0x18
/-- `LN_STIME_HI` (R87) -/
def lnStimeHi (k : Strand) : Nat := k.idx * 0x10000 + 0x1c
/-- `LN_STIME_STAT` (R87) -/
def lnStimeStat (k : Strand) : Nat := k.idx * 0x10000 + 0x20
/-- `LN_TCFG` (R87) -/
def lnTcfg (k : Strand) : Nat := k.idx * 0x10000 + 0x24
/-- `LN_REPL` (R87) -/
def lnRepl (k : Strand) : Nat := k.idx * 0x10000 + 0x28
/-- `LN_FIN_SEQ` (R87) -/
def lnFinSeq (k : Strand) : Nat := k.idx * 0x10000 + 0x40
/-- `LN_FIN_DI` (R87) -/
def lnFinDi (k : Strand) : Nat := k.idx * 0x10000 + 0x44
/-- `LN_FIN_DQ_LO` (R87) -/
def lnFinDqLo (k : Strand) : Nat := k.idx * 0x10000 + 0x48
/-- `LN_FIN_DQ_HI` (R87) -/
def lnFinDqHi (k : Strand) : Nat := k.idx * 0x10000 + 0x4c
/-- `LN_FIN_AI`[i] (R87) -/
def lnFinAi (k : Strand) (i : Nat) : Nat := k.idx * 0x10000 + 0x50 + i * 4
/-- `LN_SQ_TXBUF`[i] (R87) -/
def lnSqTxbuf (k : Strand) (i : Nat) : Nat := k.idx * 0x10000 + 0x100 + i * 4
/-- `LN_SQ_SEND` (R87) -/
def lnSqSend (k : Strand) : Nat := k.idx * 0x10000 + 0x140
/-- `LN_SQ_CRED` (R87) -/
def lnSqCred (k : Strand) : Nat := k.idx * 0x10000 + 0x144
/-- `LN_SQ_DROP` (R87) -/
def lnSqDrop (k : Strand) : Nat := k.idx * 0x10000 + 0x148
/-- `LN_SQ_RXSEL` (R87) -/
def lnSqRxsel (k : Strand) : Nat := k.idx * 0x10000 + 0x14c
/-- `LN_SQ_RXCNT` (R87) -/
def lnSqRxcnt (k : Strand) : Nat := k.idx * 0x10000 + 0x150
/-- `LN_SQ_RXHDR` (R87) -/
def lnSqRxhdr (k : Strand) : Nat := k.idx * 0x10000 + 0x154
/-- `LN_SQ_RXPOP` (R87) -/
def lnSqRxpop (k : Strand) : Nat := k.idx * 0x10000 + 0x158
/-- `LN_SQ_RXBUF`[i] (R87) -/
def lnSqRxbuf (k : Strand) (i : Nat) : Nat := k.idx * 0x10000 + 0x180 + i * 4
/-- `LN_TCFG_STG`[i] (R87) -/
def lnTcfgStg (i : Nat) : Nat := 0x80100 + i * 16
/-- `LN_TCFG_COMMIT`[i] (R87) -/
def lnTcfgCommit (i : Nat) : Nat := 0x80104 + i * 16
/-- `EC_PAIRS`[i] (R87) -/
def ecPairs (i : Nat) : Nat := 0x81000 + i * 64
/-- `EC_LEAD_MAX`[i] (R87) -/
def ecLeadMax (i : Nat) : Nat := 0x81004 + i * 64
/-- `EC_SKEW_MAX`[i] (R87) -/
def ecSkewMax (i : Nat) : Nat := 0x81008 + i * 64
/-- `EC_XCHG_MAX`[i] (R87) -/
def ecXchgMax (i : Nat) : Nat := 0x8100c + i * 64
/-- `EC_FAULTS`[i] (R87) -/
def ecFaults (i : Nat) : Nat := 0x81010 + i * 64
/-- `EC_STAT`[i] (R87) -/
def ecStat (i : Nat) : Nat := 0x81014 + i * 64
/-- `EC_LINK`[i] (R87) -/
def ecLink (i : Nat) : Nat := 0x81100 + i * 4
/-- `VT_CHK_CFG`[i] (R125) -/
def vtChkCfg (i : Nat) : Nat := 0x82000 + i * 32
/-- `VT_SCRUB`[i] (R125) -/
def vtScrub (i : Nat) : Nat := 0x82004 + i * 32
/-- `VT_SIGCMP`[i] (R125) -/
def vtSigcmp (i : Nat) : Nat := 0x82008 + i * 32
/-- `VT_LCAUSE`[i] (R125) -/
def vtLcause (i : Nat) : Nat := 0x8200c + i * 32
/-- `VT_STAT`[i] (R125) -/
def vtStat (i : Nat) : Nat := 0xf000000 + i * 64
/-- `VT_CAUSE`[i] (R125) -/
def vtCause (i : Nat) : Nat := 0xf000004 + i * 64
/-- `VT_ORD`[i] (R125) -/
def vtOrd (i : Nat) : Nat := 0xf000008 + i * 64
/-- `VT_CNT`[i] (R125) -/
def vtCnt (i : Nat) : Nat := 0xf00000c + i * 64
/-- `VT_SUMP_HWM`[i] (R125) -/
def vtSumpHwm (i : Nat) : Nat := 0xf000010 + i * 64
/-- `VT_ROB`[i] (R125) -/
def vtRob (i : Nat) : Nat := 0xf000014 + i * 64
/-- `VT_CHAL`[i] (R125) -/
def vtChal (i : Nat) : Nat := 0xf000018 + i * 64
/-- `VT_FENCE` (R125) -/
def vtFence : Nat := 0xf000100
/-- `RJ_CFG` (R154) -/
def rjCfg : Nat := 0x83000
/-- `RJ_CMD` (R154) -/
def rjCmd : Nat := 0x83004
/-- `RJ_STAT`[i] (R154) -/
def rjStat (i : Nat) : Nat := 0x83010 + i * 16
/-- `RJ_DIRTY`[i] (R154) -/
def rjDirty (i : Nat) : Nat := 0x83014 + i * 16
/-- `RJ_STALL`[i] (R154) -/
def rjStall (i : Nat) : Nat := 0x83018 + i * 16
/-- `RJ_HIST`[i] (R154) -/
def rjHist (i : Nat) : Nat := 0x8301c + i * 16
/-- `RJ_LANE` (R154) -/
def rjLane : Nat := 0x83100
/-- `RJ_DBG` (R154) -/
def rjDbg : Nat := 0x83104
/-- `LN_EV_PEND`[i] (R182) -/
def lnEvPend (k : Strand) (i : Nat) : Nat := k.idx * 0x10000 + 0x400 + i * 4
/-- `LN_EV_EN`[i] (R182) -/
def lnEvEn (k : Strand) (i : Nat) : Nat := k.idx * 0x10000 + 0x420 + i * 4
/-- `LN_EV_SWSET` (R182) -/
def lnEvSwset (k : Strand) : Nat := k.idx * 0x10000 + 0x440
/-- `LN_EV_CUR` (R182) -/
def lnEvCur (k : Strand) : Nat := k.idx * 0x10000 + 0x444
/-- `LN_TMR_CMP_LO`[i] (R182) -/
def lnTmrCmpLo (k : Strand) (i : Nat) : Nat := k.idx * 0x10000 + 0x480 + i * 8
/-- `LN_TMR_CMP_HI`[i] (R182) -/
def lnTmrCmpHi (k : Strand) (i : Nat) : Nat := k.idx * 0x10000 + 0x484 + i * 8
/-- `LN_TMR_PER`[i] (R182) -/
def lnTmrPer (k : Strand) (i : Nat) : Nat := k.idx * 0x10000 + 0x4a0 + i * 4
/-- `LN_TMR_CTL` (R182) -/
def lnTmrCtl (k : Strand) : Nat := k.idx * 0x10000 + 0x4b0
/-- `LN_TMR_MISS` (R182) -/
def lnTmrMiss (k : Strand) : Nat := k.idx * 0x10000 + 0x4b4
/-- `LN_ECC_CNT` (R182) -/
def lnEccCnt : Nat := 0x84000
/-- `LN_ECC_ADDR_LO` (R182) -/
def lnEccAddrLo : Nat := 0x84008
/-- `LN_ECC_ADDR_HI` (R182) -/
def lnEccAddrHi : Nat := 0x8400c
/-- `LN_PATROL` (R182) -/
def lnPatrol : Nat := 0x84010
/-- `LN_LFAULT` (R182) -/
def lnLfault : Nat := 0x84014
/-- `TT_CFG` (R230) -/
def ttCfg : Nat := 0x1000000
/-- `TT_CFG_STG` (R230) -/
def ttCfgStg : Nat := 0x1000004
/-- `TT_TIME_CFG` (R230) -/
def ttTimeCfg : Nat := 0x1000008
/-- `TT_TIME_CFG_STG` (R230) -/
def ttTimeCfgStg : Nat := 0x100000c
/-- `TT_SYNCLIST`[i] (R230) -/
def ttSynclist (i : Nat) : Nat := 0x1000010 + i * 4
/-- `TT_SYNCLIST_STG`[i] (R230) -/
def ttSynclistStg (i : Nat) : Nat := 0x1000018 + i * 4
/-- `TT_CSLIST`[i] (R230) -/
def ttCslist (i : Nat) : Nat := 0x1000020 + i * 4
/-- `TT_CSLIST_STG`[i] (R230) -/
def ttCslistStg (i : Nat) : Nat := 0x1000028 + i * 4
/-- `TT_AUTH`[i] (R230) -/
def ttAuth (i : Nat) : Nat := 0x1000030 + i * 4
/-- `TT_AUTH_STG`[i] (R230) -/
def ttAuthStg (i : Nat) : Nat := 0x1000038 + i * 4
/-- `TT_COMMIT` (R230) -/
def ttCommit : Nat := 0x1000040
/-- `TT_TBL_CRC` (R230) -/
def ttTblCrc : Nat := 0x1000044
/-- `TT_TBL_CRC_STG` (R230) -/
def ttTblCrcStg : Nat := 0x1000048
/-- `TT_GD_CRC` (R230) -/
def ttGdCrc : Nat := 0x100004c
/-- `TT_STATE` (R230) -/
def ttState : Nat := 0x1000080
/-- `TT_CYCLE` (R230) -/
def ttCycle : Nat := 0x1000084
/-- `TT_STATUS_WORD` (R230) -/
def ttStatusWord : Nat := 0x1000088
/-- `TT_INAUG` (R230) -/
def ttInaug : Nat := 0x100008c
/-- `TT_MODE_REQ` (R230) -/
def ttModeReq : Nat := 0x1000090
/-- `TT_MODE_STAT` (R230) -/
def ttModeStat : Nat := 0x1000094
/-- `TT_ERR0` (R230) -/
def ttErr0 : Nat := 0x10000a0
/-- `TT_ERR1` (R230) -/
def ttErr1 : Nat := 0x10000a4
/-- `TT_ERR2` (R230) -/
def ttErr2 : Nat := 0x10000a8
/-- `TT_MODE_CYC`[i] (R230) -/
def ttModeCyc (i : Nat) : Nat := 0x1001000 + i * 16
/-- `TT_MODE_CYC_STG`[i] (R230) -/
def ttModeCycStg (i : Nat) : Nat := 0x1001004 + i * 16
/-- `TT_MODE_SEL`[i] (R230) -/
def ttModeSel (i : Nat) : Nat := 0x1001008 + i * 16
/-- `TT_MODE_SEL_STG`[i] (R230) -/
def ttModeSelStg (i : Nat) : Nat := 0x100100c + i * 16
/-- `TB_TIME_LO` (R266) -/
def tbTimeLo : Nat := 0x2000000
/-- `TB_TIME_HI` (R266) -/
def tbTimeHi : Nat := 0x2000004
/-- `TB_STAT` (R266) -/
def tbStat : Nat := 0x2000008
/-- `TB_RATE` (R266) -/
def tbRate : Nat := 0x200000c
/-- `TB_MID` (R266) -/
def tbMid : Nat := 0x2000010
/-- `TB_CFG` (R266) -/
def tbCfg : Nat := 0x2000014
/-- `TB_PATH` (R266) -/
def tbPath : Nat := 0x2000018
/-- `TB_WIN` (R266) -/
def tbWin : Nat := 0x200001c
/-- `TB_ASYM`[i] (R266) -/
def tbAsym (i : Nat) : Nat := 0x2000020 + i * 4
/-- `TB_LINK`[i] (R266) -/
def tbLink (i : Nat) : Nat := 0x2000028 + i * 4
/-- `TB_NBR`[i] (R266) -/
def tbNbr (i : Nat) : Nat := 0x2000030 + i * 4
/-- `TB_SYNC`[i] (R266) -/
def tbSync (i : Nat) : Nat := 0x2000040 + i * 4
/-- `TB_TRIG_CMP_LO`[i] (R266) -/
def tbTrigCmpLo (i : Nat) : Nat := 0x2001000 + i * 16
/-- `TB_TRIG_CMP_HI`[i] (R266) -/
def tbTrigCmpHi (i : Nat) : Nat := 0x2001004 + i * 16
/-- `TB_TRIG_PER`[i] (R266) -/
def tbTrigPer (i : Nat) : Nat := 0x2001008 + i * 16
/-- `TB_TRIG_CTL`[i] (R266) -/
def tbTrigCtl (i : Nat) : Nat := 0x200100c + i * 16
/-- `TB_CAP_LO`[i] (R266) -/
def tbCapLo (i : Nat) : Nat := 0x2002000 + i * 16
/-- `TB_CAP_HI`[i] (R266) -/
def tbCapHi (i : Nat) : Nat := 0x2002004 + i * 16
/-- `TB_CAP_CTL`[i] (R266) -/
def tbCapCtl (i : Nat) : Nat := 0x2002008 + i * 16
/-- `TB_CAP_STAT`[i] (R266) -/
def tbCapStat (i : Nat) : Nat := 0x200200c + i * 16
/-- `PD_TSQ_POP`[i] (R266) -/
def pdTsqPop (i : Nat) : Nat := 0x1000 + i * 16
/-- `PD_TSQ_TIME_LO`[i] (R266) -/
def pdTsqTimeLo (i : Nat) : Nat := 0x1004 + i * 16
/-- `PD_TSQ_TIME_HI`[i] (R266) -/
def pdTsqTimeHi (i : Nat) : Nat := 0x1008 + i * 16
/-- `PD_TSQ_OVF`[i] (R266) -/
def pdTsqOvf (i : Nat) : Nat := 0x100c + i * 16
/-- `PD_TSQ_OWN` (R266) -/
def pdTsqOwn : Nat := 0x1040
/-- `GD_STAT` (R266) -/
def gdStat : Nat := 0x3000000
/-- `GD_VIOL` (R266) -/
def gdViol : Nat := 0x3000004
/-- `GD_CTL` (R266) -/
def gdCtl : Nat := 0x3000008
/-- `GD_FENCE` (R266) -/
def gdFence : Nat := 0x300000c
/-- `GD_LIMITS` (R266) -/
def gdLimits : Nat := 0x3000010
/-- `GD_LIMITS_STG` (R266) -/
def gdLimitsStg : Nat := 0x3000014
/-- `DM_BASE_LO`[i] (R293) -/
def dmBaseLo (i : Nat) : Nat := 0x4000000 + i * 64
/-- `DM_BASE_HI`[i] (R293) -/
def dmBaseHi (i : Nat) : Nat := 0x4000004 + i * 64
/-- `DM_RCFG`[i] (R293) -/
def dmRcfg (i : Nat) : Nat := 0x4000008 + i * 64
/-- `DM_CTL`[i] (R293) -/
def dmCtl (i : Nat) : Nat := 0x400000c + i * 64
/-- `DM_DB`[i] (R293) -/
def dmDb (i : Nat) : Nat := 0x4000010 + i * 64
/-- `DM_STAT`[i] (R293) -/
def dmStat (i : Nat) : Nat := 0x4000014 + i * 64
/-- `DM_IDX`[i] (R293) -/
def dmIdx (i : Nat) : Nat := 0x4000018 + i * 64
/-- `DM_ERR_LO`[i] (R293) -/
def dmErrLo (i : Nat) : Nat := 0x400001c + i * 64
/-- `DM_ERR_HI`[i] (R293) -/
def dmErrHi (i : Nat) : Nat := 0x4000020 + i * 64
/-- `DM_CNT`[i] (R293) -/
def dmCnt (i : Nat) : Nat := 0x4000024 + i * 64
/-- `DM_OWN`[i] (R293) -/
def dmOwn (i : Nat) : Nat := 0x4000028 + i * 64
/-- `DM_CFG` (R293) -/
def dmCfg : Nat := 0x4001000
/-- `DM_QUIESCE` (R293) -/
def dmQuiesce : Nat := 0x4001004
/-- `DM_HOLD` (R293) -/
def dmHold : Nat := 0x4001008
/-- `GW_COMMIT` (R321) -/
def gwCommit : Nat := 0x6000000
/-- `GW_STAT` (R321) -/
def gwStat : Nat := 0x6000004
/-- `GW_CNT`[i] (R321) -/
def gwCnt (i : Nat) : Nat := 0x6000010 + i * 4
/-- `GW_RR_CFG` (R321) -/
def gwRrCfg : Nat := 0x6000020
/-- `GW_SW_PUB` (R321) -/
def gwSwPub : Nat := 0x6000030
/-- `GW_STALE`[i] (R321) -/
def gwStale (i : Nat) : Nat := 0x6030000 + i * 4
/-- `GW_OBJ`[i] (R321) -/
def gwObj (i : Nat) : Nat := 0x6031000 + i * 4
/-- `GW_OBJ_STG`[i] (R321) -/
def gwObjStg (i : Nat) : Nat := 0x6031400 + i * 4
/-- `FD_STAT` (R343) -/
def fdStat : Nat := 0x1000000
/-- `FD_COMMIT` (R343) -/
def fdCommit : Nat := 0x1000004
/-- `FD_TRIG_SEL` (R343) -/
def fdTrigSel : Nat := 0x1000008
/-- `FD_DI_TYPE` (R343) -/
def fdDiType : Nat := 0x1000010
/-- `FD_DI_TYPE_STG` (R343) -/
def fdDiTypeStg : Nat := 0x1000014
/-- `FD_DI_WBEN` (R343) -/
def fdDiWben : Nat := 0x1000018
/-- `FD_DI_WBEN_STG` (R343) -/
def fdDiWbenStg : Nat := 0x100001c
/-- `FD_DI_OWN_LO` (R343) -/
def fdDiOwnLo : Nat := 0x1000020
/-- `FD_DI_OWN_HI` (R343) -/
def fdDiOwnHi : Nat := 0x1000024
/-- `FD_DI_OWN_STG_LO` (R343) -/
def fdDiOwnStgLo : Nat := 0x1000028
/-- `FD_DI_OWN_STG_HI` (R343) -/
def fdDiOwnStgHi : Nat := 0x100002c
/-- `FD_DI_COS_LO` (R343) -/
def fdDiCosLo : Nat := 0x1000030
/-- `FD_DI_COS_HI` (R343) -/
def fdDiCosHi : Nat := 0x1000034
/-- `FD_DI_FILT`[i] (R343) -/
def fdDiFilt (i : Nat) : Nat := 0x1000100 + i * 4
/-- `FD_DI_FILT_STG`[i] (R343) -/
def fdDiFiltStg (i : Nat) : Nat := 0x1000180 + i * 4
/-- `FD_DO_OWN` (R343) -/
def fdDoOwn : Nat := 0x1000200
/-- `FD_DO_OWN_STG` (R343) -/
def fdDoOwnStg : Nat := 0x1000204
/-- `FD_DO_CFG` (R343) -/
def fdDoCfg : Nat := 0x1000208
/-- `FD_DO_CFG_STG` (R343) -/
def fdDoCfgStg : Nat := 0x100020c
/-- `FD_DO_TIME` (R343) -/
def fdDoTime : Nat := 0x1000210
/-- `FD_DO_TIME_STG` (R343) -/
def fdDoTimeStg : Nat := 0x1000214
/-- `FD_AI_CFG`[i] (R343) -/
def fdAiCfg (i : Nat) : Nat := 0x1000300 + i * 4
/-- `FD_AI_CFG_STG`[i] (R343) -/
def fdAiCfgStg (i : Nat) : Nat := 0x1000320 + i * 4
/-- `FD_AI_LIM`[i] (R343) -/
def fdAiLim (i : Nat) : Nat := 0x1000340 + i * 4
/-- `FD_AI_LIM_STG`[i] (R343) -/
def fdAiLimStg (i : Nat) : Nat := 0x1000360 + i * 4
/-- `FD_DO_CMD` (R343) -/
def fdDoCmd : Nat := 0x1000400
/-- `FD_DO_CLR` (R343) -/
def fdDoClr : Nat := 0x1000404
/-- `FD_DO_STAT` (R343) -/
def fdDoStat : Nat := 0x1000408
/-- `FD_DO_FLT_LO` (R343) -/
def fdDoFltLo : Nat := 0x1000410
/-- `FD_DO_FLT_HI` (R343) -/
def fdDoFltHi : Nat := 0x1000414
/-- `FD_DO_LATCH`[i] (R343) -/
def fdDoLatch (i : Nat) : Nat := 0x1000420 + i * 4
/-- `FD_DO_PULSE` (R343) -/
def fdDoPulse : Nat := 0x1000430
/-- `FD_WB_STAT` (R343) -/
def fdWbStat : Nat := 0x1000440
/-- `FD_AI_STAT` (R343) -/
def fdAiStat : Nat := 0x1000444
/-- `FD_COS_POP` (R343) -/
def fdCosPop : Nat := 0x1000500
/-- `FD_COS_TIME_LO` (R343) -/
def fdCosTimeLo : Nat := 0x1000504
/-- `FD_COS_TIME_HI` (R343) -/
def fdCosTimeHi : Nat := 0x1000508
/-- `FD_COS_OVF` (R343) -/
def fdCosOvf : Nat := 0x100050c
/-- `LS_CFG` (R360) -/
def lsCfg : Nat := 0x7000000
/-- `LS_PAIR` (R360) -/
def lsPair : Nat := 0x7000004
/-- `LS_PSERIAL` (R360) -/
def lsPserial : Nat := 0x700000c
/-- `LS_BIND` (R360) -/
def lsBind : Nat := 0x7000008
/-- `LS_CMD` (R360) -/
def lsCmd : Nat := 0x7000010
/-- `LS_STAT` (R360) -/
def lsStat : Nat := 0x7000014
/-- `LS_CNT` (R360) -/
def lsCnt : Nat := 0x7000018
/-- `FD_LS_BIND` (R360) -/
def fdLsBind : Nat := 0x1000600
/-- `SM_LOCK`[i] (R376) -/
def smLock (i : Nat) : Nat := 0x3000000 + i * 4
/-- `SM_PEEK`[i] (R376) -/
def smPeek (i : Nat) : Nat := 0x3000100 + i * 4
/-- `SM_FORCE` (R376) -/
def smForce : Nat := 0x3000200
/-- `SM_STAT` (R376) -/
def smStat : Nat := 0x3000204
/-- `MG_STAT` (R409) -/
def mgStat : Nat := 0x4
/-- `MG_PWR` (R409) -/
def mgPwr : Nat := 0x8
/-- `MG_SERIAL` (R409) -/
def mgSerial : Nat := 0xc
/-- `MG_SLOTS` (R409) -/
def mgSlots : Nat := 0x10
/-- `MG_UPD` (R409) -/
def mgUpd : Nat := 0x14
/-- `MG_UPD_T_LO` (R409) -/
def mgUpdTLo : Nat := 0x18
/-- `MG_UPD_T_HI` (R409) -/
def mgUpdTHi : Nat := 0x1c
/-- `MG_UPD_CTL` (R409) -/
def mgUpdCtl : Nat := 0x20
/-- `MG_PKG` (R409) -/
def mgPkg : Nat := 0x24
/-- `MG_PKG_VER` (R409) -/
def mgPkgVer : Nat := 0x28
/-- `MG_SEC` (R409) -/
def mgSec : Nat := 0x2c
/-- `MG_DBG` (R409) -/
def mgDbg : Nat := 0x30
/-- `MG_DISAGREE` (R409) -/
def mgDisagree : Nat := 0x34
/-- `DS_STEP` (R422) -/
def dsStep : Nat := 0x4000000
/-- `DS_CEIL`[i] (R422) -/
def dsCeil (i : Nat) : Nat := 0x4000010 + i * 4
/-- `DS_LANE`[i] (R422) -/
def dsLane (i : Nat) : Nat := 0x4000020 + i * 4
/-- `DS_PLAN`[i] (R422) -/
def dsPlan (i : Nat) : Nat := 0x4000030 + i * 4
/-- `DS_MARGIN`[i] (R422) -/
def dsMargin (i : Nat) : Nat := 0x4000040 + i * 4
/-- `DS_STAT` (R422) -/
def dsStat : Nat := 0x4000060
/-- `MG_BOARD` (R432) -/
def mgBoard : Nat := 0x38
/-- `TT_SLOT_LO`[i][j] (R230) -/
def ttSlotLo (i j : Nat) : Nat := 0x1010000 + i * 8192 + j * 8
/-- `TT_SLOT_HI`[i][j] (R230) -/
def ttSlotHi (i j : Nat) : Nat := 0x1010004 + i * 8192 + j * 8
/-- `TT_SLOT_LO_STG`[i][j] (R230) -/
def ttSlotLoStg (i j : Nat) : Nat := 0x1020000 + i * 8192 + j * 8
/-- `TT_SLOT_HI_STG`[i][j] (R230) -/
def ttSlotHiStg (i j : Nat) : Nat := 0x1020004 + i * 8192 + j * 8
/-- `GD_CFG` (R266) -/
def gdCfg : Nat := 0x3100000
/-- `GD_CFG_STG` (R266) -/
def gdCfgStg : Nat := 0x3100004
/-- `GD_TIME_CFG` (R266) -/
def gdTimeCfg : Nat := 0x3100008
/-- `GD_TIME_CFG_STG` (R266) -/
def gdTimeCfgStg : Nat := 0x310000c
/-- `GD_SYNCLIST`[i] (R266) -/
def gdSynclist (i : Nat) : Nat := 0x3100010 + i * 4
/-- `GD_SYNCLIST_STG`[i] (R266) -/
def gdSynclistStg (i : Nat) : Nat := 0x3100018 + i * 4
/-- `GD_CSLIST`[i] (R266) -/
def gdCslist (i : Nat) : Nat := 0x3100020 + i * 4
/-- `GD_CSLIST_STG`[i] (R266) -/
def gdCslistStg (i : Nat) : Nat := 0x3100028 + i * 4
/-- `GD_AUTH`[i] (R266) -/
def gdAuth (i : Nat) : Nat := 0x3100030 + i * 4
/-- `GD_AUTH_STG`[i] (R266) -/
def gdAuthStg (i : Nat) : Nat := 0x3100038 + i * 4
/-- `GD_TBL_CRC` (R266) -/
def gdTblCrc : Nat := 0x3100044
/-- `GD_TBL_CRC_STG` (R266) -/
def gdTblCrcStg : Nat := 0x3100048
/-- `GD_MODE_CYC`[i] (R266) -/
def gdModeCyc (i : Nat) : Nat := 0x3101000 + i * 16
/-- `GD_MODE_CYC_STG`[i] (R266) -/
def gdModeCycStg (i : Nat) : Nat := 0x3101004 + i * 16
/-- `GD_MODE_SEL`[i] (R266) -/
def gdModeSel (i : Nat) : Nat := 0x3101008 + i * 16
/-- `GD_MODE_SEL_STG`[i] (R266) -/
def gdModeSelStg (i : Nat) : Nat := 0x310100c + i * 16
/-- `GD_SLOT_LO`[i][j] (R266) -/
def gdSlotLo (i j : Nat) : Nat := 0x3110000 + i * 8192 + j * 8
/-- `GD_SLOT_HI`[i][j] (R266) -/
def gdSlotHi (i j : Nat) : Nat := 0x3110004 + i * 8192 + j * 8
/-- `GD_SLOT_LO_STG`[i][j] (R266) -/
def gdSlotLoStg (i j : Nat) : Nat := 0x3120000 + i * 8192 + j * 8
/-- `GD_SLOT_HI_STG`[i][j] (R266) -/
def gdSlotHiStg (i j : Nat) : Nat := 0x3120004 + i * 8192 + j * 8
/-- `GW_PDU_CFG`[i] (R321) -/
def gwPduCfg (i : Nat) : Nat := 0x6010000 + i * 16
/-- `GW_PDU_CFG_STG`[i] (R321) -/
def gwPduCfgStg (i : Nat) : Nat := 0x6020000 + i * 16
/-- `GW_PDU_BUF`[i] (R321) -/
def gwPduBuf (i : Nat) : Nat := 0x6010004 + i * 16
/-- `GW_PDU_BUF_STG`[i] (R321) -/
def gwPduBufStg (i : Nat) : Nat := 0x6020004 + i * 16
/-- `GW_PDU_MAP`[i] (R321) -/
def gwPduMap (i : Nat) : Nat := 0x6010008 + i * 16
/-- `GW_PDU_MAP_STG`[i] (R321) -/
def gwPduMapStg (i : Nat) : Nat := 0x6020008 + i * 16
/-- `GW_PDU_KEY`[i] (R321) -/
def gwPduKey (i : Nat) : Nat := 0x601000c + i * 16
/-- `GW_PDU_KEY_STG`[i] (R321) -/
def gwPduKeyStg (i : Nat) : Nat := 0x602000c + i * 16
/-- `GW_MAP`[i][j] (R321) -/
def gwMap (i j : Nat) : Nat := 0x6100000 + i * 64 + j * 4
/-- `GW_MAP_STG`[i][j] (R321) -/
def gwMapStg (i j : Nat) : Nat := 0x6180000 + i * 64 + j * 4
/-- `GW_SW_DATA`[i] (R321) -/
def gwSwData (i : Nat) : Nat := 0x6400000 + i * 4
/-- `GW_RR_REQ_LO`[i] (R321) -/
def gwRrReqLo (i : Nat) : Nat := 0x6040000 + i * 512
/-- `GW_RR_REQ_HI`[i] (R321) -/
def gwRrReqHi (i : Nat) : Nat := 0x6040004 + i * 512
/-- `GW_RR_SEL`[i] (R321) -/
def gwRrSel (i : Nat) : Nat := 0x6040008 + i * 512
/-- `GW_RR_HDR`[i] (R321) -/
def gwRrHdr (i : Nat) : Nat := 0x604000c + i * 512
/-- `GW_RR_FREE`[i] (R321) -/
def gwRrFree (i : Nat) : Nat := 0x6040010 + i * 512
/-- `GW_RR_STAT`[i] (R321) -/
def gwRrStat (i : Nat) : Nat := 0x6040014 + i * 512
/-- `GW_RR_DATA`[i][j] (R321) -/
def gwRrData (i j : Nat) : Nat := 0x6040100 + i * 512 + j * 4
/-- `CN_CTL`[i] (R321) -/
def cnCtl (i : Nat) : Nat := 0x5000000 + i * 4096
/-- `CN_NBT`[i] (R321) -/
def cnNbt (i : Nat) : Nat := 0x5000004 + i * 4096
/-- `CN_DBT`[i] (R321) -/
def cnDbt (i : Nat) : Nat := 0x5000008 + i * 4096
/-- `CN_STAT`[i] (R321) -/
def cnStat (i : Nat) : Nat := 0x500000c + i * 4096
/-- `CN_CNT`[i] (R321) -/
def cnCnt (i : Nat) : Nat := 0x5000010 + i * 4096
/-- `CN_FLT_ID`[i][j] (R321) -/
def cnFltId (i j : Nat) : Nat := 0x5000400 + i * 4096 + j * 16
/-- `CN_FLT_ID_STG`[i][j] (R321) -/
def cnFltIdStg (i j : Nat) : Nat := 0x5000800 + i * 4096 + j * 16
/-- `CN_FLT_MASK`[i][j] (R321) -/
def cnFltMask (i j : Nat) : Nat := 0x5000404 + i * 4096 + j * 16
/-- `CN_FLT_MASK_STG`[i][j] (R321) -/
def cnFltMaskStg (i j : Nat) : Nat := 0x5000804 + i * 4096 + j * 16
/-- `CN_FLT_RT`[i][j] (R321) -/
def cnFltRt (i j : Nat) : Nat := 0x5000408 + i * 4096 + j * 16
/-- `CN_FLT_RT_STG`[i][j] (R321) -/
def cnFltRtStg (i j : Nat) : Nat := 0x5000808 + i * 4096 + j * 16
/-- `PD_WERR_POP`[i] (R321) -/
def pdWerrPop (i : Nat) : Nat := 0x2000 + i * 16
/-- `PD_WERR_ADDR_LO`[i] (R321) -/
def pdWerrAddrLo (i : Nat) : Nat := 0x2004 + i * 16
/-- `PD_WERR_ADDR_HI`[i] (R321) -/
def pdWerrAddrHi (i : Nat) : Nat := 0x2008 + i * 16
/-- `PD_WERR_OVF`[i] (R321) -/
def pdWerrOvf (i : Nat) : Nat := 0x200c + i * 16
/-- `MB_TXWORD`[i][j] (R375) -/
def mbTxword (i j : Nat) : Nat := 0x2000000 + i * 256 + j * 128
/-- `MB_TXDB`[i][j] (R375) -/
def mbTxdb (i j : Nat) : Nat := 0x2000004 + i * 256 + j * 128
/-- `MB_TXSTAT`[i][j] (R375) -/
def mbTxstat (i j : Nat) : Nat := 0x2000008 + i * 256 + j * 128
/-- `MB_RXHDR`[i][j] (R375) -/
def mbRxhdr (i j : Nat) : Nat := 0x200000c + i * 256 + j * 128
/-- `MB_RXPOP`[i][j] (R375) -/
def mbRxpop (i j : Nat) : Nat := 0x2000010 + i * 256 + j * 128
/-- `MB_RXDB`[i][j] (R375) -/
def mbRxdb (i j : Nat) : Nat := 0x2000014 + i * 256 + j * 128
/-- `MB_RXMASK`[i][j] (R375) -/
def mbRxmask (i j : Nat) : Nat := 0x2000018 + i * 256 + j * 128
/-- `MB_RXSTAT`[i][j] (R375) -/
def mbRxstat (i j : Nat) : Nat := 0x200001c + i * 256 + j * 128
/-- `MB_CTL`[i][j] (R375) -/
def mbCtl (i j : Nat) : Nat := 0x2000020 + i * 256 + j * 128
/-- `MB_RXDATA`[i][j] (R375) -/
def mbRxdata (i j : Nat) : Nat := 0x2000040 + i * 256 + j * 128

end Reg

end Sys2Proof.Machine
end

