-- ==== Sys2Proof/Machine/Sparse.lean ====
section
/-! DEFINITION. Sparse stores: strictly rising lists of (key, value) pairs that list no zero. They hold the
lane memories (bytes; `Memory`) and the register spaces (words; `RegFile`). An unlisted key reads as 0. -/

namespace Sys2Proof.Machine

/-- What lies at key `k`; an unlisted key reads as 0. -/
def cellGet {n : Nat} : List (Nat × BitVec n) → Nat → BitVec n
  | [], _ => 0
  | (a, v) :: t, k => if a = k then v else cellGet t k

/-- Puts a value at its place in rising order. -/
def cellInsert {n : Nat} : List (Nat × BitVec n) → Nat → BitVec n → List (Nat × BitVec n)
  | [], k, v => [(k, v)]
  | (a, x) :: t, k, v =>
    if k < a then (k, v) :: (a, x) :: t
    else if k = a then (k, v) :: t
    else (a, x) :: cellInsert t k v

/-- Removes every entry of a key. -/
def cellErase {n : Nat} : List (Nat × BitVec n) → Nat → List (Nat × BitVec n)
  | [], _ => []
  | (a, x) :: t, k => if a = k then cellErase t k else (a, x) :: cellErase t k

/-- Writes a value: writing 0, which an unlisted key reads as, removes the entry. -/
def cellSet {n : Nat} (m : List (Nat × BitVec n)) (k : Nat) (v : BitVec n) : List (Nat × BitVec n) :=
  if v = 0 then cellErase m k else cellInsert m k v

/-- Every key of the list lies above `lo` (when given), keys rise strictly and no value is 0. -/
def cellsWfFrom {n : Nat} : Option Nat → List (Nat × BitVec n) → Bool
  | _, [] => true
  | lo, (a, v) :: t =>
    (match lo with
      | none => true
      | some b => decide (b < a)) && (v != 0) && cellsWfFrom (some a) t

/-- The canonical form: keys strictly rising, no entry equal to 0. -/
def cellsWf {n : Nat} (m : List (Nat × BitVec n)) : Bool := cellsWfFrom none m

abbrev Memory := List (Nat × Byte)
abbrev RegFile := List (Nat × Word)

/-- The canonical form of a memory. -/
def Memory.wf (m : Memory) : Bool := cellsWf m

/-- Bytes at consecutive addresses, lowest first. -/
def memRead (m : Memory) : Nat → Nat → List Byte
  | _, 0 => []
  | a, n + 1 => cellGet m a :: memRead m (a + 1) n

/-- Writes bytes at consecutive addresses. -/
def memWrite : Memory → Nat → List Byte → Memory
  | m, _, [] => m
  | m, a, b :: bs => memWrite (cellSet m a b) (a + 1) bs

end Sys2Proof.Machine
end

