-- ==== Sys2Proof/Machine/RegReset.lean ====
section
/-! DEFINITION. The register spaces at reset: every register whose reset value is not 0, at the value its
introductory line gives, in rising order of offset. Every register not listed resets to 0. -/

namespace Sys2Proof.Machine

def laneRegsReset0 : RegFile :=
  [(0x20, 0x2), (0x24, 0x320080b), (0x48, 0xffffffff), (0x4c, 0xffffffff),
   (0x50, 0x30000), (0x54, 0x30000), (0x58, 0x30000), (0x5c, 0x30000),
   (0x60, 0x30000), (0x64, 0x30000), (0x68, 0x30000), (0x6c, 0x30000),
   (0x144, 0x10101000), (0x10020, 0x2), (0x10024, 0x320080b), (0x10048, 0xffffffff),
   (0x1004c, 0xffffffff), (0x10050, 0x30000), (0x10054, 0x30000), (0x10058, 0x30000),
   (0x1005c, 0x30000), (0x10060, 0x30000), (0x10064, 0x30000), (0x10068, 0x30000)]

def laneRegsReset1 : RegFile :=
  [(0x1006c, 0x30000), (0x10144, 0x10100010), (0x20020, 0x2), (0x20024, 0x320080b),
   (0x20048, 0xffffffff), (0x2004c, 0xffffffff), (0x20050, 0x30000), (0x20054, 0x30000),
   (0x20058, 0x30000), (0x2005c, 0x30000), (0x20060, 0x30000), (0x20064, 0x30000),
   (0x20068, 0x30000), (0x2006c, 0x30000), (0x20144, 0x10001010), (0x30020, 0x2),
   (0x30024, 0x320080b), (0x30048, 0xffffffff), (0x3004c, 0xffffffff), (0x30050, 0x30000),
   (0x30054, 0x30000), (0x30058, 0x30000), (0x3005c, 0x30000), (0x30060, 0x30000)]

def laneRegsReset2 : RegFile :=
  [(0x30064, 0x30000), (0x30068, 0x30000), (0x3006c, 0x30000), (0x30144, 0x101010),
   (0x80100, 0x320080b), (0x80110, 0x320080b), (0x80120, 0x320080b), (0x80130, 0x320080b),
   (0x81014, 0x3), (0x81054, 0x3), (0x81094, 0x3), (0x810d4, 0x3),
   (0x82000, 0x64003c), (0x8200c, 0x30), (0x82020, 0x64003c), (0x8202c, 0x30),
   (0x82040, 0x64003c), (0x8204c, 0x30), (0x82060, 0x64003c), (0x8206c, 0x30),
   (0x83000, 0x324012c), (0x83010, 0x33000), (0x83020, 0x33000), (0x83030, 0x33000)]

def laneRegsReset3 : RegFile :=
  [(0x83040, 0x33000), (0x83104, 0xff)]

/-- A lane register space at reset. -/
def laneRegsReset : RegFile :=
  laneRegsReset0 ++ laneRegsReset1 ++ laneRegsReset2 ++ laneRegsReset3

def portRegsReset0 : RegFile :=
  [(0x1000000, 0x88b50000), (0x1000004, 0x88b50000), (0x1000008, 0x3210c818), (0x100000c, 0x3210c818),
   (0x1000088, 0x100), (0x2000008, 0x80000), (0x2000014, 0x3e801f4), (0x2000028, 0xc0000000),
   (0x200002c, 0xc0000000), (0x3000010, 0x3e80000), (0x3000014, 0x3e80000), (0x3100000, 0x88b50000),
   (0x3100004, 0x88b50000), (0x3100008, 0x3210c818), (0x310000c, 0x3210c818), (0x4000008, 0x4),
   (0x4000048, 0x4), (0x4000088, 0x4), (0x40000c8, 0x4), (0x4000108, 0x4),
   (0x4000148, 0x4), (0x4000188, 0x4), (0x40001c8, 0x4), (0x4000208, 0x4)]

def portRegsReset1 : RegFile :=
  [(0x4000248, 0x4), (0x4000288, 0x4), (0x40002c8, 0x4), (0x4000308, 0x4),
   (0x4000348, 0x4), (0x4000388, 0x4), (0x40003c8, 0x4), (0x4000408, 0x4),
   (0x4000448, 0x4), (0x4000488, 0x4), (0x40004c8, 0x4), (0x4000508, 0x4),
   (0x4000548, 0x4), (0x4000588, 0x4), (0x40005c8, 0x4), (0x4000608, 0x4),
   (0x4000648, 0x4), (0x4000688, 0x4), (0x40006c8, 0x4), (0x4001000, 0x100),
   (0x5000004, 0x8f3e0f), (0x5000008, 0x3f9e020), (0x5001004, 0x8f3e0f), (0x5001008, 0x3f9e020)]

def portRegsReset2 : RegFile :=
  [(0x6000020, 0x320014), (0x7000000, 0x140000), (0xf000000, 0x7), (0xf000004, 0x30),
   (0xf000018, 0x33), (0xf000040, 0x7), (0xf000044, 0x30), (0xf000058, 0x33),
   (0xf000080, 0x7), (0xf000084, 0x30), (0xf000098, 0x33), (0xf0000c0, 0x7),
   (0xf0000c4, 0x30), (0xf0000d8, 0x33)]

/-- A port die window at reset. -/
def portRegsReset : RegFile :=
  portRegsReset0 ++ portRegsReset1 ++ portRegsReset2

def fieldRegsReset0 : RegFile :=
  [(0x1000008, 0x52a), (0x1000100, 0x1e), (0x1000104, 0x1e), (0x1000108, 0x1e),
   (0x100010c, 0x1e), (0x1000110, 0x1e), (0x1000114, 0x1e), (0x1000118, 0x1e),
   (0x100011c, 0x1e), (0x1000120, 0x1e), (0x1000124, 0x1e), (0x1000128, 0x1e),
   (0x100012c, 0x1e), (0x1000130, 0x1e), (0x1000134, 0x1e), (0x1000138, 0x1e),
   (0x100013c, 0x1e), (0x1000140, 0x1e), (0x1000144, 0x1e), (0x1000148, 0x1e),
   (0x100014c, 0x1e), (0x1000150, 0x1e), (0x1000154, 0x1e), (0x1000158, 0x1e)]

def fieldRegsReset1 : RegFile :=
  [(0x100015c, 0x1e), (0x1000160, 0x1e), (0x1000164, 0x1e), (0x1000168, 0x1e),
   (0x100016c, 0x1e), (0x1000170, 0x1e), (0x1000174, 0x1e), (0x1000178, 0x1e),
   (0x100017c, 0x1e), (0x1000180, 0x1e), (0x1000184, 0x1e), (0x1000188, 0x1e),
   (0x100018c, 0x1e), (0x1000190, 0x1e), (0x1000194, 0x1e), (0x1000198, 0x1e),
   (0x100019c, 0x1e), (0x10001a0, 0x1e), (0x10001a4, 0x1e), (0x10001a8, 0x1e),
   (0x10001ac, 0x1e), (0x10001b0, 0x1e), (0x10001b4, 0x1e), (0x10001b8, 0x1e)]

def fieldRegsReset2 : RegFile :=
  [(0x10001bc, 0x1e), (0x10001c0, 0x1e), (0x10001c4, 0x1e), (0x10001c8, 0x1e),
   (0x10001cc, 0x1e), (0x10001d0, 0x1e), (0x10001d4, 0x1e), (0x10001d8, 0x1e),
   (0x10001dc, 0x1e), (0x10001e0, 0x1e), (0x10001e4, 0x1e), (0x10001e8, 0x1e),
   (0x10001ec, 0x1e), (0x10001f0, 0x1e), (0x10001f4, 0x1e), (0x10001f8, 0x1e),
   (0x10001fc, 0x1e), (0x1000210, 0x140014), (0x1000214, 0x140014), (0x1000340, 0xffff0000),
   (0x1000344, 0xffff0000), (0x1000348, 0xffff0000), (0x100034c, 0xffff0000), (0x1000350, 0xffff0000)]

def fieldRegsReset3 : RegFile :=
  [(0x1000354, 0xffff0000), (0x1000358, 0xffff0000), (0x100035c, 0xffff0000), (0x1000360, 0xffff0000),
   (0x1000364, 0xffff0000), (0x1000368, 0xffff0000), (0x100036c, 0xffff0000), (0x1000370, 0xffff0000),
   (0x1000374, 0xffff0000), (0x1000378, 0xffff0000), (0x100037c, 0xffff0000), (0xf000000, 0x7),
   (0xf000004, 0x30), (0xf000018, 0x33), (0xf000040, 0x7), (0xf000044, 0x30),
   (0xf000058, 0x33), (0xf000080, 0x7), (0xf000084, 0x30), (0xf000098, 0x33),
   (0xf0000c0, 0x7), (0xf0000c4, 0x30), (0xf0000d8, 0x33)]

/-- The F window at reset. -/
def fieldRegsReset : RegFile :=
  fieldRegsReset0 ++ fieldRegsReset1 ++ fieldRegsReset2 ++ fieldRegsReset3

def mgmtRegsReset0 : RegFile :=
  [(0x0, 0x120047f), (0x8, 0x18000), (0x2000008, 0x100000), (0x2000088, 0x100000),
   (0x2000108, 0x100000), (0x2000188, 0x100000), (0x2000208, 0x100000), (0x2000288, 0x100000),
   (0x2000308, 0x100000), (0x2000388, 0x100000), (0x2000408, 0x100000), (0x2000488, 0x100000),
   (0x2000508, 0x100000), (0x2000588, 0x100000), (0x2000608, 0x100000), (0x2000688, 0x100000),
   (0x2000708, 0x100000), (0x2000788, 0x100000), (0x2000808, 0x100000), (0x2000888, 0x100000),
   (0x2000908, 0x100000), (0x2000988, 0x100000), (0x2000a08, 0x100000), (0x2000a88, 0x100000)]

def mgmtRegsReset1 : RegFile :=
  [(0x2000b08, 0x100000), (0x2000b88, 0x100000), (0x4000000, 0x80000), (0x4000010, 0x8),
   (0x4000014, 0x8), (0x4000018, 0x8), (0x400001c, 0x8), (0x4000020, 0x83200),
   (0x4000024, 0x83200), (0x4000028, 0x83200), (0x4000030, 0x8), (0x4000034, 0x8),
   (0x4000038, 0x8), (0x4000040, 0x7ff0064), (0x4000044, 0x7ff0064), (0x4000048, 0x7ff0064),
   (0x400004c, 0x7ff0064), (0x4000050, 0x7ff0064), (0xf000000, 0x7), (0xf000004, 0x30),
   (0xf000018, 0x33), (0xf000040, 0x7), (0xf000044, 0x30), (0xf000058, 0x33)]

def mgmtRegsReset2 : RegFile :=
  [(0xf000080, 0x7), (0xf000084, 0x30), (0xf000098, 0x33), (0xf0000c0, 0x7),
   (0xf0000c4, 0x30), (0xf0000d8, 0x33)]

/-- The M window at reset; `MG_CAPS` as KW-AGZ-3120 reads it (R5). -/
def mgmtRegsReset : RegFile :=
  mgmtRegsReset0 ++ mgmtRegsReset1 ++ mgmtRegsReset2

end Sys2Proof.Machine
end

