-- ==== Sys2Proof/Machine/State.lean ====
section
/-! DEFINITION. The state of the module: plain data holding every register space, memory, queue, buffer, counter
and pin that the manual gives the module, and the queue of the commands that wait. -/

namespace Sys2Proof.Machine

/-- Reasons for which a step stops. -/
inductive Fault where
  /-- Raised by `execBroadcastWriteLand`, `execMemoryUe` and `execPatrolRead` on an address at which R161 places no
  lane memory. Safe: the module never produces such an address. -/
  | noSuchAddress (addr : Nat)
deriving DecidableEq, Repr

/-- Reasons for which a command is refused. -/
inductive Refusal where
  /-- Raised by `exec` for a command that has no meaning yet; no command of this model is in that case. Safe. -/
  | notModelled (mnemonic : String)
deriving DecidableEq, Repr

/-! ### Lane dies -/

/-- What a lane core is doing (R47, R159, R160). -/
inductive CoreMode where
  | held | running | waiting | stopped | debugHalted | debugStep
deriving DecidableEq, Repr

/-- Where a replica stands at an event point (R46, R140): executing instructions, having published the point and
not yet past steps 2 to 4, or paused at the stall boundary. -/
inductive Phase where
  | run | published | paused
deriving DecidableEq, Repr

/-- One part of a device read that waits for its result: die, ordinal, when its request left the lane, and the result once it
came. -/
structure ReadPart where
  die : Die
  ordinal : Word
  sent : Nat
  got : Option Dword
deriving DecidableEq, Repr

/-- The device read that a replica's core waits for (R98, R100). -/
structure PendingLoad where
  addr : Nat
  size : Nat
  parts : List ReadPart
deriving DecidableEq, Repr

/-- A software entry of the KC64 memory protection unit (R163). -/
structure MpuEntry where
  index : Nat
  base : Nat
  limit : Nat
  denyR : Bool
  denyW : Bool
  denyX : Bool
deriving DecidableEq, Repr

/-- One replica: a lane core and the lane's part that serves it. The retired-instruction count, the last point and
the strand time are registers of its strand page (R87). -/
structure Replica where
  mode : CoreMode
  phase : Phase
  /-- Number and instruction count of the event point to come (R45). -/
  nextPoint : Dword
  nextCount : Dword
  /-- Points since the last epoch boundary (R76). -/
  sincePoints : Nat
  /-- An epoch mark retired since the last point (R77). -/
  mark : Bool
  /-- The coming point is reached by idle advance, and when the last such point was (R47). -/
  idle : Bool
  idleAt : Nat
  /-- When the wait of step 2, or the pause, began (R60, R140). -/
  waitSince : Nat
  /-- The running state signature (R112). -/
  sig : Dword
  /-- The next ordinal at each die (R88). -/
  ord : Four Word
  /-- Beats issued that have not left the lane (R89). -/
  out : List (Die × Beat)
  load : Option PendingLoad
  /-- Software vectors set and not yet raised (R58). -/
  soft : List Nat
  /-- The bytes the last load returned. -/
  last : List Byte
  /-- The address at which the core started: its partition's base plus ENTRY (R381). -/
  entry : Nat
  /-- The KC64 digest-set registers (R114) and mask state (R46). -/
  core : List Dword
  mask : Bool
  mpu : List MpuEntry
  /-- A debug attach has been accepted and no rejoin has started since (R151). -/
  debug : Bool
  /-- The messages of the epoch that is open (R70): destination and message. -/
  sqOpen : List (Strand × SqMsg)
  /-- The messages of epochs whose comparison has not agreed yet, with the boundary's point. -/
  sqEnding : List (Word × List (Strand × SqMsg))
deriving DecidableEq, Repr

/-- A publication held by an Echo unit, with the instant it was first held. -/
structure HeldPub where
  pub : Publication
  since : Nat
deriving DecidableEq, Repr

/-- The cases of R65. -/
inductive FinRule where
  | hold
  | invalid
  | sample (n : Half)
deriving DecidableEq, Repr

/-- A complete agreement for a point (R51): everything computed from the agreed pair's publications. -/
structure Agreement where
  point : Word
  pair : Pair
  /-- When it was complete in this lane. -/
  doneAt : Nat
  occs : List Occ
  stime : Dword
  src : Nat
  valid : Bool
  holdover : Bool
  clamped : Bool
  fin : FinRule
  epoch : Bool
  /-- Agreed counts of R72 and R74, by the other strand. -/
  sqIn : Quad Half
  credPop : Quad Half
deriving DecidableEq, Repr

/-- An occurrence latched by a lane (R53): the point at which the lane listed it, and whether its
replica has applied it (R55). -/
structure Latched where
  occ : Occ
  published : Option Word
  applied : Bool
deriving DecidableEq, Repr

/-- Events that change a replica's state (R126). -/
inductive ReplEvent where
  | excluded | debug | rejoinStart | joined | abandoned | retired
deriving DecidableEq, Repr

/-- A replica state change under the number of its occurrence, with the lanes whose Echo unit has latched it and
those that have applied it (log entry 7). -/
structure Change where
  num : Half
  repl : Lane
  event : ReplEvent
  seen : List Lane
  applied : List Lane
deriving DecidableEq, Repr

/-- A challenge of a strand (R120 to R122): the dies whose answers are awaited, and those whose answers were missing at the
deadline. -/
structure Challenge where
  number : Nat
  designated : Lane
  inStep : Nat
  issuedAt : Dword
  awaiting : List Die
  failed : List Die
deriving DecidableEq, Repr

/-- A voter's answer (R122) on its way with the occurrence that carries it: the lane found odd, and whether a beat was
released. -/
structure ChalAnswer where
  die : Die
  occ : Occ
  named : Option Lane
  released : Bool
deriving DecidableEq, Repr

/-- An Echo unit's state for one strand. -/
structure Echo where
  pubs : List HeldPub
  claims : List PairClaim
  /-- Points whose pair claim waits for the end of the present clock cycle (R49). -/
  claimDue : List Word
  /-- The next point to agree on. -/
  nextAgree : Word
  agreed : List Agreement
  /-- Late claims sent or received (R84). -/
  late : List (Word × Lane)
  /-- The epoch boundary whose pair's compare values differed, while the third is awaited (R115). -/
  splitWait : Option Word
  inStep : Tri Bool
  halted : Bool
  latched : List Latched
  /-- Delivery record (R57): source, vector and number, newest first. -/
  record : List Occ
  /-- Strand time and sample number of the last agreed point (R63, R65). -/
  stime : Dword
  sample : Option Half
  /-- The strand as receiver, by source: messages held, messages that came before an earlier one and wait for it (R73),
  counts of those committed, agreed (R72), popped and visible. -/
  inQ : Quad (List SqMsg)
  inAhead : Quad (List SqMsg)
  inCount : Quad Half
  inAgreed : Quad Half
  popped : Quad Half
  visible : Quad Half
  /-- Agreed pop counts of this strand, by source (R74). -/
  agreedPop : Quad Half
  /-- The strand as sender, by destination: messages sent, next send sequence number, latest agreed pop count and
  the one in force (R74). -/
  sent : Quad Half
  sendSeq : Quad Half
  credAgreed : Quad Half
  credPop : Quad Half
  /-- Number of the next challenge and the strand time it counts from (R120), the challenges open, oldest first, and the
  answers latched by this unit. -/
  chalNext : Nat
  chalBase : Option Dword
  challenges : List Challenge
  answers : List ChalAnswer
  /-- Strand time of the boundaries of recorded rejoins, newest first (R146). -/
  rejoins : Tri (List Dword)
  /-- The point from which an armed timing commit takes effect, and the boundary at which the last one did (R80). -/
  tcfgFrom : Option Word
  tcfgTook : Option Word
  /-- The first point at which a stall notice lets the stall boundary lie (R139). -/
  stallAt : Option Word
  /-- The first point whose publication is awaited of a replica that joined (R143). -/
  pubFirst : Tri (Option Word)
  /-- When each replica last became SET_ASIDE, while no automatic rejoin was requested since (R131). -/
  asideAt : Tri (Option Nat)
  /-- The points whose exchange counted an error (R30). -/
  timedOut : List Word
  /-- The occurrences logged as this lane's alone (R56). -/
  solo : List Occ
deriving DecidableEq, Repr

/-- A scrub block that a lane is hashing since its replica left a boundary: the retries made, and whether the block was
written meanwhile (R117, R118). -/
structure ScrubJob where
  block : Nat
  point : Word
  tries : Nat
  void : Bool
deriving DecidableEq, Repr

/-- What a lane published for a scrub block (R118): the boundary, the count of broadcast writes and the hash; `none` for a
void hash. -/
structure ScrubHash where
  block : Nat
  point : Word
  tries : Nat
  count : Nat
  hash : Option Dword
  unreadable : Bool
deriving DecidableEq, Repr

/-- A scrub block to be hashed again, at the first boundary past a point. -/
structure ScrubRetry where
  block : Nat
  tries : Nat
  after : Word
deriving DecidableEq, Repr

/-- One lane's scrub engine for one strand (R117, R118): T0 of the pass, the next block of it, and the point past which a
new pass starts; blocks being hashed, published and to be hashed again; and the broadcast writes that have landed, by
block, where not 0. -/
structure Scrub where
  t0 : Option Dword
  next : Nat
  passAfter : Option Word
  busy : List ScrubJob
  done : List ScrubHash
  retry : List ScrubRetry
  counts : List (Nat × Half)
deriving DecidableEq, Repr

/-- Network time as a lane last received it from a port die (R48, R233). -/
structure NetTime where
  time : Dword
  stat : BitVec 2
  seen : Nat
deriving DecidableEq, Repr

/-- One lane die. -/
structure LaneState where
  repl : Quad Replica
  echo : Quad Echo
  scrub : Quad Scrub
  /-- Runs of crawlway errors, by the lane at the other end (R31). -/
  linkRun : Tri Nat
  /-- Junction links that work, by die (R33). -/
  junction : Four Bool
  net : Duo NetTime
  triples : List Triple
  /-- When the last triple was latched (R48). -/
  tripleAt : Nat
  fstale : Bool
  mem : Memory
  /-- Addresses of the poisoned doublewords (R170). -/
  poison : List Nat
  /-- A broadcast into the common region missed this lane (R132). -/
  commonStale : Bool
  fenceM : Bool
  fenceF : Bool
deriving DecidableEq, Repr

/-! ### Voters -/

/-- The voter's record of one ordinal (R91): the beats held, in order of arrival. `chosen` is the beat that was
released or performed; `timer` tells since when the skew timer of the third beat runs. -/
structure OrdRec where
  ordinal : Word
  beats : List (Lane × Beat)
  chosen : Option Beat
  timer : Option Nat
deriving DecidableEq, Repr

/-- A result kept for the third replica (R98). -/
structure KeptRead where
  ordinal : Word
  request : Beat
  data : Dword
deriving DecidableEq, Repr

/-- One strand's voter at one consumer die. Its in-step set and mode are fields of `VT_STAT`. -/
structure Voter where
  next : Word
  ords : List OrdRec
  kept : List KeptRead
  /-- Join ordinals (R143). -/
  join : Tri (Option Word)
  /-- The challenge register of the test path (R121). -/
  challenge : Tri (Option Dword)
  /-- Notices that named a replica already out of the in-step set (R101). -/
  notices : Nat
deriving DecidableEq, Repr

/-! ### Management -/

/-- Event log codes (R391). -/
inductive LogCode where
  | writeIgnored | rsvdWrite | capsAbsent | unmapped | logFlood | evSolo | rdTimeout | vtCfgDiff | strandHalt
  | rjCfgDiff | laneRetired | dbgRefused | poison | linkFail | idConflict | modeExpired | inaugRange | noMode
  | pathChange | pathAlarm | gdLatched | dmLocked | gwEcc | lsCfgDiff | lsCfgBad | mbForeign | smBadRelease
  | smForced | boot | imgDiff | cfgRefused | idMissing | idCorrupt | ssEmpty | migrated | wdogRestart | aonClock
  | mgDisagree | updStaged | updArmed | updCancelled | updActivated | updateRejected | updConfirmed | dbgAuth
  | dbgAttach | dsWarn | policyClamped
deriving DecidableEq, Repr

/-- One entry of the event log (R391). `src` is 0 to 2 for LA to LC, 3 P1, 4 P2, 5 F, 6 M. -/
structure LogEntry where
  time : Dword
  tvalid : Bool
  seq : Word
  code : LogCode
  src : Nat
  strand : Option Strand
  arg : List Nat
deriving DecidableEq, Repr

/-! ### Messages in flight -/

/-- Messages between units of the module that were sent and have not arrived. -/
inductive Wire where
  | fetchRead (dest : Lane) (p : PDie) (id : Nat) (after : Nat)
  | publication (dest : Lane) (sender : Lane) (p : Publication)
  | pairClaim (dest : Lane) (c : PairClaim)
  | lateClaim (dest : Lane) (c : LateClaim)
  | starveClaim (dest sender : Lane) (k : Strand)
  | occurrence (dest : Lane) (d : Die) (k : Strand) (o : Occ)
  | triple (dest : Lane) (t : Triple)
  | sqCopy (dest : Lane) (src dst : Strand) (m : SqMsg)
  | beat (d : Die) (l : Lane) (b : Beat)
  | challenge (d : Die) (l : Lane) (k : Strand) (data : Dword)
  | exclusion (dest : Lane) (k : Strand) (repl : Lane) (c : Cause)
  | split (dest : Lane) (k : Strand) (c : Cause)
  | broadcast (dest : Lane) (w : Broadcast)
  | result (dest : Lane) (d : Die) (k : Strand) (ordinal : Word) (data : Dword)
  | guardFence (p : PDie) (l : Lane)
  | retireNotice (l : Lane) (c : LaneFault)
  | faultLine (l : Lane) (c : LaneFault)
  | pace (dest : Lane) (v : PaceValue)
deriving DecidableEq, Repr

/-- The virtual channels of a junction link (R318). -/
inductive VChannel where
  | posted | request | response
deriving DecidableEq, Repr

/-- The messages on one direction of a junction link, by virtual channel, oldest first: those for which the receiver has a
buffer, then those that wait for one at the sender. -/
structure VQueues where
  posted : List Wire
  request : List Wire
  response : List Wire
deriving DecidableEq, Repr

/-- A junction link (R318): from the lane to the die, and from the die to the lane, with the posted messages of the die that
have left the link so far; a read of lane memory names how many must have, so that it passes no posted write sent before it
(R319). What the receiver of a channel has no buffer for yet stands in the same queue at the sender, behind what has left; which
channel's first message moves next is the command that comes next (log entry 124). -/
structure JLink where
  up : VQueues
  down : VQueues
  landed : Nat
deriving DecidableEq, Repr

/-! ### Timing commits, rejoin, consumer dies -/

/-- A timing commit of one strand (R79): the in-step lanes that requested it with their staged value, when the
first did, whether it is armed, and the lanes in which it is in force. -/
structure TcfgCommit where
  go : List (Lane × Word)
  since : Nat
  armed : Bool
  took : List Lane
  /-- The boundary at which the first lane took it. -/
  tookAt : Option Word
deriving DecidableEq, Repr

/-- The rejoin that runs (R134 to R145). -/
structure RejoinRun where
  strand : Strand
  target : Lane
  donor : Lane
  fromDebug : Bool
  /-- Pages the running pass copies, `none` for all (R135); when the pass began, and how many of its pages have been read. -/
  pass : Option (List Nat)
  passFrom : Nat
  pagesRead : Nat
  /-- Pages of the donor now dirty (R136), rising. -/
  dirty : List Nat
  forced : Bool
  /-- The stall boundary E (R139), when both replicas paused, and whether and when the hold was sent (R141). -/
  boundary : Option Word
  stallFrom : Option Nat
  holdSent : Bool
  holdAt : Nat
  /-- Broadcast writes sent before the hold that have not landed, by die and lane (R141). -/
  owed : Duo (Tri Nat)
  acked : Duo Bool
  /-- The final copy was made, and the join notice follows (R142, R143). -/
  copied : Bool
deriving DecidableEq, Repr

/-- A record of a posted-write failure (R320). -/
structure WerrRec where
  cause : Nat
  tag : Half
  addr : Nat
  count : Half
deriving DecidableEq, Repr

/-- The write-error queues of a consumer die (R320, R321). -/
structure Werr where
  strand : Quad (List WerrRec)
  other : List WerrRec
deriving DecidableEq, Repr

/-- Write beats lost at a die that is stopped (R320 cause 6): count, and the first one's address and ordinal, by lane. -/
structure LostBeats where
  count : Nat
  first : Option (Nat × Half)
deriving DecidableEq, Repr

/-- What every consumer die has: whether it runs (R37), its write-error queues, its next occurrence numbers (R52)
and the beats lost while it was stopped. -/
structure Consumer where
  running : Bool
  werr : Werr
  occNum : Quad Half
  lost : Quad (Tri LostBeats)
deriving DecidableEq, Repr

/-! ### KTN controllers and guardians -/

/-- Whether a node is integrated, as R213 and R254 name it. A guardian in WAIT, CS_OPEN, FOLLOW (before or after its
adoption), OPEN or HOLD is in `listen`, `coldstart`, `integrate` or `adopted`, `active` or `holdover`. -/
inductive NetPhase where
  | off | listen | coldstart | backoff | integrate | adopted | active | holdover
deriving DecidableEq, Repr

/-- The copy of a sync node's frame that a node used (R240): cycle, hop, arrival port and offset in 1/16 ns. -/
structure SyncCopy where
  cycle : Half
  hop : Nat
  port : Port
  offset : Int
deriving DecidableEq, Repr

/-- A mode change as a SYNC frame echoes it (R210). -/
structure ModeEcho where
  target : Nat
  req : Byte
  cycle : Half
deriving DecidableEq, Repr

/-- What a node keeps of one entry of its sync list: the latest cycles in which it accepted the entry's SYNC frame,
received one well formed, and received one that failed the acceptance test (newest first); the last copies used;
the last echo with its cycle; and while it is dropped, the count of cycles at which it was (R246). -/
structure SyncRec where
  acc : List Half
  heard : List Half
  bad : List Half
  last : Option SyncCopy
  prev : Option SyncCopy
  echo : Option (Half × ModeEcho)
  dropAt : Option Nat
deriving DecidableEq, Repr

/-- A mode change in a node's view (R210): what its frames echo, the requester, the cycle of the request, whether the
node accepts it, whether its sync nodes agreed it, and whether it has expired. -/
structure ModeChange where
  echo : ModeEcho
  requester : Nat
  since : Half
  accepted : Bool
  agreed : Bool
  expired : Bool
deriving DecidableEq, Repr

/-- A node's own request on its way to cycle c (R210). -/
structure OwnRequest where
  echo : ModeEcho
  expired : Bool
deriving DecidableEq, Repr

/-- A frame seen in a slot of the present cycle, to recognise its copies (R203, R240). In an INAUG slot the key tells the
senders apart (R452). -/
structure SeenCopy where
  slot : Nat
  key : Nat
deriving DecidableEq, Repr

/-- A copy that a copy on the other port, which starts within 8 ns of it, may still replace (R240): the frame, its port
and receive time, and the keeper's clock when it came. -/
structure WaitCopy where
  f : KFrame
  key : Nat
  own : Bool
  port : Port
  time : Dword
  since : Nat
  /-- The die's frame buffer holds it with an uncorrectable error (R289). -/
  ue : Bool
deriving DecidableEq, Repr

/-- A record of an accepted INAUG frame (R225). -/
structure InRec where
  serial : Word
  link : BitVec 2
  port : Port
  dist : Nat
  /-- The cycle count at which it was received. -/
  at' : Nat
deriving DecidableEq, Repr

/-- A node's view of its line (R226): count and position when complete. -/
inductive InView where
  | complete (count pos : Nat)
  | incomplete
  | ring
deriving DecidableEq, Repr

/-- State of a link delay measurement (R238). -/
inductive LinkPhase where
  | provisional | measured | stale | down
deriving DecidableEq, Repr

/-- One port's link (R184, R234 to R238): the sequence number of the next frame, the frames sent (sequence number,
cycle count and transmit time) and the last frame received, the measurements of the period, and the neighbour. -/
structure LinkState where
  up : Bool
  phase : LinkPhase
  delay : Nat
  nbr : Word
  seq : Half
  sent : List (Half × Nat × Dword)
  got : Option (Half × Nat × Dword)
  meas : List Int
  /-- No measurement has been used since PROVISIONAL. -/
  first : Bool
  /-- How far the timebase had run at the last valid measurement, and at the start of the present period of 125 ms. -/
  measAt : Nat
  periodAt : Nat
deriving DecidableEq, Repr

/-- The timing, integration and inauguration state of a KTN node, as a channel controller and, on its own, a
guardian keeps it (R253). -/
structure Net where
  phase : NetPhase
  id : Nat
  mode : Nat
  cycle : Half
  /-- Cycles started since the die was powered. -/
  total : Nat
  /-- Network time of the start of the present cycle. -/
  cycleAt : Dword
  /-- The timebase: ns and fraction; rate correction in ppb; offset correction of the cycle in 1/16 ns (R231). -/
  time : Dword
  frac : Word
  rate : Int
  slew : Int
  /-- The keeper's local clock in ns, and its value when the wait of LISTEN, BACKOFF or of a further timing frame began
  (R214, R216, R218). -/
  clock : Nat
  since : Nat
  /-- Whole ns that the timebase has run, its steps not counted (R238). -/
  run : Nat
  /-- Integration (R219): sender followed, consistent cycles, whether it is a cold starter, and the last consistent
  frame: its cycle, CSTART, and its start by the node's own time less path delay, in 1/16 ns. -/
  follow : Nat
  icount : Nat
  byCold : Bool
  refCycle : Half
  refStart : Dword
  refOwn : Int
  /-- The end of that frame's cycle by the node's own time, in 1/16 ns. -/
  refEnd : Int
  coldOffset : Option (Half × Int)
  /-- Sync list entries 0 to 7. -/
  syncs : List SyncRec
  mprev : Int
  oprev : Int
  members : List Nat
  changed : Bool
  hcount : Nat
  pend : Option ModeChange
  /-- Cycles in which SYNC frames of another mode came (R211). -/
  other : List Half
  seen : List SeenCopy
  wait : Option WaitCopy
  /-- Inauguration: records, view and the last stable one, view sequence. -/
  records : List InRec
  view : InView
  /-- Cycle counts at which the view last changed, and at which the node was integrated. -/
  viewSince : Nat
  viewFrom : Nat
  /-- The cycle count at which the last known end of the line went; none while one is known (R226). -/
  endless : Option Nat
  count : Nat
  pos : Nat
  stable : Bool
  vseq : Byte
  links : WE LinkState
  /-- The count of cycles at the last conflicting INAUG frame (R198); a new position to take at the next cycle start, and
  silence until the designated mode is in force (R228). -/
  conflict : Option Nat
  newId : Option Nat
  mute : Bool
deriving DecidableEq, Repr

/-- A commit in progress (R205 to R207): the staged CRC sent to the guardian, the take-effect cycle (`none` for the
moment of the reply) and whether the reply was accepted. -/
structure TtCommit where
  cycle : Option Half
  accepted : Bool
  since : Nat
deriving DecidableEq, Repr

/-- A mode request that waits for its slot (R210, R230): target, and the node count of a request of the leader. -/
structure DueRequest where
  target : Nat
  inaug : Option Nat
deriving DecidableEq, Repr

/-- A frame on a port's line: its first bit left at `start` by the channel's network time; an own frame or a forwarded
one. -/
structure LineFrame where
  f : KFrame
  start : Dword
  own : Bool
deriving DecidableEq, Repr

/-- An entry of a TX timestamp queue (R261). -/
structure TsqEntry where
  ring : Nat
  index : Nat
  time : Dword
deriving DecidableEq, Repr

/-- The guardian hosted by a port die, which guards the other die's channel. Its fence commands, reset and violation
counts are registers. -/
structure Guard where
  net : Net
  latched : Bool
  fenced : Bool
  /-- Cycle counts of the counted violations of the last 1000 cycles, newest first (R257). -/
  viols : List Nat
  /-- Cycle count until which cut attempts are exempt after a change of its ID. -/
  exemptUntil : Nat
  /-- Own time of the start of the last transmission permitted in CS_OPEN (R256). -/
  lastStart : Option Dword
  /-- Cycles in which its own node's COLDSTART frames were consistent. -/
  csCount : Nat
  /-- The commit it accepted, with the take-effect cycle. -/
  commit : Option TtCommit
  /-- The verdict sent to the controller and not yet arrived: staged CRC and acceptance. -/
  reply : Option (Word × Bool)
  /-- The guardian reference was lost (R37). -/
  stopped : Bool
deriving DecidableEq, Repr

/-- A lease timer (R349, R350). State, ARMED, SILENT and UNTIL are fields of `LS_STAT`. The flags describe the LEASE
frames of the present cycle. -/
structure LeaseTimer where
  refused : Bool
  ownSight : Bool
  ownRenew : Bool
  ownPlain : Bool
  partRenew : Bool
  partHold : Bool
  partSight : Bool
  prevOwnSight : Bool
  prevPartHold : Bool
  prevPartSight : Bool
  release : Bool
deriving DecidableEq, Repr

/-! ### Ring DMA -/

/-- Stages of an activation: a descriptor, an index table or data is being read; it is ready (a receive buffer, a
frame to send); it waits to be completed with a status. -/
inductive ActStage where
  | desc | index | data | ready | done
deriving DecidableEq, Repr

/-- One activation of a channel (R271): the ring index, the descriptor in progress and its address, the descriptors
fetched, progress within the descriptor, and the write-back fields. For a transmit ring `time` is first the instant at which
the die held the whole voted payload (R277). -/
structure Act where
  index : Nat
  addr : Nat
  desc : List Byte
  /-- The ring descriptor of a chain and its own write-back, kept until the chain ends (R281). -/
  first : List Byte
  wb : List Byte
  fetched : Nat
  stage : ActStage
  fetch : Option Nat
  lastFetch : Nat
  pos : Nat
  offs : List Nat
  data : List Byte
  moved : Nat
  crc : Dword
  status : Nat
  errAddr : Nat
  time : Dword
  info0 : Word
  info1 : Word
  info2 : Word
  /-- `DESC_LIMIT` as it stood when the activation started (R281). -/
  limit : Nat
  /-- The ordinal of the doorbell that handed the descriptor over; none when management did. -/
  need : Option Word
deriving DecidableEq, Repr

/-- One DMA channel. Its state, head and tail are registers. -/
structure Chan where
  acts : List Act
  base : Nat
  size : Nat
  /-- An enable written while draining (R293). -/
  again : Bool
  /-- The descriptors handed over and not started: for each doorbell its ordinal, none for one of management, and how many. -/
  handed : List (Option Word × Nat)
deriving DecidableEq, Repr

/-- A fetch unit at the comparator (R104): the copies read, whether the data was used with its CRC-64, the copies that are
missing, the doorbell that opens its replicas' fences (R105), the lanes it was sent to, and those whose copy is not awaited. -/
structure Fetch where
  id : Nat
  strand : Strand
  ch : Nat
  index : Nat
  addr : Nat
  len : Nat
  copies : List (Lane × List Byte)
  kept : Option Dword
  missing : List Lane
  need : Option Word
  asked : List Lane
  /-- When the read was sent to each lane, and when the second copy was held (R104, R285). -/
  askedAt : Tri Nat
  since : Nat
  gone : List Lane
deriving DecidableEq, Repr

/-- A broadcast write that a die holds: for a write-back the index of its ring descriptor and its last fetch unit (R108). -/
structure HeldWrite where
  w : Broadcast
  wb : Option (Nat × Nat)
deriving DecidableEq, Repr

/-! ### Gallery, remote reads, CAN -/

/-- The two copies of a PDU (R296), its pending exchange with the source data of the front as processing holds it,
and for a destination whether a processing has ended since the last exchange, and ever since the commit (R299). -/
structure PduBuf where
  pdu : Nat
  front : List Byte
  back : List Byte
  fresh : Bool
  ever : Bool
  /-- KTN_TX: the planned start of the slot whose commit instant has passed, and whether its frame carries the front copy. -/
  taken : Option (Dword × Bool)
deriving DecidableEq, Repr

/-- Events of a Gallery engine (R304); the firings of the triggers are numbered. -/
inductive GwEvent where
  | trigger (t firing : Nat)
  | arrival (pdu : Nat)
  | scan (map : Nat)
deriving DecidableEq, Repr

/-- The Gallery of one port die: PDU buffers, the time in µs of the last arrival that covered a map entry's source
field (R302), the event queues of the two engines with the main-island cycle of each event, arrivals whose exchange waits, and
the number of the next firing of a trigger. -/
structure Gallery where
  pdus : List PduBuf
  cover : List (Nat × Nat)
  queue0 : List (Nat × GwEvent)
  queue1 : List (Nat × GwEvent)
  pendingEx : List Nat
  /-- What each engine is processing: the event and the destinations left, the one in progress first. -/
  work0 : Option (GwEvent × List Nat)
  work1 : Option (GwEvent × List Nat)
  /-- Writes (some) and publications (none) of STRAND PDUs that wait for an exchange (R298): PDU, first byte, bytes. -/
  swHeld : List (Nat × Option (Nat × List Byte))
  firing : Nat
deriving DecidableEq, Repr

/-- A tag of the remote-read service (R316): generation, whether it is in use, whether its request was sent, and the
response with the instant it was stored. -/
structure RrTag where
  tag : Nat
  gen : Byte
  used : Bool
  resp : Option (Nat × List Byte)
  /-- When its response was stored; before that, when its request was sent (R316). -/
  since : Nat
deriving DecidableEq, Repr

/-- A frame that waits for a management-owned slot (R203, R315): its payload. Remote-read responses are assembled
when they are sent (R317), so a request held for answering is queued as such. -/
inductive MgFrame where
  | plain (bytes : List Byte)
  | answer (tag gen peer obj : Byte) (off len : Nat) (busy : Bool)
deriving DecidableEq, Repr

/-- A CAN FD controller's queue of offered Gallery frames (R314): PDU and frame. -/
structure CanCtl where
  gwq : List (Nat × CanFrame)
deriving DecidableEq, Repr

/-- One port die. -/
structure PortDie where
  net : Net
  /-- `TB_CFG` as it is in force since the last cycle start (R266). -/
  cfg : Word
  commit : Option TtCommit
  reqDue : Option DueRequest
  reqNum : Byte
  ownReq : Option OwnRequest
  /-- The cycle counts of the rounds' INAUG frames that met a collision (R224). -/
  retry : List Nat
  tsq : WE (List TsqEntry)
  /-- Frames of the management-owned slots: to send, and received (sender and payload). -/
  mgq : List MgFrame
  /-- Frames that found the queue full and are tried again (R377). -/
  mgWait : List MgFrame
  /-- Microcode that the boot loaded (R379 step 6). -/
  microcode : List Byte
  mgIn : List (Byte × List Byte)
  /-- The frame last put on each port's line, and the one that was last ended before its end there (R188, R257). -/
  line : WE (Option LineFrame)
  ended : WE (Option KFrame)
  /-- The stamp of the frame last received on each port (R260). -/
  rxStamp : WE (Option Dword)
  /-- The link delay frame last sent on each port, and the count of cycles at which the last were sent (R234). -/
  linkFrame : WE (Option LinkDelayFrame)
  linkSentAt : Option Nat
  /-- When the last quiesce was requested (R292). -/
  quiesceAt : Nat
  /-- Triggers that a timebase step advanced and that are still to fire (R264), triggers announced to F ahead of their
  instant, those whose instant lay less than 20 µs ahead when it was written, and actions of triggers on their way to F (R263,
  R329). -/
  trigOwed : List Nat
  trigAhead : List Nat
  trigLate : List Nat
  marks : List Nat
  /-- Module-held state as the lanes report it, and as sampled for the cycle (R352, R354). -/
  heldBy : Tri Bool
  heldNow : Bool
  lease : LeaseTimer
  guard : Guard
  /-- The strand whose broadcasts are held, the held writes and whether the hold was acknowledged (R141). -/
  hold : Option Strand
  holdBuf : List HeldWrite
  /-- Read fences (R105): strand, channel, lane and the ordinal of the last doorbell of that replica that has arrived. -/
  fences : List (Strand × Nat × Lane × Word)
  /-- Write-backs held for a replica until its copies were read (R108). -/
  heldWb : Tri (List HeldWrite)
  chans : List Chan
  fetches : List Fetch
  nextFetch : Nat
  gw : Gallery
  tags : Quad (List RrTag)
  can0 : CanCtl
  can1 : CanCtl
deriving DecidableEq, Repr

/-! ### Field die -/

/-- One channel's filter of one digital input (R325, R327): the value in force, the level and wire-break state that
a run of samples shows, with the instant of the run's first sample. -/
structure DiFilter where
  value : Bool
  run : Option (Bool × Nat)
  wb : Bool
  wbRun : Option (Bool × Nat)
deriving DecidableEq, Repr

/-- One sampling channel: self-test, the digital inputs, the read-back of the outputs (R335) and its latest analog
results with their validity and fault band (R339, R341). -/
structure FieldChan where
  ok : Bool
  di : List DiFilter
  rb : BitVec 16
  ai : List Half
  aiOk : List Bool
  aiFault : List Bool
deriving DecidableEq, Repr

/-- An entry of a change-of-state queue (R328). -/
structure CosEntry where
  input : Nat
  falling : Bool
  tvalid : Bool
  time : Dword
deriving DecidableEq, Repr

/-- One output: the expected state last seen, whether `OUT_VERIFY_DELAY` runs, samples that differed in a row, the
running OFF pulse (`true` for pattern X), and whether the next pulse uses pattern Y (R335, R336). -/
structure OutState where
  exp : Bool
  wait : Bool
  miss : Nat
  pulse : Option Bool
  nextY : Bool
  /-- When the present wait began, since when the output has been ON apart from OFF pulses, and when the last pulse began. -/
  since : Nat
  onFrom : Option Nat
  pulseAt : Option Nat
deriving DecidableEq, Repr

/-- An analog conversion that runs (R340): whether a trigger started it, when, the inputs it converts and what the
channels will find. -/
structure AiConv where
  byTrigger : Bool
  since : Nat
  inputs : List Nat
  raw : Tri (List AiRaw)
deriving DecidableEq, Repr

/-- The field die. -/
structure FieldDie where
  ch : Tri FieldChan
  /-- The number of the next sample, and the instant of the last. -/
  sample : Half
  sampleAt : Option Nat
  /-- The reduced digital inputs of the last sample, and until when changes of state are not detected (R328). -/
  reduced : Word
  quietUntil : Nat
  /-- Change-of-state queues, with the time of the last entry removed and the entries dropped, by strand. -/
  cos : Quad (List CosEntry)
  cosTime : Quad Dword
  cosOvf : Quad Byte
  outs : List OutState
  aiRuns : List AiConv
  /-- When the die in use last delivered an ACTION 2 trigger. -/
  aiTrigAt : Nat
  /-- When the last conversion of the 1 ms grid began. -/
  aiAt : Option Nat
  /-- For each action of R329 when its preferred die sent its latest trigger, or F-main was powered. -/
  prefAt : List Nat
  /-- The instant announced for the next sample, by which die (R329). -/
  announced : Option (PDie × Nat)
  /-- `FD_TRIG_SEL` and `FD_DI_COS` as the last sample found them (R343). -/
  trigSel : Word
  cosSel : Dword
  /-- The AND of the two lease lines as F takes it (R352). -/
  held : Bool
  /-- Calibration memory: gain correction and offset of channel c, input n and mode m at 16c + 2n + m (R384, R385). -/
  cal : List (Half × Half)
  /-- A commit of the boot's configuration was accepted; the filters restart at the next sample (R342). -/
  restart : Bool
deriving DecidableEq, Repr

/-! ### Mailboxes (R361 to R369) -/

/-- A closed message: words, epoch and doorbell writer, and its flags. -/
structure MbMsg where
  words : List Word
  epoch : Byte
  master : Nat
  coll : Bool
  mixed : Bool
deriving DecidableEq, Repr

/-- One direction of a mailbox: closed messages, the open message with the masters of its words, the sender's epoch,
the receiver's doorbell bits and mask, and the flags. COLLISION and FLUSHED are kept for each side. -/
structure MbDir where
  msgs : List MbMsg
  openWords : List Word
  openBy : List Nat
  openColl : Bool
  epoch : Byte
  db : Word
  mask : Word
  collTx : Bool
  flushTx : Bool
  collRx : Bool
  flushRx : Bool
deriving DecidableEq, Repr

/-- What one master does to a direction of a mailbox (R368). -/
inductive MbAct where
  | mask (v : Word)
  | clearDb (bits : Word)
  | clearTx (w : Word)
  | clearRx (w : Word)
  | rxReset
  | pop
  | txReset
  | word (master : Nat) (w : Word)
  | doorbell (master : Nat) (bits : Word)
deriving DecidableEq, Repr

/-- A mailbox: from the strand to the far side, and from the far side to the strand; the acts of the M-main cycle `at'` in
their order of R368 (true for the outgoing direction), with what the mailbox held before them; and how often the far
side's notification line was driven (R365). -/
structure Mailbox where
  out : MbDir
  inn : MbDir
  outBase : MbDir
  innBase : MbDir
  acts : List (Bool × MbAct)
  at' : Nat
  notices : Nat
deriving DecidableEq, Repr

/-- A lock that a read took (R372): in which M-main cycle, and for a strand's read-once its request. -/
structure LockTake where
  lock : Nat
  cycle : Nat
  request : Option Beat
deriving DecidableEq, Repr

/-! ### Management: safe store, flash, service -/

/-- An armed, staged or trial package as the BOOT record names it: components by TYPE - 1. -/
structure BootRec where
  active : BitVec 5
  trial : BitVec 5
  staged : BitVec 5
  armed : Option Dword
  /-- Successful boots since the last activation or migration, up to 3. -/
  boots : Nat
  unconfirmed : Bool
  /-- A rejected management firmware slot (R379 step 2). -/
  rejected : Option Nat
  revert : Bool
  /-- Components whose other slot holds rejected content, which is not booted again (R403). -/
  barred : BitVec 5
  /-- Migration state: the bank that is frozen (R390). -/
  migration : Option Nat
deriving DecidableEq, Repr

/-- The records of a safe store bank (R387): BOOT, DBG_HIST, SEC, SVC and LOGPOS. -/
structure SafeRecs where
  boot : BootRec
  hist : Option (Dword × Nat)
  histFlag : Bool
  secMin : Half
  svc : List Byte
  logPos : Nat
  logSeq : Word
deriving DecidableEq, Repr

/-- FMT of each record of a bank. -/
structure RecFmts where
  boot : Nat
  hist : Nat
  sec : Nat
  svc : Nat
  logPos : Nat
deriving DecidableEq, Repr

/-- One bank of the safe store (R387): its header and records. The manual does not give the data bytes of a record, so that the
bank holds whether its CRC is right and not the value of CRC and USED (log entry 163). -/
structure SafeBank where
  magic : Word
  seq : Word
  layout : Half
  nrec : Half
  wtime : Dword
  crcOk : Bool
  fmts : RecFmts
  recs : SafeRecs
deriving DecidableEq, Repr

/-- What one slot of one component holds (R396): the copy of the package's header, component table and signature,
and the component. -/
structure FlashSlot where
  head : List Byte
  body : List Byte
deriving DecidableEq, Repr

/-- A key slot of M's OTP (R395). -/
structure OtpKey where
  hash : BitVec 256
  update : Bool
  service : Bool
  debug : Bool
  revoked : Bool
deriving DecidableEq, Repr

/-- A service session (R395): who holds it, and whether its key carries debug usage. -/
structure Session where
  who : Requester
  debug : Bool
  /-- Its end, 600 s after the AUTH. -/
  until' : Nat
deriving DecidableEq, Repr

/-- A response of the service protocol: to whom, sequence number, operation, status and the body that follows. -/
structure SvcReply where
  dest : Requester
  seq : Half
  op : Nat
  status : Nat
  body : List Byte
deriving DecidableEq, Repr

/-- What a front LED shows (R430). -/
inductive Led where
  | off | green | greenFlash | yellow | yellowFlash | red | redFlash
deriving DecidableEq, Repr

/-- Management: the TLV records of its identity memory and of those that answered (R384), the module's and plug's
settings in them, the safe store, the flash slots, the keys, staging (length, transfer CRC, parts received), the last
nonce, sessions and responses. -/
structure Mgmt where
  identity : List Byte
  plug : List (Nat × List Byte)
  asym : List Half
  nodePos : Option (Byte × Byte)
  bank0 : SafeBank
  bank1 : SafeBank
  bank : Nat
  /-- The bank frozen by a migration, as the BOOT record has it (R390). -/
  frozen : Option Nat
  /-- When the safe store was last written. -/
  wroteAt : Option Nat
  /-- When VIN of `MG_BOARD` was last measured, or M was powered (R432). -/
  vinAt : Nat
  fmt : Nat
  slotA : List FlashSlot
  slotB : List FlashSlot
  keys : List OtpKey
  staging : Option (Nat × Word × List (Nat × List Byte))
  nonce : Option (List Byte)
  sessions : List Session
  replies : List SvcReply
  svcIp : Word × Byte
  pwrRetired : Bool
  /-- The present boot: M restarted or a strand halted within 60 s of the release, or the boot has been counted (R390). -/
  disturbed : Bool
  /-- The strands have been released since power-good (R174), and when they last were. -/
  everReleased : Bool
  releasedAt : Nat
  /-- A power-down under way (R40): its cause, and the islands that still have power, in order. -/
  down : Option (Nat × List Nat)
  /-- `UPDATE_REJECTED` messages still to send, with PKG_ID, PKG_VER and the reason (R402). -/
  notice : Option (Nat × Word × Word × Nat)
  /-- When the next of them is due. -/
  noticeAt : Nat
  /-- When the debug authorisation ends (R405). -/
  dbgUntil : Nat
  /-- The AON crystal was lost (R37). -/
  aonLost : Bool
  /-- Management firmware runs; the last pattern of RUN, KTN A, KTN B, FLD and SVC while it does not (R430). -/
  running : Bool
  leds : List Led
deriving DecidableEq, Repr

/-- A lane's margin governor (R411 to R417): core voltage in 5 mV above 0.700 V, last slack and temperature, low readings
in a row, since when the voltage allows a raise, the step in force at its cores, the step of a raise that waits its
20 µs and since when, and the limits, planner and strand ceilings it holds. -/
structure Governor where
  volt : Nat
  slack : Nat
  temp : Byte
  low : Nat
  calmSince : Option Nat
  step : Nat
  raising : Option (Nat × Nat)
  limits : Tri Nat
  plan : Tri Nat
  ceils : Quad Nat
deriving DecidableEq, Repr

/-- A unit's record of ageing (R420): highest voltage (or lowest slack) of the day, whether a sample of the day found a governor
with nothing left to lower (R412), the daily records from the first on, and the margins of the last 365 days. -/
structure AgeRec where
  day : Option Nat
  spent : Bool
  records : List Nat
  margins : List Nat
deriving DecidableEq, Repr

/-- Supply (R431, R432): the module runs from its hold-up store; the supply-loss mark is set; power is good. -/
structure Supply where
  good : Bool
  holdup : Bool
  mark : Bool
deriving DecidableEq, Repr

/-- The event log and its flood counts (R391). -/
structure Log where
  entries : List LogEntry
  seq : Word
  /-- Place of the next entry in the ring. -/
  pos : Nat
  /-- By source: the second being counted, and entries in it. -/
  flood : List (Nat × Nat × Nat)
deriving DecidableEq, Repr

/-- The two views of a unit (R406): management's, 0 IN_SERVICE, 1 FAULT, 2 UNPOWERED, and whether the data path
holds it OUT. -/
structure UnitView where
  mg : Nat
  out : Bool
deriving DecidableEq, Repr

/-- An area of the common region with its writer die (R164). -/
structure Area where
  base : Nat
  size : Nat
  writer : PDie
deriving DecidableEq, Repr

/-- The module. -/
structure State where
  variant : Variant
  /-- ns since power-good (log entry 4). -/
  ns : Nat
  regs : Seven RegFile
  /-- Lower halves of register pairs that wait for their upper halves (R11): space, key and word. -/
  heldLo : List (RUnit × Nat × Word)
  lanes : Tri LaneState
  voters : Four (Quad Voter)
  consumers : Four Consumer
  ports : Duo PortDie
  /-- Messages on the junction links, and those on all other links. -/
  links : Tri (Four JLink)
  wires : List Wire
  released : Quad Bool
  tcfg : Quad (Option TcfgCommit)
  /-- Queued rejoin requests (R133) and the running rejoin. -/
  rejoinQueue : Quad (Option Lane)
  rejoin : Option RejoinRun
  /-- Replica state changes, and the next number of an Echo occurrence, by strand (log entry 7). -/
  changes : Quad (List Change)
  echoNum : Quad Half
  areas : List Area
  field : FieldDie
  mailboxes : List Mailbox
  /-- Locks taken by reads of the present M-main cycle (R372). -/
  lockTaken : List LockTake
  mgmt : Mgmt
  governors : Tri Governor
  ages : List AgeRec
  supply : Supply
  /-- Views of LA, LB, LC, P1, P2, F, M, P1-guard and P2-guard (R406). -/
  views : List UnitView
  log : Log
  /-- Absent units whose first access was logged (R8). -/
  absentLogged : List Nat
  /-- Occasions of free values so far (the model's own). -/
  free : Nat
  pending : List Instr
deriving DecidableEq, Repr

/-! ### The state at reset (log entries 2 and 8 name the values that the manual does not give) -/

namespace ResetValue

def replica : Replica where
  mode := .held
  phase := .run
  nextPoint := 0
  nextCount := 0
  sincePoints := 0
  mark := false
  idle := false
  idleAt := 0
  waitSince := 0
  sig := 0xFFFFFFFFFFFFFFFF
  ord := Four.all 0
  out := []
  load := none
  soft := []
  last := []
  entry := 0
  core := []
  mask := false
  mpu := []
  debug := false
  sqOpen := []
  sqEnding := []

def echo : Echo where
  pubs := []
  claims := []
  claimDue := []
  nextAgree := 0
  agreed := []
  late := []
  splitWait := none
  inStep := Tri.all true
  halted := false
  latched := []
  record := []
  stime := 0
  sample := none
  inQ := Quad.all []
  inAhead := Quad.all []
  inCount := Quad.all 0
  inAgreed := Quad.all 0
  popped := Quad.all 0
  visible := Quad.all 0
  agreedPop := Quad.all 0
  sent := Quad.all 0
  sendSeq := Quad.all 0
  credAgreed := Quad.all 0
  credPop := Quad.all 0
  chalNext := 1
  chalBase := none
  challenges := []
  answers := []
  rejoins := Tri.all []
  tcfgFrom := none
  tcfgTook := none
  stallAt := none
  pubFirst := Tri.all none
  asideAt := Tri.all none
  timedOut := []
  solo := []

def scrub : Scrub where
  t0 := none
  next := 0
  passAfter := none
  busy := []
  done := []
  retry := []
  counts := []

def lane : LaneState where
  repl := Quad.all replica
  echo := Quad.all echo
  scrub := Quad.all scrub
  linkRun := Tri.all 0
  junction := Four.all true
  net := Duo.all ⟨0, 3, 0⟩
  triples := []
  tripleAt := 0
  fstale := false
  mem := []
  poison := []
  commonStale := false
  fenceM := false
  fenceF := false

def voter : Voter := ⟨0, [], [], Tri.all none, Tri.all none, 0⟩

def consumer : Consumer where
  running := true
  werr := ⟨Quad.all [], []⟩
  occNum := Quad.all 0
  lost := Quad.all (Tri.all ⟨0, none⟩)

def link : LinkState where
  up := false
  phase := .down
  delay := 0
  nbr := 0
  seq := 0
  sent := []
  got := none
  meas := []
  first := true
  measAt := 0
  periodAt := 0

def net : Net where
  phase := .off
  id := 0
  mode := 0
  cycle := 0
  total := 0
  cycleAt := 0
  time := 0
  frac := 0
  rate := 0
  slew := 0
  clock := 0
  since := 0
  run := 0
  follow := 0
  icount := 0
  byCold := false
  refCycle := 0
  refStart := 0
  refOwn := 0
  refEnd := 0
  coldOffset := none
  syncs := List.replicate 8 ⟨[], [], [], none, none, none, none⟩
  mprev := 0
  oprev := 0
  members := []
  changed := false
  hcount := 0
  pend := none
  other := []
  seen := []
  wait := none
  records := []
  view := .complete 1 1
  viewSince := 0
  viewFrom := 0
  endless := none
  count := 0
  pos := 0
  stable := false
  vseq := 0
  links := WE.all link
  conflict := none
  newId := none
  mute := false

def guard : Guard where
  net := net
  latched := false
  fenced := false
  viols := []
  exemptUntil := 0
  lastStart := none
  csCount := 0
  commit := none
  reply := none
  stopped := false

def lease : LeaseTimer := ⟨false, false, false, false, false, false, false, false, false, false, false⟩

def port : PortDie where
  net := net
  cfg := 0x03E801F4
  commit := none
  reqDue := none
  reqNum := 0
  ownReq := none
  retry := []
  tsq := WE.all []
  mgq := []
  mgWait := []
  microcode := []
  mgIn := []
  line := WE.all none
  ended := WE.all none
  rxStamp := WE.all none
  linkFrame := WE.all none
  linkSentAt := none
  quiesceAt := 0
  trigOwed := []
  trigAhead := []
  trigLate := []
  marks := []
  heldBy := Tri.all false
  heldNow := false
  lease := lease
  guard := guard
  hold := none
  holdBuf := []
  fences := []
  heldWb := Tri.all []
  chans := List.replicate 28 ⟨[], 0, 16, false, []⟩
  fetches := []
  nextFetch := 0
  gw := ⟨[], [], [], [], [], none, none, [], 0⟩
  tags := Quad.all []
  can0 := ⟨[]⟩
  can1 := ⟨[]⟩

def fieldChan : FieldChan where
  ok := false
  di := List.replicate 32 ⟨false, none, false, none⟩
  rb := 0
  ai := List.replicate 8 0
  aiOk := List.replicate 8 false
  aiFault := List.replicate 8 false

def field : FieldDie where
  ch := Tri.all fieldChan
  sample := 0
  sampleAt := none
  reduced := 0
  quietUntil := 0
  cos := Quad.all []
  cosTime := Quad.all 0
  cosOvf := Quad.all 0
  outs := List.replicate 16 ⟨false, false, 0, none, false, 0, none, none⟩
  aiRuns := []
  aiTrigAt := 0
  aiAt := none
  prefAt := [0, 0, 0]
  announced := none
  trigSel := 0x52A
  cosSel := 0
  held := false
  cal := List.replicate 48 (0, 0)
  restart := false

def mbDir : MbDir := ⟨[], [], [], false, 0, 0, 0, false, false, false, false⟩

def mailbox : Mailbox := ⟨mbDir, mbDir, mbDir, mbDir, [], 0, 0⟩

def bootRec : BootRec := ⟨0, 0, 0, none, 0, false, none, false, 0, none⟩

def safeBank : SafeBank := ⟨0, 0, 0, 0, 0, false, ⟨0, 0, 0, 0, 0⟩, ⟨bootRec, none, false, 0, [], 0, 0⟩⟩

def mgmt : Mgmt where
  identity := []
  plug := []
  asym := []
  nodePos := none
  bank0 := safeBank
  bank1 := safeBank
  bank := 0
  frozen := none
  wroteAt := none
  vinAt := 0
  fmt := 1
  slotA := List.replicate 5 ⟨[], []⟩
  slotB := List.replicate 5 ⟨[], []⟩
  keys := []
  staging := none
  nonce := none
  sessions := []
  replies := []
  svcIp := (0xC0A8FE0A, 24)
  pwrRetired := false
  disturbed := false
  everReleased := false
  releasedAt := 0
  down := none
  notice := none
  noticeAt := 0
  dbgUntil := 0
  aonLost := false
  running := false
  leds := List.replicate 5 .off

def governor : Governor := ⟨50, 0, 0, 0, none, 0, none, Tri.all 0, Tri.all 8, Quad.all 8⟩

end ResetValue

/-- The module right after power-good: nothing is booted, no strand is released, no command waits. -/
def State.reset : State where
  variant := .kw3120
  ns := 0
  regs := ⟨laneRegsReset, laneRegsReset, laneRegsReset, portRegsReset, portRegsReset, fieldRegsReset, mgmtRegsReset⟩
  heldLo := []
  lanes := Tri.all ResetValue.lane
  voters := Four.all (Quad.all ResetValue.voter)
  consumers := Four.all ResetValue.consumer
  ports := Duo.all ResetValue.port
  links := Tri.all (Four.all ⟨⟨[], [], []⟩, ⟨[], [], []⟩, 0⟩)
  wires := []
  released := Quad.all false
  tcfg := Quad.all none
  rejoinQueue := Quad.all none
  rejoin := none
  changes := Quad.all []
  echoNum := Quad.all 0
  areas := []
  field := ResetValue.field
  mailboxes := List.replicate 12 ResetValue.mailbox
  lockTaken := []
  mgmt := ResetValue.mgmt
  governors := Tri.all ResetValue.governor
  ages := List.replicate 5 ⟨none, false, [], []⟩
  supply := ⟨true, false, false⟩
  views := List.replicate 9 ⟨2, true⟩
  log := ⟨[], 0, 0, []⟩
  absentLogged := []
  free := 0
  pending := []

end Sys2Proof.Machine
end

