-- ==== Sys2Proof/Machine/Ops.lean ====
section
/-! DEFINITION. The named operations over the module's state: registers, lanes, voters, free values, messages,
the event log, occurrences, posted-write failures, lane memory and broadcast writes. -/

namespace Sys2Proof.Machine

/-- What a step answers. -/
abbrev Out := Host.Outcome State Fault Refusal

/-! ### Registers -/

/-- A register by its space and key. -/
def State.reg (s : State) (u : RUnit) (off : Nat) : Word := cellGet (s.regs.get u) off

def State.setReg (s : State) (u : RUnit) (off : Nat) (v : Word) : State :=
  { s with regs := s.regs.set u (cellSet (s.regs.get u) off v) }

/-- A field of a register. -/
def State.fld (s : State) (u : RUnit) (off hi lo : Nat) : Nat := fieldOf (s.reg u off) hi lo

def State.setFld (s : State) (u : RUnit) (off hi lo v : Nat) : State :=
  s.setReg u off (withField (s.reg u off) hi lo v)

def State.flag (s : State) (u : RUnit) (off i : Nat) : Bool := bitOf (s.reg u off) i

def State.setFlag (s : State) (u : RUnit) (off i : Nat) (b : Bool) : State :=
  s.setReg u off (withBit (s.reg u off) i b)

/-- Adds to a counter field, saturating at its largest value. -/
def State.bumpBy (s : State) (u : RUnit) (off hi lo n : Nat) : State :=
  s.setFld u off hi lo (satAdd (hi + 1 - lo) (s.fld u off hi lo) n)

def State.bump (s : State) (u : RUnit) (off hi lo : Nat) : State := s.bumpBy u off hi lo 1

/-- Adds 1 to a counter field that wraps. -/
def State.bumpWrap (s : State) (u : RUnit) (off hi lo : Nat) : State :=
  s.setFld u off hi lo (s.fld u off hi lo + 1)

/-- Raises a field that holds a largest value so far. -/
def State.raiseMax (s : State) (u : RUnit) (off hi lo v : Nat) : State :=
  s.setFld u off hi lo (min (max (s.fld u off hi lo) v) (2 ^ (hi + 1 - lo) - 1))

/-- A register pair (R11). -/
def State.reg64 (s : State) (u : RUnit) (lo : Nat) : Dword := s.reg u (lo + 4) ++ s.reg u lo

def State.setReg64 (s : State) (u : RUnit) (lo : Nat) (v : Dword) : State :=
  (s.setReg u lo (loWord v)).setReg u (lo + 4) (hiWord v)

/-- The same write in the register space of every lane. -/
def State.setLaneRegs (s : State) (off : Nat) (v : Word) : State :=
  ((s.setReg .la off v).setReg .lb off v).setReg .lc off v

def State.setLaneFld (s : State) (off hi lo v : Nat) : State :=
  ((s.setFld .la off hi lo v).setFld .lb off hi lo v).setFld .lc off hi lo v

/-! ### Parts of the state -/

def State.lane (s : State) (l : Lane) : LaneState := s.lanes.get l
def State.setLane (s : State) (l : Lane) (x : LaneState) : State := { s with lanes := s.lanes.set l x }
def State.replica (s : State) (l : Lane) (k : Strand) : Replica := (s.lane l).repl.get k
def State.setReplica (s : State) (l : Lane) (k : Strand) (r : Replica) : State :=
  s.setLane l { s.lane l with repl := (s.lane l).repl.set k r }
def State.echo (s : State) (l : Lane) (k : Strand) : Echo := (s.lane l).echo.get k
def State.setEcho (s : State) (l : Lane) (k : Strand) (e : Echo) : State :=
  s.setLane l { s.lane l with echo := (s.lane l).echo.set k e }
def State.scrub (s : State) (l : Lane) (k : Strand) : Scrub := (s.lane l).scrub.get k
def State.setScrub (s : State) (l : Lane) (k : Strand) (x : Scrub) : State :=
  s.setLane l { s.lane l with scrub := (s.lane l).scrub.set k x }
def State.voter (s : State) (d : Die) (k : Strand) : Voter := (s.voters.get d).get k
def State.setVoter (s : State) (d : Die) (k : Strand) (v : Voter) : State :=
  { s with voters := s.voters.set d ((s.voters.get d).set k v) }
def State.consumer (s : State) (d : Die) : Consumer := s.consumers.get d
def State.setConsumer (s : State) (d : Die) (c : Consumer) : State := { s with consumers := s.consumers.set d c }
def State.port (s : State) (p : PDie) : PortDie := s.ports.get p
def State.setPort (s : State) (p : PDie) (x : PortDie) : State := { s with ports := s.ports.set p x }

/-- A free value, and the state in which it has been used up (log entry 6). -/
def State.freeVal (s : State) : Dword := Config.freeValue s.free
def State.useFree (s : State) : State := { s with free := s.free + 1 }

/-- F is fitted in KW-AGZ-3120 alone (R2). -/
def State.fFitted (s : State) : Bool := s.variant == .kw3120
/-- CAN is absent in KW-AGZ-3101 (R2). -/
def State.canFitted (s : State) : Bool := s.variant != .kw3101
def State.dieFitted (s : State) : Die → Bool
  | .f => s.fFitted
  | _ => true
/-- The consumer dies that are present. -/
def State.dies (s : State) : List Die := Die.list.filter s.dieFitted

/-- `MG_CAPS`, fixed in production by the order code (R5). -/
def State.capsWord (s : State) : Word :=
  match s.variant with
  | .kw3120 => 0x0120047F
  | .kw3111 => 0x0111045F
  | .kw3101 => 0x0101041F

/-- M runs (R37, R39). -/
def State.mOn (s : State) : Bool := s.consumers.m.running

/-- A lane takes what management writes over its sideband: M runs, and the lane has not fenced it (R39, R123). -/
def State.mgmtReaches (s : State) (l : Lane) : Bool := s.mOn && !(s.lane l).fenceM

/-- A lane is retired (R148). -/
def State.retired (s : State) (l : Lane) : Bool := s.flag l.unit Reg.rjLane l.idx
def State.liveLanes (s : State) : List Lane := Lane.list.filter fun l => !s.retired l

/-- State of a replica as a lane shows it in `LN_REPL` (R126): 0 IN_STEP, 1 SET_ASIDE, 2 REJOINING, 3 DEBUG,
4 RETIRED. -/
def State.replState (s : State) (l : Lane) (k : Strand) (x : Lane) : Nat :=
  s.fld l.unit (Reg.lnRepl k) (3 * x.idx + 2) (3 * x.idx)

/-- The lanes whose replica of a strand one lane's Echo unit holds in step. -/
def State.inStepAt (s : State) (l : Lane) (k : Strand) : List Lane :=
  Lane.list.filter fun x => (s.echo l k).inStep.get x

/-- The lanes in a voter's in-step set: bits 2 to 0 of `VT_STAT` (R91). -/
def State.voterIn (s : State) (d : Die) (k : Strand) : List Lane :=
  Lane.list.filter fun x => s.flag d.unit (Reg.vtStat k.idx) x.idx

/-- Every lane's Echo unit that is not retired has the strand halted, or one of them has (they halt together on
the notices of R60, R102 and R148). -/
def State.haltedAt (s : State) (l : Lane) (k : Strand) : Bool := (s.echo l k).halted

/-- The first lane that is not retired, as the lane whose view stands for the module's. -/
def State.viewLane (s : State) : Lane := (s.liveLanes.head?).getD .a

/-- The strand is halted, as the lanes that are not retired hold it. -/
def State.halted (s : State) (k : Strand) : Bool := s.haltedAt s.viewLane k

/-! ### Messages in flight -/

/-- Where a message travels (R28, R318): the junction link of a lane and a die, whether from the die to the lane, and the
virtual channel; `none` for the crawlway and every other link. -/
def Wire.route : Wire → Option (Lane × Die × Bool × VChannel)
  | .beat d l b => some (l, d, false, if b.isRead then .request else .posted)
  | .challenge d l _ _ => some (l, d, false, .posted)
  | .occurrence l d _ _ => some (l, d, true, .posted)
  | .broadcast l w => some (l, Die.ofPDie w.die, true, .posted)
  | .fetchRead l p _ _ => some (l, Die.ofPDie p, true, .request)
  | .result l d _ _ _ => some (l, d, true, .response)
  | _ => none

def VQueues.get (q : VQueues) : VChannel → List Wire
  | .posted => q.posted
  | .request => q.request
  | .response => q.response

def VQueues.set (q : VQueues) (c : VChannel) (ws : List Wire) : VQueues :=
  match c with
  | .posted => { q with posted := ws }
  | .request => { q with request := ws }
  | .response => { q with response := ws }

def State.jlink (s : State) (l : Lane) (d : Die) : JLink := (s.links.get l).get d
def State.setJLink (s : State) (l : Lane) (d : Die) (x : JLink) : State :=
  { s with links := s.links.set l ((s.links.get l).set d x) }

/-- The messages of a virtual channel, oldest first. -/
def State.vcQueue (s : State) (l : Lane) (d : Die) (down : Bool) (c : VChannel) : List Wire :=
  (if down then (s.jlink l d).down else (s.jlink l d).up).get c

def State.setVcQueue (s : State) (l : Lane) (d : Die) (down : Bool) (c : VChannel) (ws : List Wire) : State :=
  let x := s.jlink l d
  s.setJLink l d (if down then { x with down := x.down.set c ws } else { x with up := x.up.set c ws })

/-- The sender of a virtual channel holds a credit: the receiver has a buffer for one more message (R318). -/
def State.vcCredit (s : State) (l : Lane) (d : Die) (down : Bool) (c : VChannel) : Bool :=
  (s.vcQueue l d down c).isEmpty || decide ((s.vcQueue l d down c).length < Config.vcBuffers)

/-- One message is sent: it joins its virtual channel, or the messages of the other links. -/
def State.sendOne (s : State) (w : Wire) : State :=
  match Wire.route w with
  | some (l, d, down, c) => s.setVcQueue l d down c (s.vcQueue l d down c ++ [w])
  | none => { s with wires := s.wires ++ [w] }

def State.send (s : State) (ws : List Wire) : State := ws.foldl (fun t w => t.sendOne w) s

/-- One more posted message of a die has left its link to a lane. -/
def State.countLanded (s : State) (l : Lane) (d : Die) (down : Bool) (c : VChannel) : State :=
  let x := s.jlink l d
  if down ∧ c = .posted then s.setJLink l d { x with landed := x.landed + 1 } else s

/-- The arrival of a message takes it from its link. -/
def State.arrive (s : State) (w : Wire) : State :=
  match Wire.route w with
  | some (l, d, down, c) => (s.countLanded l d down c).setVcQueue l d down c (eraseFirst w (s.vcQueue l d down c))
  | none => { s with wires := eraseFirst w s.wires }

/-- A read request waits for the posted writes that its replica sent before it (R319). -/
def behindWrites (w : Wire) (posted : List Wire) : Bool :=
  match w with
  | .beat _ _ b => b.isRead && posted.any fun x => match x with
    | .beat _ _ b' => b'.strand == b.strand && serialLt b'.ordinal b.ordinal
    | _ => false
  | _ => false

/-- A read of lane memory waits for the posted writes that its die sent before it (R319). -/
def State.readBehind (s : State) (w : Wire) : Bool :=
  match w with
  | .fetchRead l p _ after => decide ((s.jlink l (Die.ofPDie p)).landed < after)
  | _ => false

/-- A message of a virtual channel keeps a later one behind it. A challenge beat, which waits for its register, delays no device
beat and no challenge of another strand (R121). -/
def Wire.keepsBack (x w : Wire) : Bool :=
  match x, w with
  | .challenge _ _ j _, .challenge _ _ k _ => j == k
  | .challenge _ _ _ _, _ => false
  | _, _ => true

/-- A message can arrive now: its junction link works (R33), and no message of its virtual channel that keeps it back, and no
posted write that it must follow, is ahead of it (R121, R319). On other links messages arrive in any order. -/
def State.mayArrive (s : State) (w : Wire) : Bool :=
  match Wire.route w with
  | some (l, d, down, c) =>
    (s.lane l).junction.get d && (match (s.vcQueue l d down c).find? fun x => x.keepsBack w with
      | some x => x == w
      | none => true) && !behindWrites w (s.vcQueue l d down .posted) && !s.readBehind w
  | none => true

/-- Lanes other than `l` that are not retired. -/
def State.peers (s : State) (l : Lane) : List Lane := s.liveLanes.filter fun x => x != l

/-! ### Event log (R391) -/

/-- Network time of a port die is valid: the die runs, and TSTAT of `TB_STAT` is not 2 (R233). -/
def State.timeValid (s : State) (p : PDie) : Bool := (s.consumer (Die.ofPDie p)).running && s.fld p.unit Reg.tbStat 19 18 != 2

/-- The TIME of a log entry, and TVALID. -/
def State.logTime (s : State) : Dword × Bool :=
  if s.timeValid .p1 then ((s.port .p1).net.time, true)
  else if s.timeValid .p2 then ((s.port .p2).net.time, true)
  else (BitVec.ofNat 64 s.ns, false)

/-- Entries of the log ring. -/
def logRing : Nat := 196608

def State.appendLog (s : State) (code : LogCode) (src : Nat) (k : Option Strand) (arg : List Nat) : State :=
  let e : LogEntry := ⟨s.logTime.1, s.logTime.2, s.log.seq, code, src, k, arg⟩
  { s with log := { s.log with entries := (e :: s.log.entries).take logRing, seq := s.log.seq + 1, pos := (s.log.pos + 1) % logRing } }

/-- Counts one more excess entry in the source's newest `LOG_FLOOD` entry. -/
def bumpFlood (src : Nat) : List LogEntry → List LogEntry
  | [] => []
  | e :: t =>
    if e.code = .logFlood ∧ e.src = src then { e with arg := [e.arg.headD 0 + 1] } :: t
    else e :: bumpFlood src t

/-- Entries a source has sent in the present second. -/
def State.floodCount (s : State) (src : Nat) : Nat :=
  match s.log.flood.find? fun f => f.1 == src with
  | some (_, sec, n) => if sec = s.ns / 1000000000 then n else 0
  | none => 0

def State.setFlood (s : State) (src n : Nat) : State :=
  { s with log := { s.log with
      flood := (src, s.ns / 1000000000, n) :: s.log.flood.filter fun f => f.1 != src } }

/-- An event of a source reaches management's log: beyond 64 entries in one second the excess is replaced by one
`LOG_FLOOD` entry. While M is stopped nothing is logged (R39). -/
def State.logEv (s : State) (src : Nat) (k : Option Strand) (code : LogCode) (arg : List Nat) : State :=
  if s.consumers.m.running = false then s
  else
    let n := s.floodCount src
    let t := s.setFlood src (n + 1)
    if n < 64 then t.appendLog code src k arg
    else if n = 64 then t.appendLog .logFlood src none [1]
    else { t with log := { t.log with entries := bumpFlood src t.log.entries } }

/-- SRC codes of the log. -/
def Die.logSrc : Die → Nat
  | .p1 => 3
  | .p2 => 4
  | .f => 5
  | .m => 6
def RUnit.logSrc : RUnit → Nat
  | .la => 0
  | .lb => 1
  | .lc => 2
  | .p1 => 3
  | .p2 => 4
  | .f => 5
  | .m => 6

/-- `WRITE_IGNORED` with the address and the master (R445). -/
def State.ignored (s : State) (u : RUnit) (off : Nat) (m : Master) : State :=
  s.logEv (RUnit.logSrc u) (match m with | .strand k => some k | _ => none) .writeIgnored [off, m.number]

/-! ### Absent units (R6 to R8) and fenced dies (R123) -/

def masterStrand : Master → Option Strand
  | .strand k => some k
  | _ => none

def unitDie : RUnit → Option Die
  | .p1 => some .p1
  | .p2 => some .p2
  | .f => some .f
  | .m => some .m
  | _ => none

/-- The absent unit that a window offset belongs to: 0 for F, 1 for CAN (R8). -/
def State.absentUnit (s : State) (d : Die) (off : Nat) : Option Nat :=
  match d with
  | .f => if s.fFitted then none else some 0
  | .m => none
  | _ =>
    if s.canFitted then none
    else if (0x5000000 ≤ off ∧ off < 0x6000000) ∨ (0x4000400 ≤ off ∧ off < 0x4000500) then some 1 else none

/-- The first report of a strand access to an absent unit that management firmware receives makes one `CAPS_ABSENT` entry for the
module (R8); a report while M is stopped reaches no one. -/
def State.logAbsent (s : State) (n : Nat) : State :=
  if s.consumers.m.running = false ∨ s.absentLogged.contains n then s
  else ({ s with absentLogged := n :: s.absentLogged }).logEv 6 none .capsAbsent [n]

/-- An access to an absent unit is reported for R8. -/
def State.noteAbsent (s : State) (d : Die) (off : Nat) : State :=
  match s.absentUnit d off with
  | some n => s.logAbsent n
  | none => s

/-- The offset of a unit belongs to a unit of its die that is absent from the order code. -/
def State.unitAbsent (s : State) (u : RUnit) (off : Nat) : Bool :=
  match unitDie u with
  | some d => (s.absentUnit d off).isSome
  | none => false

/-- A strand's access to an absent unit, which its lanes answer and report (R6 to R8). -/
def State.strandAbsent (s : State) (m : Master) (u : RUnit) (off : Nat) : Bool := (masterStrand m).isSome && s.unitAbsent u off

def State.noteAbsentUnit (s : State) (u : RUnit) (off : Nat) : State :=
  match unitDie u with
  | some d => s.noteAbsent d off
  | none => s

/-- The voter of a die is fenced, so that no access of a strand is released or performed there (R123). -/
def State.strandFenced (s : State) (m : Master) (d : Die) : Bool := (masterStrand m).isSome && s.flag d.unit Reg.vtFence 0

/-- A command of a master at a register: a strand's access to an absent unit is only reported (R6 to R8), and one at a fenced die
has no effect (R123). -/
def State.atUnit (s : State) (m : Master) (u : RUnit) (off : Nat) (t : State) : State :=
  if s.strandAbsent m u off then s.noteAbsentUnit u off
  else match unitDie u with
    | some d => if s.strandFenced m d then s else t
    | none => t

/-- A command of a master at a register of M, which runs; a strand's is dropped once M is fenced (R123, R369). -/
def State.atM (s : State) (m : Master) (t : State) : State := if s.mOn && !s.strandFenced m .m then t else s

/-! ### Occurrences (R52) -/

/-- Vectors that belong to a unit absent from the order code are never raised (R9). -/
def State.vectorFitted (s : State) (v : Nat) : Bool :=
  (s.fFitted || !(decide (160 ≤ v) && decide (v ≤ 207))) &&
  (s.canFitted || !((decide (48 ≤ v) && decide (v ≤ 53)) || (decide (112 ≤ v) && decide (v ≤ 117))))

def Die.source : Die → BitVec 3
  | .p1 => 1
  | .p2 => 2
  | .f => 3
  | .m => 4

/-- The next occurrence of a die for a strand: it takes the die's next number for the strand. -/
def State.nextOcc (s : State) (d : Die) (k : Strand) (v : Nat) : Occ :=
  ⟨Die.source d, BitVec.ofNat 8 v, (s.consumer d).occNum.get k⟩

def State.countOcc (s : State) (d : Die) (k : Strand) : State :=
  let c := s.consumer d
  s.setConsumer d { c with occNum := c.occNum.set k (c.occNum.get k + 1) }

/-- Lanes a die reaches over a working junction link (R33), retired or not. -/
def State.linked (s : State) (d : Die) : List Lane := Lane.list.filter fun l => (s.lane l).junction.get d

/-- A die raises a vector to a strand: one occurrence, sent to all three lanes. -/
def State.raise (s : State) (d : Die) (k : Strand) (v : Nat) : State :=
  if (s.consumer d).running && s.vectorFitted v && s.dieFitted d then
    (s.countOcc d k).send ((s.linked d).map fun l => .occurrence l d k (s.nextOcc d k v))
  else s

/-- A die-wide event goes to every strand (R179). -/
def State.raiseAll (s : State) (d : Die) (v : Nat) : State :=
  Strand.list.foldl (fun t k => t.raise d k v) s

/-- A vector of a port die's range, by its offset (R177). -/
def State.raiseP (s : State) (p : PDie) (k : Strand) (off : Nat) : State :=
  s.raise (Die.ofPDie p) k (32 + 64 * p.idx + off)

def State.raisePAll (s : State) (p : PDie) (off : Nat) : State := s.raiseAll (Die.ofPDie p) (32 + 64 * p.idx + off)

/-! ### Posted-write failures (R320) -/

/-- The PW_FAIL vector of a die (R177 to R179). -/
def pwFailVector : Die → Nat
  | .p1 => 91
  | .p2 => 155
  | .f => 202
  | .m => 212

/-- A posted write failed: its record joins the queue of its strand, or of no strand, unless 8 wait there. -/
def State.pwFail (s : State) (d : Die) (k : Option Strand) (r : WerrRec) : State :=
  let w := (s.consumer d).werr
  match k with
  | some k =>
    let t :=
      if (w.strand.get k).length < 8 then
        s.setConsumer d { s.consumer d with werr := { w with strand := w.strand.set k (w.strand.get k ++ [r]) } }
      else s.bump d.unit (Reg.pdWerrOvf k.idx) 7 0
    t.raise d k (pwFailVector d)
  | none =>
    if w.other.length < 8 then
      s.setConsumer d { s.consumer d with werr := { w with other := w.other ++ [r] } }
    else s.bump d.unit (Reg.pdWerrOvf 4) 7 0

/-! ### Lane memory (R161) -/

/-- The regions of the physical address map, with the offset inside the region. -/
inductive Region where
  | partition (k : Strand) (off : Nat)
  | common (off : Nat)
  | slice (k : Strand) (off : Nat)
  | page (k : Strand) (off : Nat)
  | laneCommon (off : Nat)
  | window (d : Die) (off : Nat)
  | unlisted
deriving DecidableEq, Repr

def partitionSize : Nat := 0x38000000
def sliceBase : Nat := 0x100000000
def sliceSize : Nat := 0x40000

/-- The consumer die of a window number. -/
def Die.ofWindow (n : Nat) : Die :=
  if n = 0 then .p1 else if n = 1 then .p2 else if n = 2 then .f else .m
def Die.window : Die → Nat
  | .p1 => 0
  | .p2 => 1
  | .f => 2
  | .m => 3

/-- Where an address lies (R161). -/
def regionOf (a : Nat) : Region :=
  if a < 0xE0000000 then .partition (Strand.ofIdx (a / partitionSize)) (a % partitionSize)
  else if a < 0x100000000 then .common (a - 0xE0000000)
  else if a < 0x100100000 then .slice (Strand.ofIdx ((a - sliceBase) / sliceSize)) ((a - sliceBase) % sliceSize)
  else if a < 0x200000000 then .unlisted
  else if a < 0x200040000 then .page (Strand.ofIdx ((a - 0x200000000) / 0x10000)) ((a - 0x200000000) % 0x10000)
  else if a < 0x200080000 then .unlisted
  else if a < 0x200090000 then .laneCommon (a - 0x200000000)
  else if a < 0x300000000 then .unlisted
  else if a < 0x340000000 then
    .window (Die.ofWindow ((a - 0x300000000) / 0x10000000)) ((a - 0x300000000) % 0x10000000)
  else .unlisted

/-- The strand whose partition or slice holds an address. -/
def ownerOf (a : Nat) : Option Strand :=
  match regionOf a with
  | .partition k _ => some k
  | .slice k _ => some k
  | _ => none

/-- The address lies in a lane's DRAM or SRAM. -/
def isLaneMemory (a : Nat) : Bool := decide (a < 0x100100000)

/-- The page of a strand's partition or slice that holds an address, numbered as R135 counts pages. -/
def pageOf (a : Nat) : Option (Strand × Nat) :=
  match regionOf a with
  | .partition k off => some (k, off / 4096)
  | .slice k off => some (k, 229376 + off / 4096)
  | _ => none

/-- The first address of a page. -/
def pageBase (k : Strand) (n : Nat) : Nat :=
  if n < 229376 then k.idx * partitionSize + n * 4096
  else sliceBase + k.idx * sliceSize + (n - 229376) * 4096

/-- Inserts into a rising list without repeats. -/
def insertNat (n : Nat) : List Nat → List Nat
  | [] => [n]
  | a :: t => if n < a then n :: a :: t else if n = a then a :: t else a :: insertNat n t

/-- The dirty count of the running rejoin shows in `RJ_DIRTY` of the donor's lane. -/
def State.showDirty (s : State) : State :=
  match s.rejoin with
  | some r => s.setReg r.donor.unit (Reg.rjDirty r.strand.idx) (BitVec.ofNat 32 r.dirty.length)
  | none => s

/-- Pages of a strand: 229 376 of the partition and 64 of the slice (R135). -/
def rejoinPages : Nat := 229440

/-- Pages of a pass. -/
def passSize (pass : Option (List Nat)) : Nat :=
  match pass with
  | some ps => ps.length
  | none => rejoinPages

/-- Page p is one of the pages number `a` to `b` - 1 that a pass reads, in rising order. -/
def passReads (pass : Option (List Nat)) (a b p : Nat) : Bool :=
  match pass with
  | some ps => ((ps.drop a).take (b - a)).contains p
  | none => decide (a ≤ p) && decide (p < b)

/-- `REJOIN_BW` in GB/s, 1 to 6 (R154). -/
def State.rjBw (s : State) (l : Lane) : Nat := min (max (s.fld l.unit Reg.rjCfg 19 16) 1) 6

/-- The first `n` pages of a pass have been read: the dirty mark of each was cleared as its read started (R136). -/
def RejoinRun.readTo (r : RejoinRun) (n : Nat) : RejoinRun :=
  { r with
    dirty := r.dirty.filter (fun p => !passReads r.pass r.pagesRead n p)
    pagesRead := max r.pagesRead n }

/-- Pages of the running pass whose reads have started by now, or by the start of the final stall, whose own copy starts at the
acknowledgement: one page after another at `REJOIN_BW` (log entry 129). -/
def State.pagesDue (s : State) (r : RejoinRun) : Nat :=
  min (passSize r.pass) (((if r.copied then s.ns else r.stallFrom.getD s.ns) - r.passFrom) * s.rjBw r.donor / 4096 + 1)

/-- Every page of the running pass has been copied: a pass takes the time of its pages at `REJOIN_BW` (R29). -/
def State.passOver (s : State) (r : RejoinRun) : Bool :=
  decide (passSize r.pass * 4096 ≤ (s.ns - r.passFrom) * s.rjBw r.donor)

/-- A write in a lane marks the page dirty in the tracker of a donor that runs there (R136). -/
def State.markDirty (s : State) (l : Lane) (a : Nat) : State :=
  match s.rejoin, pageOf a with
  | some r, some (k, n) =>
    if r.donor = l ∧ r.strand = k then
      let r := r.readTo (s.pagesDue r)
      State.showDirty { s with rejoin := some { r with dirty := insertNat n r.dirty } }
    else s
  | _, _ => s

/-- Poisoned doublewords that a write of `len` bytes at `a` does not cover completely (R170). -/
def unpoison (poison : List Nat) (a len : Nat) : List Nat :=
  poison.filter fun d => !(decide (a ≤ d) && decide (d + 8 ≤ a + len))

/-- Bytes are written into a lane's memory. -/
def State.laneStore (s : State) (l : Lane) (a : Nat) (bs : List Byte) : State :=
  let x := s.lane l
  s.setLane l { x with mem := memWrite x.mem a bs, poison := unpoison x.poison a bs.length }

/-- Every page that a write of `len` bytes at `a` touches is marked dirty. -/
def State.markDirtyRange (s : State) (l : Lane) (a len : Nat) : State :=
  (List.range (len / 4096 + 2)).foldl
    (fun t i => if a / 4096 * 4096 + 4096 * i < a + len then t.markDirty l (a / 4096 * 4096 + 4096 * i) else t) s

/-- Some byte of a range is poisoned in a lane. -/
def State.poisoned (s : State) (l : Lane) (a len : Nat) : Bool :=
  (s.lane l).poison.any fun d => decide (d < a + len) && decide (a < d + 8)

/-- Memory with every entry of a range removed. -/
def memClear {n : Nat} (m : List (Nat × BitVec n)) (base size : Nat) : List (Nat × BitVec n) :=
  m.filter fun c => !(decide (base ≤ c.1) && decide (c.1 < base + size))

/-- The entries of a range. -/
def memRange {n : Nat} (m : List (Nat × BitVec n)) (base size : Nat) : List (Nat × BitVec n) :=
  m.filter fun c => decide (base ≤ c.1) && decide (c.1 < base + size)

/-- Entries put into a memory one after another. -/
def cellPutAll {n : Nat} (m : List (Nat × BitVec n)) (cs : List (Nat × BitVec n)) : List (Nat × BitVec n) :=
  cs.foldl (fun m c => cellSet m c.1 c.2) m

/-- A range of one memory replaced by the same range of another. -/
def memCopy {n : Nat} (dst src : List (Nat × BitVec n)) (base size : Nat) : List (Nat × BitVec n) :=
  cellPutAll (memClear dst base size) (memRange src base size)

/-! ### Broadcast writes (R107) -/

/-- The common region lets each area be written by one die (R164). -/
def State.areaOk (s : State) (p : PDie) (off len : Nat) : Bool :=
  s.areas.any fun a => a.writer == p && decide (a.base ≤ off) && decide (off + len ≤ a.base + a.size)

/-- The strand's broadcasts are held by the die (R141). -/
def State.heldHere (s : State) (w : Broadcast) : Bool :=
  match (s.port w.die).hold, ownerOf w.addr.toNat with
  | some k, some k' => k == k'
  | _, _ => false

/-- A quiesce of a lane's mem island has been requested at a port die (R291). -/
def State.quiesced (s : State) (p : PDie) (l : Lane) : Bool :=
  s.flag p.unit Reg.dmQuiesce 9 && s.fld p.unit Reg.dmQuiesce 2 0 == l.idx + 1

/-- A broadcast write that does not reach a lane is recorded by the die that wrote it (R320). -/
def State.loseWrite (s : State) (l : Lane) (w : Broadcast) (cause : Nat) : State :=
  let t := s.pwFail (Die.ofPDie w.die) (some w.strand) ⟨cause, BitVec.ofNat 16 (w.unit.toNat * 256), w.addr.toNat, 1⟩
  match regionOf w.addr.toNat with
  | .common _ => t.setLane l { t.lane l with commonStale := true }
  | _ => t

/-- A broadcast to one lane: it leaves on the lane's junction link, or is lost when that link has failed (R33) or the
lane's memory is quiesced (R291). -/
def State.broadcastTo (s : State) (w : Broadcast) (l : Lane) : State :=
  let lost : Option Nat :=
    if !(s.lane l).junction.get (Die.ofPDie w.die) then some 3 else if s.quiesced w.die l then some 5 else none
  match lost with
  | none => s.send (.broadcast l w :: match w.occ with
    | some (k, o) => [.occurrence l (Die.ofPDie w.die) k o]
    | none => [])
  | some c => s.loseWrite l w c

/-- A port die sends a broadcast write to every lane that is not retired. -/
def State.broadcastNow (s : State) (w : Broadcast) : State :=
  match regionOf w.addr.toNat with
  | .common off =>
    if s.areaOk w.die off w.bytes.length then s.liveLanes.foldl (fun t l => t.broadcastTo w l) s
    else s.pwFail (Die.ofPDie w.die) (some w.strand)
      ⟨4, BitVec.ofNat 16 (w.unit.toNat * 256), w.addr.toNat, 1⟩
  | _ => s.liveLanes.foldl (fun t l => t.broadcastTo w l) s

/-- Size of a hold buffer (R141). -/
def holdSize : Nat := 262144

/-- Bytes in a die's hold buffer. -/
def State.holdUsed (s : State) (p : PDie) : Nat := (s.port p).holdBuf.foldl (fun n h => n + h.w.bytes.length) 0

/-- `DM_HOLD` shows the hold buffer's occupancy. -/
def State.showHold (s : State) (p : PDie) : State :=
  let k := (s.holdUsed p + 1023) / 1024
  (s.setFld p.unit Reg.dmHold 8 0 k).raiseMax p.unit Reg.dmHold 24 16 k

/-- A die keeps a write in its hold buffer. -/
def State.keepWrite (s : State) (p : PDie) (h : HeldWrite) : State :=
  let x := s.port p
  State.showHold (s.setPort p { x with holdBuf := x.holdBuf ++ [h] }) p

/-- A broadcast write, kept in the hold buffer while its memory is held. -/
def State.broadcast (s : State) (w : Broadcast) : State :=
  if s.heldHere w then s.keepWrite w.die ⟨w, none⟩ else s.broadcastNow w

end Sys2Proof.Machine
end

