-- ==== Sys2Proof/Machine/Operands.lean ====
section
/-! DEFINITION. Operand forms: the beats an access splits into (R90), byte enables, the widths of register accesses
(R446), the fixed read patterns (R6, R100, R123, R151) and the records of the state signature (R111). -/

namespace Sys2Proof.Machine

/-- One aligned doubleword of an access: the aligned address, the byte enables and, for a write, the data with 0 in
the bytes not enabled. -/
structure Dw where
  addr : Nat
  be : Byte
  data : Dword
deriving DecidableEq, Repr

/-- Byte i of the access lies in byte (address mod 8) of its aligned doubleword. -/
def dwOf (a : Nat) (bs : List Byte) (base : Nat) : Dw :=
  let idx := List.range 8
  let on := fun i => decide (a ≤ base + i) && decide (base + i < a + bs.length)
  ⟨base,
   idx.foldl (fun be i => if on i then be ||| BitVec.ofNat 8 (1 <<< i) else be) 0,
   idx.foldl (fun d i =>
     if on i then d ||| BitVec.ofNat 64 ((byteAt bs (base + i - a)).toNat <<< (8 * i)) else d) 0⟩

/-- The aligned doublewords that an access of the bytes `bs` at `a` touches, lowest first (R90). -/
def dwords (a : Nat) (bs : List Byte) : List Dw :=
  if bs.length = 0 then []
  else (List.range ((a + bs.length - 1) / 8 - a / 8 + 1)).map fun i => dwOf a bs ((a / 8 + i) * 8)

/-- The lowest enabled byte of a beat, and the number of enabled bytes: a beat's access size. -/
def beFirst (be : Byte) : Nat := ((List.range 8).find? fun i => be.getLsbD i).getD 0
def beCount (be : Byte) : Nat := ((List.range 8).filter fun i => be.getLsbD i).length

/-! ### Fixed read patterns -/

/-- The absent pattern (R6). -/
def absentPattern : Word := 0xDEAD0A0A
/-- The answer of a read that timed out (R100). -/
def timeoutPattern : Word := 0xDEAD0B0B
/-- The answer of a read of the fenced M window (R123). -/
def fencedPattern : Word := 0xDEAD0C0C
/-- The answer of a device read of a replica in DEBUG (R151). -/
def debugPattern : Word := 0xDEAD0D0D

/-! ### Signature records -/

/-- Kinds of signature records (R111). -/
def sigPartition : Byte := 0x01
def sigSlice : Byte := 0x02
def sigDevice : Byte := 0x03
def sigPage : Byte := 0x04

/-- The 24-byte record of one doubleword. -/
def sigRecord (kind : Byte) (d : Dw) : List Byte :=
  leBytes 8 d.addr ++ [d.be, kind] ++ [0, 0, 0, 0, 0, 0] ++ leBytes 8 d.data.toNat

/-- A record enters the running signature. -/
def sigFold (sig : Dword) (kind : Byte) (d : Dw) : Dword := crcFold poly64 sig (sigRecord kind d)

/-! ### Register access widths (R446) -/

/-- The registers that an access of `size` bytes at `off` touches: for each its offset, the mask of the enabled
bits and, for a write, the bits written (0 where not enabled). -/
def wordsOf (off size : Nat) (data : Dword) : List (Nat × Word × Word) :=
  (dwords off (leBytes (min size 8) data.toNat)).flatMap fun d =>
    let m := beMask d.be
    [(d.addr, loWord m, loWord d.data), (d.addr + 4, hiWord m, hiWord d.data)].filter fun x => x.2.1 != 0

/-- The registers that a beat touches. -/
def beatWords (b : Beat) : List (Nat × Word × Word) :=
  let m := beMask b.be
  [(b.addr / 8 * 8, loWord m, loWord (b.data &&& m)),
   (b.addr / 8 * 8 + 4, hiWord m, hiWord (b.data &&& m))].filter fun x => x.2.1 != 0

/-- Masks the bytes of a doubleword that a read returns. -/
def keepEnabled (be : Byte) (d : Dword) : Dword := d &&& beMask be

end Sys2Proof.Machine
end

