-- ==== Sys2Proof/Machine/Flags.lean ====
section
/-! DEFINITION. Flags and status fields: the pending and enable bits of a strand's event controller (R157, R182),
causes of exclusion and halt (R124), the cause registers, and sump occupancy in the voter's status. -/

namespace Sys2Proof.Machine

/-! ### Event controller -/

/-- The pending bit of a vector in a lane's event controller. -/
def State.pendingBit (s : State) (l : Lane) (k : Strand) (v : Nat) : Bool :=
  s.flag l.unit (Reg.lnEvPend k (v / 32)) (v % 32)

def State.enabledBit (s : State) (l : Lane) (k : Strand) (v : Nat) : Bool :=
  s.flag l.unit (Reg.lnEvEn k (v / 32)) (v % 32)

/-- Raises a vector in one lane: its pending bit is set, or already was (R55). -/
def State.setPending (s : State) (l : Lane) (k : Strand) (v : Nat) : State :=
  if s.vectorFitted v then s.setFlag l.unit (Reg.lnEvPend k (v / 32)) (v % 32) true else s

def State.clearPending (s : State) (l : Lane) (k : Strand) (v : Nat) : State :=
  s.setFlag l.unit (Reg.lnEvPend k (v / 32)) (v % 32) false

/-- The lowest-numbered vector that is pending and enabled (R157). -/
def State.dueVector (s : State) (l : Lane) (k : Strand) : Option Nat :=
  (List.range 256).find? fun v => s.pendingBit l k v && s.enabledBit l k v

/-! ### Causes (R124) -/

def Cause.code : Cause → Nat
  | .none => 0x0
  | .mismatch => 0x1
  | .odd => 0x2
  | .late => 0x3
  | .sumpEcc => 0x4
  | .roEcc => 0x5
  | .fetchOdd => 0x6
  | .sigOdd => 0x7
  | .scrub => 0x8
  | .split => 0x9
  | .diverge2oo2 => 0xA
  | .voteFail => 0xB
  | .starved => 0xC
  | .laneRetired => 0xD

/-- Replica code of the cause registers: 3 for none. -/
def replCode : Option Lane → Nat
  | some l => l.idx
  | none => 3

/-- The word of `VT_CAUSE[k]` and `VT_LCAUSE[k]`. -/
def causeWord (c : Cause) (repl : Option Lane) : Word :=
  withField (withField (withBit (0 : Word) 0 true) 5 4 (replCode repl)) 11 8 (Cause.code c)

/-- A lane's Echo unit or scrub engine records a cause. -/
def State.setLCause (s : State) (l : Lane) (k : Strand) (c : Cause) (repl : Option Lane) : State :=
  s.setReg l.unit (Reg.vtLcause k.idx) (causeWord c repl)

/-- A die's voter or comparator records a cause and the ordinal at which it was decided. -/
def State.setVCause (s : State) (d : Die) (k : Strand) (c : Cause) (repl : Option Lane) (ord : Word) : State :=
  (s.setReg d.unit (Reg.vtCause k.idx) (causeWord c repl)).setReg d.unit (Reg.vtOrd k.idx) ord

/-! ### Sump occupancy (R96) -/

/-- Sump entries of a replica at a voter: every beat that is held and not yet freed. -/
def sumpUse (v : Voter) (l : Lane) : Nat := (v.ords.filter fun o => o.beats.any fun b => b.1 == l).length

/-- Entries of a sump (R96) and of the read-once buffer (R99). -/
def sumpSize : Nat := 512
def robSize : Nat := 64

/-- FULL, the high-water marks and the read-once counts show the voter's buffers. -/
def State.showSump (s : State) (d : Die) (k : Strand) : State :=
  let v := s.voter d k
  let t := Lane.list.foldl (fun t l =>
    (t.setFlag d.unit (Reg.vtStat k.idx) (5 + l.idx) (decide (sumpSize ≤ sumpUse v l))).raiseMax
      d.unit (Reg.vtSumpHwm k.idx) (10 * l.idx + 9) (10 * l.idx) (sumpUse v l)) s
  (t.setFld d.unit (Reg.vtRob k.idx) 6 0 v.kept.length).raiseMax d.unit (Reg.vtRob k.idx) 22 16 v.kept.length

end Sys2Proof.Machine
end

