-- ==== Sys2Proof/Machine/SafeState.lean ====
section
/-! DEFINITION. What a halted or excluded strand lets go of at once: output latches (R333) and semaphores (R374). -/

namespace Sys2Proof.Machine

/-! ### The skew limit -/

/-- `SKEW_LIMIT` of a strand as a lane holds it (R82), in ns. -/
def State.skewLimitNs (s : State) (l : Lane) (k : Strand) : Nat := 1000 * s.fld l.unit (Reg.lnTcfg k) 29 20

/-- A strand halts, or M restarts: before 60 s have passed since the release the boot is no successful one (R390). -/
def State.disturb (s : State) : State :=
  if s.ns < s.mgmt.releasedAt + 60000000000 then { s with mgmt := { s.mgmt with disturbed := true } } else s

/-! ### Output latches -/

/-- The owner strand of output n (R331). -/
def State.outOwner (s : State) (n : Nat) : Strand := Strand.ofIdx (s.fld .f Reg.fdDoOwn (2 * n + 1) (2 * n))

/-- The outputs that a strand owns, as a mask. -/
def State.ownedMask (s : State) (k : Strand) : BitVec 16 :=
  (List.range 16).foldl (fun m n => if s.outOwner n = k then m ||| BitVec.ofNat 16 (1 <<< n) else m) 0

def State.activeLatch (s : State) (l : Lane) : BitVec 16 := (s.reg .f (Reg.fdDoLatch l.idx)).extractLsb' 0 16
def State.pendingLatch (s : State) (l : Lane) : BitVec 16 := (s.reg .f (Reg.fdDoLatch l.idx)).extractLsb' 16 16

/-! ### The switch bridge (R330, R335, R355) -/

def noOut : OutState := ⟨false, false, 0, none, false, 0, none, none⟩

def State.out (s : State) (n : Nat) : OutState := (s.field.outs[n]?).getD noOut

def State.setOut (s : State) (n : Nat) (o : OutState) : State :=
  { s with field := { s.field with outs := s.field.outs.set n o } }

/-- Register and lowest bit of an output's fault cause. -/
def faultReg (n : Nat) : Nat := if n < 8 then Reg.fdDoFltLo else Reg.fdDoFltHi

/-- The latched fault cause of output n (R337): 0 for none. -/
def State.outFault (s : State) (n : Nat) : Nat := s.fld .f (faultReg n) (4 * (n % 8) + 3) (4 * (n % 8))

/-- Two of the three lanes' active latches command output n ON, so that one path of the bridge can close (R330). -/
def State.bridgeOn (s : State) (n : Nat) : Bool :=
  decide (2 ≤ (Lane.list.filter fun l => (s.activeLatch l).getLsbD n).length)

/-- F's enables for output n are present: F runs (R37), is configured (R342), no fault of the output is latched (R337), and
a lease-bound output's module holds the lease (R355). -/
def State.enabled (s : State) (n : Nat) : Bool :=
  s.consumers.f.running && s.flag .f Reg.fdStat 0 && s.outFault n == 0 && (!s.flag .f Reg.fdLsBind n || s.field.held)

/-- The expected state E of output n (R335). -/
def State.expected (s : State) (n : Nat) : Bool := s.bridgeOn n && s.enabled n && (s.out n).pulse.isNone

/-- The bridge of output n (R330): whether the pulse pattern that runs opens a switch (R336). X opens AB-a, BC-b and AC-c,
Y opens AB-b, BC-c and AC-a. Paths: AB, BC, AC; each has two switches. -/
def State.pulseOpens (s : State) (n path : Nat) (second : Bool) : Bool :=
  match (s.out n).pulse with
  | none => false
  | some x => if path = 2 then second == x else second != x

/-- The lane whose latch drives a switch. -/
def switchLane (path : Nat) (second : Bool) : Lane :=
  if path = 0 then (if second then .b else .a) else if path = 1 then (if second then .c else .b) else if second then .c else .a

/-- A switch is closed: its lane's active latch is ON, F's enable is present and no pulse opens it. -/
def State.switchClosed (s : State) (n path : Nat) (second : Bool) : Bool :=
  (s.activeLatch (switchLane path second)).getLsbD n && s.enabled n && !s.pulseOpens n path second

/-- The output is energised: both switches of one of the three paths are closed. -/
def State.energised (s : State) (n : Nat) : Bool :=
  (List.range 3).any fun path => s.switchClosed n path false && s.switchClosed n path true

/-- A change of E restarts `OUT_VERIFY_DELAY`; EXP of `FD_DO_STAT` shows E. -/
def State.refreshOut (s : State) (n : Nat) : State :=
  let e := s.expected n
  let o := s.out n
  let o := { o with onFrom := if s.bridgeOn n && s.enabled n then some (o.onFrom.getD s.ns) else none }
  (s.setFlag .f Reg.fdDoStat n e).setOut n
    (if o.exp = e then o else { o with exp := e, wait := true, miss := 0, since := s.ns })

def State.refreshOuts (s : State) : State := (List.range 16).foldl (fun t n => t.refreshOut n) s

def State.setLatches (s : State) (l : Lane) (pend active : BitVec 16) : State :=
  State.refreshOuts (s.setReg .f (Reg.fdDoLatch l.idx) (pend ++ active))

/-! ### Clearing latches (R333) -/

/-- Clears the latches of one lane for the outputs of a mask, pending and active alike (R333). -/
def State.clearLatches (s : State) (l : Lane) (mask : BitVec 16) : State :=
  s.setLatches l (s.pendingLatch l &&& ~~~mask) (s.activeLatch l &&& ~~~mask)

/-- One lane's latches for a strand's outputs are cleared to OFF. -/
def State.clearStrandLatches (s : State) (l : Lane) (k : Strand) : State := s.clearLatches l (s.ownedMask k)

/-! ### Semaphores -/

/-- Owner of lock i (R371): 0 is FREE. -/
def State.lockOwner (s : State) (i : Nat) : Nat := s.fld .m (Reg.smLock i) 3 0

/-- A lock becomes FREE. -/
def State.freeLock (s : State) (i : Nat) : State :=
  { s.setFld .m (Reg.smLock i) 3 0 0 with lockTaken := s.lockTaken.filter fun x => x.lock != i }

/-- A held lock is released by the module or by force: counted in FORCED and logged (R374). -/
def State.forceLock (s : State) (i : Nat) (by' : Nat) : State :=
  ((s.freeLock i).bump .m Reg.smStat 15 8).logEv 6 none .smForced [i, by']

/-- Every lock of a master is released (R374). -/
def State.freeLocksOf (s : State) (owner : Nat) : State :=
  (List.range 64).foldl (fun t i => if t.lockOwner i = owner then t.forceLock i owner else t) s

/-! ### Management and data path views (R406 to R408) -/

/-- The pairs that agree: (IN_SERVICE, IN_SERVICE), (FAULT, OUT), (UNPOWERED, OUT). -/
def viewsAgree (v : UnitView) : Bool := (v.mg == 0 && !v.out) || (v.mg == 1 && v.out) || (v.mg == 2 && v.out)

def State.viewOf (s : State) (i : Nat) : UnitView := (s.views[i]?).getD ⟨0, false⟩

/-- A unit's pair of views changes; a change into a disagreement raises `MG_DISAGREE` (R408). -/
def State.setView (s : State) (i : Nat) (v : UnitView) : State :=
  let t := { s with views := s.views.set i v }
  if v = s.viewOf i ∨ viewsAgree v = true then t
  else
    let w := withField (withField (withField (withBit (t.reg .m Reg.mgDisagree) 31 true) 15 12 i) 11 10 v.mg) 9 8
      (bitNat v.out)
    (((t.setReg .m Reg.mgDisagree w).bump .m Reg.mgDisagree 7 0).raiseAll .m 218).logEv 6 none .mgDisagree
      [i, v.mg, bitNat v.out]

def State.setMgView (s : State) (i mg : Nat) : State := s.setView i { s.viewOf i with mg := mg }
def State.setPathOut (s : State) (i : Nat) : State := s.setView i { s.viewOf i with out := true }
def State.setPathIn (s : State) (i : Nat) : State := s.setView i { s.viewOf i with out := false }

/-- Unit numbers of R406. -/
def Die.viewIndex : Die → Nat
  | .p1 => 3
  | .p2 => 4
  | .f => 5
  | .m => 6

end Sys2Proof.Machine
end

