-- ==== Sys2Proof/Machine/ChanState.lean ====
section
/-! DEFINITION. The state of the DMA channels (R267, R268, R290) and what a halted, restarted or fenced strand or die
does to them (R128, R293). -/

namespace Sys2Proof.Machine

/-- Channel numbers of R267. -/
def isKtnTx (ch : Nat) : Bool := ch < 8
def isKtnRx (ch : Nat) : Bool := 8 ≤ ch && ch < 16
def isCanTx (ch : Nat) : Bool := ch == 16 || ch == 17
def isCanRx (ch : Nat) : Bool := ch == 18 || ch == 19
def isCopyCh (ch : Nat) : Bool := 20 ≤ ch && ch < 28

/-- STATE of `DM_STAT`. -/
inductive ChState where
  | off | idle | running | draining | halted | stalled
deriving DecidableEq, Repr

def ChState.code : ChState → Nat
  | .off => 0
  | .idle => 1
  | .running => 2
  | .draining => 3
  | .halted => 4
  | .stalled => 5

def ChState.ofCode (n : Nat) : ChState :=
  if n = 1 then .idle else if n = 2 then .running else if n = 3 then .draining else if n = 4 then .halted
  else if n = 5 then .stalled else .off

def emptyAct : Act := ⟨0, 0, [], [], [], 0, .desc, none, 0, 0, [], [], 0, 0, 0, 0, 0, 0, 0, 0, 256, none⟩

def emptyChan : Chan := ⟨[], 0, 16, false, []⟩

def State.chan (s : State) (p : PDie) (ch : Nat) : Chan := ((s.port p).chans[ch]?).getD emptyChan

def State.setChan (s : State) (p : PDie) (ch : Nat) (c : Chan) : State :=
  s.setPort p { s.port p with chans := (s.port p).chans.set ch c }

def State.chState (s : State) (p : PDie) (ch : Nat) : ChState := ChState.ofCode (s.fld p.unit (Reg.dmStat ch) 23 21)

def State.setChState (s : State) (p : PDie) (ch : Nat) (x : ChState) : State :=
  s.setFld p.unit (Reg.dmStat ch) 23 21 x.code

def State.chOwner (s : State) (p : PDie) (ch : Nat) : Strand := Strand.ofIdx (s.fld p.unit (Reg.dmOwn ch) 1 0)

def State.chHead (s : State) (p : PDie) (ch : Nat) : Nat := s.fld p.unit (Reg.dmIdx ch) 11 0
def State.chTail (s : State) (p : PDie) (ch : Nat) : Nat := s.fld p.unit (Reg.dmIdx ch) 27 16

/-- Fetch units of a channel are abandoned. -/
def State.dropFetches (s : State) (p : PDie) (ch : Nat) : State :=
  s.setPort p { s.port p with fetches := (s.port p).fetches.filter fun f => f.ch != ch }

/-- Fetch units whose data was not used yet are abandoned, but for those of one descriptor; the copies that a used unit still
awaits are read and compared all the same (R104, R108). -/
def State.dropUndecided (s : State) (p : PDie) (ch : Nat) (keep : Option Nat) : State :=
  s.setPort p { s.port p with fetches := (s.port p).fetches.filter fun f =>
    f.ch != ch || f.kept.isSome || some f.index == keep }

/-- Work in progress stops with no further write-back. -/
def State.stopChan (s : State) (p : PDie) (ch : Nat) : State :=
  (s.setChan p ch { s.chan p ch with acts := [], again := false, handed := [] }).dropFetches p ch

/-- A channel whose owner halts (R293): STATE HALTED, LAST unchanged; a channel that is OFF stays OFF. -/
def State.haltChan (s : State) (p : PDie) (ch : Nat) : State :=
  if s.chState p ch = .off then s
  else (s.stopChan p ch).setChState p ch .halted

/-- Write-backs of a strand that a die holds for replicas are given up. -/
def State.dropHeldWb (s : State) (p : PDie) (k : Strand) : State :=
  let keep := fun (ws : List HeldWrite) => ws.filter fun h => h.w.strand != k
  let h := (s.port p).heldWb
  s.setPort p { s.port p with heldWb := ⟨keep h.a, keep h.b, keep h.c⟩ }

/-- Every channel of a strand halts with it, with no further write-back (R128, R293). -/
def State.haltChansOf (s : State) (k : Strand) : State :=
  PDie.list.foldl (fun t p =>
    (List.range 28).foldl (fun t ch => if t.chOwner p ch = k then t.haltChan p ch else t) (t.dropHeldWb p k)) s

/-- A restarted strand's channels return to OFF with HEAD, TAIL and counters 0 (R293). -/
def State.resetChansOf (s : State) (k : Strand) : State :=
  PDie.list.foldl (fun t p =>
    (List.range 28).foldl (fun t ch =>
      if t.chOwner p ch = k then
        let t := (t.stopChan p ch).setChState p ch .off
        let t := (t.setReg p.unit (Reg.dmIdx ch) 0).setReg p.unit (Reg.dmCnt ch) 0
        let t := t.setFlag p.unit (Reg.dmCtl ch) 0 false
        t.setPort p { t.port p with fences := (t.port p).fences.filter fun f => !(f.1 == k && f.2.1 == ch) }
      else t) t) s

/-- A fenced or stopped die's channels stop at once (R37, R293). -/
def State.stopAllChans (s : State) (p : PDie) : State :=
  let t := (List.range 28).foldl (fun t ch => t.haltChan p ch) s
  let held := (t.port p).holdBuf.filter fun h => decide (28 ≤ h.w.unit.toNat)
  State.showHold (t.setPort p { t.port p with heldWb := Tri.all [], holdBuf := held }) p

/-! ### Status codes (R289) -/

def stOk : Nat := 0x00
def stZeroLen : Nat := 0x01
def stZeroCount : Nat := 0x02
def stSlotMissed : Nat := 0x03
def stRxTrunc : Nat := 0x04
def stBadDesc : Nat := 0x08
def stAddrFault : Nat := 0x09
def stNotOwned : Nat := 0x0A
def stNoResponse : Nat := 0x10
def stChainLimit : Nat := 0x11
def stPowerAbort : Nat := 0x12
def stEccFail : Nat := 0x13
def stVoteFail : Nat := 0x14

/-- A status that halts the channel. -/
def halting (st : Nat) : Bool := 8 ≤ st

/-! ### Acts of a channel -/

def State.setActs (s : State) (p : PDie) (ch : Nat) (acts : List Act) : State :=
  s.setChan p ch { s.chan p ch with acts := acts }

def State.mapAct (s : State) (p : PDie) (ch index : Nat) (f : Act → Act) : State :=
  s.setActs p ch ((s.chan p ch).acts.map fun a => if a.index = index then f a else a)

def State.actAt (s : State) (p : PDie) (ch index : Nat) : Option Act :=
  (s.chan p ch).acts.find? fun a => a.index == index

/-- An activation ends with a status; a halting one latches an address. -/
def endedAct (st addr : Nat) (a : Act) : Act := { a with stage := .done, fetch := none, status := st, errAddr := addr }

def State.endAct (s : State) (p : PDie) (ch index st addr : Nat) : State := s.mapAct p ch index (endedAct st addr)

/-- The oldest descriptor of a ring that has not ended; none while one before it has ended with a halt (R271, R290). -/
def firstOpen : List Act → Option Act
  | [] => none
  | a :: rest => if a.stage != .done then some a else if halting a.status then none else firstOpen rest

/-! ### Copies at the fetch comparator (R104 to R106, R285) -/

/-- The replicas whose copies a fetch unit compares. -/
def Fetch.parties (f : Fetch) : List Lane := Lane.list.filter fun l => !f.gone.contains l

/-- A lane's copy is awaited. -/
def Fetch.awaits (f : Fetch) (l : Lane) : Bool := !f.gone.contains l && !f.copies.any fun c => c.1 == l

/-- A read was sent to the lane and neither returned nor given up. -/
def Fetch.outAt (f : Fetch) (l : Lane) : Bool := f.asked.contains l && f.awaits l && !f.missing.contains l

def State.endFetch (s : State) (p : PDie) (id : Nat) : State :=
  s.setPort p { s.port p with fetches := (s.port p).fetches.filter fun g => g.id != id }

def State.putFetch (s : State) (p : PDie) (f : Fetch) : State :=
  s.setPort p { s.port p with fetches := (s.port p).fetches.map fun g => if g.id = f.id then f else g }

/-- Too many copies of a fetch unit are missing (R285). -/
def Fetch.hopeless (f : Fetch) : Bool :=
  f.kept.isNone && decide ((f.parties.filter fun l => !f.missing.contains l).length < 2)

/-- A fetch unit of which two copies cannot be held any more ends its descriptor with NO_RESPONSE (R285). -/
def State.failFetch (s : State) (p : PDie) (f : Fetch) : State :=
  let t := s.endFetch p f.id
  match t.actAt p f.ch f.index with
  | some a => if a.fetch = some f.id then t.endAct p f.ch f.index stNoResponse f.addr else t
  | none => t

def State.failHopeless (s : State) (p : PDie) (k : Strand) : State :=
  ((s.port p).fetches.filter fun f => f.strand == k && f.hopeless).foldl (fun t f => t.failFetch p f) s

/-- The read fence of a replica is open for a fetch unit (R105): its own doorbell that handed the descriptor over has arrived. -/
def State.fenceOpen (s : State) (p : PDie) (l : Lane) (f : Fetch) : Bool :=
  match f.need with
  | none => true
  | some o => (s.port p).fences.any fun x => x.1 == f.strand && x.2.1 == f.ch && x.2.2.1 == l && !serialLt x.2.2.2 o

/-- Reads of a die under way to a lane, each with its tag and response buffer (R319). -/
def State.readsOut (s : State) (p : PDie) (l : Lane) : Nat :=
  ((s.port p).fetches.filter fun f => f.outAt l).length

/-- Tags of each direction of a junction link (R319). -/
def linkTags : Nat := 256

/-- A fetch unit is read from one lane once its fence is open and a tag is free. A read that a quiesce keeps back is a missing
copy at once (R291); on a failed link the read is lost (R33). -/
def State.askCopy (s : State) (p : PDie) (id : Nat) (l : Lane) : State :=
  match (s.port p).fetches.find? fun f => f.id == id with
  | none => s
  | some f =>
    let d := Die.ofPDie p
    if !f.awaits l || f.asked.contains l || f.missing.contains l || !s.fenceOpen p l f then s
    else if s.quiesced p l then s.putFetch p { f with missing := f.missing ++ [l] }
    else if linkTags ≤ s.readsOut p l then s
    else
      let t := s.putFetch p { f with asked := f.asked ++ [l], askedAt := f.askedAt.set l s.ns }
      if (t.lane l).junction.get d then
        t.send [.fetchRead l p id ((t.jlink l d).landed + (t.vcQueue l d true .posted).length)]
      else t

/-- Every copy that can now be read is asked for, the oldest unit first. -/
def State.askCopies (s : State) (p : PDie) (k : Strand) : State :=
  let t := ((s.port p).fetches.filter fun f => f.strand == k).foldl
    (fun t f => Lane.list.foldl (fun t l => t.askCopy p f.id l) t) s
  t.failHopeless p k

/-- A comparator discards the copies of a replica that left the in-step set, awaits them no more and frees the records that
awaited only it (R101, R104, R106). -/
def State.dropCopies (s : State) (p : PDie) (k : Strand) (x : Lane) : State :=
  let fs := (s.port p).fetches.map fun f =>
    if f.strand = k then { f with copies := f.copies.filter (fun c => c.1 != x), gone := f.gone ++ [x] } else f
  let t := s.setPort p { s.port p with fetches := fs.filter fun f =>
    !(f.strand == k && f.kept.isSome && Lane.list.all fun l => !f.awaits l || f.missing.contains l) }
  t.failHopeless p k

/-! ### Write-backs (R108, R141) -/

/-- A write-back waits for the copies of its descriptor, and of the data it names, that are to be read from a lane. -/
def State.wbWaits (s : State) (p : PDie) (l : Lane) (h : HeldWrite) : Bool :=
  match h.wb with
  | none => false
  | some (index, last) => (s.port p).fetches.any fun f =>
    f.ch == h.w.unit.toNat && f.index == index && decide (f.id ≤ last) && f.awaits l

/-- A queued write that an earlier one of its channel that stays behind keeps back. -/
def behindUnit (kept : List HeldWrite) (h : HeldWrite) : Bool := kept.any fun g => g.w.unit == h.w.unit

/-- Splits a queue of held write-backs into those that stay and those that go, in order for each channel. -/
def State.splitWb (s : State) (p : PDie) (l : Lane) (q : List HeldWrite) : List HeldWrite × List HeldWrite :=
  q.foldl (fun acc h =>
    if s.wbWaits p l h || s.heldHere h.w || behindUnit acc.1 h then (acc.1 ++ [h], acc.2) else (acc.1, acc.2 ++ [h]))
    ([], [])

/-- Held write-backs of a lane that wait for nothing any more go out (R108). -/
def State.releaseWb (s : State) (p : PDie) (l : Lane) : State :=
  let r := s.splitWb p l ((s.port p).heldWb.get l)
  let t := s.setPort p { s.port p with heldWb := (s.port p).heldWb.set l (if s.retired l then [] else r.1) }
  if s.retired l then t else r.2.foldl (fun t h => t.broadcastTo h.w l) t

def State.releaseWbs (s : State) (p : PDie) : State := Lane.list.foldl (fun t l => t.releaseWb p l) s

/-- A write-back goes to every lane that is not retired, in the order of its channel; it waits for a replica whose copies were not
all read (R108), and for all during a hold (R141). -/
def State.sendWb (s : State) (p : PDie) (h : HeldWrite) : State :=
  if s.heldHere h.w then s.keepWrite p h
  else
    s.liveLanes.foldl (fun t l =>
      State.releaseWb (t.setPort p { t.port p with heldWb := (t.port p).heldWb.set l ((t.port p).heldWb.get l ++ [h]) }) p l) s

/-- A copy channel that stalled under a hold runs on (R293). -/
def State.unstall (s : State) (p : PDie) (k : Strand) : State :=
  (List.range 28).foldl (fun t ch =>
    if isCopyCh ch && t.chOwner p ch == k && t.chState p ch == .stalled then t.setChState p ch .running else t) s

/-- A running copy channel of a held strand stalls (R141, R293). -/
def State.stallCopies (s : State) (p : PDie) (k : Strand) : State :=
  (List.range 28).foldl (fun t ch =>
    if isCopyCh ch && t.chOwner p ch == k && t.chState p ch == .running then t.setChState p ch .stalled else t) s

end Sys2Proof.Machine
end

