-- ==== Sys2Proof/Machine/VoterBase.lean ====
section
/-! DEFINITION. The voter's decisions (R91, R92) and what a voter does on its own: excluding a replica, sending a
split notice, completing ordinals and returning read results. -/

namespace Sys2Proof.Machine

/-- The replicas whose beats a voter expects at an ordinal: its in-step set, a joined replica from its join ordinal
on (R143). -/
def State.expects (s : State) (d : Die) (k : Strand) (ord : Word) : List Lane :=
  (s.voterIn d k).filter fun l =>
    match (s.voter d k).join.get l with
    | some j => !serialLt ord j
    | none => true

/-- What the beats held for an ordinal say (R91, R92). `pair` and `whole` hold matching beats, the latter from every
replica expected. -/
inductive Verdict where
  | wait
  | pair (b : Beat)
  | whole (b : Beat)
  | differ
  | mismatch (l : Lane) (b : Beat)
  | odd (l : Lane) (b : Beat)
  | split
  | diverge
deriving DecidableEq, Repr

/-- The decision on the beats of one ordinal, given in order of arrival, when `n` replicas are expected. -/
def verdict (n : Nat) : List (Lane × Beat) → Verdict
  | [] => .wait
  | [_] => .wait
  | [(_, b1), (_, b2)] =>
    if b1 = b2 then (if n ≤ 2 then .whole b1 else .pair b1)
    else if n ≤ 2 then .diverge else .differ
  | (l1, b1) :: (l2, b2) :: (l3, b3) :: _ =>
    if b1 = b2 then (if b3 = b1 then .whole b1 else .mismatch l3 b1)
    else if b3 = b1 then .odd l2 b1
    else if b3 = b2 then .odd l1 b2
    else .split

/-- The record of an ordinal. -/
def ordOf (v : Voter) (ord : Word) : Option OrdRec := v.ords.find? fun o => o.ordinal == ord

def putOrd (v : Voter) (o : OrdRec) : Voter :=
  if v.ords.any fun x => x.ordinal == o.ordinal then
    { v with ords := v.ords.map fun x => if x.ordinal == o.ordinal then o else x }
  else { v with ords := v.ords ++ [o] }

/-- The verdict on an ordinal as the voter now stands. -/
def State.verdictAt (s : State) (d : Die) (k : Strand) (o : OrdRec) : Verdict :=
  let ex := s.expects d k o.ordinal
  verdict ex.length (o.beats.filter fun b => ex.contains b.1)

def State.voterHalted (s : State) (d : Die) (k : Strand) : Bool := s.fld d.unit (Reg.vtStat k.idx) 4 3 == 2

/-- MODE of `VT_STAT`: 0 three in step, 1 two, 2 halted, which lasts until the strand's restart (R102). -/
def State.showMode (s : State) (d : Die) (k : Strand) : State :=
  let n := (s.voterIn d k).length
  if s.voterHalted d k then s
  else s.setFld d.unit (Reg.vtStat k.idx) 4 3 (if n = 3 then 0 else if n = 2 then 1 else 2)

/-- An ordinal is complete when its beat was released or performed and every expected replica's beat was held. -/
def State.ordDone (s : State) (d : Die) (k : Strand) (o : OrdRec) : Bool :=
  o.chosen.isSome && (s.expects d k o.ordinal).all fun l => o.beats.any fun b => b.1 == l

/-- Complete ordinals free their sump entries (R96), and results kept for no one are freed (R98). -/
def State.voterClean (s : State) (d : Die) (k : Strand) : State :=
  let v := s.voter d k
  let ords := v.ords.filter fun o => !s.ordDone d k o
  let kept := v.kept.filter fun r => ords.any fun o => o.ordinal == r.ordinal
  (s.setVoter d k { v with ords := ords, kept := kept }).showSump d k

/-- Lanes that are not retired and that a die reaches over their junction links (R28). -/
def State.linkedLive (s : State) (d : Die) : List Lane := (s.linked d).filter fun l => !s.retired l

/-- Notices go to the Echo units of some lanes (R101, R102): all that are not retired, or those that a die reaches. -/
def State.sendExclusion (s : State) (ls : List Lane) (k : Strand) (x : Lane) (c : Cause) : State :=
  s.send (ls.map fun l => .exclusion l k x c)

def State.sendSplit (s : State) (ls : List Lane) (k : Strand) (c : Cause) : State :=
  s.send (ls.map fun l => .split l k c)

/-! ### Challenges (R121, R122) -/

/-- The vector of a voter's challenge answer (R177 to R179). -/
def chalVector : Die → Nat
  | .p1 => 92
  | .p2 => 156
  | .f => 203
  | .m => 213

/-- The lane that the test path finds odd among the challenge beats. -/
def chalOdd : Option Dword → Option Dword → Option Dword → Option Lane
  | some x, some y, some z =>
    if x = y ∧ y ≠ z then some .c else if x = z ∧ y ≠ x then some .b else if y = z ∧ x ≠ y then some .a else none
  | _, _, _ => none

/-- The beats show no difference, so that one would be released on the test path. -/
def chalRelease (xs : List Dword) : Bool := xs.all fun x => x == xs.headD 0

/-- Once the beat of every replica in the voter's in-step set is held, the voter answers with an occurrence that names the
lane it found odd and tells whether a beat was released (R122). A beat already held from a replica that has been excluded
since is compared with the others (log entry 127). -/
def State.chalDecide (s : State) (d : Die) (k : Strand) : State :=
  let c := (s.voter d k).challenge
  let held := Lane.list.filterMap fun l => c.get l
  if !(s.consumer d).running || held.isEmpty || !((s.voterIn d k).all fun l => (c.get l).isSome) || (s.voterIn d k).length < 2 then s
  else
    let o := s.nextOcc d k (chalVector d)
    let a : ChalAnswer := ⟨d, o, chalOdd c.a c.b c.c, chalRelease held⟩
    let t := (s.setVoter d k { s.voter d k with challenge := Tri.all none }).raise d k (chalVector d)
    (s.linked d).foldl (fun t l => t.setEcho l k { t.echo l k with answers := (t.echo l k).answers ++ [a] }) t

/-- A voter takes a replica out of its in-step set and discards its sump entries (R101); the port dies discard its copies and
deliver its held write-backs (R108), and F clears its lane's latches for the strand's outputs (R333). -/
def State.voterRemove (s : State) (d : Die) (k : Strand) (x : Lane) : State :=
  let t := s.setFlag d.unit (Reg.vtStat k.idx) x.idx false
  let v := t.voter d k
  let ords := (v.ords.map fun o => { o with beats := o.beats.filter fun b => b.1 != x }).filter fun o =>
    o.chosen.isSome || !o.beats.isEmpty
  let t := (t.setVoter d k { v with ords := ords, join := v.join.set x none }).showMode d k
  let t := t.chalDecide d k
  match d with
  | .p1 => (t.dropCopies .p1 k x).releaseWbs .p1
  | .p2 => (t.dropCopies .p2 k x).releaseWbs .p2
  | .f => t.clearStrandLatches x k
  | .m => t

/-- A voter or comparator stops the strand: everything held is discarded and nothing more is released (R102). -/
def State.voterStop (s : State) (d : Die) (k : Strand) : State :=
  let v := s.voter d k
  ((s.setVoter d k { v with ords := [], kept := [] }).setFld d.unit (Reg.vtStat k.idx) 4 3 2).showSump d k

/-- A split decided by a die. -/
def State.voterSplit (s : State) (d : Die) (k : Strand) (c : Cause) (ord : Word) : State :=
  ((s.setVCause d k c none ord).voterStop d k).sendSplit (s.linkedLive d) k c

/-- A fetch unit whose only two copies left differ (R104). -/
def State.fetchDiverges (s : State) (p : PDie) (k : Strand) : Bool :=
  (s.port p).fetches.any fun f =>
    f.strand == k && f.kept.isNone && decide (f.parties.length ≤ 2) &&
      match f.copies with
      | (_, x) :: (_, y) :: _ => x != y
      | _ => false

def Die.port : Die → Option PDie
  | .p1 => some .p1
  | .p2 => some .p2
  | _ => none

/-- With two replicas left, any ordinal or fetch unit whose two copies differ splits the strand (R92, R104). -/
def State.voterResettle (s : State) (d : Die) (k : Strand) : State :=
  if (match Die.port d with | some p => s.fetchDiverges p k | none => false) then
    s.voterSplit d k .diverge2oo2 (s.voter d k).next
  else match (s.voter d k).ords.find? fun o => o.chosen.isNone && s.verdictAt d k o == .diverge with
  | some o => s.voterSplit d k .diverge2oo2 o.ordinal
  | none =>
    let v := s.voter d k
    let ords := v.ords.map fun o =>
      if (s.expects d k o.ordinal).length ≤ 2 then { o with timer := none } else o
    (s.setVoter d k { v with ords := ords }).voterClean d k

/-- `SKEW_LIMIT` at a consumer die: that of the lowest-lettered in-step lane (log entry 142). -/
def State.dieSkewNs (s : State) (d : Die) (k : Strand) : Nat := s.skewLimitNs ((s.voterIn d k).headD .a) k

/-- A notice of an exclusion reaches a voter: only the first acts, later ones are counted (R101). -/
def State.voterNotice (s : State) (d : Die) (k : Strand) (x : Lane) : State :=
  if (s.voterIn d k).contains x then (s.voterRemove d k x).voterResettle d k
  else s.setVoter d k { s.voter d k with notices := (s.voter d k).notices + 1 }

/-- A decision of a die to exclude a replica: cause, counters, notices, and the voter's own set. -/
def State.voterExclude (s : State) (d : Die) (k : Strand) (x : Lane) (c : Cause) (ord : Word) : State :=
  let t := s.setVCause d k c (some x) ord
  let t := match c with
    | .mismatch => t.bump d.unit (Reg.vtCnt k.idx) 31 24
    | .odd => t.bump d.unit (Reg.vtCnt k.idx) 31 24
    | .late => t.bump d.unit (Reg.vtCnt k.idx) 23 16
    | .fetchOdd => t.bump d.unit (Reg.vtCnt k.idx) 7 0
    | _ => t
  ((t.sendExclusion (t.linkedLive d) k x c).voterRemove d k x).voterResettle d k

/-! ### Read results -/

/-- The bytes of a finished load, from the doublewords its parts returned. -/
def loadBytes (a size : Nat) (parts : List ReadPart) : List Byte :=
  let base := a / 8 * 8
  slice (parts.flatMap fun p => leBytes 8 (p.got.getD 0).toNat) (a - base) size

/-- A core retires one instruction: its counter increases by one (R44). -/
def State.retire (s : State) (l : Lane) (k : Strand) : State :=
  s.setReg64 l.unit (Reg.lnIcountLo k) (s.reg64 l.unit (Reg.lnIcountLo k) + 1)

/-- A load ends: its bytes are the value loaded, and the instruction retires. -/
def State.finishLoad (s : State) (l : Lane) (k : Strand) (bs : List Byte) : State :=
  (s.setReplica l k { s.replica l k with load := none, last := bs }).retire l k

/-- The result of a read request reaches the requesting lane (R98). A stopped core retires nothing (R159). -/
def State.deliverRead (s : State) (l : Lane) (k : Strand) (d : Die) (ord : Word) (data : Dword) : State :=
  match (s.replica l k).load with
  | none => s
  | some p =>
    let parts := p.parts.map fun q => if q.die = d ∧ q.ordinal = ord ∧ q.got = none then { q with got := some data } else q
    if (s.replica l k).mode = .stopped then s
    else if parts.all fun q => q.got.isSome then s.finishLoad l k (loadBytes p.addr p.size parts)
    else s.setReplica l k { s.replica l k with load := some { p with parts := parts } }

end Sys2Proof.Machine
end

