-- ==== Sys2Proof/Machine/EchoBase.lean ====
section
/-! DEFINITION. Parts of the Echo unit that several steps share: latching occurrences and replica state changes
(R53, R126), applying a change to `LN_REPL`, the budget (R147), crawlway errors (R31), strand-queue credits (R74)
and the release of a strand. -/

namespace Sys2Proof.Machine

/-! ### Latching -/

/-- A lane latches an occurrence (R53). -/
def State.latch (s : State) (l : Lane) (k : Strand) (o : Occ) : State :=
  let e := s.echo l k
  s.setEcho l k { e with latched := e.latched ++ [⟨o, none, false⟩] }

/-- The change of `x` by `ev` that other lanes latched and lane `l` has not. -/
def State.openChange (s : State) (l : Lane) (k : Strand) (x : Lane) (ev : ReplEvent) : Option Change :=
  (s.changes.get k).find? fun c => c.repl == x && c.event == ev && !c.seen.contains l

/-- The number of the next Echo occurrence of a strand (R52): derived from the point that lane `l` agrees on next, 8 numbers to a
point, and past those already used there (log entry 7). -/
def State.echoNext (s : State) (l : Lane) (k : Strand) : Half :=
  let base := BitVec.ofNat 16 (8 * ((s.echo l k).nextAgree.toNat % 8192))
  if (s.echoNum.get k - base).toNat < 256 then s.echoNum.get k else base

/-- Lane `l` latches a replica state change as an Echo occurrence: one number for one change in every lane
(R52, R126). -/
def State.latchChange (s : State) (l : Lane) (k : Strand) (x : Lane) (ev : ReplEvent) : State :=
  match s.openChange l k x ev with
  | some c =>
    let t := { s with changes := s.changes.set k ((s.changes.get k).map fun (c' : Change) =>
      if c'.num = c.num then { c' with seen := l :: c'.seen } else c') }
    t.latch l k ⟨0, 1, c.num⟩
  | none =>
    let n := s.echoNext l k
    let t := { s with
      changes := s.changes.set k (s.changes.get k ++ [(⟨n, x, ev, [l], []⟩ : Change)])
      echoNum := s.echoNum.set k (n + 1) }
    t.latch l k ⟨0, 1, n⟩

/-- Every lane that is not retired latches a change. -/
def State.latchChangeAll (s : State) (k : Strand) (x : Lane) (ev : ReplEvent) : State :=
  s.liveLanes.foldl (fun t l => t.latchChange l k x ev) s

/-! ### Replica states (R126) -/

/-- 24 hours of strand time in ns. -/
def dayNs : Nat := 86400000000000

/-- `REJOIN_BUDGET`: 0 is treated as 1 (R154). -/
def State.rejoinBudget (s : State) (l : Lane) : Nat := max 1 (s.fld l.unit Reg.rjCfg 27 24)

/-- The budget of a replica is reached (R147): the most recent `REJOIN_BUDGET` recorded rejoins lie within 24 h. -/
def State.budgetReached (s : State) (l : Lane) (k : Strand) (x : Lane) (now : Dword) : Bool :=
  let h := (s.echo l k).rejoins.get x
  decide (s.rejoinBudget l ≤ h.length) &&
    (h.take (s.rejoinBudget l)).all fun t => decide (now.toNat - t.toNat ≤ dayNs)

/-- The next state of the table of R126; an event that the table does not list leaves the state. -/
def nextReplState (st : Nat) (ev : ReplEvent) (budget : Bool) : Nat :=
  match ev with
  | .excluded => if st = 0 then (if budget then 4 else 1) else st
  | .debug => if st = 0 then 3 else st
  | .rejoinStart => if st = 1 ∨ st = 3 then 2 else st
  | .joined => if st = 2 then 0 else st
  | .abandoned => if st = 2 then 1 else st
  | .retired => 4

/-- A lane and the lanes that apply nothing of their own for the strand, since their replicas are not in step: their
registers show what it applies (log entry 125). -/
def State.showIn (s : State) (l : Lane) (k : Strand) : List Lane :=
  l :: Lane.list.filter fun x => x != l && !(s.echo l k).inStep.get x

/-- `RJ_DBG` shows the replica of a strand in DEBUG, 3 for none (R154). -/
def State.showDebug (s : State) (l : Lane) (k : Strand) : State :=
  let code := match Lane.list.find? fun x => s.replState l k x == 3 with
    | some x => x.idx
    | none => 3
  (s.showIn l k).foldl (fun t x => t.setFld x.unit Reg.rjDbg (2 * k.idx + 1) (2 * k.idx) code) s

/-- A change has been latched in every lane that is not retired and applied in each that applies changes: nothing refers to it any
more. -/
def State.changeDone (s : State) (k : Strand) (c : Change) : Bool :=
  s.liveLanes.all fun l => c.seen.contains l && (c.applied.contains l || !(s.echo l k).inStep.get l)

/-- Changes that are done with are forgotten. -/
def State.pruneChanges (s : State) (k : Strand) : State :=
  { s with changes := s.changes.set k ((s.changes.get k).filter fun c => !s.changeDone k c) }

/-- A lane applies a replica state change: `LN_REPL` changes, and the vectors REPL_STATE and, for a rejoin's start,
join or abandonment, REJOIN are raised (R176). -/
def State.applyChange (s : State) (l : Lane) (k : Strand) (c : Change) (now : Dword) : State :=
  let st := s.replState l k c.repl
  let st' := nextReplState st c.event (s.budgetReached l k c.repl now)
  let t := { s with changes := s.changes.set k ((s.changes.get k).map fun (c' : Change) =>
    if c'.num = c.num then { c' with applied := l :: c'.applied } else c') }
  let t := t.pruneChanges k
  let t := (s.showIn l k).foldl (fun t x =>
    t.setFld x.unit (Reg.lnRepl k) (3 * c.repl.idx + 2) (3 * c.repl.idx) st') t
  let t := t.showDebug l k
  let t := if st' = 1 ∧ st ≠ 1 then
    t.setEcho l k { t.echo l k with asideAt := (t.echo l k).asideAt.set c.repl (some t.ns) } else t
  let t := if st' = st then t else t.setPending l k 1
  match c.event with
  | .rejoinStart => t.setPending l k 2
  | .joined => t.setPending l k 2
  | .abandoned => t.setPending l k 2
  | _ => t

/-- At a halt no step 3 follows, so a lane applies the changes it has latched and not applied (log entry 10). -/
def State.applyChangesAtHalt (s : State) (l : Lane) (k : Strand) : State :=
  ((s.changes.get k).filter fun c => c.seen.contains l && !c.applied.contains l).foldl
    (fun t c => t.applyChange l k c (t.echo l k).stime) s

/-- A core stops: it retires nothing and accesses nothing, and keeps its state (R159). -/
def State.stopCore (s : State) (l : Lane) (k : Strand) : State :=
  s.setReplica l k { s.replica l k with mode := .stopped }

/-! ### Crawlway links (R31) -/

/-- Index of a link in `EC_LINK`: 0 LA–LB, 1 LB–LC, 2 LA–LC. -/
def linkIndex : Lane → Lane → Nat
  | .a, .b => 0
  | .b, .a => 0
  | .b, .c => 1
  | .c, .b => 1
  | _, _ => 2

/-- The higher-lettered lane of a pair (R32). -/
def higherLane (x y : Lane) : Lane := if x.idx < y.idx then y else x

/-! ### Strand queues -/

/-- Credits of strand k for destination d (R74): 16 minus the messages sent and not known as popped. -/
def creditsFor (e : Echo) (d : Strand) : Nat := 16 - (e.sent.get d - e.credPop.get d).toNat

/-- `LN_SQ_CRED` shows the credits; the strand's own field reads 0. -/
def State.showCredits (s : State) (l : Lane) (k : Strand) : State :=
  Strand.list.foldl (fun t d => t.setFld l.unit (Reg.lnSqCred k) (8 * d.idx + 7) (8 * d.idx)
    (if d = k then 0 else creditsFor (s.echo l k) d)) s

/-- `LN_SQ_RXCNT` shows the visible messages (R72). -/
def State.showVisible (s : State) (l : Lane) (k : Strand) : State :=
  Strand.list.foldl (fun t d => t.setFld l.unit (Reg.lnSqRxcnt k) (8 * d.idx + 7) (8 * d.idx)
    (if d = k then 0 else ((s.echo l k).visible.get d - (s.echo l k).popped.get d).toNat)) s

/-- When a strand halts, every message queued to it counts as popped (R75). -/
def State.popAll (s : State) (l : Lane) (k : Strand) : State :=
  let e := s.echo l k
  s.setEcho l k { e with inQ := Quad.all [], popped := e.inCount, agreedPop := e.inCount, inAgreed := e.inCount,
                         visible := e.inCount }

/-- Strand time as the replica sees it at a point: what step 3 of the point makes visible, the time agreed two points
before. That time decides what is due at a boundary (log entry 11). -/
def State.strandTime (s : State) (l : Lane) (k : Strand) : Dword := s.reg64 l.unit (Reg.lnStimeLo k)

/-! ### Timing commits (R79 to R81) -/

/-- A staged timing setting lies in its range. -/
def tcfgOk (w : Word) : Bool :=
  let skew := fieldOf w 29 20
  let len := fieldOf w 17 5
  let log := fieldOf w 4 0
  decide (2 ≤ skew) && decide (skew ≤ 1000) && decide (1 ≤ len) && decide (len ≤ 4096) && decide (8 ≤ log) && decide (log ≤ 16)

/-- The lanes that take part: those of replicas IN_STEP (of replicas eligible under R130 while the strand is halted). -/
def State.tcfgLanes (s : State) (k : Strand) : List Lane :=
  s.liveLanes.filter fun l => (s.echo s.viewLane k).inStep.get l

/-- RESULT and BUSY in every lane that is not retired. -/
def State.showTcfg (s : State) (k : Strand) (busy : Bool) (res : Option Nat) : State :=
  s.liveLanes.foldl (fun t l =>
    let t := t.setFlag l.unit (Reg.lnTcfgCommit k.idx) 1 busy
    match res with
    | some r => t.setFld l.unit (Reg.lnTcfgCommit k.idx) 15 8 r
    | none => t) s

/-- A refusal in every lane. -/
def State.refuseTcfg (s : State) (k : Strand) (res : Nat) : State :=
  ({ s with tcfg := s.tcfg.set k none }).showTcfg k false (some res)

/-- The staged values of the lanes that have requested a commit and take part in it. -/
def State.tcfgVals (s : State) (k : Strand) (c : TcfgCommit) : List Word :=
  (c.go.filter fun g => (s.tcfgLanes k).contains g.1).map Prod.snd

/-- The first of ENCODING and LANE_DIFF that applies to staged values (R79). -/
def tcfgCode (vals : List Word) : Option Nat :=
  if vals.any fun w => !tcfgOk w then some 1
  else if vals.any fun w => w != vals.headD 0 then some 2 else none

/-- The requests of the lanes that take part come first. -/
def partFirst (part : List Lane) (go : List (Lane × Word)) : List (Lane × Word) :=
  (go.filter fun g => part.contains g.1) ++ go.filter fun g => !part.contains g.1

/-- The value that the lanes of an armed commit compared. A lane that takes no part in the comparison, because its replica joins
later or is not in step, takes this value too (log entry 126). -/
def TcfgCommit.value (c : TcfgCommit) : Word := (c.go.head?.map Prod.snd).getD 0

/-- The commit is in force in every lane that takes part: it ends with RESULT 0, and the lanes that take no part show the
value too (R80). -/
def State.tcfgFinish (s : State) (k : Strand) (c : TcfgCommit) (at' : Option Word) : State :=
  let t := (s.liveLanes.filter fun x => !c.took.contains x).foldl (fun t x =>
    (t.setReg x.unit (Reg.lnTcfg k) c.value).setEcho x k { t.echo x k with tcfgFrom := none, tcfgTook := at' }) s
  ({ t with tcfg := t.tcfg.set k none }).showTcfg k false (some 0)

/-- Every lane that takes part has requested the commit: it is armed, or refused by its staged values; and once armed it ends
when it is in force in each of them. A lane whose replica has left since takes no part. -/
def State.tcfgSettle (s : State) (k : Strand) : State :=
  match s.tcfg.get k with
  | none => s
  | some c =>
    if c.armed then
      if !c.took.isEmpty && !s.halted k && (s.tcfgLanes k).all fun x => c.took.contains x then
        s.tcfgFinish k c c.tookAt
      else s
    else if (s.tcfgLanes k).all fun x => c.go.any fun g => g.1 == x then
      match tcfgCode (s.tcfgVals k c) with
      | some r => s.refuseTcfg k r
      | none => { s with tcfg := s.tcfg.set k (some { c with armed := true, go := partFirst (s.tcfgLanes k) c.go }) }
    else s

/-- A commit is armed, and not yet in force in a lane: the lane's publications carry ARMED (R80). -/
def State.tcfgArmed (s : State) (l : Lane) (k : Strand) : Option Word :=
  match s.tcfg.get k with
  | some c => if c.armed && !c.took.contains l then some c.value else none
  | none => none

end Sys2Proof.Machine
end

