-- ==== Sys2Proof/Machine/Exclude.lean ====
section
/-! DEFINITION. Exclusion, halt, lane retirement (R101, R102, R128, R129, R148) and the end of a rejoin (R145). -/

namespace Sys2Proof.Machine

/-! ### The end of a rejoin -/

/-- A die releases its hold: the held writes go out in order (R143, R145). -/
def State.releaseHold (s : State) (p : PDie) : State :=
  let buf := (s.port p).holdBuf
  let t := s.setPort p { s.port p with hold := none, holdBuf := [] }
  let t := match (s.port p).hold with
    | some k => t.unstall p k
    | none => t
  State.releaseWbs (buf.foldl (fun t h => if h.wb.isSome then t.sendWb p h else t.broadcastNow h.w) (t.showHold p)) p

def State.releaseHolds (s : State) : State := (s.releaseHold .p1).releaseHold .p2

/-- Duration of the stall so far, in µs. -/
def State.stallUs (s : State) (r : RejoinRun) : Nat :=
  match r.stallFrom with
  | some t => (s.ns - t) / 1000
  | none => 0

/-- The stall's duration shows in `RJ_STALL` of every lane (R144). -/
def State.recordStall (s : State) (r : RejoinRun) : State :=
  match r.stallFrom with
  | none => s
  | some _ =>
    let us := s.stallUs r
    Lane.list.foldl (fun t l => (t.setFld l.unit (Reg.rjStall r.strand.idx) 15 0 (min us 0xFFFF)).raiseMax
      l.unit (Reg.rjStall r.strand.idx) 31 16 us) s

/-- Replicas paused at the stall boundary resume at step 2 of E (R143). -/
def State.resumePaused (s : State) (k : Strand) : State :=
  Lane.list.foldl (fun t l =>
    let e := t.echo l k
    let t := t.setEcho l k { e with stallAt := none }
    let r := t.replica l k
    if r.phase = .paused then
      t.setReplica l k { r with phase := .published, waitSince := t.ns }
    else t) s

/-- RESULT of `RJ_STAT[k]` in every lane. -/
def State.setRjResult (s : State) (k : Strand) (res : Nat) : State := s.setLaneFld (Reg.rjStat k.idx) 31 24 res
def State.setRjPhase (s : State) (k : Strand) (ph : Nat) : State := s.setLaneFld (Reg.rjStat k.idx) 10 8 ph

/-- Consecutive abandoned rejoins of a replica (ABN of `RJ_HIST`). -/
def State.abn (s : State) (l : Lane) (k : Strand) (x : Lane) : Nat :=
  s.fld l.unit (Reg.rjHist k.idx) (17 + 2 * x.idx) (16 + 2 * x.idx)

/-- The running rejoin is abandoned with a RESULT (R145): holds are released, a paused pair resumes, the target
becomes SET_ASIDE and its ABN count grows. -/
def State.abandonRejoin (s : State) (res : Nat) : State :=
  match s.rejoin with
  | none => s
  | some r =>
    let t := (s.recordStall r).setReg r.donor.unit (Reg.rjDirty r.strand.idx) 0
    let t := { t with rejoin := none }
    let t := ((t.setRjResult r.strand res).setRjPhase r.strand 0).setLaneFld (Reg.rjHist r.strand.idx)
      (17 + 2 * r.target.idx) (16 + 2 * r.target.idx) (min 3 (t.abn r.donor r.strand r.target + 1))
    (t.releaseHolds.resumePaused r.strand).latchChangeAll r.strand r.target .abandoned

/-- Abandons the running rejoin when it is one of a strand. -/
def State.abandonRejoinOf (s : State) (k : Strand) (res : Nat) : State :=
  match s.rejoin with
  | some r => if r.strand = k then s.abandonRejoin res else s
  | none => s

/-! ### Retirement notices -/

/-- The unit that detects a lane's retirement sends the lane-retire notice (R148). -/
def State.sendRetire (s : State) (x : Lane) (c : LaneFault) : State :=
  if s.retired x then s else s.send [.retireNotice x c]

/-- A lane two of whose replicas are RETIRED is retired (R148). -/
def State.checkRetired (s : State) (l : Lane) : State :=
  Lane.list.foldl (fun t x =>
    if 2 ≤ (Strand.list.filter fun k => t.replState l k x == 4).length then t.sendRetire x .replicas else t) s

/-! ### Halt -/

/-- What the dies do once when a strand halts (R128, R129): voters release nothing more, its locks are freed, its
DMA channels halt and the other strands learn of it. -/
def State.haltDevices (s : State) (k : Strand) : State :=
  let t := s.dies.foldl (fun t d => t.voterStop d k) s
  let t := (t.freeLocksOf (2 + k.idx)).haltChansOf k
  let t := (Strand.list.filter fun j => j != k).foldl (fun t j => t.raise .m j 214) t
  t.disturb

/-- One lane's Echo unit halts a strand (R102, R129): a rejoin of the strand is abandoned (R145), its core stops, its queued messages count as popped (R75), its
lane drives OFF for the strand's outputs (R333), and it logs `STRAND_HALT`. -/
def State.haltAt (s : State) (l : Lane) (k : Strand) (c : Cause) (repl : Option Lane) : State :=
  if s.haltedAt l k || s.retired l then s
  else
    let first := !s.liveLanes.any fun x => s.haltedAt x k
    let t := if first then s.abandonRejoinOf k 0x23 else s
    let t := (t.applyChangesAtHalt l k).checkRetired l
    let t := t.setEcho l k { t.echo l k with halted := true, splitWait := none, stallAt := none }
    let t := t.popAll l k
    let r := t.replica l k
    let t := t.setReplica l k { r with
      mode := if r.mode = .debugHalted then .debugHalted else .stopped
      load := none, out := [], sqOpen := [], sqEnding := [] }
    let t := t.clearStrandLatches l k
    let t := t.logEv l.idx (some k) .strandHalt [Cause.code c, replCode repl, (t.reg64 l.unit (Reg.lnPointLo k)).toNat]
    let t := if c = .starved then t.setFlag l.unit (Reg.ecStat k.idx) 2 true else t
    if first then t.haltDevices k else t

/-- The same, for a halt that the Echo unit itself decides: `VT_LCAUSE` records it (R124). -/
def State.haltOwn (s : State) (l : Lane) (k : Strand) (c : Cause) (repl : Option Lane) : State :=
  if s.haltedAt l k || s.retired l then s else (s.setLCause l k c repl).haltAt l k c repl

/-! ### Exclusion -/

/-- A replica of the lane is excluded from a strand that was released: the data path holds the lane OUT (R406; log entry 165). -/
def State.laneOut (s : State) (x : Lane) : Bool :=
  s.retired x || Strand.list.any fun k => s.released.get k && !(s.replica x k).debug &&
    s.liveLanes.any fun l => !(s.echo l k).inStep.get x

/-- The data path view of a lane follows its replicas (R406). -/
def State.showLaneView (s : State) (x : Lane) : State := s.setView x.idx { s.viewOf x.idx with out := s.laneOut x }

/-- The core of an excluded replica stops, and its lane sends none of its device accesses any more (R127). -/
def State.dropBeats (s : State) (l : Lane) (k : Strand) : State :=
  s.setReplica l k { s.replica l k with mode := .stopped, out := [] }

/-- An Echo unit's first notice of an exclusion (R101): it forwards the notice over its junction links to the strand's
voters, stops the replica's core in its own lane and latches the replica state change; the data path holds the lane OUT (R406);
with fewer than two left the strand halts. -/
def State.excludeAt (s : State) (l : Lane) (k : Strand) (x : Lane) (c : Cause) : State :=
  let e := s.echo l k
  if e.halted || s.retired l || !e.inStep.get x then s
  else
    let t := (s.dies.filter fun d => (s.lane l).junction.get d).foldl (fun t d => t.voterNotice d k x) s
    let t := if l = x then (t.dropBeats l k).clearStrandLatches l k else t
    let t := t.latchChange l k x .excluded
    let t := (t.setEcho l k { t.echo l k with inStep := (t.echo l k).inStep.set x false }).showLaneView x
    let t : State := match t.rejoin with
      | some r => if r.strand = k ∧ r.target ≠ x then t.abandonRejoin 0x23 else t
      | none => t
    if (t.inStepAt l k).length < 2 then t.haltOwn l k c (some x) else t.tcfgSettle k

/-- An Echo unit or scrub engine decides an exclusion: it records the cause and sends notices to every lane. -/
def State.echoExcludes (s : State) (l : Lane) (k : Strand) (x : Lane) (c : Cause) : State :=
  ((s.setLCause l k c (some x)).sendExclusion s.liveLanes k x c).excludeAt l k x c

/-- An Echo unit or scrub engine decides a split: it records the cause, sends split notices and halts. -/
def State.echoSplits (s : State) (l : Lane) (k : Strand) (c : Cause) : State :=
  (s.sendSplit s.liveLanes k c).haltOwn l k c none

/-! ### Lane retirement -/

/-- CAUSE codes of `RJ_LANE` (R172). -/
def LaneFault.code : LaneFault → Nat
  | .none => 0
  | .replicas => 1
  | .dramUe => 2
  | .power => 3
  | .refclk => 4
  | .crawlway => 5
  | .laneUe => 6

/-- One lane's Echo unit on the retirement of lane x for one strand. -/
def State.retireAt (s : State) (l : Lane) (k : Strand) (x : Lane) : State :=
  let was := (s.echo l k).inStep.get x
  let t := s.latchChange l k x .retired
  let t := t.setEcho l k { t.echo l k with inStep := (t.echo l k).inStep.set x false }
  if t.haltedAt l k then ((t.applyChangesAtHalt l k).checkRetired l).tcfgSettle k
  else if was && !t.haltedAt l k && decide ((t.inStepAt l k).length < 2) then t.haltOwn l k .laneRetired (some x)
  else t.tcfgSettle k

/-- A lane-retire notice (R148). -/
def State.retireLane (s : State) (x : Lane) (c : LaneFault) : State :=
  if s.retired x then s
  else
    let t : State := match s.rejoin with
      | some r => if r.target = x ∨ r.donor = x then s.abandonRejoin 0x13 else s
      | none => s
    let t := t.setLaneFld Reg.rjLane (6 + 4 * x.idx) (4 + 4 * x.idx) (LaneFault.code c)
    let t := Lane.list.foldl (fun t l => t.setFlag l.unit Reg.rjLane x.idx true) t
    let t := Strand.list.foldl (fun t k =>
      let t := t.setReplica x k { t.replica x k with mode := .stopped, load := none, out := [] }
      t.dies.foldl (fun t d => t.voterNotice d k x) t) t
    let t := (t.clearLatches x 0xFFFF)
    let t := Strand.list.foldl (fun t k => t.liveLanes.foldl (fun t l => t.retireAt l k x) t) t
    (t.logEv 6 none .laneRetired [x.idx, LaneFault.code c]).setPathOut x.idx

end Sys2Proof.Machine
end

