-- ==== Sys2Proof/Machine/RegTable.lean ====
section
/-! DEFINITION. The register table: for every register its space, place, dimensions, fields with their access
codes (R12), release policy (R94) and writer. -/

namespace Sys2Proof.Machine

/-- Access codes (R12); `rsv` is a reserved field (R14). -/
inductive Acc where
  | rw | ro | w1c | w1s | wo | rc | stg | rsv
deriving DecidableEq, Repr

/-- The register spaces; `consumer` stands at the same offset in the window of every consumer die. -/
inductive Space where
  | strandPage | laneCommon | port | field | mgmt | consumer
deriving DecidableEq, Repr

/-- Who may write a register, as the chapter of its block says. -/
inductive Writer where
  | strandPage | mgmt | mgmtBeforeStrand | mgmtBeforeFirst | strands | anyStrand | anyMaster | trigger | capture
  | dma | ownStrand | can | lease | mailbox | nobody
deriving DecidableEq, Repr

structure RegField where
  hi : Nat
  lo : Nat
  acc : Acc
deriving DecidableEq, Repr

/-- A register or register array: `dims` gives, outermost first, each index's count and stride. -/
structure RegDesc where
  id : RegId
  space : Space
  off : Nat
  dims : List (Nat × Nat)
  fields : List RegField
  writer : Writer
deriving DecidableEq, Repr

/-- MG_ registers of the space `mgmt`. -/
def regRows0 : List RegDesc :=
  [ ⟨.mgCaps, .mgmt, 0x0, [],
     [⟨31, 24, .ro⟩, ⟨23, 16, .ro⟩, ⟨15, 12, .rsv⟩, ⟨11, 8, .ro⟩, ⟨7, 7, .rsv⟩, ⟨6, 6, .ro⟩, ⟨5, 5, .ro⟩, ⟨4, 4, .ro⟩, ⟨3, 3, .ro⟩, ⟨2, 0, .ro⟩], .mgmt⟩ ]

/-- LN_ registers of the space `strandPage`. -/
def regRows1 : List RegDesc :=
  [ ⟨.lnIcountLo, .strandPage, 0x0, [],
     [⟨31, 0, .ro⟩], .strandPage⟩,
    ⟨.lnIcountHi, .strandPage, 0x4, [],
     [⟨31, 0, .ro⟩], .strandPage⟩,
    ⟨.lnPointLo, .strandPage, 0x8, [],
     [⟨31, 0, .ro⟩], .strandPage⟩,
    ⟨.lnPointHi, .strandPage, 0xc, [],
     [⟨31, 0, .ro⟩], .strandPage⟩,
    ⟨.lnEpochLo, .strandPage, 0x10, [],
     [⟨31, 0, .ro⟩], .strandPage⟩,
    ⟨.lnEpochHi, .strandPage, 0x14, [],
     [⟨31, 0, .ro⟩], .strandPage⟩,
    ⟨.lnStimeLo, .strandPage, 0x18, [],
     [⟨31, 0, .ro⟩], .strandPage⟩,
    ⟨.lnStimeHi, .strandPage, 0x1c, [],
     [⟨31, 0, .ro⟩], .strandPage⟩,
    ⟨.lnStimeStat, .strandPage, 0x20, [],
     [⟨31, 5, .rsv⟩, ⟨4, 4, .ro⟩, ⟨3, 3, .ro⟩, ⟨2, 2, .ro⟩, ⟨1, 0, .ro⟩], .strandPage⟩,
    ⟨.lnTcfg, .strandPage, 0x24, [],
     [⟨31, 31, .ro⟩, ⟨30, 30, .rsv⟩, ⟨29, 20, .ro⟩, ⟨19, 18, .rsv⟩, ⟨17, 5, .ro⟩, ⟨4, 0, .ro⟩], .strandPage⟩,
    ⟨.lnRepl, .strandPage, 0x28, [],
     [⟨31, 9, .rsv⟩, ⟨8, 6, .ro⟩, ⟨5, 3, .ro⟩, ⟨2, 0, .ro⟩], .strandPage⟩,
    ⟨.lnFinSeq, .strandPage, 0x40, [],
     [⟨31, 17, .rsv⟩, ⟨16, 16, .ro⟩, ⟨15, 0, .ro⟩], .strandPage⟩,
    ⟨.lnFinDi, .strandPage, 0x44, [],
     [⟨31, 0, .ro⟩], .strandPage⟩,
    ⟨.lnFinDqLo, .strandPage, 0x48, [],
     [⟨31, 0, .ro⟩], .strandPage⟩,
    ⟨.lnFinDqHi, .strandPage, 0x4c, [],
     [⟨31, 0, .ro⟩], .strandPage⟩,
    ⟨.lnFinAi, .strandPage, 0x50, [(8, 4)],
     [⟨31, 18, .rsv⟩, ⟨17, 16, .ro⟩, ⟨15, 0, .ro⟩], .strandPage⟩ ]

/-- LN_ registers of the space `strandPage`. -/
def regRows2 : List RegDesc :=
  [ ⟨.lnSqTxbuf, .strandPage, 0x100, [(16, 4)],
     [⟨31, 0, .rw⟩], .strandPage⟩,
    ⟨.lnSqSend, .strandPage, 0x140, [],
     [⟨31, 9, .rsv⟩, ⟨8, 4, .wo⟩, ⟨3, 2, .rsv⟩, ⟨1, 0, .wo⟩], .strandPage⟩,
    ⟨.lnSqCred, .strandPage, 0x144, [],
     [⟨31, 24, .ro⟩, ⟨23, 16, .ro⟩, ⟨15, 8, .ro⟩, ⟨7, 0, .ro⟩], .strandPage⟩,
    ⟨.lnSqDrop, .strandPage, 0x148, [],
     [⟨31, 16, .rsv⟩, ⟨15, 8, .rc⟩, ⟨7, 0, .rc⟩], .strandPage⟩,
    ⟨.lnSqRxsel, .strandPage, 0x14c, [],
     [⟨31, 2, .rsv⟩, ⟨1, 0, .rw⟩], .strandPage⟩,
    ⟨.lnSqRxcnt, .strandPage, 0x150, [],
     [⟨31, 24, .ro⟩, ⟨23, 16, .ro⟩, ⟨15, 8, .ro⟩, ⟨7, 0, .ro⟩], .strandPage⟩,
    ⟨.lnSqRxhdr, .strandPage, 0x154, [],
     [⟨31, 16, .ro⟩, ⟨15, 13, .rsv⟩, ⟨12, 12, .ro⟩, ⟨11, 9, .rsv⟩, ⟨8, 4, .ro⟩, ⟨3, 2, .rsv⟩, ⟨1, 0, .ro⟩], .strandPage⟩,
    ⟨.lnSqRxpop, .strandPage, 0x158, [],
     [⟨31, 1, .rsv⟩, ⟨0, 0, .wo⟩], .strandPage⟩,
    ⟨.lnSqRxbuf, .strandPage, 0x180, [(16, 4)],
     [⟨31, 0, .ro⟩], .strandPage⟩ ]

/-- LN_ registers of the space `laneCommon`. -/
def regRows3 : List RegDesc :=
  [ ⟨.lnTcfgStg, .laneCommon, 0x80100, [(4, 16)],
     [⟨31, 31, .stg⟩, ⟨30, 30, .rsv⟩, ⟨29, 20, .stg⟩, ⟨19, 18, .rsv⟩, ⟨17, 5, .stg⟩, ⟨4, 0, .stg⟩], .mgmt⟩,
    ⟨.lnTcfgCommit, .laneCommon, 0x80104, [(4, 16)],
     [⟨31, 16, .rsv⟩, ⟨15, 8, .ro⟩, ⟨7, 2, .rsv⟩, ⟨1, 1, .ro⟩, ⟨0, 0, .w1s⟩], .mgmt⟩ ]

/-- EC_ registers of the space `laneCommon`. -/
def regRows4 : List RegDesc :=
  [ ⟨.ecPairs, .laneCommon, 0x81000, [(4, 64)],
     [⟨31, 30, .rsv⟩, ⟨29, 20, .rc⟩, ⟨19, 10, .rc⟩, ⟨9, 0, .rc⟩], .mgmt⟩,
    ⟨.ecLeadMax, .laneCommon, 0x81004, [(4, 64)],
     [⟨31, 0, .rc⟩], .mgmt⟩,
    ⟨.ecSkewMax, .laneCommon, 0x81008, [(4, 64)],
     [⟨31, 0, .rc⟩], .mgmt⟩,
    ⟨.ecXchgMax, .laneCommon, 0x8100c, [(4, 64)],
     [⟨31, 0, .rc⟩], .mgmt⟩,
    ⟨.ecFaults, .laneCommon, 0x81010, [(4, 64)],
     [⟨31, 24, .rsv⟩, ⟨23, 16, .rc⟩, ⟨15, 8, .rc⟩, ⟨7, 0, .rc⟩], .mgmt⟩,
    ⟨.ecStat, .laneCommon, 0x81014, [(4, 64)],
     [⟨31, 3, .rsv⟩, ⟨2, 2, .ro⟩, ⟨1, 0, .ro⟩], .mgmt⟩,
    ⟨.ecLink, .laneCommon, 0x81100, [(3, 4)],
     [⟨31, 25, .rsv⟩, ⟨24, 24, .ro⟩, ⟨23, 16, .rc⟩, ⟨15, 0, .rc⟩], .mgmt⟩ ]

/-- VT_ registers of the space `laneCommon`. -/
def regRows5 : List RegDesc :=
  [ ⟨.vtChkCfg, .laneCommon, 0x82000, [(4, 32)],
     [⟨31, 30, .rsv⟩, ⟨29, 16, .rw⟩, ⟨15, 12, .rsv⟩, ⟨11, 0, .rw⟩], .mgmtBeforeStrand⟩,
    ⟨.vtScrub, .laneCommon, 0x82004, [(4, 32)],
     [⟨31, 16, .ro⟩, ⟨15, 8, .rc⟩, ⟨7, 0, .rc⟩], .mgmt⟩,
    ⟨.vtSigcmp, .laneCommon, 0x82008, [(4, 32)],
     [⟨31, 16, .rsv⟩, ⟨15, 8, .rc⟩, ⟨7, 0, .rc⟩], .mgmt⟩,
    ⟨.vtLcause, .laneCommon, 0x8200c, [(4, 32)],
     [⟨31, 12, .rsv⟩, ⟨11, 8, .ro⟩, ⟨7, 6, .rsv⟩, ⟨5, 4, .ro⟩, ⟨3, 1, .rsv⟩, ⟨0, 0, .ro⟩], .mgmt⟩ ]

/-- VT_ registers of the space `consumer`. -/
def regRows6 : List RegDesc :=
  [ ⟨.vtStat, .consumer, 0xf000000, [(4, 64)],
     [⟨31, 10, .rsv⟩, ⟨9, 9, .ro⟩, ⟨8, 8, .ro⟩, ⟨7, 5, .ro⟩, ⟨4, 3, .ro⟩, ⟨2, 0, .ro⟩], .mgmt⟩,
    ⟨.vtCause, .consumer, 0xf000004, [(4, 64)],
     [⟨31, 12, .rsv⟩, ⟨11, 8, .ro⟩, ⟨7, 6, .rsv⟩, ⟨5, 4, .ro⟩, ⟨3, 1, .rsv⟩, ⟨0, 0, .ro⟩], .mgmt⟩,
    ⟨.vtOrd, .consumer, 0xf000008, [(4, 64)],
     [⟨31, 0, .ro⟩], .mgmt⟩,
    ⟨.vtCnt, .consumer, 0xf00000c, [(4, 64)],
     [⟨31, 24, .rc⟩, ⟨23, 16, .rc⟩, ⟨15, 8, .rc⟩, ⟨7, 0, .rc⟩], .mgmt⟩,
    ⟨.vtSumpHwm, .consumer, 0xf000010, [(4, 64)],
     [⟨31, 30, .rsv⟩, ⟨29, 20, .rc⟩, ⟨19, 10, .rc⟩, ⟨9, 0, .rc⟩], .mgmt⟩,
    ⟨.vtRob, .consumer, 0xf000014, [(4, 64)],
     [⟨31, 23, .rsv⟩, ⟨22, 16, .rc⟩, ⟨15, 7, .rsv⟩, ⟨6, 0, .ro⟩], .mgmt⟩,
    ⟨.vtChal, .consumer, 0xf000018, [(4, 64)],
     [⟨31, 16, .ro⟩, ⟨15, 8, .rc⟩, ⟨7, 6, .rsv⟩, ⟨5, 4, .ro⟩, ⟨3, 2, .rsv⟩, ⟨1, 0, .ro⟩], .mgmt⟩,
    ⟨.vtFence, .consumer, 0xf000100, [],
     [⟨31, 8, .rsv⟩, ⟨7, 4, .ro⟩, ⟨3, 1, .rsv⟩, ⟨0, 0, .ro⟩], .mgmt⟩ ]

/-- RJ_ registers of the space `laneCommon`. -/
def regRows7 : List RegDesc :=
  [ ⟨.rjCfg, .laneCommon, 0x83000, [],
     [⟨31, 28, .rsv⟩, ⟨27, 24, .rw⟩, ⟨23, 22, .rsv⟩, ⟨21, 21, .rw⟩, ⟨20, 20, .rw⟩, ⟨19, 16, .rw⟩, ⟨15, 13, .rsv⟩, ⟨12, 0, .rw⟩], .mgmtBeforeFirst⟩,
    ⟨.rjCmd, .laneCommon, 0x83004, [],
     [⟨31, 8, .rsv⟩, ⟨7, 6, .wo⟩, ⟨5, 4, .wo⟩, ⟨3, 0, .wo⟩], .mgmt⟩,
    ⟨.rjStat, .laneCommon, 0x83010, [(4, 16)],
     [⟨31, 24, .ro⟩, ⟨23, 20, .ro⟩, ⟨19, 18, .rsv⟩, ⟨17, 16, .ro⟩, ⟨15, 14, .rsv⟩, ⟨13, 12, .ro⟩, ⟨11, 11, .ro⟩, ⟨10, 8, .ro⟩, ⟨7, 0, .rsv⟩], .mgmt⟩,
    ⟨.rjDirty, .laneCommon, 0x83014, [(4, 16)],
     [⟨31, 18, .rsv⟩, ⟨17, 0, .ro⟩], .mgmt⟩,
    ⟨.rjStall, .laneCommon, 0x83018, [(4, 16)],
     [⟨31, 16, .rc⟩, ⟨15, 0, .ro⟩], .mgmt⟩,
    ⟨.rjHist, .laneCommon, 0x8301c, [(4, 16)],
     [⟨31, 22, .rsv⟩, ⟨21, 20, .ro⟩, ⟨19, 18, .ro⟩, ⟨17, 16, .ro⟩, ⟨15, 12, .rsv⟩, ⟨11, 8, .ro⟩, ⟨7, 4, .ro⟩, ⟨3, 0, .ro⟩], .mgmt⟩,
    ⟨.rjLane, .laneCommon, 0x83100, [],
     [⟨31, 15, .rsv⟩, ⟨14, 12, .ro⟩, ⟨11, 11, .rsv⟩, ⟨10, 8, .ro⟩, ⟨7, 7, .rsv⟩, ⟨6, 4, .ro⟩, ⟨3, 3, .rsv⟩, ⟨2, 0, .ro⟩], .mgmt⟩,
    ⟨.rjDbg, .laneCommon, 0x83104, [],
     [⟨31, 10, .rsv⟩, ⟨9, 9, .w1s⟩, ⟨8, 8, .ro⟩, ⟨7, 0, .ro⟩], .mgmt⟩ ]

/-- LN_ registers of the space `strandPage`. -/
def regRows8 : List RegDesc :=
  [ ⟨.lnEvPend, .strandPage, 0x400, [(8, 4)],
     [⟨31, 0, .w1c⟩], .strandPage⟩,
    ⟨.lnEvEn, .strandPage, 0x420, [(8, 4)],
     [⟨31, 0, .rw⟩], .strandPage⟩,
    ⟨.lnEvSwset, .strandPage, 0x440, [],
     [⟨31, 8, .rsv⟩, ⟨7, 0, .wo⟩], .strandPage⟩,
    ⟨.lnEvCur, .strandPage, 0x444, [],
     [⟨31, 9, .rsv⟩, ⟨8, 8, .ro⟩, ⟨7, 0, .ro⟩], .strandPage⟩,
    ⟨.lnTmrCmpLo, .strandPage, 0x480, [(4, 8)],
     [⟨31, 0, .rw⟩], .strandPage⟩,
    ⟨.lnTmrCmpHi, .strandPage, 0x484, [(4, 8)],
     [⟨31, 0, .rw⟩], .strandPage⟩,
    ⟨.lnTmrPer, .strandPage, 0x4a0, [(4, 4)],
     [⟨31, 0, .rw⟩], .strandPage⟩,
    ⟨.lnTmrCtl, .strandPage, 0x4b0, [],
     [⟨31, 4, .rsv⟩, ⟨3, 0, .rw⟩], .strandPage⟩,
    ⟨.lnTmrMiss, .strandPage, 0x4b4, [],
     [⟨31, 24, .rc⟩, ⟨23, 16, .rc⟩, ⟨15, 8, .rc⟩, ⟨7, 0, .rc⟩], .strandPage⟩ ]

/-- LN_ registers of the space `laneCommon`. -/
def regRows9 : List RegDesc :=
  [ ⟨.lnEccCnt, .laneCommon, 0x84000, [],
     [⟨31, 24, .rc⟩, ⟨23, 16, .rc⟩, ⟨15, 8, .rc⟩, ⟨7, 0, .rc⟩], .mgmt⟩,
    ⟨.lnEccAddrLo, .laneCommon, 0x84008, [],
     [⟨31, 0, .ro⟩], .mgmt⟩,
    ⟨.lnEccAddrHi, .laneCommon, 0x8400c, [],
     [⟨31, 29, .ro⟩, ⟨28, 28, .ro⟩, ⟨27, 26, .ro⟩, ⟨25, 8, .rsv⟩, ⟨7, 0, .ro⟩], .mgmt⟩,
    ⟨.lnPatrol, .laneCommon, 0x84010, [],
     [⟨31, 16, .ro⟩, ⟨15, 0, .ro⟩], .mgmt⟩,
    ⟨.lnLfault, .laneCommon, 0x84014, [],
     [⟨31, 11, .rsv⟩, ⟨10, 8, .ro⟩, ⟨7, 3, .rsv⟩, ⟨2, 0, .ro⟩], .mgmt⟩ ]

/-- TT_ registers of the space `port`. -/
def regRows10 : List RegDesc :=
  [ ⟨.ttCfg, .port, 0x1000000, [],
     [⟨31, 16, .ro⟩, ⟨15, 8, .ro⟩, ⟨7, 7, .ro⟩, ⟨6, 5, .rsv⟩, ⟨4, 4, .ro⟩, ⟨3, 3, .ro⟩, ⟨2, 2, .ro⟩, ⟨1, 0, .rsv⟩], .mgmt⟩,
    ⟨.ttCfgStg, .port, 0x1000004, [],
     [⟨31, 16, .stg⟩, ⟨15, 8, .stg⟩, ⟨7, 7, .stg⟩, ⟨6, 5, .rsv⟩, ⟨4, 4, .stg⟩, ⟨3, 3, .stg⟩, ⟨2, 2, .stg⟩, ⟨1, 0, .rsv⟩], .mgmt⟩,
    ⟨.ttTimeCfg, .port, 0x1000008, [],
     [⟨31, 21, .ro⟩, ⟨20, 18, .ro⟩, ⟨17, 10, .ro⟩, ⟨9, 7, .ro⟩, ⟨6, 3, .ro⟩, ⟨2, 0, .rsv⟩], .mgmt⟩,
    ⟨.ttTimeCfgStg, .port, 0x100000c, [],
     [⟨31, 21, .stg⟩, ⟨20, 18, .stg⟩, ⟨17, 10, .stg⟩, ⟨9, 7, .stg⟩, ⟨6, 3, .stg⟩, ⟨2, 0, .rsv⟩], .mgmt⟩,
    ⟨.ttSynclist, .port, 0x1000010, [(2, 4)],
     [⟨31, 24, .ro⟩, ⟨23, 16, .ro⟩, ⟨15, 8, .ro⟩, ⟨7, 0, .ro⟩], .mgmt⟩,
    ⟨.ttSynclistStg, .port, 0x1000018, [(2, 4)],
     [⟨31, 24, .stg⟩, ⟨23, 16, .stg⟩, ⟨15, 8, .stg⟩, ⟨7, 0, .stg⟩], .mgmt⟩,
    ⟨.ttCslist, .port, 0x1000020, [(2, 4)],
     [⟨31, 24, .ro⟩, ⟨23, 16, .ro⟩, ⟨15, 8, .ro⟩, ⟨7, 0, .ro⟩], .mgmt⟩,
    ⟨.ttCslistStg, .port, 0x1000028, [(2, 4)],
     [⟨31, 24, .stg⟩, ⟨23, 16, .stg⟩, ⟨15, 8, .stg⟩, ⟨7, 0, .stg⟩], .mgmt⟩,
    ⟨.ttAuth, .port, 0x1000030, [(2, 4)],
     [⟨31, 24, .ro⟩, ⟨23, 16, .ro⟩, ⟨15, 8, .ro⟩, ⟨7, 0, .ro⟩], .mgmt⟩,
    ⟨.ttAuthStg, .port, 0x1000038, [(2, 4)],
     [⟨31, 24, .stg⟩, ⟨23, 16, .stg⟩, ⟨15, 8, .stg⟩, ⟨7, 0, .stg⟩], .mgmt⟩,
    ⟨.ttCommit, .port, 0x1000040, [],
     [⟨31, 16, .rsv⟩, ⟨15, 8, .ro⟩, ⟨7, 2, .rsv⟩, ⟨1, 1, .ro⟩, ⟨0, 0, .w1s⟩], .mgmt⟩,
    ⟨.ttTblCrc, .port, 0x1000044, [],
     [⟨31, 0, .ro⟩], .mgmt⟩,
    ⟨.ttTblCrcStg, .port, 0x1000048, [],
     [⟨31, 0, .ro⟩], .mgmt⟩,
    ⟨.ttGdCrc, .port, 0x100004c, [],
     [⟨31, 0, .ro⟩], .mgmt⟩,
    ⟨.ttState, .port, 0x1000080, [],
     [⟨31, 29, .ro⟩, ⟨28, 26, .ro⟩, ⟨25, 24, .rsv⟩, ⟨23, 16, .ro⟩, ⟨15, 8, .ro⟩, ⟨7, 4, .ro⟩, ⟨3, 0, .rsv⟩], .mgmt⟩,
    ⟨.ttCycle, .port, 0x1000084, [],
     [⟨31, 16, .rsv⟩, ⟨15, 0, .ro⟩], .mgmt⟩ ]

/-- TT_ registers of the space `port`. -/
def regRows11 : List RegDesc :=
  [ ⟨.ttStatusWord, .port, 0x1000088, [],
     [⟨31, 16, .rsv⟩, ⟨15, 0, .ro⟩], .mgmt⟩,
    ⟨.ttInaug, .port, 0x100008c, [],
     [⟨31, 31, .ro⟩, ⟨30, 30, .ro⟩, ⟨29, 29, .ro⟩, ⟨28, 28, .rsv⟩, ⟨27, 20, .ro⟩, ⟨19, 12, .ro⟩, ⟨11, 9, .ro⟩, ⟨8, 8, .ro⟩, ⟨7, 0, .ro⟩], .mgmt⟩,
    ⟨.ttModeReq, .port, 0x1000090, [],
     [⟨31, 4, .rsv⟩, ⟨3, 3, .wo⟩, ⟨2, 0, .wo⟩], .strands⟩,
    ⟨.ttModeStat, .port, 0x1000094, [],
     [⟨31, 24, .ro⟩, ⟨23, 21, .ro⟩, ⟨20, 20, .ro⟩, ⟨19, 16, .rsv⟩, ⟨15, 0, .ro⟩], .mgmt⟩,
    ⟨.ttErr0, .port, 0x10000a0, [],
     [⟨31, 24, .rc⟩, ⟨23, 16, .rc⟩, ⟨15, 8, .rc⟩, ⟨7, 0, .rc⟩], .mgmt⟩,
    ⟨.ttErr1, .port, 0x10000a4, [],
     [⟨31, 24, .rc⟩, ⟨23, 16, .rc⟩, ⟨15, 8, .rc⟩, ⟨7, 0, .rc⟩], .mgmt⟩,
    ⟨.ttErr2, .port, 0x10000a8, [],
     [⟨31, 16, .rsv⟩, ⟨15, 8, .rc⟩, ⟨7, 0, .rc⟩], .mgmt⟩,
    ⟨.ttModeCyc, .port, 0x1001000, [(8, 16)],
     [⟨31, 31, .ro⟩, ⟨30, 27, .rsv⟩, ⟨26, 16, .ro⟩, ⟨15, 0, .ro⟩], .mgmt⟩,
    ⟨.ttModeCycStg, .port, 0x1001004, [(8, 16)],
     [⟨31, 31, .stg⟩, ⟨30, 27, .rsv⟩, ⟨26, 16, .stg⟩, ⟨15, 0, .stg⟩], .mgmt⟩,
    ⟨.ttModeSel, .port, 0x1001008, [(8, 16)],
     [⟨31, 31, .ro⟩, ⟨30, 24, .rsv⟩, ⟨23, 16, .ro⟩, ⟨15, 8, .ro⟩, ⟨7, 0, .rsv⟩], .mgmt⟩,
    ⟨.ttModeSelStg, .port, 0x100100c, [(8, 16)],
     [⟨31, 31, .stg⟩, ⟨30, 24, .rsv⟩, ⟨23, 16, .stg⟩, ⟨15, 8, .stg⟩, ⟨7, 0, .rsv⟩], .mgmt⟩ ]

/-- TB_ registers of the space `port`. -/
def regRows12 : List RegDesc :=
  [ ⟨.tbTimeLo, .port, 0x2000000, [],
     [⟨31, 0, .ro⟩], .mgmt⟩,
    ⟨.tbTimeHi, .port, 0x2000004, [],
     [⟨31, 0, .ro⟩], .mgmt⟩,
    ⟨.tbStat, .port, 0x2000008, [],
     [⟨31, 24, .ro⟩, ⟨23, 20, .ro⟩, ⟨19, 18, .ro⟩, ⟨17, 16, .rsv⟩, ⟨15, 0, .ro⟩], .mgmt⟩,
    ⟨.tbRate, .port, 0x200000c, [],
     [⟨31, 0, .ro⟩], .mgmt⟩,
    ⟨.tbMid, .port, 0x2000010, [],
     [⟨31, 28, .ro⟩, ⟨27, 16, .rsv⟩, ⟨15, 0, .ro⟩], .mgmt⟩,
    ⟨.tbCfg, .port, 0x2000014, [],
     [⟨31, 16, .rw⟩, ⟨15, 11, .rsv⟩, ⟨10, 0, .rw⟩], .mgmt⟩,
    ⟨.tbPath, .port, 0x2000018, [],
     [⟨31, 24, .ro⟩, ⟨23, 23, .ro⟩, ⟨22, 16, .ro⟩, ⟨15, 0, .ro⟩], .mgmt⟩,
    ⟨.tbWin, .port, 0x200001c, [],
     [⟨31, 24, .rc⟩, ⟨23, 16, .rc⟩, ⟨15, 8, .rc⟩, ⟨7, 0, .rc⟩], .mgmt⟩,
    ⟨.tbAsym, .port, 0x2000020, [(2, 4)],
     [⟨31, 16, .rsv⟩, ⟨15, 0, .rw⟩], .mgmt⟩,
    ⟨.tbLink, .port, 0x2000028, [(2, 4)],
     [⟨31, 30, .ro⟩, ⟨29, 24, .rsv⟩, ⟨23, 16, .rc⟩, ⟨15, 0, .ro⟩], .mgmt⟩,
    ⟨.tbNbr, .port, 0x2000030, [(2, 4)],
     [⟨31, 0, .ro⟩], .mgmt⟩,
    ⟨.tbSync, .port, 0x2000040, [(8, 4)],
     [⟨31, 31, .ro⟩, ⟨30, 30, .ro⟩, ⟨29, 29, .ro⟩, ⟨28, 22, .ro⟩, ⟨21, 16, .rsv⟩, ⟨15, 0, .ro⟩], .mgmt⟩,
    ⟨.tbTrigCmpLo, .port, 0x2001000, [(16, 16)],
     [⟨31, 0, .rw⟩], .trigger⟩,
    ⟨.tbTrigCmpHi, .port, 0x2001004, [(16, 16)],
     [⟨31, 0, .rw⟩], .trigger⟩,
    ⟨.tbTrigPer, .port, 0x2001008, [(16, 16)],
     [⟨31, 0, .rw⟩], .trigger⟩,
    ⟨.tbTrigCtl, .port, 0x200100c, [(16, 16)],
     [⟨31, 31, .rw⟩, ⟨30, 28, .rsv⟩, ⟨27, 26, .rw⟩, ⟨25, 25, .rw⟩, ⟨24, 24, .rsv⟩, ⟨23, 22, .rw⟩, ⟨21, 8, .rsv⟩, ⟨7, 0, .rc⟩], .trigger⟩ ]

/-- TB_ registers of the space `port`. -/
def regRows13 : List RegDesc :=
  [ ⟨.tbCapLo, .port, 0x2002000, [(8, 16)],
     [⟨31, 0, .ro⟩], .capture⟩,
    ⟨.tbCapHi, .port, 0x2002004, [(8, 16)],
     [⟨31, 0, .ro⟩], .capture⟩,
    ⟨.tbCapCtl, .port, 0x2002008, [(8, 16)],
     [⟨31, 31, .rw⟩, ⟨30, 29, .rw⟩, ⟨28, 24, .rsv⟩, ⟨23, 22, .rw⟩, ⟨21, 6, .rsv⟩, ⟨5, 0, .rw⟩], .capture⟩,
    ⟨.tbCapStat, .port, 0x200200c, [(8, 16)],
     [⟨31, 2, .rsv⟩, ⟨1, 1, .rc⟩, ⟨0, 0, .rc⟩], .capture⟩ ]

/-- PD_ registers of the space `port`. -/
def regRows14 : List RegDesc :=
  [ ⟨.pdTsqPop, .port, 0x1000, [(2, 16)],
     [⟨31, 31, .ro⟩, ⟨30, 26, .ro⟩, ⟨25, 17, .rsv⟩, ⟨16, 16, .ro⟩, ⟨15, 15, .rsv⟩, ⟨14, 12, .ro⟩, ⟨11, 0, .ro⟩], .anyMaster⟩,
    ⟨.pdTsqTimeLo, .port, 0x1004, [(2, 16)],
     [⟨31, 0, .ro⟩], .anyMaster⟩,
    ⟨.pdTsqTimeHi, .port, 0x1008, [(2, 16)],
     [⟨31, 0, .ro⟩], .anyMaster⟩,
    ⟨.pdTsqOvf, .port, 0x100c, [(2, 16)],
     [⟨31, 8, .rsv⟩, ⟨7, 0, .rc⟩], .anyMaster⟩,
    ⟨.pdTsqOwn, .port, 0x1040, [],
     [⟨31, 10, .rsv⟩, ⟨9, 8, .rw⟩, ⟨7, 2, .rsv⟩, ⟨1, 0, .rw⟩], .mgmtBeforeFirst⟩ ]

/-- GD_ registers of the space `port`. -/
def regRows15 : List RegDesc :=
  [ ⟨.gdStat, .port, 0x3000000, [],
     [⟨31, 29, .ro⟩, ⟨28, 24, .rsv⟩, ⟨23, 16, .ro⟩, ⟨15, 8, .ro⟩, ⟨7, 4, .rsv⟩, ⟨3, 0, .ro⟩], .mgmt⟩,
    ⟨.gdViol, .port, 0x3000004, [],
     [⟨31, 24, .rc⟩, ⟨23, 16, .rc⟩, ⟨15, 8, .rc⟩, ⟨7, 2, .rsv⟩, ⟨1, 0, .ro⟩], .mgmt⟩,
    ⟨.gdCtl, .port, 0x3000008, [],
     [⟨31, 1, .rsv⟩, ⟨0, 0, .w1s⟩], .mgmt⟩,
    ⟨.gdFence, .port, 0x300000c, [],
     [⟨31, 3, .rsv⟩, ⟨2, 0, .ro⟩], .mgmt⟩,
    ⟨.gdLimits, .port, 0x3000010, [],
     [⟨31, 16, .ro⟩, ⟨15, 0, .rsv⟩], .mgmt⟩,
    ⟨.gdLimitsStg, .port, 0x3000014, [],
     [⟨31, 16, .stg⟩, ⟨15, 0, .rsv⟩], .mgmt⟩ ]

/-- DM_ registers of the space `port`. -/
def regRows16 : List RegDesc :=
  [ ⟨.dmBaseLo, .port, 0x4000000, [(28, 64)],
     [⟨31, 12, .rw⟩, ⟨11, 0, .rsv⟩], .dma⟩,
    ⟨.dmBaseHi, .port, 0x4000004, [(28, 64)],
     [⟨31, 8, .rsv⟩, ⟨7, 0, .rw⟩], .dma⟩,
    ⟨.dmRcfg, .port, 0x4000008, [(28, 64)],
     [⟨31, 4, .rsv⟩, ⟨3, 0, .rw⟩], .dma⟩,
    ⟨.dmCtl, .port, 0x400000c, [(28, 64)],
     [⟨31, 2, .rsv⟩, ⟨1, 1, .w1s⟩, ⟨0, 0, .rw⟩], .dma⟩,
    ⟨.dmDb, .port, 0x4000010, [(28, 64)],
     [⟨31, 12, .rsv⟩, ⟨11, 0, .wo⟩], .dma⟩,
    ⟨.dmStat, .port, 0x4000014, [(28, 64)],
     [⟨31, 24, .ro⟩, ⟨23, 21, .ro⟩, ⟨20, 20, .ro⟩, ⟨19, 0, .rsv⟩], .dma⟩,
    ⟨.dmIdx, .port, 0x4000018, [(28, 64)],
     [⟨31, 28, .rsv⟩, ⟨27, 16, .ro⟩, ⟨15, 12, .rsv⟩, ⟨11, 0, .ro⟩], .dma⟩,
    ⟨.dmErrLo, .port, 0x400001c, [(28, 64)],
     [⟨31, 0, .ro⟩], .dma⟩,
    ⟨.dmErrHi, .port, 0x4000020, [(28, 64)],
     [⟨31, 28, .rsv⟩, ⟨27, 16, .ro⟩, ⟨15, 8, .rsv⟩, ⟨7, 0, .ro⟩], .dma⟩,
    ⟨.dmCnt, .port, 0x4000024, [(28, 64)],
     [⟨31, 24, .rc⟩, ⟨23, 16, .rc⟩, ⟨15, 0, .ro⟩], .dma⟩,
    ⟨.dmOwn, .port, 0x4000028, [(28, 64)],
     [⟨31, 2, .rsv⟩, ⟨1, 0, .rw⟩], .mgmt⟩,
    ⟨.dmCfg, .port, 0x4001000, [],
     [⟨31, 13, .rsv⟩, ⟨12, 0, .rw⟩], .mgmt⟩,
    ⟨.dmQuiesce, .port, 0x4001004, [],
     [⟨31, 13, .rsv⟩, ⟨12, 12, .w1s⟩, ⟨11, 11, .ro⟩, ⟨10, 10, .ro⟩, ⟨9, 9, .w1s⟩, ⟨8, 3, .rsv⟩, ⟨2, 0, .rw⟩], .mgmt⟩,
    ⟨.dmHold, .port, 0x4001008, [],
     [⟨31, 25, .rsv⟩, ⟨24, 16, .rc⟩, ⟨15, 9, .rsv⟩, ⟨8, 0, .ro⟩], .mgmt⟩ ]

/-- GW_ registers of the space `port`. -/
def regRows17 : List RegDesc :=
  [ ⟨.gwCommit, .port, 0x6000000, [],
     [⟨31, 16, .rsv⟩, ⟨15, 8, .ro⟩, ⟨7, 2, .rsv⟩, ⟨1, 1, .ro⟩, ⟨0, 0, .w1s⟩], .mgmt⟩,
    ⟨.gwStat, .port, 0x6000004, [],
     [⟨31, 24, .rc⟩, ⟨23, 16, .rc⟩, ⟨15, 4, .rsv⟩, ⟨3, 2, .ro⟩, ⟨1, 0, .ro⟩], .mgmt⟩,
    ⟨.gwCnt, .port, 0x6000010, [(2, 4)],
     [⟨31, 24, .rc⟩, ⟨23, 16, .rc⟩, ⟨15, 8, .rc⟩, ⟨7, 0, .rc⟩], .mgmt⟩,
    ⟨.gwRrCfg, .port, 0x6000020, [],
     [⟨31, 16, .rw⟩, ⟨15, 0, .rw⟩], .mgmt⟩,
    ⟨.gwSwPub, .port, 0x6000030, [],
     [⟨31, 11, .rsv⟩, ⟨10, 0, .wo⟩], .anyStrand⟩,
    ⟨.gwStale, .port, 0x6030000, [(128, 4)],
     [⟨31, 0, .ro⟩], .mgmt⟩,
    ⟨.gwObj, .port, 0x6031000, [(256, 4)],
     [⟨31, 31, .ro⟩, ⟨30, 20, .ro⟩, ⟨19, 9, .ro⟩, ⟨8, 0, .ro⟩], .mgmt⟩,
    ⟨.gwObjStg, .port, 0x6031400, [(256, 4)],
     [⟨31, 31, .stg⟩, ⟨30, 20, .stg⟩, ⟨19, 9, .stg⟩, ⟨8, 0, .stg⟩], .mgmt⟩ ]

/-- FD_ registers of the space `field`. -/
def regRows18 : List RegDesc :=
  [ ⟨.fdStat, .field, 0x1000000, [],
     [⟨31, 27, .rsv⟩, ⟨26, 24, .ro⟩, ⟨23, 22, .rsv⟩, ⟨21, 20, .ro⟩, ⟨19, 15, .rsv⟩, ⟨14, 12, .ro⟩, ⟨11, 11, .rsv⟩, ⟨10, 8, .ro⟩, ⟨7, 1, .rsv⟩, ⟨0, 0, .ro⟩], .mgmt⟩,
    ⟨.fdCommit, .field, 0x1000004, [],
     [⟨31, 16, .rsv⟩, ⟨15, 8, .ro⟩, ⟨7, 2, .rsv⟩, ⟨1, 1, .ro⟩, ⟨0, 0, .w1s⟩], .mgmt⟩,
    ⟨.fdTrigSel, .field, 0x1000008, [],
     [⟨31, 16, .rsv⟩, ⟨15, 8, .rw⟩, ⟨7, 6, .rsv⟩, ⟨5, 4, .rw⟩, ⟨3, 2, .rw⟩, ⟨1, 0, .rw⟩], .mgmt⟩,
    ⟨.fdDiType, .field, 0x1000010, [],
     [⟨31, 4, .rsv⟩, ⟨3, 0, .ro⟩], .mgmt⟩,
    ⟨.fdDiTypeStg, .field, 0x1000014, [],
     [⟨31, 4, .rsv⟩, ⟨3, 0, .stg⟩], .mgmt⟩,
    ⟨.fdDiWben, .field, 0x1000018, [],
     [⟨31, 0, .ro⟩], .mgmt⟩,
    ⟨.fdDiWbenStg, .field, 0x100001c, [],
     [⟨31, 0, .stg⟩], .mgmt⟩,
    ⟨.fdDiOwnLo, .field, 0x1000020, [],
     [⟨31, 0, .ro⟩], .mgmt⟩,
    ⟨.fdDiOwnHi, .field, 0x1000024, [],
     [⟨31, 0, .ro⟩], .mgmt⟩,
    ⟨.fdDiOwnStgLo, .field, 0x1000028, [],
     [⟨31, 0, .stg⟩], .mgmt⟩,
    ⟨.fdDiOwnStgHi, .field, 0x100002c, [],
     [⟨31, 0, .stg⟩], .mgmt⟩,
    ⟨.fdDiCosLo, .field, 0x1000030, [],
     [⟨31, 0, .rw⟩], .mgmt⟩,
    ⟨.fdDiCosHi, .field, 0x1000034, [],
     [⟨31, 0, .rw⟩], .mgmt⟩,
    ⟨.fdDiFilt, .field, 0x1000100, [(32, 4)],
     [⟨31, 8, .rsv⟩, ⟨7, 0, .ro⟩], .mgmt⟩,
    ⟨.fdDiFiltStg, .field, 0x1000180, [(32, 4)],
     [⟨31, 8, .rsv⟩, ⟨7, 0, .stg⟩], .mgmt⟩,
    ⟨.fdDoOwn, .field, 0x1000200, [],
     [⟨31, 0, .ro⟩], .mgmt⟩ ]

/-- FD_ registers of the space `field`. -/
def regRows19 : List RegDesc :=
  [ ⟨.fdDoOwnStg, .field, 0x1000204, [],
     [⟨31, 0, .stg⟩], .mgmt⟩,
    ⟨.fdDoCfg, .field, 0x1000208, [],
     [⟨31, 16, .ro⟩, ⟨15, 2, .rsv⟩, ⟨1, 1, .ro⟩, ⟨0, 0, .ro⟩], .mgmt⟩,
    ⟨.fdDoCfgStg, .field, 0x100020c, [],
     [⟨31, 16, .stg⟩, ⟨15, 2, .rsv⟩, ⟨1, 1, .stg⟩, ⟨0, 0, .stg⟩], .mgmt⟩,
    ⟨.fdDoTime, .field, 0x1000210, [],
     [⟨31, 24, .rsv⟩, ⟨23, 16, .ro⟩, ⟨15, 8, .rsv⟩, ⟨7, 0, .ro⟩], .mgmt⟩,
    ⟨.fdDoTimeStg, .field, 0x1000214, [],
     [⟨31, 24, .rsv⟩, ⟨23, 16, .stg⟩, ⟨15, 8, .rsv⟩, ⟨7, 0, .stg⟩], .mgmt⟩,
    ⟨.fdAiCfg, .field, 0x1000300, [(8, 4)],
     [⟨31, 31, .ro⟩, ⟨30, 30, .ro⟩, ⟨29, 28, .ro⟩, ⟨27, 0, .rsv⟩], .mgmt⟩,
    ⟨.fdAiCfgStg, .field, 0x1000320, [(8, 4)],
     [⟨31, 31, .stg⟩, ⟨30, 30, .stg⟩, ⟨29, 28, .stg⟩, ⟨27, 0, .rsv⟩], .mgmt⟩,
    ⟨.fdAiLim, .field, 0x1000340, [(8, 4)],
     [⟨31, 16, .ro⟩, ⟨15, 0, .ro⟩], .mgmt⟩,
    ⟨.fdAiLimStg, .field, 0x1000360, [(8, 4)],
     [⟨31, 16, .stg⟩, ⟨15, 0, .stg⟩], .mgmt⟩,
    ⟨.fdDoCmd, .field, 0x1000400, [],
     [⟨31, 16, .wo⟩, ⟨15, 0, .wo⟩], .strands⟩,
    ⟨.fdDoClr, .field, 0x1000404, [],
     [⟨31, 16, .rsv⟩, ⟨15, 0, .wo⟩], .strands⟩,
    ⟨.fdDoStat, .field, 0x1000408, [],
     [⟨31, 16, .ro⟩, ⟨15, 0, .ro⟩], .mgmt⟩,
    ⟨.fdDoFltLo, .field, 0x1000410, [],
     [⟨31, 0, .ro⟩], .mgmt⟩,
    ⟨.fdDoFltHi, .field, 0x1000414, [],
     [⟨31, 0, .ro⟩], .mgmt⟩,
    ⟨.fdDoLatch, .field, 0x1000420, [(3, 4)],
     [⟨31, 16, .ro⟩, ⟨15, 0, .ro⟩], .mgmt⟩,
    ⟨.fdDoPulse, .field, 0x1000430, [],
     [⟨31, 24, .rc⟩, ⟨23, 16, .rc⟩, ⟨15, 0, .rsv⟩], .mgmt⟩ ]

/-- FD_ registers of the space `field`. -/
def regRows20 : List RegDesc :=
  [ ⟨.fdWbStat, .field, 0x1000440, [],
     [⟨31, 0, .ro⟩], .mgmt⟩,
    ⟨.fdAiStat, .field, 0x1000444, [],
     [⟨31, 24, .rsv⟩, ⟨23, 16, .ro⟩, ⟨15, 0, .ro⟩], .mgmt⟩,
    ⟨.fdCosPop, .field, 0x1000500, [],
     [⟨31, 31, .ro⟩, ⟨30, 26, .ro⟩, ⟨25, 10, .rsv⟩, ⟨9, 9, .ro⟩, ⟨8, 8, .ro⟩, ⟨7, 5, .rsv⟩, ⟨4, 0, .ro⟩], .mgmt⟩,
    ⟨.fdCosTimeLo, .field, 0x1000504, [],
     [⟨31, 0, .ro⟩], .mgmt⟩,
    ⟨.fdCosTimeHi, .field, 0x1000508, [],
     [⟨31, 0, .ro⟩], .mgmt⟩,
    ⟨.fdCosOvf, .field, 0x100050c, [],
     [⟨31, 8, .rsv⟩, ⟨7, 0, .rc⟩], .mgmt⟩ ]

/-- LS_ registers of the space `port`. -/
def regRows21 : List RegDesc :=
  [ ⟨.lsCfg, .port, 0x7000000, [],
     [⟨31, 31, .rw⟩, ⟨30, 30, .rw⟩, ⟨29, 24, .rsv⟩, ⟨23, 16, .rw⟩, ⟨15, 8, .rw⟩, ⟨7, 2, .rsv⟩, ⟨1, 0, .rw⟩], .mgmtBeforeFirst⟩,
    ⟨.lsPair, .port, 0x7000004, [],
     [⟨31, 0, .rw⟩], .mgmtBeforeFirst⟩,
    ⟨.lsPserial, .port, 0x700000c, [],
     [⟨31, 0, .rw⟩], .mgmtBeforeFirst⟩,
    ⟨.lsBind, .port, 0x7000008, [],
     [⟨31, 10, .rsv⟩, ⟨9, 8, .rw⟩, ⟨7, 0, .rw⟩], .mgmtBeforeFirst⟩,
    ⟨.lsCmd, .port, 0x7000010, [],
     [⟨31, 2, .rsv⟩, ⟨1, 0, .wo⟩], .lease⟩,
    ⟨.lsStat, .port, 0x7000014, [],
     [⟨31, 30, .ro⟩, ⟨29, 29, .ro⟩, ⟨28, 28, .ro⟩, ⟨27, 27, .ro⟩, ⟨26, 26, .ro⟩, ⟨25, 24, .rsv⟩, ⟨23, 16, .ro⟩, ⟨15, 0, .ro⟩], .mgmt⟩,
    ⟨.lsCnt, .port, 0x7000018, [],
     [⟨31, 24, .rc⟩, ⟨23, 16, .rc⟩, ⟨15, 8, .rc⟩, ⟨7, 0, .rc⟩], .mgmt⟩ ]

/-- FD_ registers of the space `field`. -/
def regRows22 : List RegDesc :=
  [ ⟨.fdLsBind, .field, 0x1000600, [],
     [⟨31, 16, .rsv⟩, ⟨15, 0, .rw⟩], .mgmtBeforeFirst⟩ ]

/-- SM_ registers of the space `mgmt`. -/
def regRows23 : List RegDesc :=
  [ ⟨.smLock, .mgmt, 0x3000000, [(64, 4)],
     [⟨31, 4, .rsv⟩, ⟨3, 0, .rw⟩], .anyMaster⟩,
    ⟨.smPeek, .mgmt, 0x3000100, [(64, 4)],
     [⟨31, 4, .rsv⟩, ⟨3, 0, .ro⟩], .anyMaster⟩,
    ⟨.smForce, .mgmt, 0x3000200, [],
     [⟨31, 6, .rsv⟩, ⟨5, 0, .wo⟩], .mgmt⟩,
    ⟨.smStat, .mgmt, 0x3000204, [],
     [⟨31, 16, .rsv⟩, ⟨15, 8, .rc⟩, ⟨7, 0, .rc⟩], .anyMaster⟩ ]

/-- MG_ registers of the space `mgmt`. -/
def regRows24 : List RegDesc :=
  [ ⟨.mgStat, .mgmt, 0x4, [],
     [⟨31, 29, .ro⟩, ⟨28, 27, .ro⟩, ⟨26, 26, .ro⟩, ⟨25, 25, .ro⟩, ⟨24, 24, .ro⟩, ⟨23, 16, .ro⟩, ⟨15, 0, .rsv⟩], .mgmt⟩,
    ⟨.mgPwr, .mgmt, 0x8, [],
     [⟨31, 17, .rsv⟩, ⟨16, 0, .ro⟩], .mgmt⟩,
    ⟨.mgSerial, .mgmt, 0xc, [],
     [⟨31, 0, .ro⟩], .mgmt⟩,
    ⟨.mgSlots, .mgmt, 0x10, [],
     [⟨31, 21, .rsv⟩, ⟨20, 16, .ro⟩, ⟨15, 13, .rsv⟩, ⟨12, 8, .ro⟩, ⟨7, 5, .rsv⟩, ⟨4, 0, .ro⟩], .mgmt⟩,
    ⟨.mgUpd, .mgmt, 0x14, [],
     [⟨31, 29, .ro⟩, ⟨28, 24, .rsv⟩, ⟨23, 16, .ro⟩, ⟨15, 10, .rsv⟩, ⟨9, 8, .ro⟩, ⟨7, 1, .rsv⟩, ⟨0, 0, .ro⟩], .mgmt⟩,
    ⟨.mgUpdTLo, .mgmt, 0x18, [],
     [⟨31, 0, .ro⟩], .mgmt⟩,
    ⟨.mgUpdTHi, .mgmt, 0x1c, [],
     [⟨31, 0, .ro⟩], .mgmt⟩,
    ⟨.mgUpdCtl, .mgmt, 0x20, [],
     [⟨31, 2, .rsv⟩, ⟨1, 1, .w1s⟩, ⟨0, 0, .w1s⟩], .strands⟩,
    ⟨.mgPkg, .mgmt, 0x24, [],
     [⟨31, 0, .ro⟩], .mgmt⟩,
    ⟨.mgPkgVer, .mgmt, 0x28, [],
     [⟨31, 0, .ro⟩], .mgmt⟩,
    ⟨.mgSec, .mgmt, 0x2c, [],
     [⟨31, 16, .rsv⟩, ⟨15, 0, .ro⟩], .mgmt⟩,
    ⟨.mgDbg, .mgmt, 0x30, [],
     [⟨31, 31, .ro⟩, ⟨30, 30, .ro⟩, ⟨29, 9, .rsv⟩, ⟨8, 0, .ro⟩], .mgmt⟩,
    ⟨.mgDisagree, .mgmt, 0x34, [],
     [⟨31, 31, .ro⟩, ⟨30, 16, .rsv⟩, ⟨15, 12, .ro⟩, ⟨11, 10, .ro⟩, ⟨9, 8, .ro⟩, ⟨7, 0, .rc⟩], .mgmt⟩ ]

/-- DS_ registers of the space `mgmt`. -/
def regRows25 : List RegDesc :=
  [ ⟨.dsStep, .mgmt, 0x4000000, [],
     [⟨31, 28, .rsv⟩, ⟨27, 24, .ro⟩, ⟨23, 20, .ro⟩, ⟨19, 16, .ro⟩, ⟨15, 0, .rsv⟩], .nobody⟩,
    ⟨.dsCeil, .mgmt, 0x4000010, [(4, 4)],
     [⟨31, 9, .rsv⟩, ⟨8, 8, .ro⟩, ⟨7, 4, .rsv⟩, ⟨3, 0, .rw⟩], .ownStrand⟩,
    ⟨.dsLane, .mgmt, 0x4000020, [(3, 4)],
     [⟨31, 24, .ro⟩, ⟨23, 20, .ro⟩, ⟨19, 16, .ro⟩, ⟨15, 14, .rsv⟩, ⟨13, 8, .ro⟩, ⟨7, 0, .ro⟩], .nobody⟩,
    ⟨.dsPlan, .mgmt, 0x4000030, [(3, 4)],
     [⟨31, 4, .rsv⟩, ⟨3, 0, .rw⟩], .mgmt⟩,
    ⟨.dsMargin, .mgmt, 0x4000040, [(5, 4)],
     [⟨31, 30, .ro⟩, ⟨29, 27, .rsv⟩, ⟨26, 16, .ro⟩, ⟨15, 7, .rsv⟩, ⟨6, 0, .ro⟩], .nobody⟩,
    ⟨.dsStat, .mgmt, 0x4000060, [],
     [⟨31, 24, .rc⟩, ⟨23, 16, .rc⟩, ⟨15, 8, .rc⟩, ⟨7, 0, .rsv⟩], .nobody⟩ ]

/-- MG_ registers of the space `mgmt`. -/
def regRows26 : List RegDesc :=
  [ ⟨.mgBoard, .mgmt, 0x38, [],
     [⟨31, 31, .ro⟩, ⟨30, 28, .ro⟩, ⟨27, 24, .rsv⟩, ⟨23, 16, .ro⟩, ⟨15, 13, .rsv⟩, ⟨12, 8, .ro⟩, ⟨7, 0, .rc⟩], .mgmt⟩ ]

/-- TT_ registers of the space `port`. -/
def regRows27 : List RegDesc :=
  [ ⟨.ttSlotLo, .port, 0x1010000, [(8, 8192), (1024, 8)],
     [⟨31, 8, .ro⟩, ⟨7, 0, .ro⟩], .mgmt⟩,
    ⟨.ttSlotHi, .port, 0x1010004, [(8, 8192), (1024, 8)],
     [⟨31, 20, .ro⟩, ⟨19, 9, .ro⟩, ⟨8, 6, .ro⟩, ⟨5, 3, .ro⟩, ⟨2, 2, .ro⟩, ⟨1, 1, .ro⟩, ⟨0, 0, .ro⟩], .mgmt⟩,
    ⟨.ttSlotLoStg, .port, 0x1020000, [(8, 8192), (1024, 8)],
     [⟨31, 8, .stg⟩, ⟨7, 0, .stg⟩], .mgmt⟩,
    ⟨.ttSlotHiStg, .port, 0x1020004, [(8, 8192), (1024, 8)],
     [⟨31, 20, .stg⟩, ⟨19, 9, .stg⟩, ⟨8, 6, .stg⟩, ⟨5, 3, .stg⟩, ⟨2, 2, .stg⟩, ⟨1, 1, .stg⟩, ⟨0, 0, .stg⟩], .mgmt⟩ ]

/-- GD_ registers of the space `port`. -/
def regRows28 : List RegDesc :=
  [ ⟨.gdCfg, .port, 0x3100000, [],
     [⟨31, 16, .ro⟩, ⟨15, 8, .ro⟩, ⟨7, 7, .ro⟩, ⟨6, 5, .rsv⟩, ⟨4, 4, .ro⟩, ⟨3, 3, .ro⟩, ⟨2, 2, .ro⟩, ⟨1, 0, .rsv⟩], .mgmt⟩,
    ⟨.gdCfgStg, .port, 0x3100004, [],
     [⟨31, 16, .stg⟩, ⟨15, 8, .stg⟩, ⟨7, 7, .stg⟩, ⟨6, 5, .rsv⟩, ⟨4, 4, .stg⟩, ⟨3, 3, .stg⟩, ⟨2, 2, .stg⟩, ⟨1, 0, .rsv⟩], .mgmt⟩,
    ⟨.gdTimeCfg, .port, 0x3100008, [],
     [⟨31, 21, .ro⟩, ⟨20, 18, .ro⟩, ⟨17, 10, .ro⟩, ⟨9, 7, .ro⟩, ⟨6, 3, .ro⟩, ⟨2, 0, .rsv⟩], .mgmt⟩,
    ⟨.gdTimeCfgStg, .port, 0x310000c, [],
     [⟨31, 21, .stg⟩, ⟨20, 18, .stg⟩, ⟨17, 10, .stg⟩, ⟨9, 7, .stg⟩, ⟨6, 3, .stg⟩, ⟨2, 0, .rsv⟩], .mgmt⟩,
    ⟨.gdSynclist, .port, 0x3100010, [(2, 4)],
     [⟨31, 24, .ro⟩, ⟨23, 16, .ro⟩, ⟨15, 8, .ro⟩, ⟨7, 0, .ro⟩], .mgmt⟩,
    ⟨.gdSynclistStg, .port, 0x3100018, [(2, 4)],
     [⟨31, 24, .stg⟩, ⟨23, 16, .stg⟩, ⟨15, 8, .stg⟩, ⟨7, 0, .stg⟩], .mgmt⟩,
    ⟨.gdCslist, .port, 0x3100020, [(2, 4)],
     [⟨31, 24, .ro⟩, ⟨23, 16, .ro⟩, ⟨15, 8, .ro⟩, ⟨7, 0, .ro⟩], .mgmt⟩,
    ⟨.gdCslistStg, .port, 0x3100028, [(2, 4)],
     [⟨31, 24, .stg⟩, ⟨23, 16, .stg⟩, ⟨15, 8, .stg⟩, ⟨7, 0, .stg⟩], .mgmt⟩,
    ⟨.gdAuth, .port, 0x3100030, [(2, 4)],
     [⟨31, 24, .ro⟩, ⟨23, 16, .ro⟩, ⟨15, 8, .ro⟩, ⟨7, 0, .ro⟩], .mgmt⟩,
    ⟨.gdAuthStg, .port, 0x3100038, [(2, 4)],
     [⟨31, 24, .stg⟩, ⟨23, 16, .stg⟩, ⟨15, 8, .stg⟩, ⟨7, 0, .stg⟩], .mgmt⟩,
    ⟨.gdTblCrc, .port, 0x3100044, [],
     [⟨31, 0, .ro⟩], .mgmt⟩,
    ⟨.gdTblCrcStg, .port, 0x3100048, [],
     [⟨31, 0, .ro⟩], .mgmt⟩,
    ⟨.gdModeCyc, .port, 0x3101000, [(8, 16)],
     [⟨31, 31, .ro⟩, ⟨30, 27, .rsv⟩, ⟨26, 16, .ro⟩, ⟨15, 0, .ro⟩], .mgmt⟩,
    ⟨.gdModeCycStg, .port, 0x3101004, [(8, 16)],
     [⟨31, 31, .stg⟩, ⟨30, 27, .rsv⟩, ⟨26, 16, .stg⟩, ⟨15, 0, .stg⟩], .mgmt⟩,
    ⟨.gdModeSel, .port, 0x3101008, [(8, 16)],
     [⟨31, 31, .ro⟩, ⟨30, 24, .rsv⟩, ⟨23, 16, .ro⟩, ⟨15, 8, .ro⟩, ⟨7, 0, .rsv⟩], .mgmt⟩,
    ⟨.gdModeSelStg, .port, 0x310100c, [(8, 16)],
     [⟨31, 31, .stg⟩, ⟨30, 24, .rsv⟩, ⟨23, 16, .stg⟩, ⟨15, 8, .stg⟩, ⟨7, 0, .rsv⟩], .mgmt⟩ ]

/-- GD_ registers of the space `port`. -/
def regRows29 : List RegDesc :=
  [ ⟨.gdSlotLo, .port, 0x3110000, [(8, 8192), (1024, 8)],
     [⟨31, 8, .ro⟩, ⟨7, 0, .ro⟩], .mgmt⟩,
    ⟨.gdSlotHi, .port, 0x3110004, [(8, 8192), (1024, 8)],
     [⟨31, 20, .ro⟩, ⟨19, 9, .ro⟩, ⟨8, 6, .ro⟩, ⟨5, 3, .ro⟩, ⟨2, 2, .ro⟩, ⟨1, 1, .ro⟩, ⟨0, 0, .ro⟩], .mgmt⟩,
    ⟨.gdSlotLoStg, .port, 0x3120000, [(8, 8192), (1024, 8)],
     [⟨31, 8, .stg⟩, ⟨7, 0, .stg⟩], .mgmt⟩,
    ⟨.gdSlotHiStg, .port, 0x3120004, [(8, 8192), (1024, 8)],
     [⟨31, 20, .stg⟩, ⟨19, 9, .stg⟩, ⟨8, 6, .stg⟩, ⟨5, 3, .stg⟩, ⟨2, 2, .stg⟩, ⟨1, 1, .stg⟩, ⟨0, 0, .stg⟩], .mgmt⟩ ]

/-- GW_ registers of the space `port`. -/
def regRows30 : List RegDesc :=
  [ ⟨.gwPduCfg, .port, 0x6010000, [(2048, 16)],
     [⟨31, 31, .ro⟩, ⟨30, 28, .ro⟩, ⟨27, 27, .ro⟩, ⟨26, 26, .ro⟩, ⟨25, 22, .ro⟩, ⟨21, 20, .ro⟩, ⟨19, 11, .rsv⟩, ⟨10, 0, .ro⟩], .mgmt⟩,
    ⟨.gwPduCfgStg, .port, 0x6020000, [(2048, 16)],
     [⟨31, 31, .stg⟩, ⟨30, 28, .stg⟩, ⟨27, 27, .stg⟩, ⟨26, 26, .stg⟩, ⟨25, 22, .stg⟩, ⟨21, 20, .stg⟩, ⟨19, 11, .rsv⟩, ⟨10, 0, .stg⟩], .mgmt⟩,
    ⟨.gwPduBuf, .port, 0x6010004, [(2048, 16)],
     [⟨31, 20, .ro⟩, ⟨19, 1, .rsv⟩, ⟨0, 0, .ro⟩], .mgmt⟩,
    ⟨.gwPduBufStg, .port, 0x6020004, [(2048, 16)],
     [⟨31, 20, .stg⟩, ⟨19, 1, .rsv⟩, ⟨0, 0, .stg⟩], .mgmt⟩,
    ⟨.gwPduMap, .port, 0x6010008, [(2048, 16)],
     [⟨31, 20, .ro⟩, ⟨19, 7, .ro⟩, ⟨6, 0, .rsv⟩], .mgmt⟩,
    ⟨.gwPduMapStg, .port, 0x6020008, [(2048, 16)],
     [⟨31, 20, .stg⟩, ⟨19, 7, .stg⟩, ⟨6, 0, .rsv⟩], .mgmt⟩,
    ⟨.gwPduKey, .port, 0x601000c, [(2048, 16)],
     [⟨31, 0, .ro⟩], .mgmt⟩,
    ⟨.gwPduKeyStg, .port, 0x602000c, [(2048, 16)],
     [⟨31, 0, .stg⟩], .mgmt⟩,
    ⟨.gwMap, .port, 0x6100000, [(4096, 64), (16, 4)],
     [⟨31, 0, .ro⟩], .mgmt⟩,
    ⟨.gwMapStg, .port, 0x6180000, [(4096, 64), (16, 4)],
     [⟨31, 0, .stg⟩], .mgmt⟩,
    ⟨.gwSwData, .port, 0x6400000, [(1048576, 4)],
     [⟨31, 0, .wo⟩], .anyStrand⟩,
    ⟨.gwRrReqLo, .port, 0x6040000, [(4, 512)],
     [⟨31, 24, .wo⟩, ⟨23, 16, .wo⟩, ⟨15, 6, .rsv⟩, ⟨5, 0, .wo⟩], .ownStrand⟩,
    ⟨.gwRrReqHi, .port, 0x6040004, [(4, 512)],
     [⟨31, 25, .rsv⟩, ⟨24, 16, .wo⟩, ⟨15, 11, .rsv⟩, ⟨10, 0, .wo⟩], .ownStrand⟩,
    ⟨.gwRrSel, .port, 0x6040008, [(4, 512)],
     [⟨31, 6, .rsv⟩, ⟨5, 0, .rw⟩], .ownStrand⟩,
    ⟨.gwRrHdr, .port, 0x604000c, [(4, 512)],
     [⟨31, 31, .ro⟩, ⟨30, 28, .ro⟩, ⟨27, 24, .rsv⟩, ⟨23, 16, .ro⟩, ⟨15, 9, .rsv⟩, ⟨8, 0, .ro⟩], .ownStrand⟩,
    ⟨.gwRrFree, .port, 0x6040010, [(4, 512)],
     [⟨31, 6, .rsv⟩, ⟨5, 0, .wo⟩], .ownStrand⟩ ]

/-- GW_ registers of the space `port`. -/
def regRows31 : List RegDesc :=
  [ ⟨.gwRrStat, .port, 0x6040014, [(4, 512)],
     [⟨31, 24, .rc⟩, ⟨23, 16, .rc⟩, ⟨15, 8, .rc⟩, ⟨7, 7, .rsv⟩, ⟨6, 0, .ro⟩], .ownStrand⟩,
    ⟨.gwRrData, .port, 0x6040100, [(4, 512), (64, 4)],
     [⟨31, 0, .ro⟩], .ownStrand⟩ ]

/-- CN_ registers of the space `port`. -/
def regRows32 : List RegDesc :=
  [ ⟨.cnCtl, .port, 0x5000000, [(2, 4096)],
     [⟨31, 3, .rsv⟩, ⟨2, 2, .w1s⟩, ⟨1, 0, .rw⟩], .can⟩,
    ⟨.cnNbt, .port, 0x5000004, [(2, 4096)],
     [⟨31, 23, .rw⟩, ⟨22, 16, .rw⟩, ⟨15, 8, .rw⟩, ⟨7, 7, .rsv⟩, ⟨6, 0, .rw⟩], .can⟩,
    ⟨.cnDbt, .port, 0x5000008, [(2, 4096)],
     [⟨31, 27, .rw⟩, ⟨26, 23, .rw⟩, ⟨22, 18, .rw⟩, ⟨17, 14, .rw⟩, ⟨13, 13, .rw⟩, ⟨12, 7, .rsv⟩, ⟨6, 0, .rw⟩], .can⟩,
    ⟨.cnStat, .port, 0x500000c, [(2, 4096)],
     [⟨31, 29, .ro⟩, ⟨28, 28, .ro⟩, ⟨27, 25, .ro⟩, ⟨24, 16, .rsv⟩, ⟨15, 8, .ro⟩, ⟨7, 0, .ro⟩], .mgmt⟩,
    ⟨.cnCnt, .port, 0x5000010, [(2, 4096)],
     [⟨31, 24, .rc⟩, ⟨23, 16, .rc⟩, ⟨15, 8, .rc⟩, ⟨7, 0, .rc⟩], .mgmt⟩,
    ⟨.cnFltId, .port, 0x5000400, [(2, 4096), (64, 16)],
     [⟨31, 31, .ro⟩, ⟨30, 30, .ro⟩, ⟨29, 29, .rsv⟩, ⟨28, 0, .ro⟩], .mgmt⟩,
    ⟨.cnFltIdStg, .port, 0x5000800, [(2, 4096), (64, 16)],
     [⟨31, 31, .stg⟩, ⟨30, 30, .stg⟩, ⟨29, 29, .rsv⟩, ⟨28, 0, .stg⟩], .mgmt⟩,
    ⟨.cnFltMask, .port, 0x5000404, [(2, 4096), (64, 16)],
     [⟨31, 29, .rsv⟩, ⟨28, 0, .ro⟩], .mgmt⟩,
    ⟨.cnFltMaskStg, .port, 0x5000804, [(2, 4096), (64, 16)],
     [⟨31, 29, .rsv⟩, ⟨28, 0, .stg⟩], .mgmt⟩,
    ⟨.cnFltRt, .port, 0x5000408, [(2, 4096), (64, 16)],
     [⟨31, 30, .ro⟩, ⟨29, 11, .rsv⟩, ⟨10, 0, .ro⟩], .mgmt⟩,
    ⟨.cnFltRtStg, .port, 0x5000808, [(2, 4096), (64, 16)],
     [⟨31, 30, .stg⟩, ⟨29, 11, .rsv⟩, ⟨10, 0, .stg⟩], .mgmt⟩ ]

/-- PD_ registers of the space `consumer`. -/
def regRows33 : List RegDesc :=
  [ ⟨.pdWerrPop, .consumer, 0x2000, [(5, 16)],
     [⟨31, 31, .ro⟩, ⟨30, 28, .ro⟩, ⟨27, 24, .ro⟩, ⟨23, 16, .rsv⟩, ⟨15, 0, .ro⟩], .anyMaster⟩,
    ⟨.pdWerrAddrLo, .consumer, 0x2004, [(5, 16)],
     [⟨31, 0, .ro⟩], .anyMaster⟩,
    ⟨.pdWerrAddrHi, .consumer, 0x2008, [(5, 16)],
     [⟨31, 16, .ro⟩, ⟨15, 8, .rsv⟩, ⟨7, 0, .ro⟩], .anyMaster⟩,
    ⟨.pdWerrOvf, .consumer, 0x200c, [(5, 16)],
     [⟨31, 8, .rsv⟩, ⟨7, 0, .rc⟩], .anyMaster⟩ ]

/-- MB_ registers of the space `mgmt`. -/
def regRows34 : List RegDesc :=
  [ ⟨.mbTxword, .mgmt, 0x2000000, [(12, 256), (2, 128)],
     [⟨31, 0, .wo⟩], .mailbox⟩,
    ⟨.mbTxdb, .mgmt, 0x2000004, [(12, 256), (2, 128)],
     [⟨31, 0, .wo⟩], .mailbox⟩,
    ⟨.mbTxstat, .mgmt, 0x2000008, [(12, 256), (2, 128)],
     [⟨31, 26, .rsv⟩, ⟨25, 25, .w1c⟩, ⟨24, 24, .w1c⟩, ⟨23, 21, .rsv⟩, ⟨20, 16, .ro⟩, ⟨15, 8, .ro⟩, ⟨7, 5, .rsv⟩, ⟨4, 0, .ro⟩], .mailbox⟩,
    ⟨.mbRxhdr, .mgmt, 0x200000c, [(12, 256), (2, 128)],
     [⟨31, 31, .ro⟩, ⟨30, 30, .ro⟩, ⟨29, 29, .ro⟩, ⟨28, 24, .rsv⟩, ⟨23, 16, .ro⟩, ⟨15, 12, .ro⟩, ⟨11, 5, .rsv⟩, ⟨4, 0, .ro⟩], .mailbox⟩,
    ⟨.mbRxpop, .mgmt, 0x2000010, [(12, 256), (2, 128)],
     [⟨31, 1, .rsv⟩, ⟨0, 0, .wo⟩], .mailbox⟩,
    ⟨.mbRxdb, .mgmt, 0x2000014, [(12, 256), (2, 128)],
     [⟨31, 0, .w1c⟩], .mailbox⟩,
    ⟨.mbRxmask, .mgmt, 0x2000018, [(12, 256), (2, 128)],
     [⟨31, 0, .rw⟩], .mailbox⟩,
    ⟨.mbRxstat, .mgmt, 0x200001c, [(12, 256), (2, 128)],
     [⟨31, 26, .rsv⟩, ⟨25, 25, .w1c⟩, ⟨24, 24, .w1c⟩, ⟨23, 16, .ro⟩, ⟨15, 13, .rsv⟩, ⟨12, 8, .ro⟩, ⟨7, 5, .rsv⟩, ⟨4, 0, .ro⟩], .mailbox⟩,
    ⟨.mbCtl, .mgmt, 0x2000020, [(12, 256), (2, 128)],
     [⟨31, 2, .rsv⟩, ⟨1, 1, .w1s⟩, ⟨0, 0, .w1s⟩], .mailbox⟩,
    ⟨.mbRxdata, .mgmt, 0x2000040, [(12, 256), (2, 128), (16, 4)],
     [⟨31, 0, .ro⟩], .mailbox⟩ ]

/-- Every register of the manual. -/
def regTable : List RegDesc :=
  regRows0 ++ regRows1 ++ regRows2 ++ regRows3 ++ regRows4 ++ regRows5 ++ regRows6 ++ regRows7 ++
  regRows8 ++ regRows9 ++ regRows10 ++ regRows11 ++ regRows12 ++ regRows13 ++ regRows14 ++ regRows15 ++
  regRows16 ++ regRows17 ++ regRows18 ++ regRows19 ++ regRows20 ++ regRows21 ++ regRows22 ++ regRows23 ++
  regRows24 ++ regRows25 ++ regRows26 ++ regRows27 ++ regRows28 ++ regRows29 ++ regRows30 ++ regRows31 ++
  regRows32 ++ regRows33 ++ regRows34

end Sys2Proof.Machine
end

