-- ==== Sys2Proof/Machine/RegOps.lean ====
section
/-! DEFINITION. Register accesses by field access code (R11 to R14, R445, R446): looking a register up, storing a
word, and reading one with its read-to-clear fields. -/

namespace Sys2Proof.Machine

/-- The indices at which an offset, counted from an array's base, lies in it. -/
def matchDims : List (Nat × Nat) → Nat → Option (List Nat)
  | [], off => if off = 0 then some [] else none
  | (n, stride) :: ds, off =>
    if off / stride < n then (matchDims ds (off % stride)).map fun is => off / stride :: is else none

/-- The register at an offset of a space. -/
def findDesc (sp : Space) (off : Nat) : List RegDesc → Option (RegDesc × List Nat)
  | [] => none
  | d :: ds =>
    if d.space = sp ∧ d.off ≤ off then
      match matchDims d.dims (off - d.off) with
      | some is => some (d, is)
      | none => findDesc sp off ds
    else findDesc sp off ds

/-- The space and the offset in it of a key of a register unit. -/
def spaceOf : RUnit → Nat → Space × Nat
  | .p1, off => (.port, off)
  | .p2, off => (.port, off)
  | .f, off => (.field, off)
  | .m, off => (.mgmt, off)
  | _, off => if off < 0x40000 then (.strandPage, off % 0x10000) else (.laneCommon, off)

/-- The register at a key of a unit; every consumer die also has the voter and write-error blocks. -/
def regAt (u : RUnit) (off : Nat) : Option (RegDesc × List Nat) :=
  let sp := spaceOf u off
  match findDesc sp.1 sp.2 regTable with
  | some r => some r
  | none =>
    match u with
    | .p1 => findDesc .consumer off regTable
    | .p2 => findDesc .consumer off regTable
    | .f => findDesc .consumer off regTable
    | .m => findDesc .consumer off regTable
    | _ => none

/-- The bits of a register whose access code is one of `as'`. -/
def accMask (fs : List RegField) (as' : List Acc) : Word :=
  fs.foldl (fun m f => if as'.contains f.acc then m ||| fieldMask 32 f.hi f.lo else m) 0

/-- Reserved bits of a map table word (R303) by its index: bit 0 of word 1, bit 6 of word 2, bits 15:0 of word 5 and
all of words 12 to 15. -/
def mapReserved (i : Nat) : Word :=
  if i = 1 then 0x1 else if i = 2 then 0x40 else if i = 5 then 0xFFFF else if 12 ≤ i then 0xFFFFFFFF else 0

/-- Reserved bits of a register. -/
def reservedBits (d : RegDesc) (is : List Nat) : Word :=
  accMask d.fields [.rsv] ||| (match d.id with
    | .gwMap => mapReserved ((is[1]?).getD 0)
    | .gwMapStg => mapReserved ((is[1]?).getD 0)
    | _ => 0)

/-- What a register holds after a write of the enabled bits, field by field (R12, R445). -/
def storeWord (d : RegDesc) (old mask data : Word) : Word :=
  let rw := accMask d.fields [.rw, .stg] &&& mask
  let v := (old &&& ~~~rw) ||| (data &&& rw)
  let v := v &&& ~~~(accMask d.fields [.w1c] &&& mask &&& data)
  v ||| (accMask d.fields [.w1s] &&& mask &&& data)

/-- A write differs from what an RO or RC field holds (R445): `old` is what a read would return. -/
def differsRo (d : RegDesc) (old mask data : Word) : Bool :=
  ((old ^^^ data) &&& mask &&& accMask d.fields [.ro, .rc]) != 0

/-- Registers that form pairs of which the lower is held until the upper is written (R11). -/
def isPairLo : RegId → Bool
  | .lnTmrCmpLo => true
  | .tbTrigCmpLo => true
  | .dmBaseLo => true
  | .fdDiCosLo => true
  | .fdDiOwnStgLo => true
  | .ttSlotLoStg => true
  | .gdSlotLoStg => true
  | .gwRrReqLo => true
  | _ => false
def isPairHi : RegId → Bool
  | .lnTmrCmpHi => true
  | .tbTrigCmpHi => true
  | .dmBaseHi => true
  | .fdDiCosHi => true
  | .fdDiOwnStgHi => true
  | .ttSlotHiStg => true
  | .gdSlotHiStg => true
  | .gwRrReqHi => true
  | _ => false

/-- A write that sets a reserved bit is logged `RSVD_WRITE` with the address and the master (R14). -/
def State.logRsvd (s : State) (u : RUnit) (off : Nat) (m : Master) : State :=
  s.logEv (RUnit.logSrc u) (match m with | .strand k => some k | _ => none) .rsvdWrite [off, m.number]

/-- The lower half of a pair that waited for its upper half is dropped: the pair is written whole (R11). -/
def State.dropHeld (s : State) (u : RUnit) (off : Nat) : State :=
  { s with heldLo := s.heldLo.filter fun h => !(h.1 == u && h.2.1 == off) }

/-- The low half of a pair is held until the high half is written (R11). -/
def State.holdLow (s : State) (u : RUnit) (off : Nat) (w : Word) : State :=
  { s with heldLo := (u, off, w) :: s.heldLo.filter fun h => !(h.1 == u && h.2.1 == off) }

/-- The low half that is held, or `w` while none is. -/
def State.heldOr (s : State) (u : RUnit) (off : Nat) (w : Word) : Word :=
  match s.heldLo.find? fun h => h.1 == u && h.2.1 == off with
  | some h => h.2.2
  | none => w

/-- A write acts on the fields of a register, each by its access code (R445), in the bytes it enables (R446). `wide` tells
a 64-bit access, which is not held (R11); a further narrow write to a held half joins it. -/
def State.plainWrite (s : State) (u : RUnit) (off : Nat) (d : RegDesc) (mask data : Word) (wide : Bool) : State :=
    let old := s.reg u off
    if isPairLo d.id && !wide then s.holdLow u off (storeWord d (s.heldOr u off old) mask data)
    else if isPairLo d.id then State.setReg (s.dropHeld u off) u off (storeWord d old mask data)
    else if isPairHi d.id then
      let t := s.setReg u (off - 4) (s.heldOr u (off - 4) (s.reg u (off - 4)))
      State.setReg (t.dropHeld u (off - 4)) u off (storeWord d old mask data)
    else s.setReg u off (storeWord d old mask data)

/-- What a read returns of a register's fields: WO fields read 0 (R12). -/
def readable (d : RegDesc) (w : Word) : Word := w &&& ~~~accMask d.fields [.wo, .rsv]

/-- A read of a register returns it and clears its read-to-clear fields (R12, R446). -/
def State.plainRead (s : State) (u : RUnit) (off : Nat) (d : RegDesc) : State × Word :=
  let w := s.reg u off
  let rc := accMask d.fields [.rc]
  (if w &&& rc = 0 then s else s.setReg u off (w &&& ~~~rc), readable d w)

end Sys2Proof.Machine
end

