-- ==== Sys2Proof/Machine/Dma.lean ====
section
/-! DEFINITION. Ring DMA: channels and doorbells (R267 to R271, R293), descriptors (R273 to R276), voted reads (R104 to
R106, R285), what each kind of descriptor does (R277 to R284), write-backs (R286 to R288) and quiesce (R291, R292). -/

namespace Sys2Proof.Machine

/-! ### Descriptors (R273) -/

structure Desc where
  own : Bool
  type : Nat
  irq : Bool
  chain : Bool
  crcen : Bool
  crcsel : Nat
  crcdst : Bool
  gather : Bool
  esize : Nat
  rsv : Bool
  len : Nat
  count : Nat
  src : Nat
  dst : Nat
  aux : Nat
deriving DecidableEq, Repr

def descOf (bs : List Byte) : Desc :=
  let w0 : Word := BitVec.ofNat 32 (leAt bs 0 4)
  let w1 : Word := BitVec.ofNat 32 (leAt bs 4 4)
  let gather := bitOf w0 21
  ⟨bitOf w0 31, fieldOf w0 30 28, bitOf w0 27, bitOf w0 26, bitOf w0 25, fieldOf w0 24 23, bitOf w0 22, gather,
   fieldOf w0 11 0, fieldOf w0 20 12 != 0 || fieldOf w1 31 24 != 0, fieldOf w1 23 0, fieldOf w1 15 0,
   leAt bs 8 8, leAt bs 16 8, leAt bs 24 8⟩

/-- TYPE suits the channel (R274). -/
def typeSuits (ch t : Nat) : Bool :=
  (t == 0 && isKtnTx ch) || (t == 1 && isKtnRx ch) || (t == 2 && isCanTx ch) || (t == 3 && isCanRx ch) ||
    ((t == 4 || t == 5) && isCopyCh ch)

/-- Two byte ranges overlap. -/
def overlaps (a n b m : Nat) : Bool := decide (a < b + m) && decide (b < a + n) && n != 0 && m != 0

/-- Bytes of a descriptor's CRC store. -/
def crcBytes (d : Desc) : Nat := if d.crcsel = 2 then 8 else 4

/-- Bytes a gather descriptor writes. -/
def gatherLen (d : Desc) : Nat := d.count * (d.esize + 1)

/-- Bits 63:40 of an address that the descriptor names are set (R273). -/
def wideAddr (a : Nat) : Bool := decide (2 ^ 40 ≤ a)

/-- Addresses that a type uses. -/
def usesSrc (d : Desc) : Bool := d.type == 0 || d.type == 2 || d.type == 4 || d.type == 5
def usesDst (d : Desc) : Bool := d.type == 1 || d.type == 3 || d.type == 4
def usesAux (d : Desc) : Bool := d.chain || d.crcdst || d.gather

/-- BAD_DESC before any access (R273 to R275); CAN records are checked when they are held. -/
def badDesc (ch : Nat) (d : Desc) : Bool :=
  let copy := isCopyCh ch
  let dstLen := if d.gather then gatherLen d else d.len
  let dstAt := if d.gather then d.aux else d.dst
  let two := fun (a b : Bool) => a && b
  d.rsv || !typeSuits ch d.type || d.crcsel == 3 ||
  (!copy && (d.chain || d.crcen || d.crcdst || d.gather || d.esize != 0)) ||
  (d.esize != 0 && !d.gather) || (d.gather && (d.type != 4 || decide (65536 ≤ d.len))) ||
  two d.chain d.crcdst || two d.chain d.gather || two d.crcdst d.gather ||
  (d.crcdst && !d.crcen) || (d.type == 1 && d.len == 0) || (d.type == 3 && decide (d.len < 72)) ||
  (usesSrc d && wideAddr d.src) || (usesDst d && wideAddr d.dst) || (usesAux d && wideAddr d.aux) ||
  (d.type == 4 && !d.gather && overlaps d.src d.len d.dst d.len) ||
  ((d.type == 4 || d.type == 5) && d.crcdst && overlaps d.src d.len d.aux (crcBytes d)) ||
  (d.gather && overlaps dstAt dstLen d.dst (4 * d.count))

/-! ### Permitted regions (R276) -/

/-- Kinds of places a range may lie in. -/
inductive Place where
  | partition | slice | common | elsewhere
deriving DecidableEq, Repr

/-- Where a range of a strand's channel lies, when wholly within one region. -/
def placeOf (k : Strand) (a n : Nat) : Place :=
  match regionOf a, regionOf (a + n - 1) with
  | .partition i _, .partition j _ => if i = k ∧ j = k then .partition else .elsewhere
  | .slice i _, .slice j _ => if i = k ∧ j = k then .slice else .elsewhere
  | .common _, .common _ => .common
  | _, _ => .elsewhere

/-- A range that is read. -/
def srcOk (k : Strand) (a n : Nat) : Bool := n == 0 || placeOf k a n != .elsewhere

/-- A range that is written. -/
def State.dstOk (s : State) (p : PDie) (k : Strand) (a n : Nat) : Bool :=
  n == 0 || match placeOf k a n with
    | .partition => true
    | .slice => true
    | .common => s.areaOk p (a - 0xE0000000) n
    | .elsewhere => false

/-- The first offending address of a range (R276): the first byte up to which the range does not lie wholly within a region
that it may lie in. A range that is permitted stays so when it is cut short, so the longest permitted length is found bit by
bit. -/
def firstBad (ok : Nat → Nat → Bool) (a : Nat) : Nat :=
  a + (List.range 29).foldr (fun i m => if ok a (m + 2 ^ i) then m + 2 ^ i else m) 0

/-- A chained descriptor lies 32-byte aligned in the owner's partition or SRAM slice. -/
def chainOk (k : Strand) (a n : Nat) : Bool :=
  a % 32 == 0 && (placeOf k a n == .partition || placeOf k a n == .slice)

/-- The first offending address of a descriptor's ranges, if any (R276). -/
def State.addrFault (s : State) (p : PDie) (k : Strand) (d : Desc) : Option Nat :=
  let bad := fun (ok : Nat → Nat → Bool) a n => if ok a n then none else some (firstBad ok a)
  let src := bad (srcOk k)
  let dst := bad (s.dstOk p k)
  let chk : List (Option Nat) :=
    (if usesSrc d && !d.gather then [src d.src d.len] else []) ++
    (if d.gather then [src d.dst (4 * d.count), dst d.aux (gatherLen d)]
     else if usesDst d then [dst d.dst d.len] else []) ++
    (if d.crcdst then [dst d.aux (crcBytes d)] else []) ++ (if d.chain then [bad (chainOk k) d.aux 32] else [])
  chk.findSome? id

/-! ### CAN records (R313) -/

def validDlen (n : Nat) : Bool := [0, 1, 2, 3, 4, 5, 6, 7, 8, 12, 16, 20, 24, 32, 48, 64].contains n

structure CanRec where
  frame : CanFrame
  rsv : Bool
deriving DecidableEq, Repr

def canRecOf (bs : List Byte) : CanRec :=
  let w0 : Word := BitVec.ofNat 32 (leAt bs 0 4)
  let w1 : Word := BitVec.ofNat 32 (leAt bs 4 4)
  let rtr := bitOf w1 8
  ⟨⟨bitOf w0 31, bitOf w0 30, bitOf w0 29, w0.extractLsb' 0 29, bitOf w1 9, rtr, w1.extractLsb' 0 8,
    if rtr then [] else slice bs 8 (fieldOf w1 7 0)⟩, fieldOf w1 31 10 != 0⟩

/-- The record checks of R313. -/
def badCanRec (len : Nat) (r : CanRec) : Bool :=
  let f := r.frame
  let n := f.dlen.toNat
  decide (len ≠ (if f.rtr then 8 else 8 + n)) || !validDlen n || (decide (8 < n) && !f.fdf) || (f.brs && !f.fdf) ||
    (f.rtr && f.fdf) || (!f.ide && f.id.toNat / 2 ^ 11 != 0) || r.rsv || f.esi

/-- The record of a received frame; an identifier of 11 bits leaves bits 28:11 zero. -/
def canRecord (f : CanFrame) : List Byte :=
  let id := if f.ide then f.id.toNat else f.id.toNat % 2 ^ 11
  leBytes 4 (bitNat f.ide * 2 ^ 31 + bitNat f.fdf * 2 ^ 30 + bitNat f.brs * 2 ^ 29 + id) ++
  leBytes 4 (bitNat f.esi * 2 ^ 9 + bitNat f.rtr * 2 ^ 8 + f.dlen.toNat) ++
  (if f.rtr then [] else slice f.data 0 f.dlen.toNat)

/-! ### CRC (R283) -/

/-- CRC-32 of IEEE 802.3 in reflected order. -/
def poly32 : Word := 0xEDB88320

def crcInit (sel : Nat) : Dword := if sel = 2 then 0xFFFFFFFFFFFFFFFF else 0xFFFFFFFF

def crcRun (sel : Nat) (r : Dword) (bs : List Byte) : Dword :=
  if sel = 2 then crcFold poly64 r bs
  else ((crcFold (if sel = 1 then poly32 else poly32c) (loWord r) bs).zeroExtend 64)

def crcFinal (sel : Nat) (r : Dword) : Dword := if sel = 2 then r else (~~~(loWord r)).zeroExtend 64

/-! ### Voted reads (R104 to R106) -/

/-- The die's own main island is quiesced. -/
def State.mainQuiesced (s : State) (p : PDie) : Bool :=
  s.flag p.unit Reg.dmQuiesce 9 && s.fld p.unit Reg.dmQuiesce 2 0 == 0

/-- Fetch records of a strand in use (R106): a record is taken for each unit from its start until no copy is awaited any more,
also before it holds a kept CRC-64 (log entry 143). -/
def State.fetchRecords (s : State) (p : PDie) (k : Strand) : Nat :=
  ((s.port p).fetches.filter fun f => f.strand == k && Lane.list.any fun l => f.awaits l).length

/-- A quiesce stops what would touch its domain (R291): every start for the die's own main island; for a lane's mem island a
fetch unit that would be read there, and a descriptor, chained descriptor or element, whose data or write-back goes to every lane
that is not retired. -/
def State.quiesceStops (s : State) (p : PDie) (k : Strand) (writes : Bool) : Bool :=
  s.mainQuiesced p || Lane.list.any fun l =>
    s.quiesced p l && (if writes then !s.retired l else (s.voterIn (Die.ofPDie p) k).contains l)

/-- A fetch unit is read from every replica in step whose fence is open; without room for its record it waits (R106), and so
does one that a quiesce stops (R291). -/
def State.startFetch (s : State) (p : PDie) (ch index addr len : Nat) : State :=
  let k := s.chOwner p ch
  if s.quiesceStops p k false || decide (256 ≤ s.fetchRecords p k) then s
  else
    let x := s.port p
    let ins := s.voterIn (Die.ofPDie p) k
    let need := ((s.actAt p ch index).map (·.need)).getD none
    -- A number that no open unit has.
    let id := x.fetches.foldl (fun m g => max m (g.id + 1)) x.nextFetch
    let f : Fetch := ⟨id, k, ch, index, addr, len, [], none, [], need, [], Tri.all 0, 0,
      Lane.list.filter fun l => !ins.contains l⟩
    let t := s.setPort p { x with fetches := x.fetches ++ [f], nextFetch := id + 1 }
    (t.mapAct p ch index fun a => { a with fetch := some f.id, lastFetch := f.id }).askCopies p k

/-- Fetch units of at most 4 KiB that end at 4 KiB boundaries of the range. -/
def unitLen (pos len : Nat) : Nat := min 4096 (len - pos)

/-- The strand's broadcasts are held by the die, and the channel is a copy channel (R293). -/
def State.copyStalled (s : State) (p : PDie) (ch : Nat) : Bool :=
  isCopyCh ch && (s.port p).hold == some (s.chOwner p ch)

/-- The next read of an activation, by its stage. -/
def State.askNext (s : State) (p : PDie) (ch : Nat) (a : Act) : State :=
  let d := descOf a.desc
  let k := s.chOwner p ch
  match a.stage with
  | .desc => if s.quiesceStops p k true then s else s.startFetch p ch a.index a.addr 32
  | .index => s.startFetch p ch a.index (d.dst + a.pos) (unitLen a.pos (4 * d.count))
  | .data =>
    if d.gather then
      match a.offs with
      | o :: _ =>
        if s.quiesceStops p k true then s else
        let at' := (d.src + o) % 2 ^ 64
        let n := d.esize + 1
        if !srcOk k at' n then s.endAct p ch a.index stAddrFault (firstBad (srcOk k) at')
        else if overlaps at' n d.aux (gatherLen d) then s.endAct p ch a.index stBadDesc at'
        else s.startFetch p ch a.index at' n
      | [] => s.endAct p ch a.index stOk 0
    else s.startFetch p ch a.index (d.src + a.pos) (unitLen a.pos d.len)
  | .ready => s
  | .done => s

/-- The activation at an index goes on with its next read; a copy channel under a hold stalls instead, and one that drains keeps
its state (R293). -/
def State.nextRead (s : State) (p : PDie) (ch index : Nat) : State :=
  match s.actAt p ch index with
  | none => s
  | some a =>
    if a.fetch.isSome then s
    else if s.copyStalled p ch then (if s.chState p ch = .draining then s else s.setChState p ch .stalled)
    else s.askNext p ch a

/-- A descriptor as voted: NOT_OWNED, BAD_DESC, ADDR_FAULT, or the first step of its work. Only a descriptor of the ring is owned
by the die under R269, so OWN of a chained one is not looked at (R289). -/
def State.takeDesc (s : State) (p : PDie) (ch index : Nat) (bs : List Byte) : State :=
  let d := descOf bs
  let t := s.mapAct p ch index fun a => { a with
    desc := bs, first := if a.fetched = 0 then bs else a.first, fetched := a.fetched + 1, pos := 0, offs := []
    data := [], moved := 0, crc := crcInit d.crcsel, fetch := none }
  let addr := ((t.actAt p ch index).map (·.addr)).getD 0
  let chained := ((s.actAt p ch index).map fun a => decide (0 < a.fetched)).getD false
  if !d.own && !chained then t.endAct p ch index stNotOwned addr
  else if badDesc ch d then t.endAct p ch index stBadDesc addr
  else
    match t.addrFault p (t.chOwner p ch) d with
    | some a => t.endAct p ch index stAddrFault a
    | none =>
      let go := fun (st : ActStage) => State.nextRead (t.mapAct p ch index fun a => { a with stage := st, time := (s.port p).net.time }) p ch index
      if d.type = 1 ∨ d.type = 3 then go .ready
      else if d.type = 0 ∧ d.len = 0 then go .ready
      else if d.gather then (if d.count = 0 then t.endAct p ch index stZeroCount 0 else go .index)
      else if d.len = 0 then
        (if d.type = 2 then t.endAct p ch index stBadDesc addr else t.endAct p ch index stZeroLen 0)
      else go .data

/-- Broadcast of bytes by a channel into its owner's memory. -/
def State.dmaWrite (s : State) (p : PDie) (ch addr : Nat) (bs : List Byte) : State :=
  s.broadcast ⟨p, s.chOwner p ch, BitVec.ofNat 40 addr, bs, BitVec.ofNat 8 ch, none⟩

/-- Offsets of an index table. -/
def offsetsOf (bs : List Byte) : List Nat := (List.range (bs.length / 4)).map fun i => leAt bs (4 * i) 4

/-- Voted data of a copy channel is moved: written to its destination, but for CRC_ONLY, and taken into the CRC (R280 to R283). -/
def State.moveData (s : State) (p : PDie) (ch index : Nat) (bs : List Byte) : State :=
  match s.actAt p ch index with
  | none => s
  | some a =>
    let d := descOf a.desc
    let n := bs.length
    let dest := if d.gather then d.aux + a.moved else d.dst + a.moved
    let t := if d.type = 4 then s.dmaWrite p ch dest bs else s
    let t := t.mapAct p ch index fun a => { a with
      fetch := none, data := [], pos := a.pos + n, moved := a.moved + n, offs := a.offs.tail,
      crc := if d.crcen then crcRun d.crcsel a.crc bs else a.crc }
    let finished := if d.gather then a.offs.length ≤ 1 else d.len ≤ a.pos + n
    if finished then t.endAct p ch index stOk 0 else t.nextRead p ch index

/-- Voted data of an index table, a source range, an element, a payload or a CAN record. Data that a hold stalls waits with its
channel (R141). -/
def State.takeData (s : State) (p : PDie) (ch index : Nat) (bs : List Byte) : State :=
  match s.actAt p ch index with
  | none => s
  | some a =>
    let d := descOf a.desc
    let n := bs.length
    match a.stage with
    | .index =>
      let full := decide (4 * d.count ≤ a.pos + n)
      State.nextRead (s.mapAct p ch index fun a => { a with
        fetch := none, offs := a.offs ++ offsetsOf bs, pos := if full then 0 else a.pos + n,
        stage := if full then .data else .index }) p ch index
    | .data =>
      if isCopyCh ch then
        if s.copyStalled p ch then (s.mapAct p ch index fun a => { a with fetch := none, data := bs }).nextRead p ch index
        else s.moveData p ch index bs
      else
        let data := a.data ++ bs
        let t := s.mapAct p ch index fun a => { a with fetch := none, data := data, pos := a.pos + n }
        if a.pos + n < d.len then t.nextRead p ch index
        else if d.type = 2 ∧ badCanRec d.len (canRecOf data) = true then t.endAct p ch index stBadDesc a.addr
        else t.mapAct p ch index fun a => { a with stage := .ready, time := (s.port p).net.time }
    | _ => s

/-- An activation goes on after a wait: data that a hold kept is moved first. -/
def State.goOn (s : State) (p : PDie) (ch : Nat) (a : Act) : State :=
  if isCopyCh ch && !a.data.isEmpty && !s.copyStalled p ch then s.moveData p ch a.index a.data
  else s.nextRead p ch a.index

/-- The data of a decided fetch unit goes to its activation, which ends with ECC_FAIL when the fetch buffer's copy has an
uncorrectable error (R289). -/
def State.useFetch (s : State) (p : PDie) (f : Fetch) (bs : List Byte) (ue : Bool) : State :=
  match s.actAt p f.ch f.index with
  | some a =>
    if a.fetch ≠ some f.id then s
    else if ue then s.endAct p f.ch f.index stEccFail f.addr
    else if a.stage = .desc then s.takeDesc p f.ch f.index bs else s.takeData p f.ch f.index bs
  | none => s

/-! ### Starting descriptors (R271, R277 to R281) -/

/-- How many descriptors a channel holds at once (R277, R278; log entry 19 for the CAN rings). -/
def lookahead (ch : Nat) : Nat :=
  if isKtnTx ch || isCanTx ch then 2 else if isKtnRx ch || isCanRx ch then 4 else 1

/-- `DESC_LIMIT` (R281). -/
def State.descLimit (s : State) (p : PDie) : Nat := min 4096 (max 1 (s.fld p.unit Reg.dmCfg 12 0))

/-- The doorbell that handed the next descriptor over, and the rest that it and later ones did. -/
def popHanded : List (Option Word × Nat) → Option Word × List (Option Word × Nat)
  | [] => (none, [])
  | (o, n) :: rest => (o, if n ≤ 1 then rest else (o, n - 1) :: rest)

/-- DESCRIPTOR_START: the next descriptor of the ring is fetched, or a read that had to wait goes out. -/
def execDescriptorStart (p : PDie) (ch : Nat) (s : State) : Out :=
  let c := s.chan p ch
  let st := s.chState p ch
  .next (if !(s.consumer (Die.ofPDie p)).running || s.mainQuiesced p || decide (28 ≤ ch) then s
  else
    match c.acts.find? fun a => a.fetch.isNone && (a.stage == .desc || a.stage == .index || a.stage == .data) with
    | some a =>
      if st = .running ∨ st = .draining then s.goOn p ch a
      else if st = .stalled ∧ s.copyStalled p ch = false then (s.setChState p ch .running).goOn p ch a
      else s
    | none =>
      let i := (s.chHead p ch + c.acts.length) % c.size
      if (st = .idle ∨ st = .running) ∧ s.quiesceStops p (s.chOwner p ch) true = false ∧ c.acts.length < lookahead ch ∧ (c.acts.all fun a => !halting a.status) = true ∧
          c.acts.length < (s.chTail p ch + c.size - s.chHead p ch) % c.size then
        let h := popHanded c.handed
        let a : Act := { emptyAct with index := i, addr := c.base + 32 * i, limit := s.descLimit p, need := h.1 }
        ((s.setChan p ch { c with acts := c.acts ++ [a], handed := h.2 }).setChState p ch .running).nextRead p ch i
      else s)

/-! ### Completion (R286 to R290) -/

/-- COUNT of the write-back (R288). -/
def countOf (d : Desc) (a : Act) (st : Nat) : Nat :=
  if d.type = 1 ∨ d.type = 3 then a.moved
  else if d.type = 0 ∨ d.type = 2 then (if st = stOk then 0 else d.len)
  else if d.gather then d.count - a.moved / (d.esize + 1)
  else d.len - a.moved

/-- The CRC that the write-back and the CRC store give (R283). -/
def resultCrc (d : Desc) (a : Act) : Dword :=
  if !d.crcen then 0
  else if a.status = stZeroLen ∨ a.status = stZeroCount then crcInit d.crcsel
  else crcFinal d.crcsel a.crc

/-- The 32 bytes of a write-back (R288), with the status and the address that it gives. -/
def writeBack (d : Desc) (a : Act) (st err : Nat) : List Byte :=
  let irq := halting st || d.irq
  let copy := d.type = 4 ∨ d.type = 5
  let crc := resultCrc d a
  leBytes 4 (d.type * 2 ^ 28 + bitNat irq * 2 ^ 27 + st) ++ leBytes 4 (countOf d a st) ++ leBytes 8 a.time.toNat ++
  leBytes 4 (if copy then (loWord crc).toNat else a.info0.toNat) ++
  leBytes 4 (if copy then (hiWord crc).toNat else a.info1.toNat) ++
  (if d.type = 1 then leBytes 4 a.info2.toNat ++ leBytes 4 0 else leBytes 8 (if halting st then err else 0))

/-- The write-back of a descriptor that could not be fetched: the manual states no TYPE, and no count of what was not moved, for
it, so both are free (log entry 137). -/
def unfetchedBack (free : Dword) (ch : Nat) (time : Dword) (st err : Nat) : List Byte :=
  leBytes 4 (fieldOf (loWord free) 2 0 * 2 ^ 28 + 2 ^ 27 + st) ++
  leBytes 4 (if isKtnRx ch || isCanRx ch then 0 else fieldOf (loWord free) 26 3) ++ leBytes 8 time.toNat ++ leBytes 8 0 ++
  (if isKtnRx ch then leBytes 8 0 else leBytes 8 err)

/-- The channel's vector offset is its number (R177); the occurrence follows the write (R109). -/
def State.wbOcc (s : State) (p : PDie) (ch : Nat) (wanted : Bool) : State × Option (Strand × Occ) :=
  let d := Die.ofPDie p
  let k := s.chOwner p ch
  let off := if 20 ≤ ch then ch + 2 else ch
  let v := 32 + 64 * p.idx + off
  if wanted && s.vectorFitted v then (s.countOcc d k, some (k, s.nextOcc d k v)) else (s, none)

/-- Whether the write-back of a ring descriptor raises the channel's vector (R287). -/
def wantsEvent (ch : Nat) (d : Desc) (st : Nat) : Bool :=
  if isKtnTx ch || isKtnRx ch then halting st || d.irq else true

/-- A write-back of one descriptor. -/
def State.putWb (s : State) (p : PDie) (ch addr : Nat) (bs : List Byte) (a : Act) (event : Bool) : State :=
  let r := s.wbOcc p ch event
  r.1.sendWb p ⟨⟨p, s.chOwner p ch, BitVec.ofNat 40 addr, bs, BitVec.ofNat 8 ch, r.2⟩, some (a.index, a.lastFetch)⟩

/-- The enable of R268: the ring lies in the owner's partition, and no Gallery PDU binds it (R300). -/
def State.enableChan (s : State) (p : PDie) (ch : Nat) (bound : Bool) : State :=
  let lg := min 12 (max 4 (s.fld p.unit (Reg.dmRcfg ch) 3 0))
  let size := 2 ^ lg
  let base := (s.reg64 p.unit (Reg.dmBaseLo ch)).toNat
  if bound || placeOf (s.chOwner p ch) base (32 * size) != .partition || base % 4096 != 0 then
    (s.setFlag p.unit (Reg.dmCtl ch) 0 false).setFlag p.unit (Reg.dmStat ch) 20 true
  else
    let t := (s.setFlag p.unit (Reg.dmCtl ch) 0 true).setFlag p.unit (Reg.dmStat ch) 20 false
    let t := (t.setReg p.unit (Reg.dmIdx ch) 0).setChState p ch .idle
    t.setChan p ch { t.chan p ch with acts := [], base := base, size := size, again := false, handed := [] }

/-- A valid KTN_TX PDU binds the ring to the Gallery (R300). -/
def State.ringBound (s : State) (p : PDie) (r : Nat) : Option Nat :=
  if r < 8 then
    ((s.port p).gw.pdus.map (·.pdu)).find? fun n =>
      s.flag p.unit (Reg.gwPduCfg n) 31 && s.fld p.unit (Reg.gwPduCfg n) 30 28 == 4 &&
        s.fld p.unit (Reg.gwPduKey n) 2 0 == r
  else none

/-- Acts that did not end go back to the descriptors handed over, for a RESUME (R290). -/
def handBack (acts : List Act) (handed : List (Option Word × Nat)) : List (Option Word × Nat) :=
  acts.map (fun a => (a.need, 1)) ++ handed

/-- After a write-back: HEAD advances, DONE counts, and the channel goes on, drains or halts. -/
def State.afterWb (s : State) (p : PDie) (ch : Nat) (a : Act) (st : Nat) : State :=
  let c := s.chan p ch
  let head := (a.index + 1) % c.size
  let rest := c.acts.filter fun b => b.index != a.index
  let t := (s.setFld p.unit (Reg.dmIdx ch) 11 0 head).bumpWrap p.unit (Reg.dmCnt ch) 15 0
  if halting st then
    let t := (t.setChan p ch { c with acts := [], handed := handBack rest c.handed }).dropUndecided p ch none
    let t := (t.setChState p ch .halted).setFld p.unit (Reg.dmStat ch) 31 24 st
    let hi := withField (withField (0 : Word) 27 16 a.index) 7 0 (a.errAddr / 2 ^ 32)
    let t := (t.setReg p.unit (Reg.dmErrLo ch) (BitVec.ofNat 32 a.errAddr)).setReg p.unit (Reg.dmErrHi ch) hi
    t.releaseWbs p
  else
    let t := t.setActs p ch rest
    if t.chState p ch = .draining then
      if rest ≠ [] then t else
      let u := t.setChState p ch .off
      if c.again then u.enableChan p ch (u.ringBound p ch).isSome else u
    else if rest = [] ∧ t.chTail p ch = head then t.setChState p ch .idle
    else t

/-- What follows a descriptor of a chain: the next descriptor to fetch, or the status that ends the activation (R281). -/
inductive ChainStep where
  | fetch (addr : Nat)
  | finish (st err : Nat)
deriving DecidableEq, Repr

def chainStep (d : Desc) (a : Act) : ChainStep :=
  if !d.chain || halting a.status then .finish a.status a.errAddr
  else if a.limit ≤ a.fetched then .finish stChainLimit a.addr
  else .fetch d.aux

/-- The queue of write-backs held for one replica in step of the channel's owner is full (R108). -/
def State.wbFull (s : State) (p : PDie) (ch : Nat) : Bool :=
  let k := s.chOwner p ch
  Lane.list.any fun l => decide (512 ≤ (((s.port p).heldWb.get l).filter fun h => h.w.strand == k).length)

/-- The last bytes of a ring descriptor's own write-back: its fields as kept, with the status that ended the chain. -/
def ringBack (first wb : List Byte) (st err : Nat) : List Byte :=
  let fd := descOf first
  leBytes 4 (fd.type * 2 ^ 28 + bitNat (halting st || fd.irq) * 2 ^ 27 + st) ++ slice wb 4 20 ++
    leBytes 8 (if halting st then err else 0)

/-- The write-back of a chained descriptor, also of one that could not be fetched (R281, R290). -/
def State.putChained (s : State) (p : PDie) (ch : Nat) (a : Act) : State :=
  if a.desc = [] then s.useFree.putWb p ch a.addr (unfetchedBack s.freeVal ch a.time a.status a.errAddr) a false
  else s.putWb p ch a.addr (writeBack (descOf a.desc) a a.status a.errAddr) a false

/-- The activation at the head that has ended is written back, or its chain goes on (R281, R286 to R290). -/
def State.completeAct (s : State) (p : PDie) (ch : Nat) (a : Act) : State :=
  let d := descOf a.desc
  let a := if isCopyCh ch then { a with time := (s.port p).net.time } else a
  let ringAddr := (s.chan p ch).base + 32 * a.index
  let onRing := a.addr = ringAddr
  -- The CRC store precedes the write-back (R286).
  let t := if d.crcdst && !halting a.status then
    s.dmaWrite p ch d.aux (leBytes (crcBytes d) (resultCrc d a).toNat) else s
  match chainStep d a with
  | .fetch next =>
    let t := if onRing then t.mapAct p ch a.index fun b => { b with wb := writeBack d a a.status a.errAddr }
      else t.putChained p ch a
    State.nextRead (t.mapAct p ch a.index fun b => { b with stage := .desc, addr := next, desc := [], fetch := none }) p ch a.index
  | .finish st err =>
    let t := if onRing then t else t.putChained p ch a
    let t := if onRing ∧ a.desc = [] then t.useFree else t
    let own :=
      if onRing then
        (if a.desc = [] then unfetchedBack s.freeVal ch a.time st err else writeBack d a st err)
      else ringBack a.first a.wb st err
    let wants := if onRing ∧ a.desc = [] then true else wantsEvent ch (descOf a.first) st
    (t.putWb p ch ringAddr own a wants).afterWb p ch { a with status := st, errAddr := err } st

/-- The activation at the head, when it has ended. After a split at the die nothing but the descriptor that a VOTE_FAIL ended is
written back (R104). -/
def State.completeDesc (s : State) (p : PDie) (ch : Nat) : State :=
  match (s.chan p ch).acts with
  | [] => s
  | a :: _ =>
    if a.stage ≠ .done ∨ s.wbFull p ch = true ∨
      (s.voterHalted (Die.ofPDie p) (s.chOwner p ch) = true ∧ a.status ≠ stVoteFail) then s
    else s.completeAct p ch a

/-- Activations that have ended are written back in the order of the ring, as long as the queues take them (R108). -/
def State.completeList (s : State) (p : PDie) (ch : Nat) : List Act → State
  | [] => s
  | a :: rest =>
    if s.wbFull p ch then s.setActs p ch (a :: rest)
    else State.completeList ((s.setActs p ch (if halting a.status then [a] else a :: rest)).completeAct p ch a) p ch rest

/-- The activation at a fetch unit whose three copies differ is written back with VOTE_FAIL, before the strand halts (R104). What
has ended ahead of it in the ring is written back first; what has not is in progress when the strand halts (R293). -/
def State.voteFail (s : State) (p : PDie) (f : Fetch) : State :=
  match s.actAt p f.ch f.index with
  | some a =>
    if a.fetch ≠ some f.id then s
    else
      let ahead := ((s.chan p f.ch).acts.takeWhile fun b => b.index != f.index).filter fun b => b.stage == .done
      s.completeList p f.ch (ahead ++ [endedAct stVoteFail f.addr a])
  | none => s

/-- DESCRIPTOR_COMPLETE (R286 to R290). A copy channel that a hold stalls writes nothing back meanwhile (R293). -/
def execDescriptorComplete (p : PDie) (ch : Nat) (s : State) : Out :=
  .next (if (s.consumer (Die.ofPDie p)).running && decide (ch < 28) && !s.copyStalled p ch then s.completeDesc p ch else s)

/-! ### The comparator's decisions and the copies (R104, R105, R285) -/

/-- The comparator's decision once a copy has been added to those held (R104). -/
def State.decideFetch (s : State) (p : PDie) (f : Fetch) (ue : Bool) : State :=
  let d := Die.ofPDie p
  let k := f.strand
  let ord := (s.voter d k).next
  let two := decide (f.parties.length ≤ 2)
  match f.kept, f.copies with
  | some c, cs =>
    match cs.getLast? with
    | some (l, z) =>
      if crc64 z = c then (if Lane.list.any fun x => f.awaits x then s else s.endFetch p f.id)
      else if two then s.voterSplit d k .diverge2oo2 ord
      else (s.endFetch p f.id).voterExclude d k l .fetchOdd ord
    | none => s
  | none, [(_, x), (_, y)] =>
    if x = y then
      (if two then s.endFetch p f.id else s.putFetch p { f with kept := some (crc64 x) }).useFetch p f x ue
    else if two then s.voterSplit d k .diverge2oo2 ord
    else s
  | none, [(l1, x), (l2, y), (_, z)] =>
    let t := s.endFetch p f.id
    if z = x then (t.voterExclude d k l2 .fetchOdd ord).useFetch p f x ue
    else if z = y then (t.voterExclude d k l1 .fetchOdd ord).useFetch p f y ue
    else (t.voteFail p f).voterSplit d k .voteFail ord
  | none, _ => s

def State.findFetch (s : State) (p : PDie) (k : Strand) (id : Nat) : Option Fetch :=
  (s.port p).fetches.find? fun f => f.id == id && f.strand == k

/-- The read that a die sent to a lane for a fetch unit. -/
def State.readSent (s : State) (p : PDie) (id : Nat) (l : Lane) : Option Wire :=
  (s.vcQueue l (Die.ofPDie p) true .request).find? fun w => match w with
    | .fetchRead l' p' id' _ => l' == l && p' == p && id' == id
    | _ => false

/-- FETCH_COPY_ARRIVE (R104, R105, R168, R284): the read of a fetch unit takes the bytes that the replica's lane memory holds
to the comparator, behind the posted writes sent before it. A poisoned range returns no copy (log entry 136). -/
def execFetchCopyArrive (p : PDie) (k : Strand) (id : Nat) (l : Lane) (ue : Bool) (s : State) : Out :=
  .next (match s.readSent p id l with
    | none => s
    | some w =>
      if !s.mayArrive w then s
      else
        let t := s.arrive w
        match t.findFetch p k id with
        | none => t
        | some f =>
          if (t.consumer (Die.ofPDie p)).running && f.outAt l && !t.poisoned l f.addr f.len then
            let g := { f with
              copies := f.copies ++ [(l, memRead (t.lane l).mem f.addr f.len)]
              since := if f.copies.length = 1 then t.ns else f.since }
            (((t.putFetch p g).decideFetch p g ue).askCopies p k).releaseWbs p
          else t.askCopies p k)

/-- FETCH_SKEW_TIMEOUT (R104): the third copy has not come within `SKEW_LIMIT`. -/
def execFetchSkewTimeout (p : PDie) (k : Strand) (id : Nat) (s : State) : Out :=
  let d := Die.ofPDie p
  .next (match s.findFetch p k id with
    | none => s
    | some f =>
      match f.parties.length, f.copies, Lane.list.find? fun l => f.awaits l with
      | 3, [_, _], some x =>
        if f.since + s.dieSkewNs d k ≤ s.ns then s.voterExclude d k x .late (s.voter d k).next else s
      | _, _, _ => s)

/-- DMA_BUS_TIMEOUT (R285): a lane's memory returned nothing within 10 µs; the read is not sent again. -/
def execDmaBusTimeout (p : PDie) (k : Strand) (id : Nat) (l : Lane) (s : State) : Out :=
  .next (match s.findFetch p k id with
    | none => s
    | some f =>
      if f.outAt l && decide (f.askedAt.get l + 10000 ≤ s.ns) then
        (s.putFetch p { f with missing := f.missing ++ [l] }).failHopeless p k
      else s)

/-! ### Received data (R278, R279) -/

/-- Hold-buffer bytes reserved for the write-backs of frames sent or received whose descriptors are not written back yet (R141). -/
def State.holdReserved (s : State) (p : PDie) : Nat :=
  match (s.port p).hold with
  | none => 0
  | some k => 32 * ((List.range 20).flatMap fun ch =>
      if s.chOwner p ch = k then (s.chan p ch).acts.filter fun a => a.stage == .done else []).length

/-- A die has room in its hold buffer for `n` bytes of a strand's memory, or does not hold that memory (R141). -/
def State.holdRoom (s : State) (p : PDie) (k : Strand) (n : Nat) : Bool :=
  (s.port p).hold != some k || decide (s.holdUsed p + s.holdReserved p + n ≤ holdSize)

/-- Data received for an RX ring: it takes the oldest descriptor, ready at the start of the frame, or counts as an overrun (R271,
R278, R279). An uncorrectable error in the frame buffer writes nothing and ends the descriptor with ECC_FAIL (R289). -/
def State.rxDeliver (s : State) (p : PDie) (ch : Nat) (bs : List Byte) (time : Dword) (i0 i1 i2 : Word) (ue : Bool) : State :=
  let full := s.bump p.unit (Reg.dmCnt ch) 23 16
  let st := s.chState p ch
  match firstOpen (s.chan p ch).acts with
  | some a =>
    let d := descOf a.desc
    let n := min bs.length d.len
    if a.stage != .ready || decide (time.toNat < a.time.toNat) || !(st == .idle || st == .running) ||
        !s.holdRoom p (s.chOwner p ch) (n + 32) then full
    else if ue then s.endAct p ch a.index stEccFail d.dst
    else
      let t := if n = 0 then s else s.dmaWrite p ch d.dst (bs.take n)
      t.mapAct p ch a.index fun b => { b with
        stage := .done, status := if d.len < bs.length then stRxTrunc else stOk, moved := n, time := time
        info0 := i0, info1 := i1, info2 := i2 }
  | none => full

/-! ### Channel registers (R267 to R270, R290, R293) -/

/-- Channel registers are written by management before the release and by the owner after it. -/
def State.chanWriter (s : State) (m : Master) (p : PDie) (ch : Nat) : Bool :=
  let rel := Strand.list.any fun k => s.released.get k
  match m with
  | .mgmt => s.mOn && !rel
  | .strand k => rel && k == s.chOwner p ch
  | _ => false

/-- EN of `DM_CTL` is written 1. -/
def State.writeEn1 (s : State) (p : PDie) (ch : Nat) : State :=
  if s.chState p ch = .off then s.enableChan p ch (s.ringBound p ch).isSome
  else if s.chState p ch = .draining then
    (s.setFlag p.unit (Reg.dmCtl ch) 0 true).setChan p ch { s.chan p ch with again := true }
  else s

/-- What is in progress on a channel when EN is written 0 (R293): the activations that have ended and are not written back yet,
else the one at the head; an RX descriptor that no frame has taken is not in progress. -/
def inProgress (ch : Nat) (acts : List Act) : List Act :=
  let ended := acts.takeWhile fun a => a.stage == .done
  if ended = [] ∧ (isKtnRx ch || isCanRx ch) = false then acts.take 1 else ended

/-- EN of `DM_CTL` is written 0: what is in progress completes (R293). -/
def State.writeEn0 (s : State) (p : PDie) (ch : Nat) : State :=
  let st := s.chState p ch
  let t := s.setFlag p.unit (Reg.dmCtl ch) 0 false
  let keep := inProgress ch (s.chan p ch).acts
  if st = .off then t
  else if st = .draining then t.setChan p ch { t.chan p ch with again := false }
  else if st ≠ .halted ∧ keep ≠ [] then
    ((t.setActs p ch keep).dropUndecided p ch (keep.head?.map (·.index))).setChState p ch .draining
  else ((t.setChan p ch { t.chan p ch with acts := [], again := false, handed := [] }).dropUndecided p ch none).setChState p ch .off

/-- RESUME (R290). -/
def State.writeResume (s : State) (p : PDie) (ch : Nat) : State :=
  if s.chState p ch = .halted then
    s.setChState p ch (if s.chHead p ch = s.chTail p ch then .idle else .running)
  else s

/-- A write of `DM_CTL[ch]`. -/
def State.dmCtlWrite (s : State) (m : Master) (p : PDie) (ch : Nat) (v : Word) : State :=
  if !s.chanWriter m p ch then s.ignored p.unit (Reg.dmCtl ch) m
  else
    let t := if bitOf v 1 then s.writeResume p ch else s
    if bitOf v 0 then t.writeEn1 p ch else t.writeEn0 p ch

/-- The ordinal of the beat that a die has just released for a strand: the one before its next. -/
def State.releasedOrd (s : State) (p : PDie) : Master → Option Word
  | .strand k => some ((s.voter (Die.ofPDie p) k).next - 1)
  | _ => none

/-- A released doorbell (R270). -/
def State.doorbell (s : State) (m : Master) (p : PDie) (ch : Nat) (v : Word) : State :=
  if !s.chanWriter m p ch then s.ignored p.unit (Reg.dmDb ch) m
  else
    let c := s.chan p ch
    let st := s.chState p ch
    let T := fieldOf v 11 0
    let head := s.chHead p ch
    let tail := s.chTail p ch
    let ok := (st == .idle || st == .running || st == .halted) && decide (T < c.size) &&
      decide ((T + c.size - tail) % c.size ≤ (head + 2 * c.size - tail - 1) % c.size) && (s.ringBound p ch).isNone
    if ok then
      let n := (T + c.size - tail) % c.size
      let t := s.setFld p.unit (Reg.dmIdx ch) 27 16 T
      if n = 0 then t else t.setChan p ch { c with handed := c.handed ++ [(s.releasedOrd p m, n)] }
    else s.bump p.unit (Reg.dmCnt ch) 31 24

def State.chanThere (s : State) (p : PDie) (ch : Nat) : Bool :=
  (s.consumer (Die.ofPDie p)).running && decide (ch < 28) && (s.canFitted || !(isCanTx ch || isCanRx ch))

/-- A command of a master at a register of a channel. -/
def State.atChan (s : State) (m : Master) (p : PDie) (ch off : Nat) (t : State) : State :=
  if ch < 28 then s.atUnit m p.unit off (if s.chanThere p ch then t else s) else s

/-- DMA_ENABLE (R268). -/
def execDmaEnable (m : Master) (p : PDie) (ch : Nat) (s : State) : Out :=
  .next (s.atChan m p ch (Reg.dmCtl ch) (s.dmCtlWrite m p ch 1))

/-- DMA_DISABLE (R293). -/
def execDmaDisable (m : Master) (p : PDie) (ch : Nat) (s : State) : Out :=
  .next (s.atChan m p ch (Reg.dmCtl ch) (s.dmCtlWrite m p ch 0))

/-- RESUME (R290): RESUME is written with EN at its present value. -/
def execResume (m : Master) (p : PDie) (ch : Nat) (s : State) : Out :=
  .next (s.atChan m p ch (Reg.dmCtl ch)
    (s.dmCtlWrite m p ch (2 + BitVec.ofNat 32 (bitNat (s.flag p.unit (Reg.dmCtl ch) 0)))))

/-- DMA_DOORBELL (R269, R270): a doorbell as it is released. -/
def execDmaDoorbell (m : Master) (p : PDie) (ch : Nat) (data : Word) (s : State) : Out :=
  .next (s.atChan m p ch (Reg.dmDb ch)
    (if s.chanWriter m p ch && fieldOf data 31 12 != 0 then s.logRsvd p.unit (Reg.dmDb ch) m
    else s.doorbell m p ch data))

/-! ### Quiesce (R291, R292) -/

/-- A fetch unit's read of a domain is outstanding: any read for the die's own main island (0), else a read of the lane's memory. -/
def Fetch.touches (f : Fetch) (domain : Nat) : Bool :=
  if domain = 0 then Lane.list.any fun l => f.outAt l
  else match Lane.ofIdx (domain - 1) with
    | some l => f.outAt l
    | none => false

/-- A copy channel is in the middle of an activation that a hold stalls (R292). -/
def State.stalledAct (s : State) (p : PDie) (ch : Nat) : Bool :=
  s.copyStalled p ch && !(s.chan p ch).acts.isEmpty

/-- An access of the die to a domain is outstanding: a read, a stalled copy, or a broadcast write on its way to the lane (R291,
R292). -/
def State.accessOut (s : State) (p : PDie) (domain : Nat) : Bool :=
  ((s.port p).fetches.any fun f => f.touches domain) || ((List.range 28).any fun ch => s.stalledAct p ch) ||
    match Lane.ofIdx (domain - 1) with
    | some l => domain != 0 && (s.vcQueue l (Die.ofPDie p) true .posted).any fun w => match w with
        | .broadcast _ _ => true
        | _ => false
    | none => false

/-- A write of `DM_QUIESCE`. -/
def State.quiesceWrite (s : State) (m : Master) (p : PDie) (v : Word) : State :=
  let off := Reg.dmQuiesce
  if m ≠ .mgmt ∨ 3 < fieldOf v 2 0 then s.ignored p.unit off m
  else
    let t := if bitOf v 12 then
      ((s.setFlag p.unit off 9 false).setFlag p.unit off 10 false).setFlag p.unit off 11 false else s
    let t := if t.flag p.unit off 9 then t else t.setFld p.unit off 2 0 (fieldOf v 2 0)
    if bitOf v 9 && !t.flag p.unit off 9 then
      let t := ((t.setFlag p.unit off 9 true).setFlag p.unit off 10 false).setFlag p.unit off 11 false
      let t := t.setPort p { t.port p with quiesceAt := t.ns }
      -- Reads not sent yet to a quiesced lane are missing copies (R291).
      Strand.list.foldl (fun t k => t.askCopies p k) t
    else t

/-- QUIESCE_REQUEST (R291). -/
def execQuiesceRequest (p : PDie) (domain : BitVec 3) (s : State) : Out :=
  .next (if s.mOn && (s.consumer (Die.ofPDie p)).running then
    s.quiesceWrite .mgmt p (BitVec.ofNat 32 (0x200 + domain.toNat)) else s)

/-- An activation has an access to a domain outstanding. -/
def State.abortHit (s : State) (p : PDie) (ch domain : Nat) (a : Act) : Bool :=
  s.stalledAct p ch ||
    (a.stage != .done && (s.port p).fetches.any (fun f => f.ch == ch && f.index == a.index && f.touches domain))

/-- Address that a POWER_ABORT latches: that of the unit whose read is outstanding, else of the descriptor (log entry 141). -/
def State.abortAddr (s : State) (p : PDie) (ch domain : Nat) (a : Act) : Nat :=
  match (s.port p).fetches.find? fun f => f.ch == ch && f.index == a.index && f.touches domain with
  | some f => f.addr
  | none => a.addr

/-- Every activation of a channel with an access to the domain outstanding ends with POWER_ABORT, those behind the last of them go
back, and the channel halts with the write-backs, in the order of the ring (R292). An unfinished one ahead of them in the ring ends
with them (DESIGN CHOICE, log entry 166). -/
def State.abortChan (s : State) (p : PDie) (ch domain : Nat) : State :=
  let c := s.chan p ch
  let n := c.acts.length - (c.acts.reverse.takeWhile fun a => !s.abortHit p ch domain a).length
  if n = 0 then s
  else
    let ended := (c.acts.take n).map fun a =>
      if a.stage == .done && (halting a.status || !s.stalledAct p ch) then a
      else endedAct stPowerAbort (s.abortAddr p ch domain a) a
    (s.setChan p ch { c with acts := ended, handed := handBack (c.acts.drop n) c.handed }).completeList p ch ended

/-- Descriptors with an access to the domain outstanding end with POWER_ABORT, and their channels halt (R292). -/
def State.powerAbort (s : State) (p : PDie) (domain : Nat) : State :=
  let t := (List.range 28).foldl (fun t ch => t.abortChan p ch domain) s
  let fs := (t.port p).fetches.map fun f =>
    if f.touches domain then { f with missing := f.missing ++ Lane.list.filter (fun l =>
      f.outAt l && (domain == 0 || domain == l.idx + 1)) } else f
  (t.setPort p { t.port p with fetches := fs }).releaseWbs p

/-- QUIESCE_RELEASE (R292). -/
def execQuiesceRelease (p : PDie) (s : State) : Out :=
  .next (if s.mOn && (s.consumer (Die.ofPDie p)).running then
    s.quiesceWrite .mgmt p (0x1000 + BitVec.ofNat 32 (s.fld p.unit Reg.dmQuiesce 2 0)) else s)

end Sys2Proof.Machine
end

