-- ==== Sys2Proof/Machine/KtnBase.lean ====
section
/-! DEFINITION. What a KTN channel controller and a guardian share (R253): their tables, frames (R189 to R195), the
acceptance test (R251), integration (R219), synchronisation (R241 to R249), inauguration (R225 to R229) and
link delays (R236 to R238). -/

namespace Sys2Proof.Machine

/-- A KTN node's time keeper: the channel controller of a port die, or the guardian a port die hosts, which watches
the other die's channel. -/
inductive NetId where
  | ctl (p : PDie)
  | gd (p : PDie)
deriving DecidableEq, Repr

/-- The die that holds the keeper, and the die whose channel it keeps. -/
def NetId.host : NetId → PDie
  | .ctl p => p
  | .gd p => p
def NetId.channel : NetId → PDie
  | .ctl p => p
  | .gd p => p.other

/-- A guardian's copy of a `TT_` register lies at 0x0310_0000 plus its offset less 0x0100_0000. -/
def NetId.key : NetId → Nat → Nat
  | .ctl _, off => off
  | .gd _, off => off + 0x2100000

def State.net (s : State) : NetId → Net
  | .ctl p => (s.port p).net
  | .gd p => (s.port p).guard.net

/-- A `TT_` register of a keeper's own set, and one of its fields. -/
def State.tt (s : State) (n : NetId) (off : Nat) : Word := s.reg n.host.unit (n.key off)
def State.ttf (s : State) (n : NetId) (off hi lo : Nat) : Nat := fieldOf (s.tt n off) hi lo

/-! ### Settings in force -/

def State.ttEn (s : State) (n : NetId) : Bool := bitOf (s.tt n Reg.ttCfg) 7
def State.ttIdsrc (s : State) (n : NetId) : Bool := bitOf (s.tt n Reg.ttCfg) 4
def State.ttCsNode (s : State) (n : NetId) : Bool := bitOf (s.tt n Reg.ttCfg) 3
def State.ttSyncNode (s : State) (n : NetId) : Bool := bitOf (s.tt n Reg.ttCfg) 2
/-- `ACCEPT_WIN` in ns. -/
def State.acceptWin (s : State) (n : NetId) : Nat := s.ttf n Reg.ttTimeCfg 31 21
/-- `MODE_ALIGN`, `INAUG_ROUND` (R212, R224). -/
def State.modeAlign (s : State) (n : NetId) : Nat := 2 ^ s.ttf n Reg.ttTimeCfg 20 18
def State.inaugRound (s : State) (n : NetId) : Nat := 2 ^ s.ttf n Reg.ttTimeCfg 6 3
def State.startMode (s : State) (n : NetId) : Nat := s.ttf n Reg.ttTimeCfg 9 7

/-- The 8 entries of a list register pair. -/
def State.idList (s : State) (n : NetId) (r : Nat → Nat) : List Nat :=
  (List.range 8).map fun i => s.ttf n (r (i / 4)) (8 * (i % 4) + 7) (8 * (i % 4))
def State.syncList (s : State) (n : NetId) : List Nat := s.idList n Reg.ttSynclist
def State.csList (s : State) (n : NetId) : List Nat := s.idList n Reg.ttCslist
def State.authList (s : State) (n : NetId) : List Nat := s.idList n Reg.ttAuth

/-- A non-zero ID stands in a list. -/
def listed (xs : List Nat) (i : Nat) : Bool := i != 0 && xs.contains i

def State.modeValid (s : State) (n : NetId) (m : Nat) : Bool := bitOf (s.tt n (Reg.ttModeCyc m)) 31
/-- Cycle length of a mode in ns. -/
def State.cycleNs (s : State) (n : NetId) (m : Nat) : Nat := 1000 * s.ttf n (Reg.ttModeCyc m) 15 0
def State.nslot (s : State) (n : NetId) (m : Nat) : Nat := s.ttf n (Reg.ttModeCyc m) 26 16

/-- A slot entry (R200), with times in ns. -/
structure Slot where
  num : Nat
  start : Nat
  owner : Nat
  len : Nat
  pmax : Nat
  cls : Nat
  ring : Nat
  mgown : Bool
  rx : Bool
  valid : Bool
deriving DecidableEq, Repr

def slotOf (i : Nat) (lo hi : Word) : Slot :=
  ⟨i, 8 * fieldOf lo 31 8, fieldOf lo 7 0, 8 * fieldOf hi 31 20, fieldOf hi 19 9, fieldOf hi 8 6, fieldOf hi 5 3,
   bitOf hi 2, bitOf hi 1, bitOf hi 0⟩

/-- Classes of R200. -/
def clsSync : Nat := 1
def clsLease : Nat := 2
def clsMirror : Nat := 3
def clsMgmt : Nat := 4
def clsInaug : Nat := 5

def State.slot (s : State) (n : NetId) (m i : Nat) : Slot :=
  slotOf i (s.tt n (Reg.ttSlotLo m i)) (s.tt n (Reg.ttSlotHi m i))

/-- The valid slots of a mode, in order. -/
def State.slots (s : State) (n : NetId) (m : Nat) : List Slot :=
  ((List.range (s.nslot n m)).map fun i => s.slot n m i).filter fun x => x.valid

/-- The slot of a number, when the mode in force has it. -/
def State.slotInForce (s : State) (n : NetId) (i : Nat) : Option Slot :=
  let m := (s.net n).mode
  if i < s.nslot n m ∧ (s.slot n m i).valid = true then some (s.slot n m i) else none

/-! ### Mirror registers -/

def NetPhase.code : NetPhase → Nat
  | .off => 0
  | .listen => 1
  | .coldstart => 2
  | .backoff => 3
  | .integrate => 4
  | .adopted => 5
  | .active => 6
  | .holdover => 7

/-- A quotient whose rounding the manual does not give (log entry 17). -/
def quot (x : Int) (d : Nat) : Int :=
  if x % (d : Int) = 0 then x / (d : Int) else x / (d : Int) + (if Config.roundUp x d then 1 else 0)

/-- A number in 16 bits, two's complement, saturating. -/
def sat16 (x : Int) : Nat := (BitVec.ofInt 16 (max (-32768) (min 32767 x))).toNat

/-- Indexes of the members of the active sync set in the present cycle: accepted in both of the two preceding cycles
(R209, log entry 18). -/
def activeSet (x : Net) (ids : List Nat) : List Nat :=
  (List.range 8).filter fun i =>
    match x.syncs[i]?, ids[i]? with
    | some r, some d => d != 0 && r.acc.contains (x.cycle - 1) && r.acc.contains (x.cycle - 2)
    | _, _ => false

def emptySyncRec : SyncRec := ⟨[], [], [], none, none, none, none⟩

def LinkPhase.code : LinkPhase → Nat
  | .provisional => 0
  | .measured => 1
  | .stale => 2
  | .down => 3

def syncWord (inSet : Bool) (r : SyncRec) : Word :=
  let w := withBit (withBit (0 : Word) 31 inSet) 30 r.dropAt.isSome
  match r.last with
  | some x => withField (withField (withBit w 29 (x.port == .east)) 28 22 x.hop) 15 0 (sat16 (quot x.offset 16))
  | none => w

/-- The designated mode for a node count (R229). -/
def State.designated (s : State) (n : NetId) (count : Nat) : Option Nat :=
  (List.range 8).find? fun m => s.modeValid n m && bitOf (s.tt n (Reg.ttModeSel m)) 31 &&
    decide (s.ttf n (Reg.ttModeSel m) 15 8 ≤ count) && decide (count ≤ s.ttf n (Reg.ttModeSel m) 23 16)

def inaugWord (x : Net) (desig : Option Nat) : Word :=
  let w := withBit (withBit (0 : Word) 31 (x.view == .ring)) 30 x.stable
  let w := withBit w 29 (match x.view with | .complete _ _ => true | _ => false)
  let w := withField (withField (withField w 27 20 x.count) 19 12 x.pos) 7 0 x.vseq.toNat
  match desig with
  | some m => withBit (withField w 11 9 m) 8 true
  | none => w

/-- A change is pending in the node's view until its cycle c: it accepts it, or its sync nodes agreed it (R210). -/
def openModeChange (c : ModeChange) : Bool := c.accepted || c.agreed
def pendingChange (x : Net) : Bool := match x.pend with | some c => openModeChange c | none => false

/-- The registers that show a controller's state. -/
def State.showCtl (s : State) (p : PDie) (x : Net) : State :=
  let u := p.unit
  let ids := s.syncList (.ctl p)
  let set := activeSet x ids
  let st := withField (withField (withField (withField (withField (0 : Word) 31 29 x.phase.code) 28 26 x.mode)
    23 16 x.id) 15 8 x.follow) 7 4 x.icount
  let t := (s.setReg u Reg.ttState st).setReg u Reg.ttCycle (BitVec.ofNat 32 x.cycle.toNat)
  let tstat := if x.phase = .active then 0 else if x.phase = .holdover then 1 else 2
  let mask := set.foldl (fun m i => m + 2 ^ i) 0
  let t := t.setReg u Reg.tbStat
    (withField (withField (withField (withField (0 : Word) 31 24 mask) 23 20 set.length) 19 18 tstat) 15 0 x.hcount)
  let t := t.setReg u Reg.tbRate (BitVec.ofInt 32 x.rate)
  let t := (List.range 8).foldl (fun t i =>
    t.setReg u (Reg.tbSync i) (syncWord (set.contains i) ((x.syncs[i]?).getD emptySyncRec))) t
  let t := Port.list.foldl (fun t q =>
    let l := x.links.get q
    ((t.setFld u (Reg.tbLink q.idx) 31 30 l.phase.code).setFld u (Reg.tbLink q.idx) 15 0 l.delay).setReg u
      (Reg.tbNbr q.idx) l.nbr) t
  let t := t.setReg u Reg.ttInaug (inaugWord x (if x.count = 0 then none else s.designated (.ctl p) x.count))
  let pend := x.pend.filter openModeChange
  let t := t.setFlag u Reg.ttModeStat 20 pend.isSome
  match pend with
  | some c => (t.setFld u Reg.ttModeStat 23 21 c.echo.target).setFld u Reg.ttModeStat 15 0 c.echo.cycle.toNat
  | none => (t.setFld u Reg.ttModeStat 23 21 0).setFld u Reg.ttModeStat 15 0 0

/-- STATE codes of `GD_STAT` (R254). -/
def Guard.code (g : Guard) : Nat :=
  if g.fenced then 7
  else if g.latched then 6
  else match g.net.phase with
    | .off => 0
    | .listen => 1
    | .coldstart => 2
    | .backoff => 2
    | .integrate => 3
    | .adopted => 3
    | .active => 4
    | .holdover => 5

def State.showGuard (s : State) (p : PDie) (g : Guard) : State :=
  let t := s.setFld p.unit Reg.gdStat 31 29 g.code
  (t.setFld p.unit Reg.gdStat 23 16 g.net.id).setFld p.unit Reg.gdStat 3 0
    (if g.net.phase = .coldstart then g.csCount else g.net.icount)

def State.setGuard (s : State) (p : PDie) (g : Guard) : State :=
  State.showGuard (s.setPort p { s.port p with guard := g }) p g

/-- A new state of a keeper, shown in its registers. -/
def State.setNet (s : State) (n : NetId) (x : Net) : State :=
  match n with
  | .ctl p => State.showCtl (s.setPort p { s.port p with net := x }) p x
  | .gd p => s.setGuard p { (s.port p).guard with net := x }

/-- `KTN_STATE` is raised by the channel controller alone (R177). -/
def State.ktnState (s : State) (n : NetId) : State :=
  match n with
  | .ctl p => s.raisePAll p 56
  | .gd _ => s

/-! ### Frames -/

/-- Bytes of a number in network byte order. -/
def beBytes (n v : Nat) : List Byte := (leBytes n v).reverse
/-- A number in network byte order at byte i of a list. -/
def beAt (bs : List Byte) (i n : Nat) : Nat := beNat (slice bs i n)

/-- Bytes 0 to 13 of the header (R190). -/
def headBytes (h : KHeader) : List Byte :=
  beBytes 4 (h.kind.toNat * 2 ^ 29 + h.mode.toNat * 2 ^ 26 + h.slot.toNat * 2 ^ 16 + h.sender.toNat * 2 ^ 8 +
    h.hop.toNat * 2 + bitNat h.rsv0) ++
  beBytes 2 h.cycle.toNat ++ beBytes 2 h.status.toNat ++ beBytes 4 h.corr.toNat ++
  beBytes 2 (h.ver.toNat * 2 ^ 12 + bitNat h.rsv3 * 2 ^ 11 + h.plen.toNat)

def withHcrc (h : KHeader) : KHeader := { h with hcrc := crc16 (headBytes h) }

/-- A frame's header passes R192. -/
def headerOk (f : KFrame) : Bool :=
  f.hdr.hcrc == crc16 (headBytes f.hdr) && f.hdr.ver == 1 && f.hdr.kind != 7 && decide (f.hdr.plen.toNat ≤ 1440) &&
    decide (f.hdr.plen.toNat ≤ f.payload.length) && f.hdr.sender != 255 && (f.hdr.sender != 0 || f.hdr.kind == 4)

/-- Kinds of R193. -/
def kindSync : BitVec 3 := 0
def kindCold : BitVec 3 := 1
def kindData : BitVec 3 := 2
def kindModeReq : BitVec 3 := 3
def kindInaug : BitVec 3 := 4
def kindMgmt : BitVec 3 := 5
def kindLease : BitVec 3 := 6

/-- The frame is a KTN frame of the keeper's channel (R187). -/
def State.isKtn (s : State) (n : NetId) (f : KFrame) : Bool :=
  !f.tagged && f.etype.toNat == s.ttf n Reg.ttCfg 31 16

/-- Payload fields of SYNC and COLDSTART frames (R195). -/
def cstartOf (f : KFrame) : Dword := BitVec.ofNat 64 (beAt f.payload 0 8)
def schedCrcOf (f : KFrame) : Word := BitVec.ofNat 32 (beAt f.payload 8 4)
def echoOf (f : KFrame) : Option ModeEcho :=
  if bitOf (byteAt f.payload 13) 7 then
    some ⟨fieldOf (byteAt f.payload 13) 2 0, byteAt f.payload 14, BitVec.ofNat 16 (beAt f.payload 16 2)⟩
  else none
def inaugSerial (f : KFrame) : Word := BitVec.ofNat 32 (beAt f.payload 0 4)

/-- A valid timing frame (R214): the header and FCS were checked before. -/
def State.isTiming (s : State) (n : NetId) (f : KFrame) : Bool :=
  s.modeValid n f.hdr.mode.toNat &&
    ((f.hdr.kind == kindSync && listed (s.syncList n) f.hdr.sender.toNat) ||
     (f.hdr.kind == kindCold && listed (s.csList n) f.hdr.sender.toNat))

/-! ### Times in 1/16 ns -/

/-- Path delay of a copy (R240); the guardian sees its own node's frames without one. -/
def pathDelay (x : Net) (f : KFrame) (port : Port) (own : Bool) : Int :=
  (f.hdr.corr.toNat : Int) + (if own then 0 else ((x.links.get port).delay : Int))

def t16 (t : Dword) : Int := 16 * (t.toNat : Int)

/-- How far a frame's start lies from its planned start, corrected for path delay (R251). -/
def State.startError (s : State) (n : NetId) (sl : Slot) (tRx : Dword) (P : Int) : Int :=
  t16 tRx - (t16 (s.net n).cycleAt + 16 * ((sl.start + s.acceptWin n + 200 : Nat) : Int) + P)

inductive Accept where
  | ok | early | late | mismatch
deriving DecidableEq, Repr

/-- A slot's window contains a frame's start, corrected for path delay: the window of R255, from 200 ns before the slot to
200 ns after it, as the table under R259 counts early and late frames (log entry 133). -/
def State.slotHolds (s : State) (n : NetId) (sl : Slot) (tRx : Dword) (P : Int) : Bool :=
  let e := s.startError n sl tRx P + 16 * ((s.acceptWin n + 200 : Nat) : Int)
  decide (-3200 ≤ e) && decide (e < 16 * ((sl.len + 200 : Nat) : Int))

/-- The acceptance test of R251: the window of the slot that the frame names contains its start. In an INAUG slot the
frame starts within the slot after path correction (R225). -/
def State.acceptance (s : State) (n : NetId) (f : KFrame) (tRx : Dword) (P : Int) : Accept :=
  let x := s.net n
  match s.slotInForce n f.hdr.slot.toNat with
  | none => .mismatch
  | some sl =>
    let e := s.startError n sl tRx P
    if s.slotHolds n sl tRx P = false ∨ f.hdr.mode.toNat ≠ x.mode ∨ f.hdr.cycle ≠ x.cycle then .mismatch
    else if sl.cls = clsInaug then
      let e := e + 16 * ((s.acceptWin n + 200 : Nat) : Int)
      if e < 0 then .early else if 16 * (sl.len : Int) ≤ e then .late else .ok
    else if f.hdr.sender.toNat ≠ sl.owner then .mismatch
    else if e < -(16 * (s.acceptWin n : Int)) then .early
    else if 16 * (s.acceptWin n : Int) < e then .late
    else .ok

/-! ### States of integration -/

/-- 2^32: a timebase holds a fraction of a ns in 32 bits (R231). -/
def fracOne : Nat := 4294967296

/-- One ns of the local clock adds 1 + RATE ns and an even share of the cycle's offset correction (R231), in 2^-32 ns. -/
def advanceOf (x : Net) (cycleLen : Nat) : Int :=
  (fracOne : Int) + quot (x.rate * fracOne) 1000000000 + quot (x.slew * fracOne) (16 * max 1 cycleLen)

/-- Network time at the first bit after SFD of a frame, which came `ago` ns ago (R260), in the timebase as it stands (log entry
168). -/
def State.stamp (s : State) (n : NetId) (ago : Nat) : Dword :=
  let x := s.net n
  BitVec.ofInt 64 (((x.time.toNat * fracOne + x.frac.toNat : Nat) - ago * advanceOf x (s.cycleNs n x.mode)) / fracOne)

/-- A timebase shifted by a step of 1/2^32 ns units. -/
def shiftTime (x : Net) (by16 : Int) : Net :=
  let v := (x.time.toNat : Int) * 2 ^ 32 + x.frac.toNat + by16 * 2 ^ 28
  { x with time := BitVec.ofInt 64 (v / 2 ^ 32), frac := BitVec.ofInt 32 (v % 2 ^ 32) }

/-- The node falls silent and listens: nothing of the cluster it left is kept. -/
def relisten (x : Net) : Net :=
  { x with phase := .listen, follow := 0, icount := 0, byCold := false, coldOffset := none, hcount := 0, slew := 0,
           mprev := 0, oprev := 0, pend := none, other := [], seen := [], wait := none, since := x.clock,
           syncs := x.syncs.map fun _ => emptySyncRec }

/-- ID in force that the settings give (R197). -/
def State.idNow (s : State) (n : NetId) : Nat :=
  let x := s.net n
  if s.ttIdsrc n then (if x.pos ≤ 128 then x.pos else 0) else s.ttf n Reg.ttCfg 15 8

/-- The end of a frame's cycle by the node's own time, in 1/16 ns. -/
def State.frameCycleEnd (s : State) (n : NetId) (f : KFrame) (tRx : Dword) (P : Int) : Int :=
  let m := f.hdr.mode.toNat
  let off := (s.slot n m f.hdr.slot.toNat).start + s.acceptWin n + 200
  t16 tRx - P - 16 * (off : Int) + 16 * (s.cycleNs n m : Int)

/-- Follows a frame's sender; the frame is the first consistent one. -/
def State.followFrame (s : State) (n : NetId) (x : Net) (f : KFrame) (tRx : Dword) (P : Int) : Net :=
  { x with
    follow := f.hdr.sender.toNat, icount := 1, byCold := f.hdr.kind == kindCold, refCycle := f.hdr.cycle,
    refStart := cstartOf f, refOwn := t16 tRx - P, refEnd := s.frameCycleEnd n f tRx P }

/-- `LISTEN_TIMEOUT` in ns (R216): 2 cycles of START_MODE plus the ID in force × 10 µs. -/
def State.listenNs (s : State) (n : NetId) : Nat := 2 * s.cycleNs n (s.startMode n) + 10000 * (s.net n).id
def State.listenDue (s : State) (n : NetId) : Bool := decide ((s.net n).since + s.listenNs n ≤ (s.net n).clock)

/-- The backoff time in ns (R218): `COLDSTART_BACKOFF` × (1 + ID mod 8). -/
def State.backoffNs (s : State) (n : NetId) : Nat := 1000 * s.ttf n Reg.ttTimeCfg 17 10 * (1 + (s.net n).id % 8)
def State.backoffDue (s : State) (n : NetId) : Bool := decide ((s.net n).since + s.backoffNs n ≤ (s.net n).clock)

/-- Entry of COLDSTART (R217): cycle 0 starts at the timebase rounded up to a whole µs. -/
def State.enterCold (s : State) (n : NetId) (x : Net) : Net :=
  let up := (x.time.toNat + (if x.frac = 0 then 0 else 1) + 999) / 1000 * 1000
  { relisten x with
    phase := .coldstart, mode := s.startMode n, cycle := 0, time := BitVec.ofNat 64 up, frac := 0,
    cycleAt := BitVec.ofNat 64 up }

/-- Keeps the newest three. -/
def keep3 {α : Type} (xs : List α) : List α := xs.take 3

/-- Sync list index of a sender. -/
def State.syncIndex (s : State) (n : NetId) (id : Nat) : Option Nat :=
  (List.range 8).find? fun i => (s.syncList n)[i]? == some id && id != 0

def modifySync (x : Net) (i : Nat) (f : SyncRec → SyncRec) : Net :=
  { x with syncs := x.syncs.set i (f ((x.syncs[i]?).getD emptySyncRec)) }

/-- Offset of a sync node in 1/16 ns (R241). -/
def State.offsetOf (s : State) (n : NetId) (f : KFrame) (tRx : Dword) (P : Int) : Int :=
  let sl := s.slot n f.hdr.mode.toNat f.hdr.slot.toNat
  t16 (cstartOf f) + 16 * ((sl.start + s.acceptWin n + 200 : Nat) : Int) - (t16 tRx - P)

/-- An accepted SYNC frame: the copy used, the cycle of acceptance and its echo. -/
def noteSync (x : Net) (i : Nat) (f : KFrame) (port : Port) (o : Int) : Net :=
  modifySync x i fun r =>
    let again := match r.last with
      | some c => c.cycle == f.hdr.cycle
      | none => false
    { r with
      acc := if r.acc.contains f.hdr.cycle then r.acc else keep3 (f.hdr.cycle :: r.acc)
      prev := if again then r.prev else r.last
      last := some ⟨f.hdr.cycle, f.hdr.hop.toNat, port, o⟩
      echo := match echoOf f with
        | some e => some (f.hdr.cycle, e)
        | none => r.echo }

/-- A sync list entry's frame of a cycle is noted already. -/
def noted (x : Net) (i : Nat) (c : Half) : Bool :=
  match ((x.syncs[i]?).getD emptySyncRec).last with
  | some r => r.cycle == c
  | none => false

/-- A SYNC frame of a listed node heard while integrating; of two copies the first stands. -/
def State.noteEntry (s : State) (n : NetId) (x : Net) (port : Port) (f : KFrame) (tRx : Dword) (P : Int) : Net :=
  match s.syncIndex n f.hdr.sender.toNat, f.hdr.kind == kindSync with
  | some i, true => if noted x i f.hdr.cycle then x else noteSync x i f port (s.offsetOf n f tRx P)
  | _, _ => x

/-- Follows a timing frame from the cycle of entry on (R219). -/
def State.enterIntegrate (s : State) (n : NetId) (x : Net) (port : Port) (f : KFrame) (tRx : Dword) (P : Int) : Net :=
  s.noteEntry n (s.followFrame n { relisten x with phase := .integrate } f tRx P) port f tRx P

/-! ### Path changes (R245, R246) -/

/-- The copy used differs in hop or port from the previous cycle's: the observed step. -/
def pathStep (x : Net) (r : SyncRec) : Option Int :=
  match r.last, r.prev with
  | some c, some q =>
    if q.cycle = c.cycle - 1 ∧ (q.hop ≠ c.hop ∨ q.port ≠ c.port) then some (c.offset - (q.offset - x.slew)) else none
  | _, _ => none

/-- `STEP_ALARM` in 1/16 ns. -/
def stepAlarm : Int := 16000

/-- A path change is recorded; beyond `STEP_ALARM` the sync node is dropped. -/
def State.pathChange (s : State) (n : NetId) (i : Nat) (id : Nat) : State :=
  let x := s.net n
  let r := (x.syncs[i]?).getD emptySyncRec
  match pathStep x r, r.last with
  | some st, some c =>
    let alarm := decide (st > stepAlarm) || decide (st < -stepAlarm)
    let y := { modifySync x i (fun r => { r with dropAt := if alarm then some x.total else r.dropAt }) with changed := true }
    let t := s.setNet n y
    match n with
    | .ctl p =>
      let w := withField (withField (withField (withBit (0 : Word) 23 alarm) 31 24 id) 22 16 c.hop) 15 0
        (sat16 (quot st 16))
      let t := ((t.setReg p.unit Reg.tbPath w).bump p.unit Reg.tbWin 7 0).logEv (Die.logSrc (Die.ofPDie p)) none
        .pathChange [id, c.hop, sat16 (quot st 16)]
      if alarm then (t.logEv (Die.logSrc (Die.ofPDie p)) none .pathAlarm [id]).raisePAll p 56 else t
    | .gd _ => t
  | _, _ => s

/-- Timing use of the copy used of a SYNC frame: its offset (R240), and a change of its path when it is received (R245). -/
def State.useTiming (s : State) (n : NetId) (port : Port) (f : KFrame) (tRx : Dword) (P : Int) : State :=
  if f.hdr.kind = kindSync then
    match s.syncIndex n f.hdr.sender.toNat with
    | some i => (s.setNet n (noteSync (s.net n) i f port (s.offsetOf n f tRx P))).pathChange n i f.hdr.sender.toNat
    | none => s
  else s

/-! ### Copies of one frame (R203, R240) -/

/-- The key by which the copies of one frame are known in a slot: in an INAUG slot the serial number. Frames with serial 0
are not told from each other, so each that comes on another port or from another distance counts by itself (R452); a guardian knows
the frames that its own node sends. -/
def copyKey (sl : Slot) (f : KFrame) (port : Port) (own : Bool) : Nat :=
  if sl.cls = clsInaug then
    (if own then 2 ^ 33 else if inaugSerial f = 0 then 2 ^ 32 + 128 * port.idx + f.hdr.hop.toNat else (inaugSerial f).toNat)
  else 0

/-- Two copies start within 8 ns of each other. -/
def nearCopies (a b : Dword) : Bool := decide (a.toNat ≤ b.toNat + 8) && decide (b.toNat ≤ a.toNat + 8)

/-- The copy that is used of the one that waited and a later one. -/
def chooseCopy (w v : WaitCopy) : WaitCopy :=
  if nearCopies w.time v.time then (if w.port = .west then w else v)
  else if v.time.toNat < w.time.toNat then v else w

/-- The copy that waits is used. -/
def State.settle (s : State) (n : NetId) (use : State → WaitCopy → State) : State :=
  match (s.net n).wait with
  | some w => use (s.setNet n { s.net n with wait := none }) w
  | none => s

/-- A copy comes: answers also whether it is a duplicate. A copy on the east port waits while one on the west port may
still replace it. -/
def State.offer (s : State) (n : NetId) (use : State → WaitCopy → State) (v : WaitCopy) : State × Bool :=
  let x := s.net n
  let same := fun (w : WaitCopy) => w.key == v.key && w.f.hdr.slot == v.f.hdr.slot
  match x.wait.filter same with
  | some w => (use (s.setNet n { x with wait := none }) (chooseCopy w v), true)
  | none =>
    let t := s.settle n use
    let y := t.net n
    let me : SeenCopy := ⟨v.f.hdr.slot.toNat, v.key⟩
    if y.seen.contains me then (t, true)
    else
      let t := t.setNet n { y with seen := me :: y.seen }
      if v.port = .east ∧ (y.links.get .west).up = true then (t.setNet n { t.net n with wait := some v }, false)
      else (use t v, false)

/-- Two copies are of one frame, as a keeper that is not integrated tells them. -/
def sameFrame (w v : WaitCopy) : Bool :=
  w.own == v.own && w.f.hdr.sender == v.f.hdr.sender && w.f.hdr.cycle == v.f.hdr.cycle && w.f.hdr.slot == v.f.hdr.slot

/-- A copy comes at a keeper that is not integrated: one on the east port waits while one on the west port may still replace it
(R240). What comes later of the same frame meets the rules of integration, by which it changes nothing. -/
def State.offerEarly (s : State) (n : NetId) (use : State → WaitCopy → State) (v : WaitCopy) : State :=
  match (s.net n).wait.filter (sameFrame v) with
  | some w => use (s.setNet n { s.net n with wait := none }) (chooseCopy w v)
  | none =>
    let t := s.settle n use
    if v.port = .east ∧ ((t.net n).links.get .west).up = true then t.setNet n { t.net n with wait := some v } else use t v

/-- A copy that waited for more than 8 ns is used. -/
def State.settleLate (s : State) (n : NetId) (use : State → WaitCopy → State) : State :=
  match (s.net n).wait with
  | some w => if w.since + 8 < (s.net n).clock then s.settle n use else s
  | none => s

/-! ### Integration (R219, R243) -/

/-- `CORR_LIMIT` in 1/16 ns (R242). -/
def corrLimit : Int := 32000

def clampInt (lo hi x : Int) : Int := max lo (min hi x)

/-- Adoption (R243): counter, cycle start, time, rate and mode of the sender. -/
def State.adopt (s : State) (n : NetId) (x : Net) (f : KFrame) (tRx : Dword) (P : Int) : Net :=
  let shift := s.offsetOf n f tRx P
  let own := (t16 tRx - P) - x.refOwn
  let net := t16 (cstartOf f) - t16 x.refStart
  let rate := if own ≤ 0 then 0 else clampInt (-200000) 200000 (quot ((net - own) * 1000000000) own.toNat)
  let y := shiftTime x shift
  { y with
    phase := .adopted, icount := 2, cycle := f.hdr.cycle, cycleAt := cstartOf f, mode := f.hdr.mode.toNat, rate := rate
    mprev := 0, oprev := 0, slew := 0, changed := true, seen := []
    syncs := y.syncs.map fun r => { r with last := r.last.map fun c => { c with offset := c.offset - shift }, prev := none } }

/-- A frame's CSTART follows the reference frame's by one cycle, within `CORR_LIMIT`. -/
def State.consistentNext (s : State) (n : NetId) (x : Net) (f : KFrame) : Bool :=
  f.hdr.cycle == x.refCycle + 1 &&
    (let d := t16 (cstartOf f) - (t16 x.refStart + 16 * (s.cycleNs n f.hdr.mode.toNat : Int))
     decide (d ≤ corrLimit) && decide (-corrLimit ≤ d))

/-- Whether a frame comes in the same cycle as the reference frame. -/
def sameCycle (x : Net) (tRx : Dword) (P : Int) : Bool := decide (t16 tRx - P < x.refEnd)

/-- A valid timing frame in INTEGRATE. After an inconsistent cycle the sender followed stays, and counting begins anew with its
next frame (DESIGN CHOICE, log entry 169). -/
def State.integrateFrame (s : State) (n : NetId) (port : Port) (f : KFrame) (tRx : Dword) (P : Int) : State :=
  let x : Net := s.noteEntry n { s.net n with since := (s.net n).clock } port f tRx P
  let id := f.hdr.sender.toNat
  if x.follow = 0 then s.setNet n (s.followFrame n x f tRx P)
  else if id = x.follow then
    if x.icount ≠ 0 ∧ sameCycle x tRx P = true then s.setNet n x
    else if x.icount ≠ 0 ∧ s.consistentNext n x f = true then
      (s.setNet n { s.adopt n x f tRx P with seen := [⟨f.hdr.slot.toNat, 0⟩] }).ktnState n
    else s.setNet n (s.followFrame n x f tRx P)
  else if x.icount = 1 ∧ id < x.follow ∧ sameCycle x tRx P = true then s.setNet n (s.followFrame n x f tRx P)
  else s.setNet n x

/-- The copy used of a valid timing frame in ADOPTED contributes its offset. -/
def State.adoptedUse (s : State) (n : NetId) (w : WaitCopy) (P : Int) : State :=
  if w.f.hdr.kind = kindSync then s.useTiming n w.port w.f w.time P
  else
    let x := s.net n
    if x.byCold = true ∧ w.f.hdr.sender.toNat = x.follow then
      s.setNet n { x with coldOffset := some (x.cycle, s.offsetOf n w.f w.time P) }
    else s

/-! ### Loss of sync -/

/-- The node falls silent and returns to LISTEN (R244). -/
def State.loseSync (s : State) (n : NetId) : State := (s.setNet n (relisten (s.net n))).ktnState n

/-- SYNC frames of a listed node are heard, whether accepted or not (R247, R249, R211). -/
def State.noteHeard (s : State) (n : NetId) (f : KFrame) (ok : Bool) : State :=
  let x := s.net n
  if f.hdr.kind = kindSync then
    match s.syncIndex n f.hdr.sender.toNat with
    | some i =>
      let c := x.cycle
      let y := modifySync x i fun r => { r with
        heard := if r.heard.contains c then r.heard else keep3 (c :: r.heard)
        bad := if ok || r.bad.contains c then r.bad else keep3 (c :: r.bad) }
      let y := if f.hdr.mode.toNat ≠ x.mode ∧ !y.other.contains c then { y with other := keep3 (c :: y.other) } else y
      s.setNet n y
    | none => s
  else s

/-- A foreign SYNC frame in two consecutive cycles from one sender (R223). -/
def State.foreignSync (s : State) (n : NetId) (f : KFrame) : State :=
  let x := s.net n
  match s.syncIndex n f.hdr.sender.toNat with
  | some i =>
    let r := (x.syncs[i]?).getD emptySyncRec
    if r.bad.contains (x.cycle - 1) then
      let ids := s.syncList n
      let members := (activeSet x ids).map fun j => (ids[j]?).getD 0
      if members.all fun m => decide (f.hdr.sender.toNat < m) then s.loseSync n
      else match n with
        | .ctl p => s.bump p.unit Reg.ttErr1 31 24
        | .gd _ => s
    else s
  | none => s

/-! ### Cycle end (R242 to R249) -/

/-- Offsets that contribute in the present cycle: members of the active sync set that are not dropped, 0 for the
own node, and in ADOPTED the cold starter followed. -/
def State.offsets (s : State) (n : NetId) : List Int :=
  let x := s.net n
  let ids := s.syncList n
  let own := if s.ttSyncNode n then x.id else 0
  let vals := (activeSet x ids).filterMap fun i =>
    match x.syncs[i]?, ids[i]? with
    | some r, some d =>
      if d = own ∧ n.host = n.channel then some 0
      else if r.dropAt.isSome then none
      else match r.last with
        | some c => if c.cycle = x.cycle then some c.offset else none
        | none => none
    | _, _ => none
  if x.phase = .adopted ∧ x.byCold = true then
    match x.coldOffset with
    | some (c, o) => if c = x.cycle then [o] else vals
    | none => vals
  else vals

def insertInt (x : Int) : List Int → List Int
  | [] => [x]
  | y :: t => if x ≤ y then x :: y :: t else y :: insertInt x t

def sortInts : List Int → List Int
  | [] => []
  | x :: t => insertInt x (sortInts t)

/-- m of R242. -/
def midpoint (vals : List Int) : Int :=
  let v := sortInts vals
  let v := if 4 ≤ v.length then v.tail.dropLast else v
  (v.headD 0 + v.getLastD 0) / 2

/-- `SLEW_MAX` in 1/16 ns. -/
def slewMax : Int := 1600

/-- The corrections of R242 with midpoint m. -/
def State.correct (s : State) (n : NetId) (x : Net) (m : Int) : Net :=
  let L := s.cycleNs n x.mode
  let drift := if x.changed then 0 else m - (x.mprev - x.oprev)
  let rate := if L = 0 then x.rate else clampInt (-200000) 200000 (x.rate + quot (drift * 1000000000) (32 * L))
  let o := clampInt (-slewMax) slewMax m
  { x with rate := rate, slew := o, mprev := m, oprev := o }

/-- The active sync set of the next cycle differs from the present one's. -/
def setChanged (x : Net) (ids : List Nat) : Bool :=
  (activeSet { x with cycle := x.cycle + 1 } ids) != x.members

/-- A mode change is agreed when every member of the active sync set echoed it in this cycle (R210 step 5). -/
def State.agreeMode (s : State) (n : NetId) (x : Net) : Net :=
  let ids := s.syncList n
  let set := activeSet x ids
  let echoes := set.map fun i => match (x.syncs[i]?).bind (·.echo) with
    | some (c, e) => if c = x.cycle then some e else none
    | none => none
  match echoes with
  | some e :: rest =>
    if rest.all (fun q => q == some e) && serialLt x.cycle (e.cycle - 1) then
      match x.pend with
      | some p =>
        if p.echo = e then { x with pend := some { p with agreed := true } }
        else if p.agreed then x else { x with pend := some ⟨e, 0, x.cycle, true, true, false⟩ }
      | none => { x with pend := some ⟨e, 0, x.cycle, true, true, false⟩ }
    else x
  | _ => x

/-- M and N of `TB_MID`. -/
def State.showMid (s : State) (n : NetId) (m : Int) (k : Nat) : State :=
  match n with
  | .ctl p => s.setReg p.unit Reg.tbMid (withField (withField (0 : Word) 31 28 k) 15 0 (sat16 (quot m 16)))
  | .gd _ => s

def inLimit (m : Int) : Bool := decide (m ≤ corrLimit) && decide (-corrLimit ≤ m)

/-- Two consecutive cycles without an accepted SYNC frame of another node, in which SYNC frames of another mode came
(R211). -/
def State.modeMismatch (s : State) (n : NetId) (x : Net) : Bool :=
  let ids := s.syncList n
  let accepts := fun (c : Half) => (List.range 8).any fun i =>
    ((x.syncs[i]?).getD emptySyncRec).acc.contains c && (ids[i]?).getD 0 != x.id
  x.other.contains x.cycle && x.other.contains (x.cycle - 1) && !accepts x.cycle && !accepts (x.cycle - 1)

/-- SYNC frames of listed nodes heard (or refused) in a cycle. -/
def heardIn (x : Net) (c : Half) : Bool := x.syncs.any fun r => r.heard.contains c
def badIn (x : Net) (c : Half) : Bool := x.syncs.any fun r => r.bad.contains c

/-- R249 at a keeper: no member in the active sync set, and SYNC frames refused in both of the two preceding cycles. -/
def State.offTime (s : State) (n : NetId) : Bool :=
  let x := s.net n
  decide (activeSet x (s.syncList n) = []) && badIn x (x.cycle - 1) && badIn x (x.cycle - 2)

/-- Cycle end in ADOPTED: consistent cycles lead to ACTIVE after `need` in all (R219, R254). The cycle of adoption is
the second consistent one; it is not judged again. -/
def State.endAdopted (s : State) (n : NetId) (need : Nat) : State :=
  let x := s.net n
  if x.cycle = x.refCycle + 1 then s
  else
  let vals := s.offsets n
  let m := midpoint vals
  if vals ≠ [] ∧ inLimit m = true then
    let y := s.agreeMode n (s.correct n x m)
    let y := { y with icount := x.icount + 1 }
    let t := (s.setNet n y).showMid n m vals.length
    if need ≤ y.icount then
      (t.setNet n { y with phase := .active, follow := 0, icount := 0, viewFrom := y.total, viewSince := y.total }).ktnState n
    else t
  else
    -- The count restarts with the next frame of the sender followed.
    (s.setNet n { x with phase := .integrate, icount := 0, slew := 0 }).ktnState n

/-- Cycle end in ACTIVE. -/
def State.endActive (s : State) (n : NetId) : State :=
  let x := s.net n
  let vals := s.offsets n
  let m := midpoint vals
  if s.modeMismatch n x then s.loseSync n
  else if vals ≠ [] then
    if inLimit m then (s.setNet n (s.agreeMode n (s.correct n x m))).showMid n m vals.length
    else (s.showMid n m vals.length).loseSync n
  else if s.offTime n then s.loseSync n
  else if !s.ttSyncNode n && !heardIn x x.cycle && !heardIn x (x.cycle - 1) then
    (s.setNet n { x with phase := .holdover, hcount := 0, slew := 0 }).ktnState n
  else s.setNet n (s.agreeMode n { x with slew := 0 })

/-- Cycle end in HOLDOVER (R248). -/
def State.endHoldover (s : State) (n : NetId) : State :=
  let x := s.net n
  let vals := s.offsets n
  let m := midpoint vals
  if s.modeMismatch n x then s.loseSync n
  else if activeSet x (s.syncList n) ≠ [] ∧ vals ≠ [] then
    if inLimit m then
      ((s.setNet n { s.agreeMode n (s.correct n x m) with phase := .active, hcount := 0 }).showMid n m vals.length).ktnState n
    else (s.showMid n m vals.length).loseSync n
  else s.setNet n { s.agreeMode n x with hcount := x.hcount + 1, slew := 0 }

/-- After the corrections, the members of the set that ends with the cycle are noted. -/
def State.noteMembers (s : State) (n : NetId) : State :=
  let x := s.net n
  let next := activeSet { x with cycle := x.cycle + 1 } (s.syncList n)
  s.setNet n { x with members := next, changed := next != x.members }

/-! ### Inauguration (R225, R226) -/

/-- Serial number of the module. -/
def State.serial (s : State) : Word := s.reg .m Reg.mgSerial

/-- The end of the line on one side: distance and serial number. Of two records of ends on one side the farther counts (DESIGN
CHOICE, log entry 174). -/
def State.endOn (s : State) (x : Net) (q : Port) : Option (Nat × Word) :=
  if (x.links.get q).up = false then some (0, s.serial)
  else
    let ends := x.records.filter fun r => r.port == q && (r.link == 1 || r.link == 2)
    match ends with
    | r :: rest =>
      let far := rest.foldl (fun (a : InRec) b => if a.dist < b.dist then b else a) r
      some (far.dist, far.serial)
    | [] => none

/-- The view of R226. -/
def State.viewOfLine (s : State) (n : NetId) (x : Net) : InView :=
  match s.endOn x .west, s.endOn x .east with
  | some (dw, sw), some (de, se) =>
    if dw + de + 1 = 1 then .complete 1 1
    else if sw = se then .incomplete
    else .complete (dw + de + 1) ((if sw.toNat < se.toNat then dw else de) + 1)
  | none, none => if max x.viewFrom (x.endless.getD x.total) + 2 * s.inaugRound n ≤ x.total then .ring else .incomplete
  | _, _ => .incomplete

/-- Since when no end of the line is known. -/
def State.noteEnds (s : State) (x : Net) : Net :=
  if (s.endOn x .west).isSome || (s.endOn x .east).isSome then { x with endless := none }
  else { x with endless := some (x.endless.getD x.total) }

/-- The view is taken anew; a change restarts its stability and increases the view sequence. -/
def State.review (s : State) (n : NetId) : State :=
  let x := s.noteEnds (s.net n)
  let v := s.viewOfLine n x
  if v = x.view then s.setNet n x
  else s.setNet n { x with view := v, stable := false, viewSince := x.total, vseq := x.vseq + 1 }

/-- An accepted INAUG frame is recorded; the newer record of a sender on a port replaces the older one (DESIGN CHOICE, log entry
175). -/
def State.recordInaug (s : State) (n : NetId) (port : Port) (f : KFrame) : State :=
  let x := s.net n
  let sn := inaugSerial f
  if sn = s.serial ∧ sn ≠ 0 then s
  else
    let r : InRec := ⟨sn, (byteAt f.payload 5).extractLsb' 0 2, port, f.hdr.hop.toNat + 1, x.total⟩
    let rest := x.records.filter fun (q : InRec) => !(q.serial == sn && q.port == port && (sn != 0 || q.dist == r.dist))
    State.review (s.setNet n { x with records := r :: rest }) n

/-- Records older than 2 × `INAUG_ROUND` cycles leave the view (R225). -/
def State.expireRecords (s : State) (n : NetId) : State :=
  let x := s.net n
  State.review (s.setNet n { x with
    records := x.records.filter fun (r : InRec) => decide (x.total < r.at' + 2 * s.inaugRound n) }) n

/-- The view has been the same for 4 × `INAUG_ROUND` cycles (R227). -/
def State.viewSettled (s : State) (n : NetId) : Bool :=
  let x := s.net n
  !x.stable && decide (x.viewSince + 4 * s.inaugRound n ≤ x.total)

/-! ### Link delays (R236 to R238) -/

def setLink (x : Net) (q : Port) (l : LinkState) : Net := { x with links := x.links.set q l }

/-- A port goes up or down. -/
def linkChange (l : LinkState) (up : Bool) (prov run : Nat) : LinkState :=
  if up then { l with
    up := true, phase := .provisional, delay := prov, meas := [], got := none, first := true, measAt := run }
  else { l with up := false, phase := .down, meas := [], got := none }

/-- A link delay frame from the neighbour: the mean delay in 1/16 ns when it completes a measurement. -/
def measure (l : LinkState) (f : LinkDelayFrame) (total : Nat) : Option Int :=
  match l.got with
  | some (q, at', d) =>
    if f.rxValid = true ∧ f.seq = q + 1 ∧ at' + 1 = total then
      match l.sent.find? fun e => e.1 == f.rxSeq && e.2.1 == at' with
      | some (_, _, a) => some (8 * (((d.toNat : Int) - a.toNat) - ((f.txPrev.toNat : Int) - f.rxPrev.toNat)))
      | none => none
    else none
  | none => none

/-- Inbound delay (R237), clamped. -/
def inbound (mean own theirs : Int) : Int := clampInt 0 65535 (mean + quot (own - theirs) 2)

/-- A measurement in range is used: at once when it is the first since PROVISIONAL (R238). -/
def useMeasure (l : LinkState) (d : Int) (run : Nat) : LinkState :=
  if l.first then
    { l with phase := .measured, delay := d.toNat, meas := [], first := false, measAt := run, periodAt := run }
  else { l with phase := .measured, meas := l.meas ++ [d], measAt := run }

/-- A period of 125 ms after the first measurement is over, or 1 s passed without a valid one (R238), by the node's own timebase;
periods go on while the delay is STALE. -/
def periodDue (l : LinkState) (run : Nat) : Bool :=
  (l.phase == .measured || l.phase == .stale && !l.first) && decide (l.periodAt + 125000000 ≤ run)
def staleDue (l : LinkState) (run : Nat) : Bool := l.phase != .down && decide (l.measAt + 1000000000 ≤ run)

/-- The lower median of the period's measurements; the next period begins. -/
def periodMedian (l : LinkState) : LinkState :=
  match sortInts l.meas with
  | [] => { l with periodAt := l.periodAt + 125000000 }
  | v => { l with periodAt := l.periodAt + 125000000, delay := (v.getD ((v.length - 1) / 2) 0).toNat, meas := [] }

/-- The planned instant of a slot's frame (R201). -/
def State.planned (s : State) (p : PDie) (sl : Slot) : Dword :=
  (s.port p).net.cycleAt + BitVec.ofNat 64 (sl.start + s.acceptWin (.ctl p) + 200)

end Sys2Proof.Machine
end

