-- ==== Sys2Proof/Machine/Gallery.lean ====
section
/-! DEFINITION. The Gallery: PDU and map tables (R295 to R303), arrivals and exchanges (R297 to R299), processing (R303
to R306) and the commit (R308). -/

namespace Sys2Proof.Machine

/-! ### Tables -/

/-- Kinds of PDU (R295). -/
def kNone : Nat := 0
def kKtnRx : Nat := 1
def kCanRx : Nat := 2
def kStrand : Nat := 3
def kKtnTx : Nat := 4
def kCanTx : Nat := 5
def kCommon : Nat := 6

/-- A PDU entry. -/
structure Pdu where
  num : Nat
  valid : Bool
  kind : Nat
  eng : Bool
  trigger : Bool
  trig : Nat
  owner : Strand
  len : Nat
  base : Nat
  ctrl : Bool
  first : Nat
  count : Nat
  key : Word
deriving DecidableEq, Repr

def pduOf (n : Nat) (cfg buf map key : Word) : Pdu :=
  ⟨n, bitOf cfg 31, fieldOf cfg 30 28, bitOf cfg 27, bitOf cfg 26, fieldOf cfg 25 22, Strand.ofIdx (fieldOf cfg 21 20),
   fieldOf cfg 10 0, fieldOf buf 31 20, bitOf buf 0, fieldOf map 31 20, fieldOf map 19 7, key⟩

/-- An entry in force, and a staged one. -/
def State.pdu (s : State) (p : PDie) (n : Nat) : Pdu :=
  pduOf n (s.reg p.unit (Reg.gwPduCfg n)) (s.reg p.unit (Reg.gwPduBuf n)) (s.reg p.unit (Reg.gwPduMap n))
    (s.reg p.unit (Reg.gwPduKey n))
def State.pduStg (s : State) (p : PDie) (n : Nat) : Pdu :=
  pduOf n (s.reg p.unit (Reg.gwPduCfgStg n)) (s.reg p.unit (Reg.gwPduBufStg n)) (s.reg p.unit (Reg.gwPduMapStg n))
    (s.reg p.unit (Reg.gwPduKeyStg n))

/-- An entry that is in use. -/
def Pdu.used (x : Pdu) : Bool := x.valid && x.kind != kNone
def Pdu.source (x : Pdu) : Bool := x.used && decide (1 ≤ x.kind) && decide (x.kind ≤ 3)
def Pdu.dest (x : Pdu) : Bool := x.used && decide (4 ≤ x.kind) && decide (x.kind ≤ 6)

/-- A map entry. -/
structure SigMap where
  num : Nat
  valid : Bool
  spdu : Nat
  soff : Nat
  slen : Nat
  dpdu : Nat
  doff : Nat
  dlen : Nat
  sbo : Bool
  ssign : Bool
  dbo : Bool
  dsign : Bool
  sat : Bool
  ract : Nat
  qen : Bool
  qpos : Nat
  owner : Strand
  sevt : Bool
  shift : Nat
  mul : Int
  add : Int
  fresh : Nat
  lo : Int
  hi : Int
  sub : Int
deriving DecidableEq, Repr

def mapOf (n : Nat) (w : Nat → Word) : SigMap :=
  let w0 := w 0
  let w1 := w 1
  let w2 := w 2
  ⟨n, bitOf w0 31, fieldOf w0 30 20, fieldOf w0 19 6, fieldOf w0 5 0 + 1, fieldOf w1 31 21, fieldOf w1 20 7,
   fieldOf w1 6 1 + 1, bitOf w2 31, bitOf w2 30, bitOf w2 29, bitOf w2 28, bitOf w2 27, fieldOf w2 26 25, bitOf w2 24,
   fieldOf w2 23 10, Strand.ofIdx (fieldOf w2 9 8), bitOf w2 7, fieldOf w2 5 0, (w 3).toInt, (w 4).toInt,
   fieldOf (w 5) 31 16, (w 7 ++ w 6).toInt, (w 9 ++ w 8).toInt, (w 11 ++ w 10).toInt⟩

def State.sigMap (s : State) (p : PDie) (e : Nat) : SigMap := mapOf e fun w => s.reg p.unit (Reg.gwMap e w)
def State.sigMapStg (s : State) (p : PDie) (e : Nat) : SigMap := mapOf e fun w => s.reg p.unit (Reg.gwMapStg e w)

/-- The PDUs in use, in ascending order: those that have copies. -/
def State.pdus (s : State) (p : PDie) : List Pdu := (s.port p).gw.pdus.map fun b => s.pdu p b.pdu

/-- The map entries of a destination. -/
def State.mapsOf (s : State) (p : PDie) (d : Pdu) : List SigMap :=
  (List.range d.count).map fun i => s.sigMap p (d.first + i)

/-- Every map entry in force, with its destination. -/
def State.allMaps (s : State) (p : PDie) : List (Pdu × SigMap) :=
  ((s.pdus p).filter Pdu.dest).flatMap fun d => (s.mapsOf p d).map fun m => (d, m)

/-! ### Bit fields (R301) -/

/-- Positions of a big-endian field, most significant bit first. -/
def bePositions : Nat → Nat → List Nat
  | _, 0 => []
  | q, n + 1 => q :: bePositions (if q % 8 = 0 then q + 15 else q - 1) n

/-- Positions of value bits 0, 1, … of a field. -/
def positions (off len : Nat) (big : Bool) : List Nat :=
  if big then (bePositions off len).reverse else (List.range len).map fun i => off + i

def bitAt (bs : List Byte) (q : Nat) : Bool := bitOf (byteAt bs (q / 8)) (q % 8)
def putBit (bs : List Byte) (q : Nat) (v : Bool) : List Byte := bs.set (q / 8) (withBit (byteAt bs (q / 8)) (q % 8) v)

def bitsNat : List Bool → Nat
  | [] => 0
  | b :: t => bitNat b + 2 * bitsNat t

def readField (bs : List Byte) (off len : Nat) (big signed : Bool) : Int :=
  let v := bitsNat ((positions off len big).map (bitAt bs))
  if signed && decide (2 ^ (len - 1) ≤ v) then (v : Int) - 2 ^ len else v

/-- The low `len` bits of a value are written. -/
def writeField (bs : List Byte) (off len : Nat) (big : Bool) (v : Int) : List Byte :=
  let n := (v % 2 ^ len).toNat
  ((positions off len big).zip (List.range len)).foldl (fun bs q => putBit bs q.1 (n / 2 ^ q.2 % 2 == 1)) bs

/-- A field is covered by the first `vlen` bytes (R302). -/
def coveredBy (off len : Nat) (big : Bool) (vlen : Nat) : Bool := (positions off len big).all fun q => decide (q / 8 < vlen)

/-! ### Copies, queues and counters -/

def State.gw (s : State) (p : PDie) : Gallery := (s.port p).gw
def State.setGw (s : State) (p : PDie) (g : Gallery) : State := s.setPort p { s.port p with gw := g }

def State.pduBuf (s : State) (p : PDie) (n : Nat) : Option PduBuf := (s.gw p).pdus.find? fun b => b.pdu == n

def State.setBuf (s : State) (p : PDie) (b : PduBuf) : State :=
  s.setGw p { s.gw p with pdus := (s.gw p).pdus.map fun c => if c.pdu = b.pdu then b else c }

/-- Engine state in `GW_STAT`: 0 STOPPED, 1 RUNNING, 2 FAULT. -/
def State.engState (s : State) (p : PDie) (g : Bool) : Nat :=
  if g then s.fld p.unit Reg.gwStat 3 2 else s.fld p.unit Reg.gwStat 1 0
def State.setEngState (s : State) (p : PDie) (g : Bool) (v : Nat) : State :=
  if g then s.setFld p.unit Reg.gwStat 3 2 v else s.setFld p.unit Reg.gwStat 1 0 v

def State.gwQueue (s : State) (p : PDie) (g : Bool) : List (Nat × GwEvent) := if g then (s.gw p).queue1 else (s.gw p).queue0
def State.setGwQueue (s : State) (p : PDie) (g : Bool) (q : List (Nat × GwEvent)) : State :=
  s.setGw p (if g then { s.gw p with queue1 := q } else { s.gw p with queue0 := q })

def State.gwWork (s : State) (p : PDie) (g : Bool) : Option (GwEvent × List Nat) :=
  if g then (s.gw p).work1 else (s.gw p).work0
def State.setGwWork (s : State) (p : PDie) (g : Bool) (w : Option (GwEvent × List Nat)) : State :=
  s.setGw p (if g then { s.gw p with work1 := w } else { s.gw p with work0 := w })

/-- The destinations of an engine that an event concerns, in ascending order (R304). -/
def State.concerned (s : State) (p : PDie) (g : Bool) (ev : GwEvent) : List Nat :=
  (((s.pdus p).filter fun d => d.dest && d.eng == g).filter fun d =>
    match ev with
    | .trigger t _ => d.trigger && d.trig == t
    | .arrival n => !d.trigger && (s.mapsOf p d).any fun m => m.spdu == n
    | .scan e => !d.trigger && decide (d.first ≤ e) && decide (e < d.first + d.count)).map (·.num)

/-- Events of one main-island cycle are queued triggers first, then arrivals, then scan events, each in ascending number. -/
def GwEvent.before (x y : GwEvent) : Bool :=
  match x, y with
  | .trigger a _, .trigger b _ => decide (a < b)
  | .trigger _ _, _ => true
  | .arrival _, .trigger _ _ => false
  | .arrival a, .arrival b => decide (a < b)
  | .arrival _, .scan _ => true
  | .scan a, .scan b => decide (a < b)
  | .scan _, _ => false

/-- An event joins a queue behind the events of earlier cycles, and in its order among those of its own. -/
def enqueue (c : Nat) (ev : GwEvent) : List (Nat × GwEvent) → List (Nat × GwEvent)
  | [] => [(c, ev)]
  | x :: q => if x.1 = c ∧ ev.before x.2 = true then (c, ev) :: x :: q else x :: enqueue c ev q

/-- The event is one of the same trigger. -/
def GwEvent.repeats (ev x : GwEvent) : Bool :=
  match ev, x with
  | .trigger a _, .trigger b _ => a == b
  | _, _ => false

def State.trigEvt (s : State) (p : PDie) (t : Nat) : Bool := s.flag p.unit (Reg.tbTrigCtl t) 25
def State.trigOwner (s : State) (p : PDie) (t : Nat) : Strand := Strand.ofIdx (s.fld p.unit (Reg.tbTrigCtl t) 23 22)

/-- COMMON destinations still wait for one firing of a trigger in a queue or an engine. -/
def State.commonLeft (s : State) (p : PDie) (ev : GwEvent) : Bool :=
  let common := fun (ds : List Nat) => ds.any fun d => (s.pdu p d).kind == kCommon
  [false, true].any fun g =>
    ((s.gwQueue p g).any (fun x => x.2 == ev) && common (s.concerned p g ev)) ||
    match s.gwWork p g with
    | some (e, ds) => e == ev && common ds
    | none => false

/-- An event that a full queue gave up. The occurrence of a trigger that was to follow its COMMON broadcasts follows at once when
none is left (R299). -/
def State.gaveUp (s : State) (p : PDie) (g : Bool) (ev : GwEvent) : State :=
  match ev with
  | .trigger t _ =>
    if s.trigEvt p t && ((s.concerned p g ev).any fun d => (s.pdu p d).kind == kCommon) && !s.commonLeft p ev then
      s.raiseP p (s.trigOwner p t) (30 + t) else s
  | _ => s

/-- An event is queued for an engine that it concerns; a repeated trigger is dropped, and so is what finds the queue full: the last
event in the order of R304, which an event commanded later in the same cycle may displace. Answers whether it was queued. A cycle of
the main island, which runs at 1 GHz, is one nanosecond. -/
def State.queueEvent (s : State) (p : PDie) (g : Bool) (ev : GwEvent) : State × Bool :=
  if s.engState p g ≠ 1 ∨ s.concerned p g ev = [] then (s, false)
  else if (s.gwQueue p g).any fun x => ev.repeats x.2 then (s.bump p.unit (Reg.gwCnt (bitNat g)) 23 16, false)
  else
    let q := enqueue s.ns ev (s.gwQueue p g)
    let t := s.setGwQueue p g (q.take 256)
    match q.drop 256 with
    | [] => (t, true)
    | x :: _ =>
      let t := t.bump p.unit (Reg.gwCnt (bitNat g)) 31 24
      if x.2 == ev then (t, false) else (t.gaveUp p g x.2, true)

def State.queueBoth (s : State) (p : PDie) (ev : GwEvent) : State := ((s.queueEvent p false ev).1.queueEvent p true ev).1

/-! ### Staleness (R302) -/

def State.microNow (s : State) : Nat := s.ns / 1000

def State.staleNow (s : State) (p : PDie) (m : SigMap) : Bool :=
  m.fresh != 0 && match (s.gw p).cover.find? fun c => c.1 == m.num with
    | some (_, t) => decide (100 * m.fresh < s.microNow - t)
    | none => true

def State.staleBit (s : State) (p : PDie) (e : Nat) : Bool := s.flag p.unit (Reg.gwStale (e / 32)) (e % 32)

/-- STALE[e] is written; a change raises `GW_STALE` where SEVT is 1. -/
def State.setStale (s : State) (p : PDie) (m : SigMap) (v : Bool) : State :=
  let t := s.setFlag p.unit (Reg.gwStale (m.num / 32)) (m.num % 32) v
  if s.staleBit p m.num != v && m.sevt then t.raiseP p m.owner 61 else t

/-! ### Arrivals and exchanges (R297, R298) -/

/-- An engine is processing a destination that reads a source. -/
def State.beingRead (s : State) (p : PDie) (n : Nat) : Bool :=
  [false, true].any fun g => match s.gwWork p g with
    | some (_, d :: _) => (s.mapsOf p (s.pdu p d)).any fun m => m.spdu == n
    | _ => false

/-- The copies of a source are swapped; a STRAND PDU's back copy then follows its front copy. -/
def State.exchange (s : State) (p : PDie) (n : Nat) : State :=
  match s.pduBuf p n with
  | none => s
  | some b =>
    let back := if (s.pdu p n).kind = kStrand then b.back else b.front
    let t := s.setBuf p { b with front := b.back, back := back, fresh := false }
    t.setGw p { t.gw p with pendingEx := (t.gw p).pendingEx.filter fun m => m != n }

/-- The maps of a source that an arrival covers note its time. -/
def State.noteCover (s : State) (p : PDie) (n vlen : Nat) : State :=
  let es := ((s.allMaps p).filter fun x => x.2.spdu == n && coveredBy x.2.soff x.2.slen x.2.sbo vlen).map fun x => x.2.num
  let g := s.gw p
  s.setGw p { g with cover := es.map (fun e => (e, s.microNow)) ++ g.cover.filter fun c => !es.contains c.1 }

/-- An arrival whose bytes are in the back copy: coverage, the exchange or its wait, and the event. -/
def State.arrived (s : State) (p : PDie) (n vlen : Nat) : State :=
  let t := s.noteCover p n vlen
  let t : State :=
    if t.beingRead p n then
      if (t.gw p).pendingEx.contains n then t.bump p.unit Reg.gwStat 31 24
      else t.setGw p { t.gw p with pendingEx := (t.gw p).pendingEx ++ [n] }
    else t.exchange p n
  t.queueBoth p (.arrival n)

/-- An arrival at a KTN_RX or CAN_RX PDU. -/
def State.pduArrives (s : State) (p : PDie) (n : Nat) (payload : List Byte) : State :=
  match s.pduBuf p n with
  | none => s
  | some b =>
    let d := s.pdu p n
    let vlen := min payload.length d.len
    (s.setBuf p { b with back := payload.take vlen ++ b.front.drop vlen }).arrived p n vlen

/-- A publication of a STRAND PDU. -/
def State.publish (s : State) (p : PDie) (n : Nat) : State := s.arrived p n (s.pdu p n).len

def State.swWrite (s : State) (p : PDie) (n i : Nat) (bs : List Byte) : State :=
  match s.pduBuf p n with
  | none => s
  | some b => s.setBuf p { b with back := (List.range b.back.length).map fun j =>
      if i ≤ j ∧ j < i + bs.length then byteAt bs (j - i) else byteAt b.back j }

/-- What waited for an exchange of a STRAND PDU follows it, up to the next publication that has to wait. -/
def State.runHeld (s : State) (p : PDie) (n : Nat) : List (Nat × Option (Nat × List Byte)) → State
  | [] => s
  | (m, op) :: rest =>
    if m ≠ n then
      let t := s.runHeld p n rest
      t.setGw p { t.gw p with swHeld := (m, op) :: (t.gw p).swHeld }
    else if (s.gw p).pendingEx.contains n then
      let t := s.runHeld p n rest
      t.setGw p { t.gw p with swHeld := (m, op) :: (t.gw p).swHeld }
    else match op with
      | some (i, bs) => (s.swWrite p n i bs).runHeld p n rest
      | none => (s.publish p n).runHeld p n rest

/-- A pending exchange takes place once no engine reads the source. -/
def State.lateExchange (s : State) (p : PDie) (n : Nat) : State :=
  if (s.gw p).pendingEx.contains n && !s.beingRead p n then
    let t := s.exchange p n
    let held := (t.gw p).swHeld
    State.runHeld (t.setGw p { t.gw p with swHeld := [] }) p n held
  else s

def State.gwOn (s : State) (p : PDie) : Bool := (s.consumer (Die.ofPDie p)).running

/-- PDU_ARRIVAL (R297). -/
def execPduArrival (p : PDie) (pdu : Nat) (payload : List Byte) (s : State) : Out :=
  let k := (s.pdu p pdu).kind
  .next (if s.gwOn p && (k == kKtnRx || k == kCanRx) then s.pduArrives p pdu payload else s)

/-- PDU_EXCHANGE (R297). -/
def execPduExchange (p : PDie) (pdu : Nat) (s : State) : Out :=
  .next (if s.gwOn p then s.lateExchange p pdu else s)

/-- The PDU is a STRAND PDU in force, owned by the strand. -/
def State.ownsPdu (s : State) (p : PDie) (k : Strand) (n : Nat) : Bool :=
  (s.pduBuf p n).isSome && (s.pdu p n).kind == kStrand && (s.pdu p n).owner == k

/-- A write in the window `GW_SW_DATA` (R298): bytes below LEN of an owned PDU; any other byte is ignored and logged. -/
def State.swDataWrite (s : State) (k : Strand) (p : PDie) (off size : Nat) (data : Dword) : State :=
  let r := off - Reg.gwSwData 0
  let n := r / 0x800
  let i := r % 0x800
  if !s.ownsPdu p k n then s.ignored p.unit off (.strand k)
  else
    let len := (s.pdu p n).len
    let t := if len < i + size then s.ignored p.unit off (.strand k) else s
    let bs := (leBytes size data.toNat).take (len - i)
    if bs = [] then t
    else if (t.gw p).pendingEx.contains n then
      t.setGw p { t.gw p with swHeld := (t.gw p).swHeld ++ [(n, some (i, bs))] }
    else t.swWrite p n i bs

/-- GW_SW_DATA_WRITE (R298). -/
def execGwSwDataWrite (k : Strand) (p : PDie) (w : RegWrite) (s : State) : Out :=
  .next (s.atUnit (.strand k) p.unit w.off
    (if s.gwOn p && decide (Reg.gwSwData 0 ≤ w.off) && decide (w.off < 0x6800000) then
      s.swDataWrite k p w.off (min w.size 8) w.data else s))

/-- A write of `GW_SW_PUB`. -/
def State.swPub (s : State) (k : Strand) (p : PDie) (v : Word) : State :=
  let n := fieldOf v 10 0
  if fieldOf v 31 11 ≠ 0 then s.logRsvd p.unit Reg.gwSwPub (.strand k)
  else if !s.ownsPdu p k n then s.ignored p.unit Reg.gwSwPub (.strand k)
  else if (s.gw p).swHeld.any fun h => h.1 == n then
    s.setGw p { s.gw p with swHeld := (s.gw p).swHeld ++ [(n, none)] }
  else s.publish p n

/-- GW_SW_PUB (R298). -/
def execGwSwPub (k : Strand) (p : PDie) (data : Word) (s : State) : Out :=
  .next (s.atUnit (.strand k) p.unit Reg.gwSwPub (if s.gwOn p then s.swPub k p data else s))

/-! ### Processing (R303) -/

def intClamp (lo hi x : Int) : Int := max lo (min hi x)

/-- Limits of a field. -/
def fieldLo (len : Nat) (signed : Bool) : Int := if signed then -(2 ^ (len - 1)) else 0
def fieldHi (len : Nat) (signed : Bool) : Int := if signed then 2 ^ (len - 1) - 1 else 2 ^ len - 1

/-- The value that one map writes, with the range violation and the saturation it counts. -/
def mapValue (m : SigMap) (src : List Byte) : Int × Bool × Bool :=
  let x := readField src m.soff m.slen m.sbo m.ssign
  let y := (x * m.mul + m.add) / 2 ^ m.shift
  let out := m.ract != 0 && (decide (y < m.lo) || decide (m.hi < y))
  if out && m.ract != 1 then (m.sub, true, false)
  else
    let y := if out then intClamp m.lo m.hi y else y
    let lo := fieldLo m.dlen m.dsign
    let hi := fieldHi m.dlen m.dsign
    let big := decide (y < lo) || decide (hi < y)
    (if big && m.sat then intClamp lo hi y else y, out, big)

/-- One map of a processing: the destination's back copy and the counters. -/
def State.runMap (s : State) (p : PDie) (g : Bool) (bs : List Byte) (m : SigMap) : State × List Byte :=
  if s.staleNow p m then
    let bs := if m.qen then putBit bs m.qpos true else bs
    (s.setStale p m true, writeField bs m.doff m.dlen m.dbo m.sub)
  else
    let src := ((s.pduBuf p m.spdu).map (·.front)).getD []
    let r := mapValue m src
    let t := s.setStale p m false
    let t := if r.2.1 then t.bump p.unit (Reg.gwCnt (bitNat g)) 15 8 else t
    let t := if r.2.2 then t.bump p.unit (Reg.gwCnt (bitNat g)) 7 0 else t
    (t, writeField bs m.doff m.dlen m.dbo r.1)

/-- A destination's maps are run into its back copy. -/
def State.runMaps (s : State) (p : PDie) (g : Bool) (d : Pdu) (back : List Byte) : State × List Byte :=
  let ms := s.mapsOf p d
  let bs := (ms.filter (·.qen)).foldl (fun bs m => putBit bs m.qpos false) back
  ms.foldl (fun (acc : State × List Byte) m => acc.1.runMap p g acc.2 m) (s, bs)

/-! ### CAN frames offered by the Gallery (R311, R314) -/

def State.can (s : State) (p : PDie) (second : Bool) : CanCtl := if second then (s.port p).can1 else (s.port p).can0
def State.setCan (s : State) (p : PDie) (second : Bool) (c : CanCtl) : State :=
  s.setPort p (if second then { s.port p with can1 := c } else { s.port p with can0 := c })

/-- STATE of `CN_STAT`: 0 INIT, 1 ERROR_ACTIVE, 2 ERROR_PASSIVE, 3 BUS_OFF, 4 RECOVERING. -/
def State.canState (s : State) (p : PDie) (second : Bool) : Nat := s.fld p.unit (Reg.cnStat (bitNat second)) 31 29

def canTxFrame (d : Pdu) (front : List Byte) : CanFrame :=
  { ide := bitOf d.key 31, fdf := bitOf d.key 30, brs := bitOf d.key 29, id := d.key.extractLsb' 0 29, esi := false
    rtr := false, dlen := BitVec.ofNat 8 d.len, data := front }

/-- A Gallery frame is offered to its controller. -/
def State.offerCan (s : State) (p : PDie) (d : Pdu) (front : List Byte) : State :=
  let c := d.ctrl
  let q := (s.can p c).gwq
  let f := canTxFrame d front
  let st := s.canState p c
  if st = 3 ∨ st = 4 then s.bump p.unit (Reg.cnCnt (bitNat c)) 15 8
  else if q.any fun e => e.1 == d.num then
    (s.setCan p c ⟨q.map fun e => if e.1 = d.num then (d.num, f) else e⟩).bump p.unit (Reg.cnCnt (bitNat c)) 7 0
  else if 8 ≤ q.length then s.bump p.unit (Reg.cnCnt (bitNat c)) 15 8
  else s.setCan p c ⟨q ++ [(d.num, f)]⟩

/-! ### The end of a processing (R299) -/

/-- The copies are exchanged when a processing has ended since the last exchange, and what a frame carries is settled (R299). -/
def PduBuf.commit (b : PduBuf) (at' : Dword) : PduBuf :=
  if b.fresh then { b with front := b.back, back := b.front, fresh := false, taken := some (at', true) }
  else { b with taken := some (at', b.ever) }

/-- An own slot that a ring feeds, whose commit instant has passed and whose frame has not started yet: the planned start. -/
def State.commitPassed (s : State) (p : PDie) (ring : Nat) : Option Dword :=
  let x := (s.port p).net
  if x.phase != .active && x.phase != .holdover then none else
  let own := (s.slots (.ctl p) x.mode).filter fun sl => sl.owner == x.id && sl.ring == ring &&
    sl.cls != clsSync && sl.cls != clsInaug && !(sl.cls == clsMgmt && sl.mgown)
  (own.map (s.planned p)).find? fun t => decide (t.toNat ≤ x.time.toNat + 1000) && decide (x.time.toNat < t.toNat)

/-- The copies of a KTN_TX PDU once the commit instant of a slot has passed; those of a stopped engine stay (R299, R306). -/
def State.settledAt (s : State) (p : PDie) (d : Pdu) (b : PduBuf) (t : Dword) : PduBuf :=
  if b.taken.map (·.1) = some t || s.engState p d.eng != 1 then b else b.commit t

/-- The copies of a KTN_TX PDU as they stand: the exchange of a commit instant that has passed was made. -/
def State.settledBuf (s : State) (p : PDie) (d : Pdu) (b : PduBuf) : PduBuf :=
  if d.kind = kKtnTx then
    match s.commitPassed p (fieldOf d.key 2 0) with
    | some t => s.settledAt p d b t
    | none => b
  else b

/-- The exchanges of the commit instants that have passed (R299). -/
def State.settleBufs (s : State) (p : PDie) : State :=
  if s.gwOn p then s.setGw p { s.gw p with pdus := (s.gw p).pdus.map fun b => s.settledBuf p (s.pdu p b.pdu) b } else s

/-- The processing of one destination ends. -/
def State.endProcessing (s : State) (p : PDie) (g : Bool) (ev : GwEvent) (n : Nat) : State :=
  match (s.pduBuf p n).map (s.settledBuf p (s.pdu p n)) with
  | none => s
  | some b =>
    let d := s.pdu p n
    let r := s.runMaps p g d b.back
    let t := r.1
    if d.kind = kKtnTx then t.setBuf p { b with back := r.2, fresh := true, ever := true }
    else
      let t := t.setBuf p { b with front := r.2, back := b.front, fresh := false, ever := true }
      if d.kind = kCanTx then t.offerCan p d r.2
      else
        let addr := BitVec.ofNat 40 (0xE0000000 + 64 * fieldOf d.key 22 0)
        let w : Broadcast := ⟨p, d.owner, addr, r.2, BitVec.ofNat 8 (0x20 + bitNat g), none⟩
        match ev with
        | .trigger tr _ =>
          if t.trigEvt p tr && !t.commonLeft p ev then
            let k := t.trigOwner p tr
            let o := t.nextOcc (Die.ofPDie p) k (32 + 64 * p.idx + 30 + tr)
            (t.countOcc (Die.ofPDie p) k).broadcast { w with occ := some (k, o) }
          else t.broadcast w
        | _ => t.broadcast w

/-- An engine begins with the first of some destinations, once exchanges that waited for the end of an earlier one have taken
place (R297). -/
def State.beginWork (s : State) (p : PDie) (g : Bool) (ev : GwEvent) (ds : List Nat) : State :=
  if ds = [] then s
  else ((s.gw p).pendingEx.foldl (fun t n => t.lateExchange p n) s).setGwWork p g (some (ev, ds))

/-- GW_EVENT_PROCESS (R303, R304): an idle engine takes its next event and begins with the first destination; a busy one
ends the destination in progress and begins with the next. -/
def execGwEventProcess (p : PDie) (second : Bool) (s : State) : Out :=
  .next (if !s.gwOn p || s.engState p second != 1 then s
  else match s.gwWork p second with
    | some (ev, d :: rest) =>
      let t := (s.setGwWork p second (some (ev, rest))).endProcessing p second ev d
      (t.setGwWork p second none).beginWork p second ev rest
    | some (_, []) => s.setGwWork p second none
    | none =>
      match s.gwQueue p second with
      | [] => s
      | (_, ev) :: q => (s.setGwQueue p second q).beginWork p second ev (s.concerned p second ev))

/-- GW_FRESHNESS_SCAN (R304, R305): the stale state of one map is examined. -/
def execGwFreshnessScan (p : PDie) (e : Nat) (s : State) : Out :=
  let m := s.sigMap p e
  let d := s.pdu p m.dpdu
  .next (if s.gwOn p && m.valid && d.dest && (s.pduBuf p d.num).isSome && m.fresh != 0 && !d.trigger &&
      s.staleNow p m != s.staleBit p e then (s.queueEvent p d.eng (.scan e)).1 else s)

/-- An engine stops on an uncorrectable error (R306). -/
def State.gwStop (s : State) (p : PDie) (g : Bool) : State :=
  if s.engState p g ≠ 1 then s
  else
    let t := (s.setEngState p g 2).setGwQueue p g []
    let t := t.setGwWork p g none
    (((t.allMaps p).filter fun x => x.1.eng == g).foldl (fun t x => t.setStale p x.2 true) t).logEv
      (Die.logSrc (Die.ofPDie p)) none .gwEcc [bitNat g]

/-- GW_ECC (R294, R306): an error in the PDU RAM, the map table or an engine's memory; one that is corrected is counted, one
that is not stops the engines it affects. -/
def execGwEcc (p : PDie) (corrected eng0 eng1 : Bool) (s : State) : Out :=
  .next (if !s.gwOn p then s
  else if corrected then s.bump p.unit Reg.gwStat 23 16
  else
    let t := if eng0 then s.gwStop p false else s
    if eng1 then t.gwStop p true else t)

/-- The frame of a bound ring for a slot, as its commit instant settled it (R299): copies are exchanged when a processing ended
since the last exchange; nothing is sent before the first processing, or by a stopped engine. -/
def State.gwRingFrame (s : State) (p : PDie) (ring : Nat) (start : Dword) : State × Option (List Byte) :=
  match s.ringBound p ring with
  | none => (s, none)
  | some n =>
    match s.pduBuf p n with
    | none => (s, none)
    | some b =>
      let c := s.settledAt p (s.pdu p n) b start
      let sent := s.engState p (s.pdu p n).eng == 1 && (c.taken.map (·.2)).getD false
      (s.setBuf p c, if sent then some c.front else none)

/-! ### Commit (R308) -/

def pduNums : List Nat := List.range 2048
def mapNums : List Nat := List.range 4096

/-- ENCODING of a PDU entry. -/
def pduBad (d : Pdu) : Bool :=
  d.used && (
    d.kind == 7 || (d.source && d.trigger) || (d.source && d.count != 0) || decide (4096 < d.count) ||
    (d.ctrl && d.kind != kCanTx) ||
    (if d.kind = kCanRx ∨ d.kind = kCanTx then
      !validDlen d.len || (d.len == 0 && d.kind != kCanTx) ||
        (d.kind == kCanTx && !bitOf d.key 30 && decide (8 < d.len))
     else d.len == 0 || decide (1440 < d.len)) ||
    (match d.kind with
      | 1 => d.key.toNat / 2 ^ 13 != 0
      | 2 => d.key.toNat / 2 != 0
      | 3 => d.key != 0
      | 4 => d.key.toNat / 2 ^ 3 != 0
      | 6 => d.key.toNat / 2 ^ 23 != 0
      | _ => false))

def mapBad (m : SigMap) : Bool := m.valid && (m.ract == 3 || (m.ract != 0 && decide (m.hi < m.lo)))

/-- An acceptance filter (R312). -/
structure CanFilter where
  valid : Bool
  ide : Bool
  id : Nat
  mask : Nat
  route : Nat
  pdu : Nat
deriving DecidableEq, Repr

def filterOf (id mask rt : Word) : CanFilter :=
  ⟨bitOf id 31, bitOf id 30, fieldOf id 28 0, fieldOf mask 28 0, fieldOf rt 31 30, fieldOf rt 10 0⟩

def State.canFilter (s : State) (p : PDie) (c f : Nat) : CanFilter :=
  filterOf (s.reg p.unit (Reg.cnFltId c f)) (s.reg p.unit (Reg.cnFltMask c f)) (s.reg p.unit (Reg.cnFltRt c f))
def State.canFilterStg (s : State) (p : PDie) (c f : Nat) : CanFilter :=
  filterOf (s.reg p.unit (Reg.cnFltIdStg c f)) (s.reg p.unit (Reg.cnFltMaskStg c f)) (s.reg p.unit (Reg.cnFltRtStg c f))

def State.stgFilters (s : State) (p : PDie) : List (Nat × CanFilter) :=
  [0, 1].flatMap fun c => (List.range 64).map fun f => (c, s.canFilterStg p c f)

/-- Units of both copies of a PDU. -/
def pduUnits (d : Pdu) : Nat := 2 * ((d.len + 63) / 64)

/-- No two elements of a list are related. -/
def pairsOk {α : Type} (bad : α → α → Bool) : List α → Bool
  | [] => true
  | x :: t => t.all (fun y => !bad x y) && pairsOk bad t

/-- Bit positions that a map writes, and its stale flag. -/
def destBits (m : SigMap) : List Nat := positions m.doff m.dlen m.dbo

def fieldFits (off len : Nat) (big : Bool) (bytes : Nat) : Bool := (positions off len big).all fun q => decide (q / 8 < bytes)

/-- Fields of one destination: within its bytes, and without overlap. -/
def destFieldsOk (d : Pdu) (ms : List SigMap) : Bool :=
  (ms.all fun m => fieldFits m.doff m.dlen m.dbo d.len && (!m.qen || decide (m.qpos / 8 < d.len))) &&
  pairsOk (fun x y => (destBits x).any fun q => (destBits y).contains q) ms &&
  ms.all fun m => !m.qen || ms.all fun y => !(destBits y).contains m.qpos

/-- The first rule of R308 that the staged tables break. -/
def State.gwCheck (s : State) (p : PDie) : Option Nat :=
  let all := pduNums.map (s.pduStg p)
  let ds := all.filter Pdu.used
  let dests := ds.filter Pdu.dest
  let maps := (mapNums.map (s.sigMapStg p)).filter (·.valid)
  let flts := (s.stgFilters p).filter fun f => f.2.valid
  let at' := fun n => s.pduStg p n
  let mapsIn := fun (d : Pdu) => (List.range d.count).map fun i => s.sigMapStg p (d.first + i)
  let objs := ((List.range 256).map fun i => s.reg p.unit (Reg.gwObjStg i)).filter fun w => bitOf w 31
  let rules : List (Nat × Bool) := [
    (0x01, ds.all (fun d => !pduBad d) && maps.all (fun m => !mapBad m) &&
      flts.all fun f => f.2.ide || f.2.id / 2 ^ 11 == 0),
    (0x02, ds.all (fun d => decide (d.base + pduUnits d ≤ 4096)) &&
      pairsOk (fun x y => overlaps x.base (pduUnits x) y.base (pduUnits y)) ds),
    (0x03, dests.all (fun d => decide (d.first + d.count ≤ 4096) && (mapsIn d).all (·.valid)) &&
      maps.all fun m => (dests.filter fun d => decide (d.first ≤ m.num) && decide (m.num < d.first + d.count)).length == 1),
    (0x04, maps.all fun m => (at' m.spdu).source && (at' m.dpdu).dest &&
      decide ((at' m.dpdu).first ≤ m.num) && decide (m.num < (at' m.dpdu).first + (at' m.dpdu).count)),
    (0x05, maps.all (fun m => fieldFits m.soff m.slen m.sbo (at' m.spdu).len) &&
      dests.all fun d => destFieldsOk d (mapsIn d)),
    (0x06, pairsOk (fun x y => x.kind == y.kind && (x.kind == kKtnRx || x.kind == kKtnTx) && x.key == y.key) ds &&
      ds.all fun d => d.kind != kCommon || d.trigger),
    (0x07, ds.all fun d => d.kind != kKtnTx || (s.ringBound p (fieldOf d.key 2 0)).isSome ||
      s.chState p (fieldOf d.key 2 0) == .off),
    (0x08, s.canFitted || ds.all fun d => d.kind != kCanRx && d.kind != kCanTx),
    (0x09, ds.all fun d => d.kind != kCommon || s.areaOk p (64 * fieldOf d.key 22 0) d.len),
    (0x0A, flts.all fun f => !(f.2.route == 1 || f.2.route == 2) ||
      ((at' f.2.pdu).used && (at' f.2.pdu).kind == kCanRx && fieldOf (at' f.2.pdu).key 0 0 == f.1)),
    (0x0B, objs.all fun w => decide (fieldOf w 8 0 < 256) && (at' (fieldOf w 30 20)).used &&
      decide (fieldOf w 19 9 + fieldOf w 8 0 + 1 ≤ (at' (fieldOf w 30 20)).len))]
  (rules.find? fun r => !r.2).map (·.1)

/-- BUSY of a commit register (R16). -/
def State.commitBusy (s : State) (u : RUnit) (off : Nat) : Bool := s.flag u off 1
def State.commitResult (s : State) (u : RUnit) (off res : Nat) : State :=
  (s.setFlag u off 1 false).setFld u off 15 8 res

/-- GO in `GW_COMMIT`. -/
def State.gwGo (s : State) (p : PDie) : State :=
  if s.commitBusy p.unit Reg.gwCommit then s.ignored p.unit Reg.gwCommit .mgmt
  else match s.gwCheck p with
    | some c => s.commitResult p.unit Reg.gwCommit c
    | none => s.setFlag p.unit Reg.gwCommit 1 true

/-- GW_COMMIT_GO (R308). -/
def execGwCommitGo (p : PDie) (s : State) : Out := .next (if s.gwOn p && s.mOn then s.gwGo p else s)

/-- A range of registers of the die takes the values of another. -/
def State.copyRegs (s : State) (u : RUnit) (src dst size : Nat) : State :=
  let file := s.regs.get u
  let moved := (memRange file src size).map fun c => (c.1 - src + dst, c.2)
  { s with regs := s.regs.set u (cellPutAll (memClear file dst size) moved) }

/-- An accepted Gallery commit takes effect once both engines have finished the event in progress. -/
def State.gwTakeEffect (s : State) (p : PDie) : State :=
  if !s.gwOn p || !s.commitBusy p.unit Reg.gwCommit || (s.gwWork p false).isSome || (s.gwWork p true).isSome
  then s
  else
    let u := p.unit
    let t := s.copyRegs u 0x6020000 0x6010000 0x8000
    let t := t.copyRegs u 0x6180000 0x6100000 0x40000
    let t := t.copyRegs u (Reg.gwObjStg 0) (Reg.gwObj 0) 0x400
    let t := t.copyRegs u (Reg.cnFltIdStg 0 0) (Reg.cnFltId 0 0) 0x400
    let t := t.copyRegs u (Reg.cnFltIdStg 1 0) (Reg.cnFltId 1 0) 0x400
    let used := (pduNums.map (t.pdu p)).filter Pdu.used
    let bufs := used.map fun d =>
      (⟨d.num, List.replicate d.len 0, List.replicate d.len 0, false, false, none⟩ : PduBuf)
    let t := t.setGw p { t.gw p with
      pdus := bufs, cover := [], queue0 := [], queue1 := [], pendingEx := [], work0 := none, work1 := none, swHeld := [] }
    let t := (List.range 128).foldl (fun t i => t.setReg u (Reg.gwStale i) 0) t
    let t := (t.allMaps p).foldl (fun t x =>
      t.setFlag u (Reg.gwStale (x.2.num / 32)) (x.2.num % 32) true) t
    ((t.setEngState p false 1).setEngState p true 1).commitResult u Reg.gwCommit 0

/-- GW_COMMIT_TAKE_EFFECT (R308). -/
def execGwCommitTakeEffect (p : PDie) (s : State) : Out := .next (s.gwTakeEffect p)

end Sys2Proof.Machine
end

