-- ==== Sys2Proof/Machine/Can.lean ====
section
/-! DEFINITION. The CAN FD controllers (R309 to R314). -/

namespace Sys2Proof.Machine

/-- The owner of a controller is the owner of its CAN TX ring. -/
def State.canOwner (s : State) (p : PDie) (second : Bool) : Strand := s.chOwner p (16 + bitNat second)

def State.canThere (s : State) (p : PDie) : Bool := (s.consumer (Die.ofPDie p)).running && s.canFitted

/-- Management writes a controller's set-up before the strands' release, its owner after it. -/
def State.canWriter (s : State) (m : Master) (p : PDie) (second : Bool) : Bool :=
  let rel := Strand.list.any fun k => s.released.get k
  match m with
  | .mgmt => s.mOn && !rel
  | .strand k => rel && k == s.canOwner p second
  | _ => false

/-- Modes of `CN_CTL`. -/
inductive CanMode where
  | init | normal | listen
deriving DecidableEq, Repr

def CanMode.ofCode (n : Nat) : CanMode := if n = 1 then .normal else if n = 2 then .listen else .init

def State.canMode (s : State) (p : PDie) (second : Bool) : CanMode :=
  CanMode.ofCode (s.fld p.unit (Reg.cnCtl (bitNat second)) 1 0)

def State.setCanState (s : State) (p : PDie) (second : Bool) (v : Nat) : State :=
  s.setFld p.unit (Reg.cnStat (bitNat second)) 31 29 v

def State.raiseCstat (s : State) (p : PDie) (second : Bool) : State :=
  s.raiseP p (s.canOwner p second) (20 + bitNat second)

/-- The bit timing settings allow the controller to leave INIT (R310). -/
def State.bitTimingOk (s : State) (p : PDie) (second : Bool) : Bool :=
  let n := s.reg p.unit (Reg.cnNbt (bitNat second))
  let d := s.reg p.unit (Reg.cnDbt (bitNat second))
  -- Clocks of 80 MHz in one bit.
  let nBit := (fieldOf n 31 23 + 1) * (1 + (fieldOf n 15 8 + 1) + (fieldOf n 6 0 + 1))
  let dBit := (fieldOf d 31 27 + 1) * (1 + (fieldOf d 22 18 + 1) + (fieldOf d 17 14 + 1))
  decide (80 ≤ nBit) && decide (16 ≤ dBit) && decide (dBit ≤ nBit) &&
    decide (fieldOf n 22 16 ≤ fieldOf n 6 0) && decide (fieldOf d 26 23 ≤ fieldOf d 17 14)

/-- MODE is written. A controller in BUS_OFF or RECOVERING stays there (R311, log entry 20). -/
def State.writeCanMode (s : State) (p : PDie) (second : Bool) (code : Nat) : State :=
  let i := bitNat second
  let off := s.canState p second == 3 || s.canState p second == 4
  let store := s.setFld p.unit (Reg.cnCtl i) 1 0 code
  if CanMode.ofCode code = .init then
    if off then store
    else ((store.setCanState p second 0).setFld p.unit (Reg.cnStat i) 15 8 0).setFld p.unit (Reg.cnStat i) 7 0 0
  else if s.canMode p second = .init then
    if s.bitTimingOk p second then
      let t := store.setFlag p.unit (Reg.cnStat i) 28 false
      if off then t else t.setCanState p second 1
    else s.setFlag p.unit (Reg.cnStat i) 28 true
  else store

/-- RECOVER is written 1. -/
def State.startRecovery (s : State) (p : PDie) (second : Bool) : State :=
  if s.canState p second = 3 then s.setCanState p second 4 else s

/-- A write of `CN_CTL`. -/
def State.canCtlWrite (s : State) (m : Master) (p : PDie) (second : Bool) (v : Word) : State :=
  let off := Reg.cnCtl (bitNat second)
  if fieldOf v 31 3 ≠ 0 then s.logRsvd p.unit off m
  else if !s.canWriter m p second then s.ignored p.unit off m
  else
    let t := s.writeCanMode p second (fieldOf v 1 0)
    if bitOf v 2 then t.startRecovery p second else t

/-- CAN_MODE_WRITE (R310, R311). -/
def execCanModeWrite (m : Master) (p : PDie) (second : Bool) (data : Word) (s : State) : Out :=
  .next (s.atUnit m p.unit (Reg.cnCtl (bitNat second)) (if s.canThere p then s.canCtlWrite m p second data else s))

/-- RECOVER (R311): RECOVER is written with MODE at its present value. -/
def execRecover (m : Master) (p : PDie) (second : Bool) (s : State) : Out :=
  .next (s.atUnit m p.unit (Reg.cnCtl (bitNat second)) (if s.canThere p then
    s.canCtlWrite m p second (4 + BitVec.ofNat 32 (s.fld p.unit (Reg.cnCtl (bitNat second)) 1 0)) else s))

/-- CAN_RECOVERY_DONE (R311). -/
def execCanRecoveryDone (p : PDie) (second : Bool) (s : State) : Out :=
  let i := bitNat second
  .next (if s.canThere p && s.canState p second == 4 then
    let t := (s.setFld p.unit (Reg.cnStat i) 15 8 0).setFld p.unit (Reg.cnStat i) 7 0 0
    (t.setCanState p second (if t.canMode p second = .init then 0 else 1)).raiseCstat p second
  else s)

/-- The error state follows the counters (ISO 11898-1): passive above 127, BUS_OFF above 255 on transmission. -/
def State.canErrors (s : State) (p : PDie) (second : Bool) (tec rec : Nat) : State :=
  let i := bitNat second
  let st := s.canState p second
  let t := s.setFld p.unit (Reg.cnStat i) 7 0 (min rec 255)
  if 255 < tec then
    -- The 8-bit TEC holds no value above 255: the manual states none for it (log entry 6).
    let t := (t.setFld p.unit (Reg.cnStat i) 15 8 (t.freeVal.toNat % 256)).useFree
    let n := (t.can p second).gwq.length
    let t := (t.setCan p second ⟨[]⟩).bumpBy p.unit (Reg.cnCnt i) 15 8 n
    ((t.setCanState p second 3).bump p.unit (Reg.cnCnt i) 23 16).raiseCstat p second
  else
    let t := t.setFld p.unit (Reg.cnStat i) 15 8 tec
    let st' := if 127 < tec ∨ 127 < rec then 2 else 1
    if st' = st then t else (t.setCanState p second st').raiseCstat p second

/-! ### Reception (R312) -/

def State.filterHit (s : State) (p : PDie) (c : Nat) (f : CanFrame) : Option (Nat × CanFilter) :=
  let width := if f.ide then 29 else 11
  ((List.range 64).map fun i => (i, s.canFilter p c i)).find? fun x =>
    x.2.valid && x.2.ide == f.ide && ((f.id.toNat ^^^ x.2.id) &&& x.2.mask) % 2 ^ width == 0

/-- A good frame is routed by the first filter that matches; remote frames go to a ring only. -/
def State.canRoute (s : State) (p : PDie) (second : Bool) (f : CanFrame) (time : Dword) (ue : Bool) : State :=
  match s.filterHit p (bitNat second) f with
  | none => s.bump p.unit (Reg.cnCnt (bitNat second)) 31 24
  | some (i, x) =>
    let t := if x.route = 0 ∨ x.route = 2 then
      s.rxDeliver p (18 + bitNat second) (canRecord f) time (BitVec.ofNat 32 i) 0 0 ue else s
    if (x.route = 1 ∨ x.route = 2) ∧ f.rtr = false then t.pduArrives p x.pdu (slice f.data 0 f.dlen.toNat) else t

/-- The controller takes part in the bus. -/
def State.onBus (s : State) (p : PDie) (second : Bool) : Bool :=
  s.canThere p && s.canMode p second != .init && (s.canState p second == 1 || s.canState p second == 2)

/-- The receive error counter after a good frame (ISO 11898-1): one less; a value above 127 goes to one from 119 to 127, which is
left open. -/
def recAfterGood (rec : Nat) (free : Dword) : Nat := if 127 < rec then 119 + free.toNat % 9 else rec - 1

/-- The receive error counter after an error: one more, and 8 more for each dominant bit right after, or error during, the error
flag. -/
def recAfterError (rec : Nat) (dominantAfter : Bool) (inFlag : Nat) : Nat := rec + 1 + 8 * (bitNat dominantAfter + inFlag)

/-- CAN_FRAME_RECEIVE (R311, R312). -/
def execCanFrameReceive (p : PDie) (second : Bool) (e : CanRxEnd) (s : State) : Out :=
  let i := bitNat second
  let tec := s.fld p.unit (Reg.cnStat i) 15 8
  let rec' := s.fld p.unit (Reg.cnStat i) 7 0
  .next (if !s.onBus p second then s
  else match e with
    | .good f time ue =>
      let t := if 127 < rec' then s.useFree else s
      (t.canErrors p second tec (recAfterGood rec' s.freeVal)).canRoute p second f time ue
    | .error lec dom n =>
      (s.setFld p.unit (Reg.cnStat i) 27 25 (lec.toNat % 7)).canErrors p second tec (recAfterError rec' dom n))

/-! ### Transmission (R314) -/

/-- The arbitration field as a number: the lower wins. -/
def canPriority (f : CanFrame) : Nat :=
  if f.ide then (f.id.toNat / 2 ^ 18) * 2 ^ 21 + 2 ^ 20 + 2 ^ 19 + (f.id.toNat % 2 ^ 18) * 2 + bitNat f.rtr
  else f.id.toNat % 2 ^ 11 * 2 ^ 21 + bitNat f.rtr * 2 ^ 20

/-- What a controller may send: the head of its TX ring, or a queued Gallery frame. -/
inductive CanCandidate where
  | ring (index : Nat) (f : CanFrame)
  | gallery (pdu : Nat) (f : CanFrame)
deriving DecidableEq, Repr

def CanCandidate.frame : CanCandidate → CanFrame
  | .ring _ f => f
  | .gallery _ f => f

def bestCan : List CanCandidate → Option CanCandidate
  | [] => none
  | c :: t => match bestCan t with
    | some d => if canPriority c.frame ≤ canPriority d.frame then some c else some d
    | none => some c

/-- A port die takes the module as holding: by the sample of the present cycle of its channel, from 8 µs into the cycle on
(R354). A channel without cycles has no sample. -/
def State.holdsNow (s : State) (p : PDie) : Bool :=
  let x := (s.port p).net
  (s.port p).heldNow && (x.phase == .adopted || x.phase == .active || x.phase == .holdover) &&
    decide (8000 ≤ (x.time - x.cycleAt).toNat)

/-- A CAN TX ring named in `LS_BIND` waits while the module does not hold the lease (R354). -/
def State.canBound (s : State) (p : PDie) (second : Bool) : Bool :=
  s.flag p.unit Reg.lsBind (8 + bitNat second) && !s.holdsNow p

/-- The candidate of highest priority; the ring comes first among equals, and waits without room for its write-back in a hold
buffer (R141). -/
def State.canCandidate (s : State) (p : PDie) (second : Bool) : Option CanCandidate :=
  let ch := 16 + bitNat second
  let st := s.chState p ch
  let ring := match firstOpen (s.chan p ch).acts with
    | some a =>
      if a.stage = .ready ∧ (st = .running ∨ st = .draining) ∧ s.canBound p second = false ∧
        s.holdRoom p (s.chOwner p ch) 32 = true then [.ring a.index (canRecOf a.data).frame] else []
    | none => []
  bestCan (ring ++ (s.can p second).gwq.map fun e => .gallery e.1 e.2)

def State.canSent (s : State) (p : PDie) (second : Bool) (c : CanCandidate) (time : Dword) : State :=
  match c with
  | .ring i _ =>
    let ch := 16 + bitNat second
    (s.mapAct p ch i fun a => { a with time := time }).endAct p ch i stOk 0
  | .gallery n _ => s.setCan p second ⟨(s.can p second).gwq.filter fun e => e.1 != n⟩

/-- The transmit error counter after an error (ISO 11898-1): 8 more, unless it is an acknowledgement error of an error-passive
node without a dominant bit after it or a stuff error in arbitration, and 8 more for each error during the error flag. -/
def tecAfterError (tec : Nat) (passive : Bool) (lec : BitVec 3) (excepted : Bool) (inFlag : Nat) : Nat :=
  tec + (if excepted && ((passive && lec == 3) || lec == 1) then 0 else 8) + 8 * inFlag

/-- A ring frame whose data the frame buffer holds with an uncorrectable error ends with ECC_FAIL (R289). -/
def State.canEcc (s : State) (p : PDie) (second : Bool) (c : CanCandidate) : State :=
  match c with
  | .ring i _ =>
    let ch := 16 + bitNat second
    let src := ((s.actAt p ch i).map fun a => (descOf a.desc).src).getD 0
    s.endAct p ch i stEccFail src
  | .gallery _ _ => s

/-- CAN_TRANSMIT (R311, R314): the candidate offered was sent, lost arbitration or met an error. -/
def execCanTransmit (p : PDie) (second : Bool) (e : CanTxEnd) (s : State) : Out :=
  let i := bitNat second
  let tec := s.fld p.unit (Reg.cnStat i) 15 8
  let rec' := s.fld p.unit (Reg.cnStat i) 7 0
  .next (if !s.onBus p second || s.canMode p second != .normal then s
  else match s.canCandidate p second, e with
    | none, _ => s
    | some c, .sent time => (s.canSent p second c time).canErrors p second (tec - 1) rec'
    | some _, .lostArbitration => s
    | some c, .ecc => s.canEcc p second c
    | some _, .error lec x n =>
      (s.setFld p.unit (Reg.cnStat i) 27 25 (lec.toNat % 7)).canErrors p second
        (tecAfterError tec (s.canState p second == 2) lec x n) rec')

end Sys2Proof.Machine
end

