-- ==== Sys2Proof/Machine/Enables.lean ====
section
/-! DEFINITION. The transmit enables that a bus guardian holds over the other die's channel (R35, R42, R253 to R257): its
windows and limits, and what stands on the line of a frame that its enables cut. -/

namespace Sys2Proof.Machine

def State.guard (s : State) (p : PDie) : Guard := (s.port p).guard

/-- The guardian times its own cycles. -/
def guardTimed (g : Guard) : Bool :=
  g.net.phase == .adopted || g.net.phase == .active || g.net.phase == .holdover

/-- A guardian that runs and is neither OFF, LATCHED nor FENCED. -/
def State.guardLive (s : State) (p : PDie) : Bool :=
  let g := s.guard p
  g.net.phase != .off && !g.latched && !g.fenced && !g.stopped

/-- The guardian's own time of an instant of the guarded channel's time: both timebases are read at once. -/
def State.guardTime (s : State) (p : PDie) (t : Dword) : Dword :=
  t + (s.guard p).net.time - (s.port p.other).net.time

/-- A guardian's stamps have a resolution of 10 ns (R253). -/
def tenNs (t : Dword) : Dword := BitVec.ofNat 64 (t.toNat / 10 * 10)

/-! ### Windows (R255, R256) -/

/-- STATE of the lease timer in a die's guardian island: 0 NONE, 1 STANDBY, 2 PROVISIONAL, 3 HELD (R350). -/
def State.leaseState (s : State) (p : PDie) : Nat := s.fld p.unit Reg.lsStat 31 30

/-- An own slot of the guarded channel is lease-bound: the channel die's `LS_BIND` names its ring, or it feeds a MIRROR
slot (R354). The manual gives the guardian no copy of `LS_BIND`; the model reads the other die's (DESIGN CHOICE, log
entry 134). -/
def State.guardBound (s : State) (p : PDie) (sl : Slot) : Bool :=
  sl.cls == clsMirror || ((sl.cls == 0 || sl.cls == clsLease || (sl.cls == clsMgmt && !sl.mgown)) &&
    (s.flag p.other.unit Reg.lsBind sl.ring ||
      (s.slots (.gd p) (s.net (.gd p)).mode).any fun o =>
        o.cls == clsMirror && o.ring == sl.ring && o.owner == (s.net (.gd p)).id))

/-- A slot's window is open for its node's frames. -/
def State.slotOpen (s : State) (p : PDie) (sl : Slot) : Bool :=
  let x := s.net (.gd p)
  sl.cls == clsInaug || (x.id != 0 && sl.owner == x.id && (!s.guardBound p sl || s.leaseState p == 3))

/-- Time since the cycle's start by the guardian's time. -/
def State.guardPos (s : State) (p : PDie) (t : Dword) : Int :=
  (t.toNat : Int) - ((s.net (.gd p)).cycleAt.toNat : Int)

/-- Length of the guardian's cycle in ns. -/
def State.guardLen (s : State) (p : PDie) : Int := (s.cycleNs (.gd p) (s.net (.gd p)).mode : Int)

/-- The cycle tail: from 1800 ns to 800 ns before the cycle's end. -/
def State.inTail (s : State) (p : PDie) (t : Dword) : Bool :=
  guardTimed (s.guard p) && decide (s.guardLen p - 1800 ≤ s.guardPos p t) && decide (s.guardPos p t < s.guardLen p - 800)

/-- The length limit of a transmission in a slot window, and in the tail or CS_OPEN, in ns. -/
def slotLimit (sl : Slot) : Nat := (42 + max sl.pmax 30) * 8 + 16
def tailLimit : Nat := 592

/-- How long a transmission that starts at an instant may last in the window of a slot; the window of the next cycle's
first slot may begin before that cycle. -/
def State.slotRoom (s : State) (p : PDie) (t : Dword) (sl : Slot) : Option Nat :=
  let pos := s.guardPos p t
  let room := fun (q : Int) =>
    if (sl.start : Int) - 200 ≤ q ∧ q < (sl.start : Int) + sl.len + 200 then
      some (min (slotLimit sl) ((sl.start : Int) + sl.len + 200 - q).toNat) else none
  if s.slotOpen p sl then (room pos).or (room (pos - s.guardLen p)) else none

/-- The same in the cycle tail. -/
def State.tailRoom (s : State) (p : PDie) (t : Dword) : Option Nat :=
  if s.inTail p t then some (min tailLimit (s.guardLen p - 800 - s.guardPos p t).toNat) else none

/-- Time between permitted transmissions in CS_OPEN, in ns (R256). -/
def State.coldGap (s : State) (p : PDie) : Nat :=
  min (1000 * s.ttf (.gd p) Reg.ttTimeCfg 17 10) (s.cycleNs (.gd p) (s.startMode (.gd p))) - 1000

/-- The same in CS_OPEN. -/
def State.coldRoom (s : State) (p : PDie) (t : Dword) : Option Nat :=
  match (s.guard p).lastStart with
  | some q => if q = t ∨ q.toNat + s.coldGap p ≤ t.toNat then some tailLimit else none
  | none => some tailLimit

/-- How long a transmission that starts at an instant of the guardian's time may last; `none` while the enables are
closed. -/
def State.enableRoom (s : State) (p : PDie) (t : Dword) : Option Nat :=
  let slots := fun (_ : Unit) =>
    ((s.slots (.gd p) (s.net (.gd p)).mode).findSome? (s.slotRoom p t)).or (s.tailRoom p t)
  if s.guardLive p then
    match (s.guard p).net.phase with
    | .active => slots ()
    | .holdover => slots ()
    | .adopted => s.tailRoom p t
    | .coldstart => s.coldRoom p t
    | _ => none
  else none

/-- The enables are open for a transmission that starts at an instant. -/
def State.enablesOpen (s : State) (p : PDie) (t : Dword) : Bool := (s.enableRoom p t).isSome

/-! ### Frames on the guarded line -/

/-- Time of a frame on the line, from preamble to the end of FCS, in ns (R189, R201). -/
def wireNs (f : KFrame) : Nat := (42 + f.payload.length) * 8

/-- A frame that ends early: the bytes that had left, and a wrong FCS. -/
def cutFrame (f : KFrame) (ns : Nat) : KFrame := { f with payload := f.payload.take (ns / 8 - 38), fcsOk := false }

/-- What the guardian of channel `p` lets stand on the line of an own frame that starts at an instant of the channel's
time (R42, R257): all of it, what leaves until its enables close or after they open, or nothing. -/
def State.passes (s : State) (p : PDie) (f : KFrame) (start : Dword) : Option KFrame :=
  let t := s.guardTime p.other start
  match s.enableRoom p.other t with
  | some r => some (if wireNs f ≤ r then f else cutFrame f r)
  | none => if s.enablesOpen p.other (t + BitVec.ofNat 64 (wireNs f)) then some (cutFrame f 0) else none

/-- Forwarded frames pass while the guardian keeps the transmitters available: its windows judge what the node sends of
its own (log entry 131). -/
def State.passesForward (s : State) (p : PDie) : Bool := s.guardLive p.other

end Sys2Proof.Machine
end

