-- ==== Sys2Proof/Machine/RemoteRead.lean ====
section
/-! DEFINITION. The remote-read service (R315 to R317). -/

namespace Sys2Proof.Machine

/-! ### Frames (R315) -/

def rrMark : List Byte := [0x4B, 0x52]

structure RrFrame where
  svc : Nat
  tag : Byte
  gen : Byte
  peer : Byte
  obj : Byte
  status : Nat
  off : Nat
  len : Nat
  data : List Byte
deriving DecidableEq, Repr

def rrOf (bs : List Byte) : RrFrame :=
  ⟨(byteAt bs 2).toNat, byteAt bs 3, byteAt bs 4, byteAt bs 5, byteAt bs 6, (byteAt bs 7).toNat, beAt bs 8 2,
   beAt bs 10 2, bs.drop 12⟩

def rrBytes (f : RrFrame) : List Byte :=
  rrMark ++ [BitVec.ofNat 8 f.svc, f.tag, f.gen, f.peer, f.obj, BitVec.ofNat 8 f.status] ++ beBytes 2 f.off ++
    beBytes 2 f.len ++ f.data

/-- A payload of the remote-read service. -/
def isRr (bs : List Byte) : Bool := slice bs 0 2 == rrMark

/-! ### Tags (R316) -/

def State.rrTags (s : State) (p : PDie) (k : Strand) : List RrTag := (s.port p).tags.get k

/-- The tag of an index; one never used has generation 0. -/
def State.rrTag (s : State) (p : PDie) (k : Strand) (n : Nat) : RrTag :=
  ((s.rrTags p k).find? fun t => t.tag == n).getD ⟨n, 0, false, none, 0⟩

/-- A tag changes, and OUT of `GW_RR_STAT` shows the tags in use. -/
def State.setRrTag (s : State) (p : PDie) (k : Strand) (t : RrTag) : State :=
  let ts := t :: (s.rrTags p k).filter fun x => x.tag != t.tag
  let x := s.setPort p { s.port p with tags := (s.port p).tags.set k ts }
  x.setFld p.unit (Reg.gwRrStat k.idx) 6 0 (ts.filter (·.used)).length

/-- A response is stored and raises RR_RESP. -/
def State.storeRr (s : State) (p : PDie) (k : Strand) (n status : Nat) (data : List Byte) : State :=
  (s.setRrTag p k { s.rrTag p k n with resp := some (status, data), since := s.ns }).raiseP p k 62

/-- An own slot of class MGMT with MGOWN 1 exists in the mode in force. -/
def State.hasMgSlot (s : State) (p : PDie) : Bool :=
  let x := (s.port p).net
  (s.slots (.ctl p) x.mode).any fun sl => sl.cls == clsMgmt && sl.mgown && sl.owner == x.id && x.id != 0

/-- The channel is ACTIVE or HOLDOVER. -/
def State.ktnUp (s : State) (p : PDie) : Bool :=
  (s.port p).net.phase == .active || (s.port p).net.phase == .holdover

/-- Frames that a port die's queue of management-owned frames holds (R377). -/
def mgQueueSize : Nat := 16

/-- Frames that wait move into the queue as far as it has room. -/
def PortDie.refillMg (x : PortDie) : PortDie :=
  let n := mgQueueSize - x.mgq.length
  { x with mgq := x.mgq ++ x.mgWait.take n, mgWait := x.mgWait.drop n }

/-- A frame joins the queue. One that finds it full waits and is tried again, in order (R377; log entry 32). -/
def State.queueMg (s : State) (p : PDie) (f : MgFrame) : State :=
  s.setPort p (PortDie.refillMg { s.port p with mgWait := (s.port p).mgWait ++ [f] })

/-- Frames that have not been sent, oldest first. -/
def PortDie.mgAll (x : PortDie) : List MgFrame := x.mgq ++ x.mgWait

/-- A request of `GW_RR_REQ_LO` and `GW_RR_REQ_HI`. -/
def State.rrAsk (s : State) (p : PDie) (k : Strand) (lo hi : Word) : State :=
  let n := fieldOf lo 5 0
  let node := fieldOf lo 31 24
  let len := fieldOf hi 24 16
  let t := s.rrTag p k n
  if t.used then s.bump p.unit (Reg.gwRrStat k.idx) 23 16
  else
    let t' : RrTag := ⟨n, t.gen + 1, true, none, s.ns⟩
    let u := s.setRrTag p k t'
    if len = 0 ∨ 256 < len ∨ node = 0 ∨ node = 255 ∨ node = (s.port p).net.id then u.storeRr p k n 5 []
    else if !s.ktnUp p || !s.hasMgSlot p then u.storeRr p k n 6 []
    else u.queueMg p (.plain (rrBytes ⟨1, BitVec.ofNat 8 (64 * k.idx + n), t'.gen, BitVec.ofNat 8 node,
      lo.extractLsb' 16 8, 0, fieldOf hi 10 0, len, []⟩))

def State.rrOn (s : State) (p : PDie) : Bool := (s.consumer (Die.ofPDie p)).running

/-- RR_REQUEST (R316). -/
def execRrRequest (k : Strand) (p : PDie) (lo hi : Word) (s : State) : Out :=
  .next (s.atUnit (.strand k) p.unit (Reg.gwRrReqHi k.idx) (if !s.rrOn p then s
  else if fieldOf lo 15 6 ≠ 0 ∨ fieldOf hi 31 25 ≠ 0 ∨ fieldOf hi 15 11 ≠ 0 then
    s.logRsvd p.unit (Reg.gwRrReqHi k.idx) (.strand k)
  else s.rrAsk p k lo hi))

/-! ### Serving (R317) -/

/-- Requests held. -/
def heldAnswers (q : List MgFrame) : Nat :=
  (q.filter fun f => match f with | .answer _ _ _ _ _ _ busy => !busy | .plain _ => false).length

/-- The response frame, assembled from the object as it now stands. -/
def State.rrAnswer (s : State) (p : PDie) (tag gen peer obj : Byte) (off len : Nat) (busy : Bool) : List Byte :=
  let w := s.reg p.unit (Reg.gwObj obj.toNat)
  let size := fieldOf w 8 0 + 1
  let st := if busy then 3 else if !bitOf w 31 then 1 else if size < off + len then 2 else 0
  let front := ((s.pduBuf p (fieldOf w 30 20)).map (·.front)).getD []
  rrBytes ⟨2, tag, gen, peer, obj, st, off, len, if st = 0 then slice front (fieldOf w 19 9 + off) len else []⟩

/-- A queued frame as it is sent. -/
def State.mgBytes (s : State) (p : PDie) : MgFrame → List Byte
  | .plain bs => bs
  | .answer tag gen peer obj off len busy => s.rrAnswer p tag gen peer obj off len busy

def State.assembleFirst (s : State) (p : PDie) : List MgFrame → List MgFrame
  | [] => []
  | .plain bs :: t => .plain bs :: s.assembleFirst p t
  | f :: t => .plain (s.mgBytes p f) :: t

/-- RR_SERVE (R317): the response to the oldest request held is assembled. -/
def execRrServe (p : PDie) (s : State) : Out :=
  .next (if s.rrOn p then s.setPort p { s.port p with mgq := s.assembleFirst p (s.port p).mgq } else s)

/-! ### Received frames (R315) -/

/-- A response: stored for a matching tag, or late. -/
def State.rrResponse (s : State) (p : PDie) (f : RrFrame) : State :=
  let k := Strand.ofIdx (f.tag.toNat / 64)
  let n := f.tag.toNat % 64
  let t := s.rrTag p k n
  if t.used && t.gen == f.gen && t.resp.isNone then
    s.storeRr p k n f.status (if f.status = 0 then f.data.take (min f.len 256) else [])
  else s.bump p.unit (Reg.gwRrStat k.idx) 15 8

/-- An accepted MGMT frame of the service, from a sender. -/
def State.rrTake (s : State) (p : PDie) (sender : Byte) (bs : List Byte) : State :=
  let f := rrOf bs
  if f.peer.toNat ≠ (s.port p).net.id then s
  else if f.svc = 1 then
    s.queueMg p (.answer f.tag f.gen sender f.obj f.off f.len (decide (32 ≤ heldAnswers (s.port p).mgAll)))
  else if f.svc = 2 then s.rrResponse p f
  else s

/-- RR_RESPONSE_RECEIVE (R316): the payload of an accepted response. -/
def execRrResponseReceive (p : PDie) (payload : List Byte) (s : State) : Out :=
  .next (if s.rrOn p && isRr payload && (rrOf payload).svc == 2 then s.rrTake p 0 payload else s)

/-- The queued frame is the request of a tag. -/
def isRequestOf (k : Strand) (t : RrTag) : MgFrame → Bool
  | .plain bs => isRr bs && (rrOf bs).svc == 1 && (rrOf bs).tag.toNat == 64 * k.idx + t.tag && (rrOf bs).gen == t.gen
  | .answer _ _ _ _ _ _ _ => false

/-- The request of a tag has not been sent yet. -/
def State.rrUnsent (s : State) (p : PDie) (k : Strand) (t : RrTag) : Bool :=
  (s.port p).mgAll.any (isRequestOf k t)

/-- The request of a tag leaves: TIMEOUT_MS is measured from now on. -/
def State.rrSent (s : State) (p : PDie) (m : MgFrame) : State :=
  Strand.list.foldl (fun t k => match (t.rrTags p k).find? fun r => r.used && isRequestOf k r m with
    | some r => t.setRrTag p k { r with since := t.ns }
    | none => t) s

/-- TIMEOUT_MS and DISCARD_MS of `GW_RR_CFG`, in ns: 0 is treated as 1, above 1000 as 1000. -/
def State.rrCfgNs (s : State) (p : PDie) (lo : Nat) : Nat :=
  1000000 * min (max (s.fld p.unit Reg.gwRrCfg (lo + 15) lo) 1) 1000

/-- RR_TIMEOUT (R316): TIMEOUT_MS after the request was sent. -/
def execRrTimeout (p : PDie) (k : Strand) (tag : Nat) (s : State) : Out :=
  let t := s.rrTag p k tag
  .next (if s.rrOn p && t.used && t.resp.isNone && !s.rrUnsent p k t && decide (t.since + s.rrCfgNs p 0 ≤ s.ns) then
    s.storeRr p k tag 4 [] else s)

/-- A write of `GW_RR_FREE[k]`: a request that has no response yet is cancelled. -/
def State.rrFree (s : State) (p : PDie) (k : Strand) (v : Word) : State :=
  if fieldOf v 31 6 ≠ 0 then s.logRsvd p.unit (Reg.gwRrFree k.idx) (.strand k)
  else
    let r := s.rrTag p k (fieldOf v 5 0)
    let keep := fun m => !(r.used && isRequestOf k r m)
    let x := s.port p
    let t := s.setPort p (PortDie.refillMg { x with mgq := x.mgq.filter keep, mgWait := x.mgWait.filter keep })
    t.setRrTag p k { r with used := false, resp := none }

/-- RR_FREE (R316). -/
def execRrFree (k : Strand) (p : PDie) (data : Word) (s : State) : Out :=
  .next (s.atUnit (.strand k) p.unit (Reg.gwRrFree k.idx) (if s.rrOn p then s.rrFree p k data else s))

/-- RR_DISCARD (R316): `RR_DISCARD` after the response was stored. -/
def execRrDiscard (p : PDie) (k : Strand) (tag : Nat) (s : State) : Out :=
  let t := s.rrTag p k tag
  .next (if s.rrOn p && t.used && t.resp.isSome && decide (t.since + s.rrCfgNs p 16 ≤ s.ns) then
    (s.setRrTag p k { t with used := false, resp := none }).bump p.unit (Reg.gwRrStat k.idx) 31 24
  else s)

/-! ### Views of the selected response -/

def State.rrSelected (s : State) (p : PDie) (k : Strand) : RrTag := s.rrTag p k (s.fld p.unit (Reg.gwRrSel k.idx) 5 0)

/-- `GW_RR_HDR[k]`. -/
def State.rrHeader (s : State) (p : PDie) (k : Strand) : Word :=
  let t := s.rrSelected p k
  match t.resp with
  | some (st, data) => withField (withField (withField (withBit (0 : Word) 31 true) 30 28 st) 23 16 t.gen.toNat) 8 0 data.length
  | none => 0

/-- `GW_RR_DATA[k][n]`. -/
def State.rrWord (s : State) (p : PDie) (k : Strand) (n : Nat) : Word :=
  match (s.rrSelected p k).resp with
  | some (_, data) => BitVec.ofNat 32 (leAt data (4 * n) 4)
  | none => 0

end Sys2Proof.Machine
end

