-- ==== Sys2Proof/Machine/Trigger.lean ====
section
/-! DEFINITION. Timestamp queues, time triggers and captures of a port die (R261 to R266), and the write-error queues of
every consumer die (R320, R321). -/

namespace Sys2Proof.Machine

/-- Some strand has been released. -/
def State.anyReleased (s : State) : Bool := Strand.list.any fun k => s.released.get k

/-! ### Timestamp queues (R261) -/

/-- The owner of a port's queue: OWNER_W or OWNER_E of `PD_TSQ_OWN`. -/
def State.tsqOwner (s : State) (p : PDie) : Port → Strand
  | .west => Strand.ofIdx (s.fld p.unit Reg.pdTsqOwn 1 0)
  | .east => Strand.ofIdx (s.fld p.unit Reg.pdTsqOwn 9 8)

def State.setTsq (s : State) (p : PDie) (q : Port) (es : List TsqEntry) : State :=
  s.setPort p { s.port p with tsq := (s.port p).tsq.set q es }

/-- An entry for a frame sent: dropped when the queue holds 32; TSQ_W or TSQ_E when it becomes non-empty or
overflows. -/
def State.pushTsq (s : State) (p : PDie) (q : Port) (e : TsqEntry) : State :=
  let es := (s.port p).tsq.get q
  let k := s.tsqOwner p q
  if 32 ≤ es.length then (s.bump p.unit (Reg.pdTsqOvf q.idx) 7 0).raiseP p k (54 + q.idx)
  else
    let t := s.setTsq p q (es ++ [e])
    if es = [] then t.raiseP p k (54 + q.idx) else t

/-- A read of `PD_TSQ_POP[q]`. -/
def State.tsqPop (s : State) (m : Master) (p : PDie) (q : Port) : State × Word :=
  if m ≠ .strand (s.tsqOwner p q) then (s, 0)
  else match (s.port p).tsq.get q with
    | [] => (s, 0)
    | e :: rest =>
      let w := withField (withField (withBit (withField (withBit (0 : Word) 31 true) 30 26 rest.length) 16 (q == .east))
        14 12 e.ring) 11 0 e.index
      ((s.setTsq p q rest).setReg64 p.unit (Reg.pdTsqTimeLo q.idx) e.time, w)

def State.pdOn (s : State) (p : PDie) : Bool := (s.consumer (Die.ofPDie p)).running

/-- TSQ_POP (R261). -/
def execTsqPop (m : Master) (p : PDie) (port : Port) (s : State) : Out :=
  .next (s.atUnit m p.unit (Reg.pdTsqPop port.idx) (if s.pdOn p then (s.tsqPop m p port).1 else s))

/-! ### Triggers (R263, R264) -/

def State.trigDue (s : State) (p : PDie) (t : Nat) : Bool :=
  s.flag p.unit (Reg.tbTrigCtl t) 31 && s.ktnUp p &&
    decide ((s.reg64 p.unit (Reg.tbTrigCmpLo t)).toNat ≤ (s.port p).net.time.toNat)

/-- The period: 0 one-shot, 1 to 999 as 1000. -/
def State.trigPeriod (s : State) (p : PDie) (t : Nat) : Nat :=
  let n := (s.reg p.unit (Reg.tbTrigPer t)).toNat
  if n = 0 then 0 else max 1000 n

/-- The trigger advances beyond the present time, or is disabled. -/
def State.trigAdvance (s : State) (p : PDie) (t : Nat) : State :=
  let per := s.trigPeriod p t
  if per = 0 then s.setFlag p.unit (Reg.tbTrigCtl t) 31 false
  else
    let cmp := (s.reg64 p.unit (Reg.tbTrigCmpLo t)).toNat
    let n := ((s.port p).net.time.toNat - cmp) / per + 1
    let u := (s.setReg64 p.unit (Reg.tbTrigCmpLo t) (BitVec.ofNat 64 (cmp + n * per))).bumpBy p.unit (Reg.tbTrigCtl t) 7 0 (n - 1)
    u.setPort p { u.port p with trigLate := (u.port p).trigLate.filter fun i => i != t }

/-- ACTION of a trigger goes to F, unless it was announced ahead of its instant (R263, R329). -/
def State.trigAction (s : State) (p : PDie) (t : Nat) : State :=
  let a := s.fld p.unit (Reg.tbTrigCtl t) 27 26
  let x := s.port p
  if a = 0 ∨ s.fFitted = false then s
  else if x.trigAhead.contains t then s.setPort p { x with trigAhead := x.trigAhead.filter fun i => i != t }
  else s.setPort p { x with marks := x.marks ++ [a] }

/-- What a firing does: its action; the Gallery takes the event; with EVT 1 its vector is sent, at once unless a COMMON
broadcast of the Gallery is to precede it (R299). -/
def State.trigEffect (s : State) (p : PDie) (t : Nat) : State :=
  let u := s.trigAction p t
  let ev := GwEvent.trigger t (u.gw p).firing
  let u := u.setGw p { u.gw p with firing := (u.gw p).firing + 1 }
  let q0 := u.queueEvent p false ev
  let q1 := q0.1.queueEvent p true ev
  let common := fun (g : Bool) => (u.concerned p g ev).any fun d => (u.pdu p d).kind == kCommon
  let later := (q0.2 && common false) || (q1.2 && common true)
  if s.trigEvt p t && !later then q1.1.raiseP p (s.trigOwner p t) (30 + t) else q1.1

/-- A firing owed for a timebase step is over. -/
def State.trigPaid (s : State) (p : PDie) (t : Nat) : State :=
  s.setPort p { s.port p with trigOwed := (s.port p).trigOwed.filter fun i => i != t }

/-- A trigger fires. -/
def State.fireTrigger (s : State) (p : PDie) (t : Nat) : State := ((s.trigAdvance p t).trigPaid p t).trigEffect p t

/-- A trigger whose compare value lies in the past. -/
def State.trigPast (s : State) (p : PDie) (t : Nat) : Bool :=
  s.flag p.unit (Reg.tbTrigCtl t) 31 && decide ((s.reg64 p.unit (Reg.tbTrigCmpLo t)).toNat ≤ (s.port p).net.time.toNat)

/-- A timebase step (R232, R264): periodic triggers whose compare value lies in the past advance, and owe one firing. -/
def State.trigStep (s : State) (p : PDie) : State :=
  (List.range 16).foldl (fun u t =>
    if u.trigPast p t && u.trigPeriod p t != 0 then
      let v := (u.trigAdvance p t).trigPaid p t
      v.setPort p { v.port p with trigOwed := (v.port p).trigOwed ++ [t] }
    else u) s

/-- The return to ACTIVE (R264): each trigger whose compare value lies in the past, or that owes a firing, fires once. -/
def State.trigReturn (s : State) (p : PDie) : State :=
  (List.range 16).foldl (fun u t =>
    if u.trigDue p t then u.fireTrigger p t
    else if (u.port p).trigOwed.contains t && u.flag p.unit (Reg.tbTrigCtl t) 31 then (u.trigPaid p t).trigEffect p t
    else u) s

/-- TRIGGER_FIRE (R263). -/
def execTriggerFire (p : PDie) (t : Nat) (s : State) : Out :=
  .next (if s.pdOn p && decide (t < 16) && s.trigDue p t then s.fireTrigger p t else s)

/-! ### Captures (R265) -/

/-- The time stored for an edge: the fixed input delay of 400 ns of a capture contact is removed (R437). Edges of F and of a link come
with their fixed latency removed. -/
def edgeTime (e : Edge) : Dword := if e.src = 32 ∨ e.src = 33 then e.time - 400 else e.time

/-- CAPTURE_EDGE: an edge at the source that a unit selects. -/
def execCaptureEdge (p : PDie) (c : Nat) (e : Edge) (s : State) : Out :=
  let ctl := s.reg p.unit (Reg.tbCapCtl c)
  let edge := fieldOf ctl 30 29
  let wanted := if edge = 0 then e.rising else if edge = 1 then !e.rising else true
  let there := decide (e.src < 36) && (s.fFitted || decide (32 ≤ e.src))
  .next (if s.pdOn p && decide (c < 8) && bitOf ctl 31 && fieldOf ctl 5 0 == e.src && wanted && there then
    if s.flag p.unit (Reg.tbCapStat c) 0 then s.setFlag p.unit (Reg.tbCapStat c) 1 true
    else
      ((s.setReg64 p.unit (Reg.tbCapLo c) (edgeTime e)).setFlag p.unit (Reg.tbCapStat c) 0 true).raiseP p
        (Strand.ofIdx (fieldOf ctl 23 22)) (46 + c)
  else s)

/-! ### Trigger and capture registers (R266) -/

/-- OWNER of the unit that a register belongs to, as it stands. -/
def State.unitOwner (s : State) (p : PDie) (off : Nat) : Strand :=
  let ctl := if off < Reg.tbCapLo 0 then Reg.tbTrigCtl ((off - Reg.tbTrigCmpLo 0) / 16)
    else Reg.tbCapCtl ((off - Reg.tbCapLo 0) / 16)
  Strand.ofIdx (s.fld p.unit ctl 23 22)

/-- Management writes until a strand is released, the owner from then on. -/
def State.unitWriter (s : State) (m : Master) (p : PDie) (off : Nat) : Bool :=
  match m with
  | .mgmt => !s.anyReleased
  | .strand k => s.anyReleased && k == s.unitOwner p off
  | _ => false

/-- Whether the instant of a trigger lies less than 20 µs ahead is noted when its enable or compare value is written (R329). -/
def State.noteLate (s : State) (p : PDie) (t : Nat) : State :=
  let late := decide ((s.reg64 p.unit (Reg.tbTrigCmpLo t)).toNat < (s.port p).net.time.toNat + 20000)
  let rest := (s.port p).trigLate.filter fun i => i != t
  s.setPort p { s.port p with trigLate := if late then t :: rest else rest }

/-- A write of one word of a trigger or capture unit. A trigger whose compare value lies in the past fires at once. -/
def State.unitWrite (s : State) (m : Master) (p : PDie) (off : Nat) (d : RegDesc) (is : List Nat) (mask data : Word)
    (wide : Bool) : State :=
  if !s.unitWriter m p off then s.ignored p.unit off m
  else
    let t := if differsRo d (s.reg p.unit off) mask data then s.ignored p.unit off m else s
    let t := t.plainWrite p.unit off d mask data wide
    let n := is.headD 0
    -- A new setting stands for itself: it was neither announced nor is a firing owed for it.
    let t := if off < Reg.tbCapLo 0 then t.setPort p { t.port p with
      trigOwed := (t.port p).trigOwed.filter fun i => i != n, trigAhead := (t.port p).trigAhead.filter fun i => i != n } else t
    let t := match d.id with
      | .tbTrigCtl => t.noteLate p n
      | .tbTrigCmpLo => t.noteLate p n
      | .tbTrigCmpHi => t.noteLate p n
      | _ => t
    let fires := match d.id with
      | .tbTrigCtl => true
      | .tbTrigCmpHi => true
      | .tbTrigCmpLo => wide
      | _ => false
    if fires && t.trigDue p n then t.fireTrigger p n else t

/-- A word of a write sets a reserved bit (R14). -/
def wordRsvd (u : RUnit) (w : Nat × Word × Word) : Bool :=
  match regAt u w.1 with
  | some (d, is) => w.2.2 &&& w.2.1 &&& reservedBits d is != 0
  | none => false

/-- Every word of a write to a unit's registers. Of a 64-bit write only the last word may fire the trigger. -/
def State.unitWriteAll (s : State) (m : Master) (p : PDie) (off size : Nat) (data : Dword) : State :=
  let ws := wordsOf off size data
  match ws.find? fun w => s.unitWriter m p w.1 && wordRsvd p.unit w with
  | some w => s.logRsvd p.unit w.1 m
  | none => ws.foldl (fun t w =>
    match regAt p.unit w.1 with
    | some (d, is) =>
      let wide := decide (ws.length = 2) && d.id != .tbTrigCmpHi
      if d.id = .tbTrigCmpLo ∧ wide = true then
        -- The upper half follows in the same write: the pair is written at once.
        (if t.unitWriter m p w.1 then t.plainWrite p.unit w.1 d w.2.1 w.2.2 true else t.ignored p.unit w.1 m)
      else t.unitWrite m p w.1 d is w.2.1 w.2.2 wide
    | none => t) s

/-- TRIGGER_WRITE (R266). -/
def execTriggerWrite (m : Master) (p : PDie) (w : RegWrite) (s : State) : Out :=
  .next (s.atUnit m p.unit w.off
    (if s.pdOn p && decide (Reg.tbTrigCmpLo 0 ≤ w.off) && decide (w.off < Reg.tbCapLo 8) then
      s.unitWriteAll m p w.off (min w.size 8) w.data else s))

/-! ### Write-error queues (R320, R321) -/

def werrWord (valid : Bool) (left : Nat) (r : WerrRec) : Word :=
  withField (withField (withField (withBit (0 : Word) 31 valid) 30 28 left) 27 24 r.cause) 15 0 r.tag.toNat

/-- The words that show a record's address and count. -/
def werrAddrLo (r : WerrRec) : Word := BitVec.ofNat 32 r.addr
def werrAddrHi (r : WerrRec) : Word := withField (withField (0 : Word) 31 16 r.count.toNat) 7 0 (r.addr / 2 ^ 32)

def State.werrQueue (s : State) (d : Die) (q : Nat) : List WerrRec :=
  let w := (s.consumer d).werr
  if q < 4 then w.strand.get (Strand.ofIdx q) else w.other

def State.setWerrQueue (s : State) (d : Die) (q : Nat) (rs : List WerrRec) : State :=
  let c := s.consumer d
  let w := c.werr
  s.setConsumer d { c with werr := if q < 4 then { w with strand := w.strand.set (Strand.ofIdx q) rs } else { w with other := rs } }

/-- A read of `PD_WERR_POP[q]`: a strand removes from its own queue, management from queue 4, and management sees
the head of the others. -/
def State.werrPop (s : State) (m : Master) (d : Die) (q : Nat) : State × Word :=
  let rs := s.werrQueue d q
  let own := match m with
    | .strand k => k.idx == q
    | .mgmt => q == 4
    | _ => false
  match rs with
  | [] => (s, 0)
  | r :: rest =>
    if own then
      let t := s.setWerrQueue d q rest
      ((t.setReg d.unit (Reg.pdWerrAddrLo q) (werrAddrLo r)).setReg d.unit (Reg.pdWerrAddrHi q) (werrAddrHi r),
       werrWord true rest.length r)
    else if m = .mgmt then (s, werrWord true rest.length r)
    else (s, 0)

/-- The address registers as a master reads them: management sees the head of queues 0 to 3. -/
def State.werrAddr (s : State) (m : Master) (d : Die) (q : Nat) (hi : Bool) : Word :=
  let off := if hi then Reg.pdWerrAddrHi q else Reg.pdWerrAddrLo q
  match m with
  | .mgmt =>
    if q < 4 then match s.werrQueue d q with
      | r :: _ => if hi then werrAddrHi r else werrAddrLo r
      | [] => 0
    else s.reg d.unit off
  | .strand k => if k.idx = q then s.reg d.unit off else 0
  | _ => 0

/-- WERR_POP (R321). -/
def execWerrPop (m : Master) (d : Die) (q : Nat) (s : State) : Out :=
  .next (if q < 5 then s.atUnit m d.unit (Reg.pdWerrPop q)
    (if (s.consumer d).running && s.dieFitted d then (s.werrPop m d q).1 else s) else s)

end Sys2Proof.Machine
end

