-- ==== Sys2Proof/Machine/Ktn.lean ====
section
/-! DEFINITION. The KTN channel controllers: ports (R184 to R188), cycles (R199), own frames (R203, R217, R224), received
frames (R187, R192, R240, R251), mode changes (R210), start-up (R214 to R223) and inauguration (R224 to R230). -/

namespace Sys2Proof.Machine

def State.chOn (s : State) (p : PDie) : Bool := (s.consumer (Die.ofPDie p)).running

/-- The guardian of a channel sits in the other die. -/
def guardOf (p : PDie) : NetId := .gd p.other

def State.logP (s : State) (p : PDie) (c : LogCode) (arg : List Nat) : State :=
  s.logEv (Die.logSrc (Die.ofPDie p)) none c arg

/-! ### Ports (R184, R238) -/

/-- LINK_DEF of `TB_CFG` in 1/16 ns: above 2000 ns it is treated as 2000. A guardian takes nothing from the guarded die;
it has the reset value (log entry 135). -/
def State.linkDef (s : State) (n : NetId) : Nat :=
  match n with
  | .ctl p => 16 * min 2000 (fieldOf (s.port p).cfg 10 0)
  | .gd _ => 16 * 500

/-- A port's link changes at a keeper of the channel; its view of the line follows. -/
def State.netLink (s : State) (n : NetId) (q : Port) (up : Bool) : State :=
  let x := s.net n
  State.review (s.setNet n (setLink x q (linkChange (x.links.get q) up (s.linkDef n) x.run))) n

/-- PORT_LINK_CHANGE (R184). -/
def execPortLinkChange (p : PDie) (port : Port) (up : Bool) (s : State) : Out :=
  .next (if ((s.port p).net.links.get port).up = up then s
  else (s.netLink (.ctl p) port up).netLink (guardOf p) port up)

def State.portUp (s : State) (p : PDie) (q : Port) : Bool := ((s.port p).net.links.get q).up

/-- The first port that is up, for frames whose two starts are the same. -/
def State.upPorts (s : State) (p : PDie) : List Port := Port.list.filter (s.portUp p)

/-! ### Status word (R194) -/

/-- Bits 15 to 12, 10, 9 and 8; bits 11 and 7 keep the sample of R348. -/
def State.statusWord (s : State) (p : PDie) : Half :=
  let l := s.viewLane
  let two := Strand.list.any fun k => !s.halted k && decide ((s.inStepAt l k).length = 2)
  let halt := Strand.list.any fun k => s.halted k
  let old : Half := (s.reg p.unit Reg.ttStatusWord).setWidth 16
  let w := withBit (withBit (0 : Half) 15 (s.flag l.unit Reg.rjDbg 9)) 14 halt
  let w := withBit w 13 (two || Lane.list.any fun x => s.retired x)
  let w := withBit w 12 (s.dies.any fun d => s.flag d.unit Reg.vtFence 0)
  let w := withBit (withBit w 11 (bitOf old 11)) 7 (bitOf old 7)
  let w := withBit w 10 (s.fld .m Reg.mgUpd 31 29 == 3)
  withBit (withBit w 9 ((s.port p).net.phase == .holdover)) 8 (!s.anyReleased)

def State.setStatusWord (s : State) (p : PDie) (w : Half) : State :=
  s.setReg p.unit Reg.ttStatusWord (w.setWidth 32)

def State.curStatus (s : State) (p : PDie) : Half := (s.reg p.unit Reg.ttStatusWord).setWidth 16

/-! ### Cycle start (R199, R210, R228) -/

/-- The node times its own cycles. -/
def NetPhase.timed (ph : NetPhase) : Bool := ph == .coldstart || ph == .adopted || ph == .active || ph == .holdover

/-- A change of mode at the start of its switch cycle; `none` when nothing is due. -/
def dueChange (x : Net) (c : Half) : Option ModeChange := x.pend.filter fun p => p.echo.cycle == c

/-- Of a record of cycles, those of the last four; older numbers would come round again. -/
def recent (c : Half) (xs : List Half) : List Half := xs.filter fun k => decide ((c - k).toNat ≤ 3)

/-- Counters of a keeper at a cycle start. -/
def State.startNetCycle (s : State) (n : NetId) : Net :=
  let x := s.net n
  let c := x.cycle + 1
  let next := x.cycleAt + BitVec.ofNat 64 (s.cycleNs n x.mode)
  let mode := match dueChange x c with
    | some p => if p.agreed then p.echo.target else x.mode
    | none => x.mode
  let id := x.newId.getD x.id
  { x with
    cycle := c, total := x.total + 1, cycleAt := next, mode := mode, id := id, newId := none, seen := []
    syncs := x.syncs.map fun r => { r with acc := recent c r.acc, heard := recent c r.heard, bad := recent c r.bad }
    other := recent c x.other
    pend := if (dueChange x c).isSome then none else x.pend
    mute := x.mute && s.designated n x.count != some mode }

/-- RESULT of `TT_MODE_STAT`. -/
def State.setModeResult (s : State) (p : PDie) (r : Nat) : State := s.setFld p.unit Reg.ttModeStat 31 24 r

/-- What every cycle start takes: `TB_CFG`, no held sample yet, and the status word (R194). -/
def State.beginCycle (s : State) (p : PDie) : State :=
  let t := s.setPort p { s.port p with cfg := s.reg p.unit Reg.tbCfg, heldNow := false }
  t.setStatusWord p (t.statusWord p)

/-- The verdict on a node's own request at its switch cycle: SWITCHED when the node switches to it, else EXPIRED (R210). -/
def State.judgeRequest (s : State) (p : PDie) (due : Option ModeChange) : State :=
  match (s.port p).ownReq with
  | some r =>
    if serialLt (s.port p).net.cycle r.echo.cycle then s
    else
      let done := match due with
        | some c => c.agreed && c.echo == r.echo
        | none => false
      (s.setPort p { s.port p with ownReq := none }).setModeResult p (if done then 0x02 else 0x03)
  | none => s

/-- The next cycle starts. -/
def State.nextCycle (s : State) (p : PDie) : State :=
  let n := NetId.ctl p
  let y := s.startNetCycle n
  let due := dueChange (s.net n) y.cycle
  let t := (s.setNet n y).judgeRequest p due
  let t := match due with
    | some c => if c.agreed then t.raisePAll p 57 else t
    | none => t
  t.beginCycle p

/-! ### Mode changes (R210, R230) -/

/-- The smallest multiple of `MODE_ALIGN` that is at least r + 4. -/
def switchCycle (r : Half) (align : Nat) : Half :=
  BitVec.ofNat 16 ((r.toNat + 4 + align - 1) / align * align)

/-- Own MGMT slots of the mode in force. -/
def State.ownMgmt (s : State) (p : PDie) : Bool :=
  let x := (s.port p).net
  x.id != 0 && (s.slots (.ctl p) x.mode).any fun sl => sl.cls == clsMgmt && sl.owner == x.id

/-- A write of `TT_MODE_REQ`. -/
def State.modeReqWrite (s : State) (p : PDie) (v : Word) : State :=
  let n := NetId.ctl p
  let x := s.net n
  let m := fieldOf v 2 0
  if !bitOf v 3 then s
  else if x.phase ≠ .active then s.setModeResult p 0x14
  else if !listed (s.authList n) x.id then s.setModeResult p 0x10
  else if !s.modeValid n m || m == x.mode then s.setModeResult p 0x11
  else if pendingChange x || (s.port p).reqDue.isSome then s.setModeResult p 0x12
  else if !s.ownMgmt p then s.setModeResult p 0x13
  else s.setPort p { s.port p with reqDue := some ⟨m, none⟩ }

/-- MODE_REQUEST (R210). -/
def execModeRequest (p : PDie) (k : Strand) (data : Word) (s : State) : Out :=
  .next (s.atUnit (.strand k) p.unit Reg.ttModeReq (if !s.chOn p then s
  else if fieldOf data 31 4 ≠ 0 then s.logRsvd p.unit Reg.ttModeReq (.strand k)
  else s.modeReqWrite p data))

/-- IDs of the active sync set. -/
def State.setIds (s : State) (n : NetId) : List Nat :=
  let ids := s.syncList n
  (activeSet (s.net n) ids).map fun i => (ids[i]?).getD 0

/-- An ID is the lowest of the active sync set. -/
def State.lowestIn (s : State) (n : NetId) (id : Nat) : Bool :=
  let m := s.setIds n
  m.contains id && m.all fun j => decide (id ≤ j)

/-- A MODE_REQ of a requester is accepted by a sync node (R210 step 4, R230). -/
def State.modeReqOk (s : State) (n : NetId) (f : KFrame) : Bool :=
  let req := f.hdr.sender.toNat
  let b0 := byteAt f.payload 0
  let m := fieldOf b0 2 0
  let c : Half := BitVec.ofNat 16 (beAt f.payload 2 2)
  s.modeValid n m && c == switchCycle f.hdr.cycle (s.modeAlign n) &&
    (if bitOf b0 7 then s.lowestIn n req && s.designated n (byteAt f.payload 4).toNat == some m
     else listed (s.authList n) req)

/-- A new change stands beside the one in a node's view: none, one that the node refused, or one of the
same cycle from a higher requester that is not agreed (R210). -/
def replaces (old : Option ModeChange) (new : ModeChange) : Bool :=
  match old with
  | none => true
  | some c => if openModeChange c then c.since == new.since && decide (new.requester < c.requester) && !c.agreed else true

/-- A MODE_REQ enters a node's view, accepted or refused; a refused one is still to expire (R210 steps 4 and 7). -/
def State.takeModeReq (s : State) (p : PDie) (f : KFrame) : State :=
  let n := NetId.ctl p
  let x := s.net n
  let e : ModeEcho := ⟨fieldOf (byteAt f.payload 0) 2 0, byteAt f.payload 1, BitVec.ofNat 16 (beAt f.payload 2 2)⟩
  let new : ModeChange := ⟨e, f.hdr.sender.toNat, f.hdr.cycle, s.modeReqOk n f, false, false⟩
  if (if new.accepted then replaces x.pend new else x.pend.isNone) then s.setNet n { x with pend := some new } else s

/-- MODE_REQ_RECEIVE (R210): a MODE_REQ that was accepted under R251. -/
def execModeReqReceive (p : PDie) (f : KFrame) (s : State) : Out :=
  .next (if s.chOn p && s.ktnUp p && f.hdr.kind == kindModeReq && headerOk f && f.fcsOk then s.takeModeReq p f else s)

/-- Cycle c − 1 of a change that is not agreed in the node's view: it expires there. -/
def State.expireChange (s : State) (p : PDie) : State :=
  let n := NetId.ctl p
  let x := s.net n
  match x.pend with
  | some c =>
    if !c.agreed && !c.expired && x.cycle == c.echo.cycle - 1 then
      (s.setNet n { x with pend := some { c with expired := true } }).logP p .modeExpired [c.echo.target]
    else s
  | none => s

/-- The same for the node's own request where another change took its place. -/
def State.expireOwn (s : State) (p : PDie) : State :=
  match (s.port p).ownReq with
  | some r =>
    let shown := match (s.port p).net.pend with
      | some c => c.echo == r.echo
      | none => false
    if !r.expired && !shown && (s.port p).net.cycle == r.echo.cycle - 1 then
      (s.setPort p { s.port p with ownReq := some { r with expired := true } }).logP p .modeExpired [r.echo.target]
    else s
  | none => s

/-- MODE_EXPIRED (R210 step 7): cycle c − 1 of a change not agreed. -/
def execModeExpired (p : PDie) (s : State) : Out :=
  .next (if s.chOn p then (s.expireOwn p).expireChange p else s)

/-- The leader's own request (R230): the target and node count, when due. -/
def State.leaderRequest (s : State) (p : PDie) : Option DueRequest :=
  let n := NetId.ctl p
  let x := s.net n
  if x.phase = .active ∧ s.ttSyncNode n = true ∧ s.lowestIn n x.id = true ∧ x.stable = true ∧ x.view = .complete x.count x.pos ∧
      pendingChange x = false then
    match s.designated n x.count with
    | some m => if m = x.mode then none else some ⟨m, some x.count⟩
    | none => none
  else none

/-! ### Own frames (R203, R217, R224) -/

/-- What a slot sends. -/
structure OwnFrame where
  kind : BitVec 3
  payload : List Byte
deriving DecidableEq, Repr

/-- SYNC and COLDSTART payloads (R195). -/
def State.timingPayload (s : State) (p : PDie) : List Byte :=
  let x := (s.port p).net
  let echo := x.pend.filter fun (c : ModeChange) =>
    Sys2Proof.Machine.openModeChange c && x.cycle != c.since && serialLt x.cycle c.echo.cycle
  beBytes 8 x.cycleAt.toNat ++ beBytes 4 (s.reg p.unit Reg.ttTblCrc).toNat ++ [BitVec.ofNat 8 x.count] ++
  (match echo with
    | some c => [BitVec.ofNat 8 (128 + c.echo.target), c.echo.req, 0] ++ beBytes 2 c.echo.cycle.toNat
    | none => [0, 0, 0, 0, 0]) ++ List.replicate 6 0

/-- The MODE_REQ payload. -/
def modeReqPayload (d : DueRequest) (req : Byte) (c : Half) : List Byte :=
  [BitVec.ofNat 8 (d.target + 128 * bitNat d.inaug.isSome), req] ++ beBytes 2 c.toNat ++
    [BitVec.ofNat 8 (d.inaug.getD 0), 0, 0, 0]

/-- The INAUG payload. -/
def State.inaugPayload (s : State) (p : PDie) : List Byte :=
  let x := (s.port p).net
  let v := match x.view with
    | .complete c q => (c, q)
    | _ => (0, 0)
  beBytes 4 s.serial.toNat ++ [BitVec.ofNat 8 (bitNat (s.ttIdsrc (.ctl p))),
    BitVec.ofNat 8 (bitNat (s.portUp p .west) + 2 * bitNat (s.portUp p .east)), BitVec.ofNat 8 v.1,
    BitVec.ofNat 8 v.2, x.vseq] ++ List.replicate 7 0

/-- The four INAUG slots that end a mode, in order (R204, R224). -/
def State.inaugSlots (s : State) (n : NetId) (m : Nat) : List Slot := ((s.slots n m).reverse.take 4).reverse

/-- The present cycle is one of the node's round (R224). -/
def State.inaugRegular (s : State) (p : PDie) : Bool :=
  let r := s.inaugRound (.ctl p)
  (s.port p).net.cycle.toNat % r == s.serial.toNat / 4 % r

/-- After how many cycles a collided INAUG frame is sent again. -/
def State.retryGap (s : State) : Nat := 1 + s.serial.toNat % 8

/-- An INAUG frame is due in a slot (R224): the round's cycle, or the repetition after a collision since the node is integrated. -/
def State.inaugDue (s : State) (p : PDie) (sl : Slot) : Bool :=
  let n := NetId.ctl p
  let x := s.net n
  s.ktnUp p && ((s.inaugSlots n x.mode)[s.serial.toNat % 4]?).map (·.num) == some sl.num &&
    (s.inaugRegular p || (s.port p).retry.any fun c => decide (x.viewFrom ≤ c) && c + s.retryGap == x.total)

/-- The collision of the round's own frame in the present cycle is noted once; collisions whose repetition is over are forgotten. -/
def State.noteCollision (s : State) (p : PDie) (hit : Bool) : State :=
  let now := (s.port p).net.total
  let rest := (s.port p).retry.filter fun c => decide (now < c + s.retryGap)
  s.setPort p { s.port p with retry := if hit && s.inaugRegular p && !rest.contains now then rest ++ [now] else rest }

/-- The source address of a node's frames (R189). -/
def State.srcAddr (s : State) (p : PDie) : BitVec 48 :=
  BitVec.ofNat 48 (0x020000000000 + (match p with | .p1 => 0x0A | .p2 => 0x0B) * 256 + (s.port p).net.id % 256)
def broadcastAddr : BitVec 48 := 0xFFFFFFFFFFFF

def State.ownHeader (s : State) (p : PDie) (sl : Slot) (o : OwnFrame) : KHeader :=
  let x := (s.port p).net
  withHcrc { kind := o.kind, mode := BitVec.ofNat 3 x.mode, slot := BitVec.ofNat 10 sl.num
             sender := BitVec.ofNat 8 x.id, hop := 0, rsv0 := false, cycle := x.cycle, status := s.curStatus p, corr := 0
             ver := 1, rsv3 := false, plen := BitVec.ofNat 11 o.payload.length, hcrc := 0 }

/-- An own frame (R189), with its padding. -/
def State.ownFrame (s : State) (p : PDie) (sl : Slot) (o : OwnFrame) : KFrame :=
  ⟨broadcastAddr, s.srcAddr p, BitVec.ofNat 16 (s.ttf (.ctl p) Reg.ttCfg 31 16), false, s.ownHeader p sl o,
   o.payload ++ List.replicate (30 - o.payload.length) 0, true⟩

/-- A frame of a kind (own or forwarded) is still being sent on a port at an instant. -/
def State.lineBusy (s : State) (p : PDie) (q : Port) (own : Bool) (t : Dword) : Bool :=
  match (s.port p).line.get q with
  | some l => l.own == own && decide (l.start.toNat ≤ t.toNat) && decide (t.toNat < l.start.toNat + wireNs l.f)
  | none => false

/-- The ports on which an own frame of a slot finds a forwarded frame (R188). -/
def State.cuts (s : State) (p : PDie) (sl : Slot) : WE Bool :=
  let f := fun q => s.portUp p q && s.lineBusy p q false (s.planned p sl)
  ⟨f .west, f .east⟩

/-- When a frame of a slot starts on a port: 128 ns late where it cut a forwarded frame (R188). -/
def State.txStart (s : State) (p : PDie) (sl : Slot) (cut : Bool) : Dword :=
  s.planned p sl + (if cut then 128 else 0)

/-- Its stamp, at the first bit after preamble and SFD (R260). -/
def State.txTime (s : State) (p : PDie) (sl : Slot) (cut : Bool) : Dword := s.txStart p sl cut + 64

/-- A forwarded frame ends at an instant with 4 bytes of inverted FCS (R188). -/
def State.truncate (s : State) (p : PDie) (q : Port) (t : Dword) : State :=
  match (s.port p).line.get q with
  | some l =>
    let f := cutFrame l.f (t.toNat - l.start.toNat)
    (s.setPort p { s.port p with ended := (s.port p).ended.set q (some f) }).bump p.unit Reg.ttErr0 7 0
  | none => s

/-- A frame starts on a port, as far as the guardian's enables let it pass. -/
def State.putLine (s : State) (p : PDie) (q : Port) (f : KFrame) (start : Dword) : State :=
  let x := s.port p
  match s.passes p f start with
  | some g => s.setPort p { x with
      line := x.line.set q (some ⟨g, start, true⟩), ended := if g = f then x.ended else x.ended.set q (some g) }
  | none => s.setPort p { x with line := x.line.set q none }

/-- A frame leaves on both up ports; forwarded frames in its way end. -/
def State.sendOwn (s : State) (p : PDie) (sl : Slot) (cut : WE Bool) (o : OwnFrame) : State :=
  let f := s.ownFrame p sl o
  (s.upPorts p).foldl (fun t q =>
    let t := if cut.get q then t.truncate p q (s.planned p sl) else t
    t.putLine p q f (s.txStart p sl (cut.get q))) s

/-- Payload above PMAX (R203). -/
def State.oversize (s : State) (p : PDie) : State := s.bump p.unit Reg.ttErr2 15 8

/-- The slot's ring is lease-bound (R354). -/
def State.leaseBound (s : State) (p : PDie) (sl : Slot) : Bool :=
  sl.cls == clsMirror || s.flag p.unit Reg.lsBind sl.ring ||
    (s.slots (.ctl p) (s.port p).net.mode).any fun o =>
      o.cls == clsMirror && o.ring == sl.ring && o.owner == (s.port p).net.id

/-- The frames that stand on the lines of the up ports end with an inverted FCS (R289). -/
def State.spoilLines (s : State) (p : PDie) : State :=
  (s.upPorts p).foldl (fun t q =>
    let x := t.port p
    match x.line.get q with
    | some l => if l.own then t.setPort p { x with
        line := x.line.set q (some { l with f := { l.f with fcsOk := false } })
        ended := x.ended.set q (some { l.f with fcsOk := false }) } else t
    | none => t) s

/-- A ring frame is sent: TX time, time stamps and completion (R261, R262). With an uncorrectable error in the frame buffer it
ends on the wire with an inverted FCS, and its descriptor with ECC_FAIL (R289). -/
def State.sendRing (s : State) (p : PDie) (sl : Slot) (cut : WE Bool) (kind : BitVec 3) (a : Act) (ue : Bool) : State :=
  let t := s.sendOwn p sl cut ⟨kind, a.data⟩
  let t := if ue then t.spoilLines p else t
  let ups := s.upPorts p
  let times := ups.map fun q => s.txTime p sl (cut.get q)
  let time := match times with
    | [] => t.freeVal
    | x :: rest => rest.foldl (fun m y => if y.toNat < m.toNat then y else m) x
  let t := if ups = [] then t.useFree else t
  let t := ups.foldl (fun t q => t.pushTsq p q ⟨sl.ring, a.index, s.txTime p sl (cut.get q)⟩) t
  let info := withField (withField (0 : Word) 31 16 (s.port p).net.cycle.toNat) 9 0 sl.num
  (t.mapAct p sl.ring a.index fun b => { b with time := time, info0 := info }).endAct p sl.ring a.index
    (if ue then stEccFail else stOk) (if ue then (descOf a.desc).src else 0)

/-- The frame that a ring feeds into an own slot. -/
def State.sendFromRing (s : State) (p : PDie) (sl : Slot) (cut : WE Bool) (kind : BitVec 3) (ue : Bool) : State :=
  if s.leaseBound p sl && !((s.port p).heldNow && decide (8000 ≤ sl.start)) then s
  else if (s.ringBound p sl.ring).isSome then
    match s.gwRingFrame p sl.ring (s.planned p sl) with
    | (t, some bs) => if sl.pmax < bs.length then t.oversize p else t.sendOwn p sl cut ⟨kindData, bs⟩
    | (t, none) => t
  else
    let st := s.chState p sl.ring
    match firstOpen (s.chan p sl.ring).acts with
    | some a =>
      -- The payload was held 1 µs before the planned start, and during a hold there is room for the write-back (R277, R293).
      let early := (s.planned p sl).toNat < a.time.toNat + 1000
      let room := s.holdRoom p (s.chOwner p sl.ring) 32
      if a.stage ≠ .ready ∨ !(st == .running || st == .draining) ∨ early ∨ room = false then s
      else if sl.pmax < a.data.length then (s.oversize p).endAct p sl.ring a.index stSlotMissed 0
      else s.sendRing p sl cut kind a ue
    | none => s

/-- A MODE_REQ is sent, and RESULT shows SENT: the change is pending in the node's view, unless another stands there that it does
not replace; it then expires at the requester (R210). -/
def State.sendModeReq (s : State) (p : PDie) (sl : Slot) (cut : WE Bool) (d : DueRequest) : State :=
  let n := NetId.ctl p
  let x := s.net n
  let c := switchCycle x.cycle (s.modeAlign n)
  let req := (s.port p).reqNum
  let t := s.sendOwn p sl cut ⟨kindModeReq, modeReqPayload d req c⟩
  let e : ModeEcho := ⟨d.target, req, c⟩
  let t := t.setPort p { t.port p with reqDue := none, reqNum := req + 1, ownReq := some ⟨e, false⟩ }
  let t := t.setModeResult p 0x01
  let new : ModeChange := ⟨e, x.id, x.cycle, true, false, false⟩
  if replaces x.pend new then t.setNet n { t.net n with pend := some new } else t

/-- An ACTIVE sync node counts its own SYNC frame as accepted, with offset 0 and its own echo (R209, R241). -/
def State.noteOwnSync (s : State) (p : PDie) (f : KFrame) : State :=
  let n := NetId.ctl p
  match s.syncIndex n (s.net n).id with
  | some i => s.setNet n (noteSync (s.net n) i f .west 0)
  | none => s

/-- The request due in a slot: the strand's, whatever other change has come since it was written (R210 step 3), or the leader's. -/
def State.requestDue (s : State) (p : PDie) : Option DueRequest :=
  match (s.port p).reqDue with
  | some d => some d
  | none => s.leaderRequest p

/-- The next management frame of a MGOWN slot. -/
def State.sendMg (s : State) (p : PDie) (sl : Slot) (cut : WE Bool) : State :=
  match (s.port p).mgq with
  | [] => s
  | m :: rest =>
    let bs := s.mgBytes p m
    let t := (s.setPort p (PortDie.refillMg { s.port p with mgq := rest })).rrSent p m
    if sl.pmax < bs.length then t.oversize p else t.sendOwn p sl cut ⟨kindMgmt, bs⟩

/-- Own frames in ACTIVE and HOLDOVER. PMAX limits ring frames, management frames and a MODE_REQ in a MGMT slot; the frames whose
length R205 fixes without PMAX, those of SYNC and INAUG slots, it does not (DESIGN CHOICE, log entry 172). -/
def State.sendActive (s : State) (p : PDie) (sl : Slot) (cut : WE Bool) (ue : Bool) : State :=
  let n := NetId.ctl p
  let x := s.net n
  let ready := s.anyReleased
  if sl.cls = clsInaug then
    if s.inaugDue p sl then
      (s.sendOwn p sl cut ⟨kindInaug, s.inaugPayload p⟩).noteCollision p ((s.upPorts p).any fun q => cut.get q)
    else s
  else if x.id = 0 ∨ sl.owner ≠ x.id ∨ x.conflict.isSome = true ∨ x.mute = true ∨ x.newId.isSome = true then s
  else if sl.cls = clsSync then
    match s.requestDue p, s.ownMgmt p, s.ttSyncNode n with
    | some d, false, true => s.sendModeReq p sl cut d
    | _, _, true =>
      let o : OwnFrame := ⟨kindSync, s.timingPayload p⟩
      (s.sendOwn p sl cut o).noteOwnSync p (s.ownFrame p sl o)
    | _, _, false => s
  else if sl.cls = clsMgmt then
    match s.requestDue p with
    | some d => if sl.pmax < 8 then s.oversize p else s.sendModeReq p sl cut d
    | none =>
      if sl.mgown then s.sendMg p sl cut
      else if ready then s.sendFromRing p sl cut kindMgmt ue else s
  else if ready then s.sendFromRing p sl cut (if sl.cls = clsLease then kindLease else kindData) ue
  else s

/-- Own frames in COLDSTART: a COLDSTART frame in the first own SYNC slot (R217), unless the ID is in conflict (R198). -/
def State.sendCold (s : State) (p : PDie) (sl : Slot) (cut : WE Bool) : State :=
  let n := NetId.ctl p
  let x := s.net n
  let first := (s.slots n x.mode).find? fun o => o.cls == clsSync && o.owner == x.id
  if first.map (·.num) = some sl.num ∧ x.id ≠ 0 ∧ x.conflict = none then s.sendOwn p sl cut ⟨kindCold, s.timingPayload p⟩
  else s

/-- OWN_FRAME_SEND (R203, R289): the planned instant of an own slot, perhaps with an uncorrectable error in the frame buffer. -/
def execOwnFrameSend (p : PDie) (slot : Nat) (ue : Bool) (s : State) : Out :=
  let n := NetId.ctl p
  let x := s.net n
  .next (if !s.chOn p then s
  else match s.slotInForce n slot with
    | none => s
    | some sl =>
      if x.phase = .active ∨ x.phase = .holdover then s.sendActive p sl (s.cuts p sl) ue
      else if x.phase = .coldstart then s.sendCold p sl (s.cuts p sl)
      else s)

/-! ### Link delay frames (R234 to R238) -/

/-- Bytes 0 to 27 of the payload of a link delay frame. -/
def linkBytes (f : LinkDelayFrame) : List Byte :=
  beBytes 4 f.serial.toNat ++ [f.port, BitVec.ofNat 8 (bitNat f.rxValid)] ++ beBytes 2 f.seq.toNat ++
    beBytes 2 f.asym.toNat ++ beBytes 2 f.rxSeq.toNat ++ beBytes 8 f.txPrev.toNat ++ beBytes 8 f.rxPrev.toNat

def withDcrc (f : LinkDelayFrame) : LinkDelayFrame := { f with dcrc := crc32c (linkBytes f) }

/-- Destination of link delay frames. -/
def linkAddr : BitVec 48 := 0x0180C200000E

/-- The asymmetry constant of a keeper's own port: the controller's `TB_ASYM`, the guardian's from the frame that the port
last sent. -/
def State.ownAsym (s : State) (n : NetId) (q : Port) : Int :=
  match n with
  | .ctl p => ((s.reg p.unit (Reg.tbAsym q.idx)).extractLsb' 0 16).toInt
  | .gd p => match (s.port p.other).linkFrame.get q with
    | some f => f.asym.toInt
    | none => 0

/-- A keeper takes a link delay frame. Answers whether a measurement was rejected. -/
def State.takeLinkFrame (s : State) (n : NetId) (q : Port) (f : LinkDelayFrame) (tRx : Dword) : State × Bool :=
  let x := s.net n
  let l := x.links.get q
  let got := some (f.seq, x.total, tRx)
  if f.serial ≠ l.nbr then
    (s.setNet n (setLink x q { l with
      nbr := f.serial, phase := .provisional, delay := s.linkDef n, meas := [], first := true, got := got, measAt := x.run }),
     false)
  else match measure l f x.total with
    | none => (s.setNet n (setLink x q { l with got := got }), false)
    | some m =>
      if m < 0 ∨ 32000 < m then (s.setNet n (setLink x q { l with got := got }), true)
      else (s.setNet n (setLink x q { useMeasure l (inbound m (s.ownAsym n q) f.asym.toInt) x.run with got := got }), false)

def State.linkReject (s : State) (p : PDie) (q : Port) : State := s.bump p.unit (Reg.tbLink q.idx) 23 16

/-- A link delay frame is right: its FCS and its DCRC (R235). -/
def linkFrameOk (f : LinkDelayFrame) : Bool := f.ok && f.dcrc == crc32c (linkBytes f)

/-- A link delay frame at the controller. -/
def State.linkIn (s : State) (p : PDie) (port : Port) (f : LinkDelayFrame) (tRx : Dword) : State :=
  let s := s.setPort p { s.port p with rxStamp := (s.port p).rxStamp.set port (some tRx) }
  if !linkFrameOk f then s.linkReject p port
  else
    let r := s.takeLinkFrame (.ctl p) port f tRx
    if r.2 then r.1.linkReject p port else r.1

/-- A link delay frame that ended `ago` ns after its first bit, at the controller and at the guardian's tap. -/
def State.linkTaken (s : State) (p : PDie) (port : Port) (f : LinkDelayFrame) (ago : Nat) : State :=
  let t := if s.chOn p && s.portUp p port then s.linkIn p port f (s.stamp (.ctl p) ago) else s
  if t.guardLive p.other && ((t.net (guardOf p)).links.get port).up && linkFrameOk f then
    (t.takeLinkFrame (guardOf p) port f (tenNs (s.stamp (guardOf p) ago))).1
  else t

/-- The link delay frame that the bytes of a frame spell, when its destination address makes it one (R235). A tag would shift its
payload. -/
def linkOf (f : KFrame) : LinkDelayFrame :=
  let bs := headBytes f.hdr ++ beBytes 2 f.hdr.hcrc.toNat ++ f.payload
  let g : LinkDelayFrame :=
    { dst := f.dst, src := f.src, etype := f.etype, serial := BitVec.ofNat 32 (beAt bs 0 4), port := byteAt bs 4
      rxValid := bitOf (byteAt bs 5) 0, seq := BitVec.ofNat 16 (beAt bs 6 2), asym := BitVec.ofNat 16 (beAt bs 8 2)
      rxSeq := BitVec.ofNat 16 (beAt bs 10 2), txPrev := BitVec.ofNat 64 (beAt bs 12 8), rxPrev := BitVec.ofNat 64 (beAt bs 20 8)
      dcrc := 0, ok := f.fcsOk && !f.tagged }
  if leAt bs 28 4 = (crc32c (slice bs 0 28)).toNat then withDcrc g else { g with ok := false }

/-! ### Forwarding (R186 to R188) -/

/-- The frame is the node's own, or an INAUG frame with its serial number, which identifies it unless it is 0 (R452). Any other frame
with the node's own ID counts as its own: it is not used on receipt (DESIGN CHOICE, log entry 170). -/
def State.isOwnFrame (s : State) (p : PDie) (f : KFrame) : Bool :=
  let id := (s.port p).net.id
  if f.hdr.kind = kindInaug then s.serial != 0 && inaugSerial f == s.serial else id != 0 && f.hdr.sender.toNat == id

/-- A frame of another sender that carries the node's own ID is not an own frame when it is an INAUG frame. -/
def State.notForwarded (s : State) (p : PDie) (f : KFrame) : Bool :=
  let id := (s.port p).net.id
  (id != 0 && f.hdr.sender.toNat == id) || (f.hdr.kind == kindInaug && inaugSerial f == s.serial)

/-- The forwarded frame (R186, R239). -/
def forwarded (x : Net) (port : Port) (f : KFrame) (residence : Nat) : KFrame :=
  let corr := min (2 ^ 32 - 1) (f.hdr.corr.toNat + 16 * residence + (x.links.get port).delay)
  { f with hdr := withHcrc { f.hdr with hop := f.hdr.hop + 1, corr := BitVec.ofNat 32 corr } }

/-- A frame that meets an own frame on its way out is dropped; an INAUG frame of the round is then sent again (R188,
R224). -/
def State.dropForward (s : State) (p : PDie) (q : Port) : State :=
  let t := s.bump p.unit Reg.ttErr0 7 0
  match (s.port p).line.get q with
  | some l =>
    if l.f.hdr.kind = kindInaug ∧ l.f.hdr.cycle = (s.port p).net.cycle then t.noteCollision p true else t
  | none => t

/-- A frame goes on out of the other port; its first bit leaves 64 ns before its stamp. -/
def State.passOn (s : State) (p : PDie) (port : Port) (f : KFrame) (tRx : Dword) (residence : Nat) : State :=
  let t := tRx + BitVec.ofNat 64 residence - 64
  let q := port.other
  if s.lineBusy p q true t then s.dropForward p q
  else if s.passesForward p then
    s.setPort p { s.port p with
      line := (s.port p).line.set q (some ⟨forwarded (s.port p).net port f residence, t, false⟩) }
  else s

/-- FRAME_FORWARD (R186 to R188): the header of a frame has been received. A link delay frame is never forwarded (R235). -/
def execFrameForward (p : PDie) (port : Port) (f : KFrame) (ago : Nat) (residence : Nat) (s : State) : Out :=
  let n := NetId.ctl p
  let x := s.net n
  let tRx := s.stamp n ago
  .next (if !s.chOn p || x.phase == .off || !s.portUp p port || f.dst == linkAddr then s
  else if !s.isKtn n f then s.bump p.unit Reg.ttErr0 15 8
  else if !headerOk f then s
  else
    let s := if f.hdr.hop.toNat = 127 then s.bump p.unit Reg.ttErr1 7 0 else s
    let fits := !s.ktnUp p || s.acceptance n f tRx (pathDelay x f port false) == .ok
    if f.hdr.hop.toNat = 127 || s.notForwarded p f || !fits || !s.portUp p port.other then s
    else s.passOn p port f tRx residence)

/-! ### Received frames (R192, R203, R214, R240, R251, R252) -/

/-- RXH0 and RXH1 of the write-back (R288), and KIND with PLEN. -/
def rxh0 (f : KFrame) (port : Port) : Word :=
  withBit (withField (withField (withField (withField (0 : Word) 31 24 f.hdr.sender.toNat) 23 21 f.hdr.mode.toNat)
    20 11 f.hdr.slot.toNat) 10 4 f.hdr.hop.toNat) 3 (port == .east)
def rxh1 (f : KFrame) : Word := withField (withField (0 : Word) 31 16 f.hdr.cycle.toNat) 15 0 f.hdr.status.toNat
def rxh2 (f : KFrame) : Word := withField (withField (0 : Word) 31 29 f.hdr.kind.toNat) 10 0 f.hdr.plen.toNat

/-- The payload that is delivered, without padding. -/
def deliveredBytes (f : KFrame) : List Byte := f.payload.take f.hdr.plen.toNat

/-- The KTN_RX PDU of a mode and slot. -/
def State.rxPdu (s : State) (p : PDie) (m slot : Nat) : Option Nat :=
  ((s.pdus p).find? fun d => d.kind == kKtnRx && fieldOf d.key 2 0 == m && fieldOf d.key 12 3 == slot).map (·.num)

/-- An accepted frame is delivered (R203, R295, R315). -/
def State.deliverFrame (s : State) (p : PDie) (port : Port) (f : KFrame) (tRx : Dword) (sl : Slot) (ue : Bool) : State :=
  let bs := deliveredBytes f
  let s : State := match s.rxPdu p f.hdr.mode.toNat sl.num with
    | some n => s.pduArrives p n bs
    | none => s
  if sl.cls = clsSync ∨ sl.cls = clsInaug then s
  else if f.hdr.kind = kindMgmt ∧ isRr bs = true then s.rrTake p f.hdr.sender bs
  else if sl.cls = clsMgmt ∧ sl.mgown = true then
    s.setPort p { s.port p with mgIn := (s.port p).mgIn ++ [(f.hdr.sender, bs)] }
  else if sl.rx then s.rxDeliver p (8 + sl.ring) bs tRx (rxh0 f port) (rxh1 f) (rxh2 f) ue
  else s

/-- A conflicting INAUG frame (R198). -/
def State.checkConflict (s : State) (p : PDie) (f : KFrame) : State :=
  let n := NetId.ctl p
  let x := s.net n
  if f.hdr.kind = kindInaug ∧ x.id ≠ 0 ∧ f.hdr.sender.toNat = x.id ∧ inaugSerial f ≠ s.serial then
    ((s.setNet n { x with conflict := some x.total }).bump p.unit Reg.ttErr1 15 8).logP p .idConflict
      [x.id, (inaugSerial f).toNat]
  else s

/-- SCHED_CRC of a listed node's SYNC frame differs from the active CRC (R208, R215). -/
def State.checkSched (s : State) (p : PDie) (f : KFrame) : State :=
  if f.hdr.kind = kindSync ∧ listed (s.syncList (.ctl p)) f.hdr.sender.toNat = true ∧ (s.port p).net.phase = .active ∧ schedCrcOf f ≠ s.reg p.unit Reg.ttTblCrc then
    s.bump p.unit Reg.ttErr1 23 16
  else s

/-- The copy used of a frame that passed R251: timing, inauguration, a request, and delivery (R203, R240). -/
def State.acceptFrame (s : State) (p : PDie) (w : WaitCopy) (P : Int) (sl : Slot) : State :=
  let n := NetId.ctl p
  let f := w.f
  let t := (s.useTiming n w.port f w.time P).checkSched p f
  let t := if f.hdr.kind = kindInaug ∧ sl.cls = clsInaug then t.recordInaug n w.port f else t
  let t := if f.hdr.kind = kindModeReq then t.takeModeReq p f else t
  t.deliverFrame p w.port f w.time sl w.ue

/-- The node follows a timing frame's sender. -/
def State.follows (s : State) (p : PDie) (port : Port) (f : KFrame) (tRx : Dword) : State :=
  let n := NetId.ctl p
  (s.setNet n (s.enterIntegrate n (s.net n) port f tRx (pathDelay (s.net n) f port false))).ktnState n

/-- The copy used of a valid timing frame at a node that is not integrated (R214, R219, R240). Adoption steps the timebase (R264). -/
def State.earlyUse (s : State) (p : PDie) (w : WaitCopy) : State :=
  let n := NetId.ctl p
  let x := s.net n
  let lower := w.f.hdr.kind == kindSync || decide (w.f.hdr.sender.toNat < x.id)
  if !s.isTiming n w.f then s
  else match x.phase with
    | .listen => s.follows p w.port w.f w.time
    | .coldstart => if lower then s.follows p w.port w.f w.time else s
    | .backoff => if lower then s.follows p w.port w.f w.time else s
    | .integrate =>
      let u := s.integrateFrame n w.port w.f w.time (pathDelay x w.f w.port false)
      if (u.net n).phase = .adopted then u.trigStep p else u
    | _ => s

/-- The copy used of a frame in a slot of an integrated node. -/
def State.slotUse (s : State) (p : PDie) (w : WaitCopy) : State :=
  match s.slotInForce (.ctl p) w.f.hdr.slot.toNat with
  | some sl => s.acceptFrame p w (pathDelay (s.port p).net w.f w.port false) sl
  | none => s

/-- The copy used, in the phase that the channel is in. -/
def State.copyUse (s : State) (p : PDie) (w : WaitCopy) : State :=
  let n := NetId.ctl p
  match (s.net n).phase with
  | .adopted => s.adoptedUse n w (pathDelay (s.net n) w.f w.port false)
  | .active => s.slotUse p w
  | .holdover => s.slotUse p w
  | _ => s.earlyUse p w

/-- A copy comes at the controller; answers whether it is a duplicate. -/
def State.copyOffer (s : State) (p : PDie) (key : Nat) (port : Port) (f : KFrame) (tRx : Dword) (ue : Bool) : State × Bool :=
  s.offer (.ctl p) (fun t w => t.copyUse p w) ⟨f, key, false, port, tRx, (s.port p).net.clock, ue⟩

/-- The copy that waits at the controller is used. -/
def State.copySettle (s : State) (p : PDie) : State := s.settle (.ctl p) fun t w => t.copyUse p w

/-- Foreign frames are SYNC frames of listed nodes (R223). -/
def State.noteForeign (s : State) (n : NetId) (f : KFrame) : State :=
  if f.hdr.kind = kindSync then s.foreignSync n f else s

/-- A well-formed frame at an integrated node. -/
def State.frameActive (s : State) (p : PDie) (port : Port) (f : KFrame) (tRx : Dword) (ue : Bool) : State :=
  let n := NetId.ctl p
  let acc := s.acceptance n f tRx (pathDelay (s.net n) f port false)
  let t := s.noteHeard n f (acc == .ok)
  match acc, s.slotInForce n f.hdr.slot.toNat with
  | .ok, some sl =>
    let r := t.copyOffer p (copyKey sl f port false) port f tRx ue
    if r.2 then r.1.bump p.unit Reg.ttErr2 7 0 else r.1
  | .early, _ => (t.bump p.unit Reg.tbWin 31 24).noteForeign n f
  | .late, _ => (t.bump p.unit Reg.tbWin 23 16).noteForeign n f
  | _, _ => (t.bump p.unit Reg.tbWin 15 8).noteForeign n f

/-- A valid timing frame in ADOPTED; only those that carry the expected counter count. -/
def State.frameAdopted (s : State) (p : PDie) (port : Port) (f : KFrame) (tRx : Dword) (ue : Bool) : State :=
  let n := NetId.ctl p
  let t := (s.setNet n { s.net n with since := (s.net n).clock }).noteHeard n f true
  if f.hdr.cycle = (t.net n).cycle then (t.copyOffer p 0 port f tRx ue).1 else t

/-- A well-formed KTN frame of another node in the phase that the channel is in. -/
def State.frameIn (s : State) (p : PDie) (port : Port) (f : KFrame) (tRx : Dword) (ue : Bool) : State :=
  let n := NetId.ctl p
  let timing := s.isTiming n f
  let early := if timing then
    s.offerEarly n (fun t w => t.copyUse p w) ⟨f, 0, false, port, tRx, (s.net n).clock, ue⟩ else s
  match (s.net n).phase with
  | .listen => early
  | .coldstart => early
  | .backoff => early
  | .integrate => early
  | .adopted => if timing then s.frameAdopted p port f tRx ue else s
  | .active => s.frameActive p port f tRx ue
  | .holdover => s.frameActive p port f tRx ue
  | .off => s

/-- A corrupted frame interrupts a cold start (R214). -/
def State.corrupted (s : State) (p : PDie) : State :=
  let n := NetId.ctl p
  let x := s.net n
  if x.phase = .coldstart then (s.setNet n { x with phase := .backoff, since := x.clock }).ktnState n else s

/-- FRAME_RECEIVE (R192, R203, R214, R251, R289): a frame is complete in the frame buffer, perhaps with an uncorrectable error,
`ago` ns after its first bit. One that is no KTN frame of the channel is not looked at further, whatever its FCS (DESIGN CHOICE, log
entry 171); a link delay frame is known by its address before any other test (R235). -/
def execFrameReceive (p : PDie) (port : Port) (f : KFrame) (ago : Nat) (ue : Bool) (s : State) : Out :=
  let n := NetId.ctl p
  let tRx := s.stamp n ago
  .next (if f.dst = linkAddr then s.linkTaken p port (linkOf f) ago
  else if !s.chOn p || !s.portUp p port then s
  else
    let s := s.setPort p { s.port p with rxStamp := (s.port p).rxStamp.set port (some tRx) }
    if (s.net n).phase == .off || !s.isKtn n f then s
    else if !headerOk f then (s.bump p.unit Reg.ttErr0 23 16).corrupted p
    else if !f.fcsOk then (s.bump p.unit Reg.ttErr0 31 24).corrupted p
    else
      let t := s.checkConflict p f
      if s.isOwnFrame p f then t else t.frameIn p port f tRx ue)

/-! ### Cycle starts (R199) -/

/-- CYCLE_START (R199). -/
def execCycleStart (p : PDie) (s : State) : Out :=
  .next (if s.chOn p && (s.port p).net.phase.timed then (s.copySettle p).nextCycle p else s)

/-! ### Time-outs of start-up (R214 to R218) -/

/-- COLDSTART with its cycle 0 (R217): the timebase steps to a whole µs, and the cycle's status word is taken. -/
def State.coldStart (s : State) (p : PDie) : State :=
  let n := NetId.ctl p
  (((s.setNet n (s.enterCold n (s.net n))).ktnState n).beginCycle p).trigStep p

/-- LISTEN_TIMEOUT (R214, R216): it has elapsed since LISTEN began or the last valid timing frame came. -/
def execListenTimeout (p : PDie) (s : State) : Out :=
  let n := NetId.ctl p
  let x := s.net n
  .next (if !s.chOn p || !s.listenDue n then s
  else match x.phase with
    | .listen => if s.ttCsNode n then s.coldStart p else s.setNet n { x with since := x.clock }
    | .integrate => (s.setNet n (relisten x)).ktnState n
    | .adopted => (s.setNet n (relisten x)).ktnState n
    | _ => s)

/-- BACKOFF_EXPIRE (R214, R218). -/
def execBackoffExpire (p : PDie) (s : State) : Out :=
  let n := NetId.ctl p
  .next (if s.chOn p && (s.net n).phase == .backoff && s.backoffDue n then s.coldStart p else s)

/-- No conflicting INAUG frame came for the stable time of R227. -/
def State.conflictOver (s : State) (n : NetId) : Bool :=
  match (s.net n).conflict with
  | some c => decide (c + 4 * s.inaugRound n ≤ (s.net n).total)
  | none => false

/-- ID_CONFLICT_CLEAR (R198). -/
def execIdConflictClear (p : PDie) (s : State) : Out :=
  let n := NetId.ctl p
  .next (if s.chOn p && s.conflictOver n then s.setNet n { s.net n with conflict := none } else s)

/-! ### Inauguration (R225 to R229) -/

/-- INAUG_RECORD_EXPIRE (R225), at the controller and at its guardian, each on its own. -/
def execInaugRecordExpire (p : PDie) (s : State) : Out :=
  let t := if s.chOn p then s.expireRecords (.ctl p) else s
  .next (if t.guardLive p.other then t.expireRecords (guardOf p) else t)

/-- A complete view is stable at a keeper (R227, R228): count, position and, with IDSRC 1, the ID. A position above 128
gives ID 0. A later position is taken at the next cycle start, and the node is silent until the designated mode is in
force. -/
def State.stableView (s : State) (n : NetId) (count pos : Nat) : Net :=
  let x := s.net n
  let y := { x with stable := true, count := count, pos := pos }
  if s.ttIdsrc n = false ∨ pos = x.pos then y
  else
    let id := if pos ≤ 128 then pos else 0
    if x.pos = 0 then { y with id := id } else { y with newId := some id, mute := true }

/-- A keeper's view has not changed for the stable time; an incomplete one keeps the last count and position (R227). -/
def State.settledView (s : State) (n : NetId) : Net :=
  match (s.net n).view with
  | .complete c pos => s.stableView n c pos
  | _ => { s.net n with stable := true }

/-- The view of the channel controller settles (R227 to R229). -/
def State.settleView (s : State) (p : PDie) : State :=
  let n := NetId.ctl p
  let was := (s.net n).count
  let y := s.settledView n
  let t := s.setNet n y
  let t := if y.count = was then t else t.ktnState n
  let t := if y.count ≠ was ∧ s.designated n y.count = none then t.logP p .noMode [y.count] else t
  match y.view with
  | .complete _ pos => if s.ttIdsrc n = true ∧ 128 < pos then t.logP p .inaugRange [pos] else t
  | _ => t

/-- The view of the guardian of a channel settles; an ID that comes into force exempts two cycles (R257). -/
def State.settleGuardView (s : State) (p : PDie) : State :=
  let n := guardOf p
  let y := s.settledView n
  let x := s.net n
  let t := s.setNet n y
  if y.id ≠ x.id then
    t.setGuard p.other { (t.port p.other).guard with exemptUntil := y.total + 2 }
  else t

/-- INAUG_VIEW_STABLE (R227 to R229), at the controller and at its guardian, each on its own. -/
def execInaugViewStable (p : PDie) (s : State) : Out :=
  let t := if s.chOn p && s.viewSettled (.ctl p) then s.settleView p else s
  .next (if t.guardLive p.other && t.viewSettled (guardOf p) then t.settleGuardView p else t)

end Sys2Proof.Machine
end

