-- ==== Sys2Proof/Machine/KtnTime.lean ====
section
/-! DEFINITION. KTN time: cycle ends (R242 to R249), holdover, dropped sync nodes (R246) and link delays (R234 to R238). -/

namespace Sys2Proof.Machine

/-! ### Cycle end -/

/-- A cold starter has completed cycles 0 to 5 (R214). -/
def State.endColdStart (s : State) (n : NetId) : State :=
  let x := s.net n
  if 5 ≤ x.cycle.toNat then
    (s.setNet n { x with phase := .active, viewFrom := x.total, viewSince := x.total }).ktnState n
  else s

/-- The end of a cycle at the controller. -/
def State.endCycle (s : State) (p : PDie) : State :=
  let n := NetId.ctl p
  match (s.net n).phase with
  | .coldstart => s.endColdStart n
  | .adopted => (s.endAdopted n 6).noteMembers n
  | .active => (s.endActive n).noteMembers n
  | .holdover => (s.endHoldover n).noteMembers n
  | _ => s

/-- CYCLE_END_SYNC (R219, R242 to R249). On the return to ACTIVE triggers that waited fire (R264). -/
def execCycleEndSync (p : PDie) (s : State) : Out :=
  .next (if !s.chOn p then s
  else
    let t := s.copySettle p
    let u := t.endCycle p
    if (t.port p).net.phase ≠ .active ∧ (u.port p).net.phase = .active then u.trigReturn p else u)

/-- `HOLDOVER_MAX`: below 16 it is treated as 16. -/
def State.holdMax (s : State) (p : PDie) : Nat := max 16 (fieldOf (s.port p).cfg 31 16)

/-- HOLDOVER_EXPIRE (R248). -/
def execHoldoverExpire (p : PDie) (s : State) : Out :=
  let n := NetId.ctl p
  .next (if s.chOn p && (s.net n).phase == .holdover && decide (s.holdMax p ≤ (s.net n).hcount) then s.loseSync n else s)

/-- A node that was dropped for 64 cycles contributes again; the change suspends the drift of the cycle (R242). -/
def State.undrop (s : State) (n : NetId) (node : Nat) : State :=
  match s.syncIndex n node with
  | some i =>
    let x := s.net n
    match ((x.syncs[i]?).getD emptySyncRec).dropAt with
    | some c =>
      if c + 64 ≤ x.total then s.setNet n { modifySync x i (fun r => { r with dropAt := none }) with changed := true } else s
    | none => s
  | none => s

/-- PATH_DROP_EXPIRE (R246), at the controller and at its guardian, each on its own. -/
def execPathDropExpire (p : PDie) (node : Byte) (s : State) : Out :=
  let t := if s.chOn p then s.undrop (.ctl p) node.toNat else s
  .next (if t.guardLive p.other then t.undrop (guardOf p) node.toNat else t)

/-! ### Link delays (R234 to R238) -/

/-- The frame of a port: what the manual does not give before the second frame is a free value (log entry 6). -/
def State.linkFrameOf (s : State) (p : PDie) (q : Port) : LinkDelayFrame :=
  let l := (s.port p).net.links.get q
  let prev := l.sent.find? fun e => e.1 == l.seq - 1
  withDcrc
    { dst := linkAddr, src := s.srcAddr p, etype := BitVec.ofNat 16 (s.ttf (.ctl p) Reg.ttCfg 31 16), serial := s.serial, port := BitVec.ofNat 8 q.idx, rxValid := l.got.isSome, seq := l.seq
      asym := (s.reg p.unit (Reg.tbAsym q.idx)).extractLsb' 0 16
      rxSeq := match l.got with | some g => g.1 | none => 0
      txPrev := match prev with | some e => e.2.2 | none => s.freeVal
      rxPrev := match l.got with | some g => g.2.2 | none => 0
      dcrc := 0, ok := true }

/-- A keeper notes a frame sent on a port. -/
def State.noteLinkSent (s : State) (n : NetId) (q : Port) (tx : Dword) : State :=
  let x := s.net n
  let l := x.links.get q
  s.setNet n (setLink x q { l with seq := l.seq + 1, sent := keep3 ((l.seq, x.total, tx) :: l.sent) })

/-- Link delay frames start 1600 ns before the planned start of the next cycle. -/
def State.linkStart (s : State) (p : PDie) : Dword :=
  let x := (s.port p).net
  x.cycleAt + BitVec.ofNat 64 (s.cycleNs (.ctl p) x.mode) - 1600

/-- Time of a link delay frame on the line, from preamble to the end of FCS, in ns. -/
def linkWireNs : Nat := 576

/-- What the guardian of channel `p` lets stand on the line of a link delay frame (R255, R257): all of it, or one with a wrong FCS
where its enables close before the end or open after the start. -/
def State.linkPasses (s : State) (p : PDie) (f : LinkDelayFrame) (start : Dword) : Option LinkDelayFrame :=
  let t := s.guardTime p.other start
  match s.enableRoom p.other t with
  | some r => some (if linkWireNs ≤ r then f else { f with ok := false })
  | none => if s.enablesOpen p.other (t + BitVec.ofNat 64 linkWireNs) then some { f with ok := false } else none

/-- The frame of one port leaves, as the guardian's tail window lets it, and both keepers note its time: the guardian from
its tap, in its own time (R253). Sequence numbers of both keepers follow the frames of the port. -/
def State.sendLink (s : State) (p : PDie) (q : Port) : State :=
  let f := s.linkFrameOf p q
  let start := s.linkStart p
  let t := s.setPort p { s.port p with linkFrame := (s.port p).linkFrame.set q (s.linkPasses p f start) }
  let t := t.useFree
  let g := t.net (guardOf p)
  let t := t.setNet (guardOf p) (setLink g q { g.links.get q with seq := f.seq })
  let tx := start + 64
  (t.noteLinkSent (.ctl p) q tx).noteLinkSent (guardOf p) q (tenNs (t.guardTime p.other tx))

/-- LINK_DELAY_SEND (R234): once a cycle, on each up port. -/
def execLinkDelaySend (p : PDie) (s : State) : Out :=
  let x := (s.port p).net
  .next (if !s.chOn p || !(x.phase == .adopted || x.phase == .active || x.phase == .holdover) ||
      (s.port p).linkSentAt == some x.total then s
  else
    let t := s.setPort p { s.port p with linkSentAt := some x.total }
    (t.upPorts p).foldl (fun t q => t.sendLink p q) t)

/-- LINK_DELAY_RECEIVE (R235 to R238): recognised by its destination address; the guardian's tap sees it too. -/
def execLinkDelayReceive (p : PDie) (port : Port) (f : LinkDelayFrame) (ago : Nat) (s : State) : Out :=
  .next (if f.dst ≠ linkAddr then s else s.linkTaken p port f ago)

/-- A keeper's link changes. -/
def State.mapLink (s : State) (n : NetId) (q : Port) (f : LinkState → LinkState) : State :=
  s.setNet n (setLink (s.net n) q (f ((s.net n).links.get q)))

/-- The end of a period at a keeper, and the end of 1 s without a measurement, when they are due by its timebase (R238). -/
def State.linkPeriod (s : State) (n : NetId) (q : Port) : State :=
  if periodDue ((s.net n).links.get q) (s.net n).run then s.mapLink n q periodMedian else s
def State.linkStale (s : State) (n : NetId) (q : Port) : State :=
  if staleDue ((s.net n).links.get q) (s.net n).run then
    s.mapLink n q fun l => { l with phase := .stale, meas := [] }
  else s

/-- LINK_DELAY_UPDATE (R238): a period of 125 ms ends, at the controller and at its guardian, each on its own. -/
def execLinkDelayUpdate (p : PDie) (port : Port) (s : State) : Out :=
  let t := if s.chOn p then s.linkPeriod (.ctl p) port else s
  .next (if t.guardLive p.other then t.linkPeriod (guardOf p) port else t)

/-- LINK_DELAY_STALE (R238): 1 s without a valid measurement. -/
def execLinkDelayStale (p : PDie) (port : Port) (s : State) : Out :=
  let t := if s.chOn p then s.linkStale (.ctl p) port else s
  .next (if t.guardLive p.other then t.linkStale (guardOf p) port else t)

end Sys2Proof.Machine
end

