-- ==== Sys2Proof/Machine/KtnCommit.lean ====
section
/-! DEFINITION. The KTN commit (R205 to R207) and the guardian's part in it (R259). -/

namespace Sys2Proof.Machine

/-! ### Staged tables of a keeper -/

/-- The staged registers of a keeper's own set. -/
def State.modeCycStg (s : State) (n : NetId) (m : Nat) : Word := s.tt n (Reg.ttModeCycStg m)
def State.stgValid (s : State) (n : NetId) (m : Nat) : Bool := bitOf (s.modeCycStg n m) 31
def State.stgNslot (s : State) (n : NetId) (m : Nat) : Nat := fieldOf (s.modeCycStg n m) 26 16
def State.stgCycleNs (s : State) (n : NetId) (m : Nat) : Nat := 1000 * fieldOf (s.modeCycStg n m) 15 0

def State.slotStg (s : State) (n : NetId) (m i : Nat) : Slot :=
  slotOf i (s.tt n (Reg.ttSlotLoStg m i)) (s.tt n (Reg.ttSlotHiStg m i))

/-- The valid staged slots of a mode. -/
def State.slotsStg (s : State) (n : NetId) (m : Nat) : List Slot :=
  ((List.range (s.stgNslot n m)).map fun i => s.slotStg n m i).filter fun x => x.valid

def State.stgModes (s : State) (n : NetId) : List Nat := (List.range 8).filter fun m => s.stgValid n m

/-- Every valid slot of every valid staged mode. -/
def State.allStgSlots (s : State) (n : NetId) : List Slot := (s.stgModes n).flatMap fun m => s.slotsStg n m

/-! ### The rules of R205 -/

/-- Frame time T(P) of R201 in ns. -/
def frameTime (payload : Nat) : Nat := (54 + max payload 30) * 8

/-- The payload that fixes a slot's minimum length. -/
def slotPayload (sl : Slot) : Nat :=
  if sl.cls = clsSync then 24 else if sl.cls = clsInaug then 16 else sl.pmax

def slotMin (sl : Slot) (win : Nat) : Nat := frameTime (slotPayload sl) + 2 * win + 400

/-- Slots in ascending order without overlap, ending no later than the cycle. -/
def slotsOrdered (cycle : Nat) : List Slot → Bool
  | [] => true
  | [x] => decide (x.start + x.len ≤ cycle)
  | x :: y :: t => decide (x.start + x.len ≤ y.start) && decide (x.start < y.start) && slotsOrdered cycle (y :: t)

def slotEncodingOk (sl : Slot) : Bool :=
  sl.len != 0 && decide (sl.pmax ≤ 1440) && decide (sl.cls ≤ 5) && (!sl.mgown || sl.cls == clsMgmt)

/-- R204: the last four valid slots. -/
def endsWithInaug (xs : List Slot) : Bool :=
  let last := xs.reverse.take 4
  last.length == 4 && last.all fun sl => sl.cls == clsInaug && sl.owner == 255

def State.ttEncodingOk (s : State) (n : NetId) : Bool :=
  let cfg := s.tt n Reg.ttCfgStg
  let tc := s.tt n Reg.ttTimeCfgStg
  let node := fieldOf cfg 15 8
  let lists := s.idList n Reg.ttSynclistStg ++ s.idList n Reg.ttCslistStg ++ s.idList n Reg.ttAuthStg
  decide (0x600 ≤ fieldOf cfg 31 16) && (bitOf cfg 4 || (node != 0 && node != 255)) &&
  decide (100 ≤ fieldOf tc 31 21) && decide (fieldOf tc 31 21 ≤ 2000) && decide (10 ≤ fieldOf tc 17 10) &&
  decide (2 ≤ fieldOf tc 6 3) && decide (fieldOf tc 6 3 ≤ 8) && lists.all (fun i => i != 255) &&
  (s.stgModes n).all (fun m => decide (5 ≤ s.stgNslot n m) && decide (s.stgNslot n m ≤ 1024) &&
    decide (250000 ≤ s.stgCycleNs n m) && decide (s.stgCycleNs n m ≤ 64000000)) &&
  (List.range 8).all (fun m =>
    let sel := s.tt n (Reg.ttModeSelStg m)
    !bitOf sel 31 || (decide (fieldOf sel 23 16 ≤ 128) && decide (1 ≤ fieldOf sel 15 8) &&
      decide (fieldOf sel 15 8 ≤ fieldOf sel 23 16))) &&
  (s.allStgSlots n).all slotEncodingOk

def State.ttListOk (s : State) (n : NetId) : Bool :=
  let cfg := s.tt n Reg.ttCfgStg
  let id := fieldOf cfg 15 8
  let sync := s.idList n Reg.ttSynclistStg
  let cold := s.idList n Reg.ttCslistStg
  (!bitOf cfg 2 || (listed sync id && !bitOf cfg 4)) &&
  (!bitOf cfg 3 || (listed sync id && listed cold id && !bitOf cfg 4)) &&
  (s.allStgSlots n).all fun sl => sl.cls != clsSync || listed sync sl.owner

/-- The first of rules 0x01 to 0x07 that a keeper's staged copies break. -/
def State.ttCheck (s : State) (n : NetId) : Option Nat :=
  let tc := s.tt n Reg.ttTimeCfgStg
  let modes := s.stgModes n
  let rules : List (Nat × Bool) := [
    (0x01, s.ttEncodingOk n),
    (0x02, modes.all fun m => slotsOrdered (s.stgCycleNs n m) (s.slotsStg n m)),
    (0x03, (s.allStgSlots n).all fun sl => decide (slotMin sl (fieldOf tc 31 21) ≤ sl.len)),
    (0x04, modes.all fun m => endsWithInaug (s.slotsStg n m)),
    (0x05, (s.allStgSlots n).all fun sl => sl.owner != 0 && (sl.owner != 255 || sl.cls == clsInaug)),
    (0x06, s.ttListOk n),
    (0x07, s.stgValid n (fieldOf tc 9 7) && (!(s.net n).phase.timed || s.stgValid n (s.net n).mode))]
  (rules.find? fun r => !r.2).map (·.1)

/-- The words of a staged CRC, in order (R206). -/
def State.ttWords (s : State) (n : NetId) : List Word :=
  [s.tt n Reg.ttCfgStg, s.tt n Reg.ttTimeCfgStg, s.tt n (Reg.ttSynclistStg 0), s.tt n (Reg.ttSynclistStg 1),
   s.tt n (Reg.ttCslistStg 0), s.tt n (Reg.ttCslistStg 1), s.tt n (Reg.ttAuthStg 0), s.tt n (Reg.ttAuthStg 1)] ++
  (List.range 8).flatMap fun m =>
    [s.modeCycStg n m, s.tt n (Reg.ttModeSelStg m)] ++
      (if s.stgValid n m then
        (List.range (s.stgNslot n m)).flatMap fun i => [s.tt n (Reg.ttSlotLoStg m i), s.tt n (Reg.ttSlotHiStg m i)]
       else [])

/-! ### Taking effect -/

/-- A keeper's staged copies become its active ones. -/
def State.applyTables (s : State) (n : NetId) : State :=
  let u := n.host.unit
  let copy := fun (t : State) (dest frm : Nat) => t.setReg u (n.key dest) (t.reg u (n.key frm))
  let t := copy (copy s Reg.ttCfg Reg.ttCfgStg) Reg.ttTimeCfg Reg.ttTimeCfgStg
  let t := [0, 1].foldl (fun t i =>
    copy (copy (copy t (Reg.ttSynclist i) (Reg.ttSynclistStg i)) (Reg.ttCslist i) (Reg.ttCslistStg i))
      (Reg.ttAuth i) (Reg.ttAuthStg i)) t
  let t := (List.range 8).foldl (fun t m =>
    copy (copy t (Reg.ttModeCyc m) (Reg.ttModeCycStg m)) (Reg.ttModeSel m) (Reg.ttModeSelStg m)) t
  let t := copy t Reg.ttTblCrc Reg.ttTblCrcStg
  t.copyRegs u (n.key (Reg.ttSlotLoStg 0 0)) (n.key (Reg.ttSlotLo 0 0)) 0x10000

/-- NODE_ID, IDSRC, SYNC_NODE and CS_NODE. -/
def roleBits (cfg : Word) : Word := cfg &&& 0x0000FF1C

/-- The channel state after new settings (R207, R214). -/
def State.newSettings (s : State) (n : NetId) (old : Word) : Net :=
  let x := s.net n
  let y := { x with id := s.idNow n }
  if s.ttEn n = false then { relisten y with phase := .off }
  else if x.phase = .off then relisten y
  else if n.host = n.channel ∧ roleBits old ≠ roleBits (s.tt n Reg.ttCfg) then relisten y
  else y

/-- The controller's tables take effect. -/
def State.takeTables (s : State) (p : PDie) : State :=
  let n := NetId.ctl p
  let old := s.tt n Reg.ttCfg
  let was := (s.net n).phase
  let t := s.applyTables n
  let t := t.setNet n (t.newSettings n old)
  if (t.net n).phase = was then t else t.ktnState n

/-- The guardian's tables take effect with them; EN 0 takes it to OFF unless it is FENCED. -/
def State.takeGuardTables (s : State) (p : PDie) : State :=
  let host := p.other
  let n := NetId.gd host
  let old := s.tt n Reg.ttCfg
  let oldId := (s.net n).id
  let t := s.applyTables n
  let t := t.setReg host.unit Reg.gdLimits (t.reg host.unit Reg.gdLimitsStg)
  let y := t.newSettings n old
  let g := (t.port host).guard
  t.setGuard host { g with
    net := y, latched := g.latched && t.ttEn n, commit := none
    exemptUntil := if y.id = oldId then g.exemptUntil else y.total + 2 }

/-- An accepted commit takes effect at both sides. -/
def State.ttTakeEffect (s : State) (p : PDie) : State :=
  let t := (s.takeTables p).takeGuardTables p
  (t.setPort p { t.port p with commit := none }).commitResult p.unit Reg.ttCommit 0

/-- A commit ends with a refusal. -/
def State.ttRefuse (s : State) (p : PDie) (code : Nat) : State :=
  let t := s.setPort p { s.port p with commit := none }
  let t := t.setGuard p.other { (t.port p.other).guard with commit := none, reply := none }
  t.commitResult p.unit Reg.ttCommit code

/-! ### Commands -/

/-- GO in `TT_COMMIT`. Whether the commit takes effect at the reply or at cycle C is settled by the channel's state now (DESIGN
CHOICE, log entry 173). -/
def State.ttGo (s : State) (p : PDie) : State :=
  let n := NetId.ctl p
  let x := s.net n
  if s.commitBusy p.unit Reg.ttCommit then s.ignored p.unit Reg.ttCommit .mgmt
  else match s.ttCheck n with
    | some c => s.commitResult p.unit Reg.ttCommit c
    | none =>
      let c := if x.phase = .adopted ∨ x.phase = .active ∨ x.phase = .holdover then
        some (switchCycle x.cycle (s.modeAlign n)) else none
      let t := s.setReg p.unit Reg.ttTblCrcStg (crc32cWords (s.ttWords n))
      let t := t.setPort p { t.port p with commit := some ⟨c, false, t.ns⟩ }
      t.setFlag p.unit Reg.ttCommit 1 true

/-- TT_COMMIT_GO (R205). -/
def execTtCommitGo (p : PDie) (s : State) : Out := .next (if s.chOn p && s.mOn then s.ttGo p else s)

/-- R259: the last valid slot of every valid mode ends at least 2 µs before the cycle end. -/
def State.tailOk (s : State) (n : NetId) : Bool :=
  (s.stgModes n).all fun m => match (s.slotsStg n m).getLast? with
    | some sl => decide (sl.start + sl.len + 2000 ≤ s.stgCycleNs n m)
    | none => true

/-- The rule that a guardian's staged copies break. -/
def State.guardRule (s : State) (n : NetId) : Option Nat :=
  match s.ttCheck n with
  | some c => some c
  | none => if s.tailOk n then none else some 0x20

/-- The guardian that die `p` hosts checks its staged copies and replies. The relay of M-main carries the exchange. -/
def State.guardCheck (s : State) (p : PDie) : State :=
  let n := NetId.gd p
  let g := (s.port p).guard
  match (s.port p.other).commit with
    | some c =>
      if !(s.consumer .m).running || c.accepted || g.reply.isSome || g.stopped then s
      else
        let rule := s.guardRule n
        let ahead := match c.cycle with
          | some k => serialLt g.net.cycle k
          | none => true
        let ok := rule.isNone && ahead
        let crc := crc32cWords (s.ttWords n)
        let t := s.setReg p.unit (n.key Reg.ttTblCrcStg) crc
        let t := match rule with
          | some r => t.setFld p.unit Reg.gdStat 15 8 r
          | none => t
        t.setGuard p { g with reply := some (crc, ok), commit := if ok then some ⟨c.cycle, true, c.since⟩ else none }
    | none => s

/-- GUARD_COMMIT_CHECK (R206, R207, R259). -/
def execGuardCommitCheck (p : PDie) (s : State) : Out := .next (s.guardCheck p)

/-- The guardian's reply arrives at the controller of channel `p`. -/
def State.guardReply (s : State) (p : PDie) : State :=
  let g := (s.port p.other).guard
  match (s.port p).commit, g.reply with
    | some c, some (crc, ok) =>
      if !s.chOn p || c.accepted then s
      else
        let t := (s.setReg p.unit Reg.ttGdCrc crc).setGuard p.other { g with reply := none }
        if crc ≠ t.reg p.unit Reg.ttTblCrcStg then t.ttRefuse p 0x08
        else if !ok then t.ttRefuse p 0x09
        else match c.cycle with
          | none => t.ttTakeEffect p
          | some _ => t.setPort p { t.port p with commit := some { c with accepted := true } }
    | _, _ => s

/-- GUARD_COMMIT_REPLY (R205 to R207). -/
def execGuardCommitReply (p : PDie) (s : State) : Out := .next (s.guardReply p)

/-- GUARD_TIMEOUT (R205): 1 ms after GO without a reply. -/
def execGuardTimeout (p : PDie) (s : State) : Out :=
  .next (match (s.port p).commit with
    | some c => if s.chOn p && !c.accepted && decide (c.since + 1000000 ≤ s.ns) then s.ttRefuse p 0x0A else s
    | none => s)

/-- TT_COMMIT_TAKE_EFFECT (R207): cycle C has started. A channel that no longer times cycles waits for none. -/
def execTtCommitTakeEffect (p : PDie) (s : State) : Out :=
  let x := (s.port p).net
  .next (match (s.port p).commit with
    | some ⟨some c, true, _⟩ =>
      if s.chOn p && (!serialLt x.cycle c || !x.phase.timed) then s.ttTakeEffect p else s
    | _ => s)

end Sys2Proof.Machine
end

