-- ==== Sys2Proof/Machine/FieldOut.lean ====
section
/-! DEFINITION. The digital outputs (R330 to R338): the command path, output update instants, OFF pulses, faults and
the field supply; and the choice of the port die whose triggers F acts on (R329). -/

namespace Sys2Proof.Machine

/-- F is fitted and runs. -/
def State.fOn (s : State) : Bool := s.fFitted && s.consumers.f.running

/-! ### Trigger selection (R329) -/

/-- Actions of R329, by their bit of USING and FALLBACK in `FD_STAT`: 0 input sampling, 1 analog conversion,
2 output update. -/
def trigSource (sel : Word) (act : Nat) : Nat := fieldOf sel (2 * act + 1) (2 * act)

/-- The die that a source setting names first. -/
def preferred (src : Nat) : PDie := if src % 2 = 0 then .p1 else .p2

def State.inFallback (s : State) (act : Nat) : Bool := s.flag .f Reg.fdStat (12 + act)

/-- The die in use for an action. -/
def State.dieInUse (s : State) (act : Nat) : PDie := if s.flag .f Reg.fdStat (8 + act) then .p2 else .p1

def State.useDie (s : State) (act : Nat) (p : PDie) (fallback : Bool) : State :=
  (s.setFlag .f Reg.fdStat (8 + act) (p == .p2)).setFlag .f Reg.fdStat (12 + act) fallback

/-- The preferred die of an action is taken to have sent its latest trigger now. -/
def State.markPref (s : State) (act : Nat) : State :=
  { s with field := { s.field with prefAt := s.field.prefAt.set act s.ns } }

/-- A trigger of an action from a die: the preferred die's trigger ends a fallback. -/
def State.noteTrigger (s : State) (act : Nat) (p : PDie) : State :=
  if preferred (trigSource s.field.trigSel act) = p then
    let t := s.markPref act
    if t.inFallback act then t.useDie act p false else t
  else s

/-- FB_MS in ns: 0 is treated as 1. -/
def State.fallbackNs (s : State) : Nat := 1000000 * max 1 (fieldOf s.field.trigSel 15 8)

/-- TRIGGER_FALLBACK (R329): the preferred die has sent no trigger of an action for FB_MS. -/
def execTriggerFallback (action : BitVec 2) (s : State) : Out :=
  let act := action.toNat - 1
  let src := trigSource s.field.trigSel act
  .next (if s.fOn && decide (action ≠ 0) && decide (2 ≤ src) && !s.inFallback act &&
      decide ((s.field.prefAt[act]?).getD 0 + s.fallbackNs ≤ s.ns) then
    s.useDie act (preferred src).other true else s)

/-- A changed `FD_TRIG_SEL` takes effect at a sample (R343): an action whose source changed starts on its first die,
and the fallback time of that die counts from then (DESIGN CHOICE, log 138). -/
def State.takeTrigSel (s : State) : State :=
  let new := s.reg .f Reg.fdTrigSel
  let old := s.field.trigSel
  let t := (List.range 3).foldl (fun (t : State) act =>
    if trigSource new act = trigSource old act then t
    else (t.useDie act (preferred (trigSource new act)) false).markPref act) s
  { t with field := { t.field with trigSel := new } }

/-! ### Command path (R331, R332, R334) -/

/-- Group of an output or input. -/
def groupOf (n : Nat) : Nat := n / 8

/-- UPD of the group of output n. -/
def State.waitsUpdate (s : State) (n : Nat) : Bool := s.flag .f Reg.fdDoCfg (groupOf n)

/-- A lane's beat sets that lane's latches for the outputs that the strand owns. -/
def State.commandLatches (s : State) (l : Lane) (k : Strand) (w : Word) : State :=
  let step := fun (x : BitVec 16 × BitVec 16) (n : Nat) =>
    if bitOf w (16 + n) && s.outOwner n == k then
      let on := bitOf w n
      (withBit x.1 n on, if on then (if s.waitsUpdate n then x.2 else withBit x.2 n true) else withBit x.2 n false)
    else x
  let r := (List.range 16).foldl step (s.pendingLatch l, s.activeLatch l)
  s.setLatches l r.1 r.2

/-- F takes a beat of `FD_DO_CMD` over the lane's link from a lane whose replica is in the voter's in-step set, from its join
ordinal on; a lane that holds F fenced sends no ON (R333). -/
def State.doCmdTake (s : State) (l : Lane) (k : Strand) (ordinal : Word) (w : Word) : State :=
  if s.fOn && (s.lane l).junction.get .f && (s.expects .f k ordinal).contains l && !s.voterHalted .f k && !(s.lane l).fenceF then
    s.commandLatches l k w else s

/-- DO_CMD_BEAT (R331): on arrival, before the vote. -/
def execDoCmdBeat (l : Lane) (k : Strand) (ordinal : Word) (data : Word) (s : State) : Out :=
  .next (s.doCmdTake l k ordinal data)

/-- Pending ON latches become active (R332). -/
def State.updateOutputs (s : State) : State :=
  Lane.list.foldl (fun t l => t.setLatches l (t.pendingLatch l) (t.activeLatch l ||| t.pendingLatch l)) s

/-- A trigger's mark reaches F; `none` where none of the action is on its way. -/
def State.takeMark (s : State) (p : PDie) (a : Nat) : Option State :=
  if (s.port p).marks.contains a then some (s.setPort p { s.port p with marks := (s.port p).marks.erase a }) else none

/-- OUTPUT_UPDATE_INSTANT (R329, R332): an ACTION 3 trigger of a port die. -/
def execOutputUpdateInstant (p : PDie) (s : State) : Out :=
  .next (match s.takeMark p 3 with
    | some u =>
      let t := u.noteTrigger 2 p
      if s.fOn = false then u else if t.dieInUse 2 = p then t.updateOutputs else t
    | none => s)

/-! ### Faults (R337) -/

/-- A fault latches: the enables go, the cause shows and the owner is told. A latched fault keeps its first cause. -/
def State.latchFault (s : State) (n cause : Nat) : State :=
  if s.outFault n = 0 then
    ((s.setFld .f (faultReg n) (4 * (n % 8) + 3) (4 * (n % 8)) cause).raise .f (s.outOwner n) (196 + groupOf n)).refreshOut n
  else s

/-- One output is cleared: each cause is judged afresh, comparison after `OUT_VERIFY_DELAY`. -/
def State.clearFault (s : State) (n : Nat) : State :=
  if s.outFault n = 0 then s
  else
    let t := s.setFld .f (faultReg n) (4 * (n % 8) + 3) (4 * (n % 8)) 0
    State.refreshOut (t.setOut n { t.out n with wait := true, miss := 0, since := t.ns }) n

/-- A write of `FD_DO_CLR` by a strand acts on its own outputs. -/
def State.clearFaults (s : State) (k : Strand) (w : Word) : State :=
  (List.range 16).foldl (fun t n => if bitOf w n && t.outOwner n == k then t.clearFault n else t) s

/-- DO_FAULT_CLEAR (R337). -/
def execDoFaultClear (k : Strand) (data : Word) (s : State) : Out :=
  .next (s.atUnit (.strand k) .f Reg.fdDoClr (if !s.fOn then s
  else if fieldOf data 31 16 ≠ 0 then s.logRsvd .f Reg.fdDoClr (.strand k)
  else s.clearFaults k data))

/-- OVERCURRENT (R337). -/
def execOvercurrent (n : Nat) (s : State) : Out := .next (if s.fOn && decide (n < 16) then s.latchFault n 5 else s)

/-- THERMAL (R337). -/
def execThermal (n : Nat) (s : State) : Out := .next (if s.fOn && decide (n < 16) then s.latchFault n 6 else s)

/-- GROUP_OVERCURRENT (R337): on every output of the group with E ON. -/
def execGroupOvercurrent (second : Bool) (s : State) : Out :=
  let ns := (List.range 8).map fun i => 8 * bitNat second + i
  .next (if s.fOn then ns.foldl (fun t n => if s.expected n then t.latchFault n 7 else t) s else s)

/-! ### Read back and verify (R335) -/

/-- `OUT_VERIFY_DELAY` in ns. -/
def State.verifyNs (s : State) : Nat := 100000 * s.fld .f Reg.fdDoTime 7 0

/-- OUT_VERIFY_DELAY_EXPIRE (R335). -/
def execOutVerifyDelayExpire (n : Nat) (s : State) : Out :=
  .next (if s.fOn && (s.out n).wait && decide ((s.out n).since + s.verifyNs ≤ s.ns) then s.setOut n { s.out n with wait := false, miss := 0 } else s)

/-- RB of output n: the majority of the three readings, an invalid channel counting as OFF. -/
def State.readBack (s : State) (n : Nat) : Bool :=
  decide (2 ≤ (Lane.list.filter fun l => (s.field.ch.get l).ok && (s.field.ch.get l).rb.getLsbD n).length)

/-- One sample's comparison of an output. -/
def State.verifyOut (s : State) (n : Nat) : State :=
  let o := s.out n
  let rb := s.readBack n
  let t := s.setFlag .f Reg.fdDoStat (16 + n) rb
  let lost := !rb && !s.flag .f Reg.fdStat (20 + groupOf n)
  if o.wait then t
  else if rb = o.exp ∨ lost = true then t.setOut n { o with miss := 0 }
  else if 2 ≤ o.miss then (t.setOut n { o with miss := 0 }).latchFault n (if rb then 1 else 2)
  else t.setOut n { o with miss := o.miss + 1 }

/-! ### OFF pulses (R336) -/

def State.pulseEnabled (s : State) (n : Nat) : Bool := s.flag .f Reg.fdDoCfg (16 + n)

/-- The pulse length in ns. -/
def State.pulseNs (s : State) : Nat := 10000 * s.fld .f Reg.fdDoTime 23 16

def oneSecond : Nat := 1000000000

/-- A pulse of output n is due: it has been ON for 1 s, and its last pulse began 1 s ago. -/
def State.pulseDue (s : State) (n : Nat) : Bool :=
  let o := s.out n
  s.pulseEnabled n && s.expected n && o.onFrom.any (fun x => decide (x + oneSecond ≤ s.ns)) &&
    o.pulseAt.all fun x => decide (x + oneSecond ≤ s.ns)

/-- OFF_PULSE_START (R336). -/
def execOffPulseStart (n : Nat) (s : State) : Out :=
  let o := s.out n
  .next (if s.fOn && s.pulseDue n then
    State.refreshOut (s.setOut n { o with pulse := some (!o.nextY), nextY := !o.nextY, pulseAt := some s.ns }) n else s)

/-- The pulse that runs at output n has lasted its length. -/
def State.pulseOver (s : State) (n : Nat) : Bool := (s.out n).pulseAt.all fun x => decide (x + s.pulseNs ≤ s.ns)

/-- OFF_PULSE_END (R336): RB of the last sample decides. -/
def execOffPulseEnd (n : Nat) (s : State) : Out :=
  let o := s.out n
  .next (if !s.fOn || !s.pulseOver n then s
  else match o.pulse with
    | none => s
    | some x =>
      let t := s.setOut n { o with pulse := none }
      if s.flag .f Reg.fdDoStat (16 + n) then ((t.bump .f Reg.fdDoPulse 23 16).latchFault n (if x then 3 else 4)).refreshOut n
      else (t.bump .f Reg.fdDoPulse 31 24).refreshOut n)

/-! ### Field supply (R338) -/

/-- FIELD_SUPPLY_CHANGE (R338). -/
def execFieldSupplyChange (second : Bool) (present : Bool) (s : State) : Out :=
  let g := bitNat second
  .next (if s.fOn && (s.flag .f Reg.fdStat (20 + g) != present) then
    (s.setFlag .f Reg.fdStat (20 + g) present).raiseAll .f (200 + g) else s)

end Sys2Proof.Machine
end

