-- ==== Sys2Proof/Machine/FieldIn.lean ====
section
/-! DEFINITION. The field inputs (R322 to R329, R339 to R342): sampling on three channels, filters and wire-break
detection, change-of-state queues, analog conversions and the field commit. -/

namespace Sys2Proof.Machine

/-! ### Channels and levels (R323, R335) -/

def State.fieldChan (s : State) (l : Lane) : FieldChan := s.field.ch.get l
def State.setFieldChan (s : State) (l : Lane) (x : FieldChan) : State :=
  { s with field := { s.field with ch := s.field.ch.set l x } }

/-- Thresholds in mV: rising and falling, Type 1 or Type 3. -/
def riseMv (type3 : Bool) : Int := if type3 then 8000 else 11000
def fallMv (type3 : Bool) : Int := if type3 then 6500 else 9000

/-- Whether a voltage lies above a switching point, which lies within 0.5 V of its nominal value: within that band the
manual leaves it open (`free`). -/
def above (mv nominal : Int) (free : Bool) : Bool :=
  decide (nominal + 500 < mv) || (decide (nominal - 500 ≤ mv) && free)

/-- A comparator with hysteresis. -/
def comparator (type3 old : Bool) (mv : Int) (free : Bool) : Bool :=
  if old then above mv (fallMv type3) free else above mv (riseMv type3) free

/-- Type 3 is selected for the group of input n. -/
def State.isType3 (s : State) (n : Nat) : Bool := s.flag .f Reg.fdDiType (groupOf n)

/-- Filter time of input n in ns. -/
def State.filterNs (s : State) (n : Nat) : Nat := 100000 * s.fld .f (Reg.fdDiFilt n) 7 0

def noFilter : DiFilter := ⟨false, none, false, none⟩

/-- 10 ms: the persistence of wire breaks and the suppression after a commit. -/
def tenMs : Nat := 10000000

/-- Wire-break states that an OFF-state current in µA shows (R327): `none` leaves the state unchanged. -/
def wireBreakOf (ua : Nat) : Option Bool := if ua ≤ 200 then some true else if 400 ≤ ua then some false else none

/-- The wire-break state of one input after a sample. -/
def stepWire (f : DiFilter) (off : Bool) (ua now : Nat) : DiFilter :=
  match (if off then wireBreakOf ua else none) with
  | none => { f with wbRun := none }
  | some b =>
    if b = f.wb then { f with wbRun := none }
    else match f.wbRun with
      | some (c, t) =>
        if c = b then (if t + tenMs ≤ now then { f with wb := b, wbRun := none } else f)
        else { f with wbRun := some (b, now) }
      | none => { f with wbRun := some (b, now) }

/-- The filter of one input after a sample that shows a level (R325); `restart` is a commit's. -/
def stepFilter (f : DiFilter) (level : Bool) (now filt : Nat) (restart : Bool) : DiFilter :=
  if restart then { f with value := level, run := some (level, now) }
  else
    let t0 := match f.run with
      | some (b, t) => if b = level then t else now
      | none => now
    { f with value := if t0 + filt ≤ now then level else f.value, run := some (level, t0) }

/-- One input of one channel at a sample. -/
def State.stepInput (s : State) (f : DiFilter) (n : Nat) (r : DiRaw) (free : Bool) (now : Nat) (restart : Bool) : DiFilter :=
  let t3 := s.isType3 n
  let old := match f.run with
    | some (b, _) => b
    | none => false
  let g := if restart then { f with wbRun := f.wbRun.map fun x => (x.1, now) } else f
  stepFilter (stepWire g (!above r.mv (fallMv t3) free) r.ua now) (comparator t3 old r.mv free) now (s.filterNs n) restart

/-- One channel at a sample; bits of `free` stand for voltages within the switching points' tolerance. -/
def State.stepChannel (s : State) (x : FieldChan) (raw : ChannelRaw) (free : Dword) (now : Nat) (restart : Bool) : FieldChan :=
  { x with
    di := (List.range 32).map fun n =>
      s.stepInput ((x.di[n]?).getD noFilter) n ((raw.di[n]?).getD ⟨0, 0⟩) (free.getLsbD n) now restart
    rb := (List.range 16).foldl (fun w n =>
      withBit w n (comparator false (x.rb.getLsbD n) ((raw.doMv[n]?).getD 0) (free.getLsbD (32 + n)))) x.rb }

/-! ### Validity and triples (R324, R326, R341) -/

def State.configured (s : State) : Bool := s.flag .f Reg.fdStat 0

/-- A channel's sample of digital input n is valid. -/
def State.diValid (s : State) (x : FieldChan) (n : Nat) : Bool :=
  s.configured && x.ok && !(s.flag .f Reg.fdDiWben n && ((x.di[n]?).getD noFilter).wb)

/-- One channel's part of the triple. -/
def State.channelSample (s : State) (x : FieldChan) : ChannelSample where
  di := (List.range 32).foldl (fun w n => withBit w n ((x.di[n]?).getD noFilter).value) 0
  diValid := (List.range 32).foldl (fun w n => withBit w n (s.diValid x n)) 0
  ai := x.ai
  aiValid := x.aiOk.map fun b => b && s.configured && x.ok

def State.samples (s : State) : Tri ChannelSample :=
  ⟨s.channelSample s.field.ch.a, s.channelSample s.field.ch.b, s.channelSample s.field.ch.c⟩

/-- Digital input n reduced from the three channels by the table of R67. -/
def reduced (ch : Tri ChannelSample) (n : Nat) : Bool :=
  match (Lane.list.filter fun l => (ch.get l).diValid.getLsbD n).map fun l => (ch.get l).di.getLsbD n with
  | [x, y, z] => (x && y) || (y && z) || (x && z)
  | [x, y] => x && y
  | _ => false

/-! ### Change of state (R328) -/

/-- Owner of input n. -/
def State.inOwner (s : State) (n : Nat) : Strand :=
  Strand.ofIdx (s.fld .f (if n < 16 then Reg.fdDiOwnLo else Reg.fdDiOwnHi) (2 * (n % 16) + 1) (2 * (n % 16)))

/-- The direction is selected for input n: bit 0 rising, bit 1 falling. -/
def State.cosSelected (s : State) (n : Nat) (rising : Bool) : Bool :=
  s.field.cosSel.getLsbD (2 * n + (if rising then 0 else 1))

/-- An entry joins the owner's queue, or is counted; DIn is sent either way. -/
def State.pushCos (s : State) (k : Strand) (e : CosEntry) : State :=
  let q := s.field.cos.get k
  let f : FieldDie :=
    if q.length < 32 then { s.field with cos := s.field.cos.set k (q ++ [e]) }
    else { s.field with cosOvf := s.field.cosOvf.set k (BitVec.ofNat 8 (satAdd 8 (s.field.cosOvf.get k).toNat 1)) }
  State.raise { s with field := f } .f k (160 + e.input)

/-- The timestamp of a change: network time of the sample less the filter time, to 1 µs. -/
def cosStamp (time : Dword) (filt : Nat) : Dword :=
  BitVec.ofInt 64 (1000 * quot ((time.toNat : Int) - filt) 1000)

/-- Changes of state found at a sample. -/
def State.detectCos (s : State) (new : Word) (now : Nat) (time : Dword) : State :=
  let old := s.field.reduced
  let ph := (s.port (s.dieInUse 0)).net.phase
  let tv := s.ktnUp (s.dieInUse 0) && (ph == .active || ph == .holdover)
  let t : State := { s with field := { s.field with reduced := new } }
  if now < s.field.quietUntil then t
  else (List.range 32).foldl (fun (t : State) n =>
    if new.getLsbD n ≠ old.getLsbD n ∧ t.cosSelected n (new.getLsbD n) = true then
      t.pushCos (t.inOwner n) ⟨n, !new.getLsbD n, tv, cosStamp time (t.filterNs n)⟩
    else t) t

/-- Wire-break bits: two channels hold the state; WB_G tells the owner of every change (R327). -/
def State.showWire (s : State) : State :=
  (List.range 32).foldl (fun t n =>
    let b := decide (2 ≤ (Lane.list.filter fun l => (((t.fieldChan l).di[n]?).getD noFilter).wb).length)
    if t.flag .f Reg.fdWbStat n = b then t
    else (t.setFlag .f Reg.fdWbStat n b).raise .f (t.inOwner n) (192 + groupOf n)) s

/-! ### Analog inputs (R339 to R341) -/

def State.aiCurrent (s : State) (n : Nat) : Bool := s.flag .f (Reg.fdAiCfg n) 31
def State.aiTrig (s : State) (n : Nat) : Bool := s.flag .f (Reg.fdAiCfg n) 30
def State.aiOwner (s : State) (n : Nat) : Strand := Strand.ofIdx (s.fld .f (Reg.fdAiCfg n) 29 28)

/-- Rounding of x / d; a half goes up (DESIGN CHOICE, log 139). -/
def roundTo (x : Int) (d : Nat) : Int := (2 * x + d) / (2 * d)

/-- Gain correction in 2^−15 units and offset in codes of one channel, input and mode, in F's calibration memory (R384, R385). -/
def State.aiCal (s : State) (l : Lane) (n : Nat) : Int × Int :=
  let c := (s.field.cal[16 * l.idx + 2 * n + bitNat (s.aiCurrent n)]?).getD (0, 0)
  (c.1.toInt, c.2.toInt)

/-- The code of a conversion (R339): V × 5000, saturating at 65535, or mA × 2500, saturating at 62500; 0 below 0. What the channel's
converter measures is corrected first by its gain and offset (R385; log entry 176). -/
def State.aiCode (s : State) (l : Lane) (n : Nat) (r : AiRaw) : Half :=
  let c := s.aiCal l n
  let code := fun (d : Nat) => (roundTo (r.micro * (32768 + c.1)) (32768 * d) + c.2).toNat
  BitVec.ofNat 16 (if s.aiCurrent n then min 62500 (code 400) else min 65535 (code 200))

/-- The under-range comparator, which switches at −0.3 V ± 0.05 V: within that band the manual leaves it open (`free`). -/
def underRange (r : AiRaw) (free : Bool) : Bool :=
  decide (r.micro < -350000) || (decide (r.micro ≤ -250000) && free)

/-- The fault band. -/
def State.aiBand (s : State) (l : Lane) (n : Nat) (r : AiRaw) (free : Bool) : Bool :=
  let c := (s.aiCode l n r).toNat
  decide (52500 < c) || (if s.aiCurrent n then decide (c < 9000) else underRange r free)

/-- The code lies within LO to HI. -/
def State.aiInLimits (s : State) (n : Nat) (v : Half) : Bool :=
  decide (s.fld .f (Reg.fdAiLim n) 15 0 ≤ v.toNat) && decide (v.toNat ≤ s.fld .f (Reg.fdAiLim n) 31 16)

/-- One channel takes one input's result. -/
def State.takeAi (s : State) (l : Lane) (n : Nat) (r : AiRaw) (free : Bool) : FieldChan :=
  let x := s.fieldChan l
  { x with
    ai := x.ai.set n (s.aiCode l n r)
    aiOk := x.aiOk.set n (!s.aiBand l n r free && s.aiInLimits n (s.aiCode l n r))
    aiFault := x.aiFault.set n (s.aiBand l n r free) }

/-- FAULT of an input: two channels place it in a fault band; AI_FAULT tells the owner of every change. -/
def State.showAiFault (s : State) (n : Nat) : State :=
  let b := decide (2 ≤ (Lane.list.filter fun l => ((s.fieldChan l).aiFault[n]?).getD false).length)
  if s.flag .f Reg.fdAiStat (16 + n) = b then s
  else (s.setFlag .f Reg.fdAiStat (16 + n) b).raise .f (s.aiOwner n) 199

/-- A conversion completes: its results stand for the next triple; one started by a trigger records that triple's
number and tells the owners. -/
def State.completeAi (s : State) (c : AiConv) : State :=
  let free := s.freeVal
  let t := Lane.list.foldl (fun t l =>
    c.inputs.foldl (fun (t : State) n =>
      t.setFieldChan l (t.takeAi l n (((c.raw.get l)[n]?).getD ⟨0⟩) (free.getLsbD (8 * l.idx + n)))) t) s.useFree
  let t := c.inputs.foldl (fun t n => t.showAiFault n) t
  if c.byTrigger then
    let t := t.setFld .f Reg.fdAiStat 15 0 t.field.sample.toNat
    (Strand.list.filter fun k => c.inputs.any fun n => t.aiOwner n == k).foldl (fun t k => t.raise .f k 198) t
  else t

/-- Conversions of 25 µs that are over at an instant complete in order. -/
def State.dueAi (s : State) (now : Nat) : State :=
  let due := s.field.aiRuns.filter fun c => decide (c.since + 25000 ≤ now)
  let t : State := { s with field := { s.field with
    aiRuns := s.field.aiRuns.filter fun c => !decide (c.since + 25000 ≤ now) } }
  due.foldl (fun t c => t.completeAi c) t

/-- The inputs that a conversion converts (R340): a trigger's those with TRIG 1; every 1 ms the others, and those with
TRIG 1 while no trigger comes. -/
def State.aiInputs (s : State) (byTrigger : Bool) : List Nat :=
  let lapsed := decide (s.field.aiTrigAt + s.fallbackNs ≤ s.ns)
  (List.range 8).filter fun n => if byTrigger then s.aiTrig n else !s.aiTrig n || lapsed

/-- A conversion begins, when there is an input to convert. -/
def State.convert (s : State) (byTrigger : Bool) (raw : Tri (List AiRaw)) : State :=
  if s.aiInputs byTrigger = [] then s
  else { s with field := { s.field with aiRuns := s.field.aiRuns ++ [⟨byTrigger, s.ns, s.aiInputs byTrigger, raw⟩] } }

/-- AI_CONVERSION_START (R340): every 1 ms, or at an ACTION 2 trigger of the die in use. -/
def execAiConversionStart (trigger : Option PDie) (raw : Tri (List AiRaw)) (s : State) : Out :=
  .next (match trigger with
  | none => if s.fOn && s.field.aiAt.all (fun x => decide (x + 1000000 ≤ s.ns)) then
      State.convert { s with field := { s.field with aiAt := some s.ns } } false raw else s
  | some p => match s.takeMark p 2 with
    | some u =>
      let t := u.noteTrigger 1 p
      if s.fOn = false then u
      else if t.dieInUse 1 = p then State.convert { t with field := { t.field with aiTrigAt := t.ns } } true raw
      else t
    | none => s)

/-- AI_DONE (R340): the conversion that began first completes. -/
def execAiDone (s : State) : Out :=
  .next (if !s.fOn then s
  else match s.field.aiRuns with
    | [] => s
    | c :: rest => if c.since + 25000 ≤ s.ns then State.completeAi { s with field := { s.field with aiRuns := rest } } c
      else s)

/-! ### Commit (R342) -/

/-- The checks of R342 in their order. -/
def State.fdCheck (s : State) : Option Nat :=
  let pulse := s.fld .f Reg.fdDoTimeStg 23 16
  if pulse < 10 ∨ 100 < pulse ∨ s.fld .f Reg.fdDoTimeStg 7 0 = 0 then some 1
  else if (List.range 16).any fun n => s.expected n &&
      s.fld .f Reg.fdDoOwnStg (2 * n + 1) (2 * n) != s.fld .f Reg.fdDoOwn (2 * n + 1) (2 * n) then some 2
  else if (List.range 8).any fun n => decide (s.fld .f (Reg.fdAiLimStg n) 31 16 < s.fld .f (Reg.fdAiLimStg n) 15 0) then some 3
  else none

/-- The staged registers and their active counterparts. -/
def fdStaged : List (Nat × Nat) :=
  [(Reg.fdDiTypeStg, Reg.fdDiType), (Reg.fdDiWbenStg, Reg.fdDiWben), (Reg.fdDiOwnStgLo, Reg.fdDiOwnLo),
   (Reg.fdDiOwnStgHi, Reg.fdDiOwnHi), (Reg.fdDoOwnStg, Reg.fdDoOwn), (Reg.fdDoCfgStg, Reg.fdDoCfg),
   (Reg.fdDoTimeStg, Reg.fdDoTime)] ++
  ((List.range 32).map fun n => (Reg.fdDiFiltStg n, Reg.fdDiFilt n)) ++
  ((List.range 8).map fun n => (Reg.fdAiCfgStg n, Reg.fdAiCfg n)) ++
  (List.range 8).map fun n => (Reg.fdAiLimStg n, Reg.fdAiLim n)

/-- A commit due at a sample instant: its effect, and whether it was accepted. -/
def State.fdAtSample (s : State) (now : Nat) : State × Bool :=
  if !s.commitBusy .f Reg.fdCommit then (s, false)
  else match s.fdCheck with
    | some c => (s.commitResult .f Reg.fdCommit c, false)
    | none =>
      let t := fdStaged.foldl (fun t r => t.setReg .f r.2 (t.reg .f r.1)) s
      let t := (t.setFlag .f Reg.fdStat 0 true).commitResult .f Reg.fdCommit 0
      (State.refreshOuts { t with field := { t.field with quietUntil := now + tenMs } }, true)

/-- GO in `FD_COMMIT`. -/
def State.fdGo (s : State) : State :=
  if s.commitBusy .f Reg.fdCommit then s.ignored .f Reg.fdCommit .mgmt else s.setFlag .f Reg.fdCommit 1 true

/-- FD_COMMIT_GO (R342). -/
def execFdCommitGo (s : State) : Out := .next (if s.fOn && s.mOn then s.fdGo else s)

/-! ### Samples (R324, R329) -/

/-- The sample due at an instant is not taken: it is a grid sample less than 10 µs before an announced instant. -/
def State.skipsSample (s : State) (now : Nat) : Bool :=
  match s.field.announced with
  | some (_, t) => decide (now < t) && decide (t < now + 10000)
  | none => false

/-- A sample is due: the first, one of the 50 µs grid, or one at an announced instant. -/
def State.sampleDue (s : State) (now : Nat) : Bool :=
  match s.field.sampleAt with
  | none => true
  | some x => decide (x + 50000 ≤ now) ||
      decide (x + 40000 ≤ now) && s.field.announced.any fun a => decide (a.2 ≤ now)

/-- A trigger less than 40 µs after a sample that was taken is ignored. -/
def keepAnnounced (a : Option (PDie × Nat)) (now : Nat) : Option (PDie × Nat) := a.filter fun x => decide (now + 40000 ≤ x.2)

/-- Settings that are not staged take effect at a sample (R343). -/
def State.takeUnstaged (s : State) : State :=
  let t := s.takeTrigSel
  { t with field := { t.field with cosSel := t.reg64 .f Reg.fdDiCosLo } }

/-- A sample of all three channels, with the settings in force from it on; filters restart where a commit takes effect. -/
def State.sample (s : State) (raw : Tri ChannelRaw) (now : Nat) : State :=
  let s := s.takeUnstaged
  let time := (s.port (s.dieInUse 0)).net.time
  let c := s.fdAtSample now
  let restart := c.2 || c.1.field.restart
  let t : State := if restart then { c.1 with field := { c.1.field with restart := false, quietUntil := now + tenMs } } else c.1
  let t := t.dueAi now
  let t := Lane.list.foldl (fun (t : State) l =>
    State.useFree (t.setFieldChan l (t.stepChannel (t.fieldChan l) (raw.get l) t.freeVal now restart))) t
  let t := t.showWire
  let ch := t.samples
  let t := t.detectCos ((List.range 32).foldl (fun w n => withBit w n (reduced ch n)) 0) now time
  let t := (List.range 16).foldl (fun t n => t.verifyOut n) t
  let tr : Triple := ⟨t.field.sample, ch⟩
  let t : State := { t with field := { t.field with
    sample := t.field.sample + 1, sampleAt := some now, announced := keepAnnounced t.field.announced now } }
  t.send ((t.linked .f).map fun l => .triple l tr)

/-- FIELD_SAMPLE (R324): at the 50 µs grid or at an announced instant. -/
def execFieldSample (raw : Tri ChannelRaw) (s : State) : Out :=
  .next (if s.fOn && s.sampleDue s.ns && !s.skipsSample s.ns then
    s.sample raw s.ns else s)

/-- CHANNEL_SELF_TEST (R326). -/
def execChannelSelfTest (ch : Lane) (pass : Bool) (s : State) : Out :=
  let x := s.fieldChan ch
  .next (if s.fOn && (x.ok != pass) then
    ((s.setFieldChan ch { x with ok := pass }).setFlag .f Reg.fdStat (24 + ch.idx) pass).raiseAll .f 204
  else s)

/-- The instant that a trigger's announcement ahead gives: 20 µs before it at most, of an ACTION 1 trigger that is to
fire and was not announced, and whose instant lay 20 µs ahead when it was written (R329). -/
def State.aheadNs (s : State) (p : PDie) (t : Nat) : Option Nat :=
  let d := (s.reg64 p.unit (Reg.tbTrigCmpLo t)).toNat - (s.port p).net.time.toNat
  if (s.consumer (Die.ofPDie p)).running && s.ktnUp p && decide (t < 16) && s.flag p.unit (Reg.tbTrigCtl t) 31 &&
      s.fld p.unit (Reg.tbTrigCtl t) 27 26 == 1 && !(s.port p).trigAhead.contains t && !(s.port p).trigLate.contains t && decide (0 < d) &&
      decide (d ≤ 20000) then some (s.ns + d) else none

/-- Of two announced instants the earlier is kept: they lie less than 40 µs apart, so the sample taken at the earlier one makes F
ignore the later one (R329). -/
def earlier (old : Option (PDie × Nat)) (p : PDie) (at' : Nat) : PDie × Nat :=
  match old with
  | some (q, x) => if x ≤ at' then (q, x) else (p, at')
  | none => (p, at')

/-- F takes an instant for a sample from the die in use, unless it lies less than 40 µs after the last sample. -/
def State.noteInstant (s : State) (p : PDie) (at' : Nat) : State :=
  let t := s.noteTrigger 0 p
  let tooSoon := match t.field.sampleAt with
    | some x => decide (at' < x + 40000)
    | none => false
  if t.dieInUse 0 = p ∧ tooSoon = false then { t with field := { t.field with announced := some (earlier t.field.announced p at') } } else t

/-- TRIGGER_ANNOUNCE (R329): an ACTION 1 trigger, `ahead` of its instant by up to 20 µs, or when it fired. -/
def execTriggerAnnounce (p : PDie) (ahead : Option Nat) (s : State) : Out :=
  .next (match ahead with
    | some t => match s.aheadNs p t with
      | some at' =>
        let u := s.setPort p { s.port p with trigAhead := (s.port p).trigAhead ++ [t] }
        if s.fOn then u.noteInstant p at' else u
      | none => s
    | none => match s.takeMark p 1 with
      | some u => if s.fOn then u.noteInstant p s.ns else u
      | none => s)

/-! ### Change-of-state queues as strands read them -/

/-- A read of `FD_COS_POP` by a strand removes the head entry. -/
def State.cosPop (s : State) (k : Strand) : State × Word :=
  match s.field.cos.get k with
  | [] => (s, 0)
  | e :: rest =>
    ({ s with field := { s.field with cos := s.field.cos.set k rest, cosTime := s.field.cosTime.set k e.time } },
     withField (withBit (withBit (withField (withBit (0 : Word) 31 true) 30 26 rest.length) 9 e.tvalid) 8 e.falling) 4 0
       e.input)

/-- COS_POP (R328). -/
def execCosPop (k : Strand) (s : State) : Out :=
  .next (s.atUnit (.strand k) .f Reg.fdCosPop (if s.fOn then (s.cosPop k).1 else s))

/-- A read of `FD_COS_OVF` by a strand clears its count. -/
def State.cosOverflow (s : State) (k : Strand) : State × Word :=
  ({ s with field := { s.field with cosOvf := s.field.cosOvf.set k 0 } }, (s.field.cosOvf.get k).setWidth 32)

end Sys2Proof.Machine
end

