-- ==== Sys2Proof/Machine/Guardian.lean ====
section
/-! DEFINITION. The bus guardians (R253 to R258). Commands name the die that hosts the guardian. -/

namespace Sys2Proof.Machine

/-! ### Frames of the receive tap (R253, R254) -/

/-- A COLDSTART frame of the own node in CS_OPEN: six consecutive consistent cycles open the guardian. -/
def State.ownCold (s : State) (p : PDie) (f : KFrame) (tRx : Dword) (P : Int) : State :=
  let n := NetId.gd p
  let g := s.guard p
  let x := g.net
  if f.hdr.cycle = 0 then s.setGuard p { g with net := s.followFrame n x f tRx P, csCount := 1 }
  else if g.csCount ≠ 0 ∧ f.hdr.cycle = x.refCycle then s
  else if g.csCount ≠ 0 ∧ s.consistentNext n x f = true then
    let y := s.adopt n x f tRx P
    -- What was noted in the time before the step moves with it.
    let y := { y with
      phase := .coldstart, icount := 0, refCycle := f.hdr.cycle, refStart := cstartOf f
      refOwn := t16 tRx - P + s.offsetOf n f tRx P }
    let g := { g with lastStart := g.lastStart.map fun q => q + (y.time - x.time) }
    let c := g.csCount + 1
    if c = 6 ∧ f.hdr.cycle = 5 then
      s.setGuard p { g with
        net := { y with phase := .active, follow := 0, viewFrom := y.total, viewSince := y.total }, csCount := 0 }
    else s.setGuard p { g with net := y, csCount := c }
  else s.setGuard p { g with csCount := 0 }

/-- The copy used of a valid timing frame at a guardian that is not integrated (R219, R240, R254). -/
def State.tapEarly (s : State) (p : PDie) (w : WaitCopy) : State :=
  let n := NetId.gd p
  let x := s.net n
  let P := pathDelay x w.f w.port w.own
  let enter := s.setNet n (s.enterIntegrate n x w.port w.f w.time P)
  if !s.isTiming n w.f then s
  else match x.phase with
    | .listen => if w.own then s else enter
    | .coldstart =>
      if w.f.hdr.kind = kindSync then enter
      else if w.own then s.ownCold p w.f w.time P
      else if w.f.hdr.sender.toNat < x.id then enter else s
    | .integrate => s.integrateFrame n w.port w.f w.time P
    | _ => s

/-- The copy used of a frame at an integrated guardian: timing, and inauguration from the frames of other nodes. -/
def State.tapSlot (s : State) (p : PDie) (w : WaitCopy) : State :=
  let n := NetId.gd p
  let t := s.useTiming n w.port w.f w.time (pathDelay (s.net n) w.f w.port w.own)
  match s.slotInForce n w.f.hdr.slot.toNat with
  | some sl => if w.f.hdr.kind = kindInaug ∧ sl.cls = clsInaug ∧ w.own = false then t.recordInaug n w.port w.f else t
  | none => t

/-- A copy used at a guardian, in the phase that it is in. -/
def State.tapUse (s : State) (p : PDie) (w : WaitCopy) : State :=
  let n := NetId.gd p
  match (s.net n).phase with
  | .adopted => s.adoptedUse n w (pathDelay (s.net n) w.f w.port w.own)
  | .active => s.tapSlot p w
  | .holdover => s.tapSlot p w
  | _ => s.tapEarly p w

/-- A copy comes at a guardian. -/
def State.tapOffer (s : State) (p : PDie) (key : Nat) (port : Port) (own : Bool) (f : KFrame) (tRx : Dword) : State :=
  (s.offer (.gd p) (fun t w => t.tapUse p w) ⟨f, key, own, port, tRx, (s.guard p).net.clock, false⟩).1

/-- A frame at an integrated guardian. -/
def State.tapActive (s : State) (p : PDie) (port : Port) (own : Bool) (f : KFrame) (tRx : Dword) (P : Int) : State :=
  let n := NetId.gd p
  let acc := s.acceptance n f tRx P
  let t := s.noteHeard n f (acc == .ok)
  match acc, s.slotInForce n f.hdr.slot.toNat with
  | .ok, some sl => t.tapOffer p (copyKey sl f port own) port own f tRx
  | _, _ => t

/-- A timing frame at a guardian that has adopted. -/
def State.tapAdopted (s : State) (p : PDie) (port : Port) (own : Bool) (f : KFrame) (tRx : Dword) : State :=
  let n := NetId.gd p
  let t := (s.setNet n { s.net n with since := (s.net n).clock }).noteHeard n f true
  if f.hdr.cycle = (t.net n).cycle then t.tapOffer p 0 port own f tRx else t

/-- The frame as the guardian takes it; a valid timing frame restarts its `LISTEN_TIMEOUT`. -/
def State.tapFrame (s : State) (p : PDie) (port : Port) (own : Bool) (f : KFrame) (tRx : Dword) : State :=
  let n := NetId.gd p
  let timing := s.isTiming n f
  let early := if timing then
    s.offerEarly n (fun t w => t.tapUse p w) ⟨f, 0, own, port, tRx, (s.guard p).net.clock, false⟩ else s
  match (s.net n).phase with
  | .listen => early
  | .coldstart => early
  | .integrate => early
  | .adopted => if timing then s.tapAdopted p port own f tRx else s
  | .active => s.tapActive p port own f tRx (pathDelay (s.net n) f port own)
  | .holdover => s.tapActive p port own f tRx (pathDelay (s.net n) f port own)
  | _ => s

/-- GUARD_FRAME_TAP (R253, R254): a frame received by, or sent from, the guarded node, stamped to 10 ns. Link delay frames reach the
guardian with LINK_DELAY_SEND and LINK_DELAY_RECEIVE. -/
def execGuardFrameTap (p : PDie) (port : Port) (own : Bool) (f : KFrame) (ago : Nat) (s : State) : Out :=
  .next (if !s.guardLive p || f.dst == linkAddr || !s.isKtn (.gd p) f || !headerOk f || !f.fcsOk then s
    else s.tapFrame p port own f (tenNs (s.stamp (.gd p) ago)))

/-! ### Cycle ends (R254) -/

/-- The guardian integrates anew: FOLLOW. -/
def follow (x : Net) : Net := { relisten x with phase := .integrate }

/-- Cycle end in OPEN and HOLD. -/
def State.endOpen (s : State) (n : NetId) : State :=
  let x := s.net n
  let vals := s.offsets n
  let m := midpoint vals
  if (vals ≠ [] ∧ inLimit m = false) ∨ s.offTime n = true then s.setNet n (follow x)
  else if x.phase = .active then
    if vals ≠ [] then s.setNet n (s.agreeMode n (s.correct n x m))
    else if !s.ttSyncNode n && !heardIn x x.cycle && !heardIn x (x.cycle - 1) then
      s.setNet n { x with phase := .holdover, hcount := 0, slew := 0 }
    else s.setNet n (s.agreeMode n { x with slew := 0 })
  else if activeSet x (s.syncList n) ≠ [] ∧ vals ≠ [] then
    s.setNet n { s.agreeMode n (s.correct n x m) with phase := .active, hcount := 0 }
  else s.setNet n { s.agreeMode n x with hcount := x.hcount + 1, slew := 0 }

/-- Violations older than 1000 cycles leave WINCNT. -/
def State.agedViols (s : State) (p : PDie) : State :=
  let g := s.guard p
  let vs := g.viols.filter fun v => decide (g.net.total < v + 1000)
  (s.setGuard p { g with viols := vs }).setFld p.unit Reg.gdViol 1 0 (min 3 vs.length)

/-- The next cycle of the guardian starts; a change of its ID exempts two cycles (R257). -/
def State.guardNextCycle (s : State) (p : PDie) : State :=
  let n := NetId.gd p
  if guardTimed (s.guard p) then
    let old := (s.net n).id
    let y := s.startNetCycle n
    let t := (s.setNet n y).agedViols p
    if y.id = old then t else t.setGuard p { t.guard p with exemptUntil := y.total + 2 }
  else s

/-- GUARD_CYCLE_END (R254): the cycle is evaluated and the next begins. -/
def execGuardCycleEnd (p : PDie) (s : State) : Out :=
  let n := NetId.gd p
  .next (if !s.guardLive p then s
  else
  let s := s.settle n fun t w => t.tapUse p w
  match (s.net n).phase with
    | .adopted => ((s.endAdopted n 4).noteMembers n).guardNextCycle p
    | .active => ((s.endOpen n).noteMembers n).guardNextCycle p
    | .holdover => ((s.endOpen n).noteMembers n).guardNextCycle p
    | _ => s)

/-- GUARD_LISTEN_TIMEOUT (R254). -/
def execGuardListenTimeout (p : PDie) (s : State) : Out :=
  let n := NetId.gd p
  let x := s.net n
  .next (if !s.guardLive p || !s.listenDue n then s
  else match x.phase with
    | .listen =>
      if s.ttCsNode n then
        s.setGuard p { s.guard p with
          net := { x with phase := .coldstart, mode := s.startMode n }, csCount := 0, lastStart := none }
      else s.setNet n { x with since := x.clock }
    | .integrate => s.setNet n (relisten x)
    | .adopted => s.setNet n (relisten x)
    | _ => s)

/-- HOLD_MAX of `GD_LIMITS`: below 16 it is treated as 16. -/
def State.guardHoldMax (s : State) (p : PDie) : Nat := max 16 (s.fld p.unit Reg.gdLimits 31 16)

/-- GUARD_HOLD_EXPIRE (R254). -/
def execGuardHoldExpire (p : PDie) (s : State) : Out :=
  let n := NetId.gd p
  .next (if s.guardLive p && (s.net n).phase == .holdover && decide (s.guardHoldMax p ≤ (s.net n).hcount) then
    s.setNet n (relisten (s.net n)) else s)

/-! ### Violations (R257, R258) -/

/-- A latched guardian keeps nothing of its cluster. -/
def State.latchGuard (s : State) (p : PDie) : State :=
  let g := s.guard p
  ((s.setGuard p { g with latched := true, net := relisten g.net }).logP p .gdLatched []).setPathOut (7 + p.idx)

/-- A cut attempt: counted in a field of `GD_VIOL`, or in EXEMPT; the third counted one within 1000 cycles latches. -/
def State.violation (s : State) (p : PDie) (hi lo : Nat) (t : Dword) : State :=
  let g := s.guard p
  let x := g.net
  if s.inTail p t || decide (x.total < g.exemptUntil) then (s.bump p.unit Reg.gdViol 15 8).raisePAll p 58
  else
    let vs := x.total :: g.viols.filter fun v => decide (x.total < v + 1000)
    let u := (s.bump p.unit Reg.gdViol hi lo).setGuard p { g with viols := vs }
    let u := (u.setFld p.unit Reg.gdViol 1 0 (min 3 vs.length)).raisePAll p 58
    let armed := x.phase == .coldstart || x.phase == .integrate || guardTimed g
    if 3 ≤ vs.length ∧ armed = true ∧ s.guardLive p = true then u.latchGuard p else u

/-- An own frame on a guarded line ends early: `lasted` ns of it have left. -/
def State.cutLine (s : State) (p : PDie) (lasted : Nat) (q : Port) : State :=
  let x := s.port p
  match x.line.get q with
  | some l =>
    if l.own then
      let f := cutFrame l.f lasted
      s.setPort p { x with line := x.line.set q (some { l with f := f }), ended := x.ended.set q (some f) }
    else s
  | none => s

/-- The link delay frames on the guarded lines end early. -/
def State.cutLinks (s : State) (p : PDie) : State :=
  let x := s.port p
  s.setPort p { x with linkFrame := ⟨x.linkFrame.west.map fun f => { f with ok := false }, x.linkFrame.east.map fun f => { f with ok := false }⟩ }

/-- GUARD_TX_ATTEMPT (R255 to R257): transmit data starts at the guarded PHYs. -/
def execGuardTxAttempt (p : PDie) (t : Dword) (s : State) : Out :=
  let g := s.guard p
  .next (if g.net.phase == .off || g.stopped then s
  else if s.enablesOpen p t then
    (if g.net.phase = .coldstart then s.setGuard p { g with lastStart := some t } else s)
  else s.violation p 31 24 t)

/-- GUARD_LENGTH_LIMIT (R255 to R257): a permitted transmission that started at `t` has lasted as long as its window
allows; its enables close. In the cycle tail it is the link delay frames that are cut. -/
def execGuardLengthLimit (p : PDie) (t : Dword) (lasted : Nat) (s : State) : Out :=
  .next (match s.enableRoom p t with
    | some r =>
      if r ≤ lasted then
        State.violation (if s.inTail p t then s.cutLinks p.other else Port.list.foldl (fun u q => u.cutLine p.other r q) s) p 23 16 t
      else s
    | none => s)

/-- RESET in `GD_CTL` lifts a latch, in LATCHED only: a fenced guardian stays as it is. The data path's view of the guardian follows
(R258, R406). -/
def State.guardUnlatch (s : State) (p : PDie) : State :=
  let g := s.guard p
  if g.latched && !g.fenced then
    ((s.setGuard p { g with latched := false, viols := [], net := relisten g.net }).setFld p.unit Reg.gdViol 1 0 0).setPathIn (7 + p.idx)
  else s

/-- GUARD_RESET (R258). -/
def execGuardReset (p : PDie) (s : State) : Out := .next (if s.mOn then s.guardUnlatch p else s)

/-- GUARD_FENCE_COMMAND (R123, R258): the second lane's command fences. -/
def execGuardFenceCommand (p : PDie) (l : Lane) (s : State) : Out :=
  let t := (s.arrive (.guardFence p l)).setFlag p.unit Reg.gdFence l.idx true
  let n := (Lane.list.filter fun x => t.flag p.unit Reg.gdFence x.idx).length
  .next (if 2 ≤ n then (t.setGuard p { t.guard p with fenced := true }).setPathOut (7 + p.idx) else t)

end Sys2Proof.Machine
end

