-- ==== Sys2Proof/Machine/Lease.lean ====
section
/-! DEFINITION. The lease of a module pair (R344 to R356): the lease timers of the two guardian islands, the module-held
state and `LS_CMD`. A die names the timer that it hosts, which watches the other die's channel. -/

namespace Sys2Proof.Machine

/-! ### Configuration (R344, R345) -/

def State.lsEn (s : State) (p : PDie) : Bool := s.flag p.unit Reg.lsCfg 31
def State.lsPref (s : State) (p : PDie) : Bool := s.flag p.unit Reg.lsCfg 30
/-- `LEASE_LEN`: below 3 it is treated as 3. -/
def State.lsLen (s : State) (p : PDie) : Nat := max 3 (s.fld p.unit Reg.lsCfg 23 16)
def State.lsPartner (s : State) (p : PDie) : Nat := s.fld p.unit Reg.lsCfg 15 8
def State.lsOwner (s : State) (p : PDie) : Strand := Strand.ofIdx (s.fld p.unit Reg.lsCfg 1 0)

def leaseMargin : Nat := 2

/-- The module's plug ID on a die's channel (R386), 0 for none. -/
def State.plugId (s : State) (channel : PDie) : Nat :=
  match s.mgmt.nodePos with
  | some (x, y) => (match channel with | .p1 => x.toNat | .p2 => y.toNat)
  | none => 0

/-- The two dies' settings differ (R345). -/
def State.lsDiffers (s : State) : Bool :=
  ((s.reg .p1 Reg.lsCfg ^^^ s.reg .p2 Reg.lsCfg) &&& 0xC0FF0003) != 0 || s.reg .p1 Reg.lsPair != s.reg .p2 Reg.lsPair

/-- The module's own plug ID on a channel: that of the coding plug, and without one NODE_ID of `TT_CFG` (R345). -/
def State.ownPlugId (s : State) (channel : PDie) : Nat :=
  if s.plugId channel = 0 then s.fld channel.unit Reg.ttCfg 15 8 else s.plugId channel

/-- A die's identification of the partner is unusable (R345). -/
def State.lsUnusable (s : State) (p : PDie) : Bool :=
  let id := s.lsPartner p
  let ser := s.reg p.unit Reg.lsPserial
  id == 255 || (id != 0 && id == s.ownPlugId p.other) || (id == 0 && (ser == 0 || ser == s.serial))

/-! ### The timer -/

def State.lease (s : State) (p : PDie) : LeaseTimer := (s.port p).lease
def State.setLease (s : State) (p : PDie) (x : LeaseTimer) : State := s.setPort p { s.port p with lease := x }

/-- STATE codes of `LS_STAT`. -/
def lsNone : Nat := 0
def lsStandby : Nat := 1
def lsProvisional : Nat := 2
def lsHeld : Nat := 3

/-- A change of state raises LEASE to every strand (R356); UNTIL reads 0 when not HELD. -/
def State.setLeaseState (s : State) (p : PDie) (st : Nat) (until' : Half) : State :=
  let old := s.leaseState p
  let t := (s.setFld p.unit Reg.lsStat 31 30 st).setFld p.unit Reg.lsStat 15 0 (if st = lsHeld then until'.toNat else 0)
  if old = st then t else t.raisePAll p 63

def State.bumpHalf (s : State) (p : PDie) : State := s.bump p.unit Reg.lsCnt 31 24
def State.bumpConflict (s : State) (p : PDie) : State := s.bump p.unit Reg.lsCnt 23 16
def State.bumpExpired (s : State) (p : PDie) : State := s.bump p.unit Reg.lsCnt 15 8

/-- The timer is qualified: its guardian is OPEN and its active sync set holds another node. -/
def State.qualified (s : State) (p : PDie) : Bool :=
  let g := s.guard p
  s.guardLive p && g.net.phase == .active && (s.setIds (.gd p)).any fun i => i != g.net.id

/-- QUAL follows; an unqualified timer counts no silence and gives up what it holds (R350, R351). -/
def State.requalify (s : State) (p : PDie) : State :=
  let q := s.qualified p
  let t := s.setFlag p.unit Reg.lsStat 28 q
  if q then t
  else
    let t := t.setFld p.unit Reg.lsStat 23 16 0
    if lsProvisional ≤ t.leaseState p then (t.setLeaseState p lsStandby 0).bumpExpired p else t

/-- EN and the acceptance of the settings decide between NONE and STANDBY (R350). -/
def State.leaseEnable (s : State) (p : PDie) : State :=
  if !s.lsEn p || (s.lease p).refused then s.setLeaseState p lsNone 0
  else if s.leaseState p = lsNone then s.setLeaseState p lsStandby 0 else s

/-- The first release of a strand reads both dies' settings (R345), whether EN is set or not (log entry 157). -/
def State.leaseAtRelease (s : State) : State :=
  let t := if s.lsDiffers then s.logEv 6 none .lsCfgDiff [] else s
  let bad := s.lsUnusable .p1 || s.lsUnusable .p2
  let t := if bad then t.logEv 6 none .lsCfgBad [] else t
  PDie.list.foldl (fun t p =>
    (t.setLease p { t.lease p with refused := (t.lease p).refused || s.lsDiffers || bad }).leaseEnable p) t

/-! ### Frames (R347 to R349) -/

/-- Identity of a LEASE frame's sender as the guardian judges it. -/
inductive LeaseSender where
  | own | partner | other
deriving DecidableEq, Repr

def State.leaseSender (s : State) (p : PDie) (f : KFrame) : LeaseSender :=
  let id := (s.guard p).net.id
  let sender := f.hdr.sender.toNat
  if id != 0 && sender == id then .own
  else if s.lsPartner p = 0 then
    (if beAt f.payload 4 4 = (s.reg p.unit Reg.lsPserial).toNat then .partner else .other)
  else if sender = s.lsPartner p then .partner else .other

/-- The payload of a LEASE frame is right (R347, R348). -/
def State.leasePayloadOk (s : State) (p : PDie) (f : KFrame) : Bool :=
  f.hdr.kind == kindLease && f.hdr.plen.toNat == 20 && beAt f.payload 0 4 == (s.reg p.unit Reg.lsPair).toNat &&
    leAt f.payload 16 4 == (crc32c (slice f.payload 0 16)).toNat

/-- A frame in a LEASE slot at a timer; `tOk` tells that it passes R251 on the guardian's timing. -/
def State.leaseFrame (s : State) (p : PDie) (f : KFrame) (tOk : Bool) : State :=
  let who := s.leaseSender p f
  if !tOk || !s.isKtn (.gd p) f || !headerOk f || !f.fcsOk || who == .other || !s.leasePayloadOk p f then
    s.bump p.unit Reg.lsCnt 7 0
  else
    let held := bitOf f.hdr.status 11
    let prov := bitOf f.hdr.status 7
    let x := s.lease p
    match who with
    | .own => s.setLease p { x with ownSight := true, ownRenew := x.ownRenew || held || prov, ownPlain := x.ownPlain || !(held || prov) }
    | _ =>
      (s.setLease p { x with partSight := true, partRenew := x.partRenew || held || prov, partHold := x.partHold || held }).setFlag
        p.unit Reg.lsStat 26 true

/-- The slot whose window contains the frame's start is a LEASE slot of the mode in force at the guardian. -/
def State.leaseSlot (s : State) (p : PDie) (tRx : Dword) (P : Int) : Bool :=
  let n := NetId.gd p
  (s.slots n (s.net n).mode).any fun sl => sl.cls == clsLease && s.slotHolds n sl tRx P

/-- The guardian is integrated: it has a mode in force and times its cycles. -/
def State.guardInSync (s : State) (p : PDie) : Bool :=
  s.guardLive p && ((s.guard p).net.phase == .active || (s.guard p).net.phase == .holdover)

/-- LEASE_FRAME_RECEIVE (R348, R349): a frame of the receive tap, `own` when the guarded node sent it; each guardian judges and
classifies it, whatever the state of its timer. -/
def execLeaseFrameReceive (p : PDie) (port : Port) (own : Bool) (f : KFrame) (ago : Nat) (s : State) : Out :=
  let n := NetId.gd p
  let tRx := tenNs (s.stamp n ago)
  let P := pathDelay (s.net n) f port own
  .next (if s.guardInSync p = true ∧ s.leaseSlot p tRx P = true then
    s.leaseFrame p f (s.acceptance n f tRx P == .ok)
  else s)

/-! ### Cycle starts and ends (R350, R351) -/

def State.silent (s : State) (p : PDie) : Nat := s.fld p.unit Reg.lsStat 23 16
def State.leaseArmed (s : State) (p : PDie) : Bool := s.flag p.unit Reg.lsStat 29

/-- The start of a cycle at a timer. -/
def State.leaseStart (s : State) (p : PDie) : State :=
  let t := s.requalify p
  let n := (t.guard p).net.cycle
  let st := t.leaseState p
  if st = lsStandby ∧ t.qualified p = true ∧ t.leaseArmed p = true ∧ (t.lease p).prevOwnSight = true ∧
      t.lsLen p + leaseMargin ≤ t.silent p then t.setLeaseState p lsProvisional 0
  else if st = lsHeld ∧ t.fld p.unit Reg.lsStat 15 0 = n.toNat then (t.setLeaseState p lsStandby 0).bumpExpired p
  else t

/-- LEASE_CYCLE_START (R350): after GUARD_CYCLE_END has begun the cycle. -/
def execLeaseCycleStart (p : PDie) (s : State) : Out :=
  .next (s.leaseStart p)

/-- SILENT at the end of a qualified cycle. -/
def State.countSilent (s : State) (p : PDie) : State :=
  s.setFld p.unit Reg.lsStat 23 16 (if (s.lease p).partRenew then 0 else satAdd 8 (s.silent p) 1)

/-- A PROVISIONAL timer at the end of cycle n. -/
def State.endProvisional (s : State) (p : PDie) (until' : Half) : State :=
  let x := s.lease p
  let ok := x.ownRenew && (s.lsPref p || !x.partRenew)
  if x.release then (if ok then s.countSilent p else s.bumpHalf p).setLeaseState p lsStandby 0
  else if ok then (s.countSilent p).setLeaseState p lsHeld until'
  else (s.bumpHalf p).setLeaseState p lsStandby 0

/-- A HELD timer at the end of cycle n. -/
def State.endHeld (s : State) (p : PDie) (until' : Half) : State :=
  let x := s.lease p
  let pref := s.lsPref p
  let conflict := x.partHold && (pref || x.prevPartHold)
  let t := s.countSilent p
  let t := if conflict then t.bumpConflict p else t
  if x.release then t.setLeaseState p lsStandby 0
  else if x.ownPlain then (t.setLeaseState p lsStandby 0).bumpExpired p
  else if conflict && !pref then t.setLeaseState p lsStandby 0
  else if x.ownRenew then t.setLeaseState p lsHeld until'
  else t

/-- The flags of a new cycle. -/
def nextLease (x : LeaseTimer) : LeaseTimer :=
  { x with
    ownSight := false, ownRenew := false, ownPlain := false, partRenew := false, partHold := false, partSight := false
    prevOwnSight := x.ownSight, prevPartHold := x.partHold, prevPartSight := x.partSight, release := false }

/-- The end of cycle n at a timer. -/
def State.leaseEnd (s : State) (p : PDie) : State :=
  let t := s.requalify p
  let x := t.lease p
  let until' := (t.guard p).net.cycle + BitVec.ofNat 16 (t.lsLen p + 1)
  let t := t.setFlag p.unit Reg.lsStat 26 (x.partSight || x.prevPartSight)
  let t :=
    if t.leaseState p = lsProvisional then t.endProvisional p until'
    else if t.leaseState p = lsHeld then t.endHeld p until'
    else if t.qualified p then t.countSilent p else t
  t.setLease p (nextLease (t.lease p))

/-- LEASE_CYCLE_END (R350, R351): before GUARD_CYCLE_END begins the next cycle. -/
def execLeaseCycleEnd (p : PDie) (s : State) : Out :=
  .next (s.leaseEnd p)

/-- LEASE_UNQUALIFIED (R350). -/
def execLeaseUnqualified (p : PDie) (s : State) : Out :=
  .next (s.requalify p)

/-! ### `LS_CMD` (R353) -/

/-- A write of `LS_CMD` by the lease strand; another strand's is ignored and logged. -/
def State.lsCmd (s : State) (p : PDie) (k : Strand) (op : Nat) : State :=
  if k ≠ s.lsOwner p then s.ignored p.unit Reg.lsCmd (.strand k)
  else if op = 1 then s.setFlag p.unit Reg.lsStat 29 true
  else if op = 2 then s.setFlag p.unit Reg.lsStat 29 false
  else if op = 3 ∧ lsProvisional ≤ s.leaseState p then s.setLease p { s.lease p with release := true }
  else s

/-- ARM_LEASE (R353). -/
def execArmLease (p : PDie) (k : Strand) (s : State) : Out := .next (s.atUnit (.strand k) p.unit Reg.lsCmd (s.lsCmd p k 1))

/-- DISARM (R353). -/
def execDisarm (p : PDie) (k : Strand) (s : State) : Out := .next (s.atUnit (.strand k) p.unit Reg.lsCmd (s.lsCmd p k 2))

/-- RELEASE (R353). -/
def execRelease (p : PDie) (k : Strand) (s : State) : Out := .next (s.atUnit (.strand k) p.unit Reg.lsCmd (s.lsCmd p k 3))

/-! ### The module-held state (R352, R354) -/

/-- Both timers are HELD. -/
def State.bothHeld (s : State) : Bool := s.leaseState .p1 == lsHeld && s.leaseState .p2 == lsHeld

/-- Lanes that report the module as holding to a port die, over working links. -/
def State.holdReports (s : State) (p : PDie) : List Lane :=
  Lane.list.filter fun l => (s.port p).heldBy.get l && (s.lane l).junction.get (Die.ofPDie p) && !s.retired l

def State.modHeld (s : State) (p : PDie) : Bool := decide (2 ≤ (s.holdReports p).length)

/-- MOD_HELD shows a port die's view; a change raises LEASE (R352, R356). -/
def State.showHeld (s : State) (p : PDie) : State :=
  let new := s.modHeld p
  let t := s.setFlag p.unit Reg.lsStat 27 new
  if s.flag p.unit Reg.lsStat 27 = new then t else t.raisePAll p 63

/-- The same at both port dies, once a lane reports no more. -/
def State.showHeldAll (s : State) : State := (s.showHeld .p1).showHeld .p2

/-- A port die's view of the module-held state follows the lanes' reports. -/
def State.relayHeld (s : State) (p : PDie) : State :=
  State.showHeld (s.setPort p { s.port p with heldBy := Tri.all s.bothHeld }) p

/-- MOD_HELD_CHANGE (R352): the two lines reach the lanes, both port dies and F. -/
def execModHeldChange (s : State) : Out :=
  let t := (s.relayHeld .p1).relayHeld .p2
  .next (State.refreshOuts { t with field := { t.field with held := t.bothHeld } })

/-- LEASE_STATE_SAMPLE (R348, R354): 5 µs after its cycle start a port die samples its island's timer for the status
word, and the module-held state for the cycle. -/
def execLeaseStateSample (p : PDie) (s : State) : Out :=
  let w := withBit (withBit (s.curStatus p) 11 (s.leaseState p == lsHeld)) 7 (s.leaseState p == lsProvisional)
  let t := s.setStatusWord p w
  .next (if s.chOn p then t.setPort p { t.port p with heldNow := t.modHeld p } else s)

end Sys2Proof.Machine
end

