-- ==== Sys2Proof/Machine/Mailbox.lean ====
section
/-! DEFINITION. Mailboxes (R361 to R369, R375) and semaphores (R370 to R374, R376). -/

namespace Sys2Proof.Machine

/-! ### Sides and directions -/

def emptyMbDir : MbDir := ⟨[], [], [], false, 0, 0, 0, false, false, false, false⟩

def emptyMailbox : Mailbox := ⟨emptyMbDir, emptyMbDir, emptyMbDir, emptyMbDir, [], 0, 0⟩

def State.mailbox (s : State) (n : Nat) : Mailbox := (s.mailboxes[n]?).getD emptyMailbox

/-- The strand of mailbox n, and its vector (R179). -/
def mbStrand (n : Nat) : Strand := if n < 8 then Strand.ofIdx (n / 2) else Strand.ofIdx (n - 8)
def mbVector (n : Nat) : Nat := if n < 8 then 208 + n % 2 else 210

/-- The master owns the view (R361). -/
def mbOwns (m : Master) (n : Nat) (far : Bool) : Bool :=
  match m with
  | .mgmt => far && decide (n < 8)
  | .strand k => !far && k == mbStrand n
  | .gallery _ _ => far && decide (8 ≤ n)
  | .debug => false

/-- The direction that a view sends on, and the one it receives on. -/
def Mailbox.tx (x : Mailbox) (far : Bool) : MbDir := if far then x.inn else x.out
def Mailbox.rx (x : Mailbox) (far : Bool) : MbDir := if far then x.out else x.inn

def Mailbox.setTx (x : Mailbox) (far : Bool) (d : MbDir) : Mailbox := if far then { x with inn := d } else { x with out := d }
def Mailbox.setRx (x : Mailbox) (far : Bool) (d : MbDir) : Mailbox := if far then { x with out := d } else { x with inn := d }

/-- FLUSHED, and COLLISION, as the strand side shows them for its two directions. -/
def strandFlushed (out inn : MbDir) : List Bool := [out.flushTx, inn.flushRx]
def strandCollided (out inn : MbDir) : List Bool := [out.collTx, inn.collRx]

/-- A flag that was 0 is 1. -/
def flagRises (old new : List Bool) : Bool := (old.zip new).any fun f => !f.1 && f.2

/-- A mailbox takes a new content. `MB_FLAG` tells the strand of a FLUSHED that becomes set (R179). -/
def State.putMailbox (s : State) (n : Nat) (x : Mailbox) : State :=
  let t : State := { s with mailboxes := s.mailboxes.set n x }
  let old := s.mailbox n
  if flagRises (strandFlushed old.out old.inn) (strandFlushed x.out x.inn) then t.raise .m (mbStrand n) 211 else t

/-! ### The acts of R362 to R367 -/

/-- Words that a direction holds, open words included. -/
def mbHeld (d : MbDir) : Nat := d.openWords.length + (d.msgs.map fun x => x.words.length).sum

def replaceLast {α : Type} (xs : List α) (x : α) : List α := xs.dropLast ++ [x]

/-- A word joins the open message, or replaces the newest word of a full queue (R364). -/
def appendWord (d : MbDir) (master : Nat) (w : Word) : MbDir :=
  if mbHeld d < 16 then { d with openWords := d.openWords ++ [w], openBy := d.openBy ++ [master] }
  else
    let e := { d with collTx := true, collRx := true }
    if d.openWords ≠ [] then
      { e with openWords := replaceLast d.openWords w, openBy := replaceLast d.openBy master, openColl := true }
    else match d.msgs.getLast? with
      | some x => { e with msgs := replaceLast d.msgs { x with words := replaceLast x.words w, coll := true } }
      | none => e

/-- A doorbell write closes the open message and sets bits (R362). -/
def ringDoorbell (d : MbDir) (master : Nat) (bits : Word) : MbDir :=
  let d := { d with db := d.db ||| bits }
  if d.openWords = [] then d
  else
    let mixed := d.openBy.any fun x => some x != d.openBy.head?
    { d with
      msgs := d.msgs ++ [⟨d.openWords, d.epoch, master, d.openColl, mixed⟩]
      openWords := [], openBy := [], openColl := false }

/-- A receiver reset (R366). -/
def receiverReset (d : MbDir) : MbDir :=
  { d with msgs := [], openWords := [], openBy := [], openColl := false, db := 0, flushTx := true, flushRx := true }

/-- A sender reset (R367). -/
def senderReset (d : MbDir) : MbDir :=
  { d with openWords := [], openBy := [], openColl := false, epoch := d.epoch + 1 }

/-- A pop removes the head message (R363). -/
def popMessage (d : MbDir) : MbDir := { d with msgs := d.msgs.tail }

/-! ### The acts of one cycle (R368) -/

/-- The order in which the acts of one M-main cycle on a direction take effect: that of R368, and before them mask writes and
flags and doorbell bits written 1, for which the manual gives no place (log entry 156). -/
def MbAct.rank : MbAct → Nat
  | .mask _ => 0
  | .clearDb _ => 0
  | .clearTx _ => 0
  | .clearRx _ => 0
  | .rxReset => 1
  | .pop => 2
  | .txReset => 3
  | .word _ _ => 4
  | .doorbell _ _ => 5

def MbAct.apply (d : MbDir) : MbAct → MbDir
  | .mask v => { d with mask := v }
  | .clearDb bits => { d with db := d.db &&& ~~~bits }
  | .clearTx w => { d with flushTx := d.flushTx && !bitOf w 25, collTx := d.collTx && !bitOf w 24 }
  | .clearRx w => { d with flushRx := d.flushRx && !bitOf w 25, collRx := d.collRx && !bitOf w 24 }
  | .rxReset => receiverReset d
  | .pop => popMessage d
  | .txReset => senderReset d
  | .word m w => appendWord d m w
  | .doorbell m bits => ringDoorbell d m bits

/-- An act takes its place among those of its cycle: after those of its rank. -/
def insertAct (a : Bool × MbAct) : List (Bool × MbAct) → List (Bool × MbAct)
  | [] => [a]
  | b :: bs => if a.2.rank < b.2.rank then a :: b :: bs else b :: insertAct a bs

/-- The number of the M-main clock cycle at an instant: 2.5 ns each, at 400 MHz. -/
def mCycle (ns : Nat) : Nat := ns * 2 / 5

/-- The acts of a list on one direction. -/
def applyActs (out : Bool) (d : MbDir) (acts : List (Bool × MbAct)) : MbDir :=
  (acts.filter fun a => a.1 == out).foldl (fun d a => a.2.apply d) d

/-- No act has been done on the mailbox in the M-main cycle `now`. -/
def Mailbox.fresh (x : Mailbox) (now : Nat) : Bool := x.acts.isEmpty || x.at' != now

/-- One act more in the M-main cycle `now`: all of them are done again in their order, from what was there before. -/
def Mailbox.act (x : Mailbox) (now : Nat) (out : Bool) (a : MbAct) : Mailbox :=
  let y : Mailbox := if x.fresh now then { x with outBase := x.out, innBase := x.inn, acts := [], at' := now } else x
  let acts := insertAct (out, a) y.acts
  if out then { y with acts := acts, out := applyActs true y.outBase acts }
  else { y with acts := acts, inn := applyActs false y.innBase acts }

/-- An act on the direction that a view sends on. -/
def State.mbSend (s : State) (n : Nat) (far : Bool) (a : MbAct) : State := s.putMailbox n ((s.mailbox n).act (mCycle s.ns) (!far) a)

/-- An act on the direction that a view receives on. -/
def State.mbTake (s : State) (n : Nat) (far : Bool) (a : MbAct) : State := s.putMailbox n ((s.mailbox n).act (mCycle s.ns) far a)

/-- The M-main cycle of a mailbox's acts is over: `MB_FLAG` tells the strand of a COLLISION that all of them together made (R179,
R368). -/
def State.endMailbox (s : State) (n : Nat) : State :=
  let x := s.mailbox n
  if x.acts.isEmpty then s
  else
    let t : State := { s with mailboxes := s.mailboxes.set n { x with acts := [], outBase := x.out, innBase := x.inn } }
    if flagRises (strandCollided x.outBase x.innBase) (strandCollided x.out x.inn) then t.raise .m (mbStrand n) 211 else t

/-- An M-main cycle of the mailboxes ends. -/
def State.endMailboxes (s : State) : State := (List.range 12).foldl State.endMailbox s

/-- A receiver is notified: the strand by its vector, the far side by its line (R365). -/
def State.mbNotify (s : State) (n : Nat) (toStrand : Bool) : State :=
  if toStrand then s.raise .m (mbStrand n) (mbVector n)
  else s.putMailbox n { s.mailbox n with notices := (s.mailbox n).notices + 1 }

/-- A doorbell write reaches the receiver, which is notified when an enabled bit is set (R365). -/
def State.mbDoorbell (s : State) (m : Master) (n : Nat) (far : Bool) (bits : Word) : State :=
  let t := s.mbSend n far (.doorbell m.number bits)
  if bits &&& ((s.mailbox n).tx far).mask != 0 then t.mbNotify n far else t

/-- A mask write: a notification, when it enables a bit that is pending. -/
def State.mbMask (s : State) (n : Nat) (far : Bool) (mask : Word) : State :=
  let x := s.mailbox n
  let d := x.rx far
  let t := s.mbTake n far (.mask mask)
  if mask &&& ~~~d.mask &&& d.db != 0 then t.mbNotify n (!far) else t

def State.mbRxReset (s : State) (n : Nat) (far : Bool) : State := s.mbTake n far .rxReset
def State.mbTxReset (s : State) (n : Nat) (far : Bool) : State := s.mbSend n far .txReset

/-! ### Views (R361, R375) -/

/-- Key of a view's register. -/
def mbKey (n : Nat) (far : Bool) (i : Nat) : Nat := 0x2000000 + n * 256 + bitNat far * 128 + i

/-- A foreign access is logged. -/
def State.mbForeign (s : State) (m : Master) (key : Nat) : State :=
  s.logEv 6 (match m with | .strand k => some k | _ => none) .mbForeign [key, m.number]

/-- The word of `MB_RXHDR`. -/
def mbHeader (d : MbDir) : Word :=
  match d.msgs with
  | [] => 0
  | x :: _ =>
    withField (withField (withField (withBit (withBit (withBit (0 : Word) 31 true) 30 x.coll) 29 x.mixed) 23 16 x.epoch.toNat)
      15 12 x.master) 4 0 x.words.length

/-- A read of a register of a view: 0 to a master that does not own it. -/
def State.mbRead (s : State) (m : Master) (n : Nat) (far : Bool) (i : Nat) : Word :=
  if !mbOwns m n far then 0
  else
    let x := s.mailbox n
    let tx := x.tx far
    let rx := x.rx far
    match regAt .m (mbKey n far i) with
    | none => 0
    | some (d, is) =>
      match d.id with
      | .mbTxstat =>
        withField (withField (withField (withBit (withBit (0 : Word) 25 tx.flushTx) 24 tx.collTx) 20 16 (16 - mbHeld tx))
          15 8 tx.epoch.toNat) 4 0 tx.openWords.length
      | .mbRxhdr => mbHeader rx
      | .mbRxdb => rx.db
      | .mbRxmask => rx.mask
      | .mbRxstat =>
        withField (withField (withField (withBit (withBit (0 : Word) 25 rx.flushRx) 24 rx.collRx) 23 16 rx.epoch.toNat)
          12 8 (mbHeld rx)) 4 0 rx.msgs.length
      | .mbRxdata => ((rx.msgs.head?.map fun y => (y.words[(is[2]?).getD 0]?).getD 0)).getD 0
      | _ => 0

/-- A write of the enabled bits of one register of a view (R445, R446). -/
def State.mbWrite (s : State) (m : Master) (n : Nat) (far : Bool) (i : Nat) (mask data : Word) : State :=
  let key := mbKey n far i
  let w := data &&& mask
  match regAt .m key with
  | none => s
  | some (d, is) =>
    if !mbOwns m n far then s.mbForeign m key
    else if w &&& reservedBits d is != 0 then s.logRsvd .m key m
    else
      let s := if differsRo d (s.mbRead m n far i) mask data then s.ignored .m key m else s
      let x := s.mailbox n
      match d.id with
      | .mbTxword => s.mbSend n far (.word m.number w)
      | .mbTxdb => s.mbDoorbell m n far w
      | .mbRxpop => if bitOf w 0 then s.mbTake n far .pop else s
      | .mbRxdb => s.mbTake n far (.clearDb w)
      | .mbRxmask => s.mbMask n far (((x.rx far).mask &&& ~~~mask) ||| w)
      | .mbTxstat => s.mbSend n far (.clearTx w)
      | .mbRxstat => s.mbTake n far (.clearRx w)
      | .mbCtl =>
        let t := if bitOf w 0 then s.mbRxReset n far else s
        if bitOf w 1 then t.mbTxReset n far else t
      | _ => s

/-! ### Commands -/

def fullMask : Word := 0xFFFFFFFF

/-- A write of a master to a register of a mailbox. -/
def State.atMailbox (s : State) (m : Master) (n : Nat) (far : Bool) (i : Nat) (mask data : Word) : State :=
  if n < 12 then s.atM m (s.mbWrite m n far i mask data) else s

/-- MB_TXWORD (R364). -/
def execMbTxword (m : Master) (n : Nat) (far : Bool) (data : Word) (s : State) : Out :=
  .next (s.atMailbox m n far 0x00 fullMask data)

/-- MB_TXDB (R362). -/
def execMbTxdb (m : Master) (n : Nat) (far : Bool) (data : Word) (s : State) : Out :=
  .next (s.atMailbox m n far 0x04 fullMask data)

/-- MB_RXPOP (R363). -/
def execMbRxpop (m : Master) (n : Nat) (far : Bool) (data : Word) (s : State) : Out :=
  .next (s.atMailbox m n far 0x10 fullMask data)

/-- MB_RXDB_CLEAR (R365). -/
def execMbRxdbClear (m : Master) (n : Nat) (far : Bool) (data : Word) (s : State) : Out :=
  .next (s.atMailbox m n far 0x14 fullMask data)

/-- MB_RXMASK_WRITE (R365). -/
def execMbRxmaskWrite (m : Master) (n : Nat) (far : Bool) (data : Word) (s : State) : Out :=
  .next (s.atMailbox m n far 0x18 fullMask data)

/-- RX_RESET (R366): a write of 1 to its bit in `MB_CTL`. -/
def execRxReset (m : Master) (n : Nat) (far : Bool) (s : State) : Out :=
  .next (s.atMailbox m n far 0x20 fullMask 1)

/-- TX_RESET (R367). -/
def execTxReset (m : Master) (n : Nat) (far : Bool) (s : State) : Out :=
  .next (s.atMailbox m n far 0x20 fullMask 2)

/-- A restarted strand's mailboxes (R369). -/
def State.mbRestart (s : State) (k : Strand) : State :=
  [2 * k.idx, 2 * k.idx + 1, 8 + k.idx].foldl (fun t n => (t.mbRxReset n false).mbTxReset n false) s

/-- Every mailbox after a restart of M (R369). -/
def flushedMailboxes : List Mailbox :=
  let d : MbDir := { emptyMbDir with flushTx := true, flushRx := true }
  List.replicate 12 { emptyMailbox with out := d, inn := d }

/-- Some mailbox of a strand shows it FLUSHED. -/
def State.mbFlushed (s : State) (k : Strand) : Bool :=
  [2 * k.idx, 2 * k.idx + 1, 8 + k.idx].any fun n =>
    let x := s.mailbox n
    (strandFlushed x.out x.inn).contains true

/-- `MB_FLAG` tells a strand that its mailboxes were flushed (R369). -/
def State.tellFlushed (s : State) (k : Strand) : State := if s.mbFlushed k then s.raise .m k 211 else s

/-- Mailboxes and locks after a restart of M (R369, R374): every mailbox is flushed, which every strand that runs is told (one
that waits for its release is told there), and every lock is FREE. -/
def State.mbMRestart (s : State) : State :=
  let t : State := { s with mailboxes := flushedMailboxes, lockTaken := [] }
  let t := (List.range 64).foldl (fun t i => t.setFld .m (Reg.smLock i) 3 0 0) t
  Strand.list.foldl (fun t k => if t.released.get k then t.tellFlushed k else t) t

/-! ### Semaphores -/

/-- The lowest of the master numbers. -/
def lowestMaster : List Master → Nat
  | [] => 0
  | [m] => m.number
  | m :: ms => min m.number (lowestMaster ms)

/-- A read of the present M-main cycle took the lock: reads of the cycle still decide together who owns it (R372). -/
def State.lockOpen (s : State) (i : Nat) : Bool := s.lockTaken.any fun x => x.lock == i && x.cycle == mCycle s.ns

/-- A read of a lock by a master wins it: the lock is FREE, or was taken in this cycle by a higher master (R371, R372). -/
def State.lockWins (s : State) (i : Nat) (m : Nat) : Bool :=
  s.lockOwner i == 0 || (s.lockOpen i && decide (m < s.lockOwner i))

/-- What a read of a lock answers its reader: 0 when it wins, else the owner (R371). -/
def State.lockAnswer (s : State) (i : Nat) (m : Nat) : Word :=
  if s.lockWins i m then 0 else BitVec.ofNat 32 (s.lockOwner i)

/-- The result of a request with the word of a lock replaced. -/
def putLockWord (b : Beat) (i : Nat) (w : Word) (data : Dword) : Dword :=
  keepEnabled b.be (if i % 2 = 0 then hiWord data ++ w else w ++ loWord data)

/-- The read-once result of a request, still on its way, answers with the winner's number (R372). -/
def Wire.relock (b : Beat) (i : Nat) (w : Word) : Wire → Wire
  | .result l d k ord data => .result l d k ord (if d = .m ∧ k = b.strand ∧ ord = b.ordinal then putLockWord b i w data else data)
  | x => x

/-- A strand's read that had taken a lock loses it to a lower master of the same cycle: its result, on its way and kept for the
third replica, carries the winner's number. -/
def State.relock (s : State) (b : Beat) (i winner : Nat) : State :=
  let w := BitVec.ofNat 32 winner
  let v := s.voter .m b.strand
  let t := s.setVoter .m b.strand { v with
    kept := v.kept.map fun r => if r.ordinal = b.ordinal then { r with data := putLockWord b i w r.data } else r }
  Lane.list.foldl (fun t l => t.setVcQueue l .m true .response ((t.vcQueue l .m true .response).map (Wire.relock b i w))) t

/-- A read of a lock by a master takes it when it wins; one that had won it before in the same cycle loses it. -/
def State.lockRead (s : State) (i : Nat) (m : Nat) : State :=
  if s.lockWins i m then
    let t := match s.lockTaken.find? fun x => x.lock == i && x.cycle == mCycle s.ns with
      | some ⟨_, _, some b⟩ => s.relock b i m
      | _ => s
    { t.setFld .m (Reg.smLock i) 3 0 m with
      lockTaken := ⟨i, mCycle s.ns, none⟩ :: s.lockTaken.filter fun x => x.lock != i && x.cycle == mCycle s.ns }
  else s

/-- SM_LOCK_READ (R371, R372): reads of one M-main cycle, decided together with every other of that cycle. -/
def execSmLockRead (i : Nat) (readers : List Master) (s : State) : Out :=
  let rs := readers.filter fun m => !s.strandFenced m .m
  .next (if s.mOn && decide (i < 64) && !rs.isEmpty then s.lockRead i (lowestMaster rs) else s)

/-- What SM_LOCK_READ answers one of its readers: 0 to the lowest where that one wins, to every other the owner's number. -/
def State.lockAnswers (s : State) (i : Nat) (readers : List Master) (m : Master) : Word :=
  let low := lowestMaster readers
  if m.number = low then s.lockAnswer i low
  else BitVec.ofNat 32 (if s.lockWins i low then low else s.lockOwner i)

/-- A write of a lock (R373). A narrow write that does not enable OWNER writes no number and leaves the lock as it is (R446). -/
def State.lockWrite (s : State) (m : Master) (i : Nat) (mask data : Word) : State :=
  if data &&& mask &&& 0xFFFFFFF0 != 0 then s.logRsvd .m (Reg.smLock i) m
  else if mask &&& 0xF = 0 then s
  else if s.lockOwner i = m.number ∧ fieldOf data 3 0 = m.number then s.freeLock i
  else (s.bump .m Reg.smStat 7 0).logEv 6 (match m with | .strand k => some k | _ => none) .smBadRelease [i, m.number]

/-- SM_RELEASE (R373). -/
def execSmRelease (m : Master) (i : Nat) (data : Word) (s : State) : Out :=
  .next (if i < 64 then s.atM m (s.lockWrite m i fullMask data) else s)

/-- A write of `SM_FORCE` (R374, R376). -/
def State.lockForce (s : State) (m : Master) (data : Word) : State :=
  let i := fieldOf data 5 0
  if m ≠ .mgmt then s.ignored .m Reg.smForce m
  else if data &&& 0xFFFFFFC0 != 0 then s.logRsvd .m Reg.smForce m
  else if s.lockOwner i = 0 then s else s.forceLock i (s.lockOwner i)

/-- SM_FORCE (R374). -/
def execSmForce (m : Master) (data : Word) (s : State) : Out := .next (s.atM m (s.lockForce m data))

end Sys2Proof.Machine
end

