-- ==== Sys2Proof/Machine/Dripstone.lean ====
section
/-! DEFINITION. Dripstone (R410 to R422): margin governors, pace coupling, ceilings and the planner. -/

namespace Sys2Proof.Machine

def State.gov (s : State) (l : Lane) : Governor := s.governors.get l
def State.setGov (s : State) (l : Lane) (g : Governor) : State := { s with governors := s.governors.set l g }

def minList (d : Nat) (xs : List Nat) : Nat := xs.foldl min d

/-! ### Sensors (R410) -/

/-- SLACK_MIN: the lowest reading of the replicas. -/
def slackOf (r : GovReading) : Nat := r.replicas.foldl (fun n x => min n x.toNat) 255

/-- The highest temperature. -/
def tempOf (r : GovReading) : Byte :=
  (r.temps.tail).foldl (fun a b => if a.toInt < b.toInt then b else a) (r.temps.headD 0)

/-! ### What M reports (R422) -/

/-- Lowest GOV_LIMIT of the lanes that are not retired, as each lane itself holds it. -/
def State.lowestLimit (s : State) : Nat := minList 8 (s.liveLanes.map fun l => (s.gov l).limits.get l)

/-- `DS_STEP` and `DS_LANE` follow the lanes' values; DROPS and RAISES count changes of the step in force. -/
def State.showDs (s : State) : State :=
  if !s.mOn then s
  else
    let t := Lane.list.foldl (fun (t : State) l =>
      let g := t.gov l
      let w := withField (withField (withField (withField (withField (0 : Word) 31 24 g.slack) 23 20 (g.limits.get l))
        19 16 (g.plan.get l)) 13 8 g.volt) 7 0 g.temp.toNat
      t.setReg .m (Reg.dsLane l.idx) w) s
    let step := minList 8 (t.liveLanes.map fun l => (t.gov l).step)
    let limit := minList t.lowestLimit (t.liveLanes.map fun l => (t.gov l).plan.get l)
    let ceil := minList 8 ((List.range 4).map fun k => t.fld .m (Reg.dsCeil k) 3 0)
    let old := t.fld .m Reg.dsStep 27 24
    let t := if step < old then t.bump .m Reg.dsStat 31 24 else if old < step then t.bump .m Reg.dsStat 23 16 else t
    t.setReg .m Reg.dsStep (withField (withField (withField (0 : Word) 27 24 step) 23 20 limit) 19 16 ceil)

/-! ### Pace coupling (R414 to R417) -/

/-- The step that a lane computes from the values it holds (R414). -/
def State.stepOf (s : State) (l : Lane) : Nat :=
  let g := s.gov l
  let lanes := s.liveLanes.flatMap fun x => [g.limits.get x, g.plan.get x]
  minList 8 (lanes ++ Strand.list.map fun k => g.ceils.get k)

/-- The voltage allows a raise of GOV_LIMIT (R412), in steps of 5 mV. -/
def calm (g : Governor) (l : Lane) : Bool :=
  decide (g.volt + 8 * (g.limits.get l + 1) ≤ 50 + 8 * g.step)

/-- The 60 s of R412 run while the voltage allows a raise. -/
def State.trackCalm (s : State) (l : Lane) : State :=
  let g := s.gov l
  if calm g l then (if g.calmSince.isSome then s else s.setGov l { g with calmSince := some s.ns })
  else s.setGov l { g with calmSince := none }

/-- A lane acts on the step it computes: lower at once; higher after a voltage raise and 20 µs, abandoned by a lower
value (R415, R417). A raise that waits gives way to one to another step, which begins anew (DESIGN CHOICE, log 140). -/
def State.reStep (s : State) (l : Lane) : State :=
  let g := s.gov l
  let n := s.stepOf l
  let h : Governor :=
    if n ≤ g.step then { g with step := n, raising := none }
    else if (g.raising.map (·.1)) = some n then g
    else { g with volt := min 50 (g.volt + 8), raising := some (n, s.ns) }
  if s.retired l then s else (s.setGov l h).trackCalm l

def State.reStepAll (s : State) : State := (s.liveLanes.foldl (fun t l => t.reStep l) s).showDs

/-- A lane's own GOV_LIMIT changes; the other lanes are told. -/
def State.setLimit (s : State) (l : Lane) (n : Nat) : State :=
  let g := s.gov l
  let t := (s.setGov l { g with limits := g.limits.set l n, low := 0, calmSince := none }).send
    ((s.peers l).map fun x => .pace x (.limit l n))
  (t.reStep l).trackCalm l

/-- One replica reading (R411). -/
def State.govern (s : State) (l : Lane) (r : GovReading) : State :=
  let g : Governor := { s.gov l with slack := slackOf r, temp := tempOf r }
  let t : State :=
    if slackOf r < 16 then
      if g.volt < 50 then s.setGov l { g with volt := g.volt + 1, low := 0 }
      else if 3 ≤ g.low ∧ 0 < g.limits.get l then (s.setGov l g).setLimit l (g.limits.get l - 1)
      else s.setGov l { g with low := min 3 (g.low + 1) }
    else if 32 < slackOf r ∧ 0 < g.volt then s.setGov l { g with volt := g.volt - 1, low := 0 }
    else s.setGov l { g with low := 0 }
  ((t.trackCalm l).reStep l).showDs

/-- The lane's core island has power. -/
def State.corePowered (s : State) (l : Lane) : Bool := s.flag .m Reg.mgPwr l.idx

/-- GOVERNOR_READING (R411). -/
def execGovernorReading (l : Lane) (r : GovReading) (s : State) : Out :=
  .next (if s.retired l || !s.corePowered l then s else s.govern l r)

/-- GOV_LIMIT_RAISE (R412): the voltage has allowed it for 60 s. -/
def execGovLimitRaise (l : Lane) (s : State) : Out :=
  let g := s.gov l
  .next (if !s.retired l && g.calmSince.any (fun x => decide (x + 60000000000 ≤ s.ns)) && decide (g.limits.get l < 8) then
    (s.setLimit l (g.limits.get l + 1)).showDs else s)

/-- A lane holds a value that it has received. -/
def Governor.take (g : Governor) : PaceValue → Governor
  | .limit x n => { g with limits := g.limits.set x (min 8 n) }
  | .plan x n => { g with plan := g.plan.set x (min 8 n) }
  | .ceiling k n => { g with ceils := g.ceils.set k (min 8 n) }

/-- A value comes from M over the sideband, which a lane that has fenced M refuses (R123, R416). -/
def paceFromM : PaceValue → Bool
  | .limit _ _ => false
  | _ => true

/-- GOV_LIMIT_RECEIVE (R415): a lane receives a GOV_LIMIT or a ceiling and computes the step in force. -/
def execGovLimitReceive (l : Lane) (v : PaceValue) (s : State) : Out :=
  let t := s.arrive (.pace l v)
  .next (if t.retired l || (paceFromM v && (t.lane l).fenceM) then t
  else ((t.setGov l ((t.gov l).take v)).reStep l).showDs)

/-- STEP_RAISE (R415): the voltage has settled for 20 µs. -/
def execStepRaise (l : Lane) (s : State) : Out :=
  let g := s.gov l
  .next (match g.raising with
    | some (n, since) =>
      if s.retired l || decide (s.ns < since + 20000) then s
      else ((s.setGov l { g with step := n, raising := none }).trackCalm l).showDs
    | none => s)

/-! ### Ceilings (R418, R419) -/

/-- 9 to 15 are treated as 8 (R422). -/
def ceilOf (w : Word) : Nat := min 8 (fieldOf w 3 0)

/-- A value of M goes over the sideband to every lane that is not retired (R415). -/
def State.relay (s : State) (v : PaceValue) : State := (s.send (s.liveLanes.map fun l => .pace l v)).showDs

def State.setCeil (s : State) (k : Strand) (n : Nat) (clamped : Bool) : State :=
  (s.setReg .m (Reg.dsCeil k.idx) (withBit (BitVec.ofNat 32 n) 8 clamped)).relay (.ceiling k n)

/-- A strand asks for a ceiling, which is clamped to the lowest GOV_LIMIT. -/
def State.ceilTake (s : State) (k : Strand) (n : Nat) : State :=
  let lim := s.lowestLimit
  if lim < n then
    (((s.setCeil k lim true).raise .m k 216).logEv 6 (some k) .policyClamped [n, lim]).bump .m Reg.dsStat 15 8
  else s.setCeil k n false

/-- A released write of the whole of `DS_CEIL[k]`. -/
def State.ceilWrite (s : State) (k : Strand) (writer : Master) (data : Word) : State :=
  let off := Reg.dsCeil k.idx
  if writer ≠ .strand k then s.ignored .m off writer
  else if data &&& 0xFFFFFEF0 != 0 then s.logRsvd .m off writer
  else State.ceilTake (if bitOf data 8 != s.flag .m off 8 then s.ignored .m off writer else s) k (ceilOf data)

/-- DS_CEIL_WRITE (R418). -/
def execDsCeilWrite (k : Strand) (writer : Master) (data : Word) (s : State) : Out :=
  .next (s.atM writer (s.ceilWrite k writer data))

/-- PLAN_CEIL of a lane, relayed to the lanes. -/
def State.setPlan (s : State) (l : Lane) (n : Nat) : State :=
  (s.setReg .m (Reg.dsPlan l.idx) (BitVec.ofNat 32 n)).relay (.plan l n)

/-- A write of `DS_PLAN[l]` by management. -/
def State.planWrite (s : State) (l : Lane) (data : Word) : State :=
  if data &&& 0xFFFFFFF0 != 0 then s.logRsvd .m (Reg.dsPlan l.idx) .mgmt else s.setPlan l (ceilOf data)

/-- DS_PLAN_WRITE (R419). -/
def execDsPlanWrite (l : Lane) (data : Word) (s : State) : Out := .next (if s.mOn then s.planWrite l data else s)

/-- The highest of the steps 0 to 8 whose value a test accepts; 0 when it accepts none. -/
def highestStep {α : Type} (xs : List α) (ok : α → Bool) : Nat :=
  (List.range 9).foldl (fun n i => if (xs[i]?).any ok then i else n) 0

/-- The planner writes PLAN_CEIL of each lane from the voltages in mV that it predicts for the lane's steps (R419). -/
def State.replan (s : State) (predicted : Tri (List Nat)) : State :=
  Lane.list.foldl (fun t l => t.setPlan l (highestStep (predicted.get l) fun v => decide (v ≤ 930))) s

/-- PLANNER_REPLAN (R419): the predicted voltages are operands. -/
def execPlannerReplan (predicted : Tri (List Nat)) (s : State) : Out := .next (if s.mOn then s.replan predicted else s)

/-! ### Ageing (R420, R421) -/

def noAge : AgeRec := ⟨none, false, [], []⟩
def State.age (s : State) (u : Nat) : AgeRec := (s.ages[u]?).getD noAge
def State.setAge (s : State) (u : Nat) (x : AgeRec) : State := { s with ages := s.ages.set u x }

/-- A lane's sample: its voltage in mV at step 8 and +85 °C, as read there; otherwise normalised or predicted by
coefficients that the manual does not give (a free value). A lane that has nothing left to lower counts with 950 mV, so
that its margin reads 0 (R412). -/
def State.sampleLane (s : State) (l : Lane) (r : GovReading) : State :=
  let g := s.gov l
  let spent := g.step == 0 && g.volt == 50 && decide (slackOf r < 16)
  let exact := spent || g.step == 8 && tempOf r == 85
  let v := if spent then 950 else if exact then 700 + 5 * g.volt else (s.freeVal.toNat % 65536)
  let x := s.age l.idx
  let t := if exact then s else s.useFree
  t.setAge l.idx { x with day := some (max v (x.day.getD 0)), spent := x.spent || spent }

/-- A port die's sample: its lowest slack, normalised likewise. -/
def State.samplePort (s : State) (p : PDie) (r : GovReading) : State :=
  let exact := tempOf r == 85
  let v := if exact then slackOf r else s.freeVal.toNat % 256
  let x := s.age (3 + p.idx)
  let t := if exact then s else s.useFree
  t.setAge (3 + p.idx) { x with day := some (min v (x.day.getD v)) }

/-- PLANNER_SAMPLE (R410, R420). -/
def execPlannerSample (lanes : Tri GovReading) (ports : Duo GovReading) (s : State) : Out :=
  .next (if s.mOn then
    PDie.list.foldl (fun t p => t.samplePort p (ports.get p)) (s.liveLanes.foldl (fun t l => t.sampleLane l (lanes.get l)) s)
  else s)

/-- A quotient rounded down and held within 0 to 100; `none` when it is not defined. -/
def percentOf (num den : Int) : Option Nat := if den = 0 then none else some (clampInt 0 100 (Int.fdiv (100 * num) den)).toNat

/-- MARGIN of a unit from its first and latest record (R420): 0 for a lane whose governor has nothing left to lower (R412). -/
def marginOf (unit first last : Nat) (spent : Bool) : Option Nat :=
  if spent then some 0
  else if unit < 3 then percentOf (950 - last) (950 - first)
  else percentOf last first

/-- Sums over the points (day, margin). -/
def sumInt (xs : List Int) : Int := xs.foldl (fun n x => n + x) 0

/-- YEARS: where the least-squares line through the margins of the last 365 days reaches 0, in tenths of 365 days from
the latest record. -/
def yearsOf (records : Nat) (margins : List Nat) : Nat :=
  let n : Int := margins.length
  let xs : List Int := (List.range margins.length).map Int.ofNat
  let ys : List Int := margins.map Int.ofNat
  let sx := sumInt xs
  let sy := sumInt ys
  let d := n * sumInt (xs.map fun x => x * x) - sx * sx
  let b := n * sumInt ((xs.zip ys).map fun q => q.1 * q.2) - sx * sy
  if records < 30 ∨ 0 ≤ b then 2047
  else
    let num := d * sy - b * sx + n * (n - 1) * b
    (clampInt 0 2047 (quot (10 * num) (365 * n * (-b)).toNat)).toNat

/-- The warning level that follows a level at a margin (R421). -/
def warnOf (old margin : Nat) : Nat :=
  if margin < 5 then 2
  else if old = 2 ∧ margin < 7 then 2
  else if margin < 15 then 1
  else if old ≠ 0 ∧ margin < 17 then 1
  else 0

/-- One unit's day becomes a record; MARGIN, YEARS and the level follow. -/
def State.closeDay (s : State) (u : Nat) : State :=
  let x := s.age u
  match x.day with
  | none => s
  | some v =>
    let recs := x.records ++ [v]
    let mar := marginOf u (recs.headD v) v x.spent
    let pct := mar.getD (s.freeVal.toNat % 101)
    let t := if mar.isSome then s else s.useFree
    let mars := x.margins ++ [pct]
    let mars := mars.drop (mars.length - 365)
    let yrs := yearsOf recs.length mars
    let old := t.fld .m (Reg.dsMargin u) 31 30
    let lvl := warnOf old pct
    let w := withField (withField (withField (0 : Word) 31 30 lvl) 26 16 yrs) 6 0 pct
    let t := (t.setAge u ⟨none, false, recs, mars⟩).setReg .m (Reg.dsMargin u) w
    if lvl = old then t else (t.raiseAll .m 215).logEv 6 none .dsWarn [u, pct, yrs]

/-- Units whose margin is kept up: a retired lane's is frozen. -/
def State.agingUnits (s : State) : List Nat := s.liveLanes.map Lane.idx ++ [3, 4]

/-- MARGIN_DAILY_RECORD (R420, R421). -/
def execMarginDailyRecord (s : State) : Out :=
  .next (if s.mOn then s.agingUnits.foldl (fun t u => t.closeDay u) s else s)

end Sys2Proof.Machine
end

