-- ==== Sys2Proof/Machine/MgmtBase.lean ====
section
/-! DEFINITION. Management records that other blocks touch: the safe store (R387 to R389), the state of an update
(R399, R402) and the debug authorisation (R405). -/

namespace Sys2Proof.Machine

/-! ### Safe store -/

def defaultBoot : BootRec := ⟨0, 0, 0, none, 0, false, none, false, 0, none⟩

/-- Records when no bank is valid: defaults, with the debug history taken as set (R389). -/
def defaultRecs : SafeRecs := ⟨defaultBoot, none, true, 0, [], 0, 0⟩

def State.bankOf (s : State) (n : Nat) : SafeBank := if n = 0 then s.mgmt.bank0 else s.mgmt.bank1

def State.setBank (s : State) (n : Nat) (b : SafeBank) : State :=
  { s with mgmt := if n = 0 then { s.mgmt with bank0 := b } else { s.mgmt with bank1 := b } }

/-- MAGIC of a bank header, as a little-endian word (R387). -/
def bankMagic : Word := 0x5453534B

/-- MAGIC, LAYOUT and CRC of a bank are right (R388). -/
def SafeBank.valid (b : SafeBank) : Bool := b.magic == bankMagic && b.layout == 1 && b.crcOk

/-- FMT of each record. -/
def RecFmts.list (f : RecFmts) : List Nat := [f.boot, f.hist, f.sec, f.svc, f.logPos]

/-- The records written by a firmware that knows one format version of each type (log entry 22). -/
def RecFmts.all (n : Nat) : RecFmts := ⟨n, n, n, n, n⟩

/-- A bank is valid: MAGIC, LAYOUT and CRC are right and the firmware knows the format of each of its records (R388). -/
def State.bankUsable (s : State) (n : Nat) : Bool :=
  (s.bankOf n).valid && (s.bankOf n).fmts.list.all fun f => decide (f ≤ s.mgmt.fmt)

/-- Some bank is valid: SS_VALID of `MG_STAT`. -/
def State.ssValid (s : State) : Bool := s.bankUsable 0 || s.bankUsable 1

/-- The records in use. -/
def State.recs (s : State) : SafeRecs := if s.bankUsable s.mgmt.bank then (s.bankOf s.mgmt.bank).recs else defaultRecs

/-- `MG_STAT` shows the bank in use and whether one is valid. -/
def State.showBank (s : State) : State :=
  (s.setFlag .m Reg.mgStat 25 s.ssValid).setFlag .m Reg.mgStat 24 (s.ssValid && s.mgmt.bank == 1)

/-- The bank that a write goes to: the other bank, the one that is not frozen, or bank 0 while none is valid (R388, R390). -/
def State.nextBank (s : State) : Nat :=
  if !s.ssValid then 0 else match s.mgmt.frozen with
    | some f => 1 - f
    | none => 1 - s.mgmt.bank

/-- A write of the safe store, with SEQ one higher; the first one has SEQ 1 (R387, R388). It is made at one instant, at which a loss
of power can cut it (log entry 163). -/
def State.writeRecs (s : State) (r : SafeRecs) : State :=
  let n := s.nextBank
  let seq : Word := if s.ssValid then (s.bankOf s.mgmt.bank).seq + 1 else 1
  let r : SafeRecs := { r with
    boot := { r.boot with migration := s.mgmt.frozen }, logSeq := s.log.seq, logPos := s.log.pos }
  let t := s.setBank n ⟨bankMagic, seq, 1, 5, if s.logTime.2 then s.logTime.1 else 0, true, RecFmts.all s.mgmt.fmt, r⟩
  State.showBank { t with mgmt := { t.mgmt with bank := n, wroteAt := some s.ns } }

/-- Power fails at the instant of a write: it is cut, which leaves its bank invalid, or not (R388). -/
def State.cutWrite (s : State) : State :=
  if s.mgmt.wroteAt = some s.ns then
    (s.setBank s.mgmt.bank { s.bankOf s.mgmt.bank with crcOk := s.freeVal.getLsbD 0 }).useFree
  else s

def State.boot (s : State) : BootRec := s.recs.boot
def State.writeBoot (s : State) (b : BootRec) : State := s.writeRecs { s.recs with boot := b }

/-! ### Update state -/

/-- STATE codes of `MG_UPD`. -/
def updNone : Nat := 0
def updStaging : Nat := 1
def updStaged : Nat := 2
def updArmed : Nat := 3
def updUnconfirmed : Nat := 4

def State.updState (s : State) : Nat := s.fld .m Reg.mgUpd 31 29
def State.setUpd (s : State) (st : Nat) : State := s.setFld .m Reg.mgUpd 31 29 st
def State.setUpdResult (s : State) (r : Nat) : State := s.setFld .m Reg.mgUpd 23 16 r

/-- `MG_SLOTS` and BOOTS of `MG_UPD` show the BOOT record. -/
def State.showBoot (s : State) : State :=
  let b := s.boot
  let w := withField (withField (withField (0 : Word) 20 16 b.staged.toNat) 12 8 b.trial.toNat) 4 0 b.active.toNat
  ((s.setReg .m Reg.mgSlots w).setFld .m Reg.mgUpd 9 8 (min 3 b.boots)).setFlag .m Reg.mgUpd 0 s.mgmt.frozen.isSome

/-- An armed activation is cancelled with a reason of R402: the state returns to STAGED (R399). -/
def State.cancelUpdate (s : State) (reason : Nat) : State :=
  if s.updState ≠ updArmed then s
  else
    let t := ((s.setUpd updStaged).setUpdResult reason).setReg64 .m Reg.mgUpdTLo 0
    let t := t.writeBoot { t.boot with armed := none }
    (t.raiseAll .m 217).logEv 6 none .updCancelled [reason]

/-! ### Debug authorisation -/

def State.debugAuth (s : State) : Bool := s.flag .m Reg.mgDbg 31

/-- An authorisation ends: the debug master's locks are released; replicas stay in DEBUG (R405). -/
def State.endDebugAuth (s : State) : State :=
  if s.debugAuth then
    (((s.setFlag .m Reg.mgDbg 31 false).setFld .m Reg.mgDbg 8 0 0).freeLocksOf 15).logEv 6 none .dbgAuth [0]
  else s

/-- What a fence of M does to management (R399, R405). -/
def State.fenceMgmt (s : State) : State := (s.cancelUpdate 0x13).endDebugAuth

/-- M is fenced (R123). -/
def State.mFenced (s : State) : Bool := s.flag .m Reg.vtFence 0

/-- The end of a debug authorisation (R405). -/
def State.setDbgUntil (s : State) (n : Nat) : State := { s with mgmt := { s.mgmt with dbgUntil := n } }

end Sys2Proof.Machine
end

