-- ==== Sys2Proof/Machine/Echo.lean ====
section
/-! DEFINITION. Event points and the Echo exchange: publications, pair claims, agreement, the agreed set and inputs
(R44 to R85, R115 to R123, R157, R180). -/

namespace Sys2Proof.Machine

/-! ### Timing settings in force (`LN_TCFG`) -/

def State.epochLen (s : State) (l : Lane) (k : Strand) : Nat := s.fld l.unit (Reg.lnTcfg k) 17 5
def State.evtStride (s : State) (l : Lane) (k : Strand) : Nat := 2 ^ s.fld l.unit (Reg.lnTcfg k) 4 0
def State.digestOn (s : State) (l : Lane) (k : Strand) : Bool := s.flag l.unit (Reg.lnTcfg k) 31

/-- A strand runs in a lane: released, not halted, the lane not retired. -/
def State.runs (s : State) (l : Lane) (k : Strand) : Bool :=
  s.released.get k && !s.haltedAt l k && !s.retired l

/-! ### Pairs -/

def Pair.lanes : Pair → Lane × Lane
  | .ab => (.a, .b)
  | .ac => (.a, .c)
  | .bc => (.b, .c)
def Pair.has (p : Pair) (l : Lane) : Bool := l == (Pair.lanes p).1 || l == (Pair.lanes p).2
def Pair.third : Pair → Lane
  | .ab => .c
  | .ac => .b
  | .bc => .a
/-- The pair of two lanes, in either order. -/
def pairOf : Lane → Lane → Pair
  | .a, .b => .ab
  | .b, .a => .ab
  | .a, .c => .ac
  | .c, .a => .ac
  | .b, .c => .bc
  | .c, .b => .bc
  | .a, .a => .ab
  | .b, .b => .ab
  | .c, .c => .ac
def Pair.code : Pair → Nat
  | .ab => 0
  | .ac => 1
  | .bc => 2

/-! ### Crawlway errors -/

/-- A crawlway link is declared failed by lane `l` (R31, R32). -/
def State.failLink (s : State) (l o : Lane) : State :=
  let t := s.setFlag l.unit (Reg.ecLink (linkIndex l o)) 24 true
  let t : State := match t.rejoin with
    | some r => if (r.donor = l ∧ r.target = o) ∨ (r.donor = o ∧ r.target = l) then t.abandonRejoin 0x24 else t
    | none => t
  t.sendRetire (higherLane l o) .crawlway

/-- A crawlway error that lane `l` charges to its link to `o`; 16 in succession fail the link (R31). -/
def State.crawlError (s : State) (l o : Lane) : State :=
  let x := s.lane l
  let n := x.linkRun.get o + 1
  let t := s.setLane l { x with linkRun := x.linkRun.set o n }
  if n = 16 then t.failLink l o else t

/-! ### Publications held and claims -/

def pubLane (p : Publication) : Option Lane := Lane.ofIdx p.lane.toNat

/-- Publications held for a point, in order of arrival. -/
def pubsFor (e : Echo) (pt : Word) : List HeldPub := e.pubs.filter fun h => h.pub.point == pt

def pubFrom (e : Echo) (pt : Word) (l : Lane) : Option HeldPub :=
  (pubsFor e pt).find? fun h => pubLane h.pub == some l

/-- Pair claims decide the pair once two name it; three different claims give LA–LB (R50). -/
def decidedPair (e : Echo) (pt : Word) : Option Pair :=
  let cs := e.claims.filter fun c => c.point == pt
  match [Pair.ab, .ac, .bc].find? fun p => 2 ≤ (cs.filter fun c => c.pair == p).length with
  | some p => some p
  | none => if 3 ≤ cs.length then some .ab else none

/-- The number of the lane's 800 MHz clock cycle at an instant: 1.25 ns each. -/
def memCycle (ns : Nat) : Nat := ns * 4 / 5

/-- A publication came before another (R49): in an earlier clock cycle, or in the same cycle and from a lower-lettered
lane. -/
def heldBefore (x y : HeldPub) : Bool :=
  decide (memCycle x.since < memCycle y.since) ||
    (memCycle x.since == memCycle y.since && decide (x.pub.lane.toNat ≤ y.pub.lane.toNat))

/-- The pair of the two publications held first. -/
def firstPair (hs : List HeldPub) : Option Pair :=
  match (hs.filter fun h => decide (2 ≤ (hs.filter fun g => heldBefore h g).length) ||
      decide (hs.length = 2)).filterMap fun h => pubLane h.pub with
  | x :: y :: _ => some (pairOf x y)
  | _ => none

/-- The two publications that an exchange joins (R30), the one held later last: those of the pair decided for the point, or while
none is decided those of the pair held first. -/
def exchangeOf (e : Echo) (pt : Word) : Option (HeldPub × HeldPub) :=
  match (decidedPair e pt).orElse fun _ => firstPair (pubsFor e pt) with
  | some p =>
    match pubFrom e pt (Pair.lanes p).1, pubFrom e pt (Pair.lanes p).2 with
    | some x, some y => some (if heldBefore x y then (x, y) else (y, x))
    | _, _ => none
  | none => none

/-- The value compared at epoch boundaries (before R115). -/
def comparePart (p : Publication) : Dword × Dword := (p.sig, p.digest)

/-! ### Agreed values -/

/-- Strand time and its source, by the rows of R62, not yet clamped. -/
def chooseTime (pa pb : Publication) (prev : Dword) : Dword × Nat × Bool × Bool :=
  let mx := fun (a b : Dword) => if a.toNat < b.toNat then b else a
  if pa.tstatP1 = 0 ∧ pb.tstatP1 = 0 then (mx pa.timeP1 pb.timeP1, 0, true, false)
  else if pa.tstatP2 = 0 ∧ pb.tstatP2 = 0 then (mx pa.timeP2 pb.timeP2, 1, true, false)
  else if pa.tstatP1 = 1 ∧ pb.tstatP1 = 1 then (mx pa.timeP1 pb.timeP1, 0, true, true)
  else if pa.tstatP2 = 1 ∧ pb.tstatP2 = 1 then (mx pa.timeP2 pb.timeP2, 1, true, true)
  else (prev + 1, 2, false, false)

/-- The agreed sample number by the cases of R65. -/
def chooseSample (pa pb : Publication) (prev : Option Half) : FinRule :=
  if pa.fnone || pb.fnone then .hold
  else if pa.fstale && pb.fstale then .invalid
  else
    let low := serialMin pa.fseq pb.fseq
    match prev with
    | some p => .sample (if serialLt low p then p else low)
    | none => .sample low

/-- One agreed count per other strand: the lower of the pair's, never less than before (R72, R74). -/
def agreeCounts (prev a b : Quad Half) : Quad Half :=
  let f := fun (p x y : Half) => serialMax p (serialMin x y)
  ⟨f prev.s0 a.s0 b.s0, f prev.s1 a.s1 b.s1, f prev.s2 a.s2 b.s2, f prev.s3 a.s3 b.s3⟩

/-- The highest number of a source in a delivery record. -/
def recordTop (rec : List Occ) (src : BitVec 3) : Option Half :=
  ((rec.filter fun o => o.src == src).map fun o => o.num).foldl
    (fun m n => match m with | none => some n | some x => some (serialMax x n)) none

/-- An occurrence was already delivered or is older than the 256 most recent numbers of its source (R57). -/
def isDuplicate (rec : List Occ) (o : Occ) : Bool :=
  (rec.any fun r => r.src == o.src && r.num == o.num) ||
  match recordTop rec o.src with
  | some top => serialLt o.num top && decide (256 ≤ (top - o.num).toNat)
  | none => false

/-- A delivered number joins the record, which keeps 256 numbers per source. -/
def recordAdd (rec : List Occ) (o : Occ) : List Occ :=
  let r := o :: rec
  match recordTop r o.src with
  | some top => r.filter fun x => x.src != o.src || decide ((top - x.num).toNat < 256)
  | none => r

/-- The occurrences of two lists, without repeats, in order. -/
def unionOccs (a b : List Occ) : List Occ :=
  (a ++ b).foldl (fun acc o => if acc.contains o then acc else acc ++ [o]) []

/-- The agreed set: what the record does not already hold, with the record after it and the number discarded. -/
def agreeOccs (rec : List Occ) : List Occ → List Occ × List Occ × Nat
  | [] => ([], rec, 0)
  | o :: os =>
    if isDuplicate rec o then
      let r := agreeOccs rec os
      (r.1, r.2.1, r.2.2 + 1)
    else
      let r := agreeOccs (recordAdd rec o) os
      (o :: r.1, r.2.1, r.2.2)

/-! ### Commit of strand-queue messages -/

/-- The next message of its sender lands in the inbound queue of its destination; at a halted strand it counts as popped
(R450). -/
def takeMsg (e : Echo) (src : Strand) (m : SqMsg) : Echo :=
  let n := m.count
  let e := { e with inCount := e.inCount.set src n }
  if e.halted then
    { e with popped := e.popped.set src n, agreedPop := e.agreedPop.set src n,
             inAgreed := e.inAgreed.set src n, visible := e.visible.set src n }
  else { e with inQ := e.inQ.set src (e.inQ.get src ++ [m]) }

/-- Messages that waited for an earlier one follow it (R73), at most `n` of them. -/
def takeAhead : Nat → Echo → Strand → Echo
  | 0, e, _ => e
  | n + 1, e, src =>
    match (e.inAhead.get src).find? fun m => m.count == e.inCount.get src + 1 with
    | some m =>
      takeAhead n (takeMsg { e with inAhead := e.inAhead.set src ((e.inAhead.get src).filter fun x => x.count != m.count) }
        src m) src
    | none => e

/-- A committed message reaches a lane's inbound queue (R71) in the order of sending (R73): one that comes before an earlier one
waits for it, and one that the lane has taken already is dropped. -/
def State.commitMsg (s : State) (l : Lane) (src dst : Strand) (m : SqMsg) : State :=
  let e := s.echo l dst
  let next := e.inCount.get src + 1
  if m.count = next then s.setEcho l dst (takeAhead (e.inAhead.get src).length (takeMsg e src m) src)
  else if serialLt next m.count && !(e.inAhead.get src).any fun x => x.count == m.count then
    s.setEcho l dst { e with inAhead := e.inAhead.set src (e.inAhead.get src ++ [m]) }
  else s

/-- On agreement for boundary `pt` a lane of the pair commits its own copies, and the lowest-lettered lane of the
pair copies them to the other lanes (R70, R71). -/
def State.commitEpoch (s : State) (l : Lane) (k : Strand) (pt : Word) (pair : Pair) : State :=
  let r := s.replica l k
  let msgs := ((r.sqEnding.find? fun x => x.1 == pt).map Prod.snd).getD []
  let t := s.setReplica l k { r with sqEnding := r.sqEnding.filter fun x => x.1 != pt }
  if Pair.has pair l then
    let t := msgs.foldl (fun t x => t.commitMsg l k x.1 x.2) t
    if l = (Pair.lanes pair).1 then
      t.send ((t.liveLanes.filter fun x => !Pair.has pair x).flatMap fun x =>
        msgs.map fun m => .sqCopy x k m.1 m.2)
    else t
  else t

/-! ### Agreement (R51, R115) -/

/-- A lane of the agreed pair measures the third replica's lag from the completion of its agreement to the third's
publication, and `EC_SKEW_MAX` shows the largest (R84). -/
def State.noteLag (s : State) (l : Lane) (k : Strand) (pt : Word) (x : Lane) : State :=
  match (s.echo l k).agreed.find? fun a => a.point == pt with
  | some a =>
    if Pair.has a.pair l && x == Pair.third a.pair && (s.echo l k).inStep.get x then
      s.raiseMax l.unit (Reg.ecSkewMax k.idx) 31 0 (s.ns - a.doneAt)
    else s
  | none => s

/-- Agreement completes for a point from the pair's publications (R51): the agreed set, strand time, sample number
and counts, the commit of the ending epoch, and the diagnostics. -/
def State.completeWith (s : State) (l : Lane) (k : Strand) (pair : Pair) (ha hb : HeldPub) : State :=
  let pa := ha.pub
  let pb := hb.pub
  let pt := pa.point
  let e := s.echo l k
  let tm := chooseTime pa pb e.stime
  let clamped := decide (tm.1.toNat ≤ e.stime.toNat)
  let now := if clamped then e.stime + 1 else tm.1
  let fin := chooseSample pa pb e.sample
  let ag := agreeOccs e.record (unionOccs pa.occ pb.occ)
  let epoch := pa.epoch
  let inAgreed := if epoch then agreeCounts e.inAgreed pa.sqIn pb.sqIn else e.inAgreed
  let credAgreed := if epoch then agreeCounts e.credAgreed pa.sqCredPop pb.sqCredPop else e.credAgreed
  let agreedPop := if epoch then agreeCounts e.agreedPop pa.sqRxPop pb.sqRxPop else e.agreedPop
  let a : Agreement :=
    ⟨pt, pair, s.ns, ag.1, now, tm.2.1, tm.2.2.1, tm.2.2.2, clamped, fin, epoch, inAgreed, credAgreed⟩
  let keep := fun (q : Word) => decide ((pt - q).toNat < 16384)
  let later := max ha.since hb.since
  let past := match e.tcfgTook with
    | some b => serialLt b pt
    | none => true
  let arm := epoch && pa.armed && pb.armed && pa.cfgCrc == pb.cfgCrc && e.tcfgFrom.isNone && past
  let e := { e with
    agreed := (e.agreed.filter fun x => keep x.point) ++ [a]
    pubs := e.pubs.filter fun h => keep h.pub.point || serialLt pt h.pub.point
    timedOut := e.timedOut.filter fun q => keep q || serialLt pt q
    solo := e.solo.filter fun o => e.pubs.any fun h =>
      (keep h.pub.point || serialLt pt h.pub.point) && h.pub.occ.contains o
    claims := e.claims.filter fun c => keep c.point || serialLt pt c.point
    late := e.late.filter fun x => keep x.1 || serialLt pt x.1
    nextAgree := pt + 1
    splitWait := none
    record := ag.2.1
    stime := now
    sample := match fin with | .sample n => some n | _ => e.sample
    inAgreed := inAgreed, credAgreed := credAgreed, agreedPop := agreedPop
    tcfgFrom := if arm then some (pt + 2) else e.tcfgFrom
    -- A point past that boundary is agreed: no publication that still carried the old commit's ARMED follows.
    tcfgTook := if past then none else e.tcfgTook }
  let t := s.setEcho l k e
  let t := t.bumpBy l.unit (Reg.ecFaults k.idx) 23 16 ag.2.2
  let t := t.bumpWrap l.unit (Reg.ecPairs k.idx) (10 * Pair.code pair + 9) (10 * Pair.code pair)
  let t := t.setFld l.unit (Reg.ecStat k.idx) 1 0 (Pair.code pair)
  let t := t.raiseMax l.unit (Reg.ecXchgMax k.idx) 31 0 (t.ns - later)
  let laneA := (pubLane pa).getD (Pair.lanes pair).1
  let laneB := (pubLane pb).getD (Pair.lanes pair).2
  let charged := if heldBefore ha hb then laneB else laneA
  let charged := if charged = l then (if laneA = l then laneB else laneA) else charged
  let x := t.lane l
  let t := if t.ns - later ≤ 200 then t.setLane l { x with linkRun := x.linkRun.set charged 0 } else t
  if epoch then t.commitEpoch l k pt pair else t

/-- The third publication's compare value at a boundary whose agreement is complete (R115). -/
def State.checkThird (s : State) (l : Lane) (k : Strand) (pt : Word) : State :=
  let e := s.echo l k
  match e.agreed.find? fun a => a.point == pt with
  | none => s
  | some a =>
    match pubFrom e pt (Pair.third a.pair), pubFrom e pt (Pair.lanes a.pair).1 with
    | some x, some y =>
      if a.epoch && e.inStep.get (Pair.third a.pair) && decide (comparePart x.pub ≠ comparePart y.pub) then
        (s.bump l.unit (Reg.vtSigcmp k.idx) 7 0).echoExcludes l k (Pair.third a.pair) .sigOdd
      else s
    | _, _ => s

/-- The replica of the pair that the third replica's publication shows to be odd is excluded, unless it has left already. -/
def State.sigOdd (s : State) (l : Lane) (k : Strand) (x : Lane) : State :=
  if (s.echo l k).inStep.get x then s.echoExcludes l k x .sigOdd else s

/-- The pair's compare values differ (R115): the third publication decides when it is held; a third replica in step is waited
for; without one the strand halts. `VT_SIGCMP` counts the boundary once. DESIGN CHOICE (log entry 159): a publication already
held decides also when its replica has left the in-step set since. -/
def State.resolveSplit (s : State) (l : Lane) (k : Strand) (pair : Pair) (ha hb : HeldPub) : State :=
  let e := s.echo l k
  let pt := ha.pub.point
  let x := Pair.third pair
  let t := if e.splitWait = some pt then s
    else (s.setEcho l k { e with splitWait := some pt }).bump l.unit (Reg.vtSigcmp k.idx) 15 8
  match pubFrom e pt x with
  | some hx =>
    if comparePart hx.pub = comparePart ha.pub then
      (t.completeWith l k (pairOf (Pair.lanes pair).1 x) ha hx).sigOdd l k (Pair.lanes pair).2
    else if comparePart hx.pub = comparePart hb.pub then
      (t.completeWith l k (pairOf (Pair.lanes pair).2 x) hb hx).sigOdd l k (Pair.lanes pair).1
    else t.echoSplits l k .split
  | none => if e.inStep.get x then t else t.echoSplits l k .diverge2oo2

/-- Completes the next point's agreement when its pair is decided and its publications are held; points complete in
order, since each builds on the one before (R63, R65). -/
def State.tryAgree : Nat → State → Lane → Strand → State
  | 0, s, _, _ => s
  | n + 1, s, l, k =>
    let e := s.echo l k
    if e.halted then s
    else
      match decidedPair e e.nextAgree with
      | none => s
      | some pair =>
        match pubFrom e e.nextAgree (Pair.lanes pair).1, pubFrom e e.nextAgree (Pair.lanes pair).2 with
        | some ha, some hb =>
          if ha.pub.epoch && decide (comparePart ha.pub ≠ comparePart hb.pub) then
            let t := s.resolveSplit l k pair ha hb
            if (t.echo l k).nextAgree = e.nextAgree then t else t.tryAgree n l k
          else ((s.completeWith l k pair ha hb).checkThird l k e.nextAgree).tryAgree n l k
        | _, _ => s

/-- Points that can become complete at one arrival: no replica leads by more (R59). -/
def agreeDepth : Nat := 8

/-- A replica has left: an Echo unit that awaited its publication at a boundary whose pair differed decides without it (R115). -/
def State.agreeAgain (s : State) : State :=
  Strand.list.foldl (fun t k => t.liveLanes.foldl (fun t l =>
    if (t.echo l k).splitWait.isSome then t.tryAgree agreeDepth l k else t) t) s

/-- No other publication can still come before the second one held for a point in the order of R49: the clock cycle of the second
is over, or every replica in step has published. -/
def State.claimSettled (s : State) (l : Lane) (k : Strand) (pt : Word) : Bool :=
  let e := s.echo l k
  let hs := pubsFor e pt
  decide (2 ≤ (hs.filter fun h => decide (memCycle h.since < memCycle s.ns)).length) ||
    (s.inStepAt l k).all fun x => (pubFrom e pt x).isSome

/-- An Echo unit that holds two publications for a point sends its pair claim, once (R49). A claim that a publication of the same
clock cycle could still change waits for the end of that cycle (log entry 160). -/
def State.claimPair (s : State) (l : Lane) (k : Strand) (pt : Word) : State :=
  let e := s.echo l k
  if e.claims.any fun c => c.point == pt && c.sender == l then s
  else
    match firstPair (pubsFor e pt) with
    | none => s
    | some p =>
      if s.claimSettled l k pt then
        let c : PairClaim := ⟨k, pt, l, p⟩
        (s.setEcho l k { e with claims := e.claims ++ [c], claimDue := e.claimDue.filter fun q => q != pt }).send
          ((s.peers l).map fun y => .pairClaim y c)
      else s.setEcho l k { e with claimDue := pt :: e.claimDue.filter fun q => q != pt }

/-- A clock cycle of a lane is over: the claims that waited for its end are sent. -/
def State.sendClaims (s : State) (l : Lane) (k : Strand) : State :=
  let e := s.echo l k
  if e.claimDue.isEmpty || e.halted || s.retired l then s
  else (e.claimDue.foldl (fun t pt => t.claimPair l k pt) s).tryAgree agreeDepth l k

/-- An Echo unit comes to hold a publication (R49). Those of a retired lane, and those claimed late for the point, are
ignored (R84, R148). -/
def State.acceptPub (s : State) (l : Lane) (k : Strand) (p : Publication) : State :=
  let e := s.echo l k
  match pubLane p with
  | none => s
  | some x =>
    if e.halted || s.retired x || (e.late.any fun q => q.1 == p.point && q.2 == x)
        || (pubFrom e p.point x).isSome then s
    else
      let t := s.setEcho l k { e with pubs := e.pubs ++ [⟨p, s.ns⟩] }
      let t := (t.noteLag l k p.point x).claimPair l k p.point
      (t.checkThird l k p.point).tryAgree agreeDepth l k

/-! ### Publishing (R48) -/

/-- Occurrences that the lane has latched and not published, oldest first, at most 32 (R53). -/
def State.toPublish (s : State) (l : Lane) (k : Strand) : List Occ :=
  (((s.echo l k).latched.filter fun x => x.published.isNone).map fun x => x.occ).take 32

def State.digest (s : State) (l : Lane) (k : Strand) : Dword :=
  crc64 ((s.replica l k).core.flatMap fun r => leBytes 8 r.toNat)

/-- The publication of point n (R48). -/
def State.publicationOf (s : State) (l : Lane) (k : Strand) (n : Word) (epoch : Bool) : Publication :=
  let x := s.lane l
  let e := s.echo l k
  let occ := s.toPublish l k
  let fnone := x.triples.isEmpty || !s.fFitted
  { strand := k, point := n, lane := BitVec.ofNat 2 l.idx, epoch := epoch, armed := (s.tcfgArmed l k).isSome
    idle := (s.replica l k).idle, fstale := x.fstale, fnone := fnone
    timeP1 := x.net.p1.time, timeP2 := x.net.p2.time, tstatP1 := x.net.p1.stat, tstatP2 := x.net.p2.stat
    fseq := if fnone then 0 else (x.triples.getLast?.map fun t => t.seq).getD 0
    sqIn := e.inCount.set k 0, sqRxPop := e.popped.set k 0
    sqCredPop := ⟨if k = .s0 then 0 else (s.echo l .s0).agreedPop.get k,
      if k = .s1 then 0 else (s.echo l .s1).agreedPop.get k, if k = .s2 then 0 else (s.echo l .s2).agreedPop.get k,
      if k = .s3 then 0 else (s.echo l .s3).agreedPop.get k⟩
    sig := if epoch then (s.replica l k).sig else 0
    digest := if epoch && s.digestOn l k then s.digest l k else 0
    cfgCrc := match s.tcfgArmed l k with
      | some w => crc32cWords [w]
      | none => 0
    nOcc := BitVec.ofNat 6 occ.length, occ := occ }

/-- The occurrences just listed are published (R53). -/
def State.markPublished (s : State) (l : Lane) (k : Strand) (n : Word) : State :=
  let e := s.echo l k
  let occ := s.toPublish l k
  let xs := e.latched.map fun x => if x.published.isNone && occ.contains x.occ then { x with published := some n } else x
  let xs := xs.filter fun x => !(x.applied && x.published.isSome)
  s.setEcho l k { e with latched := xs }

/-- Armed timing settings take effect in one lane (R80): `LN_TCFG` shows the value that was compared and TCFG is raised. BUSY
ends once every lane that takes part has them in force. -/
def State.takeTcfg (s : State) (l : Lane) (k : Strand) : State :=
  let n := loWord (s.reg64 l.unit (Reg.lnPointLo k))
  let t := s.setEcho l k { s.echo l k with tcfgFrom := none, tcfgTook := some n }
  match s.tcfg.get k with
  | none => t
  | some c =>
    let t := (t.setReg l.unit (Reg.lnTcfg k) c.value).setPending l k 3
    ({ t with tcfg := t.tcfg.set k (some { c with took := l :: c.took, tookAt := c.tookAt.orElse fun _ => some n }) }).tcfgSettle k

/-! ### Challenges and scrub at epoch boundaries -/

/-- `SCRUB_S` in s, with its range; 0 disables scrub (R125). -/
def State.scrubS (s : State) (l : Lane) (k : Strand) : Nat :=
  let v := s.fld l.unit (Reg.vtChkCfg k.idx) 11 0
  if v = 0 then 0 else min (max v 10) 3600

/-- Blocks of a scrub pass: 14 336 partition blocks and 4 slice blocks (before R117). -/
def scrubBlocks : Nat := 14340

/-- The block is due at a strand time (R117): b × `SCRUB_S` / 14 340 after T0. -/
def scrubDue (t0 now : Dword) (secs b : Nat) : Bool :=
  decide (b * secs * 1000000000 ≤ (now.toNat - t0.toNat) * scrubBlocks)

/-- The number of the first block that is not due yet. -/
def scrubLimit (t0 now : Dword) (secs : Nat) : Nat :=
  min scrubBlocks ((now.toNat - t0.toNat) * scrubBlocks / (secs * 1000000000) + 1)

/-- As its replica leaves a boundary, a lane begins to hash every block that is due there and not begun, and those to be hashed
again (R117, R118). -/
def State.startScrub (s : State) (l : Lane) (k : Strand) (n : Word) : State :=
  let x := s.scrub l k
  let secs := s.scrubS l k
  let now := s.strandTime l k
  let mayStart := match x.passAfter with
    | some p => serialLt p n
    | none => true
  let again := x.retry.filter fun r => serialLt r.after n
  let jobs := again.map fun r => (⟨r.block, n, r.tries, false⟩ : ScrubJob)
  let x := { x with retry := x.retry.filter fun r => !serialLt r.after n, busy := x.busy ++ jobs }
  if secs = 0 || now == 0 || (x.t0.isNone && !mayStart) then s.setScrub l k x
  else
    let t0 := x.t0.getD now
    let top := scrubLimit t0 now secs
    let due := (List.range (top - x.next)).map fun i => (⟨x.next + i, n, 0, false⟩ : ScrubJob)
    s.setScrub l k { x with t0 := some t0, next := max x.next top, busy := x.busy ++ due }

/-- `CHAL_PERIOD` in ms, with its range (R125). -/
def State.chalMs (s : State) (l : Lane) (k : Strand) : Nat :=
  min (max (s.fld l.unit (Reg.vtChkCfg k.idx) 29 16) 10) 10000

/-- DATA of challenge c from a lane (R120): the designated lane inverts bit c mod 64. -/
def chalData (c : Nat) (designated : Bool) : Dword :=
  if designated then BitVec.ofNat 64 c ^^^ BitVec.ofNat 64 (1 <<< (c % 64)) else BitVec.ofNat 64 c

/-- One challenge beat to each present consumer die that the lane reaches (R120). -/
def State.sendChallenge (s : State) (l : Lane) (k : Strand) : State :=
  let e := s.echo l k
  let c := e.chalNext
  let ins := s.inStepAt l k
  let des := (ins[c % max 1 ins.length]?).getD l
  let t := s.setEcho l k { e with
    chalNext := c + 1
    challenges := (e.challenges.filter fun x => !x.awaiting.isEmpty) ++
      [⟨c, des, ins.length, s.strandTime l k, s.dies, []⟩] }
  t.send ((t.dies.filter fun d => (t.lane l).junction.get d).map fun d => .challenge d l k (chalData c (des = l)))

/-- At a boundary an in-step lane issues every challenge that is due there (R120). The strand time of the release is taken to
be the first that becomes visible (log entry 11). -/
def State.issueChallenge (s : State) (l : Lane) (k : Strand) : State :=
  let e := s.echo l k
  let now := s.strandTime l k
  if now = 0 then s
  else
    let base := e.chalBase.getD now
    let top := (now.toNat - base.toNat) / (s.chalMs l k * 1000000)
    let t := s.setEcho l k { e with chalBase := some base }
    (List.range (top + 1 - e.chalNext)).foldl (fun t _ => t.sendChallenge l k) t

/-! ### The event point (R46 step 1) -/

/-- The point to come is an epoch boundary (R76). -/
def State.atBoundary (s : State) (l : Lane) (k : Strand) : Bool :=
  let r := s.replica l k
  r.nextPoint == 0 || r.mark || decide (s.epochLen l k ≤ r.sincePoints + 1)

/-- When both in-step replicas have paused at the stall boundary, the stall begins (R140, R144). -/
def State.noteBothPaused (s : State) (k : Strand) (n : Word) : State :=
  match s.rejoin with
  | some r =>
    if r.strand = k ∧ ((s.inStepAt r.donor k).all fun x => (s.replica x k).phase == .paused) = true then
      ({ s with rejoin := some { r with boundary := some n, stallFrom := some s.ns } }).setRjPhase k 4
    else s
  | none => s

/-- The replica may reach its next event point: it runs or waits, is in step, its count is the point's, and its core does not
stall at an instruction whose beats wait in the lane (R96). -/
def State.atPoint (s : State) (l : Lane) (k : Strand) : Bool :=
  let r := s.replica l k
  s.runs l k && (r.mode == .running || r.mode == .waiting) && r.phase == .run && r.load.isNone && r.out.isEmpty &&
    (s.echo l k).inStep.get l && s.reg64 l.unit (Reg.lnIcountLo k) == r.nextCount

/-- A replica reaches an event point and publishes it (R45, R46 step 1, R48). -/
def State.eventPoint (s : State) (l : Lane) (k : Strand) : State :=
  let r := s.replica l k
  let n32 := loWord r.nextPoint
  let boundary := s.atBoundary l k
  let t := s.setReg64 l.unit (Reg.lnPointLo k) r.nextPoint
  let t := if boundary && r.nextPoint != 0 then
      t.setReg64 l.unit (Reg.lnEpochLo k) (t.reg64 l.unit (Reg.lnEpochLo k) + 1) else t
  let p := t.publicationOf l k n32 boundary
  let t := t.markPublished l k n32
  let agreedAlready := (t.echo l k).agreed.any fun a => a.point == n32
  let pause := boundary && match (t.echo l k).stallAt with
    | some f => !serialLt n32 f
    | none => false
  let r := { t.replica l k with
    phase := if pause then .paused else .published
    nextPoint := r.nextPoint + 1
    nextCount := r.nextCount + BitVec.ofNat 64 (t.evtStride l k)
    sincePoints := if boundary then 0 else r.sincePoints + 1
    mark := false, idle := false, idleAt := if r.idle then s.ns else r.idleAt, waitSince := s.ns
    sqOpen := if boundary then [] else r.sqOpen
    sqEnding := if boundary && !agreedAlready then r.sqEnding ++ [(n32, r.sqOpen)] else r.sqEnding }
  let t := t.setReplica l k r
  let t := t.send ((t.peers l).map fun x => .publication x l p)
  let t := if pause then t.noteBothPaused k n32 else t
  t.acceptPub l k p

/-- EVENT_POINT. -/
def execEventPoint (l : Lane) (k : Strand) (s : State) : Out :=
  .next (if s.atPoint l k then s.eventPoint l k else s)

/-! ### Applying the agreed set (R46 steps 2 to 4) -/

/-- The agreement that a replica at a published point waits for: that of two points before. -/
def State.dueAgreement (s : State) (l : Lane) (k : Strand) : Option Agreement :=
  (s.echo l k).agreed.find? fun a => a.point == loWord (s.reg64 l.unit (Reg.lnPointLo k)) - 2

/-- The triple of a sample number that the lane holds. -/
def State.tripleOf (s : State) (l : Lane) (n : Half) : Option Triple :=
  (s.lane l).triples.reverse.find? fun t => t.seq == n

/-- The lane holds what step 3 needs: the agreed triple (R66), every agreed occurrence (R109) and every message up
to the agreed count (R72). -/
def State.dataHeld (s : State) (l : Lane) (k : Strand) (a : Agreement) : Bool :=
  let e := s.echo l k
  (match a.fin with
    | .sample n => (s.tripleOf l n).isSome
    | _ => true) &&
  (a.occs.all fun o => e.latched.any fun x => x.occ == o) &&
  (!a.epoch || Strand.list.all fun j => !serialLt (e.inCount.get j) (a.sqIn.get j))

/-- Digital input n of a triple as the replica reduces it (R67): agreed value and quality. -/
def reduceDi (ch : Tri ChannelSample) (n : Nat) : Bool × Nat :=
  let vs := (Lane.list.filter fun l => (ch.get l).diValid.getLsbD n).map fun l => (ch.get l).di.getLsbD n
  match vs with
  | [x, y, z] => if x = y ∧ y = z then (x, 0) else ((x && y) || (y && z) || (x && z), 1)
  | [x, y] => if x = y then (x, 1) else (false, 2)
  | _ => (false, 3)

def median3 (x y z : Nat) : Nat := max (min x y) (min (max x y) z)

/-- Analog input n of a triple (R67): agreed value, if a new one is taken, and quality. -/
def reduceAi (ch : Tri ChannelSample) (n : Nat) : Option Nat × Nat :=
  let vs := (Lane.list.filter fun l => ((ch.get l).aiValid[n]?).getD false).map fun l =>
    (((ch.get l).ai[n]?).getD 0).toNat
  match vs with
  | [x, y, z] => (some (median3 x y z), 0)
  | [x, y] => (some (min x y), 1)
  | _ => (none, 3)

/-- The digital values and the quality word pair of a triple. -/
def diWord (ch : Tri ChannelSample) : Word :=
  (List.range 32).foldl (fun w n => withBit w n (reduceDi ch n).1) 0
def dqWord (ch : Tri ChannelSample) (base : Nat) : Word :=
  (List.range 16).foldl (fun w n => withField w (2 * n + 1) (2 * n) (reduceDi ch (base + n)).2) 0

/-- The agreed inputs of a point become visible (R65 to R67, R447). -/
def State.applyFin (s : State) (l : Lane) (k : Strand) (f : FinRule) : State :=
  let u := l.unit
  match f with
  | .hold => s
  | .invalid =>
    let t := ((s.setFlag u (Reg.lnFinSeq k) 16 false).setReg u (Reg.lnFinDi k) 0).setReg u (Reg.lnFinDqLo k) 0xFFFFFFFF
    let t := t.setReg u (Reg.lnFinDqHi k) 0xFFFFFFFF
    (List.range 8).foldl (fun t n => t.setFld u (Reg.lnFinAi k n) 17 16 3) t
  | .sample q =>
    match s.tripleOf l q with
    | none => s
    | some tr =>
      let t := (s.setReg u (Reg.lnFinSeq k) (withBit (BitVec.ofNat 32 q.toNat) 16 true)).setReg u (Reg.lnFinDi k)
        (diWord tr.ch)
      let t := (t.setReg u (Reg.lnFinDqLo k) (dqWord tr.ch 0)).setReg u (Reg.lnFinDqHi k) (dqWord tr.ch 16)
      (List.range 8).foldl (fun t n =>
        let r := reduceAi tr.ch n
        let v := r.1.getD (t.fld u (Reg.lnFinAi k n) 15 0)
        t.setReg u (Reg.lnFinAi k n) (withField (BitVec.ofNat 32 v) 17 16 r.2)) t

/-- The word of `LN_STIME_STAT` for an agreement. -/
def stimeStat (a : Agreement) : Word :=
  withBit (withBit (withBit (BitVec.ofNat 32 a.src) 2 a.valid) 3 a.holdover) 4 a.clamped

/-- The strand time of an agreement becomes visible, and STIME is raised when its source changes (R64, R176). -/
def State.applyTime (s : State) (l : Lane) (k : Strand) (a : Agreement) : State :=
  let old := s.fld l.unit (Reg.lnStimeStat k) 3 0
  let t := (s.setReg64 l.unit (Reg.lnStimeLo k) a.stime).setReg l.unit (Reg.lnStimeStat k) (stimeStat a)
  if t.fld l.unit (Reg.lnStimeStat k) 3 0 = old then t else t.setPending l k 5

/-- Periods by which a periodic timer's compare value is increased until it exceeds S (R180). -/
def timerSteps (cmp per now : Nat) : Nat := if now < cmp then 0 else (now - cmp) / per + 1

/-- A strand timer evaluated against strand time S (R180). -/
def State.evalTimer (s : State) (l : Lane) (k : Strand) (now : Dword) (i : Nat) : State :=
  let u := l.unit
  let cmp := s.reg64 u (Reg.lnTmrCmpLo k i)
  let per := (s.reg u (Reg.lnTmrPer k i)).toNat
  if s.flag u (Reg.lnTmrCtl k) i && decide (cmp.toNat ≤ now.toNat) then
    let t := s.setPending l k (8 + i)
    if per = 0 then t.setFlag u (Reg.lnTmrCtl k) i false
    else
      let n := timerSteps cmp.toNat per now.toNat
      (t.setReg64 u (Reg.lnTmrCmpLo k i) (BitVec.ofNat 64 (cmp.toNat + n * per))).bumpBy u (Reg.lnTmrMiss k)
        (8 * i + 7) (8 * i) (n - 1)
  else s

/-- Strand-queue counts of an epoch's agreement become visible at step 3 of F+2 (R72, R74). -/
def State.applyCounts (s : State) (l : Lane) (k : Strand) (a : Agreement) : State :=
  if !a.epoch then s
  else
    let e := s.echo l k
    let grewIn := Strand.list.any fun j => e.visible.get j != a.sqIn.get j
    let e' := { e with visible := a.sqIn, credPop := a.credPop }
    let grewCred := Strand.list.any fun j => j != k && decide (creditsFor e j < creditsFor e' j)
    let t := ((s.setEcho l k e').showVisible l k).showCredits l k
    let t := if grewIn then t.setPending l k 240 else t
    let t := if grewCred then t.setPending l k 4 else t
    t.setPending l k 0

/-! ### Challenge answers (R122, R123) -/

/-- A consumer die whose voter failed a challenge is fenced, as one in-step lane finds it (R123): that lane, and the lanes whose
replicas are not in step and judge nothing, fence it for themselves, and the in-step lane commands the guardian of a port
die's channel. -/
def State.fenceDie (s : State) (l : Lane) (k : Strand) (d : Die) : State :=
  let t := (s.setFlag d.unit Reg.vtFence (4 + k.idx) true).setFlag d.unit Reg.vtFence 0 true
  let t := t.setFlag d.unit (Reg.vtStat k.idx) 9 true
  let t := Strand.list.foldl (fun t j => t.setFlag d.unit (Reg.vtStat j.idx) 8 true) t
  let command := fun (t : State) (p : PDie) =>
    if (t.lane l).junction.get (Die.ofPDie p) then t.send [.guardFence p l] else t
  let t : State := match d with
    | .p1 => (command t .p2).stopAllChans .p1
    | .p2 => (command t .p1).stopAllChans .p2
    | .f => (s.showIn l k).foldl (fun t x => (t.setLane x { t.lane x with fenceF := true }).clearLatches x 0xFFFF) t
    | .m => State.fenceMgmt ((s.showIn l k).foldl (fun t x => t.setLane x { t.lane x with fenceM := true }) t)
  t.setPathOut (Die.viewIndex d)

/-- The answer in a challenge that is still open for the die: the oldest that awaits it, or that it missed. -/
def chalOf (e : Echo) (d : Die) : Option Challenge :=
  e.challenges.find? fun c => c.awaiting.contains d || c.failed.contains d

/-- An Echo unit judges a voter's answer (R122); CHAL is raised (R176). `VT_CHAL` of the die shows the answer once, as the first
in-step lane judges it. An answer that its challenge awaited no longer fails. -/
def State.judge (s : State) (l : Lane) (k : Strand) (a : ChalAnswer) : State :=
  let e := s.echo l k
  match chalOf e a.die with
  | none => s
  | some c =>
    let pass := c.awaiting.contains a.die && !a.released &&
      (a.named == some c.designated ||
        (a.named.isNone && (c.inStep == 2 || (Lane.list.filter fun x => s.replState l k x == 0).length == 2)))
    let c' := { c with awaiting := c.awaiting.filter fun d => d != a.die, failed := c.failed.filter fun d => d != a.die }
    let t := s.setEcho l k { e with challenges := ((e.challenges.map fun x => if x.number = c.number then c' else x).filter
      (fun x => !(x.awaiting.isEmpty && x.failed.isEmpty))) }
    let t := t.setPending l k 7
    let t := if (t.inStepAt l k).head? = some l then
        let w := withField (withField (withField (t.reg a.die.unit (Reg.vtChal k.idx)) 31 16 c.number) 5 4
          c.designated.idx) 1 0 (replCode a.named)
        let t := t.setReg a.die.unit (Reg.vtChal k.idx) w
        if pass then t.bump a.die.unit (Reg.vtChal k.idx) 15 8 else t
      else t
    if pass then t else t.fenceDie l k a.die

/-- A challenge past its deadline: answers still awaited are missing. -/
def missAnswers (now : Dword) (c : Challenge) : Challenge :=
  if c.issuedAt.toNat + 1000000 ≤ now.toNat then { c with awaiting := [], failed := c.awaiting ++ c.failed } else c

/-- At the first boundary whose strand time is 1 ms past the issuing boundary every answer still missing fails (R122), and CHAL
is raised. -/
def State.challengeDeadline (s : State) (l : Lane) (k : Strand) : State :=
  let now := s.strandTime l k
  let e := s.echo l k
  let missing := e.challenges.flatMap fun c => if c.issuedAt.toNat + 1000000 ≤ now.toNat then c.awaiting else []
  let t := s.setEcho l k { e with challenges := e.challenges.map (missAnswers now) }
  missing.foldl (fun t d => (t.setPending l k 7).fenceDie l k d) t

/-- One agreed occurrence is applied: its vector's pending bit is set (R55); a replica state occurrence changes
`LN_REPL` (R126); a challenge answer is judged (R122). -/
def State.applyOcc (s : State) (l : Lane) (k : Strand) (now : Dword) (o : Occ) : State :=
  let e := s.echo l k
  let xs := e.latched.map fun x => if x.occ = o then { x with applied := true } else x
  let xs := xs.filter fun x => !(x.applied && x.published.isSome)
  let t := s.setEcho l k { e with latched := xs }
  if o.src = 0 ∧ o.vec = 1 then
    match (t.changes.get k).find? fun c => c.num == o.num with
    | some c => t.applyChange l k c now
    | none => t
  else
    let t := t.setPending l k o.vec.toNat
    match (t.echo l k).answers.find? fun a => a.occ == o with
    | some a => (t.setEcho l k { t.echo l k with answers := (t.echo l k).answers.filter fun a => a.occ != o }).judge l k a
    | none => t

/-- Recorded rejoins within 24 h show in CNT of `RJ_HIST` (R146). -/
def State.showHist (s : State) (l : Lane) (k : Strand) : State :=
  let e := s.echo l k
  Lane.list.foldl (fun t x => (s.showIn l k).foldl (fun t y =>
    t.setFld y.unit (Reg.rjHist k.idx) (4 * x.idx + 3) (4 * x.idx)
      (min 15 ((e.rejoins.get x).filter fun b => decide (e.stime.toNat - b.toNat ≤ dayNs)).length)) t) s

/-- Step 3 of R46: the agreed set and inputs of point n − 2. -/
def State.applyAgreement (s : State) (l : Lane) (k : Strand) (a : Agreement) : State :=
  let t := a.occs.foldl (fun t o => t.applyOcc l k a.stime o) s
  let t := (t.applyTime l k a).applyFin l k a.fin
  let t := (List.range 4).foldl (fun t i => t.evalTimer l k a.stime i) t
  ((t.applyCounts l k a).showHist l k).checkRetired l

/-- Software vectors written since the last point are raised (R58, R181). -/
def State.raiseSoft (s : State) (l : Lane) (k : Strand) : State :=
  let r := s.replica l k
  r.soft.foldl (fun t v => t.setPending l k v) (s.setReplica l k { r with soft := [] })

/-- Step 4 of R46: the lowest pending enabled vector is taken as one event exception (R157). -/
def State.takeException (s : State) (l : Lane) (k : Strand) : State :=
  match s.dueVector l k with
  | some v =>
    if (s.replica l k).mask then s
    else
      let t := (s.clearPending l k v).setReg l.unit (Reg.lnEvCur k) (withBit (BitVec.ofNat 32 v) 8 true)
      t.setReplica l k { t.replica l k with mode := .running }
  | none => s

/-- The replica waits at a published point for steps 2 to 4. -/
def State.atSteps (s : State) (l : Lane) (k : Strand) : Bool :=
  let r := s.replica l k
  s.runs l k && r.phase == .published && (r.mode == .running || r.mode == .waiting) && (s.echo l k).inStep.get l

/-- Step 2 can end: no agreement is due at points 0 and 1, or the due one is complete and its data is held. -/
def State.stepsReady (s : State) (l : Lane) (k : Strand) : Bool :=
  decide ((s.reg64 l.unit (Reg.lnPointLo k)).toNat < 2) ||
  match s.dueAgreement l k with
  | some a => s.dataHeld l k a
  | none => false

/-- The stall of step 2, which ended when the due agreement was complete, shows in `EC_LEAD_MAX`. -/
def State.noteStall (s : State) (l : Lane) (k : Strand) (a : Agreement) : State :=
  s.raiseMax l.unit (Reg.ecLeadMax k.idx) 31 0 (a.doneAt - (s.replica l k).waitSince)

/-- At the first epoch boundary at or after E+2 the armed settings take effect; the next event point is counted with the
new stride (R45, R80). -/
def State.switchTcfg (s : State) (l : Lane) (k : Strand) : State :=
  let due := match (s.echo l k).tcfgFrom with
    | some f => !serialLt (loWord (s.reg64 l.unit (Reg.lnPointLo k))) f
    | none => false
  if (s.replica l k).sincePoints = 0 ∧ due = true then
    let old := s.evtStride l k
    let t := s.takeTcfg l k
    let r := t.replica l k
    t.setReplica l k { r with nextCount := r.nextCount - BitVec.ofNat 64 old + BitVec.ofNat 64 (t.evtStride l k) }
  else s

/-- What a replica does as it leaves an epoch boundary: it issues the challenges (R120) and starts the scrub blocks (R117) that
are due. -/
def State.leaveBoundary (s : State) (l : Lane) (k : Strand) : State :=
  if (s.replica l k).sincePoints = 0 then
    (s.issueChallenge l k).startScrub l k (loWord (s.reg64 l.unit (Reg.lnPointLo k)))
  else s

/-- Steps 2 to 4 of R46. -/
def State.agreedSetApply (s : State) (l : Lane) (k : Strand) : State :=
  let t : State := match (if (s.reg64 l.unit (Reg.lnPointLo k)).toNat < 2 then none else s.dueAgreement l k) with
    | some a =>
      let t := (s.noteStall l k a).applyAgreement l k a
      (if (t.replica l k).sincePoints = 0 then t.challengeDeadline l k else t).switchTcfg l k
    | none => s
  let t := (t.raiseSoft l k).takeException l k
  (t.setReplica l k { t.replica l k with phase := .run }).leaveBoundary l k

/-- AGREED_SET_APPLY. -/
def execAgreedSetApply (l : Lane) (k : Strand) (s : State) : Out :=
  .next (if s.atSteps l k && s.stepsReady l k then s.agreedSetApply l k else s)

/-- STRAND_TIMER_EXPIRE: timer t of a replica at step 3 is evaluated against the strand time being applied (R180). -/
def execStrandTimerExpire (l : Lane) (k : Strand) (t : Nat) (s : State) : Out :=
  .next (if s.atSteps l k && s.stepsReady l k && decide (t < 4) then
    match (if (s.reg64 l.unit (Reg.lnPointLo k)).toNat < 2 then none else s.dueAgreement l k) with
    | some a => s.evalTimer l k a.stime t
    | none => s
  else s)

/-! ### Arrivals -/

/-- A publication that carries LANE 3, more than 32 occurrences or a source from 5 to 7 is a crawlway error (R48,
R52). -/
def badPublication (p : Publication) : Bool :=
  p.lane == 3 || decide (32 < p.nOcc.toNat) || p.occ.any fun o => decide (5 ≤ o.src.toNat)

/-- PUBLICATION_RECEIVE (R49, R51, R115). -/
def execPublicationReceive (l : Lane) (sender : Lane) (p : Publication) (s : State) : Out :=
  let t := s.arrive (.publication l sender p)
  .next (if t.retired l || t.retired sender then t
    else if badPublication p then t.crawlError l sender
    else t.acceptPub l p.strand p)

/-- PAIR_CLAIM_RECEIVE (R50, R51). -/
def execPairClaimReceive (l : Lane) (c : PairClaim) (s : State) : Out :=
  let t := s.arrive (.pairClaim l c)
  let e := t.echo l c.strand
  .next (if e.halted || t.retired l || t.retired c.sender
      || (e.claims.any fun x => x.point == c.point && x.sender == c.sender) then t
    else (t.setEcho l c.strand { e with claims := e.claims ++ [c] }).tryAgree agreeDepth l c.strand)

/-- OCCURRENCE_LATCH (R53). -/
def execOccurrenceLatch (l : Lane) (d : Die) (k : Strand) (o : Occ) (s : State) : Out :=
  .next (if s.mayArrive (.occurrence l d k o) then
    let t := s.arrive (.occurrence l d k o)
    if t.retired l then t else t.latch l k o
  else s)

/-- Lane `l` published the occurrence more than `limit` ago, and no other lane published it within `limit` of that (R56). -/
def soloIn (e : Echo) (l : Lane) (o : Occ) (limit now : Nat) : Bool :=
  e.pubs.any fun h => pubLane h.pub == some l && h.pub.occ.contains o && decide (h.since + limit < now) &&
    !(e.pubs.any fun x => pubLane x.pub != some l && x.pub.occ.contains o &&
      decide (x.since ≤ h.since + limit) && decide (h.since ≤ x.since + limit))

/-- EV_SOLO (R56): one lane published the occurrence and no other has within `SKEW_LIMIT`; logged once. -/
def execEvSolo (l : Lane) (k : Strand) (o : Occ) (s : State) : Out :=
  let e := s.echo l k
  .next (if soloIn e l o (s.skewLimitNs l k) s.ns && !e.solo.contains o && !s.retired l then
      ((s.setEcho l k { e with solo := o :: e.solo }).bump l.unit (Reg.ecFaults k.idx) 15 8).logEv l.idx (some k) .evSolo
        [o.src.toNat, o.vec.toNat, o.num.toNat]
    else s)

/-- FSTALE_TIMEOUT (R48): the lane has latched no triple within the last 1 ms. -/
def execFstaleTimeout (l : Lane) (s : State) : Out :=
  .next (if (s.lane l).tripleAt + 1000000 ≤ s.ns then s.setLane l { s.lane l with fstale := true } else s)

/-- FIELD_TRIPLE_RECEIVE (R65): the lane holds the 32 most recent triples. -/
def execFieldTripleReceive (l : Lane) (tr : Triple) (s : State) : Out :=
  let t := s.arrive (.triple l tr)
  let x := t.lane l
  let all := x.triples ++ [tr]
  .next (if t.fFitted && x.junction.f then
    t.setLane l { x with triples := all.drop (all.length - 32), tripleAt := s.ns, fstale := false } else t)

/-- ECHO_TIMEOUT (R30): an exchange of lane `l` not complete within 200 ns of the later of its two publications counts one
crawlway error, once. -/
def execEchoTimeout (l : Lane) (k : Strand) (point : Word) (s : State) : Out :=
  let e := s.echo l k
  .next (match exchangeOf e point with
    | some (a, b) =>
      if (e.agreed.any fun x => x.point == point) || e.timedOut.contains point || s.retired l || e.halted ||
          decide (s.ns ≤ b.since + 200) then s
      else
        match pubLane a.pub, pubLane b.pub with
        | some x, some y =>
          let o := if y = l then x else y
          ((s.setEcho l k { e with timedOut := point :: e.timedOut }).bump l.unit (Reg.ecLink (linkIndex l o)) 23 16).crawlError l o
        | _, _ => s
    | none => s)

/-! ### Starve and late claims -/

/-- A starve claim halts the strand in a lane (R60). -/
def State.starve (s : State) (l : Lane) (k : Strand) : State := s.haltOwn l k .starved none

/-- STARVE_TIMEOUT (R60, R140): a replica has waited longer than `SKEW_LIMIT` in step 2, or paused for the other. -/
def execStarveTimeout (l : Lane) (k : Strand) (s : State) : Out :=
  let waits := (s.atSteps l k && decide (2 ≤ (s.reg64 l.unit (Reg.lnPointLo k)).toNat) && (s.dueAgreement l k).isNone) ||
    (s.runs l k && (s.replica l k).phase == .paused &&
      !((s.inStepAt l k).all fun x => (s.replica x k).phase == .paused))
  .next (if waits && decide ((s.replica l k).waitSince + s.skewLimitNs l k < s.ns) then
    (s.send ((s.peers l).map fun x => .starveClaim x l k)).starve l k else s)

/-- STARVE_CLAIM_RECEIVE (R60). A retired lane's claim is ignored (R148). -/
def execStarveClaimReceive (l sender : Lane) (k : Strand) (s : State) : Out :=
  let t := s.arrive (.starveClaim l sender k)
  .next (if t.retired sender then t else t.starve l k)

/-- A late claim acts in one Echo unit (R84): counted, final for the point, and the replica is excluded as LATE; at a
boundary whose pair differed, the remaining two differ and the strand halts (R115). -/
def State.lateAt (s : State) (l : Lane) (k : Strand) (point : Word) (x : Lane) : State :=
  let e := s.echo l k
  let t := (s.setEcho l k { e with late := e.late ++ [(point, x)] }).bump l.unit (Reg.ecFaults k.idx) 7 0
  let t := if e.inStep.get x then (t.setLCause l k .late (some x)).excludeAt l k x .late else t
  if e.splitWait = some point then t.echoSplits l k .diverge2oo2 else t.tryAgree agreeDepth l k

/-- The third replica at a point and since when a lane's skew timer for it runs: from the agreement of the point in a lane of its
pair (R84), or from the second publication when the pair differs (R115). -/
def State.skewTimer (s : State) (l : Lane) (k : Strand) (point : Word) : Option (Lane × Nat) :=
  let e := s.echo l k
  match e.agreed.find? fun a => a.point == point with
  | some a => if Pair.has a.pair l then some (Pair.third a.pair, a.doneAt) else none
  | none =>
    if e.splitWait = some point then
      match pubsFor e point with
      | [p, q] => match pubLane p.pub, pubLane q.pub with
        | some y, some z => some (Lane.third y z, q.since)
        | _, _ => none
      | _ => none
    else none

/-- The replica whose publication a lane's skew timer for a point has awaited for `SKEW_LIMIT` (R84, R115); no lag check is made
for a replica at the points up to its join (R143). -/
def State.awaitedThird (s : State) (l : Lane) (k : Strand) (point : Word) : Option Lane :=
  let e := s.echo l k
  match s.skewTimer l k point with
  | some (x, t) =>
    let joined := match e.pubFirst.get x with
      | some f => serialLt point f
      | none => false
    if decide (t + s.skewLimitNs l k ≤ s.ns) && e.inStep.get x && !joined && (pubFrom e point x).isNone && !(e.late.any fun q => q.1 == point && q.2 == x)
      then some x else none
  | none => none

/-- LATE_CLAIM (R84): the skew timer of a lane for the third replica has reached `SKEW_LIMIT`. -/
def execLateClaim (l : Lane) (k : Strand) (point : Word) (s : State) : Out :=
  .next (if s.runs l k then
    match s.awaitedThird l k point with
    | some x => (s.send ((s.peers l).map fun y => .lateClaim y ⟨k, point, l, x⟩)).lateAt l k point x
    | none => s
  else s)

/-- LATE_CLAIM_RECEIVE (R84). -/
def execLateClaimReceive (l : Lane) (c : LateClaim) (s : State) : Out :=
  let t := s.arrive (.lateClaim l c)
  .next (if t.runs l c.strand && !t.retired c.sender then t.lateAt l c.strand c.point c.repl else t)

end Sys2Proof.Machine
end

