-- ==== Sys2Proof/Machine/StrandPage.lean ====
section
/-! DEFINITION. The strand page (R86, R87): reads and writes of a replica to its own page, strand-queue sends and
pops (R69, R72) and software vectors (R181). -/

namespace Sys2Proof.Machine

/-- Key of a strand page offset in a lane's register space. -/
def pageKey (k : Strand) (off : Nat) : Nat := k.idx * 0x10000 + off

/-! ### Strand queues -/

/-- The words of the transmit buffer. -/
def State.txWords (s : State) (l : Lane) (k : Strand) (n : Nat) : List Word :=
  (List.range n).map fun i => s.reg l.unit (Reg.lnSqTxbuf k i)

/-- A write of `LN_SQ_SEND` (R69): a bad length or destination, no credit, or a message of the open epoch. -/
def State.sqSend (s : State) (l : Lane) (k : Strand) (v : Word) : State :=
  let len := fieldOf v 8 4
  let dst := Strand.ofIdx (fieldOf v 1 0)
  let e := s.echo l k
  if len = 0 ∨ 16 < len ∨ dst = k then s.bump l.unit (Reg.lnSqDrop k) 15 8
  else if creditsFor e dst = 0 then s.bump l.unit (Reg.lnSqDrop k) 7 0
  else
    let msg : SqMsg := ⟨e.sendSeq.get dst, s.txWords l k len, e.sent.get dst + 1⟩
    let t := s.setEcho l k { e with
      sent := e.sent.set dst (e.sent.get dst + 1), sendSeq := e.sendSeq.set dst (e.sendSeq.get dst + 1) }
    let r := t.replica l k
    (t.setReplica l k { r with sqOpen := r.sqOpen ++ [(dst, msg)] }).showCredits l k

/-- The source queue that `LN_SQ_RXSEL` selects; the strand's own number selects none. -/
def State.rxSource (s : State) (l : Lane) (k : Strand) : Option Strand :=
  let j := Strand.ofIdx (s.fld l.unit (Reg.lnSqRxsel k) 1 0)
  if j = k then none else some j

/-- The visible head message of the selected queue (R72). -/
def State.rxHead (s : State) (l : Lane) (k : Strand) : Option (Strand × SqMsg) :=
  match s.rxSource l k with
  | none => none
  | some j =>
    let e := s.echo l k
    if e.visible.get j = e.popped.get j then none else (e.inQ.get j).head?.map fun m => (j, m)

/-- `LN_SQ_RXHDR` (R87). -/
def State.rxHeader (s : State) (l : Lane) (k : Strand) : Word :=
  match s.rxHead l k with
  | some (j, m) =>
    withField (withField (withBit (withField (0 : Word) 31 16 m.seq.toNat) 12 true) 8 4 m.words.length) 1 0 j.idx
  | none => 0

/-- `LN_SQ_RXBUF[n]`. -/
def State.rxWord (s : State) (l : Lane) (k : Strand) (n : Nat) : Word :=
  match s.rxHead l k with
  | some (_, m) => (m.words[n]?).getD 0
  | none => 0

/-- A write of 1 to POP of `LN_SQ_RXPOP` removes the head message of the selected queue. -/
def State.sqPop (s : State) (l : Lane) (k : Strand) (v : Word) : State :=
  match s.rxHead l k with
  | some (j, _) =>
    if bitOf v 0 then
      let e := s.echo l k
      (s.setEcho l k { e with popped := e.popped.set j (e.popped.get j + 1), inQ := e.inQ.set j (e.inQ.get j).tail }
        ).showVisible l k
    else s
  | none => s

/-! ### Software vectors -/

/-- A write of `LN_EV_SWSET` (R181): 241 to 255 raise the vector at the next event point, any other value is ignored
and logged. -/
def State.swEvent (s : State) (l : Lane) (k : Strand) (v : Word) : State :=
  let n := fieldOf v 7 0
  if 241 ≤ n then
    let r := s.replica l k
    s.setReplica l k { r with soft := r.soft ++ [n] }
  else s.ignored l.unit (Reg.lnEvSwset k) (.strand k)

/-! ### Page accesses -/

/-- A read of one word of the page. An offset that no register occupies is logged word by word, by its own offset (log
entry 121). -/
def State.pageRead (s : State) (l : Lane) (k : Strand) (off : Nat) : State × Word :=
  let key := pageKey k off
  match regAt l.unit key with
  | none => (s.logEv l.idx (some k) .unmapped [off], 0)
  | some (d, is) =>
    match d.id with
    | .lnSqRxhdr => (s, s.rxHeader l k)
    | .lnSqRxbuf => (s, s.rxWord l k (is.headD 0))
    | _ => s.plainRead l.unit key d

/-- A write of the enabled bits of one word of the page. -/
def State.pageWrite (s : State) (l : Lane) (k : Strand) (off : Nat) (mask data : Word) (wide : Bool) : State :=
  let key := pageKey k off
  match regAt l.unit key with
  | none => s.logEv l.idx (some k) .unmapped [off]
  | some (d, is) =>
    if data &&& mask &&& reservedBits d is != 0 then s.logRsvd l.unit key (.strand k)
    else
      let t := if differsRo d (s.pageRead l k off).2 mask data then s.ignored l.unit key (.strand k) else s
      match d.id with
      | .lnSqSend => t.sqSend l k (data &&& mask)
      | .lnSqRxpop => t.sqPop l k (data &&& mask)
      | .lnEvSwset => t.swEvent l k (data &&& mask)
      | _ => t.plainWrite l.unit key d mask data wide

/-- A word of a page write sets a reserved bit. -/
def pageRsvd (l : Lane) (k : Strand) (w : Nat × Word × Word) : Bool :=
  match regAt l.unit (pageKey k w.1) with
  | none => false
  | some (d, is) => w.2.2 &&& w.2.1 &&& reservedBits d is != 0

/-- A write access of the page: every word it enables, or none of them when one sets a reserved bit (R11, R14). -/
def State.pageStore (s : State) (l : Lane) (k : Strand) (off : Nat) (bs : List Byte) : State :=
  let ws := wordsOf off bs.length (BitVec.ofNat 64 (leNat bs))
  match ws.find? (pageRsvd l k) with
  | some w => s.logRsvd l.unit (pageKey k w.1) (.strand k)
  | none => ws.foldl (fun t w => t.pageWrite l k w.1 w.2.1 w.2.2 (decide (bs.length = 8 ∧ off % 8 = 0))) s

/-- A read access of the page: every word it touches is read once, in full (R446). -/
def State.pageLoad (s : State) (l : Lane) (k : Strand) (off size : Nat) : State × List Byte :=
  let base := off / 4 * 4
  let words := List.range ((off + size + 3) / 4 - off / 4)
  let r := words.foldl (fun (acc : State × List Byte) i =>
    let q := acc.1.pageRead l k (base + 4 * i)
    (q.1, acc.2 ++ leBytes 4 q.2.toNat)) (s, [])
  (r.1, slice r.2 (off - base) size)

end Sys2Proof.Machine
end

