-- ==== Sys2Proof/Machine/LaneCore.lean ====
section
/-! DEFINITION. Lane cores (R44, R47, R111, R157 to R163, R170): what one KC64 instruction does, the waits, and debug
requests. -/

namespace Sys2Proof.Machine

/-! ### Access rights (R161 to R163) -/

inductive AccKind where
  | read | write | exec
deriving DecidableEq, Repr

/-- The regions of the first and the last byte of an access are one region of one strand. -/
def sameRegion : Region → Region → Bool
  | .partition k _, .partition j _ => k == j
  | .common _, .common _ => true
  | .slice k _, .slice j _ => k == j
  | .page k _, .page j _ => k == j
  | .laneCommon _, .laneCommon _ => true
  | .window d _, .window e _ => d == e
  | _, _ => false

/-- The locked entries allow the access: the rights of the table of R161 for strand k. -/
def regionAllows (k : Strand) : Region → AccKind → Bool
  | .partition j _, _ => j == k
  | .common _, .read => true
  | .common _, _ => false
  | .slice j _, _ => j == k
  | .page j _, .exec => j == k && false
  | .page j _, _ => j == k
  | .laneCommon _, .read => true
  | .laneCommon _, _ => false
  | .window _ _, .exec => false
  | .window _ _, _ => true
  | .unlisted, _ => false

/-- A software entry denies the access (R163). -/
def mpuDenies (es : List MpuEntry) (a len : Nat) (c : AccKind) : Bool :=
  es.any fun e => decide (e.base < a + len) && decide (a ≤ e.limit) &&
    match c with
    | .read => e.denyR
    | .write => e.denyW
    | .exec => e.denyX

/-- An access of `len` bytes at `a` is allowed to strand k's replica. -/
def State.allowed (s : State) (l : Lane) (k : Strand) (a len : Nat) (c : AccKind) : Bool :=
  sameRegion (regionOf a) (regionOf (a + len - 1)) && regionAllows k (regionOf a) c &&
    !mpuDenies (s.replica l k).mpu a len c

/-! ### Poison (R170) -/

/-- SRC of `LN_ECC_ADDR_HI`: 1 DRAM, 2 SRAM. -/
def eccSrc (a : Nat) : Nat := if a < 0x100000000 then 1 else 2

/-- The address of an uncorrectable error, with its source, strand and whether a core consumed it. -/
def State.eccAddr (s : State) (l : Lane) (a src : Nat) (consumed : Bool) (k : Strand) : State :=
  let w := withField (withField (withBit (withField (0 : Word) 7 0 (a / 0x100000000)) 28 consumed) 31 29 src) 27 26 k.idx
  (s.setReg l.unit Reg.lnEccAddrLo (BitVec.ofNat 32 a)).setReg l.unit Reg.lnEccAddrHi w

/-- A core that loads, fetches or partially stores a poisoned word stops at that instruction. -/
def State.consumePoison (s : State) (l : Lane) (k : Strand) (a len : Nat) : State :=
  let d := ((s.lane l).poison.find? fun d => decide (d < a + len) && decide (a < d + 8)).getD a
  (((s.eccAddr l d (eccSrc d) true k).stopCore l k).logEv l.idx (some k) .poison [d])

/-- A store covers only part of a poisoned doubleword. -/
def State.partialPoison (s : State) (l : Lane) (a len : Nat) : Bool :=
  (s.lane l).poison.any fun d => decide (d < a + len) && decide (a < d + 8) &&
    !(decide (a ≤ d) && decide (d + 8 ≤ a + len))

/-! ### Loads -/

/-- The lane answers a device read itself: absent unit, fenced M window, or a replica in DEBUG (R7, R123, R151). DESIGN CHOICE (log
entry 158): where more than one of them applies the first of this list does, for which the manual gives no order. -/
def State.localAnswer (s : State) (l : Lane) (k : Strand) (d : Die) (off : Nat) : Option Word :=
  if (s.absentUnit d off).isSome then some absentPattern
  else if (s.replica l k).debug then some debugPattern
  else if d = .m ∧ (s.lane l).fenceM = true then some fencedPattern
  else none

/-- The doublewords of a device access: one that the lane answers itself takes no ordinal, the others consecutive ones. -/
def numberBeats (here : Nat → Bool) (o : Word) : List Dw → List (Dw × Option Word)
  | [] => []
  | x :: xs => if here x.addr then (x, none) :: numberBeats here o xs else (x, some o) :: numberBeats here (o + 1) xs

/-- The beats of a numbered access. -/
def beatsOf (k : Strand) (isRead : Bool) (xs : List (Dw × Option Word)) : List Beat :=
  xs.filterMap fun x => x.2.map fun o => ⟨k, o, isRead, x.1.addr, x.1.be, if isRead then 0 else x.1.data⟩

/-- A replica's beats to a die wait in its lane. -/
def State.queueBeats (s : State) (l : Lane) (k : Strand) (d : Die) (bs : List Beat) : State :=
  let r := s.replica l k
  s.setReplica l k { r with
    ord := r.ord.set d (r.ord.get d + BitVec.ofNat 32 bs.length)
    out := r.out ++ bs.map fun b => (d, b) }

/-- The doublewords of an access that lie in absent units are reported (R8). -/
def State.noteAbsents (s : State) (d : Die) (ds : List Dw) : State := ds.foldl (fun t x => t.noteAbsent d x.addr) s

/-- A device read: one request per doubleword, in order, each with its ordinal (R88, R90); the core waits, unless the lane itself
answers every doubleword. -/
def State.deviceLoad (s : State) (l : Lane) (k : Strand) (d : Die) (a off size : Nat) : State :=
  let ds := dwords off (List.replicate size 0)
  let xs := numberBeats (fun o => (s.localAnswer l k d o).isSome) ((s.replica l k).ord.get d) ds
  let parts : List ReadPart := xs.map fun x => match x.2 with
    | some o => ⟨d, o, 0, none⟩
    | none => ⟨d, 0, 0, (s.localAnswer l k d x.1.addr).map fun p => p ++ p⟩
  let t := s.noteAbsents d ds
  if parts.all fun q => q.got.isSome then t.finishLoad l k (loadBytes a size parts)
  else
    let t := t.queueBeats l k d (beatsOf k true xs)
    t.setReplica l k { t.replica l k with load := some ⟨a, size, parts⟩ }

/-- A load of `size` bytes. -/
def State.doLoad (s : State) (l : Lane) (k : Strand) (a size : Nat) : State :=
  if !s.allowed l k a size .read then s
  else
    match regionOf a with
    | .page _ off =>
      let r := s.pageLoad l k off size
      r.1.finishLoad l k r.2
    | .laneCommon _ => s.finishLoad l k (List.replicate size 0)
    | .window d off => s.deviceLoad l k d a off size
    | _ =>
      if s.poisoned l a size then s.consumePoison l k a size
      else s.finishLoad l k (memRead (s.lane l).mem a size)

/-! ### Stores -/

/-- Records of doublewords stored enter the running signature (R111). -/
def State.foldDwords (s : State) (l : Lane) (k : Strand) (kind : Byte) (ds : List Dw) : State :=
  let r := s.replica l k
  s.setReplica l k { r with sig := ds.foldl (fun g d => sigFold g kind d) r.sig }

/-- Records of a store enter the running signature, one per doubleword (R111). -/
def State.foldSig (s : State) (l : Lane) (k : Strand) (kind : Byte) (a : Nat) (bs : List Byte) : State :=
  s.foldDwords l k kind (dwords a bs)

/-- The scrub block that holds an address of a strand's memory. -/
def scrubBlockOf (k : Strand) (a : Nat) : Option Nat :=
  match regionOf a with
  | .partition j off => if j = k then some (off / 65536) else none
  | .slice j off => if j = k then some (14336 + off / 65536) else none
  | _ => none

/-- A write into a block that a scrub engine is hashing makes its hash void (R118). -/
def State.voidScrub (s : State) (l : Lane) (k : Strand) (a : Nat) : State :=
  let x := s.scrub l k
  s.setScrub l k { x with busy := x.busy.map (fun j =>
    if scrubBlockOf k a = some j.block then { j with void := true } else j) }

/-- A store into the replica's own partition or slice. -/
def State.memoryStore (s : State) (l : Lane) (k : Strand) (a : Nat) (bs : List Byte) : State :=
  if s.partialPoison l a bs.length then s.consumePoison l k a bs.length
  else
    let kind := if a < 0x100000000 then sigPartition else sigSlice
    let t := (s.laneStore l a bs).foldSig l k kind a bs
    let t := (t.voidScrub l k a).voidScrub l k (a + bs.length - 1)
    (t.markDirtyRange l a bs.length).retire l k

/-- A device write: one beat per doubleword, each with its ordinal and its record in the signature (R88, R90, R111). Doublewords
of absent units, of a replica in DEBUG and of the fenced M window are dropped in the lane. -/
def State.deviceStore (s : State) (l : Lane) (k : Strand) (d : Die) (a off : Nat) (bs : List Byte) : State :=
  let ds := dwords off bs
  let here := fun o => (s.localAnswer l k d o).isSome
  let sent := (dwords a bs).filter fun x => !here (x.addr - a / 8 * 8 + off / 8 * 8)
  let t := ((s.noteAbsents d ds).foldDwords l k sigDevice sent)
  (t.queueBeats l k d (beatsOf k false (numberBeats here ((s.replica l k).ord.get d) ds))).retire l k

/-- A store of bytes. -/
def State.doStore (s : State) (l : Lane) (k : Strand) (a : Nat) (bs : List Byte) : State :=
  if !s.allowed l k a bs.length .write then s
  else
    match regionOf a with
    | .page _ off => ((s.pageStore l k off bs).foldSig l k sigPage a bs).retire l k
    | .window d off => s.deviceStore l k d a off bs
    | _ => s.memoryStore l k a bs

/-! ### Instructions -/

/-- The core can execute its next instruction: it runs, is not at an event point, and its earlier accesses have left
the lane (R96). A replica in DEBUG runs without event points (R151). -/
def State.canExecute (s : State) (l : Lane) (k : Strand) : Bool :=
  let r := s.replica l k
  s.runs l k && r.phase == .run && r.load.isNone && r.out.isEmpty &&
    ((r.mode == .running && (s.reg64 l.unit (Reg.lnIcountLo k) != r.nextCount || (s.replica l k).debug)) ||
      r.mode == .debugStep)

/-- A single step ends in debug halt (R160). -/
def State.endStep (s : State) (l : Lane) (k : Strand) : State :=
  let r := s.replica l k
  if r.mode = .debugStep then s.setReplica l k { r with mode := .debugHalted } else s

/-- The effect of one instruction. An access fault or illegal instruction is taken at the instruction, which does not
retire (R158). -/
def State.execute (s : State) (l : Lane) (k : Strand) : KcOp → State
  | .plain => s.retire l k
  | .load a n => s.doLoad l k a.toNat n
  | .store a bs => s.doStore l k a.toNat bs
  | .mask on => (s.setReplica l k { s.replica l k with mask := on }).retire l k
  | .fetch a =>
    if !s.allowed l k a.toNat 4 .exec then s
    else if s.poisoned l a.toNat 4 then s.consumePoison l k a.toNat 4
    else s.retire l k
  | .mpuWrite i b m dr dw dx =>
    if 9 ≤ i ∧ i ≤ 15 then
      let r := s.replica l k
      (s.setReplica l k { r with
        mpu := ⟨i, b.toNat, m.toNat, dr, dw, dx⟩ :: r.mpu.filter fun e => e.index != i }).retire l k
    else s
  | .fault => s

/-- KC64_INSTRUCTION (R44): one instruction with its new digest-set registers. -/
def execKc64Instruction (l : Lane) (k : Strand) (op : KcOp) (regs : List Dword) (s : State) : Out :=
  .next (if s.canExecute l k then
    let t := s.execute l k op
    if (t.replica l k).mode = .stopped then t
    else (t.setReplica l k { t.replica l k with core := regs }).endStep l k
  else s)

/-- A strand page store as an instruction of the replica. -/
def State.pageInstr (s : State) (l : Lane) (k : Strand) (off : Nat) (data : Word) : State :=
  if s.canExecute l k then
    (s.doStore l k (0x200000000 + pageKey k off) (leBytes 4 data.toNat)).endStep l k
  else s

/-- SQ_SEND (R69). -/
def execSqSend (l : Lane) (k : Strand) (data : Word) (s : State) : Out := .next (s.pageInstr l k 0x140 data)

/-- SQ_RXPOP (R72). -/
def execSqRxpop (l : Lane) (k : Strand) (data : Word) (s : State) : Out := .next (s.pageInstr l k 0x158 data)

/-- SW_EVENT_SET (R181). -/
def execSwEventSet (l : Lane) (k : Strand) (data : Word) (s : State) : Out := .next (s.pageInstr l k 0x440 data)

/-- EV_PEND_CLEAR (R182). -/
def execEvPendClear (l : Lane) (k : Strand) (n : Nat) (data : Word) (s : State) : Out :=
  .next (if n < 8 then s.pageInstr l k (0x400 + 4 * n) data else s)

/-- SQ_COPY_ARRIVE (R71): a copied message lands in the lane's inbound queue. -/
def execSqCopyArrive (l : Lane) (src dst : Strand) (m : SqMsg) (s : State) : Out :=
  let t := s.arrive (.sqCopy l src dst m)
  .next (if t.retired l then t else t.commitMsg l src dst m)

/-- EPOCH_MARK (R77): the epoch-mark instruction retires. -/
def execEpochMark (l : Lane) (k : Strand) (s : State) : Out :=
  .next (if s.canExecute l k then
    ((s.setReplica l k { s.replica l k with mark := true }).retire l k).endStep l k
  else s)

/-- The counter advances directly to the next event point, which is then reached by idle advance (R47): IDLE of its publication is
1, also when the wait's own retirement has brought the count there already (log entry 128). -/
def State.idleAdvance (s : State) (l : Lane) (k : Strand) : State :=
  let r := s.replica l k
  (s.setReg64 l.unit (Reg.lnIcountLo k) r.nextCount).setReplica l k { r with mode := .waiting, idle := true }

/-- WAIT_FOR_EVENT (R47): with no enabled exception pending the instruction retires and the counter advances to the
next event point. With one pending, for which the manual gives no effect, it only retires (log entry 128). -/
def execWaitForEvent (l : Lane) (k : Strand) (s : State) : Out :=
  .next (if s.canExecute l k && (s.replica l k).mode == .running then
    let t := s.retire l k
    if (s.dueVector l k).isSome && !(s.replica l k).mask then t else t.idleAdvance l k
  else s)

/-- IDLE_ADVANCE (R47): a waiting replica advances to the following point, no sooner than 2 µs after the previous
idle point. -/
def execIdleAdvance (l : Lane) (k : Strand) (s : State) : Out :=
  let r := s.replica l k
  .next (if s.runs l k && r.mode == .waiting && r.phase == .run && !r.idle && decide (r.idleAt + 2000 ≤ s.ns) then
    s.idleAdvance l k else s)

/-- ABSENT_UNIT_ACCESS (R6, R7): the lane answers an access to an absent unit itself. -/
def execAbsentUnitAccess (l : Lane) (k : Strand) (addr : Addr) (size : Nat) (write : Bool) (s : State) : Out :=
  .next (match regionOf addr.toNat with
    | .window d off =>
      if s.canExecute l k && (s.absentUnit d off).isSome then
        if write then s.doStore l k addr.toNat (List.replicate size 0) else s.doLoad l k addr.toNat size
      else s
    | _ => s)

/-! ### Debug requests (R160) -/

/-- The debugger writes a replica's own memory or strand page (R151). -/
def State.debugPoke (s : State) (l : Lane) (k : Strand) (a : Nat) (bs : List Byte) : State :=
  match regionOf a with
  | .page j off => if j = k then s.pageStore l k off bs else s
  | _ => if ownerOf a = some k ∧ ownerOf (a + bs.length - 1) = some k then s.laneStore l a bs else s

/-- DEBUG_REQUEST: halt, step, run and modify act only on a replica in DEBUG, while debug access lasts (R151, R153);
otherwise the request is refused and logged. -/
def execDebugRequest (l : Lane) (k : Strand) (q : DebugReq) (s : State) : Out :=
  let r := s.replica l k
  .next (if r.debug = true ∧ s.flag l.unit Reg.rjDbg 8 = true ∧ s.debugAuth = true then
    match q with
    | .halt => s.setReplica l k { r with mode := .debugHalted }
    | .step => if r.mode = .debugHalted then s.setReplica l k { r with mode := .debugStep } else s
    | .run => s.setReplica l k { r with mode := .running }
    | .modify regs mask => s.setReplica l k { r with core := regs, mask := mask }
    | .poke a bs => s.debugPoke l k a.toNat bs
  else s.logEv l.idx (some k) .dbgRefused [l.idx])

end Sys2Proof.Machine
end

