-- ==== Sys2Proof/Machine/LaneMemory.lean ====
section
/-! DEFINITION. Lane memories: broadcast writes landing (R107, R167), scrub compare (R117 to R119), memory errors and
patrol (R169 to R171). -/

namespace Sys2Proof.Machine

/-! ### Broadcast writes -/

/-- One more broadcast write landed in a scrub block (R118). -/
def bumpCount (cs : List (Nat × Half)) (b : Nat) : List (Nat × Half) :=
  match cs.find? fun c => c.1 == b with
  | some c => (b, c.2 + 1) :: cs.filter fun c => c.1 != b
  | none => (b, 1) :: cs

def blockCount (cs : List (Nat × Half)) (b : Nat) : Nat :=
  match cs.find? fun c => c.1 == b with
  | some c => c.2.toNat
  | none => 0

def State.noteBroadcast (s : State) (l : Lane) (k : Strand) (a : Nat) : State :=
  match scrubBlockOf k a with
  | some b =>
    let t := s.voidScrub l k a
    t.setScrub l k { t.scrub l k with counts := bumpCount (t.scrub l k).counts b }
  | none => s

/-- A broadcast write lands: it is in memory and cached copies are gone. The occurrence that announces it follows on the same
link, behind it on its virtual channel (R109, R167, R319). -/
def State.landBroadcast (s : State) (l : Lane) (w : Broadcast) : State :=
  let a := w.addr.toNat
  let n := w.bytes.length
  let t := (s.laneStore l a w.bytes).markDirtyRange l a n
  match ownerOf a with
  | some k =>
    let t := t.noteBroadcast l k a
    if scrubBlockOf k a = scrubBlockOf k (a + n - 1) then t else t.noteBroadcast l k (a + n - 1)
  | none => t

/-- A broadcast write that a hold's acknowledgement awaits has landed (R141). -/
def State.noteLanded (s : State) (p : PDie) (l : Lane) : State :=
  match s.rejoin with
  | some r => { s with rejoin := some { r with owed := r.owed.set p ((r.owed.get p).set l ((r.owed.get p).get l - 1)) } }
  | none => s

/-- BROADCAST_WRITE_LAND (R167, R320): `ue` tells of an uncorrectable error in the posted-write buffers before the delivery. -/
def execBroadcastWriteLand (l : Lane) (w : Broadcast) (ue : Bool) (s : State) : Out :=
  if isLaneMemory (w.addr.toNat + w.bytes.length - 1) then
    .next (if s.mayArrive (.broadcast l w) then
      let t := (s.arrive (.broadcast l w)).noteLanded w.die l
      if t.retired l then t else if ue then t.loseWrite l w 7 else t.landBroadcast l w
    else s)
  else .fault (.noSuchAddress w.addr.toNat)

/-! ### Scrub compare -/

/-- The first address of a scrub block. -/
def blockBase (k : Strand) (b : Nat) : Nat :=
  if b < 14336 then k.idx * partitionSize + b * 65536 else sliceBase + k.idx * sliceSize + (b - 14336) * 65536

/-- SCRUB_HASH_DONE (R118): the lane finishes the block that it began first and publishes its hash, or a void one, with its
broadcast count; a poisoned word makes the block unreadable (R170). -/
def execScrubHashDone (l : Lane) (k : Strand) (s : State) : Out :=
  let x := s.scrub l k
  .next (match x.busy with
    | [] => s
    | j :: rest =>
      let base := blockBase k j.block
      let bad := s.poisoned l base 65536
      let hash := if j.void || bad then none else some (crc64 (memRead (s.lane l).mem base 65536))
      let t := s.setScrub l k { x with
        busy := rest
        done := x.done ++ [⟨j.block, j.point, j.tries, blockCount x.counts j.block, hash, bad⟩] }
      if bad then
        let d := ((s.lane l).poison.find? fun d => decide (d < base + 65536) && decide (base < d + 8)).getD base
        (t.eccAddr l d (eccSrc d) false k).logEv l.idx (some k) .poison [d]
      else t)

/-- The last point that any in-step replica has reached: at the boundary after it, and no sooner, every in-step lane begins a
retry or a new pass (log entry 118). -/
def State.lastPoint (s : State) (k : Strand) : Word :=
  match (s.inStepAt s.viewLane k).map fun l => loWord (s.reg64 l.unit (Reg.lnPointLo k)) with
  | [] => 0
  | p :: ps => ps.foldl (fun m q => if serialLt m q then q else m) p

/-- What an engine published for a block and boundary. -/
def hashOf (x : Scrub) (block : Nat) (point : Word) : Option ScrubHash :=
  x.done.find? fun h => h.block == block && h.point == point

/-- A published block that an engine is done with. -/
def dropHash (x : Scrub) (block : Nat) (point : Word) : Scrub :=
  { x with done := x.done.filter fun h => !(h.block == block && h.point == point) }

/-- Block 14 339 has been compared, or skipped: the next pass starts at the boundary after the points reached (R117). -/
def endPass (x : Scrub) (block : Nat) (last : Word) : Scrub :=
  if block + 1 = scrubBlocks then { x with t0 := none, next := 0, passAfter := some last } else x

/-- No comparison is made: every engine hashes the block again at the next common boundary, or skips it after 16 retries
(R118). A pass whose last block is skipped ends uncounted and raises nothing (log entry 118). -/
def State.scrubRetry (s : State) (k : Strand) (h : ScrubHash) : State :=
  let last := s.lastPoint k
  Lane.list.foldl (fun t l =>
    let x := dropHash (t.scrub l k) h.block h.point
    let t := t.bump l.unit (Reg.vtScrub k.idx) 7 0
    if h.tries < 16 then t.setScrub l k { x with retry := x.retry ++ [⟨h.block, h.tries + 1, last⟩] }
    else (t.bump l.unit (Reg.vtScrub k.idx) 15 8).setScrub l k (endPass x h.block last)) s

/-- The block is finished; with the last block of a pass the pass is counted and SCRUB_PASS is raised (R176). -/
def State.scrubAdvance (s : State) (k : Strand) (h : ScrubHash) : State :=
  let n := s.echoNext s.viewLane k
  let last := s.lastPoint k
  let t := Lane.list.foldl (fun t l =>
    let t := t.setScrub l k (endPass (dropHash (t.scrub l k) h.block h.point) h.block last)
    if h.block + 1 = scrubBlocks then
      let t := t.bumpWrap l.unit (Reg.vtScrub k.idx) 31 16
      if t.retired l then t else t.latch l k ⟨0, 6, n⟩
    else t) s
  if h.block + 1 = scrubBlocks then { t with echoNum := t.echoNum.set k (n + 1) } else t

/-- An exclusion that all scrub engines decide alike. -/
def State.scrubExcludes (s : State) (k : Strand) (x : Lane) : State :=
  s.liveLanes.foldl (fun t l => if (t.echo l k).inStep.get x then t.echoExcludes l k x .scrub else t) s

/-- The lanes whose hashes a comparison needs. -/
def State.scrubLanes (s : State) (k : Strand) : List Lane := (s.inStepAt s.viewLane k).filter fun l => !s.retired l

/-- The hashes of a block at a boundary, once every in-step lane has published its own. -/
def State.scrubSet (s : State) (k : Strand) (block : Nat) (point : Word) : Option (List (Lane × ScrubHash)) :=
  let ins := s.scrubLanes k
  let got := ins.filterMap fun l => (hashOf (s.scrub l k) block point).map fun h => (l, h)
  if got.length = ins.length then some got else none

/-- The first block, in the order of hashing, that every in-step lane has published. -/
def State.scrubReady (s : State) (k : Strand) : Option (List (Lane × ScrubHash)) :=
  match s.scrubLanes k with
  | l :: _ :: _ => (s.scrub l k).done.findSome? fun h => s.scrubSet k h.block h.point
  | _ => none

/-- The comparison of a block's hashes (R119). -/
def State.scrubCompare (s : State) (k : Strand) (got : List (Lane × ScrubHash)) : State :=
  match got with
  | [] => s
  | (_, h) :: _ =>
    match got.find? fun g => g.2.unreadable with
    | some g => s.scrubExcludes k g.1
    | none =>
      if got.any fun g => g.2.hash.isNone || g.2.count != h.count then s.scrubRetry k h
      else
        match got.map fun g => (g.1, g.2.hash) with
        | [(_, x), (_, y)] =>
          if x = y then s.scrubAdvance k h
          else s.liveLanes.foldl (fun t l => t.echoSplits l k .diverge2oo2) s
        | (la, x) :: (lb, y) :: (lc, z) :: _ =>
          if x = y ∧ y = z then s.scrubAdvance k h
          else if x = y then (s.scrubExcludes k lc).scrubAdvance k h
          else if x = z then (s.scrubExcludes k lb).scrubAdvance k h
          else if y = z then (s.scrubExcludes k la).scrubAdvance k h
          else s.liveLanes.foldl (fun t l => t.echoSplits l k .split) s
        | _ => s

/-- SCRUB_COMPARE (R119): the first block whose hashes, taken at one boundary, every in-step lane has published. -/
def execScrubCompare (k : Strand) (s : State) : Out :=
  .next (if s.halted k then s else match s.scrubReady k with
    | some got => s.scrubCompare k got
    | none => s)

/-! ### Memory errors (R169) and lane-wide faults (R172, R173) -/

/-- A lane finds a fault class of its own: its cores stop and it asserts its fault line (R173). -/
def State.ownFault (s : State) (l : Lane) (c : LaneFault) : State :=
  let t := s.setFld l.unit Reg.lnLfault 10 8 (LaneFault.code c)
  let t := Strand.list.foldl (fun t k => t.stopCore l k) t
  t.send [.faultLine l c]

/-- The doubleword at an address is poisoned in a lane (R170). DESIGN CHOICE (log entry 162): `POISON` is logged when the word is
consumed or a scrub engine meets it, not here. -/
def State.poisonWord (s : State) (l : Lane) (a src : Nat) (k : Strand) : State :=
  let x := s.lane l
  let t := s.setLane l { x with poison := insertNat (a / 8 * 8) x.poison }
  (t.bump l.unit Reg.lnEccCnt 7 0).eccAddr l (a / 8 * 8) src false k

/-- An uncorrectable error in a lane memory, by where it lies (R169). -/
def State.memoryUe (s : State) (l : Lane) (loc : UeLoc) (a : Nat) : State :=
  match loc with
  | .cleanCache => s.bump l.unit Reg.lnEccCnt 15 8
  | .dirtyCache l1 =>
    match ownerOf a with
    | some k => s.poisonWord l a (if l1 then 4 else 3) k
    | none => s.ownFault l .laneUe
  | .dram =>
    match regionOf a with
    | .partition k _ => s.poisonWord l a 1 k
    | _ => s.ownFault l .dramUe
  | .sram =>
    match regionOf a with
    | .slice k _ => s.poisonWord l a 2 k
    | _ => s.ownFault l .laneUe
  | .control => s.ownFault l .laneUe

/-- The running rejoin writes a page that it copies into a lane's DRAM or SRAM (R145). -/
def State.copiesTo (s : State) (l : Lane) (loc : UeLoc) (a : Nat) : Bool :=
  match s.rejoin, pageOf a with
  | some r, some (k, n) => r.target == l && r.strand == k && (loc == .dram || loc == .sram) &&
      (passReads r.pass 0 (passSize r.pass) n || r.dirty.contains n)
  | _, _ => false

/-- MEMORY_UE (R169). An error met in writing a copied page abandons the rejoin with TARGET_FAULT (R145). -/
def execMemoryUe (l : Lane) (loc : UeLoc) (addr : Addr) (s : State) : Out :=
  if loc = .control ∨ isLaneMemory addr.toNat = true then
    let t := s.memoryUe l loc addr.toNat
    .next (if s.copiesTo l loc addr.toNat then t.abandonRejoin 0x24 else t)
  else .fault (.noSuchAddress addr.toNat)

/-- PATROL_READ (R171): one 64-byte line of DRAM. -/
def execPatrolRead (l : Lane) (f : PatrolFind) (addr : Addr) (s : State) : Out :=
  let a := addr.toNat
  if a < 0x100000000 then
    let t := s.setFld l.unit Reg.lnPatrol 15 0 (a / 65536)
    let t := if a / 64 * 64 + 64 = 0x100000000 then
        (t.setFld l.unit Reg.lnPatrol 15 0 0).bumpWrap l.unit Reg.lnPatrol 31 16 else t
    .next (match f with
      | .clean => t
      | .correctable => t.bump l.unit Reg.lnEccCnt 31 24
      | .uncorrectable => t.memoryUe l .dram a
      | .busy => t)
  else .fault (.noSuchAddress a)

/-- FAULT_LINE_ASSERT (R173): the lanes see the line, the faulty lane shows its class and its cores stop, and the
lane-retire notice is sent: by another lane, or by management when no other is left, which waits while M is stopped. -/
def execFaultLineAssert (l : Lane) (c : LaneFault) (s : State) : Out :=
  let t := s.arrive (.faultLine l c)
  let t := Lane.list.foldl (fun t x => t.setFlag x.unit Reg.lnLfault l.idx true) t
  let t := t.setFld l.unit Reg.lnLfault 10 8 (LaneFault.code c)
  let t := Strand.list.foldl (fun t k => t.stopCore l k) t
  .next (if (t.peers l).isEmpty && !t.consumers.m.running then t else t.sendRetire l c)

/-- The lane-wide fault class of a code (R172). -/
def LaneFault.ofCode (n : Nat) : LaneFault :=
  if n = 1 then .replicas else if n = 2 then .dramUe else if n = 3 then .power else if n = 4 then .refclk
  else if n = 5 then .crawlway else if n = 6 then .laneUe else .none

/-- Management resumes and finds the fault line of the only lane left (R173). -/
def State.retireLate (s : State) : State :=
  match s.liveLanes with
  | [l] => if s.flag l.unit Reg.lnLfault l.idx then s.sendRetire l (LaneFault.ofCode (s.fld l.unit Reg.lnLfault 10 8)) else s
  | _ => s

/-- LANE_RETIRE (R148): the retired lane's values no longer count for the step in force (R414), nor its report for the
module-held state (R352), nor is its publication awaited any more (R115). -/
def execLaneRetire (l : Lane) (c : LaneFault) (s : State) : Out :=
  let t := s.arrive (.retireNotice l c)
  .next (if t.retired l then t else (t.retireLane l c).reStepAll.showHeldAll.agreeAgain)

/-! ### Links -/

/-- FLIT_REPLAY (R31): a crawlway link counts the replay in the lane that sees it. -/
def execFlitReplay (i : LinkId) (s : State) : Out :=
  .next (match i with
    | .crawl l o => if l = o then s else s.bump l.unit (Reg.ecLink (linkIndex l o)) 15 0
    | .junction _ _ => s
    | .sideband => s)

/-- CRAWLWAY_LINK_FAILED (R31, R32). -/
def execCrawlwayLinkFailed (l o : Lane) (s : State) : Out :=
  .next (if l = o ∨ s.retired l = true then s else s.failLink l o)

/-- A broadcast lost on a failed junction link is a posted-write failure of the die that wrote it (R33, R320). -/
def State.loseBroadcast (s : State) (l : Lane) (w : Broadcast) : State := s.broadcastTo w l

/-- LINK_FAIL (R33): what is on the link is lost, each broadcast write with its record. The lane reports the module-held state to
the die no more (R352). -/
def execLinkFail (l : Lane) (d : Die) (s : State) : Out :=
  let x := s.lane l
  let t := s.setLane l { x with junction := x.junction.set d false }
  let t := t.logEv l.idx none .linkFail [l.idx, (Die.logSrc d)]
  let lost := s.vcQueue l d true .posted
  let t := t.setJLink l d { t.jlink l d with up := ⟨[], [], []⟩, down := ⟨[], [], []⟩ }
  .next (lost.foldl (fun t w => match w with
    | .broadcast _ b => t.loseBroadcast l b
    | _ => t) t).showHeldAll

end Sys2Proof.Machine
end

