-- ==== Sys2Proof/Machine/Rejoin.lean ====
section
/-! DEFINITION. Rejoin, restart's lane side and debug attach (R130 to R153). One rejoin unit's record stands for the
three units, since the donor's decides and sends every change to the others (before R154). -/

namespace Sys2Proof.Machine

/-! ### Settings of `RJ_CFG` (R154) -/

def State.rjAuto (s : State) (l : Lane) : Bool := s.flag l.unit Reg.rjCfg 21
def State.rjForce (s : State) (l : Lane) : Bool := s.flag l.unit Reg.rjCfg 20
/-- `REJOIN_STALL_MAX` in µs, 50 to 5000. -/
def State.rjStallMax (s : State) (l : Lane) : Nat := min (max (s.fld l.unit Reg.rjCfg 12 0) 50) 5000

/-- A stall budget in pages (R137). -/
def stallPages (us bw : Nat) : Nat := (us - 10) * bw * 1000 / 4096

/-- The limit in force: N_STALL, or N_HARD for a forced stall. -/
def State.stallLimit (s : State) (r : RejoinRun) : Nat :=
  stallPages (if r.forced then 2000 else s.rjStallMax r.donor) (s.rjBw r.donor)

/-- The bound of the stall: `REJOIN_STALL_MAX`, or `STALL_HARD` for a forced stall (R144). -/
def State.stallBoundNs (s : State) (r : RejoinRun) : Nat := 1000 * (if r.forced then 2000 else s.rjStallMax r.donor)

/-! ### Request and refusal (R131 to R133) -/

/-- The donor: the lowest-lettered in-step replica. -/
def State.donorOf (s : State) (k : Strand) : Option Lane := (s.inStepAt s.viewLane k).head?

/-- The lane whose rejoin unit decides: the donor's, or the first lane while the strand has no donor. -/
def State.donorView (s : State) (k : Strand) : Lane := (s.donorOf k).getD s.viewLane

/-- The first check of R132 that fails, from BAD_STATE onwards. -/
def State.rejoinRefusal (s : State) (k : Strand) (x : Lane) : Option Nat :=
  let st := s.replState (s.donorView k) k x
  if !(st == 1 || st == 3) then some 0x10
  else if s.halted k || s.released.get k == false || (s.inStepAt s.viewLane k).length != 2 then some 0x11
  else if s.retired x then some 0x13
  else if !((s.lane x).junction.p1 && (s.lane x).junction.p2) then some 0x12
  else if (s.lane x).commonStale then some 0x15
  else none

/-- A request for strand k is queued or running. -/
def State.rejoinBusy (s : State) (k : Strand) : Bool :=
  (s.rejoinQueue.get k).isSome || match s.rejoin with
    | some r => r.strand == k
    | none => false

/-- QUEUED of `RJ_STAT[k]` in every lane. -/
def State.setQueued (s : State) (k : Strand) (b : Bool) : State :=
  s.setLaneFld (Reg.rjStat k.idx) 11 11 (bitNat b)

/-- A request is checked and queued, or refused (R132). -/
def State.requestRejoin (s : State) (k : Strand) (x : Lane) : State :=
  if s.rejoinBusy k then s.ignored (s.donorView k).unit Reg.rjCmd .mgmt
  else
    match s.rejoinRefusal k x with
    | some res => s.setRjResult k res
    | none => ({ s with rejoinQueue := s.rejoinQueue.set k (some x) }).setQueued k true

/-- Some lane takes a command of management firmware; that lane forwards it to the others (R131). -/
def State.mgmtCommands (s : State) : Bool := s.liveLanes.any fun l => s.mgmtReaches l

/-- REJOIN (R131). -/
def execRejoin (k : Strand) (repl : Lane) (s : State) : Out :=
  .next (if s.mgmtCommands then s.requestRejoin k repl else s)

/-- No automatic request waits any more for a replica, in any lane. -/
def State.autoAsked (s : State) (k : Strand) (x : Lane) : State :=
  Lane.list.foldl (fun t l => t.setEcho l k { t.echo l k with asideAt := (t.echo l k).asideAt.set x none }) s

/-- AUTO_REJOIN_REQUEST (R131): once, 100 ms after a replica with fewer than 3 consecutive abandoned rejoins became SET_ASIDE,
while AUTO is 1. -/
def execAutoRejoinRequest (k : Strand) (repl : Lane) (s : State) : Out :=
  let l := s.donorView k
  .next (if s.rjAuto l && s.replState l k repl == 1 && decide (s.abn l k repl < 3) &&
      ((s.echo l k).asideAt.get repl).any (fun t => decide (t + 100000000 ≤ s.ns)) then
      (s.autoAsked k repl).requestRejoin k repl else s)

/-- ABANDON in `RJ_CMD` (R133, R145). -/
def State.abandonCmd (s : State) (k : Strand) : State :=
  if (s.rejoinQueue.get k).isSome then
    (({ s with rejoinQueue := s.rejoinQueue.set k none }).setQueued k false).setRjResult k 0x25
  else s.abandonRejoinOf k 0x25

/-- ABANDON. -/
def execAbandon (k : Strand) (s : State) : Out := .next (if s.mgmtCommands then s.abandonCmd k else s)

/-- No strand with a lower number is queued (R133). -/
def State.firstQueued (s : State) (k : Strand) : Bool :=
  Strand.list.all fun j => k.idx ≤ j.idx || (s.rejoinQueue.get j).isNone

/-- A replica that leaves DEBUG for a rejoin: debug access ends and its core is stopped (R134, R127). -/
def State.endDebug (s : State) (x : Lane) (k : Strand) : State :=
  s.setReplica x k { s.replica x k with mode := .stopped, debug := false, load := none, out := [] }

/-- REJOIN_START (R133, R134). -/
def execRejoinStart (k : Strand) (s : State) : Out :=
  .next (match s.rejoinQueue.get k, s.rejoin with
    | some x, none =>
      if !s.firstQueued k then s
      else
        let t := ({ s with rejoinQueue := s.rejoinQueue.set k none }).setQueued k false
        match t.rejoinRefusal k x, t.donorOf k with
        | some res, _ => t.setRjResult k res
        | none, none => t.setRjResult k 0x11
        | none, some d =>
          let run : RejoinRun := {
            strand := k, target := x, donor := d, fromDebug := t.replState d k x == 3, pass := none, passFrom := t.ns,
            pagesRead := 0, dirty := [], forced := false, boundary := none, stallFrom := none, holdSent := false, holdAt := 0,
            owed := Duo.all (Tri.all 0), acked := Duo.all false, copied := false }
          let t := { t with rejoin := some run }
          let t := ((t.setLaneFld (Reg.rjStat k.idx) 23 20 0).setLaneFld (Reg.rjStat k.idx) 17 16 d.idx).setLaneFld
            (Reg.rjStat k.idx) 13 12 x.idx
          (((t.setRjPhase k 1).showDirty).endDebug x k).latchChangeAll k x .rejoinStart
    | _, _ => s)

/-! ### Copy passes (R135 to R139) -/

/-- Pages of a strand copied from one lane to another; copied words are no longer poisoned (R170). DESIGN CHOICE (log entry 161): a
word that is poisoned in the source is copied as its bytes stand there, and is not poisoned in the target. -/
def State.copyPages (s : State) (k : Strand) (src dst : Lane) (pages : Option (List Nat)) : State :=
  let m := (s.lane src).mem
  let x := s.lane dst
  match pages with
  | none =>
    let m1 := memCopy x.mem m (k.idx * partitionSize) partitionSize
    let m2 := memCopy m1 m (sliceBase + k.idx * sliceSize) sliceSize
    s.setLane dst { x with mem := m2, poison := x.poison.filter fun d => ownerOf d != some k }
  | some ps =>
    s.setLane dst { x with
      mem := ps.foldl (fun acc p => memCopy acc m (pageBase k p) 4096) x.mem
      poison := x.poison.filter fun d => !(ps.any fun p => decide (pageBase k p ≤ d) && decide (d < pageBase k p + 4096)) }

/-- A pass over the pages now dirty begins. -/
def RejoinRun.startPass (r : RejoinRun) (now : Nat) : RejoinRun :=
  { r with pass := some r.dirty, passFrom := now, pagesRead := 0 }

/-- The final stall is arranged: a stall notice names the first epoch boundary at or after D + 3 (R139). Copying goes on with the
pages now dirty. -/
def State.arrangeStall (s : State) (r : RejoinRun) : State :=
  let s : State := { s with rejoin := some (r.startPass s.ns) }
  let d3 := loWord (s.reg64 r.donor.unit (Reg.lnPointLo r.strand)) + 3
  let t := (s.inStepAt r.donor r.strand).foldl (fun t l =>
    t.setEcho l r.strand { t.echo l r.strand with stallAt := some d3 }) s
  t.setRjPhase r.strand 3

/-- Pass number of the running rejoin. -/
def State.rjIter (s : State) (r : RejoinRun) : Nat := s.fld r.donor.unit (Reg.rjStat r.strand.idx) 23 20

/-- The next pass copies the pages now dirty; the pass that would make ITER 9 is not started (R138). -/
def State.nextPass (s : State) (r : RejoinRun) : State :=
  let r : RejoinRun := { r with boundary := none, stallFrom := none, holdSent := false, acked := Duo.all false }
  if s.rjIter r < 8 then
    let t := { s with rejoin := some (r.startPass s.ns) }
    ((t.setLaneFld (Reg.rjStat r.strand.idx) 23 20 (s.rjIter r + 1)).setRjPhase r.strand 2).showDirty
  else if s.rjForce r.donor && !r.forced then s.arrangeStall { r with forced := true }
  else s.abandonRejoin 0x20

/-- COPY_PASS_END (R138), once the pass has taken its time at `REJOIN_BW` (R29). Between the stall notice and E the unit keeps
copying dirty pages (R139). -/
def execCopyPassEnd (s : State) : Out :=
  .next (match s.rejoin with
    | some r =>
      let ph := s.fld r.donor.unit (Reg.rjStat r.strand.idx) 10 8
      let r' := r.readTo (passSize r.pass)
      let t := State.showDirty { (s.copyPages r.strand r.donor r.target r.pass) with rejoin := some r' }
      if !s.passOver r then s
      else if ph = 1 ∨ ph = 2 then
        if r'.dirty.length ≤ stallPages (t.rjStallMax r.donor) (t.rjBw r.donor) then t.arrangeStall r'
        else t.nextPass r'
      else if ph = 3 then State.showDirty { t with rejoin := some (r'.startPass s.ns) }
      else s
    | none => s)

/-! ### The final stall (R140 to R144) -/

/-- Broadcast writes of a die on its links, by lane. -/
def State.broadcastsTo (s : State) (p : PDie) : Tri Nat :=
  let count := fun (l : Lane) => ((s.vcQueue l (Die.ofPDie p) true .posted).filter fun w => match w with
    | .broadcast _ _ => true
    | _ => false).length
  ⟨count .a, count .b, count .c⟩

/-- The hold reaches a die over the donor's junction link, when that works (R28, R141). -/
def State.holdAt (s : State) (r : RejoinRun) (p : PDie) : State :=
  if (s.lane r.donor).junction.get (Die.ofPDie p) then
    (s.setPort p { s.port p with hold := some r.strand }).stallCopies p r.strand
  else s

/-- REJOIN_HOLD (R141): with both in-step replicas paused, P1 and P2 hold broadcasts into the strand's memory. -/
def execRejoinHold (s : State) : Out :=
  .next (match s.rejoin with
    | some r =>
      if r.stallFrom.isSome && !r.holdSent then
        let owed : Duo (Tri Nat) := ⟨s.broadcastsTo .p1, s.broadcastsTo .p2⟩
        let t := { s with rejoin := some { r with holdSent := true, holdAt := s.ns, owed := owed } }
        (t.holdAt r .p1).holdAt r .p2
      else s
    | none => s)

/-- A broadcast write that a die sent before the hold has not landed in every lane that is not retired. -/
def State.broadcastOwed (s : State) (r : RejoinRun) (p : PDie) : Bool :=
  s.liveLanes.any fun l => decide (0 < (r.owed.get p).get l) && (s.lane l).junction.get (Die.ofPDie p)

/-- The target's share of the donor's Echo state (R142): the agreements, records and counts; what the target's lane
latched and did not publish counts as latched and is not published (R54, R109). -/
def joinEcho (don tgt : Echo) : Echo :=
  let mine := tgt.latched.filter fun x => !(isDuplicate don.record x.occ) ||
    don.agreed.any fun a => a.occs.contains x.occ
  let shared := don.latched.filter fun x => don.agreed.any fun a => a.occs.contains x.occ
  let shared := shared.filter fun x => !(mine.any fun y => y.occ == x.occ) && !x.applied
  let own := mine.map fun x => { x with published := some don.nextAgree, applied := false }
  let theirs := shared.map fun x => { x with published := some don.nextAgree }
  { don with
    latched := own ++ theirs, answers := tgt.answers, claimDue := tgt.claimDue, timedOut := tgt.timedOut, solo := tgt.solo }

/-- Messages that the target's lane holds and the donor's does not yet stay in the order of sending (R71, R73). -/
def State.keepMsgs (s : State) (l : Lane) (k : Strand) (old : Echo) : State :=
  Strand.list.foldl (fun t j => (old.inQ.get j ++ old.inAhead.get j).foldl (fun t m => t.commitMsg l j k m) t) s

/-- The scrub position and the counts of the donor (R142): the target hashed no block that the donor has begun, and publishes
those as void (log entry 118). -/
def joinScrub (x : Scrub) : Scrub :=
  { x with
    busy := x.done.map (fun h => ⟨h.block, h.point, h.tries, true⟩) ++ x.busy.map (fun j => { j with void := true })
    done := [] }

/-- The target's replica as a copy of the donor's (R142). -/
def joinReplica (don : Replica) : Replica :=
  { don with debug := false, load := none, out := [] }

/-- The strand page registers of one lane copied to another (R142). -/
def State.copyPage (s : State) (k : Strand) (src dst : Lane) : State :=
  let file := memCopy (s.regs.get dst.unit) (s.regs.get src.unit) (k.idx * 0x10000) 0x10000
  { s with regs := s.regs.set dst.unit file }

/-- The pages of the pass that the stall ended have been copied as far as they were read. -/
def State.settlePass (s : State) (r : RejoinRun) : State × RejoinRun :=
  let n := s.pagesDue r
  let r' := r.readTo n
  ({ (s.copyPages r.strand r.donor r.target (some ((r.pass.getD []).take n))) with rejoin := some r' }, r')

/-- The final copy: the remaining dirty pages, the replica, the strand page and the Echo unit's state (R142). Its pages take
their time at `REJOIN_BW` as those of a pass do (R29). -/
def State.finalCopy (s : State) (r : RejoinRun) : State :=
  let k := r.strand
  let t := s.copyPages k r.donor r.target (some r.dirty)
  let t := { t with rejoin := some { r.startPass s.ns with copied := true } }
  let t := t.showDirty.copyPage k r.donor r.target
  let t := t.setReplica r.target k { joinReplica (t.replica r.donor k) with mode := .stopped }
  let old := t.echo r.target k
  let t := t.setEcho r.target k (joinEcho (t.echo r.donor k) old)
  let t := t.keepMsgs r.target k old
  let t := t.setScrub r.target k (joinScrub (t.scrub r.donor k))
  let cs := (t.changes.get k).map fun (c : Change) =>
    if c.applied.contains r.donor then { c with applied := r.target :: c.applied } else c
  { t with changes := t.changes.set k cs }

/-- Agreement for the stall boundary is complete in the donor's lane: it is part of what is copied (R142). -/
def State.boundaryAgreed (s : State) (r : RejoinRun) : Bool :=
  (s.echo r.donor r.strand).agreed.any fun a => some a.point == r.boundary

/-- A die that holds can acknowledge to the donor: its link works, and every broadcast sent before the hold has landed (R141). -/
def State.holdDone (s : State) (r : RejoinRun) (p : PDie) : Bool :=
  (s.port p).hold == some r.strand && (s.lane r.donor).junction.get (Die.ofPDie p) && !s.broadcastOwed r p

/-- HOLD_ACK (R141, R142): every broadcast sent before the hold has landed; with both dies' acknowledgements the dirty count
decides. An acknowledgement later than 5 µs from the hold abandons the rejoin. -/
def execHoldAck (p : PDie) (s : State) : Out :=
  .next (match s.rejoin with
    | some r =>
      if r.holdSent && !(r.acked.p1 && r.acked.p2) && decide (r.holdAt + 5000 < s.ns) then s.abandonRejoin 0x22
      else if r.holdSent && !r.acked.get p && s.holdDone r p && (!r.acked.get p.other || s.boundaryAgreed r) then
        let r := { r with acked := r.acked.set p true }
        let t := { s with rejoin := some r }
        if r.acked.p1 && r.acked.p2 then
          let x := t.settlePass r
          let t := x.1
          let r := x.2
          if r.dirty.length ≤ t.stallLimit r then t.finalCopy r
          else
            let t := (t.recordStall r).releaseHolds.resumePaused r.strand
            if r.forced then t.abandonRejoin 0x20 else t.nextPass r
        else t
      else s
    | none => s)

/-- HOLD_TIMEOUT (R141): 5 µs from the hold. -/
def execHoldTimeout (s : State) : Out :=
  .next (match s.rejoin with
    | some r =>
      if r.holdSent && !(r.acked.p1 && r.acked.p2) && decide (r.holdAt + 5000 ≤ s.ns) then s.abandonRejoin 0x22 else s
    | none => s)

/-- STALL_OVER (R144): the stall bound is reached before the join notice. -/
def execStallOver (s : State) : Out :=
  .next (match s.rejoin with
    | some r =>
      if r.stallFrom.any fun t => decide (t + s.stallBoundNs r ≤ s.ns) then s.abandonRejoin 0x21 else s
    | none => s)

/-- The target's read fences are set as the donor's are (R143). -/
def joinFences (fs : List (Strand × Nat × Lane × Word)) (k : Strand) (don tgt : Lane) :
    List (Strand × Nat × Lane × Word) :=
  (fs.filter fun f => !(f.1 == k && f.2.2.1 == tgt)) ++
    (fs.filter fun f => f.1 == k && f.2.2.1 == don).map fun f => (f.1, f.2.1, tgt, f.2.2.2)

/-- One die's voter takes the target in from the donor's next ordinal, with the donor's read fences (R143). -/
def State.joinVoter (s : State) (r : RejoinRun) (d : Die) : State :=
  let k := r.strand
  let j := (s.replica r.donor k).ord.get d
  let v := s.voter d k
  let t := s.setVoter d k { v with join := v.join.set r.target (some j) }
  let t := ((t.setFlag d.unit (Reg.vtStat k.idx) r.target.idx true).showMode d k).showSump d k
  match d with
  | .p1 => t.setPort .p1 { t.port .p1 with fences := joinFences (t.port .p1).fences k r.donor r.target }
  | .p2 => t.setPort .p2 { t.port .p2 with fences := joinFences (t.port .p2).fences k r.donor r.target }
  | _ => t
/-- Strand time of the stall boundary (R146). -/
def State.boundaryTime (s : State) (r : RejoinRun) : Dword :=
  let e := s.echo r.donor r.strand
  match e.agreed.find? fun a => some a.point == r.boundary with
  | some a => a.stime
  | none => e.stime

/-- JOIN_NOTICE (R143), once the final copy has taken its time, and within the bound of the stall (R144): the target joins voters
and Echo units, held writes are released and all three replicas resume at step 2 of E; the completed rejoin is recorded unless it started from DEBUG (R146). -/
def execJoinNotice (s : State) : Out :=
  .next (match s.rejoin with
    | some r =>
      if !r.copied || !s.passOver r then s
      else if r.stallFrom.any fun t => decide (t + s.stallBoundNs r < s.ns) then s.abandonRejoin 0x21
      else
        let k := r.strand
        let tm := s.boundaryTime r
        let t := (s.recordStall r).dies.foldl (fun t d => t.joinVoter r d) (s.recordStall r)
        let t := { t with rejoin := none }
        let t := t.setReplica r.target k { t.replica r.target k with mode := (t.replica r.donor k).mode }
        let t := t.liveLanes.foldl (fun t l =>
          let e := t.echo l k
          t.setEcho l k { e with
            inStep := e.inStep.set r.target true
            pubFirst := e.pubFirst.set r.target (r.boundary.map fun b => b + 1)
            rejoins := if r.fromDebug then e.rejoins else e.rejoins.set r.target (tm :: e.rejoins.get r.target) }) t
        let t := t.latchChangeAll k r.target .joined
        let t := t.setLaneFld (Reg.rjHist k.idx) (17 + 2 * r.target.idx) (16 + 2 * r.target.idx) 0
        let t := (t.setRjResult k (if r.forced then 0x02 else 0x01)).setRjPhase k 0
        let t := t.setReg r.donor.unit (Reg.rjDirty k.idx) 0
        (t.releaseHolds.resumePaused k).showLaneView r.target
    | none => s)

end Sys2Proof.Machine
end

