-- ==== Sys2Proof/Machine/Restart.lean ====
section
/-! DEFINITION. What management commands a lane to do: timing commits (R79 to R81), release and restart of a strand (R125,
R130, R154, R450), debug attach (R150 to R153) and the notices and timeouts that reach a lane (R101, R102, R233). -/

namespace Sys2Proof.Machine

/-! ### Timing commits (R79 to R81) -/

/-- A second GO of a lane, or one after the commit is armed (R19). -/
def State.tcfgGoTwice (s : State) (l : Lane) (k : Strand) : Bool :=
  (s.tcfgLanes k).contains l && match s.tcfg.get k with
    | some c => c.armed || c.go.any fun g => g.1 == l
    | none => false

/-- GO in one lane. -/
def State.tcfgGo (s : State) (l : Lane) (k : Strand) : State :=
  if !(s.tcfgLanes k).contains l then s
  else
    let w := s.reg l.unit (Reg.lnTcfgStg k.idx)
    let c := (s.tcfg.get k).getD ⟨[], s.ns, false, [], none⟩
    if s.tcfgGoTwice l k then s.ignored l.unit (Reg.lnTcfgCommit k.idx) .mgmt
    else
      let go := c.go ++ [(l, w)]
      (({ s with tcfg := s.tcfg.set k (some { c with go := go }) }).showTcfg k true none).tcfgSettle k

/-- TCFG_COMMIT_GO (R79). -/
def execTcfgCommitGo (l : Lane) (k : Strand) (s : State) : Out := .next (if s.mgmtReaches l then s.tcfgGo l k else s)

/-- TCFG_GO_TIMEOUT (R79): when some lane's GO is still missing 10 ms from the first, the first code that applies. -/
def execTcfgGoTimeout (k : Strand) (s : State) : Out :=
  let t := s.tcfgSettle k
  .next (match t.tcfg.get k with
    | some c =>
      if c.armed ∨ t.ns < c.since + 10000000 then t else t.refuseTcfg k ((tcfgCode (t.tcfgVals k c)).getD 3)
    | none => t)

/-- An armed commit takes effect when the strand starts (R81); TCFG is raised in the lanes of the replicas released (R176). -/
def State.tcfgAtStart (s : State) (k : Strand) : State :=
  match s.tcfg.get k with
  | some c =>
    if c.armed then
      let t := (s.tcfgLanes k).foldl (fun t l => t.setPending l k 3) s
      t.tcfgFinish k { c with took := [] } none
    else s
  | none => s

/-! ### Release and restart (R130, R450) -/

/-- A replica released at instruction count 0; one that is not eligible keeps its core stopped, but a replica in DEBUG answers
its debugger again (R151, R153, R159). -/
def freshReplica (eligible : Bool) (old : Replica) : Replica :=
  if eligible then { ResetValue.replica with mode := .running, entry := old.entry }
  else { old with
    mode := if old.debug && old.mode == .stopped then .debugHalted else old.mode
    phase := .run, sqOpen := [], sqEnding := [] }

/-- The Echo unit of a restarted strand: points, epochs, record and latched occurrences are gone; the strand-queue
counts continue. `pops` and `sent` give the agreed pop counts of each destination and the messages committed to it
(R450). -/
def freshEcho (e : Echo) (inStep : Tri Bool) (pops sent : Quad Half) : Echo :=
  { ResetValue.echo with
    inStep := inStep, rejoins := e.rejoins, asideAt := e.asideAt
    inCount := e.inCount, inAgreed := e.inAgreed, popped := e.popped, visible := e.visible, agreedPop := e.agreedPop
    sent := sent, credAgreed := pops, credPop := pops }

/-- Pop counts of the other strands for messages of strand k, as one lane agreed on them. -/
def State.popsFor (s : State) (l : Lane) (k : Strand) : Quad Half :=
  ⟨(s.echo l .s0).agreedPop.get k, (s.echo l .s1).agreedPop.get k, (s.echo l .s2).agreedPop.get k,
   (s.echo l .s3).agreedPop.get k⟩

/-- Messages that strand k has committed to another strand: those that a lane has taken, those that wait there for an earlier one,
and the copies on their way to it. -/
def State.sentTo (s : State) (l : Lane) (k dst : Strand) : Half :=
  (s.echo l dst).inCount.get k + BitVec.ofNat 16 (((s.echo l dst).inAhead.get k).length +
    (s.wires.filter fun w => match w with
      | .sqCopy l' k' dst' _ => l' == l && k' == k && dst' == dst
      | _ => false).length)

def State.sentBy (s : State) (l : Lane) (k : Strand) : Quad Half :=
  ⟨s.sentTo l k .s0, s.sentTo l k .s1, s.sentTo l k .s2, s.sentTo l k .s3⟩

/-- Copies of messages committed to a halted strand that are on their way land before its restart, and count as popped (R450). -/
def State.landCopies (s : State) (k : Strand) : State :=
  s.wires.foldl (fun t w => match w with
    | .sqCopy l j k' m => if k' = k then (t.arrive w).commitMsg l j k m else t
    | _ => t) s

/-- Broadcast writes into the memory of a halted strand that are on their way land before its restart loads that memory (log
entry 130). -/
def State.landBroadcasts (s : State) (k : Strand) : State :=
  Lane.list.foldl (fun t l => PDie.list.foldl (fun t p =>
    (t.vcQueue l (Die.ofPDie p) true .posted).foldl (fun t w => match w with
      | .broadcast _ b => if ownerOf b.addr.toNat = some k then ((t.arrive w).noteLanded p l).landBroadcast l b else t
      | _ => t) t) t) s

/-- The strand page of a lane at its reset values, but for `LN_REPL`, `LN_TCFG` and `LN_SQ_CRED`. -/
def State.freshPage (s : State) (l : Lane) (k : Strand) : State :=
  let repl := s.reg l.unit (Reg.lnRepl k)
  let tcfg := s.reg l.unit (Reg.lnTcfg k)
  let file := memCopy (s.regs.get l.unit) laneRegsReset (k.idx * 0x10000) 0x10000
  let t : State := { s with regs := s.regs.set l.unit file }
  let t := (t.setReg l.unit (Reg.lnRepl k) repl).setReg l.unit (Reg.lnTcfg k) tcfg
  -- STARVED of `EC_STAT` clears when the strand restarts (R60).
  (t.setFlag l.unit (Reg.ecStat k.idx) 2 false).showCredits l k

/-- Messages of the strand's earlier run that are dropped. Occurrences and copies of committed messages still arrive. -/
def oldWire (k : Strand) : Wire → Bool
  | .publication _ _ p => p.strand == k
  | .pairClaim _ c => c.strand == k
  | .lateClaim _ c => c.strand == k
  | .starveClaim _ _ j => j == k
  | .beat _ _ b => b.strand == k
  | .challenge _ _ j _ => j == k
  | .exclusion _ j _ _ => j == k
  | .split _ j _ => j == k
  | .result _ _ j _ _ => j == k
  | _ => false

/-- The eligible replicas (R130): IN_STEP at the halt, lane not retired. -/
def State.eligible (s : State) (k : Strand) : List Lane := s.tcfgLanes k

def triOf (ls : List Lane) : Tri Bool := ⟨ls.contains .a, ls.contains .b, ls.contains .c⟩

/-- The voters of a strand at its start. -/
def State.freshVoter (s : State) (d : Die) (k : Strand) (ls : List Lane) : State :=
  let t := (s.setVoter d k { ResetValue.voter with notices := (s.voter d k).notices }).setFld d.unit (Reg.vtStat k.idx) 4 3 0
  let t := Lane.list.foldl (fun t l => t.setFlag d.unit (Reg.vtStat k.idx) l.idx (ls.contains l)) t
  (t.showMode d k).showSump d k

/-- What an earlier run of the strand sent over a lane's junction links, and the results on their way to it, are gone. -/
def State.dropUp (s : State) (k : Strand) (l : Lane) : State :=
  Die.list.foldl (fun t d =>
    let x := t.jlink l d
    t.setJLink l d { x with
      up := ⟨x.up.posted.filter (fun w => !oldWire k w), x.up.request.filter (fun w => !oldWire k w), x.up.response⟩
      down := { x.down with response := x.down.response.filter fun w => !oldWire k w } }) s

/-- One lane's Echo unit and replica as they start. -/
def State.freshLane (s : State) (k : Strand) (ls : List Lane) (pops sent : Quad Half) (l : Lane) : State :=
  let t := s.setEcho l k (freshEcho (s.echo l k) (triOf ls) pops sent)
  let t := (t.setReplica l k (freshReplica (ls.contains l) (t.replica l k))).dropUp k l
  (t.setScrub l k ResetValue.scrub).freshPage l k

/-- Nothing of an earlier run is left on the other links; the strand counts as released. -/
def State.markReleased (s : State) (k : Strand) : State :=
  { s with
    wires := s.wires.filter fun w => !oldWire k w
    changes := s.changes.set k []
    released := s.released.set k true }

/-- The strand is released at instruction count 0 with some replicas in step (R130 steps 4 and 5). -/
def State.releaseStrand (s : State) (k : Strand) (ls : List Lane) : State :=
  let t := (s.dies.foldl (fun t d => t.freshVoter d k ls) s).landCopies k
  let one := ls.headD .a
  let pops := t.popsFor one k
  let sent := t.sentBy one k
  let t := ((Lane.list.foldl (fun (t : State) l => t.freshLane k ls pops sent l) t).markReleased k).tcfgAtStart k
  Lane.list.foldl State.showLaneView t

/-- Two images have the same hash. -/
def sameHash (x y : List Byte) : Bool := x == y || Config.sha256 x == Config.sha256 y

/-- A strand's section is loaded at the base of its partition; the rest of the partition and the slice are zeroed. -/
def State.loadSection (s : State) (l : Lane) (k : Strand) (image : List Byte) : State :=
  let x := s.lane l
  let mem := memClear (memClear x.mem (k.idx * partitionSize) partitionSize) (sliceBase + k.idx * sliceSize) sliceSize
  s.setLane l { x with
    mem := memWrite mem (k.idx * partitionSize) (image.take partitionSize)
    poison := x.poison.filter fun d => ownerOf d != some k }

/-- What a lane received of an image: the image, unless the command says otherwise. -/
def receivedBy (image : List Byte) (received : Tri (Option (List Byte))) (l : Lane) : List Byte :=
  (received.get l).getD image

/-- A restart of a strand (R130). -/
def State.restart (s : State) (k : Strand) (image : List Byte) (received : Tri (Option (List Byte))) : State :=
  let ls := s.eligible k
  if !s.halted k then s.setRjResult k 0x31
  else if ls.length < 2 then s.setRjResult k 0x32
  else
    let t := ls.foldl (fun (t : State) l => t.loadSection l k (receivedBy image received l)) (s.landBroadcasts k)
    let same := ls.all fun l => sameHash (receivedBy image received l) (receivedBy image received (ls.headD .a))
    if !same then t.setRjResult k 0x33
    else
      let t := (t.releaseStrand k ls).resetChansOf k
      let t := (t.mbRestart k).setCeil k 8 false
      let t := (Strand.list.filter fun j => j != k).foldl (fun t j => t.raise .m j 214) t
      t.setRjResult k 0x30

/-- RESTART (R130). -/
def execRestart (k : Strand) (image : List Byte) (received : Tri (Option (List Byte))) (s : State) : Out :=
  .next (if s.mgmtCommands then s.restart k image received else s)

/-! ### Debug attach (R150 to R153) -/

/-- The first condition of R150 that fails, in the order of its list. -/
def State.attachRefusal (s : State) (k : Strand) (x : Lane) : Option Nat :=
  if !s.flag x.unit Reg.rjDbg 8 then some 1
  else if !(s.debugAuth && s.mOn) then some 2
  else if !(s.released.get k && !s.halted k && decide ((s.inStepAt s.viewLane k).length = 3)) then some 3
  else if s.rejoinBusy k then some 4
  else none

/-- A replica in DEBUG: its accesses are dropped, a read it waits for is answered locally (R151). The messages of an epoch whose
boundary it has published stay, for its lane's Echo unit to commit them (R71). -/
def State.enterDebug (s : State) (x : Lane) (k : Strand) : State :=
  let r := s.replica x k
  let t := s.setReplica x k { r with debug := true, out := [], phase := .run, sqOpen := [] }
  match r.load with
  | some p => t.finishLoad x k (patternBytes debugPattern p.addr p.size)
  | none => t

/-- The debug history (R152, R392): HIST in every lane, and the record of the first accepted attach. -/
def State.recordAttach (s : State) (x : Lane) : State :=
  let t := s.liveLanes.foldl (fun t l => t.setFlag l.unit Reg.rjDbg 9 true) s
  let t := if t.recs.hist.isSome then t
    else t.writeRecs { t.recs with histFlag := true, hist := some (t.logTime.1, x.idx) }
  t.setFlag .m Reg.mgStat 26 true

/-- A notice that the lanes forward to the dies reaches a die: some lane that is not retired has a working junction link to it
(R28, R101). -/
def State.dieHears (s : State) (d : Die) : Bool := s.liveLanes.any fun l => (s.lane l).junction.get d

/-- An accepted attach: the Echo units forward the debug notice to the voters over their junction links (R151). -/
def State.attach (s : State) (k : Strand) (x : Lane) : State :=
  let t := s.enterDebug x k
  let t := (t.dies.filter t.dieHears).foldl (fun t d => t.voterNotice d k x) t
  let t := t.latchChangeAll k x .debug
  let t := t.liveLanes.foldl (fun (t : State) l =>
    t.setEcho l k { t.echo l k with inStep := (t.echo l k).inStep.set x false }) t
  let t := (t.tcfgSettle k).agreeAgain
  (t.recordAttach x).logEv x.idx (some k) .dbgAttach [x.idx]

/-- DEBUG_ATTACH (R150, R151). -/
def execDebugAttach (k : Strand) (repl : Lane) (s : State) : Out :=
  .next (match s.attachRefusal k repl with
    | some c => s.logEv repl.idx (some k) .dbgRefused [c]
    | none => s.attach k repl)

/-- DBG_EN_CHANGE (R429): shown in `RJ_DBG` and `MG_DBG`. Debug access lasts while it is asserted (R153). -/
def execDbgEnChange (on : Bool) (s : State) : Out :=
  let t := Lane.list.foldl (fun t l => t.setFlag l.unit Reg.rjDbg 8 on) s
  .next (t.setFlag .m Reg.mgDbg 30 on)

/-! ### `RJ_CMD` -/

/-- A write of `RJ_CMD` by management; `image'` is the strand's section of the running lane image. -/
def State.rjCmd (s : State) (u : RUnit) (v : Word) (image' : Strand → List Byte) : State :=
  let op := fieldOf v 3 0
  let k := Strand.ofIdx (fieldOf v 5 4)
  if op = 0 then s
  else if op = 1 then
    match Lane.ofIdx (fieldOf v 7 6) with
    | some x => s.requestRejoin k x
    | none => s.ignored u Reg.rjCmd .mgmt
  else if op = 2 then s.abandonCmd k
  else if op = 3 then s.restart k (image' k) (Tri.all none)
  else s.ignored u Reg.rjCmd .mgmt

/-! ### Notices and timeouts -/

/-- EXCLUSION_NOTICE_RECEIVE (R101). -/
def execExclusionNoticeReceive (l : Lane) (k : Strand) (repl : Lane) (c : Cause) (s : State) : Out :=
  .next (((s.arrive (.exclusion l k repl c)).excludeAt l k repl c).tryAgree agreeDepth l k)

/-- SPLIT_NOTICE_RECEIVE (R102). -/
def execSplitNoticeReceive (l : Lane) (k : Strand) (c : Cause) (s : State) : Out :=
  .next ((s.arrive (.split l k c)).haltAt l k c none)

/-- NETWORK_TIME_TIMEOUT (R233): no value came from a die for 10 µs. -/
def execNetworkTimeTimeout (l : Lane) (p : PDie) (s : State) : Out :=
  let x := s.lane l
  let v := x.net.get p
  .next (if v.stat ≠ 3 ∧ v.seen + 10000 ≤ s.ns then s.setLane l { x with net := x.net.set p { v with stat := 2 } } else s)

end Sys2Proof.Machine
end

