-- ==== Sys2Proof/Machine/Flash.lean ====
section
/-! DEFINITION. What the two flash devices hold (R396): packages, configuration images (R382) and lane images (R381), the
slot a component runs from, and the boot check (R401, R402). -/

namespace Sys2Proof.Machine

/-! ### Packages (R396) -/

/-- An entry of the component table. -/
structure CompEntry where
  type : Nat
  fmt : Nat
  /-- Bytes 2, 3 and 12 to 15, which are 0. -/
  zeros : Nat
  off : Nat
  len : Nat
  hash : BitVec 256
deriving DecidableEq, Repr

def pkgNcomp (h : List Byte) : Nat := leAt h 6 2
def pkgId (h : List Byte) : Word := BitVec.ofNat 32 (leAt h 8 4)
def pkgVer (h : List Byte) : Word := BitVec.ofNat 32 (leAt h 12 4)
def pkgSecVer (h : List Byte) : Nat := leAt h 16 2
def pkgVariants (h : List Byte) : Byte := byteAt h 18
def pkgKeySlot (h : List Byte) : Nat := (byteAt h 19).toNat
def pkgTotal (h : List Byte) : Nat := leAt h 20 4
def pkgKey (h : List Byte) : List Byte := slice h 24 64
def pkgSigned (h : List Byte) : List Byte := slice h 0 (128 + 48 * pkgNcomp h)
def pkgSig (h : List Byte) : List Byte := slice h (128 + 48 * pkgNcomp h) 64
/-- Header, component table and signature: what each slot keeps a copy of. -/
def pkgHeadLen (h : List Byte) : Nat := 128 + 48 * pkgNcomp h + 64

/-- The entry at a place of the table. -/
def compAt (h : List Byte) (i : Nat) : CompEntry :=
  let o := 128 + 48 * i
  ⟨(byteAt h o).toNat, (byteAt h (o + 1)).toNat, leAt h (o + 2) 2 + leAt h (o + 12) 4, leAt h (o + 4) 4, leAt h (o + 8) 4,
   BitVec.ofNat 256 (beNat (slice h (o + 16) 32))⟩

def pkgComps (h : List Byte) : List CompEntry := (List.range (min 5 (pkgNcomp h))).map (compAt h)

/-- The entry of a TYPE, 1 to 5. -/
def compOf (h : List Byte) (type : Nat) : Option CompEntry := (pkgComps h).find? fun e => e.type == type

/-- The header is well formed. -/
def pkgHeadOk (h : List Byte) : Bool :=
  let types := (pkgComps h).map CompEntry.type
  slice h 0 4 == [0x4B, 0x57, 0x55, 0x50] && leAt h 4 2 == 1 && decide (1 ≤ pkgNcomp h) && decide (pkgNcomp h ≤ 5) &&
    ((pkgComps h).all fun e => decide (1 ≤ e.type) && decide (e.type ≤ 5) && e.zeros == 0) && decide types.Nodup && (slice h 88 40).all fun b => b == 0

/-- Largest component (R396). -/
def compMax (type : Nat) : Nat :=
  if type = 1 then 0x7FF000 else if type = 2 then 0x1FF000 else if type = 3 then 0x3FF000 else if type = 4 then 0xFFF000
  else 0x8000000

/-! ### Slots -/

def emptySlot : FlashSlot := ⟨[], []⟩

/-- A slot of a component, by its number (TYPE − 1); `true` names slot B. -/
def State.flashSlot (s : State) (i : Nat) (second : Bool) : FlashSlot :=
  ((if second then s.mgmt.slotB else s.mgmt.slotA)[i]?).getD emptySlot

def State.setFlashSlot (s : State) (i : Nat) (second : Bool) (x : FlashSlot) : State :=
  { s with mgmt := if second then { s.mgmt with slotB := s.mgmt.slotB.set i x }
                   else { s.mgmt with slotA := s.mgmt.slotA.set i x } }

/-- The slot a component runs from: its other slot while it is on TRIAL, its active slot otherwise. -/
def runsFromB (b : BootRec) (i : Nat) : Bool := b.active.getLsbD i != b.trial.getLsbD i

def State.running (s : State) (i : Nat) : FlashSlot := s.flashSlot i (runsFromB s.boot i)
/-- The other slot. -/
def State.idleSlot (s : State) (i : Nat) : FlashSlot := s.flashSlot i (!runsFromB s.boot i)

/-- The slot that holds a component's TRIAL or staged content: the one that is not active. -/
def State.inactive (s : State) (i : Nat) : FlashSlot := s.flashSlot i (!s.boot.active.getLsbD i)

/-- The header of a package by a component of it. -/
def State.trialHead (s : State) (trial : BitVec 5) : List Byte :=
  match (List.range 5).find? fun i => trial.getLsbD i with
  | some i => (s.inactive i).head
  | none => []

/-! ### Configuration images and Gallery tables (R382) -/

structure CfgRecord where
  target : Nat
  op : Nat
  /-- Bytes 2 and 3, which are 0. -/
  zeros : Nat
  /-- Byte 4, which an SVC_IP record uses alone. -/
  byte4 : Byte
  off : Nat
  value : Word
deriving DecidableEq, Repr

def cfgCount (bs : List Byte) : Nat := leAt bs 4 4
def cfgUnits (bs : List Byte) : Byte := byteAt bs 8

def cfgRecord (bs : List Byte) (i : Nat) : CfgRecord :=
  let o := 16 + 12 * i
  ⟨(byteAt bs o).toNat, (byteAt bs (o + 1)).toNat, leAt bs (o + 2) 2, byteAt bs (o + 4), leAt bs (o + 4) 4, BitVec.ofNat 32 (leAt bs (o + 8) 4)⟩

/-- The image holds the records it counts. -/
def cfgLengthOk (bs : List Byte) : Bool := decide (16 ≤ bs.length) && decide (16 + 12 * cfgCount bs ≤ bs.length)

def cfgRecords (bs : List Byte) : List CfgRecord :=
  if cfgLengthOk bs then (List.range (cfgCount bs)).map (cfgRecord bs) else []

def cfgRecordOk (r : CfgRecord) : Bool := decide (r.target ≤ 4) && decide (1 ≤ r.op) && decide (r.op ≤ 3) && r.zeros == 0

/-- What refuses an image before any record is applied: FORMAT or ABSENT_UNIT (R4, R382). -/
def State.cfgRefusal (s : State) (bs : List Byte) : Option Nat :=
  if slice bs 0 4 ≠ [0x4B, 0x43, 0x46, 0x47] ∨ cfgLengthOk bs = false ∨ (cfgRecords bs).all cfgRecordOk = false then some 0x01
  else if bitOf (cfgUnits bs) 3 && !s.fFitted || bitOf (cfgUnits bs) 4 && !s.canFitted then some 0x07
  else none

/-! ### Lane images (R381) -/

/-- The section of a strand in a lane image, and its ENTRY. -/
def imageSection (bs : List Byte) (k : Strand) : List Byte :=
  slice bs (leAt bs (16 + 12 * k.idx) 4) (leAt bs (20 + 12 * k.idx) 4)
def imageEntry (bs : List Byte) (k : Strand) : Nat := leAt bs (24 + 12 * k.idx) 4

/-- The section of the running lane image. -/
def State.laneSection (s : State) (k : Strand) : List Byte := imageSection (s.running 4).body k

/-! ### The boot check (R401, R402) -/

/-- The bit of VARIANTS for the order code. -/
def Variant.bit : Variant → Nat
  | .kw3120 => 0
  | .kw3111 => 1
  | .kw3101 => 2

def noKey : OtpKey := ⟨0, false, false, false, true⟩
def State.otpKey (s : State) (n : Nat) : OtpKey := if n < 4 then (s.mgmt.keys[n]?).getD noKey else noKey

/-- The reason for which a component fails the boot check: the first row of R402 that applies. The hash of the lane image
is left to the lanes (R380). -/
def State.bootReason (s : State) (x : FlashSlot) (type : Nat) : Option Nat :=
  let key := s.otpKey (pkgKeySlot x.head)
  match compOf x.head type with
  | none => some 0x01
  | some e =>
    if pkgHeadOk x.head = false ∨ e.len ≠ x.body.length ∨ compMax type < e.len then some 0x01
    else if key.revoked ∨ key.update = false ∨ Config.sha256 (pkgKey x.head) ≠ key.hash then some 0x02
    else if Config.signatureOk (pkgKey x.head) (pkgSigned x.head) (pkgSig x.head) = false then some 0x03
    else if type ≠ 5 ∧ Config.sha256 x.body ≠ e.hash then some 0x04
    else if (pkgVariants x.head).getLsbD (Variant.bit s.variant) = false then some 0x05
    else if pkgSecVer x.head < s.recs.secMin.toNat then some 0x06
    else if type = 3 ∨ type = 4 then s.cfgRefusal x.body
    else none

end Sys2Proof.Machine
end

