-- ==== Sys2Proof/Machine/Update.lean ====
section
/-! DEFINITION. The life of an update after staging (R399, R400, R404): cancellation by software, confirmation and successful
boots (R390). -/

namespace Sys2Proof.Machine

/-- The time that an activation is compared with: P1's while its TSTAT is 0 or 1, otherwise P2's (R400). -/
def State.updClock (s : State) : Option Dword :=
  match PDie.list.find? fun p => (s.consumer (Die.ofPDie p)).running && decide (s.fld p.unit Reg.tbStat 19 18 ≤ 1) with
  | some p => some (s.port p).net.time
  | none => none

/-- The activation time. -/
def State.updTime (s : State) : Dword := s.reg64 .m Reg.mgUpdTLo

/-- 100 ms, the last moment for a VETO before T. -/
def vetoNs : Nat := 100000000

/-- VETO: cancels an armed activation until 100 ms before T. -/
def State.vetoUpdate (s : State) : State :=
  let early := match s.updClock with
    | some t => decide (t.toNat + vetoNs ≤ s.updTime.toNat)
    | none => true
  if early then s.cancelUpdate 0x10 else s

/-- The migration freeze ends (R390). -/
def State.endFreeze (s : State) : State := { s with mgmt := { s.mgmt with frozen := none } }

/-- An UNCONFIRMED package becomes confirmed (R404). -/
def State.confirmUpdate (s : State) : State :=
  if s.updState ≠ updUnconfirmed then s
  else
    let b := s.boot
    let sec := max s.recs.secMin.toNat (pkgSecVer (s.trialHead b.trial))
    let t := s.endFreeze
    let t := t.writeRecs { t.recs with
      secMin := BitVec.ofNat 16 sec
      boot := { b with active := b.active ^^^ b.trial, trial := 0, unconfirmed := false } }
    ((t.setUpd updNone).setFld .m Reg.mgSec 15 0 sec).showBoot.logEv 6 none .updConfirmed []

/-- A write of `MG_UPD_CTL` by a strand. -/
def State.updCtlWrite (s : State) (v : Word) : State :=
  let t := if bitOf v 0 then s.vetoUpdate else s
  if bitOf v 1 then t.confirmUpdate else t

def State.updCtl (s : State) (k : Strand) (v : Word) : State :=
  if fieldOf v 31 2 ≠ 0 then s.logRsvd .m Reg.mgUpdCtl (.strand k) else s.updCtlWrite v

/-- VETO (R399). -/
def execVeto (k : Strand) (s : State) : Out := .next (s.atM (.strand k) (s.updCtl k 1))

/-- CONFIRM (R404). -/
def execConfirm (k : Strand) (s : State) : Out := .next (s.atM (.strand k) (s.updCtl k 2))

/-- BOOT of `MG_STAT`: phases of R379. -/
def State.bootPhase (s : State) : Nat := s.fld .m Reg.mgStat 31 29
def bootRom : Nat := 0
def bootPowering : Nat := 1
def bootLoading : Nat := 2
def bootReleased : Nat := 3
def bootHalt : Nat := 4

/-- SUCCESSFUL_BOOT (R390, R404): 60 s after release with no strand halted and M not restarted. A boot counts once, in BOOTS, which
goes up to 3; with the third a package is confirmed and a freeze ends. -/
def execSuccessfulBoot (s : State) : Out :=
  .next (if s.bootPhase = bootReleased ∧ s.mgmt.disturbed = false ∧ s.mOn = true ∧
      s.mgmt.releasedAt + 60000000000 ≤ s.ns then
    let t : State := { s with mgmt := { s.mgmt with disturbed := true } }
    let n := t.boot.boots + 1
    if 3 < n then t
    else
      let t := (t.writeBoot { t.boot with boots := n }).showBoot
      if n = 3 then State.showBoot (State.endFreeze t.confirmUpdate) else t
  else s)

end Sys2Proof.Machine
end

