-- ==== Sys2Proof/Machine/Device.lean ====
section
/-! DEFINITION. Reads and writes of registers as they take effect at the block that holds them (R10 to R19, R94, R165, R445,
R446): who may write each register, what a write starts, and what a read returns and removes. -/

namespace Sys2Proof.Machine

def unitPort : RUnit → Option PDie
  | .p1 => some .p1
  | .p2 => some .p2
  | _ => none
def unitLane : RUnit → Option Lane
  | .la => some .a
  | .lb => some .b
  | .lc => some .c
  | _ => none

/-- An access that reaches no register (R165). DESIGN CHOICE (log entry 121): an access that touches several words is logged once for
each of them, with the word's offset. -/
def State.unmapped (s : State) (m : Master) (u : RUnit) (off : Nat) : State :=
  s.logEv (RUnit.logSrc u) (masterStrand m) .unmapped [off]

/-! ### Who may write -/

/-- The master may write a register, by the rule of its block. -/
def State.mayWrite (s : State) (m : Master) (u : RUnit) (off : Nat) (d : RegDesc) (is : List Nat) : Bool :=
  let i := is.headD 0
  match d.writer, unitPort u with
  | .mgmt, _ => m == .mgmt
  | .mgmtBeforeStrand, _ => m == .mgmt && !s.released.get (Strand.ofIdx i)
  | .mgmtBeforeFirst, _ => m == .mgmt && !s.anyReleased
  | .strands, _ => (masterStrand m).isSome
  | .anyStrand, _ => (masterStrand m).isSome
  | .ownStrand, _ => m == .strand (Strand.ofIdx i)
  | .nobody, _ => false
  | .trigger, some p => s.unitWriter m p off
  | .capture, some p => s.unitWriter m p off
  | .dma, some p => s.chanWriter m p i
  | .can, some p => s.canWriter m p (decide (i = 1))
  | .lease, some p => m == .strand (s.lsOwner p)
  | .mailbox, _ => true
  | .anyMaster, _ => true
  | _, _ => false

/-- A staged register of a block whose commit is busy (R19). A guardian's staged copies are locked with the controller's commit
of the same channel, from its GO on (log entry 85). -/
def State.stagedBusy (s : State) (u : RUnit) (off : Nat) (d : RegDesc) (is : List Nat) : Bool :=
  (d.fields.any fun f => f.acc == .stg) &&
    match unitPort u with
    | some p =>
      if off < 0x2000000 then s.commitBusy u Reg.ttCommit
      else if off < 0x4000000 then (s.port p).guard.commit.isSome || s.commitBusy (p.other).unit Reg.ttCommit
      else s.commitBusy u Reg.gwCommit
    | none => if u = .f then s.commitBusy .f Reg.fdCommit else s.flag u (Reg.lnTcfgCommit (is.headD 0)) 1

/-! ### Writes that start an action -/

/-- A value with the fields of a word that a narrow write leaves out taken from the register. -/
def State.merged (s : State) (u : RUnit) (off : Nat) (keep mask data : Word) : Word :=
  (data &&& mask) ||| (s.reg u off &&& keep &&& ~~~mask)

/-- Port die registers whose write starts an action; `none` for every other. -/
def State.portAct (s : State) (m : Master) (p : PDie) (off : Nat) (d : RegDesc) (is : List Nat) (mask data : Word) :
    Option State :=
  let u := p.unit
  let w := data &&& mask
  let i := is.headD 0
  match d.id with
  | .ttCommit => some (if bitOf w 0 then s.ttGo p else s)
  | .gwCommit => some (if bitOf w 0 then s.gwGo p else s)
  | .ttModeReq => some (s.modeReqWrite p w)
  | .gdCtl => some (if bitOf w 0 then s.guardUnlatch p else s)
  | .dmCtl => some (s.dmCtlWrite m p i (s.merged u off 1 mask data))
  | .dmDb => some (s.doorbell m p i w)
  | .dmQuiesce => some (s.quiesceWrite m p (s.merged u off 7 mask data))
  | .gwSwPub => (masterStrand m).map fun k => s.swPub k p w
  | .gwRrReqLo => some (s.holdLow u off w)
  | .gwRrReqHi => (masterStrand m).map fun k =>
      let lo := s.heldOr u (off - 4) 0
      let t : State := { s with heldLo := s.heldLo.filter fun h => !(h.1 == u && h.2.1 == off - 4) }
      t.rrAsk p k lo w
  | .gwRrFree => (masterStrand m).map fun k => s.rrFree p k w
  | .cnCtl => some (s.canCtlWrite m p (decide (i = 1)) (s.merged u off 3 mask data))
  | .lsCmd => (masterStrand m).map fun k => s.lsCmd p k (fieldOf w 1 0)
  | _ => none

/-- Management registers whose write starts an action. -/
def State.mgmtAct (s : State) (m : Master) (d : RegDesc) (is : List Nat) (mask data : Word) : Option State :=
  let w := data &&& mask
  let i := is.headD 0
  match d.id with
  | .smLock => some (s.lockWrite m i mask data)
  | .smForce => some (s.lockForce m w)
  | .dsCeil => some (if mask &&& 0xF = 0 then s else s.ceilTake (Strand.ofIdx i) (ceilOf (s.merged .m (Reg.dsCeil i) 0xF mask data)))
  | .dsPlan => (Lane.ofIdx i).map fun l =>
    if mask &&& 0xF = 0 then s else s.planWrite l (s.merged .m (Reg.dsPlan i) 0xF mask data)
  | .mgUpdCtl => (masterStrand m).map fun k => s.updCtl k w
  | _ => none

/-- Lane-common registers whose write starts an action. -/
def State.laneAct (s : State) (l : Lane) (d : RegDesc) (is : List Nat) (mask data : Word) : Option State :=
  let w := data &&& mask
  match d.id with
  | .lnTcfgCommit => some (if bitOf w 0 then s.tcfgGo l (Strand.ofIdx (is.headD 0)) else s)
  | .rjCmd => some (s.rjCmd l.unit w s.laneSection)
  | _ => none

/-- Field registers whose write starts an action. A released `FD_DO_CMD` does nothing more: each lane's beat acted when it
arrived (R331). -/
def State.fieldAct (s : State) (m : Master) (d : RegDesc) (mask data : Word) : Option State :=
  let w := data &&& mask
  match d.id with
  | .fdCommit => some (if bitOf w 0 then s.fdGo else s)
  | .fdDoCmd => some s
  | .fdDoClr => (masterStrand m).map fun k => s.clearFaults k w
  | _ => none

def State.writeAct (s : State) (m : Master) (u : RUnit) (off : Nat) (d : RegDesc) (is : List Nat) (mask data : Word) :
    Option State :=
  match u with
  | .p1 => s.portAct m .p1 off d is mask data
  | .p2 => s.portAct m .p2 off d is mask data
  | .f => s.fieldAct m d mask data
  | .m => s.mgmtAct m d is mask data
  | .la => s.laneAct .a d is mask data
  | .lb => s.laneAct .b d is mask data
  | .lc => s.laneAct .c d is mask data

/-- A write that the state of the unit forbids (R267, R268, R310): what it does instead. -/
def State.lockedWrite (s : State) (m : Master) (u : RUnit) (off : Nat) (d : RegDesc) (is : List Nat) : Option State :=
  match unitPort u with
  | none => none
  | some p =>
    let i := is.headD 0
    let locked := if s.chState p i = .off then none else some (s.logP p .dmLocked [i, m.number])
    match d.id with
    | .dmBaseLo => locked
    | .dmBaseHi => locked
    | .dmRcfg => locked
    | .dmOwn => if s.chState p i = .off then none else some (s.ignored u off m)
    | .cnNbt => if s.canMode p (decide (i = 1)) = .init then none else some (s.ignored u off m)
    | .cnDbt => if s.canMode p (decide (i = 1)) = .init then none else some (s.ignored u off m)
    | _ => none

/-- The part of the management window that holds the mailboxes. -/
def isMailbox (u : RUnit) (off : Nat) : Bool := u == .m && decide (0x2000000 ≤ off) && decide (off < 0x2000C00)

/-! ### Reads -/

/-- Minutes of the debug authorisation that remain. -/
def State.dbgMinutes (s : State) : Nat :=
  if s.debugAuth then min 480 ((s.mgmt.dbgUntil - s.ns + 59999999999) / 60000000000) else 0

/-- A read of one word of a port die. -/
def State.portRead (s : State) (m : Master) (p : PDie) (off : Nat) (d : RegDesc) (is : List Nat) : State × Word :=
  let u := p.unit
  let i := is.headD 0
  let q : Port := if i = 0 then .west else .east
  let plain := s.plainRead u off d
  let mine := m == .mgmt || m == .strand (Strand.ofIdx i)
  match d.id with
  | .tbTimeLo => (s, loWord (s.port p).net.time)
  | .tbTimeHi => (s, hiWord (s.port p).net.time)
  | .pdTsqPop => s.tsqPop m p q
  | .ttCommit => (plain.1, withBit plain.2 0 (s.commitBusy u off))
  | .gwCommit => (plain.1, withBit plain.2 0 (s.commitBusy u off))
  | .gwRrHdr => (s, if mine then s.rrHeader p (Strand.ofIdx i) else 0)
  | .gwRrData => (s, if mine then s.rrWord p (Strand.ofIdx i) ((is[1]?).getD 0) else 0)
  | .gwRrSel => if mine then plain else (s, 0)
  | .gwRrStat => if mine then plain else (s, 0)
  | .gwSwData => (s, 0)
  | _ => plain

/-- A read of one word of the field die: each strand reads its own change-of-state queue (R328). -/
def State.fieldRead (s : State) (m : Master) (off : Nat) (d : RegDesc) : State × Word :=
  let plain := s.plainRead .f off d
  match d.id, m with
  | .fdCommit, _ => (plain.1, withBit plain.2 0 (s.commitBusy .f off))
  | .fdCosPop, .strand k => s.cosPop k
  | .fdCosPop, _ => (s, 0)
  | .fdCosTimeLo, .strand k => (s, loWord (s.field.cosTime.get k))
  | .fdCosTimeLo, _ => (s, 0)
  | .fdCosTimeHi, .strand k => (s, hiWord (s.field.cosTime.get k))
  | .fdCosTimeHi, _ => (s, 0)
  | .fdCosOvf, .strand k => s.cosOverflow k
  | .fdCosOvf, _ => (s, 0)
  | _, _ => plain


/-- VIN of `MG_BOARD` as measured every 1 ms; the value itself is free, and stands until the next measurement (R432). -/
def State.measureVin (s : State) : State :=
  if s.mgmt.vinAt + 1000000 ≤ s.ns then
    State.useFree { s.setFld .m Reg.mgBoard 23 16 (s.freeVal.toNat % 256) with
      mgmt := { s.mgmt with vinAt := s.ns - s.ns % 1000000 } }
  else s

/-- A read of one word of management's window. VIN is measured outside the module (log entry 6). -/
def State.mgmtRead (s : State) (m : Master) (off : Nat) (d : RegDesc) (is : List Nat) : State × Word :=
  let plain := s.plainRead .m off d
  let i := is.headD 0
  match d.id with
  | .smLock => (s.lockRead i m.number, s.lockAnswer i m.number)
  | .smPeek => (s, BitVec.ofNat 32 (s.lockOwner i))
  | .mgCaps => (s, s.capsWord)
  | .mgDbg => (s, withField (s.reg .m off) 8 0 s.dbgMinutes)
  | .mgBoard => s.measureVin.plainRead .m off d
  | _ => plain

/-- The write-error block of a consumer die (R320, R321). -/
def State.werrRead (s : State) (m : Master) (dd : Die) (off : Nat) (d : RegDesc) (is : List Nat) : State × Word :=
  let q := is.headD 0
  match d.id with
  | .pdWerrPop => s.werrPop m dd q
  | .pdWerrAddrLo => (s, s.werrAddr m dd q false)
  | .pdWerrAddrHi => (s, s.werrAddr m dd q true)
  | _ => if m == .mgmt || m == .strand (Strand.ofIdx q) && decide (q < 4) then s.plainRead dd.unit off d else (s, 0)

/-- Pages now dirty in the tracker of a donor's lane: the marks of pages that the running pass has read by now are cleared (R136,
R154). -/
def State.dirtyNow (s : State) (l : Lane) (k : Strand) : Option Nat :=
  match s.rejoin with
  | some r => if r.donor = l ∧ r.strand = k then some (r.readTo (s.pagesDue r)).dirty.length else none
  | none => none

/-- A read of one word of a lane over its sideband (R87). -/
def State.laneRead (s : State) (l : Lane) (off : Nat) (d : RegDesc) (is : List Nat) : State × Word :=
  let plain := s.plainRead l.unit off d
  let k := Strand.ofIdx (is.headD 0)
  match d.id with
  | .lnTcfgCommit => (plain.1, withBit plain.2 0 (s.flag l.unit (Reg.lnTcfgCommit k.idx) 1))
  | .rjDirty => match s.dirtyNow l k with
    | some n => (s, BitVec.ofNat 32 n)
    | none => plain
  | _ => plain

/-- A read of one word. -/
def State.readWord (s : State) (m : Master) (u : RUnit) (off : Nat) : State × Word :=
  if s.unitAbsent u off then (s, absentPattern)
  else match regAt u off with
    | none => (s.unmapped m u off, 0)
    | some (d, is) =>
      if isMailbox u off then
        (s, s.mbRead m ((off - 0x2000000) / 256) (decide (128 ≤ off % 256)) (off % 128))
      else match unitLane u, unitDie u with
        | some l, _ => s.laneRead l off d is
        | none, some dd =>
          if 0x2000 ≤ off ∧ off < 0x2050 then s.werrRead m dd off d is
          else match unitPort u with
            | some p => s.portRead m p off d is
            | none => if u = .f then s.fieldRead m off d else s.mgmtRead m off d is
        | none, none => s.plainRead u off d

/-! ### Writes -/

/-- A GO while the commit is busy: the whole write is ignored and logged (R19). A timing commit takes one GO from each lane
(R79). -/
def State.goRefused (s : State) (u : RUnit) (off : Nat) (d : RegDesc) (is : List Nat) (w : Word) : Bool :=
  bitOf w 0 && match d.id, unitLane u with
    | .lnTcfgCommit, some l => s.tcfgGoTwice l (Strand.ofIdx (is.headD 0))
    | .ttCommit, _ => s.commitBusy u off
    | .gwCommit, _ => s.commitBusy u off
    | .fdCommit, _ => s.commitBusy u off
    | _, _ => false

/-- A write of the enabled bits of one word. -/
def State.writeWord (s : State) (m : Master) (u : RUnit) (off : Nat) (mask data : Word) (wide : Bool) : State :=
  match regAt u off with
  | none => s.unmapped m u off
  | some (d, is) =>
    if isMailbox u off then
      s.mbWrite m ((off - 0x2000000) / 256) (decide (128 ≤ off % 256)) (off % 128) mask data
    else if !s.mayWrite m u off d is then s.ignored u off m
    else if s.stagedBusy u off d is then s.ignored u off m
    else if data &&& mask &&& reservedBits d is != 0 then s.logRsvd u off m
    else if s.goRefused u off d is (data &&& mask) then s.ignored u off m
    else match s.lockedWrite m u off d is with
      | some t => t
      | none =>
        let t := if differsRo d (s.readWord m u off).2 mask data then s.ignored u off m else s
        match t.writeAct m u off d is mask data with
        | some r => r
        | none => t.plainWrite u off d mask data wide

/-- A word of a write that reaches its register sets a reserved bit there. -/
def State.wordRsvd (s : State) (m : Master) (u : RUnit) (w : Nat × Word × Word) : Bool :=
  match regAt u w.1 with
  | none => false
  | some (d, is) =>
    (if isMailbox u w.1 then mbOwns m ((w.1 - 0x2000000) / 256) (decide (128 ≤ w.1 % 256))
      else s.mayWrite m u w.1 d is && !s.stagedBusy u w.1 d is) &&
      (w.2.2 &&& w.2.1 &&& reservedBits d is != 0)

/-- Every word of a write, or none of them when one sets a reserved bit (R11, R14). -/
def State.writeWords (s : State) (m : Master) (u : RUnit) (ws : List (Nat × Word × Word)) (wide : Bool) : State :=
  match ws.find? (s.wordRsvd m u) with
  | some w => s.logRsvd u w.1 m
  | none => ws.foldl (fun t w => t.writeWord m u w.1 w.2.1 w.2.2 wide) s

/-- The register block of triggers and captures. -/
def isUnitBlock (d : RegDesc) : Bool := d.writer == .trigger || d.writer == .capture

/-- The words of an access that lie in a unit that is present. -/
def State.presentWords (s : State) (u : RUnit) (off size : Nat) (data : Dword) : List (Nat × Word × Word) :=
  (wordsOf off size data).filter fun w => !s.unitAbsent u w.1

/-- A write of up to 8 bytes at an offset of a unit. What it would write to an absent unit is ignored (R6). -/
def State.unitStore (s : State) (m : Master) (u : RUnit) (off size : Nat) (data : Dword) : State :=
  let block := match regAt u (off / 4 * 4) with
    | some (d, _) => isUnitBlock d
    | none => false
  match unitPort u, (masterStrand m) with
  | some p, k =>
    if block then s.unitWriteAll m p off size data
    else if decide (Reg.gwSwData 0 ≤ off) && decide (off < 0x6800000) then
      match k with
      | some k => s.swDataWrite k p off size data
      | none => s.ignored u off m
    else s.writeWords m u (s.presentWords u off size data) (decide (size = 8))
  | none, _ => s.writeWords m u (s.presentWords u off size data) (decide (size = 8))

/-- A released beat's write at its die. -/
def State.beatStore (s : State) (d : Die) (b : Beat) : State :=
  let i := beFirst b.be
  s.unitStore (.strand b.strand) d.unit (b.addr / 8 * 8 + i) (beCount b.be) (b.data >>> (8 * i))

/-! ### Accesses as a whole -/

/-- A read of every word that `size` bytes at an offset touch: each once and in full (R446). -/
def State.unitLoad (s : State) (m : Master) (u : RUnit) (off size : Nat) : State × List Word :=
  (wordsOf off size 0).foldl (fun (acc : State × List Word) w =>
    let r := acc.1.readWord m u w.1
    (r.1, acc.2 ++ [r.2])) (s, [])

/-- The locks that a read-once of the M window took are those of its ordinal (R372). -/
def State.tagLocks (s : State) (d : Die) (b : Beat) : State :=
  let i := (b.addr / 8 * 8 - Reg.smLock 0) / 4
  let mine := fun (x : LockTake) => d == .m && decide (Reg.smLock 0 ≤ b.addr) && (x.lock == i || x.lock == i + 1) &&
    x.cycle == mCycle s.ns && s.lockOwner x.lock == (Master.strand b.strand).number
  { s with lockTaken := s.lockTaken.map fun x => if mine x then { x with request := some b } else x }

/-- A read request performed at its die: the doubleword returned, 0 in the bytes not enabled. -/
def State.beatLoad (s : State) (d : Die) (b : Beat) : State × Dword :=
  let base := b.addr / 8 * 8
  let lo := if (b.be &&& 0x0F) != 0 then s.readWord (.strand b.strand) d.unit base else (s, 0)
  let hi := if (b.be &&& 0xF0) != 0 then lo.1.readWord (.strand b.strand) d.unit (base + 4) else (lo.1, 0)
  (hi.1.tagLocks d b, keepEnabled b.be (hi.2 ++ lo.2))

/-! ### Commands -/

/-- The unit answers accesses: a die that runs and is fitted; a lane answers management over its sideband while M runs, and
refuses its writes once it has fenced M (R39, R123). -/
def State.reachable (s : State) (m : Master) (u : RUnit) (write : Bool) : Bool :=
  let asks := m != .mgmt || s.consumers.m.running
  match unitDie u, unitLane u with
  | some d, _ => asks && (s.consumer d).running
  | none, some l => asks && !(write && m == .mgmt && (s.lane l).fenceM)
  | none, none => false

/-- The words of a strand's access that lie in absent units are reported (R8). -/
def State.noteAbsentWords (s : State) (m : Master) (u : RUnit) (off size : Nat) : State :=
  if (masterStrand m).isSome then (wordsOf off size 0).foldl (fun t w => t.noteAbsentUnit u w.1) s else s

/-- An access of a strand to the window of a die whose voter is fenced has no effect there (R123). -/
def State.unitFenced (s : State) (m : Master) (u : RUnit) : Bool :=
  match unitDie u with
  | some d => s.strandFenced m d
  | none => false

/-- An access of a strand to its own lane's pages is its replica's load or store (R86, R87). -/
def State.pageAccess (s : State) (l : Lane) (k : Strand) (off : Nat) (access : Nat → State) : State :=
  if s.canExecute l k && decide (off < 0x90000) then (access (0x200000000 + off)).endStep l k else s

/-- GENERIC_REGISTER_WRITE (R445, R446). In a lane a strand's is a store of its replica (R86); management writes no strand page
(R38). -/
def execGenericRegisterWrite (m : Master) (u : RUnit) (w : RegWrite) (s : State) : Out :=
  let n := min w.size 8
  .next (match unitLane u, m with
    | some l, .strand k => s.pageAccess l k w.off fun a => s.doStore l k a (leBytes n w.data.toNat)
    | some _, .mgmt => if w.off < 0x80000 || !s.reachable m u true then s else s.unitStore m u w.off n w.data
    | some _, _ => s
    | none, _ =>
      let t := s.noteAbsentWords m u w.off n
      if t.reachable m u true && !t.unitFenced m u then t.unitStore m u w.off n w.data else t)

/-- RC_READ (R13). In a lane a strand's is a load of its replica (R86, R87); management reads no strand page (R38). -/
def execRcRead (m : Master) (u : RUnit) (off size : Nat) (s : State) : Out :=
  let n := min size 8
  .next (match unitLane u, m with
    | some l, .strand k => s.pageAccess l k off fun a => s.doLoad l k a n
    | some _, .mgmt => if off < 0x80000 || !s.reachable m u false then s else (s.unitLoad m u off n).1
    | some _, _ => s
    | none, _ =>
      let t := s.noteAbsentWords m u off n
      if t.reachable m u false && !t.unitFenced m u then (t.unitLoad m u off n).1 else t)

/-- A commit in progress is abandoned by a reset of its block (R20). -/
def State.abortCommit (s : State) (b : CommitBlock) : State :=
  match b with
  | .tcfg k => if (s.tcfg.get k).isSome then s.refuseTcfg k 0xFF else s
  | .tt p => if s.commitBusy p.unit Reg.ttCommit then s.ttRefuse p 0xFF else s
  | .gw p => if s.commitBusy p.unit Reg.gwCommit then s.commitResult p.unit Reg.gwCommit 0xFF else s
  | .fd => if s.commitBusy .f Reg.fdCommit then s.commitResult .f Reg.fdCommit 0xFF else s

/-- COMMIT_ABORTED_BY_RESET (R20). -/
def execCommitAbortedByReset (b : CommitBlock) (s : State) : Out := .next (s.abortCommit b)

end Sys2Proof.Machine
end

