-- ==== Sys2Proof/Machine/Voter.lean ====
section
/-! DEFINITION. The egress voters (R88 to R100, R105, R121, R320): beats leave a lane, arrive at a voter, are decided and
released, reads are performed once, and challenges are answered. -/

namespace Sys2Proof.Machine

/-! ### Places of registers -/

/-- The bit of `MG_PWR` for the island that holds a window offset of a die. -/
def islandBit (d : Die) (off : Nat) : Nat :=
  let port :=
    if (0x3000000 ≤ off ∧ off < 0x4000000) ∨ (0x7000000 ≤ off ∧ off < 0x8000000) then 2
    else if 0x5000000 ≤ off ∧ off < 0x6000000 then 3 else 0
  match d with
  | .p1 => 6 + port
  | .p2 => 10 + port
  | .f => 14
  | .m => 15

/-- The register lies in an island of the die that has no power. -/
def State.islandOff (s : State) (d : Die) (off : Nat) : Bool := !s.flag .m Reg.mgPwr (islandBit d off)

/-- Physical address of a window offset (R161). -/
def physOf (d : Die) (off : Nat) : Nat := 0x300000000 + Die.window d * 0x10000000 + off

/-- The register is a doorbell of a ring whose memory the die writes: all-in-step release (R94). -/
def allInStep (d : Die) (off : Nat) : Bool :=
  (Die.port d).isSome && decide (Reg.dmDb 0 ≤ off) && decide (off < Reg.dmDb 28) && decide ((off - Reg.dmDb 0) % 64 < 4) &&
    (let ch := (off - Reg.dmDb 0) / 64
     isKtnRx ch || isCanRx ch || isCopyCh ch)

/-- A beat touches such a doorbell. -/
def beatAllInStep (d : Die) (b : Beat) : Bool := (beatWords b).any fun w => allInStep d w.1

/-! ### Beats leave a lane -/

/-- The beats of a replica on its way to a die. -/
def State.flying (s : State) (d : Die) (l : Lane) (k : Strand) : List Wire :=
  (s.vcQueue l d false .posted ++ s.vcQueue l d false .request).filter fun w => match w with
    | .beat _ _ b => b.strand == k
    | _ => false

/-- Entries that a replica's sump at a die lacks: those held and those under way. -/
def State.sumpTaken (s : State) (d : Die) (l : Lane) (k : Strand) : Nat :=
  sumpUse (s.voter d k) l + (s.flying d l k).length

/-- Tags of a lane in use at a die: read requests sent whose results have not come, each with its response buffer. -/
def State.readTags (s : State) (l : Lane) (d : Die) : Nat :=
  (Strand.list.flatMap fun k => match (s.replica l k).load with
    | some p => p.parts.filter fun q => q.die == d && q.got.isNone &&
        !(s.replica l k).out.any fun x => x.1 == d && x.2.ordinal == q.ordinal
    | none => []).length

/-- A lane may send a beat: its link works, the sump it goes to has room (R96), its virtual channel has a credit, and a read
request has a tag (R318, R319). -/
def State.mayLeave (s : State) (l : Lane) (d : Die) (b : Beat) : Bool :=
  (s.lane l).junction.get d && decide (s.sumpTaken d l b.strand < sumpSize) &&
    s.vcCredit l d false (if b.isRead then .request else .posted) &&
    (!b.isRead || decide (s.readTags l d < linkTags))

/-- The read request of a part leaves the lane: its result is awaited from now on (R100). -/
def partSent (d : Die) (b : Beat) (now : Nat) (p : PendingLoad) : PendingLoad :=
  { p with parts := p.parts.map fun q => if b.isRead && q.die == d && q.ordinal == b.ordinal then { q with sent := now } else q }

/-- BEAT_SEND (R89, R96, R319): the first beat of a replica that waits in its lane leaves. -/
def execBeatSend (l : Lane) (k : Strand) (s : State) : Out :=
  let r := s.replica l k
  .next (match r.out with
    | [] => s
    | (d, b) :: rest =>
      if s.mayLeave l d b then
        (s.setReplica l k { r with out := rest, load := r.load.map (partSent d b s.ns) }).send [.beat d l b]
      else s)

/-! ### Beats arrive -/

/-- A beat to a die that is stopped is lost; writes are counted for the record of the die's restart (R37, R320). -/
def State.loseBeat (s : State) (d : Die) (l : Lane) (b : Beat) : State :=
  if b.isRead then s
  else
    let c := s.consumer d
    let x := (c.lost.get b.strand).get l
    let y : LostBeats := ⟨x.count + 1, some (x.first.getD (physOf d b.addr, b.ordinal.extractLsb' 0 16))⟩
    s.setConsumer d { c with lost := c.lost.set b.strand ((c.lost.get b.strand).set l y) }

/-- The record of a write that fails at its die. -/
def beatFail (d : Die) (cause : Nat) (b : Beat) : WerrRec := ⟨cause, b.ordinal.extractLsb' 0 16, physOf d b.addr, 1⟩

/-- A beat sent to a fenced die: each ordinal makes one record (R123, R320). -/
def State.fencedBeat (s : State) (d : Die) (b : Beat) : State :=
  let v := s.voter d b.strand
  if serialLt b.ordinal v.next then s
  else
    let held := v.ords.filterMap fun o => if o.chosen.isNone && serialLt o.ordinal b.ordinal then o.beats.head?.map (·.2) else none
    let t := (s.setVoter d b.strand { v with next := b.ordinal + 1, ords := [], kept := [] }).showSump d b.strand
    (held ++ [b]).foldl (fun t x => if x.isRead then t else t.pwFail d (some b.strand) (beatFail d 2 x)) t

/-- What a beat does on arrival, before the vote: a doorbell opens its replica's read fence (R105), and F takes a command
of its lane's stream (R331). -/
def State.atArrival (s : State) (d : Die) (l : Lane) (b : Beat) : State :=
  if b.isRead then s
  else
    (beatWords b).foldl (fun (t : State) w =>
      match Die.port d with
      | some p =>
        if Reg.dmDb 0 ≤ w.1 ∧ w.1 < Reg.dmDb 28 ∧ (w.1 - Reg.dmDb 0) % 64 = 0 then
          let ch := (w.1 - Reg.dmDb 0) / 64
          let x := t.port p
          let rest := x.fences.filter fun f => !(f.1 == b.strand && f.2.1 == ch && f.2.2.1 == l)
          State.askCopies (t.setPort p { x with fences := (b.strand, ch, l, b.ordinal) :: rest }) p b.strand
        else t
      | none => if d = .f ∧ w.1 = Reg.fdDoCmd then t.doCmdTake l b.strand b.ordinal w.2.2 else t) s

/-- A read result leaves for a lane over its junction link, on the RESPONSE channel: the request reserved its buffer (R319). -/
def State.sendResult (s : State) (d : Die) (k : Strand) (ord : Word) (data : Dword) (l : Lane) : State :=
  if (s.lane l).junction.get d then s.send [.result l d k ord data] else s

/-- Results of a die that are on their way arrive in their lane, in order, over a working link (R33, R98, R319). -/
def State.takeResults (s : State) (l : Lane) (d : Die) : State :=
  if (s.lane l).junction.get d then
    (s.vcQueue l d true .response).foldl (fun t w => match w with
      | .result x e k ord data => (t.arrive w).deliverRead x k e ord data
      | _ => t) s
  else s

/-- A kept result goes to the third replica, unless it cannot be read (R98, R99). -/
def State.giveKept (s : State) (d : Die) (l : Lane) (b : Beat) (ecc : BeatEcc) : State :=
  let k := b.strand
  match (s.voter d k).kept.find? fun r => r.ordinal == b.ordinal with
  | none => s
  | some r =>
    if ecc = .robUe then s.voterExclude d k l .roEcc b.ordinal
    else s.sendResult d k b.ordinal r.data l

/-- The decision of R91 and R92 on an ordinal after a beat of lane l. -/
def State.decideOrd (s : State) (d : Die) (l : Lane) (b : Beat) (o : OrdRec) (ecc : BeatEcc) : State :=
  let k := b.strand
  match o.chosen with
  | some c =>
    if c = b then ((s.giveKept d l b ecc).voterClean d k)
    else s.voterExclude d k l .mismatch b.ordinal
  | none =>
    match s.verdictAt d k o with
    | .wait => s
    | .pair _ => s.setVoter d k (putOrd (s.voter d k) { o with timer := some (o.timer.getD s.ns) })
    | .differ => s.setVoter d k (putOrd (s.voter d k) { o with timer := some (o.timer.getD s.ns) })
    | .whole _ => s.setVoter d k (putOrd (s.voter d k) { o with timer := none })
    | .mismatch x _ => s.voterExclude d k x .mismatch b.ordinal
    | .odd x _ => s.voterExclude d k x .odd b.ordinal
    | .split => s.voterSplit d k .split b.ordinal
    | .diverge => s.voterSplit d k .diverge2oo2 b.ordinal

/-- A voter holds a beat of an ordinal that is not settled, once from each replica. -/
def State.putBeat (s : State) (d : Die) (l : Lane) (b : Beat) : State :=
  let k := b.strand
  let v := s.voter d k
  let o := (ordOf v b.ordinal).getD ⟨b.ordinal, [], none, none⟩
  if (serialLt b.ordinal v.next && (ordOf v b.ordinal).isNone) || o.beats.any fun x => x.1 == l then s
  else (s.setVoter d k (putOrd v { o with beats := o.beats ++ [(l, b)] })).showSump d k

/-- A voter decides an ordinal on which the beat of a lane is held. -/
def State.decideBeat (s : State) (d : Die) (l : Lane) (b : Beat) (ecc : BeatEcc) : State :=
  match ordOf (s.voter d b.strand) b.ordinal with
  | some o => if o.beats.any fun x => x.1 == l then s.decideOrd d l b o ecc else s
  | none => s

/-- A voter holds a beat and decides its ordinal. -/
def State.holdBeat (s : State) (d : Die) (l : Lane) (b : Beat) (ecc : BeatEcc) : State :=
  let v := s.voter d b.strand
  if (match ordOf v b.ordinal with
    | some o => o.beats.any fun x => x.1 == l
    | none => serialLt b.ordinal v.next) then s
  else (s.putBeat d l b).decideBeat d l b ecc

/-- A replica owns a sump entry of an ordinal. -/
def State.ownsEntry (s : State) (d : Die) (k : Strand) (ord : Word) (x : Lane) : Bool :=
  match ordOf (s.voter d k) ord with
  | some o => o.beats.any fun b => b.1 == x
  | none => false

/-- A corrected error of the sump or the read-once buffer is counted (R97). -/
def State.countCe (s : State) (d : Die) (k : Strand) : State := s.bump d.unit (Reg.vtCnt k.idx) 15 8

/-- A beat arrives and the entries of its ordinal are read (R97): an uncorrectable error in an entry excludes the replica that
owns it, and the ordinal is decided on the beats that remain. -/
def State.beatHeld (s : State) (d : Die) (l : Lane) (b : Beat) (ecc : BeatEcc) : State :=
  let k := b.strand
  match ecc with
  | .ok => s.holdBeat d l b ecc
  | .robUe => s.holdBeat d l b ecc
  | .robCe => (s.countCe d k).holdBeat d l b ecc
  | .sumpCe x => (if x = l ∨ s.ownsEntry d k b.ordinal x then s.countCe d k else s).holdBeat d l b ecc
  | .sumpUe x =>
    if x = l then s.voterExclude d k l .sumpEcc b.ordinal
    else if s.ownsEntry d k b.ordinal x then
      ((s.putBeat d l b).voterExclude d k x .sumpEcc b.ordinal).decideBeat d l b ecc
    else s.holdBeat d l b ecc

/-- A beat at the voter of its strand. -/
def State.beatAt (s : State) (d : Die) (l : Lane) (b : Beat) (ecc : BeatEcc) : State :=
  let k := b.strand
  if !s.dieFitted d then s
  else if !(s.consumer d).running then s.loseBeat d l b
  else if s.flag d.unit Reg.vtFence 0 then s.fencedBeat d b
  else if s.voterHalted d k || !(s.expects d k b.ordinal).contains l then s
  else (s.atArrival d l b).beatHeld d l b ecc

/-- BEAT_ARRIVE (R91, R92, R96, R97, R105). -/
def execBeatArrive (d : Die) (l : Lane) (b : Beat) (ecc : BeatEcc) (s : State) : Out :=
  .next (if s.mayArrive (.beat d l b) then (s.arrive (.beat d l b)).beatAt d l b ecc else s)

/-- The voter decides: its die runs, is not fenced, and the strand is not halted there. -/
def State.voterLive (s : State) (d : Die) (k : Strand) : Bool :=
  s.dieFitted d && (s.consumer d).running && !s.flag d.unit Reg.vtFence 0 && !s.voterHalted d k

/-- The skew timer of an ordinal has reached `SKEW_LIMIT` (R82). -/
def State.skewOver (s : State) (d : Die) (k : Strand) (o : OrdRec) : Bool :=
  o.timer.any fun t => decide (t + s.dieSkewNs d k ≤ s.ns)

/-- VOTER_SKEW_TIMEOUT (R91): the third beat is late. When the pair differed, the two replicas that remain split the
strand. -/
def execVoterSkewTimeout (d : Die) (k : Strand) (ordinal : Word) (s : State) : Out :=
  .next (match ordOf (s.voter d k) ordinal with
    | some o =>
      let ex := s.expects d k ordinal
      match ex.find? fun l => !o.beats.any fun x => x.1 == l with
      | some x => if s.voterLive d k && s.skewOver d k o && ex.length == 3 then s.voterExclude d k x .late ordinal else s
      | none => s
    | none => s)

/-! ### Release (R93 to R95) -/

/-- The beat of the next ordinal that a verdict allows to release or perform; `whole` demands every replica's. -/
def State.readyBeat (s : State) (d : Die) (k : Strand) (whole : Beat → Bool) : Option (OrdRec × Beat) :=
  match ordOf (s.voter d k) (s.voter d k).next with
  | some o =>
    if o.chosen.isSome then none
    else match s.verdictAt d k o with
      | .whole b => some (o, b)
      | .pair b => if whole b then none else some (o, b)
      | _ => none
  | none => none

/-- The next ordinal is settled with its beat. -/
def State.settleOrd (s : State) (d : Die) (k : Strand) (o : OrdRec) (b : Beat) : State :=
  let v := putOrd (s.voter d k) { o with chosen := some b }
  s.setVoter d k { v with next := v.next + 1 }

/-- An uncorrectable error in an entry that is read for a release excludes the replica that owns it, before anything is
released (R97). -/
def releaseUe (ecc : BeatEcc) (o : OrdRec) : Option Lane :=
  match ecc with
  | .sumpUe x => if o.beats.any fun b => b.1 == x then some x else none
  | _ => none

/-- A correctable error in an entry that is read for a release. -/
def State.releaseCe (s : State) (d : Die) (k : Strand) (ecc : BeatEcc) (o : OrdRec) : State :=
  match ecc with
  | .sumpCe x => if o.beats.any fun b => b.1 == x then s.countCe d k else s
  | _ => s

/-- BEAT_RELEASE (R93, R94, R97): the write of the next ordinal takes effect at its die. -/
def execBeatRelease (d : Die) (k : Strand) (ecc : BeatEcc) (s : State) : Out :=
  .next (match s.readyBeat d k (beatAllInStep d) with
    | some (o, b) =>
      if s.voterLive d k && !b.isRead then
        match releaseUe ecc o with
        | some x => s.voterExclude d k x .sumpEcc o.ordinal
        | none =>
        let t := (s.releaseCe d k ecc o).settleOrd d k o b
        let t := if t.islandOff d b.addr then t.pwFail d (some k) (beatFail d 1 b) else t.beatStore d b
        t.voterClean d k
      else s
    | none => s)

/-- READ_ONCE_PERFORM (R97 to R99): the die reads once, answers the lanes whose requests it holds and keeps the result for the
third. A register of an island without power reads as a read that times out (R100, R320). -/
def execReadOncePerform (d : Die) (k : Strand) (ecc : BeatEcc) (s : State) : Out :=
  .next (match s.readyBeat d k (fun _ => false) with
    | some (o, b) =>
      let third := (s.expects d k o.ordinal).any fun l => !o.beats.any fun x => x.1 == l
      if s.voterLive d k && b.isRead && (!third || decide ((s.voter d k).kept.length < robSize)) then
        match releaseUe ecc o with
        | some x => s.voterExclude d k x .sumpEcc o.ordinal
        | none =>
        let s := s.releaseCe d k ecc o
        let r := if s.islandOff d b.addr then (s, keepEnabled b.be (timeoutPattern ++ timeoutPattern)) else s.beatLoad d b
        let t := r.1.settleOrd d k o b
        let v := t.voter d k
        let t := if third then t.setVoter d k { v with kept := v.kept ++ [⟨o.ordinal, b, r.2⟩] } else t
        let t := o.beats.foldl (fun (t : State) x =>
          if x.2 == b then t.sendResult d k o.ordinal r.2 x.1 else t) t
        -- The buffer's high-water mark counts the new entry before it is freed.
        (t.showSump d k).voterClean d k
      else s
    | none => s)

/-! ### Timeouts (R100) -/

/-- RD_TIMEOUT (R100): a request that was sent has brought no result for 2 ms. -/
def execRdTimeout (l : Lane) (k : Strand) (s : State) : Out :=
  let r := s.replica l k
  .next (match r.load with
    | none => s
    | some p =>
      if r.mode = .stopped then s else
      let waits := fun (q : ReadPart) => q.got.isNone && decide (q.sent + 2000000 ≤ s.ns) &&
        !r.out.any fun x => x.1 == q.die && x.2.ordinal == q.ordinal
      match p.parts.find? waits with
      | none => s
      | some q =>
        let parts := p.parts.map fun q => if waits q then { q with got := some (timeoutPattern ++ timeoutPattern) } else q
        let t := s.logEv l.idx (some k) .rdTimeout [Die.window q.die]
        if parts.all fun q => q.got.isSome then t.finishLoad l k (loadBytes p.addr p.size parts)
        else t.setReplica l k { t.replica l k with load := some { p with parts := parts } })

/-! ### Challenges -/

/-- CHALLENGE_BEAT_ARRIVE (R121, R122). A beat whose lane's entry still holds an earlier challenge waits on its link until that is
decided (log entry 127). -/
def execChallengeBeatArrive (d : Die) (l : Lane) (k : Strand) (data : Dword) (s : State) : Out :=
  let live := s.dieFitted d && (s.consumer d).running && (s.voterIn d k).contains l && !s.voterHalted d k
  .next (if !s.mayArrive (.challenge d l k data) then s
  else if !live then s.arrive (.challenge d l k data)
  else if ((s.voter d k).challenge.get l).isSome then s
  else
    let t := s.arrive (.challenge d l k data)
    let v := t.voter d k
    (t.setVoter d k { v with challenge := v.challenge.set l (some data) }).chalDecide d k)

end Sys2Proof.Machine
end

