-- ==== Sys2Proof/Machine/Boot.lean ====
section
/-! DEFINITION. Boot (R40, R379 to R386, R388 to R390, R402, R413): the ROM's choice of a slot, power, identity memories, the
check of a TRIAL package, configuration, lane images, and the release of the strands. -/

namespace Sys2Proof.Machine

/-! ### What a removal of power leaves (R42, R123, R148, R258) -/

/-- The event log, safe store, flash, keys, ageing records and AON's record of a lost crystal, which no loss of power
clears. -/
def State.keepStored (s t : State) : State :=
  { t with
    variant := s.variant, log := s.log, ages := s.ages, free := s.free, pending := s.pending
    mgmt := { t.mgmt with
      bank0 := s.mgmt.bank0, bank1 := s.mgmt.bank1, bank := s.mgmt.bank, frozen := s.mgmt.frozen, fmt := s.mgmt.fmt
      slotA := s.mgmt.slotA, slotB := s.mgmt.slotB, keys := s.mgmt.keys, aonLost := s.mgmt.aonLost } }

/-- A register keeps some of its bits. -/
def State.keepBits (s t : State) (u : RUnit) (off : Nat) (mask : Word) : State :=
  t.setReg u off ((s.reg u off &&& mask) ||| (t.reg u off &&& ~~~mask))

/-- `VT_STAT` shows the fence of a die. -/
def State.showFence (s : State) (d : Die) : State :=
  if s.flag d.unit Reg.vtFence 0 then
    Strand.list.foldl (fun t k => (t.setFlag d.unit (Reg.vtStat k.idx) 8 true).setFlag d.unit (Reg.vtStat k.idx) 9
      (s.flag d.unit Reg.vtFence (4 + k.idx))) s
  else s

/-- What lasts until the next power-good: retired lanes, fault lines and failed crawlway links (R31, R173), fences, counts since
power-good, and contacts. -/
def State.keepLatched (s t : State) : State :=
  let t : State := { t with
    ns := s.ns, supply := s.supply, absentLogged := s.absentLogged
    mgmt := { t.mgmt with everReleased := s.mgmt.everReleased } }
  let t := Lane.list.foldl (fun (t : State) l =>
    let t := s.keepBits t l.unit Reg.rjLane 0xFFFFFFFF
    let t := s.keepBits t l.unit Reg.rjDbg 0x100
    let t := s.keepBits t l.unit Reg.lnLfault 0x7
    let t := (List.range 3).foldl (fun t i => s.keepBits t l.unit (Reg.ecLink i) 0x1000000) t
    t.setLane l { t.lane l with fenceM := (s.lane l).fenceM, fenceF := (s.lane l).fenceF }) t
  let t := Die.list.foldl (fun (t : State) d => (s.keepBits t d.unit Reg.vtFence 0xFFFFFFFF).showFence d) t
  let t := PDie.list.foldl (fun (t : State) p =>
    let t := s.keepBits t p.unit Reg.gdFence 0xFFFFFFFF
    let t := t.setGuard p { (t.port p).guard with fenced := (s.port p).guard.fenced }
    t.setPort p { t.port p with lease := { (t.port p).lease with refused := (s.port p).lease.refused } }) t
  let t := s.keepBits t .m Reg.mgStat 0x00FF0000
  let t := s.keepBits t .m Reg.mgBoard 0x800000FF
  let t := s.keepBits t .m Reg.mgUpd 0x00FF0000
  let t := s.keepBits t .m Reg.mgDbg 0x40000000
  let t := s.keepBits t .m Reg.mgDisagree 0xFFFFFFFF
  s.keepBits t .m Reg.mgCaps 0xFFFFFFFF

/-- LAST_OFF of `MG_BOARD`. -/
def State.setLastOff (s : State) (cause : Nat) : State := s.setFld .m Reg.mgBoard 30 28 cause

/-! ### Front LEDs (R430) -/

/-- KTN A or KTN B: the channel of a die and its guardian on the other die. -/
def State.ktnLed (s : State) (p : PDie) : Led :=
  let g := (s.port p.other).guard
  if g.latched || g.fenced then .red
  else match (s.port p).net.phase with
    | .off => .off
    | .active => .green
    | .holdover => .yellowFlash
    | _ => .yellow

def State.runLed (s : State) : Led :=
  if s.bootPhase = bootHalt then .red
  else if Strand.list.any fun k => s.halted k then .redFlash
  else if !s.anyReleased then .yellowFlash
  else if bitOf (s.statusWord .p1) 13 then .greenFlash
  else .green

def State.fieldLed (s : State) : Led :=
  if !s.fFitted then .off
  else if s.flag .f Reg.vtFence 0 then .red
  else if !s.configured then .yellowFlash
  else if (List.range 16).any (fun n => s.outFault n != 0) || s.reg .f Reg.fdWbStat != 0 ||
      s.fld .f Reg.fdAiStat 23 16 != 0 || s.fld .f Reg.fdStat 21 20 != 3 || s.fld .f Reg.fdStat 26 24 != 7 then .yellow
  else .green

def State.svcLed (s : State) : Led :=
  if s.debugAuth then .redFlash
  else if s.flag .m Reg.mgStat 26 then .red
  else if s.updState = updArmed ∨ s.updState = updUnconfirmed then .yellowFlash
  else if !s.mgmt.sessions.isEmpty then .yellow else .off

/-- What management firmware makes the five LEDs that it drives show: RUN, KTN A, KTN B, FLD and SVC. -/
def State.drivenLeds (s : State) : List Led := [s.runLed, s.ktnLed .p1, s.ktnLed .p2, s.fieldLed, s.svcLed]

/-- The six front LEDs: PWR, which AON drives, and the five others. -/
def State.frontLeds (s : State) : List Led :=
  (if s.supply.holdup then .greenFlash else if s.supply.good then .green else .off) ::
    (if s.mgmt.running && s.mOn then s.drivenLeds else s.mgmt.leds)

/-- The pattern is kept when the firmware stops. -/
def State.freezeLeds (s : State) : State := { s with mgmt := { s.mgmt with leds := s.frontLeds.drop 1 } }

/-! ### Power-down (R40) -/

/-- Every island but AON is powered down in reverse order (R40): what is left, with the cause of the removal. M's mailboxes show
FLUSHED once it is powered again (R369), and its LEDs keep their last pattern (R430). -/
def State.islandsOff (s : State) (cause : Nat) : State :=
  let t := (s.keepLatched (s.keepStored State.reset)).setLastOff cause
  { t with mailboxes := flushedMailboxes, mgmt := { t.mgmt with leds := s.frontLeds.drop 1, replies := s.mgmt.replies, vinAt := t.ns } }

/-- The module is powered down: M restarts too, which ends a debug authorisation (R405). -/
def State.powerDown (s : State) (cause : Nat) : State := s.endDebugAuth.islandsOff cause

/-! ### ROM (R379 steps 1 and 2) -/

/-- Of two banks, the one that an examination finds valid; of two valid ones the one with the higher SEQ (R388). -/
def State.chooseBank (s : State) (ok0 ok1 : Bool) : Nat :=
  if ok0 && ok1 then (if serialLt s.mgmt.bank0.seq s.mgmt.bank1.seq then 1 else 0)
  else if ok1 then 1 else 0

/-- A REVERT that waits: every component runs from its other slot as a TRIAL, where that slot holds something
(R394) that was not rejected (R403). -/
def State.takeRevert (s : State) (b : BootRec) : BootRec :=
  if b.revert then
    let run := b.active ^^^ b.trial
    let full := (List.range 5).foldl (fun w i => withBit w i (!(s.flashSlot i (!run.getLsbD i)).head.isEmpty && !b.barred.getLsbD i))
      (0 : BitVec 5)
    { b with active := run, trial := full, unconfirmed := false, boots := 0, rejected := none, revert := false }
  else b

/-- The ROM's choice of the management firmware slot: a slot that fails its check is replaced by the other one, and the rejection is
recorded; none when that one holds rejected content, which is not booted again (R379 step 2, R403). -/
def State.romCheck (s : State) (b : BootRec) : Option BootRec :=
  match s.bootReason (s.flashSlot 0 (runsFromB b 0)) 1 with
  | none => some b
  | some r =>
    if b.trial.getLsbD 0 then some { b with rejected := some r }
    else if b.barred.getLsbD 0 then none
    else some { b with active := b.active ^^^ 1, rejected := some r }

/-- The slot that the ROM boots. -/
def romSlot (b : BootRec) : Bool := if b.rejected.isSome then b.active.getLsbD 0 else runsFromB b 0

/-- Format version of the records that a management firmware writes: FMT of its COMP entry (log entry 22). -/
def State.fmtOf (s : State) (second : Bool) : Nat :=
  match compOf (s.flashSlot 0 second).head 1 with
  | some e => e.fmt
  | none => s.mgmt.fmt

/-- The firmware picks its bank, and migrates records any of which has an older FMT; the bank that held them is frozen, and stays so
when an older firmware uses it (R388 to R390). -/
def State.openStore (s : State) : State :=
  let n := s.chooseBank (s.bankUsable 0) (s.bankUsable 1)
  let t : State := { s with mgmt := { s.mgmt with bank := n, wroteAt := none } }
  if !t.ssValid then t.logEv 6 none .ssEmpty []
  else if (t.bankOf n).fmts.list.any fun f => decide (f < t.mgmt.fmt) then
    let r := t.recs
    let t : State := { t with mgmt := { t.mgmt with frozen := some n } }
    (t.writeRecs { r with boot := { r.boot with boots := 0 } }).logEv 6 none .migrated [n]
  else t

/-- The firmware of a slot starts. -/
def State.startFirmware (s : State) (second : Bool) : State :=
  State.openStore { s with mgmt := { s.mgmt with running := true, fmt := s.fmtOf second } }

/-- `MG_UPD`, `MG_SLOTS`, `MG_SEC` and HIST show what the safe store holds. -/
def State.showStore (s : State) : State :=
  let b := s.boot
  let st := if b.unconfirmed then updUnconfirmed else if b.armed.isSome then updArmed
    else if b.staged ≠ 0 then updStaged else updNone
  let t := ((s.setUpd st).setReg64 .m Reg.mgUpdTLo (b.armed.getD 0)).showBank.showBoot
  (t.setFld .m Reg.mgSec 15 0 t.recs.secMin.toNat).setFlag .m Reg.mgStat 26 t.recs.histFlag

/-- Losses that the next boot reports: of the supply, and of the AON crystal (R37, R432). On hold-up the mark stays until the supply
returns. -/
def State.reportLosses (s : State) : State :=
  let t : State := if s.supply.mark then
    State.setLastOff { s with supply := { s.supply with mark := s.supply.holdup } } 1 else s
  if t.mgmt.aonLost then State.logEv { t with mgmt := { t.mgmt with aonLost := false } } 6 none .aonClock [] else t

/-- Steps 1 and 2: the ROM, and the start of management firmware with the BOOT record as the ROM leaves it; none when the ROM finds
no firmware to boot. -/
def State.rom (s : State) : Option State :=
  let n := s.chooseBank s.mgmt.bank0.valid s.mgmt.bank1.valid
  let old := if (s.bankOf n).valid then (s.bankOf n).recs.boot else defaultBoot
  (s.romCheck (s.takeRevert old)).map fun b =>
    let t := s.startFirmware (romSlot b)
    let t := if b = old then t else t.writeBoot b
    t.reportLosses.showStore

/-! ### Power (R40, R378, R413) -/

/-- Islands of `MG_PWR` that a boot powers: those fitted, but for retired lanes and fenced dies and guardians. -/
def State.bootPower (s : State) : Word :=
  let lanes := Lane.list.foldl (fun w l => if s.retired l then w else withBit (withBit w l.idx true) (3 + l.idx) true) (0x18000 : Word)
  let ports := PDie.list.foldl (fun (w : Word) (p : PDie) =>
    let base := 6 + 4 * p.idx
    let on := !s.flag p.unit Reg.vtFence 0
    let w := withBit (withBit w base on) (base + 1) on
    withBit (withBit w (base + 2) (!(s.port p).guard.fenced)) (base + 3) (on && s.canFitted)) lanes
  withBit ports 14 (s.fFitted && !s.flag .f Reg.vtFence 0)

/-- The views of the units after power-up (R406). -/
def State.bootViews (s : State) : List UnitView :=
  let view := fun (on bad : Bool) => (⟨if on then 0 else 2, bad⟩ : UnitView)
  (Lane.list.map fun l => view (!s.retired l) (s.retired l)) ++
  (PDie.list.map fun p => view (!s.flag p.unit Reg.vtFence 0) (s.flag p.unit Reg.vtFence 0)) ++
  [view (s.fFitted && !s.flag .f Reg.vtFence 0) (!s.fFitted || s.flag .f Reg.vtFence 0), view true s.mFenced] ++
  PDie.list.map fun p => view (!(s.port p).guard.fenced) (s.port p).guard.fenced

/-- The margin governors at power-up. -/
def State.initGovernors (s : State) (i : BootInput) : State :=
  let limit := fun l => highestStep (i.slackAt.get l) fun x => decide (16 ≤ x.toNat)
  let limits : Tri Nat := ⟨limit .a, limit .b, limit .c⟩
  let old := s.reg .m Reg.dsStat
  let t := Lane.list.foldl (fun (t : State) l =>
    t.setGov l ⟨50, (((i.slackAt.get l)[limit l]?).getD 0).toNat, 0, 0, none, 0, none, limits, Tri.all 8, Quad.all 8⟩) s
  let t := Lane.list.foldl (fun (t : State) l => t.setGov l { t.gov l with step := t.stepOf l }) t
  (t.showDs).setReg .m Reg.dsStat old

/-- The islands in the order in which they are powered (R40), by their bits of `MG_PWR`: AON, M-main, the guardian islands,
main, line and CAN of P1 and of P2, the lanes' memories, their cores, and F-main. -/
def islandOrder : List Nat := [16, 15, 8, 12, 6, 7, 9, 10, 11, 13, 3, 4, 5, 0, 1, 2, 14]

/-- The die that runs once an island has power. -/
def islandDie (i : Nat) : Option Die := if i = 6 then some .p1 else if i = 10 then some .p2 else if i = 14 then some .f else none

/-- One island gains power; a guardian comes up with its enables closed (R40), and a die's main island starts the die.
F's fallback times (R329) count from here. -/
def State.powerIsland (s : State) (want : Word) (i : Nat) : State :=
  let t := s.setFlag .m Reg.mgPwr i (bitOf want i)
  let t := if i = 14 then { t with field := { t.field with prefAt := List.replicate 3 t.ns } } else t
  match islandDie i with
  | some d => t.setConsumer d { t.consumer d with running := bitOf want i }
  | none => t

/-- Step 3: the islands are powered, one after another; the planner re-plans at each boot (R419). -/
def State.powerUp (s : State) (i : BootInput) : State :=
  let want := s.bootPower
  let t := islandOrder.foldl (fun t n => t.powerIsland want n) s
  (State.initGovernors { t with views := s.bootViews } i).replan i.predicted

/-! ### Identity memories (R384 to R386) -/

/-- The TLV records before an end record: type and value. -/
def tlvs : Nat → List Byte → List (Nat × List Byte)
  | 0, _ => []
  | n + 1, ty :: len :: rest => if ty = 0xFF then [] else (ty.toNat, rest.take len.toNat) :: tlvs n (rest.drop len.toNat)
  | _, _ => []

/-- Bytes that a list of records takes. -/
def tlvBytes (rs : List (Nat × List Byte)) : List Byte :=
  rs.flatMap fun r => [BitVec.ofNat 8 r.1, BitVec.ofNat 8 r.2.length] ++ r.2

/-- The records of a memory, when header, length, records and CRC are right. -/
def identityOf (bs : List Byte) : Option (List (Nat × List Byte)) :=
  let n := leAt bs 4 2
  let rs := tlvs n (bs.drop 8)
  let body := tlvBytes rs
  if slice bs 0 4 = [0x49, 0x44, 0x01, 0x00] ∧ slice bs 6 2 = [0, 0] ∧ n ≤ bs.length ∧ n = 8 + body.length + 6 ∧
      slice bs 8 (body.length + 2) = body ++ [0xFF, 0x04] ∧
      leAt bs (n - 4) 4 = (crc32c (slice bs 0 (n - 4))).toNat then some rs
  else none

/-- The value of a TYPE with its length. -/
def tlvValue (rs : List (Nat × List Byte)) (type len : Nat) : Option (List Byte) :=
  (rs.find? fun r => r.1 == type && r.2.length == len).map (·.2)

/-- One memory is read. -/
def State.readMemory (s : State) (i : BootInput) (address : Nat) : State × List (Nat × List Byte) :=
  match i.memories.find? fun m => m.1 == address with
  | none => (s.logEv 6 none .idMissing [address], [])
  | some m => match identityOf m.2 with
    | some rs => (s, rs)
    | none => (s.logEv 6 none .idCorrupt [address], [])

/-- Four values of PHY_ASYM, 0 by default. -/
def asymOf (rs : List (Nat × List Byte)) : List Half :=
  match tlvValue rs 0x20 8 with
  | some v => (List.range 4).map fun n => BitVec.ofNat 16 (leAt v (2 * n) 2)
  | none => List.replicate 4 0

/-- AI_CAL of a memory: gain corrections and offsets, 0 by default, which is gain 1 and offset 0 (R384, R386). -/
def calOf (rs : List (Nat × List Byte)) : List (Half × Half) :=
  match tlvValue rs 0x30 192 with
  | some v => (List.range 48).map fun i => (BitVec.ofNat 16 (leAt v (4 * i) 2), BitVec.ofNat 16 (leAt v (4 * i + 2) 2))
  | none => List.replicate 48 (0, 0)

/-- F's calibration memory is loaded (R385). -/
def State.loadCal (s : State) (rs : List (Nat × List Byte)) : State :=
  if s.fFitted then { s with field := { s.field with cal := calOf rs } } else s

/-- Step 4: identity memories and slot ID (R384, R385, R440). -/
def State.readIdentity (s : State) (i : BootInput) : State :=
  let own := s.readMemory i 0
  let plug := own.1.readMemory i 0x50
  let terms := (List.range 8).foldl (fun (acc : State × List (Nat × List Byte)) n =>
    let r := acc.1.readMemory i (0x51 + n)
    (r.1, acc.2 ++ (if r.2.isEmpty then [] else [(0x51 + n, tlvBytes r.2)]))) (plug.1, [])
  let serial := match tlvValue own.2 0x02 4 with
    | some v => leAt v 0 4
    | none => 0
  let pos := (tlvValue plug.2 0x11 2).map fun v => (byteAt v 0, byteAt v 1)
  let mg : Mgmt := { terms.1.mgmt with
    identity := tlvBytes own.2, plug := (0x50, tlvBytes plug.2) :: terms.2, asym := asymOf own.2, nodePos := pos }
  let t := State.loadCal { terms.1 with mgmt := mg } own.2
  (t.setReg .m Reg.mgSerial (BitVec.ofNat 32 serial)).setFld .m Reg.mgBoard 12 8 i.slotId.toNat

/-! ### The TRIAL package (R379 step 5, R402, R403) -/

/-- The package runs its first boot from TRIAL slots. -/
def State.onTrial (s : State) : Bool := s.boot.trial != 0 && !s.boot.unconfirmed

/-- The first component of the package that fails, in the order of TYPE. -/
def State.trialReason (s : State) : Option Nat :=
  let b := s.boot
  if b.trial.getLsbD 0 && b.rejected.isSome then b.rejected
  else if !s.onTrial then none
  else ([1, 2, 3, 4].filter fun n => b.trial.getLsbD n).findSome? fun n => s.bootReason (s.inactive n) (n + 1)

/-- Messages of R402: one at once and one per second for 60 s. -/
def noticeCount : Nat := 61

/-- The package is reverted: every component returns to its previous slot, and what it leaves is barred (R403). -/
def State.revertPackage (s : State) (reason : Nat) : State :=
  let b := s.boot
  let head := s.trialHead b.trial
  let b' : BootRec := { b with
    trial := 0, unconfirmed := false, rejected := none, boots := 0, barred := b.barred ||| b.trial }
  let t := if b.trial.getLsbD 0 then s.startFirmware (b.active.getLsbD 0) else s
  let t := ((t.writeBoot b').setUpdResult reason).showStore
  let t := t.logEv 6 none .updateRejected [(pkgId head).toNat, (pkgVer head).toNat, reason]
  { t with mgmt := { t.mgmt with notice := some (noticeCount, pkgId head, pkgVer head, reason), noticeAt := 0 } }

/-! ### Configuration images (R379 step 6, R382) -/

/-- The units of a TARGET that are there. -/
def State.targets (s : State) (target : Nat) : List RUnit :=
  if target = 0 then (s.liveLanes.filter fun l => !(s.lane l).fenceM).map Lane.unit
  else if target = 1 then (if s.consumers.p1.running then [.p1] else [])
  else if target = 2 then (if s.consumers.p2.running then [.p2] else [])
  else if target = 3 then (if s.consumers.f.running then [.f] else []) else [.m]

/-- VALUE of a record, with the plug's node ID in place of NODE_ID (R382). -/
def State.cfgValue (s : State) (r : CfgRecord) : Word :=
  let channel : Option PDie :=
    if r.target = 1 ∧ r.off = Reg.ttCfgStg ∨ r.target = 2 ∧ r.off = Reg.ttCfgStg + 0x2100000 then some .p1
    else if r.target = 2 ∧ r.off = Reg.ttCfgStg ∨ r.target = 1 ∧ r.off = Reg.ttCfgStg + 0x2100000 then some .p2 else none
  match channel with
  | some p => if s.plugId p = 0 then r.value else withField r.value 15 8 (s.plugId p)
  | none => r.value

/-- The guardian answers a channel's commit, which takes effect when its cycle comes. -/
def State.finishTt (s : State) (p : PDie) : State :=
  let t := (s.guardCheck p.other).guardReply p
  match (t.port p).commit with
  | some c => if c.accepted then t.ttTakeEffect p else t.ttRefuse p 0x0A
  | none => t

/-- A commit that a COMMIT record started goes on until BUSY returns to 0; an armed timing commit stays armed (R81). A field commit
is accepted at once, and the sample instant at which its filters restart is the next (R342; DESIGN CHOICE, log entry 167). -/
def State.finishCommit (s : State) (u : RUnit) (off : Nat) : State :=
  match unitPort u with
  | some p =>
    if off = Reg.ttCommit ∧ s.commitBusy u off = true then s.finishTt p
    else if off = Reg.gwCommit ∧ s.commitBusy u off = true then
      s.gwTakeEffect p
    else s
  | none =>
    if u = .f ∧ off = Reg.fdCommit then
      let r := s.fdAtSample s.ns
      if r.2 then { r.1 with field := { r.1.field with restart := true } } else r.1
    else s

/-- The offset holds a commit register of its unit. -/
def isCommitReg (u : RUnit) (off : Nat) : Bool :=
  match unitLane u with
  | some _ => (List.range 4).any fun k => off == Reg.lnTcfgCommit k
  | none => (unitPort u).isSome && (off == Reg.ttCommit || off == Reg.gwCommit) || u == .f && off == Reg.fdCommit

/-- One record takes effect; `some` refuses the image. -/
def State.applyRecord (s : State) (r : CfgRecord) : State × Option Nat :=
  if r.op = 1 then
    ((s.targets r.target).foldl (fun t u => t.unitStore .mgmt u r.off 4 ((s.cfgValue r).setWidth 64)) s, none)
  else if r.op = 2 then
    let us := s.targets r.target
    let t := us.foldl (fun t u => t.unitStore .mgmt u r.off 4 1) s
    let t := us.foldl (fun t u => t.finishCommit u r.off) t
    (t, if us.any fun u => isCommitReg u r.off && t.fld u r.off 15 8 != 0 then some 0x08 else none)
  else ({ s with mgmt := { s.mgmt with svcIp := (r.value, r.byte4) } }, none)

/-- Records are applied in order until one is refused. -/
def applyRecords : List CfgRecord → State → State × Option Nat
  | [], s => (s, none)
  | r :: rest, s =>
    let x := s.applyRecord r
    match x.2 with
    | some c => (x.1, some c)
    | none => applyRecords rest x.1

/-- One image: checked, then applied. -/
def State.applyImage (s : State) (bs : List Byte) : State × Option Nat :=
  match s.cfgRefusal bs with
  | some c => (s, some c)
  | none => applyRecords (cfgRecords bs) s

/-- `TB_ASYM` from PHY_ASYM (R237). -/
def State.writeAsym (s : State) : State :=
  PDie.list.foldl (fun t p => Port.list.foldl (fun (t : State) q =>
    t.setFld p.unit (Reg.tbAsym q.idx) 15 0 ((s.mgmt.asym[2 * p.idx + q.idx]?).getD 0).toNat) t) s

/-- PWR_RETIRED and the common-region areas of a configuration image (R164, R382; log entry 21). -/
def State.takeImage (s : State) (bs : List Byte) : State :=
  { s with
    areas := (Config.imageAreas bs).map fun x => ⟨x.1, x.2.1, if x.2.2 then .p2 else .p1⟩
    mgmt := { s.mgmt with pwrRetired := bitOf (byteAt bs 9) 0 } }

/-- Step 6: configuration image, then Gallery tables. A refusal names the component. -/
def State.applyConfig (s : State) : State × Option (Nat × Nat) :=
  let bs := (s.running 3).body
  let tables := (s.running 2).body
  let x := (s.writeAsym.takeImage bs).applyImage bs
  match x.2 with
  | some c => (x.1, some (3, c))
  | none =>
    if tables.isEmpty then (x.1, none)
    else
      let y := x.1.applyImage tables
      (y.1, y.2.map fun c => (2, c))

/-! ### Lane images and release (R379 steps 7 to 9, R380, R381) -/

/-- What the lanes' comparison of their hashes finds. -/
inductive ImageCheck where
  | good
  | differ
  | wrong
deriving DecidableEq, Repr

/-- Every lane compares the SHA-256 of what it received with the others' and with the signed component table. -/
def State.checkLaneImage (s : State) (i : BootInput) : ImageCheck :=
  let x := s.running 4
  let got := fun l => receivedBy x.body i.received l
  let first := got s.viewLane
  if !(s.liveLanes.all fun l => sameHash (got l) first) then .differ
  else match compOf x.head 5 with
    | some e => if Config.sha256 first = e.hash then .good else .wrong
    | none => .wrong

/-- The image is loaded into every lane, and every core stands at its ENTRY, held. -/
def State.loadLanes (s : State) (i : BootInput) : State :=
  let body := (s.running 4).body
  s.liveLanes.foldl (fun (t : State) l =>
    let got := receivedBy body i.received l
    Strand.list.foldl (fun (t : State) k =>
      let t := t.loadSection l k (imageSection got k)
      t.setReplica l k { t.replica l k with entry := k.idx * partitionSize + imageEntry got k }) t) s

/-- Step 8: HIST in every lane. -/
def State.showHistory (s : State) : State :=
  if s.recs.histFlag then s.liveLanes.foldl (fun t l => t.setFlag l.unit Reg.rjDbg 9 true) s else s

/-- All live lanes hold one value. -/
def State.lanesAgree (s : State) (off : Nat) : Bool :=
  s.liveLanes.all fun l => s.reg l.unit off == s.reg s.viewLane.unit off

/-- The comparison before the release (R125, R154): every difference is logged. -/
def State.compareCfg (s : State) : State × Bool :=
  let bad := Strand.list.filter fun k => !s.lanesAgree (Reg.vtChkCfg k.idx)
  let t := bad.foldl (fun t k => t.logEv 6 (some k) .vtCfgDiff [k.idx]) s
  let rj := s.lanesAgree Reg.rjCfg
  (if rj then t else t.logEv 6 none .rjCfgDiff [], bad.isEmpty && rj && decide (2 ≤ s.liveLanes.length))

/-- Replicas of retired lanes show RETIRED. -/
def State.showRetired (s : State) : State :=
  (Lane.list.filter s.retired).foldl (fun t x => Lane.list.foldl (fun t l => Strand.list.foldl (fun t k =>
    t.setFld l.unit (Reg.lnRepl k) (3 * x.idx + 2) (3 * x.idx) 4) t) t) s

/-- A TRIAL package that passed becomes UNCONFIRMED (R402). -/
def State.keepTrial (s : State) : State :=
  if s.onTrial then
    State.showStore (s.writeBoot { s.boot with unconfirmed := true, boots := 0, rejected := none })
  else s

/-- Step 9: every strand is released. -/
def State.releaseAll (s : State) : State :=
  let t := s.leaseAtRelease.showRetired
  let t := Strand.list.foldl (fun t k => t.releaseStrand k t.liveLanes) t
  -- Every strand is told of mailboxes that were flushed while it was not running (R369).
  let t := Strand.list.foldl State.tellFlushed t
  let head := (t.running 4).head
  let t := (t.setReg .m Reg.mgPkg (pkgId head)).setReg .m Reg.mgPkgVer (pkgVer head)
  let t : State := { t with mgmt := { t.mgmt with disturbed := false, everReleased := true, releasedAt := t.ns } }
  t.keepTrial.setFld .m Reg.mgStat 31 29 bootReleased

/-! ### One attempt -/

/-- How an attempt goes on. -/
inductive Attempt where
  | released (s : State)
  | failed (s : State)
  | reverts (s : State) (reason : Nat)

/-- Steps 8 and 9. -/
def State.finishBoot (s : State) : Attempt :=
  let x := s.showHistory.compareCfg
  if x.2 then .released x.1.releaseAll else .failed x.1

/-- Step 7. Lanes that have fenced M take no image from it (R123). -/
def State.bootLanes (s : State) (i : BootInput) : Attempt :=
  if s.liveLanes.any fun l => (s.lane l).fenceM then .failed s
  else match s.checkLaneImage i with
  | .differ => .failed (s.logEv 6 none .imgDiff [])
  | .wrong => if s.onTrial && s.boot.trial.getLsbD 4 then .reverts s 0x04 else .failed s
  | .good => (s.loadLanes i).finishBoot

/-- Microcode is loaded into the port dies that have power (R379 step 6). -/
def State.loadMicrocode (s : State) : State :=
  PDie.list.foldl (fun t p => if t.pdOn p then t.setPort p { t.port p with microcode := (t.running 1).body } else t) s

/-- Step 6 and on. -/
def State.bootConfig (s : State) (i : BootInput) : Attempt :=
  let x := s.loadMicrocode.applyConfig
  match x.2 with
  | none => x.1.bootLanes i
  | some (n, c) =>
    let t := x.1.logEv 6 none .cfgRefused [c]
    if s.onTrial && s.boot.trial.getLsbD n then .reverts t c else .failed t

/-- A boot after a revert; nothing is on TRIAL any more. Microcode is loaded and the configuration applied again when the package held
any. -/
def State.bootReverted (s : State) (i : BootInput) (reason : Nat) : Attempt :=
  let again := s.boot.trial.getLsbD 1 || s.boot.trial.getLsbD 2 || s.boot.trial.getLsbD 3 || reason != 0x04
  let t := s.revertPackage reason
  if again then t.bootConfig i else t.bootLanes i

/-- Steps 5 to 9 of a first pass: a TRIAL package that fails its check is reverted first (R402). -/
def State.bootFirst (s : State) (i : BootInput) : Attempt :=
  match s.trialReason with
  | some r => (s.revertPackage r).bootConfig i
  | none => s.bootConfig i

/-- A lane-wide fault of a lane that is not retired has been detected (R172, R173): by the lane itself, on its fault line, or at a
crawlway link whose retirement notice is on its way. -/
def State.laneFaulty (s : State) (x : Lane) : Bool :=
  !s.retired x && (s.fld x.unit Reg.lnLfault 10 8 != 0 || (Lane.list.any fun l => s.flag l.unit Reg.lnLfault x.idx) ||
    s.wires.any fun w => match w with
      | .faultLine l _ => l == x
      | .retireNotice l _ => l == x
      | _ => false)

/-- A lane-wide fault has been detected before the release (R174): during this attempt, before it, or with the retirement of a lane
before the strands were ever released since power-good. -/
def State.bootFault (s : State) (i : BootInput) : Bool :=
  i.laneFault.isSome || Lane.list.any s.laneFaulty || (!s.mgmt.everReleased && Lane.list.any s.retired)

/-- Steps 5 to 9. A lane-wide fault before the release fails the attempt (R174). -/
def State.bootLoad (s : State) (i : BootInput) : Attempt :=
  let s := s.setFld .m Reg.mgStat 31 29 bootLoading
  if s.bootFault i then .failed s
  else
    match s.bootFirst i with
    | .reverts t r => t.bootReverted i r
    | x => x

/-- A failed attempt: the islands lose power and the boot starts again at step 3; the third leaves BOOT_HALT (R379 step
10). -/
def State.bootFails (s : State) (n : Nat) : State :=
  if 3 ≤ n then s.setFld .m Reg.mgStat 31 29 bootHalt
  else
    let t := s.islandsOff 4
    let t : State := { t with
      regs := t.regs.set .m (s.regs.get .m)
      mailboxes := s.mailboxes
      mgmt := s.mgmt }
    ((t.setLastOff 4).setReg .m Reg.mgPwr 0x18000).setFld .m Reg.mgStat 31 29 bootPowering

/-- Slots that the components run from. -/
def slotsRun (b : BootRec) : Nat := (b.active ^^^ b.trial).toNat

/-- Attempt n: steps 3 to 10. -/
def State.bootAttempt (s : State) (i : BootInput) (n : Nat) : State :=
  let t := (s.setFld .m Reg.mgStat 31 29 bootPowering).setFld .m Reg.mgStat 28 27 n
  let t := t.logEv 6 none .boot [n, slotsRun t.boot, Variant.bit t.variant]
  match ((t.powerUp i).readIdentity i).bootLoad i with
  | .released t => t
  | .failed t => t.bootFails n
  | .reverts t _ => t.bootFails n

/-- BOOT (R379): one attempt. After power-good or a power-down it begins in the ROM; after a failed attempt at step 3. A
module that has released its strands, or stands in BOOT_HALT, does not boot. -/
def execBoot (i : BootInput) (s : State) : Out :=
  .next (if !s.supply.good then s
  else if s.bootPhase = bootRom then
    match s.rom with
    | some t => t.bootAttempt i 1
    | none => s
  else if s.bootPhase = bootPowering then s.bootAttempt i (s.fld .m Reg.mgStat 28 27 + 1)
  else s)

end Sys2Proof.Machine
end

