-- ==== Sys2Proof/Machine/Power.lean ====
section
/-! DEFINITION. Power, supply and clocks (R37, R39 to R41, R383, R400, R430 to R432): power-good, the activation of an update,
the hold-up, restarts of M, and lost references. -/

namespace Sys2Proof.Machine

/-! ### Power (R40, R41) -/

/-- Everything at its power-good values, but for what is stored. The mailboxes show FLUSHED once M has power again (R369). -/
def State.afterPower (s : State) : State :=
  let t := s.keepBits (s.keepStored State.reset) .m Reg.mgCaps 0xFFFFFFFF
  { t with supply := { t.supply with mark := s.supply.mark }, mailboxes := flushedMailboxes }

/-- POWER_GOOD (R40, R41, R431): all state is reset; BOOT follows. -/
def execPowerGood (s : State) : Out := .next s.afterPower

/-! ### Supply (R431, R432) -/

/-- SUPPLY_INTERRUPTION (R432): the hold-up takes over, the contact closes (it is closed while HUP_NOW is 1, R441), and the
supply-loss mark is written. -/
def execSupplyInterruption (s : State) : Out :=
  .next (if s.supply.good && !s.supply.holdup then
    let t := s.setFlag .m Reg.mgBoard 31 true
    { t with supply := { t.supply with holdup := true, mark := s.supply.mark || s.mgmt.running && s.mOn } }
  else s)

/-- SUPPLY_RETURN (R432). -/
def execSupplyReturn (s : State) : Out :=
  .next (if s.supply.good && s.supply.holdup then
    let t := (s.setFlag .m Reg.mgBoard 31 false).bump .m Reg.mgBoard 7 0
    { t with supply := { t.supply with holdup := false, mark := false } }
  else s)

/-- HOLDUP_EXHAUSTED (R432): every island is reset at once; what is stored and the mark stay, but for a write of the safe store that
was being made (R388). -/
def execHoldupExhausted (s : State) : Out :=
  .next (if s.supply.good && s.supply.holdup then
    let t := s.cutWrite.afterPower
    let dead := fun (t : State) (d : Die) => t.setConsumer d { t.consumer d with running := false }
    let t := Die.list.foldl dead t
    let t := t.setReg .m Reg.mgPwr 0
    { t with supply := { t.supply with good := false } }
  else s)

/-! ### A die that runs again (R37, R320) -/

/-- The ordinal of the next beat of a lane to arrive at a die. -/
def State.nextToArrive (s : State) (d : Die) (k : Strand) (l : Lane) : Word :=
  let r := s.replica l k
  let waiting := (r.out.filter fun x => x.1 == d).length
  r.ord.get d - BitVec.ofNat 32 (waiting + (s.flying d l k).length)

/-- After the stop the voters go on from the first ordinal that no in-step lane has sent yet; what was held is gone. -/
def State.resyncVoter (s : State) (d : Die) (k : Strand) : State :=
  match (s.voterIn d k).map (s.nextToArrive d k) with
  | [] => s
  | o :: os => (s.setVoter d k { s.voter d k with next := os.foldl serialMax o, ords := [], kept := [] }).showSump d k

/-- One record per strand for the writes lost meanwhile, from the lowest-lettered in-step lane's count (R320). -/
def State.recordLost (s : State) (d : Die) (k : Strand) : State :=
  let lost := (s.consumer d).lost.get k
  let t := s.setConsumer d { s.consumer d with lost := (s.consumer d).lost.set k (Tri.all ⟨0, none⟩) }
  match (s.voterIn d k).head? with
  | some l => match (lost.get l).first with
    | some (a, tag) => t.pwFail d (some k) ⟨6, tag, a, BitVec.ofNat 16 (min (lost.get l).count 0xFFFF)⟩
    | none => t
  | none => t

/-- Every strand's voter at a die that runs again: the record of the writes lost, and the ordinal to go on from. -/
def State.resumeVoters (s : State) (d : Die) : State :=
  Strand.list.foldl (fun t k => (t.recordLost d k).resyncVoter d k) s

/-! ### Restart of M (R383) -/

/-- M's clock runs again, and its voters go on from the beats not sent yet. -/
def State.resumeM (s : State) : State :=
  let t := s.setConsumer .m { s.consumers.m with running := true }
  if s.mOn then t else t.resumeVoters .m

/-- What a restart of M resets and counts: the debug authorisation, mailboxes and locks, sessions and the nonce. -/
def State.resetM (s : State) : State :=
  let t := (s.bump .m Reg.mgStat 23 16).endDebugAuth.mbMRestart.retireLate
  { t with mgmt := { t.mgmt with sessions := [], nonce := none } }

/-- Management firmware resumes its services; a boot that was under way starts again at step 1. -/
def State.goOnM (s : State) : State :=
  if s.bootPhase = bootReleased ∨ s.bootPhase = bootHalt then
    State.logEv { s with mgmt := { s.mgmt with running := true } } 6 none .wdogRestart []
  else
    ({ s with mgmt := { s.mgmt with running := false } }.setFld .m Reg.mgStat 31 29 bootRom).setFld .m Reg.mgStat 28 27 0

/-- WDOG_RESTART (R39, R383): M resumes without changing power; mailboxes and locks reset (R369, R374), sessions and the debug
authorisation end. Until the firmware of a boot that starts again runs, the LEDs keep their last pattern (R430). -/
def execWdogRestart (s : State) : Out :=
  .next (if !s.supply.good then s else s.freezeLeds.disturb.resumeM.resetM.goOnM)

/-! ### References (R37) -/

/-- Management sees a unit that has lost its clock as faulty (R406). -/
def State.seeFault (s : State) (unit mg : Nat) : State := if s.mOn then s.setMgView unit mg else s

/-- A port die whose reference is lost: voters, DMA, KTN channel and CAN stop, and its transmitters fall silent. -/
def State.stopPort (s : State) (p : PDie) : State :=
  let t := s.stopAllChans p
  let t := t.setPort p { t.port p with net := { relisten (t.port p).net with phase := .off }, line := WE.all none }
  let t := t.setConsumer (Die.ofPDie p) { t.consumer (Die.ofPDie p) with running := false }
  t.seeFault (3 + p.idx) 1

/-- A guardian whose reference is lost fails closed; its lease timer counts as expired. -/
def State.stopGuard (s : State) (p : PDie) : State :=
  let t := s.setGuard p { (s.port p).guard with stopped := true }
  (t.requalify p).seeFault (7 + p.idx) 1

/-- F stops: its outputs de-energise, and a commit that waits is lost (R342). -/
def State.stopField (s : State) : State :=
  let t := s.abortCommit .fd
  let t := t.setConsumer .f { t.consumers.f with running := false }
  (t.refreshOuts).seeFault 5 1

/-- M stops: power states stay as they are. -/
def State.stopMgmt (s : State) : State :=
  let t := s.freezeLeds
  State.setConsumer { t with mgmt := { t.mgmt with running := false } } .m { t.consumers.m with running := false }

/-- REF_CLOCK_LOST (R37). The clock monitor of a lane that has power asserts its line, retired or not (R173). -/
def execRefClockLost (r : Ref) (s : State) : Out :=
  .next (match r with
    | .lane l => if s.retired l && !s.flag .m Reg.mgPwr (3 + l.idx) then s else (s.ownFault l .refclk).seeFault l.idx 1
    | .port p => if s.pdOn p then s.stopPort p else s
    | .guard p => if (s.port p).guard.stopped then s else s.stopGuard p
    | .field => if s.fOn then s.stopField else s
    | .mgmt => if s.mOn then s.stopMgmt else s
    | .aon => { s with mgmt := { s.mgmt with aonLost := true } })

/-- A port die runs again: its channel starts from LISTEN, commits in progress were lost (R20). -/
def State.restartPort (s : State) (p : PDie) : State :=
  let d := Die.ofPDie p
  let t := s.setConsumer d { s.consumer d with running := true }
  let t := (t.abortCommit (.tt p)).abortCommit (.gw p)
  let n := NetId.ctl p
  let t := if t.ttEn n then t.setNet n { relisten (t.net n) with phase := .listen } else t
  (t.resumeVoters d).seeFault (3 + p.idx) 0

/-- REF_CLOCK_RESTORED (R37): of a port die that has power. -/
def execRefClockRestored (p : PDie) (s : State) : Out :=
  .next (if s.pdOn p || !s.flag .m Reg.mgPwr (6 + 4 * p.idx) then s else s.restartPort p)

/-! ### Power-down (R40, R291, R378) -/

/-- A port die has acknowledged the quiesce of a lane, or has stopped. -/
def State.quiesceAcked (s : State) (p : PDie) (l : Lane) : Bool :=
  !(s.consumer (Die.ofPDie p)).running || (s.quiesced p l && s.flag p.unit Reg.dmQuiesce 10)

/-- Once both port dies have acknowledged it, management removes power from a retired lane, when PWR_RETIRED is 1 (R378). -/
def State.powerOffRetired (s : State) (domain : Nat) : State :=
  match Lane.ofIdx (domain - 1) with
  | some l =>
    if domain ≠ 0 ∧ s.mgmt.pwrRetired = true ∧ s.consumers.m.running = true ∧ s.retired l = true ∧
        s.quiesceAcked .p1 l = true ∧ s.quiesceAcked .p2 l = true then
      ((s.setFlag .m Reg.mgPwr l.idx false).setFlag .m Reg.mgPwr (3 + l.idx) false).setMgView l.idx 2
    else s
  | none => s

/-- The islands in the order in which they lose power (R40), M-main last. -/
def downOrder : List Nat := islandOrder.reverse.filter fun n => decide (n < 15)

/-- An island that carries DMA, by its bit of `MG_PWR`: the port dies that must acknowledge its quiesce, and the domain (R40,
R291). -/
def dmaDomain (n : Nat) : Option (List PDie × Nat) :=
  if n = 3 ∨ n = 4 ∨ n = 5 then some (PDie.list, n - 2)
  else if n = 6 then some ([.p1], 0)
  else if n = 10 then some ([.p2], 0)
  else none

/-- A port die has acknowledged the quiesce of a domain, or has stopped. -/
def State.domainAcked (s : State) (p : PDie) (domain : Nat) : Bool :=
  !(s.consumer (Die.ofPDie p)).running ||
    (s.flag p.unit Reg.dmQuiesce 9 && s.fld p.unit Reg.dmQuiesce 2 0 == domain && s.flag p.unit Reg.dmQuiesce 10)

/-- Management requests the quiesce of a domain, in place of an earlier one. -/
def State.askQuiesce (s : State) (p : PDie) (domain : Nat) : State :=
  if !(s.consumer (Die.ofPDie p)).running ||
      (s.flag p.unit Reg.dmQuiesce 9 && s.fld p.unit Reg.dmQuiesce 2 0 == domain) then s
  else s.quiesceWrite .mgmt p (BitVec.ofNat 32 (0x1200 + domain))

/-- A lane's memory loses power: its junction links are gone. -/
def State.laneDown (s : State) (l : Lane) : State :=
  let t := s.setLane l { s.lane l with junction := Four.all false }
  Die.list.foldl (fun t d => t.setJLink l d { t.jlink l d with up := ⟨[], [], []⟩, down := ⟨[], [], []⟩ }) t

/-- A lane's cores lose power. -/
def State.coresDown (s : State) (l : Lane) : State :=
  Strand.list.foldl (fun t k => t.setReplica l k { t.replica l k with mode := .stopped, load := none, out := [] }) s

/-- One island loses power. -/
def State.islandDown (s : State) (n : Nat) : State :=
  let t := s.setFlag .m Reg.mgPwr n false
  if n = 14 then t.stopField
  else if n = 6 then t.stopPort .p1
  else if n = 10 then t.stopPort .p2
  else if n = 8 then t.stopGuard .p1
  else if n = 12 then t.stopGuard .p2
  else match Lane.ofIdx n, Lane.ofIdx (n - 3) with
    | some l, _ => t.coresDown l
    | none, some l => t.laneDown l
    | none, none => t

def State.setDown (s : State) (x : Option (Nat × List Nat)) : State := { s with mgmt := { s.mgmt with down := x } }

/-- One step of the power-down under way: the next island loses power, or its quiesce is requested and awaited; with none left
the module is off but for AON. -/
def State.downStep (s : State) : State :=
  match s.mgmt.down with
  | none => s
  | some (cause, []) => s.powerDown cause
  | some (cause, n :: rest) =>
    match dmaDomain n with
    | none => (s.islandDown n).setDown (some (cause, rest))
    | some (ps, domain) =>
      if ps.all fun p => s.domainAcked p domain then (s.islandDown n).setDown (some (cause, rest))
      else ps.foldl (fun t p => t.askQuiesce p domain) s

/-- The power-down goes on as far as it can while M runs. -/
def State.downGo (s : State) : State :=
  if s.mOn then (List.range 16).foldl (fun t _ => t.downStep) s else s

/-- Management powers the module down, in the order of R40; BOOT follows (R378). -/
def State.shutDown (s : State) (cause : Nat) : State :=
  State.downGo (s.setDown (some (cause, downOrder.filter fun n => s.flag .m Reg.mgPwr n)))

/-- QUIESCE_ACK (R291): nothing is outstanding any more. -/
def execQuiesceAck (p : PDie) (s : State) : Out :=
  let domain := s.fld p.unit Reg.dmQuiesce 2 0
  .next (if s.flag p.unit Reg.dmQuiesce 9 && !s.flag p.unit Reg.dmQuiesce 10 && !s.accessOut p domain then
    ((s.setFlag p.unit Reg.dmQuiesce 10 true).powerOffRetired domain).downGo else s)

/-- QUIESCE_TIMEOUT (R292): 1 ms from the request. -/
def execQuiesceTimeout (p : PDie) (s : State) : Out :=
  .next (if s.flag p.unit Reg.dmQuiesce 9 && !s.flag p.unit Reg.dmQuiesce 10 &&
      decide ((s.port p).quiesceAt + 1000000 ≤ s.ns) then
    let t := s.powerAbort p (s.fld p.unit Reg.dmQuiesce 2 0)
    (((t.setFlag p.unit Reg.dmQuiesce 11 true).setFlag p.unit Reg.dmQuiesce 10 true).powerOffRetired
      (s.fld p.unit Reg.dmQuiesce 2 0)).downGo
  else s)

/-! ### Activation (R400) -/

/-- UPD_ACTIVATED (R400): at T every component of the package becomes TRIAL and the module powers down, once (log entry 182);
without a valid time the activation is cancelled. BOOT_HALT is left in no such way (R381). -/
def execUpdActivated (s : State) : Out :=
  .next (if s.updState = updArmed ∧ s.mOn = true ∧ s.bootPhase ≠ bootHalt then
    (match s.updClock with
      | none => s.cancelUpdate 0x11
      | some now =>
        if now.toNat < s.updTime.toNat then s
        else
          let b := s.boot
          let t := s.writeBoot { b with trial := b.staged, staged := 0, armed := none, boots := 0, rejected := none }
          (((t.setUpd updNone).setReg64 .m Reg.mgUpdTLo 0).logEv 6 none .updActivated []).shutDown 2)
  else s)

end Sys2Proof.Machine
end

