-- ==== Sys2Proof/Machine/Service.lean ====
section
/-! DEFINITION. The service protocol (R393 to R395, R397 to R399, R402, R404, R405). -/

namespace Sys2Proof.Machine

/-! ### Messages (R393) -/

/-- A service message: OP, FLAGS, SEQ, TARGET and body, with its length and CRC. -/
def svcMessage (op flags : Nat) (seq : Half) (target : Word) (body : List Byte) : List Byte :=
  let head := [0x4B, 0x53, BitVec.ofNat 8 op, BitVec.ofNat 8 flags] ++ leBytes 2 seq.toNat ++ leBytes 2 body.length ++
    leBytes 4 target.toNat
  let bytes := head ++ body
  bytes ++ leBytes 4 (crc32c bytes).toNat

/-- Management firmware queues a frame at a port die that runs (R315, R377). -/
def State.offerMg (s : State) (p : PDie) (bytes : List Byte) : State :=
  if s.pdOn p then s.queueMg p (.plain bytes) else s

/-- Management firmware takes the message: mark, length and CRC are right, and it is addressed to this module. -/
def State.svcTakes (s : State) (h : SvcHead) : Bool :=
  h.good && s.supply.good && s.mgmt.running && s.mOn && (h.target == 0 || h.target == s.serial)

/-- STATUS codes. -/
def svcOk : Nat := 0
def svcNotAuth : Nat := 2
def svcBadState : Nat := 3
def svcBadCrc : Nat := 4
def svcRange : Nat := 5
def svcFenced : Nat := 7

/-- The response, to whoever asked; a message with TARGET 0 gets none. -/
def State.respond (s : State) (h : SvcHead) (op status : Nat) (body : List Byte) : State :=
  if h.target = 0 then s
  else
    let full := leBytes 2 status ++ body
    let reply : SvcReply := ⟨h.from', h.seq, op, status, body⟩
    let keep : State := { s with mgmt := { s.mgmt with replies := s.mgmt.replies ++ [reply] } }
    match h.from' with
    | .x6 _ _ => keep
    | .ktn p _ => if s.pdOn p then s.offerMg p (svcMessage op 1 h.seq h.target full) else keep

/-- The requester's session (R395). -/
def State.session (s : State) (r : Requester) : Option Session := s.mgmt.sessions.find? fun x => x.who == r && decide (s.ns < x.until')

/-- A session lasts 600 s (R395). -/
def sessionNs : Nat := 600000000000

/-- An operation outside a session is refused. -/
def State.authed (s : State) (h : SvcHead) (op : Nat) (f : State → State) : State :=
  if (s.session h.from').isSome then f s else s.respond h op svcNotAuth []

/-! ### Operations without a session (R394, R395) -/

/-- INFO. -/
def execInfo (h : SvcHead) (s : State) : Out :=
  .next (if s.svcTakes h then
    s.respond h 0x01 svcOk (leBytes 4 s.capsWord.toNat ++
      [Reg.mgSerial, Reg.mgStat, Reg.mgSlots, Reg.mgUpd].flatMap fun r => leBytes 4 (s.reg .m r).toNat)
  else s)

/-- NONCE: the fresh value is an operand. -/
def execNonce (h : SvcHead) (value : List Byte) (s : State) : Out :=
  .next (if s.svcTakes h then
    let v := slice value 0 16
    State.respond { s with mgmt := { s.mgmt with nonce := some v } } h 0x02 svcOk v
  else s)

/-- The checks of AUTH. -/
def State.authOk (s : State) (slot : Nat) (key sig : List Byte) : Bool :=
  let k := s.otpKey slot
  match s.mgmt.nonce with
  | none => false
  | some n =>
    !k.revoked && k.service && decide (key.length = 64) && decide (sig.length = 64) && Config.sha256 key == k.hash &&
      Config.signatureOk key (n ++ leBytes 4 s.serial.toNat) sig

/-- AUTH: the nonce is used up; a session replaces an earlier one of the same requester. -/
def execAuth (h : SvcHead) (slot : Nat) (key sig : List Byte) (s : State) : Out :=
  .next (if s.svcTakes h then
    let ok := s.authOk slot key sig
    let t : State := { s with mgmt := { s.mgmt with nonce := none } }
    if ok then
      let x : Session := ⟨h.from', (s.otpKey slot).debug, s.ns + sessionNs⟩
      State.respond { t with mgmt := { t.mgmt with
        sessions := (t.mgmt.sessions.filter fun y => y.who != h.from') ++ [x] } } h 0x03 svcOk []
    else t.respond h 0x03 svcNotAuth []
  else s)

/-- CODE of a log entry (R391). -/
def LogCode.num : LogCode → Nat
  | .writeIgnored => 0x0001
  | .rsvdWrite => 0x0002
  | .capsAbsent => 0x0003
  | .unmapped => 0x0004
  | .logFlood => 0x0005
  | .evSolo => 0x0100
  | .rdTimeout => 0x0101
  | .vtCfgDiff => 0x0102
  | .strandHalt => 0x0103
  | .rjCfgDiff => 0x0104
  | .laneRetired => 0x0105
  | .dbgRefused => 0x0106
  | .poison => 0x0107
  | .linkFail => 0x0108
  | .idConflict => 0x0200
  | .modeExpired => 0x0201
  | .inaugRange => 0x0202
  | .noMode => 0x0203
  | .pathChange => 0x0204
  | .pathAlarm => 0x0205
  | .gdLatched => 0x0206
  | .dmLocked => 0x0207
  | .gwEcc => 0x0208
  | .lsCfgDiff => 0x0209
  | .lsCfgBad => 0x020A
  | .mbForeign => 0x0300
  | .smBadRelease => 0x0301
  | .smForced => 0x0302
  | .boot => 0x0400
  | .imgDiff => 0x0401
  | .cfgRefused => 0x0402
  | .idMissing => 0x0403
  | .idCorrupt => 0x0404
  | .ssEmpty => 0x0405
  | .migrated => 0x0406
  | .wdogRestart => 0x0407
  | .aonClock => 0x0408
  | .mgDisagree => 0x0409
  | .updStaged => 0x0500
  | .updArmed => 0x0501
  | .updCancelled => 0x0502
  | .updActivated => 0x0503
  | .updateRejected => 0x0504
  | .updConfirmed => 0x0505
  | .dbgAuth => 0x0600
  | .dbgAttach => 0x0601
  | .dsWarn => 0x0700
  | .policyClamped => 0x0701

/-- FLAGS of a log entry. -/
def LogEntry.flags (e : LogEntry) : Nat :=
  bitNat e.tvalid + match e.strand with
    | some k => 8 + 2 * k.idx
    | none => 0

/-- The 32 bytes of a log entry (R391); ARG holds the first three arguments as words (log entry 23). -/
def logBytes (e : LogEntry) : List Byte :=
  let bs := leBytes 8 e.time.toNat ++ leBytes 4 e.seq.toNat ++ leBytes 2 e.code.num ++ leBytes 1 e.src ++
    leBytes 1 e.flags ++ (List.range 3).flatMap fun i => leBytes 4 ((e.arg[i]?).getD 0)
  bs ++ leBytes 4 (crc32c bs).toNat

/-- LOG_READ: the entries held whose numbers lie in the range asked for. -/
def execLogRead (h : SvcHead) (first : Word) (count : Nat) (s : State) : Out :=
  .next (if s.svcTakes h then
    if count = 0 ∨ 40 < count then s.respond h 0x04 svcRange []
    else
      let hits := (List.range count).filterMap fun i =>
        s.log.entries.find? fun e => e.seq == first + BitVec.ofNat 32 i
      s.respond h 0x04 svcOk (hits.flatMap logBytes)
  else s)

/-- IDENT_READ. -/
def execIdentRead (h : SvcHead) (address : Nat) (s : State) : Out :=
  .next (if s.svcTakes h then
    if address = 0 then s.respond h 0x05 svcOk s.mgmt.identity
    else if 0x50 ≤ address ∧ address ≤ 0x58 then
      s.respond h 0x05 svcOk (match s.mgmt.plug.find? fun x => x.1 == address with
        | some x => x.2
        | none => [])
    else s.respond h 0x05 svcRange []
  else s)

/-! ### Staging (R397, R398) -/

/-- STAGE_BEGIN. -/
def execStageBegin (h : SvcHead) (length : Nat) (crc : Word) (s : State) : Out :=
  .next (if s.svcTakes h then
    s.authed h 0x10 fun s =>
      if s.updState = updArmed ∨ s.updState = updUnconfirmed then s.respond h 0x10 svcBadState []
      else
        let t : State := { s with mgmt := { s.mgmt with staging := some (length, crc, []) } }
        let t := (t.writeBoot { t.boot with staged := 0 }).showBoot
        (t.setUpd updStaging).respond h 0x10 svcOk []
  else s)

/-- The byte of a transfer at an offset: the latest received. -/
def partByte (parts : List (Nat × List Byte)) (i : Nat) : Option Byte :=
  parts.findSome? fun x => if x.1 ≤ i then x.2[i - x.1]? else none

/-- The first `n` bytes from an offset that have been received without a gap. -/
def received (parts : List (Nat × List Byte)) : Nat → Nat → List Byte
  | _, 0 => []
  | i, n + 1 =>
    match partByte parts i with
    | some b => b :: received parts (i + 1) n
    | none => []

/-- The header with component table and signature, once it has been received whole. -/
def transferHead (parts : List (Nat × List Byte)) : Option (List Byte) :=
  let fixed := received parts 0 128
  if fixed.length < 128 then none
  else
    let n := 128 + 48 * min 5 (pkgNcomp fixed) + 64
    let head := received parts 0 n
    if head.length = n then some head else none

/-- The components that a table names. -/
def goodComps (head : List Byte) : List CompEntry :=
  (pkgComps head).filter fun e => decide (1 ≤ e.type) && decide (e.type ≤ 5)

/-- Each component is written into the inactive slot of its TYPE. -/
def State.storeParts (s : State) (parts : List (Nat × List Byte)) : State :=
  match transferHead parts with
  | none => s
  | some head => (goodComps head).foldl (fun (t : State) e =>
      let i := e.type - 1
      t.setFlashSlot i (!t.boot.active.getLsbD i) ⟨head, received parts e.off e.len⟩) s

/-- STAGE_DATA. -/
def execStageData (h : SvcHead) (offset : Nat) (bytes : List Byte) (s : State) : Out :=
  .next (if s.svcTakes h then
    s.authed h 0x11 fun s =>
      match s.mgmt.staging with
      | none => s.respond h 0x11 svcBadState []
      | some (len, crc, parts) =>
        if len < offset + bytes.length then s.respond h 0x11 svcRange []
        else
          let parts := (offset, bytes) :: parts
          let t : State := { s with mgmt := { s.mgmt with staging := some (len, crc, parts) } }
          (t.storeParts parts).respond h 0x11 svcOk []
  else s)

/-- The transfer is whole: its length is TOTAL and its CRC is TCRC and the one announced. -/
def transferOk (len : Nat) (crc : Word) (parts : List (Nat × List Byte)) : Bool :=
  let bs := received parts 0 len
  let sum := crc32c (bs.take (len - 4))
  decide (bs.length = len) && decide (4 ≤ len) && decide (pkgTotal bs = len) && leAt bs (len - 4) 4 == sum.toNat && crc == sum

/-- STAGE_END. -/
def execStageEnd (h : SvcHead) (s : State) : Out :=
  .next (if s.svcTakes h then
    s.authed h 0x12 fun s =>
      match s.mgmt.staging with
      | none => s.respond h 0x12 svcBadState []
      | some (len, crc, parts) =>
        let t : State := { s with mgmt := { s.mgmt with staging := none } }
        if transferOk len crc parts then
          let bits := (goodComps ((transferHead parts).getD [])).foldl (fun w e => withBit w (e.type - 1) true) (0 : BitVec 5)
          let t := ((t.writeBoot { t.boot with staged := bits }).showBoot.setUpd updStaged).logEv 6 none .updStaged []
          t.respond h 0x12 svcOk []
        else (t.setUpd updNone).respond h 0x12 svcBadCrc []
  else s)

/-! ### Arming, reverting, rebooting (R394, R399, R404) -/

/-- 1 s and 7 days in ns. -/
def armMin : Nat := 1000000000
def armMax : Nat := 604800000000000

/-- T lies between 1 s and 7 days ahead of the network time of the port die used. -/
def State.armInRange (s : State) (t : Dword) : Bool :=
  match s.updClock with
  | some n => decide (n.toNat + armMin ≤ t.toNat) && decide (t.toNat ≤ n.toNat + armMax)
  | none => false

/-- ARM. What was rejected and is staged and armed anew may boot again (R403). -/
def execArm (h : SvcHead) (t : Dword) (s : State) : Out :=
  .next (if s.svcTakes h then
    s.authed h 0x13 fun s =>
      if s.updState ≠ updStaged then s.respond h 0x13 svcBadState []
      else if s.mFenced then (s.setUpdResult 0x13).respond h 0x13 svcFenced []
      else if !s.armInRange t then s.respond h 0x13 svcRange []
      else
        let b := s.boot
        let u := (s.writeBoot { b with armed := some t, barred := b.barred &&& ~~~b.staged }).setUpd updArmed
        let u := (u.setReg64 .m Reg.mgUpdTLo t).raiseAll .m 217
        (u.logEv 6 none .updArmed [t.toNat]).respond h 0x13 svcOk []
  else s)

/-- CANCEL. -/
def execCancel (h : SvcHead) (s : State) : Out :=
  .next (if s.svcTakes h then
    s.authed h 0x14 fun s =>
      if s.updState = updArmed then (s.cancelUpdate 0x12).respond h 0x14 svcOk [] else s.respond h 0x14 svcBadState []
  else s)

/-- Some other slot holds a package (R404) that was not rejected (R403). -/
def State.canRevert (s : State) : Bool :=
  (List.range 5).any fun i => !(s.idleSlot i).head.isEmpty && !s.boot.barred.getLsbD i

/-- REVERT: at the next boot. -/
def execRevert (h : SvcHead) (s : State) : Out :=
  .next (if s.svcTakes h then
    s.authed h 0x15 fun s =>
      if s.canRevert then (s.writeBoot { s.boot with revert := true }).respond h 0x15 svcOk []
      else s.respond h 0x15 svcBadState []
  else s)

/-- A power-down request that management refuses after the release is logged (R378). -/
def State.refusePowerDown (s : State) : State := if s.bootPhase = bootReleased then s.ignored .m Reg.mgPwr .mgmt else s

/-- REBOOT: BOOT follows. -/
def execReboot (h : SvcHead) (s : State) : Out :=
  .next (if s.svcTakes h then
    let s := if (s.session h.from').isNone then s.refusePowerDown else s
    s.authed h 0x16 fun s => (s.respond h 0x16 svcOk []).shutDown 3
  else s)

/-! ### Debug authorisation (R405) -/

/-- A minute in ns. -/
def minuteNs : Nat := 60000000000

/-- DEBUG_AUTH. -/
def execDebugAuth (h : SvcHead) (minutes : Nat) (s : State) : Out :=
  .next (if s.svcTakes h then
    match s.session h.from' with
    | none => s.respond h 0x20 svcNotAuth []
    | some x =>
      if !x.debug then s.respond h 0x20 svcNotAuth []
      else if s.mFenced then s.respond h 0x20 svcFenced []
      else if minutes = 0 ∨ 480 < minutes then s.respond h 0x20 svcRange []
      else
        let t := (s.setFlag .m Reg.mgDbg 31 true).setFld .m Reg.mgDbg 8 0 minutes
        let t := t.setDbgUntil (t.ns + minutes * minuteNs)
        (t.logEv 6 none .dbgAuth [1, minutes]).respond h 0x20 svcOk []
  else s)

/-- DEBUG_REVOKE. -/
def execDebugRevoke (h : SvcHead) (s : State) : Out :=
  .next (if s.svcTakes h then s.authed h 0x21 fun s => s.endDebugAuth.respond h 0x21 svcOk [] else s)

/-- DEBUG_AUTH_EXPIRE. -/
def execDebugAuthExpire (s : State) : Out :=
  .next (if s.mOn && decide (s.mgmt.dbgUntil ≤ s.ns) then s.endDebugAuth else s)

/-- SESSION_EXPIRE (R395): the sessions whose 600 s are over end. -/
def execSessionExpire (s : State) : Out :=
  .next (if s.mOn then
    { s with mgmt := { s.mgmt with sessions := s.mgmt.sessions.filter fun x => decide (s.ns < x.until') } } else s)

/-! ### UPDATE_REJECTED (R402) -/

/-- UPDATE_REJECTED: one message on every ACTIVE channel, a second after the one before, while any is left to send. Its SEQ is left open (log entry 6). -/
def execUpdateRejected (s : State) : Out :=
  let ready := PDie.list.filter fun p => s.pdOn p && (s.port p).net.phase == .active
  .next (match s.mgmt.notice with
    | some (n, id, ver, reason) =>
      if ready.isEmpty || !s.mOn || !s.mgmt.running || decide (s.ns < s.mgmt.noticeAt) then s
      else
        let body := leBytes 4 id.toNat ++ leBytes 4 ver.toNat ++ [(BitVec.ofNat 8 reason : Byte)]
        let bytes := svcMessage 0x40 0 (s.freeVal.extractLsb' 0 16) 0 body
        let t := ready.foldl (fun (t : State) p => t.offerMg p bytes) s.useFree
        { t with mgmt := { t.mgmt with
          notice := if n ≤ 1 then none else some (n - 1, id, ver, reason), noticeAt := t.ns + 1000000000 } }
    | none => s)

/-! ### Messages over KTN (R393, R394) -/

/-- A message of a requester: its frame, operation and body; none for one whose MARK, BLEN or CRC is wrong, or that is a response. -/
def svcParse (who : Requester) (bs : List Byte) : Option (SvcHead × Nat × List Byte) :=
  let n := leAt bs 6 2
  if slice bs 0 2 = [0x4B, 0x53] ∧ n ≤ 1408 ∧ bs.length = n + 16 ∧ leAt bs (12 + n) 4 = (crc32c (bs.take (12 + n))).toNat ∧
      bitOf (byteAt bs 3) 0 = false then
    some (⟨who, BitVec.ofNat 16 (leAt bs 4 2), BitVec.ofNat 32 (leAt bs 8 4), true⟩, (byteAt bs 2).toNat, slice bs 12 n)
  else none

def svcBadOp : Nat := 1

/-- The state that an operation leaves. -/
def outState : Out → State → State
  | .next t, _ => t
  | _, s => s

/-- The body of a request is as long as the fields of its operation (R394). -/
def svcBodyOk (op n : Nat) : Bool :=
  if op = 0x03 then n == 129
  else if op = 0x04 then n == 5
  else if op = 0x05 then n == 1
  else if op = 0x10 ∨ op = 0x13 then n == 8
  else if op = 0x11 then decide (4 ≤ n)
  else if op = 0x20 then n == 2
  else if [0x01, 0x02, 0x12, 0x14, 0x15, 0x16, 0x21].contains op then n == 0 else true

/-- An operation of R394 with the fields of its body. -/
def State.svcOp (s : State) (h : SvcHead) (op : Nat) (b : List Byte) : Out :=
  if op = 0x01 then execInfo h s
  else if op = 0x02 then
    let t := s.useFree
    execNonce h (leBytes 8 s.freeVal.toNat ++ leBytes 8 t.freeVal.toNat) t.useFree
  else if op = 0x03 then execAuth h (byteAt b 0).toNat (slice b 1 64) (slice b 65 64) s
  else if op = 0x04 then execLogRead h (BitVec.ofNat 32 (leAt b 0 4)) (byteAt b 4).toNat s
  else if op = 0x05 then execIdentRead h (byteAt b 0).toNat s
  else if op = 0x10 then execStageBegin h (leAt b 0 4) (BitVec.ofNat 32 (leAt b 4 4)) s
  else if op = 0x11 then execStageData h (leAt b 0 4) (b.drop 4) s
  else if op = 0x12 then execStageEnd h s
  else if op = 0x13 then execArm h (BitVec.ofNat 64 (leAt b 0 8)) s
  else if op = 0x14 then execCancel h s
  else if op = 0x15 then execRevert h s
  else if op = 0x16 then execReboot h s
  else if op = 0x20 then execDebugAuth h (leAt b 0 2) s
  else if op = 0x21 then execDebugRevoke h s
  else .next (if s.svcTakes h then s.respond h op svcBadOp [] else s)

/-- A message that management firmware took from a MGOWN slot. A body that is not as long as its operation's is out of RANGE (log
entry 164). -/
def State.svcRun (s : State) (who : Requester) (bs : List Byte) : State :=
  match svcParse who bs with
  | none => s
  | some (h, op, b) =>
    if svcBodyOk op b.length then outState (s.svcOp h op b) s
    else if s.svcTakes h then s.respond h op svcRange [] else s

/-- A payload of the service protocol. -/
def isSvc (bs : List Byte) : Bool := slice bs 0 2 == [0x4B, 0x53]

/-- Management firmware takes the service messages among the frames that a port die has delivered to it (R203, R393). -/
def State.takeSvc (s : State) (p : PDie) : State :=
  if s.mOn && s.mgmt.running then
    let t := s.setPort p { s.port p with mgIn := (s.port p).mgIn.filter fun x => !isSvc x.2 }
    ((s.port p).mgIn.filter fun x => isSvc x.2).foldl (fun t x => t.svcRun (.ktn p x.1) x.2) t
  else s

end Sys2Proof.Machine
end

