-- ==== Sys2Proof/Machine/Dispatch.lean ====
section
/-! DEFINITION. The dispatch: for every command the one meaning it has. -/

namespace Sys2Proof.Machine

/-- The effect of a command on everything but the queue of commands. -/
def exec (i : Instr) (s : State) : Host.Outcome State Fault Refusal :=
  match i with
  | .genericRegisterWrite m u w => Sys2Proof.Machine.execGenericRegisterWrite m u w s
  | .rcRead m u off size => Sys2Proof.Machine.execRcRead m u off size s
  | .absentUnitAccess l k addr size write => Sys2Proof.Machine.execAbsentUnitAccess l k addr size write s
  | .commitAbortedByReset b => Sys2Proof.Machine.execCommitAbortedByReset b s
  | .powerGood => Sys2Proof.Machine.execPowerGood s
  | .boot inp => Sys2Proof.Machine.execBoot inp s
  | .wdogRestart => Sys2Proof.Machine.execWdogRestart s
  | .refClockLost r => Sys2Proof.Machine.execRefClockLost r s
  | .flitReplay k => Sys2Proof.Machine.execFlitReplay k s
  | .crawlwayLinkFailed l other => Sys2Proof.Machine.execCrawlwayLinkFailed l other s
  | .linkFail l d => Sys2Proof.Machine.execLinkFail l d s
  | .echoTimeout l k point => Sys2Proof.Machine.execEchoTimeout l k point s
  | .kc64Instruction l k op regs => Sys2Proof.Machine.execKc64Instruction l k op regs s
  | .waitForEvent l k => Sys2Proof.Machine.execWaitForEvent l k s
  | .idleAdvance l k => Sys2Proof.Machine.execIdleAdvance l k s
  | .eventPoint l k => Sys2Proof.Machine.execEventPoint l k s
  | .agreedSetApply l k => Sys2Proof.Machine.execAgreedSetApply l k s
  | .strandTimerExpire l k t => Sys2Proof.Machine.execStrandTimerExpire l k t s
  | .publicationReceive l sender p => Sys2Proof.Machine.execPublicationReceive l sender p s
  | .pairClaimReceive l c => Sys2Proof.Machine.execPairClaimReceive l c s
  | .occurrenceLatch l d k o => Sys2Proof.Machine.execOccurrenceLatch l d k o s
  | .evSolo l k o => Sys2Proof.Machine.execEvSolo l k o s
  | .fstaleTimeout l => Sys2Proof.Machine.execFstaleTimeout l s
  | .fieldTripleReceive l t => Sys2Proof.Machine.execFieldTripleReceive l t s
  | .starveTimeout l k => Sys2Proof.Machine.execStarveTimeout l k s
  | .starveClaimReceive l sender k => Sys2Proof.Machine.execStarveClaimReceive l sender k s
  | .lateClaim l k point => Sys2Proof.Machine.execLateClaim l k point s
  | .lateClaimReceive l c => Sys2Proof.Machine.execLateClaimReceive l c s
  | .sqSend l k data => Sys2Proof.Machine.execSqSend l k data s
  | .sqCopyArrive l src dst m => Sys2Proof.Machine.execSqCopyArrive l src dst m s
  | .sqRxpop l k data => Sys2Proof.Machine.execSqRxpop l k data s
  | .epochMark l k => Sys2Proof.Machine.execEpochMark l k s
  | .swEventSet l k data => Sys2Proof.Machine.execSwEventSet l k data s
  | .evPendClear l k n data => Sys2Proof.Machine.execEvPendClear l k n data s
  | .tcfgCommitGo l k => Sys2Proof.Machine.execTcfgCommitGo l k s
  | .tcfgGoTimeout k => Sys2Proof.Machine.execTcfgGoTimeout k s
  | .beatSend l k => Sys2Proof.Machine.execBeatSend l k s
  | .beatArrive d l b ecc => Sys2Proof.Machine.execBeatArrive d l b ecc s
  | .voterSkewTimeout d k ordinal => Sys2Proof.Machine.execVoterSkewTimeout d k ordinal s
  | .beatRelease d k ecc => Sys2Proof.Machine.execBeatRelease d k ecc s
  | .readOncePerform d k ecc => Sys2Proof.Machine.execReadOncePerform d k ecc s
  | .rdTimeout l k => Sys2Proof.Machine.execRdTimeout l k s
  | .challengeBeatArrive d l k data => Sys2Proof.Machine.execChallengeBeatArrive d l k data s
  | .exclusionNoticeReceive l k repl c => Sys2Proof.Machine.execExclusionNoticeReceive l k repl c s
  | .splitNoticeReceive l k c => Sys2Proof.Machine.execSplitNoticeReceive l k c s
  | .fetchCopyArrive p k id l ue => Sys2Proof.Machine.execFetchCopyArrive p k id l ue s
  | .fetchSkewTimeout p k id => Sys2Proof.Machine.execFetchSkewTimeout p k id s
  | .broadcastWriteLand l w ue => Sys2Proof.Machine.execBroadcastWriteLand l w ue s
  | .scrubHashDone l k => Sys2Proof.Machine.execScrubHashDone l k s
  | .scrubCompare k => Sys2Proof.Machine.execScrubCompare k s
  | .restart k image received => Sys2Proof.Machine.execRestart k image received s
  | .rejoin k repl => Sys2Proof.Machine.execRejoin k repl s
  | .abandon k => Sys2Proof.Machine.execAbandon k s
  | .autoRejoinRequest k repl => Sys2Proof.Machine.execAutoRejoinRequest k repl s
  | .rejoinStart k => Sys2Proof.Machine.execRejoinStart k s
  | .copyPassEnd => Sys2Proof.Machine.execCopyPassEnd s
  | .rejoinHold => Sys2Proof.Machine.execRejoinHold s
  | .holdAck p => Sys2Proof.Machine.execHoldAck p s
  | .holdTimeout => Sys2Proof.Machine.execHoldTimeout s
  | .joinNotice => Sys2Proof.Machine.execJoinNotice s
  | .stallOver => Sys2Proof.Machine.execStallOver s
  | .laneRetire l c => Sys2Proof.Machine.execLaneRetire l c s
  | .faultLineAssert l c => Sys2Proof.Machine.execFaultLineAssert l c s
  | .memoryUe l loc addr => Sys2Proof.Machine.execMemoryUe l loc addr s
  | .patrolRead l f addr => Sys2Proof.Machine.execPatrolRead l f addr s
  | .debugAttach k repl => Sys2Proof.Machine.execDebugAttach k repl s
  | .debugRequest l k r => Sys2Proof.Machine.execDebugRequest l k r s
  | .dbgEnChange on => Sys2Proof.Machine.execDbgEnChange on s
  | .portLinkChange p port up => Sys2Proof.Machine.execPortLinkChange p port up s
  | .cycleStart p => Sys2Proof.Machine.execCycleStart p s
  | .cycleEndSync p => Sys2Proof.Machine.execCycleEndSync p s
  | .holdoverExpire p => Sys2Proof.Machine.execHoldoverExpire p s
  | .ownFrameSend p slot ue => Sys2Proof.Machine.execOwnFrameSend p slot ue s
  | .frameForward p port f ago residence => Sys2Proof.Machine.execFrameForward p port f ago residence s
  | .frameReceive p port f ago ue => Sys2Proof.Machine.execFrameReceive p port f ago ue s
  | .pathDropExpire p node => Sys2Proof.Machine.execPathDropExpire p node s
  | .modeRequest p k data => Sys2Proof.Machine.execModeRequest p k data s
  | .modeReqReceive p f => Sys2Proof.Machine.execModeReqReceive p f s
  | .modeExpired p => Sys2Proof.Machine.execModeExpired p s
  | .listenTimeout p => Sys2Proof.Machine.execListenTimeout p s
  | .backoffExpire p => Sys2Proof.Machine.execBackoffExpire p s
  | .idConflictClear p => Sys2Proof.Machine.execIdConflictClear p s
  | .inaugRecordExpire p => Sys2Proof.Machine.execInaugRecordExpire p s
  | .inaugViewStable p => Sys2Proof.Machine.execInaugViewStable p s
  | .linkDelaySend p => Sys2Proof.Machine.execLinkDelaySend p s
  | .linkDelayReceive p port f ago => Sys2Proof.Machine.execLinkDelayReceive p port f ago s
  | .linkDelayUpdate p port => Sys2Proof.Machine.execLinkDelayUpdate p port s
  | .linkDelayStale p port => Sys2Proof.Machine.execLinkDelayStale p port s
  | .ttCommitGo p => Sys2Proof.Machine.execTtCommitGo p s
  | .guardCommitReply p => Sys2Proof.Machine.execGuardCommitReply p s
  | .guardTimeout p => Sys2Proof.Machine.execGuardTimeout p s
  | .ttCommitTakeEffect p => Sys2Proof.Machine.execTtCommitTakeEffect p s
  | .guardCommitCheck p => Sys2Proof.Machine.execGuardCommitCheck p s
  | .guardFrameTap p port own f ago => Sys2Proof.Machine.execGuardFrameTap p port own f ago s
  | .guardCycleEnd p => Sys2Proof.Machine.execGuardCycleEnd p s
  | .guardListenTimeout p => Sys2Proof.Machine.execGuardListenTimeout p s
  | .guardHoldExpire p => Sys2Proof.Machine.execGuardHoldExpire p s
  | .guardTxAttempt p t => Sys2Proof.Machine.execGuardTxAttempt p t s
  | .guardLengthLimit p t lasted => Sys2Proof.Machine.execGuardLengthLimit p t lasted s
  | .guardReset p => Sys2Proof.Machine.execGuardReset p s
  | .guardFenceCommand p l => Sys2Proof.Machine.execGuardFenceCommand p l s
  | .tsqPop m p port => Sys2Proof.Machine.execTsqPop m p port s
  | .triggerFire p t => Sys2Proof.Machine.execTriggerFire p t s
  | .triggerWrite m p w => Sys2Proof.Machine.execTriggerWrite m p w s
  | .captureEdge p c e => Sys2Proof.Machine.execCaptureEdge p c e s
  | .dmaEnable m p ch => Sys2Proof.Machine.execDmaEnable m p ch s
  | .dmaDisable m p ch => Sys2Proof.Machine.execDmaDisable m p ch s
  | .resume m p ch => Sys2Proof.Machine.execResume m p ch s
  | .dmaDoorbell m p ch data => Sys2Proof.Machine.execDmaDoorbell m p ch data s
  | .descriptorStart p ch => Sys2Proof.Machine.execDescriptorStart p ch s
  | .descriptorComplete p ch => Sys2Proof.Machine.execDescriptorComplete p ch s
  | .dmaBusTimeout p k id l => Sys2Proof.Machine.execDmaBusTimeout p k id l s
  | .quiesceRequest p domain => Sys2Proof.Machine.execQuiesceRequest p domain s
  | .quiesceAck p => Sys2Proof.Machine.execQuiesceAck p s
  | .quiesceTimeout p => Sys2Proof.Machine.execQuiesceTimeout p s
  | .quiesceRelease p => Sys2Proof.Machine.execQuiesceRelease p s
  | .gwCommitGo p => Sys2Proof.Machine.execGwCommitGo p s
  | .gwCommitTakeEffect p => Sys2Proof.Machine.execGwCommitTakeEffect p s
  | .pduArrival p pdu payload => Sys2Proof.Machine.execPduArrival p pdu payload s
  | .pduExchange p pdu => Sys2Proof.Machine.execPduExchange p pdu s
  | .gwSwDataWrite k p w => Sys2Proof.Machine.execGwSwDataWrite k p w s
  | .gwSwPub k p data => Sys2Proof.Machine.execGwSwPub k p data s
  | .gwEventProcess p second => Sys2Proof.Machine.execGwEventProcess p second s
  | .gwFreshnessScan p e => Sys2Proof.Machine.execGwFreshnessScan p e s
  | .gwEcc p corrected eng0 eng1 => Sys2Proof.Machine.execGwEcc p corrected eng0 eng1 s
  | .rrRequest k p lo hi => Sys2Proof.Machine.execRrRequest k p lo hi s
  | .rrServe p => Sys2Proof.Machine.execRrServe p s
  | .rrResponseReceive p payload => Sys2Proof.Machine.execRrResponseReceive p payload s
  | .rrTimeout p k tag => Sys2Proof.Machine.execRrTimeout p k tag s
  | .rrFree k p data => Sys2Proof.Machine.execRrFree k p data s
  | .rrDiscard p k tag => Sys2Proof.Machine.execRrDiscard p k tag s
  | .canModeWrite m p second data => Sys2Proof.Machine.execCanModeWrite m p second data s
  | .recover m p second => Sys2Proof.Machine.execRecover m p second s
  | .canRecoveryDone p second => Sys2Proof.Machine.execCanRecoveryDone p second s
  | .canFrameReceive p second e => Sys2Proof.Machine.execCanFrameReceive p second e s
  | .canTransmit p second e => Sys2Proof.Machine.execCanTransmit p second e s
  | .werrPop m d q => Sys2Proof.Machine.execWerrPop m d q s
  | .fieldSample raw => Sys2Proof.Machine.execFieldSample raw s
  | .fdCommitGo => Sys2Proof.Machine.execFdCommitGo s
  | .channelSelfTest ch pass => Sys2Proof.Machine.execChannelSelfTest ch pass s
  | .triggerAnnounce p ahead => Sys2Proof.Machine.execTriggerAnnounce p ahead s
  | .triggerFallback action => Sys2Proof.Machine.execTriggerFallback action s
  | .outputUpdateInstant p => Sys2Proof.Machine.execOutputUpdateInstant p s
  | .doCmdBeat l k ordinal data => Sys2Proof.Machine.execDoCmdBeat l k ordinal data s
  | .outVerifyDelayExpire n => Sys2Proof.Machine.execOutVerifyDelayExpire n s
  | .offPulseStart n => Sys2Proof.Machine.execOffPulseStart n s
  | .offPulseEnd n => Sys2Proof.Machine.execOffPulseEnd n s
  | .overcurrent n => Sys2Proof.Machine.execOvercurrent n s
  | .groupOvercurrent second => Sys2Proof.Machine.execGroupOvercurrent second s
  | .thermal n => Sys2Proof.Machine.execThermal n s
  | .doFaultClear k data => Sys2Proof.Machine.execDoFaultClear k data s
  | .fieldSupplyChange second present => Sys2Proof.Machine.execFieldSupplyChange second present s
  | .aiConversionStart trigger raw => Sys2Proof.Machine.execAiConversionStart trigger raw s
  | .aiDone => Sys2Proof.Machine.execAiDone s
  | .cosPop k => Sys2Proof.Machine.execCosPop k s
  | .leaseFrameReceive p port own f ago => Sys2Proof.Machine.execLeaseFrameReceive p port own f ago s
  | .leaseCycleStart p => Sys2Proof.Machine.execLeaseCycleStart p s
  | .leaseCycleEnd p => Sys2Proof.Machine.execLeaseCycleEnd p s
  | .leaseUnqualified p => Sys2Proof.Machine.execLeaseUnqualified p s
  | .armLease p k => Sys2Proof.Machine.execArmLease p k s
  | .disarm p k => Sys2Proof.Machine.execDisarm p k s
  | .release p k => Sys2Proof.Machine.execRelease p k s
  | .modHeldChange => Sys2Proof.Machine.execModHeldChange s
  | .leaseStateSample p => Sys2Proof.Machine.execLeaseStateSample p s
  | .mbTxword m n far data => Sys2Proof.Machine.execMbTxword m n far data s
  | .mbTxdb m n far data => Sys2Proof.Machine.execMbTxdb m n far data s
  | .mbRxpop m n far data => Sys2Proof.Machine.execMbRxpop m n far data s
  | .mbRxdbClear m n far data => Sys2Proof.Machine.execMbRxdbClear m n far data s
  | .mbRxmaskWrite m n far data => Sys2Proof.Machine.execMbRxmaskWrite m n far data s
  | .rxReset m n far => Sys2Proof.Machine.execRxReset m n far s
  | .txReset m n far => Sys2Proof.Machine.execTxReset m n far s
  | .smLockRead inp readers => Sys2Proof.Machine.execSmLockRead inp readers s
  | .smRelease m inp data => Sys2Proof.Machine.execSmRelease m inp data s
  | .smForce m data => Sys2Proof.Machine.execSmForce m data s
  | .info h => Sys2Proof.Machine.execInfo h s
  | .nonce h value => Sys2Proof.Machine.execNonce h value s
  | .auth h slot key sig => Sys2Proof.Machine.execAuth h slot key sig s
  | .logRead h first count => Sys2Proof.Machine.execLogRead h first count s
  | .identRead h address => Sys2Proof.Machine.execIdentRead h address s
  | .stageBegin h length crc => Sys2Proof.Machine.execStageBegin h length crc s
  | .stageData h offset bytes => Sys2Proof.Machine.execStageData h offset bytes s
  | .stageEnd h => Sys2Proof.Machine.execStageEnd h s
  | .arm h t => Sys2Proof.Machine.execArm h t s
  | .cancel h => Sys2Proof.Machine.execCancel h s
  | .revert h => Sys2Proof.Machine.execRevert h s
  | .reboot h => Sys2Proof.Machine.execReboot h s
  | .debugAuth h minutes => Sys2Proof.Machine.execDebugAuth h minutes s
  | .debugRevoke h => Sys2Proof.Machine.execDebugRevoke h s
  | .updateRejected => Sys2Proof.Machine.execUpdateRejected s
  | .sessionExpire => Sys2Proof.Machine.execSessionExpire s
  | .debugAuthExpire => Sys2Proof.Machine.execDebugAuthExpire s
  | .updActivated => Sys2Proof.Machine.execUpdActivated s
  | .veto k => Sys2Proof.Machine.execVeto k s
  | .confirm k => Sys2Proof.Machine.execConfirm k s
  | .successfulBoot => Sys2Proof.Machine.execSuccessfulBoot s
  | .supplyInterruption => Sys2Proof.Machine.execSupplyInterruption s
  | .supplyReturn => Sys2Proof.Machine.execSupplyReturn s
  | .holdupExhausted => Sys2Proof.Machine.execHoldupExhausted s
  | .governorReading l r => Sys2Proof.Machine.execGovernorReading l r s
  | .govLimitRaise l => Sys2Proof.Machine.execGovLimitRaise l s
  | .govLimitReceive l v => Sys2Proof.Machine.execGovLimitReceive l v s
  | .stepRaise l => Sys2Proof.Machine.execStepRaise l s
  | .dsCeilWrite k writer data => Sys2Proof.Machine.execDsCeilWrite k writer data s
  | .dsPlanWrite l data => Sys2Proof.Machine.execDsPlanWrite l data s
  | .plannerSample lanes ports => Sys2Proof.Machine.execPlannerSample lanes ports s
  | .plannerReplan predicted => Sys2Proof.Machine.execPlannerReplan predicted s
  | .marginDailyRecord => Sys2Proof.Machine.execMarginDailyRecord s
  | .refClockRestored p => Sys2Proof.Machine.execRefClockRestored p s
  | .networkTimeTimeout l p => Sys2Proof.Machine.execNetworkTimeTimeout l p s

end Sys2Proof.Machine
end

