-- ==== Sys2Proof/Machine/Tick.lean ====
section
/-! DEFINITION. What one ns of time does when no command waits (log entry 4): the timebases advance (R231) and the port dies'
network time reaches the lanes (R48, R233). -/

namespace Sys2Proof.Machine

/-- A timebase after one ns of its local clock. -/
def advanceNet (x : Net) (cycleLen : Nat) : Net :=
  let total := (x.time.toNat * fracOne + x.frac.toNat : Nat) + advanceOf x cycleLen
  { x with
    time := BitVec.ofInt 64 (total / fracOne), frac := BitVec.ofInt 32 (total % fracOne), clock := x.clock + 1
    run := x.run + (total / fracOne - x.time.toNat).toNat }

/-- The two timebases of a port die: its channel's and its guardian's. Neither shows in a register but `TB_TIME`, which is
read from it. -/
def State.tickPort (s : State) (p : PDie) : State :=
  let x := s.port p
  let main := (s.consumer (Die.ofPDie p)).running && s.flag .m Reg.mgPwr (6 + 4 * p.idx)
  let guard := !x.guard.stopped && s.flag .m Reg.mgPwr (8 + 4 * p.idx)
  let net := if main then advanceNet x.net (s.cycleNs (.ctl p) x.net.mode) else x.net
  let gnet := if guard then advanceNet x.guard.net (s.cycleNs (.gd p) x.guard.net.mode) else x.guard.net
  s.setPort p { x with net := net, guard := { x.guard with net := gnet } }

/-- Copies of frames that waited at the keepers for one on the west port are used (R240). -/
def State.settleCopies (s : State) (p : PDie) : State :=
  let t := if s.chOn p then s.settleLate (.ctl p) fun t w => t.copyUse p w else s
  if t.guardLive p then t.settleLate (.gd p) fun t w => t.tapUse p w else t

/-- TSTAT of a die (R233). -/
def State.tstat (s : State) (p : PDie) : BitVec 2 :=
  match (s.port p).net.phase with
  | .active => 0
  | .holdover => 1
  | _ => 2

/-- A lane receives a die's network time, over a working junction link from a die that runs. -/
def State.laneTime (s : State) (l : Lane) (p : PDie) : State :=
  let x := s.lane l
  if x.junction.get (Die.ofPDie p) && (s.consumer (Die.ofPDie p)).running && s.flag .m Reg.mgPwr (6 + 4 * p.idx) &&
      s.flag .m Reg.mgPwr (3 + l.idx) then
    s.setLane l { x with net := x.net.set p ⟨(s.port p).net.time, s.tstat p, s.ns⟩ }
  else s

/-- A cycle of M-main is over: its mailboxes take the cycle's acts as they stand, and the results of its reads, which other reads
of the cycle can no longer change, reach the lanes (R368, R372). -/
def State.endCycleM (s : State) : State := Lane.list.foldl (fun t l => t.takeResults l .m) s.endMailboxes

/-- A lane's clock cycle is over: pair claims that a publication of the cycle could have changed are sent (R49). -/
def State.endCycleLane (s : State) (l : Lane) : State := Strand.list.foldl (fun t k => t.sendClaims l k) s

/-- One ns passes; while there is no power nothing happens. -/
def State.tick (s : State) : State :=
  if !s.supply.good then s
  else
    let n := s.ns + 1
    let t := if mCycle n ≠ mCycle s.ns then s.endCycleM else s
    let t : State := { t with ns := n }
    let t := if memCycle n ≠ memCycle s.ns then Lane.list.foldl State.endCycleLane t else t
    let t := (t.takeSvc .p1).takeSvc .p2
    let t := Lane.list.foldl (fun t l => ((t.takeResults l .p1).takeResults l .p2).takeResults l .f) t
    let t := ((t.tickPort .p1).tickPort .p2 |>.settleCopies .p1).settleCopies .p2
    let t := (t.settleBufs .p1).settleBufs .p2
    Lane.list.foldl (fun t l => (t.laneTime l .p1).laneTime l .p2) t

end Sys2Proof.Machine
end

