-- ==== Sys2Proof/Safety.lean ====
section
/-! DEFINITION. What the statements call a sound state and a safe step. -/

namespace Sys2Proof.Machine

/-- The memory of a lane keeps its canonical form, inside the map of R161. -/
def laneSound (x : LaneState) : Bool := Memory.wf x.mem && x.mem.all fun c => isLaneMemory c.1

/-- The memories of all lanes are in canonical form. -/
def memoriesWf (s : State) : Bool := Lane.list.all fun l => Memory.wf (s.lane l).mem

/-- The register spaces are in canonical form. -/
def registersWf (s : State) : Bool :=
  cellsWf s.regs.la && cellsWf s.regs.lb && cellsWf s.regs.lc && cellsWf s.regs.p1 && cellsWf s.regs.p2 &&
    cellsWf s.regs.f && cellsWf s.regs.m

/-- The state keeps every canonical form. -/
def State.sound (s : State) : Bool := memoriesWf s && registersWf s

/-- What only few commands may touch: the order code, the commands that wait, and the bytes of the three lanes. -/
structure Base where
  variant : Variant
  pending : List Instr
  mems : Tri Memory
deriving DecidableEq, Repr

def State.base (s : State) : Base := ⟨s.variant, s.pending, ⟨s.lanes.a.mem, s.lanes.b.mem, s.lanes.c.mem⟩⟩

/-- No service message waits in a port die for management. -/
def State.noServiceWaits (s : State) : Prop := ∀ p : PDie, ∀ x ∈ (s.port p).mgIn, isSvc x.2 = false

/-- Nothing waits that the time alone would bring about: no copy of a frame at a keeper for its twin (R240), no service message, no
result of a read on its way, no act of the present cycle at a mailbox, no pair claim that is due, and no KTN_TX copy for its
commit instant. -/
def State.nothingWaits (s : State) : Prop :=
  s.noServiceWaits ∧ (∀ n, (s.net n).wait = none) ∧ (∀ l d, s.vcQueue l d true .response = []) ∧
  (∀ n, (s.mailbox n).acts = []) ∧ (∀ l k, (s.echo l k).claimDue = []) ∧
  ∀ p : PDie, ∀ b ∈ (s.gw p).pdus, (s.pdu p b.pdu).kind ≠ kKtnTx

/-- A command reaches a register of a unit: for a strand, the order code fits the unit (R8) and no lane's fence of its die stands
(R123). -/
def State.reachesUnit (s : State) (m : Master) (u : RUnit) (off : Nat) : Prop :=
  s.strandAbsent m u off = false ∧ ∃ d, unitDie u = some d ∧ s.strandFenced m d = false

/-- From one state to the next the order code and the waiting commands stand, and canonical memories stay canonical. -/
def Keeps (s t : State) : Prop :=
  t.variant = s.variant ∧ t.pending = s.pending ∧ (memoriesWf s = true → memoriesWf t = true)

/-- A step neither faults nor refuses. -/
def goesOn (s : State) : Bool :=
  match step s with
  | .next _ => true
  | _ => false

/-- From one state to the next one replica of a lane retires one instruction with its digest-set registers as given: its
counter grows by one, a single step ends in debug halt, and only registers that `also` names may change beside the
counter; every other replica, every Echo unit, voter, consumer die and message stands. -/
structure Retires (s t : State) (l : Lane) (k : Strand) (regs : List Dword) (also : RUnit → Nat → Prop) : Prop where
  count : t.reg64 l.unit (Reg.lnIcountLo k) = s.reg64 l.unit (Reg.lnIcountLo k) + 1
  core : (t.replica l k).core = regs
  mode : (t.replica l k).mode = if (s.replica l k).mode = .debugStep then .debugHalted else (s.replica l k).mode
  others : ∀ l' k', l' ≠ l ∨ k' ≠ k → t.replica l' k' = s.replica l' k'
  echoes : ∀ l' k', t.echo l' k' = s.echo l' k'
  regsStand : ∀ u off, u ≠ l.unit ∨ (off ≠ Reg.lnIcountLo k ∧ off ≠ Reg.lnIcountLo k + 4) → ¬ also u off →
    t.reg u off = s.reg u off
  voters : t.voters = s.voters
  consumers : t.consumers = s.consumers
  ports : t.ports = s.ports
  wires : t.wires = s.wires
  links : t.links = s.links
  mgmt : t.mgmt = s.mgmt

/-- No register but the counter. -/
def noReg : RUnit → Nat → Prop := fun _ _ => False

/-- A word store to a register of the strand page has had its effect: it enters the signature and the instruction
retires. -/
def State.retirePageStore (u : State) (l : Lane) (k : Strand) (off : Nat) (v : Word) : State :=
  ((u.foldSig l k sigPage (0x200000000 + pageKey k off) (leBytes 4 v.toNat)).retire l k).endStep l k

/-- The commands that can write bytes of a lane's memory: stores of a core or of its debugger, broadcasts that land, the copies
of a rejoin, and what loads or clears memory at a restart, a boot or the end of power. A register write, or a released beat
that carries one, writes memory when it restarts a strand; the end of a quiesce lets a power-down go on to its end. -/
def writesLaneMemory : Instr → Bool
  | .kc64Instruction _ _ (.store _ _) _ | .broadcastWriteLand _ _ _ | .copyPassEnd | .holdAck _ | .restart _ _ _
  | .genericRegisterWrite _ _ _ | .beatRelease _ _ _ | .boot _ | .powerGood | .updActivated | .holdupExhausted
  | .reboot _ | .debugRequest _ _ (.poke _ _) | .quiesceAck _ | .quiesceTimeout _ => true
  | _ => false

end Sys2Proof.Machine
end

