-- ==== Sys2Proof/Certificates/Slice0/Obligations.lean ====
section
/-! DEFINITION. The statements about the model, by chapter of the manual. Each docstring names the rules of the manual that
the statement formalises, and the log entries where a clause is the model's own choice. -/

open Sys2Proof Sys2Proof.Machine

/-! ### The whole machine -/

/-- One step is the command at the front of the queue, run with the queue's rest. -/
def Obligations.StepRunsFrontCommand : Prop :=
  (∀ (c : Instr) (rest : List Instr) (s : State), s.pending = c :: rest → step s = exec c { s with pending := rest }) ∧
  (∀ (c : Instr) (s : State), step { s with pending := c :: s.pending } = exec c s)

/-- Log entry 4 (DESIGN CHOICE): on an empty queue one ns passes, or nothing happens while there is no power. While nothing waits
that the time alone would bring about (`State.nothingWaits`), only the clock, the two timebases of each port die and the
network time held by the lanes change; and while no service message waits at a port die, no byte of a lane's memory does.
No command touches the queue of waiting commands or the order code. -/
def Obligations.QueueDrainsInOrderAndIdlingTakesOneNs : Prop :=
  (∀ s : State, s.pending = [] →
     (s.supply.good = false → step s = .next s) ∧
     (s.supply.good = true → ∃ t, step s = .next t ∧ t.pending = [] ∧ t.variant = s.variant ∧
       (s.noServiceWaits → t.base = s.base)) ∧
     (s.supply.good = true → s.nothingWaits →
       ∃ t, step s = .next t ∧ t = { s with ns := s.ns + 1, lanes := t.lanes, ports := t.ports } ∧
         (∀ l, t.lane l = { s.lane l with net := (t.lane l).net }) ∧
         ∀ p, t.port p = { s.port p with
           net := { (s.port p).net with
             time := (t.port p).net.time, frac := (t.port p).net.frac, clock := (t.port p).net.clock
             run := (t.port p).net.run }
           guard := { s.guard p with net := { (s.guard p).net with
             time := (t.guard p).net.time, frac := (t.guard p).net.frac, clock := (t.guard p).net.clock
             run := (t.guard p).net.run } } })) ∧
  (∀ (c : Instr) (s t : State), exec c s = .next t → t.pending = s.pending ∧ t.variant = s.variant)

/-- Every step from a state whose lane memories are in canonical form leaves them in canonical form. -/
def Obligations.StepKeepsMemoriesCanonical : Prop :=
  ∀ s t : State, memoriesWf s = true → step s = .next t → memoriesWf t = true

/-- Every step from a sound state leaves a sound state: the memories of the lanes and the register spaces stay in canonical
form, on the empty queue as at every command. -/
def Obligations.StepKeepsStateSound : Prop :=
  ∀ s t : State, s.sound = true → step s = .next t → t.sound = true

/-- The state after reset has every canonical form, an empty queue, no strand released and every in-step set full. The values
that the manual does not give (memory, log entry 3; the tables of log entries 2 and 8) are the model's choices. -/
def Obligations.ResetIsSound : Prop :=
  State.reset.sound = true ∧ State.reset.pending = [] ∧ State.reset.released = Quad.all false ∧
  (∀ l k, (State.reset.replica l k).mode = .held ∧ (State.reset.echo l k).inStep = Tri.all true ∧
    (State.reset.replica l k).sig = 0xFFFFFFFFFFFFFFFF) ∧
  (∀ d k, State.reset.voterIn d k = Lane.list)

/-- A command that is not one of those that store into lane memory leaves every byte of every lane's memory as it was.
A command stops only for an address that its memory does not hold: a broadcast and a memory error outside the lane memory of
R161, a patrol read outside DRAM, which alone the patrol reads (R171; an address of SRAM stops it too). A broadcast is judged
by its last byte (log entry 144, the model's choice). There it does stop, and in every other case it answers a next
state. -/
def Obligations.LaneMemoryIsWrittenByItsOwnCommandsOnly : Prop :=
  (∀ (c : Instr) (s t : State), writesLaneMemory c = false → exec c s = .next t →
     ∀ (l : Lane) (a : Nat), cellGet (t.lane l).mem a = cellGet (s.lane l).mem a) ∧
  ((∀ (c : Instr) (s : State),
     (∃ t, exec c s = .next t) ∨
     (∃ (l : Lane) (w : Broadcast) (ue : Bool), c = .broadcastWriteLand l w ue ∧
       isLaneMemory (w.addr.toNat + w.bytes.length - 1) = false) ∨
     (∃ (l : Lane) (loc : UeLoc) (a : Addr), c = .memoryUe l loc a ∧ loc ≠ .control ∧ isLaneMemory a.toNat = false) ∨
     (∃ (l : Lane) (f : PatrolFind) (a : Addr), c = .patrolRead l f a ∧ 0x100000000 ≤ a.toNat)) ∧
   (∀ (l : Lane) (s : State),
     (∀ (w : Broadcast) (ue : Bool), isLaneMemory (w.addr.toNat + w.bytes.length - 1) = false →
       exec (.broadcastWriteLand l w ue) s = .fault (.noSuchAddress w.addr.toNat)) ∧
     (∀ (loc : UeLoc) (a : Addr), loc ≠ .control → isLaneMemory a.toNat = false →
       exec (.memoryUe l loc a) s = .fault (.noSuchAddress a.toNat)) ∧
     (∀ (f : PatrolFind) (a : Addr), 0x100000000 ≤ a.toNat →
       exec (.patrolRead l f a) s = .fault (.noSuchAddress a.toNat))))

/-! ### Lane cores -/

/-- R44, R163: an instruction that touches no memory retires, an entry 9 to 15 of the protection unit being written with it;
so does a load of DRAM, SRAM or the common region, which returns the bytes there, and changes no byte. Completes:
`kc64Instruction`. -/
def Obligations.InstructionsRetireAndLoadsReturnMemory : Prop :=
  ∀ (l : Lane) (k : Strand) (regs : List Dword) (s : State), s.canExecute l k = true →
    (∃ t, exec (.kc64Instruction l k .plain regs) s = .next t ∧ Retires s t l k regs noReg ∧ t.base = s.base) ∧
    (∀ on, ∃ t, exec (.kc64Instruction l k (.mask on) regs) s = .next t ∧ Retires s t l k regs noReg ∧
      (t.replica l k).mask = on ∧ t.base = s.base) ∧
    (∀ (i : Nat) (b m : Addr) (dr dw dx : Bool), 9 ≤ i → i ≤ 15 →
      ∃ t, exec (.kc64Instruction l k (.mpuWrite i b m dr dw dx) regs) s = .next t ∧ Retires s t l k regs noReg ∧
        (t.replica l k).mpu = ⟨i, b.toNat, m.toNat, dr, dw, dx⟩ :: (s.replica l k).mpu.filter (fun e => e.index != i) ∧
        t.base = s.base) ∧
    (∀ a : Addr, s.allowed l k a.toNat 4 .exec = true → s.poisoned l a.toNat 4 = false →
      ∃ t, exec (.kc64Instruction l k (.fetch a) regs) s = .next t ∧ Retires s t l k regs noReg ∧ t.base = s.base) ∧
    (∀ (a : Addr) (n : Nat), s.allowed l k a.toNat n .read = true → isLaneMemory a.toNat = true →
      s.poisoned l a.toNat n = false →
      ∃ t, exec (.kc64Instruction l k (.load a n) regs) s = .next t ∧ Retires s t l k regs noReg ∧
        (t.replica l k).last = memRead (s.lane l).mem a.toNat n ∧ t.base = s.base)

/-- R111, R136, R161: a store that its strand's rights allow into its own partition or slice writes exactly its bytes, in its
own lane, enters the running signature doubleword by doubleword, and retires. The dirty count of a rejoin may change. -/
def Obligations.StoreWritesOwnLaneAndSignature : Prop :=
  ∀ (l : Lane) (k : Strand) (a : Addr) (bs : List Byte) (regs : List Dword) (s : State), s.canExecute l k = true →
    s.allowed l k a.toNat bs.length .write = true → isLaneMemory a.toNat = true →
    s.partialPoison l a.toNat bs.length = false →
    ∃ t, exec (.kc64Instruction l k (.store a bs) regs) s = .next t ∧
      Retires s t l k regs (fun _ off => ∃ j : Strand, off = Reg.rjDirty j.idx) ∧
      ownerOf a.toNat = some k ∧
      (t.replica l k).sig = (dwords a.toNat bs).foldl
        (fun g d => sigFold g (if a.toNat < 0x100000000 then sigPartition else sigSlice) d) (s.replica l k).sig ∧
      ∀ l' i, cellGet (t.lane l').mem i =
        if l' = l ∧ a.toNat ≤ i ∧ i < a.toNat + bs.length then (bs[i - a.toNat]?).getD 0
        else cellGet (s.lane l').mem i

/-- R7, R88, R90, R111: a device write issues one beat per doubleword that the lane does not answer itself (one of an absent
unit, of a DEBUG replica or of a fenced M, judged doubleword by doubleword), in order, numbered with the replica's next
ordinals at that die, and retires; a device read issues one request per such doubleword, and the core waits for the results, or
retires at once when the lane answers all of it. No byte of memory changes. -/
def Obligations.DeviceAccessesIssueNumberedBeats : Prop :=
  ∀ (l : Lane) (k : Strand) (a : Addr) (d : Die) (off : Nat) (regs : List Dword) (s : State), s.canExecute l k = true →
    regionOf a.toNat = .window d off →
    let sent := fun bs : List Byte => (dwords off bs).filter fun w => (s.localAnswer l k d w.addr).isNone
    (∀ bs : List Byte, s.allowed l k a.toNat bs.length .write = true →
      ∃ t, exec (.kc64Instruction l k (.store a bs) regs) s = .next t ∧ Retires s t l k regs noReg ∧
        (t.replica l k).ord.get d = (s.replica l k).ord.get d + BitVec.ofNat 32 (sent bs).length ∧
        (∀ e, e ≠ d → (t.replica l k).ord.get e = (s.replica l k).ord.get e) ∧
        (t.replica l k).out.map (fun x => (x.1, x.2.strand, x.2.isRead, x.2.addr, x.2.be, x.2.data)) =
          (sent bs).map (fun w => (d, k, false, w.addr, w.be, w.data)) ∧
        (∀ i, i < (sent bs).length →
          ((t.replica l k).out[i]?).map (fun x => x.2.ordinal) = some ((s.replica l k).ord.get d + BitVec.ofNat 32 i)) ∧
        t.base = s.base) ∧
    (∀ n : Nat, s.allowed l k a.toNat n .read = true →
      (sent (List.replicate n 0) ≠ [] → ∃ t, exec (.kc64Instruction l k (.load a n) regs) s = .next t ∧
        t.reg64 l.unit (Reg.lnIcountLo k) = s.reg64 l.unit (Reg.lnIcountLo k) ∧
        ((t.replica l k).load.map fun p => (p.addr, p.size)) = some (a.toNat, n) ∧
        (t.replica l k).out.map (fun x => (x.1, x.2.strand, x.2.isRead)) =
          (sent (List.replicate n 0)).map (fun _ => (d, k, true)) ∧
        t.regs = s.regs ∧ t.base = s.base) ∧
      (sent (List.replicate n 0) = [] → ∃ t, exec (.kc64Instruction l k (.load a n) regs) s = .next t ∧
        Retires s t l k regs noReg ∧ (t.replica l k).out = [] ∧ (t.replica l k).load = none ∧ t.base = s.base))

/-- R162: an access to an address that the map does not list, between the slices, between the pages and the lane-common page
or above the M window, is an access fault, which is what R158 says of one: the instruction does not retire, makes no beat,
takes no ordinal, and changes no register and no byte. The same holds of any access outside the strand's rights. -/
def Obligations.ForbiddenAccessHasNoEffect : Prop :=
  ∀ (l : Lane) (k : Strand) (a : Addr) (regs : List Dword) (s : State), s.canExecute l k = true →
    ((0x100100000 ≤ a.toNat ∧ a.toNat < 0x200000000) ∨ (0x200040000 ≤ a.toNat ∧ a.toNat < 0x200080000) ∨
      (0x200090000 ≤ a.toNat ∧ a.toNat < 0x300000000) ∨ 0x340000000 ≤ a.toNat → regionOf a.toNat = .unlisted) ∧
    (regionOf a.toNat = .unlisted → ∀ n c, s.allowed l k a.toNat n c = false) ∧
    (∀ n, s.allowed l k a.toNat n .read = false →
      exec (.kc64Instruction l k (.load a n) regs) s = exec (.kc64Instruction l k .fault regs) s) ∧
    (∀ bs : List Byte, s.allowed l k a.toNat bs.length .write = false →
      exec (.kc64Instruction l k (.store a bs) regs) s = exec (.kc64Instruction l k .fault regs) s) ∧
    (s.allowed l k a.toNat 4 .exec = false →
      exec (.kc64Instruction l k (.fetch a) regs) s = exec (.kc64Instruction l k .fault regs) s) ∧
    (∃ t, exec (.kc64Instruction l k .fault regs) s = .next t ∧ t.regs = s.regs ∧ t.base = s.base ∧
      t.wires = s.wires ∧ t.links = s.links ∧ (t.replica l k).out = (s.replica l k).out ∧ (t.replica l k).ord = (s.replica l k).ord ∧
      (t.replica l k).sig = (s.replica l k).sig ∧ (t.lane l).mem = (s.lane l).mem)

/-- R161, with R163 for the locked entries: the regions lie where the table places them, and each gives strand k the rights
of its row; what the table does not list belongs to no region. -/
def Obligations.AddressMapGivesStrandsTheirRights : Prop :=
  (∀ (k : Strand) (o : Nat), o < 0x38000000 → regionOf (k.idx * 0x38000000 + o) = .partition k o) ∧
  (∀ o, o < 0x20000000 → regionOf (0xE0000000 + o) = .common o) ∧
  (∀ (k : Strand) (o : Nat), o < 0x40000 → regionOf (0x100000000 + k.idx * 0x40000 + o) = .slice k o) ∧
  (∀ (k : Strand) (o : Nat), o < 0x10000 → regionOf (0x200000000 + k.idx * 0x10000 + o) = .page k o) ∧
  (∀ o, o < 0x10000 → regionOf (0x200080000 + o) = .laneCommon (0x80000 + o)) ∧
  (∀ o, o < 0x10000000 → regionOf (0x300000000 + o) = .window .p1 o ∧ regionOf (0x310000000 + o) = .window .p2 o ∧
    regionOf (0x320000000 + o) = .window .f o ∧ regionOf (0x330000000 + o) = .window .m o) ∧
  (∀ a, (0x100100000 ≤ a ∧ a < 0x200000000) ∨ (0x200040000 ≤ a ∧ a < 0x200080000) ∨
    (0x200090000 ≤ a ∧ a < 0x300000000) ∨ 0x340000000 ≤ a → regionOf a = .unlisted) ∧
  (∀ (j k : Strand) (o : Nat) (d : Die) (c : AccKind),
    (regionAllows k (.partition j o) c = true ↔ j = k) ∧ (regionAllows k (.common o) c = true ↔ c = .read) ∧
    (regionAllows k (.slice j o) c = true ↔ j = k) ∧ (regionAllows k (.page j o) c = true ↔ j = k ∧ c ≠ .exec) ∧
    (regionAllows k (.laneCommon o) c = true ↔ c = .read) ∧ (regionAllows k (.window d o) c = true ↔ c ≠ .exec) ∧
    regionAllows k .unlisted c = false)

/-! ### Event points and strand time -/

/-- R47, R77: a wait-for-event retires and, with no event to take, brings the counter to the next event point, to be reached
by idle advance; a waiting replica advances again no sooner than 2 µs after its last idle point; an epoch mark retires and
marks the point to come. Nothing outside the replica and its counter changes. Completes: `waitForEvent`, `idleAdvance`,
`epochMark`. What a wait does while an enabled exception is pending, and IDLE at a point that its own retirement reaches, are
the model's choice (log entry 128). -/
def Obligations.WaitsAndMarksMoveTheCounter : Prop :=
  ∀ (l : Lane) (k : Strand) (s : State),
    (s.canExecute l k = true → (s.replica l k).mode = .running →
      ∃ t, exec (.waitForEvent l k) s = .next t ∧
        t.reg64 l.unit (Reg.lnIcountLo k) =
          (if s.dueVector l k ≠ none ∧ (s.replica l k).mask = false then
            s.reg64 l.unit (Reg.lnIcountLo k) + 1 else (s.replica l k).nextCount) ∧
        ((t.replica l k).mode = .waiting ↔ ¬ (s.dueVector l k ≠ none ∧ (s.replica l k).mask = false)) ∧
        (t.replica l k).nextPoint = (s.replica l k).nextPoint ∧ t.base = s.base ∧ t.wires = s.wires ∧ t.links = s.links) ∧
    (s.runs l k = true → (s.replica l k).mode = .waiting → (s.replica l k).phase = .run →
      (s.replica l k).idle = false → (s.replica l k).idleAt + 2000 ≤ s.ns →
      ∃ t, exec (.idleAdvance l k) s = .next t ∧
        t.reg64 l.unit (Reg.lnIcountLo k) = (s.replica l k).nextCount ∧ (t.replica l k).idle = true ∧
        t.base = s.base ∧ t.wires = s.wires ∧ t.links = s.links) ∧
    ((s.replica l k).mode = .waiting → s.ns < (s.replica l k).idleAt + 2000 → exec (.idleAdvance l k) s = .next s) ∧
    (s.canExecute l k = true → ∃ t, exec (.epochMark l k) s = .next t ∧ (t.replica l k).mark = true ∧
      Retires s t l k (s.replica l k).core noReg ∧ t.base = s.base)

/-- R45, R46 step 1, R48, R49, R114: a replica that reaches an event point publishes it. While its Echo unit holds no other
publication of the point, no earlier point can be agreed and no stall is arranged, the point shows in `LN_POINT`, the next point
lies one stride on, the replica waits for steps 2 to 4, and every other live lane is sent the publication, which lists the
occurrences latched and not yet published. At an epoch boundary it carries the running signature, and the digest of the core's
registers where the digest is on; `LN_EPOCH` then counts (but at point 0), and what the strand sent in the epoch waits for its
agreement. Away from a boundary both are 0. No other register changes. Completes: `eventPoint`. -/
def Obligations.EventPointPublishesToEveryLane : Prop :=
  ∀ (l : Lane) (k : Strand) (s : State), s.atPoint l k = true →
    exec (.eventPoint l k) s = .next (s.eventPoint l k) ∧
    let b := s.atBoundary l k
    let r := s.replica l k
    (b = false ∨ (s.echo l k).stallAt = none → pubsFor (s.echo l k) (loWord (s.replica l k).nextPoint) = [] →
      decidedPair (s.echo l k) (s.echo l k).nextAgree = none →
      ((s.echo l k).agreed.any fun a => a.point == loWord (s.replica l k).nextPoint) = false →
      ((s.echo l k).late.any fun q => q.1 == loWord (s.replica l k).nextPoint && q.2 == l) = false →
      ∃ t p, exec (.eventPoint l k) s = .next t ∧ t.wires = s.wires ++ (s.peers l).map (fun x => .publication x l p) ∧
        p.point = loWord (s.replica l k).nextPoint ∧ p.strand = k ∧ p.lane.toNat = l.idx ∧ p.epoch = b ∧
        p.sig = (if b = true then r.sig else 0) ∧
        p.digest = (if b = true ∧ s.flag l.unit (Reg.lnTcfg k) 31 = true then
          crc64 (r.core.flatMap fun w => leBytes 8 w.toNat) else 0) ∧ p.occ = s.toPublish l k ∧ p.occ.length ≤ 32 ∧
        t.reg64 l.unit (Reg.lnPointLo k) = (s.replica l k).nextPoint ∧
        (t.replica l k).phase = .published ∧ (t.replica l k).nextPoint = (s.replica l k).nextPoint + 1 ∧
        (t.replica l k).nextCount = (s.replica l k).nextCount + BitVec.ofNat 64 (s.evtStride l k) ∧
        (t.replica l k).idle = false ∧ (t.replica l k).sincePoints = (if b = true then 0 else r.sincePoints + 1) ∧
        (t.replica l k).sqOpen = (if b = true then [] else r.sqOpen) ∧
        (t.replica l k).sqEnding = (if b = true then r.sqEnding ++ [(loWord r.nextPoint, r.sqOpen)] else r.sqEnding) ∧
        t.reg64 l.unit (Reg.lnEpochLo k) =
          s.reg64 l.unit (Reg.lnEpochLo k) + (if b = true ∧ r.nextPoint ≠ 0 then 1 else 0) ∧
        (∀ u off, u ≠ l.unit ∨ (off ≠ Reg.lnPointLo k ∧ off ≠ Reg.lnPointLo k + 4 ∧ off ≠ Reg.lnEpochLo k ∧
          off ≠ Reg.lnEpochLo k + 4) → t.reg u off = s.reg u off) ∧
        t.base = s.base ∧ t.voters = s.voters ∧ t.links = s.links ∧ t.log = s.log)

/-- R46 steps 2 to 4, R51: a replica at a published point goes on once the agreement of two points before is complete and its
data is held, or at once at points 0 and 1; it then runs again. From point 2 on it applies the agreement of two points before:
the strand time, the field values, every occurrence of the set as its pending bit or, of a replica's state, in `LN_REPL`, the
timers that are due, and at an epoch boundary the counts of the strand queues. At points 0 and 1 nothing is applied: with no software vector
set and no event to take, the state is otherwise as before, but for what a replica does as it leaves a boundary. Completes:
`agreedSetApply`. -/
def Obligations.AgreedSetReleasesTheReplica : Prop :=
  ∀ (l : Lane) (k : Strand) (s : State), s.atSteps l k = true → s.stepsReady l k = true →
    exec (.agreedSetApply l k) s = .next (s.agreedSetApply l k) ∧
    (∃ t, exec (.agreedSetApply l k) s = .next t ∧ (t.replica l k).phase = .run ∧ t.base = s.base) ∧
    ((s.reg64 l.unit (Reg.lnPointLo k)).toNat < 2 → (s.replica l k).soft = [] → s.dueVector l k = none →
      exec (.agreedSetApply l k) s = .next (State.leaveBoundary (s.setReplica l k { s.replica l k with phase := .run }) l k) ∧
      ((s.replica l k).sincePoints ≠ 0 →
        exec (.agreedSetApply l k) s = .next (s.setReplica l k { s.replica l k with phase := .run }))) ∧
    ((s.reg64 l.unit (Reg.lnPointLo k)).toNat < 2 → (s.replica l k).soft = [] →
      (s.replica l k).mask = false → ∀ v, s.dueVector l k = some v →
      ∃ t, exec (.agreedSetApply l k) s = .next t ∧ t.reg l.unit (Reg.lnEvCur k) = BitVec.ofNat 32 (256 + v) ∧
        t.pendingBit l k v = false ∧ (∀ w, w < 256 → w ≠ v → t.pendingBit l k w = s.pendingBit l k w) ∧
        (t.replica l k).mode = .running) ∧
    (∀ a : Agreement, s.dueAgreement l k = some a → 2 ≤ (s.reg64 l.unit (Reg.lnPointLo k)).toNat →
      (s.replica l k).mask = true →
      ∃ t, exec (.agreedSetApply l k) s = .next t ∧ t.reg64 l.unit (Reg.lnStimeLo k) = a.stime ∧
        t.reg l.unit (Reg.lnStimeStat k) = stimeStat a ∧
        (∀ o ∈ a.occs, o.src ≠ 0 ∨ o.vec ≠ 1 → s.vectorFitted o.vec.toNat = true → t.pendingBit l k o.vec.toNat = true) ∧
        (∀ i, i < 4 → s.flag l.unit (Reg.lnTmrCtl k) i = true → (s.reg64 l.unit (Reg.lnTmrCmpLo k i)).toNat ≤ a.stime.toNat →
          s.vectorFitted (8 + i) = true → t.pendingBit l k (8 + i) = true) ∧
        (a.epoch = true → (t.echo l k).visible = a.sqIn ∧ (t.echo l k).credPop = a.credPop ∧
          (s.vectorFitted 0 = true → t.pendingBit l k 0 = true)) ∧
        (a.epoch = false → (t.echo l k).visible = (s.echo l k).visible ∧ (t.echo l k).credPop = (s.echo l k).credPop) ∧
        (a.fin = .hold → t.reg l.unit (Reg.lnFinSeq k) = s.reg l.unit (Reg.lnFinSeq k)) ∧
        (a.fin = .invalid → t.flag l.unit (Reg.lnFinSeq k) 16 = false ∧ t.reg l.unit (Reg.lnFinDi k) = 0 ∧
          t.reg l.unit (Reg.lnFinDqLo k) = 0xFFFFFFFF ∧ t.reg l.unit (Reg.lnFinDqHi k) = 0xFFFFFFFF) ∧
        (∀ q tr, a.fin = .sample q → s.tripleOf l q = some tr → t.reg l.unit (Reg.lnFinDi k) = diWord tr.ch ∧
          t.reg l.unit (Reg.lnFinDqLo k) = dqWord tr.ch 0 ∧ t.reg l.unit (Reg.lnFinDqHi k) = dqWord tr.ch 16 ∧
          t.fld l.unit (Reg.lnFinSeq k) 16 0 = 65536 + q.toNat)) ∧
    (∀ (o : Occ) (c : Change) (now : Dword), o.src = 0 → o.vec = 1 →
      ((s.changes.get k).find? fun x => x.num == o.num) = some c →
      (s.applyOcc l k now o).fld l.unit (Reg.lnRepl k) (3 * c.repl.idx + 2) (3 * c.repl.idx) =
        nextReplState (s.replState l k c.repl) c.event (s.budgetReached l k c.repl now))

/-- R180: a strand timer whose compare value is at most the strand time S being applied raises its vector; with period 0 it
is then off, and a periodic one moves its compare value by the fewest periods that bring it above S, counting the periods
beyond the first in `LN_TMR_MISS`, which saturates. A timer that is off or not due changes nothing. Completes:
`strandTimerExpire`. -/
def Obligations.StrandTimersFireAndRearm : Prop :=
  ∀ (l : Lane) (k : Strand) (i : Nat) (s : State) (g : Agreement), i < 4 → s.atSteps l k = true →
    s.stepsReady l k = true → 2 ≤ (s.reg64 l.unit (Reg.lnPointLo k)).toNat → s.dueAgreement l k = some g →
    let cmp := (s.reg64 l.unit (Reg.lnTmrCmpLo k i)).toNat
    let per := (s.reg l.unit (Reg.lnTmrPer k i)).toNat
    let now := g.stime.toNat
    (s.flag l.unit (Reg.lnTmrCtl k) i = false ∨ now < cmp → exec (.strandTimerExpire l k i) s = .next s) ∧
    (s.flag l.unit (Reg.lnTmrCtl k) i = true → cmp ≤ now → per = 0 →
      ∃ t, exec (.strandTimerExpire l k i) s = .next t ∧ t.pendingBit l k (8 + i) = true ∧
        t.flag l.unit (Reg.lnTmrCtl k) i = false ∧
        t.reg64 l.unit (Reg.lnTmrCmpLo k i) = s.reg64 l.unit (Reg.lnTmrCmpLo k i) ∧ t.lanes = s.lanes) ∧
    (s.flag l.unit (Reg.lnTmrCtl k) i = true → cmp ≤ now → 0 < per →
      ∃ t n, exec (.strandTimerExpire l k i) s = .next t ∧ t.pendingBit l k (8 + i) = true ∧
        t.flag l.unit (Reg.lnTmrCtl k) i = true ∧ now < cmp + n * per ∧ cmp + (n - 1) * per ≤ now ∧ 0 < n ∧
        t.reg64 l.unit (Reg.lnTmrCmpLo k i) = BitVec.ofNat 64 (cmp + n * per) ∧
        t.fld l.unit (Reg.lnTmrMiss k) (8 * i + 7) (8 * i) =
          min (s.fld l.unit (Reg.lnTmrMiss k) (8 * i + 7) (8 * i) + (n - 1)) 255 ∧ t.lanes = s.lanes)

/-! ### The Echo exchange -/

/-- R48, R49, R53, R65, R71, R73: a message of the exchange leaves its link as it arrives. A publication that is no crawlway
error is taken up by the Echo unit, a pair claim once per sender and point, an occurrence is latched as not yet published,
the 32 newest field triples are held, a lane that latched none for 1 ms says so, and a copied strand-queue message is
committed in its order. What reaches or comes from a retired lane has no other effect. Completes: `publicationReceive`,
`pairClaimReceive`, `occurrenceLatch`, `fieldTripleReceive`, `fstaleTimeout`, `sqCopyArrive`. -/
def Obligations.ExchangeMessagesAreTakenUp : Prop :=
  ∀ (l : Lane) (s : State),
    (∀ (x : Lane) (p : Publication),
      exec (.publicationReceive l x p) s = .next (
        if s.retired l = true ∨ s.retired x = true then s.arrive (.publication l x p)
        else if badPublication p = true then (s.arrive (.publication l x p)).crawlError l x
        else (s.arrive (.publication l x p)).acceptPub l p.strand p)) ∧
    (∀ c : PairClaim, s.retired l = false → s.retired c.sender = false → (s.echo l c.strand).halted = false →
      ((s.echo l c.strand).claims.any fun x => x.point == c.point && x.sender == c.sender) = false →
      exec (.pairClaimReceive l c) s = .next (State.tryAgree agreeDepth ((s.arrive (.pairClaim l c)).setEcho l c.strand
        { s.echo l c.strand with claims := (s.echo l c.strand).claims ++ [c] }) l c.strand)) ∧
    (∀ (d : Die) (k : Strand) (o : Occ),
      (s.mayArrive (.occurrence l d k o) = false → exec (.occurrenceLatch l d k o) s = .next s) ∧
      (s.mayArrive (.occurrence l d k o) = true → s.retired l = false →
        ∃ t, exec (.occurrenceLatch l d k o) s = .next t ∧
          (t.echo l k).latched = (s.echo l k).latched ++ [⟨o, none, false⟩] ∧
          t.vcQueue l d true .posted = eraseFirst (.occurrence l d k o) (s.vcQueue l d true .posted) ∧
          (∀ l' k', l' ≠ l ∨ k' ≠ k → t.echo l' k' = s.echo l' k') ∧ t.wires = s.wires ∧ t.regs = s.regs ∧
          t.base = s.base)) ∧
    (∀ tr : Triple, s.fFitted = true → (s.lane l).junction.f = true →
      ∃ t, exec (.fieldTripleReceive l tr) s = .next t ∧ (t.lane l).triples.getLast? = some tr ∧
        ((s.lane l).triples.length ≤ 32 → (t.lane l).triples.length = min 32 ((s.lane l).triples.length + 1)) ∧
        (t.lane l).fstale = false ∧ t.regs = s.regs ∧ t.base = s.base ∧ (∀ l', l' ≠ l → t.lane l' = s.lane l')) ∧
    ((s.lane l).tripleAt + 1000000 ≤ s.ns →
      exec (.fstaleTimeout l) s = .next (s.setLane l { s.lane l with fstale := true })) ∧
    (s.ns < (s.lane l).tripleAt + 1000000 → exec (.fstaleTimeout l) s = .next s) ∧
    (∀ (src dst : Strand) (m : SqMsg), s.retired l = false → (s.echo l dst).halted = false →
      m.count = (s.echo l dst).inCount.get src + 1 → (s.echo l dst).inAhead.get src = [] →
      ∃ t, exec (.sqCopyArrive l src dst m) s = .next t ∧
        (t.echo l dst).inQ.get src = (s.echo l dst).inQ.get src ++ [m] ∧
        (t.echo l dst).inCount.get src = m.count ∧ t.regs = s.regs ∧ t.base = s.base) ∧
    (∀ (src dst : Strand) (m : SqMsg), s.retired l = false → m.count ≠ (s.echo l dst).inCount.get src + 1 →
      ∃ t, exec (.sqCopyArrive l src dst m) s = .next t ∧ (t.echo l dst).inQ = (s.echo l dst).inQ ∧ t.base = s.base)

/-- R48, R52: what counts as a crawlway error; R31: the run of errors on a link grows, and the 16th in succession fails the
link in the lane that sees it; R32: the higher-lettered lane of the link is to be retired. R30: an exchange not complete
200 ns after the later of the two publications that it joins counts
once. Completes: `crawlwayLinkFailed`, `flitReplay`, `echoTimeout`. -/
def Obligations.SixteenErrorsFailACrawlwayLink : Prop :=
  (∀ p : Publication, badPublication p = true ↔
    p.lane = 3 ∨ 32 < p.nOcc.toNat ∨ ∃ o ∈ p.occ, 5 ≤ o.src.toNat) ∧
  (∀ (l o : Lane) (s : State), l ≠ o → s.retired l = false →
    exec (.crawlwayLinkFailed l o) s = .next (s.failLink l o) ∧
    (s.rejoin = none → (s.failLink l o).flag l.unit (Reg.ecLink (linkIndex l o)) 24 = true ∧
      (s.retired (higherLane l o) = false →
        (s.failLink l o).wires = s.wires ++ [.retireNotice (higherLane l o) .crawlway]))) ∧
  (∀ (l x : Lane) (p : Publication) (s : State), s.retired l = false → s.retired x = false → badPublication p = true →
    let t := s.arrive (.publication l x p)
    let n := (s.lane l).linkRun.get x + 1
    let u := t.setLane l { t.lane l with linkRun := (t.lane l).linkRun.set x n }
    exec (.publicationReceive l x p) s = .next (if n = 16 then u.failLink l x else u)) ∧
  (∀ (l o : Lane) (s : State), l ≠ o →
    exec (.flitReplay (.crawl l o)) s = .next (s.bump l.unit (Reg.ecLink (linkIndex l o)) 15 0)) ∧
  (∀ (l : Lane) (d : Die) (s : State), exec (.flitReplay (.junction l d)) s = .next s ∧
    exec (.flitReplay .sideband) s = .next s) ∧
  (∀ (l : Lane) (k : Strand) (pt : Word) (s : State) (x y : HeldPub), exchangeOf (s.echo l k) pt = some (x, y) →
    ∃ r, ((decidedPair (s.echo l k) pt).orElse fun _ => firstPair (pubsFor (s.echo l k) pt)) = some r ∧
      (pubFrom (s.echo l k) pt (Pair.lanes r).1 = some x ∧ pubFrom (s.echo l k) pt (Pair.lanes r).2 = some y ∨
        pubFrom (s.echo l k) pt (Pair.lanes r).1 = some y ∧ pubFrom (s.echo l k) pt (Pair.lanes r).2 = some x)) ∧
  (∀ (l : Lane) (k : Strand) (pt : Word) (s : State) (x y : HeldPub) (p q : Lane),
    exchangeOf (s.echo l k) pt = some (x, y) → pubLane x.pub = some p → pubLane y.pub = some q →
    ((s.echo l k).agreed.any fun g => g.point == pt) = false → s.retired l = false → (s.echo l k).halted = false →
    y.since + 200 < s.ns → pt ∉ (s.echo l k).timedOut →
    exec (.echoTimeout l k pt) s = .next
      (((s.setEcho l k { s.echo l k with timedOut := pt :: (s.echo l k).timedOut }).bump l.unit (Reg.ecLink (linkIndex l (if q = l then p else q))) 23 16).crawlError l
        (if q = l then p else q))) ∧
  (∀ (l : Lane) (k : Strand) (pt : Word) (s : State), pt ∈ (s.echo l k).timedOut → exec (.echoTimeout l k pt) s = .next s)

/-- R56: an occurrence that one lane published and no other did within `SKEW_LIMIT` counts once in `EC_FAULTS` and is logged;
nothing else changes but the log and the note that it was logged. Completes: `evSolo`.
R60, R84, R101, R102: a replica that has starved in step 2 for longer than `SKEW_LIMIT` claims it to every other live lane and
halts the strand; a replica whose skew timer ran out is claimed late; the notices of another unit act as they arrive. A lane
that halts a strand stops its replica, drops its beats and messages, and shows the cause in `VT_LCAUSE` and in its log. A lane
that excludes a replica takes it out of its in-step set, latches the change, which its application shows in `LN_REPL`, stops
its own core when it is that replica, and halts the strand when fewer than two are left in step.
Completes: `starveTimeout`, `starveClaimReceive`, `lateClaim`, `lateClaimReceive`, `exclusionNoticeReceive`,
`splitNoticeReceive`. -/
def Obligations.ClaimsNoticesAndSoloOccurrencesAct : Prop :=
  ((∀ (l : Lane) (k : Strand) (o : Occ) (s : State), o ∈ (s.echo l k).solo → exec (.evSolo l k o) s = .next s) ∧
   ∀ (l : Lane) (k : Strand) (o : Occ) (s : State) (h : HeldPub), s.retired l = false → o ∉ (s.echo l k).solo →
     h ∈ (s.echo l k).pubs → pubLane h.pub = some l → o ∈ h.pub.occ → h.since + s.skewLimitNs l k < s.ns →
     (∀ x ∈ (s.echo l k).pubs, pubLane x.pub ≠ some l → o ∈ x.pub.occ →
       h.since + s.skewLimitNs l k < x.since ∨ x.since + s.skewLimitNs l k < h.since) →
     ∃ t, exec (.evSolo l k o) s = .next t ∧
       t.fld l.unit (Reg.ecFaults k.idx) 15 8 = satAdd 8 (s.fld l.unit (Reg.ecFaults k.idx) 15 8) 1 ∧
       (∀ u off, u ≠ l.unit ∨ off ≠ Reg.ecFaults k.idx → t.reg u off = s.reg u off) ∧
       t.lanes = (s.setEcho l k { s.echo l k with solo := o :: (s.echo l k).solo }).lanes ∧
       t.voters = s.voters ∧ t.wires = s.wires ∧ t.links = s.links ∧
       (s.consumers.m.running = true → s.floodCount l.idx < 64 →
         (t.log.entries.head?.map fun e => (e.code, e.src, e.strand, e.arg)) =
           some (.evSolo, l.idx, some k, [o.src.toNat, o.vec.toNat, o.num.toNat]))) ∧
  (∀ (l : Lane) (k : Strand) (s : State),
     (s.atSteps l k = true → 2 ≤ (s.reg64 l.unit (Reg.lnPointLo k)).toNat → s.dueAgreement l k = none →
       (s.replica l k).waitSince + s.skewLimitNs l k < s.ns →
       exec (.starveTimeout l k) s = .next ((s.send ((s.peers l).map fun x => .starveClaim x l k)).haltOwn l k .starved none)) ∧
     (∀ x : Lane, (s.retired x = false → exec (.starveClaimReceive l x k) s =
         .next ((s.arrive (.starveClaim l x k)).haltOwn l k .starved none)) ∧
       (s.retired x = true → exec (.starveClaimReceive l x k) s = .next (s.arrive (.starveClaim l x k)))) ∧
     (∀ pt x, s.runs l k = true → s.awaitedThird l k pt = some x →
       exec (.lateClaim l k pt) s =
         .next ((s.send ((s.peers l).map fun y => .lateClaim y ⟨k, pt, l, x⟩)).lateAt l k pt x)) ∧
     (∀ c : LateClaim, c.strand = k → s.runs l k = true → s.retired c.sender = false →
       exec (.lateClaimReceive l c) s = .next ((s.arrive (.lateClaim l c)).lateAt l k c.point c.repl)) ∧
     (∀ x c, exec (.exclusionNoticeReceive l k x c) s = .next
       (State.tryAgree agreeDepth ((s.arrive (.exclusion l k x c)).excludeAt l k x c) l k)) ∧
     (∀ c, exec (.splitNoticeReceive l k c) s = .next ((s.arrive (.split l k c)).haltAt l k c none)) ∧
     ((s.haltedAt l k = true ∨ s.retired l = true) → ∀ c x, s.haltOwn l k c x = s ∧ s.haltAt l k c x = s) ∧
     (s.haltedAt l k = false → s.retired l = false → ∀ c x, let t := s.haltOwn l k c x
       t.haltedAt l k = true ∧
         (t.replica l k).mode = (if (s.replica l k).mode = .debugHalted then .debugHalted else .stopped) ∧
         (t.replica l k).out = [] ∧ (t.replica l k).load = none ∧ (t.echo l k).inQ = Quad.all [] ∧
         t.reg l.unit (Reg.vtLcause k.idx) = causeWord c x ∧
         (c = .starved → t.flag l.unit (Reg.ecStat k.idx) 2 = true) ∧
         (s.consumers.m.running = true → s.floodCount l.idx < 64 → ∃ e ∈ t.log.entries,
           e.code = .strandHalt ∧ e.src = l.idx ∧ e.strand = some k ∧ e.arg.headD 0 = Cause.code c) ∧
         (∀ j, j ≠ k → (t.replica l j).mode = (s.replica l j).mode ∧ t.haltedAt l j = s.haltedAt l j) ∧ t.base = s.base) ∧
     (∀ x c, (s.echo l k).inStep.get x = false → s.excludeAt l k x c = s) ∧
     (∀ x c, s.haltedAt l k = false → s.retired l = false → (s.echo l k).inStep.get x = true →
       let t := s.excludeAt l k x c
       (t.echo l k).inStep.get x = false ∧ (∀ y, y ≠ x → (t.echo l k).inStep.get y = (s.echo l k).inStep.get y) ∧
         (∃ h ∈ (t.echo l k).latched, h.occ.src = 0 ∧ h.occ.vec = 1) ∧
         (x = l → (t.replica l k).mode = .stopped ∧ (t.replica l k).out = []) ∧
         ((t.inStepAt l k).length < 2 → t.haltedAt l k = true) ∧ t.base = s.base) ∧
     (∀ pt x, let t := s.lateAt l k pt x
       t.fld l.unit (Reg.ecFaults k.idx) 7 0 = satAdd 8 (s.fld l.unit (Reg.ecFaults k.idx) 7 0) 1 ∧
         (s.haltedAt l k = false → s.retired l = false → (t.echo l k).inStep.get x = false) ∧ t.base = s.base) ∧
     (∀ (c : Change) (now : Dword), (s.applyChange l k c now).fld l.unit (Reg.lnRepl k) (3 * c.repl.idx + 2) (3 * c.repl.idx) =
       nextReplState (s.replState l k c.repl) c.event (s.budgetReached l k c.repl now)) ∧
     (nextReplState 0 .excluded false = 1 ∧ nextReplState 0 .excluded true = 4 ∧ nextReplState 0 .debug false = 3 ∧
       nextReplState 1 .rejoinStart false = 2 ∧ nextReplState 3 .rejoinStart false = 2 ∧ nextReplState 2 .joined false = 0 ∧
       nextReplState 2 .abandoned false = 1 ∧ ∀ st b, nextReplState st .retired b = 4))

/-- R69, R72, R74: `LN_SQ_SEND` and `LN_SQ_RXPOP` as instructions of the replica. A message of 1 to 16 words to another
strand with credit left joins the open epoch, numbered, and uses one credit; a bad length or destination, or no credit, only
counts in `LN_SQ_DROP`. POP removes the head message that is visible. Completes: `sqSend`, `sqRxpop`. -/
def Obligations.StrandQueueSendsAndPops : Prop :=
  ∀ (l : Lane) (k : Strand) (v : Word) (s : State), s.canExecute l k = true →
    (s.allowed l k (0x200000000 + pageKey k 0x140) 4 .write = true → v &&& 0xFFFFFE0C = 0 →
      exec (.sqSend l k v) s = .next ((s.sqSend l k v).retirePageStore l k 0x140 v) ∧
      (let dst := Strand.ofIdx (fieldOf v 1 0)
       let len := fieldOf v 8 4
       let e := s.echo l k
       (len = 0 ∨ 16 < len ∨ dst = k → s.sqSend l k v = s.bump l.unit (Reg.lnSqDrop k) 15 8) ∧
       (1 ≤ len → len ≤ 16 → dst ≠ k → creditsFor e dst = 0 → s.sqSend l k v = s.bump l.unit (Reg.lnSqDrop k) 7 0) ∧
       (1 ≤ len → len ≤ 16 → dst ≠ k → 0 < creditsFor e dst →
         ((s.sqSend l k v).replica l k).sqOpen =
           (s.replica l k).sqOpen ++ [(dst, ⟨e.sendSeq.get dst, s.txWords l k len, e.sent.get dst + 1⟩)] ∧
         ((s.sqSend l k v).echo l k).sendSeq.get dst = e.sendSeq.get dst + 1 ∧
         creditsFor ((s.sqSend l k v).echo l k) dst + 1 = creditsFor e dst ∧
         (s.txWords l k len).length = len ∧ (s.sqSend l k v).base = s.base))) ∧
    (s.allowed l k (0x200000000 + pageKey k 0x158) 4 .write = true → v &&& 0xFFFFFFFE = 0 →
      exec (.sqRxpop l k v) s = .next ((s.sqPop l k v).retirePageStore l k 0x158 v) ∧
      (∀ j m, s.rxHead l k = some (j, m) → bitOf v 0 = true →
        ((s.sqPop l k v).echo l k).inQ.get j = ((s.echo l k).inQ.get j).tail ∧
        ((s.sqPop l k v).echo l k).popped.get j = (s.echo l k).popped.get j + 1) ∧
      (s.rxHead l k = none ∨ bitOf v 0 = false → s.sqPop l k v = s))

/-- R181, R182: writing 241 to 255 to `LN_EV_SWSET` sets that software vector for the next event point, any other value is
ignored and logged; writing `LN_EV_PEND` clears the pending bits written 1 and no others. Completes: `swEventSet`,
`evPendClear`. -/
def Obligations.SoftwareVectorsAndPendingBits : Prop :=
  ∀ (l : Lane) (k : Strand) (v : Word) (s : State), s.canExecute l k = true →
    (s.allowed l k (0x200000000 + pageKey k 0x440) 4 .write = true → v &&& 0xFFFFFF00 = 0 →
      (241 ≤ v.toNat → exec (.swEventSet l k v) s = .next (State.retirePageStore (s.setReplica l k
        { s.replica l k with soft := (s.replica l k).soft ++ [v.toNat] }) l k 0x440 v)) ∧
      (v.toNat < 241 → exec (.swEventSet l k v) s = .next (State.retirePageStore
        (s.logEv l.idx (some k) .writeIgnored [pageKey k 0x440, (Master.strand k).number]) l k 0x440 v))) ∧
    (∀ n, n < 8 → s.allowed l k (0x200000000 + pageKey k (0x400 + 4 * n)) 4 .write = true →
      exec (.evPendClear l k n v) s = .next (State.retirePageStore
        (s.setReg l.unit (Reg.lnEvPend k n) (s.reg l.unit (Reg.lnEvPend k n) &&& ~~~v)) l k (0x400 + 4 * n) v))

/-! ### Voters -/

/-- R89, R96, R318, R319: the first beat that waits in a lane leaves when its junction link works, its sump has room for it, its
virtual channel has a credit and a read request has a tag, and stays otherwise; nothing else changes. Completes:
`beatSend`. -/
def Obligations.BeatsLeaveInOrderWhileTheSumpHasRoom : Prop :=
  ∀ (l : Lane) (k : Strand) (s : State) (d : Die) (b : Beat) (rest : List (Die × Beat)),
    (s.replica l k).out = (d, b) :: rest →
    (s.mayLeave l d b = true ↔ (s.lane l).junction.get d = true ∧ s.sumpTaken d l b.strand < 512 ∧
      s.vcCredit l d false (if b.isRead then .request else .posted) = true ∧ (b.isRead = true → s.readTags l d < 256)) ∧
    (s.mayLeave l d b = true →
      ∃ t, exec (.beatSend l k) s = .next t ∧ (t.replica l k).out = rest ∧
        t.vcQueue l d false (if b.isRead then .request else .posted) =
          s.vcQueue l d false (if b.isRead then .request else .posted) ++ [.beat d l b] ∧
        t.wires = s.wires ∧ t.regs = s.regs ∧ t.voters = s.voters ∧ t.base = s.base ∧
        (∀ l' k', l' ≠ l ∨ k' ≠ k → t.replica l' k' = s.replica l' k')) ∧
    (s.mayLeave l d b = false → exec (.beatSend l k) s = .next s)

/-- R91, R92: what the beats of one ordinal say. One beat decides nothing; two that match allow a release, and are whole when
two replicas are expected; two that differ split the strand only when two are expected; of three, the odd one out is
excluded, as MISMATCH when it came last and as ODD otherwise, and three different ones split the strand. -/
def Obligations.VerdictsFollowTheBeats : Prop :=
  ∀ (n : Nat) (la lb lc : Lane) (x y z : Beat),
    verdict n [] = .wait ∧ verdict n [(la, x)] = .wait ∧
    (x = y → verdict n [(la, x), (lb, y)] = (if n ≤ 2 then .whole x else .pair x)) ∧
    (x ≠ y → verdict n [(la, x), (lb, y)] = (if n ≤ 2 then .diverge else .differ)) ∧
    (x = y → y = z → verdict n [(la, x), (lb, y), (lc, z)] = .whole x) ∧
    (x = y → y ≠ z → verdict n [(la, x), (lb, y), (lc, z)] = .mismatch lc x) ∧
    (x = z → x ≠ y → verdict n [(la, x), (lb, y), (lc, z)] = .odd lb x) ∧
    (y = z → x ≠ y → verdict n [(la, x), (lb, y), (lc, z)] = .odd la y) ∧
    (x ≠ y → y ≠ z → x ≠ z → verdict n [(la, x), (lb, y), (lc, z)] = .split)

/-- R91, R97: a beat that arrives at a live voter which expects it, from a replica whose beat of that ordinal it does not
hold, is held; the first one of an ordinal decides nothing. An uncorrectable error of its sump entry excludes the replica, a
correctable one counts in `VT_CNT`. A message that must not arrive yet stays on its link. Completes: `beatArrive`.
R37, R123, R320: a beat for a die that is stopped is lost; a write is counted for the record of the die's restart and a
read leaves no trace. A beat from a replica that the voter does not expect, or for a halted strand, is discarded. That a lost
read leaves no trace is the model's choice (log entry 102). -/
def Obligations.ArrivingBeatsAreHeldDecidedOrLost : Prop :=
  (∀ (d : Die) (l : Lane) (b : Beat) (s : State), s.voterLive d b.strand = true →
     (s.expects d b.strand b.ordinal).contains l = true →
     let t := s.arrive (.beat d l b)
     (s.mayArrive (.beat d l b) = false → ∀ e, exec (.beatArrive d l b e) s = .next s) ∧
     (s.mayArrive (.beat d l b) = true →
       exec (.beatArrive d l b .ok) s = .next ((t.atArrival d l b).holdBeat d l b .ok) ∧
       exec (.beatArrive d l b (.sumpUe l)) s = .next ((t.atArrival d l b).voterExclude d b.strand l .sumpEcc b.ordinal) ∧
       exec (.beatArrive d l b (.sumpCe l)) s =
         .next (((t.atArrival d l b).bump d.unit (Reg.vtCnt b.strand.idx) 15 8).holdBeat d l b (.sumpCe l)) ∧
       (b.isRead = true → ordOf (s.voter d b.strand) b.ordinal = none →
         serialLt b.ordinal (s.voter d b.strand).next = false →
         ∃ u, exec (.beatArrive d l b .ok) s = .next u ∧
           ordOf (u.voter d b.strand) b.ordinal = some ⟨b.ordinal, [(l, b)], none, none⟩ ∧
           (u.voter d b.strand).next = (s.voter d b.strand).next ∧ u.lanes = s.lanes ∧ u.log = s.log ∧
           u.consumers = s.consumers ∧ u.wires = s.wires ∧
           u.vcQueue l d false .request = eraseFirst (.beat d l b) (s.vcQueue l d false .request)))) ∧
  (∀ (d : Die) (l : Lane) (b : Beat) (e : BeatEcc) (s : State), s.dieFitted d = true →
     s.mayArrive (.beat d l b) = true →
     ((s.consumer d).running = false → b.isRead = true → exec (.beatArrive d l b e) s = .next (s.arrive (.beat d l b))) ∧
     ((s.consumer d).running = false → b.isRead = false →
       ∃ t, exec (.beatArrive d l b e) s = .next t ∧
         (((t.consumer d).lost.get b.strand).get l).count = (((s.consumer d).lost.get b.strand).get l).count + 1 ∧
         t.voters = s.voters ∧ t.regs = s.regs ∧ t.lanes = s.lanes) ∧
     ((s.consumer d).running = true → s.flag d.unit Reg.vtFence 0 = false →
       s.voterHalted d b.strand = true ∨ (s.expects d b.strand b.ordinal).contains l = false →
       exec (.beatArrive d l b e) s = .next (s.arrive (.beat d l b))))

/-- R93, R97, R98: with matching beats of the next ordinal held, the voter's die performs it once: a write takes effect (or
fails, when its island has no power), a read is read once, kept for a third replica's request while the read-once buffer has room,
and answered to each replica that asked, over its own link. An uncorrectable error in an entry that is read for
it excludes the entry's owner instead. Completes: `beatRelease`, `readOncePerform`. -/
def Obligations.NextOrdinalIsReleasedOnce : Prop :=
  ∀ (d : Die) (k : Strand) (s : State) (o : OrdRec) (b : Beat), s.voterLive d k = true →
    (s.readyBeat d k (beatAllInStep d) = some (o, b) → b.isRead = false →
      (s.islandOff d b.addr = false →
        exec (.beatRelease d k .ok) s = .next (((s.settleOrd d k o b).beatStore d b).voterClean d k)) ∧
      (s.islandOff d b.addr = true →
        exec (.beatRelease d k .ok) s =
          .next (((s.settleOrd d k o b).pwFail d (some k) (beatFail d 1 b)).voterClean d k)) ∧
      (∀ x, (o.beats.any fun y => y.1 == x) = true →
        exec (.beatRelease d k (.sumpUe x)) s = .next (s.voterExclude d k x .sumpEcc o.ordinal))) ∧
    ((s.settleOrd d k o b).voter d k).next = (s.voter d k).next + 1 ∧
    (s.readyBeat d k (fun _ => false) = some (o, b) → b.isRead = true → s.islandOff d b.addr = false →
      let third := (s.expects d k o.ordinal).any fun l => !o.beats.any fun x => x.1 == l
      let t := (s.beatLoad d b).1.settleOrd d k o b
      let u := if third = true then t.setVoter d k
        { t.voter d k with kept := (t.voter d k).kept ++ [⟨o.ordinal, b, (s.beatLoad d b).2⟩] } else t
      (third = false ∨ (s.voter d k).kept.length < robSize → exec (.readOncePerform d k .ok) s = .next
        (((o.beats.foldl (fun (t : State) x =>
            if x.2 == b then t.sendResult d k o.ordinal (s.beatLoad d b).2 x.1 else t) u).showSump d k).voterClean d k)) ∧
      (third = true → robSize ≤ (s.voter d k).kept.length → exec (.readOncePerform d k .ok) s = .next s)) ∧
    (∀ (l : Lane) (n : Word) (v : Dword), ((s.lane l).junction.get d = false → s.sendResult d k n v l = s) ∧
      ((s.lane l).junction.get d = true → (s.sendResult d k n v l).vcQueue l d true .response =
        s.vcQueue l d true .response ++ [.result l d k n v] ∧
        (s.vcQueue l d true .response = [.result l d k n v] →
          s.takeResults l d = (s.arrive (.result l d k n v)).deliverRead l k d n v))) ∧
    ((s.readyBeat d k (beatAllInStep d)).isNone = true → exec (.beatRelease d k .ok) s = .next s) ∧
    ((s.readyBeat d k fun _ => false).isNone = true → exec (.readOncePerform d k .ok) s = .next s)

/-- R91, R100: a third beat that stays out past the skew limit excludes its replica as LATE; a request that was sent and
brings no result for 2 ms is answered with the timeout pattern, logged, and the load ends when no other part is missing.
Completes: `voterSkewTimeout`, `rdTimeout`. -/
def Obligations.LateBeatsAndReadsTimeOut : Prop :=
  (∀ (d : Die) (k : Strand) (n : Word) (s : State) (o : OrdRec) (x : Lane), ordOf (s.voter d k) n = some o →
    s.voterLive d k = true → s.skewOver d k o = true → (s.expects d k n).length = 3 →
    ((s.expects d k n).find? fun l => !o.beats.any fun y => y.1 == l) = some x →
    exec (.voterSkewTimeout d k n) s = .next (s.voterExclude d k x .late n)) ∧
  (∀ (l : Lane) (k : Strand) (s : State) (p : PendingLoad) (q : ReadPart), (s.replica l k).load = some p →
    p.parts = [q] → q.got = none → q.sent + 2000000 ≤ s.ns → (s.replica l k).mode ≠ .stopped →
    ((s.replica l k).out.any fun x => x.1 == q.die && x.2.ordinal == q.ordinal) = false →
    ∃ t, exec (.rdTimeout l k) s = .next t ∧ (t.replica l k).load = none ∧
      (t.replica l k).last = loadBytes p.addr p.size [{ q with got := some 0xDEAD0B0BDEAD0B0B }] ∧
      t.reg64 l.unit (Reg.lnIcountLo k) = s.reg64 l.unit (Reg.lnIcountLo k) + 1 ∧ t.voters = s.voters ∧ t.base = s.base ∧
      (s.consumers.m.running = true → s.floodCount l.idx < 64 →
        (t.log.entries.head?.map fun e => (e.code, e.src, e.strand, e.arg)) =
          some (.rdTimeout, l.idx, some k, [Die.window q.die])))

/-- R121, R122: a challenge beat from a lane in the voter's set is held; once all lanes in the set have sent theirs the voter
answers with one occurrence of its die to every lane that it reaches, whose answer names the odd lane and says whether the beat was
released. A beat whose entry at the voter is still held waits, and a beat held from a replica excluded since is compared with the
others (log entry 127, the model's choices). Completes: `challengeBeatArrive`. -/
def Obligations.ChallengesAreAnsweredByTheTestPath : Prop :=
  (∀ (d : Die) (l : Lane) (k : Strand) (v : Dword) (s : State), s.dieFitted d = true → (s.consumer d).running = true →
    (s.voterIn d k).contains l = true → s.voterHalted d k = false → s.mayArrive (.challenge d l k v) = true →
    (s.voter d k).challenge.get l = none →
    exec (.challengeBeatArrive d l k v) s = .next (State.chalDecide ((s.arrive (.challenge d l k v)).setVoter d k
      { s.voter d k with challenge := (s.voter d k).challenge.set l (some v) }) d k)) ∧
  (∀ (d : Die) (l : Lane) (k : Strand) (v : Dword) (s : State),
    (s.mayArrive (.challenge d l k v) = false → exec (.challengeBeatArrive d l k v) s = .next s) ∧
    (s.mayArrive (.challenge d l k v) = true →
      s.dieFitted d = false ∨ (s.consumer d).running = false ∨ (s.voterIn d k).contains l = false ∨ s.voterHalted d k = true →
      exec (.challengeBeatArrive d l k v) s = .next (s.arrive (.challenge d l k v))) ∧
    (((s.voter d k).challenge.get l).isSome = true → s.dieFitted d = true → (s.consumer d).running = true →
      (s.voterIn d k).contains l = true → s.voterHalted d k = false → exec (.challengeBeatArrive d l k v) s = .next s)) ∧
  (∀ (d : Die) (k : Strand) (s : State), let c := (s.voter d k).challenge
    let o := s.nextOcc d k (chalVector d)
    ((s.voterIn d k).any (fun l => (c.get l).isNone) = true → s.chalDecide d k = s) ∧
    (s.dieFitted d = true → (s.consumer d).running = true → 2 ≤ (s.voterIn d k).length →
      (∀ l ∈ s.voterIn d k, (c.get l).isSome = true) →
      let t := s.chalDecide d k
      (t.voter d k).challenge = Tri.all none ∧ o.src = Die.source d ∧ o.vec = BitVec.ofNat 8 (chalVector d) ∧
        (s.vectorFitted (chalVector d) = true → ∀ l ∈ s.linked d, Wire.occurrence l d k o ∈ t.vcQueue l d true .posted) ∧
        (∀ l ∈ s.linked d, (t.echo l k).answers = (s.echo l k).answers ++
          [⟨d, o, chalOdd c.a c.b c.c, chalRelease (Lane.list.filterMap fun x => c.get x)⟩]) ∧ t.base = s.base)) ∧
  (∀ x y : Dword, x ≠ y → chalOdd (some x) (some y) (some y) = some .a ∧ chalOdd (some y) (some x) (some y) = some .b ∧
    chalOdd (some y) (some y) (some x) = some .c ∧ chalOdd (some x) (some x) (some x) = none) ∧
  (∀ x y : Dword, chalRelease [x, y] = true ↔ x = y)

/-! ### Lane memory, scrub and memory errors -/

/-- R107, R109, R167: a broadcast write that lands in a lane that is not retired is in memory there and has left its link, and no
other lane changes; in a retired lane it has no effect. One that the lane cannot read is recorded as lost (R320). One that
must not arrive yet stays on its link (R319). Completes: `broadcastWriteLand`. -/
def Obligations.BroadcastWriteLandsInOneLane : Prop :=
  ∀ (l : Lane) (w : Broadcast) (s : State), isLaneMemory (w.addr.toNat + w.bytes.length - 1) = true →
    (∀ ue, s.mayArrive (.broadcast l w) = false → exec (.broadcastWriteLand l w ue) s = .next s) ∧
    (∀ ue, s.mayArrive (.broadcast l w) = true → s.retired l = true →
      exec (.broadcastWriteLand l w ue) s = .next ((s.arrive (.broadcast l w)).noteLanded w.die l)) ∧
    (s.mayArrive (.broadcast l w) = true → s.retired l = false → exec (.broadcastWriteLand l w true) s =
      .next (((s.arrive (.broadcast l w)).noteLanded w.die l).loseWrite l w 7)) ∧
    (s.mayArrive (.broadcast l w) = true → s.retired l = false →
      ∃ t, exec (.broadcastWriteLand l w false) s = .next t ∧
        (∀ l' i, cellGet (t.lane l').mem i =
          if l' = l ∧ w.addr.toNat ≤ i ∧ i < w.addr.toNat + w.bytes.length then (w.bytes[i - w.addr.toNat]?).getD 0
          else cellGet (s.lane l').mem i) ∧
        t.vcQueue l (Die.ofPDie w.die) true .posted =
          eraseFirst (.broadcast l w) (s.vcQueue l (Die.ofPDie w.die) true .posted) ∧
        (∀ l', l' ≠ l → t.lane l' = s.lane l') ∧ t.wires = s.wires ∧ t.voters = s.voters ∧ t.log = s.log)

/-- R118, R119, R170: a scrub engine publishes the hash of its oldest block, or a void one when a store hit the block, or marks
the block unreadable when a word there is poisoned; equal hashes of all in-step lanes move the scrub on, and a lane whose
hash differs from two equal ones is excluded. Completes: `scrubHashDone`, `scrubCompare`.
R169 to R173: what an uncorrectable error of a lane memory does, by where it lies: it counts for a clean cache line,
poisons the doubleword of a strand's partition or slice, and is a lane-wide fault of the class of R172 elsewhere, which stops
the lane's four cores and asserts its fault line; under a page that a rejoin writes it abandons the rejoin (R145). The patrol
shows where it is, and counts what it corrects. Completes: `memoryUe`, `patrolRead`. -/
def Obligations.ScrubAndMemoryErrorsOfALane : Prop :=
  ((∀ (l : Lane) (k : Strand) (j : ScrubJob) (rest : List ScrubJob) (s : State), (s.scrub l k).busy = j :: rest →
     let x := s.scrub l k
     let base := blockBase k j.block
     (s.poisoned l base 65536 = false →
       exec (.scrubHashDone l k) s = .next (s.setScrub l k { x with
         busy := rest
         done := x.done ++ [⟨j.block, j.point, j.tries, blockCount x.counts j.block,
           if j.void = true then none else some (crc64 (memRead (s.lane l).mem base 65536)), false⟩] })) ∧
     (s.poisoned l base 65536 = true → ∃ t, exec (.scrubHashDone l k) s = .next t ∧ t.scrub l k = { x with
       busy := rest
       done := x.done ++ [⟨j.block, j.point, j.tries, blockCount x.counts j.block, none, true⟩] } ∧ t.base = s.base)) ∧
   (∀ (l : Lane) (k : Strand) (s : State), (s.scrub l k).busy = [] → exec (.scrubHashDone l k) s = .next s) ∧
   (∀ (k : Strand) (s : State) (g : Tri ScrubHash) (h : Tri Dword), s.halted k = false →
     s.scrubReady k = some [(.a, g.a), (.b, g.b), (.c, g.c)] →
     (∀ l, (g.get l).hash = some (h.get l) ∧ (g.get l).unreadable = false ∧ (g.get l).count = g.a.count) →
     (h.a = h.b → h.b = h.c → exec (.scrubCompare k) s = .next (s.scrubAdvance k g.a)) ∧
     (h.a = h.b → h.b ≠ h.c → exec (.scrubCompare k) s = .next ((s.scrubExcludes k .c).scrubAdvance k g.a)) ∧
     (h.a = h.c → h.a ≠ h.b → exec (.scrubCompare k) s = .next ((s.scrubExcludes k .b).scrubAdvance k g.a)) ∧
     (h.b = h.c → h.a ≠ h.b → exec (.scrubCompare k) s = .next ((s.scrubExcludes k .a).scrubAdvance k g.a)) ∧
     (h.a ≠ h.b → h.b ≠ h.c → h.a ≠ h.c →
       exec (.scrubCompare k) s = .next (s.liveLanes.foldl (fun t l => t.echoSplits l k .split) s)))) ∧
  (∀ (l : Lane) (s : State) (a : Addr),
     (∀ loc, loc = .control ∨ isLaneMemory a.toNat = true → exec (.memoryUe l loc a) s =
       .next (if s.copiesTo l loc a.toNat = true then (s.memoryUe l loc a.toNat).abandonRejoin 0x24
         else s.memoryUe l loc a.toNat)) ∧
     (s.rejoin = none → ∀ loc, s.copiesTo l loc a.toNat = false) ∧
     s.memoryUe l .cleanCache a.toNat = s.bump l.unit Reg.lnEccCnt 15 8 ∧
     (∀ k o, regionOf a.toNat = .partition k o → s.memoryUe l .dram a.toNat = s.poisonWord l a.toNat 1 k) ∧
     (∀ o, regionOf a.toNat = .common o → s.memoryUe l .dram a.toNat = s.ownFault l .dramUe) ∧
     (∀ k o, regionOf a.toNat = .slice k o → s.memoryUe l .sram a.toNat = s.poisonWord l a.toNat 2 k) ∧
     (∀ k l1, ownerOf a.toNat = some k →
       s.memoryUe l (.dirtyCache l1) a.toNat = s.poisonWord l a.toNat (if l1 = true then 4 else 3) k) ∧
     (∀ l1, ownerOf a.toNat = none → s.memoryUe l (.dirtyCache l1) a.toNat = s.ownFault l .laneUe) ∧
     s.memoryUe l .control a.toNat = s.ownFault l .laneUe ∧
     (∀ k, (a.toNat / 8 * 8) ∈ ((s.poisonWord l a.toNat 1 k).lane l).poison ∧
       (s.poisonWord l a.toNat 1 k).base = s.base) ∧
     (∀ c, ((s.ownFault l c).wires = s.wires ++ [.faultLine l c]) ∧
       (∀ k, ((s.ownFault l c).replica l k).mode = .stopped) ∧
       (s.ownFault l c).fld l.unit Reg.lnLfault 10 8 = LaneFault.code c ∧ (s.ownFault l c).base = s.base) ∧
     (a.toNat < 0x100000000 → a.toNat / 64 * 64 + 64 ≠ 0x100000000 →
       exec (.patrolRead l .clean a) s = .next (s.setFld l.unit Reg.lnPatrol 15 0 (a.toNat / 65536)) ∧
       exec (.patrolRead l .busy a) s = .next (s.setFld l.unit Reg.lnPatrol 15 0 (a.toNat / 65536)) ∧
       exec (.patrolRead l .correctable a) s =
         .next ((s.setFld l.unit Reg.lnPatrol 15 0 (a.toNat / 65536)).bump l.unit Reg.lnEccCnt 31 24) ∧
       exec (.patrolRead l .uncorrectable a) s =
         .next ((s.setFld l.unit Reg.lnPatrol 15 0 (a.toNat / 65536)).memoryUe l .dram a.toNat)))

/-- R148, R173, R33: an asserted fault line shows in all three lanes, stops the faulty lane's cores and leads to the
lane-retire notice; the notice retires the lane, whose replicas stop and leave every in-step set; a junction link that fails
is logged, carries nothing more, and loses what was under way on it. MOD_HELD follows both (R352). Completes:
`faultLineAssert`, `laneRetire`, `linkFail`. That what was under way on a failed link is lost is the model's choice (log entry
30). -/
def Obligations.LaneFaultsLeadToRetirement : Prop :=
  ∀ (l : Lane) (s : State),
    (∀ c, s.retired l = false → s.consumers.m.running = true →
      ∃ t, exec (.faultLineAssert l c) s = .next t ∧ t.wires = eraseFirst (.faultLine l c) s.wires ++ [.retireNotice l c] ∧
        (∀ x : Lane, t.flag x.unit Reg.lnLfault l.idx = true) ∧
        t.fld l.unit Reg.lnLfault 10 8 = LaneFault.code c ∧
        (∀ k, (t.replica l k).mode = .stopped) ∧ t.base = s.base) ∧
    (∀ c, let u := s.arrive (.retireNotice l c)
      (s.retired l = true → exec (.laneRetire l c) s = .next u) ∧
      (s.retired l = false → ∃ t, exec (.laneRetire l c) s = .next t ∧
        t = (u.retireLane l c).reStepAll.showHeldAll.agreeAgain ∧ t.retired l = true ∧
        (∀ x : Lane, t.flag x.unit Reg.rjLane l.idx = true ∧
          t.fld x.unit Reg.rjLane (6 + 4 * l.idx) (4 + 4 * l.idx) = LaneFault.code c) ∧
        (∀ k, (t.replica l k).mode = .stopped ∧ (t.replica l k).out = [] ∧ (t.replica l k).load = none ∧
          ∀ x, x ≠ l → s.retired x = false → (t.echo x k).inStep.get l = false) ∧
        (∀ p : PDie, t.flag p.unit Reg.lsStat 27 = t.modHeld p) ∧ t.base = s.base)) ∧
    (∀ d, ∃ t, exec (.linkFail l d) s = .next t ∧ (t.lane l).junction.get d = false ∧
      (∀ down c, t.vcQueue l d down c = []) ∧ (∀ w, t.mayArrive w = true → ∀ down c, Wire.route w ≠ some (l, d, down, c)) ∧
      t.base = s.base) ∧
    (∀ d, (∀ w ∈ s.vcQueue l d true .posted, ∀ x b, w ≠ .broadcast x b) →
      let t := State.logEv (s.setLane l { s.lane l with junction := (s.lane l).junction.set d false }) l.idx none .linkFail
        [l.idx, Die.logSrc d]
      exec (.linkFail l d) s =
        .next (t.setJLink l d { t.jlink l d with up := ⟨[], [], []⟩, down := ⟨[], [], []⟩ }).showHeldAll) ∧
    (∀ p : PDie, s.showHeldAll.flag p.unit Reg.lsStat 27 = s.modHeld p)

/-- R6, R7, R151, R153: the lane itself answers an access to an absent unit: a read returns the absent pattern (for a DEBUG
replica too: log entry 158, the model's choice), a write is dropped, and both retire without a beat. Debug requests act only on a replica in DEBUG while debug access lasts, and are
logged otherwise. Completes: `absentUnitAccess`, `debugRequest`, `debugAttach`, `dbgEnChange`. -/
def Obligations.AbsentUnitsAndDebugAreAnsweredInTheLane : Prop :=
  ∀ (l : Lane) (k : Strand) (s : State),
    (∀ (a : Addr) (d : Die) (off n : Nat), s.canExecute l k = true → regionOf a.toNat = .window d off →
      (s.absentUnit d off).isSome = true → (∀ w ∈ dwords off (List.replicate n 0), (s.absentUnit d w.addr).isSome = true) →
      (s.allowed l k a.toNat n .read = true → ∃ t, exec (.absentUnitAccess l k a n false) s = .next t ∧
        (t.replica l k).last = patternBytes 0xDEAD0A0A off n ∧ (t.replica l k).out = [] ∧
        t.reg64 l.unit (Reg.lnIcountLo k) = s.reg64 l.unit (Reg.lnIcountLo k) + 1 ∧ t.wires = s.wires ∧ t.base = s.base) ∧
      (s.allowed l k a.toNat n .write = true → ∃ t, exec (.absentUnitAccess l k a n true) s = .next t ∧
        (t.replica l k).out = [] ∧
        t.reg64 l.unit (Reg.lnIcountLo k) = s.reg64 l.unit (Reg.lnIcountLo k) + 1 ∧ t.wires = s.wires ∧ t.base = s.base)) ∧
    ((s.replica l k).debug = true → s.flag l.unit Reg.rjDbg 8 = true → s.debugAuth = true →
      exec (.debugRequest l k .halt) s = .next (s.setReplica l k { s.replica l k with mode := .debugHalted }) ∧
      exec (.debugRequest l k .run) s = .next (s.setReplica l k { s.replica l k with mode := .running }) ∧
      ((s.replica l k).mode = .debugHalted → exec (.debugRequest l k .step) s =
        .next (s.setReplica l k { s.replica l k with mode := .debugStep })) ∧
      (∀ r m, exec (.debugRequest l k (.modify r m)) s =
        .next (s.setReplica l k { s.replica l k with core := r, mask := m })) ∧
      (∀ a bs, ownerOf a.toNat = some k → ownerOf (a.toNat + bs.length - 1) = some k →
        exec (.debugRequest l k (.poke a bs)) s = .next (s.laneStore l a.toNat bs))) ∧
    (∀ q, (s.replica l k).debug = false ∨ s.flag l.unit Reg.rjDbg 8 = false ∨ s.debugAuth = false →
      exec (.debugRequest l k q) s = .next (s.logEv l.idx (some k) .dbgRefused [l.idx])) ∧
    (∀ c, s.attachRefusal k l = some c →
      exec (.debugAttach k l) s = .next (s.logEv l.idx (some k) .dbgRefused [c])) ∧
    (s.attachRefusal k l = none → exec (.debugAttach k l) s = .next (s.attach k l)) ∧
    (∀ on, ∃ t, exec (.dbgEnChange on) s = .next t ∧ (∀ x : Lane, t.flag x.unit Reg.rjDbg 8 = on) ∧
      t.flag .m Reg.mgDbg 30 = on ∧
      (∀ u off, off ≠ Reg.rjDbg → off ≠ Reg.mgDbg → t.reg u off = s.reg u off) ∧ t.lanes = s.lanes ∧ t.log = s.log)

/-! ### Rejoin, restart and timing commits -/

/-- R131 to R133: a request for an eligible replica is queued and shown, a refusal shows its RESULT, a second request while
one is queued or running is ignored and logged; ABANDON takes a queued request back. Automatic requests are made only while
AUTO is set, once for each time that a replica becomes SET_ASIDE, after 100 ms, with fewer than 3 abandoned rejoins in a row.
Completes: `rejoin`,
`abandon`, `autoRejoinRequest`. -/
def Obligations.RejoinRequestsAreCheckedAndQueued : Prop :=
  ∀ (k : Strand) (x : Lane) (s : State),
    (s.mgmtCommands = true → exec (.rejoin k x) s = .next (s.requestRejoin k x)) ∧
    (s.rejoinBusy k = true → s.requestRejoin k x = s.ignored (s.donorView k).unit Reg.rjCmd .mgmt) ∧
    (∀ res, s.rejoinBusy k = false → s.rejoinRefusal k x = some res → res < 256 →
      let t := s.requestRejoin k x
      (∀ l : Lane, t.fld l.unit (Reg.rjStat k.idx) 31 24 = res) ∧
        t.rejoinQueue = s.rejoinQueue ∧ t.rejoin = s.rejoin ∧ t.lanes = s.lanes ∧ t.log = s.log) ∧
    (s.rejoinBusy k = false → s.rejoinRefusal k x = none →
      let t := s.requestRejoin k x
      t.rejoinQueue = s.rejoinQueue.set k (some x) ∧
        (∀ l : Lane, t.fld l.unit (Reg.rjStat k.idx) 11 11 = 1) ∧ t.rejoin = s.rejoin ∧ t.lanes = s.lanes ∧
        t.log = s.log) ∧
    (s.mgmtCommands = true → s.rejoinQueue.get k = some x →
      ∃ t, exec (.abandon k) s = .next t ∧ t.rejoinQueue = s.rejoinQueue.set k none ∧
        (∀ l : Lane, t.fld l.unit (Reg.rjStat k.idx) 31 24 = 0x25 ∧ t.fld l.unit (Reg.rjStat k.idx) 11 11 = 0) ∧
        t.lanes = s.lanes) ∧
    (∀ r, s.mgmtCommands = true → s.rejoinQueue.get k = none → s.rejoin = some r → r.strand = k →
      exec (.abandon k) s = .next (s.abandonRejoin 0x25)) ∧
    (let l := s.donorView k
     (s.rjAuto l = true → s.replState l k x = 1 → s.abn l k x < 3 →
       ∀ t, (s.echo l k).asideAt.get x = some t → t + 100000000 ≤ s.ns →
       exec (.autoRejoinRequest k x) s = .next ((s.autoAsked k x).requestRejoin k x)) ∧
     (s.rjAuto l = false ∨ 3 ≤ s.abn l k x ∨ (s.echo l k).asideAt.get x = none → exec (.autoRejoinRequest k x) s = .next s) ∧
     (∀ y : Lane, ((s.autoAsked k x).echo y k).asideAt.get x = none) ∧ (s.autoAsked k x).regs = s.regs ∧
     (s.autoAsked k x).rejoinQueue = s.rejoinQueue ∧ (s.autoAsked k x).base = s.base)

/-- R29, R133 to R145: the lowest-numbered queued request starts when no rejoin runs; a copy pass takes the time that its pages
take at REJOIN_BW, and ends in the next pass or in the arrangement of the final stall; the hold is sent once both replicas
paused, to each port die that the donor's lane reaches; the final copy is made when both dies have acknowledged and few enough
pages are dirty, and otherwise another pass follows or the forced rejoin is abandoned; an acknowledgement missing for 5 µs or a stall past its bound abandons it.
Completes: `rejoinStart`, `copyPassEnd`, `rejoinHold`, `holdAck`, `holdTimeout`, `stallOver`.
R29, R142 to R144, R146: the final copy takes its time at REJOIN_BW, and a join notice past the stall bound abandons. It gives the target the donor's bytes of the dirty pages, and no other byte of any lane
changes; it gives it the donor's registers and its core's, and the core stays stopped. At the join notice the target is in every
lane's in-step set and in every voter's, from the donor's next ordinal on; its change to IN_STEP is latched in every lane, to be
applied two points later; its core runs as the donor's; no rejoin runs any more, RESULT says whether the stall was forced, and
the target's abandoned count is 0. Completes: `joinNotice`. -/
def Obligations.RejoinPhasesLeadToTheJoin : Prop :=
  ((∀ (k : Strand) (x d : Lane) (s : State), s.rejoinQueue.get k = some x → s.rejoin = none → s.firstQueued k = true →
     s.rejoinRefusal k x = none → s.donorOf k = some d →
     ∃ t, exec (.rejoinStart k) s = .next t ∧ t.rejoinQueue = s.rejoinQueue.set k none ∧
       t.rejoin = some {
         strand := k, target := x, donor := d, fromDebug := s.replState d k x == 3, pass := none, passFrom := s.ns,
         pagesRead := 0, dirty := [], forced := false, boundary := none, stallFrom := none, holdSent := false, holdAt := 0,
         owed := Duo.all (Tri.all 0), acked := Duo.all false, copied := false } ∧
       (∀ l : Lane, t.fld l.unit (Reg.rjStat k.idx) 10 8 = 1 ∧ t.fld l.unit (Reg.rjStat k.idx) 23 20 = 0 ∧
         t.fld l.unit (Reg.rjStat k.idx) 17 16 = d.idx ∧ t.fld l.unit (Reg.rjStat k.idx) 13 12 = x.idx) ∧
       (t.replica x k).mode = .stopped ∧ (t.replica x k).debug = false ∧ t.base = s.base ∧ t.voters = s.voters) ∧
   (∀ (s : State) (r : RejoinRun), s.rejoin = some r →
     (let ph := s.fld r.donor.unit (Reg.rjStat r.strand.idx) 10 8
      let r' := r.readTo (passSize r.pass)
      let t := State.showDirty { s.copyPages r.strand r.donor r.target r.pass with rejoin := some r' }
      (s.passOver r = true ↔ passSize r.pass * 4096 ≤ (s.ns - r.passFrom) * s.rjBw r.donor) ∧
      (s.passOver r = false → exec .copyPassEnd s = .next s) ∧
      (s.passOver r = true → ph = 1 ∨ ph = 2 →
       (r'.dirty.length ≤ stallPages (s.rjStallMax r.donor) (s.rjBw r.donor) →
         exec .copyPassEnd s = .next (t.arrangeStall r')) ∧
       (stallPages (s.rjStallMax r.donor) (s.rjBw r.donor) < r'.dirty.length →
         exec .copyPassEnd s = .next (t.nextPass r'))) ∧
      (s.passOver r = true → ph = 3 → exec .copyPassEnd s = .next (State.showDirty
       { t with rejoin := some { r' with pass := some r'.dirty, passFrom := s.ns, pagesRead := 0 } }))) ∧
     (r.stallFrom.isSome = true → r.holdSent = false →
       ∃ t, exec .rejoinHold s = .next t ∧
         t.rejoin = some { r with holdSent := true, holdAt := s.ns, owed := ⟨s.broadcastsTo .p1, s.broadcastsTo .p2⟩ } ∧
         (∀ p : PDie, (t.port p).hold = if (s.lane r.donor).junction.get (Die.ofPDie p) = true then some r.strand
           else (s.port p).hold) ∧ t.lanes = s.lanes ∧
         t.voters = s.voters ∧ t.links = s.links ∧ t.wires = s.wires) ∧
     (∀ p : PDie, s.holdDone r p = true ↔ (s.port p).hold = some r.strand ∧
       (s.lane r.donor).junction.get (Die.ofPDie p) = true ∧ s.broadcastOwed r p = false) ∧
     (∀ p : PDie, r.holdSent = true → r.acked.p1 = false ∨ r.acked.p2 = false → r.holdAt + 5000 < s.ns →
       exec (.holdAck p) s = .next (s.abandonRejoin 0x22)) ∧
     (∀ p : PDie, s.ns ≤ r.holdAt + 5000 → r.holdSent = true → r.acked.get p = false → r.acked.get p.other = true →
       s.holdDone r p = true → s.boundaryAgreed r = true →
       let r1 := { r with acked := r.acked.set p true }
       let n := s.pagesDue r1
       let r2 := r1.readTo n
       let u := { s.copyPages r.strand r.donor r.target (some ((r.pass.getD []).take n)) with rejoin := some r2 }
       (r2.dirty.length ≤ s.stallLimit r → exec (.holdAck p) s = .next (u.finalCopy r2)) ∧
       (s.stallLimit r < r2.dirty.length →
         let v := ((u.recordStall r2).releaseHolds).resumePaused r.strand
         exec (.holdAck p) s = .next (if r.forced = true then v.abandonRejoin 0x20 else v.nextPass r2))) ∧
     (∀ p : PDie, s.ns ≤ r.holdAt + 5000 → r.holdSent = true → r.acked.get p = false → r.acked.get p.other = false →
       s.holdDone r p = true →
       exec (.holdAck p) s = .next { s with rejoin := some { r with acked := r.acked.set p true } }) ∧
     (∀ p : PDie, r.holdSent = false ∨ r.acked.p1 = true ∧ r.acked.p2 = true → exec (.holdAck p) s = .next s) ∧
     (∀ p : PDie, s.ns ≤ r.holdAt + 5000 → r.holdSent = false ∨ r.acked.get p = true ∨ s.holdDone r p = false ∨
       r.acked.get p.other = true ∧ s.boundaryAgreed r = false → exec (.holdAck p) s = .next s) ∧
     (r.holdSent = true → r.acked.p1 = false ∨ r.acked.p2 = false → r.holdAt + 5000 ≤ s.ns →
       exec .holdTimeout s = .next (s.abandonRejoin 0x22)) ∧
     (∀ t, r.stallFrom = some t → t + 1000 * (if r.forced = true then 2000 else s.rjStallMax r.donor) ≤ s.ns →
       exec .stallOver s = .next (s.abandonRejoin 0x21))) ∧
   (∀ s : State, s.rejoin = none → exec .copyPassEnd s = .next s ∧ exec .rejoinHold s = .next s ∧
     (∀ p, exec (.holdAck p) s = .next s) ∧ exec .holdTimeout s = .next s ∧ exec .stallOver s = .next s ∧
     exec .joinNotice s = .next s)) ∧
  (∀ (s : State) (r : RejoinRun), s.rejoin = some r →
     ((s.finalCopy r).replica r.target r.strand).mode = .stopped ∧
     ((s.finalCopy r).replica r.target r.strand).core = (s.replica r.donor r.strand).core ∧
     ((s.finalCopy r).replica r.target r.strand).ord = (s.replica r.donor r.strand).ord ∧
     (memoriesWf s = true → ∀ (l : Lane) (i : Nat), cellGet ((s.finalCopy r).lane l).mem i =
       if l = r.target ∧ (∃ n ∈ r.dirty, pageBase r.strand n ≤ i ∧ i < pageBase r.strand n + 4096) then
         cellGet (s.lane r.donor).mem i else cellGet (s.lane l).mem i) ∧
     (r.copied = false ∨ s.passOver r = false → exec .joinNotice s = .next s) ∧
     (s.finalCopy r).rejoin = some { r with pass := some r.dirty, passFrom := s.ns, pagesRead := 0, copied := true } ∧
     (∀ t, r.copied = true → s.passOver r = true → r.stallFrom = some t → t + s.stallBoundNs r < s.ns →
       exec .joinNotice s = .next (s.abandonRejoin 0x21)) ∧
     (r.copied = true → s.passOver r = true → (∀ t, r.stallFrom = some t → s.ns ≤ t + s.stallBoundNs r) → ∃ t, exec .joinNotice s = .next t ∧ t.rejoin = none ∧
       t.base = s.base ∧ (t.replica r.target r.strand).mode = (s.replica r.donor r.strand).mode ∧
       (∀ d ∈ s.dies, t.flag d.unit (Reg.vtStat r.strand.idx) r.target.idx = true ∧
         (t.voter d r.strand).join.get r.target = some ((s.replica r.donor r.strand).ord.get d)) ∧
       (∀ l : Lane, s.retired l = false → (t.echo l r.strand).inStep.get r.target = true ∧
         ∃ h ∈ (t.echo l r.strand).latched, h.occ.src = 0 ∧ h.occ.vec = 1) ∧
       (∀ l : Lane, t.fld l.unit (Reg.rjStat r.strand.idx) 31 24 = (if r.forced = true then 2 else 1) ∧
         t.fld l.unit (Reg.rjStat r.strand.idx) 10 8 = 0 ∧
         t.fld l.unit (Reg.rjHist r.strand.idx) (17 + 2 * r.target.idx) (16 + 2 * r.target.idx) = 0)))

/-- R79: GO in a lane that takes part is held, with its staged values; nothing is decided while another lane's GO is missing.
With GO in every lane that takes part, a staged value out of range refuses the commit with ENCODING, values that differ with
LANE_DIFF, and equal values arm it. When a lane's GO is still missing 10 ms from the first, the first of ENCODING, LANE_DIFF
and GO_TIMEOUT that applies refuses it. Completes: `tcfgCommitGo`, `tcfgGoTimeout`. That a lane which leaves takes no part
from then on, and that staged values are judged at GO_TIMEOUT, are the model's choice (log entries 24, 25). -/
def Obligations.TimingCommitNeedsEveryLane : Prop :=
  ∀ (l : Lane) (k : Strand) (s : State),
    ((s.tcfgLanes k).contains l = false → exec (.tcfgCommitGo l k) s = .next s) ∧
    ((s.tcfgLanes k).contains l = true → s.tcfg.get k = none → s.mgmtReaches l = true →
      exec (.tcfgCommitGo l k) s = .next (State.tcfgSettle (State.showTcfg
        { s with tcfg := s.tcfg.set k (some ⟨[(l, s.reg l.unit (Reg.lnTcfgStg k.idx))], s.ns, false, [], none⟩) } k true none) k)) ∧
    (∀ c, s.tcfg.get k = some c → c.armed = false → (∀ g ∈ c.go, (s.tcfgLanes k).contains g.1 = true) →
      let bad := ∃ g ∈ c.go, tcfgOk g.2 = false
      let same := ∀ g ∈ c.go, g.2 = (c.go.headD (l, 0)).2
      let whole := (s.tcfgLanes k).all fun x => c.go.any fun g => g.1 == x
      (whole = false → s.tcfgSettle k = s) ∧
      (c.since + 10000000 ≤ s.ns →
        (bad → exec (.tcfgGoTimeout k) s = .next (s.refuseTcfg k 1)) ∧
        (¬ bad → ¬ same → exec (.tcfgGoTimeout k) s = .next (s.refuseTcfg k 2)) ∧
        (¬ bad → same → whole = false → exec (.tcfgGoTimeout k) s = .next (s.refuseTcfg k 3))) ∧
      (¬ bad → same → whole = true → exec (.tcfgGoTimeout k) s = .next (s.tcfgSettle k) ∧
        s.tcfgSettle k = { s with tcfg := s.tcfg.set k (some { c with armed := true }) }) ∧
      (whole = true → bad → s.tcfgSettle k = s.refuseTcfg k 1) ∧
      (whole = true → ¬ bad → ¬ same → s.tcfgSettle k = s.refuseTcfg k 2)) ∧
    (s.tcfg.get k = none → exec (.tcfgGoTimeout k) s = .next s) ∧
    (∀ r, r < 256 → s.retired l = false →
      (s.refuseTcfg k r).fld l.unit (Reg.lnTcfgCommit k.idx) 15 8 = r ∧
      (s.refuseTcfg k r).flag l.unit (Reg.lnTcfgCommit k.idx) 1 = false ∧ (s.refuseTcfg k r).tcfg.get k = none)

/-- R130, R450: a restart is refused, with its RESULT, while the strand is not halted, with fewer than two eligible replicas,
or when the hashes of what the lanes received differ; otherwise its sections are loaded (the image, zeros behind it and in the
SRAM slice), the strand is released in step in the eligible lanes, and at the voters, at instruction count and ordinal 0, and
every other strand learns of it by vector 214. Completes: `restart`. -/
def Obligations.RestartReleasesAHaltedStrand : Prop :=
  ∀ (k : Strand) (image : List Byte) (rec : Tri (Option (List Byte))) (s : State), s.mgmtCommands = true →
    (s.halted k = false → exec (.restart k image rec) s = .next (s.setRjResult k 0x31)) ∧
    (s.halted k = true → (s.eligible k).length < 2 → exec (.restart k image rec) s = .next (s.setRjResult k 0x32)) ∧
    (s.halted k = true → 2 ≤ (s.eligible k).length →
      (∃ l ∈ s.eligible k, sameHash (receivedBy image rec l) (receivedBy image rec ((s.eligible k).headD .a)) = false) →
      ∃ t, exec (.restart k image rec) s = .next t ∧ (∀ l : Lane, t.fld l.unit (Reg.rjStat k.idx) 31 24 = 0x33) ∧
        t.released = s.released ∧ t.voters = s.voters ∧ (∀ l j, t.echo l j = s.echo l j) ∧
        ∀ l j, (t.replica l j).mode = (s.replica l j).mode) ∧
    (s.halted k = true → 2 ≤ (s.eligible k).length → (∀ l ∈ s.eligible k, receivedBy image rec l = image) →
      ∃ t, exec (.restart k image rec) s = .next t ∧ (∀ l : Lane, t.fld l.unit (Reg.rjStat k.idx) 31 24 = 0x30) ∧
        t.released.get k = true ∧
        (∀ l ∈ s.eligible k, (t.replica l k).mode = .running ∧ (t.replica l k).nextPoint = 0 ∧
          (t.replica l k).sig = 0xFFFFFFFFFFFFFFFF ∧ ∀ d, (t.replica l k).ord.get d = 0) ∧
        (∀ l : Lane, t.reg64 l.unit (Reg.lnIcountLo k) = 0 ∧ t.haltedAt l k = false ∧
          ∀ x, (t.echo l k).inStep.get x = (s.eligible k).contains x) ∧
        (∀ d ∈ s.dies, t.voterIn d k = s.eligible k ∧ (t.voter d k).next = 0) ∧
        (s.mOn = true → ∀ j, j ≠ k → ∀ l ∈ s.linked .m,
          ∃ o, Wire.occurrence l .m j o ∈ t.vcQueue l .m true .posted ∧ o.vec = 214) ∧
        (∀ l ∈ s.eligible k,
          (∀ i, i < 0x38000000 → cellGet (t.lane l).mem (k.idx * 0x38000000 + i) = (image[i]?).getD 0) ∧
          ∀ i, i < 0x40000 → cellGet (t.lane l).mem (0x100000000 + k.idx * 0x40000 + i) = 0))

/-! ### Power, clocks and boot -/

/-- R37, R40, R41, R431, R432: at power-good everything is as at reset but for what is stored; an interruption hands over to
the hold-up and its return counts it; when the hold-up is exhausted no island has power and no die runs. What is stored and
the event log stay through all of these; the supply-loss mark is set by an interruption, cleared by a return, and else stays.
Completes: `powerGood`, `supplyInterruption`, `supplyReturn`, `holdupExhausted`.
R37: losing a reference clock stops the units that it clocks. A lane asserts its fault line with class 4; F's outputs all
de-energise; P1 and P2 send nothing more; a guardian fails closed; M keeps the power states; AON only notes it. A port die
with power runs again when its reference is back. Completes: `refClockLost`, `refClockRestored`. How a die goes on beside
running voters when its reference is back is the model's choice (log entry 100). -/
def Obligations.PowerAndClockLossesLeaveWhatIsStored : Prop :=
  (∀ s : State,
     (∃ t, exec .powerGood s = .next t ∧ t.lanes = State.reset.lanes ∧ t.ports = State.reset.ports ∧
       t.field = State.reset.field ∧ t.released = State.reset.released ∧ t.wires = [] ∧ t.links = State.reset.links ∧
       (∀ u off, u ≠ .m ∨ off ≠ Reg.mgCaps → t.reg u off = State.reset.reg u off) ∧
       t.reg .m Reg.mgCaps = s.reg .m Reg.mgCaps ∧ t.log = s.log ∧ t.mgmt.bank0 = s.mgmt.bank0 ∧
       t.mgmt.bank1 = s.mgmt.bank1 ∧ t.mgmt.slotA = s.mgmt.slotA ∧ t.mgmt.slotB = s.mgmt.slotB ∧
       t.mgmt.keys = s.mgmt.keys ∧ t.supply.mark = s.supply.mark) ∧
     (s.supply.good = true → s.supply.holdup = false →
       ∃ t, exec .supplyInterruption s = .next t ∧ t.supply.holdup = true ∧ t.supply.good = true ∧
         t.flag .m Reg.mgBoard 31 = true ∧ (s.mgmt.running = true → s.mOn = true → t.supply.mark = true) ∧
         (∀ u off, u ≠ .m ∨ off ≠ Reg.mgBoard → t.reg u off = s.reg u off) ∧ t.lanes = s.lanes ∧ t.mgmt = s.mgmt) ∧
     (s.supply.good = true → s.supply.holdup = true →
       (∃ t, exec .supplyReturn s = .next t ∧ t.supply = ⟨true, false, false⟩ ∧ t.flag .m Reg.mgBoard 31 = false ∧
         t.fld .m Reg.mgBoard 7 0 = satAdd 8 (s.fld .m Reg.mgBoard 7 0) 1 ∧
         (∀ u off, u ≠ .m ∨ off ≠ Reg.mgBoard → t.reg u off = s.reg u off) ∧ t.lanes = s.lanes ∧ t.mgmt = s.mgmt) ∧
       (∃ t, exec .holdupExhausted s = .next t ∧ t.supply.good = false ∧ t.supply.mark = s.supply.mark ∧
         t.reg .m Reg.mgPwr = 0 ∧ (∀ d, (t.consumer d).running = false) ∧ t.lanes = State.reset.lanes ∧ t.log = s.log ∧
         t.mgmt.slotA = s.mgmt.slotA ∧ t.mgmt.slotB = s.mgmt.slotB)) ∧
     (s.supply.holdup = false → exec .supplyReturn s = .next s ∧ exec .holdupExhausted s = .next s)) ∧
  (∀ s : State,
     (∀ l, s.retired l = false → exec (.refClockLost (.lane l)) s = .next ((s.ownFault l .refclk).seeFault l.idx 1)) ∧
     (∀ p, s.pdOn p = true → ∃ t, exec (.refClockLost (.port p)) s = .next t ∧ t.pdOn p = false ∧
       (t.port p).line = WE.all none ∧ (t.port p).net.phase = .off ∧ t.base = s.base) ∧
     (∀ p, (s.port p).guard.stopped = false → ∃ t, exec (.refClockLost (.guard p)) s = .next t ∧
       (t.port p).guard.stopped = true ∧ t.base = s.base) ∧
     (s.fOn = true → ∃ t, exec (.refClockLost .field) s = .next t ∧ t.consumers.f.running = false ∧ t.fOn = false ∧
       t.base = s.base) ∧
     (s.mOn = true → ∃ t, exec (.refClockLost .mgmt) s = .next t ∧ t.mOn = false ∧ t.mgmt.running = false ∧
       t.regs = s.regs ∧ t.lanes = s.lanes ∧ t.supply = s.supply) ∧
     (exec (.refClockLost .aon) s = .next { s with mgmt := { s.mgmt with aonLost := true } }) ∧
     (∀ p, s.pdOn p = false → s.flag .m Reg.mgPwr (6 + 4 * p.idx) = true →
       exec (.refClockRestored p) s = .next (s.restartPort p)) ∧
     (∀ p, s.pdOn p = true → exec (.refClockRestored p) s = .next s))

/-- R379 to R381: one BOOT command is one whole attempt (log entry 90, the model's choice). The first goes through the ROM, which
takes a firmware slot that passes its checks and has no effect when there is none; a later one starts at the power-up; in
another phase BOOT has no effect. An attempt that loads everything shows RELEASED with every strand released; one that does
not powers every island down for the next attempt, and the third leaves BOOT_HALT with nothing released. Completes: `boot`.
R20: a commit aborted by its unit's reset shows 0xFF, is BUSY no more and leaves every setting as it was. Completes:
`commitAbortedByReset`.
R369, R383, R405: a watchdog restart of M empties every mailbox with FLUSHED set in both directions, raises MB_FLAG (vector
211) to every released strand, frees every lock, ends the sessions and the debug authorisation and counts in WDOG; a boot that
runs starts again at the ROM, and else management firmware runs on. Completes: `wdogRestart`. -/
def Obligations.BootAttemptsAndRestartsOfManagement : Prop :=
  ∀ s : State,
    (s.supply.good = true → s.bootPhase = 0 → ∀ i,
      (∀ t, s.rom = some t → exec (.boot i) s = .next (t.bootAttempt i 1) ∧ t.mgmt.running = true ∧ t.base = s.base) ∧
      (s.rom = none → exec (.boot i) s = .next s)) ∧
    (∀ i, s.supply.good = true → s.bootPhase = 1 →
      exec (.boot i) s = .next (s.bootAttempt i (s.fld .m Reg.mgStat 28 27 + 1))) ∧
    (∀ i, s.supply.good = false ∨ 1 < s.bootPhase → exec (.boot i) s = .next s) ∧
    (∀ i n, let loaded := ((State.powerUp (State.logEv ((s.setFld .m Reg.mgStat 31 29 1).setFld .m Reg.mgStat 28 27 n) 6 none
        .boot [n, slotsRun s.boot, Variant.bit s.variant]) i).readIdentity i).bootLoad i
      (∀ t, loaded = .released t → s.bootAttempt i n = t ∧ t.bootPhase = 3 ∧ t.released = Quad.all true ∧
        t.mgmt.everReleased = true) ∧
      ((∀ t, loaded ≠ .released t) → 3 ≤ n → (s.bootAttempt i n).bootPhase = 4) ∧
      ((∀ t, loaded ≠ .released t) → n < 3 → (s.bootAttempt i n).bootPhase = 1 ∧
        (s.bootAttempt i n).reg .m Reg.mgPwr = 0x18000 ∧ (s.bootAttempt i n).released = Quad.all false ∧
        (s.bootAttempt i n).ports.p1.net = State.reset.ports.p1.net ∧
        (s.bootAttempt i n).ports.p2.net = State.reset.ports.p2.net ∧ (s.bootAttempt i n).field = State.reset.field ∧
        ∀ l k, (s.bootAttempt i n).replica l k = State.reset.replica l k)) ∧
    (∃ t, t = s.bootFails 3 ∧ t.bootPhase = 4 ∧ t.lanes = s.lanes ∧ t.mgmt = s.mgmt ∧ t.released = s.released) ∧
    (s.supply.good = true → ∃ t, exec .wdogRestart s = .next t ∧ t.mOn = true ∧ t.mgmt.sessions = [] ∧
      t.mgmt.nonce = none ∧ t.debugAuth = false ∧ t.base = s.base ∧ t.released = s.released ∧
      t.mailboxes = flushedMailboxes ∧ (∀ i, i < 64 → t.fld .m (Reg.smLock i) 3 0 = 0) ∧
      t.fld .m Reg.mgStat 23 16 = satAdd 8 (s.fld .m Reg.mgStat 23 16) 1 ∧
      (∀ k, s.released.get k = true → ∀ l ∈ s.linked .m,
        ∃ o, Wire.occurrence l .m k o ∈ t.vcQueue l .m true .posted ∧ o.vec = 211) ∧
      (s.bootPhase = 3 ∨ s.bootPhase = 4 → t.mgmt.running = true ∧ t.bootPhase = s.bootPhase) ∧
      (s.bootPhase ≠ 3 → s.bootPhase ≠ 4 → t.mgmt.running = false ∧ t.bootPhase = 0)) ∧
    (∀ b ∈ flushedMailboxes, b.out.flushTx = true ∧ b.out.flushRx = true ∧ b.inn.flushTx = true ∧ b.inn.flushRx = true ∧
      b.out.msgs = [] ∧ b.out.openWords = [] ∧ b.inn.msgs = [] ∧ b.inn.openWords = []) ∧
    (s.supply.good = false → exec .wdogRestart s = .next s) ∧
    (∀ k, s.tcfg.get k = none → exec (.commitAbortedByReset (.tcfg k)) s = .next s) ∧
    (∀ k c, s.tcfg.get k = some c →
      ∃ t, exec (.commitAbortedByReset (.tcfg k)) s = .next t ∧ t.tcfg = s.tcfg.set k none ∧
        (∀ l, s.retired l = false → t.fld l.unit (Reg.lnTcfgCommit k.idx) 15 8 = 0xFF ∧
          t.flag l.unit (Reg.lnTcfgCommit k.idx) 1 = false) ∧
        (∀ u off, off ≠ Reg.lnTcfgCommit k.idx → t.reg u off = s.reg u off) ∧ t.lanes = s.lanes) ∧
    (∀ p, s.commitBusy p.unit Reg.gwCommit = false → exec (.commitAbortedByReset (.gw p)) s = .next s) ∧
    (∀ p, s.commitBusy p.unit Reg.gwCommit = true →
      ∃ t, exec (.commitAbortedByReset (.gw p)) s = .next t ∧ t.fld p.unit Reg.gwCommit 15 8 = 0xFF ∧
        t.commitBusy p.unit Reg.gwCommit = false ∧
        (∀ u off, u ≠ p.unit ∨ off ≠ Reg.gwCommit → t.reg u off = s.reg u off) ∧ t.ports = s.ports ∧ t.lanes = s.lanes) ∧
    (∀ p, s.commitBusy p.unit Reg.ttCommit = false → exec (.commitAbortedByReset (.tt p)) s = .next s) ∧
    (∀ p, s.commitBusy p.unit Reg.ttCommit = true →
      ∃ t, exec (.commitAbortedByReset (.tt p)) s = .next t ∧ t.fld p.unit Reg.ttCommit 15 8 = 0xFF ∧
        t.commitBusy p.unit Reg.ttCommit = false ∧ (t.port p).commit = none ∧ (t.port p).cfg = (s.port p).cfg ∧
        (∀ u off, u ≠ p.unit ∨ off ≠ Reg.ttCommit → t.reg u off = s.reg u off) ∧ t.lanes = s.lanes) ∧
    (s.commitBusy .f Reg.fdCommit = false → exec (.commitAbortedByReset .fd) s = .next s) ∧
    (s.commitBusy .f Reg.fdCommit = true →
      ∃ t, exec (.commitAbortedByReset .fd) s = .next t ∧ t.fld .f Reg.fdCommit 15 8 = 0xFF ∧
        t.flag .f Reg.fdCommit 1 = false ∧ (∀ u off, u ≠ .f ∨ off ≠ Reg.fdCommit → t.reg u off = s.reg u off) ∧
        t.field = s.field ∧ t.lanes = s.lanes)

/-! ### The service protocol and firmware update -/

/-- R393 to R395: a message that management takes is answered, to its sender, under its sequence number; one with TARGET 0
gets no response; one that it does not take has no effect. INFO, NONCE, LOG_READ and IDENT_READ need no session; AUTH uses up
the nonce and opens a session of 600 s only when every check passes. Completes: `info`, `nonce`, `auth`, `logRead`,
`identRead`. That an AUTH which fails uses the nonce up is the model's choice (log entry 106).
R394, R395: outside a session every operation that changes something is refused with NOT_AUTH, and that is its only
effect, but that a refused REBOOT in RELEASED, a power-down that R378 does not permit, is logged as an ignored write. What
that entry names is the model's choice (log entry 177). -/
def Obligations.ServiceAnswersQueriesAndAsksForASession : Prop :=
  (∀ (h : SvcHead) (s : State),
     (∀ op st body ip port, h.from' = .x6 ip port → h.target ≠ 0 →
       s.respond h op st body = { s with mgmt := { s.mgmt with replies := s.mgmt.replies ++ [⟨h.from', h.seq, op, st, body⟩] } }) ∧
     (∀ op st body, h.target = 0 → s.respond h op st body = s) ∧
     (s.svcTakes h = true →
       exec (.info h) s = .next (s.respond h 0x01 0 (leBytes 4 s.capsWord.toNat ++
         [Reg.mgSerial, Reg.mgStat, Reg.mgSlots, Reg.mgUpd].flatMap fun r => leBytes 4 (s.reg .m r).toNat)) ∧
       (∀ v, v.length = 16 → exec (.nonce h v) s =
         .next (State.respond { s with mgmt := { s.mgmt with nonce := some v } } h 0x02 0 v)) ∧
       (∀ slot key sig, s.authOk slot key sig = true →
         exec (.auth h slot key sig) s = .next (State.respond { s with mgmt := { s.mgmt with
           nonce := none
           sessions := (s.mgmt.sessions.filter fun y => y.who != h.from') ++ [⟨h.from', (s.otpKey slot).debug, s.ns + 600000000000⟩] } } h
           0x03 0 [])) ∧
       (∀ slot key sig, s.authOk slot key sig = false →
         exec (.auth h slot key sig) s =
           .next (State.respond { s with mgmt := { s.mgmt with nonce := none } } h 0x03 2 [])) ∧
       (∀ slot key sig, s.mgmt.nonce = none ∨ (s.otpKey slot).revoked = true ∨ (s.otpKey slot).service = false →
         s.authOk slot key sig = false) ∧
       (∀ first n, 1 ≤ n → n ≤ 40 → ∃ body, exec (.logRead h first n) s = .next (s.respond h 0x04 0 body) ∧
         body.length ≤ 32 * n) ∧
       exec (.identRead h 0) s = .next (s.respond h 0x05 0 s.mgmt.identity) ∧
       (∀ a bs, 0x50 ≤ a → a ≤ 0x58 → (s.mgmt.plug.find? fun x => x.1 == a) = some (a, bs) →
         exec (.identRead h a) s = .next (s.respond h 0x05 0 bs))) ∧
     (s.svcTakes h = false → ∀ c ∈ ([.info h, .logRead h 0 1, .identRead h 0, .stageEnd h, .cancel h, .revert h, .reboot h,
       .debugRevoke h] : List Instr), exec c s = .next s)) ∧
  (∀ (h : SvcHead) (s : State), s.svcTakes h = true → s.session h.from' = none →
     (∀ n c, exec (.stageBegin h n c) s = .next (s.respond h 0x10 2 [])) ∧
     (∀ o bs, exec (.stageData h o bs) s = .next (s.respond h 0x11 2 [])) ∧
     exec (.stageEnd h) s = .next (s.respond h 0x12 2 []) ∧ (∀ t, exec (.arm h t) s = .next (s.respond h 0x13 2 [])) ∧
     exec (.cancel h) s = .next (s.respond h 0x14 2 []) ∧ exec (.revert h) s = .next (s.respond h 0x15 2 []) ∧
     exec (.reboot h) s = .next (s.refusePowerDown.respond h 0x16 2 []) ∧
     (s.bootPhase ≠ 3 → s.refusePowerDown = s) ∧
     (s.bootPhase = 3 → s.refusePowerDown = s.ignored .m Reg.mgPwr .mgmt) ∧
     (∀ m, exec (.debugAuth h m) s = .next (s.respond h 0x20 2 [])) ∧
     exec (.debugRevoke h) s = .next (s.respond h 0x21 2 []))

/-- R394, R397 to R399, R404: the operations of a session. A transfer may begin unless a package is armed or unconfirmed; data
is taken inside the announced length; a whole and right transfer ends STAGED; ARM needs a STAGED package, an M that is not
fenced and a time from 1 s to 7 days ahead; CANCEL needs an armed one; REVERT needs another package; REBOOT powers down.
Completes: `stageBegin`, `stageData`, `stageEnd`, `arm`, `cancel`, `revert`, `reboot`. That ARM without a valid clock answers
RANGE, and that STAGE_END compares both CRCs, are the model's choice (log entries 103, 105). -/
def Obligations.SessionOperationsChangeTheUpdateState : Prop :=
  ∀ (h : SvcHead) (s : State) (x : Session), s.svcTakes h = true → s.session h.from' = some x →
    (∀ n c, s.updState = updArmed ∨ s.updState = updUnconfirmed →
      exec (.stageBegin h n c) s = .next (s.respond h 0x10 3 [])) ∧
    (∀ n c, s.updState ≠ updArmed → s.updState ≠ updUnconfirmed → h.target = 0 →
      ∃ t, exec (.stageBegin h n c) s = .next t ∧ t.mgmt.staging = some (n, c, []) ∧ t.updState = updStaging) ∧
    (∀ o bs n c ps, s.mgmt.staging = some (n, c, ps) → o + bs.length ≤ n →
      exec (.stageData h o bs) s = .next (State.respond (State.storeParts
        { s with mgmt := { s.mgmt with staging := some (n, c, (o, bs) :: ps) } } ((o, bs) :: ps)) h 0x11 0 [])) ∧
    (∀ o bs n c ps, s.mgmt.staging = some (n, c, ps) → n < o + bs.length →
      exec (.stageData h o bs) s = .next (s.respond h 0x11 5 [])) ∧
    (∀ n c ps, s.mgmt.staging = some (n, c, ps) → transferOk n c ps = true → h.target = 0 →
      ∃ t, exec (.stageEnd h) s = .next t ∧ t.updState = updStaged ∧ t.mgmt.staging = none) ∧
    (∀ n c ps, s.mgmt.staging = some (n, c, ps) → transferOk n c ps = false → h.target = 0 →
      ∃ t, exec (.stageEnd h) s = .next t ∧ t.updState = updNone ∧ t.mgmt.staging = none ∧ t.log = s.log) ∧
    (∀ t, s.updState ≠ updStaged → exec (.arm h t) s = .next (s.respond h 0x13 3 [])) ∧
    (∀ t, s.updState = updStaged → s.mFenced = true →
      exec (.arm h t) s = .next ((s.setUpdResult 0x13).respond h 0x13 7 [])) ∧
    (∀ t, s.updState = updStaged → s.mFenced = false → s.armInRange t = false →
      exec (.arm h t) s = .next (s.respond h 0x13 5 [])) ∧
    (∀ t, s.updState = updStaged → s.mFenced = false → s.armInRange t = true → h.target = 0 →
      ∃ u, exec (.arm h t) s = .next u ∧ u.updState = updArmed ∧ u.updTime = t) ∧
    (∀ t n, s.updClock = some n → (s.armInRange t = true ↔
      n.toNat + 1000000000 ≤ t.toNat ∧ t.toNat ≤ n.toNat + 604800000000000)) ∧
    (s.updState = updArmed → exec (.cancel h) s = .next ((s.cancelUpdate 0x12).respond h 0x14 0 [])) ∧
    (s.canRevert = true → exec (.revert h) s = .next ((s.writeBoot { s.boot with revert := true }).respond h 0x15 0 [])) ∧
    exec (.reboot h) s = .next ((s.respond h 0x16 0 []).shutDown 3)

/-- R151, R405: DEBUG_AUTH needs a session whose key carries debug usage, an M that is not fenced and 1 to 480 minutes; it
sets the authorisation and its end. DEBUG_REVOKE, the end of its time and a restart of M end it: AUTH and the minutes are 0, a
debugger's request does nothing more than leave an entry, the locks of the debug master (owner 15) are free and no other lock
changes, and the end is logged. Sessions end when they expire; UPDATE_REJECTED counts down once a second while a channel is
ACTIVE. Completes: `debugAuth`, `debugRevoke`, `debugAuthExpire`, `sessionExpire`, `updateRejected`. How often a rejection is
announced is the model's choice (log entry 109), and so is DEBUG_REVOKE's answer without an authorisation (107). -/
def Obligations.DebugAuthorisationAndSessionsEnd : Prop :=
  ∀ (h : SvcHead) (s : State),
    (∀ x m, s.svcTakes h = true → s.session h.from' = some x →
      (x.debug = false → exec (.debugAuth h m) s = .next (s.respond h 0x20 2 [])) ∧
      (x.debug = true → s.mFenced = true → exec (.debugAuth h m) s = .next (s.respond h 0x20 7 [])) ∧
      (x.debug = true → s.mFenced = false → m = 0 ∨ 480 < m →
        exec (.debugAuth h m) s = .next (s.respond h 0x20 5 [])) ∧
      (x.debug = true → s.mFenced = false → 1 ≤ m → m ≤ 480 → h.target = 0 →
        ∃ t, exec (.debugAuth h m) s = .next t ∧ t.debugAuth = true ∧ t.fld .m Reg.mgDbg 8 0 = m ∧
          t.mgmt.dbgUntil = s.ns + m * 60000000000 ∧
          (∀ u off, u ≠ .m ∨ off ≠ Reg.mgDbg → t.reg u off = s.reg u off) ∧ t.lanes = s.lanes)) ∧
    (∀ x, s.svcTakes h = true → s.session h.from' = some x →
      exec (.debugRevoke h) s = .next (s.endDebugAuth.respond h 0x21 0 [])) ∧
    (s.mOn = true → s.mgmt.dbgUntil ≤ s.ns → exec .debugAuthExpire s = .next s.endDebugAuth) ∧
    (s.ns < s.mgmt.dbgUntil → exec .debugAuthExpire s = .next s) ∧
    (s.debugAuth = false → s.endDebugAuth = s) ∧
    (s.debugAuth = true → let t := s.endDebugAuth
      t.debugAuth = false ∧ t.fld .m Reg.mgDbg 8 0 = 0 ∧ t.lanes = s.lanes ∧ t.mailboxes = s.mailboxes ∧
      (∀ i, i < 64 → t.lockOwner i = (if s.lockOwner i = 15 then 0 else s.lockOwner i)) ∧
      ((∀ i, i < 64 → s.lockOwner i ≠ 15) → s.floodCount 6 < 64 →
        (t.log.entries.head?.map fun e => (e.code, e.src, e.arg)) = some (.dbgAuth, 6, [0]))) ∧
    (∀ l k q, s.debugAuth = false → exec (.debugRequest l k q) s = .next (s.logEv l.idx (some k) .dbgRefused [l.idx])) ∧
    (s.supply.good = true → ∃ t, exec .wdogRestart s = .next t ∧ t.debugAuth = false ∧ t.mgmt.sessions = [] ∧
      ∀ i, i < 64 → t.lockOwner i = 0) ∧
    (∀ c, (s.powerDown c).debugAuth = false ∧ (∀ i, i < 64 → (s.powerDown c).lockOwner i = 0) ∧
      (s.powerDown c).log = s.endDebugAuth.log) ∧
    (s.mOn = true → exec .sessionExpire s =
      .next { s with mgmt := { s.mgmt with sessions := s.mgmt.sessions.filter fun x => decide (s.ns < x.until') } }) ∧
    (∀ n id ver why, s.mgmt.notice = some (n, id, ver, why) → s.mOn = true → s.mgmt.running = true →
      s.mgmt.noticeAt ≤ s.ns → (s.pdOn .p1 = true ∧ (s.port .p1).net.phase = .active) →
      ∃ t, exec .updateRejected s = .next t ∧
        t.mgmt.notice = (if n ≤ 1 then none else some (n - 1, id, ver, why)) ∧ t.mgmt.noticeAt = s.ns + 1000000000 ∧ t.regs = s.regs ∧ t.lanes = s.lanes) ∧
    (s.mgmt.notice = none → exec .updateRejected s = .next s)

/-- R399, R400, R404: an armed package is activated at T by powering down with all its components as TRIAL, or cancelled
without a valid time; VETO cancels until 100 ms before T and is without effect later; CONFIRM and the third successful boot
make an UNCONFIRMED package the active one. Completes: `updActivated`, `veto`, `confirm`, `successfulBoot`. What VETO and an
armed package do without a valid clock, that every successful boot counts, and that STATE reads NONE from the activation on, are
the model's choice (log entries 99, 103, 182). -/
def Obligations.UpdateIsVetoedActivatedOrConfirmed : Prop :=
  ∀ s : State,
    (s.mOn = true → s.updState = updArmed → s.bootPhase ≠ bootHalt → s.updClock = none → exec .updActivated s = .next (s.cancelUpdate 0x11)) ∧
    (s.mOn = true → s.updState = updArmed → ∀ n, s.updClock = some n → n.toNat < s.updTime.toNat →
      exec .updActivated s = .next s) ∧
    (s.mOn = true → s.updState = updArmed → s.bootPhase ≠ bootHalt → ∀ n, s.updClock = some n → s.updTime.toNat ≤ n.toNat →
      let t := s.writeBoot { s.boot with
        trial := s.boot.staged, staged := 0, armed := none, boots := 0, rejected := none }
      exec .updActivated s = .next (State.shutDown
        (State.logEv ((t.setUpd updNone).setReg64 .m Reg.mgUpdTLo 0) 6 none .updActivated []) 2)) ∧
    (s.updState ≠ updArmed ∨ s.bootPhase = bootHalt → exec .updActivated s = .next s) ∧
    (∀ k n, s.mOn = true → s.strandFenced (.strand k) .m = false → s.updClock = some n → n.toNat + 100000000 ≤ s.updTime.toNat →
      exec (.veto k) s = .next (s.cancelUpdate 0x10)) ∧
    (∀ k n, s.mOn = true → s.strandFenced (.strand k) .m = false → s.updClock = some n → s.updTime.toNat < n.toNat + 100000000 →
      exec (.veto k) s = .next s) ∧
    (∀ k, s.mOn = true → s.strandFenced (.strand k) .m = false → exec (.confirm k) s = .next s.confirmUpdate) ∧
    (s.updState ≠ updUnconfirmed → s.confirmUpdate = s) ∧ (s.updState ≠ updArmed → ∀ r, s.cancelUpdate r = s) ∧
    (s.bootPhase = bootReleased → s.mgmt.disturbed = false → s.mOn = true → s.mgmt.releasedAt + 60000000000 ≤ s.ns →
      let t : State := { s with mgmt := { s.mgmt with disturbed := true } }
      (3 ≤ s.boot.boots → exec .successfulBoot s = .next t) ∧
      (s.boot.boots < 2 →
        exec .successfulBoot s = .next (t.writeBoot { t.boot with boots := s.boot.boots + 1 }).showBoot) ∧
      (s.boot.boots = 2 → exec .successfulBoot s =
        .next (State.showBoot (State.endFreeze (t.writeBoot { t.boot with boots := 3 }).showBoot.confirmUpdate)))) ∧
    (s.bootPhase ≠ bootReleased ∨ s.mgmt.disturbed = true ∨ s.mOn = false ∨ s.ns < s.mgmt.releasedAt + 60000000000 →
      exec .successfulBoot s = .next s)

/-! ### KTN channels -/

/-- R213, R214, R216 to R218, R248: when the listen timeout of its own clock is over, a coldstart node in LISTEN enters
COLDSTART at cycle 0 of its own timebase, another node goes on listening anew, and INTEGRATE and ADOPTED go back to LISTEN;
a backoff that is over leads to COLDSTART; HOLDOVER ends at its limit; before its time none of these commands has an effect.
The timeouts are 2 cycles of the start mode plus the ID × 10 µs, and the backoff × (1 + ID mod 8). The conflict mark goes
after the stable time without a conflicting frame. Completes: `listenTimeout`, `backoffExpire`, `holdoverExpire`,
`idConflictClear`. -/
def Obligations.ChannelStatesFollowTheirTimeouts : Prop :=
  ∀ (p : PDie) (s : State), s.chOn p = true →
    let n := NetId.ctl p
    let x := s.net n
    (s.listenDue n = true →
      (x.phase = .listen → s.ttCsNode n = true →
        ∃ t, exec (.listenTimeout p) s = .next t ∧ (t.net n).phase = .coldstart ∧ (t.net n).cycle = 0 ∧
          (t.net n).frac = 0 ∧ (t.net n).time = (t.net n).cycleAt ∧ (t.net n).mode = s.startMode n ∧ t.base = s.base ∧
          (x.time.toNat + 1000 < 2 ^ 64 → (t.net n).time.toNat % 1000 = 0)) ∧
      (x.phase = .listen → s.ttCsNode n = false →
        exec (.listenTimeout p) s = .next (s.setNet n { x with since := x.clock })) ∧
      (x.phase = .integrate ∨ x.phase = .adopted →
        exec (.listenTimeout p) s = .next ((s.setNet n (relisten x)).raisePAll p 56)) ∧
      (x.phase = .off ∨ x.phase = .coldstart ∨ x.phase = .backoff ∨ x.phase = .active ∨ x.phase = .holdover →
        exec (.listenTimeout p) s = .next s)) ∧
    (s.listenDue n = false → exec (.listenTimeout p) s = .next s) ∧
    (s.listenDue n = true ↔ x.since + 2 * s.cycleNs n (s.startMode n) + 10000 * x.id ≤ x.clock) ∧
    (x.phase = .backoff → s.backoffDue n = true →
      ∃ t, exec (.backoffExpire p) s = .next t ∧ (t.net n).phase = .coldstart ∧ (t.net n).cycle = 0 ∧ t.base = s.base) ∧
    (x.phase ≠ .backoff ∨ s.backoffDue n = false → exec (.backoffExpire p) s = .next s) ∧
    (s.backoffDue n = true ↔ x.since + 1000 * s.ttf n Reg.ttTimeCfg 17 10 * (1 + x.id % 8) ≤ x.clock) ∧
    (x.phase = .holdover → s.holdMax p ≤ x.hcount →
      exec (.holdoverExpire p) s = .next ((s.setNet n (relisten x)).raisePAll p 56)) ∧
    (x.phase ≠ .holdover ∨ x.hcount < s.holdMax p → exec (.holdoverExpire p) s = .next s) ∧
    ((relisten x).phase = .listen ∧ (relisten x).pend = none ∧ (relisten x).hcount = 0) ∧
    (∀ c, x.conflict = some c →
      (c + 4 * s.inaugRound n ≤ x.total → exec (.idConflictClear p) s = .next (s.setNet n { x with conflict := none })) ∧
      (x.total < c + 4 * s.inaugRound n → exec (.idConflictClear p) s = .next s)) ∧
    (x.conflict = none → exec (.idConflictClear p) s = .next s)

/-- R199, R210, R214, R228, R242 to R249: at a cycle start a timing channel counts its cycle on, after a copy that still waits
is used; a mode change due at that cycle is taken when it was agreed, and is pending no more either way; a later ID is taken
there. At a cycle's end a cold start of 6 cycles becomes ACTIVE, a midpoint beyond the correction limit, frames of another
mode, or refused frames with no member lose the sync, silence leads a node that is no sync node into HOLDOVER, and HOLDOVER
counts its cycles. Completes: `cycleStart`, `cycleEndSync`. Which copy of a frame is used before a cycle starts (log entry
38), and what becomes of a change that expires or that this node refused (52, 132), are the model's choice.
R210, R211, and the fields of `TT_MODE_REQ`: a mode request with reserved bits is logged; one outside ACTIVE shows 0x14,
one of an ID that is not authorised 0x10; one that passes every check waits to be sent. A sound request frame enters the view
of a node, accepted or refused, while the channel is in sync; a change not agreed in time is marked expired and logged, and so
is the node's own request that another change displaced. Completes: `modeRequest`, `modeReqReceive`, `modeExpired`. When a
change and the node's own request expire is the model's choice (log entries 52, 132). -/
def Obligations.CyclesCountAndModesChangeByAgreement : Prop :=
  (∀ (p : PDie) (s : State), s.chOn p = true →
     let n := NetId.ctl p
     let x := s.net n
     let u := s.copySettle p
     let y := u.net n
     (x.wait = none → u = s) ∧
     (x.phase.timed = false → exec (.cycleStart p) s = .next s) ∧
     (x.phase.timed = true →
       ∃ t, exec (.cycleStart p) s = .next t ∧ (t.net n).cycle = y.cycle + 1 ∧ (t.net n).total = y.total + 1 ∧
         (t.net n).phase = y.phase ∧ (t.port p).cfg = u.reg p.unit Reg.tbCfg ∧ (t.port p).heldNow = false ∧
         (t.net n).cycleAt = y.cycleAt + BitVec.ofNat 64 (u.cycleNs n y.mode) ∧ (t.net n).id = y.newId.getD y.id ∧
         (dueChange y (y.cycle + 1) = none → (t.net n).mode = y.mode ∧ (t.net n).pend = y.pend) ∧
         (∀ c, dueChange y (y.cycle + 1) = some c →
           (t.net n).mode = (if c.agreed = true then c.echo.target else y.mode) ∧ (t.net n).pend = none) ∧
         t.base = u.base) ∧
     (∃ t, exec (.cycleEndSync p) s = .next t ∧
       (y.phase = .coldstart → 5 ≤ y.cycle.toNat → (t.net n).phase = .active) ∧
       (y.phase = .coldstart → y.cycle.toNat < 5 → t = u) ∧
       (y.phase = .active →
         (u.modeMismatch n y = true → (t.net n).phase = .listen) ∧
         (u.modeMismatch n y = false → u.offsets n ≠ [] →
           (inLimit (midpoint (u.offsets n)) = true →
             (t.net n).phase = .active ∧ (t.net n).slew = clampInt (-slewMax) slewMax (midpoint (u.offsets n))) ∧
           (inLimit (midpoint (u.offsets n)) = false → (t.net n).phase = .listen)) ∧
         (u.modeMismatch n y = false → u.offsets n = [] → u.offTime n = true → (t.net n).phase = .listen) ∧
         (u.modeMismatch n y = false → u.offsets n = [] → u.offTime n = false → u.ttSyncNode n = false →
           heardIn y y.cycle = false → heardIn y (y.cycle - 1) = false →
           (t.net n).phase = .holdover ∧ (t.net n).hcount = 0)) ∧
       (y.phase = .holdover → u.modeMismatch n y = false →
         (activeSet y (u.syncList n) = [] ∨ u.offsets n = [] →
           (t.net n).phase = .holdover ∧ (t.net n).hcount = y.hcount + 1) ∧
         (activeSet y (u.syncList n) ≠ [] → u.offsets n ≠ [] → inLimit (midpoint (u.offsets n)) = true →
           (t.net n).phase = .active ∧ (t.net n).hcount = 0)) ∧
       (y.phase = .listen ∨ y.phase = .integrate ∨ y.phase = .backoff ∨ y.phase = .off → t = u))) ∧
  (∀ (p : PDie) (k : Strand) (v : Word) (s : State), s.chOn p = true →
     let n := NetId.ctl p
     let x := s.net n
     (s.reachesUnit (.strand k) p.unit Reg.ttModeReq →
       (fieldOf v 31 4 ≠ 0 → exec (.modeRequest p k v) s = .next (s.logRsvd p.unit Reg.ttModeReq (.strand k))) ∧
       (fieldOf v 31 4 = 0 → bitOf v 3 = false → exec (.modeRequest p k v) s = .next s) ∧
       (fieldOf v 31 4 = 0 → bitOf v 3 = true → x.phase ≠ .active →
         exec (.modeRequest p k v) s = .next (s.setFld p.unit Reg.ttModeStat 31 24 0x14)) ∧
       (fieldOf v 31 4 = 0 → bitOf v 3 = true → x.phase = .active → listed (s.authList n) x.id = false →
         exec (.modeRequest p k v) s = .next (s.setFld p.unit Reg.ttModeStat 31 24 0x10)) ∧
       (fieldOf v 31 4 = 0 → bitOf v 3 = true → x.phase = .active → listed (s.authList n) x.id = true →
         s.modeValid n (fieldOf v 2 0) = true → fieldOf v 2 0 ≠ x.mode → pendingChange x = false →
         (s.port p).reqDue = none → s.ownMgmt p = true →
         exec (.modeRequest p k v) s = .next (s.setPort p { s.port p with reqDue := some ⟨fieldOf v 2 0, none⟩ }))) ∧
     (∀ f, s.ktnUp p = true → f.hdr.kind = kindModeReq → headerOk f = true → f.fcsOk = true →
       exec (.modeReqReceive p f) s = .next (s.takeModeReq p f) ∧
       (x.pend = none → ∃ c, ((s.takeModeReq p f).net n).pend = some c ∧ c.accepted = s.modeReqOk n f ∧
         c.requester = f.hdr.sender.toNat ∧ c.agreed = false ∧ c.expired = false)) ∧
     (∀ f, s.ktnUp p = false ∨ headerOk f = false ∨ f.fcsOk = false ∨ f.hdr.kind ≠ kindModeReq →
       exec (.modeReqReceive p f) s = .next s) ∧
     (exec (.modeExpired p) s = .next ((s.expireOwn p).expireChange p)) ∧
     (∀ c, x.pend = some c → c.agreed = false → c.expired = false → x.cycle = c.echo.cycle - 1 →
       s.expireChange p = (s.setNet n { x with pend := some { c with expired := true } }).logP p
         .modeExpired [c.echo.target]) ∧
     (x.pend = none → s.expireChange p = s) ∧
     (∀ r, (s.port p).ownReq = some r → r.expired = false → x.pend = none → x.cycle = r.echo.cycle - 1 →
       s.expireOwn p = (s.setPort p { s.port p with ownReq := some { r with expired := true } }).logP p
         .modeExpired [r.echo.target]) ∧
     ((s.port p).ownReq = none → s.expireOwn p = s))

/-- R42, R186 to R188, R191, R192, R203, R214, R239, R257: a frame that is not KTN, a wrong header and a wrong FCS are
counted and not otherwise taken, but a damaged frame stops a cold start; forwarding adds one hop, the residence and the
link delay, behind no frame of the node's own and only while the guardian passes it; a frame at the hop limit is counted and
not forwarded; a frame to the link delay address is one of R234 and none of these (R235); in sync, a frame of the node's own slot is
sent; what stands on a line of an own frame is what the guardian's
enables pass. Completes: `frameReceive`, `frameForward`, `ownFrameSend`. -/
def Obligations.FramesAreCheckedForwardedAndSent : Prop :=
  ∀ (p : PDie) (q : Port) (f : KFrame) (ago : Nat) (ue : Bool) (s : State),
    let n := NetId.ctl p
    let x := s.net n
    let rx := s.stamp n ago
    let u := s.setPort p { s.port p with rxStamp := (s.port p).rxStamp.set q (some rx) }
    (f.dst = linkAddr → exec (.frameReceive p q f ago ue) s = .next (s.linkTaken p q (linkOf f) ago) ∧
      ∀ r, exec (.frameForward p q f ago r) s = .next s) ∧
    (f.dst ≠ linkAddr → s.chOn p = false ∨ s.portUp p q = false →
      exec (.frameReceive p q f ago ue) s = .next s ∧ ∀ r, exec (.frameForward p q f ago r) s = .next s) ∧
    (f.dst ≠ linkAddr → s.chOn p = true → s.portUp p q = true →
      (x.phase = .off ∨ s.isKtn n f = false → exec (.frameReceive p q f ago ue) s = .next u) ∧
      (x.phase ≠ .off → s.isKtn n f = false →
        ∀ r, exec (.frameForward p q f ago r) s = .next (s.bump p.unit Reg.ttErr0 15 8)) ∧
      (x.phase ≠ .off → s.isKtn n f = true →
        (headerOk f = false →
          exec (.frameReceive p q f ago ue) s = .next ((u.bump p.unit Reg.ttErr0 23 16).corrupted p) ∧
          ∀ r, exec (.frameForward p q f ago r) s = .next s) ∧
        (headerOk f = true → f.fcsOk = false →
          exec (.frameReceive p q f ago ue) s = .next ((u.bump p.unit Reg.ttErr0 31 24).corrupted p)) ∧
        (headerOk f = true → f.fcsOk = true → f.hdr.kind ≠ kindInaug →
          (s.isOwnFrame p f = true → exec (.frameReceive p q f ago ue) s = .next u) ∧
          (s.isOwnFrame p f = false → x.phase = .active ∨ x.phase = .holdover →
            exec (.frameReceive p q f ago ue) s = .next (u.frameActive p q f rx ue))) ∧
        (∀ r, headerOk f = true → f.hdr.hop.toNat = 127 →
          exec (.frameForward p q f ago r) s = .next (s.bump p.unit Reg.ttErr1 7 0)) ∧
        (∀ r, headerOk f = true → f.hdr.hop.toNat ≠ 127 → s.notForwarded p f = false → s.ktnUp p = false →
          s.portUp p q.other = true → s.lineBusy p q.other true (rx + BitVec.ofNat 64 r - 64) = false →
          (s.passesForward p = true → exec (.frameForward p q f ago r) s = .next (s.setPort p { s.port p with
            line := (s.port p).line.set q.other
              (some ⟨forwarded x q f r, rx + BitVec.ofNat 64 r - 64, false⟩) })) ∧
          (s.passesForward p = false → exec (.frameForward p q f ago r) s = .next s)))) ∧
    (x.phase = .coldstart → ((s.corrupted p).net n).phase = .backoff ∧ ((s.corrupted p).net n).since = x.clock) ∧
    (x.phase ≠ .coldstart → s.corrupted p = s) ∧
    (∀ r, (forwarded x q f r).hdr.hop = f.hdr.hop + 1 ∧
      (forwarded x q f r).hdr.corr.toNat = min (2 ^ 32 - 1) (f.hdr.corr.toNat + 16 * r + (x.links.get q).delay) ∧
      (forwarded x q f r).payload = f.payload ∧ (forwarded x q f r).hdr.hcrc = crc16 (headBytes (forwarded x q f r).hdr)) ∧
    (s.chOn p = true →
      (∀ i, s.slotInForce n i = none → exec (.ownFrameSend p i ue) s = .next s) ∧
      (∀ i sl, s.slotInForce n i = some sl → x.phase = .active ∨ x.phase = .holdover →
        exec (.ownFrameSend p i ue) s = .next (s.sendActive p sl (s.cuts p sl) ue)) ∧
      (∀ i sl, s.slotInForce n i = some sl → x.phase = .coldstart →
        exec (.ownFrameSend p i ue) s = .next (s.sendCold p sl (s.cuts p sl)))) ∧
    (∀ g st, s.passes p f st = some g → ((s.putLine p q f st).port p).line.get q = some ⟨g, st, true⟩) ∧
    (∀ st, s.passes p f st = none → ((s.putLine p q f st).port p).line.get q = none)

/-- R225 to R228, R246, R253: a link change reaches the channel and its guardian; each of the two, on its own, forgets
inauguration records after 2 rounds, takes a view that stood for 4 rounds as stable, and uses a dropped path again after 64
cycles. A stable complete view gives count and position; the first position gives the ID at once, a later one from the next
cycle start with the node muted until its designated mode. Completes: `portLinkChange`, `inaugRecordExpire`,
`pathDropExpire`, `inaugViewStable`.
R234 to R238, R253: link delay frames go out once a cycle on the ports that are up, 1600 ns before the next cycle, each
with the port's next sequence number, as the guardian's tail window lets them, and in no state but ADOPTED, ACTIVE and
HOLDOVER; a frame to another address is none; a damaged one is counted in `TB_LINK`, and so is one whose measurement is
negative or above 2000 ns; a new neighbour starts PROVISIONAL again; the delay in use follows the lower median of a period's
measurements, and a link gone stale keeps its delay. Each of the controller and its guardian does this on its own; the
guardian stamps to 10 ns (the receive stamp is computed back from the timebase: log entries 33, 131 and 168, the model's
choices). Completes: `linkDelaySend`, `linkDelayReceive`, `linkDelayUpdate`, `linkDelayStale`. -/
def Obligations.InaugurationPathsAndLinkDelays : Prop :=
  (∀ (p : PDie) (s : State),
     (∀ q b, ((s.port p).net.links.get q).up = b → exec (.portLinkChange p q b) s = .next s) ∧
     (∀ q b, ((s.port p).net.links.get q).up ≠ b →
       exec (.portLinkChange p q b) s = .next ((s.netLink (.ctl p) q b).netLink (guardOf p) q b)) ∧
     (∀ n q b, (((s.netLink n q b).net n).links.get q).up = b ∧
       (((s.netLink n q b).net n).links.get q).phase = (if b = true then .provisional else .down) ∧
       ((s.netLink n q b).net n).links.get q.other = (s.net n).links.get q.other) ∧
     (∃ t, exec (.inaugRecordExpire p) s = .next t ∧
       (s.chOn p = true → (t.net (.ctl p)).records =
         (s.net (.ctl p)).records.filter fun r => decide ((s.net (.ctl p)).total < r.at' + 2 * s.inaugRound (.ctl p))) ∧
       (s.chOn p = false → t.net (.ctl p) = s.net (.ctl p)) ∧
       (s.guardLive p.other = true → (t.net (guardOf p)).records = (s.net (guardOf p)).records.filter fun r =>
         decide ((s.net (guardOf p)).total < r.at' + 2 * s.inaugRound (guardOf p))) ∧
       (s.guardLive p.other = false → t.net (guardOf p) = s.net (guardOf p))) ∧
     (∀ (node : Byte), ∃ t, exec (.pathDropExpire p node) s = .next t ∧
       ∀ n i c, (n = .ctl p ∧ s.chOn p = true) ∨ (n = guardOf p ∧ s.guardLive p.other = true) →
         s.syncIndex n node.toNat = some i → (((s.net n).syncs[i]?).getD emptySyncRec).dropAt = some c →
         (c + 64 ≤ (s.net n).total →
           (((t.net n).syncs[i]?).getD emptySyncRec).dropAt = none ∧ (t.net n).changed = true) ∧
         ((s.net n).total < c + 64 → t.net n = s.net n)) ∧
     (∃ t, exec (.inaugViewStable p) s = .next t ∧
       (s.chOn p = true → s.viewSettled (.ctl p) = true → (t.net (.ctl p)).stable = true ∧
         ∀ c pos, (s.net (.ctl p)).view = .complete c pos → (t.net (.ctl p)).count = c ∧ (t.net (.ctl p)).pos = pos) ∧
       (s.viewSettled (.ctl p) = false → t.net (.ctl p) = s.net (.ctl p)) ∧
       (s.guardLive p.other = true → s.viewSettled (guardOf p) = true → (t.net (guardOf p)).stable = true)) ∧
     (∀ n c pos, (s.stableView n c pos).count = c ∧ (s.stableView n c pos).pos = pos ∧
       (s.stableView n c pos).stable = true ∧
       (s.ttIdsrc n = true → pos ≠ (s.net n).pos →
         ((s.net n).pos = 0 → (s.stableView n c pos).id = if pos ≤ 128 then pos else 0) ∧
         ((s.net n).pos ≠ 0 → (s.stableView n c pos).newId = some (if pos ≤ 128 then pos else 0) ∧
           (s.stableView n c pos).mute = true ∧ (s.stableView n c pos).id = (s.net n).id)))) ∧
  (∀ (p : PDie) (q : Port) (s : State), s.chOn p = true →
     let n := NetId.ctl p
     let g := guardOf p
     let u := fun (ago : Nat) => s.setPort p { s.port p with rxStamp := (s.port p).rxStamp.set q (some (s.stamp n ago)) }
     ((s.net n).phase ≠ .adopted → (s.net n).phase ≠ .active → (s.net n).phase ≠ .holdover →
       exec (.linkDelaySend p) s = .next s) ∧
     ((s.port p).linkSentAt = some (s.net n).total → exec (.linkDelaySend p) s = .next s) ∧
     ((s.net n).phase = .adopted ∨ (s.net n).phase = .active ∨ (s.net n).phase = .holdover →
       (s.port p).linkSentAt ≠ some (s.net n).total → s.portUp p q = true → s.portUp p q.other = false →
       ∃ t, exec (.linkDelaySend p) s = .next t ∧
         (t.port p).linkFrame.get q = s.linkPasses p (s.linkFrameOf p q) (s.linkStart p) ∧
         (t.port p).linkFrame.get q.other = (s.port p).linkFrame.get q.other ∧
         (t.port p).linkSentAt = some (s.net n).total ∧
         ((t.net n).links.get q).seq = ((s.net n).links.get q).seq + 1 ∧ t.lanes = s.lanes ∧ t.wires = s.wires) ∧
     (∀ f st, let at' := s.guardTime p.other st
       (∀ r, s.enableRoom p.other at' = some r → linkWireNs ≤ r → s.linkPasses p f st = some f) ∧
       (∀ r, s.enableRoom p.other at' = some r → r < linkWireNs → s.linkPasses p f st = some { f with ok := false }) ∧
       (s.enableRoom p.other at' = none → s.enablesOpen p.other (at' + BitVec.ofNat 64 linkWireNs) = false →
         s.linkPasses p f st = none)) ∧
     (s.linkStart p + 1600 = (s.net n).cycleAt + BitVec.ofNat 64 (s.cycleNs n (s.net n).mode)) ∧
     (∀ f ago, f.dst ≠ linkAddr → exec (.linkDelayReceive p q f ago) s = .next s) ∧
     (∀ f ago, f.dst = linkAddr → f.ok = false ∨ f.dcrc ≠ crc32c (linkBytes f) →
       exec (.linkDelayReceive p q f ago) s = .next (if s.portUp p q = true then
         (u ago).bump p.unit (Reg.tbLink q.idx) 23 16 else s)) ∧
     (∀ f ago, f.dst = linkAddr → f.ok = true → f.dcrc = crc32c (linkBytes f) →
       ∃ t, exec (.linkDelayReceive p q f ago) s = .next t ∧
         (s.portUp p q = true → t.net n = (s.takeLinkFrame n q f (s.stamp n ago)).1.net n ∧
           (t.port p).rxStamp.get q = some (s.stamp n ago) ∧
           t.fld p.unit (Reg.tbLink q.idx) 23 16 = satAdd 8 (s.fld p.unit (Reg.tbLink q.idx) 23 16)
             (bitNat (s.takeLinkFrame n q f (s.stamp n ago)).2)) ∧
         (s.portUp p q = false → t.net n = s.net n) ∧
         (s.guardLive p.other = true → ((s.net g).links.get q).up = true →
           t.net g = (s.takeLinkFrame g q f (tenNs (s.stamp g ago))).1.net g) ∧
         (s.guardLive p.other = false ∨ ((s.net g).links.get q).up = false → t.net g = s.net g) ∧ t.base = s.base) ∧
     (∀ m f rx, let l := (s.net m).links.get q
       let r := s.takeLinkFrame m q f rx
       let l' := (r.1.net m).links.get q
       l'.got = some (f.seq, (s.net m).total, rx) ∧
       (f.serial ≠ l.nbr → r.2 = false ∧ l'.nbr = f.serial ∧ l'.phase = .provisional ∧ l'.delay = s.linkDef m ∧ l'.meas = []) ∧
       (f.serial = l.nbr → measure l f (s.net m).total = none → r.2 = false ∧ l' = { l with got := l'.got }) ∧
       (∀ d, f.serial = l.nbr → measure l f (s.net m).total = some d →
         (d < 0 ∨ 32000 < d → r.2 = true ∧ l' = { l with got := l'.got }) ∧
         (0 ≤ d → d ≤ 32000 → r.2 = false ∧
           l' = { useMeasure l (inbound d (s.ownAsym m q) f.asym.toInt) (s.net m).run with got := l'.got }))) ∧
     (∃ t, exec (.linkDelayUpdate p q) s = .next t ∧
       (periodDue ((s.net n).links.get q) (s.net n).run = true →
         (t.net n).links.get q = periodMedian ((s.net n).links.get q)) ∧
       (periodDue ((s.net n).links.get q) (s.net n).run = false → t.net n = s.net n) ∧
       (s.guardLive p.other = true → periodDue ((s.net g).links.get q) (s.net g).run = true →
         (t.net g).links.get q = periodMedian ((s.net g).links.get q)) ∧
       (s.guardLive p.other = false ∨ periodDue ((s.net g).links.get q) (s.net g).run = false → t.net g = s.net g)) ∧
     (∃ t, exec (.linkDelayStale p q) s = .next t ∧
       (staleDue ((s.net n).links.get q) (s.net n).run = true → ((t.net n).links.get q).phase = .stale ∧
         ((t.net n).links.get q).delay = ((s.net n).links.get q).delay) ∧
       (staleDue ((s.net n).links.get q) (s.net n).run = false → t.net n = s.net n) ∧
       (s.guardLive p.other = true → staleDue ((s.net g).links.get q) (s.net g).run = true →
         ((t.net g).links.get q).phase = .stale ∧ ((t.net g).links.get q).delay = ((s.net g).links.get q).delay) ∧
       (s.guardLive p.other = false ∨ staleDue ((s.net g).links.get q) (s.net g).run = false → t.net g = s.net g)))

/-- R205 to R207: a table commit is refused with the first rule broken, or waits for its guardian, whose tables are checked by
their CRC and its own rules; a missing answer refuses it with 0x0A after 1 ms; accepted, it takes effect at its cycle, or at
once while the channel times no cycles. Completes: `ttCommitGo`, `guardCommitCheck`, `guardCommitReply`, `guardTimeout`,
`ttCommitTakeEffect`. That a commit takes effect at once when the channel no longer times cycles (log entry 53), and that the
state at GO decides which it is (173), are the model's choice. -/
def Obligations.TableCommitNeedsItsGuardian : Prop :=
  ∀ (p : PDie) (s : State), s.chOn p = true →
    let n := NetId.ctl p
    (s.mOn = true → s.commitBusy p.unit Reg.ttCommit = true →
      exec (.ttCommitGo p) s = .next (s.ignored p.unit Reg.ttCommit .mgmt)) ∧
    (∀ c, s.mOn = true → s.commitBusy p.unit Reg.ttCommit = false → s.ttCheck n = some c →
      exec (.ttCommitGo p) s = .next (s.commitResult p.unit Reg.ttCommit c)) ∧
    (s.mOn = true → s.commitBusy p.unit Reg.ttCommit = false → s.ttCheck n = none →
      ∃ t c, exec (.ttCommitGo p) s = .next t ∧ (t.port p).commit = some ⟨c, false, s.ns⟩ ∧
        t.commitBusy p.unit Reg.ttCommit = true ∧ t.lanes = s.lanes ∧
        t.reg p.unit Reg.ttTblCrcStg = crc32cWords (s.ttWords n) ∧
        (c = none ↔ ¬ ((s.net n).phase = .adopted ∨ (s.net n).phase = .active ∨ (s.net n).phase = .holdover))) ∧
    (s.mOn = false → exec (.ttCommitGo p) s = .next s) ∧
    (∀ g : PDie, exec (.guardCommitCheck g) s = .next (s.guardCheck g) ∧
      ((s.port g.other).commit = none → s.guardCheck g = s) ∧
      (∀ c, (s.port g.other).commit = some c → s.consumers.m.running = true → c.accepted = false →
        (s.port g).guard.reply = none → (s.port g).guard.stopped = false →
        ((s.guardCheck g).port g).guard.reply.map (·.1) = some (crc32cWords (s.ttWords (.gd g))))) ∧
    (∀ c crc ok, (s.port p).commit = some c → (s.port p.other).guard.reply = some (crc, ok) → c.accepted = false →
      (crc ≠ s.reg p.unit Reg.ttTblCrcStg →
        ∃ t, exec (.guardCommitReply p) s = .next t ∧ (t.port p).commit = none ∧
          t.fld p.unit Reg.ttCommit 15 8 = 0x08 ∧ t.commitBusy p.unit Reg.ttCommit = false) ∧
      (crc = s.reg p.unit Reg.ttTblCrcStg → ok = false →
        ∃ t, exec (.guardCommitReply p) s = .next t ∧ (t.port p).commit = none ∧
          t.fld p.unit Reg.ttCommit 15 8 = 0x09 ∧ t.commitBusy p.unit Reg.ttCommit = false) ∧
      (crc = s.reg p.unit Reg.ttTblCrcStg → ok = true → c.cycle ≠ none →
        ∃ t, exec (.guardCommitReply p) s = .next t ∧ (t.port p).commit = some { c with accepted := true })) ∧
    (∀ c, (s.port p).commit = some c → c.accepted = false →
      (c.since + 1000000 ≤ s.ns → exec (.guardTimeout p) s = .next (s.ttRefuse p 0x0A)) ∧
      (s.ns < c.since + 1000000 → exec (.guardTimeout p) s = .next s)) ∧
    (∀ k at', (s.port p).commit = some ⟨some k, true, at'⟩ →
      (serialLt (s.net n).cycle k = false ∨ (s.net n).phase.timed = false →
        exec (.ttCommitTakeEffect p) s = .next (s.ttTakeEffect p)) ∧
      (serialLt (s.net n).cycle k = true → (s.net n).phase.timed = true → exec (.ttCommitTakeEffect p) s = .next s))

/-! ### Guardians -/

/-- R255 to R257: an attempt outside the open windows is a violation, counted once, and so is a transmission that reaches the
limit of its window, whose frames it cuts (in the tail the link delay frames, elsewhere those of the slot); one that the tail
or a new ID exempts counts only in EXEMPT. The third in 1000 guardian cycles latches the guardian. A transmission in a slot
window may last no longer than (42 + max(PMAX, 30)) × 8 + 16 ns nor beyond the window, one in the tail or in CS_OPEN 592 ns.
The enables are open only while the guardian is live, and one that is off counts nothing. Completes: `guardTxAttempt`,
`guardLengthLimit`. That an exempt attempt raises GUARD too (log entry 58), and what a transmission cut at the tail's end
counts (151), are the model's choice.
R253, R254, R258: RESET lifts the latch of a guardian that is not fenced, sends it back to WAIT, and lifts no fence; the
fence command of each lane is recorded, and the second fences the guardian. The listen timeout and the end of HOLD act in
their states and at their time only. A guardian that is off, latched, fenced or stopped hears and counts nothing; one that
hears stamps to 10 ns (the stamp is computed back from its timebase: log entry 168, the model's choice) and takes no link
delay frame for one of the channel. Completes: `guardReset`, `guardFenceCommand`, `guardListenTimeout`, `guardHoldExpire`,
`guardCycleEnd`, `guardFrameTap`. That stamp's rounding (log entry 40) and that a latched or fenced guardian does not listen
(56) are the model's choice too. -/
def Obligations.GuardiansKeepTheirOwnStatesAndLatch : Prop :=
  (∀ (p : PDie) (at' : Dword) (lasted : Nat) (s : State),
     let g := s.guard p
     let x := g.net
     let exempt := s.inTail p at' || decide (x.total < g.exemptUntil)
     let recent := (g.viols.filter fun v => decide (x.total < v + 1000)).length
     (x.phase ≠ .off → g.stopped = false → s.enablesOpen p at' = false →
       exec (.guardTxAttempt p at') s = .next (s.violation p 31 24 at')) ∧
     (x.phase ≠ .off → g.stopped = false → s.enablesOpen p at' = true → x.phase ≠ .coldstart →
       exec (.guardTxAttempt p at') s = .next s) ∧
     (x.phase = .coldstart → g.stopped = false → s.enablesOpen p at' = true →
       ∃ t, exec (.guardTxAttempt p at') s = .next t ∧ (t.guard p).lastStart = some at' ∧ (t.guard p).net = x ∧
         t.lanes = s.lanes ∧ t.log = s.log) ∧
     (x.phase = .off ∨ g.stopped = true → exec (.guardTxAttempt p at') s = .next s) ∧
     (∀ r, s.enableRoom p at' = some r →
       (r ≤ lasted → exec (.guardLengthLimit p at' lasted) s = .next
         (State.violation (if s.inTail p at' = true then s.cutLinks p.other
           else Port.list.foldl (fun u q => u.cutLine p.other r q) s) p 23 16 at')) ∧
       (lasted < r → exec (.guardLengthLimit p at' lasted) s = .next s)) ∧
     (s.enableRoom p at' = none → exec (.guardLengthLimit p at' lasted) s = .next s) ∧
     (∀ q f st, (s.port p.other).line.get q = some ⟨f, st, true⟩ →
       ((s.cutLine p.other lasted q).port p.other).line.get q = some ⟨cutFrame f lasted, st, true⟩) ∧
     (∀ q, ((s.cutLinks p.other).port p.other).linkFrame.get q =
         ((s.port p.other).linkFrame.get q).map (fun f => { f with ok := false }) ∧
       ((s.cutLinks p.other).port p.other).line = (s.port p.other).line) ∧
     (∀ sl r, s.slotRoom p at' sl = some r → r ≤ (42 + max sl.pmax 30) * 8 + 16 ∧ s.slotOpen p sl = true) ∧
     (∀ r, s.tailRoom p at' = some r → r ≤ 592) ∧ (∀ r, s.coldRoom p at' = some r → r = 592) ∧
     (exempt = true → (s.violation p 31 24 at').fld p.unit Reg.gdViol 15 8 = satAdd 8 (s.fld p.unit Reg.gdViol 15 8) 1 ∧
       (s.violation p 31 24 at').fld p.unit Reg.gdViol 31 24 = s.fld p.unit Reg.gdViol 31 24 ∧
       (s.violation p 31 24 at').guard p = g) ∧
     (exempt = false → recent < 2 →
       (s.violation p 31 24 at').fld p.unit Reg.gdViol 31 24 = satAdd 8 (s.fld p.unit Reg.gdViol 31 24) 1 ∧
       (s.violation p 31 24 at').fld p.unit Reg.gdViol 1 0 = recent + 1 ∧
       ((s.violation p 31 24 at').guard p).latched = g.latched) ∧
     (exempt = false → 2 ≤ recent → guardTimed g = true → s.guardLive p = true →
       ((s.violation p 31 24 at').guard p).latched = true) ∧
     (s.enablesOpen p at' = true → s.guardLive p = true)) ∧
  (∀ (p : PDie) (s : State),
     let g := s.guard p
     let x := g.net
     (g.latched = false ∨ g.fenced = true ∨ s.mOn = false → exec (.guardReset p) s = .next s) ∧
     (g.latched = true → g.fenced = false → s.mOn = true → ∃ t, exec (.guardReset p) s = .next t ∧
       (t.guard p).latched = false ∧ (t.guard p).viols = [] ∧ (t.guard p).net.phase = .listen ∧ (t.guard p).fenced = false ∧
       t.fld p.unit Reg.gdViol 1 0 = 0) ∧
     (∀ l : Lane, ∃ t, exec (.guardFenceCommand p l) s = .next t ∧ t.flag p.unit Reg.gdFence l.idx = true ∧
       t.wires = eraseFirst (.guardFence p l) s.wires ∧ (g.fenced = true → (t.guard p).fenced = true) ∧
       (∀ l', l' ≠ l → t.flag p.unit Reg.gdFence l'.idx = s.flag p.unit Reg.gdFence l'.idx) ∧
       ((∃ l', l' ≠ l ∧ s.flag p.unit Reg.gdFence l'.idx = true) → (t.guard p).fenced = true)) ∧
     (s.guardLive p = false →
       (∀ q own f ago, exec (.guardFrameTap p q own f ago) s = .next s) ∧
       exec (.guardCycleEnd p) s = .next s ∧ exec (.guardListenTimeout p) s = .next s ∧ exec (.guardHoldExpire p) s = .next s) ∧
     (s.listenDue (.gd p) = false → exec (.guardListenTimeout p) s = .next s) ∧
     (s.guardLive p = true →
       (s.listenDue (.gd p) = true →
         (x.phase = .listen → s.ttCsNode (.gd p) = true →
           ∃ t, exec (.guardListenTimeout p) s = .next t ∧ (t.guard p).net.phase = .coldstart ∧ (t.guard p).csCount = 0) ∧
         (x.phase = .listen → s.ttCsNode (.gd p) = false →
           exec (.guardListenTimeout p) s = .next (s.setNet (.gd p) { x with since := x.clock })) ∧
         (x.phase = .integrate ∨ x.phase = .adopted →
           exec (.guardListenTimeout p) s = .next (s.setNet (.gd p) (relisten x)))) ∧
       (x.phase = .holdover → s.guardHoldMax p ≤ x.hcount →
         exec (.guardHoldExpire p) s = .next (s.setNet (.gd p) (relisten x))) ∧
       (x.phase = .holdover → x.hcount < s.guardHoldMax p → exec (.guardHoldExpire p) s = .next s) ∧
       (x.wait = none →
         (x.phase = .active ∨ x.phase = .holdover →
           exec (.guardCycleEnd p) s = .next (((s.endOpen (.gd p)).noteMembers (.gd p)).guardNextCycle p)) ∧
         (x.phase = .adopted →
           exec (.guardCycleEnd p) s = .next (((s.endAdopted (.gd p) 4).noteMembers (.gd p)).guardNextCycle p)) ∧
         (x.phase = .listen ∨ x.phase = .integrate ∨ x.phase = .coldstart ∨ x.phase = .backoff →
           exec (.guardCycleEnd p) s = .next s)) ∧
       (guardTimed g = true → (((s.guardNextCycle p).guard p).net.cycle = x.cycle + 1 ∧
         ((s.guardNextCycle p).guard p).viols = g.viols.filter fun v => decide (x.total + 1 < v + 1000))) ∧
       (∀ q own f ago, f.dst = linkAddr ∨ s.isKtn (.gd p) f = false ∨ headerOk f = false ∨ f.fcsOk = false →
         exec (.guardFrameTap p q own f ago) s = .next s) ∧
       (∀ q own f ago, f.dst ≠ linkAddr → s.isKtn (.gd p) f = true → headerOk f = true → f.fcsOk = true →
         x.phase = .active ∨ x.phase = .holdover → exec (.guardFrameTap p q own f ago) s = .next
           (s.tapActive p q own f (tenNs (s.stamp (.gd p) ago)) (pathDelay x f q own)))))

/-! ### Leases -/

/-- R348, R350, R351, R353: the owner strand arms and disarms, and asks to release a lease that it holds; the command of
another strand is ignored and logged. A lease is lost to STANDBY and counted in EXPIRED when the guardian is not qualified;
STANDBY becomes PROVISIONAL at a cycle's start only after the partner's silence; HELD ends at the cycle it was renewed to;
PROVISIONAL becomes HELD at a cycle's end with an own renewal, and STANDBY otherwise. A frame in a LEASE slot that is no valid
LEASE frame is counted; the five classes, PARTNER_SEEN, QUAL and SILENT are kept in every lease state, NONE too. Completes: `armLease`, `disarm`, `release`, `leaseCycleStart`,
`leaseCycleEnd`, `leaseUnqualified`, `leaseFrameReceive`.
R194, R352: each port die shows HELD and PROVISIONAL in its status word at the sample and takes MOD_HELD from two lanes
that report both leases held over working links; F takes both leases held. Completes: `leaseStateSample`, `modHeldChange`.
Which lanes report, and that the relay takes no time, are the model's choice (log entry 65). -/
def Obligations.LeaseTimersChangeStateAndHeldLeasesReachOutputs : Prop :=
  (∀ (p : PDie) (s : State),
     let n := (s.guard p).net.cycle
     (∀ k, k = s.lsOwner p → s.reachesUnit (.strand k) p.unit Reg.lsCmd →
       (∃ t, exec (.armLease p k) s = .next t ∧ t = s.setFlag p.unit Reg.lsStat 29 true) ∧
       (∃ t, exec (.disarm p k) s = .next t ∧ t = s.setFlag p.unit Reg.lsStat 29 false) ∧
       (lsProvisional ≤ s.leaseState p → ∃ t, exec (.release p k) s = .next t ∧ (t.lease p).release = true ∧ t.regs = s.regs) ∧
       (s.leaseState p < lsProvisional → exec (.release p k) s = .next s)) ∧
     (∀ k, k ≠ s.lsOwner p → s.reachesUnit (.strand k) p.unit Reg.lsCmd →
       exec (.armLease p k) s = .next (s.ignored p.unit Reg.lsCmd (.strand k)) ∧
       exec (.disarm p k) s = .next (s.ignored p.unit Reg.lsCmd (.strand k)) ∧
       exec (.release p k) s = .next (s.ignored p.unit Reg.lsCmd (.strand k))) ∧
     (∀ c ∈ ([.leaseCycleStart p, .leaseCycleEnd p, .leaseUnqualified p] : List Instr), ∃ t, exec c s = .next t ∧
       (∀ u off, u ≠ p.unit ∨ off ≠ Reg.lsStat → s.leaseState p = lsNone → t.reg u off = s.reg u off) ∧
       (s.leaseState p = lsNone → t.leaseState p = lsNone) ∧ t.flag p.unit Reg.lsStat 28 = s.qualified p ∧
       (s.qualified p = false → t.silent p = 0)) ∧
     (s.leaseState p < lsProvisional → s.qualified p = true →
       ∃ t, exec (.leaseCycleEnd p) s = .next t ∧ t.leaseState p = s.leaseState p ∧
         t.silent p = (if (s.lease p).partRenew = true then 0 else satAdd 8 (s.silent p) 1)) ∧
     (∃ t, exec (.leaseCycleEnd p) s = .next t ∧ t.flag p.unit Reg.lsStat 26 =
         ((s.lease p).partSight || (s.lease p).prevPartSight) ∧ t.lease p = nextLease (s.lease p)) ∧
     (lsProvisional ≤ s.leaseState p → s.qualified p = false →
       ∃ t, exec (.leaseUnqualified p) s = .next t ∧ t.leaseState p = lsStandby ∧ t.silent p = 0 ∧
         t.flag p.unit Reg.lsStat 28 = false ∧ t.fld p.unit Reg.lsCnt 15 8 = satAdd 8 (s.fld p.unit Reg.lsCnt 15 8) 1) ∧
     (s.leaseState p = lsStandby → s.qualified p = true →
       ∃ t, exec (.leaseCycleStart p) s = .next t ∧ (t.leaseState p = lsProvisional ↔
         s.leaseArmed p = true ∧ (s.lease p).prevOwnSight = true ∧ s.lsLen p + 2 ≤ s.silent p)) ∧
     (s.leaseState p = lsHeld → s.qualified p = true → s.fld p.unit Reg.lsStat 15 0 = n.toNat →
       ∃ t, exec (.leaseCycleStart p) s = .next t ∧ t.leaseState p = lsStandby) ∧
     (s.leaseState p = lsProvisional → s.qualified p = true → (s.lease p).release = false →
       ∃ t, exec (.leaseCycleEnd p) s = .next t ∧
         ((t.leaseState p = lsHeld ∧ t.fld p.unit Reg.lsStat 15 0 = (n + BitVec.ofNat 16 (s.lsLen p + 1)).toNat) ↔
           (s.lease p).ownRenew = true ∧ (s.lsPref p = true ∨ (s.lease p).partRenew = false)) ∧
         (t.leaseState p = lsHeld ∨ t.leaseState p = lsStandby)) ∧
     (∀ q own f ago, let P := pathDelay (s.net (.gd p)) f q own
       let rx := tenNs (s.stamp (.gd p) ago)
       (s.guardInSync p = true → s.leaseSlot p rx P = true →
         exec (.leaseFrameReceive p q own f ago) s = .next (s.leaseFrame p f (s.acceptance (.gd p) f rx P == .ok)) ∧
         ∀ ok, f.fcsOk = false ∨ headerOk f = false ∨ s.leasePayloadOk p f = false ∨ ok = false →
           s.leaseFrame p f ok = s.bump p.unit Reg.lsCnt 7 0) ∧
       (s.guardInSync p = false ∨ s.leaseSlot p rx P = false →
         exec (.leaseFrameReceive p q own f ago) s = .next s))) ∧
  (∀ (p : PDie) (s : State),
     (s.chOn p = true → ∃ t, exec (.leaseStateSample p) s = .next t ∧
       ((t.port p).heldNow = s.modHeld p) ∧
       (bitOf (t.reg p.unit Reg.ttStatusWord) 11 = true ↔ s.leaseState p = lsHeld) ∧
       (bitOf (t.reg p.unit Reg.ttStatusWord) 7 = true ↔ s.leaseState p = lsProvisional) ∧
       (∀ u off, u ≠ p.unit ∨ off ≠ Reg.ttStatusWord → t.reg u off = s.reg u off) ∧ t.lanes = s.lanes) ∧
     (s.chOn p = false → exec (.leaseStateSample p) s = .next s) ∧
     (∃ t, exec .modHeldChange s = .next t ∧
       (t.field.held = true ↔ s.leaseState .p1 = lsHeld ∧ s.leaseState .p2 = lsHeld) ∧
       (∀ q : PDie, (∀ l, (t.port q).heldBy.get l = s.bothHeld) ∧ t.flag q.unit Reg.lsStat 27 = t.modHeld q) ∧ t.base = s.base) ∧
     (s.modHeld p = true ↔ 2 ≤ (s.holdReports p).length) ∧
     (∀ l, (s.lane l).junction.get (Die.ofPDie p) = false ∨ s.retired l = true → l ∉ s.holdReports p))

/-! ### DMA channels -/

/-- R267 to R270, R290, R293: EN 1 starts an OFF channel at index 0 of its ring, EN 0 stops one that is not in the middle of a
descriptor, RESUME sets a HALTED channel going, and a doorbell moves TAIL only when R270 accepts it, with the descriptors that
it hands over noted under its ordinal; what another than the channel's writer writes is ignored and logged. R291, R292: a
quiesce is requested, acknowledged once no access is out, forced with TIMEOUT after 1 ms, and released by management firmware.
Completes: `dmaEnable`, `dmaDisable`, `resume`, `dmaDoorbell`, `quiesceRequest`, `quiesceAck`, `quiesceTimeout`,
`quiesceRelease`. That a read fence counts by ordinals is the model's choice (log entry 153). -/
def Obligations.DmaChannelsFollowTheirControls : Prop :=
  ∀ (m : Master) (p : PDie) (ch : Nat) (s : State),
    (s.chanThere p ch = true → s.chanWriter m p ch = true → s.reachesUnit m p.unit (Reg.dmCtl ch) →
      (s.chState p ch = .off → s.ringBound p ch = none → s.reg64 p.unit (Reg.dmBaseLo ch) &&& 0xFFF = 0 →
        placeOf (s.chOwner p ch) (s.reg64 p.unit (Reg.dmBaseLo ch)).toNat
          (32 * 2 ^ min 12 (max 4 (s.fld p.unit (Reg.dmRcfg ch) 3 0))) = .partition → ch < (s.port p).chans.length →
        ∃ t, exec (.dmaEnable m p ch) s = .next t ∧ t.chState p ch = .idle ∧ t.flag p.unit (Reg.dmCtl ch) 0 = true ∧
          t.chHead p ch = 0 ∧ t.chTail p ch = 0 ∧ (t.chan p ch).acts = [] ∧
          (t.chan p ch).size = 2 ^ min 12 (max 4 (s.fld p.unit (Reg.dmRcfg ch) 3 0)) ∧ t.lanes = s.lanes) ∧
      (s.chState p ch = .idle → (s.chan p ch).acts = [] →
        ∃ t, exec (.dmaDisable m p ch) s = .next t ∧ t.chState p ch = .off ∧ t.flag p.unit (Reg.dmCtl ch) 0 = false ∧
          t.base = s.base) ∧
      (s.chState p ch = .halted → s.flag p.unit (Reg.dmCtl ch) 0 = true →
        ∃ t, exec (.resume m p ch) s = .next t ∧
          t.chState p ch = (if s.chHead p ch = s.chTail p ch then .idle else .running) ∧ t.lanes = s.lanes ∧ t.ports = s.ports) ∧
      (∀ v : Word, fieldOf v 31 12 = 0 → s.reachesUnit m p.unit (Reg.dmDb ch) →
        let n := (fieldOf v 11 0 + (s.chan p ch).size - s.chTail p ch) % (s.chan p ch).size
        let accepted := (s.chState p ch = .idle ∨ s.chState p ch = .running ∨ s.chState p ch = .halted) ∧
          fieldOf v 11 0 < (s.chan p ch).size ∧ s.ringBound p ch = none ∧
          n ≤ (s.chHead p ch + 2 * (s.chan p ch).size - s.chTail p ch - 1) % (s.chan p ch).size
        (accepted → ∃ t, exec (.dmaDoorbell m p ch v) s = .next t ∧ t.chTail p ch = fieldOf v 11 0 ∧
          t.chHead p ch = s.chHead p ch ∧ t.lanes = s.lanes ∧ (n = 0 → t.ports = s.ports) ∧
          (n ≠ 0 → ch < (s.port p).chans.length → t.chan p ch = { s.chan p ch with
            handed := (s.chan p ch).handed ++ [(s.releasedOrd p m, n)] })) ∧
        (¬ accepted → exec (.dmaDoorbell m p ch v) s = .next (s.bump p.unit (Reg.dmCnt ch) 31 24)))) ∧
    (s.chanThere p ch = true → s.chanWriter m p ch = false → s.reachesUnit m p.unit (Reg.dmCtl ch) →
      exec (.dmaEnable m p ch) s = .next (s.ignored p.unit (Reg.dmCtl ch) m) ∧
      exec (.dmaDisable m p ch) s = .next (s.ignored p.unit (Reg.dmCtl ch) m) ∧
      exec (.resume m p ch) s = .next (s.ignored p.unit (Reg.dmCtl ch) m) ∧
      ∀ v, s.reachesUnit m p.unit (Reg.dmDb ch) →
        exec (.dmaDoorbell m p ch v) s = .next (s.ignored p.unit (Reg.dmDb ch) m)) ∧
    (∀ domain : BitVec 3, s.mOn = true → (s.consumer (Die.ofPDie p)).running = true →
      s.flag p.unit Reg.dmQuiesce 9 = false → domain.toNat ≤ 3 →
      ∃ t, exec (.quiesceRequest p domain) s = .next t ∧ t.flag p.unit Reg.dmQuiesce 9 = true ∧
        t.flag p.unit Reg.dmQuiesce 10 = false ∧ t.flag p.unit Reg.dmQuiesce 11 = false ∧
        t.fld p.unit Reg.dmQuiesce 2 0 = domain.toNat ∧ (t.port p).quiesceAt = s.ns ∧ t.lanes = s.lanes) ∧
    (s.flag p.unit Reg.dmQuiesce 9 = true → s.flag p.unit Reg.dmQuiesce 10 = false →
      (s.accessOut p (s.fld p.unit Reg.dmQuiesce 2 0) = true → exec (.quiesceAck p) s = .next s) ∧
      (s.accessOut p (s.fld p.unit Reg.dmQuiesce 2 0) = false → s.mgmt.down = none →
        ∃ t, exec (.quiesceAck p) s = .next t ∧ t.flag p.unit Reg.dmQuiesce 10 = true ∧ t.ports = s.ports) ∧
      (s.ns < (s.port p).quiesceAt + 1000000 → exec (.quiesceTimeout p) s = .next s) ∧
      ((s.port p).quiesceAt + 1000000 ≤ s.ns → s.mgmt.down = none →
        ∃ t, exec (.quiesceTimeout p) s = .next t ∧ t.flag p.unit Reg.dmQuiesce 10 = true ∧
          t.flag p.unit Reg.dmQuiesce 11 = true)) ∧
    (s.mOn = true → (s.consumer (Die.ofPDie p)).running = true → s.fld p.unit Reg.dmQuiesce 2 0 ≤ 3 →
      ∃ t, exec (.quiesceRelease p) s = .next t ∧ t.flag p.unit Reg.dmQuiesce 9 = false ∧
        t.flag p.unit Reg.dmQuiesce 10 = false ∧ t.flag p.unit Reg.dmQuiesce 11 = false ∧ t.ports = s.ports ∧ t.lanes = s.lanes)

/-- R104, R105, R285, R271, R277, R289: a channel with work to do and no activation opens one and reads its next descriptor,
32 bytes at its ring address, from the replicas in step. A read takes the bytes of its lane's memory behind the posted writes
before it. Two equal copies of a two-replica voter decide a fetch and two unequal ones split it; of three, the odd one is
excluded, and three different ones split it; a third that does not come within SKEW_LIMIT is late; a lane that does not answer
within 10 µs is missing, and a fetch with fewer than two lanes left to answer ends with NO_RESPONSE. R290: a halting status is
shown and halts the channel past the descriptor; a descriptor that is not done is not written back. Completes:
`descriptorStart`, `descriptorComplete`, `fetchCopyArrive`, `fetchSkewTimeout`, `dmaBusTimeout`. What becomes of the
descriptors ahead of one that ends with VOTE_FAIL is the model's choice (log entry 181). -/
def Obligations.DescriptorsAreFetchedByVoteAndWrittenBack : Prop :=
  ∀ (p : PDie) (ch : Nat) (s : State),
    let d := Die.ofPDie p
    let i := s.chHead p ch % (s.chan p ch).size
    ((s.consumer d).running = true → s.quiesceStops p (s.chOwner p ch) true = false → ch < 28 → (s.chan p ch).acts = [] →
      s.chState p ch = .idle ∨ s.chState p ch = .running → ch < (s.port p).chans.length →
      0 < (s.chTail p ch + (s.chan p ch).size - s.chHead p ch) % (s.chan p ch).size → s.copyStalled p ch = false →
      s.fetchRecords p (s.chOwner p ch) < 256 →
      2 ≤ (s.voterIn d (s.chOwner p ch)).length →
      ∃ t, exec (.descriptorStart p ch) s = .next t ∧ t.chState p ch = .running ∧
        (t.chan p ch).acts.map (·.index) = [i] ∧ t.lanes = s.lanes ∧
        ∃ f ∈ (t.port p).fetches, f.addr = (s.chan p ch).base + 32 * i ∧ f.len = 32 ∧ f.ch = ch ∧
          f.strand = s.chOwner p ch ∧ f.copies = [] ∧ f.missing = [] ∧ f.need = (popHanded (s.chan p ch).handed).1 ∧
          f.parties = s.voterIn d (s.chOwner p ch)) ∧
    ((s.consumer d).running = true → s.chState p ch = .off ∨ s.chState p ch = .halted →
      exec (.descriptorStart p ch) s = .next s) ∧
    (∀ k id l ue, s.readSent p id l = none → exec (.fetchCopyArrive p k id l ue) s = .next s) ∧
    (∀ k id l ue w, s.readSent p id l = some w →
      (s.mayArrive w = false → exec (.fetchCopyArrive p k id l ue) s = .next s) ∧
      (s.mayArrive w = true → ∀ f, (s.arrive w).findFetch p k id = some f → (s.consumer d).running = true →
        f.outAt l = true → s.poisoned l f.addr f.len = false →
        let t := s.arrive w
        let g := { f with
          copies := f.copies ++ [(l, memRead (s.lane l).mem f.addr f.len)]
          since := if f.copies.length = 1 then s.ns else f.since }
        exec (.fetchCopyArrive p k id l ue) s =
          .next ((((t.putFetch p g).decideFetch p g ue).askCopies p k).releaseWbs p))) ∧
    (∀ k id l, s.findFetch p k id = none →
      exec (.fetchSkewTimeout p k id) s = .next s ∧ exec (.dmaBusTimeout p k id l) s = .next s) ∧
    (∀ (f : Fetch) (l1 l2 : Lane) (xs ys : List Byte) (ue : Bool), f.copies = [(l1, xs), (l2, ys)] → f.kept = none →
      let ord := (s.voter d f.strand).next
      (xs = ys → f.parties.length = 2 → s.decideFetch p f ue = (s.endFetch p f.id).useFetch p f xs ue) ∧
      (xs = ys → f.parties.length = 3 →
        s.decideFetch p f ue = (s.putFetch p { f with kept := some (crc64 xs) }).useFetch p f xs ue) ∧
      (xs ≠ ys → f.parties.length = 2 → s.decideFetch p f ue = s.voterSplit d f.strand .diverge2oo2 ord) ∧
      (xs ≠ ys → f.parties.length = 3 → s.decideFetch p f ue = s)) ∧
    (∀ (f : Fetch) (l1 l2 l3 : Lane) (xs ys zs : List Byte) (ue : Bool),
      f.copies = [(l1, xs), (l2, ys), (l3, zs)] → f.kept = none → xs ≠ ys →
      let t := s.endFetch p f.id
      let ord := (s.voter d f.strand).next
      (zs = xs → s.decideFetch p f ue = (t.voterExclude d f.strand l2 .fetchOdd ord).useFetch p f xs ue) ∧
      (zs ≠ xs → zs = ys → s.decideFetch p f ue = (t.voterExclude d f.strand l1 .fetchOdd ord).useFetch p f ys ue) ∧
      (zs ≠ xs → zs ≠ ys → s.decideFetch p f ue = (t.voteFail p f).voterSplit d f.strand .voteFail ord)) ∧
    (∀ (f : Fetch) (a : Act), (s.chan p f.ch).acts = [a] → a.index = f.index → a.fetch = some f.id →
      s.voteFail p f = s.completeList p f.ch [endedAct stVoteFail f.addr a] ∧
      (endedAct stVoteFail f.addr a).status = stVoteFail ∧ (endedAct stVoteFail f.addr a).stage = .done) ∧
    (∀ (f : Fetch) (c : Dword) (cs : List (Lane × List Byte)) (l : Lane) (zs : List Byte) (ue : Bool),
      f.kept = some c → f.copies = cs ++ [(l, zs)] →
      let ord := (s.voter d f.strand).next
      (crc64 zs = c → (Lane.list.any fun x => f.awaits x) = true → s.decideFetch p f ue = s) ∧
      (crc64 zs = c → (Lane.list.any fun x => f.awaits x) = false → s.decideFetch p f ue = s.endFetch p f.id) ∧
      (crc64 zs ≠ c → f.parties.length = 3 →
        s.decideFetch p f ue = (s.endFetch p f.id).voterExclude d f.strand l .fetchOdd ord) ∧
      (crc64 zs ≠ c → f.parties.length = 2 → s.decideFetch p f ue = s.voterSplit d f.strand .diverge2oo2 ord)) ∧
    (∀ (k : Strand) (f : Fetch) (l : Lane), s.findFetch p k f.id = some f → f.outAt l = true →
      (f.askedAt.get l + 10000 ≤ s.ns → exec (.dmaBusTimeout p k f.id l) s =
        .next ((s.putFetch p { f with missing := f.missing ++ [l] }).failHopeless p k)) ∧
      (s.ns < f.askedAt.get l + 10000 → exec (.dmaBusTimeout p k f.id l) s = .next s)) ∧
    (∀ f : Fetch, f.kept = none → (f.hopeless = true ↔ (f.parties.filter fun l => !f.missing.contains l).length < 2)) ∧
    (∀ (f : Fetch) (a : Act), s.actAt p f.ch f.index = some a → a.fetch = some f.id →
      s.failFetch p f = (s.endFetch p f.id).endAct p f.ch f.index stNoResponse f.addr) ∧
    (∀ (k : Strand) (f : Fetch) (l1 l2 x : Lane) (xs ys : List Byte), s.findFetch p k f.id = some f →
      f.copies = [(l1, xs), (l2, ys)] → f.parties.length = 3 → (Lane.list.find? fun l => f.awaits l) = some x →
      (f.since + s.dieSkewNs d k ≤ s.ns → exec (.fetchSkewTimeout p k f.id) s =
        .next (s.voterExclude d k x .late (s.voter d k).next)) ∧
      (s.ns < f.since + s.dieSkewNs d k → exec (.fetchSkewTimeout p k f.id) s = .next s)) ∧
    (ch < 28 → (s.consumer d).running = true →
      ((s.chan p ch).acts = [] ∨ (∃ a rest, (s.chan p ch).acts = a :: rest ∧ a.stage ≠ .done) →
        exec (.descriptorComplete p ch) s = .next s) ∧
      (s.copyStalled p ch = true → exec (.descriptorComplete p ch) s = .next s) ∧
      (∀ a rest, (s.chan p ch).acts = a :: rest → a.stage = .done → s.voterHalted d (s.chOwner p ch) = true →
        a.status ≠ stVoteFail → exec (.descriptorComplete p ch) s = .next s) ∧
      (∀ a rest, (s.chan p ch).acts = a :: rest → a.stage = .done → s.wbFull p ch = false → s.copyStalled p ch = false →
        s.voterHalted d (s.chOwner p ch) = false ∨ a.status = stVoteFail →
        exec (.descriptorComplete p ch) s = .next (s.completeAct p ch a))) ∧
    (∀ (a : Act) (st : Nat), halting st = true → ch < (s.port p).chans.length →
      (s.afterWb p ch a st).chState p ch = .halted ∧ (s.afterWb p ch a st).fld p.unit (Reg.dmStat ch) 31 24 = st % 256 ∧
      ((s.afterWb p ch a st).chan p ch).acts = [] ∧
      (s.afterWb p ch a st).chHead p ch = (a.index + 1) % (s.chan p ch).size % 2 ^ 12)

/-! ### Gallery, remote reads, CAN -/

/-- R297 to R299, R303, R306, R308: the bytes of an arrival go to its back copy, which keeps the front's bytes beyond them; a
pending exchange follows as soon as the PDU is no longer read; the owner strand writes and publishes a STRAND PDU through the
window, another's access is ignored and logged; an engine takes the oldest event and then the destinations of that event one
by one. A freshness scan asks for a processing when the stale state changed. An engine whose memory fails stops, its queue
empty; a corrected error is counted. A commit is refused with the first rule broken, or takes effect once no engine works.
Completes: `pduArrival`, `pduExchange`, `gwSwDataWrite`, `gwSwPub`, `gwEventProcess`, `gwFreshnessScan`, `gwEcc`, `gwCommitGo`,
`gwCommitTakeEffect`. -/
def Obligations.GalleryTakesArrivalsAndWorksThroughEvents : Prop :=
  ∀ (p : PDie) (k : Strand) (n : Nat) (s : State), s.gwOn p = true →
    (∀ payload, (s.pdu p n).kind = kKtnRx ∨ (s.pdu p n).kind = kCanRx →
      (s.pduBuf p n = none → exec (.pduArrival p n payload) s = .next s) ∧
      (∀ b, s.pduBuf p n = some b →
        let len := min payload.length (s.pdu p n).len
        exec (.pduArrival p n payload) s = .next (State.arrived
          (s.setBuf p { b with back := payload.take len ++ b.front.drop len }) p n len))) ∧
    ((s.gw p).pendingEx.contains n = false → exec (.pduExchange p n) s = .next s) ∧
    ((s.gw p).pendingEx.contains n = true → s.beingRead p n = false → (s.gw p).swHeld = [] →
      exec (.pduExchange p n) s = .next ((s.exchange p n).setGw p { (s.exchange p n).gw p with swHeld := [] })) ∧
    (∀ w : RegWrite, Reg.gwSwData 0 ≤ w.off → w.off < 0x6800000 → s.ownsPdu p k ((w.off - Reg.gwSwData 0) / 0x800) = false →
      s.reachesUnit (.strand k) p.unit w.off → exec (.gwSwDataWrite k p w) s = .next (s.ignored p.unit w.off (.strand k))) ∧
    (∀ w : RegWrite, Reg.gwSwData 0 ≤ w.off → w.off < 0x6800000 →
      let m := (w.off - Reg.gwSwData 0) / 0x800
      let i := (w.off - Reg.gwSwData 0) % 0x800
      s.ownsPdu p k m = true → 0 < w.size → w.size ≤ 8 → i + w.size ≤ (s.pdu p m).len → (s.gw p).pendingEx.contains m = false →
      s.reachesUnit (.strand k) p.unit w.off →
      exec (.gwSwDataWrite k p w) s = .next (s.swWrite p m i (leBytes w.size w.data.toNat))) ∧
    (∀ v : Word, fieldOf v 31 11 = 0 → s.reachesUnit (.strand k) p.unit Reg.gwSwPub →
      (s.ownsPdu p k (fieldOf v 10 0) = false → exec (.gwSwPub k p v) s = .next (s.ignored p.unit Reg.gwSwPub (.strand k))) ∧
      (s.ownsPdu p k (fieldOf v 10 0) = true → (s.gw p).swHeld = [] →
        exec (.gwSwPub k p v) s = .next (s.arrived p (fieldOf v 10 0) (s.pdu p (fieldOf v 10 0)).len))) ∧
    (∀ g : Bool, s.engState p g = 1 →
      (s.gwWork p g = none → s.gwQueue p g = [] → exec (.gwEventProcess p g) s = .next s) ∧
      (∀ c ev rest, s.gwWork p g = none → s.gwQueue p g = (c, ev) :: rest →
        exec (.gwEventProcess p g) s = .next ((s.setGwQueue p g rest).beginWork p g ev (s.concerned p g ev)) ∧
        ((s.gw p).pendingEx = [] → ∃ t, exec (.gwEventProcess p g) s = .next t ∧ t.gwQueue p g = rest ∧
          t.gwWork p g = (if s.concerned p g ev = [] then none else some (ev, s.concerned p g ev)) ∧ t.regs = s.regs)) ∧
      (∀ ev d rest, s.gwWork p g = some (ev, d :: rest) → exec (.gwEventProcess p g) s = .next
        (((s.setGwWork p g none).endProcessing p g ev d).beginWork p g ev rest))) ∧
    (∀ c ev q, (∀ x ∈ q, x.1 ≠ c ∨ ev.before x.2 = false) → enqueue c ev q = q ++ [(c, ev)]) ∧
    (∀ e, (s.sigMap p e).fresh = 0 → exec (.gwFreshnessScan p e) s = .next s) ∧
    (∀ e, (s.sigMap p e).valid = true → (s.sigMap p e).fresh ≠ 0 → (s.pdu p (s.sigMap p e).dpdu).dest = true →
      (s.pduBuf p (s.pdu p (s.sigMap p e).dpdu).num).isSome = true → (s.pdu p (s.sigMap p e).dpdu).trigger = false →
      s.staleNow p (s.sigMap p e) = !s.staleBit p e →
      exec (.gwFreshnessScan p e) s = .next (s.queueEvent p (s.pdu p (s.sigMap p e).dpdu).eng (.scan e)).1) ∧
    (s.engState p false = 1 → ∃ t, exec (.gwEcc p false true false) s = .next t ∧ t.engState p false = 2 ∧
      t.gwQueue p false = [] ∧ t.gwWork p false = none) ∧
    (∀ e0 e1, exec (.gwEcc p true e0 e1) s = .next (s.bump p.unit Reg.gwStat 23 16)) ∧
    (s.mOn = false → exec (.gwCommitGo p) s = .next s) ∧
    (s.mOn = true → s.commitBusy p.unit Reg.gwCommit = true → exec (.gwCommitGo p) s = .next (s.ignored p.unit Reg.gwCommit .mgmt)) ∧
    (∀ c, s.mOn = true → s.commitBusy p.unit Reg.gwCommit = false → s.gwCheck p = some c →
      exec (.gwCommitGo p) s = .next (s.commitResult p.unit Reg.gwCommit c)) ∧
    (s.mOn = true → s.commitBusy p.unit Reg.gwCommit = false → s.gwCheck p = none →
      exec (.gwCommitGo p) s = .next (s.setFlag p.unit Reg.gwCommit 1 true)) ∧
    (s.commitBusy p.unit Reg.gwCommit = true → s.gwWork p false = none → s.gwWork p true = none →
      ∃ t, exec (.gwCommitTakeEffect p) s = .next t ∧ t.commitBusy p.unit Reg.gwCommit = false ∧
        t.fld p.unit Reg.gwCommit 15 8 = 0 ∧ t.engState p false = 1 ∧ t.engState p true = 1 ∧
        t.gwQueue p false = [] ∧ t.gwQueue p true = []) ∧
    (s.commitBusy p.unit Reg.gwCommit = false → exec (.gwCommitTakeEffect p) s = .next s)

/-- R315 to R317: a strand asks with a free tag and the request is queued; a tag in use refuses it, a bad node or length
answers it at once, as does a channel that cannot send. A response addressed to this node is taken, no other payload is; a
request sent and not answered in time ends with status 4; a tag is freed by its owner, and discarded with a count. The answer
at the front of the queue is filled in from the object table. TIMEOUT_MS and DISCARD_MS of 0 count as 1 ms, above 1000 as
1000. Completes: `rrRequest`, `rrResponseReceive`, `rrTimeout`, `rrFree`, `rrDiscard`, `rrServe`. That a request waits for
room in the management queue is the model's choice (log entry 32). -/
def Obligations.RemoteReadsUseOneTagEach : Prop :=
  ∀ (k : Strand) (p : PDie) (s : State), s.rrOn p = true →
    (∀ lo hi : Word, fieldOf lo 15 6 = 0 → fieldOf hi 31 25 = 0 → fieldOf hi 15 11 = 0 →
      s.reachesUnit (.strand k) p.unit (Reg.gwRrReqHi k.idx) →
      let n := fieldOf lo 5 0
      let node := fieldOf lo 31 24
      let len := fieldOf hi 24 16
      ((s.rrTag p k n).used = true → exec (.rrRequest k p lo hi) s = .next (s.bump p.unit (Reg.gwRrStat k.idx) 23 16)) ∧
      ((s.rrTag p k n).used = false → len = 0 ∨ 256 < len ∨ node = 0 ∨ node = 255 ∨ node = (s.port p).net.id →
        ∃ t, exec (.rrRequest k p lo hi) s = .next t ∧ (t.rrTag p k n).used = true ∧
          (t.rrTag p k n).gen = (s.rrTag p k n).gen + 1 ∧ (t.rrTag p k n).resp = some (5, [])) ∧
      ((s.rrTag p k n).used = false → len ≠ 0 → len ≤ 256 → node ≠ 0 → node ≠ 255 → node ≠ (s.port p).net.id →
        (s.ktnUp p = false ∨ s.hasMgSlot p = false →
          ∃ t, exec (.rrRequest k p lo hi) s = .next t ∧ (t.rrTag p k n).resp = some (6, [])) ∧
        (s.ktnUp p = true → s.hasMgSlot p = true →
          exec (.rrRequest k p lo hi) s = .next (State.queueMg (s.setRrTag p k ⟨n, (s.rrTag p k n).gen + 1, true, none, s.ns⟩) p
            (.plain (rrBytes ⟨1, BitVec.ofNat 8 (64 * k.idx + n), (s.rrTag p k n).gen + 1, BitVec.ofNat 8 node,
              lo.extractLsb' 16 8, 0, fieldOf hi 10 0, len, []⟩)))))) ∧
    (∀ bs, isRr bs = true → (rrOf bs).svc = 2 → (rrOf bs).peer.toNat = (s.port p).net.id →
      exec (.rrResponseReceive p bs) s = .next (s.rrResponse p (rrOf bs))) ∧
    (∀ bs, isRr bs = false ∨ (rrOf bs).svc ≠ 2 ∨ (rrOf bs).peer.toNat ≠ (s.port p).net.id →
      exec (.rrResponseReceive p bs) s = .next s) ∧
    (∀ n, (s.rrTag p k n).used = true → (s.rrTag p k n).resp = none → s.rrUnsent p k (s.rrTag p k n) = false →
      (s.rrTag p k n).since + s.rrCfgNs p 0 ≤ s.ns →
      exec (.rrTimeout p k n) s = .next (s.storeRr p k n 4 [])) ∧
    (∀ n, (s.rrTag p k n).used = false ∨ (s.rrTag p k n).resp ≠ none ∨ s.rrUnsent p k (s.rrTag p k n) = true ∨
      s.ns < (s.rrTag p k n).since + s.rrCfgNs p 0 →
      exec (.rrTimeout p k n) s = .next s) ∧
    (∀ v : Word, fieldOf v 31 6 = 0 → s.reachesUnit (.strand k) p.unit (Reg.gwRrFree k.idx) → ∃ t, exec (.rrFree k p v) s = .next t ∧ (t.rrTag p k (fieldOf v 5 0)).used = false ∧
      (t.rrTag p k (fieldOf v 5 0)).gen = (s.rrTag p k (fieldOf v 5 0)).gen ∧
      (∀ n, n ≠ fieldOf v 5 0 → t.rrTag p k n = s.rrTag p k n) ∧
      (t.port p).mgAll = (s.port p).mgAll.filter fun m =>
        !((s.rrTag p k (fieldOf v 5 0)).used && isRequestOf k (s.rrTag p k (fieldOf v 5 0)) m)) ∧
    (∀ lo, 1000000 ≤ s.rrCfgNs p lo ∧ s.rrCfgNs p lo ≤ 1000000000) ∧
    (∀ n, (s.rrTag p k n).used = true → (s.rrTag p k n).resp ≠ none → (s.rrTag p k n).since + s.rrCfgNs p 16 ≤ s.ns →
      ∃ t, exec (.rrDiscard p k n) s = .next t ∧ (t.rrTag p k n).used = false ∧ (t.rrTag p k n).resp = none ∧
        t.fld p.unit (Reg.gwRrStat k.idx) 31 24 = satAdd 8 (s.fld p.unit (Reg.gwRrStat k.idx) 31 24) 1) ∧
    (∃ t, exec (.rrServe p) s = .next t ∧ (t.port p).mgq = s.assembleFirst p (s.port p).mgq ∧ t.regs = s.regs) ∧
    (∀ f bs rest, (s.port p).mgq = f :: rest → (∀ x, f ≠ .plain x) → s.mgBytes p f = bs →
      s.assembleFirst p (s.port p).mgq = .plain bs :: rest)

/-- R311, R312, R314: the owner sets the mode of its controller and asks for recovery; the error counters step as ISO 11898-1
says (its figures: log entry 6 names what it leaves open), and past 127 either makes the controller ERROR_PASSIVE, past 255 of
TEC BUS_OFF, which gives the Gallery's frames up. A frame that no filter takes is counted; a transmitted one leaves its queue.
Completes: `canModeWrite`, `recover`, `canRecoveryDone`, `canFrameReceive`, `canTransmit`. That MODE written in BUS_OFF leaves
the state is the model's choice (log entry 20). -/
def Obligations.CanControllersKeepTheirErrorState : Prop :=
  ∀ (p : PDie) (c : Bool) (s : State), s.canThere p = true →
    let tec := s.fld p.unit (Reg.cnStat (bitNat c)) 15 8
    let rec' := s.fld p.unit (Reg.cnStat (bitNat c)) 7 0
    let lecSet := fun (lec : BitVec 3) => s.setFld p.unit (Reg.cnStat (bitNat c)) 27 25 (lec.toNat % 7)
    (∀ m, s.reachesUnit m p.unit (Reg.cnCtl (bitNat c)) →
      (∀ v, fieldOf v 31 3 = 0 → s.canWriter m p c = false →
        exec (.canModeWrite m p c v) s = .next (s.ignored p.unit (Reg.cnCtl (bitNat c)) m)) ∧
      (∀ v, fieldOf v 31 3 = 0 → s.canWriter m p c = true → bitOf v 2 = false →
        exec (.canModeWrite m p c v) s = .next (s.writeCanMode p c (fieldOf v 1 0))) ∧
      (∀ v, fieldOf v 31 3 ≠ 0 → exec (.canModeWrite m p c v) s = .next (s.logRsvd p.unit (Reg.cnCtl (bitNat c)) m)) ∧
      (s.canWriter m p c = true → exec (.recover m p c) s = .next
        ((s.writeCanMode p c (s.fld p.unit (Reg.cnCtl (bitNat c)) 1 0)).startRecovery p c))) ∧
    (s.canState p c ≠ 4 → exec (.canRecoveryDone p c) s = .next s) ∧
    (s.canState p c = 4 → ∃ t, exec (.canRecoveryDone p c) s = .next t ∧
      t.canState p c = (if s.canMode p c = .init then 0 else 1) ∧ t.fld p.unit (Reg.cnStat (bitNat c)) 15 8 = 0 ∧
      t.fld p.unit (Reg.cnStat (bitNat c)) 7 0 = 0) ∧
    (s.onBus p c = false → (∀ e, exec (.canFrameReceive p c e) s = .next s) ∧ ∀ e, exec (.canTransmit p c e) s = .next s) ∧
    (s.onBus p c = true →
      (∀ f time ue, s.filterHit p (bitNat c) f = none → rec' ≤ 127 → tec ≤ 127 → s.canState p c = 1 →
        ∃ t, exec (.canFrameReceive p c (.good f time ue)) s = .next t ∧
          t.fld p.unit (Reg.cnCnt (bitNat c)) 31 24 = satAdd 8 (s.fld p.unit (Reg.cnCnt (bitNat c)) 31 24) 1 ∧
          t.fld p.unit (Reg.cnStat (bitNat c)) 7 0 = rec' - 1 ∧ t.canState p c = 1 ∧ t.lanes = s.lanes) ∧
      (∀ lec dom n, exec (.canFrameReceive p c (.error lec dom n)) s = .next
        ((lecSet lec).canErrors p c tec (recAfterError rec' dom n))) ∧
      (s.canMode p c = .normal →
        (s.canCandidate p c = none → ∀ e, exec (.canTransmit p c e) s = .next s) ∧
        (∀ x, s.canCandidate p c = some x → exec (.canTransmit p c .lostArbitration) s = .next s ∧
          (∀ time, exec (.canTransmit p c (.sent time)) s = .next ((s.canSent p c x time).canErrors p c (tec - 1) rec')) ∧
          exec (.canTransmit p c .ecc) s = .next (s.canEcc p c x) ∧
          (∀ lec e n, exec (.canTransmit p c (.error lec e n)) s = .next
            ((lecSet lec).canErrors p c (tecAfterError tec (s.canState p c == 2) lec e n) rec')))) ∧
      (s.canMode p c ≠ .normal → ∀ e, exec (.canTransmit p c e) s = .next s)) ∧
    (∀ r dom n, r < recAfterError r dom n ∧ (∀ free, 127 < r → 119 ≤ recAfterGood r free ∧ recAfterGood r free ≤ 127)) ∧
    (∀ x lec n, tecAfterError x false lec false n = x + 8 + 8 * n ∧ tecAfterError x true 3 true n = x + 8 * n) ∧
    (∀ x rec, x ≤ 255 →
      let t := s.canErrors p c x rec
      t.canState p c = (if 127 < x ∨ 127 < rec then 2 else 1) ∧ t.fld p.unit (Reg.cnStat (bitNat c)) 15 8 = x ∧
      t.fld p.unit (Reg.cnStat (bitNat c)) 7 0 = min rec 255) ∧
    (∀ x rec, 255 < x →
      (s.canErrors p c x rec).canState p c = 3 ∧ ((s.canErrors p c x rec).can p c).gwq = []) ∧
    (∀ n d time, ((s.canSent p c (.gallery n d) time).can p c).gwq = (s.can p c).gwq.filter fun e => e.1 != n)

/-! ### Field inputs and outputs -/

/-- R263, R324, R326, R328, R329, R338 to R340, R342: a sample is taken when one is due and no announced one supersedes it; it
numbers the next triple, sends it to every linked lane and notes when it was taken. A changed self-test result is shown; a
trigger's mark of the die in use is noted for its instant, ahead by at most 20 µs; a preferred die that sent no trigger for
FB_MS changes an action to the other die, marked as fallback; strands pop their own changes of state; conversions start every
1 ms or at a trigger's mark and end after 25 µs in order; a supply change is shown and raised; a commit is asked for once.
Completes: `fieldSample`, `channelSelfTest`, `triggerAnnounce`, `triggerFallback`, `cosPop`, `aiConversionStart`, `aiDone`,
`fieldSupplyChange`, `fdCommitGo`. When a conversion without AI_DONE completes is the model's choice (log entry 71), and so is
the number of the first sample (72). -/
def Obligations.FieldSamplesGoToEveryLinkedLane : Prop :=
  ∀ (s : State), s.fOn = true →
    (∀ raw, s.skipsSample s.ns = true ∨ s.sampleDue s.ns = false → exec (.fieldSample raw) s = .next s) ∧
    (∀ raw, s.skipsSample s.ns = false → s.sampleDue s.ns = true → s.commitBusy .f Reg.fdCommit = false →
      ∃ t ch, exec (.fieldSample raw) s = .next t ∧ t.field.sample = s.field.sample + 1 ∧ t.field.sampleAt = some s.ns ∧
        (t.wires.drop (t.wires.length - (s.linked .f).length)) = (s.linked .f).map (fun l => .triple l ⟨s.field.sample, ch⟩)) ∧
    (s.field.sampleAt = none → s.sampleDue s.ns = true) ∧
    (∀ x, s.field.sampleAt = some x → s.field.announced = none → (s.sampleDue s.ns = true ↔ x + 50000 ≤ s.ns)) ∧
    (∀ ch pass, (s.fieldChan ch).ok = pass → exec (.channelSelfTest ch pass) s = .next s) ∧
    (∀ ch pass, (s.fieldChan ch).ok ≠ pass → ∃ t, exec (.channelSelfTest ch pass) s = .next t ∧
      (t.fieldChan ch).ok = pass ∧ t.flag .f Reg.fdStat (24 + ch.idx) = pass ∧
      (∀ l, l ≠ ch → t.fieldChan l = s.fieldChan l)) ∧
    (∀ p, (s.port p).marks.contains 1 = false → exec (.triggerAnnounce p none) s = .next s) ∧
    (∀ p n, s.aheadNs p n = none → exec (.triggerAnnounce p (some n)) s = .next s) ∧
    (∀ p, (s.port p).marks.contains 1 = true → State.dieInUse (s.noteTrigger 0 p) 0 = p → s.field.sampleAt = none →
      ∃ t, exec (.triggerAnnounce p none) s = .next t ∧ t.field.announced = some (earlier s.field.announced p s.ns) ∧
        (t.port p).marks = (s.port p).marks.erase 1) ∧
    (∀ p n i, s.aheadNs p n = some i → s.ns < i ∧ i ≤ s.ns + 20000 ∧
      (State.dieInUse (s.noteTrigger 0 p) 0 = p → s.field.sampleAt = none →
        ∃ t, exec (.triggerAnnounce p (some n)) s = .next t ∧ t.field.announced = some (earlier s.field.announced p i) ∧
          (t.port p).trigAhead = (s.port p).trigAhead ++ [n])) ∧
    (∀ p q i x, earlier none p i = (p, i) ∧ (x ≤ i → earlier (some (q, x)) p i = (q, x)) ∧
      (i < x → earlier (some (q, x)) p i = (p, i))) ∧
    (∀ a : BitVec 2, a ≠ 0 → 2 ≤ trigSource s.field.trigSel (a.toNat - 1) → s.inFallback (a.toNat - 1) = false →
      ((s.field.prefAt[a.toNat - 1]?).getD 0 + s.fallbackNs ≤ s.ns →
        ∃ t, exec (.triggerFallback a) s = .next t ∧ t.inFallback (a.toNat - 1) = true ∧
          t.dieInUse (a.toNat - 1) = (preferred (trigSource s.field.trigSel (a.toNat - 1))).other) ∧
      (s.ns < (s.field.prefAt[a.toNat - 1]?).getD 0 + s.fallbackNs → exec (.triggerFallback a) s = .next s)) ∧
    (∀ a : BitVec 2, a = 0 ∨ trigSource s.field.trigSel (a.toNat - 1) < 2 ∨ s.inFallback (a.toNat - 1) = true →
      exec (.triggerFallback a) s = .next s) ∧
    (∀ k, s.reachesUnit (.strand k) .f Reg.fdCosPop → s.field.cos.get k = [] → exec (.cosPop k) s = .next s) ∧
    (∀ k e rest, s.reachesUnit (.strand k) .f Reg.fdCosPop → s.field.cos.get k = e :: rest → ∃ t, exec (.cosPop k) s = .next t ∧ t.field.cos.get k = rest ∧
      t.field.cosTime.get k = e.time ∧ (∀ j, j ≠ k → t.field.cos.get j = s.field.cos.get j) ∧ t.regs = s.regs) ∧
    (∀ raw, s.field.aiAt = none ∨ (∃ x, s.field.aiAt = some x ∧ x + 1000000 ≤ s.ns) →
      ∃ t, exec (.aiConversionStart none raw) s = .next t ∧ t.field.aiAt = some s.ns ∧
        t.field.aiRuns = s.field.aiRuns ++ [⟨false, s.ns, s.aiInputs false, raw⟩] ∧ t.regs = s.regs) ∧
    (∀ raw x, s.field.aiAt = some x → s.ns < x + 1000000 → exec (.aiConversionStart none raw) s = .next s) ∧
    (∀ raw p, (s.port p).marks.contains 2 = false → exec (.aiConversionStart (some p) raw) s = .next s) ∧
    (∀ raw p, (s.port p).marks.contains 2 = true → State.dieInUse (s.noteTrigger 1 p) 1 = p →
      ∃ t c, exec (.aiConversionStart (some p) raw) s = .next t ∧ t.field.aiTrigAt = s.ns ∧
        t.field.aiRuns = s.field.aiRuns ++ [c] ∧ c.byTrigger = true ∧ c.since = s.ns ∧ c.raw = raw) ∧
    (s.field.aiRuns = [] → exec .aiDone s = .next s) ∧
    (∀ c rest, s.field.aiRuns = c :: rest →
      (c.since + 25000 ≤ s.ns →
        exec .aiDone s = .next (State.completeAi { s with field := { s.field with aiRuns := rest } } c)) ∧
      (s.ns < c.since + 25000 → exec .aiDone s = .next s)) ∧
    (∀ g present, s.flag .f Reg.fdStat (20 + bitNat g) = present → exec (.fieldSupplyChange g present) s = .next s) ∧
    (∀ g present, s.flag .f Reg.fdStat (20 + bitNat g) ≠ present → ∃ t, exec (.fieldSupplyChange g present) s = .next t ∧
      t = (s.setFlag .f Reg.fdStat (20 + bitNat g) present).raiseAll .f (200 + bitNat g)) ∧
    (s.mOn = false → exec .fdCommitGo s = .next s) ∧
    (s.mOn = true → s.commitBusy .f Reg.fdCommit = true → exec .fdCommitGo s = .next (s.ignored .f Reg.fdCommit .mgmt)) ∧
    (s.mOn = true → s.commitBusy .f Reg.fdCommit = false → exec .fdCommitGo s = .next (s.setFlag .f Reg.fdCommit 1 true))

/-- R332: a latch that a beat takes to OFF becomes active at once; one it takes to ON becomes active at once when UPD of the
output's group is 0, and at the next output update instant of the die in use when UPD is 1. R331: the beat of a lane in step
sets the latches of its strand's outputs that MASK names, and no others; of a lane that left or whose link failed, none.
Completes: `doCmdBeat`, `outputUpdateInstant`. -/
def Obligations.OutputLatchesTakeOffAtOnceAndOnAtTheUpdate : Prop :=
  ∀ (l : Lane) (k : Strand) (ordinal w : Word) (p : PDie) (s : State), s.fOn = true →
    ((s.lane l).junction.get .f = true → (s.expects .f k ordinal).contains l = true → s.voterHalted .f k = false → (s.lane l).fenceF = false →
      ∃ t, exec (.doCmdBeat l k ordinal w) s = .next t ∧
        (∀ n, n < 16 → bitOf w (16 + n) = true → s.outOwner n = k →
          (bitOf w n = false → (t.pendingLatch l).getLsbD n = false ∧ (t.activeLatch l).getLsbD n = false) ∧
          (bitOf w n = true → (t.pendingLatch l).getLsbD n = true ∧ (t.activeLatch l).getLsbD n =
            (if s.waitsUpdate n = true then (s.activeLatch l).getLsbD n else true))) ∧
        (∀ n, n < 16 → bitOf w (16 + n) = false ∨ s.outOwner n ≠ k →
          (t.pendingLatch l).getLsbD n = (s.pendingLatch l).getLsbD n ∧
          (t.activeLatch l).getLsbD n = (s.activeLatch l).getLsbD n) ∧
        (∀ x, x ≠ l → t.pendingLatch x = s.pendingLatch x ∧ t.activeLatch x = s.activeLatch x)) ∧
    ((s.lane l).junction.get .f = false ∨ (s.expects .f k ordinal).contains l = false ∨ s.voterHalted .f k = true ∨ (s.lane l).fenceF = true →
      exec (.doCmdBeat l k ordinal w) s = .next s) ∧
    ((s.port p).marks.contains 3 = false → exec (.outputUpdateInstant p) s = .next s) ∧
    (∀ u, s.takeMark p 3 = some u →
      (u.port p).marks = (s.port p).marks.erase 3 ∧ u.field = s.field ∧ u.regs = s.regs ∧
      (State.dieInUse (u.noteTrigger 2 p) 2 = p →
        ∃ t, exec (.outputUpdateInstant p) s = .next t ∧ ∀ x,
          t.activeLatch x = s.activeLatch x ||| s.pendingLatch x ∧ t.pendingLatch x = s.pendingLatch x) ∧
      (State.dieInUse (u.noteTrigger 2 p) 2 ≠ p → exec (.outputUpdateInstant p) s = .next (u.noteTrigger 2 p)))

/-- R330, R335 to R337: an output is driven only by two lanes' latches, with F's enables, no latched fault and, where it is
bound, a held lease, and one path of its bridge that no pulse opens closes it. The first cause of a fault is latched, and
overcurrent and overtemperature open the bridge; only a clear by the owner strand acts. The verify delay ends in its time; an
OFF pulse, at most one a second of an output ON for 1 s, opens the bridge for its length, and is counted as passed or failed
as the terminal read back at its end. Completes: `overcurrent`, `thermal`, `groupOvercurrent`, `doFaultClear`,
`outVerifyDelayExpire`, `offPulseStart`, `offPulseEnd`. That the first cause stays until it is cleared, and that a clear
starts the verify delay again, are the model's choice (log entry 66). -/
def Obligations.OutputFaultsOpenTheBridge : Prop :=
  ∀ (n : Nat) (s : State), s.fOn = true → n < 16 →
    (s.expected n = true → 2 ≤ (Lane.list.filter fun l => (s.activeLatch l).getLsbD n).length ∧ s.outFault n = 0 ∧
      s.flag .f Reg.fdStat 0 = true ∧ (s.flag .f Reg.fdLsBind n = true → s.field.held = true)) ∧
    (s.outFault n = 0 →
      (∃ t, exec (.overcurrent n) s = .next t ∧ t.outFault n = 5 ∧ t.flag .f Reg.fdDoStat n = false) ∧
      (∃ t, exec (.thermal n) s = .next t ∧ t.outFault n = 6 ∧ t.flag .f Reg.fdDoStat n = false)) ∧
    (s.outFault n ≠ 0 → exec (.overcurrent n) s = .next s ∧ exec (.thermal n) s = .next s) ∧
    (∀ g, (∀ i, i < 8 → s.expected (8 * bitNat g + i) = false) → exec (.groupOvercurrent g) s = .next s) ∧
    (∀ g i, i < 8 → s.expected (8 * bitNat g + i) = true →
      ∃ t, exec (.groupOvercurrent g) s = .next t ∧ t.outFault (8 * bitNat g + i) = 7) ∧
    (∀ k (w : Word), s.reachesUnit (.strand k) .f Reg.fdDoClr →
      (fieldOf w 31 16 ≠ 0 → exec (.doFaultClear k w) s = .next (s.logRsvd .f Reg.fdDoClr (.strand k))) ∧
      (fieldOf w 31 16 = 0 → (∀ i, i < 16 → bitOf w i = true → s.outOwner i ≠ k ∨ s.outFault i = 0) →
        exec (.doFaultClear k w) s = .next s) ∧
      (fieldOf w 31 16 = 0 → bitOf w n = true → s.outOwner n = k →
        ∃ t, exec (.doFaultClear k w) s = .next t ∧ t.outFault n = 0)) ∧
    ((s.out n).wait = true → (s.out n).since + s.verifyNs ≤ s.ns → n < s.field.outs.length → ∃ t, exec (.outVerifyDelayExpire n) s = .next t ∧
      (t.out n).wait = false ∧ (t.out n).miss = 0 ∧ t.regs = s.regs) ∧
    ((s.out n).wait = false ∨ s.ns < (s.out n).since + s.verifyNs → exec (.outVerifyDelayExpire n) s = .next s) ∧
    (s.pulseDue n = true ↔ s.pulseEnabled n = true ∧ s.expected n = true ∧
      (∃ x, (s.out n).onFrom = some x ∧ x + 1000000000 ≤ s.ns) ∧ ∀ x, (s.out n).pulseAt = some x → x + 1000000000 ≤ s.ns) ∧
    (s.energised n = true → s.enabled n = true ∧ s.bridgeOn n = true) ∧
    (s.expected n = true → s.energised n = true) ∧
    (s.pulseDue n = true → n < s.field.outs.length →
      ∃ t, exec (.offPulseStart n) s = .next t ∧ (t.out n).pulse = some (!(s.out n).nextY) ∧
        (t.out n).nextY = !(s.out n).nextY ∧ (t.out n).pulseAt = some s.ns ∧ t.flag .f Reg.fdDoStat n = false) ∧
    (s.pulseDue n = false → exec (.offPulseStart n) s = .next s) ∧
    ((s.out n).pulse = none ∨ s.pulseOver n = false → exec (.offPulseEnd n) s = .next s) ∧
    (∀ x, (s.out n).pulse = some x → s.pulseOver n = true → s.flag .f Reg.fdDoStat (16 + n) = false →
      ∃ t, exec (.offPulseEnd n) s = .next t ∧ t.fld .f Reg.fdDoPulse 31 24 = satAdd 8 (s.fld .f Reg.fdDoPulse 31 24) 1 ∧
        t.outFault n = s.outFault n) ∧
    (∀ x, (s.out n).pulse = some x → s.pulseOver n = true → s.flag .f Reg.fdDoStat (16 + n) = true → s.outFault n = 0 →
      ∃ t, exec (.offPulseEnd n) s = .next t ∧ t.fld .f Reg.fdDoPulse 23 16 = satAdd 8 (s.fld .f Reg.fdDoPulse 23 16) 1 ∧
        t.outFault n = (if x = true then 3 else 4))

/-! ### Mailboxes and semaphores -/

/-- R361 to R368: a word joins the sender's open message, or replaces the newest word of a full direction with COLLISION set;
the doorbell closes an open message of at least one word, ORs its bits and notifies a receiver that enables one; POP removes
the head message; the receiver clears the doorbell bits it writes 1 and sets its mask; the two resets act as R366 and R367
say. The acts of one cycle are done again in the order of R368 (log entry 156 places the mask and flag acts in it). A foreign
access is only logged; a strand's to a fenced M has no effect. Completes: `mbTxword`, `mbTxdb`, `mbRxpop`, `mbRxdbClear`,
`mbRxmaskWrite`, `rxReset`, `txReset`. That each side has its own flags (log entry 67) and how commands fall into cycles (15)
are the model's choice.
R371 to R374: reads of a free lock in one cycle give it to the lowest master, one that comes as a later command of that
cycle too, and the results still on their way to the losers then hold the winner's number; a held lock is only reported. The
owner's own number, written by the owner, frees it; any other write is counted and logged. Management firmware forces a held
lock free, which is counted and logged; another's attempt is ignored and logged; a strand's access to a fenced M has no
effect. Completes: `smLockRead`, `smRelease`, `smForce`. How commands fall into cycles is the model's choice (log entry 15). -/
def Obligations.MailboxesAndLocksOfTheManagementDie : Prop :=
  (∀ (m : Master) (n : Nat) (far : Bool) (v : Word) (s : State), s.mOn = true → s.strandFenced m .m = false → n < 12 →
     let x := s.mailbox n
     (mbOwns m n far = false →
       exec (.mbTxword m n far v) s = .next (s.mbForeign m (mbKey n far 0x00)) ∧
       exec (.mbTxdb m n far v) s = .next (s.mbForeign m (mbKey n far 0x04)) ∧
       exec (.mbRxpop m n far v) s = .next (s.mbForeign m (mbKey n far 0x10)) ∧
       exec (.mbRxdbClear m n far v) s = .next (s.mbForeign m (mbKey n far 0x14)) ∧
       exec (.mbRxmaskWrite m n far v) s = .next (s.mbForeign m (mbKey n far 0x18)) ∧
       exec (.rxReset m n far) s = .next (s.mbForeign m (mbKey n far 0x20)) ∧
       exec (.txReset m n far) s = .next (s.mbForeign m (mbKey n far 0x20))) ∧
     (mbOwns m n far = true →
       exec (.mbTxword m n far v) s = .next (s.mbSend n far (.word m.number v)) ∧
       exec (.mbTxdb m n far v) s = .next (s.mbDoorbell m n far v) ∧
       (v &&& 0xFFFFFFFE = 0 → bitOf v 0 = true → exec (.mbRxpop m n far v) s = .next (s.mbTake n far .pop)) ∧
       exec (.rxReset m n far) s = .next (s.mbTake n far .rxReset) ∧
       exec (.txReset m n far) s = .next (s.mbSend n far .txReset)) ∧
     (∀ (out : Bool) (a : MbAct),
       let y := x.act (mCycle s.ns) out a
       (x.fresh (mCycle s.ns) = true → y.acts = [(out, a)] ∧ y.outBase = x.out ∧ y.innBase = x.inn ∧ y.at' = mCycle s.ns) ∧
       (x.fresh (mCycle s.ns) = false → y.acts = insertAct (out, a) x.acts ∧ y.outBase = x.outBase ∧ y.innBase = x.innBase) ∧
       (if out = true then y.out = applyActs true y.outBase y.acts ∧ y.inn = x.inn
         else y.inn = applyActs false y.innBase y.acts ∧ y.out = x.out)) ∧
     (mbOwns m n far = true → n < s.mailboxes.length → x.fresh (mCycle s.ns) = true →
       (mbHeld (x.tx far) < 16 → ∃ t, exec (.mbTxword m n far v) s = .next t ∧
         ((t.mailbox n).tx far).openWords = (x.tx far).openWords ++ [v] ∧
         ((t.mailbox n).tx far).msgs = (x.tx far).msgs ∧ (t.mailbox n).rx far = x.rx far ∧ t.regs = s.regs ∧
         (∀ j, j ≠ n → t.mailbox j = s.mailbox j)) ∧
       (16 ≤ mbHeld (x.tx far) → (x.tx far).openWords ≠ [] → ∃ t, exec (.mbTxword m n far v) s = .next t ∧
         ((t.mailbox n).tx far).openWords = (x.tx far).openWords.dropLast ++ [v] ∧
         ((t.mailbox n).tx far).openColl = true ∧ ((t.mailbox n).tx far).collTx = true ∧
         ((t.mailbox n).tx far).collRx = true ∧ ((t.mailbox n).tx far).msgs = (x.tx far).msgs) ∧
       (∃ t, exec (.mbTxdb m n far v) s = .next t ∧ ((t.mailbox n).tx far).db = (x.tx far).db ||| v ∧
         ((x.tx far).openWords = [] → ((t.mailbox n).tx far).msgs = (x.tx far).msgs) ∧
         ((x.tx far).openWords ≠ [] → ((t.mailbox n).tx far).openWords = [] ∧
           ((t.mailbox n).tx far).msgs.map (·.words) = (x.tx far).msgs.map (·.words) ++ [(x.tx far).openWords]) ∧
         (far = false → v &&& (x.tx far).mask ≠ 0 → (t.mailbox n).notices = x.notices + 1) ∧
         (t.mailbox n).rx far = x.rx far ∧ t.regs = s.regs) ∧
       (v &&& 0xFFFFFFFE = 0 → bitOf v 0 = true → ∃ t, exec (.mbRxpop m n far v) s = .next t ∧
         ((t.mailbox n).rx far).msgs = (x.rx far).msgs.tail ∧ ((t.mailbox n).rx far).openWords = (x.rx far).openWords ∧
         (t.mailbox n).tx far = x.tx far) ∧
       (∃ t, exec (.rxReset m n far) s = .next t ∧ ((t.mailbox n).rx far).msgs = [] ∧ ((t.mailbox n).rx far).openWords = [] ∧
         ((t.mailbox n).rx far).db = 0 ∧ ((t.mailbox n).rx far).mask = (x.rx far).mask ∧
         ((t.mailbox n).rx far).flushTx = true ∧ ((t.mailbox n).rx far).flushRx = true) ∧
       (∃ t, exec (.txReset m n far) s = .next t ∧ ((t.mailbox n).tx far).openWords = [] ∧
         ((t.mailbox n).tx far).epoch = (x.tx far).epoch + 1 ∧ ((t.mailbox n).tx far).msgs = (x.tx far).msgs) ∧
       (∃ t, exec (.mbRxdbClear m n far v) s = .next t ∧ ((t.mailbox n).rx far).db = (x.rx far).db &&& ~~~v ∧
         ((t.mailbox n).rx far).msgs = (x.rx far).msgs) ∧
       (∃ t, exec (.mbRxmaskWrite m n far v) s = .next t ∧ ((t.mailbox n).rx far).mask = v ∧
         ((t.mailbox n).rx far).db = (x.rx far).db))) ∧
  (∀ (i : Nat) (m : Master) (s : State), s.mOn = true → s.strandFenced m .m = false → i < 64 →
     (∀ ms : List Master, let rs := ms.filter fun x => !s.strandFenced x .m
       (rs ≠ [] → s.lockOwner i = 0 ∨ s.lockOpen i = true ∧ lowestMaster rs < s.lockOwner i →
         ∃ t, exec (.smLockRead i ms) s = .next t ∧ t.lockOwner i = lowestMaster rs ∧ t.lockOpen i = true ∧
           (∀ j, j ≠ i → j < 64 → t.lockOwner j = s.lockOwner j) ∧ t.log = s.log) ∧
       (rs = [] ∨ s.lockOwner i ≠ 0 ∧ (s.lockOpen i = false ∨ s.lockOwner i ≤ lowestMaster rs) →
         exec (.smLockRead i ms) s = .next s)) ∧
     (s.lockOpen i = true ↔ ∃ x ∈ s.lockTaken, x.lock = i ∧ x.cycle = mCycle s.ns) ∧
     (∀ (b : Beat) (w : Nat) (l : Lane), (s.relock b i w).vcQueue l .m true .response =
       (s.vcQueue l .m true .response).map (Wire.relock b i (BitVec.ofNat 32 w))) ∧
     (∀ ms : List Master, ms ≠ [] → (∃ x ∈ ms, lowestMaster ms = x.number) ∧ ∀ x ∈ ms, lowestMaster ms ≤ x.number) ∧
     (s.lockOwner i = m.number → ∃ t, exec (.smRelease m i (BitVec.ofNat 32 m.number)) s = .next t ∧ t.lockOwner i = 0 ∧
       t.fld .m Reg.smStat 7 0 = s.fld .m Reg.smStat 7 0 ∧ t.log = s.log) ∧
     (∀ v : Word, v &&& 0xFFFFFFF0 = 0 → s.lockOwner i ≠ m.number ∨ v.toNat ≠ m.number →
       ∃ t, exec (.smRelease m i v) s = .next t ∧ t.lockOwner i = s.lockOwner i ∧
         t.fld .m Reg.smStat 7 0 = satAdd 8 (s.fld .m Reg.smStat 7 0) 1 ∧
         (s.floodCount 6 < 64 → (t.log.entries.head?.map fun e => e.code) = some .smBadRelease)) ∧
     (m ≠ .mgmt → ∀ v, exec (.smForce m v) s = .next (s.ignored .m Reg.smForce m)) ∧
     (∀ x v, s.strandFenced x .m = true → exec (.smForce x v) s = .next s ∧ exec (.smRelease x i v) s = .next s) ∧
     (s.lockOwner i = 0 → exec (.smForce .mgmt (BitVec.ofNat 32 i)) s = .next s) ∧
     (s.lockOwner i ≠ 0 → ∃ t, exec (.smForce .mgmt (BitVec.ofNat 32 i)) s = .next t ∧ t.lockOwner i = 0 ∧
       t.fld .m Reg.smStat 15 8 = satAdd 8 (s.fld .m Reg.smStat 15 8) 1 ∧
       (s.floodCount 6 < 64 → (t.log.entries.head?.map fun e => (e.code, e.arg)) = some (.smForced, [i, s.lockOwner i]))))

/-! ### Dripstone -/

/-- R410 to R412, R414, R415, R417: a reading of which the lowest replica has too little slack raises the voltage by 5 mV while
it can, and one with more than enough lowers it; the limit falls by one at the fourth such reading at full voltage, and rises by
one when the voltage has been low enough for 60 s; the other lanes are told. A lane takes a limit, a plan or a ceiling as it receives it,
but nothing of an M that it has fenced, and its step is never above what it holds. A lower step acts at once, a higher one first
raises the voltage by 40 mV and acts 20 µs later (one that waits gives way to a new target: log entries 77 and 140, the model's
choice). Completes: `governorReading`, `govLimitRaise`, `govLimitReceive`, `stepRaise`.
R415, R416, R418 to R421: a strand's own write of its ceiling is taken, or clamped to the lowest limit with CLAMPED set, DS_CLAMP
sent to the strand, a log entry and a count; another's write is ignored and logged, and a strand's to a fenced M has no effect;
the value goes to every live lane over its sideband. The planner sets for each lane the highest step whose predicted voltage is
at most 930 mV, keeps the day's record of every unit and closes it with its margin, 0 for a lane that has nothing left; what a
record off its reference point normalises to is open (log entry 6). Completes: `dsCeilWrite`,
`dsPlanWrite`, `plannerReplan`, `plannerSample`, `marginDailyRecord`. -/
def Obligations.GovernorsAndCeilingsOfDripstone : Prop :=
  (∀ (l : Lane) (s : State),
     let g := s.gov l
     (∀ r, s.retired l = true ∨ s.corePowered l = false → exec (.governorReading l r) s = .next s) ∧
     (∀ r : GovReading, (∀ x ∈ r.replicas, slackOf r ≤ x.toNat) ∧ slackOf r ≤ 255 ∧
       (slackOf r = 255 ∨ ∃ x ∈ r.replicas, slackOf r = x.toNat)) ∧
     (s.retired l = false → s.corePowered l = true →
       (∀ r : GovReading, slackOf r < 16 → g.volt < 50 → s.stepOf l = g.step →
         ∃ t, exec (.governorReading l r) s = .next t ∧ (t.gov l).volt = g.volt + 1 ∧ (t.gov l).slack = slackOf r ∧
           (t.gov l).temp = tempOf r ∧ (t.gov l).limits = g.limits ∧ (∀ x, x ≠ l → t.gov x = s.gov x) ∧ t.wires = s.wires) ∧
       (∀ r : GovReading, 32 < slackOf r → 0 < g.volt → s.stepOf l = g.step →
         ∃ t, exec (.governorReading l r) s = .next t ∧ (t.gov l).volt = g.volt - 1 ∧ (t.gov l).limits = g.limits) ∧
       (∀ r : GovReading, slackOf r < 16 → 50 ≤ g.volt → 3 ≤ g.low → 0 < g.limits.get l →
         ∃ t, exec (.governorReading l r) s = .next t ∧ (t.gov l).limits.get l = g.limits.get l - 1 ∧
           t.wires = s.wires ++ (s.peers l).map fun x => .pace x (.limit l (g.limits.get l - 1))) ∧
       (∀ r : GovReading, slackOf r < 16 → 50 ≤ g.volt → g.low < 3 → s.stepOf l = g.step →
         ∃ t, exec (.governorReading l r) s = .next t ∧ (t.gov l).limits = g.limits ∧ (t.gov l).volt = g.volt ∧
           (t.gov l).low = g.low + 1)) ∧
     (∀ x, s.retired l = false → g.calmSince = some x → g.limits.get l < 8 →
       (x + 60000000000 ≤ s.ns → ∃ t, exec (.govLimitRaise l) s = .next t ∧ (t.gov l).limits.get l = g.limits.get l + 1 ∧
         t.wires = s.wires ++ (s.peers l).map fun x => .pace x (.limit l (g.limits.get l + 1))) ∧
       (s.ns < x + 60000000000 → exec (.govLimitRaise l) s = .next s)) ∧
     (s.retired l = true ∨ g.calmSince = none ∨ 8 ≤ g.limits.get l → exec (.govLimitRaise l) s = .next s) ∧
     (∀ v : PaceValue, s.retired l = false → paceFromM v = false ∨ (s.lane l).fenceM = false →
       ∃ t, exec (.govLimitReceive l v) s = .next t ∧ t.wires = eraseFirst (.pace l v) s.wires ∧ (t.gov l).step ≤ t.stepOf l ∧
         (∀ x n, v = .limit x n → (t.gov l).limits = g.limits.set x (min 8 n) ∧ (t.gov l).plan = g.plan ∧
           (t.gov l).ceils = g.ceils) ∧
         (∀ x n, v = .plan x n → (t.gov l).plan = g.plan.set x (min 8 n) ∧ (t.gov l).limits = g.limits ∧
           (t.gov l).ceils = g.ceils) ∧
         (∀ k n, v = .ceiling k n → (t.gov l).ceils = g.ceils.set k (min 8 n) ∧ (t.gov l).limits = g.limits ∧
           (t.gov l).plan = g.plan) ∧
         ∀ x, x ≠ l → t.gov x = s.gov x) ∧
     (∀ v : PaceValue, s.retired l = true ∨ paceFromM v = true ∧ (s.lane l).fenceM = true →
       exec (.govLimitReceive l v) s = .next { s with wires := eraseFirst (.pace l v) s.wires }) ∧
     (g.raising = none → exec (.stepRaise l) s = .next s) ∧
     (∀ n since, g.raising = some (n, since) → s.retired l = false →
       (since + 20000 ≤ s.ns → ∃ t, exec (.stepRaise l) s = .next t ∧ (t.gov l).step = n ∧
         (t.gov l).raising = none ∧ (t.gov l).volt = g.volt) ∧
       (s.ns < since + 20000 → exec (.stepRaise l) s = .next s)) ∧
     (s.retired l = false →
       (s.stepOf l ≤ g.step → ((s.reStep l).gov l).step = s.stepOf l ∧ ((s.reStep l).gov l).raising = none ∧
         ((s.reStep l).gov l).volt = g.volt) ∧
       (g.step < s.stepOf l → g.raising.map (·.1) ≠ some (s.stepOf l) → ((s.reStep l).gov l).step = g.step ∧
         ((s.reStep l).gov l).raising = some (s.stepOf l, s.ns) ∧ ((s.reStep l).gov l).volt = min 50 (g.volt + 8)))) ∧
  (∀ (s : State), s.mOn = true →
     (∀ k (w : Master) v, s.strandFenced w .m = true → exec (.dsCeilWrite k w v) s = .next s) ∧
     (∀ k (w : Master) v, w ≠ .strand k → s.strandFenced w .m = false → exec (.dsCeilWrite k w v) s = .next (s.ignored .m (Reg.dsCeil k.idx) w)) ∧
     (∀ k (v : Word), s.flag .m Reg.vtFence 0 = false → v &&& 0xFFFFFEF0 = 0 → bitOf v 8 = s.flag .m (Reg.dsCeil k.idx) 8 → ceilOf v ≤ s.lowestLimit →
       exec (.dsCeilWrite k (.strand k) v) s = .next (s.setCeil k (ceilOf v) false)) ∧
     (∀ k (v : Word), s.flag .m Reg.vtFence 0 = false → v &&& 0xFFFFFEF0 = 0 → bitOf v 8 = s.flag .m (Reg.dsCeil k.idx) 8 → s.lowestLimit < ceilOf v →
       ∃ t, exec (.dsCeilWrite k (.strand k) v) s = .next t ∧ t.fld .m (Reg.dsCeil k.idx) 7 0 = s.lowestLimit ∧
         t.flag .m (Reg.dsCeil k.idx) 8 = true ∧
         t.fld .m Reg.dsStat 15 8 = satAdd 8 (s.fld .m Reg.dsStat 15 8) 1 ∧
         (∀ l ∈ s.linked .m, ∃ o, Wire.occurrence l .m k o ∈ t.vcQueue l .m true .posted ∧ o.vec = 216) ∧
         (s.floodCount 6 < 64 → (t.log.entries.head?.map fun e => (e.code, e.strand, e.arg)) =
           some (.policyClamped, some k, [ceilOf v, s.lowestLimit]))) ∧
     (∀ k n b, n ≤ 8 → (s.setCeil k n b).fld .m (Reg.dsCeil k.idx) 7 0 = n ∧
       (s.setCeil k n b).flag .m (Reg.dsCeil k.idx) 8 = b ∧ (s.setCeil k n b).governors = s.governors ∧
       (s.setCeil k n b).wires = s.wires ++ s.liveLanes.map fun l => .pace l (.ceiling k n)) ∧
     (∀ l (v : Word), v &&& 0xFFFFFFF0 = 0 → exec (.dsPlanWrite l v) s = .next (s.setPlan l (ceilOf v))) ∧
     (∀ l n, n ≤ 8 → (s.setPlan l n).reg .m (Reg.dsPlan l.idx) = BitVec.ofNat 32 n ∧
       (s.setPlan l n).governors = s.governors ∧
       (s.setPlan l n).wires = s.wires ++ s.liveLanes.map fun x => .pace x (.plan l n)) ∧
     (∀ l (v : Word), v &&& 0xFFFFFFF0 ≠ 0 → exec (.dsPlanWrite l v) s = .next (s.logRsvd .m (Reg.dsPlan l.idx) .mgmt)) ∧
     (∀ mv : Tri (List Nat), let steps := fun l => highestStep (mv.get l) fun v => decide (v ≤ 930)
       (∀ l i, i ≤ 8 → (∃ v, (mv.get l)[i]? = some v ∧ v ≤ 930) → i ≤ steps l) ∧
       (∀ l, steps l ≤ 8 ∧ (steps l = 0 ∨ ∃ v, (mv.get l)[steps l]? = some v ∧ v ≤ 930)) ∧
       ∃ t, exec (.plannerReplan mv) s = .next t ∧
       (∀ l, t.reg .m (Reg.dsPlan l.idx) = BitVec.ofNat 32 (steps l)) ∧
       t.wires = s.wires ++ Lane.list.flatMap fun l => s.liveLanes.map fun x => .pace x (.plan l (steps l))) ∧
     (∀ (u first last : Nat), marginOf u first last true = some 0 ∧
       (u < 3 → first < 950 → last ≤ first → marginOf u first last false = some 100) ∧
       (u < 3 → first < 950 → 950 ≤ last → marginOf u first last false = some 0)) ∧
     (∀ lanes ports, ∃ t, exec (.plannerSample lanes ports) s = .next t ∧
       (5 ≤ s.ages.length → (∀ l, s.retired l = false → (t.age l.idx).day.isSome = true) ∧
         ∀ p : PDie, (t.age (3 + p.idx)).day.isSome = true) ∧ t.regs = s.regs ∧ t.lanes = s.lanes) ∧
     (∃ t, exec .marginDailyRecord s = .next t ∧ (5 ≤ s.ages.length →
       (∀ l, s.retired l = false → ∀ v, (s.age l.idx).day = some v → (t.age l.idx).day = none ∧
         (t.age l.idx).records = (s.age l.idx).records ++ [v] ∧
         ∀ mg, marginOf l.idx ((s.age l.idx).records.headD v) v (s.age l.idx).spent = some mg → mg ≤ 100 →
           t.fld .m (Reg.dsMargin l.idx) 6 0 = mg) ∧
       ∀ p : PDie, ∀ v, (s.age (3 + p.idx)).day = some v → (t.age (3 + p.idx)).records = (s.age (3 + p.idx)).records ++ [v])))

/-! ### Triggers, captures, timestamps -/

/-- R261, R263 to R266: a trigger that is due moves its compare value past the network time by whole periods, or is disabled
when it has none, gives its action to F, and is left alone while it is not due; a capture keeps the first edge it selects until
it is cleared and marks an overrun; the owner strand alone takes entries off a timestamp queue. A trigger register is written by
its writer only. Completes: `triggerFire`, `triggerWrite`, `captureEdge`, `tsqPop`. -/
def Obligations.TriggersCapturesAndTimestampsOfAPort : Prop :=
  ∀ (m : Master) (p : PDie) (s : State), s.pdOn p = true →
    (∀ n, s.trigDue p n = false ∨ 16 ≤ n → exec (.triggerFire p n) s = .next s) ∧
    (∀ n, n < 16 → s.trigDue p n = true →
      (s.trigPeriod p n = 0 → ∃ t, exec (.triggerFire p n) s = .next t ∧ t.flag p.unit (Reg.tbTrigCtl n) 31 = false ∧
        t.base = s.base) ∧
      (∀ per, s.trigPeriod p n = per → 0 < per → ∃ t, exec (.triggerFire p n) s = .next t ∧
        t.reg64 p.unit (Reg.tbTrigCmpLo n) = BitVec.ofNat 64 ((s.reg64 p.unit (Reg.tbTrigCmpLo n)).toNat +
          (((s.port p).net.time.toNat - (s.reg64 p.unit (Reg.tbTrigCmpLo n)).toNat) / per + 1) * per) ∧
        t.flag p.unit (Reg.tbTrigCtl n) 31 = true ∧ t.base = s.base) ∧
      (s.fld p.unit (Reg.tbTrigCtl n) 27 26 ≠ 0 → s.fFitted = true → (s.port p).trigAhead.contains n = false →
        ∃ t, exec (.triggerFire p n) s = .next t ∧
          (t.port p).marks = (s.port p).marks ++ [s.fld p.unit (Reg.tbTrigCtl n) 27 26])) ∧
    (∀ w : RegWrite, s.reachesUnit m p.unit w.off → w.off < Reg.tbTrigCmpLo 0 ∨ Reg.tbCapLo 8 ≤ w.off →
      exec (.triggerWrite m p w) s = .next s) ∧
    (∀ w : RegWrite, Reg.tbTrigCmpLo 0 ≤ w.off → w.off < Reg.tbCapLo 8 → w.size ≤ 8 →
      s.reachesUnit m p.unit w.off → exec (.triggerWrite m p w) s = .next (s.unitWriteAll m p w.off w.size w.data)) ∧
    (∀ off d is mask data wide, s.unitWriter m p off = false →
      s.unitWrite m p off d is mask data wide = s.ignored p.unit off m) ∧
    (∀ c (e : Edge), c < 8 → s.flag p.unit (Reg.tbCapCtl c) 31 = true → s.fld p.unit (Reg.tbCapCtl c) 5 0 = e.src →
      (s.fld p.unit (Reg.tbCapCtl c) 30 29 = 0 ∧ e.rising = true ∨ s.fld p.unit (Reg.tbCapCtl c) 30 29 = 1 ∧ e.rising = false ∨
        2 ≤ s.fld p.unit (Reg.tbCapCtl c) 30 29) → e.src < 36 → s.fFitted = true ∨ 32 ≤ e.src →
      (s.flag p.unit (Reg.tbCapStat c) 0 = false → ∃ t, exec (.captureEdge p c e) s = .next t ∧
        t.reg64 p.unit (Reg.tbCapLo c) = e.time ∧ t.flag p.unit (Reg.tbCapStat c) 0 = true) ∧
      (s.flag p.unit (Reg.tbCapStat c) 0 = true → ∃ t, exec (.captureEdge p c e) s = .next t ∧
        t.flag p.unit (Reg.tbCapStat c) 1 = true ∧ t.reg64 p.unit (Reg.tbCapLo c) = s.reg64 p.unit (Reg.tbCapLo c) ∧
        t.wires = s.wires ∧ t.links = s.links)) ∧
    (∀ c e, s.flag p.unit (Reg.tbCapCtl c) 31 = false → exec (.captureEdge p c e) s = .next s) ∧
    (∀ q, s.reachesUnit m p.unit (Reg.pdTsqPop q.idx) → m ≠ .strand (s.tsqOwner p q) ∨ (s.port p).tsq.get q = [] → exec (.tsqPop m p q) s = .next s) ∧
    (∀ q e rest, s.reachesUnit m p.unit (Reg.pdTsqPop q.idx) → m = .strand (s.tsqOwner p q) → (s.port p).tsq.get q = e :: rest →
      ∃ t, exec (.tsqPop m p q) s = .next t ∧ (t.port p).tsq.get q = rest ∧
        t.reg64 p.unit (Reg.pdTsqTimeLo q.idx) = e.time ∧ (t.port p).tsq.get q.other = (s.port p).tsq.get q.other)

/-! ### Register accesses -/

/-- R6 to R8, R445, R446: a write acts on each bit of a register by the access code of its field, on enabled bytes only. R343:
management firmware sets `FD_TRIG_SEL`, and a strand's write there is ignored and logged. A strand's access to its own page
through these commands is the store or load of that page: it enters the signature and counts as an instruction (R86);
management firmware reaches a lane's registers from 0x80000 up alone (R38). COUNT of `MG_DISAGREE` clears as it is read, and
only it. R320: the owner pops its write-error queue. A lane marks the network time of a port die as lost when it has not heard
it for 10 µs. A strand's access to an absent unit is reported, one to a unit that cannot be reached has no effect, and neither
a strand nor management writes another's strand page. Completes: `genericRegisterWrite`, `rcRead`, `werrPop`,
`networkTimeTimeout`. That a fenced lane refuses management's writes without an entry is the model's choice (log entry 89).
R6 to R8, R123: a command of a strand to a unit that the order code lacks changes nothing but the log, where M reports the
unit at the first one; a command of a strand to a die that it fences, or to a management die that is not running, has no effect.
What management firmware sends passes the fence of a strand. -/
def Obligations.RegistersAreWrittenByTheirAccessCodes : Prop :=
  ((∀ (d : RegDesc) (old mask data : Word) (n : Nat), n < 32 →
     (storeWord d old mask data).getLsbD n =
       (if (accMask d.fields [.w1s]).getLsbD n && mask.getLsbD n && data.getLsbD n then true
       else if (accMask d.fields [.w1c]).getLsbD n && mask.getLsbD n && data.getLsbD n then false
       else if (accMask d.fields [.rw, .stg]).getLsbD n && mask.getLsbD n then data.getLsbD n
       else old.getLsbD n)) ∧
   (∀ (m : Master) (u : RUnit) (s : State), unitLane u = none →
     (∀ w : RegWrite, w.size ≤ 8 →
       let t := s.noteAbsentWords m u w.off w.size
       (t.reachable m u true = true → t.unitFenced m u = false →
         exec (.genericRegisterWrite m u w) s = .next (t.unitStore m u w.off w.size w.data)) ∧
       (t.reachable m u true = false ∨ t.unitFenced m u = true → exec (.genericRegisterWrite m u w) s = .next t)) ∧
     (∀ off size, size ≤ 8 →
       let t := s.noteAbsentWords m u off size
       (t.reachable m u false = true → t.unitFenced m u = false →
         exec (.rcRead m u off size) s = .next (t.unitLoad m u off size).1) ∧
       (t.reachable m u false = false ∨ t.unitFenced m u = true → exec (.rcRead m u off size) s = .next t)) ∧
     (∀ off size, masterStrand m = none ∨ (∀ x ∈ wordsOf off size 0, s.unitAbsent u x.1 = false) →
       s.noteAbsentWords m u off size = s) ∧
     (∀ off, off % 4 = 0 → s.noteAbsentWords m u off 4 =
       (if s.strandAbsent m u off = true then s.noteAbsentUnit u off else s))) ∧
   (∀ (l : Lane) (s : State),
     (∀ (k : Strand) (w : RegWrite), w.size ≤ 8 →
       let a := 0x200000000 + w.off
       let bs := leBytes w.size w.data.toNat
       (s.canExecute l k = false ∨ 0x90000 ≤ w.off →
         exec (.genericRegisterWrite (.strand k) l.unit w) s = .next s ∧
         exec (.rcRead (.strand k) l.unit w.off w.size) s = .next s) ∧
       (s.canExecute l k = true → w.off < 0x90000 →
         exec (.genericRegisterWrite (.strand k) l.unit w) s = .next ((s.doStore l k a bs).endStep l k) ∧
         exec (.rcRead (.strand k) l.unit w.off w.size) s = .next ((s.doLoad l k a w.size).endStep l k)) ∧
       (s.allowed l k a bs.length .write = true → s.doStore l k a bs =
         ((s.pageStore l k (w.off % 0x10000) bs).foldSig l k sigPage a bs).retire l k) ∧
       (s.allowed l k a bs.length .write = false → s.doStore l k a bs = s)) ∧
     (∀ w : RegWrite, w.size ≤ 8 →
       (w.off < 0x80000 → exec (.genericRegisterWrite .mgmt l.unit w) s = .next s ∧
         exec (.rcRead .mgmt l.unit w.off w.size) s = .next s) ∧
       (0x80000 ≤ w.off → s.consumers.m.running = true →
         exec (.rcRead .mgmt l.unit w.off w.size) s = .next (s.unitLoad .mgmt l.unit w.off w.size).1 ∧
         ((s.lane l).fenceM = false →
           exec (.genericRegisterWrite .mgmt l.unit w) s = .next (s.unitStore .mgmt l.unit w.off w.size w.data)) ∧
         ((s.lane l).fenceM = true → exec (.genericRegisterWrite .mgmt l.unit w) s = .next s)))) ∧
   (∀ (v : Word) (s : State), s.fOn = true → s.consumers.m.running = true → s.fFitted = true → v &&& 0xFFFF00C0 = 0 →
     (∃ t, exec (.genericRegisterWrite .mgmt .f ⟨Reg.fdTrigSel, 4, v.setWidth 64⟩) s = .next t ∧ t.reg .f Reg.fdTrigSel = (s.reg .f Reg.fdTrigSel &&& 0xFFFF00C0) ||| v ∧
       (∀ u off, u ≠ .f ∨ off ≠ Reg.fdTrigSel → t.reg u off = s.reg u off) ∧ t.lanes = s.lanes ∧ t.log = s.log) ∧
     (∀ k, s.unitFenced (.strand k) .f = false → exec (.genericRegisterWrite (.strand k) .f ⟨Reg.fdTrigSel, 4, v.setWidth 64⟩) s =
       .next (s.ignored .f Reg.fdTrigSel (.strand k)))) ∧
   (∀ (m : Master) (s : State), s.consumers.m.running = true →
     s.unitFenced m .m = false → ∃ t, exec (.rcRead m .m Reg.mgDisagree 4) s = .next t ∧ t.fld .m Reg.mgDisagree 7 0 = 0 ∧
       t.fld .m Reg.mgDisagree 31 8 = s.fld .m Reg.mgDisagree 31 8 ∧ t.lanes = s.lanes) ∧
   (∀ (m : Master) (d : Die) (q : Nat) (s : State), (s.consumer d).running = true → s.dieFitted d = true → q < 5 →
     s.reachesUnit m d.unit (Reg.pdWerrPop q) →
     (s.werrQueue d q = [] → exec (.werrPop m d q) s = .next s) ∧
     (∀ r rest, s.werrQueue d q = r :: rest → (∃ k, m = .strand k ∧ k.idx = q) ∨ m = .mgmt ∧ q = 4 →
       ∃ t, exec (.werrPop m d q) s = .next t ∧ t.werrQueue d q = rest ∧
         t.reg d.unit (Reg.pdWerrAddrLo q) = werrAddrLo r ∧ t.reg d.unit (Reg.pdWerrAddrHi q) = werrAddrHi r ∧
         (∀ j, j ≠ q → j < 5 → t.werrQueue d j = s.werrQueue d j)) ∧
     (∀ k, m = .strand k → k.idx ≠ q → exec (.werrPop m d q) s = .next s)) ∧
   (∀ (l : Lane) (p : PDie) (s : State),
     (((s.lane l).net.get p).stat ≠ 3 → ((s.lane l).net.get p).seen + 10000 ≤ s.ns →
       ∃ t, exec (.networkTimeTimeout l p) s = .next t ∧ ((t.lane l).net.get p).stat = 2 ∧
         ((t.lane l).net.get p).time = ((s.lane l).net.get p).time ∧ (∀ x, x ≠ l → t.lane x = s.lane x) ∧ t.regs = s.regs) ∧
     (((s.lane l).net.get p).stat = 3 ∨ s.ns < ((s.lane l).net.get p).seen + 10000 →
       exec (.networkTimeTimeout l p) s = .next s))) ∧
  ((∀ (k : Strand) (p : PDie) (c : Bool) (ch : Nat) (v : Word) (s : State), s.canFitted = false →
     exec (.canModeWrite (.strand k) p c v) s = .next (s.logAbsent 1) ∧
     exec (.recover (.strand k) p c) s = .next (s.logAbsent 1) ∧
     (16 ≤ ch → ch < 20 →
       exec (.dmaEnable (.strand k) p ch) s = .next (s.logAbsent 1) ∧
       exec (.dmaDisable (.strand k) p ch) s = .next (s.logAbsent 1) ∧
       exec (.resume (.strand k) p ch) s = .next (s.logAbsent 1) ∧
       exec (.dmaDoorbell (.strand k) p ch v) s = .next (s.logAbsent 1))) ∧
   (∀ (k : Strand) (v : Word) (s : State), s.fFitted = false →
     exec (.cosPop k) s = .next (s.logAbsent 0) ∧
     exec (.doFaultClear k v) s = .next (s.logAbsent 0) ∧
     ∀ q, q < 5 → exec (.werrPop (.strand k) .f q) s = .next (s.logAbsent 0)) ∧
   (∀ (n : Nat) (s : State),
     (s.consumers.m.running = false ∨ n ∈ s.absentLogged → s.logAbsent n = s) ∧
     (s.consumers.m.running = true → n ∉ s.absentLogged →
       n ∈ (s.logAbsent n).absentLogged ∧ (s.logAbsent n).lanes = s.lanes ∧ (s.logAbsent n).ports = s.ports ∧
       (s.floodCount 6 < 64 → ((s.logAbsent n).log.entries.head?.map fun e => (e.code, e.src, e.arg)) =
         some (.capsAbsent, 6, [n])))) ∧
   (∀ (k : Strand) (p : PDie) (c : Bool) (q : Port) (n ch : Nat) (v lo : Word) (s : State),
     s.flag p.unit Reg.vtFence 0 = true →
     exec (.modeRequest p k v) s = .next s ∧ exec (.armLease p k) s = .next s ∧ exec (.disarm p k) s = .next s ∧
     exec (.release p k) s = .next s ∧ exec (.rrRequest k p lo v) s = .next s ∧ exec (.rrFree k p v) s = .next s ∧
     exec (.tsqPop (.strand k) p q) s = .next s ∧ exec (.gwSwPub k p v) s = .next s ∧
     exec (.werrPop (.strand k) (Die.ofPDie p) n) s = .next s ∧
     (s.canFitted = true →
       exec (.canModeWrite (.strand k) p c v) s = .next s ∧ exec (.recover (.strand k) p c) s = .next s ∧
       exec (.dmaEnable (.strand k) p ch) s = .next s ∧ exec (.dmaDisable (.strand k) p ch) s = .next s ∧
       exec (.resume (.strand k) p ch) s = .next s ∧ exec (.dmaDoorbell (.strand k) p ch v) s = .next s ∧
       ∀ w, exec (.gwSwDataWrite k p w) s = .next s ∧ exec (.triggerWrite (.strand k) p w) s = .next s)) ∧
   (∀ (k : Strand) (n : Nat) (v : Word) (s : State), s.fFitted = true → s.flag .f Reg.vtFence 0 = true →
     exec (.cosPop k) s = .next s ∧ exec (.doFaultClear k v) s = .next s ∧ exec (.werrPop (.strand k) .f n) s = .next s) ∧
   (∀ (k x : Strand) (n : Nat) (far : Bool) (v : Word) (s : State), s.flag .m Reg.vtFence 0 = true ∨ s.mOn = false →
     exec (.mbTxword (.strand k) n far v) s = .next s ∧ exec (.mbTxdb (.strand k) n far v) s = .next s ∧
     exec (.mbRxpop (.strand k) n far v) s = .next s ∧ exec (.mbRxdbClear (.strand k) n far v) s = .next s ∧
     exec (.mbRxmaskWrite (.strand k) n far v) s = .next s ∧ exec (.smRelease (.strand k) n v) s = .next s ∧
     exec (.smForce (.strand k) v) s = .next s ∧ exec (.veto k) s = .next s ∧ exec (.confirm k) s = .next s ∧
     exec (.dsCeilWrite x (.strand k) v) s = .next s) ∧
   (∀ (u : RUnit) (d : Die) (off : Nat) (s : State), unitDie u = some d → s.reachesUnit .mgmt u off))

/-! ### Views -/

/-- R408: a change of a unit's pair of views into a disagreement is shown in `MG_DISAGREE` with the unit and both views,
counted, sent to every strand as DISAGREE (vector 218) and logged. A pair that stays as it was, or that agrees, raises
nothing. -/
def Obligations.EachDisagreementOfViewsIsRaisedOnce : Prop :=
  ∀ (s : State) (i : Nat) (v : UnitView), s.consumers.m.running = true →
    (v = s.viewOf i ∨ viewsAgree v = true → s.setView i v = { s with views := s.views.set i v }) ∧
    (v ≠ s.viewOf i → viewsAgree v = false → i < s.views.length → i ≤ 8 → v.mg ≤ 2 →
      let t := s.setView i v
      t.viewOf i = v ∧ t.flag .m Reg.mgDisagree 31 = true ∧ t.fld .m Reg.mgDisagree 15 12 = i ∧
      t.fld .m Reg.mgDisagree 11 10 = v.mg ∧ t.fld .m Reg.mgDisagree 9 8 = bitNat v.out ∧
      t.fld .m Reg.mgDisagree 7 0 = satAdd 8 (s.fld .m Reg.mgDisagree 7 0) 1 ∧
      (∀ k : Strand, ∀ l ∈ s.linked .m, ∃ o, Wire.occurrence l .m k o ∈ t.vcQueue l .m true .posted ∧ o.vec = 218) ∧
      (s.floodCount 6 < 64 → (t.log.entries.head?.map fun e => (e.code, e.src, e.arg)) =
        some (.mgDisagree, 6, [i, v.mg, bitNat v.out])) ∧
      (∀ u off, u ≠ .m ∨ off ≠ Reg.mgDisagree → t.reg u off = s.reg u off) ∧ t.lanes = s.lanes)
end

