-- ==== Sys2Proof/Laws/Base.lean ====
section
/-! SUPPORT. What keeps `State.base` (the order code, the commands that wait, the bytes of the lanes): the elementary
updates. -/

namespace Sys2Proof.Machine

@[simp] theorem base_ite (c : Prop) [Decidable c] (x y : State) :
    (if c then x else y).base = if c then x.base else y.base := by split <;> rfl

/-- A fold keeps the base when each of its steps does. -/
theorem base_foldl {β : Type} (g : State → β → State) (hg : ∀ t x, (g t x).base = t.base) (xs : List β) (s : State) :
    (xs.foldl g s).base = s.base := by
  induction xs generalizing s with
  | nil => rfl
  | cons x xs ih => rw [List.foldl_cons, ih, hg]

/-- The same for a fold that carries a value beside the state. -/
theorem base_foldl_fst {α β : Type} (g : State × α → β → State × α) (hg : ∀ p x, (g p x).1.base = p.1.base)
    (xs : List β) (p : State × α) : (xs.foldl g p).1.base = p.1.base := by
  induction xs generalizing p with
  | nil => rfl
  | cons x xs ih => rw [List.foldl_cons, ih, hg]

theorem base_of_pair {α : Type} {x : State × α} {t : State} {v : α} (h : x = (t, v)) : t.base = x.1.base := by rw [h]

/-- A record update that touches neither the order code, the queue nor the lanes. -/
theorem base_of_eq {s t : State} (h1 : t.variant = s.variant) (h2 : t.pending = s.pending) (h3 : t.lanes = s.lanes) :
    t.base = s.base := by simp only [State.base, h1, h2, h3]

/-- The same, as a rewriting rule. -/
theorem base_mk (x : State) (ns' : Nat) (regs' : Seven RegFile) (heldLo' : List (RUnit × Nat × Word)) (voters' : Four
    (Quad Voter)) (consumers' : Four Consumer) (ports' : Duo PortDie) (links' : Tri (Four JLink)) (wires' : List Wire) (released' : Quad Bool) (tcfg'
    : Quad (Option TcfgCommit)) (rejoinQueue' : Quad (Option Lane)) (rejoin' : Option RejoinRun) (changes' : Quad (List
    Change)) (echoNum' : Quad Half) (areas' : List Area) (field' : FieldDie) (mailboxes' : List Mailbox) (lockTaken' : List LockTake)
    (mgmt' : Mgmt) (governors' : Tri Governor) (ages' : List AgeRec) (supply' : Supply) (views' : List UnitView) (log' : Log)
    (absentLogged' : List Nat) (free' : Nat) :
    (State.mk x.variant ns' regs' heldLo' x.lanes voters' consumers' ports' links' wires' released' tcfg' rejoinQueue'
    rejoin' changes' echoNum' areas' field' mailboxes' lockTaken' mgmt' governors' ages' supply' views' log' absentLogged' free'
    x.pending).base = x.base := rfl

/-- The bytes of a lane are part of the base. -/
theorem lane_mem (s : State) (l : Lane) : (s.lane l).mem = s.base.mems.get l := by cases l <;> rfl

theorem setLane_base (s : State) (l : Lane) (x : LaneState) (h : x.mem = (s.lane l).mem) :
    (s.setLane l x).base = s.base := by
  cases l <;> simp_all [State.base, State.setLane, State.lane, Tri.set, Tri.get]

end Sys2Proof.Machine
end

