-- ==== Sys2Proof/Laws/BaseOps.lean ====
section
/-! SUPPORT. Which operations of Machine/Ops.lean keep the base. -/

namespace Sys2Proof.Machine

@[simp] theorem State.setReg_base (s : State) (u : RUnit) (off : Nat) (v : Word) : (State.setReg s u off v).base = s.base := by
  simp [State.setReg, base_mk]

@[simp] theorem State.setFld_base (s : State) (u : RUnit) (off hi lo v : Nat) : (State.setFld s u off hi lo v).base = s.base := by
  simp [State.setFld]

@[simp] theorem State.setFlag_base (s : State) (u : RUnit) (off i : Nat) (b : Bool) : (State.setFlag s u off i b).base = s.base := by
  simp [State.setFlag]

@[simp] theorem State.bumpBy_base (s : State) (u : RUnit) (off hi lo n : Nat) : (State.bumpBy s u off hi lo n).base = s.base := by
  simp [State.bumpBy]

@[simp] theorem State.bump_base (s : State) (u : RUnit) (off hi lo : Nat) : (State.bump s u off hi lo).base = s.base := by
  simp [State.bump]

@[simp] theorem State.bumpWrap_base (s : State) (u : RUnit) (off hi lo : Nat) : (State.bumpWrap s u off hi lo).base = s.base := by
  simp [State.bumpWrap]

@[simp] theorem State.raiseMax_base (s : State) (u : RUnit) (off hi lo v : Nat) : (State.raiseMax s u off hi lo v).base = s.base := by
  simp [State.raiseMax]

@[simp] theorem State.setReg64_base (s : State) (u : RUnit) (lo : Nat) (v : Dword) : (State.setReg64 s u lo v).base = s.base := by
  simp [State.setReg64]

@[simp] theorem State.setLaneRegs_base (s : State) (off : Nat) (v : Word) : (State.setLaneRegs s off v).base = s.base := by
  simp [State.setLaneRegs]

@[simp] theorem State.setLaneFld_base (s : State) (off hi lo v : Nat) : (State.setLaneFld s off hi lo v).base = s.base := by
  simp [State.setLaneFld]

@[simp] theorem State.setReplica_base (s : State) (l : Lane) (k : Strand) (r : Replica) : (State.setReplica s l k r).base = s.base := by
  simp [State.setReplica, lane_mem, setLane_base]

@[simp] theorem State.setEcho_base (s : State) (l : Lane) (k : Strand) (e : Echo) : (State.setEcho s l k e).base = s.base := by
  simp [State.setEcho, lane_mem, setLane_base]

@[simp] theorem State.setScrub_base (s : State) (l : Lane) (k : Strand) (x : Scrub) : (State.setScrub s l k x).base = s.base := by
  simp [State.setScrub, lane_mem, setLane_base]

@[simp] theorem State.setVoter_base (s : State) (d : Die) (k : Strand) (v : Voter) : (State.setVoter s d k v).base = s.base := by
  simp [State.setVoter, base_mk]

@[simp] theorem State.setConsumer_base (s : State) (d : Die) (c : Consumer) : (State.setConsumer s d c).base = s.base := by
  simp [State.setConsumer, base_mk]

@[simp] theorem State.setPort_base (s : State) (p : PDie) (x : PortDie) : (State.setPort s p x).base = s.base := by
  simp [State.setPort, base_mk]

@[simp] theorem State.useFree_base (s : State) : (State.useFree s).base = s.base := by
  simp [State.useFree, base_mk]

@[simp] theorem State.setJLink_base (s : State) (l : Lane) (d : Die) (x : JLink) : (State.setJLink s l d x).base = s.base := by
  simp [State.setJLink, base_mk]

@[simp] theorem State.setVcQueue_base (s : State) (l : Lane) (d : Die) (down : Bool) (c : VChannel) (ws : List Wire) : (State.setVcQueue s l d down c ws).base = s.base := by
  simp [State.setVcQueue]

@[simp] theorem State.sendOne_base (s : State) (w : Wire) : (State.sendOne s w).base = s.base := by
  unfold State.sendOne
  split <;> simp [base_mk]

@[simp] theorem State.send_base (s : State) (ws : List Wire) : (s.send ws).base = s.base := by
  unfold State.send
  exact base_foldl _ (fun _ _ => by simp) _ _

@[simp] theorem State.countLanded_base (s : State) (l : Lane) (d : Die) (down : Bool) (c : VChannel) : (State.countLanded s l d down c).base = s.base := by
  simp [State.countLanded]

@[simp] theorem State.arrive_base (s : State) (w : Wire) : (s.arrive w).base = s.base := by
  unfold State.arrive
  split
  · simp
  · exact base_of_eq rfl rfl rfl

@[simp] theorem State.appendLog_base (s : State) (code : LogCode) (src : Nat) (k : Option Strand) (arg : List Nat) : (State.appendLog s code src k arg).base = s.base := by
  simp [State.appendLog, base_mk]

@[simp] theorem State.setFlood_base (s : State) (src n : Nat) : (State.setFlood s src n).base = s.base := by
  simp [State.setFlood, base_mk]

@[simp] theorem State.logEv_base (s : State) (src : Nat) (k : Option Strand) (code : LogCode) (arg : List Nat) : (State.logEv s src k code arg).base = s.base := by
  simp [State.logEv, base_mk]

@[simp] theorem State.ignored_base (s : State) (u : RUnit) (off : Nat) (m : Master) : (State.ignored s u off m).base = s.base := by
  simp [State.ignored]

@[simp] theorem State.logAbsent_base (s : State) (n : Nat) : (State.logAbsent s n).base = s.base := by
  simp [State.logAbsent, base_mk]

@[simp] theorem State.noteAbsent_base (s : State) (d : Die) (off : Nat) : (State.noteAbsent s d off).base = s.base := by
  unfold State.noteAbsent
  split <;> simp

@[simp] theorem State.noteAbsentUnit_base (s : State) (u : RUnit) (off : Nat) : (State.noteAbsentUnit s u off).base = s.base := by
  unfold State.noteAbsentUnit
  split <;> simp

@[simp] theorem State.atUnit_base (s : State) (m : Master) (u : RUnit) (off : Nat) (t : State) (h : t.base = s.base) :
    (s.atUnit m u off t).base = s.base := by
  unfold State.atUnit
  (repeat' split) <;> simp [h]

@[simp] theorem State.atM_base (s : State) (m : Master) (t : State) (h : t.base = s.base) : (s.atM m t).base = s.base := by
  unfold State.atM
  split <;> simp [h]

@[simp] theorem State.countOcc_base (s : State) (d : Die) (k : Strand) : (State.countOcc s d k).base = s.base := by
  simp [State.countOcc]

@[simp] theorem State.raise_base (s : State) (d : Die) (k : Strand) (v : Nat) : (State.raise s d k v).base = s.base := by
  simp [State.raise]

@[simp] theorem State.raiseAll_base (s : State) (d : Die) (v : Nat) : (State.raiseAll s d v).base = s.base := by
  simp [State.raiseAll, base_foldl]

@[simp] theorem State.raiseP_base (s : State) (p : PDie) (k : Strand) (off : Nat) : (State.raiseP s p k off).base = s.base := by
  simp [State.raiseP]

@[simp] theorem State.raisePAll_base (s : State) (p : PDie) (off : Nat) : (State.raisePAll s p off).base = s.base := by
  simp [State.raisePAll]

@[simp] theorem State.pwFail_base (s : State) (d : Die) (k : Option Strand) (r : WerrRec) : (State.pwFail s d k r).base = s.base := by
  unfold State.pwFail
  split <;> simp

@[simp] theorem State.showDirty_base (s : State) : (State.showDirty s).base = s.base := by
  unfold State.showDirty
  split <;> simp

@[simp] theorem State.markDirty_base (s : State) (l : Lane) (a : Nat) : (State.markDirty s l a).base = s.base := by
  unfold State.markDirty
  split <;> simp [base_mk]

@[simp] theorem State.markDirtyRange_base (s : State) (l : Lane) (a len : Nat) : (State.markDirtyRange s l a len).base = s.base := by
  simp [State.markDirtyRange, base_foldl]

@[simp] theorem State.loseWrite_base (s : State) (l : Lane) (w : Broadcast) (cause : Nat) : (State.loseWrite s l w cause).base = s.base := by
  unfold State.loseWrite
  split <;> simp [lane_mem, setLane_base]

@[simp] theorem State.broadcastTo_base (s : State) (w : Broadcast) (l : Lane) : (State.broadcastTo s w l).base = s.base := by
  unfold State.broadcastTo
  (repeat' split) <;> simp

@[simp] theorem State.broadcastNow_base (s : State) (w : Broadcast) : (State.broadcastNow s w).base = s.base := by
  unfold State.broadcastNow
  split <;> simp [base_foldl]

@[simp] theorem State.showHold_base (s : State) (p : PDie) : (State.showHold s p).base = s.base := by
  simp [State.showHold]

@[simp] theorem State.keepWrite_base (s : State) (p : PDie) (h : HeldWrite) : (State.keepWrite s p h).base = s.base := by
  simp [State.keepWrite]

@[simp] theorem State.broadcast_base (s : State) (w : Broadcast) : (State.broadcast s w).base = s.base := by
  simp [State.broadcast]

end Sys2Proof.Machine
end

