-- ==== Sys2Proof/Laws/BaseFlags.lean ====
section
/-! SUPPORT. Which operations of Machine/Flags.lean keep the base. -/

namespace Sys2Proof.Machine

@[simp] theorem State.setPending_base (s : State) (l : Lane) (k : Strand) (v : Nat) : (State.setPending s l k v).base = s.base := by
  simp [State.setPending]

@[simp] theorem State.clearPending_base (s : State) (l : Lane) (k : Strand) (v : Nat) : (State.clearPending s l k v).base = s.base := by
  simp [State.clearPending]

@[simp] theorem State.setLCause_base (s : State) (l : Lane) (k : Strand) (c : Cause) (repl : Option Lane) : (State.setLCause s l k c repl).base = s.base := by
  simp [State.setLCause]

@[simp] theorem State.setVCause_base (s : State) (d : Die) (k : Strand) (c : Cause) (repl : Option Lane) (ord : Word) : (State.setVCause s d k c repl ord).base = s.base := by
  simp [State.setVCause]

@[simp] theorem State.showSump_base (s : State) (d : Die) (k : Strand) : (State.showSump s d k).base = s.base := by
  simp [State.showSump, base_foldl]

end Sys2Proof.Machine
end

