-- ==== Sys2Proof/Laws/BaseSafeState.lean ====
section
/-! SUPPORT. Which operations of Machine/SafeState.lean keep the base. -/

namespace Sys2Proof.Machine

@[simp] theorem State.disturb_base (s : State) : (State.disturb s).base = s.base := by
  first
  | (simp [State.disturb, base_foldl, base_foldl_fst, lane_mem, setLane_base, base_mk]; done)
  | (unfold State.disturb; split <;> simp [base_foldl, base_foldl_fst, lane_mem, setLane_base, base_mk]; done)
  | (unfold State.disturb; (repeat' split) <;> simp [base_foldl, base_foldl_fst, lane_mem, setLane_base, base_mk]; done)
  | (simp only [State.disturb]; (repeat' split) <;> simp [base_foldl, base_foldl_fst, lane_mem, setLane_base, base_mk]; done)
  | (unfold State.disturb
     repeat' (first
      | (simp [base_foldl, base_foldl_fst, lane_mem, setLane_base, base_mk]; done)
      | split
      | refine (base_foldl _ (fun _ _ => ?_) _ _).trans ?_
      | simp [base_foldl, base_foldl_fst, lane_mem, setLane_base, base_mk]
      | (rw [base_of_pair ‹_ = (_, _)›]; simp [base_foldl, base_foldl_fst, lane_mem, setLane_base, base_mk]; done)))

@[simp] theorem State.setOut_base (s : State) (n : Nat) (o : OutState) : (State.setOut s n o).base = s.base := by
  simp [State.setOut, base_mk]

@[simp] theorem State.refreshOut_base (s : State) (n : Nat) : (State.refreshOut s n).base = s.base := by
  simp [State.refreshOut]

@[simp] theorem State.refreshOuts_base (s : State) : (State.refreshOuts s).base = s.base := by
  simp [State.refreshOuts, base_foldl]

@[simp] theorem State.setLatches_base (s : State) (l : Lane) (pend active : BitVec 16) : (State.setLatches s l pend active).base = s.base := by
  simp [State.setLatches]

@[simp] theorem State.clearLatches_base (s : State) (l : Lane) (mask : BitVec 16) : (State.clearLatches s l mask).base = s.base := by
  simp [State.clearLatches]

@[simp] theorem State.clearStrandLatches_base (s : State) (l : Lane) (k : Strand) : (State.clearStrandLatches s l k).base = s.base := by
  simp [State.clearStrandLatches]

@[simp] theorem State.freeLock_base (s : State) (i : Nat) : (State.freeLock s i).base = s.base := by
  first
  | (simp [State.freeLock, base_foldl, base_foldl_fst, lane_mem, setLane_base, base_mk]; done)
  | (unfold State.freeLock; split <;> simp [base_foldl, base_foldl_fst, lane_mem, setLane_base, base_mk]; done)
  | (unfold State.freeLock; (repeat' split) <;> simp [base_foldl, base_foldl_fst, lane_mem, setLane_base, base_mk]; done)
  | (simp only [State.freeLock]; (repeat' split) <;> simp [base_foldl, base_foldl_fst, lane_mem, setLane_base, base_mk]; done)
  | (unfold State.freeLock
     repeat' (first
      | (simp [base_foldl, base_foldl_fst, lane_mem, setLane_base, base_mk]; done)
      | split
      | refine (base_foldl _ (fun _ _ => ?_) _ _).trans ?_
      | simp [base_foldl, base_foldl_fst, lane_mem, setLane_base, base_mk]
      | (rw [base_of_pair ‹_ = (_, _)›]; simp [base_foldl, base_foldl_fst, lane_mem, setLane_base, base_mk]; done)))

@[simp] theorem State.forceLock_base (s : State) (i : Nat) (by' : Nat) : (State.forceLock s i by').base = s.base := by
  simp [State.forceLock]

@[simp] theorem State.freeLocksOf_base (s : State) (owner : Nat) : (State.freeLocksOf s owner).base = s.base := by
  simp [State.freeLocksOf, base_foldl]

@[simp] theorem State.setView_base (s : State) (i : Nat) (v : UnitView) : (State.setView s i v).base = s.base := by
  simp [State.setView, base_mk]

@[simp] theorem State.setMgView_base (s : State) (i mg : Nat) : (State.setMgView s i mg).base = s.base := by
  simp [State.setMgView]

@[simp] theorem State.setPathOut_base (s : State) (i : Nat) : (State.setPathOut s i).base = s.base := by
  simp [State.setPathOut]

@[simp] theorem State.setPathIn_base (s : State) (i : Nat) : (State.setPathIn s i).base = s.base := by
  simp [State.setPathIn]

end Sys2Proof.Machine
end

