-- ==== Sys2Proof/Laws/BaseChanState.lean ====
section
/-! SUPPORT. Which operations of Machine/ChanState.lean keep the base. -/

namespace Sys2Proof.Machine

@[simp] theorem State.setChan_base (s : State) (p : PDie) (ch : Nat) (c : Chan) : (State.setChan s p ch c).base = s.base := by
  simp [State.setChan]

@[simp] theorem State.setChState_base (s : State) (p : PDie) (ch : Nat) (x : ChState) : (State.setChState s p ch x).base = s.base := by
  simp [State.setChState]

@[simp] theorem State.dropFetches_base (s : State) (p : PDie) (ch : Nat) : (State.dropFetches s p ch).base = s.base := by
  simp [State.dropFetches]

@[simp] theorem State.dropUndecided_base (s : State) (p : PDie) (ch : Nat) (keep : Option Nat) : (State.dropUndecided s p ch keep).base = s.base := by
  simp [State.dropUndecided]

@[simp] theorem State.stopChan_base (s : State) (p : PDie) (ch : Nat) : (State.stopChan s p ch).base = s.base := by
  simp [State.stopChan]

@[simp] theorem State.haltChan_base (s : State) (p : PDie) (ch : Nat) : (State.haltChan s p ch).base = s.base := by
  simp [State.haltChan]

@[simp] theorem State.dropHeldWb_base (s : State) (p : PDie) (k : Strand) : (State.dropHeldWb s p k).base = s.base := by
  simp [State.dropHeldWb]

@[simp] theorem State.haltChansOf_base (s : State) (k : Strand) : (State.haltChansOf s k).base = s.base := by
  simp [State.haltChansOf, base_foldl]

@[simp] theorem State.resetChansOf_base (s : State) (k : Strand) : (State.resetChansOf s k).base = s.base := by
  simp [State.resetChansOf, base_foldl]

@[simp] theorem State.stopAllChans_base (s : State) (p : PDie) : (State.stopAllChans s p).base = s.base := by
  simp [State.stopAllChans, base_foldl]

@[simp] theorem State.setActs_base (s : State) (p : PDie) (ch : Nat) (acts : List Act) : (State.setActs s p ch acts).base = s.base := by
  simp [State.setActs]

@[simp] theorem State.mapAct_base (s : State) (p : PDie) (ch index : Nat) (f : Act → Act) : (State.mapAct s p ch index f).base = s.base := by
  simp [State.mapAct]

@[simp] theorem State.endAct_base (s : State) (p : PDie) (ch index st addr : Nat) : (State.endAct s p ch index st addr).base = s.base := by
  simp [State.endAct]

@[simp] theorem State.endFetch_base (s : State) (p : PDie) (id : Nat) : (State.endFetch s p id).base = s.base := by
  simp [State.endFetch]

@[simp] theorem State.putFetch_base (s : State) (p : PDie) (f : Fetch) : (State.putFetch s p f).base = s.base := by
  simp [State.putFetch]

@[simp] theorem State.failFetch_base (s : State) (p : PDie) (f : Fetch) : (State.failFetch s p f).base = s.base := by
  simp only [State.failFetch]
  (repeat' split) <;> simp

@[simp] theorem State.failHopeless_base (s : State) (p : PDie) (k : Strand) : (State.failHopeless s p k).base = s.base := by
  simp [State.failHopeless, base_foldl]

@[simp] theorem State.askCopy_base (s : State) (p : PDie) (id : Nat) (l : Lane) : (State.askCopy s p id l).base = s.base := by
  unfold State.askCopy
  split <;> simp

@[simp] theorem State.askCopies_base (s : State) (p : PDie) (k : Strand) : (State.askCopies s p k).base = s.base := by
  simp [State.askCopies, base_foldl]

@[simp] theorem State.dropCopies_base (s : State) (p : PDie) (k : Strand) (x : Lane) : (State.dropCopies s p k x).base = s.base := by
  simp [State.dropCopies]

@[simp] theorem State.releaseWb_base (s : State) (p : PDie) (l : Lane) : (State.releaseWb s p l).base = s.base := by
  simp [State.releaseWb, base_foldl]

@[simp] theorem State.releaseWbs_base (s : State) (p : PDie) : (State.releaseWbs s p).base = s.base := by
  simp [State.releaseWbs, base_foldl]

@[simp] theorem State.sendWb_base (s : State) (p : PDie) (h : HeldWrite) : (State.sendWb s p h).base = s.base := by
  simp [State.sendWb, base_foldl]

@[simp] theorem State.unstall_base (s : State) (p : PDie) (k : Strand) : (State.unstall s p k).base = s.base := by
  simp [State.unstall, base_foldl]

@[simp] theorem State.stallCopies_base (s : State) (p : PDie) (k : Strand) : (State.stallCopies s p k).base = s.base := by
  simp [State.stallCopies, base_foldl]

end Sys2Proof.Machine
end

