-- ==== Sys2Proof/Laws/BaseVoterBase.lean ====
section
/-! SUPPORT. Which operations of Machine/VoterBase.lean keep the base. -/

namespace Sys2Proof.Machine

@[simp] theorem State.showMode_base (s : State) (d : Die) (k : Strand) : (State.showMode s d k).base = s.base := by
  simp [State.showMode]

@[simp] theorem State.voterClean_base (s : State) (d : Die) (k : Strand) : (State.voterClean s d k).base = s.base := by
  simp [State.voterClean]

@[simp] theorem State.sendExclusion_base (s : State) (ls : List Lane) (k : Strand) (x : Lane) (c : Cause) : (State.sendExclusion s ls k x c).base = s.base := by
  simp [State.sendExclusion]

@[simp] theorem State.sendSplit_base (s : State) (ls : List Lane) (k : Strand) (c : Cause) : (State.sendSplit s ls k c).base = s.base := by
  simp [State.sendSplit]

@[simp] theorem State.chalDecide_base (s : State) (d : Die) (k : Strand) : (State.chalDecide s d k).base = s.base := by
  simp [State.chalDecide, base_foldl]

@[simp] theorem State.voterRemove_base (s : State) (d : Die) (k : Strand) (x : Lane) : (State.voterRemove s d k x).base = s.base := by
  unfold State.voterRemove
  split <;> simp

@[simp] theorem State.voterStop_base (s : State) (d : Die) (k : Strand) : (State.voterStop s d k).base = s.base := by
  simp [State.voterStop]

@[simp] theorem State.voterSplit_base (s : State) (d : Die) (k : Strand) (c : Cause) (ord : Word) : (State.voterSplit s d k c ord).base = s.base := by
  simp [State.voterSplit]

@[simp] theorem State.voterResettle_base (s : State) (d : Die) (k : Strand) : (State.voterResettle s d k).base = s.base := by
  unfold State.voterResettle
  (repeat' split) <;> simp

@[simp] theorem State.voterNotice_base (s : State) (d : Die) (k : Strand) (x : Lane) : (State.voterNotice s d k x).base = s.base := by
  simp [State.voterNotice]

@[simp] theorem State.voterExclude_base (s : State) (d : Die) (k : Strand) (x : Lane) (c : Cause) (ord : Word) : (State.voterExclude s d k x c ord).base = s.base := by
  unfold State.voterExclude
  split <;> simp

@[simp] theorem State.retire_base (s : State) (l : Lane) (k : Strand) : (State.retire s l k).base = s.base := by
  simp [State.retire]

@[simp] theorem State.finishLoad_base (s : State) (l : Lane) (k : Strand) (bs : List Byte) : (State.finishLoad s l k bs).base = s.base := by
  simp [State.finishLoad]

@[simp] theorem State.deliverRead_base (s : State) (l : Lane) (k : Strand) (d : Die) (ord : Word) (data : Dword) : (State.deliverRead s l k d ord data).base = s.base := by
  unfold State.deliverRead
  split <;> simp

end Sys2Proof.Machine
end

