-- ==== Sys2Proof/Laws/BaseEchoBase.lean ====
section
/-! SUPPORT. Which operations of Machine/EchoBase.lean keep the base. -/

namespace Sys2Proof.Machine

@[simp] theorem State.latch_base (s : State) (l : Lane) (k : Strand) (o : Occ) : (State.latch s l k o).base = s.base := by
  simp [State.latch]

@[simp] theorem State.latchChange_base (s : State) (l : Lane) (k : Strand) (x : Lane) (ev : ReplEvent) : (State.latchChange s l k x ev).base = s.base := by
  unfold State.latchChange
  split <;> simp [base_mk]

@[simp] theorem State.latchChangeAll_base (s : State) (k : Strand) (x : Lane) (ev : ReplEvent) : (State.latchChangeAll s k x ev).base = s.base := by
  simp [State.latchChangeAll, base_foldl]

@[simp] theorem State.showDebug_base (s : State) (l : Lane) (k : Strand) : (State.showDebug s l k).base = s.base := by
  simp [State.showDebug, base_foldl]

@[simp] theorem State.pruneChanges_base (s : State) (k : Strand) : (State.pruneChanges s k).base = s.base := by
  first
  | (simp [State.pruneChanges, base_foldl, base_foldl_fst, lane_mem, setLane_base, base_mk]; done)
  | (unfold State.pruneChanges; split <;> simp [base_foldl, base_foldl_fst, lane_mem, setLane_base, base_mk]; done)
  | (unfold State.pruneChanges; (repeat' split) <;> simp [base_foldl, base_foldl_fst, lane_mem, setLane_base, base_mk]; done)
  | (simp only [State.pruneChanges]; (repeat' split) <;> simp [base_foldl, base_foldl_fst, lane_mem, setLane_base, base_mk]; done)
  | (unfold State.pruneChanges
     repeat' (first
      | (simp [base_foldl, base_foldl_fst, lane_mem, setLane_base, base_mk]; done)
      | split
      | refine (base_foldl _ (fun _ _ => ?_) _ _).trans ?_
      | simp [base_foldl, base_foldl_fst, lane_mem, setLane_base, base_mk]
      | (rw [base_of_pair ‹_ = (_, _)›]; simp [base_foldl, base_foldl_fst, lane_mem, setLane_base, base_mk]; done)))

@[simp] theorem State.applyChange_base (s : State) (l : Lane) (k : Strand) (c : Change) (now : Dword) : (State.applyChange s l k c now).base = s.base := by
  unfold State.applyChange
  split <;> simp [base_foldl, base_mk]

@[simp] theorem State.applyChangesAtHalt_base (s : State) (l : Lane) (k : Strand) : (State.applyChangesAtHalt s l k).base = s.base := by
  simp [State.applyChangesAtHalt, base_foldl]

@[simp] theorem State.stopCore_base (s : State) (l : Lane) (k : Strand) : (State.stopCore s l k).base = s.base := by
  simp [State.stopCore]

@[simp] theorem State.showCredits_base (s : State) (l : Lane) (k : Strand) : (State.showCredits s l k).base = s.base := by
  simp [State.showCredits, base_foldl]

@[simp] theorem State.showVisible_base (s : State) (l : Lane) (k : Strand) : (State.showVisible s l k).base = s.base := by
  simp [State.showVisible, base_foldl]

@[simp] theorem State.popAll_base (s : State) (l : Lane) (k : Strand) : (State.popAll s l k).base = s.base := by
  simp [State.popAll]

@[simp] theorem State.showTcfg_base (s : State) (k : Strand) (busy : Bool) (res : Option Nat) : (State.showTcfg s k busy res).base = s.base := by
  unfold State.showTcfg
  split <;> simp [base_foldl]

@[simp] theorem State.refuseTcfg_base (s : State) (k : Strand) (res : Nat) : (State.refuseTcfg s k res).base = s.base := by
  simp [State.refuseTcfg, base_mk]

@[simp] theorem State.tcfgFinish_base (s : State) (k : Strand) (c : TcfgCommit) (at' : Option Word) : (State.tcfgFinish s k c at').base = s.base := by
  simp [State.tcfgFinish, base_foldl, base_mk]

@[simp] theorem State.tcfgSettle_base (s : State) (k : Strand) : (State.tcfgSettle s k).base = s.base := by
  unfold State.tcfgSettle
  (repeat' split) <;> simp [base_mk]

end Sys2Proof.Machine
end

