-- ==== Sys2Proof/Laws/BaseExclude.lean ====
section
/-! SUPPORT. Which operations of Machine/Exclude.lean keep the base. -/

namespace Sys2Proof.Machine

@[simp] theorem State.releaseHold_base (s : State) (p : PDie) : (State.releaseHold s p).base = s.base := by
  unfold State.releaseHold
  split <;> simp [base_foldl]

@[simp] theorem State.releaseHolds_base (s : State) : (State.releaseHolds s).base = s.base := by
  simp [State.releaseHolds]

@[simp] theorem State.recordStall_base (s : State) (r : RejoinRun) : (State.recordStall s r).base = s.base := by
  unfold State.recordStall
  split <;> simp [base_foldl]

@[simp] theorem State.resumePaused_base (s : State) (k : Strand) : (State.resumePaused s k).base = s.base := by
  simp [State.resumePaused, base_foldl]

@[simp] theorem State.setRjResult_base (s : State) (k : Strand) (res : Nat) : (State.setRjResult s k res).base = s.base := by
  simp [State.setRjResult]

@[simp] theorem State.setRjPhase_base (s : State) (k : Strand) (ph : Nat) : (State.setRjPhase s k ph).base = s.base := by
  simp [State.setRjPhase]

@[simp] theorem State.abandonRejoin_base (s : State) (res : Nat) : (State.abandonRejoin s res).base = s.base := by
  unfold State.abandonRejoin
  split <;> simp [base_mk]

@[simp] theorem State.abandonRejoinOf_base (s : State) (k : Strand) (res : Nat) : (State.abandonRejoinOf s k res).base = s.base := by
  unfold State.abandonRejoinOf
  split <;> simp

@[simp] theorem State.sendRetire_base (s : State) (x : Lane) (c : LaneFault) : (State.sendRetire s x c).base = s.base := by
  simp [State.sendRetire]

@[simp] theorem State.checkRetired_base (s : State) (l : Lane) : (State.checkRetired s l).base = s.base := by
  simp [State.checkRetired, base_foldl]

@[simp] theorem State.haltDevices_base (s : State) (k : Strand) : (State.haltDevices s k).base = s.base := by
  simp [State.haltDevices, base_foldl, base_mk]

@[simp] theorem State.haltAt_base (s : State) (l : Lane) (k : Strand) (c : Cause) (repl : Option Lane) : (State.haltAt s l k c repl).base = s.base := by
  simp [State.haltAt]

@[simp] theorem State.haltOwn_base (s : State) (l : Lane) (k : Strand) (c : Cause) (repl : Option Lane) : (State.haltOwn s l k c repl).base = s.base := by
  simp [State.haltOwn]

@[simp] theorem State.showLaneView_base (s : State) (x : Lane) : (State.showLaneView s x).base = s.base := by
  first
  | (simp [State.showLaneView, base_foldl, base_foldl_fst, lane_mem, setLane_base, base_mk]; done)
  | (unfold State.showLaneView; split <;> simp [base_foldl, base_foldl_fst, lane_mem, setLane_base, base_mk]; done)
  | (unfold State.showLaneView; (repeat' split) <;> simp [base_foldl, base_foldl_fst, lane_mem, setLane_base, base_mk]; done)
  | (simp only [State.showLaneView]; (repeat' split) <;> simp [base_foldl, base_foldl_fst, lane_mem, setLane_base, base_mk]; done)
  | (unfold State.showLaneView
     repeat' (first
      | (simp [base_foldl, base_foldl_fst, lane_mem, setLane_base, base_mk]; done)
      | split
      | refine (base_foldl _ (fun _ _ => ?_) _ _).trans ?_
      | simp [base_foldl, base_foldl_fst, lane_mem, setLane_base, base_mk]
      | (rw [base_of_pair ‹_ = (_, _)›]; simp [base_foldl, base_foldl_fst, lane_mem, setLane_base, base_mk]; done)))

@[simp] theorem State.dropBeats_base (s : State) (l : Lane) (k : Strand) : (State.dropBeats s l k).base = s.base := by
  first
  | (simp [State.dropBeats, base_foldl, base_foldl_fst, lane_mem, setLane_base, base_mk]; done)
  | (unfold State.dropBeats; split <;> simp [base_foldl, base_foldl_fst, lane_mem, setLane_base, base_mk]; done)
  | (unfold State.dropBeats; (repeat' split) <;> simp [base_foldl, base_foldl_fst, lane_mem, setLane_base, base_mk]; done)
  | (simp only [State.dropBeats]; (repeat' split) <;> simp [base_foldl, base_foldl_fst, lane_mem, setLane_base, base_mk]; done)
  | (unfold State.dropBeats
     repeat' (first
      | (simp [base_foldl, base_foldl_fst, lane_mem, setLane_base, base_mk]; done)
      | split
      | refine (base_foldl _ (fun _ _ => ?_) _ _).trans ?_
      | simp [base_foldl, base_foldl_fst, lane_mem, setLane_base, base_mk]
      | (rw [base_of_pair ‹_ = (_, _)›]; simp [base_foldl, base_foldl_fst, lane_mem, setLane_base, base_mk]; done)))

@[simp] theorem State.excludeAt_base (s : State) (l : Lane) (k : Strand) (x : Lane) (c : Cause) : (State.excludeAt s l k x c).base = s.base := by
  simp only [State.excludeAt]
  (repeat' split) <;> simp [base_foldl]

@[simp] theorem State.echoExcludes_base (s : State) (l : Lane) (k : Strand) (x : Lane) (c : Cause) : (State.echoExcludes s l k x c).base = s.base := by
  simp [State.echoExcludes]

@[simp] theorem State.echoSplits_base (s : State) (l : Lane) (k : Strand) (c : Cause) : (State.echoSplits s l k c).base = s.base := by
  simp [State.echoSplits]

@[simp] theorem State.retireAt_base (s : State) (l : Lane) (k : Strand) (x : Lane) : (State.retireAt s l k x).base = s.base := by
  simp [State.retireAt]

@[simp] theorem State.retireLane_base (s : State) (x : Lane) (c : LaneFault) : (State.retireLane s x c).base = s.base := by
  unfold State.retireLane
  (repeat' split) <;> simp [base_foldl]

end Sys2Proof.Machine
end

