-- ==== Sys2Proof/Laws/BaseRegOps.lean ====
section
/-! SUPPORT. Which operations of Machine/RegOps.lean keep the base. -/

namespace Sys2Proof.Machine

@[simp] theorem State.logRsvd_base (s : State) (u : RUnit) (off : Nat) (m : Master) : (State.logRsvd s u off m).base = s.base := by
  simp [State.logRsvd]

@[simp] theorem State.dropHeld_base (s : State) (u : RUnit) (off : Nat) : (State.dropHeld s u off).base = s.base := by
  simp [State.dropHeld, base_mk]

@[simp] theorem State.holdLow_base (s : State) (u : RUnit) (off : Nat) (w : Word) : (State.holdLow s u off w).base = s.base := by
  simp [State.holdLow, base_mk]

@[simp] theorem State.plainWrite_base (s : State) (u : RUnit) (off : Nat) (d : RegDesc) (mask data : Word) (wide : Bool) : (State.plainWrite s u off d mask data wide).base = s.base := by
  simp only [State.plainWrite]
  (repeat' split) <;> simp [base_mk]

@[simp] theorem State.plainRead_base (s : State) (u : RUnit) (off : Nat) (d : RegDesc) : (State.plainRead s u off d).1.base = s.base := by
  simp [State.plainRead]

end Sys2Proof.Machine
end

