-- ==== Sys2Proof/Laws/BaseDma.lean ====
section
/-! SUPPORT. Which operations of Machine/Dma.lean keep the base. -/

namespace Sys2Proof.Machine

@[simp] theorem State.startFetch_base (s : State) (p : PDie) (ch index addr len : Nat) : (State.startFetch s p ch index addr len).base = s.base := by
  simp [State.startFetch]

@[simp] theorem State.askNext_base (s : State) (p : PDie) (ch : Nat) (a : Act) : (State.askNext s p ch a).base = s.base := by
  unfold State.askNext
  (repeat' split) <;> simp

@[simp] theorem State.nextRead_base (s : State) (p : PDie) (ch index : Nat) : (State.nextRead s p ch index).base = s.base := by
  unfold State.nextRead
  split <;> simp

@[simp] theorem State.takeDesc_base (s : State) (p : PDie) (ch index : Nat) (bs : List Byte) : (State.takeDesc s p ch index bs).base = s.base := by
  simp only [State.takeDesc]
  (repeat' split) <;> simp

@[simp] theorem State.dmaWrite_base (s : State) (p : PDie) (ch addr : Nat) (bs : List Byte) : (State.dmaWrite s p ch addr bs).base = s.base := by
  simp [State.dmaWrite]

@[simp] theorem State.moveData_base (s : State) (p : PDie) (ch index : Nat) (bs : List Byte) : (State.moveData s p ch index bs).base = s.base := by
  unfold State.moveData
  split <;> simp

@[simp] theorem State.takeData_base (s : State) (p : PDie) (ch index : Nat) (bs : List Byte) : (State.takeData s p ch index bs).base = s.base := by
  unfold State.takeData
  (repeat' split) <;> simp

@[simp] theorem State.goOn_base (s : State) (p : PDie) (ch : Nat) (a : Act) : (State.goOn s p ch a).base = s.base := by
  simp [State.goOn]

@[simp] theorem State.useFetch_base (s : State) (p : PDie) (f : Fetch) (bs : List Byte) (ue : Bool) : (State.useFetch s p f bs ue).base = s.base := by
  unfold State.useFetch
  split <;> simp

theorem execDescriptorStart_base (p : PDie) (ch : Nat) (s : State) : ∃ s', execDescriptorStart p ch s = .next s' ∧ s'.base = s.base := by
  refine ⟨_, rfl, ?_⟩
  (repeat' split) <;> simp

@[simp] theorem State.wbOcc_base (s : State) (p : PDie) (ch : Nat) (wanted : Bool) : (State.wbOcc s p ch wanted).1.base = s.base := by
  simp only [State.wbOcc]
  (repeat' split) <;> simp

@[simp] theorem State.putWb_base (s : State) (p : PDie) (ch addr : Nat) (bs : List Byte) (a : Act) (event : Bool) : (State.putWb s p ch addr bs a event).base = s.base := by
  simp [State.putWb]

@[simp] theorem State.enableChan_base (s : State) (p : PDie) (ch : Nat) (bound : Bool) : (State.enableChan s p ch bound).base = s.base := by
  simp [State.enableChan]

@[simp] theorem State.afterWb_base (s : State) (p : PDie) (ch : Nat) (a : Act) (st : Nat) : (State.afterWb s p ch a st).base = s.base := by
  simp [State.afterWb]

@[simp] theorem State.putChained_base (s : State) (p : PDie) (ch : Nat) (a : Act) : (State.putChained s p ch a).base = s.base := by
  simp [State.putChained]

@[simp] theorem State.completeAct_base (s : State) (p : PDie) (ch : Nat) (a : Act) : (State.completeAct s p ch a).base = s.base := by
  simp only [State.completeAct]
  (repeat' split) <;> simp

@[simp] theorem State.completeDesc_base (s : State) (p : PDie) (ch : Nat) : (State.completeDesc s p ch).base = s.base := by
  unfold State.completeDesc
  split <;> simp

@[simp] theorem State.completeList_base (s : State) (p : PDie) (ch : Nat) (as : List Act) :
    (s.completeList p ch as).base = s.base := by
  induction as generalizing s with
  | nil => simp [State.completeList]
  | cons a as ih =>
    simp only [State.completeList]
    split <;> simp [ih]

@[simp] theorem State.voteFail_base (s : State) (p : PDie) (f : Fetch) : (State.voteFail s p f).base = s.base := by
  first
  | (simp [State.voteFail, base_foldl, base_foldl_fst, lane_mem, setLane_base, base_mk]; done)
  | (unfold State.voteFail; split <;> simp [base_foldl, base_foldl_fst, lane_mem, setLane_base, base_mk]; done)
  | (unfold State.voteFail; (repeat' split) <;> simp [base_foldl, base_foldl_fst, lane_mem, setLane_base, base_mk]; done)
  | (simp only [State.voteFail]; (repeat' split) <;> simp [base_foldl, base_foldl_fst, lane_mem, setLane_base, base_mk]; done)
  | (unfold State.voteFail
     repeat' (first
      | (simp [base_foldl, base_foldl_fst, lane_mem, setLane_base, base_mk]; done)
      | split
      | refine (base_foldl _ (fun _ _ => ?_) _ _).trans ?_
      | simp [base_foldl, base_foldl_fst, lane_mem, setLane_base, base_mk]
      | (rw [base_of_pair ‹_ = (_, _)›]; simp [base_foldl, base_foldl_fst, lane_mem, setLane_base, base_mk]; done)))

theorem execDescriptorComplete_base (p : PDie) (ch : Nat) (s : State) : ∃ s', execDescriptorComplete p ch s = .next s' ∧ s'.base = s.base := by
  refine ⟨_, rfl, ?_⟩
  simp

@[simp] theorem State.decideFetch_base (s : State) (p : PDie) (f : Fetch) (ue : Bool) : (State.decideFetch s p f ue).base = s.base := by
  unfold State.decideFetch
  (repeat' split) <;> simp

theorem execFetchCopyArrive_base (p : PDie) (k : Strand) (id : Nat) (l : Lane) (ue : Bool) (s : State) : ∃ s', execFetchCopyArrive p k id l ue s = .next s' ∧ s'.base = s.base := by
  refine ⟨_, rfl, ?_⟩
  dsimp only
  (repeat' split) <;> simp [lane_mem]

theorem execFetchSkewTimeout_base (p : PDie) (k : Strand) (id : Nat) (s : State) : ∃ s', execFetchSkewTimeout p k id s = .next s' ∧ s'.base = s.base := by
  refine ⟨_, rfl, ?_⟩
  (repeat' split) <;> simp

theorem execDmaBusTimeout_base (p : PDie) (k : Strand) (id : Nat) (l : Lane) (s : State) : ∃ s', execDmaBusTimeout p k id l s = .next s' ∧ s'.base = s.base := by
  refine ⟨_, rfl, ?_⟩
  split <;> simp

@[simp] theorem State.rxDeliver_base (s : State) (p : PDie) (ch : Nat) (bs : List Byte) (time : Dword) (i0 i1 i2 : Word) (ue : Bool) : (State.rxDeliver s p ch bs time i0 i1 i2 ue).base = s.base := by
  unfold State.rxDeliver
  split <;> simp

@[simp] theorem State.writeEn1_base (s : State) (p : PDie) (ch : Nat) : (State.writeEn1 s p ch).base = s.base := by
  simp [State.writeEn1]

@[simp] theorem State.writeEn0_base (s : State) (p : PDie) (ch : Nat) : (State.writeEn0 s p ch).base = s.base := by
  simp [State.writeEn0]

@[simp] theorem State.writeResume_base (s : State) (p : PDie) (ch : Nat) : (State.writeResume s p ch).base = s.base := by
  simp [State.writeResume]

@[simp] theorem State.dmCtlWrite_base (s : State) (m : Master) (p : PDie) (ch : Nat) (v : Word) : (State.dmCtlWrite s m p ch v).base = s.base := by
  simp [State.dmCtlWrite]

@[simp] theorem State.doorbell_base (s : State) (m : Master) (p : PDie) (ch : Nat) (v : Word) : (State.doorbell s m p ch v).base = s.base := by
  simp [State.doorbell]

@[simp] theorem State.atChan_base (s : State) (m : Master) (p : PDie) (ch off : Nat) (t : State) (h : t.base = s.base) :
    (s.atChan m p ch off t).base = s.base := by
  unfold State.atChan
  (repeat' split) <;> simp [h]

theorem execDmaEnable_base (m : Master) (p : PDie) (ch : Nat) (s : State) : ∃ s', execDmaEnable m p ch s = .next s' ∧ s'.base = s.base := by
  refine ⟨_, rfl, ?_⟩
  simp

theorem execDmaDisable_base (m : Master) (p : PDie) (ch : Nat) (s : State) : ∃ s', execDmaDisable m p ch s = .next s' ∧ s'.base = s.base := by
  refine ⟨_, rfl, ?_⟩
  simp

theorem execResume_base (m : Master) (p : PDie) (ch : Nat) (s : State) : ∃ s', execResume m p ch s = .next s' ∧ s'.base = s.base := by
  refine ⟨_, rfl, ?_⟩
  simp

theorem execDmaDoorbell_base (m : Master) (p : PDie) (ch : Nat) (data : Word) (s : State) : ∃ s', execDmaDoorbell m p ch data s = .next s' ∧ s'.base = s.base := by
  refine ⟨_, rfl, ?_⟩
  simp

@[simp] theorem State.quiesceWrite_base (s : State) (m : Master) (p : PDie) (v : Word) : (State.quiesceWrite s m p v).base = s.base := by
  simp [State.quiesceWrite, base_foldl]

theorem execQuiesceRequest_base (p : PDie) (domain : BitVec 3) (s : State) : ∃ s', execQuiesceRequest p domain s = .next s' ∧ s'.base = s.base := by
  refine ⟨_, rfl, ?_⟩
  simp

@[simp] theorem State.abortChan_base (s : State) (p : PDie) (ch domain : Nat) : (State.abortChan s p ch domain).base = s.base := by
  first
  | (simp [State.abortChan, base_foldl, base_foldl_fst, lane_mem, setLane_base, base_mk]; done)
  | (unfold State.abortChan; split <;> simp [base_foldl, base_foldl_fst, lane_mem, setLane_base, base_mk]; done)
  | (unfold State.abortChan; (repeat' split) <;> simp [base_foldl, base_foldl_fst, lane_mem, setLane_base, base_mk]; done)
  | (simp only [State.abortChan]; (repeat' split) <;> simp [base_foldl, base_foldl_fst, lane_mem, setLane_base, base_mk]; done)
  | (unfold State.abortChan
     repeat' (first
      | (simp [base_foldl, base_foldl_fst, lane_mem, setLane_base, base_mk]; done)
      | split
      | refine (base_foldl _ (fun _ _ => ?_) _ _).trans ?_
      | simp [base_foldl, base_foldl_fst, lane_mem, setLane_base, base_mk]
      | (rw [base_of_pair ‹_ = (_, _)›]; simp [base_foldl, base_foldl_fst, lane_mem, setLane_base, base_mk]; done)))

@[simp] theorem State.powerAbort_base (s : State) (p : PDie) (domain : Nat) : (State.powerAbort s p domain).base = s.base := by
  simp [State.powerAbort, base_foldl]

theorem execQuiesceRelease_base (p : PDie) (s : State) : ∃ s', execQuiesceRelease p s = .next s' ∧ s'.base = s.base := by
  refine ⟨_, rfl, ?_⟩
  simp

end Sys2Proof.Machine
end

