-- ==== Sys2Proof/Laws/BaseKtnBase.lean ====
section
/-! SUPPORT. Which operations of Machine/KtnBase.lean keep the base. -/

namespace Sys2Proof.Machine

@[simp] theorem State.showCtl_base (s : State) (p : PDie) (x : Net) : (State.showCtl s p x).base = s.base := by
  simp only [State.showCtl]
  (repeat' split) <;> simp [base_foldl]

@[simp] theorem State.showGuard_base (s : State) (p : PDie) (g : Guard) : (State.showGuard s p g).base = s.base := by
  simp [State.showGuard]

@[simp] theorem State.setGuard_base (s : State) (p : PDie) (g : Guard) : (State.setGuard s p g).base = s.base := by
  simp [State.setGuard]

@[simp] theorem State.setNet_base (s : State) (n : NetId) (x : Net) : (State.setNet s n x).base = s.base := by
  unfold State.setNet
  split <;> simp

@[simp] theorem State.ktnState_base (s : State) (n : NetId) : (State.ktnState s n).base = s.base := by
  unfold State.ktnState
  split <;> simp

@[simp] theorem State.pathChange_base (s : State) (n : NetId) (i : Nat) (id : Nat) : (State.pathChange s n i id).base = s.base := by
  simp only [State.pathChange]
  (repeat' split) <;> simp

@[simp] theorem State.useTiming_base (s : State) (n : NetId) (port : Port) (f : KFrame) (tRx : Dword) (P : Int) : (State.useTiming s n port f tRx P).base = s.base := by
  unfold State.useTiming
  (repeat' split) <;> simp

@[simp] theorem State.settle_base (s : State) (n : NetId) (use : State → WaitCopy → State)
    (huse : ∀ t w, (use t w).base = t.base) : (s.settle n use).base = s.base := by
  unfold State.settle
  split <;> simp [huse]

@[simp] theorem State.offer_base (s : State) (n : NetId) (use : State → WaitCopy → State) (v : WaitCopy)
    (huse : ∀ t w, (use t w).base = t.base) : (s.offer n use v).1.base = s.base := by
  unfold State.offer
  repeat' (first | (simp [huse, State.settle_base]; done) | split | dsimp only)

@[simp] theorem State.offerEarly_base (s : State) (n : NetId) (use : State → WaitCopy → State) (v : WaitCopy)
    (huse : ∀ t w, (use t w).base = t.base) : (s.offerEarly n use v).base = s.base := by
  unfold State.offerEarly
  repeat' (first | (simp [huse, State.settle_base]; done) | split | dsimp only)

@[simp] theorem State.settleLate_base (s : State) (n : NetId) (use : State → WaitCopy → State)
    (huse : ∀ t w, (use t w).base = t.base) : (s.settleLate n use).base = s.base := by
  unfold State.settleLate
  repeat' (first | (simp [huse, State.settle_base]; done) | split)

@[simp] theorem State.integrateFrame_base (s : State) (n : NetId) (port : Port) (f : KFrame) (tRx : Dword) (P : Int) : (State.integrateFrame s n port f tRx P).base = s.base := by
  simp [State.integrateFrame]

@[simp] theorem State.adoptedUse_base (s : State) (n : NetId) (w : WaitCopy) (P : Int) : (State.adoptedUse s n w P).base = s.base := by
  simp [State.adoptedUse]

@[simp] theorem State.loseSync_base (s : State) (n : NetId) : (State.loseSync s n).base = s.base := by
  simp [State.loseSync]

@[simp] theorem State.noteHeard_base (s : State) (n : NetId) (f : KFrame) (ok : Bool) : (State.noteHeard s n f ok).base = s.base := by
  unfold State.noteHeard
  (repeat' split) <;> simp

@[simp] theorem State.foreignSync_base (s : State) (n : NetId) (f : KFrame) : (State.foreignSync s n f).base = s.base := by
  unfold State.foreignSync
  (repeat' split) <;> simp

@[simp] theorem State.showMid_base (s : State) (n : NetId) (m : Int) (k : Nat) : (State.showMid s n m k).base = s.base := by
  unfold State.showMid
  split <;> simp

@[simp] theorem State.endAdopted_base (s : State) (n : NetId) (need : Nat) : (State.endAdopted s n need).base = s.base := by
  simp [State.endAdopted]

@[simp] theorem State.endActive_base (s : State) (n : NetId) : (State.endActive s n).base = s.base := by
  simp [State.endActive]

@[simp] theorem State.endHoldover_base (s : State) (n : NetId) : (State.endHoldover s n).base = s.base := by
  simp [State.endHoldover]

@[simp] theorem State.noteMembers_base (s : State) (n : NetId) : (State.noteMembers s n).base = s.base := by
  simp [State.noteMembers]

@[simp] theorem State.review_base (s : State) (n : NetId) : (State.review s n).base = s.base := by
  simp [State.review]

@[simp] theorem State.recordInaug_base (s : State) (n : NetId) (port : Port) (f : KFrame) : (State.recordInaug s n port f).base = s.base := by
  simp [State.recordInaug]

@[simp] theorem State.expireRecords_base (s : State) (n : NetId) : (State.expireRecords s n).base = s.base := by
  simp [State.expireRecords]

end Sys2Proof.Machine
end

