-- ==== Sys2Proof/Laws/BaseGallery.lean ====
section
/-! SUPPORT. Which operations of Machine/Gallery.lean keep the base. -/

namespace Sys2Proof.Machine

@[simp] theorem State.setGw_base (s : State) (p : PDie) (g : Gallery) : (State.setGw s p g).base = s.base := by
  simp [State.setGw]

@[simp] theorem State.setBuf_base (s : State) (p : PDie) (b : PduBuf) : (State.setBuf s p b).base = s.base := by
  simp [State.setBuf]

@[simp] theorem State.setEngState_base (s : State) (p : PDie) (g : Bool) (v : Nat) : (State.setEngState s p g v).base = s.base := by
  simp [State.setEngState]

@[simp] theorem State.setGwQueue_base (s : State) (p : PDie) (g : Bool) (q : List (Nat × GwEvent)) : (State.setGwQueue s p g q).base = s.base := by
  simp [State.setGwQueue]

@[simp] theorem State.setGwWork_base (s : State) (p : PDie) (g : Bool) (w : Option (GwEvent × List Nat)) : (State.setGwWork s p g w).base = s.base := by
  simp [State.setGwWork]

@[simp] theorem State.gaveUp_base (s : State) (p : PDie) (g : Bool) (ev : GwEvent) : (State.gaveUp s p g ev).base = s.base := by
  first
  | (simp [State.gaveUp, base_foldl, base_foldl_fst, lane_mem, setLane_base, base_mk]; done)
  | (unfold State.gaveUp; split <;> simp [base_foldl, base_foldl_fst, lane_mem, setLane_base, base_mk]; done)
  | (unfold State.gaveUp; (repeat' split) <;> simp [base_foldl, base_foldl_fst, lane_mem, setLane_base, base_mk]; done)
  | (simp only [State.gaveUp]; (repeat' split) <;> simp [base_foldl, base_foldl_fst, lane_mem, setLane_base, base_mk]; done)
  | (unfold State.gaveUp
     repeat' (first
      | (simp [base_foldl, base_foldl_fst, lane_mem, setLane_base, base_mk]; done)
      | split
      | refine (base_foldl _ (fun _ _ => ?_) _ _).trans ?_
      | simp [base_foldl, base_foldl_fst, lane_mem, setLane_base, base_mk]
      | (rw [base_of_pair ‹_ = (_, _)›]; simp [base_foldl, base_foldl_fst, lane_mem, setLane_base, base_mk]; done)))

@[simp] theorem State.queueEvent_base (s : State) (p : PDie) (g : Bool) (ev : GwEvent) : (State.queueEvent s p g ev).1.base = s.base := by
  simp only [State.queueEvent]
  (repeat' split) <;> simp

@[simp] theorem State.queueBoth_base (s : State) (p : PDie) (ev : GwEvent) : (State.queueBoth s p ev).base = s.base := by
  simp [State.queueBoth]

@[simp] theorem State.setStale_base (s : State) (p : PDie) (m : SigMap) (v : Bool) : (State.setStale s p m v).base = s.base := by
  simp [State.setStale]

@[simp] theorem State.exchange_base (s : State) (p : PDie) (n : Nat) : (State.exchange s p n).base = s.base := by
  unfold State.exchange
  split <;> simp

@[simp] theorem State.noteCover_base (s : State) (p : PDie) (n vlen : Nat) : (State.noteCover s p n vlen).base = s.base := by
  simp [State.noteCover]

@[simp] theorem State.arrived_base (s : State) (p : PDie) (n vlen : Nat) : (State.arrived s p n vlen).base = s.base := by
  simp [State.arrived]

@[simp] theorem State.pduArrives_base (s : State) (p : PDie) (n : Nat) (payload : List Byte) : (State.pduArrives s p n payload).base = s.base := by
  unfold State.pduArrives
  split <;> simp

@[simp] theorem State.publish_base (s : State) (p : PDie) (n : Nat) : (State.publish s p n).base = s.base := by
  simp [State.publish]

@[simp] theorem State.swWrite_base (s : State) (p : PDie) (n i : Nat) (bs : List Byte) : (State.swWrite s p n i bs).base = s.base := by
  unfold State.swWrite
  split <;> simp

@[simp] theorem State.runHeld_base (s : State) (p : PDie) (n : Nat) (xs : List (Nat × Option (Nat × List Byte))) :
    (s.runHeld p n xs).base = s.base := by
  induction xs generalizing s with
  | nil => simp [State.runHeld]
  | cons x xs ih =>
    obtain ⟨m, op⟩ := x
    simp only [State.runHeld]
    (repeat' split) <;> simp [ih]

@[simp] theorem State.lateExchange_base (s : State) (p : PDie) (n : Nat) : (State.lateExchange s p n).base = s.base := by
  simp [State.lateExchange]

theorem execPduArrival_base (p : PDie) (pdu : Nat) (payload : List Byte) (s : State) : ∃ s', execPduArrival p pdu payload s = .next s' ∧ s'.base = s.base := by
  refine ⟨_, rfl, ?_⟩
  simp

theorem execPduExchange_base (p : PDie) (pdu : Nat) (s : State) : ∃ s', execPduExchange p pdu s = .next s' ∧ s'.base = s.base := by
  refine ⟨_, rfl, ?_⟩
  simp

@[simp] theorem State.swDataWrite_base (s : State) (k : Strand) (p : PDie) (off size : Nat) (data : Dword) : (State.swDataWrite s k p off size data).base = s.base := by
  simp [State.swDataWrite]

theorem execGwSwDataWrite_base (k : Strand) (p : PDie) (w : RegWrite) (s : State) : ∃ s', execGwSwDataWrite k p w s = .next s' ∧ s'.base = s.base := by
  refine ⟨_, rfl, ?_⟩
  simp

@[simp] theorem State.swPub_base (s : State) (k : Strand) (p : PDie) (v : Word) : (State.swPub s k p v).base = s.base := by
  simp [State.swPub]

theorem execGwSwPub_base (k : Strand) (p : PDie) (data : Word) (s : State) : ∃ s', execGwSwPub k p data s = .next s' ∧ s'.base = s.base := by
  refine ⟨_, rfl, ?_⟩
  simp

@[simp] theorem State.runMap_base (s : State) (p : PDie) (g : Bool) (bs : List Byte) (m : SigMap) : (State.runMap s p g bs m).1.base = s.base := by
  unfold State.runMap
  split <;> simp

@[simp] theorem State.runMaps_base (s : State) (p : PDie) (g : Bool) (d : Pdu) (back : List Byte) : (State.runMaps s p g d back).1.base = s.base := by
  simp [State.runMaps, base_foldl_fst]

@[simp] theorem State.setCan_base (s : State) (p : PDie) (second : Bool) (c : CanCtl) : (State.setCan s p second c).base = s.base := by
  simp [State.setCan]

@[simp] theorem State.offerCan_base (s : State) (p : PDie) (d : Pdu) (front : List Byte) : (State.offerCan s p d front).base = s.base := by
  simp [State.offerCan]

@[simp] theorem State.settleBufs_base (s : State) (p : PDie) : (State.settleBufs s p).base = s.base := by
  first
  | (simp [State.settleBufs, base_foldl, base_foldl_fst, lane_mem, setLane_base, base_mk]; done)
  | (unfold State.settleBufs; split <;> simp [base_foldl, base_foldl_fst, lane_mem, setLane_base, base_mk]; done)
  | (unfold State.settleBufs; (repeat' split) <;> simp [base_foldl, base_foldl_fst, lane_mem, setLane_base, base_mk]; done)
  | (simp only [State.settleBufs]; (repeat' split) <;> simp [base_foldl, base_foldl_fst, lane_mem, setLane_base, base_mk]; done)
  | (unfold State.settleBufs
     repeat' (first
      | (simp [base_foldl, base_foldl_fst, lane_mem, setLane_base, base_mk]; done)
      | split
      | refine (base_foldl _ (fun _ _ => ?_) _ _).trans ?_
      | simp [base_foldl, base_foldl_fst, lane_mem, setLane_base, base_mk]
      | (rw [base_of_pair ‹_ = (_, _)›]; simp [base_foldl, base_foldl_fst, lane_mem, setLane_base, base_mk]; done)))

@[simp] theorem State.endProcessing_base (s : State) (p : PDie) (g : Bool) (ev : GwEvent) (n : Nat) : (State.endProcessing s p g ev n).base = s.base := by
  unfold State.endProcessing
  (repeat' split) <;> simp

@[simp] theorem State.beginWork_base (s : State) (p : PDie) (g : Bool) (ev : GwEvent) (ds : List Nat) : (State.beginWork s p g ev ds).base = s.base := by
  simp [State.beginWork, base_foldl]

theorem execGwEventProcess_base (p : PDie) (second : Bool) (s : State) : ∃ s', execGwEventProcess p second s = .next s' ∧ s'.base = s.base := by
  refine ⟨_, rfl, ?_⟩
  (repeat' split) <;> simp

theorem execGwFreshnessScan_base (p : PDie) (e : Nat) (s : State) : ∃ s', execGwFreshnessScan p e s = .next s' ∧ s'.base = s.base := by
  refine ⟨_, rfl, ?_⟩
  simp

@[simp] theorem State.gwStop_base (s : State) (p : PDie) (g : Bool) : (State.gwStop s p g).base = s.base := by
  simp [State.gwStop, base_foldl]

theorem execGwEcc_base (p : PDie) (corrected eng0 eng1 : Bool) (s : State) : ∃ s', execGwEcc p corrected eng0 eng1 s = .next s' ∧ s'.base = s.base := by
  refine ⟨_, rfl, ?_⟩
  simp

@[simp] theorem State.gwRingFrame_base (s : State) (p : PDie) (ring : Nat) (start : Dword) : (State.gwRingFrame s p ring start).1.base = s.base := by
  unfold State.gwRingFrame
  (repeat' split) <;> simp

@[simp] theorem State.commitResult_base (s : State) (u : RUnit) (off res : Nat) : (State.commitResult s u off res).base = s.base := by
  simp [State.commitResult]

@[simp] theorem State.gwGo_base (s : State) (p : PDie) : (State.gwGo s p).base = s.base := by
  unfold State.gwGo
  (repeat' split) <;> simp

theorem execGwCommitGo_base (p : PDie) (s : State) : ∃ s', execGwCommitGo p s = .next s' ∧ s'.base = s.base := by
  refine ⟨_, rfl, ?_⟩
  simp

@[simp] theorem State.copyRegs_base (s : State) (u : RUnit) (src dst size : Nat) : (State.copyRegs s u src dst size).base = s.base := by
  simp [State.copyRegs, base_mk]

@[simp] theorem State.gwTakeEffect_base (s : State) (p : PDie) : (State.gwTakeEffect s p).base = s.base := by
  simp [State.gwTakeEffect, base_foldl]

theorem execGwCommitTakeEffect_base (p : PDie) (s : State) : ∃ s', execGwCommitTakeEffect p s = .next s' ∧ s'.base = s.base := by
  refine ⟨_, rfl, ?_⟩
  simp

end Sys2Proof.Machine
end

