-- ==== Sys2Proof/Laws/BaseCan.lean ====
section
/-! SUPPORT. Which operations of Machine/Can.lean keep the base. -/

namespace Sys2Proof.Machine

@[simp] theorem State.setCanState_base (s : State) (p : PDie) (second : Bool) (v : Nat) : (State.setCanState s p second v).base = s.base := by
  simp [State.setCanState]

@[simp] theorem State.raiseCstat_base (s : State) (p : PDie) (second : Bool) : (State.raiseCstat s p second).base = s.base := by
  simp [State.raiseCstat]

@[simp] theorem State.writeCanMode_base (s : State) (p : PDie) (second : Bool) (code : Nat) : (State.writeCanMode s p second code).base = s.base := by
  simp [State.writeCanMode]

@[simp] theorem State.startRecovery_base (s : State) (p : PDie) (second : Bool) : (State.startRecovery s p second).base = s.base := by
  simp [State.startRecovery]

@[simp] theorem State.canCtlWrite_base (s : State) (m : Master) (p : PDie) (second : Bool) (v : Word) : (State.canCtlWrite s m p second v).base = s.base := by
  simp [State.canCtlWrite]

theorem execCanModeWrite_base (m : Master) (p : PDie) (second : Bool) (data : Word) (s : State) : ∃ s', execCanModeWrite m p second data s = .next s' ∧ s'.base = s.base := by
  refine ⟨_, rfl, ?_⟩
  simp

theorem execRecover_base (m : Master) (p : PDie) (second : Bool) (s : State) : ∃ s', execRecover m p second s = .next s' ∧ s'.base = s.base := by
  refine ⟨_, rfl, ?_⟩
  simp

theorem execCanRecoveryDone_base (p : PDie) (second : Bool) (s : State) : ∃ s', execCanRecoveryDone p second s = .next s' ∧ s'.base = s.base := by
  refine ⟨_, rfl, ?_⟩
  simp

@[simp] theorem State.canErrors_base (s : State) (p : PDie) (second : Bool) (tec rec : Nat) : (State.canErrors s p second tec rec).base = s.base := by
  simp [State.canErrors]

@[simp] theorem State.canRoute_base (s : State) (p : PDie) (second : Bool) (f : CanFrame) (time : Dword) (ue : Bool) : (State.canRoute s p second f time ue).base = s.base := by
  unfold State.canRoute
  split <;> simp

theorem execCanFrameReceive_base (p : PDie) (second : Bool) (e : CanRxEnd) (s : State) : ∃ s', execCanFrameReceive p second e s = .next s' ∧ s'.base = s.base := by
  refine ⟨_, rfl, ?_⟩
  (repeat' split) <;> simp

@[simp] theorem State.canSent_base (s : State) (p : PDie) (second : Bool) (c : CanCandidate) (time : Dword) : (State.canSent s p second c time).base = s.base := by
  unfold State.canSent
  split <;> simp

@[simp] theorem State.canEcc_base (s : State) (p : PDie) (second : Bool) (c : CanCandidate) : (State.canEcc s p second c).base = s.base := by
  unfold State.canEcc
  split <;> simp

theorem execCanTransmit_base (p : PDie) (second : Bool) (e : CanTxEnd) (s : State) : ∃ s', execCanTransmit p second e s = .next s' ∧ s'.base = s.base := by
  refine ⟨_, rfl, ?_⟩
  (repeat' split) <;> simp

end Sys2Proof.Machine
end

