-- ==== Sys2Proof/Laws/BaseRemoteRead.lean ====
section
/-! SUPPORT. Which operations of Machine/RemoteRead.lean keep the base. -/

namespace Sys2Proof.Machine

@[simp] theorem State.setRrTag_base (s : State) (p : PDie) (k : Strand) (t : RrTag) : (State.setRrTag s p k t).base = s.base := by
  simp [State.setRrTag]

@[simp] theorem State.storeRr_base (s : State) (p : PDie) (k : Strand) (n status : Nat) (data : List Byte) : (State.storeRr s p k n status data).base = s.base := by
  simp [State.storeRr]

@[simp] theorem State.queueMg_base (s : State) (p : PDie) (f : MgFrame) : (State.queueMg s p f).base = s.base := by
  simp [State.queueMg]

@[simp] theorem State.rrAsk_base (s : State) (p : PDie) (k : Strand) (lo hi : Word) : (State.rrAsk s p k lo hi).base = s.base := by
  simp [State.rrAsk]

theorem execRrRequest_base (k : Strand) (p : PDie) (lo hi : Word) (s : State) : ∃ s', execRrRequest k p lo hi s = .next s' ∧ s'.base = s.base := by
  refine ⟨_, rfl, ?_⟩
  simp

theorem execRrServe_base (p : PDie) (s : State) : ∃ s', execRrServe p s = .next s' ∧ s'.base = s.base := by
  refine ⟨_, rfl, ?_⟩
  simp

@[simp] theorem State.rrResponse_base (s : State) (p : PDie) (f : RrFrame) : (State.rrResponse s p f).base = s.base := by
  simp [State.rrResponse]

@[simp] theorem State.rrTake_base (s : State) (p : PDie) (sender : Byte) (bs : List Byte) : (State.rrTake s p sender bs).base = s.base := by
  simp [State.rrTake]

theorem execRrResponseReceive_base (p : PDie) (payload : List Byte) (s : State) : ∃ s', execRrResponseReceive p payload s = .next s' ∧ s'.base = s.base := by
  refine ⟨_, rfl, ?_⟩
  simp

@[simp] theorem State.rrSent_base (s : State) (p : PDie) (m : MgFrame) : (State.rrSent s p m).base = s.base := by
  first
  | (simp [State.rrSent, base_foldl, base_foldl_fst, lane_mem, setLane_base, base_mk]; done)
  | (unfold State.rrSent; split <;> simp [base_foldl, base_foldl_fst, lane_mem, setLane_base, base_mk]; done)
  | (unfold State.rrSent; (repeat' split) <;> simp [base_foldl, base_foldl_fst, lane_mem, setLane_base, base_mk]; done)
  | (simp only [State.rrSent]; (repeat' split) <;> simp [base_foldl, base_foldl_fst, lane_mem, setLane_base, base_mk]; done)
  | (unfold State.rrSent
     repeat' (first
      | (simp [base_foldl, base_foldl_fst, lane_mem, setLane_base, base_mk]; done)
      | split
      | refine (base_foldl _ (fun _ _ => ?_) _ _).trans ?_
      | simp [base_foldl, base_foldl_fst, lane_mem, setLane_base, base_mk]
      | (rw [base_of_pair ‹_ = (_, _)›]; simp [base_foldl, base_foldl_fst, lane_mem, setLane_base, base_mk]; done)))

theorem execRrTimeout_base (p : PDie) (k : Strand) (tag : Nat) (s : State) : ∃ s', execRrTimeout p k tag s = .next s' ∧ s'.base = s.base := by
  refine ⟨_, rfl, ?_⟩
  simp

@[simp] theorem State.rrFree_base (s : State) (p : PDie) (k : Strand) (v : Word) : (State.rrFree s p k v).base = s.base := by
  simp [State.rrFree]

theorem execRrFree_base (k : Strand) (p : PDie) (data : Word) (s : State) : ∃ s', execRrFree k p data s = .next s' ∧ s'.base = s.base := by
  refine ⟨_, rfl, ?_⟩
  simp

theorem execRrDiscard_base (p : PDie) (k : Strand) (tag : Nat) (s : State) : ∃ s', execRrDiscard p k tag s = .next s' ∧ s'.base = s.base := by
  refine ⟨_, rfl, ?_⟩
  simp

end Sys2Proof.Machine
end

