-- ==== Sys2Proof/Laws/BaseTrigger.lean ====
section
/-! SUPPORT. Which operations of Machine/Trigger.lean keep the base. -/

namespace Sys2Proof.Machine

@[simp] theorem State.setTsq_base (s : State) (p : PDie) (q : Port) (es : List TsqEntry) : (State.setTsq s p q es).base = s.base := by
  simp [State.setTsq]

@[simp] theorem State.pushTsq_base (s : State) (p : PDie) (q : Port) (e : TsqEntry) : (State.pushTsq s p q e).base = s.base := by
  simp [State.pushTsq]

@[simp] theorem State.tsqPop_base (s : State) (m : Master) (p : PDie) (q : Port) : (State.tsqPop s m p q).1.base = s.base := by
  unfold State.tsqPop
  (repeat' split) <;> simp

theorem execTsqPop_base (m : Master) (p : PDie) (port : Port) (s : State) : ∃ s', execTsqPop m p port s = .next s' ∧ s'.base = s.base := by
  refine ⟨_, rfl, ?_⟩
  simp

@[simp] theorem State.trigAdvance_base (s : State) (p : PDie) (t : Nat) : (State.trigAdvance s p t).base = s.base := by
  simp [State.trigAdvance]

@[simp] theorem State.trigAction_base (s : State) (p : PDie) (t : Nat) : (State.trigAction s p t).base = s.base := by
  simp [State.trigAction]

@[simp] theorem State.trigEffect_base (s : State) (p : PDie) (t : Nat) : (State.trigEffect s p t).base = s.base := by
  simp [State.trigEffect]

@[simp] theorem State.trigPaid_base (s : State) (p : PDie) (t : Nat) : (State.trigPaid s p t).base = s.base := by
  simp [State.trigPaid]

@[simp] theorem State.fireTrigger_base (s : State) (p : PDie) (t : Nat) : (State.fireTrigger s p t).base = s.base := by
  simp [State.fireTrigger]

@[simp] theorem State.trigStep_base (s : State) (p : PDie) : (State.trigStep s p).base = s.base := by
  simp [State.trigStep, base_foldl]

@[simp] theorem State.trigReturn_base (s : State) (p : PDie) : (State.trigReturn s p).base = s.base := by
  simp [State.trigReturn, base_foldl]

theorem execTriggerFire_base (p : PDie) (t : Nat) (s : State) : ∃ s', execTriggerFire p t s = .next s' ∧ s'.base = s.base := by
  refine ⟨_, rfl, ?_⟩
  simp

theorem execCaptureEdge_base (p : PDie) (c : Nat) (e : Edge) (s : State) : ∃ s', execCaptureEdge p c e s = .next s' ∧ s'.base = s.base := by
  refine ⟨_, rfl, ?_⟩
  simp

@[simp] theorem State.noteLate_base (s : State) (p : PDie) (t : Nat) : (State.noteLate s p t).base = s.base := by
  first
  | (simp [State.noteLate, base_foldl, base_foldl_fst, lane_mem, setLane_base, base_mk]; done)
  | (unfold State.noteLate; split <;> simp [base_foldl, base_foldl_fst, lane_mem, setLane_base, base_mk]; done)
  | (unfold State.noteLate; (repeat' split) <;> simp [base_foldl, base_foldl_fst, lane_mem, setLane_base, base_mk]; done)
  | (simp only [State.noteLate]; (repeat' split) <;> simp [base_foldl, base_foldl_fst, lane_mem, setLane_base, base_mk]; done)
  | (unfold State.noteLate
     repeat' (first
      | (simp [base_foldl, base_foldl_fst, lane_mem, setLane_base, base_mk]; done)
      | split
      | refine (base_foldl _ (fun _ _ => ?_) _ _).trans ?_
      | simp [base_foldl, base_foldl_fst, lane_mem, setLane_base, base_mk]
      | (rw [base_of_pair ‹_ = (_, _)›]; simp [base_foldl, base_foldl_fst, lane_mem, setLane_base, base_mk]; done)))

@[simp] theorem State.unitWrite_base (s : State) (m : Master) (p : PDie) (off : Nat) (d : RegDesc) (is : List Nat) (mask data : Word) (wide : Bool) : (State.unitWrite s m p off d is mask data wide).base = s.base := by
  first
  | (simp [State.unitWrite, base_foldl, base_foldl_fst, lane_mem, setLane_base, base_mk]; done)
  | (unfold State.unitWrite; split <;> simp [base_foldl, base_foldl_fst, lane_mem, setLane_base, base_mk]; done)
  | (unfold State.unitWrite; (repeat' split) <;> simp [base_foldl, base_foldl_fst, lane_mem, setLane_base, base_mk]; done)
  | (simp only [State.unitWrite]; (repeat' split) <;> simp [base_foldl, base_foldl_fst, lane_mem, setLane_base, base_mk]; done)
  | (unfold State.unitWrite
     repeat' (first
      | (simp [base_foldl, base_foldl_fst, lane_mem, setLane_base, base_mk]; done)
      | split
      | refine (base_foldl _ (fun _ _ => ?_) _ _).trans ?_
      | simp [base_foldl, base_foldl_fst, lane_mem, setLane_base, base_mk]
      | (rw [base_of_pair ‹_ = (_, _)›]; simp [base_foldl, base_foldl_fst, lane_mem, setLane_base, base_mk]; done)))

@[simp] theorem State.unitWriteAll_base (s : State) (m : Master) (p : PDie) (off size : Nat) (data : Dword) : (State.unitWriteAll s m p off size data).base = s.base := by
  unfold State.unitWriteAll
  repeat' (first
      | (simp [base_foldl, base_foldl_fst, lane_mem, setLane_base, base_mk]; done)
      | split
      | refine (base_foldl _ (fun _ _ => ?_) _ _).trans ?_
      | simp [base_foldl, base_foldl_fst, lane_mem, setLane_base, base_mk]
      | (rw [base_of_pair ‹_ = (_, _)›]; simp [base_foldl, base_foldl_fst, lane_mem, setLane_base, base_mk]; done))

theorem execTriggerWrite_base (m : Master) (p : PDie) (w : RegWrite) (s : State) : ∃ s', execTriggerWrite m p w s = .next s' ∧ s'.base = s.base := by
  refine ⟨_, rfl, ?_⟩
  simp

@[simp] theorem State.setWerrQueue_base (s : State) (d : Die) (q : Nat) (rs : List WerrRec) : (State.setWerrQueue s d q rs).base = s.base := by
  simp [State.setWerrQueue]

@[simp] theorem State.werrPop_base (s : State) (m : Master) (d : Die) (q : Nat) : (State.werrPop s m d q).1.base = s.base := by
  simp only [State.werrPop]
  (repeat' split) <;> simp

theorem execWerrPop_base (m : Master) (d : Die) (q : Nat) (s : State) : ∃ s', execWerrPop m d q s = .next s' ∧ s'.base = s.base := by
  refine ⟨_, rfl, ?_⟩
  simp

end Sys2Proof.Machine
end

