-- ==== Sys2Proof/Laws/BaseKtn.lean ====
section
/-! SUPPORT. Which operations of Machine/Ktn.lean keep the base. -/

namespace Sys2Proof.Machine

@[simp] theorem State.logP_base (s : State) (p : PDie) (c : LogCode) (arg : List Nat) : (State.logP s p c arg).base = s.base := by
  simp [State.logP]

@[simp] theorem State.netLink_base (s : State) (n : NetId) (q : Port) (up : Bool) : (State.netLink s n q up).base = s.base := by
  simp [State.netLink]

theorem execPortLinkChange_base (p : PDie) (port : Port) (up : Bool) (s : State) : ∃ s', execPortLinkChange p port up s = .next s' ∧ s'.base = s.base := by
  refine ⟨_, rfl, ?_⟩
  simp

@[simp] theorem State.setStatusWord_base (s : State) (p : PDie) (w : Half) : (State.setStatusWord s p w).base = s.base := by
  simp [State.setStatusWord]

@[simp] theorem State.setModeResult_base (s : State) (p : PDie) (r : Nat) : (State.setModeResult s p r).base = s.base := by
  simp [State.setModeResult]

@[simp] theorem State.beginCycle_base (s : State) (p : PDie) : (State.beginCycle s p).base = s.base := by
  simp [State.beginCycle]

@[simp] theorem State.judgeRequest_base (s : State) (p : PDie) (due : Option ModeChange) : (State.judgeRequest s p due).base = s.base := by
  unfold State.judgeRequest
  split <;> simp

@[simp] theorem State.nextCycle_base (s : State) (p : PDie) : (State.nextCycle s p).base = s.base := by
  simp only [State.nextCycle]
  (repeat' split) <;> simp

@[simp] theorem State.modeReqWrite_base (s : State) (p : PDie) (v : Word) : (State.modeReqWrite s p v).base = s.base := by
  simp [State.modeReqWrite]

theorem execModeRequest_base (p : PDie) (k : Strand) (data : Word) (s : State) : ∃ s', execModeRequest p k data s = .next s' ∧ s'.base = s.base := by
  refine ⟨_, rfl, ?_⟩
  simp

@[simp] theorem State.takeModeReq_base (s : State) (p : PDie) (f : KFrame) : (State.takeModeReq s p f).base = s.base := by
  simp [State.takeModeReq]

theorem execModeReqReceive_base (p : PDie) (f : KFrame) (s : State) : ∃ s', execModeReqReceive p f s = .next s' ∧ s'.base = s.base := by
  refine ⟨_, rfl, ?_⟩
  simp

@[simp] theorem State.expireChange_base (s : State) (p : PDie) : (State.expireChange s p).base = s.base := by
  simp only [State.expireChange]
  (repeat' split) <;> simp

@[simp] theorem State.expireOwn_base (s : State) (p : PDie) : (State.expireOwn s p).base = s.base := by
  unfold State.expireOwn
  split <;> simp

theorem execModeExpired_base (p : PDie) (s : State) : ∃ s', execModeExpired p s = .next s' ∧ s'.base = s.base := by
  refine ⟨_, rfl, ?_⟩
  simp

@[simp] theorem State.noteCollision_base (s : State) (p : PDie) (hit : Bool) : (State.noteCollision s p hit).base = s.base := by
  simp [State.noteCollision]

@[simp] theorem State.truncate_base (s : State) (p : PDie) (q : Port) (t : Dword) : (State.truncate s p q t).base = s.base := by
  unfold State.truncate
  split <;> simp

@[simp] theorem State.putLine_base (s : State) (p : PDie) (q : Port) (f : KFrame) (start : Dword) : (State.putLine s p q f start).base = s.base := by
  unfold State.putLine
  split <;> simp

@[simp] theorem State.sendOwn_base (s : State) (p : PDie) (sl : Slot) (cut : WE Bool) (o : OwnFrame) : (State.sendOwn s p sl cut o).base = s.base := by
  simp [State.sendOwn, base_foldl]

@[simp] theorem State.oversize_base (s : State) (p : PDie) : (State.oversize s p).base = s.base := by
  simp [State.oversize]

@[simp] theorem State.spoilLines_base (s : State) (p : PDie) : (State.spoilLines s p).base = s.base := by
  unfold State.spoilLines
  repeat' (first
      | (simp [base_foldl, base_foldl_fst, lane_mem, setLane_base, base_mk]; done)
      | split
      | refine (base_foldl _ (fun _ _ => ?_) _ _).trans ?_
      | simp [base_foldl, base_foldl_fst, lane_mem, setLane_base, base_mk]
      | (rw [base_of_pair ‹_ = (_, _)›]; simp [base_foldl, base_foldl_fst, lane_mem, setLane_base, base_mk]; done))

@[simp] theorem State.sendRing_base (s : State) (p : PDie) (sl : Slot) (cut : WE Bool) (kind : BitVec 3) (a : Act) (ue : Bool) : (State.sendRing s p sl cut kind a ue).base = s.base := by
  simp [State.sendRing, base_foldl]

@[simp] theorem State.sendFromRing_base (s : State) (p : PDie) (sl : Slot) (cut : WE Bool) (kind : BitVec 3) (ue : Bool) : (State.sendFromRing s p sl cut kind ue).base = s.base := by
  unfold State.sendFromRing
  repeat' (first
      | (simp; done)
      | split
      | refine (base_foldl _ (fun _ _ => ?_) _ _).trans ?_
      | simp
      | (rw [base_of_pair ‹_ = (_, _)›]; simp; done))

@[simp] theorem State.sendModeReq_base (s : State) (p : PDie) (sl : Slot) (cut : WE Bool) (d : DueRequest) : (State.sendModeReq s p sl cut d).base = s.base := by
  simp [State.sendModeReq]

@[simp] theorem State.noteOwnSync_base (s : State) (p : PDie) (f : KFrame) : (State.noteOwnSync s p f).base = s.base := by
  simp only [State.noteOwnSync]
  (repeat' split) <;> simp

@[simp] theorem State.sendMg_base (s : State) (p : PDie) (sl : Slot) (cut : WE Bool) : (State.sendMg s p sl cut).base = s.base := by
  unfold State.sendMg
  split <;> simp

@[simp] theorem State.sendActive_base (s : State) (p : PDie) (sl : Slot) (cut : WE Bool) (ue : Bool) : (State.sendActive s p sl cut ue).base = s.base := by
  simp only [State.sendActive]
  (repeat' split) <;> simp

@[simp] theorem State.sendCold_base (s : State) (p : PDie) (sl : Slot) (cut : WE Bool) : (State.sendCold s p sl cut).base = s.base := by
  simp [State.sendCold]

theorem execOwnFrameSend_base (p : PDie) (slot : Nat) (ue : Bool) (s : State) : ∃ s', execOwnFrameSend p slot ue s = .next s' ∧ s'.base = s.base := by
  refine ⟨_, rfl, ?_⟩
  (repeat' split) <;> simp

@[simp] theorem State.takeLinkFrame_base (s : State) (n : NetId) (q : Port) (f : LinkDelayFrame) (tRx : Dword) : (State.takeLinkFrame s n q f tRx).1.base = s.base := by
  simp only [State.takeLinkFrame]
  (repeat' split) <;> simp

@[simp] theorem State.linkReject_base (s : State) (p : PDie) (q : Port) : (State.linkReject s p q).base = s.base := by
  simp [State.linkReject]

@[simp] theorem State.linkIn_base (s : State) (p : PDie) (port : Port) (f : LinkDelayFrame) (tRx : Dword) : (State.linkIn s p port f tRx).base = s.base := by
  simp [State.linkIn]

@[simp] theorem State.linkTaken_base (s : State) (p : PDie) (port : Port) (f : LinkDelayFrame) (ago : Nat) : (State.linkTaken s p port f ago).base = s.base := by
  first
  | (simp [State.linkTaken, base_foldl, base_foldl_fst, lane_mem, setLane_base, base_mk]; done)
  | (unfold State.linkTaken; split <;> simp [base_foldl, base_foldl_fst, lane_mem, setLane_base, base_mk]; done)
  | (unfold State.linkTaken; (repeat' split) <;> simp [base_foldl, base_foldl_fst, lane_mem, setLane_base, base_mk]; done)
  | (simp only [State.linkTaken]; (repeat' split) <;> simp [base_foldl, base_foldl_fst, lane_mem, setLane_base, base_mk]; done)
  | (unfold State.linkTaken
     repeat' (first
      | (simp [base_foldl, base_foldl_fst, lane_mem, setLane_base, base_mk]; done)
      | split
      | refine (base_foldl _ (fun _ _ => ?_) _ _).trans ?_
      | simp [base_foldl, base_foldl_fst, lane_mem, setLane_base, base_mk]
      | (rw [base_of_pair ‹_ = (_, _)›]; simp [base_foldl, base_foldl_fst, lane_mem, setLane_base, base_mk]; done)))

@[simp] theorem State.dropForward_base (s : State) (p : PDie) (q : Port) : (State.dropForward s p q).base = s.base := by
  unfold State.dropForward
  split <;> simp

@[simp] theorem State.passOn_base (s : State) (p : PDie) (port : Port) (f : KFrame) (tRx : Dword) (residence : Nat) : (State.passOn s p port f tRx residence).base = s.base := by
  simp [State.passOn]

theorem execFrameForward_base (p : PDie) (port : Port) (f : KFrame) (ago : Nat) (residence : Nat) (s : State) : ∃ s', execFrameForward p port f ago residence s = .next s' ∧ s'.base = s.base := by
  refine ⟨_, rfl, ?_⟩
  simp

@[simp] theorem State.deliverFrame_base (s : State) (p : PDie) (port : Port) (f : KFrame) (tRx : Dword) (sl : Slot) (ue : Bool) : (State.deliverFrame s p port f tRx sl ue).base = s.base := by
  unfold State.deliverFrame
  split <;> simp

@[simp] theorem State.checkConflict_base (s : State) (p : PDie) (f : KFrame) : (State.checkConflict s p f).base = s.base := by
  simp [State.checkConflict]

@[simp] theorem State.checkSched_base (s : State) (p : PDie) (f : KFrame) : (State.checkSched s p f).base = s.base := by
  simp [State.checkSched]

@[simp] theorem State.acceptFrame_base (s : State) (p : PDie) (w : WaitCopy) (P : Int) (sl : Slot) : (State.acceptFrame s p w P sl).base = s.base := by
  simp [State.acceptFrame]

@[simp] theorem State.follows_base (s : State) (p : PDie) (port : Port) (f : KFrame) (tRx : Dword) : (State.follows s p port f tRx).base = s.base := by
  simp [State.follows]

@[simp] theorem State.earlyUse_base (s : State) (p : PDie) (w : WaitCopy) : (State.earlyUse s p w).base = s.base := by
  first
  | (simp [State.earlyUse, base_foldl, base_foldl_fst, lane_mem, setLane_base, base_mk]; done)
  | (unfold State.earlyUse; split <;> simp [base_foldl, base_foldl_fst, lane_mem, setLane_base, base_mk]; done)
  | (unfold State.earlyUse; (repeat' split) <;> simp [base_foldl, base_foldl_fst, lane_mem, setLane_base, base_mk]; done)
  | (simp only [State.earlyUse]; (repeat' split) <;> simp [base_foldl, base_foldl_fst, lane_mem, setLane_base, base_mk]; done)
  | (unfold State.earlyUse
     repeat' (first
      | (simp [base_foldl, base_foldl_fst, lane_mem, setLane_base, base_mk]; done)
      | split
      | refine (base_foldl _ (fun _ _ => ?_) _ _).trans ?_
      | simp [base_foldl, base_foldl_fst, lane_mem, setLane_base, base_mk]
      | (rw [base_of_pair ‹_ = (_, _)›]; simp [base_foldl, base_foldl_fst, lane_mem, setLane_base, base_mk]; done)))

@[simp] theorem State.slotUse_base (s : State) (p : PDie) (w : WaitCopy) : (State.slotUse s p w).base = s.base := by
  first
  | (simp [State.slotUse, base_foldl, base_foldl_fst, lane_mem, setLane_base, base_mk]; done)
  | (unfold State.slotUse; split <;> simp [base_foldl, base_foldl_fst, lane_mem, setLane_base, base_mk]; done)
  | (unfold State.slotUse; (repeat' split) <;> simp [base_foldl, base_foldl_fst, lane_mem, setLane_base, base_mk]; done)
  | (simp only [State.slotUse]; (repeat' split) <;> simp [base_foldl, base_foldl_fst, lane_mem, setLane_base, base_mk]; done)
  | (unfold State.slotUse
     repeat' (first
      | (simp [base_foldl, base_foldl_fst, lane_mem, setLane_base, base_mk]; done)
      | split
      | refine (base_foldl _ (fun _ _ => ?_) _ _).trans ?_
      | simp [base_foldl, base_foldl_fst, lane_mem, setLane_base, base_mk]
      | (rw [base_of_pair ‹_ = (_, _)›]; simp [base_foldl, base_foldl_fst, lane_mem, setLane_base, base_mk]; done)))

@[simp] theorem State.copyUse_base (s : State) (p : PDie) (w : WaitCopy) : (State.copyUse s p w).base = s.base := by
  simp only [State.copyUse]
  (repeat' split) <;> simp

@[simp] theorem State.copyOffer_base (s : State) (p : PDie) (key : Nat) (port : Port) (f : KFrame) (tRx : Dword) (ue : Bool) : (State.copyOffer s p key port f tRx ue).1.base = s.base := by
  simp [State.copyOffer]

@[simp] theorem State.copySettle_base (s : State) (p : PDie) : (State.copySettle s p).base = s.base := by
  simp [State.copySettle]

@[simp] theorem State.noteForeign_base (s : State) (n : NetId) (f : KFrame) : (State.noteForeign s n f).base = s.base := by
  simp [State.noteForeign]

@[simp] theorem State.frameActive_base (s : State) (p : PDie) (port : Port) (f : KFrame) (tRx : Dword) (ue : Bool) : (State.frameActive s p port f tRx ue).base = s.base := by
  simp only [State.frameActive]
  (repeat' split) <;> simp

@[simp] theorem State.frameAdopted_base (s : State) (p : PDie) (port : Port) (f : KFrame) (tRx : Dword) (ue : Bool) : (State.frameAdopted s p port f tRx ue).base = s.base := by
  simp [State.frameAdopted]

@[simp] theorem State.frameIn_base (s : State) (p : PDie) (port : Port) (f : KFrame) (tRx : Dword) (ue : Bool) : (State.frameIn s p port f tRx ue).base = s.base := by
  simp only [State.frameIn]
  (repeat' split) <;> simp

@[simp] theorem State.corrupted_base (s : State) (p : PDie) : (State.corrupted s p).base = s.base := by
  simp [State.corrupted]

theorem execFrameReceive_base (p : PDie) (port : Port) (f : KFrame) (ago : Nat) (ue : Bool) (s : State) : ∃ s', execFrameReceive p port f ago ue s = .next s' ∧ s'.base = s.base := by
  refine ⟨_, rfl, ?_⟩
  simp

theorem execCycleStart_base (p : PDie) (s : State) : ∃ s', execCycleStart p s = .next s' ∧ s'.base = s.base := by
  refine ⟨_, rfl, ?_⟩
  simp

@[simp] theorem State.coldStart_base (s : State) (p : PDie) : (State.coldStart s p).base = s.base := by
  simp [State.coldStart]

theorem execListenTimeout_base (p : PDie) (s : State) : ∃ s', execListenTimeout p s = .next s' ∧ s'.base = s.base := by
  refine ⟨_, rfl, ?_⟩
  (repeat' split) <;> simp

theorem execBackoffExpire_base (p : PDie) (s : State) : ∃ s', execBackoffExpire p s = .next s' ∧ s'.base = s.base := by
  refine ⟨_, rfl, ?_⟩
  simp

theorem execIdConflictClear_base (p : PDie) (s : State) : ∃ s', execIdConflictClear p s = .next s' ∧ s'.base = s.base := by
  refine ⟨_, rfl, ?_⟩
  simp

theorem execInaugRecordExpire_base (p : PDie) (s : State) : ∃ s', execInaugRecordExpire p s = .next s' ∧ s'.base = s.base := by
  refine ⟨_, rfl, ?_⟩
  simp

@[simp] theorem State.settleView_base (s : State) (p : PDie) : (State.settleView s p).base = s.base := by
  simp only [State.settleView]
  (repeat' split) <;> simp

@[simp] theorem State.settleGuardView_base (s : State) (p : PDie) : (State.settleGuardView s p).base = s.base := by
  simp [State.settleGuardView]

theorem execInaugViewStable_base (p : PDie) (s : State) : ∃ s', execInaugViewStable p s = .next s' ∧ s'.base = s.base := by
  refine ⟨_, rfl, ?_⟩
  simp

end Sys2Proof.Machine
end

