-- ==== Sys2Proof/Laws/BaseKtnTime.lean ====
section
/-! SUPPORT. Which operations of Machine/KtnTime.lean keep the base. -/

namespace Sys2Proof.Machine

@[simp] theorem State.endColdStart_base (s : State) (n : NetId) : (State.endColdStart s n).base = s.base := by
  simp [State.endColdStart]

@[simp] theorem State.endCycle_base (s : State) (p : PDie) : (State.endCycle s p).base = s.base := by
  simp only [State.endCycle]
  (repeat' split) <;> simp

theorem execCycleEndSync_base (p : PDie) (s : State) : ∃ s', execCycleEndSync p s = .next s' ∧ s'.base = s.base := by
  refine ⟨_, rfl, ?_⟩
  simp

theorem execHoldoverExpire_base (p : PDie) (s : State) : ∃ s', execHoldoverExpire p s = .next s' ∧ s'.base = s.base := by
  refine ⟨_, rfl, ?_⟩
  simp

@[simp] theorem State.undrop_base (s : State) (n : NetId) (node : Nat) : (State.undrop s n node).base = s.base := by
  simp only [State.undrop]
  (repeat' split) <;> simp

theorem execPathDropExpire_base (p : PDie) (node : Byte) (s : State) : ∃ s', execPathDropExpire p node s = .next s' ∧ s'.base = s.base := by
  refine ⟨_, rfl, ?_⟩
  simp

@[simp] theorem State.noteLinkSent_base (s : State) (n : NetId) (q : Port) (tx : Dword) : (State.noteLinkSent s n q tx).base = s.base := by
  simp [State.noteLinkSent]

@[simp] theorem State.sendLink_base (s : State) (p : PDie) (q : Port) : (State.sendLink s p q).base = s.base := by
  simp [State.sendLink]

theorem execLinkDelaySend_base (p : PDie) (s : State) : ∃ s', execLinkDelaySend p s = .next s' ∧ s'.base = s.base := by
  refine ⟨_, rfl, ?_⟩
  simp [base_foldl]

theorem execLinkDelayReceive_base (p : PDie) (port : Port) (f : LinkDelayFrame) (ago : Nat) (s : State) : ∃ s', execLinkDelayReceive p port f ago s = .next s' ∧ s'.base = s.base := by
  refine ⟨_, rfl, ?_⟩
  simp

@[simp] theorem State.mapLink_base (s : State) (n : NetId) (q : Port) (f : LinkState → LinkState) : (State.mapLink s n q f).base = s.base := by
  simp [State.mapLink]

@[simp] theorem State.linkPeriod_base (s : State) (n : NetId) (q : Port) : (State.linkPeriod s n q).base = s.base := by
  simp [State.linkPeriod]

@[simp] theorem State.linkStale_base (s : State) (n : NetId) (q : Port) : (State.linkStale s n q).base = s.base := by
  simp [State.linkStale]

theorem execLinkDelayUpdate_base (p : PDie) (port : Port) (s : State) : ∃ s', execLinkDelayUpdate p port s = .next s' ∧ s'.base = s.base := by
  refine ⟨_, rfl, ?_⟩
  simp

theorem execLinkDelayStale_base (p : PDie) (port : Port) (s : State) : ∃ s', execLinkDelayStale p port s = .next s' ∧ s'.base = s.base := by
  refine ⟨_, rfl, ?_⟩
  simp

end Sys2Proof.Machine
end

