-- ==== Sys2Proof/Laws/BaseKtnCommit.lean ====
section
/-! SUPPORT. Which operations of Machine/KtnCommit.lean keep the base. -/

namespace Sys2Proof.Machine

@[simp] theorem State.applyTables_base (s : State) (n : NetId) : (State.applyTables s n).base = s.base := by
  simp [State.applyTables, base_foldl]

@[simp] theorem State.takeTables_base (s : State) (p : PDie) : (State.takeTables s p).base = s.base := by
  simp [State.takeTables]

@[simp] theorem State.takeGuardTables_base (s : State) (p : PDie) : (State.takeGuardTables s p).base = s.base := by
  simp [State.takeGuardTables]

@[simp] theorem State.ttTakeEffect_base (s : State) (p : PDie) : (State.ttTakeEffect s p).base = s.base := by
  simp [State.ttTakeEffect]

@[simp] theorem State.ttRefuse_base (s : State) (p : PDie) (code : Nat) : (State.ttRefuse s p code).base = s.base := by
  simp [State.ttRefuse]

@[simp] theorem State.ttGo_base (s : State) (p : PDie) : (State.ttGo s p).base = s.base := by
  simp only [State.ttGo]
  (repeat' split) <;> simp

theorem execTtCommitGo_base (p : PDie) (s : State) : ∃ s', execTtCommitGo p s = .next s' ∧ s'.base = s.base := by
  refine ⟨_, rfl, ?_⟩
  simp

@[simp] theorem State.guardCheck_base (s : State) (p : PDie) : (State.guardCheck s p).base = s.base := by
  simp only [State.guardCheck]
  (repeat' split) <;> simp

theorem execGuardCommitCheck_base (p : PDie) (s : State) : ∃ s', execGuardCommitCheck p s = .next s' ∧ s'.base = s.base := by
  refine ⟨_, rfl, ?_⟩
  simp

@[simp] theorem State.guardReply_base (s : State) (p : PDie) : (State.guardReply s p).base = s.base := by
  simp only [State.guardReply]
  (repeat' split) <;> simp

theorem execGuardCommitReply_base (p : PDie) (s : State) : ∃ s', execGuardCommitReply p s = .next s' ∧ s'.base = s.base := by
  refine ⟨_, rfl, ?_⟩
  simp

theorem execGuardTimeout_base (p : PDie) (s : State) : ∃ s', execGuardTimeout p s = .next s' ∧ s'.base = s.base := by
  refine ⟨_, rfl, ?_⟩
  split <;> simp

theorem execTtCommitTakeEffect_base (p : PDie) (s : State) : ∃ s', execTtCommitTakeEffect p s = .next s' ∧ s'.base = s.base := by
  refine ⟨_, rfl, ?_⟩
  split <;> simp

end Sys2Proof.Machine
end

