-- ==== Sys2Proof/Laws/BaseFieldOut.lean ====
section
/-! SUPPORT. Which operations of Machine/FieldOut.lean keep the base. -/

namespace Sys2Proof.Machine

@[simp] theorem State.useDie_base (s : State) (act : Nat) (p : PDie) (fallback : Bool) : (State.useDie s act p fallback).base = s.base := by
  simp [State.useDie]

@[simp] theorem State.markPref_base (s : State) (act : Nat) : (State.markPref s act).base = s.base := by
  simp [State.markPref, base_mk]

@[simp] theorem State.noteTrigger_base (s : State) (act : Nat) (p : PDie) : (State.noteTrigger s act p).base = s.base := by
  simp [State.noteTrigger]

theorem execTriggerFallback_base (action : BitVec 2) (s : State) : ∃ s', execTriggerFallback action s = .next s' ∧ s'.base = s.base := by
  refine ⟨_, rfl, ?_⟩
  simp

@[simp] theorem State.takeTrigSel_base (s : State) : (State.takeTrigSel s).base = s.base := by
  simp [State.takeTrigSel, base_foldl, base_mk]

@[simp] theorem State.commandLatches_base (s : State) (l : Lane) (k : Strand) (w : Word) : (State.commandLatches s l k w).base = s.base := by
  simp [State.commandLatches]

@[simp] theorem State.doCmdTake_base (s : State) (l : Lane) (k : Strand) (ordinal : Word) (w : Word) : (State.doCmdTake s l k ordinal w).base = s.base := by
  simp [State.doCmdTake]

theorem execDoCmdBeat_base (l : Lane) (k : Strand) (ordinal : Word) (data : Word) (s : State) : ∃ s', execDoCmdBeat l k ordinal data s = .next s' ∧ s'.base = s.base := by
  refine ⟨_, rfl, ?_⟩
  simp

@[simp] theorem State.updateOutputs_base (s : State) : (State.updateOutputs s).base = s.base := by
  simp [State.updateOutputs, base_foldl]

theorem State.takeMark_base (s : State) (p : PDie) (a : Nat) : ∀ s', State.takeMark s p a = some s' → s'.base = s.base := by
  simp [State.takeMark]

theorem execOutputUpdateInstant_base (p : PDie) (s : State) :
    ∃ s', execOutputUpdateInstant p s = .next s' ∧ s'.base = s.base := by
  refine ⟨_, rfl, ?_⟩
  split
  · rename_i u h
    have hb := State.takeMark_base _ _ _ u h
    (repeat' split) <;> simp [hb]
  · rfl

@[simp] theorem State.latchFault_base (s : State) (n cause : Nat) : (State.latchFault s n cause).base = s.base := by
  simp [State.latchFault]

@[simp] theorem State.clearFault_base (s : State) (n : Nat) : (State.clearFault s n).base = s.base := by
  simp [State.clearFault]

@[simp] theorem State.clearFaults_base (s : State) (k : Strand) (w : Word) : (State.clearFaults s k w).base = s.base := by
  simp [State.clearFaults, base_foldl]

theorem execDoFaultClear_base (k : Strand) (data : Word) (s : State) : ∃ s', execDoFaultClear k data s = .next s' ∧ s'.base = s.base := by
  refine ⟨_, rfl, ?_⟩
  simp

theorem execOvercurrent_base (n : Nat) (s : State) : ∃ s', execOvercurrent n s = .next s' ∧ s'.base = s.base := by
  refine ⟨_, rfl, ?_⟩
  simp

theorem execThermal_base (n : Nat) (s : State) : ∃ s', execThermal n s = .next s' ∧ s'.base = s.base := by
  refine ⟨_, rfl, ?_⟩
  simp

theorem execGroupOvercurrent_base (second : Bool) (s : State) : ∃ s', execGroupOvercurrent second s = .next s' ∧ s'.base = s.base := by
  refine ⟨_, rfl, ?_⟩
  simp [base_foldl]

theorem execOutVerifyDelayExpire_base (n : Nat) (s : State) : ∃ s', execOutVerifyDelayExpire n s = .next s' ∧ s'.base = s.base := by
  refine ⟨_, rfl, ?_⟩
  simp

@[simp] theorem State.verifyOut_base (s : State) (n : Nat) : (State.verifyOut s n).base = s.base := by
  simp [State.verifyOut]

theorem execOffPulseStart_base (n : Nat) (s : State) : ∃ s', execOffPulseStart n s = .next s' ∧ s'.base = s.base := by
  refine ⟨_, rfl, ?_⟩
  simp

theorem execOffPulseEnd_base (n : Nat) (s : State) : ∃ s', execOffPulseEnd n s = .next s' ∧ s'.base = s.base := by
  refine ⟨_, rfl, ?_⟩
  (repeat' split) <;> simp

theorem execFieldSupplyChange_base (second : Bool) (present : Bool) (s : State) : ∃ s', execFieldSupplyChange second present s = .next s' ∧ s'.base = s.base := by
  refine ⟨_, rfl, ?_⟩
  simp

end Sys2Proof.Machine
end

