-- ==== Sys2Proof/Laws/BaseFieldIn.lean ====
section
/-! SUPPORT. Which operations of Machine/FieldIn.lean keep the base. -/

namespace Sys2Proof.Machine

@[simp] theorem State.setFieldChan_base (s : State) (l : Lane) (x : FieldChan) : (State.setFieldChan s l x).base = s.base := by
  simp [State.setFieldChan, base_mk]

@[simp] theorem State.pushCos_base (s : State) (k : Strand) (e : CosEntry) : (State.pushCos s k e).base = s.base := by
  simp [State.pushCos, base_mk]

@[simp] theorem State.detectCos_base (s : State) (new : Word) (now : Nat) (time : Dword) : (State.detectCos s new now time).base = s.base := by
  simp [State.detectCos, base_foldl, base_mk]

@[simp] theorem State.showWire_base (s : State) : (State.showWire s).base = s.base := by
  simp [State.showWire, base_foldl]

@[simp] theorem State.showAiFault_base (s : State) (n : Nat) : (State.showAiFault s n).base = s.base := by
  simp [State.showAiFault]

@[simp] theorem State.completeAi_base (s : State) (c : AiConv) : (State.completeAi s c).base = s.base := by
  simp [State.completeAi, base_foldl]

@[simp] theorem State.dueAi_base (s : State) (now : Nat) : (State.dueAi s now).base = s.base := by
  simp [State.dueAi, base_foldl, base_mk]

@[simp] theorem State.convert_base (s : State) (byTrigger : Bool) (raw : Tri (List AiRaw)) : (State.convert s byTrigger raw).base = s.base := by
  simp [State.convert, base_mk]

theorem execAiConversionStart_base (trigger : Option PDie) (raw : Tri (List AiRaw)) (s : State) :
    ∃ s', execAiConversionStart trigger raw s = .next s' ∧ s'.base = s.base := by
  refine ⟨_, rfl, ?_⟩
  split
  · split <;> simp [base_mk]
  · split
    · rename_i u h
      have hb := State.takeMark_base _ _ _ u h
      (repeat' split) <;> simp [hb, base_mk]
    · rfl

theorem execAiDone_base (s : State) : ∃ s', execAiDone s = .next s' ∧ s'.base = s.base := by
  refine ⟨_, rfl, ?_⟩
  (repeat' split) <;> simp [base_mk]

@[simp] theorem State.fdAtSample_base (s : State) (now : Nat) : (State.fdAtSample s now).1.base = s.base := by
  unfold State.fdAtSample
  (repeat' split) <;> simp [base_foldl, base_mk]

@[simp] theorem State.fdGo_base (s : State) : (State.fdGo s).base = s.base := by
  simp [State.fdGo]

theorem execFdCommitGo_base (s : State) : ∃ s', execFdCommitGo s = .next s' ∧ s'.base = s.base := by
  refine ⟨_, rfl, ?_⟩
  simp

@[simp] theorem State.takeUnstaged_base (s : State) : (State.takeUnstaged s).base = s.base := by
  simp [State.takeUnstaged, base_mk]

@[simp] theorem State.sample_base (s : State) (raw : Tri ChannelRaw) (now : Nat) : (State.sample s raw now).base = s.base := by
  simp [State.sample, base_foldl, base_mk]

theorem execFieldSample_base (raw : Tri ChannelRaw) (s : State) : ∃ s', execFieldSample raw s = .next s' ∧ s'.base = s.base := by
  refine ⟨_, rfl, ?_⟩
  simp

theorem execChannelSelfTest_base (ch : Lane) (pass : Bool) (s : State) : ∃ s', execChannelSelfTest ch pass s = .next s' ∧ s'.base = s.base := by
  refine ⟨_, rfl, ?_⟩
  simp

@[simp] theorem State.noteInstant_base (s : State) (p : PDie) (at' : Nat) : (State.noteInstant s p at').base = s.base := by
  simp [State.noteInstant, base_mk]

theorem execTriggerAnnounce_base (p : PDie) (ahead : Option Nat) (s : State) :
    ∃ s', execTriggerAnnounce p ahead s = .next s' ∧ s'.base = s.base := by
  refine ⟨_, rfl, ?_⟩
  split
  · (repeat' split) <;> simp
  · split
    · rename_i u h
      have hb := State.takeMark_base _ _ _ u h
      (repeat' split) <;> simp [hb]
    · rfl

@[simp] theorem State.cosPop_base (s : State) (k : Strand) : (State.cosPop s k).1.base = s.base := by
  unfold State.cosPop
  split <;> simp [base_mk]

theorem execCosPop_base (k : Strand) (s : State) : ∃ s', execCosPop k s = .next s' ∧ s'.base = s.base := by
  refine ⟨_, rfl, ?_⟩
  simp

@[simp] theorem State.cosOverflow_base (s : State) (k : Strand) : (State.cosOverflow s k).1.base = s.base := by
  simp [State.cosOverflow, base_mk]

end Sys2Proof.Machine
end

