-- ==== Sys2Proof/Laws/BaseGuardian.lean ====
section
/-! SUPPORT. Which operations of Machine/Guardian.lean keep the base. -/

namespace Sys2Proof.Machine

@[simp] theorem State.ownCold_base (s : State) (p : PDie) (f : KFrame) (tRx : Dword) (P : Int) : (State.ownCold s p f tRx P).base = s.base := by
  simp [State.ownCold]

@[simp] theorem State.tapEarly_base (s : State) (p : PDie) (w : WaitCopy) : (State.tapEarly s p w).base = s.base := by
  first
  | (simp [State.tapEarly, base_foldl, base_foldl_fst, lane_mem, setLane_base, base_mk]; done)
  | (unfold State.tapEarly; split <;> simp [base_foldl, base_foldl_fst, lane_mem, setLane_base, base_mk]; done)
  | (unfold State.tapEarly; (repeat' split) <;> simp [base_foldl, base_foldl_fst, lane_mem, setLane_base, base_mk]; done)
  | (simp only [State.tapEarly]; (repeat' split) <;> simp [base_foldl, base_foldl_fst, lane_mem, setLane_base, base_mk]; done)
  | (unfold State.tapEarly
     repeat' (first
      | (simp [base_foldl, base_foldl_fst, lane_mem, setLane_base, base_mk]; done)
      | split
      | refine (base_foldl _ (fun _ _ => ?_) _ _).trans ?_
      | simp [base_foldl, base_foldl_fst, lane_mem, setLane_base, base_mk]
      | (rw [base_of_pair ‹_ = (_, _)›]; simp [base_foldl, base_foldl_fst, lane_mem, setLane_base, base_mk]; done)))

@[simp] theorem State.tapSlot_base (s : State) (p : PDie) (w : WaitCopy) : (State.tapSlot s p w).base = s.base := by
  first
  | (simp [State.tapSlot, base_foldl, base_foldl_fst, lane_mem, setLane_base, base_mk]; done)
  | (unfold State.tapSlot; split <;> simp [base_foldl, base_foldl_fst, lane_mem, setLane_base, base_mk]; done)
  | (unfold State.tapSlot; (repeat' split) <;> simp [base_foldl, base_foldl_fst, lane_mem, setLane_base, base_mk]; done)
  | (simp only [State.tapSlot]; (repeat' split) <;> simp [base_foldl, base_foldl_fst, lane_mem, setLane_base, base_mk]; done)
  | (unfold State.tapSlot
     repeat' (first
      | (simp [base_foldl, base_foldl_fst, lane_mem, setLane_base, base_mk]; done)
      | split
      | refine (base_foldl _ (fun _ _ => ?_) _ _).trans ?_
      | simp [base_foldl, base_foldl_fst, lane_mem, setLane_base, base_mk]
      | (rw [base_of_pair ‹_ = (_, _)›]; simp [base_foldl, base_foldl_fst, lane_mem, setLane_base, base_mk]; done)))

@[simp] theorem State.tapUse_base (s : State) (p : PDie) (w : WaitCopy) : (State.tapUse s p w).base = s.base := by
  simp only [State.tapUse]
  (repeat' split) <;> simp

@[simp] theorem State.tapOffer_base (s : State) (p : PDie) (key : Nat) (port : Port) (own : Bool) (f : KFrame) (tRx : Dword) : (State.tapOffer s p key port own f tRx).base = s.base := by
  simp [State.tapOffer]

@[simp] theorem State.tapActive_base (s : State) (p : PDie) (port : Port) (own : Bool) (f : KFrame) (tRx : Dword) (P : Int) : (State.tapActive s p port own f tRx P).base = s.base := by
  simp only [State.tapActive]
  (repeat' split) <;> simp

@[simp] theorem State.tapAdopted_base (s : State) (p : PDie) (port : Port) (own : Bool) (f : KFrame) (tRx : Dword) : (State.tapAdopted s p port own f tRx).base = s.base := by
  simp [State.tapAdopted]

@[simp] theorem State.tapFrame_base (s : State) (p : PDie) (port : Port) (own : Bool) (f : KFrame) (tRx : Dword) : (State.tapFrame s p port own f tRx).base = s.base := by
  simp only [State.tapFrame]
  (repeat' split) <;> simp

theorem execGuardFrameTap_base (p : PDie) (port : Port) (own : Bool) (f : KFrame) (ago : Nat) (s : State) : ∃ s', execGuardFrameTap p port own f ago s = .next s' ∧ s'.base = s.base := by
  refine ⟨_, rfl, ?_⟩
  simp

@[simp] theorem State.endOpen_base (s : State) (n : NetId) : (State.endOpen s n).base = s.base := by
  simp [State.endOpen]

@[simp] theorem State.agedViols_base (s : State) (p : PDie) : (State.agedViols s p).base = s.base := by
  simp [State.agedViols]

@[simp] theorem State.guardNextCycle_base (s : State) (p : PDie) : (State.guardNextCycle s p).base = s.base := by
  simp [State.guardNextCycle]

theorem execGuardCycleEnd_base (p : PDie) (s : State) : ∃ s', execGuardCycleEnd p s = .next s' ∧ s'.base = s.base := by
  refine ⟨_, rfl, ?_⟩
  dsimp only
  (repeat' split) <;> simp

theorem execGuardListenTimeout_base (p : PDie) (s : State) : ∃ s', execGuardListenTimeout p s = .next s' ∧ s'.base = s.base := by
  refine ⟨_, rfl, ?_⟩
  (repeat' split) <;> simp

theorem execGuardHoldExpire_base (p : PDie) (s : State) : ∃ s', execGuardHoldExpire p s = .next s' ∧ s'.base = s.base := by
  refine ⟨_, rfl, ?_⟩
  simp

@[simp] theorem State.latchGuard_base (s : State) (p : PDie) : (State.latchGuard s p).base = s.base := by
  simp [State.latchGuard]

@[simp] theorem State.violation_base (s : State) (p : PDie) (hi lo : Nat) (t : Dword) : (State.violation s p hi lo t).base = s.base := by
  simp [State.violation]

@[simp] theorem State.cutLine_base (s : State) (p : PDie) (lasted : Nat) (q : Port) : (State.cutLine s p lasted q).base = s.base := by
  simp only [State.cutLine]
  (repeat' split) <;> simp

@[simp] theorem State.cutLinks_base (s : State) (p : PDie) : (State.cutLinks s p).base = s.base := by
  first
  | (simp [State.cutLinks, base_foldl, base_foldl_fst, lane_mem, setLane_base, base_mk]; done)
  | (unfold State.cutLinks; split <;> simp [base_foldl, base_foldl_fst, lane_mem, setLane_base, base_mk]; done)
  | (unfold State.cutLinks; (repeat' split) <;> simp [base_foldl, base_foldl_fst, lane_mem, setLane_base, base_mk]; done)
  | (simp only [State.cutLinks]; (repeat' split) <;> simp [base_foldl, base_foldl_fst, lane_mem, setLane_base, base_mk]; done)
  | (unfold State.cutLinks
     repeat' (first
      | (simp [base_foldl, base_foldl_fst, lane_mem, setLane_base, base_mk]; done)
      | split
      | refine (base_foldl _ (fun _ _ => ?_) _ _).trans ?_
      | simp [base_foldl, base_foldl_fst, lane_mem, setLane_base, base_mk]
      | (rw [base_of_pair ‹_ = (_, _)›]; simp [base_foldl, base_foldl_fst, lane_mem, setLane_base, base_mk]; done)))

theorem execGuardTxAttempt_base (p : PDie) (t : Dword) (s : State) : ∃ s', execGuardTxAttempt p t s = .next s' ∧ s'.base = s.base := by
  refine ⟨_, rfl, ?_⟩
  simp

theorem execGuardLengthLimit_base (p : PDie) (t : Dword) (lasted : Nat) (s : State) : ∃ s', execGuardLengthLimit p t lasted s = .next s' ∧ s'.base = s.base := by
  refine ⟨_, rfl, ?_⟩
  split <;> simp [base_foldl]

@[simp] theorem State.guardUnlatch_base (s : State) (p : PDie) : (State.guardUnlatch s p).base = s.base := by
  simp [State.guardUnlatch]

theorem execGuardReset_base (p : PDie) (s : State) : ∃ s', execGuardReset p s = .next s' ∧ s'.base = s.base := by
  refine ⟨_, rfl, ?_⟩
  simp

theorem execGuardFenceCommand_base (p : PDie) (l : Lane) (s : State) : ∃ s', execGuardFenceCommand p l s = .next s' ∧ s'.base = s.base := by
  refine ⟨_, rfl, ?_⟩
  simp

end Sys2Proof.Machine
end

