-- ==== Sys2Proof/Laws/BaseLease.lean ====
section
/-! SUPPORT. Which operations of Machine/Lease.lean keep the base. -/

namespace Sys2Proof.Machine

@[simp] theorem State.setLease_base (s : State) (p : PDie) (x : LeaseTimer) : (State.setLease s p x).base = s.base := by
  simp [State.setLease]

@[simp] theorem State.setLeaseState_base (s : State) (p : PDie) (st : Nat) (until' : Half) : (State.setLeaseState s p st until').base = s.base := by
  simp [State.setLeaseState]

@[simp] theorem State.bumpHalf_base (s : State) (p : PDie) : (State.bumpHalf s p).base = s.base := by
  simp [State.bumpHalf]

@[simp] theorem State.bumpConflict_base (s : State) (p : PDie) : (State.bumpConflict s p).base = s.base := by
  simp [State.bumpConflict]

@[simp] theorem State.bumpExpired_base (s : State) (p : PDie) : (State.bumpExpired s p).base = s.base := by
  simp [State.bumpExpired]

@[simp] theorem State.requalify_base (s : State) (p : PDie) : (State.requalify s p).base = s.base := by
  simp [State.requalify]

@[simp] theorem State.leaseEnable_base (s : State) (p : PDie) : (State.leaseEnable s p).base = s.base := by
  simp [State.leaseEnable]

@[simp] theorem State.leaseAtRelease_base (s : State) : (State.leaseAtRelease s).base = s.base := by
  simp [State.leaseAtRelease, base_foldl]

@[simp] theorem State.leaseFrame_base (s : State) (p : PDie) (f : KFrame) (tOk : Bool) : (State.leaseFrame s p f tOk).base = s.base := by
  simp only [State.leaseFrame]
  (repeat' split) <;> simp

theorem execLeaseFrameReceive_base (p : PDie) (port : Port) (own : Bool) (f : KFrame) (ago : Nat) (s : State) : ∃ s', execLeaseFrameReceive p port own f ago s = .next s' ∧ s'.base = s.base := by
  refine ⟨_, rfl, ?_⟩
  simp

@[simp] theorem State.leaseStart_base (s : State) (p : PDie) : (State.leaseStart s p).base = s.base := by
  simp [State.leaseStart]

theorem execLeaseCycleStart_base (p : PDie) (s : State) : ∃ s', execLeaseCycleStart p s = .next s' ∧ s'.base = s.base := by
  refine ⟨_, rfl, ?_⟩
  simp

@[simp] theorem State.countSilent_base (s : State) (p : PDie) : (State.countSilent s p).base = s.base := by
  simp [State.countSilent]

@[simp] theorem State.endProvisional_base (s : State) (p : PDie) (until' : Half) : (State.endProvisional s p until').base = s.base := by
  simp [State.endProvisional]

@[simp] theorem State.endHeld_base (s : State) (p : PDie) (until' : Half) : (State.endHeld s p until').base = s.base := by
  simp [State.endHeld]

@[simp] theorem State.leaseEnd_base (s : State) (p : PDie) : (State.leaseEnd s p).base = s.base := by
  simp [State.leaseEnd]

theorem execLeaseCycleEnd_base (p : PDie) (s : State) : ∃ s', execLeaseCycleEnd p s = .next s' ∧ s'.base = s.base := by
  refine ⟨_, rfl, ?_⟩
  simp

theorem execLeaseUnqualified_base (p : PDie) (s : State) : ∃ s', execLeaseUnqualified p s = .next s' ∧ s'.base = s.base := by
  refine ⟨_, rfl, ?_⟩
  simp

@[simp] theorem State.lsCmd_base (s : State) (p : PDie) (k : Strand) (op : Nat) : (State.lsCmd s p k op).base = s.base := by
  simp [State.lsCmd]

theorem execArmLease_base (p : PDie) (k : Strand) (s : State) : ∃ s', execArmLease p k s = .next s' ∧ s'.base = s.base := by
  refine ⟨_, rfl, ?_⟩
  simp

theorem execDisarm_base (p : PDie) (k : Strand) (s : State) : ∃ s', execDisarm p k s = .next s' ∧ s'.base = s.base := by
  refine ⟨_, rfl, ?_⟩
  simp

theorem execRelease_base (p : PDie) (k : Strand) (s : State) : ∃ s', execRelease p k s = .next s' ∧ s'.base = s.base := by
  refine ⟨_, rfl, ?_⟩
  simp

@[simp] theorem State.showHeld_base (s : State) (p : PDie) : (State.showHeld s p).base = s.base := by
  first
  | (simp [State.showHeld, base_foldl, base_foldl_fst, lane_mem, setLane_base, base_mk]; done)
  | (unfold State.showHeld; split <;> simp [base_foldl, base_foldl_fst, lane_mem, setLane_base, base_mk]; done)
  | (unfold State.showHeld; (repeat' split) <;> simp [base_foldl, base_foldl_fst, lane_mem, setLane_base, base_mk]; done)
  | (simp only [State.showHeld]; (repeat' split) <;> simp [base_foldl, base_foldl_fst, lane_mem, setLane_base, base_mk]; done)
  | (unfold State.showHeld
     repeat' (first
      | (simp [base_foldl, base_foldl_fst, lane_mem, setLane_base, base_mk]; done)
      | split
      | refine (base_foldl _ (fun _ _ => ?_) _ _).trans ?_
      | simp [base_foldl, base_foldl_fst, lane_mem, setLane_base, base_mk]
      | (rw [base_of_pair ‹_ = (_, _)›]; simp [base_foldl, base_foldl_fst, lane_mem, setLane_base, base_mk]; done)))

@[simp] theorem State.showHeldAll_base (s : State) : (State.showHeldAll s).base = s.base := by
  first
  | (simp [State.showHeldAll, base_foldl, base_foldl_fst, lane_mem, setLane_base, base_mk]; done)
  | (unfold State.showHeldAll; split <;> simp [base_foldl, base_foldl_fst, lane_mem, setLane_base, base_mk]; done)
  | (unfold State.showHeldAll; (repeat' split) <;> simp [base_foldl, base_foldl_fst, lane_mem, setLane_base, base_mk]; done)
  | (simp only [State.showHeldAll]; (repeat' split) <;> simp [base_foldl, base_foldl_fst, lane_mem, setLane_base, base_mk]; done)
  | (unfold State.showHeldAll
     repeat' (first
      | (simp [base_foldl, base_foldl_fst, lane_mem, setLane_base, base_mk]; done)
      | split
      | refine (base_foldl _ (fun _ _ => ?_) _ _).trans ?_
      | simp [base_foldl, base_foldl_fst, lane_mem, setLane_base, base_mk]
      | (rw [base_of_pair ‹_ = (_, _)›]; simp [base_foldl, base_foldl_fst, lane_mem, setLane_base, base_mk]; done)))

@[simp] theorem State.relayHeld_base (s : State) (p : PDie) : (State.relayHeld s p).base = s.base := by
  simp [State.relayHeld]

theorem execModHeldChange_base (s : State) : ∃ s', execModHeldChange s = .next s' ∧ s'.base = s.base := by
  refine ⟨_, rfl, ?_⟩
  simp [base_mk]

theorem execLeaseStateSample_base (p : PDie) (s : State) : ∃ s', execLeaseStateSample p s = .next s' ∧ s'.base = s.base := by
  refine ⟨_, rfl, ?_⟩
  simp

end Sys2Proof.Machine
end

