-- ==== Sys2Proof/Laws/BaseMailbox.lean ====
section
/-! SUPPORT. Which operations of Machine/Mailbox.lean keep the base. -/

namespace Sys2Proof.Machine

@[simp] theorem State.putMailbox_base (s : State) (n : Nat) (x : Mailbox) : (State.putMailbox s n x).base = s.base := by
  simp [State.putMailbox, base_mk]

@[simp] theorem State.mbSend_base (s : State) (n : Nat) (far : Bool) (a : MbAct) : (State.mbSend s n far a).base = s.base := by
  simp [State.mbSend]

@[simp] theorem State.mbTake_base (s : State) (n : Nat) (far : Bool) (a : MbAct) : (State.mbTake s n far a).base = s.base := by
  simp [State.mbTake]

@[simp] theorem State.endMailbox_base (s : State) (n : Nat) : (State.endMailbox s n).base = s.base := by
  first
  | (simp [State.endMailbox, base_foldl, base_foldl_fst, lane_mem, setLane_base, base_mk]; done)
  | (unfold State.endMailbox; split <;> simp [base_foldl, base_foldl_fst, lane_mem, setLane_base, base_mk]; done)
  | (unfold State.endMailbox; (repeat' split) <;> simp [base_foldl, base_foldl_fst, lane_mem, setLane_base, base_mk]; done)
  | (simp only [State.endMailbox]; (repeat' split) <;> simp [base_foldl, base_foldl_fst, lane_mem, setLane_base, base_mk]; done)
  | (unfold State.endMailbox
     repeat' (first
      | (simp [base_foldl, base_foldl_fst, lane_mem, setLane_base, base_mk]; done)
      | split
      | refine (base_foldl _ (fun _ _ => ?_) _ _).trans ?_
      | simp [base_foldl, base_foldl_fst, lane_mem, setLane_base, base_mk]
      | (rw [base_of_pair ‹_ = (_, _)›]; simp [base_foldl, base_foldl_fst, lane_mem, setLane_base, base_mk]; done)))

@[simp] theorem State.endMailboxes_base (s : State) : (State.endMailboxes s).base = s.base := by
  first
  | (simp [State.endMailboxes, base_foldl, base_foldl_fst, lane_mem, setLane_base, base_mk]; done)
  | (unfold State.endMailboxes; split <;> simp [base_foldl, base_foldl_fst, lane_mem, setLane_base, base_mk]; done)
  | (unfold State.endMailboxes; (repeat' split) <;> simp [base_foldl, base_foldl_fst, lane_mem, setLane_base, base_mk]; done)
  | (simp only [State.endMailboxes]; (repeat' split) <;> simp [base_foldl, base_foldl_fst, lane_mem, setLane_base, base_mk]; done)
  | (unfold State.endMailboxes
     repeat' (first
      | (simp [base_foldl, base_foldl_fst, lane_mem, setLane_base, base_mk]; done)
      | split
      | refine (base_foldl _ (fun _ _ => ?_) _ _).trans ?_
      | simp [base_foldl, base_foldl_fst, lane_mem, setLane_base, base_mk]
      | (rw [base_of_pair ‹_ = (_, _)›]; simp [base_foldl, base_foldl_fst, lane_mem, setLane_base, base_mk]; done)))

@[simp] theorem State.mbNotify_base (s : State) (n : Nat) (toStrand : Bool) : (State.mbNotify s n toStrand).base = s.base := by
  simp [State.mbNotify]

@[simp] theorem State.mbDoorbell_base (s : State) (m : Master) (n : Nat) (far : Bool) (bits : Word) : (State.mbDoorbell s m n far bits).base = s.base := by
  simp [State.mbDoorbell]

@[simp] theorem State.mbMask_base (s : State) (n : Nat) (far : Bool) (mask : Word) : (State.mbMask s n far mask).base = s.base := by
  simp [State.mbMask]

@[simp] theorem State.mbRxReset_base (s : State) (n : Nat) (far : Bool) : (State.mbRxReset s n far).base = s.base := by
  simp [State.mbRxReset]

@[simp] theorem State.mbTxReset_base (s : State) (n : Nat) (far : Bool) : (State.mbTxReset s n far).base = s.base := by
  simp [State.mbTxReset]

@[simp] theorem State.mbForeign_base (s : State) (m : Master) (key : Nat) : (State.mbForeign s m key).base = s.base := by
  simp [State.mbForeign]

@[simp] theorem State.mbWrite_base (s : State) (m : Master) (n : Nat) (far : Bool) (i : Nat) (mask data : Word) : (State.mbWrite s m n far i mask data).base = s.base := by
  simp only [State.mbWrite]
  (repeat' split) <;> simp

@[simp] theorem State.atMailbox_base (s : State) (m : Master) (n : Nat) (far : Bool) (i : Nat) (mask data : Word) : (State.atMailbox s m n far i mask data).base = s.base := by
  first
  | (simp [State.atMailbox, base_foldl, base_foldl_fst, lane_mem, setLane_base, base_mk]; done)
  | (unfold State.atMailbox; split <;> simp [base_foldl, base_foldl_fst, lane_mem, setLane_base, base_mk]; done)
  | (unfold State.atMailbox; (repeat' split) <;> simp [base_foldl, base_foldl_fst, lane_mem, setLane_base, base_mk]; done)
  | (simp only [State.atMailbox]; (repeat' split) <;> simp [base_foldl, base_foldl_fst, lane_mem, setLane_base, base_mk]; done)
  | (unfold State.atMailbox
     repeat' (first
      | (simp [base_foldl, base_foldl_fst, lane_mem, setLane_base, base_mk]; done)
      | split
      | refine (base_foldl _ (fun _ _ => ?_) _ _).trans ?_
      | simp [base_foldl, base_foldl_fst, lane_mem, setLane_base, base_mk]
      | (rw [base_of_pair ‹_ = (_, _)›]; simp [base_foldl, base_foldl_fst, lane_mem, setLane_base, base_mk]; done)))

theorem execMbTxword_base (m : Master) (n : Nat) (far : Bool) (data : Word) (s : State) : ∃ s', execMbTxword m n far data s = .next s' ∧ s'.base = s.base := by
  refine ⟨_, rfl, ?_⟩
  simp

theorem execMbTxdb_base (m : Master) (n : Nat) (far : Bool) (data : Word) (s : State) : ∃ s', execMbTxdb m n far data s = .next s' ∧ s'.base = s.base := by
  refine ⟨_, rfl, ?_⟩
  simp

theorem execMbRxpop_base (m : Master) (n : Nat) (far : Bool) (data : Word) (s : State) : ∃ s', execMbRxpop m n far data s = .next s' ∧ s'.base = s.base := by
  refine ⟨_, rfl, ?_⟩
  simp

theorem execMbRxdbClear_base (m : Master) (n : Nat) (far : Bool) (data : Word) (s : State) : ∃ s', execMbRxdbClear m n far data s = .next s' ∧ s'.base = s.base := by
  refine ⟨_, rfl, ?_⟩
  simp

theorem execMbRxmaskWrite_base (m : Master) (n : Nat) (far : Bool) (data : Word) (s : State) : ∃ s', execMbRxmaskWrite m n far data s = .next s' ∧ s'.base = s.base := by
  refine ⟨_, rfl, ?_⟩
  simp

theorem execRxReset_base (m : Master) (n : Nat) (far : Bool) (s : State) : ∃ s', execRxReset m n far s = .next s' ∧ s'.base = s.base := by
  refine ⟨_, rfl, ?_⟩
  simp

theorem execTxReset_base (m : Master) (n : Nat) (far : Bool) (s : State) : ∃ s', execTxReset m n far s = .next s' ∧ s'.base = s.base := by
  refine ⟨_, rfl, ?_⟩
  simp

@[simp] theorem State.mbRestart_base (s : State) (k : Strand) : (State.mbRestart s k).base = s.base := by
  simp [State.mbRestart]

@[simp] theorem State.tellFlushed_base (s : State) (k : Strand) : (State.tellFlushed s k).base = s.base := by
  first
  | (simp [State.tellFlushed, base_foldl, base_foldl_fst, lane_mem, setLane_base, base_mk]; done)
  | (unfold State.tellFlushed; split <;> simp [base_foldl, base_foldl_fst, lane_mem, setLane_base, base_mk]; done)
  | (unfold State.tellFlushed; (repeat' split) <;> simp [base_foldl, base_foldl_fst, lane_mem, setLane_base, base_mk]; done)
  | (simp only [State.tellFlushed]; (repeat' split) <;> simp [base_foldl, base_foldl_fst, lane_mem, setLane_base, base_mk]; done)
  | (unfold State.tellFlushed
     repeat' (first
      | (simp [base_foldl, base_foldl_fst, lane_mem, setLane_base, base_mk]; done)
      | split
      | refine (base_foldl _ (fun _ _ => ?_) _ _).trans ?_
      | simp [base_foldl, base_foldl_fst, lane_mem, setLane_base, base_mk]
      | (rw [base_of_pair ‹_ = (_, _)›]; simp [base_foldl, base_foldl_fst, lane_mem, setLane_base, base_mk]; done)))

@[simp] theorem State.mbMRestart_base (s : State) : (State.mbMRestart s).base = s.base := by
  first
  | (simp [State.mbMRestart, base_foldl, base_foldl_fst, lane_mem, setLane_base, base_mk]; done)
  | (unfold State.mbMRestart; split <;> simp [base_foldl, base_foldl_fst, lane_mem, setLane_base, base_mk]; done)
  | (unfold State.mbMRestart; (repeat' split) <;> simp [base_foldl, base_foldl_fst, lane_mem, setLane_base, base_mk]; done)
  | (simp only [State.mbMRestart]; (repeat' split) <;> simp [base_foldl, base_foldl_fst, lane_mem, setLane_base, base_mk]; done)
  | (unfold State.mbMRestart
     repeat' (first
      | (simp [base_foldl, base_foldl_fst, lane_mem, setLane_base, base_mk]; done)
      | split
      | refine (base_foldl _ (fun _ _ => ?_) _ _).trans ?_
      | simp [base_foldl, base_foldl_fst, lane_mem, setLane_base, base_mk]
      | (rw [base_of_pair ‹_ = (_, _)›]; simp [base_foldl, base_foldl_fst, lane_mem, setLane_base, base_mk]; done)))

@[simp] theorem State.relock_base (s : State) (b : Beat) (i winner : Nat) : (State.relock s b i winner).base = s.base := by
  first
  | (simp [State.relock, base_foldl, base_foldl_fst, lane_mem, setLane_base, base_mk]; done)
  | (unfold State.relock; split <;> simp [base_foldl, base_foldl_fst, lane_mem, setLane_base, base_mk]; done)
  | (unfold State.relock; (repeat' split) <;> simp [base_foldl, base_foldl_fst, lane_mem, setLane_base, base_mk]; done)
  | (simp only [State.relock]; (repeat' split) <;> simp [base_foldl, base_foldl_fst, lane_mem, setLane_base, base_mk]; done)
  | (unfold State.relock
     repeat' (first
      | (simp [base_foldl, base_foldl_fst, lane_mem, setLane_base, base_mk]; done)
      | split
      | refine (base_foldl _ (fun _ _ => ?_) _ _).trans ?_
      | simp [base_foldl, base_foldl_fst, lane_mem, setLane_base, base_mk]
      | (rw [base_of_pair ‹_ = (_, _)›]; simp [base_foldl, base_foldl_fst, lane_mem, setLane_base, base_mk]; done)))

@[simp] theorem State.lockRead_base (s : State) (i : Nat) (m : Nat) : (State.lockRead s i m).base = s.base := by
  first
  | (simp [State.lockRead, base_foldl, base_foldl_fst, lane_mem, setLane_base, base_mk]; done)
  | (unfold State.lockRead; split <;> simp [base_foldl, base_foldl_fst, lane_mem, setLane_base, base_mk]; done)
  | (unfold State.lockRead; (repeat' split) <;> simp [base_foldl, base_foldl_fst, lane_mem, setLane_base, base_mk]; done)
  | (simp only [State.lockRead]; (repeat' split) <;> simp [base_foldl, base_foldl_fst, lane_mem, setLane_base, base_mk]; done)
  | (unfold State.lockRead
     repeat' (first
      | (simp [base_foldl, base_foldl_fst, lane_mem, setLane_base, base_mk]; done)
      | split
      | refine (base_foldl _ (fun _ _ => ?_) _ _).trans ?_
      | simp [base_foldl, base_foldl_fst, lane_mem, setLane_base, base_mk]
      | (rw [base_of_pair ‹_ = (_, _)›]; simp [base_foldl, base_foldl_fst, lane_mem, setLane_base, base_mk]; done)))

theorem execSmLockRead_base (i : Nat) (readers : List Master) (s : State) : ∃ s', execSmLockRead i readers s = .next s' ∧ s'.base = s.base := by
  refine ⟨_, rfl, ?_⟩
  simp

@[simp] theorem State.lockWrite_base (s : State) (m : Master) (i : Nat) (mask data : Word) : (State.lockWrite s m i mask data).base = s.base := by
  simp [State.lockWrite]

theorem execSmRelease_base (m : Master) (i : Nat) (data : Word) (s : State) : ∃ s', execSmRelease m i data s = .next s' ∧ s'.base = s.base := by
  refine ⟨_, rfl, ?_⟩
  simp

@[simp] theorem State.lockForce_base (s : State) (m : Master) (data : Word) : (State.lockForce s m data).base = s.base := by
  simp [State.lockForce]

theorem execSmForce_base (m : Master) (data : Word) (s : State) : ∃ s', execSmForce m data s = .next s' ∧ s'.base = s.base := by
  refine ⟨_, rfl, ?_⟩
  simp

end Sys2Proof.Machine
end

