-- ==== Sys2Proof/Laws/BaseDripstone.lean ====
section
/-! SUPPORT. Which operations of Machine/Dripstone.lean keep the base. -/

namespace Sys2Proof.Machine

@[simp] theorem State.setGov_base (s : State) (l : Lane) (g : Governor) : (State.setGov s l g).base = s.base := by
  simp [State.setGov, base_mk]

@[simp] theorem State.showDs_base (s : State) : (State.showDs s).base = s.base := by
  simp [State.showDs, base_foldl]

@[simp] theorem State.trackCalm_base (s : State) (l : Lane) : (State.trackCalm s l).base = s.base := by
  simp [State.trackCalm]

@[simp] theorem State.reStep_base (s : State) (l : Lane) : (State.reStep s l).base = s.base := by
  simp [State.reStep]

@[simp] theorem State.reStepAll_base (s : State) : (State.reStepAll s).base = s.base := by
  simp [State.reStepAll, base_foldl]

@[simp] theorem State.setLimit_base (s : State) (l : Lane) (n : Nat) : (State.setLimit s l n).base = s.base := by
  simp [State.setLimit]

@[simp] theorem State.govern_base (s : State) (l : Lane) (r : GovReading) : (State.govern s l r).base = s.base := by
  simp [State.govern]

theorem execGovernorReading_base (l : Lane) (r : GovReading) (s : State) : ∃ s', execGovernorReading l r s = .next s' ∧ s'.base = s.base := by
  refine ⟨_, rfl, ?_⟩
  simp

theorem execGovLimitRaise_base (l : Lane) (s : State) : ∃ s', execGovLimitRaise l s = .next s' ∧ s'.base = s.base := by
  refine ⟨_, rfl, ?_⟩
  simp

theorem execGovLimitReceive_base (l : Lane) (v : PaceValue) (s : State) : ∃ s', execGovLimitReceive l v s = .next s' ∧ s'.base = s.base := by
  refine ⟨_, rfl, ?_⟩
  simp

theorem execStepRaise_base (l : Lane) (s : State) : ∃ s', execStepRaise l s = .next s' ∧ s'.base = s.base := by
  refine ⟨_, rfl, ?_⟩
  split <;> simp

@[simp] theorem State.relay_base (s : State) (v : PaceValue) : (State.relay s v).base = s.base := by
  simp [State.relay, base_foldl]

@[simp] theorem State.setCeil_base (s : State) (k : Strand) (n : Nat) (clamped : Bool) : (State.setCeil s k n clamped).base = s.base := by
  simp [State.setCeil]

@[simp] theorem State.ceilTake_base (s : State) (k : Strand) (n : Nat) : (State.ceilTake s k n).base = s.base := by
  first
  | (simp [State.ceilTake, base_foldl, base_foldl_fst, lane_mem, setLane_base, base_mk]; done)
  | (unfold State.ceilTake; split <;> simp [base_foldl, base_foldl_fst, lane_mem, setLane_base, base_mk]; done)
  | (unfold State.ceilTake; (repeat' split) <;> simp [base_foldl, base_foldl_fst, lane_mem, setLane_base, base_mk]; done)
  | (simp only [State.ceilTake]; (repeat' split) <;> simp [base_foldl, base_foldl_fst, lane_mem, setLane_base, base_mk]; done)
  | (unfold State.ceilTake
     repeat' (first
      | (simp [base_foldl, base_foldl_fst, lane_mem, setLane_base, base_mk]; done)
      | split
      | refine (base_foldl _ (fun _ _ => ?_) _ _).trans ?_
      | simp [base_foldl, base_foldl_fst, lane_mem, setLane_base, base_mk]
      | (rw [base_of_pair ‹_ = (_, _)›]; simp [base_foldl, base_foldl_fst, lane_mem, setLane_base, base_mk]; done)))

@[simp] theorem State.ceilWrite_base (s : State) (k : Strand) (writer : Master) (data : Word) : (State.ceilWrite s k writer data).base = s.base := by
  simp [State.ceilWrite]

theorem execDsCeilWrite_base (k : Strand) (writer : Master) (data : Word) (s : State) : ∃ s', execDsCeilWrite k writer data s = .next s' ∧ s'.base = s.base := by
  refine ⟨_, rfl, ?_⟩
  simp

@[simp] theorem State.setPlan_base (s : State) (l : Lane) (n : Nat) : (State.setPlan s l n).base = s.base := by
  simp [State.setPlan]

@[simp] theorem State.planWrite_base (s : State) (l : Lane) (data : Word) : (State.planWrite s l data).base = s.base := by
  simp [State.planWrite]

theorem execDsPlanWrite_base (l : Lane) (data : Word) (s : State) : ∃ s', execDsPlanWrite l data s = .next s' ∧ s'.base = s.base := by
  refine ⟨_, rfl, ?_⟩
  simp

@[simp] theorem State.replan_base (s : State) (predicted : Tri (List Nat)) : (State.replan s predicted).base = s.base := by
  first
  | (simp [State.replan, base_foldl, base_foldl_fst, lane_mem, setLane_base, base_mk]; done)
  | (unfold State.replan; split <;> simp [base_foldl, base_foldl_fst, lane_mem, setLane_base, base_mk]; done)
  | (unfold State.replan; (repeat' split) <;> simp [base_foldl, base_foldl_fst, lane_mem, setLane_base, base_mk]; done)
  | (simp only [State.replan]; (repeat' split) <;> simp [base_foldl, base_foldl_fst, lane_mem, setLane_base, base_mk]; done)
  | (unfold State.replan
     repeat' (first
      | (simp [base_foldl, base_foldl_fst, lane_mem, setLane_base, base_mk]; done)
      | split
      | refine (base_foldl _ (fun _ _ => ?_) _ _).trans ?_
      | simp [base_foldl, base_foldl_fst, lane_mem, setLane_base, base_mk]
      | (rw [base_of_pair ‹_ = (_, _)›]; simp [base_foldl, base_foldl_fst, lane_mem, setLane_base, base_mk]; done)))

theorem execPlannerReplan_base (predicted : Tri (List Nat)) (s : State) : ∃ s', execPlannerReplan predicted s = .next s' ∧ s'.base = s.base := by
  refine ⟨_, rfl, ?_⟩
  simp [base_foldl]

@[simp] theorem State.setAge_base (s : State) (u : Nat) (x : AgeRec) : (State.setAge s u x).base = s.base := by
  simp [State.setAge, base_mk]

@[simp] theorem State.sampleLane_base (s : State) (l : Lane) (r : GovReading) : (State.sampleLane s l r).base = s.base := by
  simp [State.sampleLane]

@[simp] theorem State.samplePort_base (s : State) (p : PDie) (r : GovReading) : (State.samplePort s p r).base = s.base := by
  simp [State.samplePort]

theorem execPlannerSample_base (lanes : Tri GovReading) (ports : Duo GovReading) (s : State) : ∃ s', execPlannerSample lanes ports s = .next s' ∧ s'.base = s.base := by
  refine ⟨_, rfl, ?_⟩
  simp [base_foldl]

@[simp] theorem State.closeDay_base (s : State) (u : Nat) : (State.closeDay s u).base = s.base := by
  simp only [State.closeDay]
  (repeat' split) <;> simp

theorem execMarginDailyRecord_base (s : State) : ∃ s', execMarginDailyRecord s = .next s' ∧ s'.base = s.base := by
  refine ⟨_, rfl, ?_⟩
  simp [base_foldl]

end Sys2Proof.Machine
end

