-- ==== Sys2Proof/Laws/BaseMgmtBase.lean ====
section
/-! SUPPORT. Which operations of Machine/MgmtBase.lean keep the base. -/

namespace Sys2Proof.Machine

@[simp] theorem State.setBank_base (s : State) (n : Nat) (b : SafeBank) : (State.setBank s n b).base = s.base := by
  simp [State.setBank, base_mk]

@[simp] theorem State.showBank_base (s : State) : (State.showBank s).base = s.base := by
  simp [State.showBank]

@[simp] theorem State.writeRecs_base (s : State) (r : SafeRecs) : (State.writeRecs s r).base = s.base := by
  simp [State.writeRecs, base_mk]

@[simp] theorem State.cutWrite_base (s : State) : (State.cutWrite s).base = s.base := by
  first
  | (simp [State.cutWrite, base_foldl, base_foldl_fst, lane_mem, setLane_base, base_mk]; done)
  | (unfold State.cutWrite; split <;> simp [base_foldl, base_foldl_fst, lane_mem, setLane_base, base_mk]; done)
  | (unfold State.cutWrite; (repeat' split) <;> simp [base_foldl, base_foldl_fst, lane_mem, setLane_base, base_mk]; done)
  | (simp only [State.cutWrite]; (repeat' split) <;> simp [base_foldl, base_foldl_fst, lane_mem, setLane_base, base_mk]; done)
  | (unfold State.cutWrite
     repeat' (first
      | (simp [base_foldl, base_foldl_fst, lane_mem, setLane_base, base_mk]; done)
      | split
      | refine (base_foldl _ (fun _ _ => ?_) _ _).trans ?_
      | simp [base_foldl, base_foldl_fst, lane_mem, setLane_base, base_mk]
      | (rw [base_of_pair ‹_ = (_, _)›]; simp [base_foldl, base_foldl_fst, lane_mem, setLane_base, base_mk]; done)))

@[simp] theorem State.writeBoot_base (s : State) (b : BootRec) : (State.writeBoot s b).base = s.base := by
  simp [State.writeBoot]

@[simp] theorem State.setUpd_base (s : State) (st : Nat) : (State.setUpd s st).base = s.base := by
  simp [State.setUpd]

@[simp] theorem State.setUpdResult_base (s : State) (r : Nat) : (State.setUpdResult s r).base = s.base := by
  simp [State.setUpdResult]

@[simp] theorem State.showBoot_base (s : State) : (State.showBoot s).base = s.base := by
  simp [State.showBoot]

@[simp] theorem State.cancelUpdate_base (s : State) (reason : Nat) : (State.cancelUpdate s reason).base = s.base := by
  simp [State.cancelUpdate]

@[simp] theorem State.endDebugAuth_base (s : State) : (State.endDebugAuth s).base = s.base := by
  simp [State.endDebugAuth]

@[simp] theorem State.fenceMgmt_base (s : State) : (State.fenceMgmt s).base = s.base := by
  simp [State.fenceMgmt]

@[simp] theorem State.setDbgUntil_base (s : State) (n : Nat) : (State.setDbgUntil s n).base = s.base := by
  simp [State.setDbgUntil, base_mk]

end Sys2Proof.Machine
end

