-- ==== Sys2Proof/Laws/BaseEcho.lean ====
section
/-! SUPPORT. Which operations of Machine/Echo.lean keep the base. -/

namespace Sys2Proof.Machine

@[simp] theorem State.failLink_base (s : State) (l o : Lane) : (State.failLink s l o).base = s.base := by
  simp only [State.failLink]
  (repeat' split) <;> simp

@[simp] theorem State.crawlError_base (s : State) (l o : Lane) : (State.crawlError s l o).base = s.base := by
  simp [State.crawlError, lane_mem, setLane_base]

@[simp] theorem State.commitMsg_base (s : State) (l : Lane) (src dst : Strand) (m : SqMsg) : (State.commitMsg s l src dst m).base = s.base := by
  simp [State.commitMsg]

@[simp] theorem State.commitEpoch_base (s : State) (l : Lane) (k : Strand) (pt : Word) (pair : Pair) : (State.commitEpoch s l k pt pair).base = s.base := by
  simp [State.commitEpoch, base_foldl]

@[simp] theorem State.noteLag_base (s : State) (l : Lane) (k : Strand) (pt : Word) (x : Lane) : (State.noteLag s l k pt x).base = s.base := by
  unfold State.noteLag
  split <;> simp

@[simp] theorem State.completeWith_base (s : State) (l : Lane) (k : Strand) (pair : Pair) (ha hb : HeldPub) : (State.completeWith s l k pair ha hb).base = s.base := by
  simp [State.completeWith, lane_mem, setLane_base]

@[simp] theorem State.checkThird_base (s : State) (l : Lane) (k : Strand) (pt : Word) : (State.checkThird s l k pt).base = s.base := by
  simp only [State.checkThird]
  (repeat' split) <;> simp

@[simp] theorem State.sigOdd_base (s : State) (l : Lane) (k : Strand) (x : Lane) : (State.sigOdd s l k x).base = s.base := by
  simp [State.sigOdd]

@[simp] theorem State.resolveSplit_base (s : State) (l : Lane) (k : Strand) (pair : Pair) (ha hb : HeldPub) : (State.resolveSplit s l k pair ha hb).base = s.base := by
  simp only [State.resolveSplit]
  (repeat' split) <;> simp

@[simp] theorem State.tryAgree_base (n : Nat) (s : State) (l : Lane) (k : Strand) :
    (State.tryAgree n s l k).base = s.base := by
  induction n generalizing s with
  | zero => simp [State.tryAgree]
  | succ n ih =>
    simp only [State.tryAgree]
    (repeat' split) <;> simp [ih]

@[simp] theorem State.agreeAgain_base (s : State) : (State.agreeAgain s).base = s.base := by
  first
  | (simp [State.agreeAgain, base_foldl, base_foldl_fst, lane_mem, setLane_base, base_mk]; done)
  | (unfold State.agreeAgain; split <;> simp [base_foldl, base_foldl_fst, lane_mem, setLane_base, base_mk]; done)
  | (unfold State.agreeAgain; (repeat' split) <;> simp [base_foldl, base_foldl_fst, lane_mem, setLane_base, base_mk]; done)
  | (simp only [State.agreeAgain]; (repeat' split) <;> simp [base_foldl, base_foldl_fst, lane_mem, setLane_base, base_mk]; done)
  | (unfold State.agreeAgain
     repeat' (first
      | (simp [base_foldl, base_foldl_fst, lane_mem, setLane_base, base_mk]; done)
      | split
      | refine (base_foldl _ (fun _ _ => ?_) _ _).trans ?_
      | simp [base_foldl, base_foldl_fst, lane_mem, setLane_base, base_mk]
      | (rw [base_of_pair ‹_ = (_, _)›]; simp [base_foldl, base_foldl_fst, lane_mem, setLane_base, base_mk]; done)))

@[simp] theorem State.claimPair_base (s : State) (l : Lane) (k : Strand) (pt : Word) : (State.claimPair s l k pt).base = s.base := by
  simp only [State.claimPair]
  (repeat' split) <;> simp [base_mk]

@[simp] theorem State.sendClaims_base (s : State) (l : Lane) (k : Strand) : (State.sendClaims s l k).base = s.base := by
  first
  | (simp [State.sendClaims, base_foldl, base_foldl_fst, lane_mem, setLane_base, base_mk]; done)
  | (unfold State.sendClaims; split <;> simp [base_foldl, base_foldl_fst, lane_mem, setLane_base, base_mk]; done)
  | (unfold State.sendClaims; (repeat' split) <;> simp [base_foldl, base_foldl_fst, lane_mem, setLane_base, base_mk]; done)
  | (simp only [State.sendClaims]; (repeat' split) <;> simp [base_foldl, base_foldl_fst, lane_mem, setLane_base, base_mk]; done)
  | (unfold State.sendClaims
     repeat' (first
      | (simp [base_foldl, base_foldl_fst, lane_mem, setLane_base, base_mk]; done)
      | split
      | refine (base_foldl _ (fun _ _ => ?_) _ _).trans ?_
      | simp [base_foldl, base_foldl_fst, lane_mem, setLane_base, base_mk]
      | (rw [base_of_pair ‹_ = (_, _)›]; simp [base_foldl, base_foldl_fst, lane_mem, setLane_base, base_mk]; done)))

@[simp] theorem State.acceptPub_base (s : State) (l : Lane) (k : Strand) (p : Publication) : (State.acceptPub s l k p).base = s.base := by
  unfold State.acceptPub
  split <;> simp

@[simp] theorem State.markPublished_base (s : State) (l : Lane) (k : Strand) (n : Word) : (State.markPublished s l k n).base = s.base := by
  simp [State.markPublished]

@[simp] theorem State.takeTcfg_base (s : State) (l : Lane) (k : Strand) : (State.takeTcfg s l k).base = s.base := by
  unfold State.takeTcfg
  split <;> simp [base_mk]

@[simp] theorem State.startScrub_base (s : State) (l : Lane) (k : Strand) (n : Word) : (State.startScrub s l k n).base = s.base := by
  simp [State.startScrub]

@[simp] theorem State.sendChallenge_base (s : State) (l : Lane) (k : Strand) : (State.sendChallenge s l k).base = s.base := by
  simp [State.sendChallenge]

@[simp] theorem State.issueChallenge_base (s : State) (l : Lane) (k : Strand) : (State.issueChallenge s l k).base = s.base := by
  simp [State.issueChallenge, base_foldl]

@[simp] theorem State.noteBothPaused_base (s : State) (k : Strand) (n : Word) : (State.noteBothPaused s k n).base = s.base := by
  unfold State.noteBothPaused
  split <;> simp [base_mk]

@[simp] theorem State.eventPoint_base (s : State) (l : Lane) (k : Strand) : (State.eventPoint s l k).base = s.base := by
  simp [State.eventPoint]

theorem execEventPoint_base (l : Lane) (k : Strand) (s : State) : ∃ s', execEventPoint l k s = .next s' ∧ s'.base = s.base := by
  refine ⟨_, rfl, ?_⟩
  simp

@[simp] theorem State.applyFin_base (s : State) (l : Lane) (k : Strand) (f : FinRule) : (State.applyFin s l k f).base = s.base := by
  unfold State.applyFin
  (repeat' split) <;> simp [base_foldl]

@[simp] theorem State.applyTime_base (s : State) (l : Lane) (k : Strand) (a : Agreement) : (State.applyTime s l k a).base = s.base := by
  simp [State.applyTime]

@[simp] theorem State.evalTimer_base (s : State) (l : Lane) (k : Strand) (now : Dword) (i : Nat) : (State.evalTimer s l k now i).base = s.base := by
  simp [State.evalTimer]

@[simp] theorem State.applyCounts_base (s : State) (l : Lane) (k : Strand) (a : Agreement) : (State.applyCounts s l k a).base = s.base := by
  simp [State.applyCounts]

@[simp] theorem State.fenceDie_base (s : State) (l : Lane) (k : Strand) (d : Die) : (State.fenceDie s l k d).base = s.base := by
  unfold State.fenceDie
  split <;> simp [base_foldl, lane_mem, setLane_base]

@[simp] theorem State.judge_base (s : State) (l : Lane) (k : Strand) (a : ChalAnswer) : (State.judge s l k a).base = s.base := by
  simp only [State.judge]
  (repeat' split) <;> simp

@[simp] theorem State.challengeDeadline_base (s : State) (l : Lane) (k : Strand) : (State.challengeDeadline s l k).base = s.base := by
  simp [State.challengeDeadline, base_foldl]

@[simp] theorem State.applyOcc_base (s : State) (l : Lane) (k : Strand) (now : Dword) (o : Occ) : (State.applyOcc s l k now o).base = s.base := by
  simp only [State.applyOcc]
  (repeat' split) <;> simp

@[simp] theorem State.showHist_base (s : State) (l : Lane) (k : Strand) : (State.showHist s l k).base = s.base := by
  simp [State.showHist, base_foldl]

@[simp] theorem State.applyAgreement_base (s : State) (l : Lane) (k : Strand) (a : Agreement) : (State.applyAgreement s l k a).base = s.base := by
  simp [State.applyAgreement, base_foldl]

@[simp] theorem State.raiseSoft_base (s : State) (l : Lane) (k : Strand) : (State.raiseSoft s l k).base = s.base := by
  simp [State.raiseSoft, base_foldl]

@[simp] theorem State.takeException_base (s : State) (l : Lane) (k : Strand) : (State.takeException s l k).base = s.base := by
  unfold State.takeException
  split <;> simp

@[simp] theorem State.noteStall_base (s : State) (l : Lane) (k : Strand) (a : Agreement) : (State.noteStall s l k a).base = s.base := by
  simp [State.noteStall]

@[simp] theorem State.switchTcfg_base (s : State) (l : Lane) (k : Strand) : (State.switchTcfg s l k).base = s.base := by
  simp [State.switchTcfg]

@[simp] theorem State.leaveBoundary_base (s : State) (l : Lane) (k : Strand) : (State.leaveBoundary s l k).base = s.base := by
  simp [State.leaveBoundary]

@[simp] theorem State.agreedSetApply_base (s : State) (l : Lane) (k : Strand) : (State.agreedSetApply s l k).base = s.base := by
  unfold State.agreedSetApply
  split <;> simp

theorem execAgreedSetApply_base (l : Lane) (k : Strand) (s : State) : ∃ s', execAgreedSetApply l k s = .next s' ∧ s'.base = s.base := by
  refine ⟨_, rfl, ?_⟩
  simp

theorem execStrandTimerExpire_base (l : Lane) (k : Strand) (t : Nat) (s : State) : ∃ s', execStrandTimerExpire l k t s = .next s' ∧ s'.base = s.base := by
  refine ⟨_, rfl, ?_⟩
  (repeat' split) <;> simp

theorem execPublicationReceive_base (l : Lane) (sender : Lane) (p : Publication) (s : State) : ∃ s', execPublicationReceive l sender p s = .next s' ∧ s'.base = s.base := by
  refine ⟨_, rfl, ?_⟩
  simp

theorem execPairClaimReceive_base (l : Lane) (c : PairClaim) (s : State) : ∃ s', execPairClaimReceive l c s = .next s' ∧ s'.base = s.base := by
  refine ⟨_, rfl, ?_⟩
  simp

theorem execOccurrenceLatch_base (l : Lane) (d : Die) (k : Strand) (o : Occ) (s : State) : ∃ s', execOccurrenceLatch l d k o s = .next s' ∧ s'.base = s.base := by
  refine ⟨_, rfl, ?_⟩
  simp

theorem execEvSolo_base (l : Lane) (k : Strand) (o : Occ) (s : State) : ∃ s', execEvSolo l k o s = .next s' ∧ s'.base = s.base := by
  refine ⟨_, rfl, ?_⟩
  simp

theorem execFstaleTimeout_base (l : Lane) (s : State) : ∃ s', execFstaleTimeout l s = .next s' ∧ s'.base = s.base := by
  refine ⟨_, rfl, ?_⟩
  simp [lane_mem, setLane_base]

theorem execFieldTripleReceive_base (l : Lane) (tr : Triple) (s : State) : ∃ s', execFieldTripleReceive l tr s = .next s' ∧ s'.base = s.base := by
  refine ⟨_, rfl, ?_⟩
  simp [lane_mem, setLane_base]

theorem execEchoTimeout_base (l : Lane) (k : Strand) (point : Word) (s : State) : ∃ s', execEchoTimeout l k point s = .next s' ∧ s'.base = s.base := by
  refine ⟨_, rfl, ?_⟩
  (repeat' split) <;> simp

@[simp] theorem State.starve_base (s : State) (l : Lane) (k : Strand) : (State.starve s l k).base = s.base := by
  simp [State.starve]

theorem execStarveTimeout_base (l : Lane) (k : Strand) (s : State) : ∃ s', execStarveTimeout l k s = .next s' ∧ s'.base = s.base := by
  refine ⟨_, rfl, ?_⟩
  simp

theorem execStarveClaimReceive_base (l sender : Lane) (k : Strand) (s : State) : ∃ s', execStarveClaimReceive l sender k s = .next s' ∧ s'.base = s.base := by
  refine ⟨_, rfl, ?_⟩
  simp

@[simp] theorem State.lateAt_base (s : State) (l : Lane) (k : Strand) (point : Word) (x : Lane) : (State.lateAt s l k point x).base = s.base := by
  simp [State.lateAt]

theorem execLateClaim_base (l : Lane) (k : Strand) (point : Word) (s : State) : ∃ s', execLateClaim l k point s = .next s' ∧ s'.base = s.base := by
  refine ⟨_, rfl, ?_⟩
  (repeat' split) <;> simp

theorem execLateClaimReceive_base (l : Lane) (c : LateClaim) (s : State) : ∃ s', execLateClaimReceive l c s = .next s' ∧ s'.base = s.base := by
  refine ⟨_, rfl, ?_⟩
  simp

end Sys2Proof.Machine
end

