-- ==== Sys2Proof/Laws/BaseStrandPage.lean ====
section
/-! SUPPORT. Which operations of Machine/StrandPage.lean keep the base. -/

namespace Sys2Proof.Machine

@[simp] theorem State.sqSend_base (s : State) (l : Lane) (k : Strand) (v : Word) : (State.sqSend s l k v).base = s.base := by
  simp [State.sqSend]

@[simp] theorem State.sqPop_base (s : State) (l : Lane) (k : Strand) (v : Word) : (State.sqPop s l k v).base = s.base := by
  unfold State.sqPop
  split <;> simp

@[simp] theorem State.swEvent_base (s : State) (l : Lane) (k : Strand) (v : Word) : (State.swEvent s l k v).base = s.base := by
  simp [State.swEvent]

@[simp] theorem State.pageRead_base (s : State) (l : Lane) (k : Strand) (off : Nat) : (State.pageRead s l k off).1.base = s.base := by
  simp only [State.pageRead]
  (repeat' split) <;> simp

@[simp] theorem State.pageWrite_base (s : State) (l : Lane) (k : Strand) (off : Nat) (mask data : Word) (wide : Bool) : (State.pageWrite s l k off mask data wide).base = s.base := by
  simp only [State.pageWrite]
  (repeat' split) <;> simp

@[simp] theorem State.pageStore_base (s : State) (l : Lane) (k : Strand) (off : Nat) (bs : List Byte) : (State.pageStore s l k off bs).base = s.base := by
  simp only [State.pageStore]
  (repeat' split) <;> simp [base_foldl]

@[simp] theorem State.pageLoad_base (s : State) (l : Lane) (k : Strand) (off size : Nat) : (State.pageLoad s l k off size).1.base = s.base := by
  simp [State.pageLoad, base_foldl_fst]

end Sys2Proof.Machine
end

