-- ==== Sys2Proof/Laws/BaseLaneCore.lean ====
section
/-! SUPPORT. Which operations of Machine/LaneCore.lean keep the base. -/

namespace Sys2Proof.Machine

@[simp] theorem State.eccAddr_base (s : State) (l : Lane) (a src : Nat) (consumed : Bool) (k : Strand) : (State.eccAddr s l a src consumed k).base = s.base := by
  simp [State.eccAddr]

@[simp] theorem State.consumePoison_base (s : State) (l : Lane) (k : Strand) (a len : Nat) : (State.consumePoison s l k a len).base = s.base := by
  simp [State.consumePoison]

@[simp] theorem State.queueBeats_base (s : State) (l : Lane) (k : Strand) (d : Die) (bs : List Beat) : (State.queueBeats s l k d bs).base = s.base := by
  first
  | (simp [State.queueBeats, base_foldl, base_foldl_fst, lane_mem, setLane_base, base_mk]; done)
  | (unfold State.queueBeats; split <;> simp [base_foldl, base_foldl_fst, lane_mem, setLane_base, base_mk]; done)
  | (unfold State.queueBeats; (repeat' split) <;> simp [base_foldl, base_foldl_fst, lane_mem, setLane_base, base_mk]; done)
  | (simp only [State.queueBeats]; (repeat' split) <;> simp [base_foldl, base_foldl_fst, lane_mem, setLane_base, base_mk]; done)
  | (unfold State.queueBeats
     repeat' (first
      | (simp [base_foldl, base_foldl_fst, lane_mem, setLane_base, base_mk]; done)
      | split
      | refine (base_foldl _ (fun _ _ => ?_) _ _).trans ?_
      | simp [base_foldl, base_foldl_fst, lane_mem, setLane_base, base_mk]
      | (rw [base_of_pair ‹_ = (_, _)›]; simp [base_foldl, base_foldl_fst, lane_mem, setLane_base, base_mk]; done)))

@[simp] theorem State.noteAbsents_base (s : State) (d : Die) (ds : List Dw) : (State.noteAbsents s d ds).base = s.base := by
  first
  | (simp [State.noteAbsents, base_foldl, base_foldl_fst, lane_mem, setLane_base, base_mk]; done)
  | (unfold State.noteAbsents; split <;> simp [base_foldl, base_foldl_fst, lane_mem, setLane_base, base_mk]; done)
  | (unfold State.noteAbsents; (repeat' split) <;> simp [base_foldl, base_foldl_fst, lane_mem, setLane_base, base_mk]; done)
  | (simp only [State.noteAbsents]; (repeat' split) <;> simp [base_foldl, base_foldl_fst, lane_mem, setLane_base, base_mk]; done)
  | (unfold State.noteAbsents
     repeat' (first
      | (simp [base_foldl, base_foldl_fst, lane_mem, setLane_base, base_mk]; done)
      | split
      | refine (base_foldl _ (fun _ _ => ?_) _ _).trans ?_
      | simp [base_foldl, base_foldl_fst, lane_mem, setLane_base, base_mk]
      | (rw [base_of_pair ‹_ = (_, _)›]; simp [base_foldl, base_foldl_fst, lane_mem, setLane_base, base_mk]; done)))

@[simp] theorem State.deviceLoad_base (s : State) (l : Lane) (k : Strand) (d : Die) (a off size : Nat) : (State.deviceLoad s l k d a off size).base = s.base := by
  first
  | (simp [State.deviceLoad, base_foldl, base_foldl_fst, lane_mem, setLane_base, base_mk]; done)
  | (unfold State.deviceLoad; split <;> simp [base_foldl, base_foldl_fst, lane_mem, setLane_base, base_mk]; done)
  | (unfold State.deviceLoad; (repeat' split) <;> simp [base_foldl, base_foldl_fst, lane_mem, setLane_base, base_mk]; done)
  | (simp only [State.deviceLoad]; (repeat' split) <;> simp [base_foldl, base_foldl_fst, lane_mem, setLane_base, base_mk]; done)
  | (unfold State.deviceLoad
     repeat' (first
      | (simp [base_foldl, base_foldl_fst, lane_mem, setLane_base, base_mk]; done)
      | split
      | refine (base_foldl _ (fun _ _ => ?_) _ _).trans ?_
      | simp [base_foldl, base_foldl_fst, lane_mem, setLane_base, base_mk]
      | (rw [base_of_pair ‹_ = (_, _)›]; simp [base_foldl, base_foldl_fst, lane_mem, setLane_base, base_mk]; done)))

@[simp] theorem State.doLoad_base (s : State) (l : Lane) (k : Strand) (a size : Nat) : (State.doLoad s l k a size).base = s.base := by
  unfold State.doLoad
  (repeat' split) <;> simp [lane_mem]

@[simp] theorem State.foldDwords_base (s : State) (l : Lane) (k : Strand) (kind : Byte) (ds : List Dw) : (State.foldDwords s l k kind ds).base = s.base := by
  first
  | (simp [State.foldDwords, base_foldl, base_foldl_fst, lane_mem, setLane_base, base_mk]; done)
  | (unfold State.foldDwords; split <;> simp [base_foldl, base_foldl_fst, lane_mem, setLane_base, base_mk]; done)
  | (unfold State.foldDwords; (repeat' split) <;> simp [base_foldl, base_foldl_fst, lane_mem, setLane_base, base_mk]; done)
  | (simp only [State.foldDwords]; (repeat' split) <;> simp [base_foldl, base_foldl_fst, lane_mem, setLane_base, base_mk]; done)
  | (unfold State.foldDwords
     repeat' (first
      | (simp [base_foldl, base_foldl_fst, lane_mem, setLane_base, base_mk]; done)
      | split
      | refine (base_foldl _ (fun _ _ => ?_) _ _).trans ?_
      | simp [base_foldl, base_foldl_fst, lane_mem, setLane_base, base_mk]
      | (rw [base_of_pair ‹_ = (_, _)›]; simp [base_foldl, base_foldl_fst, lane_mem, setLane_base, base_mk]; done)))

@[simp] theorem State.foldSig_base (s : State) (l : Lane) (k : Strand) (kind : Byte) (a : Nat) (bs : List Byte) : (State.foldSig s l k kind a bs).base = s.base := by
  simp [State.foldSig]

@[simp] theorem State.voidScrub_base (s : State) (l : Lane) (k : Strand) (a : Nat) : (State.voidScrub s l k a).base = s.base := by
  simp [State.voidScrub]

@[simp] theorem State.deviceStore_base (s : State) (l : Lane) (k : Strand) (d : Die) (a off : Nat) (bs : List Byte) : (State.deviceStore s l k d a off bs).base = s.base := by
  first
  | (simp [State.deviceStore, base_foldl, base_foldl_fst, lane_mem, setLane_base, base_mk]; done)
  | (unfold State.deviceStore; split <;> simp [base_foldl, base_foldl_fst, lane_mem, setLane_base, base_mk]; done)
  | (unfold State.deviceStore; (repeat' split) <;> simp [base_foldl, base_foldl_fst, lane_mem, setLane_base, base_mk]; done)
  | (simp only [State.deviceStore]; (repeat' split) <;> simp [base_foldl, base_foldl_fst, lane_mem, setLane_base, base_mk]; done)
  | (unfold State.deviceStore
     repeat' (first
      | (simp [base_foldl, base_foldl_fst, lane_mem, setLane_base, base_mk]; done)
      | split
      | refine (base_foldl _ (fun _ _ => ?_) _ _).trans ?_
      | simp [base_foldl, base_foldl_fst, lane_mem, setLane_base, base_mk]
      | (rw [base_of_pair ‹_ = (_, _)›]; simp [base_foldl, base_foldl_fst, lane_mem, setLane_base, base_mk]; done)))

@[simp] theorem State.endStep_base (s : State) (l : Lane) (k : Strand) : (State.endStep s l k).base = s.base := by
  simp [State.endStep]

theorem execSqCopyArrive_base (l : Lane) (src dst : Strand) (m : SqMsg) (s : State) : ∃ s', execSqCopyArrive l src dst m s = .next s' ∧ s'.base = s.base := by
  refine ⟨_, rfl, ?_⟩
  simp

theorem execEpochMark_base (l : Lane) (k : Strand) (s : State) : ∃ s', execEpochMark l k s = .next s' ∧ s'.base = s.base := by
  refine ⟨_, rfl, ?_⟩
  simp

@[simp] theorem State.idleAdvance_base (s : State) (l : Lane) (k : Strand) : (State.idleAdvance s l k).base = s.base := by
  simp [State.idleAdvance]

theorem execWaitForEvent_base (l : Lane) (k : Strand) (s : State) : ∃ s', execWaitForEvent l k s = .next s' ∧ s'.base = s.base := by
  refine ⟨_, rfl, ?_⟩
  simp

theorem execIdleAdvance_base (l : Lane) (k : Strand) (s : State) : ∃ s', execIdleAdvance l k s = .next s' ∧ s'.base = s.base := by
  refine ⟨_, rfl, ?_⟩
  simp

end Sys2Proof.Machine
end

