-- ==== Sys2Proof/Laws/BaseLaneMemory.lean ====
section
/-! SUPPORT. Which operations of Machine/LaneMemory.lean keep the base. -/

namespace Sys2Proof.Machine

@[simp] theorem State.noteBroadcast_base (s : State) (l : Lane) (k : Strand) (a : Nat) : (State.noteBroadcast s l k a).base = s.base := by
  unfold State.noteBroadcast
  split <;> simp

@[simp] theorem State.noteLanded_base (s : State) (p : PDie) (l : Lane) : (State.noteLanded s p l).base = s.base := by
  unfold State.noteLanded
  split <;> simp [base_mk]

theorem execScrubHashDone_base (l : Lane) (k : Strand) (s : State) : ∃ s', execScrubHashDone l k s = .next s' ∧ s'.base = s.base := by
  refine ⟨_, rfl, ?_⟩
  split <;> simp [lane_mem]

@[simp] theorem State.scrubRetry_base (s : State) (k : Strand) (h : ScrubHash) : (State.scrubRetry s k h).base = s.base := by
  simp [State.scrubRetry, base_foldl]

@[simp] theorem State.scrubAdvance_base (s : State) (k : Strand) (h : ScrubHash) : (State.scrubAdvance s k h).base = s.base := by
  simp [State.scrubAdvance, base_foldl, base_mk]

@[simp] theorem State.scrubExcludes_base (s : State) (k : Strand) (x : Lane) : (State.scrubExcludes s k x).base = s.base := by
  simp [State.scrubExcludes, base_foldl]

@[simp] theorem State.scrubCompare_base (s : State) (k : Strand) (got : List (Lane × ScrubHash)) : (State.scrubCompare s k got).base = s.base := by
  unfold State.scrubCompare
  (repeat' split) <;> simp [base_foldl]

theorem execScrubCompare_base (k : Strand) (s : State) : ∃ s', execScrubCompare k s = .next s' ∧ s'.base = s.base := by
  refine ⟨_, rfl, ?_⟩
  (repeat' split) <;> simp

@[simp] theorem State.ownFault_base (s : State) (l : Lane) (c : LaneFault) : (State.ownFault s l c).base = s.base := by
  simp [State.ownFault, base_foldl]

@[simp] theorem State.poisonWord_base (s : State) (l : Lane) (a src : Nat) (k : Strand) : (State.poisonWord s l a src k).base = s.base := by
  simp [State.poisonWord, lane_mem, setLane_base]

@[simp] theorem State.memoryUe_base (s : State) (l : Lane) (loc : UeLoc) (a : Nat) : (State.memoryUe s l loc a).base = s.base := by
  unfold State.memoryUe
  (repeat' split) <;> simp

theorem execFaultLineAssert_base (l : Lane) (c : LaneFault) (s : State) : ∃ s', execFaultLineAssert l c s = .next s' ∧ s'.base = s.base := by
  refine ⟨_, rfl, ?_⟩
  simp [base_foldl]

@[simp] theorem State.retireLate_base (s : State) : (State.retireLate s).base = s.base := by
  unfold State.retireLate
  split <;> simp

theorem execLaneRetire_base (l : Lane) (c : LaneFault) (s : State) : ∃ s', execLaneRetire l c s = .next s' ∧ s'.base = s.base := by
  refine ⟨_, rfl, ?_⟩
  simp

theorem execFlitReplay_base (i : LinkId) (s : State) : ∃ s', execFlitReplay i s = .next s' ∧ s'.base = s.base := by
  refine ⟨_, rfl, ?_⟩
  split <;> simp

theorem execCrawlwayLinkFailed_base (l o : Lane) (s : State) : ∃ s', execCrawlwayLinkFailed l o s = .next s' ∧ s'.base = s.base := by
  refine ⟨_, rfl, ?_⟩
  simp

@[simp] theorem State.loseBroadcast_base (s : State) (l : Lane) (w : Broadcast) : (State.loseBroadcast s l w).base = s.base := by
  simp [State.loseBroadcast]

theorem execLinkFail_base (l : Lane) (d : Die) (s : State) : ∃ s', execLinkFail l d s = .next s' ∧ s'.base = s.base := by
  refine ⟨_, rfl, ?_⟩
  repeat' (first
      | (simp [base_foldl, base_foldl_fst, lane_mem, setLane_base, base_mk]; done)
      | split
      | refine (base_foldl _ (fun _ _ => ?_) _ _).trans ?_
      | simp [base_foldl, base_foldl_fst, lane_mem, setLane_base, base_mk]
      | (rw [base_of_pair ‹_ = (_, _)›]; simp [base_foldl, base_foldl_fst, lane_mem, setLane_base, base_mk]; done))

end Sys2Proof.Machine
end

