-- ==== Sys2Proof/Laws/BaseRejoin.lean ====
section
/-! SUPPORT. Which operations of Machine/Rejoin.lean keep the base. -/

namespace Sys2Proof.Machine

@[simp] theorem State.setQueued_base (s : State) (k : Strand) (b : Bool) : (State.setQueued s k b).base = s.base := by
  simp [State.setQueued]

@[simp] theorem State.requestRejoin_base (s : State) (k : Strand) (x : Lane) : (State.requestRejoin s k x).base = s.base := by
  unfold State.requestRejoin
  (repeat' split) <;> simp [base_mk]

theorem execRejoin_base (k : Strand) (repl : Lane) (s : State) : ∃ s', execRejoin k repl s = .next s' ∧ s'.base = s.base := by
  refine ⟨_, rfl, ?_⟩
  simp

@[simp] theorem State.autoAsked_base (s : State) (k : Strand) (x : Lane) : (State.autoAsked s k x).base = s.base := by
  first
  | (simp [State.autoAsked, base_foldl, base_foldl_fst, lane_mem, setLane_base, base_mk]; done)
  | (unfold State.autoAsked; split <;> simp [base_foldl, base_foldl_fst, lane_mem, setLane_base, base_mk]; done)
  | (unfold State.autoAsked; (repeat' split) <;> simp [base_foldl, base_foldl_fst, lane_mem, setLane_base, base_mk]; done)
  | (simp only [State.autoAsked]; (repeat' split) <;> simp [base_foldl, base_foldl_fst, lane_mem, setLane_base, base_mk]; done)
  | (unfold State.autoAsked
     repeat' (first
      | (simp [base_foldl, base_foldl_fst, lane_mem, setLane_base, base_mk]; done)
      | split
      | refine (base_foldl _ (fun _ _ => ?_) _ _).trans ?_
      | simp [base_foldl, base_foldl_fst, lane_mem, setLane_base, base_mk]
      | (rw [base_of_pair ‹_ = (_, _)›]; simp [base_foldl, base_foldl_fst, lane_mem, setLane_base, base_mk]; done)))

theorem execAutoRejoinRequest_base (k : Strand) (repl : Lane) (s : State) : ∃ s', execAutoRejoinRequest k repl s = .next s' ∧ s'.base = s.base := by
  refine ⟨_, rfl, ?_⟩
  simp

@[simp] theorem State.abandonCmd_base (s : State) (k : Strand) : (State.abandonCmd s k).base = s.base := by
  simp [State.abandonCmd, base_mk]

theorem execAbandon_base (k : Strand) (s : State) : ∃ s', execAbandon k s = .next s' ∧ s'.base = s.base := by
  refine ⟨_, rfl, ?_⟩
  simp

@[simp] theorem State.endDebug_base (s : State) (x : Lane) (k : Strand) : (State.endDebug s x k).base = s.base := by
  simp [State.endDebug]

theorem execRejoinStart_base (k : Strand) (s : State) : ∃ s', execRejoinStart k s = .next s' ∧ s'.base = s.base := by
  refine ⟨_, rfl, ?_⟩
  dsimp only
  (repeat' split) <;> simp [base_mk]

@[simp] theorem State.arrangeStall_base (s : State) (r : RejoinRun) : (State.arrangeStall s r).base = s.base := by
  first
  | (simp [State.arrangeStall, base_foldl, base_foldl_fst, lane_mem, setLane_base, base_mk]; done)
  | (unfold State.arrangeStall; split <;> simp [base_foldl, base_foldl_fst, lane_mem, setLane_base, base_mk]; done)
  | (unfold State.arrangeStall; (repeat' split) <;> simp [base_foldl, base_foldl_fst, lane_mem, setLane_base, base_mk]; done)
  | (simp only [State.arrangeStall]; (repeat' split) <;> simp [base_foldl, base_foldl_fst, lane_mem, setLane_base, base_mk]; done)
  | (unfold State.arrangeStall
     repeat' (first
      | (simp [base_foldl, base_foldl_fst, lane_mem, setLane_base, base_mk]; done)
      | split
      | refine (base_foldl _ (fun _ _ => ?_) _ _).trans ?_
      | simp [base_foldl, base_foldl_fst, lane_mem, setLane_base, base_mk]
      | (rw [base_of_pair ‹_ = (_, _)›]; simp [base_foldl, base_foldl_fst, lane_mem, setLane_base, base_mk]; done)))

@[simp] theorem State.nextPass_base (s : State) (r : RejoinRun) : (State.nextPass s r).base = s.base := by
  simp [State.nextPass, base_mk]

@[simp] theorem State.holdAt_base (s : State) (r : RejoinRun) (p : PDie) : (State.holdAt s r p).base = s.base := by
  first
  | (simp [State.holdAt, base_foldl, base_foldl_fst, lane_mem, setLane_base, base_mk]; done)
  | (unfold State.holdAt; split <;> simp [base_foldl, base_foldl_fst, lane_mem, setLane_base, base_mk]; done)
  | (unfold State.holdAt; (repeat' split) <;> simp [base_foldl, base_foldl_fst, lane_mem, setLane_base, base_mk]; done)
  | (simp only [State.holdAt]; (repeat' split) <;> simp [base_foldl, base_foldl_fst, lane_mem, setLane_base, base_mk]; done)
  | (unfold State.holdAt
     repeat' (first
      | (simp [base_foldl, base_foldl_fst, lane_mem, setLane_base, base_mk]; done)
      | split
      | refine (base_foldl _ (fun _ _ => ?_) _ _).trans ?_
      | simp [base_foldl, base_foldl_fst, lane_mem, setLane_base, base_mk]
      | (rw [base_of_pair ‹_ = (_, _)›]; simp [base_foldl, base_foldl_fst, lane_mem, setLane_base, base_mk]; done)))

theorem execRejoinHold_base (s : State) : ∃ s', execRejoinHold s = .next s' ∧ s'.base = s.base := by
  refine ⟨_, rfl, ?_⟩
  split <;> simp [base_mk]

@[simp] theorem State.keepMsgs_base (s : State) (l : Lane) (k : Strand) (old : Echo) : (State.keepMsgs s l k old).base = s.base := by
  simp [State.keepMsgs, base_foldl]

@[simp] theorem State.copyPage_base (s : State) (k : Strand) (src dst : Lane) : (State.copyPage s k src dst).base = s.base := by
  simp [State.copyPage, base_mk]

theorem execHoldTimeout_base (s : State) : ∃ s', execHoldTimeout s = .next s' ∧ s'.base = s.base := by
  refine ⟨_, rfl, ?_⟩
  split <;> simp

theorem execStallOver_base (s : State) : ∃ s', execStallOver s = .next s' ∧ s'.base = s.base := by
  refine ⟨_, rfl, ?_⟩
  split <;> simp

@[simp] theorem State.joinVoter_base (s : State) (r : RejoinRun) (d : Die) : (State.joinVoter s r d).base = s.base := by
  unfold State.joinVoter
  split <;> simp

theorem execJoinNotice_base (s : State) : ∃ s', execJoinNotice s = .next s' ∧ s'.base = s.base := by
  refine ⟨_, rfl, ?_⟩
  split <;> simp [base_foldl, base_mk]

end Sys2Proof.Machine
end

