-- ==== Sys2Proof/Laws/BaseRestart.lean ====
section
/-! SUPPORT. Which operations of Machine/Restart.lean keep the base. -/

namespace Sys2Proof.Machine

@[simp] theorem State.tcfgGo_base (s : State) (l : Lane) (k : Strand) : (State.tcfgGo s l k).base = s.base := by
  simp [State.tcfgGo, base_mk]

theorem execTcfgCommitGo_base (l : Lane) (k : Strand) (s : State) : ∃ s', execTcfgCommitGo l k s = .next s' ∧ s'.base = s.base := by
  refine ⟨_, rfl, ?_⟩
  simp

theorem execTcfgGoTimeout_base (k : Strand) (s : State) : ∃ s', execTcfgGoTimeout k s = .next s' ∧ s'.base = s.base := by
  refine ⟨_, rfl, ?_⟩
  split <;> simp

@[simp] theorem State.tcfgAtStart_base (s : State) (k : Strand) : (State.tcfgAtStart s k).base = s.base := by
  unfold State.tcfgAtStart
  split <;> simp [base_foldl]

@[simp] theorem State.landCopies_base (s : State) (k : Strand) : (State.landCopies s k).base = s.base := by
  unfold State.landCopies
  repeat' (first
      | (simp [base_foldl, base_foldl_fst, lane_mem, setLane_base, base_mk]; done)
      | split
      | refine (base_foldl _ (fun _ _ => ?_) _ _).trans ?_
      | simp [base_foldl, base_foldl_fst, lane_mem, setLane_base, base_mk]
      | (rw [base_of_pair ‹_ = (_, _)›]; simp [base_foldl, base_foldl_fst, lane_mem, setLane_base, base_mk]; done))

@[simp] theorem State.freshPage_base (s : State) (l : Lane) (k : Strand) : (State.freshPage s l k).base = s.base := by
  simp [State.freshPage, base_mk]

@[simp] theorem State.freshVoter_base (s : State) (d : Die) (k : Strand) (ls : List Lane) : (State.freshVoter s d k ls).base = s.base := by
  simp [State.freshVoter, base_foldl]

@[simp] theorem State.dropUp_base (s : State) (k : Strand) (l : Lane) : (State.dropUp s k l).base = s.base := by
  simp [State.dropUp, base_foldl]

@[simp] theorem State.freshLane_base (s : State) (k : Strand) (ls : List Lane) (pops sent : Quad Half) (l : Lane) : (State.freshLane s k ls pops sent l).base = s.base := by
  simp [State.freshLane]

@[simp] theorem State.markReleased_base (s : State) (k : Strand) : (State.markReleased s k).base = s.base := by
  simp [State.markReleased, base_mk]

@[simp] theorem State.releaseStrand_base (s : State) (k : Strand) (ls : List Lane) :
    (s.releaseStrand k ls).base = s.base := by
  unfold State.releaseStrand
  refine (base_foldl _ (fun _ _ => by simp) _ _).trans ?_
  refine (State.tcfgAtStart_base _ _).trans ?_
  refine (State.markReleased_base _ _).trans ?_
  refine (base_foldl _ (fun _ _ => State.freshLane_base ..) _ _).trans ?_
  exact (State.landCopies_base _ _).trans (base_foldl _ (fun _ _ => State.freshVoter_base ..) _ _)

@[simp] theorem State.enterDebug_base (s : State) (x : Lane) (k : Strand) : (State.enterDebug s x k).base = s.base := by
  simp only [State.enterDebug]
  (repeat' split) <;> simp

@[simp] theorem State.recordAttach_base (s : State) (x : Lane) : (State.recordAttach s x).base = s.base := by
  simp [State.recordAttach, base_foldl]

@[simp] theorem State.attach_base (s : State) (k : Strand) (x : Lane) : (State.attach s k x).base = s.base := by
  simp [State.attach, base_foldl]

theorem execDebugAttach_base (k : Strand) (repl : Lane) (s : State) : ∃ s', execDebugAttach k repl s = .next s' ∧ s'.base = s.base := by
  refine ⟨_, rfl, ?_⟩
  split <;> simp

theorem execDbgEnChange_base (on : Bool) (s : State) : ∃ s', execDbgEnChange on s = .next s' ∧ s'.base = s.base := by
  refine ⟨_, rfl, ?_⟩
  simp [base_foldl]

theorem execExclusionNoticeReceive_base (l : Lane) (k : Strand) (repl : Lane) (c : Cause) (s : State) : ∃ s', execExclusionNoticeReceive l k repl c s = .next s' ∧ s'.base = s.base := by
  refine ⟨_, rfl, ?_⟩
  simp

theorem execSplitNoticeReceive_base (l : Lane) (k : Strand) (c : Cause) (s : State) : ∃ s', execSplitNoticeReceive l k c s = .next s' ∧ s'.base = s.base := by
  refine ⟨_, rfl, ?_⟩
  simp

theorem execNetworkTimeTimeout_base (l : Lane) (p : PDie) (s : State) : ∃ s', execNetworkTimeTimeout l p s = .next s' ∧ s'.base = s.base := by
  refine ⟨_, rfl, ?_⟩
  simp [lane_mem, setLane_base]

end Sys2Proof.Machine
end

