-- ==== Sys2Proof/Laws/BaseFlash.lean ====
section
/-! SUPPORT. Which operations of Machine/Flash.lean keep the base. -/

namespace Sys2Proof.Machine

@[simp] theorem State.setFlashSlot_base (s : State) (i : Nat) (second : Bool) (x : FlashSlot) : (State.setFlashSlot s i second x).base = s.base := by
  simp [State.setFlashSlot, base_mk]

end Sys2Proof.Machine
end

