-- ==== Sys2Proof/Laws/BaseUpdate.lean ====
section
/-! SUPPORT. Which operations of Machine/Update.lean keep the base. -/

namespace Sys2Proof.Machine

@[simp] theorem State.vetoUpdate_base (s : State) : (State.vetoUpdate s).base = s.base := by
  simp [State.vetoUpdate]

@[simp] theorem State.endFreeze_base (s : State) : (State.endFreeze s).base = s.base := by
  simp [State.endFreeze, base_mk]

@[simp] theorem State.confirmUpdate_base (s : State) : (State.confirmUpdate s).base = s.base := by
  simp [State.confirmUpdate]

@[simp] theorem State.updCtlWrite_base (s : State) (v : Word) : (State.updCtlWrite s v).base = s.base := by
  simp [State.updCtlWrite]

@[simp] theorem State.updCtl_base (s : State) (k : Strand) (v : Word) : (State.updCtl s k v).base = s.base := by
  simp [State.updCtl]

theorem execVeto_base (k : Strand) (s : State) : ∃ s', execVeto k s = .next s' ∧ s'.base = s.base := by
  refine ⟨_, rfl, ?_⟩
  simp

theorem execConfirm_base (k : Strand) (s : State) : ∃ s', execConfirm k s = .next s' ∧ s'.base = s.base := by
  refine ⟨_, rfl, ?_⟩
  simp

theorem execSuccessfulBoot_base (s : State) : ∃ s', execSuccessfulBoot s = .next s' ∧ s'.base = s.base := by
  refine ⟨_, rfl, ?_⟩
  simp [base_mk]

end Sys2Proof.Machine
end

