-- ==== Sys2Proof/Laws/BaseDevice.lean ====
section
/-! SUPPORT. Which operations of Machine/Device.lean keep the base. -/

namespace Sys2Proof.Machine

@[simp] theorem State.unmapped_base (s : State) (m : Master) (u : RUnit) (off : Nat) : (State.unmapped s m u off).base = s.base := by
  simp [State.unmapped]

theorem State.portAct_base (s : State) (m : Master) (p : PDie) (off : Nat) (d : RegDesc) (is : List Nat) (mask data : Word) : ∀ s', State.portAct s m p off d is mask data = some s' → s'.base = s.base := by
  unfold State.portAct
  split <;> simp [base_mk]

theorem State.mgmtAct_base (s : State) (m : Master) (d : RegDesc) (is : List Nat) (mask data : Word) : ∀ s', State.mgmtAct s m d is mask data = some s' → s'.base = s.base := by
  unfold State.mgmtAct
  split <;> simp

theorem State.fieldAct_base (s : State) (m : Master) (d : RegDesc) (mask data : Word) : ∀ s', State.fieldAct s m d mask data = some s' → s'.base = s.base := by
  unfold State.fieldAct
  split <;> simp

theorem State.lockedWrite_base (s : State) (m : Master) (u : RUnit) (off : Nat) (d : RegDesc) (is : List Nat) : ∀ s', State.lockedWrite s m u off d is = some s' → s'.base = s.base := by
  unfold State.lockedWrite
  (repeat' split) <;> simp

@[simp] theorem State.portRead_base (s : State) (m : Master) (p : PDie) (off : Nat) (d : RegDesc) (is : List Nat) : (State.portRead s m p off d is).1.base = s.base := by
  simp only [State.portRead]
  (repeat' split) <;> simp

@[simp] theorem State.fieldRead_base (s : State) (m : Master) (off : Nat) (d : RegDesc) : (State.fieldRead s m off d).1.base = s.base := by
  unfold State.fieldRead
  split <;> simp

@[simp] theorem State.measureVin_base (s : State) : (State.measureVin s).base = s.base := by
  first
  | (simp [State.measureVin, base_foldl, base_foldl_fst, lane_mem, setLane_base, base_mk]; done)
  | (unfold State.measureVin; split <;> simp [base_foldl, base_foldl_fst, lane_mem, setLane_base, base_mk]; done)
  | (unfold State.measureVin; (repeat' split) <;> simp [base_foldl, base_foldl_fst, lane_mem, setLane_base, base_mk]; done)
  | (simp only [State.measureVin]; (repeat' split) <;> simp [base_foldl, base_foldl_fst, lane_mem, setLane_base, base_mk]; done)
  | (unfold State.measureVin
     repeat' (first
      | (simp [base_foldl, base_foldl_fst, lane_mem, setLane_base, base_mk]; done)
      | split
      | refine (base_foldl _ (fun _ _ => ?_) _ _).trans ?_
      | simp [base_foldl, base_foldl_fst, lane_mem, setLane_base, base_mk]
      | (rw [base_of_pair ‹_ = (_, _)›]; simp [base_foldl, base_foldl_fst, lane_mem, setLane_base, base_mk]; done)))

@[simp] theorem State.mgmtRead_base (s : State) (m : Master) (off : Nat) (d : RegDesc) (is : List Nat) : (State.mgmtRead s m off d is).1.base = s.base := by
  unfold State.mgmtRead
  split <;> simp

@[simp] theorem State.werrRead_base (s : State) (m : Master) (dd : Die) (off : Nat) (d : RegDesc) (is : List Nat) : (State.werrRead s m dd off d is).1.base = s.base := by
  first
  | (simp [State.werrRead, base_foldl, base_foldl_fst, lane_mem, setLane_base, base_mk]; done)
  | (unfold State.werrRead; split <;> simp [base_foldl, base_foldl_fst, lane_mem, setLane_base, base_mk]; done)
  | (unfold State.werrRead; (repeat' split) <;> simp [base_foldl, base_foldl_fst, lane_mem, setLane_base, base_mk]; done)
  | (simp only [State.werrRead]; (repeat' split) <;> simp [base_foldl, base_foldl_fst, lane_mem, setLane_base, base_mk]; done)
  | (unfold State.werrRead
     repeat' (first
      | (simp [base_foldl, base_foldl_fst, lane_mem, setLane_base, base_mk]; done)
      | split
      | refine (base_foldl _ (fun _ _ => ?_) _ _).trans ?_
      | simp [base_foldl, base_foldl_fst, lane_mem, setLane_base, base_mk]
      | (rw [base_of_pair ‹_ = (_, _)›]; simp [base_foldl, base_foldl_fst, lane_mem, setLane_base, base_mk]; done)))

@[simp] theorem State.laneRead_base (s : State) (l : Lane) (off : Nat) (d : RegDesc) (is : List Nat) : (State.laneRead s l off d is).1.base = s.base := by
  first
  | (simp [State.laneRead, base_foldl, base_foldl_fst, lane_mem, setLane_base, base_mk]; done)
  | (unfold State.laneRead; split <;> simp [base_foldl, base_foldl_fst, lane_mem, setLane_base, base_mk]; done)
  | (unfold State.laneRead; (repeat' split) <;> simp [base_foldl, base_foldl_fst, lane_mem, setLane_base, base_mk]; done)
  | (simp only [State.laneRead]; (repeat' split) <;> simp [base_foldl, base_foldl_fst, lane_mem, setLane_base, base_mk]; done)
  | (unfold State.laneRead
     repeat' (first
      | (simp [base_foldl, base_foldl_fst, lane_mem, setLane_base, base_mk]; done)
      | split
      | refine (base_foldl _ (fun _ _ => ?_) _ _).trans ?_
      | simp [base_foldl, base_foldl_fst, lane_mem, setLane_base, base_mk]
      | (rw [base_of_pair ‹_ = (_, _)›]; simp [base_foldl, base_foldl_fst, lane_mem, setLane_base, base_mk]; done)))

@[simp] theorem State.readWord_base (s : State) (m : Master) (u : RUnit) (off : Nat) : (State.readWord s m u off).1.base = s.base := by
  unfold State.readWord
  (repeat' split) <;> simp

@[simp] theorem State.unitLoad_base (s : State) (m : Master) (u : RUnit) (off size : Nat) : (State.unitLoad s m u off size).1.base = s.base := by
  simp [State.unitLoad, base_foldl_fst]

@[simp] theorem State.tagLocks_base (s : State) (d : Die) (b : Beat) : (State.tagLocks s d b).base = s.base := by
  first
  | (simp [State.tagLocks, base_foldl, base_foldl_fst, lane_mem, setLane_base, base_mk]; done)
  | (unfold State.tagLocks; split <;> simp [base_foldl, base_foldl_fst, lane_mem, setLane_base, base_mk]; done)
  | (unfold State.tagLocks; (repeat' split) <;> simp [base_foldl, base_foldl_fst, lane_mem, setLane_base, base_mk]; done)
  | (simp only [State.tagLocks]; (repeat' split) <;> simp [base_foldl, base_foldl_fst, lane_mem, setLane_base, base_mk]; done)
  | (unfold State.tagLocks
     repeat' (first
      | (simp [base_foldl, base_foldl_fst, lane_mem, setLane_base, base_mk]; done)
      | split
      | refine (base_foldl _ (fun _ _ => ?_) _ _).trans ?_
      | simp [base_foldl, base_foldl_fst, lane_mem, setLane_base, base_mk]
      | (rw [base_of_pair ‹_ = (_, _)›]; simp [base_foldl, base_foldl_fst, lane_mem, setLane_base, base_mk]; done)))

@[simp] theorem State.beatLoad_base (s : State) (d : Die) (b : Beat) : (State.beatLoad s d b).1.base = s.base := by
  unfold State.beatLoad
  (repeat' split) <;> simp

@[simp] theorem State.noteAbsentWords_base (s : State) (m : Master) (u : RUnit) (off size : Nat) : (State.noteAbsentWords s m u off size).base = s.base := by
  first
  | (simp [State.noteAbsentWords, base_foldl, base_foldl_fst, lane_mem, setLane_base, base_mk]; done)
  | (unfold State.noteAbsentWords; split <;> simp [base_foldl, base_foldl_fst, lane_mem, setLane_base, base_mk]; done)
  | (unfold State.noteAbsentWords; (repeat' split) <;> simp [base_foldl, base_foldl_fst, lane_mem, setLane_base, base_mk]; done)
  | (simp only [State.noteAbsentWords]; (repeat' split) <;> simp [base_foldl, base_foldl_fst, lane_mem, setLane_base, base_mk]; done)
  | (unfold State.noteAbsentWords
     repeat' (first
      | (simp [base_foldl, base_foldl_fst, lane_mem, setLane_base, base_mk]; done)
      | split
      | refine (base_foldl _ (fun _ _ => ?_) _ _).trans ?_
      | simp [base_foldl, base_foldl_fst, lane_mem, setLane_base, base_mk]
      | (rw [base_of_pair ‹_ = (_, _)›]; simp [base_foldl, base_foldl_fst, lane_mem, setLane_base, base_mk]; done)))

@[simp] theorem State.pageAccess_base (s : State) (l : Lane) (k : Strand) (off : Nat) (access : Nat → State)
    (h : ∀ a, (access a).base = s.base) : (s.pageAccess l k off access).base = s.base := by
  unfold State.pageAccess
  split <;> simp [h]

theorem execRcRead_base (m : Master) (u : RUnit) (off size : Nat) (s : State) : ∃ s', execRcRead m u off size s = .next s' ∧ s'.base = s.base := by
  first
  | (refine ⟨_, rfl, ?_⟩; simp [base_foldl, base_foldl_fst, lane_mem, setLane_base, base_mk]; done)
  | (refine ⟨_, rfl, ?_⟩; split <;> simp [base_foldl, base_foldl_fst, lane_mem, setLane_base, base_mk]; done)
  | (refine ⟨_, rfl, ?_⟩; (repeat' split) <;> simp [base_foldl, base_foldl_fst, lane_mem, setLane_base, base_mk]; done)
  | (refine ⟨_, rfl, ?_⟩; dsimp only; (repeat' split) <;> simp [base_foldl, base_foldl_fst, lane_mem, setLane_base, base_mk]; done)
  | (refine ⟨_, rfl, ?_⟩
     repeat' (first
      | (simp [base_foldl, base_foldl_fst, lane_mem, setLane_base, base_mk]; done)
      | split
      | refine (base_foldl _ (fun _ _ => ?_) _ _).trans ?_
      | simp [base_foldl, base_foldl_fst, lane_mem, setLane_base, base_mk]
      | (rw [base_of_pair ‹_ = (_, _)›]; simp [base_foldl, base_foldl_fst, lane_mem, setLane_base, base_mk]; done)))

@[simp] theorem State.abortCommit_base (s : State) (b : CommitBlock) : (State.abortCommit s b).base = s.base := by
  unfold State.abortCommit
  split <;> simp

theorem execCommitAbortedByReset_base (b : CommitBlock) (s : State) : ∃ s', execCommitAbortedByReset b s = .next s' ∧ s'.base = s.base := by
  refine ⟨_, rfl, ?_⟩
  simp

end Sys2Proof.Machine
end

