-- ==== Sys2Proof/Laws/BaseVoter.lean ====
section
/-! SUPPORT. Which operations of Machine/Voter.lean keep the base. -/

namespace Sys2Proof.Machine

theorem execBeatSend_base (l : Lane) (k : Strand) (s : State) : ∃ s', execBeatSend l k s = .next s' ∧ s'.base = s.base := by
  refine ⟨_, rfl, ?_⟩
  split <;> simp

@[simp] theorem State.loseBeat_base (s : State) (d : Die) (l : Lane) (b : Beat) : (State.loseBeat s d l b).base = s.base := by
  simp [State.loseBeat]

@[simp] theorem State.fencedBeat_base (s : State) (d : Die) (b : Beat) : (State.fencedBeat s d b).base = s.base := by
  simp [State.fencedBeat, base_foldl]

@[simp] theorem State.atArrival_base (s : State) (d : Die) (l : Lane) (b : Beat) : (State.atArrival s d l b).base = s.base := by
  unfold State.atArrival
  (repeat' split) <;> simp [base_foldl]

@[simp] theorem State.sendResult_base (s : State) (d : Die) (k : Strand) (ord : Word) (data : Dword) (l : Lane) : (State.sendResult s d k ord data l).base = s.base := by
  first
  | (simp [State.sendResult, base_foldl, base_foldl_fst, lane_mem, setLane_base, base_mk]; done)
  | (unfold State.sendResult; split <;> simp [base_foldl, base_foldl_fst, lane_mem, setLane_base, base_mk]; done)
  | (unfold State.sendResult; (repeat' split) <;> simp [base_foldl, base_foldl_fst, lane_mem, setLane_base, base_mk]; done)
  | (simp only [State.sendResult]; (repeat' split) <;> simp [base_foldl, base_foldl_fst, lane_mem, setLane_base, base_mk]; done)
  | (unfold State.sendResult
     repeat' (first
      | (simp [base_foldl, base_foldl_fst, lane_mem, setLane_base, base_mk]; done)
      | split
      | refine (base_foldl _ (fun _ _ => ?_) _ _).trans ?_
      | simp [base_foldl, base_foldl_fst, lane_mem, setLane_base, base_mk]
      | (rw [base_of_pair ‹_ = (_, _)›]; simp [base_foldl, base_foldl_fst, lane_mem, setLane_base, base_mk]; done)))

@[simp] theorem State.takeResults_base (s : State) (l : Lane) (d : Die) : (State.takeResults s l d).base = s.base := by
  first
  | (simp [State.takeResults, base_foldl, base_foldl_fst, lane_mem, setLane_base, base_mk]; done)
  | (unfold State.takeResults; split <;> simp [base_foldl, base_foldl_fst, lane_mem, setLane_base, base_mk]; done)
  | (unfold State.takeResults; (repeat' split) <;> simp [base_foldl, base_foldl_fst, lane_mem, setLane_base, base_mk]; done)
  | (simp only [State.takeResults]; (repeat' split) <;> simp [base_foldl, base_foldl_fst, lane_mem, setLane_base, base_mk]; done)
  | (unfold State.takeResults
     repeat' (first
      | (simp [base_foldl, base_foldl_fst, lane_mem, setLane_base, base_mk]; done)
      | split
      | refine (base_foldl _ (fun _ _ => ?_) _ _).trans ?_
      | simp [base_foldl, base_foldl_fst, lane_mem, setLane_base, base_mk]
      | (rw [base_of_pair ‹_ = (_, _)›]; simp [base_foldl, base_foldl_fst, lane_mem, setLane_base, base_mk]; done)))

@[simp] theorem State.giveKept_base (s : State) (d : Die) (l : Lane) (b : Beat) (ecc : BeatEcc) : (State.giveKept s d l b ecc).base = s.base := by
  simp only [State.giveKept]
  (repeat' split) <;> simp

@[simp] theorem State.decideOrd_base (s : State) (d : Die) (l : Lane) (b : Beat) (o : OrdRec) (ecc : BeatEcc) : (State.decideOrd s d l b o ecc).base = s.base := by
  simp only [State.decideOrd]
  (repeat' split) <;> simp

@[simp] theorem State.putBeat_base (s : State) (d : Die) (l : Lane) (b : Beat) : (State.putBeat s d l b).base = s.base := by
  simp [State.putBeat]

@[simp] theorem State.decideBeat_base (s : State) (d : Die) (l : Lane) (b : Beat) (ecc : BeatEcc) : (State.decideBeat s d l b ecc).base = s.base := by
  unfold State.decideBeat
  split <;> simp

@[simp] theorem State.holdBeat_base (s : State) (d : Die) (l : Lane) (b : Beat) (ecc : BeatEcc) : (State.holdBeat s d l b ecc).base = s.base := by
  simp [State.holdBeat]

@[simp] theorem State.countCe_base (s : State) (d : Die) (k : Strand) : (State.countCe s d k).base = s.base := by
  simp [State.countCe]

@[simp] theorem State.beatHeld_base (s : State) (d : Die) (l : Lane) (b : Beat) (ecc : BeatEcc) : (State.beatHeld s d l b ecc).base = s.base := by
  unfold State.beatHeld
  split <;> simp

@[simp] theorem State.beatAt_base (s : State) (d : Die) (l : Lane) (b : Beat) (ecc : BeatEcc) : (State.beatAt s d l b ecc).base = s.base := by
  simp [State.beatAt]

theorem execBeatArrive_base (d : Die) (l : Lane) (b : Beat) (ecc : BeatEcc) (s : State) : ∃ s', execBeatArrive d l b ecc s = .next s' ∧ s'.base = s.base := by
  refine ⟨_, rfl, ?_⟩
  simp

theorem execVoterSkewTimeout_base (d : Die) (k : Strand) (ordinal : Word) (s : State) : ∃ s', execVoterSkewTimeout d k ordinal s = .next s' ∧ s'.base = s.base := by
  refine ⟨_, rfl, ?_⟩
  dsimp only
  (repeat' split) <;> simp

@[simp] theorem State.settleOrd_base (s : State) (d : Die) (k : Strand) (o : OrdRec) (b : Beat) : (State.settleOrd s d k o b).base = s.base := by
  simp [State.settleOrd]

@[simp] theorem State.releaseCe_base (s : State) (d : Die) (k : Strand) (ecc : BeatEcc) (o : OrdRec) : (State.releaseCe s d k ecc o).base = s.base := by
  unfold State.releaseCe
  split <;> simp

theorem execReadOncePerform_base (d : Die) (k : Strand) (ecc : BeatEcc) (s : State) : ∃ s', execReadOncePerform d k ecc s = .next s' ∧ s'.base = s.base := by
  refine ⟨_, rfl, ?_⟩
  dsimp only
  (repeat' split) <;> simp [base_foldl]

theorem execRdTimeout_base (l : Lane) (k : Strand) (s : State) : ∃ s', execRdTimeout l k s = .next s' ∧ s'.base = s.base := by
  refine ⟨_, rfl, ?_⟩
  dsimp only
  (repeat' split) <;> simp

theorem execChallengeBeatArrive_base (d : Die) (l : Lane) (k : Strand) (data : Dword) (s : State) : ∃ s', execChallengeBeatArrive d l k data s = .next s' ∧ s'.base = s.base := by
  refine ⟨_, rfl, ?_⟩
  simp

end Sys2Proof.Machine
end

