-- ==== Sys2Proof/Laws/BaseBoot.lean ====
section
/-! SUPPORT. Which operations of Machine/Boot.lean keep the base. -/

namespace Sys2Proof.Machine

@[simp] theorem State.showFence_base (s : State) (d : Die) : (State.showFence s d).base = s.base := by
  simp [State.showFence, base_foldl]

@[simp] theorem State.setLastOff_base (s : State) (cause : Nat) : (State.setLastOff s cause).base = s.base := by
  simp [State.setLastOff]

@[simp] theorem State.freezeLeds_base (s : State) : (State.freezeLeds s).base = s.base := by
  simp [State.freezeLeds, base_mk]

@[simp] theorem State.openStore_base (s : State) : (State.openStore s).base = s.base := by
  simp [State.openStore, base_mk]

@[simp] theorem State.startFirmware_base (s : State) (second : Bool) : (State.startFirmware s second).base = s.base := by
  simp [State.startFirmware, base_mk]

@[simp] theorem State.showStore_base (s : State) : (State.showStore s).base = s.base := by
  simp [State.showStore]

@[simp] theorem State.reportLosses_base (s : State) : (State.reportLosses s).base = s.base := by
  simp [State.reportLosses, base_mk]

theorem State.rom_base (s : State) : ∀ s', State.rom s = some s' → s'.base = s.base := by
  simp [State.rom]

@[simp] theorem State.initGovernors_base (s : State) (i : BootInput) : (State.initGovernors s i).base = s.base := by
  simp [State.initGovernors, base_foldl]

@[simp] theorem State.powerIsland_base (s : State) (want : Word) (i : Nat) : (State.powerIsland s want i).base = s.base := by
  unfold State.powerIsland
  (repeat' split) <;> simp [base_mk]

@[simp] theorem State.powerUp_base (s : State) (i : BootInput) : (State.powerUp s i).base = s.base := by
  simp [State.powerUp, base_foldl, base_mk]

@[simp] theorem State.readMemory_base (s : State) (i : BootInput) (address : Nat) : (State.readMemory s i address).1.base = s.base := by
  unfold State.readMemory
  (repeat' split) <;> simp

@[simp] theorem State.loadCal_base (s : State) (rs : List (Nat × List Byte)) : (State.loadCal s rs).base = s.base := by
  first
  | (simp [State.loadCal, base_foldl, base_foldl_fst, lane_mem, setLane_base, base_mk]; done)
  | (unfold State.loadCal; split <;> simp [base_foldl, base_foldl_fst, lane_mem, setLane_base, base_mk]; done)
  | (unfold State.loadCal; (repeat' split) <;> simp [base_foldl, base_foldl_fst, lane_mem, setLane_base, base_mk]; done)
  | (simp only [State.loadCal]; (repeat' split) <;> simp [base_foldl, base_foldl_fst, lane_mem, setLane_base, base_mk]; done)
  | (unfold State.loadCal
     repeat' (first
      | (simp [base_foldl, base_foldl_fst, lane_mem, setLane_base, base_mk]; done)
      | split
      | refine (base_foldl _ (fun _ _ => ?_) _ _).trans ?_
      | simp [base_foldl, base_foldl_fst, lane_mem, setLane_base, base_mk]
      | (rw [base_of_pair ‹_ = (_, _)›]; simp [base_foldl, base_foldl_fst, lane_mem, setLane_base, base_mk]; done)))

@[simp] theorem State.readIdentity_base (s : State) (i : BootInput) : (State.readIdentity s i).base = s.base := by
  simp [State.readIdentity, base_foldl_fst, base_mk]

@[simp] theorem State.revertPackage_base (s : State) (reason : Nat) : (State.revertPackage s reason).base = s.base := by
  simp [State.revertPackage, base_mk]

@[simp] theorem State.finishTt_base (s : State) (p : PDie) : (State.finishTt s p).base = s.base := by
  simp only [State.finishTt]
  (repeat' split) <;> simp

@[simp] theorem State.finishCommit_base (s : State) (u : RUnit) (off : Nat) : (State.finishCommit s u off).base = s.base := by
  first
  | (simp [State.finishCommit, base_foldl, base_foldl_fst, lane_mem, setLane_base, base_mk]; done)
  | (unfold State.finishCommit; split <;> simp [base_foldl, base_foldl_fst, lane_mem, setLane_base, base_mk]; done)
  | (unfold State.finishCommit; (repeat' split) <;> simp [base_foldl, base_foldl_fst, lane_mem, setLane_base, base_mk]; done)
  | (simp only [State.finishCommit]; (repeat' split) <;> simp [base_foldl, base_foldl_fst, lane_mem, setLane_base, base_mk]; done)
  | (unfold State.finishCommit
     repeat' (first
      | (simp [base_foldl, base_foldl_fst, lane_mem, setLane_base, base_mk]; done)
      | split
      | refine (base_foldl _ (fun _ _ => ?_) _ _).trans ?_
      | simp [base_foldl, base_foldl_fst, lane_mem, setLane_base, base_mk]
      | (rw [base_of_pair ‹_ = (_, _)›]; simp [base_foldl, base_foldl_fst, lane_mem, setLane_base, base_mk]; done)))

@[simp] theorem State.writeAsym_base (s : State) : (State.writeAsym s).base = s.base := by
  simp [State.writeAsym, base_foldl]

@[simp] theorem State.takeImage_base (s : State) (bs : List Byte) : (State.takeImage s bs).base = s.base := by
  simp [State.takeImage, base_mk]

@[simp] theorem State.showHistory_base (s : State) : (State.showHistory s).base = s.base := by
  simp [State.showHistory, base_foldl]

@[simp] theorem State.compareCfg_base (s : State) : (State.compareCfg s).1.base = s.base := by
  simp [State.compareCfg, base_foldl]

@[simp] theorem State.showRetired_base (s : State) : (State.showRetired s).base = s.base := by
  unfold State.showRetired
  repeat' (first
      | (simp [base_foldl, base_foldl_fst, lane_mem, setLane_base, base_mk]; done)
      | split
      | refine (base_foldl _ (fun _ _ => ?_) _ _).trans ?_
      | simp [base_foldl, base_foldl_fst, lane_mem, setLane_base, base_mk]
      | (rw [base_of_pair ‹_ = (_, _)›]; simp [base_foldl, base_foldl_fst, lane_mem, setLane_base, base_mk]; done))

@[simp] theorem State.keepTrial_base (s : State) : (State.keepTrial s).base = s.base := by
  simp [State.keepTrial]

@[simp] theorem State.releaseAll_base (s : State) : (State.releaseAll s).base = s.base := by
  simp [State.releaseAll, base_foldl, base_mk]

@[simp] theorem State.loadMicrocode_base (s : State) : (State.loadMicrocode s).base = s.base := by
  first
  | (simp [State.loadMicrocode, base_foldl, base_foldl_fst, lane_mem, setLane_base, base_mk]; done)
  | (unfold State.loadMicrocode; split <;> simp [base_foldl, base_foldl_fst, lane_mem, setLane_base, base_mk]; done)
  | (unfold State.loadMicrocode; (repeat' split) <;> simp [base_foldl, base_foldl_fst, lane_mem, setLane_base, base_mk]; done)
  | (simp only [State.loadMicrocode]; (repeat' split) <;> simp [base_foldl, base_foldl_fst, lane_mem, setLane_base, base_mk]; done)
  | (unfold State.loadMicrocode
     repeat' (first
      | (simp [base_foldl, base_foldl_fst, lane_mem, setLane_base, base_mk]; done)
      | split
      | refine (base_foldl _ (fun _ _ => ?_) _ _).trans ?_
      | simp [base_foldl, base_foldl_fst, lane_mem, setLane_base, base_mk]
      | (rw [base_of_pair ‹_ = (_, _)›]; simp [base_foldl, base_foldl_fst, lane_mem, setLane_base, base_mk]; done)))

end Sys2Proof.Machine
end

