-- ==== Sys2Proof/Laws/BaseEnables.lean ====
section
/-! SUPPORT. Which operations of Machine/Enables.lean keep the base. -/

namespace Sys2Proof.Machine

end Sys2Proof.Machine
end

