-- ==== Sys2Proof/Laws/BasePower.lean ====
section
/-! SUPPORT. Which operations of Machine/Power.lean keep the base. -/

namespace Sys2Proof.Machine

theorem execSupplyInterruption_base (s : State) : ∃ s', execSupplyInterruption s = .next s' ∧ s'.base = s.base := by
  refine ⟨_, rfl, ?_⟩
  simp [base_mk]

theorem execSupplyReturn_base (s : State) : ∃ s', execSupplyReturn s = .next s' ∧ s'.base = s.base := by
  refine ⟨_, rfl, ?_⟩
  simp [base_mk]

@[simp] theorem State.resyncVoter_base (s : State) (d : Die) (k : Strand) : (State.resyncVoter s d k).base = s.base := by
  unfold State.resyncVoter
  split <;> simp

@[simp] theorem State.recordLost_base (s : State) (d : Die) (k : Strand) : (State.recordLost s d k).base = s.base := by
  simp only [State.recordLost]
  (repeat' split) <;> simp

@[simp] theorem State.resumeVoters_base (s : State) (d : Die) : (State.resumeVoters s d).base = s.base := by
  simp [State.resumeVoters, base_foldl]

@[simp] theorem State.resumeM_base (s : State) : (State.resumeM s).base = s.base := by
  unfold State.resumeM
  dsimp only
  split <;> simp

@[simp] theorem State.resetM_base (s : State) : (State.resetM s).base = s.base := by
  unfold State.resetM
  simp [base_mk]

@[simp] theorem State.goOnM_base (s : State) : (State.goOnM s).base = s.base := by
  unfold State.goOnM
  split <;> simp [base_mk]

theorem execWdogRestart_base (s : State) : ∃ s', execWdogRestart s = .next s' ∧ s'.base = s.base := by
  refine ⟨_, rfl, ?_⟩
  split <;> simp

@[simp] theorem State.seeFault_base (s : State) (unit mg : Nat) : (State.seeFault s unit mg).base = s.base := by
  simp [State.seeFault]

@[simp] theorem State.stopPort_base (s : State) (p : PDie) : (State.stopPort s p).base = s.base := by
  simp [State.stopPort]

@[simp] theorem State.stopGuard_base (s : State) (p : PDie) : (State.stopGuard s p).base = s.base := by
  simp [State.stopGuard]

@[simp] theorem State.stopField_base (s : State) : (State.stopField s).base = s.base := by
  simp [State.stopField]

@[simp] theorem State.stopMgmt_base (s : State) : (State.stopMgmt s).base = s.base := by
  simp [State.stopMgmt, base_mk]

theorem execRefClockLost_base (r : Ref) (s : State) : ∃ s', execRefClockLost r s = .next s' ∧ s'.base = s.base := by
  refine ⟨_, rfl, ?_⟩
  split <;> simp [base_mk]

@[simp] theorem State.restartPort_base (s : State) (p : PDie) : (State.restartPort s p).base = s.base := by
  simp [State.restartPort]

theorem execRefClockRestored_base (p : PDie) (s : State) : ∃ s', execRefClockRestored p s = .next s' ∧ s'.base = s.base := by
  refine ⟨_, rfl, ?_⟩
  simp

@[simp] theorem State.powerOffRetired_base (s : State) (domain : Nat) : (State.powerOffRetired s domain).base = s.base := by
  unfold State.powerOffRetired
  split <;> simp

@[simp] theorem State.askQuiesce_base (s : State) (p : PDie) (domain : Nat) : (State.askQuiesce s p domain).base = s.base := by
  simp [State.askQuiesce]

@[simp] theorem State.laneDown_base (s : State) (l : Lane) : (State.laneDown s l).base = s.base := by
  simp [State.laneDown, base_foldl, lane_mem, setLane_base]

@[simp] theorem State.coresDown_base (s : State) (l : Lane) : (State.coresDown s l).base = s.base := by
  simp [State.coresDown, base_foldl]

@[simp] theorem State.islandDown_base (s : State) (n : Nat) : (State.islandDown s n).base = s.base := by
  unfold State.islandDown
  (repeat' split) <;> simp

@[simp] theorem State.setDown_base (s : State) (x : Option (Nat × List Nat)) : (State.setDown s x).base = s.base := by
  simp [State.setDown, base_mk]

end Sys2Proof.Machine
end

