-- ==== Sys2Proof/Laws/BaseService.lean ====
section
/-! SUPPORT. Which operations of Machine/Service.lean keep the base. -/

namespace Sys2Proof.Machine

@[simp] theorem State.offerMg_base (s : State) (p : PDie) (bytes : List Byte) : (State.offerMg s p bytes).base = s.base := by
  simp [State.offerMg]

@[simp] theorem State.respond_base (s : State) (h : SvcHead) (op status : Nat) (body : List Byte) : (State.respond s h op status body).base = s.base := by
  unfold State.respond
  (repeat' split) <;> simp [base_mk]

@[simp] theorem State.authed_base (s : State) (h : SvcHead) (op : Nat) (f : State → State)
    (hf : (f s).base = s.base) : (s.authed h op f).base = s.base := by
  simp [State.authed, hf]

theorem execInfo_base (h : SvcHead) (s : State) : ∃ s', execInfo h s = .next s' ∧ s'.base = s.base := by
  refine ⟨_, rfl, ?_⟩
  simp

theorem execNonce_base (h : SvcHead) (value : List Byte) (s : State) : ∃ s', execNonce h value s = .next s' ∧ s'.base = s.base := by
  refine ⟨_, rfl, ?_⟩
  simp [base_mk]

theorem execAuth_base (h : SvcHead) (slot : Nat) (key sig : List Byte) (s : State) : ∃ s', execAuth h slot key sig s = .next s' ∧ s'.base = s.base := by
  refine ⟨_, rfl, ?_⟩
  simp [base_mk]

theorem execLogRead_base (h : SvcHead) (first : Word) (count : Nat) (s : State) : ∃ s', execLogRead h first count s = .next s' ∧ s'.base = s.base := by
  refine ⟨_, rfl, ?_⟩
  simp

theorem execIdentRead_base (h : SvcHead) (address : Nat) (s : State) : ∃ s', execIdentRead h address s = .next s' ∧ s'.base = s.base := by
  refine ⟨_, rfl, ?_⟩
  simp

theorem execStageBegin_base (h : SvcHead) (length : Nat) (crc : Word) (s : State) : ∃ s', execStageBegin h length crc s = .next s' ∧ s'.base = s.base := by
  refine ⟨_, rfl, ?_⟩
  simp [base_mk]

@[simp] theorem State.storeParts_base (s : State) (parts : List (Nat × List Byte)) : (State.storeParts s parts).base = s.base := by
  unfold State.storeParts
  split <;> simp [base_foldl]

theorem execStageData_base (h : SvcHead) (offset : Nat) (bytes : List Byte) (s : State) : ∃ s', execStageData h offset bytes s = .next s' ∧ s'.base = s.base := by
  refine ⟨_, rfl, ?_⟩
  repeat' (first
      | (simp [base_foldl, base_foldl_fst, lane_mem, setLane_base, base_mk]; done)
      | split
      | refine (base_foldl _ (fun _ _ => ?_) _ _).trans ?_
      | refine State.authed_base _ _ _ _ ?_
      | simp [base_foldl, base_foldl_fst, lane_mem, setLane_base, base_mk]
      | (rw [base_of_pair ‹_ = (_, _)›]; simp [base_foldl, base_foldl_fst, lane_mem, setLane_base, base_mk]; done))

theorem execStageEnd_base (h : SvcHead) (s : State) : ∃ s', execStageEnd h s = .next s' ∧ s'.base = s.base := by
  refine ⟨_, rfl, ?_⟩
  repeat' (first
      | (simp [base_foldl, base_foldl_fst, lane_mem, setLane_base, base_mk]; done)
      | split
      | refine (base_foldl _ (fun _ _ => ?_) _ _).trans ?_
      | refine State.authed_base _ _ _ _ ?_
      | simp [base_foldl, base_foldl_fst, lane_mem, setLane_base, base_mk]
      | (rw [base_of_pair ‹_ = (_, _)›]; simp [base_foldl, base_foldl_fst, lane_mem, setLane_base, base_mk]; done))

theorem execArm_base (h : SvcHead) (t : Dword) (s : State) : ∃ s', execArm h t s = .next s' ∧ s'.base = s.base := by
  refine ⟨_, rfl, ?_⟩
  simp

theorem execCancel_base (h : SvcHead) (s : State) : ∃ s', execCancel h s = .next s' ∧ s'.base = s.base := by
  refine ⟨_, rfl, ?_⟩
  simp

theorem execRevert_base (h : SvcHead) (s : State) : ∃ s', execRevert h s = .next s' ∧ s'.base = s.base := by
  refine ⟨_, rfl, ?_⟩
  simp

@[simp] theorem State.refusePowerDown_base (s : State) : (State.refusePowerDown s).base = s.base := by
  first
  | (simp [State.refusePowerDown, base_foldl, base_foldl_fst, lane_mem, setLane_base, base_mk]; done)
  | (unfold State.refusePowerDown; split <;> simp [base_foldl, base_foldl_fst, lane_mem, setLane_base, base_mk]; done)
  | (unfold State.refusePowerDown; (repeat' split) <;> simp [base_foldl, base_foldl_fst, lane_mem, setLane_base, base_mk]; done)
  | (simp only [State.refusePowerDown]; (repeat' split) <;> simp [base_foldl, base_foldl_fst, lane_mem, setLane_base, base_mk]; done)
  | (unfold State.refusePowerDown
     repeat' (first
      | (simp [base_foldl, base_foldl_fst, lane_mem, setLane_base, base_mk]; done)
      | split
      | refine (base_foldl _ (fun _ _ => ?_) _ _).trans ?_
      | refine State.authed_base _ _ _ _ ?_
      | simp [base_foldl, base_foldl_fst, lane_mem, setLane_base, base_mk]
      | (rw [base_of_pair ‹_ = (_, _)›]; simp [base_foldl, base_foldl_fst, lane_mem, setLane_base, base_mk]; done)))

theorem execDebugAuth_base (h : SvcHead) (minutes : Nat) (s : State) : ∃ s', execDebugAuth h minutes s = .next s' ∧ s'.base = s.base := by
  refine ⟨_, rfl, ?_⟩
  (repeat' split) <;> simp

theorem execDebugRevoke_base (h : SvcHead) (s : State) : ∃ s', execDebugRevoke h s = .next s' ∧ s'.base = s.base := by
  refine ⟨_, rfl, ?_⟩
  simp

theorem execDebugAuthExpire_base (s : State) : ∃ s', execDebugAuthExpire s = .next s' ∧ s'.base = s.base := by
  refine ⟨_, rfl, ?_⟩
  simp

theorem execSessionExpire_base (s : State) : ∃ s', execSessionExpire s = .next s' ∧ s'.base = s.base := by
  refine ⟨_, rfl, ?_⟩
  simp [base_mk]

theorem execUpdateRejected_base (s : State) : ∃ s', execUpdateRejected s = .next s' ∧ s'.base = s.base := by
  refine ⟨_, rfl, ?_⟩
  split <;> simp [base_foldl, base_mk]

end Sys2Proof.Machine
end

