-- ==== Sys2Proof/Laws/Bits.lean ====
section
/-! SUPPORT. Bit fields: what a field reads after it, or another, was written. -/

namespace Sys2Proof.Machine

variable {n : Nat}

theorem testBit_fieldOf (w : BitVec n) (hi lo i : Nat) :
    (fieldOf w hi lo).testBit i = (decide (i < hi + 1 - lo) && w.getLsbD (lo + i)) := by
  simp [fieldOf, Nat.testBit_mod_two_pow, Nat.testBit_shiftRight, BitVec.getLsbD]

/-- A field is the field of another word when its bits are. -/
theorem fieldOf_congr {w x : BitVec n} {hi lo : Nat} (h : ∀ i, lo ≤ i → i ≤ hi → w.getLsbD i = x.getLsbD i) :
    fieldOf w hi lo = fieldOf x hi lo := by
  apply Nat.eq_of_testBit_eq
  intro i
  rw [testBit_fieldOf, testBit_fieldOf]
  by_cases hi' : i < hi + 1 - lo
  · simp [hi', h (lo + i) (by omega) (by omega)]
  · simp [hi']

theorem getLsbD_withBit (w : BitVec n) (i j : Nat) (b : Bool) :
    (withBit w i b).getLsbD j = if j = i ∧ i < n then b else w.getLsbD j := by
  have hm : (BitVec.ofNat n (1 <<< i)).getLsbD j = (decide (j < n) && decide (i = j)) := by
    rw [BitVec.getLsbD_ofNat, Nat.one_shiftLeft, Nat.testBit_two_pow]
  by_cases hj : j < n
  · by_cases hji : i = j
    · subst hji
      cases b <;> simp only [withBit, ↓reduceIte, Bool.false_eq_true, BitVec.getLsbD_or, BitVec.getLsbD_and, BitVec.getLsbD_not, hm] <;> simp [hj]
    · have hji' : j ≠ i := fun e => hji e.symm
      cases b <;> simp only [withBit, ↓reduceIte, Bool.false_eq_true, BitVec.getLsbD_or, BitVec.getLsbD_and, BitVec.getLsbD_not, hm] <;>
        simp [hj, hji, hji']
  · rw [BitVec.getLsbD_of_ge _ j (Nat.le_of_not_lt hj), BitVec.getLsbD_of_ge _ j (Nat.le_of_not_lt hj),
      if_neg (by omega)]

theorem bitOf_withBit (w : BitVec n) (i j : Nat) (b : Bool) :
    bitOf (withBit w i b) j = if j = i ∧ i < n then b else bitOf w j := getLsbD_withBit w i j b

@[simp] theorem bitOf_withBit_same (w : Word) (i : Nat) (b : Bool) (h : i < 32) : bitOf (withBit w i b) i = b := by
  simp [bitOf_withBit, h]

theorem bitOf_withBit_other (w : Word) {i j : Nat} (b : Bool) (h : j ≠ i) : bitOf (withBit w i b) j = bitOf w j := by
  simp [bitOf_withBit, h]

theorem getLsbD_fieldMask (hi lo j : Nat) :
    (fieldMask n hi lo).getLsbD j = (decide (j < n) && decide (lo ≤ j) && decide (j < hi + 1)) := by
  unfold fieldMask
  rw [BitVec.getLsbD_ofNat, Nat.testBit_shiftLeft, Nat.testBit_two_pow_sub_one]
  by_cases h1 : lo ≤ j
  · have : (j - lo < hi + 1 - lo) ↔ j < hi + 1 := by omega
    simp [h1, this]
  · simp [h1]

theorem getLsbD_withField (w : BitVec n) (hi lo v j : Nat) :
    (withField w hi lo v).getLsbD j =
      if j < n ∧ lo ≤ j ∧ j ≤ hi then v.testBit (j - lo) else w.getLsbD j := by
  unfold withField
  by_cases hj : j < n
  · rw [BitVec.getLsbD_or, BitVec.getLsbD_and, BitVec.getLsbD_and, BitVec.getLsbD_not, getLsbD_fieldMask,
      BitVec.getLsbD_ofNat, Nat.testBit_shiftLeft]
    by_cases h1 : lo ≤ j
    · by_cases h2 : j < hi + 1
      · have : j ≤ hi := by omega
        simp [hj, h1, h2, this]
      · have : ¬ j ≤ hi := by omega
        simp [hj, h1, h2, this]
    · simp [hj, h1]
  · simp [hj, BitVec.getLsbD_of_ge _ j (Nat.le_of_not_lt hj)]

/-- A written field reads as its value, cut to the field's width. -/
theorem fieldOf_withField (w : BitVec n) (hi lo v : Nat) (h : hi < n) :
    fieldOf (withField w hi lo v) hi lo = v % 2 ^ (hi + 1 - lo) := by
  apply Nat.eq_of_testBit_eq
  intro i
  rw [testBit_fieldOf, getLsbD_withField, Nat.testBit_mod_two_pow]
  by_cases hi' : i < hi + 1 - lo
  · have h1 : lo + i < n := by omega
    have h2 : lo + i ≤ hi := by omega
    simp [hi', h1, h2]
  · simp [hi']

/-- Other fields stand. -/
theorem fieldOf_withField_other (w : BitVec n) {hi lo hi' lo' : Nat} (v : Nat) (h : hi' < lo ∨ hi < lo') :
    fieldOf (withField w hi lo v) hi' lo' = fieldOf w hi' lo' :=
  fieldOf_congr fun i h1 h2 => by rw [getLsbD_withField, if_neg (by omega)]

theorem fieldOf_withBit_other (w : BitVec n) {hi lo i : Nat} (b : Bool) (h : i < lo ∨ hi < i) :
    fieldOf (withBit w i b) hi lo = fieldOf w hi lo :=
  fieldOf_congr fun j h1 h2 => by rw [getLsbD_withBit, if_neg (by omega)]

theorem bitOf_withField_other (w : BitVec n) {hi lo i : Nat} (v : Nat) (h : i < lo ∨ hi < i) :
    bitOf (withField w hi lo v) i = bitOf w i := by
  unfold bitOf
  rw [getLsbD_withField, if_neg (by omega)]

/-- A field is smaller than its range. -/
theorem fieldOf_lt (w : BitVec n) (hi lo : Nat) : fieldOf w hi lo < 2 ^ (hi + 1 - lo) :=
  Nat.mod_lt _ (Nat.two_pow_pos _)

/-- A counter that saturates never exceeds its field. -/
theorem satAdd_lt (width x k : Nat) : satAdd width x k < 2 ^ width := by
  have := Nat.two_pow_pos width
  unfold satAdd
  omega

end Sys2Proof.Machine
end

