-- ==== Sys2Proof/Laws/Memory.lean ====
section
/-! SUPPORT. The sparse stores: a read after a write, and that every operation keeps the canonical form. -/

namespace Sys2Proof.Machine

variable {n : Nat}

/-! ### Reads after writes -/

theorem cellGet_cellInsert (m : List (Nat × BitVec n)) (k j : Nat) (v : BitVec n) :
    cellGet (cellInsert m k v) j = if j = k then v else cellGet m j := by
  induction m with
  | nil => grind [cellInsert, cellGet]
  | cons x t ih => obtain ⟨a, x⟩ := x; grind [cellInsert, cellGet]

theorem cellGet_cellErase (m : List (Nat × BitVec n)) (k j : Nat) :
    cellGet (cellErase m k) j = if j = k then 0 else cellGet m j := by
  induction m with
  | nil => simp [cellErase, cellGet]
  | cons x t ih => obtain ⟨a, x⟩ := x; grind [cellErase, cellGet]

/-- What a write leaves: the value at its key, every other key as before. -/
theorem cellGet_cellSet (m : List (Nat × BitVec n)) (k j : Nat) (v : BitVec n) :
    cellGet (cellSet m k v) j = if j = k then v else cellGet m j := by
  unfold cellSet
  split
  · rename_i h; rw [cellGet_cellErase, h]
  · exact cellGet_cellInsert m k j v

@[simp] theorem cellGet_cellSet_same (m : List (Nat × BitVec n)) (k : Nat) (v : BitVec n) :
    cellGet (cellSet m k v) k = v := by simp [cellGet_cellSet]

theorem cellGet_cellSet_other (m : List (Nat × BitVec n)) {k j : Nat} (v : BitVec n) (h : j ≠ k) :
    cellGet (cellSet m k v) j = cellGet m j := by simp [cellGet_cellSet, h]

/-- A byte after a write of consecutive bytes. -/
theorem cellGet_memWrite (m : Memory) (a : Nat) (bs : List Byte) (j : Nat) :
    cellGet (memWrite m a bs) j =
      if h : a ≤ j ∧ j < a + bs.length then bs[j - a]'(by omega) else cellGet m j := by
  induction bs generalizing m a with
  | nil => grind [memWrite]
  | cons b bs ih => grind [memWrite, cellGet_cellSet]

theorem cellGet_memWrite_outside (m : Memory) {a j : Nat} (bs : List Byte) (h : j < a ∨ a + bs.length ≤ j) :
    cellGet (memWrite m a bs) j = cellGet m j := by
  rw [cellGet_memWrite, dif_neg (by omega)]

/-! ### The canonical form -/

/-- A lower bound can be lowered. -/
theorem cellsWfFrom_none {lo : Option Nat} {m : List (Nat × BitVec n)} (h : cellsWfFrom lo m = true) :
    cellsWf m = true := by
  cases m with
  | nil => rfl
  | cons x t => obtain ⟨a, v⟩ := x; simp_all [cellsWf, cellsWfFrom]

theorem cellsWfFrom_cons {lo : Option Nat} {a : Nat} {v : BitVec n} {t : List (Nat × BitVec n)} :
    cellsWfFrom lo ((a, v) :: t) = true ↔ (∀ b, lo = some b → b < a) ∧ v ≠ 0 ∧ cellsWfFrom (some a) t = true := by
  cases lo <;> simp [cellsWfFrom, and_assoc]

theorem cellsWfFrom_mono {b a : Nat} {m : List (Nat × BitVec n)} (hab : b < a) (h : cellsWfFrom (some a) m = true) :
    cellsWfFrom (some b) m = true := by
  cases m with
  | nil => rfl
  | cons x t =>
    obtain ⟨k, v⟩ := x
    rw [cellsWfFrom_cons] at h ⊢
    refine ⟨fun c hc => ?_, h.2⟩
    have := h.1 a rfl
    injection hc with hc
    omega

theorem cellInsert_wfFrom {lo : Option Nat} {m : List (Nat × BitVec n)} {k : Nat} {v : BitVec n} (hv : v ≠ 0)
    (hk : ∀ b, lo = some b → b < k) (h : cellsWfFrom lo m = true) : cellsWfFrom lo (cellInsert m k v) = true := by
  induction m generalizing lo with
  | nil => exact cellsWfFrom_cons.2 ⟨hk, hv, rfl⟩
  | cons x t ih =>
    obtain ⟨a, x⟩ := x
    have h' := cellsWfFrom_cons.1 h
    simp only [cellInsert]
    split
    · rename_i hka
      exact cellsWfFrom_cons.2 ⟨hk, hv, cellsWfFrom_cons.2 ⟨fun b hb => by injection hb with hb; omega, h'.2⟩⟩
    · split
      · rename_i hka; subst hka; exact cellsWfFrom_cons.2 ⟨hk, hv, h'.2.2⟩
      · exact cellsWfFrom_cons.2 ⟨h'.1, h'.2.1, ih (fun b hb => by injection hb with hb; omega) h'.2.2⟩

/-- Entries may be taken out. -/
theorem filter_wfFrom (p : Nat × BitVec n → Bool) {lo : Option Nat} {m : List (Nat × BitVec n)}
    (h : cellsWfFrom lo m = true) : cellsWfFrom lo (m.filter p) = true := by
  induction m generalizing lo with
  | nil => exact h
  | cons x t ih =>
    obtain ⟨a, v⟩ := x
    have h' := cellsWfFrom_cons.1 h
    rw [List.filter_cons]
    split
    · exact cellsWfFrom_cons.2 ⟨h'.1, h'.2.1, ih h'.2.2⟩
    · cases lo with
      | none => exact cellsWfFrom_none (ih h'.2.2)
      | some b => exact ih (cellsWfFrom_mono (h'.1 b rfl) h'.2.2)

theorem cellErase_eq_filter (m : List (Nat × BitVec n)) (k : Nat) :
    cellErase m k = m.filter fun c => decide (c.1 ≠ k) := by
  induction m with
  | nil => rfl
  | cons x t ih =>
    obtain ⟨a, v⟩ := x
    simp only [cellErase, List.filter_cons]
    split <;> simp_all

/-- A write keeps the canonical form. -/
theorem cellSet_wf {m : List (Nat × BitVec n)} (k : Nat) (v : BitVec n) (h : cellsWf m = true) :
    cellsWf (cellSet m k v) = true := by
  unfold cellSet
  split
  · rw [cellErase_eq_filter]; exact filter_wfFrom _ h
  · rename_i hv; exact cellInsert_wfFrom hv (by simp) h

theorem memWrite_wf {m : Memory} (a : Nat) (bs : List Byte) (h : cellsWf m = true) :
    cellsWf (memWrite m a bs) = true := by
  induction bs generalizing m a with
  | nil => exact h
  | cons b bs ih => exact ih (a + 1) (cellSet_wf a b h)

theorem memClear_wf {m : List (Nat × BitVec n)} (base size : Nat) (h : cellsWf m = true) :
    cellsWf (memClear m base size) = true := filter_wfFrom _ h

theorem memRange_wf {m : List (Nat × BitVec n)} (base size : Nat) (h : cellsWf m = true) :
    cellsWf (memRange m base size) = true := filter_wfFrom _ h

theorem cellPutAll_wf {m : List (Nat × BitVec n)} (cs : List (Nat × BitVec n)) (h : cellsWf m = true) :
    cellsWf (cellPutAll m cs) = true := by
  unfold cellPutAll
  induction cs generalizing m with
  | nil => exact h
  | cons c cs ih => exact ih (cellSet_wf c.1 c.2 h)

theorem memCopy_wf {dst : List (Nat × BitVec n)} (src : List (Nat × BitVec n)) (base size : Nat)
    (h : cellsWf dst = true) : cellsWf (memCopy dst src base size) = true :=
  cellPutAll_wf _ (memClear_wf _ _ h)

end Sys2Proof.Machine
end

