-- ==== Sys2Proof/Laws/Keeps.lean ====
section
/-! SUPPORT. The operations that write lane memory keep the order code, the queue and the canonical form. -/

namespace Sys2Proof.Machine

theorem memoriesWf_iff (s : State) : memoriesWf s = true ↔ ∀ l, cellsWf (s.lane l).mem = true := by
  simp only [memoriesWf, Memory.wf, Lane.list, List.all_cons, List.all_nil, Bool.and_true, Bool.and_eq_true]
  exact ⟨fun h l => by cases l; exacts [h.1, h.2.1, h.2.2], fun h => ⟨h .a, h .b, h .c⟩⟩

theorem memoriesWf_of_base {s t : State} (h : t.base = s.base) : memoriesWf t = memoriesWf s := by
  have : ∀ l, (t.lane l).mem = (s.lane l).mem := fun l => by rw [lane_mem, lane_mem, h]
  simp [memoriesWf, this]

theorem keeps_of_base {s t : State} (h : t.base = s.base) : Keeps s t :=
  ⟨congrArg Base.variant h, congrArg Base.pending h, fun hs => by rw [memoriesWf_of_base h]; exact hs⟩

theorem Keeps.refl (s : State) : Keeps s s := keeps_of_base rfl

theorem Keeps.trans {s t u : State} (h : Keeps s t) (k : Keeps t u) : Keeps s u :=
  ⟨k.1.trans h.1, k.2.1.trans h.2.1, fun hs => k.2.2 (h.2.2 hs)⟩

/-- What follows keeps the base. -/
theorem Keeps.then {s t u : State} (h : Keeps s t) (hb : u.base = t.base) : Keeps s u := h.trans (keeps_of_base hb)

/-- What went before kept the base. -/
theorem Keeps.after {s t u : State} (hb : t.base = s.base) (h : Keeps t u) : Keeps s u := (keeps_of_base hb).trans h

theorem keeps_foldl {β : Type} (g : State → β → State) (hg : ∀ t x, Keeps t (g t x)) (xs : List β) (s : State) :
    Keeps s (xs.foldl g s) := by
  induction xs generalizing s with
  | nil => exact Keeps.refl s
  | cons x xs ih => exact (hg s x).trans (ih _)

/-- A new canonical memory for one lane. -/
theorem setLane_keeps (s : State) (l : Lane) (x : LaneState)
    (h : memoriesWf s = true → cellsWf x.mem = true) : Keeps s (s.setLane l x) := by
  refine ⟨rfl, rfl, fun hs => (memoriesWf_iff _).2 fun j => ?_⟩
  have hj := (memoriesWf_iff s).1 hs
  have hx := h hs
  revert hj
  cases l <;> cases j <;> intro hj <;> first | exact hx | exact hj .a | exact hj .b | exact hj .c

/-! ### Lanes -/

theorem laneStore_keeps (s : State) (l : Lane) (a : Nat) (bs : List Byte) : Keeps s (s.laneStore l a bs) :=
  setLane_keeps _ _ _ fun hs => memWrite_wf _ _ ((memoriesWf_iff s).1 hs l)

theorem memoryStore_keeps (s : State) (l : Lane) (k : Strand) (a : Nat) (bs : List Byte) :
    Keeps s (s.memoryStore l k a bs) := by
  unfold State.memoryStore
  split
  · exact keeps_of_base (by simp)
  · exact (laneStore_keeps s l a bs).then (by simp)

theorem doStore_keeps (s : State) (l : Lane) (k : Strand) (a : Nat) (bs : List Byte) :
    Keeps s (s.doStore l k a bs) := by
  unfold State.doStore
  split
  · exact Keeps.refl s
  · split
    · exact keeps_of_base (by simp)
    · exact keeps_of_base (by simp)
    · exact memoryStore_keeps s l k a bs

theorem execute_keeps (s : State) (l : Lane) (k : Strand) (op : KcOp) : Keeps s (s.execute l k op) := by
  cases op with
  | store a bs => exact doStore_keeps s l k _ bs
  | _ => simp only [State.execute]; (repeat' split) <;> exact keeps_of_base (by simp)

theorem execKc64Instruction_keeps (l : Lane) (k : Strand) (op : KcOp) (regs : List Dword) (s : State) :
    ∃ t, execKc64Instruction l k op regs s = .next t ∧ Keeps s t := by
  refine ⟨_, rfl, ?_⟩
  split
  · exact (execute_keeps s l k op).then (by simp)
  · exact Keeps.refl s

/-- A store outside the lane's own memory writes no byte of it. -/
theorem doStore_base (s : State) (l : Lane) (k : Strand) (a : Nat) (bs : List Byte) (h : 0x200000000 ≤ a) :
    (s.doStore l k a bs).base = s.base := by
  unfold State.doStore
  split
  · rfl
  · rename_i hallow
    split
    · simp
    · simp
    · rename_i hp hw
      exfalso
      have hr : regionOf a = .laneCommon (a - 0x200000000) ∨ regionOf a = .unlisted ∨
          (∃ k' o, regionOf a = .page k' o) ∨ ∃ d o, regionOf a = .window d o := by
        unfold regionOf
        have h1 : ¬ a < 0xE0000000 := by omega
        have h2 : ¬ a < 0x100000000 := by omega
        have h3 : ¬ a < 0x100100000 := by omega
        have h4 : ¬ a < 0x200000000 := by omega
        rw [if_neg h1, if_neg h2, if_neg h3, if_neg h4]
        repeat' split
        all_goals simp
      rcases hr with hr | hr | ⟨k', o, hr⟩ | ⟨d, o, hr⟩
      · simp [State.allowed, regionAllows, hr] at hallow
      · simp [State.allowed, regionAllows, hr] at hallow
      · exact hp _ _ hr
      · exact hw _ _ hr

/-- An instruction other than a store writes no byte of lane memory. -/
theorem execute_base (s : State) (l : Lane) (k : Strand) (op : KcOp) (h : ∀ a bs, op ≠ .store a bs) :
    (s.execute l k op).base = s.base := by
  cases op with
  | store a bs => exact absurd rfl (h a bs)
  | _ => simp only [State.execute] <;> (repeat' split) <;> simp

theorem execKc64Instruction_base (l : Lane) (k : Strand) (op : KcOp) (regs : List Dword) (s : State)
    (h : ∀ a bs, op ≠ .store a bs) : ∃ t, execKc64Instruction l k op regs s = .next t ∧ t.base = s.base := by
  refine ⟨_, rfl, ?_⟩
  split
  · have := execute_base s l k op h
    simpa using this
  · rfl

theorem pageInstr_base (s : State) (l : Lane) (k : Strand) (off : Nat) (data : Word) :
    (s.pageInstr l k off data).base = s.base := by
  unfold State.pageInstr
  split
  · have := doStore_base s l k (0x200000000 + pageKey k off) (leBytes 4 data.toNat) (by omega)
    rwa [State.endStep_base]
  · rfl

theorem execSqSend_base (l : Lane) (k : Strand) (data : Word) (s : State) :
    ∃ t, execSqSend l k data s = .next t ∧ t.base = s.base := ⟨_, rfl, pageInstr_base ..⟩

theorem execSqRxpop_base (l : Lane) (k : Strand) (data : Word) (s : State) :
    ∃ t, execSqRxpop l k data s = .next t ∧ t.base = s.base := ⟨_, rfl, pageInstr_base ..⟩

theorem execSwEventSet_base (l : Lane) (k : Strand) (data : Word) (s : State) :
    ∃ t, execSwEventSet l k data s = .next t ∧ t.base = s.base := ⟨_, rfl, pageInstr_base ..⟩

theorem execEvPendClear_base (l : Lane) (k : Strand) (n : Nat) (data : Word) (s : State) :
    ∃ t, execEvPendClear l k n data s = .next t ∧ t.base = s.base := by
  refine ⟨_, rfl, ?_⟩
  split
  · exact pageInstr_base ..
  · rfl

theorem execAbsentUnitAccess_base (l : Lane) (k : Strand) (addr : Addr) (size : Nat) (write : Bool) (s : State) :
    ∃ t, execAbsentUnitAccess l k addr size write s = .next t ∧ t.base = s.base := by
  refine ⟨_, rfl, ?_⟩
  split
  · rename_i d off hr
    have ha : 0x200000000 ≤ addr.toNat := by
      unfold regionOf at hr
      grind
    split
    · split
      · exact doStore_base _ _ _ _ _ ha
      · simp
    · rfl
  · rfl

theorem landBroadcast_keeps (s : State) (l : Lane) (w : Broadcast) : Keeps s (s.landBroadcast l w) := by
  unfold State.landBroadcast
  refine Keeps.then (laneStore_keeps s l w.addr.toNat w.bytes) ?_
  repeat' (first | (simp; done) | split | simp)

end Sys2Proof.Machine
end

