-- ==== Sys2Proof/Laws/KeepsPower.lean ====
section
/-! SUPPORT. The commands that write lane memory keep the order code, the queue and the canonical form. -/

namespace Sys2Proof.Machine

/-! ### Rejoin and restart -/

theorem foldl_memCopy_wf (src : Memory) (base : Nat → Nat) (size : Nat) (ps : List Nat) (m : Memory)
    (h : cellsWf m = true) : cellsWf (ps.foldl (fun acc p => memCopy acc src (base p) size) m) = true := by
  induction ps generalizing m with
  | nil => exact h
  | cons p ps ih => exact ih _ (memCopy_wf _ _ _ h)

theorem copyPages_keeps (s : State) (k : Strand) (src dst : Lane) (pages : Option (List Nat)) :
    Keeps s (s.copyPages k src dst pages) := by
  unfold State.copyPages
  cases pages with
  | none => exact setLane_keeps _ _ _ fun hs => memCopy_wf _ _ _ (memCopy_wf _ _ _ ((memoriesWf_iff s).1 hs dst))
  | some ps => exact setLane_keeps _ _ _ fun hs => foldl_memCopy_wf _ _ _ ps _ ((memoriesWf_iff s).1 hs dst)

/-- Setting the running rejoin touches no memory. -/
theorem Keeps.setRejoin {s u : State} (h : Keeps s u) (r : Option RejoinRun) : Keeps s { u with rejoin := r } := h.then rfl

theorem execCopyPassEnd_keeps (s : State) : ∃ t, execCopyPassEnd s = .next t ∧ Keeps s t := by
  refine ⟨_, rfl, ?_⟩
  split
  · rename_i r _
    have h := ((copyPages_keeps s r.strand r.donor r.target r.pass).setRejoin
      (some (r.readTo (passSize r.pass)))).then (State.showDirty_base _)
    dsimp only
    split
    · exact Keeps.refl s
    · split
      · split
        · exact h.then (State.arrangeStall_base ..)
        · exact h.then (State.nextPass_base ..)
      · split
        · exact (h.setRejoin _).then (State.showDirty_base _)
        · exact Keeps.refl s
  · exact Keeps.refl s

theorem finalCopy_keeps (s : State) (r : RejoinRun) : Keeps s (s.finalCopy r) := by
  have h := (copyPages_keeps s r.strand r.donor r.target (some r.dirty)).setRejoin (some { r.startPass s.ns with copied := true })
  unfold State.finalCopy
  dsimp only
  revert h
  generalize { (s.copyPages r.strand r.donor r.target (some r.dirty)) with
    rejoin := some { r.startPass s.ns with copied := true } } = u
  intro h
  exact h.then (by simp [base_mk])

theorem settlePass_keeps (s : State) (r : RejoinRun) : Keeps s (s.settlePass r).1 := by
  unfold State.settlePass
  exact (copyPages_keeps ..).setRejoin _

theorem execHoldAck_keeps (p : PDie) (s : State) : ∃ t, execHoldAck p s = .next t ∧ Keeps s t := by
  refine ⟨_, rfl, ?_⟩
  split
  · dsimp only
    split
    · exact keeps_of_base (State.abandonRejoin_base ..)
    split
    · split
      · rename_i r _ _ _ _
        have h := settlePass_keeps { s with rejoin := some { r with acked := r.acked.set p true } }
          { r with acked := r.acked.set p true }
        split
        · exact Keeps.after (base_mk s ..) (h.trans (finalCopy_keeps ..))
        · exact Keeps.after (base_mk s ..) (h.then (by split <;> simp))
      · exact keeps_of_base (base_mk s ..)
    · exact Keeps.refl s
  · exact Keeps.refl s

theorem loadSection_keeps (s : State) (l : Lane) (k : Strand) (image : List Byte) :
    Keeps s (s.loadSection l k image) :=
  setLane_keeps _ _ _ fun hs => memWrite_wf _ _ (memClear_wf _ _ (memClear_wf _ _ ((memoriesWf_iff s).1 hs l)))

theorem landBroadcasts_keeps (s : State) (k : Strand) : Keeps s (s.landBroadcasts k) :=
  keeps_foldl _ (fun _ l => keeps_foldl _ (fun _ p => keeps_foldl _ (fun t w => by
    cases w with
    | broadcast a b =>
      dsimp only
      split
      · exact Keeps.after (by simp) (landBroadcast_keeps ..)
      · exact Keeps.refl t
    | _ => exact Keeps.refl t) _ _) _ _) _ _

theorem restart_keeps (s : State) (k : Strand) (image : List Byte) (received : Tri (Option (List Byte))) :
    Keeps s (s.restart k image received) := by
  have h := (landBroadcasts_keeps s k).trans
    (keeps_foldl (fun (t : State) l => t.loadSection l k (receivedBy image received l))
      (fun t l => loadSection_keeps t l k _) (s.eligible k) (s.landBroadcasts k))
  simp only [State.restart]
  revert h
  generalize List.foldl (fun (t : State) l => t.loadSection l k (receivedBy image received l)) (s.landBroadcasts k)
    (s.eligible k) = u
  intro h
  split
  · exact keeps_of_base (by simp)
  · split
    · exact keeps_of_base (by simp)
    · split <;> exact Keeps.then h (by simp [base_foldl])

theorem execRestart_keeps (k : Strand) (image : List Byte) (received : Tri (Option (List Byte))) (s : State) :
    ∃ t, execRestart k image received s = .next t ∧ Keeps s t := by
  refine ⟨_, rfl, ?_⟩
  split
  · exact restart_keeps ..
  · exact Keeps.refl s

theorem rjCmd_keeps (s : State) (u : RUnit) (v : Word) (image' : Strand → List Byte) :
    Keeps s (s.rjCmd u v image') := by
  simp only [State.rjCmd]
  (repeat' split) <;> first | exact restart_keeps .. | exact keeps_of_base (by simp)

/-! ### Register writes -/

theorem laneAct_keeps (s : State) (l : Lane) (d : RegDesc) (is : List Nat) (mask data : Word) (t : State)
    (h : s.laneAct l d is mask data = some t) : Keeps s t := by
  simp only [State.laneAct] at h
  split at h
  · injection h with h; subst h; split <;> exact keeps_of_base (by simp)
  · injection h with h; subst h; exact rjCmd_keeps ..
  · cases h

theorem writeAct_keeps (s : State) (m : Master) (u : RUnit) (off : Nat) (d : RegDesc) (is : List Nat)
    (mask data : Word) (t : State) (h : s.writeAct m u off d is mask data = some t) : Keeps s t := by
  cases u <;> first
    | exact laneAct_keeps _ _ _ _ _ _ _ h
    | exact keeps_of_base (State.portAct_base _ _ _ _ _ _ _ _ _ h)
    | exact keeps_of_base (State.fieldAct_base _ _ _ _ _ _ h)
    | exact keeps_of_base (State.mgmtAct_base _ _ _ _ _ _ _ h)

theorem writeWord_keeps (s : State) (m : Master) (u : RUnit) (off : Nat) (mask data : Word) (wide : Bool) :
    Keeps s (s.writeWord m u off mask data wide) := by
  unfold State.writeWord
  split
  · exact keeps_of_base (by simp)
  · split
    · exact keeps_of_base (by simp)
    · (split; · exact keeps_of_base (by simp))
      (split; · exact keeps_of_base (by simp))
      (split; · exact keeps_of_base (by simp))
      (split; · exact keeps_of_base (by simp))
      split
      · rename_i h; exact keeps_of_base (State.lockedWrite_base _ _ _ _ _ _ _ h)
      · dsimp only
        split
        · rename_i h
          refine Keeps.after ?_ (writeAct_keeps _ _ _ _ _ _ _ _ _ h)
          split <;> simp
        · refine keeps_of_base ?_
          split <;> simp

theorem writeWords_keeps (s : State) (m : Master) (u : RUnit) (ws : List (Nat × Word × Word)) (wide : Bool) :
    Keeps s (s.writeWords m u ws wide) := by
  unfold State.writeWords
  split
  · exact keeps_of_base (by simp)
  · exact keeps_foldl _ (fun t w => writeWord_keeps ..) _ _

theorem unitStore_keeps (s : State) (m : Master) (u : RUnit) (off size : Nat) (data : Dword) :
    Keeps s (s.unitStore m u off size data) := by
  simp only [State.unitStore]
  (repeat' split) <;> first
    | exact keeps_of_base (by simp)
    | exact writeWords_keeps ..

theorem beatStore_keeps (s : State) (d : Die) (b : Beat) : Keeps s (s.beatStore d b) := unitStore_keeps ..

theorem pageAccess_keeps (s : State) (l : Lane) (k : Strand) (off : Nat) (access : Nat → State)
    (h : ∀ a, Keeps s (access a)) : Keeps s (s.pageAccess l k off access) := by
  unfold State.pageAccess
  split
  · exact (h (0x200000000 + off)).then (by simp)
  · exact Keeps.refl s

theorem execGenericRegisterWrite_keeps (m : Master) (u : RUnit) (w : RegWrite) (s : State) :
    ∃ t, execGenericRegisterWrite m u w s = .next t ∧ Keeps s t := by
  refine ⟨_, rfl, ?_⟩
  split
  · exact pageAccess_keeps _ _ _ _ _ fun a => doStore_keeps ..
  · split
    · exact Keeps.refl s
    · exact unitStore_keeps ..
  · exact Keeps.refl s
  · dsimp only
    split
    · exact Keeps.after (by simp) (unitStore_keeps ..)
    · exact keeps_of_base (by simp)

theorem execBeatRelease_keeps (d : Die) (k : Strand) (ecc : BeatEcc) (s : State) :
    ∃ t, execBeatRelease d k ecc s = .next t ∧ Keeps s t := by
  refine ⟨_, rfl, ?_⟩
  split
  · split
    · split
      · exact keeps_of_base (by simp)
      · dsimp only
        refine Keeps.trans ?_ (keeps_of_base (State.voterClean_base ..))
        split
        · exact keeps_of_base (by simp)
        · rename_i o b _ _ _ _ _
          exact Keeps.after (by simp : ((s.releaseCe d k ecc o).settleOrd d k o b).base = s.base) (beatStore_keeps ..)
    · exact Keeps.refl s
  · exact Keeps.refl s

/-! ### Loss of power and boot -/

theorem keepStored_wf (s : State) : memoriesWf (s.keepStored State.reset) = true := by
  rw [memoriesWf_iff]; intro l; cases l <;> rfl

@[simp] theorem keepBits_base (s t : State) (u : RUnit) (off : Nat) (mask : Word) :
    (s.keepBits t u off mask).base = t.base := by simp [State.keepBits]

/-- The fences of one lane stand. -/
theorem setFences_base (t : State) (l : Lane) (m : Bool) (f : Bool) :
    (t.setLane l { t.lane l with fenceM := m, fenceF := f }).base = t.base := setLane_base _ _ _ rfl

theorem keepHeader_base (t : State) (ns : Nat) (sup : Supply) (abs : List Nat) (g : Mgmt) :
    State.base { t with ns := ns, supply := sup, absentLogged := abs, mgmt := g } = t.base := rfl

@[simp] theorem keepLatched_base (s t : State) : (s.keepLatched t).base = t.base := by
  unfold State.keepLatched
  dsimp only
  simp only [keepBits_base]
  rw [base_foldl _ (fun t p => by simp), base_foldl _ (fun t d => by simp), base_foldl _ (fun t l => by
    rw [setFences_base, base_foldl _ (fun t i => by simp)]; simp)]
  exact keepHeader_base ..

theorem keeps_reset (s t : State) (h : t.base = (s.keepStored State.reset).base) : Keeps s t :=
  ⟨(congrArg Base.variant h).trans rfl, (congrArg Base.pending h).trans rfl, fun _ => by
    rw [memoriesWf_of_base h]; exact keepStored_wf s⟩

theorem keepStored_base {s t : State} (h : t.base = s.base) :
    (t.keepStored State.reset).base = (s.keepStored State.reset).base := by
  have hv : t.variant = s.variant := congrArg Base.variant h
  have hp : t.pending = s.pending := congrArg Base.pending h
  simp only [State.base, State.keepStored, hv, hp]

theorem islandsOff_base (s : State) (cause : Nat) : (s.islandsOff cause).base = (s.keepStored State.reset).base := by
  unfold State.islandsOff
  dsimp only
  rw [base_mk]
  simp only [State.setLastOff_base, keepLatched_base]

theorem islandsOff_keeps (s : State) (cause : Nat) : Keeps s (s.islandsOff cause) := keeps_reset _ _ (islandsOff_base ..)

theorem powerDown_base (s : State) (cause : Nat) : (s.powerDown cause).base = (s.keepStored State.reset).base :=
  (islandsOff_base ..).trans (keepStored_base (State.endDebugAuth_base s))

theorem powerDown_keeps (s : State) (cause : Nat) : Keeps s (s.powerDown cause) := keeps_reset _ _ (powerDown_base ..)

theorem afterPower_base (s : State) : s.afterPower.base = (s.keepStored State.reset).base := by
  unfold State.afterPower
  dsimp only
  rw [base_mk]
  simp

theorem afterPower_keeps (s : State) : Keeps s s.afterPower := keeps_reset _ _ (afterPower_base s)

theorem downStep_keeps (s : State) : Keeps s s.downStep := by
  unfold State.downStep
  split
  · exact Keeps.refl s
  · exact powerDown_keeps ..
  · split
    · exact keeps_of_base (by simp)
    · split
      · exact keeps_of_base (by simp)
      · exact keeps_of_base (base_foldl _ (fun t p => by simp) _ _)

theorem downGo_keeps (s : State) : Keeps s s.downGo := by
  unfold State.downGo
  split
  · exact keeps_foldl _ (fun t _ => downStep_keeps t) _ _
  · exact Keeps.refl s

theorem shutDown_keeps (s : State) (cause : Nat) : Keeps s (s.shutDown cause) :=
  Keeps.after (by simp) (downGo_keeps _)

theorem execQuiesceAck_keeps (p : PDie) (s : State) : ∃ t, execQuiesceAck p s = .next t ∧ Keeps s t := by
  refine ⟨_, rfl, ?_⟩
  split
  · exact Keeps.after (by simp) (downGo_keeps _)
  · exact Keeps.refl s

theorem execQuiesceTimeout_keeps (p : PDie) (s : State) : ∃ t, execQuiesceTimeout p s = .next t ∧ Keeps s t := by
  refine ⟨_, rfl, ?_⟩
  split
  · exact Keeps.after (by simp) (downGo_keeps _)
  · exact Keeps.refl s

theorem applyRecord_keeps (s : State) (r : CfgRecord) : Keeps s (s.applyRecord r).1 := by
  unfold State.applyRecord
  split
  · exact keeps_foldl _ (fun t u => unitStore_keeps ..) _ _
  · split
    · exact (keeps_foldl _ (fun t u => unitStore_keeps ..) _ _).trans
        (keeps_foldl _ (fun t u => keeps_of_base (State.finishCommit_base ..)) _ _)
    · exact keeps_of_base (base_mk s ..)

theorem applyRecords_keeps (rs : List CfgRecord) (s : State) : Keeps s (applyRecords rs s).1 := by
  induction rs generalizing s with
  | nil => exact Keeps.refl s
  | cons r rs ih =>
    simp only [applyRecords]
    split
    · exact applyRecord_keeps s r
    · exact (applyRecord_keeps s r).trans (ih _)

theorem applyImage_keeps (s : State) (bs : List Byte) : Keeps s (s.applyImage bs).1 := by
  unfold State.applyImage
  split
  · exact Keeps.refl s
  · exact applyRecords_keeps _ s

theorem applyConfig_keeps (s : State) : Keeps s s.applyConfig.1 := by
  have h : Keeps s ((s.writeAsym.takeImage (s.running 3).body).applyImage (s.running 3).body).1 :=
    Keeps.after (by simp) (applyImage_keeps ..)
  unfold State.applyConfig
  dsimp only
  split
  · exact h
  · split
    · exact h
    · exact h.trans (applyImage_keeps ..)

theorem loadLanes_keeps (s : State) (i : BootInput) : Keeps s (s.loadLanes i) :=
  keeps_foldl _ (fun _ l => keeps_foldl _ (fun t k =>
    Keeps.then (loadSection_keeps t l k (imageSection (receivedBy (s.running 4).body i.received l) k)) (by simp)) _ _) _ _

/-- The state an attempt ends with. -/
def Attempt.state : Attempt → State
  | .released s => s
  | .failed s => s
  | .reverts s _ => s

theorem finishBoot_keeps (s : State) : Keeps s s.finishBoot.state := by
  unfold State.finishBoot
  dsimp only
  split <;> exact keeps_of_base (by simp [Attempt.state])

theorem bootLanes_keeps (s : State) (i : BootInput) : Keeps s (s.bootLanes i).state := by
  unfold State.bootLanes
  split
  · exact Keeps.refl s
  · split
    · exact keeps_of_base (by simp [Attempt.state])
    · split <;> exact Keeps.refl s
    · exact (loadLanes_keeps s i).trans (finishBoot_keeps _)

theorem bootConfig_keeps (s : State) (i : BootInput) : Keeps s (s.bootConfig i).state := by
  have h : Keeps s s.loadMicrocode.applyConfig.1 := Keeps.after (by simp) (applyConfig_keeps _)
  unfold State.bootConfig
  dsimp only
  split
  · exact h.trans (bootLanes_keeps _ i)
  · split <;> exact h.then (by simp [Attempt.state])

theorem bootReverted_keeps (s : State) (i : BootInput) (reason : Nat) : Keeps s (s.bootReverted i reason).state := by
  unfold State.bootReverted
  dsimp only
  split
  · exact Keeps.after (by simp) (bootConfig_keeps _ i)
  · exact Keeps.after (by simp) (bootLanes_keeps _ i)

theorem bootFirst_keeps (s : State) (i : BootInput) : Keeps s (s.bootFirst i).state := by
  unfold State.bootFirst
  split
  · exact Keeps.after (by simp) (bootConfig_keeps _ i)
  · exact bootConfig_keeps s i

theorem bootLoad_keeps (s : State) (i : BootInput) : Keeps s (s.bootLoad i).state := by
  have h : Keeps s ((s.setFld .m Reg.mgStat 31 29 bootLoading).bootFirst i).state :=
    Keeps.after (by simp) (bootFirst_keeps _ i)
  unfold State.bootLoad
  dsimp only
  split
  · exact keeps_of_base (by simp [Attempt.state])
  · split
    · rename_i t r hr
      rw [hr] at h
      exact h.trans (bootReverted_keeps t i r)
    · exact h

theorem keepM_base (t : State) (r : Seven RegFile) (bs : List Mailbox) (g : Mgmt) :
    State.base { t with regs := r, mailboxes := bs, mgmt := g } = t.base := rfl

theorem bootFails_keeps (s : State) (n : Nat) : Keeps s (s.bootFails n) := by
  unfold State.bootFails
  split
  · exact keeps_of_base (by simp)
  · refine (islandsOff_keeps s 4).then ?_
    dsimp only
    simp only [State.setFld_base, State.setReg_base, State.setLastOff_base]
    exact keepM_base ..

theorem bootAttempt_keeps (s : State) (i : BootInput) (n : Nat) : Keeps s (s.bootAttempt i n) := by
  unfold State.bootAttempt
  dsimp only
  split <;> rename_i h
  all_goals
    have k := congrArg Attempt.state h
    dsimp only [Attempt.state] at k
    subst k
  · exact Keeps.after (by simp) (bootLoad_keeps _ i)
  · exact Keeps.trans (Keeps.after (by simp) (bootLoad_keeps _ i)) (bootFails_keeps _ n)
  · exact Keeps.trans (Keeps.after (by simp) (bootLoad_keeps _ i)) (bootFails_keeps _ n)

theorem execBoot_keeps (i : BootInput) (s : State) : ∃ t, execBoot i s = .next t ∧ Keeps s t := by
  refine ⟨_, rfl, ?_⟩
  split
  · exact Keeps.refl s
  · split
    · split
      · rename_i t h
        exact Keeps.after (State.rom_base s t h) (bootAttempt_keeps ..)
      · exact Keeps.refl s
    · split
      · exact bootAttempt_keeps ..
      · exact Keeps.refl s

theorem execPowerGood_keeps (s : State) : ∃ t, execPowerGood s = .next t ∧ Keeps s t := ⟨_, rfl, afterPower_keeps s⟩

theorem execUpdActivated_keeps (s : State) : ∃ t, execUpdActivated s = .next t ∧ Keeps s t := by
  refine ⟨_, rfl, ?_⟩
  split
  · split
    · exact keeps_of_base (by simp)
    · split
      · exact Keeps.refl s
      · exact Keeps.after (by simp) (shutDown_keeps ..)
  · exact Keeps.refl s

theorem execHoldupExhausted_keeps (s : State) : ∃ t, execHoldupExhausted s = .next t ∧ Keeps s t := by
  refine ⟨_, rfl, ?_⟩
  split
  · exact (Keeps.after (State.cutWrite_base s) (afterPower_keeps _)).then (by simp [base_mk, base_foldl])
  · exact Keeps.refl s

theorem execReboot_keeps (h : SvcHead) (s : State) : ∃ t, execReboot h s = .next t ∧ Keeps s t := by
  refine ⟨_, rfl, ?_⟩
  split
  · dsimp only
    have hu : (if (s.session h.from').isNone = true then s.refusePowerDown else s).base = s.base := by simp
    generalize (if (s.session h.from').isNone = true then s.refusePowerDown else s) = u at hu
    unfold State.authed
    split
    · exact Keeps.after hu (Keeps.after (by simp) (shutDown_keeps ..))
    · exact Keeps.after hu (keeps_of_base (by simp))
  · exact Keeps.refl s

/-! ### Service messages and the tick -/

/-- A command that keeps the base, as the state it leaves. -/
theorem outState_keeps {s : State} {o : Out} (h : ∃ t, o = .next t ∧ t.base = s.base) : Keeps s (outState o s) := by
  obtain ⟨t, rfl, ht⟩ := h
  exact keeps_of_base ht

theorem outState_keeps' {s : State} {o : Out} (h : ∃ t, o = .next t ∧ Keeps s t) : Keeps s (outState o s) := by
  obtain ⟨t, rfl, ht⟩ := h
  exact ht

theorem outState_ite (c : Prop) [Decidable c] (x y : Out) (s : State) :
    outState (if c then x else y) s = if c then outState x s else outState y s := by split <;> rfl

theorem keeps_ite {c : Prop} [Decidable c] {s x y : State} (hx : Keeps s x) (hy : Keeps s y) :
    Keeps s (if c then x else y) := by split <;> assumption

theorem execNonce_keeps (h : SvcHead) (v : List Byte) (s t : State) (hb : t.base = s.base) :
    Keeps s (outState (execNonce h v t) s) := by
  obtain ⟨u, hu, hk⟩ := execNonce_base h v t
  rw [hu]
  exact keeps_of_base (hk.trans hb)

theorem svcOp_keeps (s : State) (h : SvcHead) (op : Nat) (b : List Byte) : Keeps s (outState (s.svcOp h op b) s) := by
  unfold State.svcOp
  simp only [outState_ite]
  refine keeps_ite (outState_keeps (execInfo_base h s)) ?_
  refine keeps_ite (execNonce_keeps _ _ _ _ (by simp)) ?_
  refine keeps_ite (outState_keeps (execAuth_base ..)) ?_
  refine keeps_ite (outState_keeps (execLogRead_base ..)) ?_
  refine keeps_ite (outState_keeps (execIdentRead_base ..)) ?_
  refine keeps_ite (outState_keeps (execStageBegin_base ..)) ?_
  refine keeps_ite (outState_keeps (execStageData_base ..)) ?_
  refine keeps_ite (outState_keeps (execStageEnd_base ..)) ?_
  refine keeps_ite (outState_keeps (execArm_base ..)) ?_
  refine keeps_ite (outState_keeps (execCancel_base ..)) ?_
  refine keeps_ite (outState_keeps (execRevert_base ..)) ?_
  refine keeps_ite (outState_keeps' (execReboot_keeps ..)) ?_
  refine keeps_ite (outState_keeps (execDebugAuth_base ..)) ?_
  refine keeps_ite (outState_keeps (execDebugRevoke_base ..)) ?_
  exact keeps_ite (keeps_of_base (by simp)) (Keeps.refl s)

theorem svcRun_keeps (s : State) (who : Requester) (bs : List Byte) : Keeps s (s.svcRun who bs) := by
  unfold State.svcRun
  split
  · exact Keeps.refl s
  · exact keeps_ite (svcOp_keeps ..) (keeps_ite (keeps_of_base (by simp)) (Keeps.refl s))

theorem takeSvc_keeps (s : State) (p : PDie) : Keeps s (s.takeSvc p) := by
  unfold State.takeSvc
  split
  · dsimp only
    exact Keeps.after (by simp) (keeps_foldl _ (fun t x => svcRun_keeps ..) _ _)
  · exact Keeps.refl s

/-- A tick keeps the order code, the commands that wait and the canonical form of the memories. -/
theorem tick_keeps (s : State) : Keeps s s.tick := by
  unfold State.tick
  split
  · exact Keeps.refl s
  · dsimp only
    refine Keeps.then (t := _) ?_ (base_foldl _ (fun t l => by simp) _ _)
    refine Keeps.then (t := _) ?_ (show _ = _ from by simp only [State.settleBufs_base, State.settleCopies_base, State.tickPort_base]; rfl)
    refine Keeps.then (t := _) ?_ (base_foldl _ (fun t l => by simp) _ _)
    refine Keeps.trans ?_ (takeSvc_keeps _ _)
    refine Keeps.trans ?_ (takeSvc_keeps _ _)
    refine keeps_of_base ?_
    (repeat' split) <;> simp [base_foldl, base_mk]

/-! ### Debug access -/

theorem debugPoke_keeps (s : State) (l : Lane) (k : Strand) (a : Nat) (bs : List Byte) : Keeps s (s.debugPoke l k a bs) := by
  unfold State.debugPoke
  split
  · split
    · exact keeps_of_base (by simp)
    · exact Keeps.refl s
  · split
    · exact laneStore_keeps ..
    · exact Keeps.refl s

theorem execDebugRequest_keeps (l : Lane) (k : Strand) (q : DebugReq) (s : State) :
    ∃ t, execDebugRequest l k q s = .next t ∧ Keeps s t := by
  refine ⟨_, rfl, ?_⟩
  split
  · cases q with
    | poke a bs => exact debugPoke_keeps ..
    | halt => exact keeps_of_base (by simp)
    | step =>
      dsimp only
      split
      · exact keeps_of_base (by simp)
      · exact Keeps.refl s
    | _ => exact keeps_of_base (by simp)
  · exact keeps_of_base (by simp)

/-- A debug request other than a poke keeps every lane's memory. -/
theorem execDebugRequest_base (l : Lane) (k : Strand) (q : DebugReq) (s : State) (h : ∀ a bs, q ≠ .poke a bs) :
    ∃ t, execDebugRequest l k q s = .next t ∧ t.base = s.base := by
  refine ⟨_, rfl, ?_⟩
  split
  · cases q with
    | poke a bs => exact absurd rfl (h a bs)
    | step => dsimp only; split <;> simp
    | _ => simp
  · simp

/-! ### Commands that may fault -/

theorem execMemoryUe_base (l : Lane) (loc : UeLoc) (addr : Addr) (s t : State)
    (h : execMemoryUe l loc addr s = .next t) : t.base = s.base := by
  unfold execMemoryUe at h
  split at h
  · injection h with h
    subst h
    split <;> simp
  · cases h

theorem execPatrolRead_base (l : Lane) (f : PatrolFind) (addr : Addr) (s t : State)
    (h : execPatrolRead l f addr s = .next t) : t.base = s.base := by
  unfold execPatrolRead at h
  dsimp only at h
  split at h
  · injection h with h
    subst h
    cases f <;> dsimp only <;> split <;> simp
  · cases h

theorem execBroadcastWriteLand_keeps (l : Lane) (w : Broadcast) (ue : Bool) (s t : State)
    (h : execBroadcastWriteLand l w ue s = .next t) : Keeps s t := by
  unfold execBroadcastWriteLand at h
  split at h
  · injection h with h
    subst h
    split
    · dsimp only
      split
      · exact keeps_of_base (by simp)
      · split
        · exact keeps_of_base (by simp)
        · exact Keeps.after (by simp) (landBroadcast_keeps ..)
    · exact Keeps.refl s
  · cases h

end Sys2Proof.Machine
end

