-- ==== Sys2Proof/Laws/Operands.lean ====
section
/-! SUPPORT. The register that an aligned access of one word touches. -/
namespace Sys2Proof.Machine

/-- The four bytes of a word, least significant first. -/
abbrev wordBytes (w : Word) : List Byte :=
  [w.extractLsb' 0 8, w.extractLsb' 8 8, w.extractLsb' 16 8, w.extractLsb' 24 8]

theorem leBytes_word (w : Word) : leBytes 4 w.toNat = wordBytes w := by
  simp only [leBytes, List.cons.injEq, and_true]
  refine ⟨?_, ?_, ?_, ?_⟩ <;> apply BitVec.eq_of_toNat_eq <;> simp [BitVec.extractLsb'_toNat, Nat.shiftRight_eq_div_pow] <;> omega

theorem getLsbD_byteShift (w : Word) (k i j : Nat) :
    (BitVec.ofNat 64 ((w.extractLsb' k 8).toNat <<< j)).getLsbD i =
      (decide (i < 64) && decide (j ≤ i) && decide (i - j < 8) && w.getLsbD (k + (i - j))) := by
  rw [BitVec.getLsbD_ofNat, Nat.testBit_shiftLeft, BitVec.testBit_toNat, BitVec.getLsbD_extractLsb']
  simp [Bool.and_assoc]

theorem joinBytes (w : Word) :
    (BitVec.ofNat 64 ((w.extractLsb' 0 8).toNat <<< 0) ||| BitVec.ofNat 64 ((w.extractLsb' 8 8).toNat <<< 8) |||
      BitVec.ofNat 64 ((w.extractLsb' 16 8).toNat <<< 16) |||
      BitVec.ofNat 64 ((w.extractLsb' 24 8).toNat <<< 24)).extractLsb' 0 32 = w := by
  apply BitVec.eq_of_getLsbD_eq
  intro i hi
  simp only [BitVec.getLsbD_extractLsb', BitVec.getLsbD_or, getLsbD_byteShift, hi, Nat.zero_add]
  interval_cases i <;> simp

theorem joinBytesHi (w : Word) :
    (BitVec.ofNat 64 ((w.extractLsb' 0 8).toNat <<< 32) ||| BitVec.ofNat 64 ((w.extractLsb' 8 8).toNat <<< 40) |||
      BitVec.ofNat 64 ((w.extractLsb' 16 8).toNat <<< 48) |||
      BitVec.ofNat 64 ((w.extractLsb' 24 8).toNat <<< 56)).extractLsb' 32 32 = w := by
  apply BitVec.eq_of_getLsbD_eq
  intro i hi
  simp only [BitVec.getLsbD_extractLsb', BitVec.getLsbD_or, getLsbD_byteShift, hi, Nat.zero_add]
  interval_cases i <;> simp

theorem dwOf_shift (q r : Nat) (bs : List Byte) :
    dwOf (8 * q + r) bs (q * 8) = ⟨q * 8, (dwOf r bs 0).be, (dwOf r bs 0).data⟩ := by
  have h1 : ∀ i, (decide (8 * q + r ≤ q * 8 + i) && decide (q * 8 + i < 8 * q + r + bs.length)) =
      (decide (r ≤ 0 + i) && decide (0 + i < r + bs.length)) := fun i => by
    congr 1 <;> exact decide_eq_decide.2 (by omega)
  have h2 : ∀ i, q * 8 + i - (8 * q + r) = 0 + i - r := fun i => by omega
  simp only [dwOf, h1, h2]

theorem dwords_aligned (q r : Nat) (bs : List Byte) (h : 0 < bs.length) (hr : r + bs.length ≤ 8) :
    dwords (8 * q + r) bs = [⟨q * 8, (dwOf r bs 0).be, (dwOf r bs 0).data⟩] := by
  have h1 : (8 * q + r + bs.length - 1) / 8 - (8 * q + r) / 8 + 1 = 1 := by omega
  have h2 : (8 * q + r) / 8 = q := by omega
  rw [dwords, if_neg (by omega), h1, h2]
  simp [List.range_succ, dwOf_shift]

theorem wordsOf_word (off : Nat) (h : off % 4 = 0) (w : Word) :
    wordsOf off 4 (w.zeroExtend 64) = [(off, 0xFFFFFFFF, w)] := by
  have hn : (w.zeroExtend 64).toNat = w.toNat := by have := w.isLt; simp; omega
  simp only [wordsOf, Nat.min_def]
  rw [if_pos (by decide), hn, leBytes_word]
  obtain ⟨q, hq | hq⟩ : ∃ q, off = 8 * q + 0 ∨ off = 8 * q + 4 := ⟨off / 8, by omega⟩
  · subst hq
    rw [dwords_aligned _ _ _ (by simp) (by simp)]
    have hb : (dwOf 0 (wordBytes w) 0).be = 0x0F := by
      simp [dwOf, List.range_succ]
    have hd : loWord (dwOf 0 (wordBytes w) 0).data = w := by
      have := joinBytes w
      simp only [dwOf, List.range_succ]
      simpa [byteAt, loWord] using this
    simp only [List.flatMap_cons, List.flatMap_nil, hb, hd]
    simp [show loWord (beMask 15#8) = 0xFFFFFFFF#32 by decide, show hiWord (beMask 15#8) = 0#32 by decide]
    omega
  · subst hq
    rw [dwords_aligned _ _ _ (by simp) (by simp)]
    have hb : (dwOf 4 (wordBytes w) 0).be = 0xF0 := by
      simp [dwOf, List.range_succ]
    have hd : hiWord (dwOf 4 (wordBytes w) 0).data = w := by
      have := joinBytesHi w
      simp only [dwOf, List.range_succ]
      simpa [byteAt, hiWord] using this
    simp only [List.flatMap_cons, List.flatMap_nil, hb, hd]
    simp [show loWord (beMask 240#8) = 0#32 by decide, show hiWord (beMask 240#8) = 0xFFFFFFFF#32 by decide]
    omega
end Sys2Proof.Machine
end

