-- ==== Sys2Proof/Laws/State.lean ====
section
/-! SUPPORT. Each elementary update leaves the other fields of the state. -/

namespace Sys2Proof.Machine

/-! ### `State.setReg` -/

@[simp] theorem State.setReg_variant (s : State) (u : RUnit) (off : Nat) (v : Word) : (s.setReg u off v).variant = s.variant := rfl
@[simp] theorem State.setReg_ns (s : State) (u : RUnit) (off : Nat) (v : Word) : (s.setReg u off v).ns = s.ns := rfl
@[simp] theorem State.setReg_heldLo (s : State) (u : RUnit) (off : Nat) (v : Word) : (s.setReg u off v).heldLo = s.heldLo := rfl
@[simp] theorem State.setReg_lanes (s : State) (u : RUnit) (off : Nat) (v : Word) : (s.setReg u off v).lanes = s.lanes := rfl
@[simp] theorem State.setReg_voters (s : State) (u : RUnit) (off : Nat) (v : Word) : (s.setReg u off v).voters = s.voters := rfl
@[simp] theorem State.setReg_consumers (s : State) (u : RUnit) (off : Nat) (v : Word) : (s.setReg u off v).consumers = s.consumers := rfl
@[simp] theorem State.setReg_ports (s : State) (u : RUnit) (off : Nat) (v : Word) : (s.setReg u off v).ports = s.ports := rfl
@[simp] theorem State.setReg_links (s : State) (u : RUnit) (off : Nat) (v : Word) : (s.setReg u off v).links = s.links := rfl
@[simp] theorem State.setReg_wires (s : State) (u : RUnit) (off : Nat) (v : Word) : (s.setReg u off v).wires = s.wires := rfl
@[simp] theorem State.setReg_released (s : State) (u : RUnit) (off : Nat) (v : Word) : (s.setReg u off v).released = s.released := rfl
@[simp] theorem State.setReg_tcfg (s : State) (u : RUnit) (off : Nat) (v : Word) : (s.setReg u off v).tcfg = s.tcfg := rfl
@[simp] theorem State.setReg_rejoinQueue (s : State) (u : RUnit) (off : Nat) (v : Word) : (s.setReg u off v).rejoinQueue = s.rejoinQueue := rfl
@[simp] theorem State.setReg_rejoin (s : State) (u : RUnit) (off : Nat) (v : Word) : (s.setReg u off v).rejoin = s.rejoin := rfl
@[simp] theorem State.setReg_changes (s : State) (u : RUnit) (off : Nat) (v : Word) : (s.setReg u off v).changes = s.changes := rfl
@[simp] theorem State.setReg_echoNum (s : State) (u : RUnit) (off : Nat) (v : Word) : (s.setReg u off v).echoNum = s.echoNum := rfl
@[simp] theorem State.setReg_areas (s : State) (u : RUnit) (off : Nat) (v : Word) : (s.setReg u off v).areas = s.areas := rfl
@[simp] theorem State.setReg_field (s : State) (u : RUnit) (off : Nat) (v : Word) : (s.setReg u off v).field = s.field := rfl
@[simp] theorem State.setReg_mailboxes (s : State) (u : RUnit) (off : Nat) (v : Word) : (s.setReg u off v).mailboxes = s.mailboxes := rfl
@[simp] theorem State.setReg_lockTaken (s : State) (u : RUnit) (off : Nat) (v : Word) : (s.setReg u off v).lockTaken = s.lockTaken := rfl
@[simp] theorem State.setReg_mgmt (s : State) (u : RUnit) (off : Nat) (v : Word) : (s.setReg u off v).mgmt = s.mgmt := rfl
@[simp] theorem State.setReg_governors (s : State) (u : RUnit) (off : Nat) (v : Word) : (s.setReg u off v).governors = s.governors := rfl
@[simp] theorem State.setReg_ages (s : State) (u : RUnit) (off : Nat) (v : Word) : (s.setReg u off v).ages = s.ages := rfl
@[simp] theorem State.setReg_supply (s : State) (u : RUnit) (off : Nat) (v : Word) : (s.setReg u off v).supply = s.supply := rfl
@[simp] theorem State.setReg_views (s : State) (u : RUnit) (off : Nat) (v : Word) : (s.setReg u off v).views = s.views := rfl
@[simp] theorem State.setReg_log (s : State) (u : RUnit) (off : Nat) (v : Word) : (s.setReg u off v).log = s.log := rfl
@[simp] theorem State.setReg_absentLogged (s : State) (u : RUnit) (off : Nat) (v : Word) : (s.setReg u off v).absentLogged = s.absentLogged := rfl
@[simp] theorem State.setReg_free (s : State) (u : RUnit) (off : Nat) (v : Word) : (s.setReg u off v).free = s.free := rfl
@[simp] theorem State.setReg_pending (s : State) (u : RUnit) (off : Nat) (v : Word) : (s.setReg u off v).pending = s.pending := rfl

/-! ### `State.setLane` -/

@[simp] theorem State.setLane_variant (s : State) (l : Lane) (x : LaneState) : (s.setLane l x).variant = s.variant := rfl
@[simp] theorem State.setLane_ns (s : State) (l : Lane) (x : LaneState) : (s.setLane l x).ns = s.ns := rfl
@[simp] theorem State.setLane_regs (s : State) (l : Lane) (x : LaneState) : (s.setLane l x).regs = s.regs := rfl
@[simp] theorem State.setLane_heldLo (s : State) (l : Lane) (x : LaneState) : (s.setLane l x).heldLo = s.heldLo := rfl
@[simp] theorem State.setLane_voters (s : State) (l : Lane) (x : LaneState) : (s.setLane l x).voters = s.voters := rfl
@[simp] theorem State.setLane_consumers (s : State) (l : Lane) (x : LaneState) : (s.setLane l x).consumers = s.consumers := rfl
@[simp] theorem State.setLane_ports (s : State) (l : Lane) (x : LaneState) : (s.setLane l x).ports = s.ports := rfl
@[simp] theorem State.setLane_links (s : State) (l : Lane) (x : LaneState) : (s.setLane l x).links = s.links := rfl
@[simp] theorem State.setLane_wires (s : State) (l : Lane) (x : LaneState) : (s.setLane l x).wires = s.wires := rfl
@[simp] theorem State.setLane_released (s : State) (l : Lane) (x : LaneState) : (s.setLane l x).released = s.released := rfl
@[simp] theorem State.setLane_tcfg (s : State) (l : Lane) (x : LaneState) : (s.setLane l x).tcfg = s.tcfg := rfl
@[simp] theorem State.setLane_rejoinQueue (s : State) (l : Lane) (x : LaneState) : (s.setLane l x).rejoinQueue = s.rejoinQueue := rfl
@[simp] theorem State.setLane_rejoin (s : State) (l : Lane) (x : LaneState) : (s.setLane l x).rejoin = s.rejoin := rfl
@[simp] theorem State.setLane_changes (s : State) (l : Lane) (x : LaneState) : (s.setLane l x).changes = s.changes := rfl
@[simp] theorem State.setLane_echoNum (s : State) (l : Lane) (x : LaneState) : (s.setLane l x).echoNum = s.echoNum := rfl
@[simp] theorem State.setLane_areas (s : State) (l : Lane) (x : LaneState) : (s.setLane l x).areas = s.areas := rfl
@[simp] theorem State.setLane_field (s : State) (l : Lane) (x : LaneState) : (s.setLane l x).field = s.field := rfl
@[simp] theorem State.setLane_mailboxes (s : State) (l : Lane) (x : LaneState) : (s.setLane l x).mailboxes = s.mailboxes := rfl
@[simp] theorem State.setLane_lockTaken (s : State) (l : Lane) (x : LaneState) : (s.setLane l x).lockTaken = s.lockTaken := rfl
@[simp] theorem State.setLane_mgmt (s : State) (l : Lane) (x : LaneState) : (s.setLane l x).mgmt = s.mgmt := rfl
@[simp] theorem State.setLane_governors (s : State) (l : Lane) (x : LaneState) : (s.setLane l x).governors = s.governors := rfl
@[simp] theorem State.setLane_ages (s : State) (l : Lane) (x : LaneState) : (s.setLane l x).ages = s.ages := rfl
@[simp] theorem State.setLane_supply (s : State) (l : Lane) (x : LaneState) : (s.setLane l x).supply = s.supply := rfl
@[simp] theorem State.setLane_views (s : State) (l : Lane) (x : LaneState) : (s.setLane l x).views = s.views := rfl
@[simp] theorem State.setLane_log (s : State) (l : Lane) (x : LaneState) : (s.setLane l x).log = s.log := rfl
@[simp] theorem State.setLane_absentLogged (s : State) (l : Lane) (x : LaneState) : (s.setLane l x).absentLogged = s.absentLogged := rfl
@[simp] theorem State.setLane_free (s : State) (l : Lane) (x : LaneState) : (s.setLane l x).free = s.free := rfl
@[simp] theorem State.setLane_pending (s : State) (l : Lane) (x : LaneState) : (s.setLane l x).pending = s.pending := rfl

/-! ### `State.setReplica` -/

@[simp] theorem State.setReplica_variant (s : State) (l : Lane) (k : Strand) (r : Replica) : (s.setReplica l k r).variant = s.variant := rfl
@[simp] theorem State.setReplica_ns (s : State) (l : Lane) (k : Strand) (r : Replica) : (s.setReplica l k r).ns = s.ns := rfl
@[simp] theorem State.setReplica_regs (s : State) (l : Lane) (k : Strand) (r : Replica) : (s.setReplica l k r).regs = s.regs := rfl
@[simp] theorem State.setReplica_heldLo (s : State) (l : Lane) (k : Strand) (r : Replica) : (s.setReplica l k r).heldLo = s.heldLo := rfl
@[simp] theorem State.setReplica_voters (s : State) (l : Lane) (k : Strand) (r : Replica) : (s.setReplica l k r).voters = s.voters := rfl
@[simp] theorem State.setReplica_consumers (s : State) (l : Lane) (k : Strand) (r : Replica) : (s.setReplica l k r).consumers = s.consumers := rfl
@[simp] theorem State.setReplica_ports (s : State) (l : Lane) (k : Strand) (r : Replica) : (s.setReplica l k r).ports = s.ports := rfl
@[simp] theorem State.setReplica_links (s : State) (l : Lane) (k : Strand) (r : Replica) : (s.setReplica l k r).links = s.links := rfl
@[simp] theorem State.setReplica_wires (s : State) (l : Lane) (k : Strand) (r : Replica) : (s.setReplica l k r).wires = s.wires := rfl
@[simp] theorem State.setReplica_released (s : State) (l : Lane) (k : Strand) (r : Replica) : (s.setReplica l k r).released = s.released := rfl
@[simp] theorem State.setReplica_tcfg (s : State) (l : Lane) (k : Strand) (r : Replica) : (s.setReplica l k r).tcfg = s.tcfg := rfl
@[simp] theorem State.setReplica_rejoinQueue (s : State) (l : Lane) (k : Strand) (r : Replica) : (s.setReplica l k r).rejoinQueue = s.rejoinQueue := rfl
@[simp] theorem State.setReplica_rejoin (s : State) (l : Lane) (k : Strand) (r : Replica) : (s.setReplica l k r).rejoin = s.rejoin := rfl
@[simp] theorem State.setReplica_changes (s : State) (l : Lane) (k : Strand) (r : Replica) : (s.setReplica l k r).changes = s.changes := rfl
@[simp] theorem State.setReplica_echoNum (s : State) (l : Lane) (k : Strand) (r : Replica) : (s.setReplica l k r).echoNum = s.echoNum := rfl
@[simp] theorem State.setReplica_areas (s : State) (l : Lane) (k : Strand) (r : Replica) : (s.setReplica l k r).areas = s.areas := rfl
@[simp] theorem State.setReplica_field (s : State) (l : Lane) (k : Strand) (r : Replica) : (s.setReplica l k r).field = s.field := rfl
@[simp] theorem State.setReplica_mailboxes (s : State) (l : Lane) (k : Strand) (r : Replica) : (s.setReplica l k r).mailboxes = s.mailboxes := rfl
@[simp] theorem State.setReplica_lockTaken (s : State) (l : Lane) (k : Strand) (r : Replica) : (s.setReplica l k r).lockTaken = s.lockTaken := rfl
@[simp] theorem State.setReplica_mgmt (s : State) (l : Lane) (k : Strand) (r : Replica) : (s.setReplica l k r).mgmt = s.mgmt := rfl
@[simp] theorem State.setReplica_governors (s : State) (l : Lane) (k : Strand) (r : Replica) : (s.setReplica l k r).governors = s.governors := rfl
@[simp] theorem State.setReplica_ages (s : State) (l : Lane) (k : Strand) (r : Replica) : (s.setReplica l k r).ages = s.ages := rfl
@[simp] theorem State.setReplica_supply (s : State) (l : Lane) (k : Strand) (r : Replica) : (s.setReplica l k r).supply = s.supply := rfl
@[simp] theorem State.setReplica_views (s : State) (l : Lane) (k : Strand) (r : Replica) : (s.setReplica l k r).views = s.views := rfl
@[simp] theorem State.setReplica_log (s : State) (l : Lane) (k : Strand) (r : Replica) : (s.setReplica l k r).log = s.log := rfl
@[simp] theorem State.setReplica_absentLogged (s : State) (l : Lane) (k : Strand) (r : Replica) : (s.setReplica l k r).absentLogged = s.absentLogged := rfl
@[simp] theorem State.setReplica_free (s : State) (l : Lane) (k : Strand) (r : Replica) : (s.setReplica l k r).free = s.free := rfl
@[simp] theorem State.setReplica_pending (s : State) (l : Lane) (k : Strand) (r : Replica) : (s.setReplica l k r).pending = s.pending := rfl

/-! ### `State.setEcho` -/

@[simp] theorem State.setEcho_variant (s : State) (l : Lane) (k : Strand) (e : Echo) : (s.setEcho l k e).variant = s.variant := rfl
@[simp] theorem State.setEcho_ns (s : State) (l : Lane) (k : Strand) (e : Echo) : (s.setEcho l k e).ns = s.ns := rfl
@[simp] theorem State.setEcho_regs (s : State) (l : Lane) (k : Strand) (e : Echo) : (s.setEcho l k e).regs = s.regs := rfl
@[simp] theorem State.setEcho_heldLo (s : State) (l : Lane) (k : Strand) (e : Echo) : (s.setEcho l k e).heldLo = s.heldLo := rfl
@[simp] theorem State.setEcho_voters (s : State) (l : Lane) (k : Strand) (e : Echo) : (s.setEcho l k e).voters = s.voters := rfl
@[simp] theorem State.setEcho_consumers (s : State) (l : Lane) (k : Strand) (e : Echo) : (s.setEcho l k e).consumers = s.consumers := rfl
@[simp] theorem State.setEcho_ports (s : State) (l : Lane) (k : Strand) (e : Echo) : (s.setEcho l k e).ports = s.ports := rfl
@[simp] theorem State.setEcho_links (s : State) (l : Lane) (k : Strand) (e : Echo) : (s.setEcho l k e).links = s.links := rfl
@[simp] theorem State.setEcho_wires (s : State) (l : Lane) (k : Strand) (e : Echo) : (s.setEcho l k e).wires = s.wires := rfl
@[simp] theorem State.setEcho_released (s : State) (l : Lane) (k : Strand) (e : Echo) : (s.setEcho l k e).released = s.released := rfl
@[simp] theorem State.setEcho_tcfg (s : State) (l : Lane) (k : Strand) (e : Echo) : (s.setEcho l k e).tcfg = s.tcfg := rfl
@[simp] theorem State.setEcho_rejoinQueue (s : State) (l : Lane) (k : Strand) (e : Echo) : (s.setEcho l k e).rejoinQueue = s.rejoinQueue := rfl
@[simp] theorem State.setEcho_rejoin (s : State) (l : Lane) (k : Strand) (e : Echo) : (s.setEcho l k e).rejoin = s.rejoin := rfl
@[simp] theorem State.setEcho_changes (s : State) (l : Lane) (k : Strand) (e : Echo) : (s.setEcho l k e).changes = s.changes := rfl
@[simp] theorem State.setEcho_echoNum (s : State) (l : Lane) (k : Strand) (e : Echo) : (s.setEcho l k e).echoNum = s.echoNum := rfl
@[simp] theorem State.setEcho_areas (s : State) (l : Lane) (k : Strand) (e : Echo) : (s.setEcho l k e).areas = s.areas := rfl
@[simp] theorem State.setEcho_field (s : State) (l : Lane) (k : Strand) (e : Echo) : (s.setEcho l k e).field = s.field := rfl
@[simp] theorem State.setEcho_mailboxes (s : State) (l : Lane) (k : Strand) (e : Echo) : (s.setEcho l k e).mailboxes = s.mailboxes := rfl
@[simp] theorem State.setEcho_lockTaken (s : State) (l : Lane) (k : Strand) (e : Echo) : (s.setEcho l k e).lockTaken = s.lockTaken := rfl
@[simp] theorem State.setEcho_mgmt (s : State) (l : Lane) (k : Strand) (e : Echo) : (s.setEcho l k e).mgmt = s.mgmt := rfl
@[simp] theorem State.setEcho_governors (s : State) (l : Lane) (k : Strand) (e : Echo) : (s.setEcho l k e).governors = s.governors := rfl
@[simp] theorem State.setEcho_ages (s : State) (l : Lane) (k : Strand) (e : Echo) : (s.setEcho l k e).ages = s.ages := rfl
@[simp] theorem State.setEcho_supply (s : State) (l : Lane) (k : Strand) (e : Echo) : (s.setEcho l k e).supply = s.supply := rfl
@[simp] theorem State.setEcho_views (s : State) (l : Lane) (k : Strand) (e : Echo) : (s.setEcho l k e).views = s.views := rfl
@[simp] theorem State.setEcho_log (s : State) (l : Lane) (k : Strand) (e : Echo) : (s.setEcho l k e).log = s.log := rfl
@[simp] theorem State.setEcho_absentLogged (s : State) (l : Lane) (k : Strand) (e : Echo) : (s.setEcho l k e).absentLogged = s.absentLogged := rfl
@[simp] theorem State.setEcho_free (s : State) (l : Lane) (k : Strand) (e : Echo) : (s.setEcho l k e).free = s.free := rfl
@[simp] theorem State.setEcho_pending (s : State) (l : Lane) (k : Strand) (e : Echo) : (s.setEcho l k e).pending = s.pending := rfl

/-! ### `State.setScrub` -/

@[simp] theorem State.setScrub_variant (s : State) (l : Lane) (k : Strand) (x : Scrub) : (s.setScrub l k x).variant = s.variant := rfl
@[simp] theorem State.setScrub_ns (s : State) (l : Lane) (k : Strand) (x : Scrub) : (s.setScrub l k x).ns = s.ns := rfl
@[simp] theorem State.setScrub_regs (s : State) (l : Lane) (k : Strand) (x : Scrub) : (s.setScrub l k x).regs = s.regs := rfl
@[simp] theorem State.setScrub_heldLo (s : State) (l : Lane) (k : Strand) (x : Scrub) : (s.setScrub l k x).heldLo = s.heldLo := rfl
@[simp] theorem State.setScrub_voters (s : State) (l : Lane) (k : Strand) (x : Scrub) : (s.setScrub l k x).voters = s.voters := rfl
@[simp] theorem State.setScrub_consumers (s : State) (l : Lane) (k : Strand) (x : Scrub) : (s.setScrub l k x).consumers = s.consumers := rfl
@[simp] theorem State.setScrub_ports (s : State) (l : Lane) (k : Strand) (x : Scrub) : (s.setScrub l k x).ports = s.ports := rfl
@[simp] theorem State.setScrub_links (s : State) (l : Lane) (k : Strand) (x : Scrub) : (s.setScrub l k x).links = s.links := rfl
@[simp] theorem State.setScrub_wires (s : State) (l : Lane) (k : Strand) (x : Scrub) : (s.setScrub l k x).wires = s.wires := rfl
@[simp] theorem State.setScrub_released (s : State) (l : Lane) (k : Strand) (x : Scrub) : (s.setScrub l k x).released = s.released := rfl
@[simp] theorem State.setScrub_tcfg (s : State) (l : Lane) (k : Strand) (x : Scrub) : (s.setScrub l k x).tcfg = s.tcfg := rfl
@[simp] theorem State.setScrub_rejoinQueue (s : State) (l : Lane) (k : Strand) (x : Scrub) : (s.setScrub l k x).rejoinQueue = s.rejoinQueue := rfl
@[simp] theorem State.setScrub_rejoin (s : State) (l : Lane) (k : Strand) (x : Scrub) : (s.setScrub l k x).rejoin = s.rejoin := rfl
@[simp] theorem State.setScrub_changes (s : State) (l : Lane) (k : Strand) (x : Scrub) : (s.setScrub l k x).changes = s.changes := rfl
@[simp] theorem State.setScrub_echoNum (s : State) (l : Lane) (k : Strand) (x : Scrub) : (s.setScrub l k x).echoNum = s.echoNum := rfl
@[simp] theorem State.setScrub_areas (s : State) (l : Lane) (k : Strand) (x : Scrub) : (s.setScrub l k x).areas = s.areas := rfl
@[simp] theorem State.setScrub_field (s : State) (l : Lane) (k : Strand) (x : Scrub) : (s.setScrub l k x).field = s.field := rfl
@[simp] theorem State.setScrub_mailboxes (s : State) (l : Lane) (k : Strand) (x : Scrub) : (s.setScrub l k x).mailboxes = s.mailboxes := rfl
@[simp] theorem State.setScrub_lockTaken (s : State) (l : Lane) (k : Strand) (x : Scrub) : (s.setScrub l k x).lockTaken = s.lockTaken := rfl
@[simp] theorem State.setScrub_mgmt (s : State) (l : Lane) (k : Strand) (x : Scrub) : (s.setScrub l k x).mgmt = s.mgmt := rfl
@[simp] theorem State.setScrub_governors (s : State) (l : Lane) (k : Strand) (x : Scrub) : (s.setScrub l k x).governors = s.governors := rfl
@[simp] theorem State.setScrub_ages (s : State) (l : Lane) (k : Strand) (x : Scrub) : (s.setScrub l k x).ages = s.ages := rfl
@[simp] theorem State.setScrub_supply (s : State) (l : Lane) (k : Strand) (x : Scrub) : (s.setScrub l k x).supply = s.supply := rfl
@[simp] theorem State.setScrub_views (s : State) (l : Lane) (k : Strand) (x : Scrub) : (s.setScrub l k x).views = s.views := rfl
@[simp] theorem State.setScrub_log (s : State) (l : Lane) (k : Strand) (x : Scrub) : (s.setScrub l k x).log = s.log := rfl
@[simp] theorem State.setScrub_absentLogged (s : State) (l : Lane) (k : Strand) (x : Scrub) : (s.setScrub l k x).absentLogged = s.absentLogged := rfl
@[simp] theorem State.setScrub_free (s : State) (l : Lane) (k : Strand) (x : Scrub) : (s.setScrub l k x).free = s.free := rfl
@[simp] theorem State.setScrub_pending (s : State) (l : Lane) (k : Strand) (x : Scrub) : (s.setScrub l k x).pending = s.pending := rfl

/-! ### `State.setVoter` -/

@[simp] theorem State.setVoter_variant (s : State) (d : Die) (k : Strand) (v : Voter) : (s.setVoter d k v).variant = s.variant := rfl
@[simp] theorem State.setVoter_ns (s : State) (d : Die) (k : Strand) (v : Voter) : (s.setVoter d k v).ns = s.ns := rfl
@[simp] theorem State.setVoter_regs (s : State) (d : Die) (k : Strand) (v : Voter) : (s.setVoter d k v).regs = s.regs := rfl
@[simp] theorem State.setVoter_heldLo (s : State) (d : Die) (k : Strand) (v : Voter) : (s.setVoter d k v).heldLo = s.heldLo := rfl
@[simp] theorem State.setVoter_lanes (s : State) (d : Die) (k : Strand) (v : Voter) : (s.setVoter d k v).lanes = s.lanes := rfl
@[simp] theorem State.setVoter_consumers (s : State) (d : Die) (k : Strand) (v : Voter) : (s.setVoter d k v).consumers = s.consumers := rfl
@[simp] theorem State.setVoter_ports (s : State) (d : Die) (k : Strand) (v : Voter) : (s.setVoter d k v).ports = s.ports := rfl
@[simp] theorem State.setVoter_links (s : State) (d : Die) (k : Strand) (v : Voter) : (s.setVoter d k v).links = s.links := rfl
@[simp] theorem State.setVoter_wires (s : State) (d : Die) (k : Strand) (v : Voter) : (s.setVoter d k v).wires = s.wires := rfl
@[simp] theorem State.setVoter_released (s : State) (d : Die) (k : Strand) (v : Voter) : (s.setVoter d k v).released = s.released := rfl
@[simp] theorem State.setVoter_tcfg (s : State) (d : Die) (k : Strand) (v : Voter) : (s.setVoter d k v).tcfg = s.tcfg := rfl
@[simp] theorem State.setVoter_rejoinQueue (s : State) (d : Die) (k : Strand) (v : Voter) : (s.setVoter d k v).rejoinQueue = s.rejoinQueue := rfl
@[simp] theorem State.setVoter_rejoin (s : State) (d : Die) (k : Strand) (v : Voter) : (s.setVoter d k v).rejoin = s.rejoin := rfl
@[simp] theorem State.setVoter_changes (s : State) (d : Die) (k : Strand) (v : Voter) : (s.setVoter d k v).changes = s.changes := rfl
@[simp] theorem State.setVoter_echoNum (s : State) (d : Die) (k : Strand) (v : Voter) : (s.setVoter d k v).echoNum = s.echoNum := rfl
@[simp] theorem State.setVoter_areas (s : State) (d : Die) (k : Strand) (v : Voter) : (s.setVoter d k v).areas = s.areas := rfl
@[simp] theorem State.setVoter_field (s : State) (d : Die) (k : Strand) (v : Voter) : (s.setVoter d k v).field = s.field := rfl
@[simp] theorem State.setVoter_mailboxes (s : State) (d : Die) (k : Strand) (v : Voter) : (s.setVoter d k v).mailboxes = s.mailboxes := rfl
@[simp] theorem State.setVoter_lockTaken (s : State) (d : Die) (k : Strand) (v : Voter) : (s.setVoter d k v).lockTaken = s.lockTaken := rfl
@[simp] theorem State.setVoter_mgmt (s : State) (d : Die) (k : Strand) (v : Voter) : (s.setVoter d k v).mgmt = s.mgmt := rfl
@[simp] theorem State.setVoter_governors (s : State) (d : Die) (k : Strand) (v : Voter) : (s.setVoter d k v).governors = s.governors := rfl
@[simp] theorem State.setVoter_ages (s : State) (d : Die) (k : Strand) (v : Voter) : (s.setVoter d k v).ages = s.ages := rfl
@[simp] theorem State.setVoter_supply (s : State) (d : Die) (k : Strand) (v : Voter) : (s.setVoter d k v).supply = s.supply := rfl
@[simp] theorem State.setVoter_views (s : State) (d : Die) (k : Strand) (v : Voter) : (s.setVoter d k v).views = s.views := rfl
@[simp] theorem State.setVoter_log (s : State) (d : Die) (k : Strand) (v : Voter) : (s.setVoter d k v).log = s.log := rfl
@[simp] theorem State.setVoter_absentLogged (s : State) (d : Die) (k : Strand) (v : Voter) : (s.setVoter d k v).absentLogged = s.absentLogged := rfl
@[simp] theorem State.setVoter_free (s : State) (d : Die) (k : Strand) (v : Voter) : (s.setVoter d k v).free = s.free := rfl
@[simp] theorem State.setVoter_pending (s : State) (d : Die) (k : Strand) (v : Voter) : (s.setVoter d k v).pending = s.pending := rfl

/-! ### `State.setConsumer` -/

@[simp] theorem State.setConsumer_variant (s : State) (d : Die) (c : Consumer) : (s.setConsumer d c).variant = s.variant := rfl
@[simp] theorem State.setConsumer_ns (s : State) (d : Die) (c : Consumer) : (s.setConsumer d c).ns = s.ns := rfl
@[simp] theorem State.setConsumer_regs (s : State) (d : Die) (c : Consumer) : (s.setConsumer d c).regs = s.regs := rfl
@[simp] theorem State.setConsumer_heldLo (s : State) (d : Die) (c : Consumer) : (s.setConsumer d c).heldLo = s.heldLo := rfl
@[simp] theorem State.setConsumer_lanes (s : State) (d : Die) (c : Consumer) : (s.setConsumer d c).lanes = s.lanes := rfl
@[simp] theorem State.setConsumer_voters (s : State) (d : Die) (c : Consumer) : (s.setConsumer d c).voters = s.voters := rfl
@[simp] theorem State.setConsumer_ports (s : State) (d : Die) (c : Consumer) : (s.setConsumer d c).ports = s.ports := rfl
@[simp] theorem State.setConsumer_links (s : State) (d : Die) (c : Consumer) : (s.setConsumer d c).links = s.links := rfl
@[simp] theorem State.setConsumer_wires (s : State) (d : Die) (c : Consumer) : (s.setConsumer d c).wires = s.wires := rfl
@[simp] theorem State.setConsumer_released (s : State) (d : Die) (c : Consumer) : (s.setConsumer d c).released = s.released := rfl
@[simp] theorem State.setConsumer_tcfg (s : State) (d : Die) (c : Consumer) : (s.setConsumer d c).tcfg = s.tcfg := rfl
@[simp] theorem State.setConsumer_rejoinQueue (s : State) (d : Die) (c : Consumer) : (s.setConsumer d c).rejoinQueue = s.rejoinQueue := rfl
@[simp] theorem State.setConsumer_rejoin (s : State) (d : Die) (c : Consumer) : (s.setConsumer d c).rejoin = s.rejoin := rfl
@[simp] theorem State.setConsumer_changes (s : State) (d : Die) (c : Consumer) : (s.setConsumer d c).changes = s.changes := rfl
@[simp] theorem State.setConsumer_echoNum (s : State) (d : Die) (c : Consumer) : (s.setConsumer d c).echoNum = s.echoNum := rfl
@[simp] theorem State.setConsumer_areas (s : State) (d : Die) (c : Consumer) : (s.setConsumer d c).areas = s.areas := rfl
@[simp] theorem State.setConsumer_field (s : State) (d : Die) (c : Consumer) : (s.setConsumer d c).field = s.field := rfl
@[simp] theorem State.setConsumer_mailboxes (s : State) (d : Die) (c : Consumer) : (s.setConsumer d c).mailboxes = s.mailboxes := rfl
@[simp] theorem State.setConsumer_lockTaken (s : State) (d : Die) (c : Consumer) : (s.setConsumer d c).lockTaken = s.lockTaken := rfl
@[simp] theorem State.setConsumer_mgmt (s : State) (d : Die) (c : Consumer) : (s.setConsumer d c).mgmt = s.mgmt := rfl
@[simp] theorem State.setConsumer_governors (s : State) (d : Die) (c : Consumer) : (s.setConsumer d c).governors = s.governors := rfl
@[simp] theorem State.setConsumer_ages (s : State) (d : Die) (c : Consumer) : (s.setConsumer d c).ages = s.ages := rfl
@[simp] theorem State.setConsumer_supply (s : State) (d : Die) (c : Consumer) : (s.setConsumer d c).supply = s.supply := rfl
@[simp] theorem State.setConsumer_views (s : State) (d : Die) (c : Consumer) : (s.setConsumer d c).views = s.views := rfl
@[simp] theorem State.setConsumer_log (s : State) (d : Die) (c : Consumer) : (s.setConsumer d c).log = s.log := rfl
@[simp] theorem State.setConsumer_absentLogged (s : State) (d : Die) (c : Consumer) : (s.setConsumer d c).absentLogged = s.absentLogged := rfl
@[simp] theorem State.setConsumer_free (s : State) (d : Die) (c : Consumer) : (s.setConsumer d c).free = s.free := rfl
@[simp] theorem State.setConsumer_pending (s : State) (d : Die) (c : Consumer) : (s.setConsumer d c).pending = s.pending := rfl

/-! ### `State.setPort` -/

@[simp] theorem State.setPort_variant (s : State) (p : PDie) (x : PortDie) : (s.setPort p x).variant = s.variant := rfl
@[simp] theorem State.setPort_ns (s : State) (p : PDie) (x : PortDie) : (s.setPort p x).ns = s.ns := rfl
@[simp] theorem State.setPort_regs (s : State) (p : PDie) (x : PortDie) : (s.setPort p x).regs = s.regs := rfl
@[simp] theorem State.setPort_heldLo (s : State) (p : PDie) (x : PortDie) : (s.setPort p x).heldLo = s.heldLo := rfl
@[simp] theorem State.setPort_lanes (s : State) (p : PDie) (x : PortDie) : (s.setPort p x).lanes = s.lanes := rfl
@[simp] theorem State.setPort_voters (s : State) (p : PDie) (x : PortDie) : (s.setPort p x).voters = s.voters := rfl
@[simp] theorem State.setPort_consumers (s : State) (p : PDie) (x : PortDie) : (s.setPort p x).consumers = s.consumers := rfl
@[simp] theorem State.setPort_links (s : State) (p : PDie) (x : PortDie) : (s.setPort p x).links = s.links := rfl
@[simp] theorem State.setPort_wires (s : State) (p : PDie) (x : PortDie) : (s.setPort p x).wires = s.wires := rfl
@[simp] theorem State.setPort_released (s : State) (p : PDie) (x : PortDie) : (s.setPort p x).released = s.released := rfl
@[simp] theorem State.setPort_tcfg (s : State) (p : PDie) (x : PortDie) : (s.setPort p x).tcfg = s.tcfg := rfl
@[simp] theorem State.setPort_rejoinQueue (s : State) (p : PDie) (x : PortDie) : (s.setPort p x).rejoinQueue = s.rejoinQueue := rfl
@[simp] theorem State.setPort_rejoin (s : State) (p : PDie) (x : PortDie) : (s.setPort p x).rejoin = s.rejoin := rfl
@[simp] theorem State.setPort_changes (s : State) (p : PDie) (x : PortDie) : (s.setPort p x).changes = s.changes := rfl
@[simp] theorem State.setPort_echoNum (s : State) (p : PDie) (x : PortDie) : (s.setPort p x).echoNum = s.echoNum := rfl
@[simp] theorem State.setPort_areas (s : State) (p : PDie) (x : PortDie) : (s.setPort p x).areas = s.areas := rfl
@[simp] theorem State.setPort_field (s : State) (p : PDie) (x : PortDie) : (s.setPort p x).field = s.field := rfl
@[simp] theorem State.setPort_mailboxes (s : State) (p : PDie) (x : PortDie) : (s.setPort p x).mailboxes = s.mailboxes := rfl
@[simp] theorem State.setPort_lockTaken (s : State) (p : PDie) (x : PortDie) : (s.setPort p x).lockTaken = s.lockTaken := rfl
@[simp] theorem State.setPort_mgmt (s : State) (p : PDie) (x : PortDie) : (s.setPort p x).mgmt = s.mgmt := rfl
@[simp] theorem State.setPort_governors (s : State) (p : PDie) (x : PortDie) : (s.setPort p x).governors = s.governors := rfl
@[simp] theorem State.setPort_ages (s : State) (p : PDie) (x : PortDie) : (s.setPort p x).ages = s.ages := rfl
@[simp] theorem State.setPort_supply (s : State) (p : PDie) (x : PortDie) : (s.setPort p x).supply = s.supply := rfl
@[simp] theorem State.setPort_views (s : State) (p : PDie) (x : PortDie) : (s.setPort p x).views = s.views := rfl
@[simp] theorem State.setPort_log (s : State) (p : PDie) (x : PortDie) : (s.setPort p x).log = s.log := rfl
@[simp] theorem State.setPort_absentLogged (s : State) (p : PDie) (x : PortDie) : (s.setPort p x).absentLogged = s.absentLogged := rfl
@[simp] theorem State.setPort_free (s : State) (p : PDie) (x : PortDie) : (s.setPort p x).free = s.free := rfl
@[simp] theorem State.setPort_pending (s : State) (p : PDie) (x : PortDie) : (s.setPort p x).pending = s.pending := rfl

/-! ### `State.setJLink` -/

@[simp] theorem State.setJLink_variant (s : State) (l : Lane) (d : Die) (x : JLink) : (s.setJLink l d x).variant = s.variant := rfl
@[simp] theorem State.setJLink_ns (s : State) (l : Lane) (d : Die) (x : JLink) : (s.setJLink l d x).ns = s.ns := rfl
@[simp] theorem State.setJLink_regs (s : State) (l : Lane) (d : Die) (x : JLink) : (s.setJLink l d x).regs = s.regs := rfl
@[simp] theorem State.setJLink_heldLo (s : State) (l : Lane) (d : Die) (x : JLink) : (s.setJLink l d x).heldLo = s.heldLo := rfl
@[simp] theorem State.setJLink_lanes (s : State) (l : Lane) (d : Die) (x : JLink) : (s.setJLink l d x).lanes = s.lanes := rfl
@[simp] theorem State.setJLink_voters (s : State) (l : Lane) (d : Die) (x : JLink) : (s.setJLink l d x).voters = s.voters := rfl
@[simp] theorem State.setJLink_consumers (s : State) (l : Lane) (d : Die) (x : JLink) : (s.setJLink l d x).consumers = s.consumers := rfl
@[simp] theorem State.setJLink_ports (s : State) (l : Lane) (d : Die) (x : JLink) : (s.setJLink l d x).ports = s.ports := rfl
@[simp] theorem State.setJLink_wires (s : State) (l : Lane) (d : Die) (x : JLink) : (s.setJLink l d x).wires = s.wires := rfl
@[simp] theorem State.setJLink_released (s : State) (l : Lane) (d : Die) (x : JLink) : (s.setJLink l d x).released = s.released := rfl
@[simp] theorem State.setJLink_tcfg (s : State) (l : Lane) (d : Die) (x : JLink) : (s.setJLink l d x).tcfg = s.tcfg := rfl
@[simp] theorem State.setJLink_rejoinQueue (s : State) (l : Lane) (d : Die) (x : JLink) : (s.setJLink l d x).rejoinQueue = s.rejoinQueue := rfl
@[simp] theorem State.setJLink_rejoin (s : State) (l : Lane) (d : Die) (x : JLink) : (s.setJLink l d x).rejoin = s.rejoin := rfl
@[simp] theorem State.setJLink_changes (s : State) (l : Lane) (d : Die) (x : JLink) : (s.setJLink l d x).changes = s.changes := rfl
@[simp] theorem State.setJLink_echoNum (s : State) (l : Lane) (d : Die) (x : JLink) : (s.setJLink l d x).echoNum = s.echoNum := rfl
@[simp] theorem State.setJLink_areas (s : State) (l : Lane) (d : Die) (x : JLink) : (s.setJLink l d x).areas = s.areas := rfl
@[simp] theorem State.setJLink_field (s : State) (l : Lane) (d : Die) (x : JLink) : (s.setJLink l d x).field = s.field := rfl
@[simp] theorem State.setJLink_mailboxes (s : State) (l : Lane) (d : Die) (x : JLink) : (s.setJLink l d x).mailboxes = s.mailboxes := rfl
@[simp] theorem State.setJLink_lockTaken (s : State) (l : Lane) (d : Die) (x : JLink) : (s.setJLink l d x).lockTaken = s.lockTaken := rfl
@[simp] theorem State.setJLink_mgmt (s : State) (l : Lane) (d : Die) (x : JLink) : (s.setJLink l d x).mgmt = s.mgmt := rfl
@[simp] theorem State.setJLink_governors (s : State) (l : Lane) (d : Die) (x : JLink) : (s.setJLink l d x).governors = s.governors := rfl
@[simp] theorem State.setJLink_ages (s : State) (l : Lane) (d : Die) (x : JLink) : (s.setJLink l d x).ages = s.ages := rfl
@[simp] theorem State.setJLink_supply (s : State) (l : Lane) (d : Die) (x : JLink) : (s.setJLink l d x).supply = s.supply := rfl
@[simp] theorem State.setJLink_views (s : State) (l : Lane) (d : Die) (x : JLink) : (s.setJLink l d x).views = s.views := rfl
@[simp] theorem State.setJLink_log (s : State) (l : Lane) (d : Die) (x : JLink) : (s.setJLink l d x).log = s.log := rfl
@[simp] theorem State.setJLink_absentLogged (s : State) (l : Lane) (d : Die) (x : JLink) : (s.setJLink l d x).absentLogged = s.absentLogged := rfl
@[simp] theorem State.setJLink_free (s : State) (l : Lane) (d : Die) (x : JLink) : (s.setJLink l d x).free = s.free := rfl
@[simp] theorem State.setJLink_pending (s : State) (l : Lane) (d : Die) (x : JLink) : (s.setJLink l d x).pending = s.pending := rfl

/-! ### `State.setVcQueue` -/

@[simp] theorem State.setVcQueue_variant (s : State) (l : Lane) (d : Die) (down : Bool) (c : VChannel) (ws : List Wire) : (s.setVcQueue l d down c ws).variant = s.variant := rfl
@[simp] theorem State.setVcQueue_ns (s : State) (l : Lane) (d : Die) (down : Bool) (c : VChannel) (ws : List Wire) : (s.setVcQueue l d down c ws).ns = s.ns := rfl
@[simp] theorem State.setVcQueue_regs (s : State) (l : Lane) (d : Die) (down : Bool) (c : VChannel) (ws : List Wire) : (s.setVcQueue l d down c ws).regs = s.regs := rfl
@[simp] theorem State.setVcQueue_heldLo (s : State) (l : Lane) (d : Die) (down : Bool) (c : VChannel) (ws : List Wire) : (s.setVcQueue l d down c ws).heldLo = s.heldLo := rfl
@[simp] theorem State.setVcQueue_lanes (s : State) (l : Lane) (d : Die) (down : Bool) (c : VChannel) (ws : List Wire) : (s.setVcQueue l d down c ws).lanes = s.lanes := rfl
@[simp] theorem State.setVcQueue_voters (s : State) (l : Lane) (d : Die) (down : Bool) (c : VChannel) (ws : List Wire) : (s.setVcQueue l d down c ws).voters = s.voters := rfl
@[simp] theorem State.setVcQueue_consumers (s : State) (l : Lane) (d : Die) (down : Bool) (c : VChannel) (ws : List Wire) : (s.setVcQueue l d down c ws).consumers = s.consumers := rfl
@[simp] theorem State.setVcQueue_ports (s : State) (l : Lane) (d : Die) (down : Bool) (c : VChannel) (ws : List Wire) : (s.setVcQueue l d down c ws).ports = s.ports := rfl
@[simp] theorem State.setVcQueue_wires (s : State) (l : Lane) (d : Die) (down : Bool) (c : VChannel) (ws : List Wire) : (s.setVcQueue l d down c ws).wires = s.wires := rfl
@[simp] theorem State.setVcQueue_released (s : State) (l : Lane) (d : Die) (down : Bool) (c : VChannel) (ws : List Wire) : (s.setVcQueue l d down c ws).released = s.released := rfl
@[simp] theorem State.setVcQueue_tcfg (s : State) (l : Lane) (d : Die) (down : Bool) (c : VChannel) (ws : List Wire) : (s.setVcQueue l d down c ws).tcfg = s.tcfg := rfl
@[simp] theorem State.setVcQueue_rejoinQueue (s : State) (l : Lane) (d : Die) (down : Bool) (c : VChannel) (ws : List Wire) : (s.setVcQueue l d down c ws).rejoinQueue = s.rejoinQueue := rfl
@[simp] theorem State.setVcQueue_rejoin (s : State) (l : Lane) (d : Die) (down : Bool) (c : VChannel) (ws : List Wire) : (s.setVcQueue l d down c ws).rejoin = s.rejoin := rfl
@[simp] theorem State.setVcQueue_changes (s : State) (l : Lane) (d : Die) (down : Bool) (c : VChannel) (ws : List Wire) : (s.setVcQueue l d down c ws).changes = s.changes := rfl
@[simp] theorem State.setVcQueue_echoNum (s : State) (l : Lane) (d : Die) (down : Bool) (c : VChannel) (ws : List Wire) : (s.setVcQueue l d down c ws).echoNum = s.echoNum := rfl
@[simp] theorem State.setVcQueue_areas (s : State) (l : Lane) (d : Die) (down : Bool) (c : VChannel) (ws : List Wire) : (s.setVcQueue l d down c ws).areas = s.areas := rfl
@[simp] theorem State.setVcQueue_field (s : State) (l : Lane) (d : Die) (down : Bool) (c : VChannel) (ws : List Wire) : (s.setVcQueue l d down c ws).field = s.field := rfl
@[simp] theorem State.setVcQueue_mailboxes (s : State) (l : Lane) (d : Die) (down : Bool) (c : VChannel) (ws : List Wire) : (s.setVcQueue l d down c ws).mailboxes = s.mailboxes := rfl
@[simp] theorem State.setVcQueue_lockTaken (s : State) (l : Lane) (d : Die) (down : Bool) (c : VChannel) (ws : List Wire) : (s.setVcQueue l d down c ws).lockTaken = s.lockTaken := rfl
@[simp] theorem State.setVcQueue_mgmt (s : State) (l : Lane) (d : Die) (down : Bool) (c : VChannel) (ws : List Wire) : (s.setVcQueue l d down c ws).mgmt = s.mgmt := rfl
@[simp] theorem State.setVcQueue_governors (s : State) (l : Lane) (d : Die) (down : Bool) (c : VChannel) (ws : List Wire) : (s.setVcQueue l d down c ws).governors = s.governors := rfl
@[simp] theorem State.setVcQueue_ages (s : State) (l : Lane) (d : Die) (down : Bool) (c : VChannel) (ws : List Wire) : (s.setVcQueue l d down c ws).ages = s.ages := rfl
@[simp] theorem State.setVcQueue_supply (s : State) (l : Lane) (d : Die) (down : Bool) (c : VChannel) (ws : List Wire) : (s.setVcQueue l d down c ws).supply = s.supply := rfl
@[simp] theorem State.setVcQueue_views (s : State) (l : Lane) (d : Die) (down : Bool) (c : VChannel) (ws : List Wire) : (s.setVcQueue l d down c ws).views = s.views := rfl
@[simp] theorem State.setVcQueue_log (s : State) (l : Lane) (d : Die) (down : Bool) (c : VChannel) (ws : List Wire) : (s.setVcQueue l d down c ws).log = s.log := rfl
@[simp] theorem State.setVcQueue_absentLogged (s : State) (l : Lane) (d : Die) (down : Bool) (c : VChannel) (ws : List Wire) : (s.setVcQueue l d down c ws).absentLogged = s.absentLogged := rfl
@[simp] theorem State.setVcQueue_free (s : State) (l : Lane) (d : Die) (down : Bool) (c : VChannel) (ws : List Wire) : (s.setVcQueue l d down c ws).free = s.free := rfl
@[simp] theorem State.setVcQueue_pending (s : State) (l : Lane) (d : Die) (down : Bool) (c : VChannel) (ws : List Wire) : (s.setVcQueue l d down c ws).pending = s.pending := rfl

/-! ### `State.useFree` -/

@[simp] theorem State.useFree_variant (s : State) : (s.useFree).variant = s.variant := rfl
@[simp] theorem State.useFree_ns (s : State) : (s.useFree).ns = s.ns := rfl
@[simp] theorem State.useFree_regs (s : State) : (s.useFree).regs = s.regs := rfl
@[simp] theorem State.useFree_heldLo (s : State) : (s.useFree).heldLo = s.heldLo := rfl
@[simp] theorem State.useFree_lanes (s : State) : (s.useFree).lanes = s.lanes := rfl
@[simp] theorem State.useFree_voters (s : State) : (s.useFree).voters = s.voters := rfl
@[simp] theorem State.useFree_consumers (s : State) : (s.useFree).consumers = s.consumers := rfl
@[simp] theorem State.useFree_ports (s : State) : (s.useFree).ports = s.ports := rfl
@[simp] theorem State.useFree_links (s : State) : (s.useFree).links = s.links := rfl
@[simp] theorem State.useFree_wires (s : State) : (s.useFree).wires = s.wires := rfl
@[simp] theorem State.useFree_released (s : State) : (s.useFree).released = s.released := rfl
@[simp] theorem State.useFree_tcfg (s : State) : (s.useFree).tcfg = s.tcfg := rfl
@[simp] theorem State.useFree_rejoinQueue (s : State) : (s.useFree).rejoinQueue = s.rejoinQueue := rfl
@[simp] theorem State.useFree_rejoin (s : State) : (s.useFree).rejoin = s.rejoin := rfl
@[simp] theorem State.useFree_changes (s : State) : (s.useFree).changes = s.changes := rfl
@[simp] theorem State.useFree_echoNum (s : State) : (s.useFree).echoNum = s.echoNum := rfl
@[simp] theorem State.useFree_areas (s : State) : (s.useFree).areas = s.areas := rfl
@[simp] theorem State.useFree_field (s : State) : (s.useFree).field = s.field := rfl
@[simp] theorem State.useFree_mailboxes (s : State) : (s.useFree).mailboxes = s.mailboxes := rfl
@[simp] theorem State.useFree_lockTaken (s : State) : (s.useFree).lockTaken = s.lockTaken := rfl
@[simp] theorem State.useFree_mgmt (s : State) : (s.useFree).mgmt = s.mgmt := rfl
@[simp] theorem State.useFree_governors (s : State) : (s.useFree).governors = s.governors := rfl
@[simp] theorem State.useFree_ages (s : State) : (s.useFree).ages = s.ages := rfl
@[simp] theorem State.useFree_supply (s : State) : (s.useFree).supply = s.supply := rfl
@[simp] theorem State.useFree_views (s : State) : (s.useFree).views = s.views := rfl
@[simp] theorem State.useFree_log (s : State) : (s.useFree).log = s.log := rfl
@[simp] theorem State.useFree_absentLogged (s : State) : (s.useFree).absentLogged = s.absentLogged := rfl
@[simp] theorem State.useFree_pending (s : State) : (s.useFree).pending = s.pending := rfl

/-! ### `State.setFlood` -/

@[simp] theorem State.setFlood_variant (s : State) (src n : Nat) : (s.setFlood src n).variant = s.variant := rfl
@[simp] theorem State.setFlood_ns (s : State) (src n : Nat) : (s.setFlood src n).ns = s.ns := rfl
@[simp] theorem State.setFlood_regs (s : State) (src n : Nat) : (s.setFlood src n).regs = s.regs := rfl
@[simp] theorem State.setFlood_heldLo (s : State) (src n : Nat) : (s.setFlood src n).heldLo = s.heldLo := rfl
@[simp] theorem State.setFlood_lanes (s : State) (src n : Nat) : (s.setFlood src n).lanes = s.lanes := rfl
@[simp] theorem State.setFlood_voters (s : State) (src n : Nat) : (s.setFlood src n).voters = s.voters := rfl
@[simp] theorem State.setFlood_consumers (s : State) (src n : Nat) : (s.setFlood src n).consumers = s.consumers := rfl
@[simp] theorem State.setFlood_ports (s : State) (src n : Nat) : (s.setFlood src n).ports = s.ports := rfl
@[simp] theorem State.setFlood_links (s : State) (src n : Nat) : (s.setFlood src n).links = s.links := rfl
@[simp] theorem State.setFlood_wires (s : State) (src n : Nat) : (s.setFlood src n).wires = s.wires := rfl
@[simp] theorem State.setFlood_released (s : State) (src n : Nat) : (s.setFlood src n).released = s.released := rfl
@[simp] theorem State.setFlood_tcfg (s : State) (src n : Nat) : (s.setFlood src n).tcfg = s.tcfg := rfl
@[simp] theorem State.setFlood_rejoinQueue (s : State) (src n : Nat) : (s.setFlood src n).rejoinQueue = s.rejoinQueue := rfl
@[simp] theorem State.setFlood_rejoin (s : State) (src n : Nat) : (s.setFlood src n).rejoin = s.rejoin := rfl
@[simp] theorem State.setFlood_changes (s : State) (src n : Nat) : (s.setFlood src n).changes = s.changes := rfl
@[simp] theorem State.setFlood_echoNum (s : State) (src n : Nat) : (s.setFlood src n).echoNum = s.echoNum := rfl
@[simp] theorem State.setFlood_areas (s : State) (src n : Nat) : (s.setFlood src n).areas = s.areas := rfl
@[simp] theorem State.setFlood_field (s : State) (src n : Nat) : (s.setFlood src n).field = s.field := rfl
@[simp] theorem State.setFlood_mailboxes (s : State) (src n : Nat) : (s.setFlood src n).mailboxes = s.mailboxes := rfl
@[simp] theorem State.setFlood_lockTaken (s : State) (src n : Nat) : (s.setFlood src n).lockTaken = s.lockTaken := rfl
@[simp] theorem State.setFlood_mgmt (s : State) (src n : Nat) : (s.setFlood src n).mgmt = s.mgmt := rfl
@[simp] theorem State.setFlood_governors (s : State) (src n : Nat) : (s.setFlood src n).governors = s.governors := rfl
@[simp] theorem State.setFlood_ages (s : State) (src n : Nat) : (s.setFlood src n).ages = s.ages := rfl
@[simp] theorem State.setFlood_supply (s : State) (src n : Nat) : (s.setFlood src n).supply = s.supply := rfl
@[simp] theorem State.setFlood_views (s : State) (src n : Nat) : (s.setFlood src n).views = s.views := rfl
@[simp] theorem State.setFlood_absentLogged (s : State) (src n : Nat) : (s.setFlood src n).absentLogged = s.absentLogged := rfl
@[simp] theorem State.setFlood_free (s : State) (src n : Nat) : (s.setFlood src n).free = s.free := rfl
@[simp] theorem State.setFlood_pending (s : State) (src n : Nat) : (s.setFlood src n).pending = s.pending := rfl

/-! ### `State.appendLog` -/

@[simp] theorem State.appendLog_variant (s : State) (code : LogCode) (src : Nat) (k : Option Strand) (arg : List Nat) : (s.appendLog code src k arg).variant = s.variant := rfl
@[simp] theorem State.appendLog_ns (s : State) (code : LogCode) (src : Nat) (k : Option Strand) (arg : List Nat) : (s.appendLog code src k arg).ns = s.ns := rfl
@[simp] theorem State.appendLog_regs (s : State) (code : LogCode) (src : Nat) (k : Option Strand) (arg : List Nat) : (s.appendLog code src k arg).regs = s.regs := rfl
@[simp] theorem State.appendLog_heldLo (s : State) (code : LogCode) (src : Nat) (k : Option Strand) (arg : List Nat) : (s.appendLog code src k arg).heldLo = s.heldLo := rfl
@[simp] theorem State.appendLog_lanes (s : State) (code : LogCode) (src : Nat) (k : Option Strand) (arg : List Nat) : (s.appendLog code src k arg).lanes = s.lanes := rfl
@[simp] theorem State.appendLog_voters (s : State) (code : LogCode) (src : Nat) (k : Option Strand) (arg : List Nat) : (s.appendLog code src k arg).voters = s.voters := rfl
@[simp] theorem State.appendLog_consumers (s : State) (code : LogCode) (src : Nat) (k : Option Strand) (arg : List Nat) : (s.appendLog code src k arg).consumers = s.consumers := rfl
@[simp] theorem State.appendLog_ports (s : State) (code : LogCode) (src : Nat) (k : Option Strand) (arg : List Nat) : (s.appendLog code src k arg).ports = s.ports := rfl
@[simp] theorem State.appendLog_links (s : State) (code : LogCode) (src : Nat) (k : Option Strand) (arg : List Nat) : (s.appendLog code src k arg).links = s.links := rfl
@[simp] theorem State.appendLog_wires (s : State) (code : LogCode) (src : Nat) (k : Option Strand) (arg : List Nat) : (s.appendLog code src k arg).wires = s.wires := rfl
@[simp] theorem State.appendLog_released (s : State) (code : LogCode) (src : Nat) (k : Option Strand) (arg : List Nat) : (s.appendLog code src k arg).released = s.released := rfl
@[simp] theorem State.appendLog_tcfg (s : State) (code : LogCode) (src : Nat) (k : Option Strand) (arg : List Nat) : (s.appendLog code src k arg).tcfg = s.tcfg := rfl
@[simp] theorem State.appendLog_rejoinQueue (s : State) (code : LogCode) (src : Nat) (k : Option Strand) (arg : List Nat) : (s.appendLog code src k arg).rejoinQueue = s.rejoinQueue := rfl
@[simp] theorem State.appendLog_rejoin (s : State) (code : LogCode) (src : Nat) (k : Option Strand) (arg : List Nat) : (s.appendLog code src k arg).rejoin = s.rejoin := rfl
@[simp] theorem State.appendLog_changes (s : State) (code : LogCode) (src : Nat) (k : Option Strand) (arg : List Nat) : (s.appendLog code src k arg).changes = s.changes := rfl
@[simp] theorem State.appendLog_echoNum (s : State) (code : LogCode) (src : Nat) (k : Option Strand) (arg : List Nat) : (s.appendLog code src k arg).echoNum = s.echoNum := rfl
@[simp] theorem State.appendLog_areas (s : State) (code : LogCode) (src : Nat) (k : Option Strand) (arg : List Nat) : (s.appendLog code src k arg).areas = s.areas := rfl
@[simp] theorem State.appendLog_field (s : State) (code : LogCode) (src : Nat) (k : Option Strand) (arg : List Nat) : (s.appendLog code src k arg).field = s.field := rfl
@[simp] theorem State.appendLog_mailboxes (s : State) (code : LogCode) (src : Nat) (k : Option Strand) (arg : List Nat) : (s.appendLog code src k arg).mailboxes = s.mailboxes := rfl
@[simp] theorem State.appendLog_lockTaken (s : State) (code : LogCode) (src : Nat) (k : Option Strand) (arg : List Nat) : (s.appendLog code src k arg).lockTaken = s.lockTaken := rfl
@[simp] theorem State.appendLog_mgmt (s : State) (code : LogCode) (src : Nat) (k : Option Strand) (arg : List Nat) : (s.appendLog code src k arg).mgmt = s.mgmt := rfl
@[simp] theorem State.appendLog_governors (s : State) (code : LogCode) (src : Nat) (k : Option Strand) (arg : List Nat) : (s.appendLog code src k arg).governors = s.governors := rfl
@[simp] theorem State.appendLog_ages (s : State) (code : LogCode) (src : Nat) (k : Option Strand) (arg : List Nat) : (s.appendLog code src k arg).ages = s.ages := rfl
@[simp] theorem State.appendLog_supply (s : State) (code : LogCode) (src : Nat) (k : Option Strand) (arg : List Nat) : (s.appendLog code src k arg).supply = s.supply := rfl
@[simp] theorem State.appendLog_views (s : State) (code : LogCode) (src : Nat) (k : Option Strand) (arg : List Nat) : (s.appendLog code src k arg).views = s.views := rfl
@[simp] theorem State.appendLog_absentLogged (s : State) (code : LogCode) (src : Nat) (k : Option Strand) (arg : List Nat) : (s.appendLog code src k arg).absentLogged = s.absentLogged := rfl
@[simp] theorem State.appendLog_free (s : State) (code : LogCode) (src : Nat) (k : Option Strand) (arg : List Nat) : (s.appendLog code src k arg).free = s.free := rfl
@[simp] theorem State.appendLog_pending (s : State) (code : LogCode) (src : Nat) (k : Option Strand) (arg : List Nat) : (s.appendLog code src k arg).pending = s.pending := rfl

/-! ### Messages: only the links and the wires change -/

theorem State.sendOne_eq (s : State) (w : Wire) : ∃ ls ws, s.sendOne w = { s with links := ls, wires := ws } := by
  unfold State.sendOne
  split
  exacts [⟨_, s.wires, rfl⟩, ⟨s.links, _, rfl⟩]

theorem State.send_eq (s : State) (ws : List Wire) : ∃ ls xs, s.send ws = { s with links := ls, wires := xs } := by
  unfold State.send
  induction ws generalizing s with
  | nil => exact ⟨s.links, s.wires, rfl⟩
  | cons w ws ih =>
    obtain ⟨ls, xs, h⟩ := s.sendOne_eq w
    obtain ⟨ls', xs', h'⟩ := ih (s.sendOne w)
    exact ⟨ls', xs', by rw [List.foldl_cons, h', h]⟩

theorem State.arrive_eq (s : State) (w : Wire) : ∃ ls ws, s.arrive w = { s with links := ls, wires := ws } := by
  unfold State.arrive State.countLanded
  split
  · dsimp only
    split
    exacts [⟨_, s.wires, rfl⟩, ⟨_, s.wires, rfl⟩]
  · exact ⟨s.links, _, rfl⟩

@[simp] theorem State.send_variant (s : State) (ws : List Wire) : (s.send ws).variant = s.variant := by obtain ⟨_, _, h⟩ := s.send_eq ws; rw [h]
@[simp] theorem State.send_ns (s : State) (ws : List Wire) : (s.send ws).ns = s.ns := by obtain ⟨_, _, h⟩ := s.send_eq ws; rw [h]
@[simp] theorem State.send_regs (s : State) (ws : List Wire) : (s.send ws).regs = s.regs := by obtain ⟨_, _, h⟩ := s.send_eq ws; rw [h]
@[simp] theorem State.send_heldLo (s : State) (ws : List Wire) : (s.send ws).heldLo = s.heldLo := by obtain ⟨_, _, h⟩ := s.send_eq ws; rw [h]
@[simp] theorem State.send_lanes (s : State) (ws : List Wire) : (s.send ws).lanes = s.lanes := by obtain ⟨_, _, h⟩ := s.send_eq ws; rw [h]
@[simp] theorem State.send_voters (s : State) (ws : List Wire) : (s.send ws).voters = s.voters := by obtain ⟨_, _, h⟩ := s.send_eq ws; rw [h]
@[simp] theorem State.send_consumers (s : State) (ws : List Wire) : (s.send ws).consumers = s.consumers := by obtain ⟨_, _, h⟩ := s.send_eq ws; rw [h]
@[simp] theorem State.send_ports (s : State) (ws : List Wire) : (s.send ws).ports = s.ports := by obtain ⟨_, _, h⟩ := s.send_eq ws; rw [h]
@[simp] theorem State.send_released (s : State) (ws : List Wire) : (s.send ws).released = s.released := by obtain ⟨_, _, h⟩ := s.send_eq ws; rw [h]
@[simp] theorem State.send_tcfg (s : State) (ws : List Wire) : (s.send ws).tcfg = s.tcfg := by obtain ⟨_, _, h⟩ := s.send_eq ws; rw [h]
@[simp] theorem State.send_rejoinQueue (s : State) (ws : List Wire) : (s.send ws).rejoinQueue = s.rejoinQueue := by obtain ⟨_, _, h⟩ := s.send_eq ws; rw [h]
@[simp] theorem State.send_rejoin (s : State) (ws : List Wire) : (s.send ws).rejoin = s.rejoin := by obtain ⟨_, _, h⟩ := s.send_eq ws; rw [h]
@[simp] theorem State.send_changes (s : State) (ws : List Wire) : (s.send ws).changes = s.changes := by obtain ⟨_, _, h⟩ := s.send_eq ws; rw [h]
@[simp] theorem State.send_echoNum (s : State) (ws : List Wire) : (s.send ws).echoNum = s.echoNum := by obtain ⟨_, _, h⟩ := s.send_eq ws; rw [h]
@[simp] theorem State.send_areas (s : State) (ws : List Wire) : (s.send ws).areas = s.areas := by obtain ⟨_, _, h⟩ := s.send_eq ws; rw [h]
@[simp] theorem State.send_field (s : State) (ws : List Wire) : (s.send ws).field = s.field := by obtain ⟨_, _, h⟩ := s.send_eq ws; rw [h]
@[simp] theorem State.send_mailboxes (s : State) (ws : List Wire) : (s.send ws).mailboxes = s.mailboxes := by obtain ⟨_, _, h⟩ := s.send_eq ws; rw [h]
@[simp] theorem State.send_lockTaken (s : State) (ws : List Wire) : (s.send ws).lockTaken = s.lockTaken := by obtain ⟨_, _, h⟩ := s.send_eq ws; rw [h]
@[simp] theorem State.send_mgmt (s : State) (ws : List Wire) : (s.send ws).mgmt = s.mgmt := by obtain ⟨_, _, h⟩ := s.send_eq ws; rw [h]
@[simp] theorem State.send_governors (s : State) (ws : List Wire) : (s.send ws).governors = s.governors := by obtain ⟨_, _, h⟩ := s.send_eq ws; rw [h]
@[simp] theorem State.send_ages (s : State) (ws : List Wire) : (s.send ws).ages = s.ages := by obtain ⟨_, _, h⟩ := s.send_eq ws; rw [h]
@[simp] theorem State.send_supply (s : State) (ws : List Wire) : (s.send ws).supply = s.supply := by obtain ⟨_, _, h⟩ := s.send_eq ws; rw [h]
@[simp] theorem State.send_views (s : State) (ws : List Wire) : (s.send ws).views = s.views := by obtain ⟨_, _, h⟩ := s.send_eq ws; rw [h]
@[simp] theorem State.send_log (s : State) (ws : List Wire) : (s.send ws).log = s.log := by obtain ⟨_, _, h⟩ := s.send_eq ws; rw [h]
@[simp] theorem State.send_absentLogged (s : State) (ws : List Wire) : (s.send ws).absentLogged = s.absentLogged := by obtain ⟨_, _, h⟩ := s.send_eq ws; rw [h]
@[simp] theorem State.send_free (s : State) (ws : List Wire) : (s.send ws).free = s.free := by obtain ⟨_, _, h⟩ := s.send_eq ws; rw [h]
@[simp] theorem State.send_pending (s : State) (ws : List Wire) : (s.send ws).pending = s.pending := by obtain ⟨_, _, h⟩ := s.send_eq ws; rw [h]

@[simp] theorem State.arrive_variant (s : State) (w : Wire) : (s.arrive w).variant = s.variant := by obtain ⟨_, _, h⟩ := s.arrive_eq w; rw [h]
@[simp] theorem State.arrive_ns (s : State) (w : Wire) : (s.arrive w).ns = s.ns := by obtain ⟨_, _, h⟩ := s.arrive_eq w; rw [h]
@[simp] theorem State.arrive_regs (s : State) (w : Wire) : (s.arrive w).regs = s.regs := by obtain ⟨_, _, h⟩ := s.arrive_eq w; rw [h]
@[simp] theorem State.arrive_heldLo (s : State) (w : Wire) : (s.arrive w).heldLo = s.heldLo := by obtain ⟨_, _, h⟩ := s.arrive_eq w; rw [h]
@[simp] theorem State.arrive_lanes (s : State) (w : Wire) : (s.arrive w).lanes = s.lanes := by obtain ⟨_, _, h⟩ := s.arrive_eq w; rw [h]
@[simp] theorem State.arrive_voters (s : State) (w : Wire) : (s.arrive w).voters = s.voters := by obtain ⟨_, _, h⟩ := s.arrive_eq w; rw [h]
@[simp] theorem State.arrive_consumers (s : State) (w : Wire) : (s.arrive w).consumers = s.consumers := by obtain ⟨_, _, h⟩ := s.arrive_eq w; rw [h]
@[simp] theorem State.arrive_ports (s : State) (w : Wire) : (s.arrive w).ports = s.ports := by obtain ⟨_, _, h⟩ := s.arrive_eq w; rw [h]
@[simp] theorem State.arrive_released (s : State) (w : Wire) : (s.arrive w).released = s.released := by obtain ⟨_, _, h⟩ := s.arrive_eq w; rw [h]
@[simp] theorem State.arrive_tcfg (s : State) (w : Wire) : (s.arrive w).tcfg = s.tcfg := by obtain ⟨_, _, h⟩ := s.arrive_eq w; rw [h]
@[simp] theorem State.arrive_rejoinQueue (s : State) (w : Wire) : (s.arrive w).rejoinQueue = s.rejoinQueue := by obtain ⟨_, _, h⟩ := s.arrive_eq w; rw [h]
@[simp] theorem State.arrive_rejoin (s : State) (w : Wire) : (s.arrive w).rejoin = s.rejoin := by obtain ⟨_, _, h⟩ := s.arrive_eq w; rw [h]
@[simp] theorem State.arrive_changes (s : State) (w : Wire) : (s.arrive w).changes = s.changes := by obtain ⟨_, _, h⟩ := s.arrive_eq w; rw [h]
@[simp] theorem State.arrive_echoNum (s : State) (w : Wire) : (s.arrive w).echoNum = s.echoNum := by obtain ⟨_, _, h⟩ := s.arrive_eq w; rw [h]
@[simp] theorem State.arrive_areas (s : State) (w : Wire) : (s.arrive w).areas = s.areas := by obtain ⟨_, _, h⟩ := s.arrive_eq w; rw [h]
@[simp] theorem State.arrive_field (s : State) (w : Wire) : (s.arrive w).field = s.field := by obtain ⟨_, _, h⟩ := s.arrive_eq w; rw [h]
@[simp] theorem State.arrive_mailboxes (s : State) (w : Wire) : (s.arrive w).mailboxes = s.mailboxes := by obtain ⟨_, _, h⟩ := s.arrive_eq w; rw [h]
@[simp] theorem State.arrive_lockTaken (s : State) (w : Wire) : (s.arrive w).lockTaken = s.lockTaken := by obtain ⟨_, _, h⟩ := s.arrive_eq w; rw [h]
@[simp] theorem State.arrive_mgmt (s : State) (w : Wire) : (s.arrive w).mgmt = s.mgmt := by obtain ⟨_, _, h⟩ := s.arrive_eq w; rw [h]
@[simp] theorem State.arrive_governors (s : State) (w : Wire) : (s.arrive w).governors = s.governors := by obtain ⟨_, _, h⟩ := s.arrive_eq w; rw [h]
@[simp] theorem State.arrive_ages (s : State) (w : Wire) : (s.arrive w).ages = s.ages := by obtain ⟨_, _, h⟩ := s.arrive_eq w; rw [h]
@[simp] theorem State.arrive_supply (s : State) (w : Wire) : (s.arrive w).supply = s.supply := by obtain ⟨_, _, h⟩ := s.arrive_eq w; rw [h]
@[simp] theorem State.arrive_views (s : State) (w : Wire) : (s.arrive w).views = s.views := by obtain ⟨_, _, h⟩ := s.arrive_eq w; rw [h]
@[simp] theorem State.arrive_log (s : State) (w : Wire) : (s.arrive w).log = s.log := by obtain ⟨_, _, h⟩ := s.arrive_eq w; rw [h]
@[simp] theorem State.arrive_absentLogged (s : State) (w : Wire) : (s.arrive w).absentLogged = s.absentLogged := by obtain ⟨_, _, h⟩ := s.arrive_eq w; rw [h]
@[simp] theorem State.arrive_free (s : State) (w : Wire) : (s.arrive w).free = s.free := by obtain ⟨_, _, h⟩ := s.arrive_eq w; rw [h]
@[simp] theorem State.arrive_pending (s : State) (w : Wire) : (s.arrive w).pending = s.pending := by obtain ⟨_, _, h⟩ := s.arrive_eq w; rw [h]

end Sys2Proof.Machine
end

