-- ==== Sys2Proof/Laws/Ops.lean ====
section
/-! SUPPORT. What each shared operation can do: what is read after it, and which fields of the state it may change. -/

namespace Sys2Proof.Machine

/-! ### Containers -/

theorem Tri.get_set {α : Type} (t : Tri α) (i j : Lane) (x : α) : (t.set i x).get j = if j = i then x else t.get j := by
  cases i <;> cases j <;> rfl

theorem Quad.get_set {α : Type} (t : Quad α) (i j : Strand) (x : α) :
    (t.set i x).get j = if j = i then x else t.get j := by
  cases i <;> cases j <;> rfl

theorem Duo.get_set {α : Type} (t : Duo α) (i j : PDie) (x : α) : (t.set i x).get j = if j = i then x else t.get j := by
  cases i <;> cases j <;> rfl

theorem Four.get_set {α : Type} (t : Four α) (i j : Die) (x : α) : (t.set i x).get j = if j = i then x else t.get j := by
  cases i <;> cases j <;> rfl

theorem Seven.get_set {α : Type} (t : Seven α) (i j : RUnit) (x : α) :
    (t.set i x).get j = if j = i then x else t.get j := by
  cases i <;> cases j <;> rfl

/-! ### Registers -/

/-- A register after a write. -/
theorem reg_setReg (s : State) (u u' : RUnit) (off off' : Nat) (v : Word) :
    (s.setReg u off v).reg u' off' = if u' = u ∧ off' = off then v else s.reg u' off' := by
  simp only [State.reg, State.setReg, Seven.get_set]
  by_cases hu : u' = u
  · subst hu; simp [cellGet_cellSet]
  · simp [hu]

@[simp] theorem reg_setReg_same (s : State) (u : RUnit) (off : Nat) (v : Word) : (s.setReg u off v).reg u off = v := by
  simp [reg_setReg]

theorem reg_setReg_other (s : State) {u u' : RUnit} {off off' : Nat} (v : Word) (h : u' ≠ u ∨ off' ≠ off) :
    (s.setReg u off v).reg u' off' = s.reg u' off' := by
  rw [reg_setReg, if_neg (by rcases h with h | h <;> simp [h])]

/-- A register of a state depends on the register spaces alone. -/
theorem reg_of_regs {s t : State} (h : t.regs = s.regs) (u : RUnit) (off : Nat) : t.reg u off = s.reg u off := by
  simp [State.reg, h]

theorem fld_setFld_same (s : State) (u : RUnit) (off hi lo v : Nat) (h : hi < 32) :
    (s.setFld u off hi lo v).fld u off hi lo = v % 2 ^ (hi + 1 - lo) := by
  simp [State.fld, State.setFld, fieldOf_withField, h]

theorem fld_setFld_other (s : State) (u : RUnit) (off : Nat) {hi lo hi' lo' : Nat} (v : Nat)
    (h : hi' < lo ∨ hi < lo') : (s.setFld u off hi lo v).fld u off hi' lo' = s.fld u off hi' lo' := by
  simp [State.fld, State.setFld, fieldOf_withField_other _ v h]

theorem reg_setFld_other (s : State) {u u' : RUnit} {off off' : Nat} (hi lo v : Nat) (h : u' ≠ u ∨ off' ≠ off) :
    (s.setFld u off hi lo v).reg u' off' = s.reg u' off' := reg_setReg_other _ _ h

theorem flag_setFlag_same (s : State) (u : RUnit) (off i : Nat) (b : Bool) (h : i < 32) :
    (s.setFlag u off i b).flag u off i = b := by simp [State.flag, State.setFlag, h]

theorem flag_setFlag_other (s : State) (u : RUnit) (off : Nat) {i j : Nat} (b : Bool) (h : j ≠ i) :
    (s.setFlag u off i b).flag u off j = s.flag u off j := by
  simp [State.flag, State.setFlag, bitOf_withBit_other _ b h]

theorem reg_setFlag_other (s : State) {u u' : RUnit} {off off' : Nat} (i : Nat) (b : Bool) (h : u' ≠ u ∨ off' ≠ off) :
    (s.setFlag u off i b).reg u' off' = s.reg u' off' := reg_setReg_other _ _ h

/-- A counter after one more event: it saturates at its largest value. -/
theorem fld_bump (s : State) (u : RUnit) (off hi lo : Nat) (h : hi < 32) :
    (s.bump u off hi lo).fld u off hi lo = min (s.fld u off hi lo + 1) (2 ^ (hi + 1 - lo) - 1) := by
  have hl := satAdd_lt (hi + 1 - lo) (s.fld u off hi lo) 1
  rw [State.bump, State.bumpBy, fld_setFld_same _ _ _ _ _ _ h, Nat.mod_eq_of_lt hl, satAdd]

theorem reg_bump_other (s : State) {u u' : RUnit} {off off' : Nat} (hi lo : Nat) (h : u' ≠ u ∨ off' ≠ off) :
    (s.bump u off hi lo).reg u' off' = s.reg u' off' := reg_setReg_other _ _ h

/-! ### Parts -/

theorem lane_setLane (s : State) (l j : Lane) (x : LaneState) :
    (s.setLane l x).lane j = if j = l then x else s.lane j := Tri.get_set ..

theorem consumer_setConsumer (s : State) (d e : Die) (x : Consumer) :
    (s.setConsumer d x).consumer e = if e = d then x else s.consumer e := Four.get_set ..

theorem port_setPort (s : State) (p q : PDie) (x : PortDie) :
    (s.setPort p x).port q = if q = p then x else s.port q := Duo.get_set ..

theorem voter_setVoter (s : State) (d e : Die) (k j : Strand) (v : Voter) :
    (s.setVoter d k v).voter e j = if e = d ∧ j = k then v else s.voter e j := by
  simp only [State.voter, State.setVoter, Four.get_set]
  by_cases hd : e = d
  · subst hd; simp [Quad.get_set]
  · simp [hd]

theorem replica_setReplica (s : State) (l m : Lane) (k j : Strand) (r : Replica) :
    (s.setReplica l k r).replica m j = if m = l ∧ j = k then r else s.replica m j := by
  simp only [State.replica, State.setReplica, lane_setLane]
  by_cases h : m = l
  · subst h; simp [Quad.get_set]
  · simp [h]

theorem echo_setEcho (s : State) (l m : Lane) (k j : Strand) (e : Echo) :
    (s.setEcho l k e).echo m j = if m = l ∧ j = k then e else s.echo m j := by
  simp only [State.echo, State.setEcho, lane_setLane]
  by_cases h : m = l
  · subst h; simp [Quad.get_set]
  · simp [h]

/-! ### Which fields a shared operation may change -/

theorem logEv_frame (s : State) (src : Nat) (k : Option Strand) (code : LogCode) (arg : List Nat) :
    ∃ lg, s.logEv src k code arg = { s with log := lg } := by
  simp only [State.logEv]
  (repeat' split) <;> exact ⟨_, rfl⟩

theorem ignored_frame (s : State) (u : RUnit) (off : Nat) (m : Master) :
    ∃ lg, s.ignored u off m = { s with log := lg } := logEv_frame ..

theorem logRsvd_frame (s : State) (u : RUnit) (off : Nat) (m : Master) :
    ∃ lg, s.logRsvd u off m = { s with log := lg } := logEv_frame ..

theorem raise_frame (s : State) (d : Die) (k : Strand) (v : Nat) :
    ∃ cs ls ws, s.raise d k v = { s with consumers := cs, links := ls, wires := ws } := by
  unfold State.raise
  split
  · obtain ⟨ls, ws, h⟩ := (s.countOcc d k).send_eq ((s.linked d).map fun l => .occurrence l d k (s.nextOcc d k v))
    exact ⟨_, ls, ws, h⟩
  · exact ⟨_, _, _, rfl⟩

theorem raiseAll_frame (s : State) (d : Die) (v : Nat) :
    ∃ cs ls ws, s.raiseAll d v = { s with consumers := cs, links := ls, wires := ws } := by
  have h : ∀ (ks : List Strand) (s : State), ∃ cs ls ws,
      ks.foldl (fun t k => t.raise d k v) s = { s with consumers := cs, links := ls, wires := ws } := by
    intro ks
    induction ks with
    | nil => exact fun s => ⟨_, _, _, rfl⟩
    | cons k ks ih =>
      intro s
      obtain ⟨cs, ls, ws, h⟩ := raise_frame s d k v
      obtain ⟨cs', ls', ws', h'⟩ := ih (s.raise d k v)
      exact ⟨cs', ls', ws', by rw [List.foldl_cons, h', h]⟩
  exact h Strand.list s

theorem raiseP_frame (s : State) (p : PDie) (k : Strand) (off : Nat) :
    ∃ cs ls ws, s.raiseP p k off = { s with consumers := cs, links := ls, wires := ws } := raise_frame ..

theorem raisePAll_frame (s : State) (p : PDie) (off : Nat) :
    ∃ cs ls ws, s.raisePAll p off = { s with consumers := cs, links := ls, wires := ws } := raiseAll_frame ..

/-- A posted-write failure touches the die's records, its overflow count, and what raising its vector touches. -/
theorem pwFail_frame (s : State) (d : Die) (k : Option Strand) (r : WerrRec) :
    ∃ rg cs ls ws, s.pwFail d k r = { s with regs := rg, consumers := cs, links := ls, wires := ws } := by
  cases k with
  | none => simp only [State.pwFail]; split <;> exact ⟨_, _, _, _, rfl⟩
  | some k =>
    simp only [State.pwFail]
    split
    · obtain ⟨cs, ls, ws, h⟩ := raise_frame (s.setConsumer d { s.consumer d with werr :=
        { (s.consumer d).werr with strand := (s.consumer d).werr.strand.set k ((s.consumer d).werr.strand.get k ++ [r]) } })
        d k (pwFailVector d)
      exact ⟨_, cs, ls, ws, by rw [h]; rfl⟩
    · obtain ⟨cs, ls, ws, h⟩ := raise_frame (s.bump d.unit (Reg.pdWerrOvf k.idx) 7 0) d k (pwFailVector d)
      exact ⟨_, cs, ls, ws, by rw [h]; rfl⟩

theorem jlink_setJLink (s : State) (l m : Lane) (d e : Die) (x : JLink) :
    (s.setJLink l d x).jlink m e = if m = l ∧ e = d then x else s.jlink m e := by
  simp only [State.jlink, State.setJLink, Tri.get_set]
  by_cases h : m = l
  · subst h; simp [Four.get_set]
  · simp [h]

/-- An occurrence joins the posted channel of its own link alone. -/
theorem vcQueue_sendOne (s : State) (l m : Lane) (d : Die) (k : Strand) (o : Occ) :
    (s.sendOne (.occurrence m d k o)).vcQueue l d true .posted =
      s.vcQueue l d true .posted ++ (if m = l then [.occurrence m d k o] else []) := by
  by_cases h : m = l
  · subst h
    simp [State.sendOne, Wire.route, State.setVcQueue, State.vcQueue, jlink_setJLink, VQueues.get, VQueues.set]
  · have h' : ¬ l = m := fun e => h e.symm
    simp [State.sendOne, Wire.route, State.setVcQueue, State.vcQueue, jlink_setJLink, h, h']

theorem vcQueue_send (s : State) (l : Lane) (d : Die) (k : Strand) (o : Occ) (ms : List Lane) (hm : ms.Nodup) :
    (s.send (ms.map fun m => .occurrence m d k o)).vcQueue l d true .posted =
      s.vcQueue l d true .posted ++ (if l ∈ ms then [.occurrence l d k o] else []) := by
  induction ms generalizing s with
  | nil => simp [State.send]
  | cons m ms ih =>
    have hc := List.nodup_cons.1 hm
    have := ih (s.sendOne (.occurrence m d k o)) hc.2
    rw [vcQueue_sendOne] at this
    simp only [State.send, List.map_cons, List.foldl_cons] at this ⊢
    rw [this]
    by_cases h : m = l
    · subst h; simp [hc.1]
    · have h' : ¬ l = m := fun e => h e.symm
      simp [h, h']

/-- A vector that a running die raises reaches every lane whose link works, with the strand's next number. -/
theorem raise_sends (s : State) (d : Die) (k : Strand) (v : Nat) (l : Lane)
    (h : (s.consumer d).running = true ∧ s.vectorFitted v = true ∧ s.dieFitted d = true) :
    (s.raise d k v).vcQueue l d true .posted =
      s.vcQueue l d true .posted ++ (if l ∈ s.linked d then [.occurrence l d k (s.nextOcc d k v)] else []) := by
  have hn : (s.linked d).Nodup := List.Nodup.filter _ (by decide)
  simp only [State.raise, h, Bool.and_self, if_true]
  exact vcQueue_send (s.countOcc d k) l d k _ _ hn

/-- What the lane's memory holds after a store. -/
theorem laneStore_mem (s : State) (l j : Lane) (a : Nat) (bs : List Byte) (i : Nat) :
    cellGet ((s.laneStore l a bs).lane j).mem i =
      if h : j = l ∧ a ≤ i ∧ i < a + bs.length then bs[i - a]'(by omega) else cellGet (s.lane j).mem i := by
  rw [State.laneStore, lane_setLane]
  by_cases hj : j = l
  · subst hj; simp [cellGet_memWrite]
  · simp [hj]

end Sys2Proof.Machine
end

