-- ==== Sys2Proof/WellFormed.lean ====
section
/-! DEFINITION. Well-formed commands: those whose operands lie in the ranges that the manual gives them. -/

namespace Sys2Proof

/-- A register access lies in a 256 MiB window and in one doubleword (R90, R446). -/
def accessWf (off size : Nat) : Bool :=
  decide (1 ≤ size) && decide (off % 8 + size ≤ 8) && decide (off + size ≤ 0x10000000)

/-- A beat: an aligned offset in its window, some byte enabled, and no data in a read request (R90). -/
def beatWf (b : Beat) : Bool :=
  decide (b.addr % 8 = 0) && decide (b.addr < 0x10000000) && b.be != 0 && (!b.isRead || b.data == 0)

/-- A publication names a lane and lists as many occurrences as it counts, at most 32 (R48). -/
def publicationWf (p : Publication) : Bool :=
  decide (p.lane.toNat < 3) && decide (p.occ.length = p.nOcc.toNat) && decide (p.occ.length ≤ 32)

/-- A broadcast write carries some bytes, at most a fetch burst of 4 KiB (R104, R107). -/
def broadcastWf (w : Broadcast) : Bool := decide (1 ≤ w.bytes.length) && decide (w.bytes.length ≤ 4096)

/-- A strand-queue message holds 1 to 16 words (R69). -/
def sqMsgWf (m : SqMsg) : Bool := decide (1 ≤ m.words.length) && decide (m.words.length ≤ 16)

/-- A CAN frame has one of the lengths of CAN FD. -/
def canWf (f : CanFrame) : Bool :=
  decide (f.data.length = if f.rtr then 0 else f.dlen.toNat) && (f.ide || decide (f.id.toNat < 2048)) &&
    [0, 1, 2, 3, 4, 5, 6, 7, 8, 12, 16, 20, 24, 32, 48, 64].contains f.dlen.toNat && (f.fdf || decide (f.dlen.toNat ≤ 8))

/-- What one instruction touches. -/
def kcOpWf : KcOp → Bool
  | .load _ n => decide (1 ≤ n)
  | .store _ bs => decide (1 ≤ bs.length)
  | .mpuWrite i _ _ _ _ _ => decide (9 ≤ i) && decide (i ≤ 15)
  | _ => true

/-- The end of a reception: its frame is a legal one (R313). -/
def canRxWf : CanRxEnd → Bool
  | .good f _ _ => canWf f
  | .error _ _ _ => true

/-- One value for each of the steps 0 to 8 (R156). -/
def stepsWf {α : Type} (xs : Tri (List α)) : Bool := [xs.a, xs.b, xs.c].all fun x => decide (x.length = 9)

/-- A value for the step in force: a step, and of another lane than the receiver where it is a lane's GOV_LIMIT. -/
def paceWf (l : Lane) : PaceValue → Bool
  | .limit x n => x != l && decide (n ≤ 8)
  | .plan _ n => decide (n ≤ 8)
  | .ceiling _ n => decide (n ≤ 8)

/-- The sensors of R410: a lane's 12 replicas or a port die's 4, 4 ring oscillators and 4 temperatures. -/
def sensorsWf (n : Nat) (r : GovReading) : Bool :=
  decide (r.replicas.length = n) && decide (r.oscillators.length = 4) && decide (r.temps.length = 4)

/-- The command's operands lie in their ranges. -/
def Instr.wf : Instr → Bool
  | .genericRegisterWrite _ _ w => accessWf w.off w.size
  | .rcRead _ _ off size => accessWf off size
  | .absentUnitAccess _ _ _ size _ => decide (1 ≤ size)
  | .commitAbortedByReset _ => true
  | .powerGood => true
  | .boot i => stepsWf i.slackAt && stepsWf i.predicted
  | .wdogRestart => true
  | .refClockLost _ => true
  | .flitReplay _ => true
  | .crawlwayLinkFailed l o => l != o
  | .linkFail _ _ => true
  | .echoTimeout _ _ _ => true
  | .kc64Instruction _ _ op _ => kcOpWf op
  | .waitForEvent _ _ => true
  | .idleAdvance _ _ => true
  | .eventPoint _ _ => true
  | .agreedSetApply _ _ => true
  | .strandTimerExpire _ _ t => decide (t < 4)
  | .publicationReceive l o p => publicationWf p && l != o
  | .pairClaimReceive _ _ => true
  | .occurrenceLatch _ _ _ _ => true
  | .evSolo _ _ _ => true
  | .fstaleTimeout _ => true
  | .fieldTripleReceive _ _ => true
  | .starveTimeout _ _ => true
  | .starveClaimReceive _ _ _ => true
  | .lateClaim _ _ _ => true
  | .lateClaimReceive _ _ => true
  | .sqSend _ _ _ => true
  | .sqCopyArrive _ a b m => sqMsgWf m && a != b
  | .sqRxpop _ _ _ => true
  | .epochMark _ _ => true
  | .swEventSet _ _ _ => true
  | .evPendClear _ _ n _ => decide (n < 8)
  | .tcfgCommitGo _ _ => true
  | .tcfgGoTimeout _ => true
  | .beatSend _ _ => true
  | .beatArrive _ _ b _ => beatWf b
  | .voterSkewTimeout _ _ _ => true
  | .beatRelease _ _ _ => true
  | .readOncePerform _ _ _ => true
  | .rdTimeout _ _ => true
  | .challengeBeatArrive _ _ _ _ => true
  | .exclusionNoticeReceive _ _ _ _ => true
  | .splitNoticeReceive _ _ _ => true
  | .fetchCopyArrive _ _ _ _ _ => true
  | .fetchSkewTimeout _ _ _ => true
  | .broadcastWriteLand _ w _ => broadcastWf w
  | .scrubHashDone _ _ => true
  | .scrubCompare _ => true
  | .restart _ _ _ => true
  | .rejoin _ _ => true
  | .abandon _ => true
  | .autoRejoinRequest _ _ => true
  | .rejoinStart _ => true
  | .copyPassEnd => true
  | .rejoinHold => true
  | .holdAck _ => true
  | .holdTimeout => true
  | .joinNotice => true
  | .stallOver => true
  | .laneRetire _ _ => true
  | .faultLineAssert _ _ => true
  | .memoryUe _ _ _ => true
  | .patrolRead _ _ a => decide (a.toNat % 64 = 0)
  | .debugAttach _ _ => true
  | .debugRequest _ _ _ => true
  | .dbgEnChange _ => true
  | .portLinkChange _ _ _ => true
  | .cycleStart _ => true
  | .cycleEndSync _ => true
  | .holdoverExpire _ => true
  | .ownFrameSend _ slot _ => decide (slot < 1024)
  | .frameForward _ _ _ _ _ => true
  | .frameReceive _ _ _ _ _ => true
  | .pathDropExpire _ _ => true
  | .modeRequest _ _ _ => true
  | .modeReqReceive _ _ => true
  | .modeExpired _ => true
  | .listenTimeout _ => true
  | .backoffExpire _ => true
  | .idConflictClear _ => true
  | .inaugRecordExpire _ => true
  | .inaugViewStable _ => true
  | .linkDelaySend _ => true
  | .linkDelayReceive _ _ _ _ => true
  | .linkDelayUpdate _ _ => true
  | .linkDelayStale _ _ => true
  | .ttCommitGo _ => true
  | .guardCommitReply _ => true
  | .guardTimeout _ => true
  | .ttCommitTakeEffect _ => true
  | .guardCommitCheck _ => true
  | .guardFrameTap _ _ _ _ _ => true
  | .guardCycleEnd _ => true
  | .guardListenTimeout _ => true
  | .guardHoldExpire _ => true
  | .guardTxAttempt _ _ => true
  | .guardLengthLimit _ _ _ => true
  | .guardReset _ => true
  | .guardFenceCommand _ _ => true
  | .tsqPop _ _ _ => true
  | .triggerFire _ t => decide (t < 16)
  | .triggerWrite _ _ w => accessWf w.off w.size
  | .captureEdge _ c _ => decide (c < 8)
  | .dmaEnable _ _ ch => decide (ch < 28)
  | .dmaDisable _ _ ch => decide (ch < 28)
  | .resume _ _ ch => decide (ch < 28)
  | .dmaDoorbell _ _ ch _ => decide (ch < 28)
  | .descriptorStart _ ch => decide (ch < 28)
  | .descriptorComplete _ ch => decide (ch < 28)
  | .dmaBusTimeout _ _ _ _ => true
  | .quiesceRequest _ domain => decide (domain.toNat ≤ 3)
  | .quiesceAck _ => true
  | .quiesceTimeout _ => true
  | .quiesceRelease _ => true
  | .gwCommitGo _ => true
  | .gwCommitTakeEffect _ => true
  | .pduArrival _ pdu _ => decide (pdu < 2048)
  | .pduExchange _ pdu => decide (pdu < 2048)
  | .gwSwDataWrite _ _ w => accessWf w.off w.size
  | .gwSwPub _ _ _ => true
  | .gwEventProcess _ _ => true
  | .gwFreshnessScan _ e => decide (e < 4096)
  | .gwEcc _ _ _ _ => true
  | .rrRequest _ _ _ _ => true
  | .rrServe _ => true
  | .rrResponseReceive _ bs => decide (bs.length ≤ 1440)
  | .rrTimeout _ _ tag => decide (tag < 64)
  | .rrFree _ _ _ => true
  | .rrDiscard _ _ tag => decide (tag < 64)
  | .canModeWrite _ _ _ _ => true
  | .recover _ _ _ => true
  | .canRecoveryDone _ _ => true
  | .canFrameReceive _ _ e => canRxWf e
  | .canTransmit _ _ _ => true
  | .werrPop _ _ q => decide (q < 5)
  | .fieldSample raw => [raw.a, raw.b, raw.c].all fun r => decide (r.di.length = 32) && decide (r.doMv.length = 16)
  | .fdCommitGo => true
  | .channelSelfTest _ _ => true
  | .triggerAnnounce _ _ => true
  | .triggerFallback a => decide (a ≠ 0)
  | .outputUpdateInstant _ => true
  | .doCmdBeat _ _ _ _ => true
  | .outVerifyDelayExpire n => decide (n < 16)
  | .offPulseStart n => decide (n < 16)
  | .offPulseEnd n => decide (n < 16)
  | .overcurrent n => decide (n < 16)
  | .groupOvercurrent _ => true
  | .thermal n => decide (n < 16)
  | .doFaultClear _ _ => true
  | .fieldSupplyChange _ _ => true
  | .aiConversionStart _ raw => [raw.a, raw.b, raw.c].all fun r => decide (r.length = 8)
  | .aiDone => true
  | .cosPop _ => true
  | .leaseFrameReceive _ _ _ _ _ => true
  | .leaseCycleStart _ => true
  | .leaseCycleEnd _ => true
  | .leaseUnqualified _ => true
  | .armLease _ _ => true
  | .disarm _ _ => true
  | .release _ _ => true
  | .modHeldChange => true
  | .leaseStateSample _ => true
  | .mbTxword _ n _ _ => decide (n < 12)
  | .mbTxdb _ n _ _ => decide (n < 12)
  | .mbRxpop _ n _ _ => decide (n < 12)
  | .mbRxdbClear _ n _ _ => decide (n < 12)
  | .mbRxmaskWrite _ n _ _ => decide (n < 12)
  | .rxReset _ n _ => decide (n < 12)
  | .txReset _ n _ => decide (n < 12)
  | .smLockRead i readers => decide (i < 64) && decide (1 ≤ readers.length)
  | .smRelease _ i _ => decide (i < 64)
  | .smForce _ _ => true
  | .info _ => true
  | .nonce _ v => decide (v.length = 16)
  | .auth _ slot key sig => decide (slot < 256) && decide (key.length = 64) && decide (sig.length = 64)
  | .logRead _ _ count => decide (count < 256)
  | .identRead _ a => decide (a < 256)
  | .stageBegin _ len _ => decide (len < 2 ^ 32)
  | .stageData _ off bs => decide (off < 2 ^ 32) && decide (bs.length ≤ 1404)
  | .stageEnd _ => true
  | .arm _ _ => true
  | .cancel _ => true
  | .revert _ => true
  | .reboot _ => true
  | .debugAuth _ m => decide (m < 65536)
  | .debugRevoke _ => true
  | .updateRejected => true
  | .sessionExpire => true
  | .debugAuthExpire => true
  | .updActivated => true
  | .veto _ => true
  | .confirm _ => true
  | .successfulBoot => true
  | .supplyInterruption => true
  | .supplyReturn => true
  | .holdupExhausted => true
  | .governorReading _ r => sensorsWf 12 r
  | .govLimitRaise _ => true
  | .govLimitReceive l v => paceWf l v
  | .stepRaise _ => true
  | .dsCeilWrite _ _ _ => true
  | .dsPlanWrite _ _ => true
  | .plannerSample lanes ports => sensorsWf 12 lanes.a && sensorsWf 12 lanes.b && sensorsWf 12 lanes.c && sensorsWf 4 ports.p1 && sensorsWf 4 ports.p2
  | .plannerReplan predicted => stepsWf predicted
  | .marginDailyRecord => true
  | .refClockRestored _ => true
  | .networkTimeTimeout _ _ => true

end Sys2Proof
end

