-- ==== Sys2Proof/Laws/PerInstr.lean ====
section
/-! SUPPORT. The well-formedness of each command, as ranges of its operands: one lemma per command. -/

namespace Sys2Proof

/-- The ranges of a command's operands as a proposition; every operand of the commands not listed may take every value
of its type. -/
def Instr.InRange : Instr → Prop
  | .genericRegisterWrite _ _ w => accessWf w.off w.size = true
  | .rcRead _ _ off size => 1 ≤ size ∧ off % 8 + size ≤ 8 ∧ off + size ≤ 0x10000000
  | .absentUnitAccess _ _ _ size _ => 1 ≤ size
  | .boot i => i.slackAt.a.length = 9 ∧ i.slackAt.b.length = 9 ∧ i.slackAt.c.length = 9 ∧ i.predicted.a.length = 9 ∧ i.predicted.b.length = 9 ∧ i.predicted.c.length = 9
  | .crawlwayLinkFailed l o => l ≠ o
  | .kc64Instruction _ _ op _ => kcOpWf op = true
  | .strandTimerExpire _ _ t => t < 4
  | .publicationReceive l o p => publicationWf p = true ∧ l ≠ o
  | .sqCopyArrive _ a b m => (1 ≤ m.words.length ∧ m.words.length ≤ 16) ∧ a ≠ b
  | .evPendClear _ _ n _ => n < 8
  | .beatArrive _ _ b _ => beatWf b = true
  | .broadcastWriteLand _ w _ => 1 ≤ w.bytes.length ∧ w.bytes.length ≤ 4096
  | .patrolRead _ _ a => a.toNat % 64 = 0
  | .ownFrameSend _ slot _ => slot < 1024
  | .triggerFire _ t => t < 16
  | .triggerWrite _ _ w => accessWf w.off w.size = true
  | .captureEdge _ c _ => c < 8
  | .dmaEnable _ _ ch => ch < 28
  | .dmaDisable _ _ ch => ch < 28
  | .resume _ _ ch => ch < 28
  | .dmaDoorbell _ _ ch _ => ch < 28
  | .descriptorStart _ ch => ch < 28
  | .descriptorComplete _ ch => ch < 28
  | .quiesceRequest _ domain => domain.toNat ≤ 3
  | .pduArrival _ pdu _ => pdu < 2048
  | .pduExchange _ pdu => pdu < 2048
  | .gwSwDataWrite _ _ w => accessWf w.off w.size = true
  | .gwFreshnessScan _ e => e < 4096
  | .rrResponseReceive _ bs => bs.length ≤ 1440
  | .rrTimeout _ _ tag => tag < 64
  | .rrDiscard _ _ tag => tag < 64
  | .canFrameReceive _ _ e => canRxWf e = true
  | .werrPop _ _ q => q < 5
  | .fieldSample raw => ∀ r ∈ [raw.a, raw.b, raw.c], r.di.length = 32 ∧ r.doMv.length = 16
  | .triggerFallback a => a ≠ 0
  | .outVerifyDelayExpire n => n < 16
  | .offPulseStart n => n < 16
  | .offPulseEnd n => n < 16
  | .overcurrent n => n < 16
  | .thermal n => n < 16
  | .aiConversionStart _ raw => ∀ r ∈ [raw.a, raw.b, raw.c], r.length = 8
  | .mbTxword _ n _ _ => n < 12
  | .mbTxdb _ n _ _ => n < 12
  | .mbRxpop _ n _ _ => n < 12
  | .mbRxdbClear _ n _ _ => n < 12
  | .mbRxmaskWrite _ n _ _ => n < 12
  | .rxReset _ n _ => n < 12
  | .txReset _ n _ => n < 12
  | .smLockRead i readers => i < 64 ∧ 1 ≤ readers.length
  | .smRelease _ i _ => i < 64
  | .nonce _ v => v.length = 16
  | .auth _ slot key sig => (slot < 256 ∧ key.length = 64) ∧ sig.length = 64
  | .logRead _ _ count => count < 256
  | .identRead _ a => a < 256
  | .stageBegin _ len _ => len < 2 ^ 32
  | .stageData _ off bs => off < 2 ^ 32 ∧ bs.length ≤ 1404
  | .debugAuth _ m => m < 65536
  | .governorReading _ r => sensorsWf 12 r = true
  | .plannerSample x y => (((sensorsWf 12 x.a = true ∧ sensorsWf 12 x.b = true) ∧ sensorsWf 12 x.c = true) ∧ sensorsWf 4 y.p1 = true) ∧ sensorsWf 4 y.p2 = true
  | .govLimitReceive l v => paceWf l v = true
  | .plannerReplan x => x.a.length = 9 ∧ x.b.length = 9 ∧ x.c.length = 9
  | _ => True

end Sys2Proof

namespace Sys2Proof.Laws.WellFormed

/-- The check of a command accepts exactly the operands in range. -/
def Statement (i : Instr) : Prop := i.wf = true ↔ i.InRange

/-- The two agree on every command. -/
theorem statement_of_cases (i : Instr) : Statement i := by
  cases i <;> simp [Statement, Instr.wf, Instr.InRange, accessWf, sqMsgWf, broadcastWf, stepsWf, and_assoc]

theorem genericRegisterWrite : ∀ x0 x1 x2, Statement (.genericRegisterWrite x0 x1 x2) :=
  fun _ _ _ => statement_of_cases _
theorem rcRead : ∀ x0 x1 x2 x3, Statement (.rcRead x0 x1 x2 x3) :=
  fun _ _ _ _ => statement_of_cases _
theorem absentUnitAccess : ∀ x0 x1 x2 x3 x4, Statement (.absentUnitAccess x0 x1 x2 x3 x4) :=
  fun _ _ _ _ _ => statement_of_cases _
theorem commitAbortedByReset : ∀ x0, Statement (.commitAbortedByReset x0) :=
  fun _ => statement_of_cases _
theorem powerGood : Statement .powerGood :=
  statement_of_cases _
theorem boot : ∀ x0, Statement (.boot x0) :=
  fun _ => statement_of_cases _
theorem wdogRestart : Statement .wdogRestart :=
  statement_of_cases _
theorem refClockLost : ∀ x0, Statement (.refClockLost x0) :=
  fun _ => statement_of_cases _
theorem flitReplay : ∀ x0, Statement (.flitReplay x0) :=
  fun _ => statement_of_cases _
theorem crawlwayLinkFailed : ∀ x0 x1, Statement (.crawlwayLinkFailed x0 x1) :=
  fun _ _ => statement_of_cases _
theorem linkFail : ∀ x0 x1, Statement (.linkFail x0 x1) :=
  fun _ _ => statement_of_cases _
theorem echoTimeout : ∀ x0 x1 x2, Statement (.echoTimeout x0 x1 x2) :=
  fun _ _ _ => statement_of_cases _
theorem kc64Instruction : ∀ x0 x1 x2 x3, Statement (.kc64Instruction x0 x1 x2 x3) :=
  fun _ _ _ _ => statement_of_cases _
theorem waitForEvent : ∀ x0 x1, Statement (.waitForEvent x0 x1) :=
  fun _ _ => statement_of_cases _
theorem idleAdvance : ∀ x0 x1, Statement (.idleAdvance x0 x1) :=
  fun _ _ => statement_of_cases _
theorem eventPoint : ∀ x0 x1, Statement (.eventPoint x0 x1) :=
  fun _ _ => statement_of_cases _
theorem agreedSetApply : ∀ x0 x1, Statement (.agreedSetApply x0 x1) :=
  fun _ _ => statement_of_cases _
theorem strandTimerExpire : ∀ x0 x1 x2, Statement (.strandTimerExpire x0 x1 x2) :=
  fun _ _ _ => statement_of_cases _
theorem publicationReceive : ∀ x0 x1 x2, Statement (.publicationReceive x0 x1 x2) :=
  fun _ _ _ => statement_of_cases _
theorem pairClaimReceive : ∀ x0 x1, Statement (.pairClaimReceive x0 x1) :=
  fun _ _ => statement_of_cases _
theorem occurrenceLatch : ∀ x0 x1 x2 x3, Statement (.occurrenceLatch x0 x1 x2 x3) :=
  fun _ _ _ _ => statement_of_cases _
theorem evSolo : ∀ x0 x1 x2, Statement (.evSolo x0 x1 x2) :=
  fun _ _ _ => statement_of_cases _
theorem fstaleTimeout : ∀ x0, Statement (.fstaleTimeout x0) :=
  fun _ => statement_of_cases _
theorem fieldTripleReceive : ∀ x0 x1, Statement (.fieldTripleReceive x0 x1) :=
  fun _ _ => statement_of_cases _
theorem starveTimeout : ∀ x0 x1, Statement (.starveTimeout x0 x1) :=
  fun _ _ => statement_of_cases _
theorem starveClaimReceive : ∀ x0 x1 x2, Statement (.starveClaimReceive x0 x1 x2) :=
  fun _ _ _ => statement_of_cases _
theorem lateClaim : ∀ x0 x1 x2, Statement (.lateClaim x0 x1 x2) :=
  fun _ _ _ => statement_of_cases _
theorem lateClaimReceive : ∀ x0 x1, Statement (.lateClaimReceive x0 x1) :=
  fun _ _ => statement_of_cases _
theorem sqSend : ∀ x0 x1 x2, Statement (.sqSend x0 x1 x2) :=
  fun _ _ _ => statement_of_cases _
theorem sqCopyArrive : ∀ x0 x1 x2 x3, Statement (.sqCopyArrive x0 x1 x2 x3) :=
  fun _ _ _ _ => statement_of_cases _
theorem sqRxpop : ∀ x0 x1 x2, Statement (.sqRxpop x0 x1 x2) :=
  fun _ _ _ => statement_of_cases _
theorem epochMark : ∀ x0 x1, Statement (.epochMark x0 x1) :=
  fun _ _ => statement_of_cases _
theorem swEventSet : ∀ x0 x1 x2, Statement (.swEventSet x0 x1 x2) :=
  fun _ _ _ => statement_of_cases _
theorem evPendClear : ∀ x0 x1 x2 x3, Statement (.evPendClear x0 x1 x2 x3) :=
  fun _ _ _ _ => statement_of_cases _
theorem tcfgCommitGo : ∀ x0 x1, Statement (.tcfgCommitGo x0 x1) :=
  fun _ _ => statement_of_cases _
theorem tcfgGoTimeout : ∀ x0, Statement (.tcfgGoTimeout x0) :=
  fun _ => statement_of_cases _
theorem beatSend : ∀ x0 x1, Statement (.beatSend x0 x1) :=
  fun _ _ => statement_of_cases _
theorem beatArrive : ∀ x0 x1 x2 x3, Statement (.beatArrive x0 x1 x2 x3) :=
  fun _ _ _ _ => statement_of_cases _
theorem voterSkewTimeout : ∀ x0 x1 x2, Statement (.voterSkewTimeout x0 x1 x2) :=
  fun _ _ _ => statement_of_cases _
theorem beatRelease : ∀ x0 x1 x2, Statement (.beatRelease x0 x1 x2) :=
  fun _ _ _ => statement_of_cases _
theorem readOncePerform : ∀ x0 x1 x2, Statement (.readOncePerform x0 x1 x2) :=
  fun _ _ _ => statement_of_cases _
theorem rdTimeout : ∀ x0 x1, Statement (.rdTimeout x0 x1) :=
  fun _ _ => statement_of_cases _
theorem challengeBeatArrive : ∀ x0 x1 x2 x3, Statement (.challengeBeatArrive x0 x1 x2 x3) :=
  fun _ _ _ _ => statement_of_cases _
theorem exclusionNoticeReceive : ∀ x0 x1 x2 x3, Statement (.exclusionNoticeReceive x0 x1 x2 x3) :=
  fun _ _ _ _ => statement_of_cases _
theorem splitNoticeReceive : ∀ x0 x1 x2, Statement (.splitNoticeReceive x0 x1 x2) :=
  fun _ _ _ => statement_of_cases _
theorem fetchCopyArrive : ∀ x0 x1 x2 x3 x4, Statement (.fetchCopyArrive x0 x1 x2 x3 x4) :=
  fun _ _ _ _ _ => statement_of_cases _
theorem fetchSkewTimeout : ∀ x0 x1 x2, Statement (.fetchSkewTimeout x0 x1 x2) :=
  fun _ _ _ => statement_of_cases _
theorem broadcastWriteLand : ∀ x0 x1 x2, Statement (.broadcastWriteLand x0 x1 x2) :=
  fun _ _ _ => statement_of_cases _
theorem scrubHashDone : ∀ x0 x1, Statement (.scrubHashDone x0 x1) :=
  fun _ _ => statement_of_cases _
theorem scrubCompare : ∀ x0, Statement (.scrubCompare x0) :=
  fun _ => statement_of_cases _
theorem restart : ∀ x0 x1 x2, Statement (.restart x0 x1 x2) :=
  fun _ _ _ => statement_of_cases _
theorem rejoin : ∀ x0 x1, Statement (.rejoin x0 x1) :=
  fun _ _ => statement_of_cases _
theorem abandon : ∀ x0, Statement (.abandon x0) :=
  fun _ => statement_of_cases _
theorem autoRejoinRequest : ∀ x0 x1, Statement (.autoRejoinRequest x0 x1) :=
  fun _ _ => statement_of_cases _
theorem rejoinStart : ∀ x0, Statement (.rejoinStart x0) :=
  fun _ => statement_of_cases _
theorem copyPassEnd : Statement .copyPassEnd :=
  statement_of_cases _
theorem rejoinHold : Statement .rejoinHold :=
  statement_of_cases _
theorem holdAck : ∀ x0, Statement (.holdAck x0) :=
  fun _ => statement_of_cases _
theorem holdTimeout : Statement .holdTimeout :=
  statement_of_cases _
theorem joinNotice : Statement .joinNotice :=
  statement_of_cases _
theorem stallOver : Statement .stallOver :=
  statement_of_cases _
theorem laneRetire : ∀ x0 x1, Statement (.laneRetire x0 x1) :=
  fun _ _ => statement_of_cases _
theorem faultLineAssert : ∀ x0 x1, Statement (.faultLineAssert x0 x1) :=
  fun _ _ => statement_of_cases _
theorem memoryUe : ∀ x0 x1 x2, Statement (.memoryUe x0 x1 x2) :=
  fun _ _ _ => statement_of_cases _
theorem patrolRead : ∀ x0 x1 x2, Statement (.patrolRead x0 x1 x2) :=
  fun _ _ _ => statement_of_cases _
theorem debugAttach : ∀ x0 x1, Statement (.debugAttach x0 x1) :=
  fun _ _ => statement_of_cases _
theorem debugRequest : ∀ x0 x1 x2, Statement (.debugRequest x0 x1 x2) :=
  fun _ _ _ => statement_of_cases _
theorem dbgEnChange : ∀ x0, Statement (.dbgEnChange x0) :=
  fun _ => statement_of_cases _
theorem portLinkChange : ∀ x0 x1 x2, Statement (.portLinkChange x0 x1 x2) :=
  fun _ _ _ => statement_of_cases _
theorem cycleStart : ∀ x0, Statement (.cycleStart x0) :=
  fun _ => statement_of_cases _
theorem cycleEndSync : ∀ x0, Statement (.cycleEndSync x0) :=
  fun _ => statement_of_cases _
theorem holdoverExpire : ∀ x0, Statement (.holdoverExpire x0) :=
  fun _ => statement_of_cases _
theorem ownFrameSend : ∀ x0 x1 x2, Statement (.ownFrameSend x0 x1 x2) :=
  fun _ _ _ => statement_of_cases _
theorem frameForward : ∀ x0 x1 x2 x3 x4, Statement (.frameForward x0 x1 x2 x3 x4) :=
  fun _ _ _ _ _ => statement_of_cases _
theorem frameReceive : ∀ x0 x1 x2 x3 x4, Statement (.frameReceive x0 x1 x2 x3 x4) :=
  fun _ _ _ _ _ => statement_of_cases _
theorem pathDropExpire : ∀ x0 x1, Statement (.pathDropExpire x0 x1) :=
  fun _ _ => statement_of_cases _
theorem modeRequest : ∀ x0 x1 x2, Statement (.modeRequest x0 x1 x2) :=
  fun _ _ _ => statement_of_cases _
theorem modeReqReceive : ∀ x0 x1, Statement (.modeReqReceive x0 x1) :=
  fun _ _ => statement_of_cases _
theorem modeExpired : ∀ x0, Statement (.modeExpired x0) :=
  fun _ => statement_of_cases _
theorem listenTimeout : ∀ x0, Statement (.listenTimeout x0) :=
  fun _ => statement_of_cases _
theorem backoffExpire : ∀ x0, Statement (.backoffExpire x0) :=
  fun _ => statement_of_cases _
theorem idConflictClear : ∀ x0, Statement (.idConflictClear x0) :=
  fun _ => statement_of_cases _
theorem inaugRecordExpire : ∀ x0, Statement (.inaugRecordExpire x0) :=
  fun _ => statement_of_cases _
theorem inaugViewStable : ∀ x0, Statement (.inaugViewStable x0) :=
  fun _ => statement_of_cases _
theorem linkDelaySend : ∀ x0, Statement (.linkDelaySend x0) :=
  fun _ => statement_of_cases _
theorem linkDelayReceive : ∀ x0 x1 x2 x3, Statement (.linkDelayReceive x0 x1 x2 x3) :=
  fun _ _ _ _ => statement_of_cases _
theorem linkDelayUpdate : ∀ x0 x1, Statement (.linkDelayUpdate x0 x1) :=
  fun _ _ => statement_of_cases _
theorem linkDelayStale : ∀ x0 x1, Statement (.linkDelayStale x0 x1) :=
  fun _ _ => statement_of_cases _
theorem ttCommitGo : ∀ x0, Statement (.ttCommitGo x0) :=
  fun _ => statement_of_cases _
theorem guardCommitReply : ∀ x0, Statement (.guardCommitReply x0) :=
  fun _ => statement_of_cases _
theorem guardTimeout : ∀ x0, Statement (.guardTimeout x0) :=
  fun _ => statement_of_cases _
theorem ttCommitTakeEffect : ∀ x0, Statement (.ttCommitTakeEffect x0) :=
  fun _ => statement_of_cases _
theorem guardCommitCheck : ∀ x0, Statement (.guardCommitCheck x0) :=
  fun _ => statement_of_cases _
theorem guardFrameTap : ∀ x0 x1 x2 x3 x4, Statement (.guardFrameTap x0 x1 x2 x3 x4) :=
  fun _ _ _ _ _ => statement_of_cases _
theorem guardCycleEnd : ∀ x0, Statement (.guardCycleEnd x0) :=
  fun _ => statement_of_cases _
theorem guardListenTimeout : ∀ x0, Statement (.guardListenTimeout x0) :=
  fun _ => statement_of_cases _
theorem guardHoldExpire : ∀ x0, Statement (.guardHoldExpire x0) :=
  fun _ => statement_of_cases _
theorem guardTxAttempt : ∀ x0 x1, Statement (.guardTxAttempt x0 x1) :=
  fun _ _ => statement_of_cases _
theorem guardLengthLimit : ∀ x0 x1 x2, Statement (.guardLengthLimit x0 x1 x2) :=
  fun _ _ _ => statement_of_cases _
theorem guardReset : ∀ x0, Statement (.guardReset x0) :=
  fun _ => statement_of_cases _
theorem guardFenceCommand : ∀ x0 x1, Statement (.guardFenceCommand x0 x1) :=
  fun _ _ => statement_of_cases _
theorem tsqPop : ∀ x0 x1 x2, Statement (.tsqPop x0 x1 x2) :=
  fun _ _ _ => statement_of_cases _
theorem triggerFire : ∀ x0 x1, Statement (.triggerFire x0 x1) :=
  fun _ _ => statement_of_cases _
theorem triggerWrite : ∀ x0 x1 x2, Statement (.triggerWrite x0 x1 x2) :=
  fun _ _ _ => statement_of_cases _
theorem captureEdge : ∀ x0 x1 x2, Statement (.captureEdge x0 x1 x2) :=
  fun _ _ _ => statement_of_cases _
theorem dmaEnable : ∀ x0 x1 x2, Statement (.dmaEnable x0 x1 x2) :=
  fun _ _ _ => statement_of_cases _
theorem dmaDisable : ∀ x0 x1 x2, Statement (.dmaDisable x0 x1 x2) :=
  fun _ _ _ => statement_of_cases _
theorem resume : ∀ x0 x1 x2, Statement (.resume x0 x1 x2) :=
  fun _ _ _ => statement_of_cases _
theorem dmaDoorbell : ∀ x0 x1 x2 x3, Statement (.dmaDoorbell x0 x1 x2 x3) :=
  fun _ _ _ _ => statement_of_cases _
theorem descriptorStart : ∀ x0 x1, Statement (.descriptorStart x0 x1) :=
  fun _ _ => statement_of_cases _
theorem descriptorComplete : ∀ x0 x1, Statement (.descriptorComplete x0 x1) :=
  fun _ _ => statement_of_cases _
theorem dmaBusTimeout : ∀ x0 x1 x2 x3, Statement (.dmaBusTimeout x0 x1 x2 x3) :=
  fun _ _ _ _ => statement_of_cases _
theorem quiesceRequest : ∀ x0 x1, Statement (.quiesceRequest x0 x1) :=
  fun _ _ => statement_of_cases _
theorem quiesceAck : ∀ x0, Statement (.quiesceAck x0) :=
  fun _ => statement_of_cases _
theorem quiesceTimeout : ∀ x0, Statement (.quiesceTimeout x0) :=
  fun _ => statement_of_cases _
theorem quiesceRelease : ∀ x0, Statement (.quiesceRelease x0) :=
  fun _ => statement_of_cases _
theorem gwCommitGo : ∀ x0, Statement (.gwCommitGo x0) :=
  fun _ => statement_of_cases _
theorem gwCommitTakeEffect : ∀ x0, Statement (.gwCommitTakeEffect x0) :=
  fun _ => statement_of_cases _
theorem pduArrival : ∀ x0 x1 x2, Statement (.pduArrival x0 x1 x2) :=
  fun _ _ _ => statement_of_cases _
theorem pduExchange : ∀ x0 x1, Statement (.pduExchange x0 x1) :=
  fun _ _ => statement_of_cases _
theorem gwSwDataWrite : ∀ x0 x1 x2, Statement (.gwSwDataWrite x0 x1 x2) :=
  fun _ _ _ => statement_of_cases _
theorem gwSwPub : ∀ x0 x1 x2, Statement (.gwSwPub x0 x1 x2) :=
  fun _ _ _ => statement_of_cases _
theorem gwEventProcess : ∀ x0 x1, Statement (.gwEventProcess x0 x1) :=
  fun _ _ => statement_of_cases _
theorem gwFreshnessScan : ∀ x0 x1, Statement (.gwFreshnessScan x0 x1) :=
  fun _ _ => statement_of_cases _
theorem gwEcc : ∀ x0 x1 x2 x3, Statement (.gwEcc x0 x1 x2 x3) :=
  fun _ _ _ _ => statement_of_cases _
theorem rrRequest : ∀ x0 x1 x2 x3, Statement (.rrRequest x0 x1 x2 x3) :=
  fun _ _ _ _ => statement_of_cases _
theorem rrServe : ∀ x0, Statement (.rrServe x0) :=
  fun _ => statement_of_cases _
theorem rrResponseReceive : ∀ x0 x1, Statement (.rrResponseReceive x0 x1) :=
  fun _ _ => statement_of_cases _
theorem rrTimeout : ∀ x0 x1 x2, Statement (.rrTimeout x0 x1 x2) :=
  fun _ _ _ => statement_of_cases _
theorem rrFree : ∀ x0 x1 x2, Statement (.rrFree x0 x1 x2) :=
  fun _ _ _ => statement_of_cases _
theorem rrDiscard : ∀ x0 x1 x2, Statement (.rrDiscard x0 x1 x2) :=
  fun _ _ _ => statement_of_cases _
theorem canModeWrite : ∀ x0 x1 x2 x3, Statement (.canModeWrite x0 x1 x2 x3) :=
  fun _ _ _ _ => statement_of_cases _
theorem recover : ∀ x0 x1 x2, Statement (.recover x0 x1 x2) :=
  fun _ _ _ => statement_of_cases _
theorem canRecoveryDone : ∀ x0 x1, Statement (.canRecoveryDone x0 x1) :=
  fun _ _ => statement_of_cases _
theorem canFrameReceive : ∀ x0 x1 x2, Statement (.canFrameReceive x0 x1 x2) :=
  fun _ _ _ => statement_of_cases _
theorem canTransmit : ∀ x0 x1 x2, Statement (.canTransmit x0 x1 x2) :=
  fun _ _ _ => statement_of_cases _
theorem werrPop : ∀ x0 x1 x2, Statement (.werrPop x0 x1 x2) :=
  fun _ _ _ => statement_of_cases _
theorem fieldSample : ∀ x0, Statement (.fieldSample x0) :=
  fun _ => statement_of_cases _
theorem fdCommitGo : Statement .fdCommitGo :=
  statement_of_cases _
theorem channelSelfTest : ∀ x0 x1, Statement (.channelSelfTest x0 x1) :=
  fun _ _ => statement_of_cases _
theorem triggerAnnounce : ∀ x0 x1, Statement (.triggerAnnounce x0 x1) :=
  fun _ _ => statement_of_cases _
theorem triggerFallback : ∀ x0, Statement (.triggerFallback x0) :=
  fun _ => statement_of_cases _
theorem outputUpdateInstant : ∀ x0, Statement (.outputUpdateInstant x0) :=
  fun _ => statement_of_cases _
theorem doCmdBeat : ∀ x0 x1 x2 x3, Statement (.doCmdBeat x0 x1 x2 x3) :=
  fun _ _ _ _ => statement_of_cases _
theorem outVerifyDelayExpire : ∀ x0, Statement (.outVerifyDelayExpire x0) :=
  fun _ => statement_of_cases _
theorem offPulseStart : ∀ x0, Statement (.offPulseStart x0) :=
  fun _ => statement_of_cases _
theorem offPulseEnd : ∀ x0, Statement (.offPulseEnd x0) :=
  fun _ => statement_of_cases _
theorem overcurrent : ∀ x0, Statement (.overcurrent x0) :=
  fun _ => statement_of_cases _
theorem groupOvercurrent : ∀ x0, Statement (.groupOvercurrent x0) :=
  fun _ => statement_of_cases _
theorem thermal : ∀ x0, Statement (.thermal x0) :=
  fun _ => statement_of_cases _
theorem doFaultClear : ∀ x0 x1, Statement (.doFaultClear x0 x1) :=
  fun _ _ => statement_of_cases _
theorem fieldSupplyChange : ∀ x0 x1, Statement (.fieldSupplyChange x0 x1) :=
  fun _ _ => statement_of_cases _
theorem aiConversionStart : ∀ x0 x1, Statement (.aiConversionStart x0 x1) :=
  fun _ _ => statement_of_cases _
theorem aiDone : Statement .aiDone :=
  statement_of_cases _
theorem cosPop : ∀ x0, Statement (.cosPop x0) :=
  fun _ => statement_of_cases _
theorem leaseFrameReceive : ∀ x0 x1 x2 x3 x4, Statement (.leaseFrameReceive x0 x1 x2 x3 x4) :=
  fun _ _ _ _ _ => statement_of_cases _
theorem leaseCycleStart : ∀ x0, Statement (.leaseCycleStart x0) :=
  fun _ => statement_of_cases _
theorem leaseCycleEnd : ∀ x0, Statement (.leaseCycleEnd x0) :=
  fun _ => statement_of_cases _
theorem leaseUnqualified : ∀ x0, Statement (.leaseUnqualified x0) :=
  fun _ => statement_of_cases _
theorem armLease : ∀ x0 x1, Statement (.armLease x0 x1) :=
  fun _ _ => statement_of_cases _
theorem disarm : ∀ x0 x1, Statement (.disarm x0 x1) :=
  fun _ _ => statement_of_cases _
theorem release : ∀ x0 x1, Statement (.release x0 x1) :=
  fun _ _ => statement_of_cases _
theorem modHeldChange : Statement .modHeldChange :=
  statement_of_cases _
theorem leaseStateSample : ∀ x0, Statement (.leaseStateSample x0) :=
  fun _ => statement_of_cases _
theorem mbTxword : ∀ x0 x1 x2 x3, Statement (.mbTxword x0 x1 x2 x3) :=
  fun _ _ _ _ => statement_of_cases _
theorem mbTxdb : ∀ x0 x1 x2 x3, Statement (.mbTxdb x0 x1 x2 x3) :=
  fun _ _ _ _ => statement_of_cases _
theorem mbRxpop : ∀ x0 x1 x2 x3, Statement (.mbRxpop x0 x1 x2 x3) :=
  fun _ _ _ _ => statement_of_cases _
theorem mbRxdbClear : ∀ x0 x1 x2 x3, Statement (.mbRxdbClear x0 x1 x2 x3) :=
  fun _ _ _ _ => statement_of_cases _
theorem mbRxmaskWrite : ∀ x0 x1 x2 x3, Statement (.mbRxmaskWrite x0 x1 x2 x3) :=
  fun _ _ _ _ => statement_of_cases _
theorem rxReset : ∀ x0 x1 x2, Statement (.rxReset x0 x1 x2) :=
  fun _ _ _ => statement_of_cases _
theorem txReset : ∀ x0 x1 x2, Statement (.txReset x0 x1 x2) :=
  fun _ _ _ => statement_of_cases _
theorem smLockRead : ∀ x0 x1, Statement (.smLockRead x0 x1) :=
  fun _ _ => statement_of_cases _
theorem smRelease : ∀ x0 x1 x2, Statement (.smRelease x0 x1 x2) :=
  fun _ _ _ => statement_of_cases _
theorem smForce : ∀ x0 x1, Statement (.smForce x0 x1) :=
  fun _ _ => statement_of_cases _
theorem info : ∀ x0, Statement (.info x0) :=
  fun _ => statement_of_cases _
theorem nonce : ∀ x0 x1, Statement (.nonce x0 x1) :=
  fun _ _ => statement_of_cases _
theorem auth : ∀ x0 x1 x2 x3, Statement (.auth x0 x1 x2 x3) :=
  fun _ _ _ _ => statement_of_cases _
theorem logRead : ∀ x0 x1 x2, Statement (.logRead x0 x1 x2) :=
  fun _ _ _ => statement_of_cases _
theorem identRead : ∀ x0 x1, Statement (.identRead x0 x1) :=
  fun _ _ => statement_of_cases _
theorem stageBegin : ∀ x0 x1 x2, Statement (.stageBegin x0 x1 x2) :=
  fun _ _ _ => statement_of_cases _
theorem stageData : ∀ x0 x1 x2, Statement (.stageData x0 x1 x2) :=
  fun _ _ _ => statement_of_cases _
theorem stageEnd : ∀ x0, Statement (.stageEnd x0) :=
  fun _ => statement_of_cases _
theorem arm : ∀ x0 x1, Statement (.arm x0 x1) :=
  fun _ _ => statement_of_cases _
theorem cancel : ∀ x0, Statement (.cancel x0) :=
  fun _ => statement_of_cases _
theorem revert : ∀ x0, Statement (.revert x0) :=
  fun _ => statement_of_cases _
theorem reboot : ∀ x0, Statement (.reboot x0) :=
  fun _ => statement_of_cases _
theorem debugAuth : ∀ x0 x1, Statement (.debugAuth x0 x1) :=
  fun _ _ => statement_of_cases _
theorem debugRevoke : ∀ x0, Statement (.debugRevoke x0) :=
  fun _ => statement_of_cases _
theorem updateRejected : Statement .updateRejected :=
  statement_of_cases _
theorem sessionExpire : Statement .sessionExpire :=
  statement_of_cases _
theorem debugAuthExpire : Statement .debugAuthExpire :=
  statement_of_cases _
theorem updActivated : Statement .updActivated :=
  statement_of_cases _
theorem veto : ∀ x0, Statement (.veto x0) :=
  fun _ => statement_of_cases _
theorem confirm : ∀ x0, Statement (.confirm x0) :=
  fun _ => statement_of_cases _
theorem successfulBoot : Statement .successfulBoot :=
  statement_of_cases _
theorem supplyInterruption : Statement .supplyInterruption :=
  statement_of_cases _
theorem supplyReturn : Statement .supplyReturn :=
  statement_of_cases _
theorem holdupExhausted : Statement .holdupExhausted :=
  statement_of_cases _
theorem governorReading : ∀ x0 x1, Statement (.governorReading x0 x1) :=
  fun _ _ => statement_of_cases _
theorem govLimitRaise : ∀ x0, Statement (.govLimitRaise x0) :=
  fun _ => statement_of_cases _
theorem govLimitReceive : ∀ x0 x1, Statement (.govLimitReceive x0 x1) :=
  fun _ _ => statement_of_cases _
theorem stepRaise : ∀ x0, Statement (.stepRaise x0) :=
  fun _ => statement_of_cases _
theorem dsCeilWrite : ∀ x0 x1 x2, Statement (.dsCeilWrite x0 x1 x2) :=
  fun _ _ _ => statement_of_cases _
theorem dsPlanWrite : ∀ x0 x1, Statement (.dsPlanWrite x0 x1) :=
  fun _ _ => statement_of_cases _
theorem plannerSample : ∀ x0 x1, Statement (.plannerSample x0 x1) :=
  fun _ _ => statement_of_cases _
theorem plannerReplan : ∀ x0, Statement (.plannerReplan x0) :=
  fun _ => statement_of_cases _
theorem marginDailyRecord : Statement .marginDailyRecord :=
  statement_of_cases _
theorem refClockRestored : ∀ x0, Statement (.refClockRestored x0) :=
  fun _ => statement_of_cases _
theorem networkTimeTimeout : ∀ x0 x1, Statement (.networkTimeTimeout x0 x1) :=
  fun _ _ => statement_of_cases _

end Sys2Proof.Laws.WellFormed
end

