-- ==== Sys2Proof/Tests/Slice0.lean ====
section
/-! SUPPORT. Tests: for every statement with hypotheses a state and operands that meet them (`witness_<Statement>`),
ill-formed commands that the well-formedness check refuses, and figures of the manual's own examples. -/

open Sys2Proof Sys2Proof.Machine

namespace Sys2Proof.Tests

set_option Elab.async false

/-! ### Small states -/

/-- The state that a command answers. -/
def after : Out → State
  | .next s => s
  | _ => State.reset

/-- A replica changed. -/
def repl (l : Lane) (k : Strand) (f : Replica → Replica) (s : State) : State := s.setReplica l k (f (s.replica l k))

/-- An Echo unit changed. -/
def echo (l : Lane) (k : Strand) (f : Echo → Echo) (s : State) : State := s.setEcho l k (f (s.echo l k))

/-- Every strand released, every core running, the first event point at count 4096. -/
def live : State :=
  Lane.list.foldl (fun t l => Strand.list.foldl (fun t k =>
    repl l k (fun r => { r with mode := .running, nextCount := 4096 }) t) t)
    { State.reset with released := Quad.all true }

/-- The same with S0 of lane A at event point 1. -/
def atPt : State := (repl .a .s0 (fun r => { r with nextPoint := 1 }) live).setReg64 .la (Reg.lnIcountLo .s0) 4096

/-- S0 of lane A after step 1 of point `n`. -/
def published (n : Dword) : State := (repl .a .s0 (fun r => { r with phase := .published }) live).setReg64 .la (Reg.lnPointLo .s0) n

/-- An agreement of A and B on a point. -/
def agreement (pt : Word) (stime : Dword) : Agreement :=
  ⟨pt, .ab, 0, [], stime, 0, true, false, false, .hold, false, Quad.all 0, Quad.all 0⟩

/-- Lane A retired. -/
def aRetired (s : State) : State := s.setFlag .la Reg.rjLane 0 true

/-- Occurrence 7 of vector 32 from source 1. -/
def occ7 : Occ := ⟨1, 32, 7⟩

/-- Message `n` of a strand queue. -/
def msg (n : Half) : SqMsg := ⟨n, [n.setWidth 32], n⟩

/-- A strand's access reaches a unit of a die. -/
def reaches (s : State) (k : Strand) (u : RUnit) (d : Die) (off : Nat) : Bool :=
  !s.strandAbsent (.strand k) u off && unitDie u == some d && !s.strandFenced (.strand k) d

theorem reachesUnit_of_reaches (s : State) (k : Strand) (u : RUnit) (d : Die) (off : Nat) (h : reaches s k u d off = true) :
    s.reachesUnit (.strand k) u off := by
  simp only [reaches, Bool.and_eq_true, Bool.not_eq_true', beq_iff_eq] at h
  exact ⟨h.1.1, d, h.1.2, h.2⟩

/-! ### The hypotheses of the statements are met: the whole machine, lane cores, event points -/

theorem witness_StepRunsFrontCommand : ({ State.reset with pending := [.powerGood] }).pending = .powerGood :: [] := by decide +kernel

theorem witness_QueueDrainsInOrderAndIdlingTakesOneNs :
    State.reset.pending = [] ∧ State.reset.supply.good = true ∧
    ({ State.reset with supply := ⟨false, false, false⟩ } : State).pending = [] := by decide +kernel

theorem witness_StepKeepsMemoriesCanonical :
    memoriesWf live = true ∧ (step { live with pending := [.kc64Instruction .a .s0 (.store 8 [1, 2]) []] }) =
      .next (after (step { live with pending := [.kc64Instruction .a .s0 (.store 8 [1, 2]) []] })) := by
  refine ⟨by decide +kernel, rfl⟩

theorem witness_StepKeepsStateSound :
    live.sound = true ∧ step { live with pending := [.supplyInterruption] } =
      .next (after (exec .supplyInterruption { live with pending := [] })) := by
  refine ⟨by decide +kernel, rfl⟩

theorem witness_LaneMemoryIsWrittenByItsOwnCommandsOnly :
    writesLaneMemory (.beatSend .a .s0) = false ∧ isLaneMemory (0xFFFFFFFF + 1 + 0x100000 - 1) = true ∧
    isLaneMemory 0x100100000 = false := by decide +kernel

theorem witness_InstructionsRetireAndLoadsReturnMemory :
    live.canExecute .a .s0 = true ∧ live.allowed .a .s0 0x37FFFFFC 4 .exec = true ∧ live.poisoned .a 0x37FFFFFC 4 = false ∧
    live.allowed .a .s0 0xFFFFFFFF 1 .read = true ∧ isLaneMemory 0xFFFFFFFF = true ∧ live.poisoned .a 0xFFFFFFFF 1 = false := by
  decide +kernel

theorem witness_StoreWritesOwnLaneAndSignature :
    live.canExecute .a .s3 = true ∧ live.allowed .a .s3 0x1000FFFF8 8 .write = true ∧ isLaneMemory 0x1000FFFF8 = true ∧
    live.partialPoison .a 0x1000FFFF8 8 = false := by decide +kernel

theorem witness_DeviceAccessesIssueNumberedBeats :
    live.canExecute .a .s0 = true ∧ regionOf 0x30FFFFFFC = .window .p1 0xFFFFFFC ∧
    live.allowed .a .s0 0x30FFFFFFC 4 .write = true ∧ live.allowed .a .s0 0x30FFFFFFC 4 .read = true ∧
    ((dwords 0xFFFFFFC (List.replicate 4 0)).filter fun w => (live.localAnswer .a .s0 .p1 w.addr).isNone) ≠ [] ∧
    (let s : State := { live with variant := .kw3101 }
     s.canExecute .a .s0 = true ∧ regionOf 0x3040003FC = .window .p1 0x40003FC ∧ s.allowed .a .s0 0x3040003FC 8 .read = true ∧
       ((dwords 0x40003FC (List.replicate 8 0)).filter fun w => (s.localAnswer .a .s0 .p1 w.addr).isNone).length = 1 ∧
       regionOf 0x320000000 = .window .f 0 ∧ s.allowed .a .s0 0x320000000 8 .read = true ∧
       ((dwords 0 (List.replicate 8 0)).filter fun w => (s.localAnswer .a .s0 .f w.addr).isNone) = []) := by decide +kernel

theorem witness_ForbiddenAccessHasNoEffect :
    live.canExecute .a .s0 = true ∧ regionOf 0x100100000 = .unlisted ∧ regionOf 0x1FFFFFFFF = .unlisted ∧
    regionOf 0x200040000 = .unlisted ∧ regionOf 0x20007FFFF = .unlisted ∧ regionOf 0x200090000 = .unlisted ∧
    regionOf 0x2FFFFFFFF = .unlisted ∧ regionOf 0x340000000 = .unlisted ∧ regionOf 0xFFFFFFFFFF = .unlisted ∧
    live.allowed .a .s0 0x38000000 4 .read = false ∧ live.allowed .a .s0 0xE0000000 8 .write = false ∧
    live.allowed .a .s0 0x300000000 4 .exec = false := by decide +kernel

theorem witness_AddressMapGivesStrandsTheirRights :
    regionOf 0x37FFFFFF = .partition .s0 0x37FFFFFF ∧ regionOf 0x38000000 = .partition .s1 0 ∧
    regionOf 0xDFFFFFFF = .partition .s3 0x37FFFFFF ∧ regionOf 0xE0000000 = .common 0 ∧
    regionOf 0x1000FFFFF = .slice .s3 0x3FFFF ∧ regionOf 0x20003FFFF = .page .s3 0xFFFF ∧
    regionOf 0x20008FFFF = .laneCommon 0x8FFFF ∧ regionOf 0x33FFFFFFF = .window .m 0xFFFFFFF := by decide +kernel

theorem witness_WaitsAndMarksMoveTheCounter :
    live.canExecute .a .s0 = true ∧ (live.replica .a .s0).mode = .running ∧
    (let s := repl .a .s0 (fun r => { r with mode := .waiting }) { live with ns := 2000 }
     s.runs .a .s0 = true ∧ (s.replica .a .s0).mode = .waiting ∧ (s.replica .a .s0).phase = .run ∧
       (s.replica .a .s0).idle = false ∧ (s.replica .a .s0).idleAt + 2000 ≤ s.ns) ∧
    (let s := repl .a .s0 (fun r => { r with mode := .waiting }) { live with ns := 1999 }
     s.ns < (s.replica .a .s0).idleAt + 2000) := by decide +kernel

theorem witness_EventPointPublishesToEveryLane :
    atPt.atPoint .a .s0 = true ∧ atPt.atBoundary .a .s0 = false ∧
    pubsFor (atPt.echo .a .s0) (loWord (atPt.replica .a .s0).nextPoint) = [] ∧
    decidedPair (atPt.echo .a .s0) (atPt.echo .a .s0).nextAgree = none ∧
    ((atPt.echo .a .s0).agreed.any fun a => a.point == loWord (atPt.replica .a .s0).nextPoint) = false ∧
    ((atPt.echo .a .s0).late.any fun q => q.1 == loWord (atPt.replica .a .s0).nextPoint && q.2 == .a) = false ∧
    (let s := repl .a .s0 (fun r => { r with mark := true, sqOpen := [(.s1, msg 1)] }) atPt
     s.atPoint .a .s0 = true ∧ s.atBoundary .a .s0 = true ∧ (s.echo .a .s0).stallAt = none ∧
       pubsFor (s.echo .a .s0) (loWord (s.replica .a .s0).nextPoint) = []) := by
  decide +kernel

theorem witness_AgreedSetReleasesTheReplica :
    (published 1).atSteps .a .s0 = true ∧ (published 1).stepsReady .a .s0 = true ∧
    ((published 1).reg64 .la (Reg.lnPointLo .s0)).toNat < 2 ∧ ((published 1).replica .a .s0).soft = [] ∧
    (published 1).dueVector .a .s0 = none ∧
    (let s := ((published 1).setFlag .la (Reg.lnEvPend .s0 7) 31 true).setFlag .la (Reg.lnEvEn .s0 7) 31 true
     s.atSteps .a .s0 = true ∧ s.stepsReady .a .s0 = true ∧ (s.replica .a .s0).mask = false ∧
       s.dueVector .a .s0 = some 255) ∧
    (let a : Agreement := { agreement 0 10000 with occs := [occ7], epoch := true, fin := .invalid }
     let s := repl .a .s0 (fun r => { r with mask := true }) (echo .a .s0 (fun e => { e with agreed := [a], latched := [⟨occ7, none, false⟩] }) (published 2))
     s.atSteps .a .s0 = true ∧ s.stepsReady .a .s0 = true ∧ s.dueAgreement .a .s0 = some a ∧
       2 ≤ (s.reg64 .la (Reg.lnPointLo .s0)).toNat ∧ (s.replica .a .s0).mask = true ∧ s.vectorFitted 32 = true ∧
       s.vectorFitted 0 = true) ∧
    (let s := { live with changes := live.changes.set .s0 [⟨7, .c, .excluded, [.a], []⟩] }
     ((s.changes.get .s0).find? fun x => x.num == 7) = some ⟨7, .c, .excluded, [.a], []⟩) := by decide +kernel

/-- Strand time 10 µs agreed for point 0; timer 3 on, with its compare value at `cmp` and period `per`. -/
def timerAt (cmp : Dword) (per : Word) : State :=
  (((echo .a .s0 (fun e => { e with agreed := [agreement 0 10000] }) (published 2)).setFlag .la (Reg.lnTmrCtl .s0) 3 true).setReg64
    .la (Reg.lnTmrCmpLo .s0 3) cmp).setReg .la (Reg.lnTmrPer .s0 3) per

theorem witness_StrandTimersFireAndRearm :
    (timerAt 10000 0).atSteps .a .s0 = true ∧ (timerAt 10000 0).stepsReady .a .s0 = true ∧
    2 ≤ ((timerAt 10000 0).reg64 .la (Reg.lnPointLo .s0)).toNat ∧
    (timerAt 10000 0).dueAgreement .a .s0 = some (agreement 0 10000) ∧
    (timerAt 10000 0).flag .la (Reg.lnTmrCtl .s0) 3 = true ∧
    ((timerAt 10000 0).reg64 .la (Reg.lnTmrCmpLo .s0 3)).toNat ≤ 10000 ∧
    ((timerAt 10000 0).reg .la (Reg.lnTmrPer .s0 3)).toNat = 0 ∧
    0 < ((timerAt 10000 1).reg .la (Reg.lnTmrPer .s0 3)).toNat ∧ (timerAt 10000 1).stepsReady .a .s0 = true ∧
    10000 < ((timerAt 10001 1).reg64 .la (Reg.lnTmrCmpLo .s0 3)).toNat := by decide +kernel

/-! ### The Echo exchange -/

/-- A publication of lane `n` for a point, with its list of occurrences. -/
def pub (n : BitVec 2) (pt : Word) (occ : List Occ) : Publication :=
  ⟨.s0, pt, n, false, false, false, false, false, 0, 0, 0, 0, 0, Quad.all 0, Quad.all 0, Quad.all 0, 0, 0, 0,
    BitVec.ofNat 6 occ.length, occ⟩

/-- An Echo unit of lane A that holds these publications for S0. -/
def holding (ps : List Publication) : State := echo .a .s0 (fun e => { e with pubs := ps.map fun p => ⟨p, 0⟩ }) live

/-- The clock at `n` ns. -/
def atNs (n : Nat) (s : State) : State := { s with ns := n }

/-- These messages wait on the link of their route, oldest first. -/
def onLink (ws : List Wire) (s : State) : State := ws.foldl (fun t w => t.sendOne w) s

theorem witness_ExchangeMessagesAreTakenUp :
    live.retired .a = false ∧ (aRetired live).retired .a = true ∧ badPublication (pub 0 0 []) = false ∧
    badPublication (pub 3 0 []) = true ∧ live.retired .b = false ∧ (live.echo .a .s0).halted = false ∧
    (live.echo .a .s0).inStep.get .b = true ∧
    ((live.echo .a .s0).claims.any fun x => x.point == 5 && x.sender == .b) = false ∧
    (onLink [.occurrence .a .p1 .s0 occ7] live).mayArrive (.occurrence .a .p1 .s0 occ7) = true ∧
    (onLink [.occurrence .a .p1 .s1 occ7, .occurrence .a .p1 .s0 occ7] live).mayArrive (.occurrence .a .p1 .s0 occ7) = false ∧
    live.fFitted = true ∧ (live.lane .a).junction.f = true ∧ (live.lane .a).triples.length ≤ 32 ∧
    (live.lane .a).tripleAt + 1000000 ≤ (atNs 1000000 live).ns ∧ (atNs 999999 live).ns < (live.lane .a).tripleAt + 1000000 ∧
    (msg 1).count = (live.echo .a .s1).inCount.get .s0 + 1 ∧ (live.echo .a .s1).inAhead.get .s0 = [] ∧
    (msg 2).count ≠ (live.echo .a .s1).inCount.get .s0 + 1 := by decide +kernel

theorem witness_SixteenErrorsFailACrawlwayLink :
    badPublication (pub 2 0 (List.replicate 33 occ7)) = true ∧ badPublication (pub 0 0 [⟨5, 0, 0⟩]) = true ∧
    badPublication (pub 0 0 (List.replicate 32 occ7)) = false ∧ Lane.a ≠ .b ∧ live.retired .a = false ∧
    live.rejoin = none ∧ live.retired (higherLane .a .b) = false ∧ live.retired .b = false ∧
    (let s := live.setLane .a { live.lane .a with linkRun := ⟨0, 15, 0⟩ }
     (s.lane .a).linkRun.get .b + 1 = 16) ∧
    (let s := atNs 201 (holding [pub 0 4 [], pub 1 4 []])
     (pubsFor (s.echo .a .s0) 4).map (·.pub) = [pub 0 4 [], pub 1 4 []] ∧ pubLane (pub 0 4 []) = some .a ∧
       pubLane (pub 1 4 []) = some .b ∧ ((s.echo .a .s0).agreed.any fun g => g.point == 4) = false ∧
       exchangeOf (s.echo .a .s0) 4 = some (⟨pub 0 4 [], 0⟩, ⟨pub 1 4 [], 0⟩) ∧
       (s.echo .a .s0).halted = false ∧ 0 + 200 < s.ns ∧ (4 : Word) ∉ (s.echo .a .s0).timedOut) ∧
    (4 : Word) ∈ ((echo .a .s0 (fun e => { e with timedOut := [4] }) live).echo .a .s0).timedOut := by decide +kernel

theorem witness_ClaimsNoticesAndSoloOccurrencesAct :
    occ7 ∈ ((echo .a .s0 (fun e => { e with solo := [occ7] }) live).echo .a .s0).solo ∧
    (let s := atNs 1000001 (holding [pub 0 4 [occ7], pub 1 4 []])
     s.retired .a = false ∧ occ7 ∉ (s.echo .a .s0).solo ∧ (⟨pub 0 4 [occ7], 0⟩ : HeldPub) ∈ (s.echo .a .s0).pubs ∧
       pubLane (pub 0 4 [occ7]) = some .a ∧ occ7 ∈ (pub 0 4 [occ7]).occ ∧ 0 + s.skewLimitNs .a .s0 < s.ns ∧
       (∀ x ∈ (s.echo .a .s0).pubs, pubLane x.pub ≠ some .a → occ7 ∈ x.pub.occ →
         0 + s.skewLimitNs .a .s0 < x.since ∨ x.since + s.skewLimitNs .a .s0 < 0) ∧
       s.consumers.m.running = true ∧ s.floodCount 0 < 64) ∧
    (let s := atNs 1000001 (published 2)
     s.atSteps .a .s0 = true ∧ 2 ≤ (s.reg64 .la (Reg.lnPointLo .s0)).toNat ∧ s.dueAgreement .a .s0 = none ∧
       (s.replica .a .s0).waitSince + s.skewLimitNs .a .s0 < s.ns) ∧
    (let s := atNs 1000000 (echo .a .s0 (fun e => { e with agreed := [agreement 3 0] }) live)
     s.runs .a .s0 = true ∧ s.awaitedThird .a .s0 3 = some .c) ∧
    live.retired .b = false ∧ (aRetired live).retired .a = true ∧
    ((echo .a .s0 (fun e => { e with inStep := ⟨true, true, false⟩ }) live).echo .a .s0).inStep.get .c = false ∧
    live.haltedAt .a .s0 = false ∧ live.retired .a = false ∧ (live.echo .a .s0).inStep.get .c = true ∧
    live.consumers.m.running = true ∧ live.floodCount Lane.a.idx < 64 ∧
    (echo .a .s0 (fun e => { e with halted := true }) live).haltedAt .a .s0 = true := by
  decide +kernel

/-- S0 of lane A holds one visible message from S1, which SQ_RXSEL selects. -/
def received : State := (echo .a .s0 (fun e => { e with
  inQ := e.inQ.set .s1 [msg 1], inCount := e.inCount.set .s1 1, visible := e.visible.set .s1 1 }) live).setReg .la (Reg.lnSqRxsel .s0) 1

theorem witness_StrandQueueSendsAndPops :
    live.canExecute .a .s0 = true ∧ live.allowed .a .s0 (0x200000000 + pageKey .s0 0x140) 4 .write = true ∧
    ((0x101 : Word) &&& 0xFFFFFE0C = 0) ∧ fieldOf (0x011 : Word) 8 4 = 1 ∧ fieldOf (0x101 : Word) 8 4 = 16 ∧ fieldOf (0x111 : Word) 8 4 = 17 ∧
    Strand.ofIdx (fieldOf (0x101 : Word) 1 0) ≠ .s0 ∧ 0 < creditsFor (live.echo .a .s0) .s1 ∧
    creditsFor ((echo .a .s0 (fun e => { e with sent := e.sent.set .s1 16 }) live).echo .a .s0) .s1 = 0 ∧
    live.allowed .a .s0 (0x200000000 + pageKey .s0 0x158) 4 .write = true ∧ ((1 : Word) &&& 0xFFFFFFFE = 0) ∧
    received.canExecute .a .s0 = true ∧ (received.rxHead .a .s0).map (·.1) = some .s1 ∧ bitOf (1 : Word) 0 = true ∧
    live.rxHead .a .s0 = none := by decide +kernel

theorem witness_SoftwareVectorsAndPendingBits :
    live.canExecute .a .s0 = true ∧ live.allowed .a .s0 (0x200000000 + pageKey .s0 0x440) 4 .write = true ∧
    ((255 : Word) &&& 0xFFFFFF00 = 0) ∧ 241 ≤ (241 : Word).toNat ∧ (240 : Word).toNat < 241 ∧
    live.allowed .a .s0 (0x200000000 + pageKey .s0 0x41C) 4 .write = true := by decide +kernel

/-! ### Voters -/

/-- A write of `v` at offset `off` with ordinal 0 by S0. -/
def wbeat (off : Nat) (v : Dword) : Beat := ⟨.s0, 0, false, off, 0xF, v⟩

/-- A read at offset 0 with ordinal 0 by S0. -/
def rbeat : Beat := ⟨.s0, 0, true, 0, 0xF, 0⟩

/-- A voter's records changed. -/
def vot (d : Die) (k : Strand) (f : Voter → Voter) (s : State) : State := s.setVoter d k (f (s.voter d k))

/-- A die's consumers stopped. -/
def stopped (d : Die) (s : State) : State := s.setConsumer d { s.consumer d with running := false }

/-- S0's voter of P1 holds these beats of ordinal 0; every island has power. -/
def held (bs : List (Lane × Beat)) : State :=
  vot .p1 .s0 (fun v => { v with ords := [⟨0, bs, none, some 0⟩] }) (live.setReg .m Reg.mgPwr 0xFFFF)

theorem witness_BeatsLeaveInOrderWhileTheSumpHasRoom :
    (let s := repl .a .s0 (fun r => { r with out := [(.p1, rbeat)] }) live
     (s.replica .a .s0).out = [(.p1, rbeat)] ∧ s.mayLeave .a .p1 rbeat = true) ∧
    (let s := (repl .a .s0 (fun r => { r with out := [(.p1, rbeat)] }) live)
     let s := s.setLane .a { s.lane .a with junction := (s.lane .a).junction.set .p1 false }
     (s.replica .a .s0).out = [(.p1, rbeat)] ∧ s.mayLeave .a .p1 rbeat = false) ∧
    (onLink (List.replicate 511 (.beat .p1 .a rbeat)) live).sumpTaken .p1 .a .s0 < 512 ∧
    512 ≤ (onLink (List.replicate 512 (.beat .p1 .a rbeat)) live).sumpTaken .p1 .a .s0 := by decide +kernel

theorem witness_VerdictsFollowTheBeats :
    wbeat 0 1 ≠ wbeat 0 2 ∧ wbeat 0 2 ≠ wbeat 0 3 ∧ wbeat 0 1 ≠ wbeat 0 3 ∧ wbeat 0 1 = wbeat 0 1 := by decide +kernel

theorem witness_ArrivingBeatsAreHeldDecidedOrLost :
    live.voterLive .p1 .s0 = true ∧ (live.expects .p1 .s0 0).contains .a = true ∧ rbeat.isRead = true ∧
    (onLink [.beat .p1 .a rbeat] live).mayArrive (.beat .p1 .a rbeat) = true ∧
    (onLink [.beat .p1 .a { rbeat with addr := 8 }, .beat .p1 .a rbeat] live).mayArrive (.beat .p1 .a rbeat) = false ∧
    ordOf (live.voter .p1 .s0) 0 = none ∧ serialLt 0 (live.voter .p1 .s0).next = false ∧ live.dieFitted .f = true ∧
    ((stopped .f live).consumer .f).running = false ∧ (stopped .f live).dieFitted .f = true ∧ (wbeat 0 1).isRead = false ∧
    (onLink [.beat .f .a (wbeat 0 1)] (stopped .f live)).mayArrive (.beat .f .a (wbeat 0 1)) = true ∧
    (live.consumer .p1).running = true ∧ live.flag .p1 Reg.vtFence 0 = false ∧
    ((live.setFlag .p1 (Reg.vtStat 0) 0 false).expects .p1 .s0 0).contains .a = false ∧
    (live.setFld .p1 (Reg.vtStat 0) 4 3 2).voterHalted .p1 .s0 = true := by decide +kernel

theorem witness_NextOrdinalIsReleasedOnce :
    (let b := wbeat 0x4000000 1
     let s := held [(.a, b), (.b, b), (.c, b)]
     s.voterLive .p1 .s0 = true ∧ s.readyBeat .p1 .s0 (beatAllInStep .p1) = some (⟨0, [(.a, b), (.b, b), (.c, b)], none, some 0⟩, b) ∧
       b.isRead = false ∧ s.islandOff .p1 b.addr = false ∧
       (s.setReg .m Reg.mgPwr 0).islandOff .p1 b.addr = true ∧
       (s.setReg .m Reg.mgPwr 0).readyBeat .p1 .s0 (beatAllInStep .p1) =
         some (⟨0, [(.a, b), (.b, b), (.c, b)], none, some 0⟩, b) ∧
       ([(Lane.a, b), (.b, b), (.c, b)].any fun y => y.1 == .b) = true) ∧
    (let b : Beat := ⟨.s0, 0, true, 0x4000000, 0xF, 0⟩
     let o : OrdRec := ⟨0, [(.a, b), (.b, b), (.c, b)], none, some 0⟩
     let s := held [(.a, b), (.b, b), (.c, b)]
     s.voterLive .p1 .s0 = true ∧ s.readyBeat .p1 .s0 (fun _ => false) = some (o, b) ∧ s.islandOff .p1 b.addr = false ∧
       ((s.expects .p1 .s0 o.ordinal).any fun l => !o.beats.any fun x => x.1 == l) = false) ∧
    (let b : Beat := ⟨.s0, 0, true, 0x4000000, 0xF, 0⟩
     let o : OrdRec := ⟨0, [(.a, b), (.b, b)], none, some 0⟩
     let s := held [(.a, b), (.b, b)]
     let t := vot .p1 .s0 (fun v => { v with kept := List.replicate 1024 ⟨9, b, 0⟩ }) s
     s.readyBeat .p1 .s0 (fun _ => false) = some (o, b) ∧ t.readyBeat .p1 .s0 (fun _ => false) = some (o, b) ∧
       ((s.expects .p1 .s0 o.ordinal).any fun l => !o.beats.any fun x => x.1 == l) = true ∧
       (s.voter .p1 .s0).kept.length < robSize ∧ robSize ≤ (t.voter .p1 .s0).kept.length) ∧
    (live.lane .a).junction.get .p1 = true ∧ (live.sendResult .p1 .s0 0 5 .a).vcQueue .a .p1 true .response =
      [.result .a .p1 .s0 0 5] ∧
    (live.readyBeat .p1 .s0 (beatAllInStep .p1)).isNone = true ∧ (live.readyBeat .p1 .s0 fun _ => false).isNone = true := by
  decide +kernel

theorem witness_LateBeatsAndReadsTimeOut :
    (let s := atNs 1000000 (held [(.a, rbeat), (.b, rbeat)])
     ordOf (s.voter .p1 .s0) 0 = some ⟨0, [(.a, rbeat), (.b, rbeat)], none, some 0⟩ ∧ s.voterLive .p1 .s0 = true ∧
       s.skewOver .p1 .s0 ⟨0, [(.a, rbeat), (.b, rbeat)], none, some 0⟩ = true ∧
       (s.expects .p1 .s0 0).length = 3 ∧
       ((s.expects .p1 .s0 0).find? fun l => !([(Lane.a, rbeat), (.b, rbeat)]).any fun y => y.1 == l) = some .c) ∧
    (let q : ReadPart := ⟨.p1, 0, 0, none⟩
     let p : PendingLoad := ⟨0x300000000, 4, [q]⟩
     let s := atNs 2000000 (repl .a .s0 (fun r => { r with load := some p }) live)
     (s.replica .a .s0).load = some p ∧ q.got = none ∧ q.sent + 2000000 ≤ s.ns ∧ (s.replica .a .s0).mode ≠ .stopped ∧
       ((s.replica .a .s0).out.any fun x => x.1 == .p1 && x.2.ordinal == 0) = false ∧ s.consumers.m.running = true ∧
       s.floodCount Lane.a.idx < 64) := by decide +kernel

theorem witness_ChallengesAreAnsweredByTheTestPath :
    live.dieFitted .p1 = true ∧ (live.consumer .p1).running = true ∧ (live.voterIn .p1 .s0).contains .a = true ∧
    live.voterHalted .p1 .s0 = false ∧ (onLink [.challenge .p1 .a .s0 1] live).mayArrive (.challenge .p1 .a .s0 1) = true ∧
    (live.voter .p1 .s0).challenge.get .a = none ∧ (1 : Dword) ≠ 2 ∧
    (let s := vot .p1 .s0 (fun v => { v with challenge := ⟨some 1, some 2, some 2⟩ })
       (onLink [.challenge .p1 .a .s0 1, .beat .p1 .a rbeat] live)
     ((s.voter .p1 .s0).challenge.get .a).isSome = true ∧ s.voterHalted .p1 .s0 = false ∧
       (s.voterIn .p1 .s0).contains .a = true ∧ 2 ≤ (s.voterIn .p1 .s0).length ∧
       (s.voterIn .p1 .s0).all (fun l => ((s.voter .p1 .s0).challenge.get l).isSome) = true ∧
       s.vectorFitted (chalVector .p1) = true ∧ s.linked .p1 = [.a, .b, .c]) ∧
    (live.voterIn .p1 .s0).any (fun l => ((live.voter .p1 .s0).challenge.get l).isNone) = true := by decide +kernel

/-! ### Lane memory, scrub and memory errors -/

/-- A write of two bytes by P1 on its way to lane A. -/
def bcast : Broadcast := ⟨.p1, .s0, 0xFFFFFFFF, [1, 2], 0, none⟩

theorem witness_BroadcastWriteLandsInOneLane :
    isLaneMemory (bcast.addr.toNat + bcast.bytes.length - 1) = true ∧ live.retired .a = false ∧
    (aRetired live).retired .a = true ∧ (onLink [.broadcast .a bcast] live).mayArrive (.broadcast .a bcast) = true ∧
    (onLink [.broadcast .a bcast] (aRetired live)).mayArrive (.broadcast .a bcast) = true ∧
    (onLink [.occurrence .a .p1 .s0 occ7, .broadcast .a bcast] live).mayArrive (.broadcast .a bcast) = false := by
  decide +kernel

/-- The hash of block 5 that a lane published. -/
def hash5 (h : Dword) : ScrubHash := ⟨5, 100, 0, 0, some h, false⟩

/-- Every lane has hashed block 5 of S0 at point 100. -/
def hashed (a b c : Dword) : State :=
  [(Lane.a, a), (.b, b), (.c, c)].foldl (fun s x => s.setScrub x.1 .s0 { s.scrub x.1 .s0 with done := [hash5 x.2] }) live

theorem witness_ScrubAndMemoryErrorsOfALane :
    (let s := live.setScrub .a .s0 { live.scrub .a .s0 with busy := [⟨5, 100, 0, false⟩] }
     let t := s.setLane .a { s.lane .a with poison := [blockBase .s0 5 + 8] }
     (s.scrub .a .s0).busy = [⟨5, 100, 0, false⟩] ∧ s.poisoned .a (blockBase .s0 5) 65536 = false ∧
       (t.scrub .a .s0).busy = [⟨5, 100, 0, false⟩] ∧ t.poisoned .a (blockBase .s0 5) 65536 = true) ∧
    (live.scrub .a .s0).busy = [] ∧
    ([(1, 1, 1), (1, 1, 2), (1, 2, 1), (2, 1, 1), (1, 2, 3)].all fun h =>
      !(hashed h.1 h.2.1 h.2.2).halted .s0 &&
        (hashed h.1 h.2.1 h.2.2).scrubReady .s0 == some [(.a, hash5 h.1), (.b, hash5 h.2.1), (.c, hash5 h.2.2)]) = true ∧
    live.retired .a = false ∧ isLaneMemory 0xFFFFFFFF = true ∧ regionOf 0x37FFFFFF = .partition .s0 0x37FFFFFF ∧
    regionOf 0xE0000000 = .common 0 ∧ regionOf 0x100000000 = .slice .s0 0 ∧ live.rejoin = none ∧
    ownerOf 0x37FFFFFF = some .s0 ∧ ownerOf 0xE0000000 = none ∧
    (0xFFFFFFBF : Nat) < 0x100000000 ∧ 0xFFFFFFBF / 64 * 64 + 64 ≠ 0x100000000 := by decide +kernel

theorem witness_LaneFaultsLeadToRetirement :
    live.retired .a = false ∧ live.consumers.m.running = true ∧ (aRetired live).retired .a = true ∧
    live.vcQueue .a .p1 true .posted = [] := by decide +kernel

/-- S0 of lane A in DEBUG, with debug access authorised and DBG_EN closed. -/
def debugging : State :=
  (repl .a .s0 (fun r => { r with debug := true, mode := .debugHalted }) live |>.setFlag .la Reg.rjDbg 8 true).setFlag .m Reg.mgDbg 31 true

/-- A released strand on a module with the KW3101's units. -/
def kw3101 : State := { live with variant := .kw3101 }

theorem witness_AbsentUnitsAndDebugAreAnsweredInTheLane :
    (let s := kw3101
     s.canExecute .a .s0 = true ∧ regionOf 0x320000000 = .window .f 0 ∧ (s.absentUnit .f 0).isSome = true ∧
       s.allowed .a .s0 0x320000000 4 .read = true ∧ s.allowed .a .s0 0x320000000 4 .write = true) ∧
    (debugging.replica .a .s0).debug = true ∧ debugging.flag .la Reg.rjDbg 8 = true ∧ debugging.debugAuth = true ∧
    (debugging.replica .a .s0).mode = .debugHalted ∧ ownerOf 8 = some .s0 ∧ ownerOf (8 + 2 - 1) = some .s0 ∧ (live.replica .a .s0).debug = false ∧
    live.attachRefusal .s0 .a = some 1 ∧ (debugging.attachRefusal .s0 .a) = none := by decide +kernel

/-! ### Rejoin, restart and timing commits -/

/-- A rejoin of S0 in lane C from lane A. -/
def run0 : RejoinRun :=
  ⟨.s0, .c, .a, false, some [], 0, 0, [], false, none, none, false, 0, Duo.all (Tri.all 0), Duo.all false, false⟩

/-- S0 of lane C is SET_ASIDE: every lane's Echo unit and view agree. -/
def setAside : State :=
  Lane.list.foldl (fun s l => (echo l .s0 (fun e => { e with inStep := ⟨true, true, false⟩ }) s).setFld l.unit (Reg.lnRepl .s0) 8 6 1) live

/-- The run `r` under way, in phase `ph`. -/
def running (r : RejoinRun) (ph : Nat) : State := { setAside with rejoin := some r }.setFld .la (Reg.rjStat 0) 10 8 ph

theorem witness_RejoinRequestsAreCheckedAndQueued :
    live.mgmtCommands = true ∧ setAside.mgmtCommands = true ∧ (running run0 1).mgmtCommands = true ∧
    (running run0 1).rejoinBusy .s0 = true ∧ live.rejoinBusy .s0 = false ∧ live.rejoinRefusal .s0 .c = some 0x10 ∧
    setAside.rejoinBusy .s0 = false ∧ setAside.rejoinRefusal .s0 .c = none ∧
    (let s := { setAside with rejoinQueue := setAside.rejoinQueue.set .s0 (some .c) }
     s.mgmtCommands = true ∧ s.rejoinQueue.get .s0 = some .c) ∧
    (running run0 1).rejoinQueue.get .s0 = none ∧ (running run0 1).rejoin = some run0 ∧
    (let s := atNs 100000000 (Lane.list.foldl (fun t l => t.setFlag l.unit Reg.rjCfg 21 true)
       (echo .a .s0 (fun e => { e with asideAt := e.asideAt.set .c (some 0) }) setAside))
     s.rjAuto (s.donorView .s0) = true ∧ s.replState (s.donorView .s0) .s0 .c = 1 ∧ s.abn (s.donorView .s0) .s0 .c < 3 ∧
       (s.echo (s.donorView .s0) .s0).asideAt.get .c = some 0 ∧ 0 + 100000000 ≤ s.ns) ∧
    (let s := setAside.setFlag (setAside.donorView .s0).unit Reg.rjCfg 21 false
     s.rjAuto (s.donorView .s0) = false) := by decide +kernel

theorem witness_RejoinPhasesLeadToTheJoin :
    (let s := { setAside with rejoinQueue := setAside.rejoinQueue.set .s0 (some .c) }
     s.rejoinQueue.get .s0 = some .c ∧ s.rejoin = none ∧ s.firstQueued .s0 = true ∧ s.rejoinRefusal .s0 .c = none ∧
       s.donorOf .s0 = some .a) ∧
    (let s := running { run0 with pass := none } 1
     s.passOver { run0 with pass := none } = false ∧ (atNs 10000000000000 s).passOver { run0 with pass := none } = true) ∧
    (let s := atNs 10000000 (running run0 1)
     s.fld .la (Reg.rjStat 0) 10 8 = 1 ∧ s.passOver run0 = true ∧
       (run0.readTo (passSize run0.pass)).dirty.length ≤ stallPages (s.rjStallMax .a) (s.rjBw .a)) ∧
    (let r := { run0 with dirty := List.range 2000 }
     let s := running r 2
     s.fld .la (Reg.rjStat 0) 10 8 = 2 ∧
       stallPages (s.rjStallMax .a) (s.rjBw .a) < (r.readTo (passSize r.pass)).dirty.length) ∧
    (running run0 3).fld .la (Reg.rjStat 0) 10 8 = 3 ∧ (atNs 10000000 (running run0 3)).passOver run0 = true ∧
    (let r := { run0 with stallFrom := some 0, holdSent := true, boundary := some 4, acked := ⟨false, true⟩ }
     let s := echo .a .s0 (fun e => { e with agreed := [agreement 4 0] }) (running r 3)
     let s := s.setPort .p1 { s.port .p1 with hold := some .s0 }
     s.holdDone r .p1 = true ∧ s.rejoin = some r ∧ r.holdSent = true ∧ r.acked.get .p1 = false ∧ r.acked.get PDie.p1.other = true ∧
       s.broadcastOwed r .p1 = false ∧ s.boundaryAgreed r = true ∧ r.dirty.length ≤ s.stallLimit r ∧
       r.stallFrom.isSome = true ∧ { run0 with stallFrom := some 0 }.holdSent = false) ∧
    (let s := atNs 10000000 (running { run0 with holdSent := true, stallFrom := some 0 } 3)
     s.rejoin = some { run0 with holdSent := true, stallFrom := some 0 } ∧ run0.holdAt + 5000 ≤ s.ns ∧
       0 + 1000 * s.rjStallMax .a ≤ s.ns) ∧
    (running { run0 with holdSent := true } 3).rejoin = some { run0 with holdSent := true } ∧
    (running run0 3).broadcastOwed { run0 with holdSent := true } .p1 = false ∧
    run0.acked.get PDie.p1.other = false ∧ memoriesWf (running run0 3) = true ∧
    (running run0 3).holdDone { run0 with holdSent := true } .p1 = false ∧ live.rejoin = none ∧ run0.copied = false ∧
    (let r := { run0 with copied := true, stallFrom := some 0 }
     (running r 3).rejoin = some r ∧ (atNs 100000 (running r 3)).passOver r = true ∧
       0 + (atNs 100000 (running r 3)).stallBoundNs r < 10000000 ∧ 100000 ≤ 0 + (atNs 100000 (running r 3)).stallBoundNs r ∧
       (atNs 10000000 (running r 3)).passOver r = true) := by decide +kernel

/-- A timing word with the largest values in range, and one with SKEW 1001. -/
def tcfgMax : Word := BitVec.ofNat 32 (1000 * 2 ^ 20 + 4096 * 32 + 16)

/-- All three lanes stage that word for S0. -/
def staged : State := Lane.list.foldl (fun s l => s.setReg l.unit (Reg.lnTcfgStg 0) tcfgMax) live

/-- A commit of S0 to which these lanes gave GO. -/
def commitOf (go : List (Lane × Word)) (s : State) : State := { s with tcfg := s.tcfg.set .s0 (some ⟨go, 0, false, [], none⟩) }

theorem witness_TimingCommitNeedsEveryLane :
    (setAside.tcfgLanes .s0).contains .c = false ∧ (staged.tcfgLanes .s0).contains .a = true ∧ staged.tcfg.get .s0 = none ∧
    staged.mgmtReaches .a = true ∧ tcfgOk tcfgMax = true ∧ tcfgOk (tcfgMax + 0x100000) = false ∧
    (let s := atNs 10000000 (commitOf [(.a, tcfgMax)] staged)
     s.tcfg.get .s0 = some ⟨[(.a, tcfgMax)], 0, false, [], none⟩ ∧ 0 + 10000000 ≤ s.ns ∧ (s.tcfgLanes .s0).contains .a = true ∧
       ((s.tcfgLanes .s0).all fun x => [(Lane.a, tcfgMax)].any fun g => g.1 == x) = false) ∧
    ([[(Lane.a, tcfgMax), (.b, tcfgMax)], [(.a, tcfgMax), (.b, 0)], [(.a, 0xFFFFFFFF), (.b, tcfgMax)]].all fun go =>
      (((commitOf go setAside).tcfgLanes .s0).all fun x => go.any fun g => g.1 == x) &&
        go.all fun g => ((commitOf go setAside).tcfgLanes .s0).contains g.1) = true ∧
    (let go := [(Lane.a, tcfgMax), (.b, tcfgMax)]
     (∀ g ∈ go, g.2 = (go.headD (.a, 0)).2) ∧ ∀ g ∈ go, tcfgOk g.2 = true) ∧
    tcfgOk 0xFFFFFFFF = false ∧ setAside.retired .a = false := by decide +kernel

/-- S0 is halted in every lane. -/
def halted0 : State := Lane.list.foldl (fun s l => echo l .s0 (fun e => { e with halted := true }) s) live

theorem witness_RestartReleasesAHaltedStrand :
    live.mgmtCommands = true ∧ halted0.mgmtCommands = true ∧ live.halted .s0 = false ∧ halted0.halted .s0 = true ∧ 2 ≤ (halted0.eligible .s0).length ∧
    (Lane.list.all fun l => receivedBy [(1 : Byte)] (Tri.all none) l == [1]) = true ∧ halted0.mOn = true ∧
    (halted0.linked .m).length = 3 ∧
    ((aRetired (Lane.list.foldl (fun s l => echo l .s0 (fun e => { e with inStep := ⟨true, true, false⟩ }) s) halted0)).eligible .s0).length < 2 := by
  decide +kernel

/-- Lane B received another image than lane A, and the hashes of the two differ. -/
theorem witness_RestartRefusesAnotherImage (h : Config.sha256 [2] ≠ Config.sha256 [1]) :
    halted0.halted .s0 = true ∧ Lane.b ∈ halted0.eligible .s0 ∧ (halted0.eligible .s0).headD .a = .a ∧
    sameHash (receivedBy [1] ⟨none, some [2], none⟩ .b) (receivedBy [1] ⟨none, some [2], none⟩ .a) = false := by
  refine ⟨by decide +kernel, by decide +kernel, by decide +kernel, ?_⟩
  simpa [sameHash, receivedBy, Tri.get] using h

/-! ### Power, clocks and boot -/

/-- The state with the management register `off` changed. -/
def mg (off : Nat) (v : Word) (s : State) : State := s.setReg .m off v

theorem witness_PowerAndClockLossesLeaveWhatIsStored :
    live.supply.good = true ∧ live.supply.holdup = false ∧ ({ live with supply := ⟨true, true, false⟩ } : State).supply.holdup = true ∧
    live.retired .a = false ∧ live.pdOn .p1 = true ∧ (live.port .p1).guard.stopped = false ∧ live.fOn = true ∧ live.mOn = true ∧
    (let s := mg Reg.mgPwr 0xFFFF (stopped .p1 live)
     s.pdOn .p1 = false ∧ s.flag .m Reg.mgPwr 6 = true) ∧
    (live.setReg .m Reg.mgStat 0).mgmt.running = live.mgmt.running := by decide +kernel

theorem witness_BootAttemptsAndRestartsOfManagement :
    State.reset.supply.good = true ∧ State.reset.bootPhase = 0 ∧ (mg Reg.mgStat 0x20000000 live).bootPhase = 1 ∧
    1 < (mg Reg.mgStat 0x40000000 live).bootPhase ∧ (mg Reg.mgStat 0x60000000 live).bootPhase = 3 ∧
    live.released.get .s0 = true ∧ live.linked .m = [.a, .b, .c] ∧ flushedMailboxes.length = 12 ∧
    State.reset.rom.isSome = true ∧
    (State.reset.writeBoot { State.reset.boot with barred := 1 }).rom.isNone = true ∧ live.tcfg.get .s0 = none ∧
    ({ live with tcfg := live.tcfg.set .s0 (some ⟨[], 0, true, [], none⟩) } : State).tcfg.get .s0 = some ⟨[], 0, true, [], none⟩ ∧
    (live.setFlag .p1 Reg.gwCommit 1 true).commitBusy .p1 Reg.gwCommit = true ∧
    (live.setFlag .p1 Reg.ttCommit 1 true).commitBusy .p1 Reg.ttCommit = true ∧
    (live.setFlag .f Reg.fdCommit 1 true).commitBusy .f Reg.fdCommit = true := by decide +kernel

/-! ### The service protocol and firmware update -/

/-- A requester, its message to every unit, and its message to serial number 7. -/
def who : Requester := .x6 1 2
def toAll : SvcHead := ⟨who, 3, 0, true⟩
def toUs : SvcHead := ⟨who, 3, 7, true⟩

/-- Management runs in a unit with serial number 7, and a nonce is out. -/
def serving : State :=
  let s := mg Reg.mgSerial 7 live
  { s with mgmt := { s.mgmt with running := true, nonce := some [], plug := [(0x50, [1]), (0x58, [2])] } }

/-- The same with a session, of a key with debug usage or without. -/
def session (dbg : Bool) : State :=
  { serving with mgmt := { serving.mgmt with sessions := [⟨who, dbg, 600000000000⟩] } }

/-- The update state set. -/
def upd (n : Nat) (s : State) : State := s.setFld .m Reg.mgUpd 31 29 n

theorem witness_ServiceAnswersQueriesAndAsksForASession :
    toUs.from' = .x6 1 2 ∧ toUs.target ≠ 0 ∧ toAll.target = 0 ∧ serving.svcTakes toUs = true ∧ serving.svcTakes toAll = true ∧
    (List.replicate 16 (0 : Byte)).length = 16 ∧ serving.authOk 0 [] [] = false ∧ live.mgmt.nonce = none ∧
    serving.authOk 4 [] [] = false ∧
    (serving.mgmt.plug.find? fun x => x.1 == 0x50) = some (0x50, [1]) ∧
    (serving.mgmt.plug.find? fun x => x.1 == 0x58) = some (0x58, [2]) ∧
    serving.svcTakes { toUs with target := 8 } = false ∧ serving.session toUs.from' = none ∧
    serving.bootPhase ≠ 3 ∧ (mg Reg.mgStat 0x60000000 serving).bootPhase = 3 := by decide +kernel

/-- The same with one service key in the OTP. -/
def keyed (key : List Byte) : State :=
  { serving with mgmt := { serving.mgmt with keys := [⟨Config.sha256 key, false, true, false, false⟩] } }

/-- A service key that the OTP knows, and a signature of the nonce and the serial number with it, pass AUTH. -/
theorem witness_AuthPasses (key sig : List Byte) (hk : key.length = 64) (hs : sig.length = 64)
    (h : Config.signatureOk key ([] ++ leBytes 4 7) sig = true) : (keyed key).authOk 0 key sig = true := by
  have e : (keyed key).serial.toNat = 7 := (by decide +kernel : serving.serial.toNat = 7)
  have n : (keyed key).mgmt.nonce = some [] := rfl
  have o : (keyed key).otpKey 0 = ⟨Config.sha256 key, false, true, false, false⟩ := rfl
  simp only [State.authOk, o, n, e, hk, hs, h]
  simp

/-- A package of 28 bytes with no components. -/
def whole : List Byte :=
  let bs := List.replicate 20 0 ++ leBytes 4 28
  bs ++ leBytes 4 (crc32c bs).toNat

/-- P1 delivers a valid network time. -/
def clocked (s : State) : State := s.setReg .p1 Reg.tbStat 0

theorem witness_SessionOperationsChangeTheUpdateState :
    (session true).svcTakes toAll = true ∧ (session true).session toAll.from' = some ⟨who, true, 600000000000⟩ ∧
    (upd updArmed (session true)).updState = updArmed ∧ (upd updUnconfirmed (session true)).updState = updUnconfirmed ∧
    (session true).updState ≠ updArmed ∧ (session true).updState ≠ updUnconfirmed ∧ (session true).updState ≠ updStaged ∧
    (let s := session true
     let t := { s with mgmt := { s.mgmt with staging := some (4, 0, []) } }
     t.mgmt.staging = some (4, 0, []) ∧ 0 + [(1 : Byte), 2, 3, 4].length ≤ 4 ∧ 4 < 1 + [(1 : Byte), 2, 3, 4].length ∧
       t.session toAll.from' = some ⟨who, true, 600000000000⟩) ∧
    transferOk 4 0 [] = false ∧ transferOk 28 (crc32c (whole.take 24)) [(0, whole)] = true ∧ toAll.target = 0 ∧ (upd updStaged (session true)).updState = updStaged ∧ (session true).mFenced = false ∧
    (let s := clocked (upd updStaged (session true))
     (s.updClock = some 0) ∧ s.armInRange 999999999 = false ∧ s.armInRange 1000000000 = true ∧
       s.armInRange 604800000000000 = true ∧ s.armInRange 604800000000001 = false) := by decide +kernel

theorem witness_DebugAuthorisationAndSessionsEnd :
    (session true).svcTakes toAll = true ∧ (session true).session toAll.from' = some ⟨who, true, 600000000000⟩ ∧
    (session false).session toAll.from' = some ⟨who, false, 600000000000⟩ ∧ ((session true).setFlag .m Reg.vtFence 0 true).mFenced = true ∧
    (session true).mFenced = false ∧ (session true).mOn = true ∧ live.supply.good = true ∧
    (live.setFlag .m Reg.mgDbg 31 true).debugAuth = true ∧ live.floodCount 6 < 64 ∧ (live.setFld .m (Reg.smLock 5) 3 0 15).lockOwner 5 = 15 ∧
    live.lockOwner 63 ≠ 15 ∧ live.debugAuth = false ∧
    (session true).mgmt.dbgUntil ≤ (session true).ns ∧
    (let s := { live with mgmt := { live.mgmt with dbgUntil := 60000000000 } }
     s.ns < s.mgmt.dbgUntil) ∧
    (let s := (serving.setNet (.ctl .p1) { serving.net (.ctl .p1) with phase := .active })
     let t := { s with mgmt := { s.mgmt with notice := some (61, 0, 0, 0x10) } }
     t.mgmt.notice = some (61, 0, 0, 0x10) ∧ t.mgmt.noticeAt ≤ t.ns ∧ t.mOn = true ∧ t.mgmt.running = true ∧ t.pdOn .p1 = true ∧
       (t.port .p1).net.phase = .active) ∧ serving.mgmt.notice = none := by decide +kernel

theorem witness_UpdateIsVetoedActivatedOrConfirmed :
    live.mOn = true ∧ (upd updArmed live).updState = updArmed ∧ (clocked (upd updArmed live)).updClock = some 0 ∧
    (let s := upd updArmed (stopped .p1 (stopped .p2 live))
     s.updClock = none ∧ s.mOn = true ∧ s.updState = updArmed) ∧ live.updState ≠ updArmed ∧ live.updState ≠ updUnconfirmed ∧
    (upd updArmed live).bootPhase ≠ bootHalt ∧ live.strandFenced (.strand .s0) .m = false ∧
    (let s := ((clocked (upd updArmed live)).setReg .m Reg.mgUpdTLo 100000000)
     s.updClock = some 0 ∧ (0 : Dword).toNat + 100000000 ≤ s.updTime.toNat ∧ (0 : Dword).toNat < s.updTime.toNat) ∧
    (let s := clocked (upd updArmed live)
     s.updClock = some 0 ∧ s.updTime.toNat ≤ (0 : Dword).toNat) ∧
    (let s := ((clocked (upd updArmed live)).setReg .m Reg.mgUpdTLo 99999999)
     s.updClock = some 0 ∧ s.updTime.toNat < (0 : Dword).toNat + 100000000) ∧
    (let s := atNs 60000000000 (mg Reg.mgStat 0x60000000 live)
     s.bootPhase = bootReleased ∧ s.mgmt.disturbed = false ∧ s.mOn = true ∧ s.mgmt.releasedAt + 60000000000 ≤ s.ns ∧
       s.boot.unconfirmed = false ∧ s.mgmt.frozen = none ∧
       ([0, 2, 3].all fun n => let t := s.writeBoot { s.boot with unconfirmed := true, boots := n }
         t.boot.unconfirmed && t.boot.boots == n && t.bootPhase == bootReleased && !t.mgmt.disturbed && t.mOn &&
           decide (t.mgmt.releasedAt + 60000000000 ≤ t.ns)) = true) := by
  decide +kernel

/-- Slot B holds a package other than the one that runs. -/
theorem witness_RevertNeedsAnotherPackage :
    (let s := session true
     { s with mgmt := { s.mgmt with slotB := List.replicate 5 ⟨[1], []⟩ } } : State).canRevert = true := by decide +kernel

/-! ### KTN channels -/

/-- P1's controller changed; P1's guardian changed. -/
def ctl (f : Net → Net) (s : State) : State := s.setNet (.ctl .p1) (f (s.net (.ctl .p1)))
def grd (f : Guard → Guard) (s : State) : State := s.setGuard .p1 (f (s.guard .p1))
def gnet (f : Net → Net) (s : State) : State := s.setNet (.gd .p1) (f (s.net (.gd .p1)))

/-- The guardian of P1's channel, which is part of P2, in a phase with the timebase of its controller. -/
def watched (ph : NetPhase) (s : State) : State :=
  s.setNet (.gd .p2) { s.net (.gd .p2) with phase := ph, time := (s.net (.ctl .p1)).time }

/-- The controller, or the guardian, in a phase. -/
def phase (ph : NetPhase) (s : State) : State := ctl (fun x => { x with phase := ph }) s
def gphase (ph : NetPhase) (s : State) : State := gnet (fun x => { x with phase := ph }) s

/-- Tables of one mode at address `t` of P1: five slots of 32760 ns in a cycle of 250 µs, one of management of node 1 and four
of inauguration; `k` is 0 for the tables in force and 4 (slots 0x10000) for the staged ones. -/
def tables (n : NetId) (stg : Bool) (s : State) : State :=
  let r := fun (a b : Nat) (v : Word) (t : State) => t.setReg n.host.unit (n.key (if stg = true then b else a)) v
  let slots := (List.range 5).foldl (fun t i =>
    r (Reg.ttSlotLo 0 i) (Reg.ttSlotLoStg 0 i) (BitVec.ofNat 32 (4095 * i * 256 + (if i = 0 then 1 else 255)))
      (r (Reg.ttSlotHi 0 i) (Reg.ttSlotHiStg 0 i)
        (BitVec.ofNat 32 (4095 * 2 ^ 20 + (if i = 0 then 4 * 64 + 4 else 5 * 64) + 1)) t)) s
  r Reg.ttCfg Reg.ttCfgStg 0x88B50100 (r Reg.ttTimeCfg Reg.ttTimeCfgStg (BitVec.ofNat 32 (100 * 2 ^ 21 + 10 * 1024 + 16))
    (r (Reg.ttModeCyc 0) (Reg.ttModeCycStg 0) (BitVec.ofNat 32 (2 ^ 31 + 5 * 65536 + 250)) slots))

/-- Node 1 on those tables, ACTIVE, with both ports up. -/
def node1 : State :=
  ctl (fun x => { x with phase := .active, id := 1, mode := 0
                         links := ⟨{ x.links.west with up := true }, { x.links.east with up := true }⟩ })
    (tables (.ctl .p1) false live)

/-- A frame of kind `k` from node 2 with a right header CRC. -/
def frame (k : BitVec 3) (hop : BitVec 7) (fcs : Bool) : KFrame :=
  let h : KHeader := ⟨k, 0, 0, 2, hop, false, 0, 0, 0, 1, false, 0, 0⟩
  ⟨0xFFFFFFFFFFFF, 0x020000000002, 0x88B5, false, { h with hcrc := crc16 (headBytes h) }, [], fcs⟩

theorem witness_ChannelStatesFollowTheirTimeouts :
    live.chOn .p1 = true ∧
    (let s := ctl (fun x => { x with phase := .listen, clock := 10000000000 }) (live.setReg .p1 Reg.ttCfg 8)
     s.listenDue (.ctl .p1) = true ∧ (s.net (.ctl .p1)).phase = .listen ∧ s.ttCsNode (.ctl .p1) = true ∧ s.chOn .p1 = true ∧
       (s.net (.ctl .p1)).time.toNat + 1000 < 2 ^ 64) ∧
    (let s := ctl (fun x => { x with phase := .integrate, clock := 10000000000 }) live
     s.listenDue (.ctl .p1) = true ∧ s.ttCsNode (.ctl .p1) = false ∧ (s.net (.ctl .p1)).phase = .integrate) ∧
    node1.listenDue (.ctl .p1) = false ∧
    (let s := ctl (fun x => { x with phase := .backoff, clock := 10000000000 }) live
     (s.net (.ctl .p1)).phase = .backoff ∧ s.backoffDue (.ctl .p1) = true) ∧
    (phase .backoff node1).backoffDue (.ctl .p1) = false ∧
    (let s := ctl (fun x => { x with phase := .holdover, hcount := 65535 }) live
     (s.net (.ctl .p1)).phase = .holdover ∧ s.holdMax .p1 ≤ (s.net (.ctl .p1)).hcount) ∧
    ((phase .holdover live).net (.ctl .p1)).hcount < (phase .holdover live).holdMax .p1 ∧
    (let s := ctl (fun x => { x with conflict := some 0, total := 1000 }) node1
     (s.net (.ctl .p1)).conflict = some 0 ∧ 0 + 4 * s.inaugRound (.ctl .p1) ≤ (s.net (.ctl .p1)).total) ∧
    0 < 0 + 4 * node1.inaugRound (.ctl .p1) ∧ (node1.net (.ctl .p1)).conflict = none := by decide +kernel

/-- A change to mode 1 in cycle 5, agreed or not. -/
def change5 (ok : Bool) : ModeChange := ⟨⟨1, 0, 5⟩, 2, 0, ok, false, false⟩

theorem witness_CyclesCountAndModesChangeByAgreement :
    live.chOn .p1 = true ∧ (live.net (.ctl .p1)).phase.timed = false ∧ (node1.net (.ctl .p1)).phase.timed = true ∧
    dueChange (node1.net (.ctl .p1)) 1 = none ∧ dueChange { node1.net (.ctl .p1) with pend := some (change5 true) } 5 = some (change5 true) ∧
    ((phase .coldstart live).net (.ctl .p1)).phase = .coldstart ∧ ((phase .adopted live).net (.ctl .p1)).phase = .adopted ∧
    ((phase .holdover live).net (.ctl .p1)).phase = .holdover ∧ (live.net (.ctl .p1)).phase = .off ∧
    fieldOf (0x10 : Word) 31 4 ≠ 0 ∧ fieldOf (0x9 : Word) 31 4 = 0 ∧ bitOf (0x9 : Word) 3 = true ∧ bitOf (1 : Word) 3 = false ∧
    (node1.net (.ctl .p1)).phase = .active ∧ listed (node1.authList (.ctl .p1)) (node1.net (.ctl .p1)).id = false ∧
    (let s := (node1.setReg .p1 (Reg.ttAuth 0) 1).setReg .p1 (Reg.ttModeCyc 1) 0x80000000
     listed (s.authList (.ctl .p1)) (s.net (.ctl .p1)).id = true ∧ s.modeValid (.ctl .p1) (fieldOf (0x9 : Word) 2 0) = true ∧
       fieldOf (0x9 : Word) 2 0 ≠ (s.net (.ctl .p1)).mode ∧ pendingChange (s.net (.ctl .p1)) = false ∧
       (s.port .p1).reqDue = none ∧ s.ownMgmt .p1 = true ∧ s.ktnUp .p1 = true ∧ reaches s .s0 .p1 .p1 Reg.ttModeReq = true) ∧
    (node1.net (.ctl .p1)).wait = none ∧ reaches node1 .s0 .p1 .p1 Reg.ttModeReq = true ∧
    (frame 3 0 true).hdr.kind = kindModeReq ∧ headerOk (frame 3 0 true) = true ∧ (frame 3 0 true).fcsOk = true ∧
    live.ktnUp .p1 = false ∧ (change5 false).agreed = false ∧ (change5 false).expired = false ∧ (live.net (.ctl .p1)).pend = none ∧
    (let s := node1.setPort .p1 { node1.port .p1 with ownReq := some ⟨⟨1, 0, 5⟩, false⟩ }
     let s := ctl (fun x => { x with cycle := 4 }) s
     (s.port .p1).ownReq = some ⟨⟨1, 0, 5⟩, false⟩ ∧ (s.net (.ctl .p1)).pend = none ∧ (s.net (.ctl .p1)).cycle = (5 : Half) - 1) ∧ (live.port .p1).ownReq = none ∧
    (({ node1.net (.ctl .p1) with cycle := 4, pend := some (change5 false) } : Net).cycle = (change5 false).echo.cycle - 1) := by
  decide +kernel

/-- The guardian of node 1's channel has its tables and is ACTIVE. -/
def gfree (s : State) : State :=
  let t := watched .active (tables (.gd .p2) false s)
  t.setNet (.gd .p2) { t.net (.gd .p2) with id := 1, mode := 0 }

theorem witness_FramesAreCheckedForwardedAndSent :
    node1.chOn .p1 = true ∧ (node1.net (.ctl .p1)).phase = .active ∧ node1.portUp .p1 .west = true ∧
    node1.isKtn (.ctl .p1) { frame 1 0 true with tagged := true } = false ∧ node1.isKtn (.ctl .p1) (frame 1 0 true) = true ∧
    headerOk { frame 1 0 true with hdr := { (frame 1 0 true).hdr with hcrc := 0 } } = false ∧
    headerOk (frame 1 127 true) = true ∧ (frame 1 127 true).hdr.hop.toNat = 127 ∧ headerOk (frame 1 0 false) = true ∧
    (frame 1 0 true).hdr.kind ≠ kindInaug ∧ node1.isOwnFrame .p1 (frame 1 0 true) = false ∧
    (phase .integrate node1).notForwarded .p1 (frame 1 126 true) = false ∧ (phase .integrate node1).ktnUp .p1 = false ∧
    (phase .integrate node1).portUp .p1 .east = true ∧ (frame 1 126 true).hdr.hop.toNat ≠ 127 ∧
    (phase .integrate node1).lineBusy .p1 Port.west.other true 64 = false ∧
    (watched .listen (phase .integrate node1)).passesForward .p1 = true ∧
    (watched .off (phase .integrate node1)).passesForward .p1 = false ∧
    (frame 1 0 true).dst ≠ linkAddr ∧ ({ frame 1 0 true with dst := linkAddr } : KFrame).dst = linkAddr ∧
    (ctl (fun x => { x with id := 2 }) node1).isOwnFrame .p1 (frame 1 0 true) = true ∧
    ((watched .listen (tables (.gd .p2) false node1)).passes .p1 (frame 1 0 true) 0).isSome = false ∧ (gfree node1).passes .p1 (frame 1 0 true) 33000 = some (frame 1 0 true) ∧
    node1.slotInForce (.ctl .p1) 5 = none ∧ node1.slotInForce (.ctl .p1) 4 = some (node1.slot (.ctl .p1) 0 4) ∧
    (live.net (.ctl .p1)).phase = .off := by decide +kernel

/-- A link delay frame with a right CRC, and an inauguration view that has stood for 4 rounds. -/
def linkFrame : LinkDelayFrame :=
  let f : LinkDelayFrame := ⟨linkAddr, 0x020000000002, 0x88B6, 9, 0, false, 1, 0, 0, 0, 0, 0, true⟩
  { f with dcrc := crc32c (linkBytes f) }
def settled (c pos : Nat) (s : State) : State := ctl (fun x => { x with view := .complete c pos, total := 100000, count := 3 }) s

theorem witness_InaugurationPathsAndLinkDelays :
    ((live.port .p1).net.links.get .west).up = false ∧ node1.chOn .p1 = true ∧ node1.viewSettled (.ctl .p1) = false ∧
    (settled 3 128 node1).viewSettled (.ctl .p1) = true ∧ ((settled 3 128 node1).net (.ctl .p1)).view = .complete 3 128 ∧
    (let s := watched .active (node1.setNet (.gd .p2) { node1.net (.gd .p2) with total := 100000 })
     s.guardLive PDie.p1.other = true ∧ s.viewSettled (guardOf .p1) = true) ∧ node1.guardLive PDie.p1.other = false ∧
    (let s := ctl (fun x => { x with total := 64, syncs := [{ emptySyncRec with dropAt := some 0 }] })
        (node1.setReg .p1 (Reg.ttSynclist 0) 2)
     s.syncIndex (.ctl .p1) (2 : Byte).toNat = some 0 ∧
       ((((s.net (.ctl .p1)).syncs[0]?).getD emptySyncRec).dropAt = some 0) ∧ 0 + 64 ≤ (s.net (.ctl .p1)).total) ∧
    (live.net (.ctl .p1)).phase ≠ .adopted ∧
    (let s := ctl (fun x => { x with links := x.links.set .east { x.links.east with up := false } }) node1
     (s.net (.ctl .p1)).phase = .active ∧ (s.port .p1).linkSentAt ≠ some (s.net (.ctl .p1)).total ∧ s.portUp .p1 .west = true ∧
       s.portUp .p1 .east = false) ∧
    linkFrame.dst = linkAddr ∧ ({ linkFrame with dst := 0 } : LinkDelayFrame).dst ≠ linkAddr ∧
    ({ linkFrame with ok := false }).ok = false ∧ linkFrame.ok = true ∧ linkFrame.dcrc = crc32c (linkBytes linkFrame) := by
  decide +kernel

/-- The boundary of a measurement period, of a stale link and of a new position. -/
theorem witness_LinkPeriodsAndPositions :
    (let s := gfree node1
     let l := { (s.net (.gd .p2)).links.west with up := true, phase := .measured }
     let s := s.setNet (.gd .p2) { s.net (.gd .p2) with run := 1000000000, links := (s.net (.gd .p2)).links.set .west l }
     s.guardLive PDie.p1.other = true ∧ guardOf .p1 = .gd .p2 ∧ periodDue ((s.net (guardOf .p1)).links.get .west) (s.net (guardOf .p1)).run = true ∧
       staleDue ((s.net (guardOf .p1)).links.get .west) (s.net (guardOf .p1)).run = true ∧
       periodDue ((gfree node1).net (guardOf .p1)).links.east ((gfree node1).net (guardOf .p1)).run = false) ∧
    (let s := ctl (fun x => { x with run := 125000000, links := x.links.set .west { x.links.west with phase := .measured } }) node1
     periodDue ((s.net (.ctl .p1)).links.get .west) (s.net (.ctl .p1)).run = true ∧
       staleDue ((s.net (.ctl .p1)).links.get .west) (s.net (.ctl .p1)).run = false) ∧
    (let s := ctl (fun x => { x with run := 1000000000, links := x.links.set .west { x.links.west with phase := .measured } }) node1
     staleDue ((s.net (.ctl .p1)).links.get .west) (s.net (.ctl .p1)).run = true) ∧
    periodDue ((node1.net (.ctl .p1)).links.get .west) (node1.net (.ctl .p1)).run = false ∧
    (node1.setReg .p1 Reg.ttCfg (node1.tt (.ctl .p1) Reg.ttCfg ||| 16)).ttIdsrc (.ctl .p1) = true ∧
    (128 : Nat) ≠ (live.net (.ctl .p1)).pos ∧ (live.net (.ctl .p1)).pos = 0 ∧
    ((ctl (fun x => { x with pos := 5 }) node1).net (.ctl .p1)).pos ≠ 0 ∧
    ((node1.setPort .p1 { node1.port .p1 with linkSentAt := some 0 }).port .p1).linkSentAt = some (node1.net (.ctl .p1)).total := by
  decide +kernel

/-- The guardian of node 1's channel has its tables and is ADOPTED. -/
def tailed : State := watched .adopted (tables (.gd .p2) false node1)

theorem witness_LinkDelaysAreMeasuredThroughTheTail :
    (let s := tailed
     let f := fun (t : Nat) => s.enableRoom .p2 (s.guardTime .p2 (BitVec.ofNat 64 t))
     f 248400 = some 592 ∧ f 249199 = some 1 ∧ f 1000 = none ∧ s.enablesOpen .p2 (s.guardTime .p2 1576) = false) ∧
    (let l : LinkState := { (node1.net (.ctl .p1)).links.west with got := some (0, 4, 1000), sent := [(3, 4, 100)] }
     let f := { linkFrame with rxSeq := 3, rxValid := true }
     measure l f 5 = some 7200 ∧ measure l { f with txPrev := 500, rxPrev := 1500 } 5 = some 15200 ∧
       measure l { f with txPrev := 9500 } 5 = some (-68800) ∧ measure l { f with rxPrev := 9500 } 5 = some 83200 ∧
       measure l f 6 = none ∧ f.serial ≠ l.nbr ∧ f.serial = { l with nbr := 9 }.nbr) := by decide +kernel

/-- P1's staged tables are right. -/
def ready : State := tables (.ctl .p1) true live

theorem witness_TableCommitNeedsItsGuardian :
    live.chOn .p1 = true ∧ live.mOn = true ∧ ready.mOn = true ∧ (stopped .m live).mOn = false ∧
    (live.setFlag .p1 Reg.ttCommit 1 true).commitBusy .p1 Reg.ttCommit = true ∧
    live.commitBusy .p1 Reg.ttCommit = false ∧ live.ttCheck (.ctl .p1) = some 1 ∧ ready.commitBusy .p1 Reg.ttCommit = false ∧
    ready.ttCheck (.ctl .p1) = none ∧ (live.port PDie.p1.other).commit = none ∧
    (let s := live.setPort .p2 { live.port .p2 with commit := some ⟨none, false, 0⟩ }
     (s.port PDie.p1.other).commit = some ⟨none, false, 0⟩ ∧ s.consumers.m.running = true ∧ (s.port .p1).guard.reply = none ∧
       (s.port .p1).guard.stopped = false) ∧
    (let s := live.setPort .p1 { live.port .p1 with commit := some ⟨some 7, false, 0⟩ }
     let t := s.setPort .p2 { s.port .p2 with guard := { (s.port .p2).guard with reply := some (0, false) } }
     (t.port .p1).commit = some ⟨some 7, false, 0⟩ ∧ (t.port PDie.p1.other).guard.reply = some (0, false) ∧
       (0 : Word) = t.reg .p1 Reg.ttTblCrcStg ∧ (1 : Word) ≠ t.reg .p1 Reg.ttTblCrcStg ∧ t.ns < 0 + 1000000 ∧
       0 + 1000000 ≤ (atNs 1000000 t).ns) ∧
    (let s := ctl (fun x => { x with phase := .active, cycle := 7 }) (live.setPort .p1 { live.port .p1 with commit := some ⟨some 7, true, 0⟩ })
     (s.port .p1).commit = some ⟨some 7, true, 0⟩ ∧ (s.net (.ctl .p1)).cycle = 7 ∧ (s.net (.ctl .p1)).phase.timed = true) := by
  decide +kernel

/-! ### Guardians and leases -/

/-- Three violations of P1's guardian in the last 1000 cycles, on top of `n` cycles. -/
def violated (k : Nat) (s : State) : State := grd (fun g => { g with viols := List.replicate k g.net.total }) s

/-- The guardian of P1 on the tables of `tables`, ACTIVE in a cycle that began at 0, as node 1 of a set with node 2. -/
def guarded : State :=
  gnet (fun x => { x with phase := .active, id := 1, mode := 0, cycle := 9 }) (tables (.gd .p1) false live)

/-- The guardian of P2's channel, which is part of P1, passes a frame in its own node's slot, and nothing when it is off. -/
theorem witness_FramesPassTheGuardian :
    (guarded.passes .p2 (frame 1 0 true) 400).isSome = true ∧ live.passes .p2 (frame 1 0 true) 0 = none := by decide +kernel

theorem witness_GuardiansKeepTheirOwnStatesAndLatch :
    (guarded.guard .p1).net.phase = .active ∧ (guarded.guard .p1).stopped = false ∧ guarded.enablesOpen .p1 200000 = false ∧
    (let s := grd (fun g => { g with lastStart := none }) (gphase .coldstart live)
     s.enablesOpen .p1 0 = true ∧ (s.guard .p1).net.phase = .coldstart ∧ (s.guard .p1).stopped = false) ∧
    guarded.enablesOpen .p1 248300 = true ∧ guarded.tailRoom .p1 248300 = some 592 ∧ guarded.enableRoom .p1 200000 = none ∧
    guarded.enableRoom .p1 400 = some ((42 + 30) * 8 + 16) ∧ (live.guard .p1).net.phase = .off ∧ guarded.inTail .p1 248200 = true ∧
    guarded.inTail .p1 248199 = false ∧ decide ((guarded.guard .p1).net.total < (guarded.guard .p1).exemptUntil) = false ∧
    (let g := (violated 1 guarded).guard .p1
     (g.viols.filter fun v => decide (g.net.total < v + 1000)).length < 2) ∧
    (let g := (violated 2 guarded).guard .p1
     2 ≤ (g.viols.filter fun v => decide (g.net.total < v + 1000)).length ∧ guardTimed g = true ∧
       (violated 2 guarded).guardLive .p1 = true) ∧
    (live.guard .p1).latched = false ∧ ((grd (fun g => { g with latched := true }) live).guard .p1).latched = true ∧
    ((grd (fun g => { g with fenced := true }) live).guard .p1).fenced = true ∧
    (live.setFlag .p1 Reg.gdFence 1 true).flag .p1 Reg.gdFence Lane.b.idx = true ∧ live.guardLive .p1 = false ∧
    guarded.guardLive .p1 = true ∧ guarded.listenDue (.gd .p1) = false ∧ (guarded.guard .p1).net.wait = none ∧
    (let s := gnet (fun x => { x with clock := 10000000000 }) (gphase .adopted guarded)
     s.listenDue (.gd .p1) = true ∧ s.guardLive .p1 = true ∧ (s.guard .p1).net.phase = .adopted) ∧
    (let s := gnet (fun x => { x with clock := 10000000000 }) ((gphase .listen guarded).setReg .p1 ((NetId.gd .p1).key Reg.ttCfg) 0x88B50108)
     (s.listenDue (.gd .p1) = true ∧ (s.guard .p1).net.phase = .listen ∧ s.ttCsNode (.gd .p1) = true ∧ s.guardLive .p1 = true)) ∧
    ((gphase .adopted guarded).guard .p1).net.phase = .adopted ∧
    (let s := gnet (fun x => { x with phase := .holdover, hcount := 65535 }) live
     s.guardHoldMax .p1 ≤ (s.guard .p1).net.hcount) ∧
    (let s := gnet (fun x => { x with phase := .holdover, hcount := 15 }) live
     (s.guard .p1).net.hcount < s.guardHoldMax .p1) ∧
    (frame 1 0 true).dst ≠ linkAddr ∧ guarded.isKtn (.gd .p1) (frame 1 0 true) = true ∧ headerOk (frame 1 0 true) = true ∧ (frame 1 0 false).fcsOk = false := by
  decide +kernel

/-- A lease of P1 in a state, owned by S0, with a guardian that is qualified. -/
def leased (st : Nat) : State :=
  (gnet (fun x => { x with syncs := [⟨[8, 7], [], [], none, none, none, none⟩] }) (guarded.setReg .p1 ((NetId.gd .p1).key (Reg.ttSynclist 0)) 2)).setFld
    .p1 Reg.lsStat 31 30 st

theorem witness_LeaseTimersChangeStateAndHeldLeasesReachOutputs :
    reaches live .s0 .p1 .p1 Reg.lsCmd = true ∧ reaches live .s1 .p1 .p1 Reg.lsCmd = true ∧
    live.lsOwner .p1 = .s0 ∧ lsProvisional ≤ (leased 3).leaseState .p1 ∧ (leased 1).leaseState .p1 < lsProvisional ∧
    Strand.s1 ≠ live.lsOwner .p1 ∧ (leased 0).leaseState .p1 = lsNone ∧ (leased 3).qualified .p1 = true ∧
    (gphase .listen (leased 3)).qualified .p1 = false ∧ (leased 1).leaseState .p1 = lsStandby ∧
    (leased 3).leaseState .p1 = lsHeld ∧
    (let s := (leased 3).setFld .p1 Reg.lsStat 15 0 9
     s.fld .p1 Reg.lsStat 15 0 = (s.guard .p1).net.cycle.toNat ∧ s.leaseState .p1 = lsHeld ∧ s.qualified .p1 = true) ∧
    (leased 2).leaseState .p1 = lsProvisional ∧ ((leased 2).lease .p1).release = false ∧ (leased 2).guardInSync .p1 = true ∧
    (leased 2).leaseSlot .p1 131040 0 = false ∧
    (let s := (leased 2).setReg .p1 ((NetId.gd .p1).key (Reg.ttSlotHi 0 4)) (BitVec.ofNat 32 (4095 * 2 ^ 20 + 2 * 64 + 1))
     s.leaseSlot .p1 131040 0 = true ∧ s.leaseState .p1 ≠ lsNone ∧ s.guardInSync .p1 = true) ∧
    live.leasePayloadOk .p1 (frame 1 0 true) = false ∧ live.chOn .p1 = true ∧ (stopped .p1 live).chOn .p1 = false := by
  decide +kernel

/-! ### DMA channels -/

/-- DMA channel 0 of P1 in a state, with its ring at 0x1000 of 16 entries, HEAD 0 and TAIL `tail`. -/
def chan0 (st : ChState) (tail : Nat) : State :=
  let s := (((live.setReg64 .p1 (Reg.dmBaseLo 0) 0x1000).setChState .p1 0 st).setFld .p1 (Reg.dmIdx 0) 27 16 tail).setFlag .p1 (Reg.dmCtl 0) 0 true
  s.setChan .p1 0 { s.chan .p1 0 with base := 0x1000, size := 16 }

theorem witness_DmaChannelsFollowTheirControls :
    reaches (chan0 .off 0) .s0 .p1 .p1 (Reg.dmCtl 0) = true ∧ reaches (chan0 .idle 0) .s0 .p1 .p1 (Reg.dmDb 0) = true ∧
    reaches live .s1 .p1 .p1 (Reg.dmDb 0) = true ∧
    (let s := chan0 .off 0
     s.chanThere .p1 0 = true ∧ s.chanWriter (.strand .s0) .p1 0 = true ∧ s.chState .p1 0 = .off ∧ s.ringBound .p1 0 = none ∧
       s.reg64 .p1 (Reg.dmBaseLo 0) &&& 0xFFF = 0 ∧ 0 < (s.port .p1).chans.length ∧
       placeOf (s.chOwner .p1 0) (s.reg64 .p1 (Reg.dmBaseLo 0)).toNat (32 * 2 ^ min 12 (max 4 (s.fld .p1 (Reg.dmRcfg 0) 3 0))) =
         .partition) ∧
    (chan0 .idle 0).chState .p1 0 = .idle ∧ ((chan0 .idle 0).chan .p1 0).acts = [] ∧ (chan0 .halted 0).chState .p1 0 = .halted ∧
    (chan0 .halted 0).flag .p1 (Reg.dmCtl 0) 0 = true ∧ fieldOf (15 : Word) 31 12 = 0 ∧
    (let s := chan0 .idle 0
     let v : Word := 15
     fieldOf v 11 0 < (s.chan .p1 0).size ∧
       (fieldOf v 11 0 + (s.chan .p1 0).size - s.chTail .p1 0) % (s.chan .p1 0).size ≤
         (s.chHead .p1 0 + 2 * (s.chan .p1 0).size - s.chTail .p1 0 - 1) % (s.chan .p1 0).size) ∧
    (let s := chan0 .idle 1
     let v : Word := 0
     ¬ (fieldOf v 11 0 + (s.chan .p1 0).size - s.chTail .p1 0) % (s.chan .p1 0).size ≤
         (s.chHead .p1 0 + 2 * (s.chan .p1 0).size - s.chTail .p1 0 - 1) % (s.chan .p1 0).size) ∧
    live.chanWriter (.strand .s1) .p1 0 = false ∧ (live.consumer (Die.ofPDie .p1)).running = true ∧
    live.flag .p1 Reg.dmQuiesce 9 = false ∧ (3 : BitVec 3).toNat ≤ 3 ∧
    live.mOn = true ∧
    (let s := live.setFlag .p1 Reg.dmQuiesce 9 true
     s.flag .p1 Reg.dmQuiesce 10 = false ∧ s.accessOut .p1 (s.fld .p1 Reg.dmQuiesce 2 0) = false ∧ s.mgmt.down = none ∧
       s.ns < (s.port .p1).quiesceAt + 1000000 ∧ ((atNs 1000000 s).port .p1).quiesceAt + 1000000 ≤ (atNs 1000000 s).ns ∧
       (s.setPort .p1 { s.port .p1 with fetches := [⟨0, .s0, 0, 0, 0x1000, 32, [], none, [], none, [.a], Tri.all 0, 0, []⟩] }).accessOut
         .p1 0 = true) ∧
    live.fld .p1 Reg.dmQuiesce 2 0 ≤ 3 := by decide +kernel

/-- A fetch of two bytes with these copies, asked of every lane; `gone` names the lanes that are no party to it. -/
def fetch0 (copies : List (Lane × List Byte)) (kept : Option Dword) (gone : List Lane) : Fetch :=
  ⟨0, .s0, 0, 0, 0x1000, 2, copies, kept, [], none, Lane.list, Tri.all 0, 0, gone⟩

/-- The fetch `f` is open. -/
def fetching (f : Fetch) : State :=
  let s := chan0 .running 1
  s.setPort .p1 { s.port .p1 with fetches := [f] }

/-- An activation of ring index 0 in a stage. -/
def act0 (st : ActStage) (f : Option Nat) : Act :=
  ⟨0, 0x1000, [], [], [], 0, st, f, 0, 0, [], [], 0, 0, 0, 0, 0, 0, 0, 0, 0, none⟩

theorem witness_DescriptorsAreFetchedByVoteAndWrittenBack :
    (let s := chan0 .idle 1
     (s.consumer (Die.ofPDie .p1)).running = true ∧ s.quiesceStops .p1 (s.chOwner .p1 0) true = false ∧ (s.chan .p1 0).acts = [] ∧
       s.chState .p1 0 = .idle ∧ 0 < (s.port .p1).chans.length ∧
       0 < (s.chTail .p1 0 + (s.chan .p1 0).size - s.chHead .p1 0) % (s.chan .p1 0).size ∧ s.copyStalled .p1 0 = false ∧
       s.fetchRecords .p1 (s.chOwner .p1 0) < 256 ∧ (Lane.list.filter fun l => s.quiesced .p1 l) = [] ∧
       2 ≤ (s.voterIn (Die.ofPDie .p1) (s.chOwner .p1 0)).length ∧ s.wbFull .p1 0 = false) ∧
    (chan0 .off 0).chState .p1 0 = .off ∧ live.findFetch .p1 .s0 0 = none ∧ live.readSent .p1 0 .b = none ∧
    (let f := fetch0 [(.a, [1, 2])] none []
     let w := Wire.fetchRead .b .p1 0 0
     let s := onLink [w] (fetching f)
     s.readSent .p1 0 .b = some w ∧ s.mayArrive w = true ∧ (s.arrive w).findFetch .p1 .s0 0 = some f ∧
       (s.consumer (Die.ofPDie .p1)).running = true ∧ f.outAt .b = true ∧ s.poisoned .b f.addr f.len = false) ∧
    (fetch0 [] none []).parties.length = 3 ∧ (fetch0 [] none [.c]).parties.length = 2 ∧
    (let f := fetch0 [(.a, [1]), (.b, [2]), (.c, [1])] none []
     f.copies = [(.a, [1]), (.b, [2]), (.c, [1])] ∧ f.kept = none) ∧
    (let f := fetch0 [] none []
     (fetching f).findFetch .p1 .s0 f.id = some f ∧ f.outAt .b = true ∧ (fetching f).ns < f.askedAt.get .b + 10000 ∧
       f.askedAt.get .b + 10000 ≤ (atNs 10000 (fetching f)).ns) ∧
    (let s := (fetching (fetch0 [] none [])).setChan .p1 0 { (chan0 .running 1).chan .p1 0 with acts := [act0 .desc (some 0)] }
     s.actAt .p1 0 0 = some (act0 .desc (some 0)) ∧ (act0 .desc (some 0)).fetch = some (fetch0 [] none []).id) ∧
    (let f := fetch0 [(.a, [1, 2]), (.b, [1, 2])] (some 0) []
     let s := atNs 1000000 (fetching f)
     s.findFetch .p1 .s0 f.id = some f ∧ f.parties.length = 3 ∧ (Lane.list.find? fun l => f.awaits l) = some .c ∧
       f.since + s.dieSkewNs (Die.ofPDie .p1) .s0 ≤ s.ns ∧ (fetching f).ns < f.since + s.dieSkewNs (Die.ofPDie .p1) .s0) ∧
    (let f := fetch0 [(.a, [1, 2]), (.b, [1, 2]), (.c, [9, 2])] (some (crc64 [1, 2])) []
     f.kept = some (crc64 [1, 2]) ∧ f.copies = [(.a, [1, 2]), (.b, [1, 2])] ++ [(.c, [9, 2])] ∧ crc64 [9, 2] ≠ crc64 [1, 2] ∧
       (Lane.list.any fun x => f.awaits x) = false ∧ f.parties.length = 3) ∧
    (Lane.list.any fun x => (fetch0 [(.a, [1, 2]), (.b, [1, 2])] (some (crc64 [1, 2])) []).awaits x) = true ∧
    ((fetching (fetch0 [] none [])).setChan .p1 0 { (chan0 .running 1).chan .p1 0 with acts := [act0 .desc (some 0)] } |>.chan .p1
      (fetch0 [] none []).ch).acts = [act0 .desc (some 0)] ∧ (act0 .desc (some 0)).index = (fetch0 [] none []).index ∧
    (live.setFld .p1 (Reg.vtStat 0) 4 3 2).voterHalted .p1 ((live.setFld .p1 (Reg.vtStat 0) 4 3 2).chOwner .p1 0) = true ∧
    (act0 .done none).status ≠ stVoteFail ∧
    (act0 .desc none).stage ≠ .done ∧ (act0 .done none).stage = .done ∧ halting stVoteFail = true := by decide +kernel

/-! ### Gallery, remote reads, CAN -/

/-- P1's PDU 5 with a configuration word and a buffer of 8 bytes; both engines work. -/
def pdu5 (cfg : Word) : State :=
  let s := (live.setReg .p1 (Reg.gwPduCfg 5) cfg).setReg .p1 Reg.gwStat 5
  s.setGw .p1 { s.gw .p1 with pdus := [⟨5, List.replicate 8 0, List.replicate 8 0, false, false, none⟩] }

/-- A valid KTN_RX PDU, and a STRAND PDU of S0, both of 8 bytes. -/
def rxPdu : State := pdu5 (BitVec.ofNat 32 (2 ^ 31 + 2 ^ 28 + 8))
def ownPdu : State := pdu5 (BitVec.ofNat 32 (2 ^ 31 + 3 * 2 ^ 28 + 8))

/-- The Gallery of P1 changed. -/
def gal (f : Gallery → Gallery) (s : State) : State := s.setGw .p1 (f (s.gw .p1))

/-- Map entry 0, valid, with a freshness limit of 100 µs, of the COMMON PDU 5. -/
def freshMap : State :=
  ((pdu5 (BitVec.ofNat 32 (2 ^ 31 + 6 * 2 ^ 28 + 8))).setReg .p1 (Reg.gwMap 0 1) (BitVec.ofNat 32 (5 * 2 ^ 21))).setReg .p1 (Reg.gwMap 0 0)
    0x80000000 |>.setReg .p1 (Reg.gwMap 0 5) 0x00010000

theorem witness_GalleryTakesArrivalsAndWorksThroughEvents :
    reaches live .s0 .p1 .p1 0x6402800 = true ∧ reaches live .s0 .p1 .p1 Reg.gwSwPub = true ∧
    live.gwOn .p1 = true ∧ (rxPdu.pdu .p1 5).kind = kKtnRx ∧ rxPdu.pduBuf .p1 5 = some ⟨5, List.replicate 8 0, List.replicate 8 0, false, false, none⟩ ∧
    (let s := (rxPdu.setReg .p1 (Reg.gwPduCfg 6) (BitVec.ofNat 32 (2 ^ 31 + 2 ^ 29 + 8)))
     (s.pdu .p1 6).kind = kCanRx ∧ s.pduBuf .p1 6 = none) ∧
    (live.gw .p1).pendingEx.contains 5 = false ∧
    (let s := gal (fun g => { g with pendingEx := [5] }) rxPdu
     (s.gw .p1).pendingEx.contains 5 = true ∧ s.beingRead .p1 5 = false ∧ (s.gw .p1).swHeld = []) ∧
    Reg.gwSwData 0 ≤ 0x6402800 ∧ (0x6402800 - Reg.gwSwData 0) / 0x800 = 5 ∧ (0x6402800 - Reg.gwSwData 0) % 0x800 = 0 ∧
    Reg.gwSwData 0 + 2047 * 0x800 + 0x7FF = 0x67FFFFF ∧ live.ownsPdu .p1 .s0 5 = false ∧ ownPdu.ownsPdu .p1 .s0 5 = true ∧
    0 + 8 ≤ (ownPdu.pdu .p1 5).len ∧ (ownPdu.gw .p1).pendingEx.contains 5 = false ∧ fieldOf (5 : Word) 31 11 = 0 ∧
    fieldOf (5 : Word) 10 0 = 5 ∧ (ownPdu.gw .p1).swHeld = [] ∧ rxPdu.engState .p1 false = 1 ∧ rxPdu.engState .p1 true = 1 ∧
    rxPdu.gwWork .p1 false = none ∧ rxPdu.gwQueue .p1 false = [] ∧
    (gal (fun g => { g with queue0 := [(7, .arrival 5)] }) rxPdu).gwQueue .p1 false = [(7, .arrival 5)] ∧
    (gal (fun g => { g with work0 := some (.arrival 5, [6]) }) rxPdu).gwWork .p1 false = some (.arrival 5, [6]) ∧
    (freshMap.sigMap .p1 0).valid = true ∧ (freshMap.sigMap .p1 0).fresh ≠ 0 ∧ (freshMap.sigMap .p1 0).dpdu = 5 ∧
    (freshMap.pdu .p1 5).dest = true ∧ (freshMap.pduBuf .p1 (freshMap.pdu .p1 5).num).isSome = true ∧
    (freshMap.pdu .p1 5).trigger = false ∧ freshMap.staleNow .p1 (freshMap.sigMap .p1 0) = !freshMap.staleBit .p1 0 ∧
    (live.sigMap .p1 0).fresh = 0 ∧ (live.setFlag .p1 Reg.gwCommit 1 true).commitBusy .p1 Reg.gwCommit = true ∧
    live.commitBusy .p1 Reg.gwCommit = false ∧ live.mOn = true ∧ (stopped .m live).mOn = false ∧ (live.gw .p1).pendingEx = [] ∧
    (∀ x ∈ [(7, GwEvent.arrival 4)], x.1 ≠ 7 ∨ (GwEvent.arrival 5).before x.2 = false) := by decide +kernel

theorem reg_unlisted (s : State) (u : RUnit) (off : Nat) (h : ∀ c ∈ s.regs.get u, c.1 ≠ off) : s.reg u off = 0 := by
  unfold State.reg
  generalize s.regs.get u = m at h
  induction m with
  | nil => rfl
  | cons c t ih => simp_all [cellGet]

theorem stagedGallery_zero (off : Nat) (h : 0x6020000 ≤ off ∧ off < 0x6200000) : live.reg .p1 off = 0 := by
  apply reg_unlisted
  intro c hc
  have a : ((live.regs.get .p1).all fun c => decide (c.1 < 0x6020000) || decide (0x6200000 ≤ c.1)) = true := by decide +kernel
  have b := List.all_eq_true.mp a c hc
  simp only [Bool.or_eq_true, decide_eq_true_eq] at b
  omega

/-- Staged tables in which nothing is valid pass every rule. -/
theorem witness_GalleryTablesPass : live.gwCheck .p1 = none := by
  have d : (pduNums.map (live.pduStg .p1)).filter Pdu.used = [] := by
    simp only [List.filter_eq_nil_iff, List.mem_map, pduNums, List.mem_range]
    rintro x ⟨n, hn, rfl⟩
    simp [State.pduStg, PDie.unit, stagedGallery_zero (Reg.gwPduCfgStg n) (by simp only [Reg.gwPduCfgStg]; omega), pduOf, Pdu.used, bitOf]
  have m : (mapNums.map (live.sigMapStg .p1)).filter (·.valid) = [] := by
    simp only [List.filter_eq_nil_iff, List.mem_map, mapNums, List.mem_range]
    rintro x ⟨n, hn, rfl⟩
    simp [State.sigMapStg, mapOf, PDie.unit, stagedGallery_zero (Reg.gwMapStg n 0) (by simp only [Reg.gwMapStg]; omega), bitOf]
  have f : (live.stgFilters .p1).filter (fun f => f.2.valid) = [] := by decide +kernel
  have o : ((List.range 256).map fun i => live.reg .p1 (Reg.gwObjStg i)).filter (fun w => bitOf w 31) = [] := by
    simp only [List.filter_eq_nil_iff, List.mem_map, List.mem_range]
    rintro x ⟨n, hn, rfl⟩
    simp [stagedGallery_zero (Reg.gwObjStg n) (by simp only [Reg.gwObjStg]; omega), bitOf]
  have o' : ((List.range 256).map fun i => live.reg PDie.p1.unit (Reg.gwObjStg i)).filter (fun w => bitOf w 31) = [] := o
  simp only [State.gwCheck, d, m, f, o', List.filter_nil, List.all_nil, pairsOk]
  simp

theorem witness_GalleryTablesFail :
    (live.setReg .p1 (Reg.gwPduCfgStg 5) (BitVec.ofNat 32 (2 ^ 31 + 2 ^ 28))).gwCheck .p1 = some 1 := by decide +kernel

/-- A remote read to node 2, of 256 bytes, with tag 63. -/
def rrLo : Word := 0x0200003F
def rrHi : Word := 0x01000000

/-- S0's tag 63 of P1. -/
def tagged (t : RrTag) : State := live.setRrTag .p1 .s0 t

/-- The payload of a response to node 1. -/
def rrAnswer : List Byte := [0x4B, 0x52, 2, 63, 1, 1, 0, 0, 0, 0, 0, 0]

theorem witness_RemoteReadsUseOneTagEach :
    reaches live .s0 .p1 .p1 (Reg.gwRrReqHi 0) = true ∧ reaches live .s0 .p1 .p1 (Reg.gwRrFree 0) = true ∧
    live.rrOn .p1 = true ∧ fieldOf rrLo 15 6 = 0 ∧ fieldOf rrHi 31 25 = 0 ∧ fieldOf rrHi 15 11 = 0 ∧ fieldOf rrLo 5 0 = 63 ∧
    fieldOf rrLo 31 24 = 2 ∧ fieldOf rrHi 24 16 = 256 ∧ ((tagged ⟨63, 1, true, none, 0⟩).rrTag .p1 .s0 63).used = true ∧
    (live.rrTag .p1 .s0 63).used = false ∧ fieldOf (0x01010000 : Word) 24 16 = 257 ∧ (node1.port .p1).net.id = 1 ∧
    live.ktnUp .p1 = false ∧ node1.ktnUp .p1 = true ∧ node1.hasMgSlot .p1 = true ∧ isRr rrAnswer = true ∧
    (rrOf rrAnswer).svc = 2 ∧ (rrOf rrAnswer).peer.toNat = (node1.port .p1).net.id ∧ isRr [] = false ∧
    ((tagged ⟨63, 1, true, none, 0⟩).rrTag .p1 .s0 63).resp = none ∧
    (tagged ⟨63, 1, true, none, 0⟩).rrUnsent .p1 .s0 ((tagged ⟨63, 1, true, none, 0⟩).rrTag .p1 .s0 63) = false ∧
    (tagged ⟨63, 1, true, none, 0⟩).ns < 0 + (tagged ⟨63, 1, true, none, 0⟩).rrCfgNs .p1 0 ∧
    0 + live.rrCfgNs .p1 0 ≤ (atNs 1000000000 live).ns ∧ 0 + live.rrCfgNs .p1 16 ≤ (atNs 1000000000 live).ns ∧
    fieldOf (63 : Word) 31 6 = 0 ∧ ((tagged ⟨63, 1, true, some (4, []), 0⟩).rrTag .p1 .s0 63).resp ≠ none ∧
    (let s := live.setPort .p1 { live.port .p1 with mgq := [.answer 63 1 2 0 0 4 false] }
     (s.port .p1).mgq = [.answer 63 1 2 0 0 4 false]) := by decide +kernel

/-- CAN controller 0 of P1 in a mode and a state. -/
def canIn (mode st : Nat) : State := (live.setFld .p1 (Reg.cnCtl 0) 1 0 mode).setFld .p1 (Reg.cnStat 0) 31 29 st

/-- A classic frame with identifier 5. -/
def canFrame : CanFrame := ⟨false, false, false, 5, false, false, 1, [1]⟩

theorem witness_CanControllersKeepTheirErrorState :
    reaches live .s0 .p1 .p1 (Reg.cnCtl 0) = true ∧ reaches live .s1 .p1 .p1 (Reg.cnCtl 0) = true ∧
    live.canThere .p1 = true ∧ fieldOf (1 : Word) 31 3 = 0 ∧ live.canWriter (.strand .s1) .p1 false = false ∧
    live.canWriter (.strand .s0) .p1 false = true ∧ bitOf (1 : Word) 2 = false ∧ fieldOf (8 : Word) 31 3 ≠ 0 ∧
    (canIn 1 1).canState .p1 false ≠ 4 ∧ (canIn 1 4).canState .p1 false = 4 ∧ (canIn 0 0).onBus .p1 false = false ∧
    (canIn 1 1).onBus .p1 false = true ∧ (canIn 1 1).filterHit .p1 0 canFrame = none ∧
    (canIn 1 1).fld .p1 (Reg.cnStat 0) 15 8 ≤ 127 ∧ (canIn 1 1).canMode .p1 false = .normal ∧
    (canIn 2 1).canMode .p1 false ≠ .normal ∧ (canIn 2 1).onBus .p1 false = true ∧ (canIn 1 1).canCandidate .p1 false = none ∧
    (let s := (canIn 1 1).setCan .p1 false ⟨[(3, canFrame)]⟩
     s.canCandidate .p1 false = some (.gallery 3 canFrame)) := by decide +kernel

/-! ### Field inputs and outputs -/

/-- The field die changed. -/
def fld' (f : FieldDie → FieldDie) (s : State) : State := { s with field := f s.field }

/-- Output 15 changed. -/
def out15 (f : OutState → OutState) (s : State) : State := s.setOut 15 (f (s.out 15))

/-- Output 15 with an enabled bridge: F enables outputs, and lanes A and B hold its latch. -/
def driven : State :=
  [Lane.a, .b].foldl (fun s l => s.setReg .f (Reg.fdDoLatch l.idx) 0x80008000) (live.setFlag .f Reg.fdStat 0 true)

/-- A change of state. -/
def cos1 : CosEntry := ⟨0, false, true, 5⟩

/-- P1 gave F the marks of these actions. -/
def marked (ms : List Nat) : State := live.setPort .p1 { live.port .p1 with marks := ms }

/-- Trigger 15 of P1 samples, 20 µs from now. -/
def sampleTrigger : State :=
  ((node1.setFlag .p1 (Reg.tbTrigCtl 15) 31 true).setFld .p1 (Reg.tbTrigCtl 15) 27 26 1).setReg64 .p1 (Reg.tbTrigCmpLo 15)
    ((node1.port .p1).net.time + 20000)

theorem witness_FieldSamplesGoToEveryLinkedLane :
    reaches live .s0 .f .f Reg.fdCosPop = true ∧ reaches live .s0 .f .f Reg.fdDoClr = true ∧
    live.fOn = true ∧ (atNs 2 (fld' (fun f => { f with announced := some (.p1, 10001) }) live)).skipsSample 2 = true ∧
    (fld' (fun f => { f with sampleAt := some 0 }) live).sampleDue 49999 = false ∧ live.skipsSample live.ns = false ∧
    live.sampleDue live.ns = true ∧ live.commitBusy .f Reg.fdCommit = false ∧ live.field.sampleAt = none ∧
    (live.setFlag .f Reg.fdCommit 1 true).commitBusy .f Reg.fdCommit = true ∧ live.field.announced = none ∧
    (live.fieldChan .a).ok = (live.fieldChan .a).ok ∧ (live.fieldChan .a).ok ≠ !(live.fieldChan .a).ok ∧
    (live.port .p1).marks.contains 1 = false ∧ live.aheadNs .p1 15 = none ∧ ((marked [2, 1]).port .p1).marks.contains 1 = true ∧
    State.dieInUse ((marked [2, 1]).noteTrigger 0 .p1) 0 = .p1 ∧ (marked [2, 1]).field.sampleAt = none ∧
    sampleTrigger.fOn = true ∧ sampleTrigger.aheadNs .p1 15 = some 20000 ∧
    State.dieInUse (sampleTrigger.noteTrigger 0 .p1) 0 = .p1 := by decide +kernel

theorem witness_FieldConversionsAndSupplies :
    (1 : BitVec 2) ≠ 0 ∧
    (let s := fld' (fun f => { f with trigSel := 0x3F }) live
     2 ≤ trigSource s.field.trigSel ((3 : BitVec 2).toNat - 1) ∧ s.inFallback ((3 : BitVec 2).toNat - 1) = false ∧
       s.ns < (s.field.prefAt[(3 : BitVec 2).toNat - 1]?).getD 0 + s.fallbackNs ∧
       (s.field.prefAt[(3 : BitVec 2).toNat - 1]?).getD 0 + s.fallbackNs ≤ (atNs 1000000000 s).ns) ∧
    trigSource (fld' (fun f => { f with trigSel := 0 }) live).field.trigSel 0 < 2 ∧ (live.setFlag .f Reg.fdStat 12 true).inFallback 0 = true ∧
    live.field.cos.get .s0 = [] ∧
    (fld' (fun f => { f with cos := f.cos.set .s0 [cos1, cos1] }) live).field.cos.get .s0 = [cos1, cos1] ∧
    live.field.aiAt = none ∧
    (let s := atNs 1000000 (fld' (fun f => { f with aiAt := some 0 }) live)
     s.field.aiAt = some 0 ∧ 0 + 1000000 ≤ s.ns) ∧ live.ns < 0 + 1000000 ∧
    ((marked [1, 2]).port .p1).marks.contains 2 = true ∧ State.dieInUse ((marked [1, 2]).noteTrigger 1 .p1) 1 = .p1 ∧
    live.field.aiRuns = [] ∧
    (let s := fld' (fun f => { f with aiRuns := [⟨false, 0, [], ⟨[], [], []⟩⟩] }) live
     s.field.aiRuns = [⟨false, 0, [], ⟨[], [], []⟩⟩] ∧ s.ns < 0 + 25000 ∧ 0 + 25000 ≤ (atNs 25000 s).ns) ∧
    live.flag .f Reg.fdStat (20 + bitNat true) = false ∧ live.mOn = true ∧ (stopped .m live).mOn = false := by decide +kernel

theorem witness_OutputLatchesTakeOffAtOnceAndOnAtTheUpdate :
    live.fOn = true ∧ (live.lane .a).junction.get .f = true ∧ (live.expects .f .s0 0).contains .a = true ∧
    live.voterHalted .f .s0 = false ∧ (live.lane .a).fenceF = false ∧
    (let s := live.setLane .a { live.lane .a with junction := (live.lane .a).junction.set .f false }
     (s.lane .a).junction.get .f = false) ∧
    bitOf (0x80008000 : Word) (16 + 15) = true ∧ live.outOwner 15 = .s0 ∧ bitOf (0x80008000 : Word) 15 = true ∧
    bitOf (0x80000000 : Word) 15 = false ∧ live.waitsUpdate 15 = false ∧ (live.setReg .f Reg.fdDoCfg 2).waitsUpdate 15 = true ∧
    (live.setReg .f Reg.fdDoOwn 0x40000000).outOwner 15 = .s1 ∧
    ((live.setFlag .f (Reg.vtStat 0) 0 false).expects .f .s0 0).contains .a = false ∧
    (live.setFld .f (Reg.vtStat 0) 4 3 2).voterHalted .f .s0 = true ∧ (live.port .p1).marks.contains 3 = false ∧
    ((marked [3]).takeMark .p1 3).any (fun u => State.dieInUse (u.noteTrigger 2 .p1) 2 == .p1) = true ∧
    (let s := live.setPort .p2 { live.port .p2 with marks := [3] }
     (s.takeMark .p2 3).any (fun u => State.dieInUse (u.noteTrigger 2 .p2) 2 != .p2) = true) := by decide +kernel

theorem witness_OutputFaultsOpenTheBridge :
    driven.fOn = true ∧ driven.expected 15 = true ∧ driven.outFault 15 = 0 ∧
    (driven.setFld .f (faultReg 15) 31 28 5).outFault 15 ≠ 0 ∧ live.expected 15 = false ∧
    (List.range 8).all (fun i => !live.expected (8 * bitNat true + i)) = true ∧ 8 * bitNat true + 7 = 15 ∧
    bitOf (0x8000 : Word) 15 = true ∧ driven.outOwner 15 = .s0 ∧ fieldOf (0x8000 : Word) 31 16 = 0 ∧ fieldOf (0x10000 : Word) 31 16 ≠ 0 ∧
    reaches driven .s0 .f .f Reg.fdDoClr = true ∧
    (let s := out15 (fun o => { o with wait := true }) driven
     (s.out 15).wait = true ∧ s.ns < (s.out 15).since + s.verifyNs ∧ (s.out 15).since + s.verifyNs ≤ (atNs 1000000000 s).ns) ∧
    15 < driven.field.outs.length ∧ (driven.out 15).wait = false ∧ driven.energised 15 = true ∧
    driven.flag .f Reg.fdLsBind 15 = false := by decide +kernel

/-- Output 15, ON for 1 s with OFF pulses enabled, at 1 s. -/
def pulsing (p : Option Bool) (at' : Option Nat) : State :=
  atNs 1000000000 (out15 (fun o => { o with onFrom := some 0, pulse := p, pulseAt := at' }) (driven.setReg .f Reg.fdDoCfg 0x80000000))

theorem witness_PulsesOfAnOutput :
    (pulsing none none).pulseDue 15 = true ∧ driven.pulseDue 15 = false ∧ (driven.out 15).pulse = none ∧
    ((pulsing (some true) (some 0)).out 15).pulse = some true ∧ (pulsing (some true) (some 0)).pulseOver 15 = true ∧
    (pulsing (some true) (some 1000000000)).pulseOver 15 = false ∧
    (pulsing (some true) (some 0)).flag .f Reg.fdDoStat (16 + 15) = false ∧ (pulsing (some true) (some 0)).outFault 15 = 0 ∧
    ((pulsing (some true) (some 0)).setFlag .f Reg.fdDoStat 31 true).flag .f Reg.fdDoStat (16 + 15) = true := by decide +kernel

/-! ### Mailboxes and semaphores -/

/-- Mailbox 11's outgoing direction with these open words. -/
def opened (ws : List Word) : State :=
  live.putMailbox 11 { live.mailbox 11 with out := { (live.mailbox 11).out with openWords := ws } }

theorem witness_MailboxesAndLocksOfTheManagementDie :
    live.mOn = true ∧ mbOwns (.strand .s3) 11 false = true ∧ mbOwns (.strand .s0) 11 false = false ∧
    11 < live.mailboxes.length ∧ (opened []).floodCount 6 < 64 ∧ (live.mailbox 11).fresh (mCycle live.ns) = true ∧
    ((live.mailbox 11).act 5 true (.word 1 2)).fresh 5 = false ∧ mbHeld ((opened (List.replicate 15 1)).mailbox 11 |>.tx false) < 16 ∧
    16 ≤ mbHeld ((opened (List.replicate 16 1)).mailbox 11 |>.tx false) ∧
    ((opened (List.replicate 16 1)).mailbox 11 |>.tx false).openWords ≠ [] ∧
    ((live.mailbox 11).tx false).openWords = [] ∧ (1 : Word) &&& 0xFFFFFFFE = 0 ∧ bitOf (1 : Word) 0 = true ∧
    live.lockOwner 63 = 0 ∧ ([.mgmt, .strand .s0] : List Master) ≠ [] ∧
    (let s := live.setReg .m (Reg.smLock 63) (BitVec.ofNat 32 (Master.number (.strand .s0)))
     s.lockOwner 63 ≠ 0 ∧ s.lockOwner 63 = Master.number (.strand .s0)) ∧ (1 : Word) &&& 0xFFFFFFF0 = 0 ∧
    live.strandFenced (.strand .s3) .m = false ∧ (live.setFlag .m Reg.vtFence 0 true).strandFenced (.strand .s3) .m = true ∧
    (let s := { live.setReg .m (Reg.smLock 63) 4 with lockTaken := [⟨63, mCycle live.ns, none⟩] }
     s.lockOpen 63 = true ∧ s.lockOwner 63 = 4 ∧ lowestMaster [.strand .s0] < 4 ∧ 4 ≤ lowestMaster [.strand .s3]) ∧
    (live.setReg .m (Reg.smLock 63) 4).lockOpen 63 = false ∧
    live.lockOwner 63 ≠ Master.number (.strand .s0) ∧ (.strand .s0 : Master) ≠ .mgmt ∧ live.floodCount 6 < 64 := by decide +kernel

/-! ### Dripstone -/

/-- Lane A's governor changed. -/
def gov (f : Governor → Governor) (s : State) : State := s.setGov .a (f (s.gov .a))

/-- The state with every limit, plan and ceiling of every lane at step 8. -/
def booted : State :=
  Lane.list.foldl (fun s l => s.setGov l { s.gov l with limits := Tri.all 8, plan := Tri.all 8, ceils := Quad.all 8, step := 8 }) (live.setReg .m Reg.mgPwr 0xFFFF)

theorem witness_GovernorsAndCeilingsOfDripstone :
    (aRetired booted).retired .a = true ∧ booted.retired .a = false ∧ booted.corePowered .a = true ∧ booted.stepOf .a = (booted.gov .a).step ∧
    (gov (fun g => { g with volt := 49 }) booted).stepOf .a = (booted.gov .a).step ∧
    slackOf ⟨[15], [], []⟩ < 16 ∧ 32 < slackOf ⟨[33], [], []⟩ ∧
    ((gov (fun g => { g with volt := 49 }) booted).gov .a).volt < 50 ∧ ((gov (fun g => { g with volt := 1 }) booted).gov .a).volt = 1 ∧
    (let s := gov (fun g => { g with volt := 50, low := 3 }) booted
     50 ≤ (s.gov .a).volt ∧ 3 ≤ (s.gov .a).low ∧ 0 < (s.gov .a).limits.get .a) ∧
    (let s := gov (fun g => { g with volt := 50, low := 2 }) booted
     50 ≤ (s.gov .a).volt ∧ (s.gov .a).low < 3 ∧ s.stepOf .a = (s.gov .a).step) ∧
    (let s := gov (fun g => { g with calmSince := some 0, limits := g.limits.set .a 7 }) booted
     (s.gov .a).calmSince = some 0 ∧ (s.gov .a).limits.get .a < 8 ∧ s.ns < 0 + 60000000000 ∧
       0 + 60000000000 ≤ (atNs 60000000000 s).ns) ∧
    paceFromM (.plan .a 5) = true ∧ paceFromM (.limit .b 5) = false ∧ (booted.lane .a).fenceM = false ∧
    ((booted.setLane .a { booted.lane .a with fenceM := true }).lane .a).fenceM = true ∧
    (booted.gov .a).calmSince = none ∧ 8 ≤ (booted.gov .a).limits.get .a ∧ (booted.gov .a).raising = none ∧
    (let s := gov (fun g => { g with raising := some (5, 0) }) booted
     (s.gov .a).raising = some (5, 0) ∧ s.ns < 0 + 20000 ∧ 0 + 20000 ≤ (atNs 20000 s).ns) ∧
    booted.stepOf .a ≤ (booted.gov .a).step ∧
    (let s := gov (fun g => { g with step := 0 }) booted
     (s.gov .a).step < s.stepOf .a ∧ (s.gov .a).raising.map (·.1) ≠ some (s.stepOf .a)) := by decide +kernel

theorem witness_CeilingsAndPlansOfDripstone :
    booted.mOn = true ∧ (.mgmt : Master) ≠ .strand .s0 ∧ booted.strandFenced .mgmt .m = false ∧ booted.flag .m Reg.vtFence 0 = false ∧
    (booted.setFlag .m Reg.vtFence 0 true).strandFenced (.strand .s0) .m = true ∧ (8 : Word) &&& 0xFFFFFEF0 = 0 ∧
    bitOf (8 : Word) 8 = booted.flag .m (Reg.dsCeil Strand.s0.idx) 8 ∧ ceilOf 8 ≤ booted.lowestLimit ∧
    (let s := gov (fun g => { g with limits := g.limits.set .a 7 }) booted
     s.lowestLimit < ceilOf 8 ∧ bitOf (8 : Word) 8 = s.flag .m (Reg.dsCeil Strand.s0.idx) 8) ∧
    (booted.lane .a).fenceM = false ∧ ((booted.setLane .a { booted.lane .a with fenceM := true }).lane .a).fenceM = true ∧
    (15 : Word) &&& 0xFFFFFFF0 = 0 ∧ 5 ≤ booted.ages.length ∧ booted.floodCount 6 < 64 ∧
    (booted.setAge 0 { booted.age 0 with day := some 3 }).age 0 = { booted.age 0 with day := some 3 } := by decide +kernel

/-! ### Triggers, captures, timestamps -/

/-- Trigger 15 of P1 enabled and due at network time 5000, with a period. -/
def trig15 (per : Word) : State :=
  ((ctl (fun x => { x with time := 5000 }) node1).setFlag .p1 (Reg.tbTrigCtl 15) 31 true).setReg .p1 (Reg.tbTrigPer 15) per

/-- Capture 7 of P1 enabled on rising edges of source 35. -/
def cap7 : State := live.setReg .p1 (Reg.tbCapCtl 7) (BitVec.ofNat 32 (2 ^ 31 + 35))

theorem witness_TriggersCapturesAndTimestampsOfAPort :
    live.pdOn .p1 = true ∧ live.trigDue .p1 15 = false ∧ (trig15 0).trigDue .p1 15 = true ∧ (trig15 0).trigPeriod .p1 15 = 0 ∧
    (trig15 1).trigDue .p1 15 = true ∧ 0 < (trig15 1).trigPeriod .p1 15 ∧ (trig15 1).trigPeriod .p1 15 = 1000 ∧
    Reg.tbTrigCmpLo 0 < Reg.tbCapLo 8 ∧ live.unitWriter (.strand .s1) .p1 (Reg.tbTrigCmpLo 0) = false ∧
    cap7.flag .p1 (Reg.tbCapCtl 7) 31 = true ∧ cap7.fld .p1 (Reg.tbCapCtl 7) 5 0 = (⟨35, true, 9⟩ : Edge).src ∧
    cap7.fld .p1 (Reg.tbCapCtl 7) 30 29 = 0 ∧ cap7.flag .p1 (Reg.tbCapStat 7) 0 = false ∧
    (cap7.setFlag .p1 (Reg.tbCapStat 7) 0 true).flag .p1 (Reg.tbCapStat 7) 0 = true ∧
    (trig15 0 |>.setFld .p1 (Reg.tbTrigCtl 15) 27 26 1).fld .p1 (Reg.tbTrigCtl 15) 27 26 ≠ 0 ∧ live.fFitted = true ∧
    ((trig15 0).port .p1).trigAhead.contains 15 = false ∧
    live.flag .p1 (Reg.tbCapCtl 7) 31 = false ∧ (live.port .p1).tsq.get .west = [] ∧ live.tsqOwner .p1 .west = .s0 ∧
    (let s := live.setPort .p1 { live.port .p1 with tsq := (live.port .p1).tsq.set .west [⟨1, 2, 3⟩, ⟨1, 3, 4⟩] }
     (s.port .p1).tsq.get .west = [⟨1, 2, 3⟩, ⟨1, 3, 4⟩]) := by decide +kernel

/-! ### Register accesses and views -/

/-- A write error of a queue of P1. -/
def werr : WerrRec := ⟨1, 0, 0x10, 1⟩

/-- S1 of lane A stopped. -/
def stopCore0 (s : State) : State := repl .a .s1 (fun r => { r with mode := .stopped }) s

/-- The order code that has no CAN. -/
def canLess : State := { live with variant := .kw3101 }

theorem witness_RegistersAreWrittenByTheirAccessCodes :
    (stopped .m live).reachable .mgmt .p1 true = false ∧ live.reachable .mgmt .p1 true = true ∧ unitLane .p1 = none ∧
    live.reachable (.strand .s1) .la true = true ∧ 0xFFFC / 0x10000 ≠ Strand.s1.idx ∧
    (stopped .p1 live).reachable .mgmt .p1 false = false ∧ live.reachable .mgmt .p1 false = true ∧ live.fOn = true ∧
    live.consumers.m.running = true ∧ live.fFitted = true ∧ (0xFF3F : Word) &&& 0xFFFF00C0 = 0 ∧
    (live.consumer .p1).running = true ∧ live.dieFitted .p1 = true ∧ live.werrQueue .p1 4 = [] ∧
    (let s := live.setConsumer .p1 { live.consumer .p1 with werr := { (live.consumer .p1).werr with other := [werr, werr] } }
     s.werrQueue .p1 4 = [werr, werr]) ∧
    (let s := live.setLane .a { live.lane .a with junction := (live.lane .a).junction.set .p1 false, net := Duo.all ⟨0, 0, 0⟩ }
     (s.lane .a).junction.get (Die.ofPDie .p1) = false ∧ ((s.lane .a).net.get .p1).stat ≠ 3 ∧
       ((s.lane .a).net.get .p1).seen + 10000 ≤ (atNs 10000 s).ns ∧ s.ns < ((s.lane .a).net.get .p1).seen + 10000) ∧
    kw3101.strandAbsent (.strand .s0) .f 0 = true ∧ live.strandAbsent (.strand .s0) .f 0 = false ∧
    (live.lane .a).fenceM = false ∧ ((live.setLane .a { live.lane .a with fenceM := true }).lane .a).fenceM = true ∧
    (0x80000 : Nat) ≤ 0x80000 ∧ live.strandAbsent .mgmt .p1 0 = false ∧
    live.unitFenced .mgmt .p1 = false ∧ live.unitFenced (.strand .s1) .p1 = false ∧
    (live.setFlag .p1 Reg.vtFence 0 true).unitFenced (.strand .s1) .p1 = true ∧ live.reachable (.strand .s1) .p1 true = true ∧
    (wordsOf 0x4000000 8 0).all (fun x => !live.unitAbsent .p1 x.1) = true ∧ live.unitFenced (.strand .s1) .f = false ∧
    live.unitFenced .mgmt .m = false ∧
    live.canExecute .a .s1 = true ∧ (stopCore0 live).canExecute .a .s1 = false ∧
    live.allowed .a .s1 0x200010100 4 .write = true ∧ live.allowed .a .s1 0x200000100 4 .write = false ∧
    reaches live .s0 .p1 .p1 (Reg.pdWerrPop 0) = true ∧ reaches live .s1 .p1 .p1 (Reg.pdWerrPop 0) = true ∧
    (let s := live.setConsumer .p1 { live.consumer .p1 with werr := { (live.consumer .p1).werr with strand := ⟨[werr], [], [], []⟩ } }
     s.werrQueue .p1 0 = [werr]) := by decide +kernel

theorem witness_CommandsToAbsentOrFencedDiesAreTurnedAway :
    ({ live with variant := .kw3101 } : State).fFitted = false ∧ canLess.canFitted = false ∧
    live.consumers.m.running = true ∧ (stopped .m live).consumers.m.running = false ∧ (0 : Nat) ∉ live.absentLogged ∧
    (0 : Nat) ∈ ({ live with absentLogged := [0] } : State).absentLogged ∧ live.floodCount 6 < 64 ∧
    (live.setFlag .p1 Reg.vtFence 0 true).flag .p1 Reg.vtFence 0 = true ∧ live.canFitted = true ∧ live.fFitted = true ∧
    (live.setFlag .f Reg.vtFence 0 true).flag .f Reg.vtFence 0 = true ∧ (live.setFlag .m Reg.vtFence 0 true).flag .m Reg.vtFence 0 = true ∧
    (stopped .m live).mOn = false ∧ unitDie .p1 = some .p1 := by decide +kernel

theorem witness_EachDisagreementOfViewsIsRaisedOnce :
    live.consumers.m.running = true ∧ viewsAgree ⟨2, true⟩ = true ∧ viewsAgree ⟨2, false⟩ = false ∧
    (⟨2, false⟩ : UnitView) ≠ live.viewOf 8 ∧ 8 < live.views.length ∧ live.floodCount 6 < 64 := by decide +kernel

/-! ### Well-formed commands: one ill-formed term for each check, and one command of each shape at its bounds -/

/-- Messages, beats and frames with one field out of range. -/
def okBeat : Beat := ⟨.s0, 0, true, 0xFFFFFF8, 0x80, 0⟩
def okWrite : RegWrite := ⟨0xFFFFFF8, 8, 0⟩
def noAi : List AiRaw := List.replicate 8 ⟨0⟩
def rawCh (di out : Nat) : ChannelRaw := ⟨List.replicate di ⟨0, 0⟩, List.replicate out 0⟩
def bootAt (n : Nat) : BootInput :=
  ⟨[], 0, Tri.all (List.replicate 9 0), ⟨List.replicate 9 0, List.replicate n 0, List.replicate 9 0⟩, Tri.all none, none⟩
def sensed (n o t : Nat) : GovReading := ⟨List.replicate n 0, List.replicate o 0, List.replicate t 0⟩
def bc (bs : List Byte) : Broadcast := ⟨.p1, .s0, 0, bs, 0, none⟩

theorem test_illFormedRegisterAndLaneCommands : ([
    .genericRegisterWrite .mgmt .m ⟨0, 0, 0⟩, .genericRegisterWrite .mgmt .m ⟨4, 5, 0⟩,
    .genericRegisterWrite .mgmt .m ⟨0x10000000, 1, 0⟩, .rcRead .mgmt .m 0 9, .absentUnitAccess .a .s0 0 0 false,
    .boot (bootAt 10), .crawlwayLinkFailed .a .a, .kc64Instruction .a .s0 (.load 0 0) [], .kc64Instruction .a .s0 (.store 0 []) [],
    .kc64Instruction .a .s0 (.mpuWrite 8 0 0 false false false) [], .kc64Instruction .a .s0 (.mpuWrite 16 0 0 false false false) [],
    .strandTimerExpire .a .s0 4, .publicationReceive .a .a (pub 0 0 []), .publicationReceive .a .b (pub 3 0 []),
    .publicationReceive .a .b { pub 0 0 [] with nOcc := 1 }, .publicationReceive .a .b (pub 0 0 (List.replicate 33 occ7)),
    .sqCopyArrive .a .s1 .s1 ⟨0, [1], 1⟩, .sqCopyArrive .a .s1 .s0 ⟨0, [], 1⟩, .sqCopyArrive .a .s1 .s0 ⟨0, List.replicate 17 1, 1⟩,
    .evPendClear .a .s0 8 0, .beatArrive .p1 .a { okBeat with addr := 4 } .ok, .beatArrive .p1 .a { okBeat with addr := 0x10000000 } .ok,
    .beatArrive .p1 .a { okBeat with be := 0 } .ok, .beatArrive .p1 .a { okBeat with data := 1 } .ok,
    .broadcastWriteLand .a (bc []) false, .broadcastWriteLand .a (bc (List.replicate 4097 0)) false, .patrolRead .a .clean 63] : List Instr).all (fun i => !i.wf) = true := by
  decide +kernel

theorem test_illFormedDieCommands : ([
    .ownFrameSend .p1 1024 false, .triggerFire .p1 16, .triggerWrite .mgmt .p1 ⟨7, 2, 0⟩, .captureEdge .p1 8 ⟨0, true, 0⟩, .dmaEnable .mgmt .p1 28,
    .dmaDisable .mgmt .p1 28, .resume .mgmt .p1 28, .dmaDoorbell .mgmt .p1 28 0, .descriptorStart .p1 28, .descriptorComplete .p1 28,
    .quiesceRequest .p1 4, .pduArrival .p1 2048 [], .pduExchange .p1 2048, .gwSwDataWrite .s0 .p1 ⟨0, 0, 0⟩, .gwFreshnessScan .p1 4096,
    .rrResponseReceive .p1 (List.replicate 1441 0), .rrTimeout .p1 .s0 64, .rrDiscard .p1 .s0 64,
    .canFrameReceive .p1 false (.good { canFrame with dlen := 9, data := List.replicate 9 0 } 0 false),
    .canFrameReceive .p1 false (.good { canFrame with dlen := 2 } 0 false),
    .canFrameReceive .p1 false (.good { canFrame with id := 2048 } 0 false),
    .canFrameReceive .p1 false (.good { canFrame with dlen := 12, data := List.replicate 12 0 } 0 false), .werrPop .mgmt .p1 5,
    .fieldSample ⟨rawCh 31 16, rawCh 32 16, rawCh 32 16⟩, .fieldSample ⟨rawCh 32 16, rawCh 32 15, rawCh 32 16⟩,
    .triggerFallback 0, .outVerifyDelayExpire 16, .offPulseStart 16, .offPulseEnd 16, .overcurrent 16, .thermal 16,
    .aiConversionStart none ⟨noAi, noAi, []⟩, .mbTxword .mgmt 12 true 0, .mbTxdb .mgmt 12 true 0, .mbRxpop .mgmt 12 true 0,
    .mbRxdbClear .mgmt 12 true 0, .mbRxmaskWrite .mgmt 12 true 0, .rxReset .mgmt 12 true, .txReset .mgmt 12 true,
    .smLockRead 64 [.mgmt], .smLockRead 0 [], .smRelease .mgmt 64 0, .nonce toAll [], .auth toAll 256 (List.replicate 64 0) (List.replicate 64 0),
    .auth toAll 0 [] (List.replicate 64 0), .auth toAll 0 (List.replicate 64 0) [], .logRead toAll 0 256, .identRead toAll 256, .stageBegin toAll (2 ^ 32) 0,
    .stageData toAll (2 ^ 32) [], .stageData toAll 0 (List.replicate 1405 0), .debugAuth toAll 65536,
    .govLimitReceive .a (.limit .b 9), .govLimitReceive .a (.limit .a 8), .govLimitReceive .a (.plan .a 9),
    .govLimitReceive .a (.ceiling .s0 9), .governorReading .a (sensed 11 4 4), .governorReading .a (sensed 12 3 4),
    .governorReading .a (sensed 12 4 5), .plannerSample (Tri.all (sensed 12 4 4)) ⟨sensed 4 4 4, sensed 12 4 4⟩,
    .plannerReplan ⟨List.replicate 9 0, List.replicate 8 0, List.replicate 9 0⟩] : List Instr).all (fun i => !i.wf) = true := by
  decide +kernel

theorem test_wellFormedCommands : ([
    .genericRegisterWrite .mgmt .m okWrite, .rcRead .mgmt .m 7 1, .boot (bootAt 9), .crawlwayLinkFailed .a .b,
    .kc64Instruction .a .s0 (.mpuWrite 15 0 0 false false false) [], .strandTimerExpire .a .s0 3, .publicationReceive .a .b (pub 2 0 (List.replicate 32 occ7)),
    .sqCopyArrive .a .s1 .s0 ⟨0, List.replicate 16 1, 1⟩, .evPendClear .a .s0 7 0, .beatArrive .p1 .a okBeat .ok,
    .broadcastWriteLand .a (bc (List.replicate 4096 0)) true, .patrolRead .a .clean 64, .ownFrameSend .p1 1023 false,
    .triggerFire .p1 15, .captureEdge .p1 7 ⟨0, true, 0⟩, .dmaEnable .mgmt .p1 27, .quiesceRequest .p1 3, .pduArrival .p1 2047 [],
    .gwFreshnessScan .p1 4095, .rrResponseReceive .p1 (List.replicate 1440 0), .rrTimeout .p1 .s0 63,
    .canFrameReceive .p1 false (.good { canFrame with fdf := true, dlen := 64, data := List.replicate 64 0 } 0 false), .werrPop .mgmt .p1 4,
    .fieldSample ⟨rawCh 32 16, rawCh 32 16, rawCh 32 16⟩, .triggerFallback 3, .offPulseEnd 15, .aiConversionStart none ⟨noAi, noAi, noAi⟩,
    .mbTxword .mgmt 11 true 0, .smLockRead 63 [.mgmt], .smRelease .mgmt 63 0, .nonce toAll (List.replicate 16 0),
    .auth toAll 255 (List.replicate 64 0) (List.replicate 64 0), .logRead toAll 0 255, .identRead toAll 255, .identRead toAll 0,
    .stageData toAll (2 ^ 32 - 1) (List.replicate 1404 0), .debugAuth toAll 65535, .govLimitReceive .a (.limit .b 8), .govLimitReceive .a (.plan .a 8), .govLimitReceive .a (.ceiling .s3 8),
    .governorReading .a (sensed 12 4 4), .plannerReplan (Tri.all (List.replicate 9 8)),
    .powerGood] : List Instr).all (fun i => i.wf) = true := by
  decide +kernel

/-! ### The manual's worked figures -/

/-- The ASCII string of the check values. -/
def nine : List Byte := [0x31, 0x32, 0x33, 0x34, 0x35, 0x36, 0x37, 0x38, 0x39]

/-- The table at the end of "Example: gather with CRC": the three settings of CRCSEL over those bytes, and over none. -/
theorem test_crcOfTheGatherExample :
    crcFinal 0 (crcRun 0 (crcInit 0) nine) = 0xE3069283 ∧ crcFinal 1 (crcRun 1 (crcInit 1) nine) = 0xCBF43926 ∧
    crcFinal 2 (crcRun 2 (crcInit 2) nine) = 0x66A2364420E6C605 := by decide +kernel

/-- CRC-32C, CRC-64 and the CRC-16 of a KTN header over the same bytes. -/
theorem test_crcCheckValues : crc32c nine = 0xE3069283 ∧ crc64 nine = 0x66A2364420E6C605 ∧ crc16 nine = 0x29B1 := by decide +kernel

/-- The descriptor of that example. -/
def gatherDesc : Desc :=
  descOf (leBytes 4 0xC2200002 ++ leBytes 4 3 ++ leBytes 8 0x38120000 ++ leBytes 8 0x38100000 ++ leBytes 8 0x38200007)

theorem test_descriptorOfTheGatherExample :
    gatherDesc.own = true ∧ gatherDesc.type = 4 ∧ gatherDesc.irq = false ∧ gatherDesc.crcen = true ∧ gatherDesc.crcsel = 0 ∧
    gatherDesc.gather = true ∧ gatherLen gatherDesc = 9 := by decide +kernel

/-- Maps 100 and 101 of "CAN to KTN with saturation, clamping and substitution". -/
def map100 : SigMap := ⟨100, true, 17, 8, 16, 40, 0, 12, false, false, false, false, true, 1, true, 20, .s0, true, 3, 1, 0, 500, 0, 3000, 0xFFF⟩
def map101 : SigMap := ⟨101, true, 17, 24, 8, 40, 12, 8, false, true, false, true, true, 0, true, 21, .s0, true, 1, 5, -400, 500, 0, 0, 0⟩

theorem test_signalMapsOfTheExample :
    mapValue map100 [0x00, 0x12, 0x34, 0xF6] = (0x682, false, false) ∧ mapValue map101 [0x00, 0x12, 0x34, 0xF6] = (-128, false, true) ∧
    mapValue map100 [0x00, 0xA0, 0x8C, 0x64] = (3000, true, false) ∧ mapValue map101 [0x00, 0xA0, 0x8C, 0x64] = (50, false, false) := by
  decide +kernel

theorem test_packedBytesOfTheExample :
    (writeField (writeField (List.replicate 8 0) 0 12 false 0x682) 12 8 false (-128)).take 3 = [0x82, 0x06, 0x08] ∧
    (writeField (writeField (List.replicate 8 0) 0 12 false 3000) 12 8 false 50).take 3 = [0xB8, 0x2B, 0x03] := by decide +kernel

/-- The slots of R201's example, the change cycle of R212's, and N_STALL of "Rejoin under heavy writing". -/
theorem test_slotLengthsAndChangeCycle :
    slotMin ⟨0, 0, 0, 0, 256, 3, 0, false, false, true⟩ 400 = 3680 ∧ slotMin ⟨0, 0, 0, 0, 1440, 3, 0, false, false, true⟩ 400 = 13152 ∧
    slotMin ⟨0, 0, 0, 0, 0, clsSync, 0, false, false, true⟩ 400 = 1872 ∧ switchCycle 4660 16 = 4672 ∧ stallPages 300 4 = 283 := by
  decide +kernel

/-- The accesses of the example after R165 (R161 to R163). -/
theorem test_addressMapExample :
    regionOf 0x70000000 = .partition .s2 0 ∧ regionOf 0xA7FFFFFF = .partition .s2 0x37FFFFFF ∧ regionOf 0x100080000 = .slice .s2 0 ∧
    regionOf 0x200020000 = .page .s2 0 ∧ live.allowed .a .s2 0xA8000040 4 .read = false ∧ live.allowed .a .s2 0xE0100000 4 .read = true ∧
    live.allowed .a .s2 0xE0100000 4 .write = false ∧ live.allowed .a .s2 0x200081014 4 .read = true ∧
    live.allowed .a .s2 0x100100000 4 .read = false := by decide +kernel

/-! ### Single commands -/

theorem test_storeIsReadBack :
    (match exec (.kc64Instruction .a .s0 (.load 0x10 4) []) (after (exec (.kc64Instruction .a .s0 (.store 0x10 [1, 2, 3, 4]) []) live)) with
      | .next t => (t.replica .a .s0).last
      | _ => []) = [1, 2, 3, 4] := by decide +kernel

theorem test_storeStaysInItsLane :
    (after (exec (.kc64Instruction .a .s0 (.store 0x10 [1]) []) live)).lane .b = live.lane .b := by decide +kernel

theorem test_stepTakesTheFrontCommand :
    step { live with pending := [.supplyInterruption, .supplyReturn] } =
      exec .supplyInterruption { live with pending := [.supplyReturn] } := rfl

theorem test_doorbellMovesTail :
    (after (exec (.dmaDoorbell (.strand .s0) .p1 0 15) (chan0 .idle 0))).chTail .p1 0 = 15 := by decide +kernel

theorem test_doorbellPastFreeEntriesIsCounted :
    (after (exec (.dmaDoorbell (.strand .s0) .p1 0 0) (chan0 .idle 1))).fld .p1 (Reg.dmCnt 0) 31 24 = 1 := by decide +kernel

/-- R331, R332: with UPD 0 the first of two matching beats leaves the output off, the second turns it on. -/
theorem test_outputNeedsTwoLanes :
    (let s := live.setFlag .f Reg.fdStat 0 true
     let t := after (exec (.doCmdBeat .a .s0 0 0x80008000) s)
     let u := after (exec (.doCmdBeat .b .s0 0 0x80008000) t)
     (t.expected 15, u.expected 15)) = (false, true) := by decide +kernel

theorem test_lockGoesToTheLowestMaster :
    (after (exec (.smLockRead 5 [.strand .s2, .strand .s1]) live)).lockOwner 5 = 3 := by decide +kernel

theorem test_mailboxClosesAMessage :
    (let t := after (exec (.mbTxword (.strand .s0) 0 false 7) live)
     let u := after (exec (.mbTxdb (.strand .s0) 0 false 1) t)
     (((u.mailbox 0).rx true).msgs.map (·.words), ((u.mailbox 0).rx true).db)) = ([[7]], 1) := by decide +kernel

end Sys2Proof.Tests
end

section
/-! Forbidden accesses of a core (R158, R161 to R163) and strand timers (R180): lemmas about the model's operations, then
the two statements. -/

namespace Sys2Proof.Machine

/-! ### Accesses that the map or a strand's rights forbid -/

/-- The gaps of the table of R161. -/
theorem regionOf_gap {a : Nat} (h : (0x100100000 ≤ a ∧ a < 0x200000000) ∨ (0x200040000 ≤ a ∧ a < 0x200080000) ∨
    (0x200090000 ≤ a ∧ a < 0x300000000) ∨ 0x340000000 ≤ a) : regionOf a = .unlisted := by
  unfold regionOf
  split_ifs
  any_goals rfl
  all_goals omega

theorem allowed_of_unlisted {a : Nat} (h : regionOf a = .unlisted) (s : State) (l : Lane) (k : Strand) (n : Nat)
    (c : AccKind) : s.allowed l k a n c = false := by
  simp [State.allowed, h, regionAllows]

theorem execute_load_of_denied {s : State} {l : Lane} {k : Strand} {a : Addr} {n : Nat}
    (h : s.allowed l k a.toNat n .read = false) : s.execute l k (.load a n) = s := by
  simp [State.execute, State.doLoad, h]

theorem execute_store_of_denied {s : State} {l : Lane} {k : Strand} {a : Addr} {bs : List Byte}
    (h : s.allowed l k a.toNat bs.length .write = false) : s.execute l k (.store a bs) = s := by
  simp [State.execute, State.doStore, h]

theorem execute_fetch_of_denied {s : State} {l : Lane} {k : Strand} {a : Addr}
    (h : s.allowed l k a.toNat 4 .exec = false) : s.execute l k (.fetch a) = s := by
  simp [State.execute, h]

/-- An instruction whose own effect leaves the state alone is a fault. -/
theorem exec_kc64Instruction_of_execute_eq {s : State} {l : Lane} {k : Strand} {op : KcOp} (regs : List Dword)
    (h : s.execute l k op = s) :
    exec (.kc64Instruction l k op regs) s = exec (.kc64Instruction l k .fault regs) s := by
  show execKc64Instruction l k op regs s = execKc64Instruction l k .fault regs s
  have hf : s.execute l k .fault = s := rfl
  simp only [execKc64Instruction, h, hf]

theorem mode_ne_stopped_of_canExecute {s : State} {l : Lane} {k : Strand} (h : s.canExecute l k = true) :
    (s.replica l k).mode ≠ .stopped := by
  intro hm
  simp [State.canExecute, hm] at h

theorem setReplica_setReplica (s : State) (l : Lane) (k : Strand) (q r : Replica) :
    (s.setReplica l k q).setReplica l k r = s.setReplica l k r := by
  cases l <;> cases k <;> rfl

/-- A fault changes its replica's digest-set registers, and the mode when it ends a single step (R160). -/
theorem exec_fault_eq {s : State} {l : Lane} {k : Strand} (regs : List Dword) (h : s.canExecute l k = true) :
    ∃ m, exec (.kc64Instruction l k .fault regs) s =
      .next (s.setReplica l k { s.replica l k with core := regs, mode := m }) := by
  have hf : s.execute l k .fault = s := rfl
  have he : exec (.kc64Instruction l k .fault regs) s =
      .next ((s.setReplica l k { s.replica l k with core := regs }).endStep l k) := by
    show execKc64Instruction l k .fault regs s = _
    simp only [execKc64Instruction, h, hf, if_true, if_neg (mode_ne_stopped_of_canExecute h)]
  by_cases hm : (s.replica l k).mode = .debugStep
  · exact ⟨.debugHalted, by simp [he, State.endStep, replica_setReplica, hm, setReplica_setReplica]⟩
  · exact ⟨(s.replica l k).mode, by simp [he, State.endStep, replica_setReplica, hm]⟩

/-- Settles O10: a denied access has no effect of its own, so it is the fault, which touches its replica's record alone. -/
theorem forbiddenAccessHasNoEffect : Obligations.ForbiddenAccessHasNoEffect := by
  intro l k a regs s hc
  obtain ⟨m, hm⟩ := exec_fault_eq regs hc
  refine ⟨regionOf_gap, fun h => allowed_of_unlisted h s l k,
    fun n h => exec_kc64Instruction_of_execute_eq regs (execute_load_of_denied h),
    fun bs h => exec_kc64Instruction_of_execute_eq regs (execute_store_of_denied h),
    fun h => exec_kc64Instruction_of_execute_eq regs (execute_fetch_of_denied h), _, hm, ?_⟩
  simp [replica_setReplica, lane_mem]

/-! ### Register pairs and saturating counters -/

theorem reg_setReg64_other (s : State) {u : RUnit} {lo off : Nat} (v : Dword) (h : off ≠ lo ∧ off ≠ lo + 4) :
    (s.setReg64 u lo v).reg u off = s.reg u off := by
  rw [State.setReg64, reg_setReg_other _ _ (.inr h.2), reg_setReg_other _ _ (.inr h.1)]

theorem hiWord_append_loWord (d : Dword) : hiWord d ++ loWord d = d := by
  apply BitVec.eq_of_getLsbD_eq
  intro i hi
  simp only [hiWord, loWord, BitVec.getLsbD_append, BitVec.getLsbD_extractLsb']
  by_cases h : i < 32
  · simp [h]
  · simp [h, show i - 32 < 32 by omega, show 32 + (i - 32) = i by omega]

@[simp] theorem reg64_setReg64_same (s : State) (u : RUnit) (lo : Nat) (v : Dword) :
    (s.setReg64 u lo v).reg64 u lo = v := by
  have hlo : (s.setReg64 u lo v).reg u lo = loWord v := by
    rw [State.setReg64, reg_setReg_other _ _ (.inr (by omega)), reg_setReg_same]
  rw [State.reg64, hlo, State.setReg64, reg_setReg_same, hiWord_append_loWord]

/-- A pair depends on its two registers alone. -/
theorem reg64_congr {s t : State} {u : RUnit} {lo : Nat} (h0 : t.reg u lo = s.reg u lo)
    (h4 : t.reg u (lo + 4) = s.reg u (lo + 4)) : t.reg64 u lo = s.reg64 u lo := by
  rw [State.reg64, State.reg64, h0, h4]

theorem reg_bumpBy_other (s : State) {u : RUnit} {off off' : Nat} (hi lo n : Nat) (h : off' ≠ off) :
    (s.bumpBy u off hi lo n).reg u off' = s.reg u off' := reg_setFld_other _ _ _ _ (.inr h)

/-- A counter after `n` more events: it saturates at its largest value. -/
theorem fld_bumpBy (s : State) (u : RUnit) (off hi lo n : Nat) (h : hi < 32) :
    (s.bumpBy u off hi lo n).fld u off hi lo = min (s.fld u off hi lo + n) (2 ^ (hi + 1 - lo) - 1) := by
  have hl := satAdd_lt (hi + 1 - lo) (s.fld u off hi lo) n
  rw [State.bumpBy, fld_setFld_same _ _ _ _ _ _ h, Nat.mod_eq_of_lt hl, satAdd]

/-! ### Raising a vector in a lane -/

/-- No order code lacks the vectors below those of CAN on P1 (R9). -/
theorem vectorFitted_of_lt (s : State) {v : Nat} (h : v < 48) : s.vectorFitted v = true := by
  simp [State.vectorFitted, show ¬ 160 ≤ v by omega, show ¬ 48 ≤ v by omega, show ¬ 112 ≤ v by omega]

theorem pendingBit_setPending (s : State) (l : Lane) (k : Strand) {v : Nat} (h : s.vectorFitted v = true) :
    (s.setPending l k v).pendingBit l k v = true := by
  rw [State.setPending, if_pos h, State.pendingBit, flag_setFlag_same _ _ _ _ _ (Nat.mod_lt _ (by decide))]

theorem reg_setPending_other (s : State) (l : Lane) (k : Strand) {v off : Nat} (h : off ≠ Reg.lnEvPend k (v / 32)) :
    (s.setPending l k v).reg l.unit off = s.reg l.unit off := by
  rw [State.setPending]
  split
  · exact reg_setFlag_other _ _ _ (.inr h)
  · rfl

@[simp] theorem setPending_lanes (s : State) (l : Lane) (k : Strand) (v : Nat) :
    (s.setPending l k v).lanes = s.lanes := by
  rw [State.setPending]
  split <;> rfl

/-- A pending bit depends on its register alone. -/
theorem pendingBit_congr {s t : State} {l : Lane} {k : Strand} {v : Nat}
    (h : t.reg l.unit (Reg.lnEvPend k (v / 32)) = s.reg l.unit (Reg.lnEvPend k (v / 32))) :
    t.pendingBit l k v = s.pendingBit l k v := by
  rw [State.pendingBit, State.pendingBit, State.flag, State.flag, h]

/-! ### Strand timers -/

/-- The fewest periods that bring a due compare value above the strand time. -/
theorem timerSteps_spec {cmp per now : Nat} (hd : cmp ≤ now) (hp : 0 < per) :
    0 < timerSteps cmp per now ∧ now < cmp + timerSteps cmp per now * per ∧
      cmp + (timerSteps cmp per now - 1) * per ≤ now := by
  have hs : timerSteps cmp per now = (now - cmp) / per + 1 := if_neg (by omega)
  have hdm := Nat.div_add_mod' (now - cmp) per
  have hm := Nat.mod_lt (now - cmp) hp
  rw [hs, Nat.add_sub_cancel, Nat.succ_mul]
  exact ⟨Nat.succ_pos _, by omega, by omega⟩

/-- The pending register of the timers' vectors 8 to 11. -/
theorem lnEvPend_timer (k : Strand) {i : Nat} (h : i < 4) : Reg.lnEvPend k ((8 + i) / 32) = k.idx * 0x10000 + 0x400 := by
  rw [Nat.div_eq_of_lt (by omega), Reg.lnEvPend]

section
variable {l : Lane} {k : Strand} {i : Nat} {s : State} {now : Dword}

theorem evalTimer_of_not_due (h : s.flag l.unit (Reg.lnTmrCtl k) i = false ∨
    now.toNat < (s.reg64 l.unit (Reg.lnTmrCmpLo k i)).toNat) : s.evalTimer l k now i = s := by
  rcases h with h | h
  · simp [State.evalTimer, h]
  · simp [State.evalTimer, Nat.not_le.2 h]

theorem evalTimer_of_due_oneShot (hon : s.flag l.unit (Reg.lnTmrCtl k) i = true)
    (hd : (s.reg64 l.unit (Reg.lnTmrCmpLo k i)).toNat ≤ now.toNat) (hp : (s.reg l.unit (Reg.lnTmrPer k i)).toNat = 0) :
    s.evalTimer l k now i = (s.setPending l k (8 + i)).setFlag l.unit (Reg.lnTmrCtl k) i false := by
  simp only [State.evalTimer, hon, hd, hp, decide_true, Bool.and_self, if_true]

/-- A periodic timer that fires, with `n` periods added to its compare value. -/
def State.rearmTimer (s : State) (l : Lane) (k : Strand) (i n : Nat) : State :=
  ((s.setPending l k (8 + i)).setReg64 l.unit (Reg.lnTmrCmpLo k i)
    (BitVec.ofNat 64 ((s.reg64 l.unit (Reg.lnTmrCmpLo k i)).toNat + n * (s.reg l.unit (Reg.lnTmrPer k i)).toNat))).bumpBy
    l.unit (Reg.lnTmrMiss k) (8 * i + 7) (8 * i) (n - 1)

theorem evalTimer_of_due_periodic (hon : s.flag l.unit (Reg.lnTmrCtl k) i = true)
    (hd : (s.reg64 l.unit (Reg.lnTmrCmpLo k i)).toNat ≤ now.toNat) (hp : 0 < (s.reg l.unit (Reg.lnTmrPer k i)).toNat) :
    s.evalTimer l k now i = s.rearmTimer l k i (timerSteps (s.reg64 l.unit (Reg.lnTmrCmpLo k i)).toNat
      (s.reg l.unit (Reg.lnTmrPer k i)).toNat now.toNat) := by
  simp only [State.evalTimer, State.rearmTimer, hon, hd, Nat.ne_of_gt hp, decide_true, Bool.and_self, if_true, if_false]

/-- STRAND_TIMER_EXPIRE at step 3 of a point from 2 on evaluates the timer against the agreed strand time. -/
theorem exec_strandTimerExpire {g : Agreement} (hi : i < 4) (hat : s.atSteps l k = true) (hr : s.stepsReady l k = true)
    (h2 : 2 ≤ (s.reg64 l.unit (Reg.lnPointLo k)).toNat) (hg : s.dueAgreement l k = some g) :
    exec (.strandTimerExpire l k i) s = .next (s.evalTimer l k g.stime i) := by
  show execStrandTimerExpire l k i s = _
  simp only [execStrandTimerExpire, hat, hr, hi, hg, Nat.not_lt.2 h2, decide_true, Bool.and_self, if_true, if_false]

/-! What the two ways of firing leave in the timer's registers. -/

theorem oneShot_effect (hi : i < 4) :
    let t := (s.setPending l k (8 + i)).setFlag l.unit (Reg.lnTmrCtl k) i false
    t.pendingBit l k (8 + i) = true ∧ t.flag l.unit (Reg.lnTmrCtl k) i = false ∧
      t.reg64 l.unit (Reg.lnTmrCmpLo k i) = s.reg64 l.unit (Reg.lnTmrCmpLo k i) ∧ t.lanes = s.lanes := by
  have hpend := lnEvPend_timer k hi
  have keeps : ∀ off, off ≠ Reg.lnTmrCtl k → off ≠ Reg.lnEvPend k ((8 + i) / 32) →
      ((s.setPending l k (8 + i)).setFlag l.unit (Reg.lnTmrCtl k) i false).reg l.unit off = s.reg l.unit off :=
    fun off hc hp => (reg_setFlag_other _ _ _ (.inr hc)).trans (reg_setPending_other s l k hp)
  refine ⟨?_, flag_setFlag_same _ _ _ _ _ (by omega), reg64_congr (keeps _ ?_ ?_) (keeps _ ?_ ?_), setPending_lanes s l k _⟩
  · rw [pendingBit_congr (reg_setFlag_other _ _ _ (.inr ?_))]
    · exact pendingBit_setPending s l k (vectorFitted_of_lt s (by omega))
    · rw [hpend, Reg.lnTmrCtl]; omega
  all_goals simp only [hpend, Reg.lnTmrCtl, Reg.lnTmrCmpLo]; omega

theorem rearmTimer_reg_other {n off : Nat} (hm : off ≠ Reg.lnTmrMiss k)
    (hc : off ≠ Reg.lnTmrCmpLo k i ∧ off ≠ Reg.lnTmrCmpLo k i + 4) :
    (s.rearmTimer l k i n).reg l.unit off = (s.setPending l k (8 + i)).reg l.unit off :=
  (reg_bumpBy_other _ _ _ _ hm).trans (reg_setReg64_other _ _ hc)

theorem rearmTimer_effect (hi : i < 4) (n : Nat) :
    let t := s.rearmTimer l k i n
    t.pendingBit l k (8 + i) = true ∧ t.flag l.unit (Reg.lnTmrCtl k) i = s.flag l.unit (Reg.lnTmrCtl k) i ∧
      t.reg64 l.unit (Reg.lnTmrCmpLo k i) = BitVec.ofNat 64
        ((s.reg64 l.unit (Reg.lnTmrCmpLo k i)).toNat + n * (s.reg l.unit (Reg.lnTmrPer k i)).toNat) ∧
      t.fld l.unit (Reg.lnTmrMiss k) (8 * i + 7) (8 * i) =
        min (s.fld l.unit (Reg.lnTmrMiss k) (8 * i + 7) (8 * i) + (n - 1)) 255 ∧ t.lanes = s.lanes := by
  have hpend := lnEvPend_timer k hi
  refine ⟨?_, ?_, ?_, ?_, setPending_lanes s l k _⟩
  · rw [pendingBit_congr (rearmTimer_reg_other ?_ ?_)]
    · exact pendingBit_setPending s l k (vectorFitted_of_lt s (by omega))
    all_goals simp only [hpend, Reg.lnTmrMiss, Reg.lnTmrCmpLo]; omega
  · rw [State.flag, rearmTimer_reg_other, reg_setPending_other, ← State.flag]
    all_goals simp only [hpend, Reg.lnTmrMiss, Reg.lnTmrCmpLo, Reg.lnTmrCtl]; omega
  · rw [State.rearmTimer, reg64_congr (reg_bumpBy_other _ _ _ _ ?_) (reg_bumpBy_other _ _ _ _ ?_), reg64_setReg64_same]
    all_goals simp only [Reg.lnTmrMiss, Reg.lnTmrCmpLo]; omega
  · rw [State.rearmTimer, fld_bumpBy _ _ _ _ _ _ (by omega), State.fld, reg_setReg64_other, reg_setPending_other,
      ← State.fld, show 8 * i + 7 + 1 - 8 * i = 8 by omega]
    all_goals simp only [hpend, Reg.lnTmrMiss, Reg.lnTmrCmpLo]; omega

end

/-- Settles O15: the three outcomes of a timer's evaluation, and what each leaves in the timer's registers. -/
theorem strandTimersFireAndRearm : Obligations.StrandTimersFireAndRearm := by
  intro l k i s g hi hat hr h2 hg
  have he := exec_strandTimerExpire hi hat hr h2 hg
  refine ⟨fun h => ?_, fun hon hd hp => ?_, fun hon hd hp => ?_⟩
  · rw [he, evalTimer_of_not_due h]
  · exact ⟨_, he.trans (congrArg _ (evalTimer_of_due_oneShot hon hd hp)), oneShot_effect hi⟩
  · obtain ⟨hn, hlt, hle⟩ := timerSteps_spec hd hp
    obtain ⟨hpend, hflag, hcmp, hmiss, hlanes⟩ := rearmTimer_effect hi (s := s) (l := l) (k := k) _
    exact ⟨_, _, he.trans (congrArg _ (evalTimer_of_due_periodic hon hd hp)), hpend, hflag.trans hon, hlt, hle, hn, hcmp,
      hmiss, hlanes⟩

end Sys2Proof.Machine
end

section
/-! Output latches (R331, R332): what an output's two latch bits of a lane are after a beat of `FD_DO_CMD` and after an
output update instant; then the statement. -/

namespace Sys2Proof.Machine

/-! ### The latches under the shared operations -/

theorem fdDoLatch_inj {l x : Lane} (h : Reg.fdDoLatch x.idx = Reg.fdDoLatch l.idx) : x = l := by
  cases l <;> cases x <;> simp [Reg.fdDoLatch, Lane.idx] at h ⊢

theorem fdDoLatch_ne (x : Lane) : Reg.fdDoLatch x.idx ≠ Reg.fdStat ∧ Reg.fdDoLatch x.idx ≠ Reg.fdDoStat := by
  simp only [Reg.fdDoLatch, Reg.fdStat, Reg.fdDoStat]
  omega

/-- A lane's latches depend on its latch register alone. -/
theorem latches_congr {s t : State} {x : Lane} (h : t.reg .f (Reg.fdDoLatch x.idx) = s.reg .f (Reg.fdDoLatch x.idx)) :
    t.pendingLatch x = s.pendingLatch x ∧ t.activeLatch x = s.activeLatch x := by
  simp only [State.pendingLatch, State.activeLatch, h, and_self]

theorem reg_refreshOut_other (s : State) (n : Nat) {off : Nat} (h : off ≠ Reg.fdDoStat) :
    (s.refreshOut n).reg .f off = s.reg .f off :=
  (reg_of_regs rfl .f off : _ = (s.setFlag .f Reg.fdDoStat n (s.expected n)).reg .f off).trans
    (reg_setFlag_other s _ _ (.inr h))

theorem reg_refreshOuts_other (s : State) {off : Nat} (h : off ≠ Reg.fdDoStat) :
    s.refreshOuts.reg .f off = s.reg .f off := by
  rw [State.refreshOuts]
  induction List.range 16 generalizing s with
  | nil => rfl
  | cons n ns ih => rw [List.foldl_cons, ih, reg_refreshOut_other s n h]

theorem reg_setLatches (s : State) (l x : Lane) (p a : BitVec 16) :
    (s.setLatches l p a).reg .f (Reg.fdDoLatch x.idx) = if x = l then p ++ a else s.reg .f (Reg.fdDoLatch x.idx) := by
  rw [State.setLatches, reg_refreshOuts_other _ (fdDoLatch_ne x).2]
  by_cases hx : x = l
  · rw [hx, if_pos rfl, reg_setReg_same]
  · rw [if_neg hx, reg_setReg_other _ _ (.inr fun h => hx (fdDoLatch_inj h))]

@[simp] theorem pendingLatch_setLatches (s : State) (l x : Lane) (p a : BitVec 16) :
    (s.setLatches l p a).pendingLatch x = if x = l then p else s.pendingLatch x := by
  rw [State.pendingLatch, reg_setLatches]
  split
  · exact BitVec.extractLsb'_append_eq_left
  · rfl

@[simp] theorem activeLatch_setLatches (s : State) (l x : Lane) (p a : BitVec 16) :
    (s.setLatches l p a).activeLatch x = if x = l then a else s.activeLatch x := by
  rw [State.activeLatch, reg_setLatches]
  split
  · exact BitVec.extractLsb'_append_eq_right
  · rfl

/-! ### A beat of `FD_DO_CMD` -/

/-- Bit n of a pair of latches, pending and active. -/
def latchPair (x : BitVec 16 × BitVec 16) (n : Nat) : Bool × Bool := (x.1.getLsbD n, x.2.getLsbD n)

/-- What a beat makes of output n's pending and active bits (R331, R332). -/
def State.commandedPair (s : State) (k : Strand) (w : Word) (n : Nat) (b : Bool × Bool) : Bool × Bool :=
  if bitOf w (16 + n) && s.outOwner n == k then
    (bitOf w n, if bitOf w n then (if s.waitsUpdate n then b.2 else true) else false)
  else b

/-- One output of `State.commandLatches`. -/
def State.commandOutput (s : State) (k : Strand) (w : Word) (x : BitVec 16 × BitVec 16) (n : Nat) :
    BitVec 16 × BitVec 16 :=
  if bitOf w (16 + n) && s.outOwner n == k then
    let on := bitOf w n
    (withBit x.1 n on, if on then (if s.waitsUpdate n then x.2 else withBit x.2 n true) else withBit x.2 n false)
  else x

section
variable (s : State) (l : Lane) (k : Strand) (w : Word) (x : BitVec 16 × BitVec 16)

/-- The latches that a beat leaves, from those before it. -/
def State.commanded (m : Nat) : BitVec 16 × BitVec 16 := (List.range m).foldl (s.commandOutput k w) x

theorem commandLatches_eq : s.commandLatches l k w =
    s.setLatches l (s.commanded k w (s.pendingLatch l, s.activeLatch l) 16).1
      (s.commanded k w (s.pendingLatch l, s.activeLatch l) 16).2 := rfl

theorem latchPair_commandOutput_other {n j : Nat} (h : j ≠ n) :
    latchPair (s.commandOutput k w x n) j = latchPair x j := by
  rw [State.commandOutput]
  split
  · cases bitOf w n <;> cases s.waitsUpdate n <;> simp [latchPair, getLsbD_withBit, h]
  · rfl

theorem latchPair_commandOutput_same {n : Nat} (h : n < 16) :
    latchPair (s.commandOutput k w x n) n = s.commandedPair k w n (latchPair x n) := by
  rw [State.commandOutput, State.commandedPair]
  split
  · cases bitOf w n <;> cases s.waitsUpdate n <;>
      simp only [latchPair, getLsbD_withBit, h, and_self, if_true, if_false, Bool.false_eq_true]
  · rfl

/-- Each output is commanded by its own bits alone. -/
theorem latchPair_commanded {m : Nat} (hm : m ≤ 16) (j : Nat) :
    latchPair (s.commanded k w x m) j = if j < m then s.commandedPair k w j (latchPair x j) else latchPair x j := by
  induction m with
  | zero => rfl
  | succ m ih =>
    have hstep : s.commanded k w x (m + 1) = s.commandOutput k w (s.commanded k w x m) m := by
      simp [State.commanded, List.range_succ]
    rw [hstep]
    rcases eq_or_ne j m with rfl | hj
    · rw [latchPair_commandOutput_same s k w _ hm, ih (by omega), if_neg (lt_irrefl j), if_pos j.lt_succ_self]
    · rw [latchPair_commandOutput_other s k w _ hj, ih (by omega)]
      simp only [show j < m + 1 ↔ j < m by omega]

/-- The two latch bits of an output in a lane. -/
def State.outputPair (n : Nat) : Bool × Bool := latchPair (s.pendingLatch l, s.activeLatch l) n

theorem outputPair_commandLatches {n : Nat} (h : n < 16) :
    (s.commandLatches l k w).outputPair l n = s.commandedPair k w n (s.outputPair l n) := by
  rw [commandLatches_eq, State.outputPair, pendingLatch_setLatches, activeLatch_setLatches, if_pos rfl, if_pos rfl]
  exact (latchPair_commanded s k w _ le_rfl n).trans (if_pos h)

theorem latches_commandLatches_other {m : Lane} (h : m ≠ l) :
    (s.commandLatches l k w).pendingLatch m = s.pendingLatch m ∧
      (s.commandLatches l k w).activeLatch m = s.activeLatch m := by
  simp [commandLatches_eq, h]

end

section
variable {l : Lane} {k : Strand} {ordinal w : Word} {s : State}

/-- The beat of a lane that F takes commands from acts on arrival. -/
theorem exec_doCmdBeat_taken (hf : s.fOn = true) (hj : (s.lane l).junction.get .f = true)
    (he : (s.expects .f k ordinal).contains l = true) (hh : s.voterHalted .f k = false) (hn : (s.lane l).fenceF = false) :
    exec (.doCmdBeat l k ordinal w) s = .next (s.commandLatches l k w) := by
  show Host.Outcome.next (s.doCmdTake l k ordinal w) = _
  rw [State.doCmdTake, if_pos (by simp only [hf, hj, he, hh, hn, Bool.and_self, Bool.not_false])]

theorem exec_doCmdBeat_dropped (h : (s.lane l).junction.get .f = false ∨ (s.expects .f k ordinal).contains l = false ∨
    s.voterHalted .f k = true ∨ (s.lane l).fenceF = true) : exec (.doCmdBeat l k ordinal w) s = .next s := by
  show Host.Outcome.next (s.doCmdTake l k ordinal w) = _
  rw [State.doCmdTake, if_neg (by rcases h with h | h | h | h <;> simp [-List.contains_eq_mem, h])]

theorem commandLatches_commanded {n : Nat} (hn : n < 16) (hm : bitOf w (16 + n) = true) (ho : s.outOwner n = k) :
    ((s.commandLatches l k w).pendingLatch l).getLsbD n = bitOf w n ∧
      ((s.commandLatches l k w).activeLatch l).getLsbD n =
        if bitOf w n then (if s.waitsUpdate n then (s.activeLatch l).getLsbD n else true) else false := by
  have h := outputPair_commandLatches s l k w hn
  rw [State.commandedPair, if_pos (by simp [hm, ho])] at h
  exact Prod.ext_iff.1 h

theorem commandLatches_kept {n : Nat} (hn : n < 16) (h : bitOf w (16 + n) = false ∨ s.outOwner n ≠ k) :
    ((s.commandLatches l k w).pendingLatch l).getLsbD n = (s.pendingLatch l).getLsbD n ∧
      ((s.commandLatches l k w).activeLatch l).getLsbD n = (s.activeLatch l).getLsbD n := by
  have hp := outputPair_commandLatches s l k w hn
  rw [State.commandedPair, if_neg (by rcases h with h | h <;> simp [h])] at hp
  exact Prod.ext_iff.1 hp

end

/-! ### An output update instant -/

theorem reg_noteTrigger_other (s : State) (act : Nat) (p : PDie) {off : Nat} (h : off ≠ Reg.fdStat) :
    (s.noteTrigger act p).reg .f off = s.reg .f off := by
  have hmark : (s.markPref act).reg .f off = s.reg .f off := reg_of_regs rfl _ _
  simp only [State.noteTrigger]
  split_ifs
  · rw [State.useDie, reg_setFlag_other _ _ _ (.inr h), reg_setFlag_other _ _ _ (.inr h), hmark]
  · exact hmark
  · rfl

theorem latches_updateOutputs (s : State) (x : Lane) :
    s.updateOutputs.activeLatch x = s.activeLatch x ||| s.pendingLatch x ∧
      s.updateOutputs.pendingLatch x = s.pendingLatch x := by
  cases x <;> simp [State.updateOutputs, Lane.list]

theorem takeMark_of_not_contains {s : State} {p : PDie} {a : Nat} (h : (s.port p).marks.contains a = false) :
    s.takeMark p a = none := by
  simp only [State.takeMark, h, Bool.false_eq_true, if_false]

/-- A mark that arrives leaves its die's list, and nothing else changes. -/
theorem takeMark_eq_some {s u : State} {p : PDie} {a : Nat} (h : s.takeMark p a = some u) :
    u = s.setPort p { s.port p with marks := (s.port p).marks.erase a } := by
  rw [State.takeMark, Option.ite_none_right_eq_some] at h
  exact (Option.some.inj h.2).symm

theorem exec_outputUpdateInstant_of_none {s : State} {p : PDie} (h : s.takeMark p 3 = none) :
    exec (.outputUpdateInstant p) s = .next s := by
  show execOutputUpdateInstant p s = _
  simp only [execOutputUpdateInstant, h]

theorem exec_outputUpdateInstant_of_some {s u : State} {p : PDie} (hf : s.fOn = true) (h : s.takeMark p 3 = some u) :
    exec (.outputUpdateInstant p) s = .next (if (u.noteTrigger 2 p).dieInUse 2 = p then
      (u.noteTrigger 2 p).updateOutputs else u.noteTrigger 2 p) := by
  show execOutputUpdateInstant p s = _
  simp only [execOutputUpdateInstant, h, hf, Bool.true_eq_false, if_false]

/-- Settles O54: what the beat makes of each output's two latch bits, and the pending ones joining the active at the
instant of the die in use. -/
theorem outputLatchesTakeOffAtOnceAndOnAtTheUpdate : Obligations.OutputLatchesTakeOffAtOnceAndOnAtTheUpdate := by
  intro l k ordinal w p s hf
  refine ⟨fun hj he hh hn => ⟨_, exec_doCmdBeat_taken hf hj he hh hn, ?_, ?_, ?_⟩, exec_doCmdBeat_dropped,
    fun h => exec_outputUpdateInstant_of_none (takeMark_of_not_contains h), fun u hu => ?_⟩
  · intro n hn hm ho
    obtain ⟨hpend, hact⟩ := commandLatches_commanded (l := l) hn hm ho
    exact ⟨fun hoff => by simp [hpend, hact, hoff], fun hon => by simp [hpend, hact, hon]⟩
  · exact fun n hn h => commandLatches_kept hn h
  · exact fun x hx => latches_commandLatches_other s l k w hx
  · have hmarks := takeMark_eq_some hu
    have hregs : u.regs = s.regs := by rw [hmarks]; rfl
    have hexec := exec_outputUpdateInstant_of_some hf hu
    refine ⟨?_, by rw [hmarks]; rfl, hregs, fun hd => ?_, fun hd => ?_⟩
    · rw [hmarks, port_setPort, if_pos rfl]
    · refine ⟨_, hexec.trans (by rw [if_pos hd]), fun x => ?_⟩
      obtain ⟨hact, hpend⟩ := latches_updateOutputs (u.noteTrigger 2 p) x
      have hreg := (reg_noteTrigger_other u 2 p (fdDoLatch_ne x).1).trans (reg_of_regs hregs _ _)
      obtain ⟨hpend', hact'⟩ := latches_congr hreg
      exact ⟨by rw [hact, hact', hpend'], hpend.trans hpend'⟩
    · rw [hexec, if_neg hd]

end Sys2Proof.Machine
end

section
/-! Disagreements of views (R408): what raising a vector to every strand and logging an event leave and add, what
`MG_DISAGREE` shows; then the statement. -/

namespace Sys2Proof.Machine

/-! ### Raising a vector to every strand -/

section
variable (s : State) (d : Die) (k : Strand) (v : Nat)

@[simp] theorem running_countOcc (e : Die) : ((s.countOcc d k).consumer e).running = (s.consumer e).running := by
  simp only [State.countOcc, consumer_setConsumer]
  split
  · next h => rw [h]
  · rfl

@[simp] theorem running_raise (e : Die) : ((s.raise d k v).consumer e).running = (s.consumer e).running := by
  rw [State.raise]
  split
  · rw [State.consumer, State.send_consumers, ← State.consumer, running_countOcc]
  · rfl

@[simp] theorem running_raiseAll (e : Die) : ((s.raiseAll d v).consumer e).running = (s.consumer e).running := by
  rw [State.raiseAll]
  induction Strand.list generalizing s with
  | nil => rfl
  | cons k ks ih => rw [List.foldl_cons, ih, running_raise]

@[simp] theorem linked_raise (e : Die) : (s.raise d k v).linked e = s.linked e := by
  obtain ⟨_, _, _, h⟩ := raise_frame s d k v
  rw [h]
  rfl

/-- A die raises a vector when it runs and the order code has the vector and the die. -/
def State.canRaise : Prop := (s.consumer d).running = true ∧ s.vectorFitted v = true ∧ s.dieFitted d = true

theorem canRaise_raise : (s.raise d k v).canRaise d v ↔ s.canRaise d v := by
  obtain ⟨_, _, _, h⟩ := raise_frame s d k v
  have hf : (s.raise d k v).vectorFitted v = s.vectorFitted v := by rw [h]; rfl
  have hd : (s.raise d k v).dieFitted d = s.dieFitted d := by rw [h]; cases d <;> rfl
  rw [State.canRaise, State.canRaise, running_raise, hf, hd]

end

section
variable {s : State} {d : Die} {v : Nat} {l : Lane} {k : Strand}

theorem raise_of_not_canRaise (h : ¬ s.canRaise d v) : s.raise d k v = s := by
  rw [State.raise, if_neg (by simpa [State.canRaise, and_assoc] using h)]

/-- Raising a vector takes nothing from the die's own channel. -/
theorem mem_vcQueue_raise {w : Wire} (hw : w ∈ s.vcQueue l d true .posted) :
    w ∈ (s.raise d k v).vcQueue l d true .posted := by
  by_cases h : s.canRaise d v
  · rw [raise_sends s d k v l h]
    exact List.mem_append_left _ hw
  · rwa [raise_of_not_canRaise h]

theorem mem_vcQueue_foldl_raise (ks : List Strand) {w : Wire} (hw : w ∈ s.vcQueue l d true .posted) :
    w ∈ (ks.foldl (fun t k => t.raise d k v) s).vcQueue l d true .posted := by
  induction ks generalizing s with
  | nil => exact hw
  | cons j ks ih => exact ih (mem_vcQueue_raise hw)

theorem exists_occurrence_raise (h : s.canRaise d v) (hl : l ∈ s.linked d) :
    ∃ o, Wire.occurrence l d k o ∈ (s.raise d k v).vcQueue l d true .posted ∧ o.vec = BitVec.ofNat 8 v := by
  refine ⟨s.nextOcc d k v, ?_, rfl⟩
  rw [raise_sends s d k v l h, if_pos hl]
  exact List.mem_append_right _ List.mem_cons_self

theorem exists_occurrence_foldl_raise {ks : List Strand} (hk : k ∈ ks) (h : s.canRaise d v) (hl : l ∈ s.linked d) :
    ∃ o, Wire.occurrence l d k o ∈ (ks.foldl (fun t k => t.raise d k v) s).vcQueue l d true .posted ∧
      o.vec = BitVec.ofNat 8 v := by
  induction ks generalizing s with
  | nil => exact absurd hk List.not_mem_nil
  | cons j ks ih =>
    rcases List.mem_cons.1 hk with rfl | hk
    · obtain ⟨o, ho, hv⟩ := exists_occurrence_raise (k := k) h hl
      exact ⟨o, mem_vcQueue_foldl_raise ks ho, hv⟩
    · exact ih hk ((canRaise_raise s d j v).2 h) (by rwa [linked_raise])

/-- A die-wide event reaches every strand in every lane whose link works (R179). -/
theorem exists_occurrence_raiseAll (k : Strand) (h : s.canRaise d v) (hl : l ∈ s.linked d) :
    ∃ o, Wire.occurrence l d k o ∈ (s.raiseAll d v).vcQueue l d true .posted ∧ o.vec = BitVec.ofNat 8 v :=
  exists_occurrence_foldl_raise (by cases k <;> decide) h hl

end

/-! ### The event log -/

theorem floodCount_raiseAll (s : State) (d : Die) (v src : Nat) :
    (s.raiseAll d v).floodCount src = s.floodCount src := by
  obtain ⟨_, _, _, h⟩ := raiseAll_frame s d v
  rw [h]
  rfl

/-- Below the limit of its source, an event becomes the newest entry of the log (R391). -/
theorem logEv_head {s : State} {src : Nat} (hm : s.mOn = true) (hf : s.floodCount src < 64)
    (k : Option Strand) (code : LogCode) (arg : List Nat) :
    ((s.logEv src k code arg).log.entries.head?.map fun e => (e.code, e.src, e.arg)) = some (code, src, arg) := by
  have hlog : s.logEv src k code arg = (s.setFlood src (s.floodCount src + 1)).appendLog code src k arg := by
    simp only [State.logEv, show s.consumers.m.running = true from hm, hf, Bool.true_eq_false, if_false, if_true]
  rw [hlog, State.appendLog]
  simp only [logRing, List.take_succ_cons, List.head?_cons, Option.map_some]

/-- Raising a vector and logging an event change neither the registers nor the lanes nor the views. -/
theorem logEv_raiseAll_frame (s : State) (d : Die) (vec src : Nat) (k : Option Strand) (code : LogCode) (arg : List Nat) :
    let t := (s.raiseAll d vec).logEv src k code arg
    t.regs = s.regs ∧ t.lanes = s.lanes ∧ t.views = s.views := by
  obtain ⟨_, hlog⟩ := logEv_frame (s.raiseAll d vec) src k code arg
  obtain ⟨_, _, _, hraise⟩ := raiseAll_frame s d vec
  rw [hlog, hraise]
  exact ⟨rfl, rfl, rfl⟩

@[simp] theorem vcQueue_logEv (s : State) (l : Lane) (d : Die) (down : Bool) (c : VChannel) (src : Nat) (k : Option Strand)
    (code : LogCode) (arg : List Nat) : (s.logEv src k code arg).vcQueue l d down c = s.vcQueue l d down c := by
  obtain ⟨_, hlog⟩ := logEv_frame s src k code arg
  rw [hlog]
  rfl

/-! ### The rest of a register that counts -/

section
variable (s : State) (u : RUnit) (off : Nat) {hi lo : Nat}

theorem fld_bump_other {hi' lo' : Nat} (h : hi' < lo ∨ hi < lo') :
    (s.bump u off hi lo).fld u off hi' lo' = s.fld u off hi' lo' := fld_setFld_other s u off _ h

theorem flag_bump_other {j : Nat} (h : j < lo ∨ hi < j) :
    (s.bump u off hi lo).flag u off j = s.flag u off j := by
  rw [State.flag, State.bump, State.bumpBy, State.setFld, reg_setReg_same, bitOf_withField_other _ _ h, State.flag]

end

/-! ### A change of a unit's pair of views -/

section
variable (s : State) (i : Nat) (v : UnitView)

/-- `MG_DISAGREE` with a unit and its two views, before it counts them (R409). -/
def disagreementWord (w : Word) : Word :=
  withField (withField (withField (withBit w 31 true) 15 12 i) 11 10 v.mg) 9 8 (bitNat v.out)

/-- The new pair takes its place, and `MG_DISAGREE` shows and counts it (R408). -/
def State.showDisagreement : State :=
  ({ s with views := s.views.set i v }.setReg .m Reg.mgDisagree
    (disagreementWord i v (s.reg .m Reg.mgDisagree))).bump .m Reg.mgDisagree 7 0

variable {s i v}

theorem setView_of_silent (h : v = s.viewOf i ∨ viewsAgree v = true) :
    s.setView i v = { s with views := s.views.set i v } := if_pos h

theorem setView_of_disagreement (hne : v ≠ s.viewOf i) (hd : viewsAgree v = false) : s.setView i v =
    ((s.showDisagreement i v).raiseAll .m 218).logEv 6 none .mgDisagree [i, v.mg, bitNat v.out] :=
  if_neg (by simp [hne, hd])

theorem reg_showDisagreement_other {u : RUnit} {off : Nat} (h : u ≠ .m ∨ off ≠ Reg.mgDisagree) :
    (s.showDisagreement i v).reg u off = s.reg u off :=
  (reg_bump_other _ _ _ h).trans (reg_setReg_other _ _ h)

/-- Beside its counter, the register holds the word that was written. -/
theorem fld_showDisagreement {hi lo : Nat} (h : 7 < lo) : (s.showDisagreement i v).fld .m Reg.mgDisagree hi lo =
    fieldOf (disagreementWord i v (s.reg .m Reg.mgDisagree)) hi lo := by
  rw [State.showDisagreement, fld_bump_other _ _ _ (.inr h), State.fld, reg_setReg_same]

theorem flag_showDisagreement : (s.showDisagreement i v).flag .m Reg.mgDisagree 31 = true := by
  rw [State.showDisagreement, flag_bump_other _ _ _ (by decide), State.flag, reg_setReg_same, disagreementWord,
    bitOf_withField_other _ _ (by decide), bitOf_withField_other _ _ (by decide), bitOf_withField_other _ _ (by decide),
    bitOf_withBit_same _ _ _ (by decide)]

theorem unit_showDisagreement (hi : i ≤ 8) : (s.showDisagreement i v).fld .m Reg.mgDisagree 15 12 = i := by
  rw [fld_showDisagreement (by decide), disagreementWord, fieldOf_withField_other _ _ (by decide),
    fieldOf_withField_other _ _ (by decide), fieldOf_withField _ _ _ _ (by decide)]
  exact Nat.mod_eq_of_lt (by omega)

theorem views_showDisagreement (hmg : v.mg ≤ 2) : (s.showDisagreement i v).fld .m Reg.mgDisagree 11 10 = v.mg ∧
    (s.showDisagreement i v).fld .m Reg.mgDisagree 9 8 = bitNat v.out := by
  have hout : bitNat v.out < 4 := by cases v.out <;> decide
  rw [fld_showDisagreement (by decide), fld_showDisagreement (by decide), disagreementWord,
    fieldOf_withField_other _ _ (by decide), fieldOf_withField _ _ _ _ (by decide), fieldOf_withField _ _ _ _ (by decide)]
  exact ⟨Nat.mod_eq_of_lt (by omega), Nat.mod_eq_of_lt hout⟩

theorem count_showDisagreement : (s.showDisagreement i v).fld .m Reg.mgDisagree 7 0 =
    satAdd 8 (s.fld .m Reg.mgDisagree 7 0) 1 := by
  rw [State.showDisagreement, fld_bump _ _ _ _ _ (by decide), State.fld, reg_setReg_same, disagreementWord,
    fieldOf_withField_other _ _ (by decide), fieldOf_withField_other _ _ (by decide),
    fieldOf_withField_other _ _ (by decide), fieldOf_withBit_other _ _ (by decide), State.fld, satAdd]

theorem viewOf_of_views {t : State} (hi : i < s.views.length) (h : t.views = s.views.set i v) : t.viewOf i = v := by
  simp [State.viewOf, h, hi]

end

/-- Settles O60: a change into a disagreement is the register, the vector and the log entry, each seen through the acts
that follow it. -/
theorem eachDisagreementOfViewsIsRaisedOnce : Obligations.EachDisagreementOfViewsIsRaisedOnce := by
  intro s i v hm
  refine ⟨setView_of_silent, fun hne hd hlen hi hmg => ?_⟩
  rw [setView_of_disagreement hne hd]
  obtain ⟨hregs, hlanes, hviews⟩ := logEv_raiseAll_frame (s.showDisagreement i v) .m 218 6 none .mgDisagree
    [i, v.mg, bitNat v.out]
  have hreg := reg_of_regs hregs
  have hcan : (s.showDisagreement i v).canRaise .m 218 := ⟨hm, by simp [State.vectorFitted], rfl⟩
  simp only [State.flag, State.fld, hreg]
  refine ⟨viewOf_of_views hlen hviews, flag_showDisagreement, unit_showDisagreement hi, (views_showDisagreement hmg).1,
    (views_showDisagreement hmg).2, count_showDisagreement, fun k l hl => ?_, fun hf => ?_,
    fun u off => reg_showDisagreement_other, hlanes⟩
  · rw [vcQueue_logEv]
    exact exists_occurrence_raiseAll k hcan hl
  · have hrun : ((s.showDisagreement i v).raiseAll .m 218).mOn = true := (running_raiseAll _ .m 218 .m).trans hm
    have hflood : ((s.showDisagreement i v).raiseAll .m 218).floodCount 6 < 64 := by rwa [floodCount_raiseAll]
    exact logEv_head hrun hflood ..

end Sys2Proof.Machine
end

section
/-! The whole machine: what one command does to the queue, the order code and the memories of the lanes, and when it
stops; then the statements about steps. -/

namespace Sys2Proof.Machine

/-! ### What a command may do -/

/-- The commands that name an address outside the memory that they reach: a broadcast and a memory error outside the lane
memory of R161, a patrol read outside DRAM (R171). -/
def reachesOutside : Instr → Bool
  | .broadcastWriteLand _ w _ => !isLaneMemory (w.addr.toNat + w.bytes.length - 1)
  | .memoryUe _ loc a => decide (loc ≠ .control) && !isLaneMemory a.toNat
  | .patrolRead _ _ a => decide (0x100000000 ≤ a.toNat)
  | _ => false

/-- A command answers a next state, with the queue and the order code as before and canonical memories kept; unless it is
one of those that store into lane memory, no byte of a lane changes. -/
def Conforms (c : Instr) (s : State) (o : Out) : Prop :=
  ∃ t, o = .next t ∧ Keeps s t ∧ (writesLaneMemory c = false → t.base = s.base)

section
variable {c : Instr} {s : State} {o : Out}

theorem Conforms.of_base (h : ∃ t, o = .next t ∧ t.base = s.base) : Conforms c s o := by
  obtain ⟨t, ho, ht⟩ := h
  exact ⟨t, ho, keeps_of_base ht, fun _ => ht⟩

theorem Conforms.of_keeps (hc : writesLaneMemory c = true) (h : ∃ t, o = .next t ∧ Keeps s t) : Conforms c s o := by
  obtain ⟨t, ho, ht⟩ := h
  exact ⟨t, ho, ht, fun hf => absurd (hc.symm.trans hf) Bool.noConfusion⟩

theorem Conforms.of_next {t : State} (ho : o = .next t) (h : ∀ u, o = .next u → u.base = s.base) : Conforms c s o :=
  .of_base ⟨t, ho, h t ho⟩

end

/-- Every command whose address lies in its memory conforms: the laws of the single commands, put together. -/
theorem exec_conforms (c : Instr) (s : State) (h : reachesOutside c = false) : Conforms c s (exec c s) := by
  cases c with
  | genericRegisterWrite => exact .of_keeps rfl (execGenericRegisterWrite_keeps ..)
  | rcRead => exact .of_base (execRcRead_base ..)
  | absentUnitAccess => exact .of_base (execAbsentUnitAccess_base ..)
  | commitAbortedByReset => exact .of_base (execCommitAbortedByReset_base ..)
  | powerGood => exact .of_keeps rfl (execPowerGood_keeps ..)
  | boot => exact .of_keeps rfl (execBoot_keeps ..)
  | wdogRestart => exact .of_base (execWdogRestart_base ..)
  | refClockLost => exact .of_base (execRefClockLost_base ..)
  | flitReplay => exact .of_base (execFlitReplay_base ..)
  | crawlwayLinkFailed => exact .of_base (execCrawlwayLinkFailed_base ..)
  | linkFail => exact .of_base (execLinkFail_base ..)
  | echoTimeout => exact .of_base (execEchoTimeout_base ..)
  | kc64Instruction l k op regs =>
    cases op with
    | store a bs => exact .of_keeps rfl (execKc64Instruction_keeps ..)
    | _ => exact .of_base (execKc64Instruction_base _ _ _ _ _ nofun)
  | waitForEvent => exact .of_base (execWaitForEvent_base ..)
  | idleAdvance => exact .of_base (execIdleAdvance_base ..)
  | eventPoint => exact .of_base (execEventPoint_base ..)
  | agreedSetApply => exact .of_base (execAgreedSetApply_base ..)
  | strandTimerExpire => exact .of_base (execStrandTimerExpire_base ..)
  | publicationReceive => exact .of_base (execPublicationReceive_base ..)
  | pairClaimReceive => exact .of_base (execPairClaimReceive_base ..)
  | occurrenceLatch => exact .of_base (execOccurrenceLatch_base ..)
  | evSolo => exact .of_base (execEvSolo_base ..)
  | fstaleTimeout => exact .of_base (execFstaleTimeout_base ..)
  | fieldTripleReceive => exact .of_base (execFieldTripleReceive_base ..)
  | starveTimeout => exact .of_base (execStarveTimeout_base ..)
  | starveClaimReceive => exact .of_base (execStarveClaimReceive_base ..)
  | lateClaim => exact .of_base (execLateClaim_base ..)
  | lateClaimReceive => exact .of_base (execLateClaimReceive_base ..)
  | sqSend => exact .of_base (execSqSend_base ..)
  | sqCopyArrive => exact .of_base (execSqCopyArrive_base ..)
  | sqRxpop => exact .of_base (execSqRxpop_base ..)
  | epochMark => exact .of_base (execEpochMark_base ..)
  | swEventSet => exact .of_base (execSwEventSet_base ..)
  | evPendClear => exact .of_base (execEvPendClear_base ..)
  | tcfgCommitGo => exact .of_base (execTcfgCommitGo_base ..)
  | tcfgGoTimeout => exact .of_base (execTcfgGoTimeout_base ..)
  | beatSend => exact .of_base (execBeatSend_base ..)
  | beatArrive => exact .of_base (execBeatArrive_base ..)
  | voterSkewTimeout => exact .of_base (execVoterSkewTimeout_base ..)
  | beatRelease => exact .of_keeps rfl (execBeatRelease_keeps ..)
  | readOncePerform => exact .of_base (execReadOncePerform_base ..)
  | rdTimeout => exact .of_base (execRdTimeout_base ..)
  | challengeBeatArrive => exact .of_base (execChallengeBeatArrive_base ..)
  | exclusionNoticeReceive => exact .of_base (execExclusionNoticeReceive_base ..)
  | splitNoticeReceive => exact .of_base (execSplitNoticeReceive_base ..)
  | fetchCopyArrive => exact .of_base (execFetchCopyArrive_base ..)
  | fetchSkewTimeout => exact .of_base (execFetchSkewTimeout_base ..)
  | broadcastWriteLand l w ue =>
    have hw : isLaneMemory (w.addr.toNat + w.bytes.length - 1) = true := by simpa [reachesOutside] using h
    exact .of_keeps rfl ⟨_, if_pos hw, execBroadcastWriteLand_keeps l w ue s _ (if_pos hw)⟩
  | scrubHashDone => exact .of_base (execScrubHashDone_base ..)
  | scrubCompare => exact .of_base (execScrubCompare_base ..)
  | restart => exact .of_keeps rfl (execRestart_keeps ..)
  | rejoin => exact .of_base (execRejoin_base ..)
  | abandon => exact .of_base (execAbandon_base ..)
  | autoRejoinRequest => exact .of_base (execAutoRejoinRequest_base ..)
  | rejoinStart => exact .of_base (execRejoinStart_base ..)
  | copyPassEnd => exact .of_keeps rfl (execCopyPassEnd_keeps ..)
  | rejoinHold => exact .of_base (execRejoinHold_base ..)
  | holdAck => exact .of_keeps rfl (execHoldAck_keeps ..)
  | holdTimeout => exact .of_base (execHoldTimeout_base ..)
  | joinNotice => exact .of_base (execJoinNotice_base ..)
  | stallOver => exact .of_base (execStallOver_base ..)
  | laneRetire => exact .of_base (execLaneRetire_base ..)
  | faultLineAssert => exact .of_base (execFaultLineAssert_base ..)
  | memoryUe l loc addr =>
    simp only [reachesOutside, Bool.and_eq_false_iff, decide_eq_false_iff_not, not_not, Bool.not_eq_false'] at h
    exact .of_next (if_pos h) fun t ht => execMemoryUe_base l loc addr s t ht
  | patrolRead l f addr =>
    have ha : addr.toNat < 0x100000000 := Nat.lt_of_not_le (of_decide_eq_false h)
    exact .of_next (if_pos ha) fun t ht => execPatrolRead_base l f addr s t ht
  | debugAttach => exact .of_base (execDebugAttach_base ..)
  | debugRequest l k q =>
    cases q with
    | poke a bs => exact .of_keeps rfl (execDebugRequest_keeps l k (.poke a bs) s)
    | halt => exact .of_base (execDebugRequest_base l k .halt s (by nofun))
    | step => exact .of_base (execDebugRequest_base l k .step s (by nofun))
    | run => exact .of_base (execDebugRequest_base l k .run s (by nofun))
    | modify regs mask => exact .of_base (execDebugRequest_base l k (.modify regs mask) s (by nofun))
  | dbgEnChange => exact .of_base (execDbgEnChange_base ..)
  | portLinkChange => exact .of_base (execPortLinkChange_base ..)
  | cycleStart => exact .of_base (execCycleStart_base ..)
  | cycleEndSync => exact .of_base (execCycleEndSync_base ..)
  | holdoverExpire => exact .of_base (execHoldoverExpire_base ..)
  | ownFrameSend => exact .of_base (execOwnFrameSend_base ..)
  | frameForward => exact .of_base (execFrameForward_base ..)
  | frameReceive => exact .of_base (execFrameReceive_base ..)
  | pathDropExpire => exact .of_base (execPathDropExpire_base ..)
  | modeRequest => exact .of_base (execModeRequest_base ..)
  | modeReqReceive => exact .of_base (execModeReqReceive_base ..)
  | modeExpired => exact .of_base (execModeExpired_base ..)
  | listenTimeout => exact .of_base (execListenTimeout_base ..)
  | backoffExpire => exact .of_base (execBackoffExpire_base ..)
  | idConflictClear => exact .of_base (execIdConflictClear_base ..)
  | inaugRecordExpire => exact .of_base (execInaugRecordExpire_base ..)
  | inaugViewStable => exact .of_base (execInaugViewStable_base ..)
  | linkDelaySend => exact .of_base (execLinkDelaySend_base ..)
  | linkDelayReceive => exact .of_base (execLinkDelayReceive_base ..)
  | linkDelayUpdate => exact .of_base (execLinkDelayUpdate_base ..)
  | linkDelayStale => exact .of_base (execLinkDelayStale_base ..)
  | ttCommitGo => exact .of_base (execTtCommitGo_base ..)
  | guardCommitReply => exact .of_base (execGuardCommitReply_base ..)
  | guardTimeout => exact .of_base (execGuardTimeout_base ..)
  | ttCommitTakeEffect => exact .of_base (execTtCommitTakeEffect_base ..)
  | guardCommitCheck => exact .of_base (execGuardCommitCheck_base ..)
  | guardFrameTap => exact .of_base (execGuardFrameTap_base ..)
  | guardCycleEnd => exact .of_base (execGuardCycleEnd_base ..)
  | guardListenTimeout => exact .of_base (execGuardListenTimeout_base ..)
  | guardHoldExpire => exact .of_base (execGuardHoldExpire_base ..)
  | guardTxAttempt => exact .of_base (execGuardTxAttempt_base ..)
  | guardLengthLimit => exact .of_base (execGuardLengthLimit_base ..)
  | guardReset => exact .of_base (execGuardReset_base ..)
  | guardFenceCommand => exact .of_base (execGuardFenceCommand_base ..)
  | tsqPop => exact .of_base (execTsqPop_base ..)
  | triggerFire => exact .of_base (execTriggerFire_base ..)
  | triggerWrite => exact .of_base (execTriggerWrite_base ..)
  | captureEdge => exact .of_base (execCaptureEdge_base ..)
  | dmaEnable => exact .of_base (execDmaEnable_base ..)
  | dmaDisable => exact .of_base (execDmaDisable_base ..)
  | resume => exact .of_base (execResume_base ..)
  | dmaDoorbell => exact .of_base (execDmaDoorbell_base ..)
  | descriptorStart => exact .of_base (execDescriptorStart_base ..)
  | descriptorComplete => exact .of_base (execDescriptorComplete_base ..)
  | dmaBusTimeout => exact .of_base (execDmaBusTimeout_base ..)
  | quiesceRequest => exact .of_base (execQuiesceRequest_base ..)
  | quiesceAck => exact .of_keeps rfl (execQuiesceAck_keeps ..)
  | quiesceTimeout => exact .of_keeps rfl (execQuiesceTimeout_keeps ..)
  | quiesceRelease => exact .of_base (execQuiesceRelease_base ..)
  | gwCommitGo => exact .of_base (execGwCommitGo_base ..)
  | gwCommitTakeEffect => exact .of_base (execGwCommitTakeEffect_base ..)
  | pduArrival => exact .of_base (execPduArrival_base ..)
  | pduExchange => exact .of_base (execPduExchange_base ..)
  | gwSwDataWrite => exact .of_base (execGwSwDataWrite_base ..)
  | gwSwPub => exact .of_base (execGwSwPub_base ..)
  | gwEventProcess => exact .of_base (execGwEventProcess_base ..)
  | gwFreshnessScan => exact .of_base (execGwFreshnessScan_base ..)
  | gwEcc => exact .of_base (execGwEcc_base ..)
  | rrRequest => exact .of_base (execRrRequest_base ..)
  | rrServe => exact .of_base (execRrServe_base ..)
  | rrResponseReceive => exact .of_base (execRrResponseReceive_base ..)
  | rrTimeout => exact .of_base (execRrTimeout_base ..)
  | rrFree => exact .of_base (execRrFree_base ..)
  | rrDiscard => exact .of_base (execRrDiscard_base ..)
  | canModeWrite => exact .of_base (execCanModeWrite_base ..)
  | recover => exact .of_base (execRecover_base ..)
  | canRecoveryDone => exact .of_base (execCanRecoveryDone_base ..)
  | canFrameReceive => exact .of_base (execCanFrameReceive_base ..)
  | canTransmit => exact .of_base (execCanTransmit_base ..)
  | werrPop => exact .of_base (execWerrPop_base ..)
  | fieldSample => exact .of_base (execFieldSample_base ..)
  | fdCommitGo => exact .of_base (execFdCommitGo_base ..)
  | channelSelfTest => exact .of_base (execChannelSelfTest_base ..)
  | triggerAnnounce => exact .of_base (execTriggerAnnounce_base ..)
  | triggerFallback => exact .of_base (execTriggerFallback_base ..)
  | outputUpdateInstant => exact .of_base (execOutputUpdateInstant_base ..)
  | doCmdBeat => exact .of_base (execDoCmdBeat_base ..)
  | outVerifyDelayExpire => exact .of_base (execOutVerifyDelayExpire_base ..)
  | offPulseStart => exact .of_base (execOffPulseStart_base ..)
  | offPulseEnd => exact .of_base (execOffPulseEnd_base ..)
  | overcurrent => exact .of_base (execOvercurrent_base ..)
  | groupOvercurrent => exact .of_base (execGroupOvercurrent_base ..)
  | thermal => exact .of_base (execThermal_base ..)
  | doFaultClear => exact .of_base (execDoFaultClear_base ..)
  | fieldSupplyChange => exact .of_base (execFieldSupplyChange_base ..)
  | aiConversionStart => exact .of_base (execAiConversionStart_base ..)
  | aiDone => exact .of_base (execAiDone_base ..)
  | cosPop => exact .of_base (execCosPop_base ..)
  | leaseFrameReceive => exact .of_base (execLeaseFrameReceive_base ..)
  | leaseCycleStart => exact .of_base (execLeaseCycleStart_base ..)
  | leaseCycleEnd => exact .of_base (execLeaseCycleEnd_base ..)
  | leaseUnqualified => exact .of_base (execLeaseUnqualified_base ..)
  | armLease => exact .of_base (execArmLease_base ..)
  | disarm => exact .of_base (execDisarm_base ..)
  | release => exact .of_base (execRelease_base ..)
  | modHeldChange => exact .of_base (execModHeldChange_base ..)
  | leaseStateSample => exact .of_base (execLeaseStateSample_base ..)
  | mbTxword => exact .of_base (execMbTxword_base ..)
  | mbTxdb => exact .of_base (execMbTxdb_base ..)
  | mbRxpop => exact .of_base (execMbRxpop_base ..)
  | mbRxdbClear => exact .of_base (execMbRxdbClear_base ..)
  | mbRxmaskWrite => exact .of_base (execMbRxmaskWrite_base ..)
  | rxReset => exact .of_base (execRxReset_base ..)
  | txReset => exact .of_base (execTxReset_base ..)
  | smLockRead => exact .of_base (execSmLockRead_base ..)
  | smRelease => exact .of_base (execSmRelease_base ..)
  | smForce => exact .of_base (execSmForce_base ..)
  | info => exact .of_base (execInfo_base ..)
  | nonce => exact .of_base (execNonce_base ..)
  | auth => exact .of_base (execAuth_base ..)
  | logRead => exact .of_base (execLogRead_base ..)
  | identRead => exact .of_base (execIdentRead_base ..)
  | stageBegin => exact .of_base (execStageBegin_base ..)
  | stageData => exact .of_base (execStageData_base ..)
  | stageEnd => exact .of_base (execStageEnd_base ..)
  | arm => exact .of_base (execArm_base ..)
  | cancel => exact .of_base (execCancel_base ..)
  | revert => exact .of_base (execRevert_base ..)
  | reboot => exact .of_keeps rfl (execReboot_keeps ..)
  | debugAuth => exact .of_base (execDebugAuth_base ..)
  | debugRevoke => exact .of_base (execDebugRevoke_base ..)
  | updateRejected => exact .of_base (execUpdateRejected_base ..)
  | sessionExpire => exact .of_base (execSessionExpire_base ..)
  | debugAuthExpire => exact .of_base (execDebugAuthExpire_base ..)
  | updActivated => exact .of_keeps rfl (execUpdActivated_keeps ..)
  | veto => exact .of_base (execVeto_base ..)
  | confirm => exact .of_base (execConfirm_base ..)
  | successfulBoot => exact .of_base (execSuccessfulBoot_base ..)
  | supplyInterruption => exact .of_base (execSupplyInterruption_base ..)
  | supplyReturn => exact .of_base (execSupplyReturn_base ..)
  | holdupExhausted => exact .of_keeps rfl (execHoldupExhausted_keeps ..)
  | governorReading => exact .of_base (execGovernorReading_base ..)
  | govLimitRaise => exact .of_base (execGovLimitRaise_base ..)
  | govLimitReceive => exact .of_base (execGovLimitReceive_base ..)
  | stepRaise => exact .of_base (execStepRaise_base ..)
  | dsCeilWrite => exact .of_base (execDsCeilWrite_base ..)
  | dsPlanWrite => exact .of_base (execDsPlanWrite_base ..)
  | plannerSample => exact .of_base (execPlannerSample_base ..)
  | plannerReplan => exact .of_base (execPlannerReplan_base ..)
  | marginDailyRecord => exact .of_base (execMarginDailyRecord_base ..)
  | refClockRestored => exact .of_base (execRefClockRestored_base ..)
  | networkTimeTimeout => exact .of_base (execNetworkTimeTimeout_base ..)

/-- The commands that reach outside stop with the address as the fault. -/
theorem exec_ne_next_of_reachesOutside {c : Instr} (s t : State) (h : reachesOutside c = true) : exec c s ≠ .next t := by
  intro ht
  cases c with
  | broadcastWriteLand l w ue =>
    have hw : ¬ isLaneMemory (w.addr.toNat + w.bytes.length - 1) = true := by simpa [reachesOutside] using h
    cases (if_neg hw : exec (.broadcastWriteLand l w ue) s = _).symm.trans ht
  | memoryUe l loc a =>
    have ha : ¬ (loc = .control ∨ isLaneMemory a.toNat = true) := by simpa [reachesOutside] using h
    cases (if_neg ha : exec (.memoryUe l loc a) s = _).symm.trans ht
  | patrolRead l f a =>
    have ha : ¬ a.toNat < 0x100000000 := Nat.not_lt.2 (of_decide_eq_true h)
    cases (if_neg ha : exec (.patrolRead l f a) s = _).symm.trans ht
  | _ => exact Bool.noConfusion h

theorem exec_keeps {c : Instr} {s t : State} (h : exec c s = .next t) : Keeps s t := by
  cases hc : reachesOutside c with
  | true => exact absurd h (exec_ne_next_of_reachesOutside s t hc)
  | false =>
    obtain ⟨u, hu, hk, _⟩ := exec_conforms c s hc
    rw [h] at hu
    exact Host.Outcome.next.inj hu ▸ hk

theorem exec_base {c : Instr} {s t : State} (hw : writesLaneMemory c = false) (h : exec c s = .next t) :
    t.base = s.base := by
  cases hc : reachesOutside c with
  | true => exact absurd h (exec_ne_next_of_reachesOutside s t hc)
  | false =>
    obtain ⟨u, hu, _, hb⟩ := exec_conforms c s hc
    rw [h] at hu
    exact Host.Outcome.next.inj hu ▸ hb hw

theorem step_of_pending {c : Instr} {rest : List Instr} {s : State} (h : s.pending = c :: rest) :
    step s = exec c { s with pending := rest } := by
  simp only [step, h]

theorem step_of_idle {s : State} (h : s.pending = []) : step s = .next s.tick := by
  simp only [step, h]

/-- Settles O1: `step` is defined by the front of the queue. -/
theorem stepRunsFrontCommand : Obligations.StepRunsFrontCommand :=
  ⟨fun _ _ _ h => step_of_pending h, fun _ _ => rfl⟩

/-- Settles O3: a command and the passing of time both keep canonical memories. -/
theorem stepKeepsMemoriesCanonical : Obligations.StepKeepsMemoriesCanonical := by
  intro s t hs ht
  cases hp : s.pending with
  | nil =>
    rw [step_of_idle hp] at ht
    obtain ⟨_, _, hwf⟩ := tick_keeps s
    exact Host.Outcome.next.inj ht ▸ hwf hs
  | cons c rest =>
    rw [step_of_pending hp] at ht
    obtain ⟨_, _, hwf⟩ := exec_keeps ht
    exact hwf hs

/-- Settles O6: the commands that store are named by `writesLaneMemory`, those that stop by `reachesOutside`. -/
theorem laneMemoryIsWrittenByItsOwnCommandsOnly : Obligations.LaneMemoryIsWrittenByItsOwnCommandsOnly := by
  refine ⟨fun c s t hw h l a => ?_, fun c s => ?_, fun l s => ⟨fun w ue hw => ?_, fun loc a hl ha => ?_, fun f a ha => ?_⟩⟩
  · rw [lane_mem, lane_mem, exec_base hw h]
  · cases hc : reachesOutside c with
    | false =>
      obtain ⟨t, ht, _⟩ := exec_conforms c s hc
      exact .inl ⟨t, ht⟩
    | true =>
      cases c with
      | broadcastWriteLand l w ue => exact .inr (.inl ⟨l, w, ue, rfl, by simpa [reachesOutside] using hc⟩)
      | memoryUe l loc a => exact .inr (.inr (.inl ⟨l, loc, a, rfl, by simpa [reachesOutside] using hc⟩))
      | patrolRead l f a => exact .inr (.inr (.inr ⟨l, f, a, rfl, of_decide_eq_true hc⟩))
      | _ => exact Bool.noConfusion hc
  · exact if_neg (by simp [hw])
  · exact if_neg (by simp [hl, ha])
  · exact if_neg (Nat.not_lt.2 ha)

/-- Settles O22: `verdict` by the number of beats and which of them agree. -/
theorem verdictsFollowTheBeats : Obligations.VerdictsFollowTheBeats := by
  intro n la lb lc x y z
  refine ⟨rfl, rfl, fun h => ?_, fun h => ?_, fun hxy hyz => ?_, fun hxy hyz => ?_, fun hxz hxy => ?_, fun hyz hxy => ?_,
    fun hxy hyz hxz => ?_⟩
  · exact if_pos h
  · exact if_neg h
  · simp only [verdict, hxy, hyz, if_true]
  · simp only [verdict, hxy, if_true, if_neg (Ne.symm hyz)]
  · simp only [verdict, if_neg hxy, if_pos hxz.symm]
  · simp only [verdict, if_neg hxy, if_pos hyz.symm, if_neg (hyz ▸ Ne.symm hxy : z ≠ x)]
  · simp only [verdict, if_neg hxy, if_neg (Ne.symm hxz), if_neg (Ne.symm hyz)]

end Sys2Proof.Machine
end

section
/-! What the port dies have delivered to management and it has not yet taken: every operation that the end of a clock
cycle can call keeps it. -/

namespace Sys2Proof.Machine

/-- The frames that the two port dies hold for management firmware (R203). -/
def State.inbox (s : State) : Duo (List (Byte × List Byte)) := ⟨s.ports.p1.mgIn, s.ports.p2.mgIn⟩

@[simp] theorem inbox_ite (c : Prop) [Decidable c] (x y : State) :
    (if c then x else y).inbox = if c then x.inbox else y.inbox := by split <;> rfl

theorem inbox_foldl {β : Type} (g : State → β → State) (hg : ∀ t x, (g t x).inbox = t.inbox) (xs : List β) (s : State) :
    (xs.foldl g s).inbox = s.inbox := by
  induction xs generalizing s with
  | nil => rfl
  | cons x xs ih => rw [List.foldl_cons, ih, hg]

theorem inbox_of_ports {s t : State} (h : t.ports = s.ports) : t.inbox = s.inbox := by simp only [State.inbox, h]

theorem inbox_get (s : State) (p : PDie) : s.inbox.get p = (s.port p).mgIn := by cases p <;> rfl

/-- A change of a port die that leaves what it holds for management. -/
@[simp] theorem setPort_inbox (s : State) (p : PDie) (x : PortDie) (h : x.mgIn = (s.port p).mgIn) :
    (s.setPort p x).inbox = s.inbox := by
  cases p <;> simp_all [State.inbox, State.setPort, State.port, Duo.set, Duo.get]

/-- A record update that leaves the port dies. -/
theorem inbox_mk (variant' : Variant) (ns' : Nat) (regs' : Seven RegFile) (heldLo' : List (RUnit × Nat × Word)) (lanes' : Tri LaneState)
    (voters' : Four (Quad Voter)) (consumers' : Four Consumer) (x : State) (links' : Tri (Four JLink)) (wires' : List Wire)
    (released' : Quad Bool) (tcfg' : Quad (Option TcfgCommit)) (rejoinQueue' : Quad (Option Lane)) (rejoin' : Option RejoinRun)
    (changes' : Quad (List Change)) (echoNum' : Quad Half) (areas' : List Area) (field' : FieldDie) (mailboxes' : List Mailbox)
    (lockTaken' : List LockTake) (mgmt' : Mgmt) (governors' : Tri Governor) (ages' : List AgeRec) (supply' : Supply)
    (views' : List UnitView) (log' : Log) (absentLogged' : List Nat) (free' : Nat) (pending' : List Instr) :
    (State.mk variant' ns' regs' heldLo' lanes' voters' consumers' x.ports links' wires' released' tcfg' rejoinQueue' rejoin'
      changes' echoNum' areas' field' mailboxes' lockTaken' mgmt' governors' ages' supply' views' log' absentLogged' free'
      pending').inbox = x.inbox := rfl

@[simp] theorem setLane_inbox (s : State) (l : Lane) (x : LaneState) : (s.setLane l x).inbox = s.inbox := rfl

@[simp] theorem State.setReg_inbox (s : State) (u : RUnit) (off : Nat) (v : Word) : (State.setReg s u off v).inbox = s.inbox := by
  simp [State.setReg, inbox_mk]

@[simp] theorem State.setFld_inbox (s : State) (u : RUnit) (off hi lo v : Nat) : (State.setFld s u off hi lo v).inbox = s.inbox := by
  simp [State.setFld]

@[simp] theorem State.setFlag_inbox (s : State) (u : RUnit) (off i : Nat) (b : Bool) : (State.setFlag s u off i b).inbox = s.inbox := by
  simp [State.setFlag]

@[simp] theorem State.bumpBy_inbox (s : State) (u : RUnit) (off hi lo n : Nat) : (State.bumpBy s u off hi lo n).inbox = s.inbox := by
  simp [State.bumpBy]

@[simp] theorem State.bump_inbox (s : State) (u : RUnit) (off hi lo : Nat) : (State.bump s u off hi lo).inbox = s.inbox := by
  simp [State.bump]

@[simp] theorem State.bumpWrap_inbox (s : State) (u : RUnit) (off hi lo : Nat) : (State.bumpWrap s u off hi lo).inbox = s.inbox := by
  simp [State.bumpWrap]

@[simp] theorem State.raiseMax_inbox (s : State) (u : RUnit) (off hi lo v : Nat) : (State.raiseMax s u off hi lo v).inbox = s.inbox := by
  simp [State.raiseMax]

@[simp] theorem State.setReg64_inbox (s : State) (u : RUnit) (lo : Nat) (v : Dword) : (State.setReg64 s u lo v).inbox = s.inbox := by
  simp [State.setReg64]

@[simp] theorem State.setLaneFld_inbox (s : State) (off hi lo v : Nat) : (State.setLaneFld s off hi lo v).inbox = s.inbox := by
  simp [State.setLaneFld]

@[simp] theorem State.setReplica_inbox (s : State) (l : Lane) (k : Strand) (r : Replica) : (State.setReplica s l k r).inbox = s.inbox := by
  simp [State.setReplica]

@[simp] theorem State.setEcho_inbox (s : State) (l : Lane) (k : Strand) (e : Echo) : (State.setEcho s l k e).inbox = s.inbox := by
  simp [State.setEcho]

@[simp] theorem State.setVoter_inbox (s : State) (d : Die) (k : Strand) (v : Voter) : (State.setVoter s d k v).inbox = s.inbox := by
  simp [State.setVoter, inbox_mk]

@[simp] theorem State.setConsumer_inbox (s : State) (d : Die) (c : Consumer) : (State.setConsumer s d c).inbox = s.inbox := by
  simp [State.setConsumer, inbox_mk]

@[simp] theorem State.setJLink_inbox (s : State) (l : Lane) (d : Die) (x : JLink) : (State.setJLink s l d x).inbox = s.inbox := by
  simp [State.setJLink, inbox_mk]

@[simp] theorem State.setVcQueue_inbox (s : State) (l : Lane) (d : Die) (down : Bool) (c : VChannel) (ws : List Wire) : (State.setVcQueue s l d down c ws).inbox = s.inbox := by
  simp [State.setVcQueue]

@[simp] theorem State.sendOne_inbox (s : State) (w : Wire) : (State.sendOne s w).inbox = s.inbox := by
  unfold State.sendOne
  split <;> simp [inbox_mk]

@[simp] theorem State.send_inbox (s : State) (ws : List Wire) : (s.send ws).inbox = s.inbox := by
  unfold State.send
  exact inbox_foldl _ (fun _ _ => by simp) _ _

@[simp] theorem State.countLanded_inbox (s : State) (l : Lane) (d : Die) (down : Bool) (c : VChannel) : (State.countLanded s l d down c).inbox = s.inbox := by
  simp [State.countLanded]

@[simp] theorem State.arrive_inbox (s : State) (w : Wire) : (s.arrive w).inbox = s.inbox := by
  unfold State.arrive
  split
  · simp
  · exact inbox_of_ports rfl

@[simp] theorem State.appendLog_inbox (s : State) (code : LogCode) (src : Nat) (k : Option Strand) (arg : List Nat) : (State.appendLog s code src k arg).inbox = s.inbox := by
  simp [State.appendLog, inbox_mk]

@[simp] theorem State.setFlood_inbox (s : State) (src n : Nat) : (State.setFlood s src n).inbox = s.inbox := by
  simp [State.setFlood, inbox_mk]

@[simp] theorem State.logEv_inbox (s : State) (src : Nat) (k : Option Strand) (code : LogCode) (arg : List Nat) : (State.logEv s src k code arg).inbox = s.inbox := by
  simp [State.logEv, inbox_mk]

@[simp] theorem State.countOcc_inbox (s : State) (d : Die) (k : Strand) : (State.countOcc s d k).inbox = s.inbox := by
  simp [State.countOcc]

@[simp] theorem State.raise_inbox (s : State) (d : Die) (k : Strand) (v : Nat) : (State.raise s d k v).inbox = s.inbox := by
  simp [State.raise]

@[simp] theorem State.raiseAll_inbox (s : State) (d : Die) (v : Nat) : (State.raiseAll s d v).inbox = s.inbox := by
  simp [State.raiseAll, inbox_foldl]

@[simp] theorem State.pwFail_inbox (s : State) (d : Die) (k : Option Strand) (r : WerrRec) : (State.pwFail s d k r).inbox = s.inbox := by
  unfold State.pwFail
  split <;> simp

@[simp] theorem State.loseWrite_inbox (s : State) (l : Lane) (w : Broadcast) (cause : Nat) : (State.loseWrite s l w cause).inbox = s.inbox := by
  unfold State.loseWrite
  split <;> simp [setLane_inbox]

@[simp] theorem State.broadcastTo_inbox (s : State) (w : Broadcast) (l : Lane) : (State.broadcastTo s w l).inbox = s.inbox := by
  unfold State.broadcastTo
  (repeat' split) <;> simp

@[simp] theorem State.broadcastNow_inbox (s : State) (w : Broadcast) : (State.broadcastNow s w).inbox = s.inbox := by
  unfold State.broadcastNow
  split <;> simp [inbox_foldl]

@[simp] theorem State.showHold_inbox (s : State) (p : PDie) : (State.showHold s p).inbox = s.inbox := by
  simp [State.showHold]

@[simp] theorem State.keepWrite_inbox (s : State) (p : PDie) (h : HeldWrite) : (State.keepWrite s p h).inbox = s.inbox := by
  simp [State.keepWrite]

@[simp] theorem State.setPending_inbox (s : State) (l : Lane) (k : Strand) (v : Nat) : (State.setPending s l k v).inbox = s.inbox := by
  simp [State.setPending]

@[simp] theorem State.setLCause_inbox (s : State) (l : Lane) (k : Strand) (c : Cause) (repl : Option Lane) : (State.setLCause s l k c repl).inbox = s.inbox := by
  simp [State.setLCause]

@[simp] theorem State.setVCause_inbox (s : State) (d : Die) (k : Strand) (c : Cause) (repl : Option Lane) (ord : Word) : (State.setVCause s d k c repl ord).inbox = s.inbox := by
  simp [State.setVCause]

@[simp] theorem State.showSump_inbox (s : State) (d : Die) (k : Strand) : (State.showSump s d k).inbox = s.inbox := by
  simp [State.showSump, inbox_foldl]

@[simp] theorem State.disturb_inbox (s : State) : (State.disturb s).inbox = s.inbox := by
  simp [State.disturb, inbox_foldl, inbox_mk]

@[simp] theorem State.setOut_inbox (s : State) (n : Nat) (o : OutState) : (State.setOut s n o).inbox = s.inbox := by
  simp [State.setOut, inbox_mk]

@[simp] theorem State.refreshOut_inbox (s : State) (n : Nat) : (State.refreshOut s n).inbox = s.inbox := by
  simp [State.refreshOut]

@[simp] theorem State.refreshOuts_inbox (s : State) : (State.refreshOuts s).inbox = s.inbox := by
  simp [State.refreshOuts, inbox_foldl]

@[simp] theorem State.setLatches_inbox (s : State) (l : Lane) (pend active : BitVec 16) : (State.setLatches s l pend active).inbox = s.inbox := by
  simp [State.setLatches]

@[simp] theorem State.clearLatches_inbox (s : State) (l : Lane) (mask : BitVec 16) : (State.clearLatches s l mask).inbox = s.inbox := by
  simp [State.clearLatches]

@[simp] theorem State.clearStrandLatches_inbox (s : State) (l : Lane) (k : Strand) : (State.clearStrandLatches s l k).inbox = s.inbox := by
  simp [State.clearStrandLatches]

@[simp] theorem State.freeLock_inbox (s : State) (i : Nat) : (State.freeLock s i).inbox = s.inbox := by
  simp [State.freeLock, inbox_foldl, inbox_mk]

@[simp] theorem State.forceLock_inbox (s : State) (i : Nat) (by' : Nat) : (State.forceLock s i by').inbox = s.inbox := by
  simp [State.forceLock]

@[simp] theorem State.freeLocksOf_inbox (s : State) (owner : Nat) : (State.freeLocksOf s owner).inbox = s.inbox := by
  simp [State.freeLocksOf, inbox_foldl]

@[simp] theorem State.setView_inbox (s : State) (i : Nat) (v : UnitView) : (State.setView s i v).inbox = s.inbox := by
  simp [State.setView, inbox_mk]

@[simp] theorem State.setChan_inbox (s : State) (p : PDie) (ch : Nat) (c : Chan) : (State.setChan s p ch c).inbox = s.inbox := by
  simp [State.setChan]

@[simp] theorem State.setChState_inbox (s : State) (p : PDie) (ch : Nat) (x : ChState) : (State.setChState s p ch x).inbox = s.inbox := by
  simp [State.setChState]

@[simp] theorem State.dropFetches_inbox (s : State) (p : PDie) (ch : Nat) : (State.dropFetches s p ch).inbox = s.inbox := by
  simp [State.dropFetches]

@[simp] theorem State.stopChan_inbox (s : State) (p : PDie) (ch : Nat) : (State.stopChan s p ch).inbox = s.inbox := by
  simp [State.stopChan]

@[simp] theorem State.haltChan_inbox (s : State) (p : PDie) (ch : Nat) : (State.haltChan s p ch).inbox = s.inbox := by
  simp [State.haltChan]

@[simp] theorem State.dropHeldWb_inbox (s : State) (p : PDie) (k : Strand) : (State.dropHeldWb s p k).inbox = s.inbox := by
  simp [State.dropHeldWb]

@[simp] theorem State.haltChansOf_inbox (s : State) (k : Strand) : (State.haltChansOf s k).inbox = s.inbox := by
  simp [State.haltChansOf, inbox_foldl]

@[simp] theorem State.setActs_inbox (s : State) (p : PDie) (ch : Nat) (acts : List Act) : (State.setActs s p ch acts).inbox = s.inbox := by
  simp [State.setActs]

@[simp] theorem State.mapAct_inbox (s : State) (p : PDie) (ch index : Nat) (f : Act → Act) : (State.mapAct s p ch index f).inbox = s.inbox := by
  simp [State.mapAct]

@[simp] theorem State.endAct_inbox (s : State) (p : PDie) (ch index st addr : Nat) : (State.endAct s p ch index st addr).inbox = s.inbox := by
  simp [State.endAct]

@[simp] theorem State.endFetch_inbox (s : State) (p : PDie) (id : Nat) : (State.endFetch s p id).inbox = s.inbox := by
  simp [State.endFetch]

@[simp] theorem State.failFetch_inbox (s : State) (p : PDie) (f : Fetch) : (State.failFetch s p f).inbox = s.inbox := by
  simp only [State.failFetch]
  (repeat' split) <;> simp

@[simp] theorem State.failHopeless_inbox (s : State) (p : PDie) (k : Strand) : (State.failHopeless s p k).inbox = s.inbox := by
  simp [State.failHopeless, inbox_foldl]

@[simp] theorem State.dropCopies_inbox (s : State) (p : PDie) (k : Strand) (x : Lane) : (State.dropCopies s p k x).inbox = s.inbox := by
  simp [State.dropCopies]

@[simp] theorem State.releaseWb_inbox (s : State) (p : PDie) (l : Lane) : (State.releaseWb s p l).inbox = s.inbox := by
  simp [State.releaseWb, inbox_foldl]

@[simp] theorem State.releaseWbs_inbox (s : State) (p : PDie) : (State.releaseWbs s p).inbox = s.inbox := by
  simp [State.releaseWbs, inbox_foldl]

@[simp] theorem State.sendWb_inbox (s : State) (p : PDie) (h : HeldWrite) : (State.sendWb s p h).inbox = s.inbox := by
  simp [State.sendWb, inbox_foldl]

@[simp] theorem State.unstall_inbox (s : State) (p : PDie) (k : Strand) : (State.unstall s p k).inbox = s.inbox := by
  simp [State.unstall, inbox_foldl]

@[simp] theorem State.showMode_inbox (s : State) (d : Die) (k : Strand) : (State.showMode s d k).inbox = s.inbox := by
  simp [State.showMode]

@[simp] theorem State.voterClean_inbox (s : State) (d : Die) (k : Strand) : (State.voterClean s d k).inbox = s.inbox := by
  simp [State.voterClean]

@[simp] theorem State.sendExclusion_inbox (s : State) (ls : List Lane) (k : Strand) (x : Lane) (c : Cause) : (State.sendExclusion s ls k x c).inbox = s.inbox := by
  simp [State.sendExclusion]

@[simp] theorem State.sendSplit_inbox (s : State) (ls : List Lane) (k : Strand) (c : Cause) : (State.sendSplit s ls k c).inbox = s.inbox := by
  simp [State.sendSplit]

@[simp] theorem State.chalDecide_inbox (s : State) (d : Die) (k : Strand) : (State.chalDecide s d k).inbox = s.inbox := by
  simp [State.chalDecide, inbox_foldl]

@[simp] theorem State.voterRemove_inbox (s : State) (d : Die) (k : Strand) (x : Lane) : (State.voterRemove s d k x).inbox = s.inbox := by
  unfold State.voterRemove
  split <;> simp

@[simp] theorem State.voterStop_inbox (s : State) (d : Die) (k : Strand) : (State.voterStop s d k).inbox = s.inbox := by
  simp [State.voterStop]

@[simp] theorem State.voterSplit_inbox (s : State) (d : Die) (k : Strand) (c : Cause) (ord : Word) : (State.voterSplit s d k c ord).inbox = s.inbox := by
  simp [State.voterSplit]

@[simp] theorem State.voterResettle_inbox (s : State) (d : Die) (k : Strand) : (State.voterResettle s d k).inbox = s.inbox := by
  unfold State.voterResettle
  (repeat' split) <;> simp

@[simp] theorem State.voterNotice_inbox (s : State) (d : Die) (k : Strand) (x : Lane) : (State.voterNotice s d k x).inbox = s.inbox := by
  simp [State.voterNotice]

@[simp] theorem State.retire_inbox (s : State) (l : Lane) (k : Strand) : (State.retire s l k).inbox = s.inbox := by
  simp [State.retire]

@[simp] theorem State.finishLoad_inbox (s : State) (l : Lane) (k : Strand) (bs : List Byte) : (State.finishLoad s l k bs).inbox = s.inbox := by
  simp [State.finishLoad]

@[simp] theorem State.deliverRead_inbox (s : State) (l : Lane) (k : Strand) (d : Die) (ord : Word) (data : Dword) : (State.deliverRead s l k d ord data).inbox = s.inbox := by
  unfold State.deliverRead
  split <;> simp

@[simp] theorem State.latch_inbox (s : State) (l : Lane) (k : Strand) (o : Occ) : (State.latch s l k o).inbox = s.inbox := by
  simp [State.latch]

@[simp] theorem State.latchChange_inbox (s : State) (l : Lane) (k : Strand) (x : Lane) (ev : ReplEvent) : (State.latchChange s l k x ev).inbox = s.inbox := by
  unfold State.latchChange
  split <;> simp [inbox_mk]

@[simp] theorem State.latchChangeAll_inbox (s : State) (k : Strand) (x : Lane) (ev : ReplEvent) : (State.latchChangeAll s k x ev).inbox = s.inbox := by
  simp [State.latchChangeAll, inbox_foldl]

@[simp] theorem State.showDebug_inbox (s : State) (l : Lane) (k : Strand) : (State.showDebug s l k).inbox = s.inbox := by
  simp [State.showDebug, inbox_foldl]

@[simp] theorem State.pruneChanges_inbox (s : State) (k : Strand) : (State.pruneChanges s k).inbox = s.inbox := by
  simp [State.pruneChanges, inbox_foldl, inbox_mk]

@[simp] theorem State.applyChange_inbox (s : State) (l : Lane) (k : Strand) (c : Change) (now : Dword) : (State.applyChange s l k c now).inbox = s.inbox := by
  unfold State.applyChange
  split <;> simp [inbox_foldl, inbox_mk]

@[simp] theorem State.applyChangesAtHalt_inbox (s : State) (l : Lane) (k : Strand) : (State.applyChangesAtHalt s l k).inbox = s.inbox := by
  simp [State.applyChangesAtHalt, inbox_foldl]

@[simp] theorem State.popAll_inbox (s : State) (l : Lane) (k : Strand) : (State.popAll s l k).inbox = s.inbox := by
  simp [State.popAll]

@[simp] theorem State.showTcfg_inbox (s : State) (k : Strand) (busy : Bool) (res : Option Nat) : (State.showTcfg s k busy res).inbox = s.inbox := by
  unfold State.showTcfg
  split <;> simp [inbox_foldl]

@[simp] theorem State.refuseTcfg_inbox (s : State) (k : Strand) (res : Nat) : (State.refuseTcfg s k res).inbox = s.inbox := by
  simp [State.refuseTcfg, inbox_mk]

@[simp] theorem State.tcfgFinish_inbox (s : State) (k : Strand) (c : TcfgCommit) (at' : Option Word) : (State.tcfgFinish s k c at').inbox = s.inbox := by
  simp [State.tcfgFinish, inbox_foldl, inbox_mk]

@[simp] theorem State.tcfgSettle_inbox (s : State) (k : Strand) : (State.tcfgSettle s k).inbox = s.inbox := by
  unfold State.tcfgSettle
  (repeat' split) <;> simp [inbox_mk]

@[simp] theorem State.releaseHold_inbox (s : State) (p : PDie) : (State.releaseHold s p).inbox = s.inbox := by
  unfold State.releaseHold
  split <;> simp [inbox_foldl]

@[simp] theorem State.releaseHolds_inbox (s : State) : (State.releaseHolds s).inbox = s.inbox := by
  simp [State.releaseHolds]

@[simp] theorem State.recordStall_inbox (s : State) (r : RejoinRun) : (State.recordStall s r).inbox = s.inbox := by
  unfold State.recordStall
  split <;> simp [inbox_foldl]

@[simp] theorem State.resumePaused_inbox (s : State) (k : Strand) : (State.resumePaused s k).inbox = s.inbox := by
  simp [State.resumePaused, inbox_foldl]

@[simp] theorem State.setRjResult_inbox (s : State) (k : Strand) (res : Nat) : (State.setRjResult s k res).inbox = s.inbox := by
  simp [State.setRjResult]

@[simp] theorem State.setRjPhase_inbox (s : State) (k : Strand) (ph : Nat) : (State.setRjPhase s k ph).inbox = s.inbox := by
  simp [State.setRjPhase]

@[simp] theorem State.abandonRejoin_inbox (s : State) (res : Nat) : (State.abandonRejoin s res).inbox = s.inbox := by
  unfold State.abandonRejoin
  split <;> simp [inbox_mk]

@[simp] theorem State.abandonRejoinOf_inbox (s : State) (k : Strand) (res : Nat) : (State.abandonRejoinOf s k res).inbox = s.inbox := by
  unfold State.abandonRejoinOf
  split <;> simp

@[simp] theorem State.sendRetire_inbox (s : State) (x : Lane) (c : LaneFault) : (State.sendRetire s x c).inbox = s.inbox := by
  simp [State.sendRetire]

@[simp] theorem State.checkRetired_inbox (s : State) (l : Lane) : (State.checkRetired s l).inbox = s.inbox := by
  simp [State.checkRetired, inbox_foldl]

@[simp] theorem State.haltDevices_inbox (s : State) (k : Strand) : (State.haltDevices s k).inbox = s.inbox := by
  simp [State.haltDevices, inbox_foldl, inbox_mk]

@[simp] theorem State.haltAt_inbox (s : State) (l : Lane) (k : Strand) (c : Cause) (repl : Option Lane) : (State.haltAt s l k c repl).inbox = s.inbox := by
  simp [State.haltAt]

@[simp] theorem State.haltOwn_inbox (s : State) (l : Lane) (k : Strand) (c : Cause) (repl : Option Lane) : (State.haltOwn s l k c repl).inbox = s.inbox := by
  simp [State.haltOwn]

@[simp] theorem State.showLaneView_inbox (s : State) (x : Lane) : (State.showLaneView s x).inbox = s.inbox := by
  simp [State.showLaneView, inbox_foldl, inbox_mk]

@[simp] theorem State.dropBeats_inbox (s : State) (l : Lane) (k : Strand) : (State.dropBeats s l k).inbox = s.inbox := by
  simp [State.dropBeats, inbox_foldl, inbox_mk]

@[simp] theorem State.excludeAt_inbox (s : State) (l : Lane) (k : Strand) (x : Lane) (c : Cause) : (State.excludeAt s l k x c).inbox = s.inbox := by
  simp only [State.excludeAt]
  (repeat' split) <;> simp [inbox_foldl]

@[simp] theorem State.echoExcludes_inbox (s : State) (l : Lane) (k : Strand) (x : Lane) (c : Cause) : (State.echoExcludes s l k x c).inbox = s.inbox := by
  simp [State.echoExcludes]

@[simp] theorem State.echoSplits_inbox (s : State) (l : Lane) (k : Strand) (c : Cause) : (State.echoSplits s l k c).inbox = s.inbox := by
  simp [State.echoSplits]

@[simp] theorem State.endMailbox_inbox (s : State) (n : Nat) : (State.endMailbox s n).inbox = s.inbox := by
  simp [State.endMailbox, inbox_foldl, inbox_mk]

@[simp] theorem State.endMailboxes_inbox (s : State) : (State.endMailboxes s).inbox = s.inbox := by
  simp [State.endMailboxes, inbox_foldl, inbox_mk]

@[simp] theorem State.commitMsg_inbox (s : State) (l : Lane) (src dst : Strand) (m : SqMsg) : (State.commitMsg s l src dst m).inbox = s.inbox := by
  simp [State.commitMsg]

@[simp] theorem State.commitEpoch_inbox (s : State) (l : Lane) (k : Strand) (pt : Word) (pair : Pair) : (State.commitEpoch s l k pt pair).inbox = s.inbox := by
  simp [State.commitEpoch, inbox_foldl]

@[simp] theorem State.completeWith_inbox (s : State) (l : Lane) (k : Strand) (pair : Pair) (ha hb : HeldPub) : (State.completeWith s l k pair ha hb).inbox = s.inbox := by
  simp [State.completeWith]

@[simp] theorem State.checkThird_inbox (s : State) (l : Lane) (k : Strand) (pt : Word) : (State.checkThird s l k pt).inbox = s.inbox := by
  simp only [State.checkThird]
  (repeat' split) <;> simp

@[simp] theorem State.sigOdd_inbox (s : State) (l : Lane) (k : Strand) (x : Lane) : (State.sigOdd s l k x).inbox = s.inbox := by
  simp [State.sigOdd]

@[simp] theorem State.resolveSplit_inbox (s : State) (l : Lane) (k : Strand) (pair : Pair) (ha hb : HeldPub) : (State.resolveSplit s l k pair ha hb).inbox = s.inbox := by
  simp only [State.resolveSplit]
  (repeat' split) <;> simp

@[simp] theorem State.tryAgree_inbox (n : Nat) (s : State) (l : Lane) (k : Strand) :
    (State.tryAgree n s l k).inbox = s.inbox := by
  induction n generalizing s with
  | zero => simp [State.tryAgree]
  | succ n ih =>
    simp only [State.tryAgree]
    (repeat' split) <;> simp [ih]

@[simp] theorem State.claimPair_inbox (s : State) (l : Lane) (k : Strand) (pt : Word) : (State.claimPair s l k pt).inbox = s.inbox := by
  simp only [State.claimPair]
  (repeat' split) <;> simp [inbox_mk]

@[simp] theorem State.sendClaims_inbox (s : State) (l : Lane) (k : Strand) : (State.sendClaims s l k).inbox = s.inbox := by
  simp [State.sendClaims, inbox_foldl, inbox_mk]

@[simp] theorem State.takeResults_inbox (s : State) (l : Lane) (d : Die) : (State.takeResults s l d).inbox = s.inbox := by
  unfold State.takeResults
  split
  · refine inbox_foldl _ (fun t w => ?_) _ _
    split <;> simp
  · rfl

@[simp] theorem State.endCycleM_inbox (s : State) : (State.endCycleM s).inbox = s.inbox := by
  simp [State.endCycleM, inbox_foldl, inbox_mk]

@[simp] theorem State.endCycleLane_inbox (s : State) (l : Lane) : (State.endCycleLane s l).inbox = s.inbox := by
  simp [State.endCycleLane, inbox_foldl, inbox_mk]

/-! ### One ns on an empty queue -/

theorem noServiceWaits_iff (s : State) : s.noServiceWaits ↔ ∀ p, ∀ x ∈ s.inbox.get p, isSvc x.2 = false := by
  simp only [State.noServiceWaits, inbox_get]

theorem filter_isSvc_eq_nil {xs : List (Byte × List Byte)} (h : ∀ x ∈ xs, isSvc x.2 = false) :
    (xs.filter fun x => isSvc x.2) = [] := List.filter_eq_nil_iff.2 fun x hx => by simp [h x hx]

theorem filter_not_isSvc_eq_self {xs : List (Byte × List Byte)} (h : ∀ x ∈ xs, isSvc x.2 = false) :
    (xs.filter fun x => !isSvc x.2) = xs := List.filter_eq_self.2 fun x hx => by simp [h x hx]

theorem setPort_self (s : State) (p : PDie) : s.setPort p (s.port p) = s := by cases p <;> rfl

/-- With no service message waiting, management takes nothing. -/
theorem takeSvc_of_noServiceWaits {s : State} (h : s.noServiceWaits) (p : PDie) : s.takeSvc p = s := by
  simp only [State.takeSvc, filter_isSvc_eq_nil (h p), filter_not_isSvc_eq_self (h p), List.foldl_nil]
  split
  · exact setPort_self s p
  · rfl

theorem noServiceWaits_congr {s t : State} (h : t.inbox = s.inbox) (hs : s.noServiceWaits) : t.noServiceWaits := by
  rw [noServiceWaits_iff] at hs ⊢
  rwa [h]

/-- What the ends of clock cycles bring when the next ns begins. -/
def State.tickCycles (s : State) : State :=
  let t : State := { (if mCycle (s.ns + 1) ≠ mCycle s.ns then s.endCycleM else s) with ns := s.ns + 1 }
  if memCycle (s.ns + 1) ≠ memCycle s.ns then Lane.list.foldl State.endCycleLane t else t

/-- What one ns brings after management took its service messages. -/
def State.tickRest (s : State) : State :=
  let t := Lane.list.foldl (fun t l => ((t.takeResults l .p1).takeResults l .p2).takeResults l .f) s
  let t := ((t.tickPort .p1).tickPort .p2 |>.settleCopies .p1).settleCopies .p2
  Lane.list.foldl (fun t l => (t.laneTime l .p1).laneTime l .p2) ((t.settleBufs .p1).settleBufs .p2)

theorem tick_eq {s : State} (h : s.supply.good = true) :
    s.tick = ((s.tickCycles.takeSvc .p1).takeSvc .p2).tickRest := by
  simp only [State.tick, State.tickCycles, State.tickRest, h, Bool.not_true, Bool.false_eq_true, if_false]

theorem tick_of_no_power {s : State} (h : s.supply.good = false) : s.tick = s := by
  simp only [State.tick, h, Bool.not_false, if_true]

@[simp] theorem tickCycles_inbox (s : State) : s.tickCycles.inbox = s.inbox := by
  unfold State.tickCycles
  (repeat' split) <;> simp [inbox_foldl, inbox_mk]

@[simp] theorem tickCycles_base (s : State) : s.tickCycles.base = s.base := by
  unfold State.tickCycles
  (repeat' split) <;> simp [base_foldl, base_mk]

@[simp] theorem tickRest_base (s : State) : s.tickRest.base = s.base := by simp [State.tickRest, base_foldl]

/-- One ns leaves the bytes of the lanes when management has no service message to take. -/
theorem tick_base {s : State} (h : s.noServiceWaits) : s.tick.base = s.base := by
  cases hg : s.supply.good with
  | false => rw [tick_of_no_power hg]
  | true =>
    have hc : s.tickCycles.noServiceWaits := noServiceWaits_congr (tickCycles_inbox s) h
    rw [tick_eq hg, takeSvc_of_noServiceWaits hc, takeSvc_of_noServiceWaits hc, tickRest_base, tickCycles_base]

/-! ### One ns while nothing waits -/

/-- A timebase that only went on. -/
def Net.WentOn (x y : Net) : Prop :=
  y = { x with time := y.time, frac := y.frac, clock := y.clock, run := y.run }

/-- Only the timebases of the port dies and the network time held by the lanes differ. -/
structure OnlyTimePasses (s t : State) : Prop where
  rest : t = { s with lanes := t.lanes, ports := t.ports }
  lane : ∀ l, ∃ n, t.lane l = { s.lane l with net := n }
  port : ∀ p, ∃ n g, (s.port p).net.WentOn n ∧ (s.guard p).net.WentOn g ∧
    t.port p = { s.port p with net := n, guard := { s.guard p with net := g } }

theorem OnlyTimePasses.refl (s : State) : OnlyTimePasses s s :=
  ⟨rfl, fun l => ⟨(s.lane l).net, rfl⟩, fun p => ⟨(s.port p).net, (s.guard p).net, rfl, rfl, rfl⟩⟩

theorem Net.WentOn.trans {x y z : Net} (h : x.WentOn y) (k : y.WentOn z) : x.WentOn z := by
  rw [Net.WentOn] at *
  rw [k, h]

theorem OnlyTimePasses.trans {s t u : State} (h : OnlyTimePasses s t) (k : OnlyTimePasses t u) : OnlyTimePasses s u := by
  refine ⟨?_, fun l => ?_, fun p => ?_⟩
  · rw [k.rest, h.rest]
  · obtain ⟨_, hl⟩ := h.lane l
    obtain ⟨n, kl⟩ := k.lane l
    exact ⟨n, by rw [kl, hl]⟩
  · obtain ⟨n, g, hn, hg, hp⟩ := h.port p
    obtain ⟨n', g', kn, kg, kp⟩ := k.port p
    rw [State.guard, hp] at kg
    rw [hp] at kn
    exact ⟨n', g', hn.trans kn, hg.trans kg, by rw [kp, State.guard, hp]⟩

theorem nothingWaits_of_onlyTimePasses {s t : State} (h : OnlyTimePasses s t) (hs : s.nothingWaits) : t.nothingWaits := by
  obtain ⟨hsvc, hwait, hres, hacts, hdue, hbuf⟩ := hs
  have hport : ∀ p, (t.port p).mgIn = (s.port p).mgIn ∧ (t.port p).net.wait = (s.port p).net.wait ∧
      (t.guard p).net.wait = (s.guard p).net.wait ∧ (t.port p).gw = (s.port p).gw := fun p => by
    obtain ⟨n, g, hn, hg, hp⟩ := h.port p
    rw [State.guard, hp]
    rw [Net.WentOn] at hn hg
    exact ⟨rfl, by rw [hn], by rw [hg], rfl⟩
  refine ⟨fun p x hx => hsvc p x ((hport p).1 ▸ hx), fun n => ?_, ?_, ?_, fun l k => ?_, fun p b hb => ?_⟩
  · cases n with
    | ctl p => exact (hport p).2.1.trans (hwait (.ctl p))
    | gd p => exact (hport p).2.2.1.trans (hwait (.gd p))
  · rw [h.rest]
    exact hres
  · rw [h.rest]
    exact hacts
  · obtain ⟨n, hl⟩ := h.lane l
    rw [State.echo, hl]
    exact hdue l k
  · rw [State.gw, (hport p).2.2.2] at hb
    have hk := hbuf p b hb
    rw [h.rest]
    exact hk


theorem foldl_eq_self {α β : Type} {g : α → β → α} {a : α} (xs : List β) (h : ∀ x, g a x = a) : xs.foldl g a = a := by
  induction xs with
  | nil => rfl
  | cons x xs ih => rw [List.foldl_cons, h, ih]

section
variable {s : State} (h : s.nothingWaits)
include h

theorem takeResults_of_nothingWaits (l : Lane) (d : Die) : s.takeResults l d = s := by
  obtain ⟨-, -, hres, -⟩ := h
  rw [State.takeResults, hres, List.foldl_nil, ite_self]

theorem endCycleM_of_nothingWaits : s.endCycleM = s := by
  obtain ⟨-, -, -, hacts, -⟩ := id h
  have hbox : s.endMailboxes = s := foldl_eq_self _ fun n => by
    rw [State.endMailbox]
    simp only [hacts n, List.isEmpty_nil, if_true]
  rw [State.endCycleM, hbox]
  exact foldl_eq_self _ fun l => takeResults_of_nothingWaits h l .m

theorem endCycleLane_of_nothingWaits (l : Lane) : s.endCycleLane l = s := by
  obtain ⟨-, -, -, -, hdue, -⟩ := h
  exact foldl_eq_self _ fun k => by
    rw [State.sendClaims]
    simp only [hdue l k, List.isEmpty_nil, Bool.true_or, if_true]

theorem settleCopies_of_nothingWaits (p : PDie) : s.settleCopies p = s := by
  obtain ⟨-, hwait, -⟩ := h
  have hlate : ∀ n use, s.settleLate n use = s := fun n use => by rw [State.settleLate, hwait n]
  simp only [State.settleCopies, hlate, ite_self]

theorem settleBufs_of_nothingWaits (p : PDie) : s.settleBufs p = s := by
  obtain ⟨-, -, -, -, -, hbuf⟩ := h
  have hmap : ((s.gw p).pdus.map fun b => s.settledBuf p (s.pdu p b.pdu) b) = (s.gw p).pdus :=
    (List.map_congr_left fun b hb => by rw [State.settledBuf, if_neg (hbuf p b hb)]).trans (List.map_id' _)
  rw [State.settleBufs, hmap]
  split
  · exact setPort_self s p
  · rfl

end

theorem tickCycles_of_nothingWaits {s : State} (h : s.nothingWaits) : s.tickCycles = { s with ns := s.ns + 1 } := by
  have hns : ({ s with ns := s.ns + 1 } : State).nothingWaits := h
  rw [State.tickCycles, endCycleM_of_nothingWaits h, ite_self]
  dsimp only
  rw [foldl_eq_self _ (endCycleLane_of_nothingWaits hns), ite_self]

theorem advanceNet_wentOn (x : Net) (c : Nat) : x.WentOn (advanceNet x c) := rfl

theorem onlyTimePasses_tickPort (s : State) (p : PDie) : OnlyTimePasses s (s.tickPort p) := by
  refine ⟨rfl, fun l => ⟨_, rfl⟩, fun q => ?_⟩
  by_cases hq : q = p
  · subst hq
    refine ⟨_, _, ?_, ?_, by rw [State.tickPort, port_setPort, if_pos rfl]; rfl⟩
    · split <;> rfl
    · split <;> rfl
  · rw [State.tickPort, port_setPort, if_neg hq]
    exact (OnlyTimePasses.refl s).port q

theorem onlyTimePasses_laneTime (s : State) (l : Lane) (p : PDie) : OnlyTimePasses s (s.laneTime l p) := by
  rw [State.laneTime]
  split
  · refine ⟨rfl, fun m => ?_, (OnlyTimePasses.refl s).port⟩
    by_cases hm : m = l
    · exact ⟨_, by rw [lane_setLane, if_pos hm, hm]⟩
    · exact ⟨_, by rw [lane_setLane, if_neg hm]⟩
  · exact .refl s

theorem onlyTimePasses_laneTimes (ls : List Lane) (s : State) :
    OnlyTimePasses s (ls.foldl (fun t l => (t.laneTime l .p1).laneTime l .p2) s) := by
  induction ls generalizing s with
  | nil => exact .refl s
  | cons l ls ih =>
    exact ((onlyTimePasses_laneTime s l .p1).trans (onlyTimePasses_laneTime _ l .p2)).trans (ih _)

theorem onlyTimePasses_tickRest {s : State} (h : s.nothingWaits) : OnlyTimePasses s s.tickRest := by
  have hres : Lane.list.foldl (fun t l => ((t.takeResults l .p1).takeResults l .p2).takeResults l .f) s = s :=
    foldl_eq_self _ fun l => by simp only [takeResults_of_nothingWaits h]
  have hports := (onlyTimePasses_tickPort s .p1).trans (onlyTimePasses_tickPort _ .p2)
  have ht := nothingWaits_of_onlyTimePasses hports h
  rw [State.tickRest]
  simp only [hres, settleCopies_of_nothingWaits ht, settleBufs_of_nothingWaits ht]
  exact hports.trans (onlyTimePasses_laneTimes _ _)

theorem onlyTimePasses_tick {s : State} (hg : s.supply.good = true) (h : s.nothingWaits) :
    OnlyTimePasses { s with ns := s.ns + 1 } s.tick := by
  have hns : ({ s with ns := s.ns + 1 } : State).nothingWaits := h
  obtain ⟨hsvc, -⟩ := id hns
  rw [tick_eq hg, tickCycles_of_nothingWaits h, takeSvc_of_noServiceWaits hsvc, takeSvc_of_noServiceWaits hsvc]
  exact onlyTimePasses_tickRest hns

theorem net_only_of_exists {x y : LaneState} (h : ∃ n, y = { x with net := n }) : y = { x with net := y.net } := by
  obtain ⟨n, rfl⟩ := h
  rfl

theorem times_only_of_exists {x y : PortDie} (h : ∃ n g, x.net.WentOn n ∧ x.guard.net.WentOn g ∧
    y = { x with net := n, guard := { x.guard with net := g } }) :
    y = { x with
      net := { x.net with time := y.net.time, frac := y.net.frac, clock := y.net.clock, run := y.net.run }
      guard := { x.guard with net := { x.guard.net with
        time := y.guard.net.time, frac := y.guard.net.frac, clock := y.guard.net.clock, run := y.guard.net.run } } } := by
  obtain ⟨n, g, hn, hg, rfl⟩ := h
  exact congrArg₂ (fun n g => ({ x with net := n, guard := { x.guard with net := g } } : PortDie)) hn hg

/-- Settles O2: the stages of one ns, each of which stands still while nothing waits for it. -/
theorem queueDrainsInOrderAndIdlingTakesOneNs : Obligations.QueueDrainsInOrderAndIdlingTakesOneNs := by
  refine ⟨fun s hp => ⟨fun hg => ?_, fun hg => ?_, fun hg hw => ?_⟩, fun c s t h => ?_⟩
  · rw [step_of_idle hp, tick_of_no_power hg]
  · obtain ⟨hvariant, hpending, _⟩ := tick_keeps s
    exact ⟨s.tick, step_of_idle hp, hpending.trans hp, hvariant, tick_base⟩
  · obtain ⟨hrest, hlane, hport⟩ := onlyTimePasses_tick hg hw
    exact ⟨s.tick, step_of_idle hp, hrest, fun l => net_only_of_exists (hlane l), fun p => times_only_of_exists (hport p)⟩
  · obtain ⟨hvariant, hpending, _⟩ := exec_keeps h
    exact ⟨hpending, hvariant⟩

/-- Settles O5: the values of `State.reset`, looked up. -/
theorem resetIsSound : Obligations.ResetIsSound :=
  ⟨by decide +kernel, rfl, rfl, fun l k => by cases l <;> cases k <;> exact ⟨rfl, rfl, rfl⟩, fun d k => by
    cases d <;> cases k <;> decide +kernel⟩

end Sys2Proof.Machine
end

section
/-! Lane cores: what an instruction leaves when it retires (R44), loads and stores of lane memory (R111, R161), device
accesses (R88, R90), the waits and the epoch mark (R47, R77). -/

namespace Sys2Proof.Machine

/-! ### An instruction that retires -/

/-- What every instruction does beside its own effect: its digest-set registers, and the end of a single step. -/
def State.finishInstr (s : State) (l : Lane) (k : Strand) (regs : List Dword) : State :=
  s.setReplica l k { s.replica l k with
    core := regs
    mode := if (s.replica l k).mode = .debugStep then .debugHalted else (s.replica l k).mode }

theorem endStep_setReplica (s : State) (l : Lane) (k : Strand) (r : Replica) :
    (s.setReplica l k r).endStep l k =
      s.setReplica l k { r with mode := if r.mode = .debugStep then .debugHalted else r.mode } := by
  simp only [State.endStep, replica_setReplica, and_self, if_true, setReplica_setReplica]
  by_cases h : r.mode = .debugStep
  · simp only [h, if_true]
  · simp only [h, if_false]

theorem exec_kc64Instruction_of_execute {s : State} {l : Lane} {k : Strand} {op : KcOp} (regs : List Dword)
    (hc : s.canExecute l k = true) (hm : ((s.execute l k op).replica l k).mode ≠ .stopped) :
    exec (.kc64Instruction l k op regs) s = .next ((s.execute l k op).finishInstr l k regs) := by
  show execKc64Instruction l k op regs s = _
  simp only [execKc64Instruction, hc, if_true, if_neg hm, endStep_setReplica, State.finishInstr]

/-- What an instruction's own effect must leave so that it counts as retiring with the registers `also` written. -/
structure Spares (s u : State) (l : Lane) (k : Strand) (also : RUnit → Nat → Prop) : Prop where
  count : u.reg64 l.unit (Reg.lnIcountLo k) = s.reg64 l.unit (Reg.lnIcountLo k)
  mode : (u.replica l k).mode = (s.replica l k).mode
  others : ∀ l' k', l' ≠ l ∨ k' ≠ k → u.replica l' k' = s.replica l' k'
  echoes : ∀ l' k', u.echo l' k' = s.echo l' k'
  regsStand : ∀ x off, ¬ also x off → u.reg x off = s.reg x off
  voters : u.voters = s.voters
  consumers : u.consumers = s.consumers
  ports : u.ports = s.ports
  wires : u.wires = s.wires
  links : u.links = s.links
  mgmt : u.mgmt = s.mgmt

section
variable {s u : State} {l : Lane} {k : Strand}

theorem replica_setReplica_other (s : State) (r : Replica) {l' : Lane} {k' : Strand} (h : l' ≠ l ∨ k' ≠ k) :
    (s.setReplica l k r).replica l' k' = s.replica l' k' := by
  rw [replica_setReplica, if_neg (by rcases h with h | h <;> simp [h])]

theorem echo_setReplica (s : State) (l : Lane) (k : Strand) (r : Replica) (l' : Lane) (k' : Strand) :
    (s.setReplica l k r).echo l' k' = s.echo l' k' := by
  cases l <;> cases l' <;> rfl

theorem reg_setReplica (s : State) (l : Lane) (k : Strand) (r : Replica) (x : RUnit) (off : Nat) :
    (s.setReplica l k r).reg x off = s.reg x off := rfl

theorem spares_setReplica (s : State) (l : Lane) (k : Strand) {r : Replica} (h : r.mode = (s.replica l k).mode) :
    Spares s (s.setReplica l k r) l k noReg where
  count := rfl
  mode := by rw [replica_setReplica, if_pos ⟨rfl, rfl⟩, h]
  others _ _ h := replica_setReplica_other s r h
  echoes := echo_setReplica s l k r
  regsStand _ _ _ := rfl
  voters := rfl
  consumers := rfl
  ports := rfl
  wires := rfl
  links := rfl
  mgmt := rfl

theorem Spares.trans {t : State} {also : RUnit → Nat → Prop} (h : Spares s t l k also) (g : Spares t u l k also) :
    Spares s u l k also where
  count := g.count.trans h.count
  mode := g.mode.trans h.mode
  others _ _ hne := (g.others _ _ hne).trans (h.others _ _ hne)
  echoes _ _ := (g.echoes _ _).trans (h.echoes _ _)
  regsStand _ _ hr := (g.regsStand _ _ hr).trans (h.regsStand _ _ hr)
  voters := g.voters.trans h.voters
  consumers := g.consumers.trans h.consumers
  ports := g.ports.trans h.ports
  wires := g.wires.trans h.wires
  links := g.links.trans h.links
  mgmt := g.mgmt.trans h.mgmt

theorem Spares.mono {also more : RUnit → Nat → Prop} (h : Spares s u l k also) (hm : ∀ x off, also x off → more x off) :
    Spares s u l k more :=
  { h with regsStand := fun x off hn => h.regsStand x off fun ha => hn (hm x off ha) }

theorem replica_retire (s : State) (l' : Lane) (k' : Strand) : (s.retire l k).replica l' k' = s.replica l' k' := rfl

theorem reg_setReg64_unit (s : State) {x y : RUnit} (lo off : Nat) (v : Dword) (h : x ≠ y) :
    (s.setReg64 y lo v).reg x off = s.reg x off := by
  rw [State.setReg64, reg_setReg_other _ _ (.inl h), reg_setReg_other _ _ (.inl h)]

theorem reg_retire_other (s : State) {x : RUnit} {off : Nat}
    (h : x ≠ l.unit ∨ (off ≠ Reg.lnIcountLo k ∧ off ≠ Reg.lnIcountLo k + 4)) : (s.retire l k).reg x off = s.reg x off := by
  by_cases hx : x = l.unit
  · subst hx
    exact reg_setReg64_other _ _ (h.resolve_left (not_not.2 rfl))
  · exact reg_setReg64_unit _ _ _ _ hx

/-- The instruction retires: its counter, its digest-set registers and what its own effect wrote. -/
theorem Spares.retires {also : RUnit → Nat → Prop} (h : Spares s u l k also) (regs : List Dword) :
    Retires s ((u.retire l k).finishInstr l k regs) l k regs also where
  count := by
    rw [← h.count]
    exact reg64_setReg64_same _ _ _ _
  core := by rw [State.finishInstr, replica_setReplica, if_pos ⟨rfl, rfl⟩]
  mode := by rw [State.finishInstr, replica_setReplica, if_pos ⟨rfl, rfl⟩, replica_retire, h.mode]
  others _ _ hne := (replica_setReplica_other _ _ hne).trans (h.others _ _ hne)
  echoes _ _ := (echo_setReplica ..).trans (h.echoes _ _)
  regsStand _ _ hx ha := (reg_retire_other u hx).trans (h.regsStand _ _ ha)
  voters := h.voters
  consumers := h.consumers
  ports := h.ports
  wires := h.wires
  links := h.links
  mgmt := h.mgmt

theorem replica_finishInstr_retire (u : State) (regs : List Dword) :
    ((u.retire l k).finishInstr l k regs).replica l k = { u.replica l k with
      core := regs
      mode := if (u.replica l k).mode = .debugStep then .debugHalted else (u.replica l k).mode } := by
  rw [State.finishInstr, replica_setReplica, if_pos ⟨rfl, rfl⟩]
  rfl

@[simp] theorem finishInstr_base (u : State) (l : Lane) (k : Strand) (regs : List Dword) :
    (u.finishInstr l k regs).base = u.base := by simp [State.finishInstr]

/-- An instruction whose own effect is `u` and then retiring. -/
theorem exec_of_execute_retire {also : RUnit → Nat → Prop} {op : KcOp} (regs : List Dword) (hc : s.canExecute l k = true)
    (he : s.execute l k op = u.retire l k) (h : Spares s u l k also) :
    exec (.kc64Instruction l k op regs) s = .next ((u.retire l k).finishInstr l k regs) := by
  rw [exec_kc64Instruction_of_execute regs hc (by rw [he, replica_retire, h.mode]; exact mode_ne_stopped_of_canExecute hc), he]

/-! ### Plain instructions and loads of memory -/

theorem setReplica_self (s : State) (l : Lane) (k : Strand) : s.setReplica l k (s.replica l k) = s := by
  cases l <;> cases k <;> rfl

theorem spares_self (s : State) (l : Lane) (k : Strand) : Spares s s l k noReg := by
  have h := spares_setReplica s l k (r := s.replica l k) rfl
  rwa [setReplica_self] at h

/-- An address of lane memory lies in a partition, the common region or a slice. -/
theorem regionOf_of_isLaneMemory {a : Nat} (h : isLaneMemory a = true) :
    (∃ k o, regionOf a = .partition k o) ∨ (∃ o, regionOf a = .common o) ∨ ∃ k o, regionOf a = .slice k o := by
  have ha : a < 0x100100000 := of_decide_eq_true h
  unfold regionOf
  split_ifs <;> simp

theorem execute_load_of_memory {a : Addr} {n : Nat} (ha : s.allowed l k a.toNat n .read = true)
    (hm : isLaneMemory a.toNat = true) (hp : s.poisoned l a.toNat n = false) :
    s.execute l k (.load a n) = s.finishLoad l k (memRead (s.lane l).mem a.toNat n) := by
  simp only [State.execute, State.doLoad, ha, hp, Bool.not_true, Bool.false_eq_true, if_false]
  rcases regionOf_of_isLaneMemory hm with ⟨_, _, hr⟩ | ⟨_, hr⟩ | ⟨_, _, hr⟩ <;> rw [hr]

end

/-- Settles O7: each of these instructions is a change of its replica's record and then retires. -/
theorem instructionsRetireAndLoadsReturnMemory : Obligations.InstructionsRetireAndLoadsReturnMemory := by
  intro l k regs s hc
  refine ⟨?_, fun on => ?_, fun i b m dr dw dx h9 h15 => ?_, fun a ha hp => ?_, fun a n ha hm hp => ?_⟩
  · have h := spares_self s l k
    exact ⟨_, exec_of_execute_retire regs hc rfl h, h.retires regs, by simp⟩
  · have h := spares_setReplica s l k (r := { s.replica l k with mask := on }) rfl
    refine ⟨_, exec_of_execute_retire regs hc rfl h, h.retires regs, ?_, by simp⟩
    rw [replica_finishInstr_retire, replica_setReplica, if_pos ⟨rfl, rfl⟩]
  · have h := spares_setReplica s l k (r := { s.replica l k with
      mpu := ⟨i, b.toNat, m.toNat, dr, dw, dx⟩ :: (s.replica l k).mpu.filter fun e => e.index != i }) rfl
    refine ⟨_, exec_of_execute_retire regs hc (if_pos ⟨h9, h15⟩) h, h.retires regs, ?_, by simp⟩
    rw [replica_finishInstr_retire, replica_setReplica, if_pos ⟨rfl, rfl⟩]
  · have h := spares_self s l k
    have he : s.execute l k (.fetch a) = s.retire l k := by
      simp only [State.execute, ha, hp, Bool.not_true, Bool.false_eq_true, if_false]
    exact ⟨_, exec_of_execute_retire regs hc he h, h.retires regs, by simp⟩
  · have h := spares_setReplica s l k
      (r := { s.replica l k with load := none, last := memRead (s.lane l).mem a.toNat n }) rfl
    refine ⟨_, exec_of_execute_retire regs hc (execute_load_of_memory ha hm hp) h, h.retires regs, ?_, by simp⟩
    rw [replica_finishInstr_retire, replica_setReplica, if_pos ⟨rfl, rfl⟩]

/-! ### Stores into lane memory -/

/-- The dirty counts of the rejoin units. -/
def dirtyCount : RUnit → Nat → Prop := fun _ off => ∃ j : Strand, off = Reg.rjDirty j.idx

theorem lnIcountLo_ne_rjDirty (k j : Strand) : Reg.lnIcountLo k ≠ Reg.rjDirty j.idx ∧
    Reg.lnIcountLo k + 4 ≠ Reg.rjDirty j.idx := by
  cases k <;> cases j <;> decide

/-- What a write's mark in a tracker may change: the running rejoin and the dirty counts (R136). -/
def MarksOnly (s t : State) : Prop :=
  ∃ rg rj, t = { s with regs := rg, rejoin := rj } ∧ ∀ x off, ¬ dirtyCount x off → t.reg x off = s.reg x off

theorem MarksOnly.refl (s : State) : MarksOnly s s := ⟨s.regs, s.rejoin, rfl, fun _ _ _ => rfl⟩

theorem MarksOnly.trans {s t u : State} (h : MarksOnly s t) (g : MarksOnly t u) : MarksOnly s u := by
  obtain ⟨_, _, ht, hreg⟩ := h
  obtain ⟨rg, rj, hu, greg⟩ := g
  exact ⟨rg, rj, by rw [hu, ht], fun x off hn => (greg x off hn).trans (hreg x off hn)⟩

theorem marksOnly_showDirty (s : State) : MarksOnly s s.showDirty := by
  unfold State.showDirty
  split
  · next r _ =>
    refine ⟨_, _, rfl, fun x off hn => reg_setReg_other _ _ (.inr fun he => hn ⟨r.strand, he⟩)⟩
  · exact .refl s

theorem marksOnly_markDirty (s : State) (l : Lane) (a : Nat) : MarksOnly s (s.markDirty l a) := by
  unfold State.markDirty
  split
  · dsimp only
    split
    · exact MarksOnly.trans ⟨s.regs, _, rfl, fun _ _ _ => rfl⟩ (marksOnly_showDirty _)
    · exact .refl s
  · exact .refl s

theorem marksOnly_markDirtyRange (s : State) (l : Lane) (a len : Nat) : MarksOnly s (s.markDirtyRange l a len) := by
  unfold State.markDirtyRange
  generalize List.range (len / 4096 + 2) = is
  induction is generalizing s with
  | nil => exact .refl s
  | cons i is ih =>
    rw [List.foldl_cons]
    refine MarksOnly.trans ?_ (ih _)
    split
    · exact marksOnly_markDirty ..
    · exact .refl s

/-- A change of a lane that leaves its replicas and Echo units. -/
theorem spares_setLane (s : State) (l : Lane) (k : Strand) {m : Lane} {x : LaneState}
    (hr : x.repl = (s.lane m).repl) (he : x.echo = (s.lane m).echo) : Spares s (s.setLane m x) l k noReg := by
  have hrep : ∀ l' k', (s.setLane m x).replica l' k' = s.replica l' k' := fun l' k' => by
    rw [State.replica, lane_setLane]
    split
    · next h => rw [hr, h, State.replica]
    · rfl
  have hech : ∀ l' k', (s.setLane m x).echo l' k' = s.echo l' k' := fun l' k' => by
    rw [State.echo, lane_setLane]
    split
    · next h => rw [he, h, State.echo]
    · rfl
  exact ⟨rfl, by rw [hrep], fun l' k' _ => hrep l' k', hech, fun _ _ _ => rfl, rfl, rfl, rfl, rfl, rfl, rfl⟩

theorem MarksOnly.spares {s t : State} (h : MarksOnly s t) (l : Lane) (k : Strand) : Spares s t l k dirtyCount := by
  obtain ⟨rg, rj, ht, hreg⟩ := h
  have hcount : t.reg64 l.unit (Reg.lnIcountLo k) = s.reg64 l.unit (Reg.lnIcountLo k) := by
    refine reg64_congr (hreg _ _ ?_) (hreg _ _ ?_)
    · rintro ⟨j, hj⟩
      exact (lnIcountLo_ne_rjDirty k j).1 hj
    · rintro ⟨j, hj⟩
      exact (lnIcountLo_ne_rjDirty k j).2 hj
  exact ⟨hcount, by rw [ht]; rfl, fun _ _ _ => by rw [ht]; rfl, fun _ _ => by rw [ht]; rfl, hreg, by rw [ht], by rw [ht],
    by rw [ht], by rw [ht], by rw [ht], by rw [ht]⟩

section
variable {s : State} {l : Lane} {k : Strand} {a : Nat} {bs : List Byte}

/-- A store into lane memory before it retires. -/
def State.stored (s : State) (l : Lane) (k : Strand) (a : Nat) (bs : List Byte) : State :=
  (((((s.laneStore l a bs).foldSig l k (if a < 0x100000000 then sigPartition else sigSlice) a bs).voidScrub l k a).voidScrub
    l k (a + bs.length - 1)).markDirtyRange l a bs.length)

theorem spares_voidScrub (s : State) (l : Lane) (k : Strand) (a : Nat) : Spares s (s.voidScrub l k a) l k noReg :=
  spares_setLane _ _ _ rfl rfl

theorem spares_foldSig (s : State) (l : Lane) (k : Strand) (kind : Byte) (a : Nat) (bs : List Byte) :
    Spares s (s.foldSig l k kind a bs) l k noReg := spares_setReplica s l k rfl

theorem spares_foldDwords (s : State) (l : Lane) (k : Strand) (kind : Byte) (ds : List Dw) :
    Spares s (s.foldDwords l k kind ds) l k noReg := spares_setReplica s l k rfl

theorem spares_stored (s : State) (l : Lane) (k : Strand) (a : Nat) (bs : List Byte) :
    Spares s (s.stored l k a bs) l k dirtyCount := by
  have hstore : Spares s (s.laneStore l a bs) l k noReg := spares_setLane _ _ _ rfl rfl
  have hscrub := ((hstore.trans (spares_foldSig _ l k (if a < 0x100000000 then sigPartition else sigSlice) a bs)).trans (spares_voidScrub _ l k a)).trans (spares_voidScrub _ l k (a + bs.length - 1))
  exact (hscrub.mono fun _ _ => False.elim).trans ((marksOnly_markDirtyRange ..).spares l k)

theorem replica_voidScrub (s : State) (l : Lane) (k : Strand) (a : Nat) (l' : Lane) (k' : Strand) :
    (s.voidScrub l k a).replica l' k' = s.replica l' k' := by
  cases l <;> cases l' <;> rfl

theorem sig_stored (s : State) (l : Lane) (k : Strand) (a : Nat) (bs : List Byte) :
    ((s.stored l k a bs).replica l k).sig = (dwords a bs).foldl
      (fun g d => sigFold g (if a < 0x100000000 then sigPartition else sigSlice) d) (s.replica l k).sig := by
  have hmark : ∀ t : State, (t.markDirtyRange l a bs.length).replica l k = t.replica l k := fun t => by
    obtain ⟨_, _, ht, _⟩ := marksOnly_markDirtyRange t l a bs.length
    rw [ht]
    rfl
  have hlane : (s.laneStore l a bs).replica l k = s.replica l k := by
    rw [State.replica, State.laneStore, lane_setLane, if_pos rfl, State.replica]
  rw [State.stored, hmark, replica_voidScrub, replica_voidScrub, State.foldSig, State.foldDwords, replica_setReplica,
    if_pos ⟨rfl, rfl⟩, hlane]

theorem stored_base (s : State) (l : Lane) (k : Strand) (a : Nat) (bs : List Byte) :
    (s.stored l k a bs).base = (s.laneStore l a bs).base := by simp [State.stored]

/-- A strand may write the partition and the slice that it owns, and no other part of lane memory. -/
theorem ownerOf_of_allowed_write {n : Nat} (ha : s.allowed l k a n .write = true) (hm : isLaneMemory a = true) :
    ownerOf a = some k := by
  simp only [State.allowed, Bool.and_eq_true] at ha
  obtain ⟨⟨-, hreg⟩, -⟩ := ha
  rcases regionOf_of_isLaneMemory hm with ⟨_, _, hr⟩ | ⟨_, hr⟩ | ⟨_, _, hr⟩ <;> rw [hr] at hreg
  · rw [ownerOf, hr, eq_of_beq hreg]
  · exact absurd hreg (by simp [regionAllows])
  · rw [ownerOf, hr, eq_of_beq hreg]

theorem doStore_of_memory (ha : s.allowed l k a bs.length .write = true) (hm : isLaneMemory a = true)
    (hp : s.partialPoison l a bs.length = false) : s.doStore l k a bs = (s.stored l k a bs).retire l k := by
  have hstore : s.memoryStore l k a bs = (s.stored l k a bs).retire l k := by
    simp only [State.memoryStore, hp, Bool.false_eq_true, if_false, State.stored]
  simp only [State.doStore, ha, Bool.not_true, Bool.false_eq_true, if_false]
  rcases regionOf_of_isLaneMemory hm with ⟨_, _, hr⟩ | ⟨_, hr⟩ | ⟨_, _, hr⟩ <;> rw [hr] <;> exact hstore

end

/-- Settles O8: the store writes the lane and the signature, marks the tracker, and retires. -/
theorem storeWritesOwnLaneAndSignature : Obligations.StoreWritesOwnLaneAndSignature := by
  intro l k a bs regs s hc ha hm hp
  have h := spares_stored s l k a.toNat bs
  refine ⟨_, exec_of_execute_retire regs hc (doStore_of_memory ha hm hp) h, h.retires regs,
    ownerOf_of_allowed_write ha hm, ?_, fun l' i => ?_⟩
  · rw [replica_finishInstr_retire]
    exact sig_stored ..
  · rw [lane_mem, finishInstr_base, State.retire_base, stored_base, ← lane_mem, laneStore_mem]
    split_ifs with h1
    · obtain ⟨_, hlo, hhi⟩ := h1
      rw [List.getElem?_eq_getElem (by omega), Option.getD_some]
    · rfl

/-! ### Device accesses -/

/-- The beats of a device access: one for each doubleword that does not stay in the lane, numbered from `o` on. -/
theorem beatsOf_numberBeats (k : Strand) (isRead : Bool) (here : Nat → Bool) (o : Word) (ds : List Dw) :
    beatsOf k isRead (numberBeats here o ds) = (ds.filter fun x => !here x.addr).mapIdx fun i x =>
      ⟨k, o + BitVec.ofNat 32 i, isRead, x.addr, x.be, if isRead then 0 else x.data⟩ := by
  induction ds generalizing o with
  | nil => rfl
  | cons x xs ih =>
    by_cases hx : here x.addr = true
    · simpa [numberBeats, beatsOf, hx] using ih o
    · have hcons : beatsOf k isRead (numberBeats here o (x :: xs)) =
          ⟨k, o, isRead, x.addr, x.be, if isRead then 0 else x.data⟩ :: beatsOf k isRead (numberBeats here (o + 1) xs) := by
        rw [numberBeats, if_neg hx]
        rfl
      have hnum : ∀ i : Nat, o + 1 + BitVec.ofNat 32 i = o + BitVec.ofNat 32 (i + 1) := fun i => by
        rw [BitVec.add_assoc, ← BitVec.ofNat_add_ofNat, BitVec.add_comm (BitVec.ofNat 32 i)]
        rfl
      have hkeep : ((x :: xs).filter fun x => !here x.addr) = x :: xs.filter fun x => !here x.addr := by
        rw [List.filter_cons, if_pos (by simp [hx])]
      simp only [hcons, ih, hkeep, List.mapIdx_cons, hnum, BitVec.add_zero]

theorem noteAbsent_frame (s : State) (d : Die) (off : Nat) :
    ∃ lg ab, s.noteAbsent d off = { s with log := lg, absentLogged := ab } := by
  unfold State.noteAbsent
  split
  · rw [State.logAbsent]
    split
    · exact ⟨s.log, s.absentLogged, rfl⟩
    · next n _ _ =>
      obtain ⟨lg, h⟩ := logEv_frame { s with absentLogged := n :: s.absentLogged } 6 none .capsAbsent [n]
      exact ⟨lg, _, h⟩
  · exact ⟨s.log, s.absentLogged, rfl⟩

theorem noteAbsents_frame (s : State) (d : Die) (ds : List Dw) :
    ∃ lg ab, s.noteAbsents d ds = { s with log := lg, absentLogged := ab } := by
  unfold State.noteAbsents
  induction ds generalizing s with
  | nil => exact ⟨s.log, s.absentLogged, rfl⟩
  | cons x xs ih =>
    obtain ⟨_, _, h1⟩ := noteAbsent_frame s d x.addr
    obtain ⟨lg, ab, h2⟩ := ih (s.noteAbsent d x.addr)
    exact ⟨lg, ab, by rw [List.foldl_cons, h2, h1]⟩

theorem spares_noteAbsents (s : State) (l : Lane) (k : Strand) (d : Die) (ds : List Dw) :
    Spares s (s.noteAbsents d ds) l k noReg := by
  obtain ⟨_, _, h⟩ := noteAbsents_frame s d ds
  rw [h]
  exact ⟨rfl, rfl, fun _ _ _ => rfl, fun _ _ => rfl, fun _ _ _ => rfl, rfl, rfl, rfl, rfl, rfl, rfl⟩

theorem replica_noteAbsents (s : State) (d : Die) (ds : List Dw) (l : Lane) (k : Strand) :
    (s.noteAbsents d ds).replica l k = s.replica l k := by
  obtain ⟨_, _, h⟩ := noteAbsents_frame s d ds
  rw [h]
  rfl

section
variable {s : State} {l : Lane} {k : Strand} {d : Die} {a : Addr} {off : Nat}

theorem replica_queueBeats (s : State) (l : Lane) (k : Strand) (d : Die) (bs : List Beat) :
    (s.queueBeats l k d bs).replica l k = { s.replica l k with
      ord := (s.replica l k).ord.set d ((s.replica l k).ord.get d + BitVec.ofNat 32 bs.length)
      out := (s.replica l k).out ++ bs.map fun b => (d, b) } := by
  rw [State.queueBeats, replica_setReplica, if_pos ⟨rfl, rfl⟩]

theorem spares_queueBeats (s : State) (l : Lane) (k : Strand) (d : Die) (bs : List Beat) :
    Spares s (s.queueBeats l k d bs) l k noReg := spares_setReplica s l k rfl

/-- The doublewords of a device access that leave the lane. -/
def State.sentDwords (s : State) (l : Lane) (k : Strand) (d : Die) (ds : List Dw) : List Dw :=
  ds.filter fun x => !(s.localAnswer l k d x.addr).isSome

theorem sentDwords_eq (s : State) (l : Lane) (k : Strand) (d : Die) (ds : List Dw) :
    (ds.filter fun x => (s.localAnswer l k d x.addr).isNone) = s.sentDwords l k d ds := by
  simp only [State.sentDwords, Option.not_isSome]

/-- The beats of a device access of a replica, from its next ordinal on. -/
def State.accessBeats (s : State) (l : Lane) (k : Strand) (d : Die) (isRead : Bool) (ds : List Dw) : List Beat :=
  beatsOf k isRead (numberBeats (fun o => (s.localAnswer l k d o).isSome) ((s.replica l k).ord.get d) ds)

theorem accessBeats_eq (s : State) (l : Lane) (k : Strand) (d : Die) (isRead : Bool) (ds : List Dw) :
    s.accessBeats l k d isRead ds = (s.sentDwords l k d ds).mapIdx fun i x =>
      ⟨k, (s.replica l k).ord.get d + BitVec.ofNat 32 i, isRead, x.addr, x.be, if isRead then 0 else x.data⟩ :=
  beatsOf_numberBeats ..

theorem length_accessBeats (s : State) (l : Lane) (k : Strand) (d : Die) (isRead : Bool) (ds : List Dw) :
    (s.accessBeats l k d isRead ds).length = (s.sentDwords l k d ds).length := by rw [accessBeats_eq, List.length_mapIdx]

/-- What a beat carries beside its ordinal comes from its doubleword. -/
theorem map_accessBeats {α : Type} (s : State) (l : Lane) (k : Strand) (d : Die) (isRead : Bool) (ds : List Dw) (f : Beat → α)
    (g : Dw → α) (h : ∀ o x, f ⟨k, o, isRead, x.addr, x.be, if isRead then 0 else x.data⟩ = g x) :
    (s.accessBeats l k d isRead ds).map f = (s.sentDwords l k d ds).map g := by
  apply List.ext_getElem?
  intro i
  simp only [accessBeats_eq, List.getElem?_map, List.getElem?_mapIdx, Option.map_map, Function.comp_def, h]

theorem getElem?_accessBeats_ordinal (s : State) (l : Lane) (k : Strand) (d : Die) (isRead : Bool) (ds : List Dw) {i : Nat}
    (h : i < (s.sentDwords l k d ds).length) : ((s.accessBeats l k d isRead ds)[i]?).map (·.ordinal) =
      some ((s.replica l k).ord.get d + BitVec.ofNat 32 i) := by
  rw [accessBeats_eq, List.getElem?_mapIdx, List.getElem?_eq_getElem h]
  rfl

theorem out_of_canExecute (h : s.canExecute l k = true) : (s.replica l k).out = [] := by
  simp only [State.canExecute, Bool.and_eq_true, List.isEmpty_iff] at h
  obtain ⟨⟨_, hout⟩, _⟩ := h
  exact hout

theorem load_of_canExecute (h : s.canExecute l k = true) : (s.replica l k).load = none := by
  simp only [State.canExecute, Bool.and_eq_true, Option.isNone_iff_eq_none] at h
  obtain ⟨⟨⟨_, hload⟩, _⟩, _⟩ := h
  exact hload

/-- A device write before it retires. -/
def State.deviceWritten (s : State) (l : Lane) (k : Strand) (d : Die) (a off : Nat) (bs : List Byte) : State :=
  ((s.noteAbsents d (dwords off bs)).foldDwords l k sigDevice ((dwords a bs).filter fun x =>
    !(s.localAnswer l k d (x.addr - a / 8 * 8 + off / 8 * 8)).isSome)).queueBeats l k d
      (s.accessBeats l k d false (dwords off bs))

theorem spares_deviceWritten (s : State) (l : Lane) (k : Strand) (d : Die) (a off : Nat) (bs : List Byte) :
    Spares s (s.deviceWritten l k d a off bs) l k noReg :=
  ((spares_noteAbsents s l k d _).trans (spares_foldDwords _ l k _ _)).trans (spares_queueBeats _ l k d _)

theorem replica_deviceWritten (hc : s.canExecute l k = true) (bs : List Byte) (a : Nat) :
    let r := (s.deviceWritten l k d a off bs).replica l k
    r.ord = (s.replica l k).ord.set d ((s.replica l k).ord.get d +
      BitVec.ofNat 32 (s.sentDwords l k d (dwords off bs)).length) ∧
    r.out = (s.accessBeats l k d false (dwords off bs)).map fun b => (d, b) := by
  simp only [State.deviceWritten, replica_queueBeats, State.foldDwords, replica_setReplica, and_self, if_true,
    replica_noteAbsents, length_accessBeats, out_of_canExecute hc, List.nil_append]

theorem execute_store_of_window {bs : List Byte} (hr : regionOf a.toNat = .window d off)
    (ha : s.allowed l k a.toNat bs.length .write = true) :
    s.execute l k (.store a bs) = (s.deviceWritten l k d a.toNat off bs).retire l k := by
  simp only [State.execute, State.doStore, ha, hr, Bool.not_true, Bool.false_eq_true, if_false]
  rfl

/-- The parts of a device read, one for each doubleword: a request, or the pattern that the lane answers with. -/
def State.readParts (s : State) (l : Lane) (k : Strand) (d : Die) (ds : List Dw) : List ReadPart :=
  (numberBeats (fun o => (s.localAnswer l k d o).isSome) ((s.replica l k).ord.get d) ds).map fun x => match x.2 with
    | some o => ⟨d, o, 0, none⟩
    | none => ⟨d, 0, 0, (s.localAnswer l k d x.1.addr).map fun p => p ++ p⟩

theorem numberBeats_all (here : Nat → Bool) (f : Dw × Option Word → Bool) (hs : ∀ x o, f (x, some o) = false)
    (hn : ∀ x, here x.addr = true → f (x, none) = true) (o : Word) (ds : List Dw) :
    (numberBeats here o ds).all f = (ds.filter fun x => !here x.addr).isEmpty := by
  induction ds generalizing o with
  | nil => rfl
  | cons x xs ih =>
    by_cases hx : here x.addr = true
    · simp [numberBeats, hx, hn x hx, ih]
    · simp [numberBeats, hx, hs]

/-- The core need not wait exactly when no doubleword leaves the lane. -/
theorem all_got_readParts (s : State) (l : Lane) (k : Strand) (d : Die) (ds : List Dw) :
    ((s.readParts l k d ds).all fun q => q.got.isSome) = (s.sentDwords l k d ds).isEmpty := by
  rw [State.readParts, List.all_map]
  exact numberBeats_all _ _ (fun _ _ => rfl) (fun x hx => by simpa using hx) _ _

/-- A device read whose requests wait in the lane. -/
def State.deviceAsked (s : State) (l : Lane) (k : Strand) (d : Die) (a off n : Nat) : State :=
  let t := (s.noteAbsents d (dwords off (List.replicate n 0))).queueBeats l k d
    (s.accessBeats l k d true (dwords off (List.replicate n 0)))
  t.setReplica l k { t.replica l k with load := some ⟨a, n, s.readParts l k d (dwords off (List.replicate n 0))⟩ }

theorem execute_load_of_window {n : Nat} (hr : regionOf a.toNat = .window d off)
    (ha : s.allowed l k a.toNat n .read = true) : s.execute l k (.load a n) =
      if s.sentDwords l k d (dwords off (List.replicate n 0)) = [] then
        (s.noteAbsents d (dwords off (List.replicate n 0))).finishLoad l k
          (loadBytes a.toNat n (s.readParts l k d (dwords off (List.replicate n 0))))
      else s.deviceAsked l k d a.toNat off n := by
  have he : s.execute l k (.load a n) =
      if (s.readParts l k d (dwords off (List.replicate n 0))).all (fun q => q.got.isSome) then
        (s.noteAbsents d (dwords off (List.replicate n 0))).finishLoad l k
          (loadBytes a.toNat n (s.readParts l k d (dwords off (List.replicate n 0))))
      else s.deviceAsked l k d a.toNat off n := by
    simp only [State.execute, State.doLoad, ha, hr, Bool.not_true, Bool.false_eq_true, if_false]
    rfl
  rw [he, all_got_readParts]
  simp only [List.isEmpty_iff]

theorem spares_deviceAsked (s : State) (l : Lane) (k : Strand) (d : Die) (a off n : Nat) :
    Spares s (s.deviceAsked l k d a off n) l k noReg :=
  ((spares_noteAbsents s l k d _).trans (spares_queueBeats _ l k d _)).trans (spares_setReplica _ l k rfl)

theorem replica_deviceAsked (hc : s.canExecute l k = true) (n a : Nat) :
    let r := (s.deviceAsked l k d a off n).replica l k
    r.load.map (fun p => (p.addr, p.size)) = some (a, n) ∧
    r.out = (s.accessBeats l k d true (dwords off (List.replicate n 0))).map fun b => (d, b) := by
  simp only [State.deviceAsked, replica_setReplica, and_self, if_true, replica_queueBeats, replica_noteAbsents,
    out_of_canExecute hc, List.nil_append, Option.map_some]

end

/-- Settles O9: the beats of the doublewords that leave the lane are numbered one by one, and the lane's own answers are no
beats. -/
theorem deviceAccessesIssueNumberedBeats : Obligations.DeviceAccessesIssueNumberedBeats := by
  intro l k a d off regs s hc hr
  simp only [sentDwords_eq]
  refine ⟨fun bs ha => ?_, fun n ha => ⟨fun hsent => ?_, fun hsent => ?_⟩⟩
  · have h := spares_deviceWritten s l k d a.toNat off bs
    obtain ⟨hord, hout⟩ := replica_deviceWritten (d := d) (off := off) hc bs a.toNat
    refine ⟨_, exec_of_execute_retire regs hc (execute_store_of_window hr ha) h, h.retires regs, ?_, fun e he => ?_, ?_,
      fun i hi => ?_, ?_⟩
    · rw [replica_finishInstr_retire, hord, Four.get_set, if_pos rfl]
    · rw [replica_finishInstr_retire, hord, Four.get_set, if_neg he]
    · rw [replica_finishInstr_retire, hout, List.map_map]
      exact map_accessBeats _ _ _ _ _ _ _ _ fun _ _ => rfl
    · rw [replica_finishInstr_retire, hout, List.getElem?_map, Option.map_map]
      exact getElem?_accessBeats_ordinal s l k d false _ hi
    · simp [State.deviceWritten]
  · have h := spares_deviceAsked s l k d a.toNat off n
    have he := execute_load_of_window hr ha
    rw [if_neg hsent] at he
    obtain ⟨hload, hout⟩ := replica_deviceAsked (d := d) (off := off) hc n a.toNat
    have hmode : ((s.execute l k (.load a n)).replica l k).mode ≠ .stopped := by
      rw [he, h.mode]
      exact mode_ne_stopped_of_canExecute hc
    refine ⟨_, exec_kc64Instruction_of_execute regs hc hmode, ?_, ?_, ?_, ?_, ?_⟩
    · rw [he]
      exact h.count
    · rw [he, State.finishInstr, replica_setReplica, if_pos ⟨rfl, rfl⟩]
      exact hload
    · rw [he, State.finishInstr, replica_setReplica, if_pos ⟨rfl, rfl⟩, hout, List.map_map]
      exact map_accessBeats _ _ _ _ _ _ _ _ fun _ _ => rfl
    · obtain ⟨_, _, hn⟩ := noteAbsents_frame s d (dwords off (List.replicate n 0))
      rw [he, State.finishInstr, State.deviceAsked, hn]
      rfl
    · rw [he, finishInstr_base]
      simp [State.deviceAsked]
  · have h := (spares_noteAbsents s l k d (dwords off (List.replicate n 0))).trans (spares_setReplica _ l k
      (r := { (s.noteAbsents d (dwords off (List.replicate n 0))).replica l k with load := none, last := (loadBytes a.toNat n
        (s.readParts l k d (dwords off (List.replicate n 0)))) }) rfl)
    have he := execute_load_of_window hr ha
    rw [if_pos hsent] at he
    refine ⟨_, exec_of_execute_retire regs hc he h, h.retires regs, ?_, ?_, by simp⟩
    · rw [replica_finishInstr_retire, replica_setReplica, if_pos ⟨rfl, rfl⟩, replica_noteAbsents]
      exact out_of_canExecute hc
    · rw [replica_finishInstr_retire, replica_setReplica, if_pos ⟨rfl, rfl⟩]

/-! ### The address map -/

/-- Blocks of one size in the order of the strands: which block an address lies in, and where in it. -/
theorem strandBlock (k : Strand) {n o : Nat} (h : o < n) :
    Strand.ofIdx ((k.idx * n + o) / n) = k ∧ (k.idx * n + o) % n = o := by
  have hn : 0 < n := Nat.zero_lt_of_lt h
  rw [Nat.add_comm, Nat.add_mul_div_right _ _ hn, Nat.div_eq_of_lt h, Nat.zero_add, Nat.add_mul_mod_self_right]
  exact ⟨by cases k <;> rfl, Nat.mod_eq_of_lt h⟩

theorem idx_lt_four (k : Strand) : k.idx < 4 := by cases k <;> decide

theorem regionOf_partition (k : Strand) {o : Nat} (h : o < 0x38000000) :
    regionOf (k.idx * 0x38000000 + o) = .partition k o := by
  have hk := idx_lt_four k
  obtain ⟨hq, hm⟩ := strandBlock k h
  rw [regionOf, if_pos (by omega), partitionSize, hq, hm]

theorem regionOf_slice (k : Strand) {o : Nat} (h : o < 0x40000) :
    regionOf (0x100000000 + k.idx * 0x40000 + o) = .slice k o := by
  have hk := idx_lt_four k
  obtain ⟨hq, hm⟩ := strandBlock k h
  rw [regionOf, if_neg (by omega), if_neg (by omega), if_pos (by omega), sliceBase, sliceSize, Nat.add_assoc,
    Nat.add_sub_cancel_left, hq, hm]

theorem regionOf_page (k : Strand) {o : Nat} (h : o < 0x10000) :
    regionOf (0x200000000 + k.idx * 0x10000 + o) = .page k o := by
  have hk := idx_lt_four k
  obtain ⟨hq, hm⟩ := strandBlock k h
  rw [regionOf, if_neg (by omega), if_neg (by omega), if_neg (by omega), if_neg (by omega), if_pos (by omega),
    Nat.add_assoc, Nat.add_sub_cancel_left, hq, hm]

theorem regionOf_window {n o : Nat} (hn : n < 4) (h : o < 0x10000000) :
    regionOf (0x300000000 + n * 0x10000000 + o) = .window (Die.ofWindow n) o := by
  rw [regionOf, if_neg (by omega), if_neg (by omega), if_neg (by omega), if_neg (by omega), if_neg (by omega),
    if_neg (by omega), if_neg (by omega), if_neg (by omega), if_pos (by omega), Nat.add_assoc, Nat.add_sub_cancel_left,
    show (n * 0x10000000 + o) / 0x10000000 = n by omega, show (n * 0x10000000 + o) % 0x10000000 = o by omega]

theorem regionOf_common {o : Nat} (h : o < 0x20000000) : regionOf (0xE0000000 + o) = .common o := by
  rw [regionOf, if_neg (by omega), if_pos (by omega), Nat.add_sub_cancel_left]

theorem regionOf_laneCommon {o : Nat} (h : o < 0x10000) : regionOf (0x200080000 + o) = .laneCommon (0x80000 + o) := by
  rw [regionOf, if_neg (by omega), if_neg (by omega), if_neg (by omega), if_neg (by omega), if_neg (by omega),
    if_neg (by omega), if_pos (by omega), show 0x200080000 + o - 0x200000000 = 0x80000 + o by omega]

/-- Settles O11: each region by its bounds, and the rights by the kind of region and of access. -/
theorem addressMapGivesStrandsTheirRights : Obligations.AddressMapGivesStrandsTheirRights := by
  refine ⟨fun k o h => regionOf_partition k h, fun o h => regionOf_common h, fun k o h => regionOf_slice k h,
    fun k o h => regionOf_page k h, fun o h => regionOf_laneCommon h, fun o h => ?_, fun a h => regionOf_gap h,
    fun j k o d c => ?_⟩
  · exact ⟨regionOf_window (n := 0) (by decide) h, regionOf_window (n := 1) (by decide) h,
      regionOf_window (n := 2) (by decide) h, regionOf_window (n := 3) (by decide) h⟩
  · cases c <;> simp [regionAllows]

/-! ### Waits and epoch marks -/

section
variable {s : State} {l : Lane} {k : Strand}

/-- The end of an instruction that leaves the digest-set registers. -/
theorem endStep_eq_finishInstr (s : State) (l : Lane) (k : Strand) :
    s.endStep l k = s.finishInstr l k (s.replica l k).core := by
  have h := endStep_setReplica s l k (s.replica l k)
  rwa [setReplica_self] at h

theorem exec_epochMark_eq (h : s.canExecute l k = true) : exec (.epochMark l k) s =
    .next (((s.setReplica l k { s.replica l k with mark := true }).retire l k).finishInstr l k (s.replica l k).core) := by
  show execEpochMark l k s = _
  rw [execEpochMark, if_pos h, endStep_eq_finishInstr, replica_retire, replica_setReplica, if_pos ⟨rfl, rfl⟩]

theorem reg64_idleAdvance (s : State) (l : Lane) (k : Strand) :
    (s.idleAdvance l k).reg64 l.unit (Reg.lnIcountLo k) = (s.replica l k).nextCount := by
  have h := reg64_setReg64_same s l.unit (Reg.lnIcountLo k) (s.replica l k).nextCount
  exact h

theorem replica_idleAdvance (s : State) (l : Lane) (k : Strand) :
    (s.idleAdvance l k).replica l k = { s.replica l k with mode := .waiting, idle := true } := by
  rw [State.idleAdvance]
  exact (replica_setReplica ..).trans (if_pos ⟨rfl, rfl⟩)

theorem exec_waitForEvent_eq (h : s.canExecute l k = true) (hm : (s.replica l k).mode = .running) :
    exec (.waitForEvent l k) s = .next (if s.dueVector l k ≠ none ∧ (s.replica l k).mask = false then s.retire l k
      else (s.retire l k).idleAdvance l k) := by
  show execWaitForEvent l k s = _
  simp only [execWaitForEvent, h, hm, beq_self_eq_true, Bool.and_self, if_true, Bool.and_eq_true, Bool.not_eq_true',
    Option.isSome_iff_ne_none]

end

/-- Settles O12: the counter and the replica's record after each of the three commands. -/
theorem waitsAndMarksMoveTheCounter : Obligations.WaitsAndMarksMoveTheCounter := by
  intro l k s
  refine ⟨fun hc hm => ?_, fun hr hm hp hi ht => ?_, fun hm ht => ?_, fun hc => ?_⟩
  · refine ⟨_, exec_waitForEvent_eq hc hm, ?_⟩
    split_ifs with hd
    · refine ⟨reg64_setReg64_same .., ?_, rfl, by simp, rfl, rfl⟩
      rw [replica_retire, hm]
      simp [hd]
    · refine ⟨reg64_idleAdvance .., ?_, ?_, by simp, rfl, rfl⟩
      · simp [replica_idleAdvance, hd]
      · rw [replica_idleAdvance, replica_retire]
  · have he : exec (.idleAdvance l k) s = .next (s.idleAdvance l k) := by
      show execIdleAdvance l k s = _
      simp [execIdleAdvance, hr, hm, hp, hi, ht]
    exact ⟨_, he, reg64_idleAdvance s l k, by rw [replica_idleAdvance], by simp, rfl, rfl⟩
  · show execIdleAdvance l k s = _
    simp [execIdleAdvance, Nat.not_le.2 ht]
  · have h := spares_setReplica s l k (r := { s.replica l k with mark := true }) rfl
    refine ⟨_, exec_epochMark_eq hc, ?_, h.retires _, by simp⟩
    rw [replica_finishInstr_retire, replica_setReplica, if_pos ⟨rfl, rfl⟩]

end Sys2Proof.Machine
end

section
/-! Event points (R45 to R49): what a replica publishes, and what its own Echo unit makes of a first publication. -/

namespace Sys2Proof.Machine

/-! ### The only publication of a point -/

theorem pubLane_ofIdx {p : Publication} {l : Lane} (h : p.lane.toNat = l.idx) : pubLane p = some l := by
  rw [pubLane, h]
  cases l <;> rfl

section
variable {s : State} {l : Lane} {k : Strand} {p : Publication}

theorem noteLag_of_not_agreed (x : Lane) {pt : Word} (h : ((s.echo l k).agreed.any fun a => a.point == pt) = false) :
    s.noteLag l k pt x = s := by
  rw [State.noteLag, List.find?_eq_none.2 (List.any_eq_false.1 h)]

theorem checkThird_of_not_agreed {pt : Word} (h : ((s.echo l k).agreed.any fun a => a.point == pt) = false) :
    s.checkThird l k pt = s := by
  simp only [State.checkThird, List.find?_eq_none.2 (List.any_eq_false.1 h)]

/-- One publication makes no pair. -/
theorem claimPair_of_single {pt : Word} {h : HeldPub} (hp : pubsFor (s.echo l k) pt = [h]) : s.claimPair l k pt = s := by
  have hone : firstPair [h] = none := by
    by_cases hb : heldBefore h h = true <;> simp [firstPair, hb]
  simp only [State.claimPair, hp, hone]
  split <;> rfl

theorem tryAgree_of_undecided (n : Nat) (h : decidedPair (s.echo l k) (s.echo l k).nextAgree = none) :
    s.tryAgree n l k = s := by
  cases n with
  | zero => rfl
  | succ n => simp only [State.tryAgree, h, ite_self]

/-- The Echo unit holds one more publication. -/
def State.holdPub (s : State) (l : Lane) (k : Strand) (p : Publication) : State :=
  s.setEcho l k { s.echo l k with pubs := (s.echo l k).pubs ++ [⟨p, s.ns⟩] }

theorem echo_holdPub (s : State) (l : Lane) (k : Strand) (p : Publication) :
    (s.holdPub l k p).echo l k = { s.echo l k with pubs := (s.echo l k).pubs ++ [⟨p, s.ns⟩] } :=
  (echo_setEcho ..).trans (if_pos ⟨rfl, rfl⟩)

/-- A publication that the Echo unit neither holds nor ignores is held and may complete an agreement (R49, R51). -/
theorem acceptPub_eq {x : Lane} (hx : pubLane p = some x) (hh : (s.echo l k).halted = false) (hr : s.retired x = false)
    (hl : ((s.echo l k).late.any fun q => q.1 == p.point && q.2 == x) = false) (hn : pubFrom (s.echo l k) p.point x = none) :
    s.acceptPub l k p = ((((s.holdPub l k p).noteLag l k p.point x).claimPair l k p.point).checkThird l k
      p.point).tryAgree agreeDepth l k := by
  have hc : ((s.echo l k).halted || s.retired x || ((s.echo l k).late.any fun q => q.1 == p.point && q.2 == x) ||
      (pubFrom (s.echo l k) p.point x).isSome) = false := by simp only [hh, hr, hl, hn, Option.isSome_none, Bool.or_self]
  simp only [State.acceptPub, hx]
  exact if_neg (by rw [hc]; decide)

/-- A publication that is the first of its point, while no earlier point can be agreed: the Echo unit holds it. -/
theorem acceptPub_first {x : Lane} (hx : pubLane p = some x) (hh : (s.echo l k).halted = false) (hr : s.retired x = false)
    (hl : ((s.echo l k).late.any fun q => q.1 == p.point && q.2 == x) = false) (hp : pubsFor (s.echo l k) p.point = [])
    (hd : decidedPair (s.echo l k) (s.echo l k).nextAgree = none)
    (ha : ((s.echo l k).agreed.any fun a => a.point == p.point) = false) : s.acceptPub l k p = s.holdPub l k p := by
  have hnone : pubFrom (s.echo l k) p.point x = none := by rw [pubFrom, hp, List.find?_nil]
  have hpubs : pubsFor ((s.holdPub l k p).echo l k) p.point = [⟨p, s.ns⟩] := by
    rw [echo_holdPub, pubsFor, List.filter_append, ← pubsFor, hp]
    simp
  have ha' : (((s.holdPub l k p).echo l k).agreed.any fun a => a.point == p.point) = false := by rw [echo_holdPub]; exact ha
  have hd' : decidedPair ((s.holdPub l k p).echo l k) ((s.holdPub l k p).echo l k).nextAgree = none := by
    rw [echo_holdPub]
    exact hd
  rw [acceptPub_eq hx hh hr hl hnone, noteLag_of_not_agreed _ ha', claimPair_of_single hpubs, checkThird_of_not_agreed ha',
    tryAgree_of_undecided _ hd']

end

/-! ### The event point -/

/-- `LN_POINT` and, at a boundary other than point 0, `LN_EPOCH` at an event point (R45, R76). -/
def State.pointShown (s : State) (l : Lane) (k : Strand) : State :=
  let t := s.setReg64 l.unit (Reg.lnPointLo k) (s.replica l k).nextPoint
  if s.atBoundary l k && (s.replica l k).nextPoint != 0 then
    t.setReg64 l.unit (Reg.lnEpochLo k) (t.reg64 l.unit (Reg.lnEpochLo k) + 1)
  else t

/-- The replica's record once it has published a point, when no stall is arranged. -/
def State.publishedReplica (s : State) (l : Lane) (k : Strand) : Replica :=
  let r := s.replica l k
  let boundary := s.atBoundary l k
  { r with
    phase := .published
    nextPoint := r.nextPoint + 1
    nextCount := r.nextCount + BitVec.ofNat 64 (s.evtStride l k)
    sincePoints := if boundary then 0 else r.sincePoints + 1
    mark := false, idle := false, idleAt := if r.idle then s.ns else r.idleAt, waitSince := s.ns
    sqOpen := if boundary then [] else r.sqOpen
    sqEnding := if boundary then r.sqEnding ++ [(loWord r.nextPoint, r.sqOpen)] else r.sqEnding }

/-- The publication of the point that a replica reaches. -/
def State.pointPub (s : State) (l : Lane) (k : Strand) : Publication :=
  (s.pointShown l k).publicationOf l k (loWord (s.replica l k).nextPoint) (s.atBoundary l k)

/-- The state in which the publication of a point has left to the other lanes. -/
def State.pointSent (s : State) (l : Lane) (k : Strand) : State :=
  (((s.pointShown l k).markPublished l k (loWord (s.replica l k).nextPoint)).setReplica l k (s.publishedReplica l k)).send
    ((s.peers l).map fun x => .publication x l (s.pointPub l k))

theorem replica_setEcho (s : State) (l : Lane) (k : Strand) (e : Echo) (l' : Lane) (k' : Strand) :
    (s.setEcho l k e).replica l' k' = s.replica l' k' := by
  cases l <;> cases l' <;> rfl

section
variable (s : State) (l : Lane) (k : Strand)

theorem pointShown_frame : ∃ rg, s.pointShown l k = { s with regs := rg } := by
  unfold State.pointShown
  dsimp only
  split <;> exact ⟨_, rfl⟩

theorem pairs_of_point (k : Strand) : Reg.lnPointLo k + 4 < Reg.lnEpochLo k ∧ Reg.lnEpochLo k + 4 < Reg.lnTcfg k := by
  cases k <;> decide

theorem reg_pointShown_other {u : RUnit} {off : Nat} (h : u ≠ l.unit ∨ (off ≠ Reg.lnPointLo k ∧ off ≠ Reg.lnPointLo k + 4 ∧
    off ≠ Reg.lnEpochLo k ∧ off ≠ Reg.lnEpochLo k + 4)) : (s.pointShown l k).reg u off = s.reg u off := by
  have hpair : ∀ (t : State) lo v, (u ≠ l.unit ∨ (off ≠ lo ∧ off ≠ lo + 4)) → (t.setReg64 l.unit lo v).reg u off = t.reg u off :=
    fun t lo v hl => by
      by_cases hu : u = l.unit
      · subst hu
        exact reg_setReg64_other _ _ (hl.resolve_left (not_not.2 rfl))
      · exact reg_setReg64_unit _ _ _ _ hu
  have hp := hpair s (Reg.lnPointLo k) (s.replica l k).nextPoint (h.imp_right fun hh => ⟨hh.1, hh.2.1⟩)
  unfold State.pointShown
  dsimp only
  split
  · rw [hpair _ _ _ (h.imp_right fun hh => hh.2.2), hp]
  · exact hp

theorem reg64_pointLo_pointShown : (s.pointShown l k).reg64 l.unit (Reg.lnPointLo k) = (s.replica l k).nextPoint := by
  obtain ⟨h1, _⟩ := pairs_of_point k
  unfold State.pointShown
  dsimp only
  split
  · rw [reg64_congr (reg_setReg64_other _ _ (by omega)) (reg_setReg64_other _ _ (by omega)), reg64_setReg64_same]
  · rw [reg64_setReg64_same]

theorem reg64_epochLo_pointShown : (s.pointShown l k).reg64 l.unit (Reg.lnEpochLo k) = s.reg64 l.unit (Reg.lnEpochLo k) +
    (if s.atBoundary l k = true ∧ (s.replica l k).nextPoint ≠ 0 then 1 else 0) := by
  obtain ⟨h1, _⟩ := pairs_of_point k
  have hp : (s.setReg64 l.unit (Reg.lnPointLo k) (s.replica l k).nextPoint).reg64 l.unit (Reg.lnEpochLo k) =
      s.reg64 l.unit (Reg.lnEpochLo k) :=
    reg64_congr (reg_setReg64_other _ _ (by omega)) (reg_setReg64_other _ _ (by omega))
  unfold State.pointShown
  simp only [Bool.and_eq_true, bne_iff_ne]
  split
  · rw [reg64_setReg64_same, hp]
  · rw [hp]
    exact (BitVec.add_zero _).symm

theorem tcfg_pointShown : (s.pointShown l k).reg l.unit (Reg.lnTcfg k) = s.reg l.unit (Reg.lnTcfg k) := by
  obtain ⟨h1, h2⟩ := pairs_of_point k
  exact reg_pointShown_other s l k (.inr ⟨by omega, by omega, by omega, by omega⟩)

end

/-- Which lanes are retired shows in `RJ_LANE` of each lane alone. -/
theorem retired_congr {s t : State} (h : ∀ x : Lane, t.reg x.unit Reg.rjLane = s.reg x.unit Reg.rjLane) (x : Lane) :
    t.retired x = s.retired x := by rw [State.retired, State.flag, h, State.retired, State.flag]

theorem liveLanes_congr {s t : State} (h : ∀ x, t.retired x = s.retired x) : t.liveLanes = s.liveLanes := by
  simp only [State.liveLanes, h]

theorem peers_congr {s t : State} (h : ∀ x, t.retired x = s.retired x) (l : Lane) : t.peers l = s.peers l := by
  rw [State.peers, liveLanes_congr h, State.peers]

theorem retired_pointShown (s : State) (l : Lane) (k : Strand) (x : Lane) : (s.pointShown l k).retired x = s.retired x :=
  retired_congr (fun y => reg_pointShown_other s l k (.inr (by cases k <;> decide))) x

theorem peers_pointShown (s : State) (l : Lane) (k : Strand) : (s.pointShown l k).peers l = s.peers l :=
  peers_congr (retired_pointShown s l k) l

section
variable {s : State} {l : Lane} {k : Strand}

theorem eventPoint_eq (hp : s.atBoundary l k = false ∨ (s.echo l k).stallAt = none)
    (ha : ((s.echo l k).agreed.any fun a => a.point == loWord (s.replica l k).nextPoint) = false) :
    s.eventPoint l k = (s.pointSent l k).acceptPub l k (s.pointPub l k) := by
  unfold State.eventPoint
  extract_lets r n32 boundary t0 t1 p t2 agreedAlready pause r0 r' t3 t4 t5
  obtain ⟨_, hframe⟩ := pointShown_frame s l k
  have h1 : t1 = s.pointShown l k := rfl
  have hecho : (t2.echo l k).stallAt = (s.echo l k).stallAt ∧ (t2.echo l k).agreed = (s.echo l k).agreed := by
    simp only [t2, h1, State.markPublished, echo_setEcho, and_self, if_true, hframe]
    exact ⟨rfl, rfl⟩
  have hreplica : t2.replica l k = s.replica l k := by
    simp only [t2, h1, State.markPublished, replica_setEcho, hframe]
    rfl
  have hstride : t2.evtStride l k = s.evtStride l k := by
    have hreg : t2.reg l.unit (Reg.lnTcfg k) = s.reg l.unit (Reg.lnTcfg k) := tcfg_pointShown s l k
    rw [State.evtStride, State.fld, hreg, State.evtStride, State.fld]
  have hpause : pause = false := by
    rcases hp with hp | hp
    · simp only [pause, boundary, hp, Bool.false_and]
    · simp only [pause, hecho.1, hp, Bool.and_false]
  have hagreed : agreedAlready = false := by simpa only [agreedAlready, hecho.2] using ha
  have hr : r' = s.publishedReplica l k := by
    simp only [r', r0, hpause, hagreed, hreplica, hstride, Bool.false_eq_true, if_false, Bool.not_false, Bool.and_true]
    rfl
  have hpeers : (t2.setReplica l k (s.publishedReplica l k)).peers l = s.peers l := peers_pointShown s l k
  have h5 : t5 = s.pointSent l k := by
    simp only [t5, hpause, Bool.false_eq_true, if_false, t4, t3, hr, hpeers]
    rfl
  rw [h5]
  rfl

theorem not_halted_of_runs (h : s.runs l k = true) : (s.echo l k).halted = false ∧ s.retired l = false := by
  simp only [State.runs, Bool.and_eq_true, Bool.not_eq_true'] at h
  obtain ⟨⟨_, hhalt⟩, hret⟩ := h
  exact ⟨hhalt, hret⟩

theorem runs_of_atPoint (h : s.atPoint l k = true) : s.runs l k = true := by
  simp only [State.atPoint, Bool.and_eq_true] at h
  obtain ⟨⟨⟨⟨⟨⟨hr, _⟩, _⟩, _⟩, _⟩, _⟩, _⟩ := h
  exact hr

/-- Publications travel on no junction link. -/
theorem send_publications (s : State) (xs : List Lane) (p : Publication) :
    s.send (xs.map fun x => .publication x l p) = { s with wires := s.wires ++ xs.map fun x => .publication x l p } := by
  unfold State.send
  induction xs generalizing s with
  | nil => simp
  | cons x xs ih => rw [List.map_cons, List.foldl_cons, ih]; simp [State.sendOne, Wire.route]

theorem pointSent_eq (s : State) (l : Lane) (k : Strand) : s.pointSent l k =
    { ((s.pointShown l k).markPublished l k (loWord (s.replica l k).nextPoint)).setReplica l k (s.publishedReplica l k) with
      wires := s.wires ++ (s.peers l).map fun x => .publication x l (s.pointPub l k) } := by
  obtain ⟨_, hframe⟩ := pointShown_frame s l k
  rw [State.pointSent, send_publications]
  simp only [hframe]
  rfl

theorem echo_pointSent (s : State) (l : Lane) (k : Strand) : ∃ xs, (s.pointSent l k).echo l k =
    { s.echo l k with latched := xs } := by
  obtain ⟨_, hframe⟩ := pointShown_frame s l k
  refine ⟨(((s.pointShown l k).markPublished l k (loWord (s.replica l k).nextPoint)).echo l k).latched, ?_⟩
  have he : (s.pointSent l k).echo l k =
      ((s.pointShown l k).markPublished l k (loWord (s.replica l k).nextPoint)).echo l k := by
    rw [pointSent_eq]
    exact echo_setReplica ..
  rw [he, State.markPublished, echo_setEcho, if_pos ⟨rfl, rfl⟩, hframe]
  rfl

/-- The Echo unit that has no other publication of the point, and no earlier point to agree, holds its own. -/
theorem eventPoint_eq_holdPub (hat : s.atPoint l k = true) (hp : s.atBoundary l k = false ∨ (s.echo l k).stallAt = none)
    (hpubs : pubsFor (s.echo l k) (loWord (s.replica l k).nextPoint) = [])
    (hd : decidedPair (s.echo l k) (s.echo l k).nextAgree = none)
    (ha : ((s.echo l k).agreed.any fun a => a.point == loWord (s.replica l k).nextPoint) = false)
    (hl : ((s.echo l k).late.any fun q => q.1 == loWord (s.replica l k).nextPoint && q.2 == l) = false) :
    s.eventPoint l k = (s.pointSent l k).holdPub l k (s.pointPub l k) := by
  obtain ⟨hhalt, hret⟩ := not_halted_of_runs (runs_of_atPoint hat)
  obtain ⟨_, he⟩ := echo_pointSent s l k
  have hlane : pubLane (s.pointPub l k) = some l := pubLane_ofIdx (by cases l <;> rfl)
  rw [eventPoint_eq hp ha]
  refine acceptPub_first hlane (by rw [he]; exact hhalt) ?_ (by rw [he]; exact hl) (by rw [he]; exact hpubs)
    (by rw [he]; exact hd) (by rw [he]; exact ha)
  rw [pointSent_eq]
  exact (retired_pointShown s l k l).trans hret

end

/-- Settles O13: the publication leaves to the other lanes and is held at home. -/
theorem eventPointPublishesToEveryLane : Obligations.EventPointPublishesToEveryLane := by
  intro l k s hat
  have hexec : exec (.eventPoint l k) s = .next (s.eventPoint l k) := congrArg Host.Outcome.next (if_pos hat)
  refine ⟨hexec, fun hp hpubs hd ha hl => ?_⟩
  rw [hexec, eventPoint_eq_holdPub hat hp hpubs hd ha hl]
  obtain ⟨rg, hframe⟩ := pointShown_frame s l k
  have hreplica : ((s.pointSent l k).holdPub l k (s.pointPub l k)).replica l k = s.publishedReplica l k := by
    rw [State.holdPub, replica_setEcho, pointSent_eq]
    exact (replica_setReplica ..).trans (if_pos ⟨rfl, rfl⟩)
  have hregs : ((s.pointSent l k).holdPub l k (s.pointPub l k)).regs = (s.pointShown l k).regs := by
    rw [pointSent_eq]
    rfl
  refine ⟨_, s.pointPub l k, rfl, ?_, rfl, rfl, by cases l <;> rfl, rfl, ?_, ?_, ?_, ?_, ?_, ?_, ?_, ?_, ?_, ?_, ?_, ?_, ?_,
    fun u off hu => ?_, ?_, ?_, ?_, ?_⟩
  · rw [State.holdPub, pointSent_eq]
    rfl
  · rw [State.pointPub, hframe]
    rfl
  · have hon : (s.pointShown l k).digestOn l k = s.flag l.unit (Reg.lnTcfg k) 31 := by
      rw [State.digestOn, State.flag, tcfg_pointShown, State.flag]
    simp only [State.pointPub, State.publicationOf, hon, Bool.and_eq_true]
    rw [hframe]
    rfl
  · rw [State.pointPub, hframe]
    rfl
  · exact List.length_take_le _ _
  · rw [State.reg64, reg_of_regs hregs, reg_of_regs hregs]
    exact reg64_pointLo_pointShown s l k
  · rw [hreplica]
    rfl
  · rw [hreplica]
    rfl
  · rw [hreplica]
    rfl
  · rw [hreplica]
    rfl
  · rw [hreplica]
    rfl
  · rw [hreplica]
    rfl
  · rw [hreplica]
    rfl
  · rw [State.reg64, reg_of_regs hregs, reg_of_regs hregs]
    exact reg64_epochLo_pointShown s l k
  · rw [reg_of_regs hregs]
    exact reg_pointShown_other s l k hu
  · rw [← eventPoint_eq_holdPub hat hp hpubs hd ha hl, State.eventPoint_base]
  · rw [State.holdPub, pointSent_eq, hframe]
    rfl
  · rw [State.holdPub, pointSent_eq, hframe]
    rfl
  · rw [State.holdPub, pointSent_eq, hframe]
    rfl

end Sys2Proof.Machine
end

-- ==== Proofs: strand page stores ====
section
/-! Stores to the strand page that are commands of their own (R69, R72, R181, R182): what each writes, as an instruction of the
replica. -/

namespace Sys2Proof.Machine

section
variable {s : State} {l : Lane} {k : Strand}

/-- The register at an offset of the strand page, the same in every lane and strand. -/
theorem regAt_page (l : Lane) (k : Strand) {off : Nat} {d : RegDesc} {is : List Nat} (ho : off < 0x10000)
    (hd : findDesc .strandPage off regTable = some (d, is)) : regAt l.unit (pageKey k off) = some (d, is) := by
  have hs : spaceOf l.unit (pageKey k off) = (.strandPage, off) := by
    have h1 : k.idx * 0x10000 + off < 0x40000 := by have := idx_lt_four k; omega
    have h2 : (k.idx * 0x10000 + off) % 0x10000 = off := by omega
    cases l <;> simp [spaceOf, Lane.unit, pageKey, h1, h2]
  simp only [regAt, hs, hd]

/-- What a word written to a register of the strand page does. -/
def State.pageEffect (s : State) (l : Lane) (k : Strand) (off : Nat) (d : RegDesc) (v : Word) : State :=
  match d.id with
  | .lnSqSend => s.sqSend l k v
  | .lnSqRxpop => s.sqPop l k v
  | .lnEvSwset => s.swEvent l k v
  | _ => s.plainWrite l.unit (pageKey k off) d 0xFFFFFFFF v false

/-- A word store to a register of the strand page that sets no reserved bit and meets no read-only field. -/
theorem pageInstr_eq (hc : s.canExecute l k = true) {off : Nat} {v : Word} {d : RegDesc} {is : List Nat}
    (ha : s.allowed l k (0x200000000 + pageKey k off) 4 .write = true) (ho : off < 0x10000) (h4 : off % 4 = 0)
    (hd : findDesc .strandPage off regTable = some (d, is)) (hr : v &&& reservedBits d is = 0)
    (hro : accMask d.fields [.ro, .rc] = 0) :
    s.pageInstr l k off v = State.retirePageStore (s.pageEffect l k off d v) l k off v := by
  have hlen : (leBytes 4 v.toNat).length = 4 := rfl
  have hreg : regAt l.unit (pageKey k off) = some (d, is) := regAt_page l k ho hd
  have hwords : wordsOf off 4 (BitVec.ofNat 64 (leNat (leBytes 4 v.toNat))) = [(off, 0xFFFFFFFF, v)] := by
    rw [← wordsOf_word off h4 v]
    congr 1
    apply BitVec.eq_of_toNat_eq
    have := v.isLt
    simp only [leNat, leBytes, BitVec.toNat_ofNat, BitVec.toNat_setWidth]
    omega
  have hall : v &&& (0xFFFFFFFF : Word) = v := BitVec.and_allOnes
  have hrs : (v &&& (0xFFFFFFFF : Word) &&& reservedBits d is != 0) = false := by rw [hall, hr]; rfl
  have hpage : s.pageStore l k off (leBytes 4 v.toNat) = s.pageWrite l k off 0xFFFFFFFF v false := by
    simp only [State.pageStore, hlen, hwords, List.find?_cons, pageRsvd, hreg, hrs, List.find?_nil, List.foldl_cons, List.foldl_nil]
    simp
  have hdif : ∀ old, differsRo d old 0xFFFFFFFF v = false := fun old => by
    simp only [differsRo, hro]; simp
  have hwrite : s.pageWrite l k off 0xFFFFFFFF v false = s.pageEffect l k off d v := by
    simp only [State.pageWrite, hreg, hall, hr, hdif, bne_self_eq_false, Bool.false_eq_true, if_false, State.pageEffect] <;> rfl
  have hregion : regionOf (0x200000000 + pageKey k off) = .page k off := by
    rw [pageKey, ← Nat.add_assoc]; exact regionOf_page k ho
  rw [State.pageInstr, if_pos hc, State.doStore, hlen, ha, hregion]
  simp only [Bool.not_true, Bool.false_eq_true, if_false, hpage, hwrite]
  rfl
end

/-- A value whose bits above 7 are clear is its low byte. -/
theorem fieldOf_low_byte {v : Word} (h : v &&& 0xFFFFFF00 = 0) : fieldOf v 7 0 = v.toNat := by
  have hlt : v.toNat < 2 ^ 8 := Nat.lt_pow_two_of_testBit _ fun i hi => by
    by_cases h32 : i < 32
    · have hb := congrArg (fun x => x.getLsbD i) h
      have hm : (0xFFFFFF00 : Word).getLsbD i = true := by interval_cases i <;> rfl
      rw [BitVec.getLsbD_and, hm, Bool.and_true] at hb
      exact hb.trans BitVec.getLsbD_zero
    · exact Nat.testBit_lt_two_pow (Nat.lt_of_lt_of_le v.isLt (Nat.pow_le_pow_right (by decide) (Nat.le_of_not_lt h32)))
  rw [fieldOf, Nat.shiftRight_zero, Nat.mod_eq_of_lt hlt]

/-- What a word written to a register of write-one-to-clear bits leaves set. -/
theorem storeWord_w1c {d : RegDesc} (h : d.fields = [⟨31, 0, .w1c⟩]) (old w : Word) :
    storeWord d old 0xFFFFFFFF w = old &&& ~~~w := by
  have h1 : accMask d.fields [.rw, .stg] = 0 := by rw [h]; rfl
  have h2 : accMask d.fields [.w1c] = 0xFFFFFFFF := by rw [h]; rfl
  have h3 : accMask d.fields [.w1s] = 0 := by rw [h]; rfl
  have h4 : 4294967295#32 &&& w = w := BitVec.allOnes_and
  have h5 : old &&& 4294967295#32 = old := BitVec.and_allOnes
  simp [storeWord, h1, h2, h3, h4, h5]

/-- The register of the pending bits (R182). -/
def lnEvPendDesc : RegDesc := ⟨.lnEvPend, .strandPage, 0x400, [(8, 4)], [⟨31, 0, .w1c⟩], .strandPage⟩

theorem findDesc_lnEvPend {n : Nat} (hn : n < 8) :
    findDesc .strandPage (0x400 + 4 * n) regTable = some (lnEvPendDesc, [n]) := by
  interval_cases n <;> rfl

/-- Settles O20: the two registers are written by the store's effect on the page. -/
theorem softwareVectorsAndPendingBits : Obligations.SoftwareVectorsAndPendingBits := by
  intro l k v s hc
  refine ⟨fun ha hr => ⟨fun hv => ?_, fun hv => ?_⟩, fun n hn ha => ?_⟩
  · show Host.Outcome.next _ = _
    rw [pageInstr_eq hc ha (by decide) (by decide) (d := _) rfl hr rfl]
    simp only [State.pageEffect, State.swEvent, fieldOf_low_byte hr, if_pos hv]
  · show Host.Outcome.next _ = _
    rw [pageInstr_eq hc ha (by decide) (by decide) (d := _) rfl hr rfl]
    simp only [State.pageEffect, State.swEvent, fieldOf_low_byte hr, if_neg (Nat.not_le.2 hv)]
    cases l <;> rfl
  · have ho : 0x400 + 4 * n < 0x10000 ∧ (0x400 + 4 * n) % 4 = 0 := by omega
    have hw := storeWord_w1c (d := lnEvPendDesc) rfl (s.reg l.unit (Reg.lnEvPend k n)) v
    have hz : reservedBits lnEvPendDesc [n] = 0#32 := by simp only [reservedBits, lnEvPendDesc]; decide
    have hkey : pageKey k (0x400 + 4 * n) = Reg.lnEvPend k n := by
      simp only [pageKey, Reg.lnEvPend]; omega
    show Host.Outcome.next (if n < 8 then _ else s) = _
    rw [if_pos hn, pageInstr_eq hc ha ho.1 ho.2 (findDesc_lnEvPend hn) (hz ▸ BitVec.and_zero) rfl]
    simp only [State.pageEffect, State.plainWrite, lnEvPendDesc, isPairLo, isPairHi, hkey] at hw ⊢
    rw [← hw]
    rfl

/-! ### Strand queues -/

theorem lanes_showCredits (s : State) (l : Lane) (k : Strand) : (s.showCredits l k).lanes = s.lanes := by
  simp [State.showCredits, Strand.list, State.setFld]

theorem lanes_showVisible (s : State) (l : Lane) (k : Strand) : (s.showVisible l k).lanes = s.lanes := by
  simp [State.showVisible, Strand.list, State.setFld]

theorem replica_of_lanes {s t : State} (h : t.lanes = s.lanes) (l : Lane) (k : Strand) : t.replica l k = s.replica l k := by
  simp only [State.replica, State.lane, h]

theorem echo_of_lanes {s t : State} (h : t.lanes = s.lanes) (l : Lane) (k : Strand) : t.echo l k = s.echo l k := by
  simp only [State.echo, State.lane, h]

/-- One message more in flight is one credit less, where a credit is left (R74). -/
theorem creditsFor_sent (e : Echo) (d : Strand) (q : Quad Half) (h : 0 < creditsFor e d) :
    creditsFor { e with sent := e.sent.set d (e.sent.get d + 1), sendSeq := q } d + 1 = creditsFor e d := by
  simp only [creditsFor, Quad.get_set, if_true] at h ⊢
  have : (e.sent.get d + 1 - e.credPop.get d).toNat = (e.sent.get d - e.credPop.get d).toNat + 1 := by bv_omega
  omega

/-- A message has joined the open epoch of a replica and used its credit; `LN_SQ_CRED` does not show it yet. -/
def State.sentMsg (s : State) (l : Lane) (k dst : Strand) (len : Nat) : State :=
  let e := s.echo l k
  let t := s.setEcho l k { e with
    sent := e.sent.set dst (e.sent.get dst + 1), sendSeq := e.sendSeq.set dst (e.sendSeq.get dst + 1) }
  t.setReplica l k { t.replica l k with
    sqOpen := (t.replica l k).sqOpen ++ [(dst, ⟨e.sendSeq.get dst, s.txWords l k len, e.sent.get dst + 1⟩)] }

theorem replica_sentMsg (s : State) (l : Lane) (k dst : Strand) (len : Nat) : (s.sentMsg l k dst len).replica l k =
    { s.replica l k with sqOpen := (s.replica l k).sqOpen ++
      [(dst, ⟨(s.echo l k).sendSeq.get dst, s.txWords l k len, (s.echo l k).sent.get dst + 1⟩)] } := by
  rw [State.sentMsg, replica_setReplica, if_pos ⟨rfl, rfl⟩]
  simp only [replica_setEcho]

theorem echo_sentMsg (s : State) (l : Lane) (k dst : Strand) (len : Nat) : (s.sentMsg l k dst len).echo l k =
    { s.echo l k with
      sent := (s.echo l k).sent.set dst ((s.echo l k).sent.get dst + 1)
      sendSeq := (s.echo l k).sendSeq.set dst ((s.echo l k).sendSeq.get dst + 1) } := by
  rw [State.sentMsg, echo_setReplica, echo_setEcho, if_pos ⟨rfl, rfl⟩]

theorem not_badSend {len : Nat} {dst k : Strand} (h1 : 1 ≤ len) (h16 : len ≤ 16) (hd : dst ≠ k) :
    ¬(len = 0 ∨ 16 < len ∨ dst = k) := by
  rintro (h | h | h)
  · omega
  · omega
  · exact hd h

/-- Settles O19: the commands are page stores whose effect is `State.sqSend` and `State.sqPop`. -/
theorem strandQueueSendsAndPops : Obligations.StrandQueueSendsAndPops := by
  intro l k v s hc
  refine ⟨fun ha hr => ⟨?_, fun hbad => if_pos hbad, fun h1 h16 hd hno => ?_, fun h1 h16 hd hcr => ?_⟩,
    fun ha hr => ⟨?_, fun j m hj hv => ?_, fun hno => ?_⟩⟩
  · show Host.Outcome.next _ = _
    rw [pageInstr_eq hc ha (by decide) (by decide) (d := _) rfl hr rfl]
    rfl
  · rw [State.sqSend, if_neg (not_badSend h1 h16 hd), if_pos hno]
  · have hsent : s.sqSend l k v = (s.sentMsg l k (Strand.ofIdx (fieldOf v 1 0)) (fieldOf v 8 4)).showCredits l k := by
      rw [State.sqSend, if_neg (not_badSend h1 h16 hd), if_neg (Nat.pos_iff_ne_zero.1 hcr)]; rfl
    have hl := lanes_showCredits (s.sentMsg l k (Strand.ofIdx (fieldOf v 1 0)) (fieldOf v 8 4)) l k
    rw [hsent, replica_of_lanes hl, echo_of_lanes hl, replica_sentMsg, echo_sentMsg]
    exact ⟨rfl, by simp [Quad.get_set], creditsFor_sent _ _ _ hcr, by simp [State.txWords], by simp [State.sentMsg]⟩
  · show Host.Outcome.next _ = _
    rw [pageInstr_eq hc ha (by decide) (by decide) (d := _) rfl hr rfl]
    rfl
  · simp only [State.sqPop, hj, hv, if_true]
    rw [echo_of_lanes (lanes_showVisible ..), echo_setEcho, if_pos ⟨rfl, rfl⟩]
    simp [Quad.get_set]
  · rcases hh : s.rxHead l k with _ | ⟨j, m⟩
    · simp only [State.sqPop, hh]
    · simp only [State.sqPop, hh, (hno.resolve_left (by simp [hh])), Bool.false_eq_true, if_false]

end Sys2Proof.Machine
end

-- ==== Proofs: what only shows in registers ====
section
/-! Operations that only show in the registers what the state holds, and messages that leave a link: each changes one part of the
state. -/

namespace Sys2Proof.Machine

/-- The registers apart, nothing has changed. -/
def RegsOnly (s t : State) : Prop := ∃ rg, t = { s with regs := rg }

section
variable {s t u : State}

theorem RegsOnly.refl (s : State) : RegsOnly s s := ⟨s.regs, rfl⟩

theorem RegsOnly.trans (h : RegsOnly s t) (g : RegsOnly t u) : RegsOnly s u := by
  obtain ⟨_, rfl⟩ := h
  obtain ⟨_, rfl⟩ := g
  exact ⟨_, rfl⟩

theorem regsOnly_setReg (s : State) (x : RUnit) (off : Nat) (v : Word) : RegsOnly s (s.setReg x off v) := ⟨_, rfl⟩

theorem regsOnly_setFld (s : State) (x : RUnit) (off hi lo v : Nat) : RegsOnly s (s.setFld x off hi lo v) := ⟨_, rfl⟩

theorem regsOnly_setFlag (s : State) (x : RUnit) (off i : Nat) (b : Bool) : RegsOnly s (s.setFlag x off i b) := ⟨_, rfl⟩

theorem regsOnly_raiseMax (s : State) (x : RUnit) (off hi lo v : Nat) : RegsOnly s (s.raiseMax x off hi lo v) := ⟨_, rfl⟩

theorem regsOnly_foldl {α : Type} {f : State → α → State} (hf : ∀ t x, RegsOnly t (f t x)) (xs : List α) (s : State) :
    RegsOnly s (xs.foldl f s) := by
  induction xs generalizing s with
  | nil => exact .refl s
  | cons x xs ih => exact (hf s x).trans (ih _)

theorem regsOnly_showSump (s : State) (d : Die) (k : Strand) : RegsOnly s (s.showSump d k) :=
  ((regsOnly_foldl (fun _ _ => ⟨_, rfl⟩) _ s).trans (regsOnly_setFld ..)).trans (regsOnly_raiseMax ..)

theorem RegsOnly.lanes (h : RegsOnly s t) : t.lanes = s.lanes := by obtain ⟨_, rfl⟩ := h; rfl
theorem RegsOnly.voter (h : RegsOnly s t) (d : Die) (k : Strand) : t.voter d k = s.voter d k := by obtain ⟨_, rfl⟩ := h; rfl

end

/-! ### Virtual channels -/

theorem vQueues_get_set (q : VQueues) (c e : VChannel) (ws : List Wire) : (q.set c ws).get e = if e = c then ws else q.get e := by
  cases c <;> cases e <;> rfl

theorem vcQueue_setVcQueue_same (s : State) (l : Lane) (d : Die) (down : Bool) (c : VChannel) (ws : List Wire) :
    (s.setVcQueue l d down c ws).vcQueue l d down c = ws := by
  cases down <;> simp [State.vcQueue, State.setVcQueue, jlink_setJLink, vQueues_get_set]

/-- A message joins the channel of its route. -/
theorem vcQueue_sendOne_route {w : Wire} {l : Lane} {d : Die} {down : Bool} {c : VChannel} (s : State)
    (h : w.route = some (l, d, down, c)) : (s.sendOne w).vcQueue l d down c = s.vcQueue l d down c ++ [w] := by
  simp only [State.sendOne, h, vcQueue_setVcQueue_same]

theorem vcQueue_countLanded (s : State) (l : Lane) (d : Die) (down : Bool) (c : VChannel) :
    (s.countLanded l d down c).vcQueue l d down c = s.vcQueue l d down c := by
  rw [State.countLanded]
  split <;> simp [State.vcQueue, jlink_setJLink]

/-- An arriving message leaves the channel of its route. -/
theorem vcQueue_arrive_route {w : Wire} {l : Lane} {d : Die} {down : Bool} {c : VChannel} (s : State)
    (h : w.route = some (l, d, down, c)) : (s.arrive w).vcQueue l d down c = eraseFirst w (s.vcQueue l d down c) := by
  simp only [State.arrive, h, vcQueue_setVcQueue_same]

/-- A message of a junction link touches the junction links alone. -/
theorem sendOne_route {w : Wire} {r : Lane × Die × Bool × VChannel} (s : State) (h : w.route = some r) :
    ∃ ls, s.sendOne w = { s with links := ls } := by
  obtain ⟨l, d, down, c⟩ := r
  simp only [State.sendOne, h]
  exact ⟨_, rfl⟩

theorem arrive_route {w : Wire} {r : Lane × Die × Bool × VChannel} (s : State) (h : w.route = some r) :
    ∃ ls, s.arrive w = { s with links := ls } := by
  obtain ⟨l, d, down, c⟩ := r
  simp only [State.arrive, h, State.countLanded]
  split <;> exact ⟨_, rfl⟩

end Sys2Proof.Machine
end

-- ==== Proofs: voters ====
section
/-! The egress voters (R89 to R100, R121, R122): beats leave their lane, are held and decided, are released once, time out; and the
challenges of the test path. -/

namespace Sys2Proof.Machine

/-- The first beat of a replica has left the waiting beats, and its part of a load has been sent. -/
def State.beatTaken (s : State) (l : Lane) (k : Strand) (d : Die) (b : Beat) (rest : List (Die × Beat)) : State :=
  s.setReplica l k { s.replica l k with out := rest, load := (s.replica l k).load.map (partSent d b s.ns) }

/-- Settles O21: a beat leaves exactly while `State.mayLeave` holds, and only its replica and its channel change. -/
theorem beatsLeaveInOrderWhileTheSumpHasRoom : Obligations.BeatsLeaveInOrderWhileTheSumpHasRoom := by
  intro l k s d b rest hout
  refine ⟨?_, fun hm => ?_, fun hm => ?_⟩
  · rw [State.mayLeave]
    simp only [Bool.and_eq_true, decide_eq_true_eq, Bool.or_eq_true, and_assoc]
    cases b.isRead <;> simp [sumpSize, linkTags]
  · have hr : (Wire.beat d l b).route = some (l, d, false, if b.isRead then .request else .posted) := rfl
    have hrun : exec (.beatSend l k) s = .next ((s.beatTaken l k d b rest).sendOne (.beat d l b)) := by
      show execBeatSend l k s = _
      simp only [execBeatSend, hout, hm, if_true]
      rfl
    obtain ⟨ls, hs⟩ := sendOne_route (s.beatTaken l k d b rest) hr
    refine ⟨_, hrun, ?_, vcQueue_sendOne_route _ hr, ?_⟩
    · rw [hs]
      show ((s.beatTaken l k d b rest).replica l k).out = rest
      rw [State.beatTaken, replica_setReplica, if_pos ⟨rfl, rfl⟩]
    · rw [hs]
      exact ⟨rfl, rfl, rfl, State.setReplica_base s l k _, fun l' k' h => replica_setReplica_other _ _ h⟩
  · show execBeatSend l k s = _
    simp only [execBeatSend, hout, hm, Bool.false_eq_true, if_false]

/-! ### Beats arrive -/

theorem ordOf_putOrd (v : Voter) (o : OrdRec) : ordOf (putOrd v o) o.ordinal = some o := by
  rw [putOrd]
  split
  case isTrue h =>
    obtain ⟨x, hx, ho⟩ := List.any_eq_true.1 h
    have hm : ∀ ys : List OrdRec, (ys.any fun x => x.ordinal == o.ordinal) = true →
        ((ys.map fun x => if x.ordinal == o.ordinal then o else x).find? fun x => x.ordinal == o.ordinal) = some o := by
      intro ys hy
      induction ys with
      | nil => cases hy
      | cons y ys ih =>
        by_cases he : y.ordinal = o.ordinal
        · simp [he]
        · have hys : (ys.any fun x => x.ordinal == o.ordinal) = true := by simpa [he] using hy
          simpa [he] using ih hys
    exact hm _ h
  case isFalse h =>
    have hn : (v.ords.find? fun x => x.ordinal == o.ordinal) = none := by simpa using h
    simp [ordOf, List.find?_append, hn]

@[simp] theorem putOrd_next (v : Voter) (o : OrdRec) : (putOrd v o).next = v.next := by
  rw [putOrd]; split <;> rfl

@[simp] theorem voter_setVoter_same (s : State) (d : Die) (k : Strand) (v : Voter) : (s.setVoter d k v).voter d k = v := by
  simp [State.voter, State.setVoter, Four.get_set, Quad.get_set]

/-- The voter with the first beat of an ordinal. -/
def State.firstHeld (s : State) (d : Die) (l : Lane) (b : Beat) : State :=
  (s.setVoter d b.strand (putOrd (s.voter d b.strand) ⟨b.ordinal, [(l, b)], none, none⟩)).showSump d b.strand

/-- The first beat of an ordinal is held and decides nothing. -/
theorem holdBeat_first {s : State} {d : Die} {l : Lane} {b : Beat} (ecc : BeatEcc)
    (hn : ordOf (s.voter d b.strand) b.ordinal = none) (hs : serialLt b.ordinal (s.voter d b.strand).next = false) :
    s.holdBeat d l b ecc = s.firstHeld d l b := by
  have hput : s.putBeat d l b = s.firstHeld d l b := by
    simp [State.putBeat, hn, hs, State.firstHeld]
  have hord : ordOf ((s.firstHeld d l b).voter d b.strand) b.ordinal = some ⟨b.ordinal, [(l, b)], none, none⟩ := by
    rw [State.firstHeld, (regsOnly_showSump ..).voter, voter_setVoter_same]
    exact ordOf_putOrd _ ⟨b.ordinal, [(l, b)], none, none⟩
  have hwait : (s.firstHeld d l b).verdictAt d b.strand ⟨b.ordinal, [(l, b)], none, none⟩ = .wait := by
    simp only [State.verdictAt, List.filter_cons, List.filter_nil]
    split <;> rfl
  simp [State.holdBeat, hn, hs, hput, State.decideBeat, hord, State.decideOrd, hwait]

theorem exec_beatArrive (d : Die) (l : Lane) (b : Beat) (e : BeatEcc) {s : State} (hm : s.mayArrive (.beat d l b) = true) :
    exec (.beatArrive d l b e) s = .next ((s.arrive (.beat d l b)).beatAt d l b e) :=
  congrArg Host.Outcome.next (if_pos hm)

theorem exec_beatArrive_kept (d : Die) (l : Lane) (b : Beat) (e : BeatEcc) {s : State} (hm : s.mayArrive (.beat d l b) = false) :
    exec (.beatArrive d l b e) s = .next s :=
  congrArg Host.Outcome.next (if_neg (by simp [hm]))

/-- A beat that a live voter expects is acted on and held. -/
theorem beatAt_live {d : Die} {l : Lane} {b : Beat} (e : BeatEcc) {s : State} (hl : s.voterLive d b.strand = true)
    (hx : (s.expects d b.strand b.ordinal).contains l = true) :
    s.beatAt d l b e = (s.atArrival d l b).beatHeld d l b e := by
  simp only [State.voterLive, Bool.and_eq_true, Bool.not_eq_true'] at hl
  obtain ⟨⟨⟨hfit, hrun⟩, hfence⟩, hhalt⟩ := hl
  have hmem := List.contains_iff_mem.1 hx
  simp [State.beatAt, hfit, hrun, hfence, hhalt, hmem]

theorem exec_beatArrive_live {d : Die} {l : Lane} {b : Beat} (e : BeatEcc) {s : State} (hl : s.voterLive d b.strand = true)
    (hx : (s.expects d b.strand b.ordinal).contains l = true) (hm : s.mayArrive (.beat d l b) = true) :
    exec (.beatArrive d l b e) s = .next (((s.arrive (.beat d l b)).atArrival d l b).beatHeld d l b e) := by
  obtain ⟨ls, hs⟩ := arrive_route s (w := .beat d l b) rfl
  rw [exec_beatArrive d l b e hm, beatAt_live e (by rw [hs]; exact hl) (by rw [hs]; exact hx)]

/-- A die that is stopped loses a write, which it counts. -/
theorem count_loseBeat (s : State) (d : Die) (l : Lane) {b : Beat} (hw : b.isRead = false) :
    ((((s.loseBeat d l b).consumer d).lost.get b.strand).get l).count = (((s.consumer d).lost.get b.strand).get l).count + 1 := by
  simp [State.loseBeat, hw, consumer_setConsumer, Quad.get_set, Tri.get_set]

/-- Settles O23: `State.beatAt` is taken apart by what the die is and by what the voter expects. -/
theorem arrivingBeatsAreHeldDecidedOrLost : Obligations.ArrivingBeatsAreHeldDecidedOrLost := by
  refine ⟨fun d l b s hl hx => ⟨fun hm e => exec_beatArrive_kept d l b e hm, fun hm => ⟨?_, ?_, ?_, fun hrd hn hs => ?_⟩⟩,
    fun d l b e s hfit hm => ?_⟩
  · exact exec_beatArrive_live .ok hl hx hm
  · rw [exec_beatArrive_live _ hl hx hm, State.beatHeld, if_pos rfl]
  · rw [exec_beatArrive_live _ hl hx hm, State.beatHeld, if_pos (.inl rfl)]
    rfl
  · obtain ⟨ls, hs'⟩ := arrive_route s (w := .beat d l b) rfl
    have hat : (s.arrive (.beat d l b)).atArrival d l b = s.arrive (.beat d l b) := if_pos hrd
    have hq := vcQueue_arrive_route s (w := .beat d l b) rfl
    have hrun : exec (.beatArrive d l b .ok) s = .next ((s.arrive (.beat d l b)).firstHeld d l b) := by
      rw [exec_beatArrive_live _ hl hx hm, hat]
      exact congrArg Host.Outcome.next (holdBeat_first .ok (by rw [hs']; exact hn) (by rw [hs']; exact hs))
    obtain ⟨rg, hshow⟩ := regsOnly_showSump ((s.arrive (.beat d l b)).setVoter d b.strand
      (putOrd ((s.arrive (.beat d l b)).voter d b.strand) ⟨b.ordinal, [(l, b)], none, none⟩)) d b.strand
    have hv : ((s.arrive (.beat d l b)).firstHeld d l b).voter d b.strand =
        putOrd (s.voter d b.strand) ⟨b.ordinal, [(l, b)], none, none⟩ := by
      rw [State.firstHeld, (regsOnly_showSump ..).voter, voter_setVoter_same, hs']
      rfl
    refine ⟨_, hrun, ?_, ?_, ?_⟩
    · rw [hv]
      exact ordOf_putOrd _ ⟨b.ordinal, [(l, b)], none, none⟩
    · rw [hv, putOrd_next]
    · rw [hrd] at hq
      rw [State.firstHeld, hshow]
      refine ⟨?_, ?_, ?_, ?_, hq⟩
      all_goals rw [hs']; rfl
  · obtain ⟨ls, hs⟩ := arrive_route s (w := .beat d l b) rfl
    have hfit' : (s.arrive (.beat d l b)).dieFitted d = true := by rw [hs]; exact hfit
    have hcons : (s.arrive (.beat d l b)).consumer d = s.consumer d := by rw [hs]; rfl
    refine ⟨fun hrun hrd => ?_, fun hrun hw => ⟨_, ?_, (count_loseBeat _ d l hw).trans (by rw [hcons]), ?_⟩,
      fun hrun hfence hno => ?_⟩
    · rw [exec_beatArrive d l b e hm]
      simp [State.beatAt, hfit', hcons, hrun, State.loseBeat, hrd]
    · rw [exec_beatArrive d l b e hm]
      simp [State.beatAt, hfit', hcons, hrun]
    · rw [State.loseBeat, if_neg (by simp [hw]), hs]
      exact ⟨rfl, rfl, rfl⟩
    · have hf' : (s.arrive (.beat d l b)).flag d.unit Reg.vtFence 0 = false := by rw [hs]; exact hfence
      have hno' : ((s.arrive (.beat d l b)).voterHalted d b.strand ||
          !((s.arrive (.beat d l b)).expects d b.strand b.ordinal).contains l) = true := by
        rw [hs, Bool.or_eq_true, Bool.not_eq_true']
        exact hno
      rw [exec_beatArrive d l b e hm, State.beatAt, hfit', hcons, hrun, hf', hno']
      rfl

/-! ### Release -/

/-- A result leaves for its lane over a working link, and arrives there first when nothing is ahead of it. -/
theorem takeResults_of_result {s : State} {l : Lane} {d : Die} {k : Strand} {n : Word} {v : Dword}
    (hj : (s.lane l).junction.get d = true) (hq : s.vcQueue l d true .response = [.result l d k n v]) :
    s.takeResults l d = (s.arrive (.result l d k n v)).deliverRead l k d n v := by
  rw [State.takeResults, if_pos hj, hq]
  rfl

theorem vcQueue_sendResult {s : State} {l : Lane} {d : Die} (k : Strand) (n : Word) (v : Dword)
    (hj : (s.lane l).junction.get d = true) :
    (s.sendResult d k n v l).vcQueue l d true .response = s.vcQueue l d true .response ++ [.result l d k n v] := by
  rw [State.sendResult, if_pos hj]
  exact vcQueue_sendOne_route s (w := .result l d k n v) rfl

/-- Settles O24: the two commands are taken apart by what the next ordinal holds. -/
theorem nextOrdinalIsReleasedOnce : Obligations.NextOrdinalIsReleasedOnce := by
  intro d k s o b hl
  refine ⟨fun hb hw => ⟨fun hon => ?_, fun hoff => ?_, fun x hx => ?_⟩, ?_, fun hb hrd hon => ⟨fun hthird => ?_, fun hthird hfull => ?_⟩,
    fun l n v => ⟨fun hj => if_neg (by simp [hj]), fun hj => ⟨vcQueue_sendResult k n v hj, takeResults_of_result hj⟩⟩,
    fun hno => ?_, fun hno => ?_⟩
  · show execBeatRelease d k .ok s = _
    have hon' : (s.settleOrd d k o b).islandOff d b.addr = false := hon
    simp [execBeatRelease, hb, hl, hw, releaseUe, State.releaseCe, hon']
  · show execBeatRelease d k .ok s = _
    have hoff' : (s.settleOrd d k o b).islandOff d b.addr = true := hoff
    simp [execBeatRelease, hb, hl, hw, releaseUe, State.releaseCe, hoff']
  · show execBeatRelease d k (.sumpUe x) s = _
    simp only [execBeatRelease, hb, hl, hw, releaseUe, hx, Bool.not_false, Bool.and_self, if_true]
  · rw [State.settleOrd, voter_setVoter_same, putOrd_next]
  · show execReadOncePerform d k .ok s = _
    have hc : (!((s.expects d k o.ordinal).any fun l => !o.beats.any fun x => x.1 == l) ||
        decide ((s.voter d k).kept.length < robSize)) = true := by
      rcases hthird with h | h
      · rw [Bool.or_eq_true, Bool.not_eq_true']; exact .inl h
      · simp [h]
    simp only [execReadOncePerform, hb, hl, hrd, hc, Bool.and_self, if_true, releaseUe, State.releaseCe, hon, Bool.false_eq_true,
      if_false]
  · show execReadOncePerform d k .ok s = _
    have hc : (!((s.expects d k o.ordinal).any fun l => !o.beats.any fun x => x.1 == l) ||
        decide ((s.voter d k).kept.length < robSize)) = false := by
      rw [Bool.or_eq_false_iff, Bool.not_eq_false']; exact ⟨hthird, decide_eq_false (Nat.not_lt.2 hfull)⟩
    simp only [execReadOncePerform, hb, hc, Bool.and_false, Bool.false_eq_true, if_false]
  · show execBeatRelease d k .ok s = _
    simp only [execBeatRelease, Option.isNone_iff_eq_none.1 hno]
  · show execReadOncePerform d k .ok s = _
    simp only [execReadOncePerform, Option.isNone_iff_eq_none.1 hno]

/-! ### Timeouts -/

/-- A core that finishes its load retires one instruction. -/
theorem reg64_finishLoad (s : State) (l : Lane) (k : Strand) (bs : List Byte) :
    (s.finishLoad l k bs).reg64 l.unit (Reg.lnIcountLo k) = s.reg64 l.unit (Reg.lnIcountLo k) + 1 := by
  rw [State.finishLoad, State.retire, reg64_setReg64_same]
  rfl

theorem replica_finishLoad (s : State) (l : Lane) (k : Strand) (bs : List Byte) :
    (s.finishLoad l k bs).replica l k = { s.replica l k with load := none, last := bs } := by
  rw [State.finishLoad, replica_retire, replica_setReplica, if_pos ⟨rfl, rfl⟩]

/-- Below the limit of its source, an event becomes the newest entry of the log (R391). -/
theorem logEv_entry {s : State} {src : Nat} (hm : s.consumers.m.running = true) (hf : s.floodCount src < 64)
    (k : Option Strand) (code : LogCode) (arg : List Nat) :
    ((s.logEv src k code arg).log.entries.head?.map fun e => (e.code, e.src, e.strand, e.arg)) = some (code, src, k, arg) := by
  have hlog : s.logEv src k code arg = (s.setFlood src (s.floodCount src + 1)).appendLog code src k arg := by
    simp only [State.logEv, hm, hf, Bool.true_eq_false, if_false, if_true]
  rw [hlog, State.appendLog]
  simp only [logRing, List.take_succ_cons, List.head?_cons, Option.map_some]

/-- Settles O25: the late beat is the voter's own command; the load ends as with a result, with the timeout pattern. -/
theorem lateBeatsAndReadsTimeOut : Obligations.LateBeatsAndReadsTimeOut := by
  refine ⟨fun d k n s o x ho hl hsk hlen hx => ?_, fun l k s p q hp hq hg ht hmode hout => ?_⟩
  · show execVoterSkewTimeout d k n s = _
    simp [execVoterSkewTimeout, ho, hx, hl, hsk, hlen]
  · have hrun : exec (.rdTimeout l k) s = .next ((s.logEv l.idx (some k) .rdTimeout [Die.window q.die]).finishLoad l k
        (loadBytes p.addr p.size [{ q with got := some 0xDEAD0B0BDEAD0B0B }])) := by
      show execRdTimeout l k s = _
      have hwait : (q.got.isNone && decide (q.sent + 2000000 ≤ s.ns) &&
          !(s.replica l k).out.any fun x => x.1 == q.die && x.2.ordinal == q.ordinal) = true := by
        rw [hg, hout, decide_eq_true ht]; rfl
      simp only [execRdTimeout, hp, if_neg hmode, hq, List.find?_cons, hwait, List.map_cons, List.map_nil, if_true, List.all_cons,
        List.all_nil, Option.isSome_some, Bool.and_self]
      rfl
    obtain ⟨lg, hlog⟩ := logEv_frame s l.idx (some k) .rdTimeout [Die.window q.die]
    refine ⟨_, hrun, ?_, ?_, ?_, ?_, ?_, ?_⟩
    · rw [replica_finishLoad]
    · rw [replica_finishLoad]
    · rw [reg64_finishLoad, hlog]
      rfl
    · rw [hlog]
      rfl
    · simp
    · intro hm hf
      rw [← logEv_entry hm hf (some k) .rdTimeout [Die.window q.die]]
      rfl

/-! ### Challenges -/

theorem exec_challengeBeatArrive_live {d : Die} {l : Lane} {k : Strand} {v : Dword} {s : State} (hfit : s.dieFitted d = true)
    (hrun : (s.consumer d).running = true) (hin : (s.voterIn d k).contains l = true) (hh : s.voterHalted d k = false)
    (hm : s.mayArrive (.challenge d l k v) = true) :
    exec (.challengeBeatArrive d l k v) s = .next (if ((s.voter d k).challenge.get l).isSome then s
      else ((s.arrive (.challenge d l k v)).setVoter d k
        { (s.arrive (.challenge d l k v)).voter d k with
          challenge := ((s.arrive (.challenge d l k v)).voter d k).challenge.set l (some v) }).chalDecide d k) := by
  show execChallengeBeatArrive d l k v s = _
  simp only [execChallengeBeatArrive, hfit, hrun, hin, hh, hm]
  rfl

theorem chalDecide_waiting {d : Die} {k : Strand} {s : State}
    (h : ((s.voterIn d k).any fun l => ((s.voter d k).challenge.get l).isNone) = true) : s.chalDecide d k = s := by
  have hall : ((s.voterIn d k).all fun l => ((s.voter d k).challenge.get l).isSome) = false := by
    simpa [List.any_eq_true, List.all_eq_false, Option.isNone_iff_eq_none] using h
  simp [State.chalDecide, hall]

/-- The answer of a challenge waits in the lanes that the die reaches. -/
def State.giveAnswers (s : State) (k : Strand) (a : ChalAnswer) (ls : List Lane) : State :=
  ls.foldl (fun t l => t.setEcho l k { t.echo l k with answers := (t.echo l k).answers ++ [a] }) s

section
variable (s : State) (k : Strand) (a : ChalAnswer)

theorem giveAnswers_cons (l : Lane) (ls : List Lane) : s.giveAnswers k a (l :: ls) =
    State.giveAnswers (s.setEcho l k { s.echo l k with answers := (s.echo l k).answers ++ [a] }) k a ls := rfl

/-- Answers wait in the Echo units alone. -/
theorem giveAnswers_frame (ls : List Lane) : ∃ lanes, s.giveAnswers k a ls = { s with lanes := lanes } := by
  induction ls generalizing s with
  | nil => exact ⟨s.lanes, rfl⟩
  | cons l ls ih =>
    obtain ⟨lanes, h⟩ := ih (s.setEcho l k { s.echo l k with answers := (s.echo l k).answers ++ [a] })
    exact ⟨lanes, by rw [giveAnswers_cons, h]; rfl⟩

theorem giveAnswers_base (ls : List Lane) : (s.giveAnswers k a ls).base = s.base := by
  induction ls generalizing s with
  | nil => rfl
  | cons l ls ih => rw [giveAnswers_cons, ih, State.setEcho_base]

theorem echo_giveAnswers_other {l : Lane} {ls : List Lane} (h : l ∉ ls) : (s.giveAnswers k a ls).echo l k = s.echo l k := by
  induction ls generalizing s with
  | nil => rfl
  | cons m ls ih =>
    rw [List.mem_cons, not_or] at h
    rw [giveAnswers_cons, ih _ h.2, echo_setEcho, if_neg (fun e => h.1 e.1)]

theorem answers_giveAnswers {l : Lane} {ls : List Lane} (hn : ls.Nodup) (h : l ∈ ls) :
    ((s.giveAnswers k a ls).echo l k).answers = (s.echo l k).answers ++ [a] := by
  induction ls generalizing s with
  | nil => cases h
  | cons m ls ih =>
    rw [List.nodup_cons] at hn
    rw [giveAnswers_cons]
    rcases List.mem_cons.1 h with rfl | h
    · rw [echo_giveAnswers_other _ _ _ hn.1, echo_setEcho, if_pos ⟨rfl, rfl⟩]
    · have hne : l ≠ m := fun e => hn.1 (e ▸ h)
      rw [ih _ hn.2 h, echo_setEcho, if_neg (fun e => hne e.1)]
end

/-- No challenge beat is held. -/
def State.chalCleared (s : State) (d : Die) (k : Strand) : State :=
  s.setVoter d k { s.voter d k with challenge := Tri.all none }

/-- The answer to the challenge beats that are held. -/
def State.chalAnswer (s : State) (d : Die) (k : Strand) : ChalAnswer :=
  ⟨d, s.nextOcc d k (chalVector d), chalOdd (s.voter d k).challenge.a (s.voter d k).challenge.b (s.voter d k).challenge.c,
    chalRelease (Lane.list.filterMap fun x => (s.voter d k).challenge.get x)⟩

/-- A voter that holds every beat answers: the answer is kept by each lane that its die reaches. -/
theorem chalDecide_eq {d : Die} {k : Strand} {s : State} (hrun : (s.consumer d).running = true)
    (h2 : 2 ≤ (s.voterIn d k).length) (hall : ∀ l ∈ s.voterIn d k, ((s.voter d k).challenge.get l).isSome = true) :
    s.chalDecide d k = State.giveAnswers
      ((s.chalCleared d k).raise d k (chalVector d)) k
      (s.chalAnswer d k) (s.linked d) := by
  have hheld : (Lane.list.filterMap fun l => (s.voter d k).challenge.get l).isEmpty = false := by
    obtain ⟨l, hl⟩ := List.exists_mem_of_length_pos (Nat.lt_of_lt_of_le Nat.zero_lt_two h2)
    obtain ⟨x, hx⟩ := Option.isSome_iff_exists.1 (hall l hl)
    rw [List.isEmpty_eq_false_iff_exists_mem]
    exact ⟨x, List.mem_filterMap.2 ⟨l, (List.mem_filter.1 hl).1, hx⟩⟩
  have hall' : ((s.voterIn d k).all fun l => ((s.voter d k).challenge.get l).isSome) = true := List.all_eq_true.2 hall
  simp only [State.chalDecide, hrun, hheld, hall', decide_eq_false (Nat.not_lt.2 h2)]
  rfl

theorem chalDecide_answers {d : Die} {k : Strand} {s : State} (hfit : s.dieFitted d = true) (hrun : (s.consumer d).running = true)
    (h2 : 2 ≤ (s.voterIn d k).length) (hall : ∀ l ∈ s.voterIn d k, ((s.voter d k).challenge.get l).isSome = true) :
    ((s.chalDecide d k).voter d k).challenge = Tri.all none ∧ (s.nextOcc d k (chalVector d)).src = Die.source d ∧
      (s.nextOcc d k (chalVector d)).vec = BitVec.ofNat 8 (chalVector d) ∧
      (s.vectorFitted (chalVector d) = true → ∀ l ∈ s.linked d,
        Wire.occurrence l d k (s.nextOcc d k (chalVector d)) ∈ (s.chalDecide d k).vcQueue l d true .posted) ∧
      (∀ l ∈ s.linked d, ((s.chalDecide d k).echo l k).answers = (s.echo l k).answers ++
        [⟨d, s.nextOcc d k (chalVector d), chalOdd (s.voter d k).challenge.a (s.voter d k).challenge.b (s.voter d k).challenge.c,
          chalRelease (Lane.list.filterMap fun x => (s.voter d k).challenge.get x)⟩]) ∧
      (s.chalDecide d k).base = s.base := by
  have hnodup : (s.linked d).Nodup := List.Nodup.filter _ (by decide)
  rw [chalDecide_eq hrun h2 hall]
  obtain ⟨cs, ls, ws, hraise⟩ := raise_frame (s.chalCleared d k) d k (chalVector d)
  refine ⟨?_, rfl, rfl, fun hv l hl => ?_, fun l hl => ?_, ?_⟩
  · obtain ⟨lanes, hans⟩ := giveAnswers_frame
      ((s.chalCleared d k).raise d k (chalVector d)) k (s.chalAnswer d k) (s.linked d)
    rw [hans, hraise]
    exact congrArg Voter.challenge (voter_setVoter_same s d k _)
  · obtain ⟨lanes, hans⟩ := giveAnswers_frame
      ((s.chalCleared d k).raise d k (chalVector d)) k (s.chalAnswer d k) (s.linked d)
    have hsent := raise_sends (s.chalCleared d k) d k (chalVector d) l ⟨hrun, hv, hfit⟩
    rw [hans]
    show _ ∈ ((s.chalCleared d k).raise d k (chalVector d)).vcQueue l d true .posted
    rw [hsent, if_pos (show l ∈ (s.chalCleared d k).linked d from hl)]
    exact List.mem_append_right _ (List.mem_singleton.2 rfl)
  · rw [answers_giveAnswers _ _ _ hnodup hl, hraise]
    rfl
  · rw [giveAnswers_base]
    exact (State.raise_base ..).trans rfl

/-- Settles O26: a challenge is held, and the answer goes out as one occurrence once every lane's is. -/
theorem challengesAreAnsweredByTheTestPath : Obligations.ChallengesAreAnsweredByTheTestPath := by
  refine ⟨fun d l k v s hfit hrun hin hh hm hno => ?_, fun d l k v s => ⟨fun hm => ?_, fun hm hdead => ?_, fun hheld hfit hrun hin hh => ?_⟩,
    fun d k s => ?_, fun x y hxy => ?_, fun x y => ?_⟩
  · obtain ⟨ls, hs⟩ := arrive_route s (w := .challenge d l k v) rfl
    have hv : (s.arrive (.challenge d l k v)).voter d k = s.voter d k := by rw [hs]; rfl
    rw [exec_challengeBeatArrive_live hfit hrun hin hh hm, if_neg (by simp [hno]), hv]
  · exact congrArg Host.Outcome.next (if_pos (by simp [hm]))
  · have hlive : (s.dieFitted d && (s.consumer d).running && (s.voterIn d k).contains l && !s.voterHalted d k) = false := by
      rcases hdead with h | h | h | h <;> simp only [h, Bool.and_false, Bool.false_and, Bool.not_true]
    show execChallengeBeatArrive d l k v s = _
    simp only [execChallengeBeatArrive, hm, hlive]
    rfl
  · by_cases hm : s.mayArrive (.challenge d l k v) = true
    · rw [exec_challengeBeatArrive_live hfit hrun hin hh hm, if_pos hheld]
    · have hno := eq_false_of_ne_true hm
      exact congrArg Host.Outcome.next (if_pos (by simp [hno]))
  · exact ⟨chalDecide_waiting, fun hfit hrun h2 hall => chalDecide_answers hfit hrun h2 hall⟩
  · simp [chalOdd, hxy, Ne.symm hxy]
  · simp only [chalRelease, List.all_cons, List.all_nil, List.headD_cons, beq_self_eq_true, Bool.and_true, Bool.true_and, beq_iff_eq]
    exact eq_comm

end Sys2Proof.Machine
end

-- ==== Proofs: lane memories ====
section
/-! Broadcast writes that land, scrub hashes and memory errors (R107, R118, R119, R167 to R173). -/

namespace Sys2Proof.Machine

/-- At most one lane, the registers and the rejoin have changed. -/
def InLane (l : Lane) (s t : State) : Prop :=
  ∃ lanes rg rj, t = { s with lanes := lanes, regs := rg, rejoin := rj } ∧ ∀ l', l' ≠ l → lanes.get l' = s.lanes.get l'

section
variable {l : Lane} {s t u : State}

theorem InLane.refl (l : Lane) (s : State) : InLane l s s := ⟨s.lanes, s.regs, s.rejoin, rfl, fun _ _ => rfl⟩

theorem InLane.trans (h : InLane l s t) (g : InLane l t u) : InLane l s u := by
  obtain ⟨_, _, _, rfl, hl⟩ := h
  obtain ⟨_, _, _, rfl, gl⟩ := g
  exact ⟨_, _, _, rfl, fun l' hl' => (gl l' hl').trans (hl l' hl')⟩

theorem inLane_setLane (s : State) (l : Lane) (x : LaneState) : InLane l s (s.setLane l x) :=
  ⟨_, s.regs, s.rejoin, rfl, fun l' h => by rw [Tri.get_set, if_neg h]⟩

theorem MarksOnly.inLane (h : MarksOnly s t) (l : Lane) : InLane l s t := by
  obtain ⟨rg, rj, rfl, -⟩ := h
  exact ⟨s.lanes, rg, rj, rfl, fun _ _ => rfl⟩

theorem inLane_noteBroadcast (s : State) (l : Lane) (k : Strand) (a : Nat) : InLane l s (s.noteBroadcast l k a) := by
  rw [State.noteBroadcast]
  split
  · exact (inLane_setLane s l _).trans (inLane_setLane _ l _)
  · exact .refl l s

theorem inLane_landBroadcast (s : State) (l : Lane) (w : Broadcast) : InLane l s (s.landBroadcast l w) := by
  have hstore := (inLane_setLane s l _).trans
    ((marksOnly_markDirtyRange (s.laneStore l w.addr.toNat w.bytes) l w.addr.toNat w.bytes.length).inLane l)
  rw [State.landBroadcast]
  split
  · split
    · exact hstore.trans (inLane_noteBroadcast ..)
    · exact (hstore.trans (inLane_noteBroadcast ..)).trans (inLane_noteBroadcast ..)
  · exact hstore

theorem landBroadcast_base_eq (s : State) (l : Lane) (w : Broadcast) :
    (s.landBroadcast l w).base = (s.laneStore l w.addr.toNat w.bytes).base := by
  rw [State.landBroadcast]
  (repeat' split) <;> simp

theorem mem_of_base (h : t.base = u.base) (l' : Lane) : (t.lane l').mem = (u.lane l').mem := by
  rw [lane_mem, lane_mem, h]

/-- What the memories hold once a broadcast write has landed. -/
theorem cellGet_landBroadcast (s : State) (l : Lane) (w : Broadcast) (l' : Lane) (i : Nat) :
    cellGet ((s.landBroadcast l w).lane l').mem i =
      if l' = l ∧ w.addr.toNat ≤ i ∧ i < w.addr.toNat + w.bytes.length then (w.bytes[i - w.addr.toNat]?).getD 0
      else cellGet (s.lane l').mem i := by
  rw [mem_of_base (landBroadcast_base_eq s l w), laneStore_mem]
  split
  case isTrue h => rw [List.getElem?_eq_getElem (by omega)]; rfl
  case isFalse h => rfl

end

theorem noteLanded_frame (s : State) (p : PDie) (l : Lane) : ∃ rj, s.noteLanded p l = { s with rejoin := rj } := by
  rw [State.noteLanded]
  split
  exacts [⟨_, rfl⟩, ⟨s.rejoin, rfl⟩]

theorem exec_broadcastWriteLand {w : Broadcast} (hmem : isLaneMemory (w.addr.toNat + w.bytes.length - 1) = true) (l : Lane) (ue : Bool)
    (s : State) : exec (.broadcastWriteLand l w ue) s = .next (if s.mayArrive (.broadcast l w) then
      (let t := (s.arrive (.broadcast l w)).noteLanded w.die l
       if t.retired l then t else if ue then t.loseWrite l w 7 else t.landBroadcast l w) else s) :=
  if_pos hmem

/-- Settles O27: landing is a store into the lane's own memory and its own marks. -/
theorem broadcastWriteLandsInOneLane : Obligations.BroadcastWriteLandsInOneLane := by
  intro l w s hmem
  obtain ⟨ls, harr⟩ := arrive_route s (w := .broadcast l w) rfl
  obtain ⟨rj, hland⟩ := noteLanded_frame (s.arrive (.broadcast l w)) w.die l
  have hret : ((s.arrive (.broadcast l w)).noteLanded w.die l).retired l = s.retired l := by rw [hland, harr]; rfl
  refine ⟨fun ue hm => ?_, fun ue hm hr => ?_, fun hm hr => ?_, fun hm hr =>
    ⟨((s.arrive (.broadcast l w)).noteLanded w.die l).landBroadcast l w, ?_, ?_, ?_⟩⟩
  · rw [exec_broadcastWriteLand hmem, if_neg (by simp [hm])]
  · simp only [exec_broadcastWriteLand hmem, hm, hret, hr, if_true]
  · simp only [exec_broadcastWriteLand hmem, hm, hret, hr, if_true, Bool.false_eq_true, if_false]
  · simp only [exec_broadcastWriteLand hmem, hm, hret, hr, if_true, Bool.false_eq_true, if_false]
  · intro l' i
    rw [cellGet_landBroadcast, hland, harr]
    rfl
  · obtain ⟨lanes, rg, rj', hin, hother⟩ := inLane_landBroadcast ((s.arrive (.broadcast l w)).noteLanded w.die l) l w
    have hq := vcQueue_arrive_route s (w := .broadcast l w) rfl
    rw [hin]
    refine ⟨?_, fun l' hl' => (hother l' hl').trans ?_, ?_, ?_, ?_⟩
    · rw [hland]
      exact hq
    · rw [hland, harr]; rfl
    all_goals rw [hland, harr]

/-! ### Scrub hashes -/

theorem scrub_setScrub_same (s : State) (l : Lane) (k : Strand) (x : Scrub) : (s.setScrub l k x).scrub l k = x := by
  simp [State.scrub, State.setScrub, lane_setLane, Quad.get_set]

theorem scrub_of_lanes {s t : State} (h : t.lanes = s.lanes) (l : Lane) (k : Strand) : t.scrub l k = s.scrub l k := by
  simp only [State.scrub, State.lane, h]

@[simp] theorem lanes_logEv (s : State) (src : Nat) (k : Option Strand) (code : LogCode) (arg : List Nat) :
    (s.logEv src k code arg).lanes = s.lanes := by
  obtain ⟨_, h⟩ := logEv_frame s src k code arg
  rw [h]

/-- Three hashes that every engine can compare: what the comparison does with them. -/
theorem exec_scrubCompare_three {k : Strand} {s : State} {g : Tri ScrubHash} {h : Tri Dword} (hh : s.halted k = false)
    (hr : s.scrubReady k = some [(.a, g.a), (.b, g.b), (.c, g.c)])
    (hg : ∀ l, (g.get l).hash = some (h.get l) ∧ (g.get l).unreadable = false ∧ (g.get l).count = g.a.count) :
    exec (.scrubCompare k) s = .next (
      if h.a = h.b ∧ h.b = h.c then s.scrubAdvance k g.a
      else if h.a = h.b then (s.scrubExcludes k .c).scrubAdvance k g.a
      else if h.a = h.c then (s.scrubExcludes k .b).scrubAdvance k g.a
      else if h.b = h.c then (s.scrubExcludes k .a).scrubAdvance k g.a
      else s.liveLanes.foldl (fun t l => t.echoSplits l k .split) s) := by
  obtain ⟨ha, ua, -⟩ : g.a.hash = some h.a ∧ g.a.unreadable = false ∧ _ := hg .a
  obtain ⟨hb, ub, cb⟩ : g.b.hash = some h.b ∧ g.b.unreadable = false ∧ g.b.count = _ := hg .b
  obtain ⟨hc, uc, cc⟩ : g.c.hash = some h.c ∧ g.c.unreadable = false ∧ g.c.count = _ := hg .c
  show execScrubCompare k s = _
  simp [execScrubCompare, hh, hr, State.scrubCompare, ha, hb, hc, ua, ub, uc, cb, cc]

/-! ### Memory errors -/

theorem mem_insertNat (n : Nat) (xs : List Nat) : n ∈ insertNat n xs := by
  induction xs with
  | nil => exact List.mem_singleton.2 rfl
  | cons x xs ih =>
    rw [insertNat]
    split
    · exact List.mem_cons_self
    · split
      · rename_i h; rw [h]; exact List.mem_cons_self
      · exact List.mem_cons_of_mem _ ih

/-- The cores of a lane have stopped. -/
def State.coresStopped (s : State) (l : Lane) : State := Strand.list.foldl (fun t k => t.stopCore l k) s

theorem replica_coresStopped (s : State) (l : Lane) (k : Strand) :
    (s.coresStopped l).replica l k = { s.replica l k with mode := .stopped } := by
  cases k <;> simp [State.coresStopped, Strand.list, State.stopCore, replica_setReplica]

/-- Stopping cores touches the lanes alone. -/
theorem coresStopped_frame (s : State) (l : Lane) : ∃ lanes, s.coresStopped l = { s with lanes := lanes } := ⟨_, rfl⟩

theorem ownFault_eq (s : State) (l : Lane) (c : LaneFault) : s.ownFault l c =
    { (s.setFld l.unit Reg.lnLfault 10 8 (LaneFault.code c)).coresStopped l with wires := s.wires ++ [.faultLine l c] } := rfl

theorem code_lt (c : LaneFault) : LaneFault.code c < 2 ^ 3 := by cases c <;> decide

/-- What a core's own fault does: every clause of the statement about it. -/
theorem ownFault_spec (s : State) (l : Lane) (c : LaneFault) :
    (s.ownFault l c).wires = s.wires ++ [.faultLine l c] ∧ (∀ k, ((s.ownFault l c).replica l k).mode = .stopped) ∧
      (s.ownFault l c).fld l.unit Reg.lnLfault 10 8 = LaneFault.code c ∧ (s.ownFault l c).base = s.base := by
  obtain ⟨lanes, hstop⟩ := coresStopped_frame (s.setFld l.unit Reg.lnLfault 10 8 (LaneFault.code c)) l
  refine ⟨rfl, fun k => ?_, ?_, State.ownFault_base ..⟩
  · rw [ownFault_eq]
    exact congrArg Replica.mode (replica_coresStopped _ l k)
  · rw [ownFault_eq, hstop]
    exact (fld_setFld_same s _ _ _ _ _ (by decide)).trans (Nat.mod_eq_of_lt (code_lt c))

theorem copiesTo_of_no_rejoin {s : State} (h : s.rejoin = none) (l : Lane) (loc : UeLoc) (a : Nat) : s.copiesTo l loc a = false := by
  simp [State.copiesTo, h]

theorem mem_poison_poisonWord (s : State) (l : Lane) (a src : Nat) (k : Strand) :
    a / 8 * 8 ∈ ((s.poisonWord l a src k).lane l).poison := by
  show _ ∈ ((s.setLane l { s.lane l with poison := insertNat (a / 8 * 8) (s.lane l).poison }).lane l).poison
  rw [lane_setLane, if_pos rfl]
  exact mem_insertNat _ _

/-- The patrol's address within a pass. -/
theorem exec_patrolRead {a : Addr} (l : Lane) (f : PatrolFind) (s : State) (ha : a.toNat < 0x100000000)
    (hlast : a.toNat / 64 * 64 + 64 ≠ 0x100000000) : exec (.patrolRead l f a) s = .next (match f with
      | .clean => s.setFld l.unit Reg.lnPatrol 15 0 (a.toNat / 65536)
      | .correctable => (s.setFld l.unit Reg.lnPatrol 15 0 (a.toNat / 65536)).bump l.unit Reg.lnEccCnt 31 24
      | .uncorrectable => (s.setFld l.unit Reg.lnPatrol 15 0 (a.toNat / 65536)).memoryUe l .dram a.toNat
      | .busy => s.setFld l.unit Reg.lnPatrol 15 0 (a.toNat / 65536)) := by
  show execPatrolRead l f a s = _
  cases f <;> simp only [execPatrolRead, ha, hlast, if_true, if_false]

/-- Settles O28: the scrub and the memory errors are taken apart by what is found and where it lies. -/
theorem scrubAndMemoryErrorsOfALane : Obligations.ScrubAndMemoryErrorsOfALane := by
  refine ⟨⟨fun l k j rest s hj => ⟨fun hp => ?_, fun hp => ?_⟩, fun l k s hj => ?_, fun k s g h hh hr hg => ?_⟩, fun l s a => ?_⟩
  · show execScrubHashDone l k s = _
    simp only [execScrubHashDone, hj, hp, Bool.or_false, Bool.false_eq_true, if_false]
  · refine ⟨_, rfl, ?_⟩
    simp only [hj, hp, Bool.or_true, if_true]
    exact ⟨(scrub_of_lanes (lanes_logEv ..) l k).trans (scrub_setScrub_same ..), by simp [State.eccAddr]⟩
  · show execScrubHashDone l k s = _
    simp only [execScrubHashDone, hj]
  · rw [exec_scrubCompare_three hh hr hg]
    refine ⟨fun h1 h2 => ?_, fun h1 h2 => ?_, fun h1 h2 => ?_, fun h1 h2 => ?_, fun h1 h2 h3 => ?_⟩
    · rw [if_pos ⟨h1, h2⟩]
    · rw [if_neg (fun e => h2 e.2), if_pos h1]
    · rw [if_neg (fun e => h2 e.1), if_neg h2, if_pos h1]
    · rw [if_neg (fun e => h2 e.1), if_neg h2, if_neg (fun e => h2 (e.trans h1.symm)), if_pos h1]
    · rw [if_neg (fun e => h1 e.1), if_neg h1, if_neg h3, if_neg h2]
  · refine ⟨fun loc hloc => if_pos hloc, fun hn loc => copiesTo_of_no_rejoin hn .., rfl, fun k o ho => ?_, fun o ho => ?_, fun k o ho => ?_,
      fun k l1 ho => ?_, fun l1 ho => ?_, rfl, fun k => ⟨mem_poison_poisonWord .., State.poisonWord_base ..⟩, ownFault_spec s l,
      fun ha hlast => ?_⟩
    · simp only [State.memoryUe, ho]
    · simp only [State.memoryUe, ho]
    · simp only [State.memoryUe, ho]
    · simp only [State.memoryUe, ho]
    · simp only [State.memoryUe, ho]
    · exact ⟨exec_patrolRead l .clean s ha hlast, exec_patrolRead l .busy s ha hlast, exec_patrolRead l .correctable s ha hlast,
        exec_patrolRead l .uncorrectable s ha hlast⟩

end Sys2Proof.Machine
end

-- ==== Proofs: absent units and debug requests ====
section
/-! What the lane itself answers (R6, R7), and requests of a debugger (R150 to R153). -/

namespace Sys2Proof.Machine

section
variable {s : State} {l : Lane} {k : Strand} {d : Die} {a : Addr} {off n : Nat}

theorem localAnswer_of_absent (l : Lane) (k : Strand) (h : (s.absentUnit d off).isSome = true) :
    s.localAnswer l k d off = some absentPattern := by
  rw [State.localAnswer, if_pos h]

/-- Nothing leaves the lane for an access to absent units. -/
theorem sentDwords_of_absent (l : Lane) (k : Strand) {ds : List Dw} (h : ∀ w ∈ ds, (s.absentUnit d w.addr).isSome = true) :
    s.sentDwords l k d ds = [] := by
  rw [State.sentDwords, List.filter_eq_nil_iff]
  intro w hw
  simp [localAnswer_of_absent l k (h w hw)]

theorem accessBeats_of_absent (l : Lane) (k : Strand) (isRead : Bool) {ds : List Dw}
    (h : ∀ w ∈ ds, (s.absentUnit d w.addr).isSome = true) : s.accessBeats l k d isRead ds = [] :=
  List.eq_nil_of_length_eq_zero (by rw [length_accessBeats, sentDwords_of_absent l k h]; rfl)

theorem numberBeats_of_here {here : Nat → Bool} (o : Word) {ds : List Dw} (h : ∀ w ∈ ds, here w.addr = true) :
    numberBeats here o ds = ds.map fun w => (w, none) := by
  induction ds with
  | nil => rfl
  | cons w ds ih =>
    rw [numberBeats, if_pos (h w List.mem_cons_self), ih fun x hx => h x (List.mem_cons_of_mem _ hx)]
    rfl

theorem readParts_of_absent (l : Lane) (k : Strand) {ds : List Dw} (h : ∀ w ∈ ds, (s.absentUnit d w.addr).isSome = true) :
    s.readParts l k d ds = ds.map fun _ => ⟨d, 0, 0, some (absentPattern ++ absentPattern)⟩ := by
  have hhere : ∀ w ∈ ds, (s.localAnswer l k d w.addr).isSome = true := fun w hw => by
    rw [localAnswer_of_absent l k (h w hw)]; rfl
  rw [State.readParts, numberBeats_of_here _ hhere, List.map_map]
  refine List.map_congr_left fun w hw => ?_
  simp [localAnswer_of_absent l k (h w hw)]

/-- Byte `j` of doublewords that all hold a pattern twice is byte `j` of the pattern. -/
theorem byteAt_patterns {α : Type} (xs : List α) {j : Nat} (hj : j < 8 * xs.length) :
    byteAt (xs.flatMap fun _ => leBytes 8 (absentPattern ++ absentPattern).toNat) j = byteAt (leBytes 4 absentPattern.toNat) (j % 4) := by
  induction xs generalizing j with
  | nil => exact absurd hj (Nat.not_lt_zero j)
  | cons x xs ih =>
    have h8 : (leBytes 8 (absentPattern ++ absentPattern).toNat).length = 8 := rfl
    rw [List.flatMap_cons, byteAt]
    by_cases hlt : j < 8
    · rw [List.getElem?_append_left (by omega)]
      interval_cases j <;> rfl
    · rw [List.getElem?_append_right (by omega), h8]
      have := ih (j := j - 8) (by rw [List.length_cons] at hj; omega)
      rw [byteAt] at this
      rw [this]
      congr 1
      omega

theorem slice_eq_map (bs : List Byte) (i n : Nat) : slice bs i n = (List.range n).map fun j => byteAt bs (i + j) := by
  induction n generalizing i with
  | zero => rfl
  | succ n ih =>
    rw [slice, ih, List.range_succ_eq_map, List.map_cons, List.map_map]
    simp only [Nat.add_zero, List.cons.injEq, true_and]
    exact List.map_congr_left fun j _ => by rw [Function.comp_apply, Nat.succ_eq_add_one, Nat.add_assoc, Nat.add_comm 1]

/-- A window keeps the place of an address within its doubleword. -/
theorem window_mod_eight {a : Nat} (h : regionOf a = .window d off) : a % 8 = off % 8 := by
  rw [regionOf] at h
  (repeat' split at h) <;> first | cases h; omega | cases h

/-- The bytes of a load of which every doubleword lies in an absent unit. -/
theorem loadBytes_absent {a : Nat} (n : Nat) (hr : regionOf a = .window d off) :
    loadBytes a n ((dwords off (List.replicate n 0)).map fun _ => ⟨d, 0, 0, some (absentPattern ++ absentPattern)⟩) =
      patternBytes absentPattern off n := by
  have hmod := window_mod_eight hr
  rw [loadBytes, List.flatMap_map, slice_eq_map, patternBytes]
  refine List.map_congr_left fun j hj => ?_
  have hjn : j < n := List.mem_range.1 hj
  have hlen : (dwords off (List.replicate n (0 : Byte))).length = (off + n - 1) / 8 - off / 8 + 1 := by
    rw [dwords, List.length_replicate, if_neg (by omega), List.length_map, List.length_range]
  show byteAt ((dwords off (List.replicate n 0)).flatMap fun _ => leBytes 8 (absentPattern ++ absentPattern).toNat) _ = _
  rw [byteAt_patterns _ (by rw [hlen]; omega)]
  congr 1
  omega

theorem exec_absentUnitAccess_eq (hc : s.canExecute l k = true) (hr : regionOf a.toNat = .window d off)
    (ha : (s.absentUnit d off).isSome = true) (n : Nat) (write : Bool) : exec (.absentUnitAccess l k a n write) s =
      .next (s.execute l k (if write then .store a (List.replicate n 0) else .load a n)) := by
  show execAbsentUnitAccess l k a n write s = _
  simp only [execAbsentUnitAccess, hr, hc, ha]
  cases write <;> rfl

/-- A load of absent units is answered in the lane and retires. -/
theorem execute_load_absent (hr : regionOf a.toNat = .window d off)
    (hall : ∀ w ∈ dwords off (List.replicate n 0), (s.absentUnit d w.addr).isSome = true)
    (ha : s.allowed l k a.toNat n .read = true) : s.execute l k (.load a n) =
      (s.noteAbsents d (dwords off (List.replicate n 0))).finishLoad l k (patternBytes absentPattern off n) := by
  rw [execute_load_of_window hr ha, if_pos (sentDwords_of_absent l k hall), readParts_of_absent l k hall, loadBytes_absent n hr]

theorem noteAbsents_same (s : State) (d : Die) (ds : List Dw) :
    (s.noteAbsents d ds).regs = s.regs ∧ (s.noteAbsents d ds).wires = s.wires := by
  obtain ⟨_, _, h⟩ := noteAbsents_frame s d ds
  rw [h]
  exact ⟨rfl, rfl⟩

theorem debugPoke_of_owner {a : Nat} {bs : List Byte} (h1 : ownerOf a = some k) (h2 : ownerOf (a + bs.length - 1) = some k) :
    s.debugPoke l k a bs = s.laneStore l a bs := by
  rw [State.debugPoke]
  split
  case h_1 j off hr => simp [ownerOf, hr] at h1
  case h_2 => rw [if_pos ⟨h1, h2⟩]

/-- The flag of debug access in every lane (R429). -/
theorem flag_rjDbg_setFlags (s : State) (on : Bool) (x : Lane) :
    (Lane.list.foldl (fun t l => t.setFlag l.unit Reg.rjDbg 8 on) s).flag x.unit Reg.rjDbg 8 = on := by
  cases x <;> simp [Lane.list, Lane.unit, State.flag, State.setFlag, reg_setReg]

/-- Settles O30: each request is one branch of its command. -/
theorem absentUnitsAndDebugAreAnsweredInTheLane : Obligations.AbsentUnitsAndDebugAreAnsweredInTheLane := by
  intro l k s
  refine ⟨fun a d off n hc hr habs hall => ⟨fun ha => ?_, fun ha => ?_⟩, fun hdbg hen hauth => ?_, fun q hq => ?_, fun c hc => ?_,
    fun hc => ?_, fun on => ?_⟩
  · refine ⟨_, exec_absentUnitAccess_eq hc hr habs n false, ?_⟩
    obtain ⟨hregs, hwires⟩ := noteAbsents_same s d (dwords off (List.replicate n 0))
    simp only [Bool.false_eq_true, if_false, execute_load_absent hr hall ha, replica_finishLoad, replica_noteAbsents,
      reg64_finishLoad, State.finishLoad_base, State.noteAbsents_base, out_of_canExecute hc]
    exact ⟨rfl, trivial, congrArg (· + 1) (reg64_congr (reg_of_regs hregs ..) (reg_of_regs hregs ..)), hwires, trivial⟩
  · refine ⟨_, exec_absentUnitAccess_eq hc hr habs n true, ?_⟩
    obtain ⟨hregs, hwires⟩ := noteAbsents_same s d (dwords off (List.replicate n 0))
    have hlen : (List.replicate n (0 : Byte)).length = n := List.length_replicate
    rw [if_pos rfl, execute_store_of_window hr (by rw [hlen]; exact ha)]
    refine ⟨?_, ?_, hwires, by simp [State.deviceWritten]⟩
    · obtain ⟨-, hout⟩ := replica_deviceWritten (d := d) (off := off) hc (List.replicate n 0) a.toNat
      rw [replica_retire, hout, accessBeats_of_absent l k false hall, List.map_nil]
    · rw [State.retire, reg64_setReg64_same]
      exact congrArg (· + 1) (reg64_congr (reg_of_regs hregs ..) (reg_of_regs hregs ..))
  · have hok : (s.replica l k).debug = true ∧ s.flag l.unit Reg.rjDbg 8 = true ∧ s.debugAuth = true := ⟨hdbg, hen, hauth⟩
    refine ⟨congrArg Host.Outcome.next (if_pos hok), congrArg Host.Outcome.next (if_pos hok), fun hm => ?_,
      fun r m => congrArg Host.Outcome.next (if_pos hok), fun a bs h1 h2 => ?_⟩
    · exact congrArg Host.Outcome.next ((if_pos hok).trans (if_pos hm))
    · exact congrArg Host.Outcome.next ((if_pos hok).trans (debugPoke_of_owner h1 h2))
  · exact congrArg Host.Outcome.next (if_neg (fun ⟨h1, h2, h3⟩ => by
      rcases hq with h | h | h
      · exact absurd (h.symm.trans h1) Bool.false_ne_true
      · exact absurd (h.symm.trans h2) Bool.false_ne_true
      · exact absurd (h.symm.trans h3) Bool.false_ne_true))
  · show execDebugAttach k l s = _
    simp only [execDebugAttach, hc]
  · show execDebugAttach k l s = _
    simp only [execDebugAttach, hc]
  · refine ⟨_, rfl, fun x => ?_, ?_, fun u off h1 h2 => ?_, rfl, rfl⟩
    · have hm : (x.unit ≠ .m ∨ Reg.rjDbg ≠ Reg.mgDbg) := .inr (by decide)
      rw [State.flag, reg_setFlag_other _ _ _ hm]
      exact flag_rjDbg_setFlags s on x
    · exact flag_setFlag_same _ _ _ _ _ (by decide)
    · rw [reg_setFlag_other _ _ _ (.inr h2)]
      simp only [Lane.list, List.foldl_cons, List.foldl_nil]
      rw [reg_setFlag_other _ _ _ (.inr h1), reg_setFlag_other _ _ _ (.inr h1), reg_setFlag_other _ _ _ (.inr h1)]

end

end Sys2Proof.Machine
end

-- ==== Proofs: rejoin requests and timing commits ====
section
/-! Requests for a rejoin (R131 to R133) and timing commits (R79): what management asks of all lanes. -/

namespace Sys2Proof.Machine

/-! ### The same field in every lane -/

section
variable (s : State) (off hi lo v : Nat)

theorem reg_setLaneFld_other {x : RUnit} {o : Nat} (h : o ≠ off) : (s.setLaneFld off hi lo v).reg x o = s.reg x o := by
  simp only [State.setLaneFld, reg_setFld_other _ _ _ _ (.inr h)]

theorem fld_setLaneFld_same (l : Lane) (hhi : hi < 32) : (s.setLaneFld off hi lo v).fld l.unit off hi lo = v % 2 ^ (hi + 1 - lo) := by
  cases l <;> simp [State.setLaneFld, State.fld, State.setFld, reg_setReg, Lane.unit, fieldOf_withField, hhi]

theorem fld_setLaneFld_other (l : Lane) {hi' lo' : Nat} (h : hi' < lo ∨ hi < lo') :
    (s.setLaneFld off hi lo v).fld l.unit off hi' lo' = s.fld l.unit off hi' lo' := by
  cases l <;> simp [State.setLaneFld, State.fld, State.setFld, reg_setReg, Lane.unit, fieldOf_withField_other _ v h]

end

theorem regsOnly_setLaneFld (s : State) (off hi lo v : Nat) : RegsOnly s (s.setLaneFld off hi lo v) := ⟨_, rfl⟩

/-! ### Requests for a rejoin -/

section
variable {k : Strand} {x : Lane} {s : State}

theorem requestRejoin_busy (h : s.rejoinBusy k = true) :
    s.requestRejoin k x = s.ignored (s.donorView k).unit Reg.rjCmd .mgmt := if_pos h

theorem requestRejoin_refused {res : Nat} (h : s.rejoinBusy k = false) (hr : s.rejoinRefusal k x = some res) :
    s.requestRejoin k x = s.setRjResult k res := by
  simp [State.requestRejoin, h, hr]

theorem requestRejoin_queued (h : s.rejoinBusy k = false) (hr : s.rejoinRefusal k x = none) :
    s.requestRejoin k x = State.setQueued { s with rejoinQueue := s.rejoinQueue.set k (some x) } k true := by
  simp [State.requestRejoin, h, hr]

theorem exec_abandon (h : s.mgmtCommands = true) : exec (.abandon k) s = .next (s.abandonCmd k) :=
  congrArg Host.Outcome.next (if_pos h)

theorem abandonCmd_queued {y : Lane} (h : s.rejoinQueue.get k = some y) : s.abandonCmd k =
    (State.setQueued { s with rejoinQueue := s.rejoinQueue.set k none } k false).setRjResult k 0x25 := by
  simp [State.abandonCmd, h]

theorem abandonCmd_running {r : RejoinRun} (h : s.rejoinQueue.get k = none) (hr : s.rejoin = some r) (hk : r.strand = k) :
    s.abandonCmd k = s.abandonRejoin 0x25 := by
  simp [State.abandonCmd, h, State.abandonRejoinOf, hr, hk]

theorem exec_autoRejoinRequest (k : Strand) (x : Lane) (s : State) : exec (.autoRejoinRequest k x) s =
    .next (if s.rjAuto (s.donorView k) && s.replState (s.donorView k) k x == 1 && decide (s.abn (s.donorView k) k x < 3) &&
      ((s.echo (s.donorView k) k).asideAt.get x).any (fun t => decide (t + 100000000 ≤ s.ns)) then
      (s.autoAsked k x).requestRejoin k x else s) := rfl

theorem asideAt_autoAsked (s : State) (k : Strand) (x y : Lane) : ((s.autoAsked k x).echo y k).asideAt.get x = none := by
  cases y <;> simp [State.autoAsked, Lane.list, echo_setEcho, Tri.get_set]

end

/-- Settles O31: a request is one of three branches, and ABANDON one of two. -/
theorem rejoinRequestsAreCheckedAndQueued : Obligations.RejoinRequestsAreCheckedAndQueued := by
  intro k x s
  refine ⟨fun h => congrArg Host.Outcome.next (if_pos h), requestRejoin_busy, fun res h hr hlt => ?_, fun h hr => ?_, fun hm hq => ?_,
    fun r hm hq hr hk => ?_, fun hauto h1 h3 t ht hdue => ?_, fun hno => ?_, asideAt_autoAsked s k x, rfl, rfl, ?_⟩
  · rw [requestRejoin_refused h hr]
    exact ⟨fun l => (fld_setLaneFld_same s _ _ _ _ l (by decide)).trans (Nat.mod_eq_of_lt hlt), rfl, rfl, rfl, rfl⟩
  · rw [requestRejoin_queued h hr]
    exact ⟨rfl, fun l => fld_setLaneFld_same _ _ _ _ _ l (by decide), rfl, rfl, rfl⟩
  · rw [exec_abandon hm, abandonCmd_queued hq]
    refine ⟨_, rfl, rfl, fun l => ⟨fld_setLaneFld_same _ _ _ _ _ l (by decide), ?_⟩, rfl⟩
    exact (fld_setLaneFld_other _ _ _ _ _ l (.inl (by decide))).trans (fld_setLaneFld_same _ _ _ _ _ l (by decide))
  · rw [exec_abandon hm, abandonCmd_running hq hr hk]
  · rw [exec_autoRejoinRequest, hauto, h1, ht, decide_eq_true h3, Option.any_some, decide_eq_true hdue]
    rfl
  · rw [exec_autoRejoinRequest, if_neg]
    rcases hno with h | h | h
    · simp [h]
    · simp [Nat.not_lt.2 h]
    · simp [h]
  · simp [State.autoAsked, Lane.list]

/-! ### Timing commits -/

section
variable {f : State → Lane → State}

/-- An act in every lane of a list that reads and writes registers of its own lane alone: what a register of a lane reads then. -/
theorem reg_foldl_lanes (hother : ∀ t m x off, x ≠ m.unit → (f t m).reg x off = t.reg x off)
    (hown : ∀ t t' m, (∀ off, t.reg m.unit off = t'.reg m.unit off) → ∀ off, (f t m).reg m.unit off = (f t' m).reg m.unit off)
    {ls : List Lane} (hn : ls.Nodup) (s : State) (l : Lane) (off : Nat) :
    (ls.foldl f s).reg l.unit off = if l ∈ ls then (f s l).reg l.unit off else s.reg l.unit off := by
  have hinj : ∀ m : Lane, l ≠ m → l.unit ≠ m.unit := fun m h e => h (by cases l <;> cases m <;> first | rfl | cases e)
  induction ls generalizing s with
  | nil => simp
  | cons m ls ih =>
    rw [List.nodup_cons] at hn
    rw [List.foldl_cons, ih hn.2]
    by_cases hlm : l = m
    · subst hlm
      rw [if_neg hn.1, if_pos List.mem_cons_self]
    · by_cases hl : l ∈ ls
      · rw [if_pos hl, if_pos (List.mem_cons_of_mem _ hl)]
        exact hown _ _ _ (fun o => hother s m _ o (hinj m hlm)) off
      · rw [if_neg hl, if_neg (by simp [hlm, hl]), hother s m _ off (hinj m hlm)]

end

section
variable {k : Strand} {s : State} {c : TcfgCommit}

theorem nodup_liveLanes (s : State) : s.liveLanes.Nodup := List.Nodup.filter _ (by decide)

theorem mem_liveLanes {l : Lane} (h : s.retired l = false) : l ∈ s.liveLanes :=
  List.mem_filter.2 ⟨by cases l <;> decide, by simp [h]⟩

/-- What `LN_TCFG_COMMIT` of a live lane shows. -/
theorem reg_showTcfg {l : Lane} (hl : s.retired l = false) (busy : Bool) (r : Nat) :
    (s.showTcfg k busy (some r)).reg l.unit (Reg.lnTcfgCommit k.idx) =
      withField (withBit (s.reg l.unit (Reg.lnTcfgCommit k.idx)) 1 busy) 15 8 r := by
  have h := reg_foldl_lanes (f := fun t l => (t.setFlag l.unit (Reg.lnTcfgCommit k.idx) 1 busy).setFld l.unit
      (Reg.lnTcfgCommit k.idx) 15 8 r)
    (fun t m x off hx => by rw [reg_setFld_other _ _ _ _ (.inl hx), reg_setFlag_other _ _ _ (.inl hx)])
    (fun t t' m ht off => by simp [State.setFld, State.setFlag, reg_setReg, ht]) (nodup_liveLanes s) s l (Reg.lnTcfgCommit k.idx)
  rw [if_pos (mem_liveLanes hl)] at h
  exact h.trans (by simp [State.setFld, State.setFlag])

theorem tcfgVals_of_all (hg : ∀ g ∈ c.go, (s.tcfgLanes k).contains g.1 = true) : s.tcfgVals k c = c.go.map Prod.snd := by
  rw [State.tcfgVals, List.filter_eq_self.2 hg]

theorem partFirst_of_all {part : List Lane} {go : List (Lane × Word)} (hg : ∀ g ∈ go, part.contains g.1 = true) :
    partFirst part go = go := by
  rw [partFirst, List.filter_eq_self.2 hg, List.filter_eq_nil_iff.2 (fun g h => by rw [hg g h]; exact Bool.false_ne_true), List.append_nil]

theorem tcfgCode_of_bad {go : List (Lane × Word)} (h : ∃ g ∈ go, tcfgOk g.2 = false) : tcfgCode (go.map Prod.snd) = some 1 := by
  obtain ⟨g, hg, hb⟩ := h
  rw [tcfgCode, if_pos]
  rw [List.any_map, List.any_eq_true]
  exact ⟨g, hg, by simp [hb]⟩

theorem tcfgCode_of_not_bad {go : List (Lane × Word)} (h : ¬∃ g ∈ go, tcfgOk g.2 = false) (l : Lane) :
    tcfgCode (go.map Prod.snd) = if ∀ g ∈ go, g.2 = (go.headD (l, 0)).2 then none else some 2 := by
  have h1 : ((go.map Prod.snd).any fun w => !tcfgOk w) = false := by
    rw [List.any_map, List.any_eq_false]
    exact fun g hg hb => h ⟨g, hg, by simpa using hb⟩
  have h2 : (go.map Prod.snd).headD 0 = (go.headD (l, 0)).2 := by cases go <;> rfl
  rw [tcfgCode, if_neg (by simp [h1]), h2]
  by_cases hs : ∀ g ∈ go, g.2 = (go.headD (l, 0)).2
  · rw [if_neg, if_pos hs]
    simpa using hs
  · rw [if_pos, if_neg hs]
    simpa using hs

/-- A commit that is not armed, once every lane that takes part has requested it. -/
theorem tcfgSettle_whole (hc : s.tcfg.get k = some c) (ha : c.armed = false)
    (hw : ((s.tcfgLanes k).all fun x => c.go.any fun g => g.1 == x) = true)
    (hg : ∀ g ∈ c.go, (s.tcfgLanes k).contains g.1 = true) :
    s.tcfgSettle k = (match tcfgCode (c.go.map Prod.snd) with
      | some r => s.refuseTcfg k r
      | none => { s with tcfg := s.tcfg.set k (some { c with armed := true }) }) := by
  simp only [State.tcfgSettle, hc, ha, hw, Bool.false_eq_true, if_false, if_true, tcfgVals_of_all hg, partFirst_of_all hg] <;> rfl

theorem tcfgSettle_waits (hc : s.tcfg.get k = some c) (ha : c.armed = false)
    (hw : ((s.tcfgLanes k).all fun x => c.go.any fun g => g.1 == x) = false) : s.tcfgSettle k = s := by
  simp only [State.tcfgSettle, hc, ha, hw, Bool.false_eq_true, if_false]

theorem tcfg_refuseTcfg (r : Nat) : (s.refuseTcfg k r).tcfg.get k = none := by
  have h : (s.refuseTcfg k r).tcfg = s.tcfg.set k none := by
    obtain ⟨rg, h⟩ : RegsOnly { s with tcfg := s.tcfg.set k none } (s.refuseTcfg k r) := regsOnly_foldl (fun t l => ⟨_, rfl⟩) _ _
    rw [h]
  rw [h, Quad.get_set, if_pos rfl]

theorem exec_tcfgGoTimeout_none {t : State} (ht : s.tcfgSettle k = t) (hn : t.tcfg.get k = none) :
    exec (.tcfgGoTimeout k) s = .next t := by
  show execTcfgGoTimeout k s = _
  simp only [execTcfgGoTimeout, ht, hn]

theorem exec_tcfgGoTimeout_waits {t : State} (ht : s.tcfgSettle k = t) (hc : t.tcfg.get k = some c) (ha : c.armed = false)
    (hlate : c.since + 10000000 ≤ t.ns) :
    exec (.tcfgGoTimeout k) s = .next (t.refuseTcfg k ((tcfgCode (t.tcfgVals k c)).getD 3)) := by
  show execTcfgGoTimeout k s = _
  simp only [execTcfgGoTimeout, ht, hc, ha, Bool.false_eq_true, false_or, Nat.not_lt.2 hlate, if_false]

theorem exec_tcfgGoTimeout_armed {t : State} (ht : s.tcfgSettle k = t) (hc : t.tcfg.get k = some c) (ha : c.armed = true) :
    exec (.tcfgGoTimeout k) s = .next t := by
  show execTcfgGoTimeout k s = _
  simp only [execTcfgGoTimeout, ht, hc, ha, true_or, if_true]

/-- GO at its time, by what the staged values say and whether a GO is missing. -/
theorem exec_tcfgGoTimeout_late (hc : s.tcfg.get k = some c) (ha : c.armed = false)
    (hg : ∀ g ∈ c.go, (s.tcfgLanes k).contains g.1 = true) (hlate : c.since + 10000000 ≤ s.ns) {r : Nat}
    (hr : tcfgCode (c.go.map Prod.snd) = some r ∨ tcfgCode (c.go.map Prod.snd) = none ∧ r = 3 ∧
      ((s.tcfgLanes k).all fun x => c.go.any fun g => g.1 == x) = false) :
    exec (.tcfgGoTimeout k) s = .next (s.refuseTcfg k r) := by
  by_cases hw : ((s.tcfgLanes k).all fun x => c.go.any fun g => g.1 == x) = true
  · have hcode : tcfgCode (c.go.map Prod.snd) = some r := hr.resolve_right fun ⟨_, _, h⟩ => by rw [hw] at h; cases h
    exact exec_tcfgGoTimeout_none (by rw [tcfgSettle_whole hc ha hw hg, hcode]) (tcfg_refuseTcfg r)
  · rw [exec_tcfgGoTimeout_waits (tcfgSettle_waits hc ha (eq_false_of_ne_true hw)) hc ha hlate, tcfgVals_of_all hg]
    rcases hr with h | ⟨h, rfl, -⟩ <;> rw [h] <;> rfl

end

/-- Settles O33: a commit is settled by the code of its staged values once every GO is there, or refused at its time. -/
theorem timingCommitNeedsEveryLane : Obligations.TimingCommitNeedsEveryLane := by
  intro l k s
  refine ⟨fun hno => ?_, fun hin hnone hm => ?_, fun c hc ha hg => ⟨fun hw => tcfgSettle_waits hc ha hw, fun hlate =>
    ⟨fun hbad => ?_, fun hbad hsame => ?_, fun hbad hsame hw => ?_⟩, fun hbad hsame hw => ?_, fun hw hbad => ?_, fun hw hbad hsame => ?_⟩,
    fun hnone => ?_, fun r hr hl => ⟨?_, ?_, tcfg_refuseTcfg r⟩⟩
  · have h : s.tcfgGo l k = s := if_pos (by rw [hno]; rfl)
    show Host.Outcome.next (if s.mgmtReaches l then s.tcfgGo l k else s) = _
    rw [h, ite_self]
  · have htwice : s.tcfgGoTwice l k = false := by simp [State.tcfgGoTwice, hnone]
    show Host.Outcome.next (if s.mgmtReaches l then s.tcfgGo l k else s) = _
    simp only [hm, if_true, State.tcfgGo, hin, htwice, hnone, Bool.not_true, Bool.false_eq_true, if_false]
    rfl
  · exact exec_tcfgGoTimeout_late hc ha hg hlate (.inl (tcfgCode_of_bad hbad))
  · exact exec_tcfgGoTimeout_late hc ha hg hlate (.inl ((tcfgCode_of_not_bad hbad l).trans (if_neg hsame)))
  · exact exec_tcfgGoTimeout_late hc ha hg hlate (.inr ⟨(tcfgCode_of_not_bad hbad l).trans (if_pos hsame), rfl, hw⟩)
  · have hset : s.tcfgSettle k = { s with tcfg := s.tcfg.set k (some { c with armed := true }) } := by
      rw [tcfgSettle_whole hc ha hw hg, (tcfgCode_of_not_bad hbad l).trans (if_pos hsame)]
    refine ⟨?_, hset⟩
    rw [hset]
    exact exec_tcfgGoTimeout_armed hset (by rw [Quad.get_set, if_pos rfl]) rfl
  · rw [tcfgSettle_whole hc ha hw hg, tcfgCode_of_bad hbad]
  · rw [tcfgSettle_whole hc ha hw hg, (tcfgCode_of_not_bad hbad l).trans (if_neg hsame)]
  · exact exec_tcfgGoTimeout_none (by simp only [State.tcfgSettle, hnone]) hnone
  · have h := reg_showTcfg (s := { s with tcfg := s.tcfg.set k none }) (k := k) hl false r
    rw [State.refuseTcfg, State.fld, h, fieldOf_withField _ _ _ _ (by decide)]
    exact Nat.mod_eq_of_lt hr
  · have h := reg_showTcfg (s := { s with tcfg := s.tcfg.set k none }) (k := k) hl false r
    rw [State.refuseTcfg, State.flag, h]
    simp [bitOf_withField_other]

end Sys2Proof.Machine
end

-- ==== Proofs: the service protocol ====
section
/-! The service protocol (R393 to R400, R404): what each operation answers, and what it does to the update. -/

namespace Sys2Proof.Machine

section
variable {h : SvcHead} {s : State}

/-! ### Responses and sessions -/

theorem respond_untargeted (ht : h.target = 0) (op st : Nat) (body : List Byte) : s.respond h op st body = s := if_pos ht

theorem authed_of_session {x : Session} (hx : s.session h.from' = some x) (op : Nat) (f : State → State) : s.authed h op f = f s := by
  rw [State.authed, hx]; rfl

theorem authed_of_none (hx : s.session h.from' = none) (op : Nat) (f : State → State) :
    s.authed h op f = s.respond h op 2 [] := by
  rw [State.authed, hx]; rfl

theorem length_leBytes (n v : Nat) : (leBytes n v).length = n := by
  induction n generalizing v with
  | zero => rfl
  | succ n ih => rw [leBytes, List.length_cons, ih]

theorem length_logBytes (e : LogEntry) : (logBytes e).length = 32 := by
  simp [logBytes, length_leBytes, List.length_flatMap]

theorem slice_zero_length (v : List Byte) : slice v 0 v.length = v := by
  rw [slice_eq_map]
  apply List.ext_getElem
  · simp
  · intro i h1 h2
    simp [byteAt, List.getElem?_eq_getElem h2]

/-- The entries that a LOG_READ returns fill at most 32 bytes each. -/
theorem length_logHits (s : State) (first : Word) (n : Nat) : (((List.range n).filterMap fun i =>
    s.log.entries.find? fun e => e.seq == first + BitVec.ofNat 32 i).flatMap logBytes).length ≤ 32 * n := by
  have hlen := List.length_filterMap_le (fun i => s.log.entries.find? fun e => e.seq == first + BitVec.ofNat 32 i) (List.range n)
  rw [List.length_range] at hlen
  rw [List.length_flatMap, show (fun e => (logBytes e).length) = fun _ => 32 from funext length_logBytes]
  simp
  omega

theorem authOk_of_key {slot : Nat} (key sig : List Byte)
    (hno : s.mgmt.nonce = none ∨ (s.otpKey slot).revoked = true ∨ (s.otpKey slot).service = false) :
    s.authOk slot key sig = false := by
  rw [State.authOk]
  split
  · rfl
  case h_2 n hn =>
    rcases hno with h | h | h
    · rw [h] at hn; cases hn
    · simp [h]
    · simp [h]

theorem session_refusePowerDown (r : Requester) : s.refusePowerDown.session r = s.session r := by
  rw [State.refusePowerDown]
  split
  · obtain ⟨lg, hlog⟩ := ignored_frame s .m Reg.mgPwr .mgmt
    rw [hlog]
    rfl
  · rfl

/-- Settles O37: queries are answered as they stand; without a session each changing operation is refused at `State.authed`. -/
theorem serviceAnswersQueriesAndAsksForASession : Obligations.ServiceAnswersQueriesAndAsksForASession := by
  refine ⟨fun h s => ⟨fun op st body ip port hf ht => ?_, fun op st body ht => respond_untargeted ht _ _ _, fun hin => ?_,
    fun hout => ?_⟩, fun h s hin hno => ?_⟩
  · rw [State.respond, if_neg ht, hf]
  · refine ⟨congrArg Host.Outcome.next (if_pos hin), fun v hv => ?_, fun slot key sig hok => ?_, fun slot key sig hok => ?_,
      fun slot key sig => authOk_of_key key sig, fun first n h1 h40 => ⟨_, ?_, length_logHits s first n⟩,
      congrArg Host.Outcome.next (if_pos hin), fun a bs h1 h2 hplug => ?_⟩
    · have hsl : slice v 0 16 = v := hv ▸ slice_zero_length v
      show execNonce h v s = _
      simp only [execNonce, hin, if_true, hsl]
      rfl
    · show execAuth h slot key sig s = _
      simp only [execAuth, hin, hok, if_true]
      rfl
    · show execAuth h slot key sig s = _
      simp only [execAuth, hin, hok, if_true, Bool.false_eq_true, if_false]
      rfl
    · have hn : ¬(n = 0 ∨ 40 < n) := by omega
      show execLogRead h first n s = _
      simp only [execLogRead, hin, if_true, hn, if_false]
      rfl
    · have ha : a ≠ 0 := by omega
      show execIdentRead h a s = _
      simp only [execIdentRead, hin, if_true, ha, if_false, h1, h2, and_self, hplug]
      rfl
  · have hn : ¬s.svcTakes h = true := by rw [hout]; exact Bool.false_ne_true
    intro c hc
    simp only [List.mem_cons, List.not_mem_nil, or_false] at hc
    rcases hc with rfl | rfl | rfl | rfl | rfl | rfl | rfl | rfl <;> exact congrArg Host.Outcome.next (if_neg hn)
  · have hop : ∀ (op : Nat) (f : State → State), (if s.svcTakes h then s.authed h op f else s) = s.respond h op 2 [] :=
      fun op f => by rw [if_pos hin, authed_of_none hno]
    refine ⟨fun n c => congrArg Host.Outcome.next (hop 0x10 _), fun o bs => congrArg Host.Outcome.next (hop 0x11 _),
      congrArg Host.Outcome.next (hop 0x12 _), fun t => congrArg Host.Outcome.next (hop 0x13 _),
      congrArg Host.Outcome.next (hop 0x14 _), congrArg Host.Outcome.next (hop 0x15 _), ?_, fun hp => if_neg hp, fun hp => if_pos hp,
      fun m => ?_, congrArg Host.Outcome.next (hop 0x21 _)⟩
    · show execReboot h s = _
      simp only [execReboot, hin, if_true, hno, Option.isNone_none]
      rw [authed_of_none ((session_refusePowerDown _).trans hno)]
    · show execDebugAuth h m s = _
      simp only [execDebugAuth, hin, if_true, hno]
      rfl

end

/-! ### The life of an update -/

section
variable {h : SvcHead} {s : State}

/-- A write of the safe store leaves the transfer under way. -/
theorem staging_writeBoot (s : State) (b : BootRec) : (s.writeBoot b).mgmt.staging = s.mgmt.staging := by
  simp only [State.writeBoot, State.writeRecs, State.showBank, State.setBank]
  split <;> rfl

theorem mgmt_showBoot (s : State) : s.showBoot.mgmt = s.mgmt := rfl

theorem mgmt_setUpd (s : State) (st : Nat) : (s.setUpd st).mgmt = s.mgmt := rfl

theorem mgmt_logEv (s : State) (src : Nat) (k : Option Strand) (code : LogCode) (arg : List Nat) :
    (s.logEv src k code arg).mgmt = s.mgmt := by
  obtain ⟨_, hlog⟩ := logEv_frame s src k code arg
  rw [hlog]

theorem updState_setUpd (s : State) {st : Nat} (hst : st < 8) : (s.setUpd st).updState = st :=
  (fld_setFld_same s _ _ _ _ _ (by decide)).trans (Nat.mod_eq_of_lt hst)

@[simp] theorem reg_raiseAll (s : State) (d : Die) (v : Nat) (u : RUnit) (off : Nat) :
    (s.raiseAll d v).reg u off = s.reg u off := by
  obtain ⟨_, _, _, hraise⟩ := raiseAll_frame s d v
  rw [hraise]
  rfl

@[simp] theorem reg_logEv (s : State) (src : Nat) (k : Option Strand) (code : LogCode) (arg : List Nat) (u : RUnit) (off : Nat) :
    (s.logEv src k code arg).reg u off = s.reg u off := by
  obtain ⟨_, hlog⟩ := logEv_frame s src k code arg
  rw [hlog]
  rfl

theorem updState_logEv (s : State) (src : Nat) (k : Option Strand) (code : LogCode) (arg : List Nat) :
    (s.logEv src k code arg).updState = s.updState := by
  rw [State.updState, State.updState, State.fld, State.fld, reg_logEv]

/-- A transfer is under way. -/
def State.stagingBegun (s : State) (n : Nat) (c : Word) : State :=
  let t : State := { s with mgmt := { s.mgmt with staging := some (n, c, []) } }
  (t.writeBoot { t.boot with staged := 0 }).showBoot.setUpd updStaging

theorem staging_stagingBegun (s : State) (n : Nat) (c : Word) : (s.stagingBegun n c).mgmt.staging = some (n, c, []) := by
  simp only [State.stagingBegun, mgmt_setUpd, mgmt_showBoot, staging_writeBoot]

theorem updState_stagingBegun (s : State) (n : Nat) (c : Word) : (s.stagingBegun n c).updState = updStaging := by
  rw [State.stagingBegun]
  exact updState_setUpd _ (by decide)

/-- No transfer is under way. -/
def State.stagingDropped (s : State) : State := { s with mgmt := { s.mgmt with staging := none } }

/-- The components of a whole and right transfer are staged. -/
def State.transferEnded (s : State) (bits : BitVec 5) : State :=
  (((State.writeBoot s.stagingDropped { s.stagingDropped.boot with staged := bits }).showBoot).setUpd updStaged).logEv 6 none
    .updStaged []

/-- An armed package: its state, its time and the strands' vector; not yet logged. -/
def State.armedAt (s : State) (t : Dword) : State :=
  ((((s.writeBoot { s.boot with armed := some t, barred := s.boot.barred &&& ~~~s.boot.staged }).setUpd updArmed).setReg64 .m
    Reg.mgUpdTLo t).raiseAll .m 217)

theorem updState_armedAt (s : State) (t : Dword) : (s.armedAt t).updState = updArmed := by
  rw [State.updState, State.armedAt, State.fld, reg_raiseAll, reg_setReg64_other _ _ (by decide)]
  exact updState_setUpd _ (by decide)

theorem updTime_armedAt (s : State) (t : Dword) : (s.armedAt t).updTime = t := by
  rw [State.updTime, State.armedAt, reg64_congr (reg_raiseAll ..) (reg_raiseAll ..), reg64_setReg64_same]

/-- Settles O38: each operation inside its session, branch by branch. -/
theorem sessionOperationsChangeTheUpdateState : Obligations.SessionOperationsChangeTheUpdateState := by
  intro h s x hin hx
  have hop : ∀ (op : Nat) (f : State → State), (if s.svcTakes h then s.authed h op f else s) = f s :=
    fun op f => by rw [if_pos hin, authed_of_session hx]
  refine ⟨fun n c hst => congrArg Host.Outcome.next ((hop _ _).trans (if_pos hst)), fun n c h3 h4 ht => ?_,
    fun o bs n c ps hst hle => congrArg Host.Outcome.next ((hop _ _).trans ?_),
    fun o bs n c ps hst hlt => congrArg Host.Outcome.next ((hop _ _).trans ?_), fun n c ps hst hok ht => ?_, fun n c ps hst hbad ht => ?_,
    fun t hst => congrArg Host.Outcome.next ((hop _ _).trans (if_pos hst)), fun t hst hf => congrArg Host.Outcome.next ((hop _ _).trans ?_),
    fun t hst hf hr => congrArg Host.Outcome.next ((hop _ _).trans ?_), fun t hst hf hr ht => ?_, fun t n hn => ?_,
    fun hst => congrArg Host.Outcome.next ((hop _ _).trans (if_pos hst)),
    fun hrev => congrArg Host.Outcome.next ((hop _ _).trans (if_pos hrev)), ?_⟩
  · refine ⟨s.stagingBegun n c, congrArg Host.Outcome.next ((hop _ _).trans ?_), staging_stagingBegun s n c,
      updState_stagingBegun s n c⟩
    simp only [h3, h4, or_self, if_false]
    exact respond_untargeted ht _ _ _
  · simp only [hst, Nat.not_lt.2 hle, if_false]
    rfl
  · simp only [hst, hlt, if_true]
    rfl
  · refine ⟨s.transferEnded ((goodComps ((transferHead ps).getD [])).foldl (fun w e => withBit w (e.type - 1) true) 0),
      congrArg Host.Outcome.next ((hop _ _).trans ?_), ?_, ?_⟩
    · simp only [hst, hok, if_true]
      exact respond_untargeted ht _ _ _
    · rw [State.transferEnded, updState_logEv, updState_setUpd _ (by decide)]
    · simp only [State.transferEnded, mgmt_logEv, mgmt_setUpd, mgmt_showBoot, staging_writeBoot, State.stagingDropped]
  · refine ⟨s.stagingDropped.setUpd updNone, congrArg Host.Outcome.next ((hop _ _).trans ?_), updState_setUpd _ (by decide), rfl, rfl⟩
    simp only [hst, hbad, Bool.false_eq_true, if_false]
    exact respond_untargeted ht _ _ _
  · simp only [hst, hf, if_true, ne_eq, not_true_eq_false, if_false]
    rfl
  · simp only [hst, hf, hr, ne_eq, not_true_eq_false, if_false, Bool.false_eq_true, Bool.not_false, if_true]
    rfl
  · refine ⟨(s.armedAt t).logEv 6 none .updArmed [t.toNat], congrArg Host.Outcome.next ((hop _ _).trans ?_), ?_, ?_⟩
    · simp only [hst, hf, hr, ne_eq, not_true_eq_false, if_false, Bool.false_eq_true, Bool.not_true]
      exact respond_untargeted ht _ _ _
    · rw [updState_logEv, updState_armedAt]
    · rw [State.updTime, reg64_congr (reg_logEv ..) (reg_logEv ..)]
      exact updTime_armedAt s t
  · simp only [State.armInRange, hn, Bool.and_eq_true, decide_eq_true_eq]
    exact Iff.rfl
  · show execReboot h s = _
    simp only [execReboot, hin, if_true, hx, Option.isNone_some, Bool.false_eq_true, if_false]
    rw [authed_of_session hx]
    rfl

/-- The boot counts no more. -/
def State.disturbed (s : State) : State := { s with mgmt := { s.mgmt with disturbed := true } }

theorem exec_atM {k : Strand} {t : State} (hm : s.mOn = true) (hf : s.strandFenced (.strand k) .m = false) :
    s.atM (.strand k) t = t := by
  rw [State.atM, hm, hf]
  rfl

/-- VETO by the time of the activation. -/
theorem updCtl_veto (k : Strand) {n : Dword} (hn : s.updClock = some n) :
    s.updCtl k 1 = if n.toNat + 100000000 ≤ s.updTime.toNat then s.cancelUpdate 0x10 else s := by
  have hbits : fieldOf (1 : Word) 31 2 = 0 ∧ bitOf (1 : Word) 0 = true ∧ bitOf (1 : Word) 1 = false := by decide
  obtain ⟨h1, h2, h3⟩ := hbits
  have hveto : (decide (n.toNat + vetoNs ≤ s.updTime.toNat) = true) = (n.toNat + 100000000 ≤ s.updTime.toNat) := decide_eq_true_eq
  simp only [State.updCtl, h1, ne_eq, not_true_eq_false, if_false, State.updCtlWrite, h2, h3, if_true, Bool.false_eq_true,
    State.vetoUpdate, hn, hveto]

theorem updCtl_confirm (k : Strand) : s.updCtl k 2 = s.confirmUpdate := by
  have hbits : fieldOf (2 : Word) 31 2 = 0 ∧ bitOf (2 : Word) 0 = false ∧ bitOf (2 : Word) 1 = true := by decide
  obtain ⟨h1, h2, h3⟩ := hbits
  simp only [State.updCtl, h1, ne_eq, not_true_eq_false, if_false, State.updCtlWrite, h2, h3, if_true, Bool.false_eq_true]

/-- A boot that has proved itself: a further one than the third, the third, and an earlier one. -/
theorem exec_successfulBoot_ready (hready : s.bootPhase = bootReleased ∧ s.mgmt.disturbed = false ∧ s.mOn = true ∧
    s.mgmt.releasedAt + 60000000000 ≤ s.ns) : exec .successfulBoot s = .next (
      if 3 < s.boot.boots + 1 then s.disturbed
      else if s.boot.boots + 1 = 3 then
        ((s.disturbed.writeBoot { s.disturbed.boot with boots := s.boot.boots + 1 }).showBoot.confirmUpdate).endFreeze.showBoot
      else (s.disturbed.writeBoot { s.disturbed.boot with boots := s.boot.boots + 1 }).showBoot) :=
  congrArg Host.Outcome.next (if_pos hready)

/-- Settles O40: the activation, the strands' bits of `MG_UPD_CTL` and the count of boots, branch by branch. -/
theorem updateIsVetoedActivatedOrConfirmed : Obligations.UpdateIsVetoedActivatedOrConfirmed := by
  intro s
  refine ⟨fun hm hst hb hn => ?_, fun hm hst n hn hlt => ?_, fun hm hst hb n hn hle => ?_, fun hno => ?_,
    fun k n hm hf hn hle => ?_, fun k n hm hf hn hlt => ?_, fun k hm hf => ?_, fun hst => if_pos hst, fun hst r => if_pos hst,
    fun hb hd hm ht => ?_, fun hno => ?_⟩
  · show execUpdActivated s = _
    simp only [execUpdActivated, hst, hm, hb, ne_eq, not_false_eq_true, and_self, if_true, hn]
  · show execUpdActivated s = _
    simp only [execUpdActivated, hn, hlt, if_true, ite_self]
  · show execUpdActivated s = _
    simp only [execUpdActivated, hst, hm, hb, ne_eq, not_false_eq_true, and_self, if_true, hn, Nat.not_lt.2 hle, if_false]
  · exact congrArg Host.Outcome.next (if_neg (fun ⟨h1, _, h3⟩ => hno.elim (fun h => h h1) (fun h => h3 h)))
  · refine congrArg Host.Outcome.next ((exec_atM hm hf).trans ?_)
    rw [updCtl_veto k hn, if_pos hle]
  · refine congrArg Host.Outcome.next ((exec_atM hm hf).trans ?_)
    rw [updCtl_veto k hn, if_neg (Nat.not_le.2 hlt)]
  · exact congrArg Host.Outcome.next ((exec_atM hm hf).trans (updCtl_confirm k))
  · have hready : s.bootPhase = bootReleased ∧ s.mgmt.disturbed = false ∧ s.mOn = true ∧
        s.mgmt.releasedAt + 60000000000 ≤ s.ns := ⟨hb, hd, hm, ht⟩
    rw [exec_successfulBoot_ready hready]
    refine ⟨fun h3 => ?_, fun h2 => ?_, fun h2 => ?_⟩
    · rw [if_pos (by omega)]
      rfl
    · rw [if_neg (by omega), if_neg (by omega)]
      rfl
    · rw [h2, if_neg (by decide), if_pos rfl]
      rfl
  · refine congrArg Host.Outcome.next (if_neg (fun ⟨h1, h2, h3, h4⟩ => ?_))
    rcases hno with h | h | h | h
    · exact h h1
    · rw [h] at h2; cases h2
    · rw [h] at h3; cases h3
    · omega

end

/-! ### Debug authorisation -/

/-- After reset, with an authorisation that stands while management is stopped. -/
def authorisedUnlogged : State :=
  (State.reset.setConsumer .m { ResetValue.consumer with running := false }).setFlag .m Reg.mgDbg 31 true

/-- Steps that change nothing, for each element of the list. -/
theorem foldl_eq_self_of_mem {α β : Type} {g : α → β → α} {a : α} {xs : List β} (h : ∀ x ∈ xs, g a x = a) : xs.foldl g a = a := by
  induction xs with
  | nil => rfl
  | cons x xs ih =>
    rw [List.foldl_cons, h x List.mem_cons_self, ih fun y hy => h y (List.mem_cons_of_mem _ hy)]

/-- A master that holds no lock has none to give back. -/
theorem freeLocksOf_of_none {s : State} {m : Nat} (h : ∀ i, i < 64 → s.lockOwner i ≠ m) : s.freeLocksOf m = s :=
  foldl_eq_self_of_mem fun i hi => if_neg (h i (List.mem_range.1 hi))

theorem logEv_stopped {s : State} (hm : s.consumers.m.running = false) (src : Nat) (k : Option Strand) (code : LogCode)
    (arg : List Nat) : s.logEv src k code arg = s := if_pos hm

/-- Refutes O39: while management is stopped nothing is logged (R39), so that the end of an authorisation leaves no entry; the clause
about the entry does not ask that management runs. -/
theorem not_debugAuthorisationAndSessionsEnd : ¬ Obligations.DebugAuthorisationAndSessionsEnd := by
  intro h
  obtain ⟨_, _, _, _, _, hend, _⟩ := h ⟨.x6 0 0, 0, 0, true⟩ authorisedUnlogged
  obtain ⟨_, _, _, _, _, hlog⟩ := hend (by decide)
  have hfree : ∀ i, i < 64 → authorisedUnlogged.lockOwner i ≠ 15 := by decide
  have hfree' : ∀ i, i < 64 →
      ((authorisedUnlogged.setFlag .m Reg.mgDbg 31 false).setFld .m Reg.mgDbg 8 0 0).lockOwner i ≠ 15 := by decide
  have hentry := hlog hfree (by decide)
  have hsame : authorisedUnlogged.endDebugAuth =
      (authorisedUnlogged.setFlag .m Reg.mgDbg 31 false).setFld .m Reg.mgDbg 8 0 0 := by
    rw [State.endDebugAuth, if_pos (by decide), freeLocksOf_of_none hfree', logEv_stopped rfl]
  rw [hsame] at hentry
  cases hentry

end Sys2Proof.Machine
end

-- ==== Proofs: the time keepers of a channel ====
section
/-! KTN time keepers (R199, R213 to R218, R248): operations that leave every keeper's state as it is, and what the time-outs do. -/

namespace Sys2Proof.Machine

/-- Every keeper's state stands. -/
structure KeepsNet (s t : State) : Prop where
  net : ∀ n, t.net n = s.net n

section
variable {s t u : State}

theorem KeepsNet.refl (s : State) : KeepsNet s s := ⟨fun _ => rfl⟩

theorem KeepsNet.trans (h : KeepsNet s t) (g : KeepsNet t u) : KeepsNet s u := ⟨fun n => (g.net n).trans (h.net n)⟩

theorem keepsNet_of_ports (h : t.ports = s.ports) : KeepsNet s t :=
  ⟨fun n => by cases n <;> simp only [State.net, State.port, h]⟩

theorem RegsOnly.keepsNet (h : RegsOnly s t) : KeepsNet s t := by
  obtain ⟨_, rfl⟩ := h
  exact keepsNet_of_ports rfl

theorem keepsNet_setReg (s : State) (u : RUnit) (off : Nat) (v : Word) : KeepsNet s (s.setReg u off v) := keepsNet_of_ports rfl

/-- A port die whose two keepers stand. -/
theorem keepsNet_setPort (s : State) (p : PDie) {x : PortDie} (hn : x.net = (s.port p).net) (hg : x.guard = (s.port p).guard) :
    KeepsNet s (s.setPort p x) := by
  refine ⟨fun n => ?_⟩
  cases n with
  | ctl q => by_cases h : q = p
             · subst h; simp [State.net, port_setPort, hn]
             · simp [State.net, port_setPort, h]
  | gd q => by_cases h : q = p
            · subst h; simp [State.net, port_setPort, hg]
            · simp [State.net, port_setPort, h]

theorem keepsNet_foldl {α : Type} {f : State → α → State} (hf : ∀ t x, KeepsNet t (f t x)) (xs : List α) (s : State) :
    KeepsNet s (xs.foldl f s) := by
  induction xs generalizing s with
  | nil => exact .refl s
  | cons x xs ih => exact (hf s x).trans (ih _)

theorem keepsNet_raisePAll (s : State) (p : PDie) (off : Nat) : KeepsNet s (s.raisePAll p off) := by
  obtain ⟨_, _, _, h⟩ := raisePAll_frame s p off
  rw [h]
  exact keepsNet_of_ports rfl

theorem keepsNet_logEv (s : State) (src : Nat) (k : Option Strand) (code : LogCode) (arg : List Nat) :
    KeepsNet s (s.logEv src k code arg) := by
  obtain ⟨_, h⟩ := logEv_frame s src k code arg
  rw [h]
  exact keepsNet_of_ports rfl

theorem keepsNet_ktnState (s : State) (n : NetId) : KeepsNet s (s.ktnState n) := by
  cases n with
  | ctl p => exact keepsNet_raisePAll s p 56
  | gd p => exact .refl s

theorem keepsNet_beginCycle (s : State) (p : PDie) : KeepsNet s (s.beginCycle p) :=
  (keepsNet_setPort s p (x := { s.port p with cfg := s.reg p.unit Reg.tbCfg, heldNow := false }) rfl rfl).trans
    (keepsNet_setReg ..)

theorem RegsOnly.setReg (h : RegsOnly s t) (x : RUnit) (off : Nat) (v : Word) : RegsOnly s (t.setReg x off v) :=
  h.trans (regsOnly_setReg ..)

theorem RegsOnly.setFld (h : RegsOnly s t) (x : RUnit) (off hi lo v : Nat) : RegsOnly s (t.setFld x off hi lo v) :=
  h.trans (regsOnly_setFld ..)

theorem RegsOnly.setFlag (h : RegsOnly s t) (x : RUnit) (off i : Nat) (b : Bool) : RegsOnly s (t.setFlag x off i b) :=
  h.trans (regsOnly_setFlag ..)

theorem RegsOnly.foldl {α : Type} {f : State → α → State} (h : RegsOnly s t) (hf : ∀ t x, RegsOnly t (f t x)) (xs : List α) :
    RegsOnly s (xs.foldl f t) := h.trans (regsOnly_foldl hf xs t)

theorem regsOnly_showCtl (s : State) (p : PDie) (x : Net) : RegsOnly s (s.showCtl p x) := by
  simp only [State.showCtl]
  have hlinks : ∀ (t : State) (q : Port), RegsOnly t (((t.setFld p.unit (Reg.tbLink q.idx) 31 30 (x.links.get q).phase.code).setFld
      p.unit (Reg.tbLink q.idx) 15 0 (x.links.get q).delay).setReg p.unit (Reg.tbNbr q.idx) (x.links.get q).nbr) :=
    fun t q => (((RegsOnly.refl t).setFld ..).setFld ..).setReg ..
  have hsync : ∀ (t : State) (i : Nat) (w : Word), RegsOnly t (t.setReg p.unit (Reg.tbSync i) w) := fun t i w => regsOnly_setReg ..
  split
  all_goals
    refine .setFld (.setFld (.setFlag (.setReg (.foldl (.foldl ?_ (fun t i => hsync t i _) _) hlinks _) ..) ..) ..) ..
    exact .setReg (.setReg (.setReg (.setReg (.refl s) ..) ..) ..) ..

theorem regsOnly_showGuard (s : State) (p : PDie) (g : Guard) : RegsOnly s (s.showGuard p g) :=
  ((regsOnly_setFld ..).trans (regsOnly_setFld ..)).trans (regsOnly_setFld ..)

/-- The port dies after a keeper's state was set. -/
theorem port_setNet (s : State) (n : NetId) (x : Net) (q : PDie) : (s.setNet n x).port q = match n with
    | .ctl p => if q = p then { s.port p with net := x } else s.port q
    | .gd p => if q = p then { s.port p with guard := { (s.port p).guard with net := x } } else s.port q := by
  cases n with
  | ctl p =>
    obtain ⟨_, h⟩ := regsOnly_showCtl (s.setPort p { s.port p with net := x }) p x
    simp only [State.setNet]
    rw [h]
    exact port_setPort ..
  | gd p =>
    obtain ⟨_, h⟩ := regsOnly_showGuard (s.setPort p { s.port p with guard := { (s.port p).guard with net := x } }) p
      { (s.port p).guard with net := x }
    simp only [State.setNet, State.setGuard]
    rw [h]
    exact port_setPort ..

@[simp] theorem net_setNet_same (s : State) (n : NetId) (x : Net) : (s.setNet n x).net n = x := by
  cases n <;> simp [State.net, port_setNet]

theorem net_setNet_other (s : State) {n m : NetId} (x : Net) (h : m ≠ n) : (s.setNet n x).net m = s.net m := by
  cases n with
  | ctl p => cases m with
    | ctl q =>
      have hq : q ≠ p := fun e => h (by rw [e])
      simp [State.net, port_setNet, hq]
    | gd q => by_cases hq : q = p <;> simp [State.net, port_setNet, hq]
  | gd p => cases m with
    | gd q =>
      have hq : q ≠ p := fun e => h (by rw [e])
      simp [State.net, port_setNet, hq]
    | ctl q => by_cases hq : q = p <;> simp [State.net, port_setNet, hq]

theorem keepsNet_setReg64 (s : State) (x : RUnit) (lo : Nat) (v : Dword) : KeepsNet s (s.setReg64 x lo v) :=
  RegsOnly.keepsNet (((RegsOnly.refl s).setReg ..).setReg ..)

theorem keepsNet_trigAdvance (s : State) (p : PDie) (i : Nat) : KeepsNet s (s.trigAdvance p i) := by
  rw [State.trigAdvance]
  split
  · exact RegsOnly.keepsNet (regsOnly_setFlag ..)
  · exact ((keepsNet_setReg64 ..).trans (RegsOnly.keepsNet (regsOnly_setFld ..))).trans (keepsNet_setPort _ p rfl rfl)

theorem keepsNet_trigStep (s : State) (p : PDie) : KeepsNet s (s.trigStep p) := by
  refine keepsNet_foldl (fun t i => ?_) _ s
  split
  · have hpaid : KeepsNet (t.trigAdvance p i) ((t.trigAdvance p i).trigPaid p i) := keepsNet_setPort _ p rfl rfl
    exact ((keepsNet_trigAdvance t p i).trans hpaid).trans (keepsNet_setPort _ p rfl rfl)
  · exact .refl t

/-! ### Cold start -/

/-- The channel's own keeper after the start of a cold start. -/
theorem net_coldStart (s : State) (p : PDie) : (s.coldStart p).net (.ctl p) = s.enterCold (.ctl p) (s.net (.ctl p)) := by
  rw [State.coldStart, (keepsNet_trigStep ..).net, (keepsNet_beginCycle ..).net, (keepsNet_ktnState ..).net, net_setNet_same]

section
variable {p : PDie}

theorem exec_listenTimeout (hon : s.chOn p = true) (hdue : s.listenDue (.ctl p) = true) : exec (.listenTimeout p) s =
    .next (if (s.net (.ctl p)).phase = .listen then
        (if s.ttCsNode (.ctl p) then s.coldStart p
         else s.setNet (.ctl p) { s.net (.ctl p) with since := (s.net (.ctl p)).clock })
      else if (s.net (.ctl p)).phase = .integrate ∨ (s.net (.ctl p)).phase = .adopted then s.loseSync (.ctl p)
      else s) := by
  show execListenTimeout p s = _
  simp only [execListenTimeout, hon, hdue, Bool.not_true, Bool.or_self, Bool.false_eq_true, if_false, State.loseSync]
  cases (s.net (.ctl p)).phase <;> simp

theorem time_enterCold (n : NetId) (x : Net) (h : x.time.toNat + 1000 < 2 ^ 64) : (s.enterCold n x).time.toNat % 1000 = 0 := by
  have hup : ∀ b, b ≤ 1 → (BitVec.ofNat 64 ((x.time.toNat + b + 999) / 1000 * 1000)).toNat % 1000 = 0 := fun b hb => by
    have hlt : (x.time.toNat + b + 999) / 1000 * 1000 < 2 ^ 64 := by omega
    rw [BitVec.toNat_ofNat, Nat.mod_eq_of_lt hlt]
    exact Nat.mul_mod_left ..
  exact hup _ (by split <;> decide)

/-- Settles O41: every time-out is one comparison with the keeper's clock. -/
theorem channelStatesFollowTheirTimeouts : Obligations.ChannelStatesFollowTheirTimeouts := by
  intro p s hon
  refine ⟨fun hdue => ?_, fun hdue => ?_, ?_, fun hb hdue => ?_, fun hno => ?_, ?_, fun hh hmax => ?_, fun hno => ?_, ⟨rfl, rfl, rfl⟩,
    fun c hc => ⟨fun hle => ?_, fun hlt => ?_⟩, fun hc => ?_⟩
  · rw [exec_listenTimeout hon hdue]
    refine ⟨fun hph hcs => ⟨s.coldStart p, by rw [if_pos hph, if_pos hcs], ?_⟩, fun hph hcs => ?_, fun hph => ?_, fun hph => ?_⟩
    · rw [net_coldStart]
      exact ⟨rfl, rfl, rfl, rfl, rfl, by simp, time_enterCold _ _⟩
    · rw [if_pos hph, if_neg (by simp [hcs])]
    · have hl : (s.net (.ctl p)).phase ≠ .listen := by rcases hph with h | h <;> simp [h]
      rw [if_neg hl, if_pos hph]
      rfl
    · have hl : (s.net (.ctl p)).phase ≠ .listen ∧ ¬((s.net (.ctl p)).phase = .integrate ∨ (s.net (.ctl p)).phase = .adopted) := by
        rcases hph with h | h | h | h | h <;> simp [h]
      rw [if_neg hl.1, if_neg hl.2]
  · exact congrArg Host.Outcome.next (if_pos (by simp [hdue]))
  · rw [State.listenDue, decide_eq_true_iff, State.listenNs, Nat.add_assoc]
  · refine ⟨s.coldStart p, congrArg Host.Outcome.next (if_pos (by simp [hon, hb, hdue])), ?_⟩
    rw [net_coldStart]
    exact ⟨rfl, rfl, by simp⟩
  · exact congrArg Host.Outcome.next (if_neg (by rcases hno with h | h <;> simp [h]))
  · rw [State.backoffDue, decide_eq_true_iff, State.backoffNs]
  · exact congrArg Host.Outcome.next (if_pos (by simp [hon, hh, hmax]))
  · exact congrArg Host.Outcome.next (if_neg (by rcases hno with h | h <;> simp [h]))
  · exact congrArg Host.Outcome.next (if_pos (by simp [hon, State.conflictOver, hc, hle]))
  · exact congrArg Host.Outcome.next (if_neg (by simp [hon, State.conflictOver, hc, hlt]))
  · exact congrArg Host.Outcome.next (if_neg (by simp [State.conflictOver, hc]))

end

end

end Sys2Proof.Machine
end

-- ==== Proofs: cycles and modes of a channel ====
section
/-! Cycles of a KTN channel and mode changes (R199, R210, R211, R214, R242 to R249). -/

namespace Sys2Proof.Machine

/-- A command of a master acts at a register that it reaches. -/
theorem atUnit_of_reaches {s t : State} {m : Master} {u : RUnit} {off : Nat} (h : s.reachesUnit m u off) : s.atUnit m u off t = t := by
  obtain ⟨habs, d, hd, hf⟩ := h
  rw [State.atUnit, if_neg (by simp [habs])]
  simp only [hd, hf, Bool.false_eq_true, if_false]

section
variable {s : State} {p : PDie}

/-! ### The return to ACTIVE -/

theorem keepsNet_setGw (s : State) (p : PDie) (g : Gallery) : KeepsNet s (s.setGw p g) := keepsNet_setPort s p rfl rfl

theorem keepsNet_trigAction (s : State) (p : PDie) (i : Nat) : KeepsNet s (s.trigAction p i) := by
  simp only [State.trigAction]
  split
  · exact .refl s
  · split <;> exact keepsNet_setPort s p rfl rfl

theorem keepsNet_bump (s : State) (u : RUnit) (off hi lo : Nat) : KeepsNet s (s.bump u off hi lo) :=
  RegsOnly.keepsNet (regsOnly_setFld ..)

theorem keepsNet_raiseP (s : State) (p : PDie) (k : Strand) (off : Nat) : KeepsNet s (s.raiseP p k off) := by
  obtain ⟨_, _, _, h⟩ := raiseP_frame s p k off
  rw [h]
  exact keepsNet_of_ports rfl

theorem keepsNet_gaveUp (s : State) (p : PDie) (g : Bool) (ev : GwEvent) : KeepsNet s (s.gaveUp p g ev) := by
  cases ev with
  | trigger i f =>
    simp only [State.gaveUp]
    split
    · exact keepsNet_raiseP ..
    · exact .refl s
  | _ => exact .refl s

theorem keepsNet_queueEvent (s : State) (p : PDie) (g : Bool) (ev : GwEvent) : KeepsNet s (s.queueEvent p g ev).1 := by
  simp only [State.queueEvent]
  split
  · exact .refl s
  · split
    · exact keepsNet_bump ..
    · have hq : KeepsNet s (s.setGwQueue p g ((enqueue s.ns ev (s.gwQueue p g)).take 256)) := keepsNet_setGw ..
      split
      · exact hq
      · split
        · exact hq.trans (keepsNet_bump ..)
        · exact (hq.trans (keepsNet_bump ..)).trans (keepsNet_gaveUp ..)

theorem keepsNet_trigEffect (s : State) (p : PDie) (i : Nat) : KeepsNet s (s.trigEffect p i) := by
  have hact := (keepsNet_trigAction s p i).trans
    (keepsNet_setGw _ p { (s.trigAction p i).gw p with firing := ((s.trigAction p i).gw p).firing + 1 })
  simp only [State.trigEffect]
  split
  · exact ((hact.trans (keepsNet_queueEvent ..)).trans (keepsNet_queueEvent ..)).trans (keepsNet_raiseP ..)
  · exact (hact.trans (keepsNet_queueEvent ..)).trans (keepsNet_queueEvent ..)

theorem keepsNet_trigPaid (s : State) (p : PDie) (i : Nat) : KeepsNet s (s.trigPaid p i) := keepsNet_setPort s p rfl rfl

theorem keepsNet_trigReturn (s : State) (p : PDie) : KeepsNet s (s.trigReturn p) := by
  refine keepsNet_foldl (fun t i => ?_) _ s
  split
  · exact ((keepsNet_trigAdvance t p i).trans (keepsNet_trigPaid ..)).trans (keepsNet_trigEffect ..)
  · split
    · exact (keepsNet_trigPaid t p i).trans (keepsNet_trigEffect ..)
    · exact .refl t

/-! ### Cycle ends -/

/-- Only the pending change of mode differs. -/
theorem agreeMode_eq (s : State) (n : NetId) (x : Net) : ∃ pd, s.agreeMode n x = { x with pend := pd } := by
  simp only [State.agreeMode]
  split
  · split
    · split
      · split
        · exact ⟨_, rfl⟩
        · split
          · exact ⟨x.pend, rfl⟩
          · exact ⟨_, rfl⟩
      · exact ⟨_, rfl⟩
    · exact ⟨x.pend, rfl⟩
  · exact ⟨x.pend, rfl⟩

theorem keepsNet_showMid (s : State) (n : NetId) (m : Int) (k : Nat) : KeepsNet s (s.showMid n m k) := by
  cases n with
  | ctl p => exact keepsNet_setReg ..
  | gd p => exact .refl s

theorem net_loseSync (s : State) (n : NetId) : (s.loseSync n).net n = relisten (s.net n) := by
  rw [State.loseSync, (keepsNet_ktnState ..).net, net_setNet_same]

/-- What noting the members leaves. -/
theorem net_noteMembers (s : State) (n : NetId) : ∃ ms ch, (s.noteMembers n).net n = { s.net n with members := ms, changed := ch } := by
  rw [State.noteMembers, net_setNet_same]
  exact ⟨_, _, rfl⟩

section
variable {n : NetId}

/-- The end of a cycle in ACTIVE, by what was heard in it. -/
theorem net_endActive (s : State) (n : NetId) :
    (s.modeMismatch n (s.net n) = true → ((s.endActive n).net n).phase = .listen) ∧
    (s.modeMismatch n (s.net n) = false → s.offsets n ≠ [] →
      (inLimit (midpoint (s.offsets n)) = true → ((s.endActive n).net n).phase = (s.net n).phase ∧
        ((s.endActive n).net n).slew = clampInt (-slewMax) slewMax (midpoint (s.offsets n))) ∧
      (inLimit (midpoint (s.offsets n)) = false → ((s.endActive n).net n).phase = .listen)) ∧
    (s.modeMismatch n (s.net n) = false → s.offsets n = [] → s.offTime n = true → ((s.endActive n).net n).phase = .listen) ∧
    (s.modeMismatch n (s.net n) = false → s.offsets n = [] → s.offTime n = false → s.ttSyncNode n = false →
      heardIn (s.net n) (s.net n).cycle = false → heardIn (s.net n) ((s.net n).cycle - 1) = false →
      ((s.endActive n).net n).phase = .holdover ∧ ((s.endActive n).net n).hcount = 0) := by
  refine ⟨fun hm => ?_, fun hm ho => ⟨fun hl => ?_, fun hl => ?_⟩, fun hm ho ht => ?_, fun hm ho ht hs h1 h2 => ?_⟩
  · simp only [State.endActive, hm, if_true, net_loseSync]
    rfl
  · obtain ⟨pd, hag⟩ := agreeMode_eq s n (s.correct n (s.net n) (midpoint (s.offsets n)))
    simp only [State.endActive, hm, Bool.false_eq_true, if_false, ho, ne_eq, not_false_eq_true, if_true, hl,
      (keepsNet_showMid ..).net, net_setNet_same, hag]
    exact ⟨rfl, rfl⟩
  · simp only [State.endActive, hm, Bool.false_eq_true, if_false, ho, ne_eq, not_false_eq_true, if_true, hl, net_loseSync]
    rfl
  · simp only [State.endActive, hm, Bool.false_eq_true, if_false, ho, ne_eq, not_true_eq_false, ht, if_true, net_loseSync]
    rfl
  · simp only [State.endActive, hm, Bool.false_eq_true, if_false, ho, ne_eq, not_true_eq_false, ht, hs, h1, h2, Bool.not_false,
      Bool.and_self, if_true, (keepsNet_ktnState ..).net, net_setNet_same, and_self]

/-- The end of a cycle in HOLDOVER. -/
theorem net_endHoldover (s : State) (n : NetId) (hm : s.modeMismatch n (s.net n) = false) :
    (activeSet (s.net n) (s.syncList n) = [] ∨ s.offsets n = [] →
      ((s.endHoldover n).net n).phase = (s.net n).phase ∧ ((s.endHoldover n).net n).hcount = (s.net n).hcount + 1) ∧
    (activeSet (s.net n) (s.syncList n) ≠ [] → s.offsets n ≠ [] → inLimit (midpoint (s.offsets n)) = true →
      ((s.endHoldover n).net n).phase = .active ∧ ((s.endHoldover n).net n).hcount = 0) := by
  refine ⟨fun hno => ?_, fun ha ho hl => ?_⟩
  · have hcond : ¬(activeSet (s.net n) (s.syncList n) ≠ [] ∧ s.offsets n ≠ []) := fun ⟨h1, h2⟩ => hno.elim h1 h2
    obtain ⟨pd, hag⟩ := agreeMode_eq s n (s.net n)
    simp only [State.endHoldover, hm, Bool.false_eq_true, if_false, hcond, net_setNet_same, hag, and_self]
  · simp only [State.endHoldover, hm, Bool.false_eq_true, if_false, ha, ho, ne_eq, not_false_eq_true, and_self, if_true, hl,
      (keepsNet_ktnState ..).net, (keepsNet_showMid ..).net, net_setNet_same]

/-- The end of a cycle changes the channel's keeper as `State.endCycle` does: what is due at a return to ACTIVE leaves the keepers. -/
theorem exec_cycleEndSync (hon : s.chOn p = true) : ∃ t, exec (.cycleEndSync p) s = .next t ∧
    KeepsNet ((s.copySettle p).endCycle p) t ∧
    (((s.copySettle p).endCycle p) = s.copySettle p → t = s.copySettle p) := by
  refine ⟨_, congrArg Host.Outcome.next (if_neg (by simp [hon])), ?_⟩
  dsimp only
  split
  case isTrue h => exact ⟨keepsNet_trigReturn .., fun he => absurd (by rw [← he]; exact h.2) h.1⟩
  case isFalse h => exact ⟨.refl _, id⟩

end

/-! ### Cycle starts -/

theorem keepsNet_judgeRequest (s : State) (p : PDie) (due : Option ModeChange) : KeepsNet s (s.judgeRequest p due) := by
  rw [State.judgeRequest]
  split
  · split
    · exact .refl s
    · refine KeepsNet.trans ?_ (RegsOnly.keepsNet (regsOnly_setFld ..))
      exact keepsNet_setPort s p rfl rfl
  · exact .refl s

/-- The next cycle up to the switch of mode that it announces. -/
def State.cycleCounted (s : State) (p : PDie) : State :=
  let due := dueChange (s.net (.ctl p)) ((s.net (.ctl p)).cycle + 1)
  let t := (s.setNet (.ctl p) (s.startNetCycle (.ctl p))).judgeRequest p due
  match due with
  | some c => if c.agreed then t.raisePAll p 57 else t
  | none => t

theorem nextCycle_eq (s : State) (p : PDie) : s.nextCycle p = (s.cycleCounted p).beginCycle p := rfl

theorem net_cycleCounted (s : State) (p : PDie) : (s.cycleCounted p).net (.ctl p) = s.startNetCycle (.ctl p) := by
  simp only [State.cycleCounted]
  split
  · split
    · rw [(keepsNet_raisePAll ..).net, (keepsNet_judgeRequest ..).net, net_setNet_same]
    · rw [(keepsNet_judgeRequest ..).net, net_setNet_same]
  · rw [(keepsNet_judgeRequest ..).net, net_setNet_same]

theorem reg_foldl_of_each {α : Type} {f : State → α → State} {u : RUnit} {off : Nat} {xs : List α}
    (hf : ∀ x ∈ xs, ∀ t, (f t x).reg u off = t.reg u off) (s : State) : (xs.foldl f s).reg u off = s.reg u off := by
  induction xs generalizing s with
  | nil => rfl
  | cons x xs ih =>
    rw [List.foldl_cons, ih fun y hy => hf y (List.mem_cons_of_mem _ hy), hf x List.mem_cons_self]

/-- The registers in which a controller's state shows. -/
def ctlShown : List Nat :=
  [Reg.ttState, Reg.ttCycle, Reg.tbStat, Reg.tbRate, Reg.ttInaug, Reg.ttModeStat] ++ (List.range 8).map Reg.tbSync ++
    Port.list.flatMap fun q => [Reg.tbLink q.idx, Reg.tbNbr q.idx]

/-- A controller's state shows in no other register. -/
theorem reg_showCtl (s : State) (p : PDie) (x : Net) {u : RUnit} {off : Nat} (h : u ≠ p.unit ∨ off ∉ ctlShown) :
    (s.showCtl p x).reg u off = s.reg u off := by
  have hoff : ∀ o ∈ ctlShown, u ≠ p.unit ∨ off ≠ o := fun o ho => h.imp_right fun hn e => hn (e ▸ ho)
  have hone : ∀ o ∈ [Reg.ttState, Reg.ttCycle, Reg.tbStat, Reg.tbRate, Reg.ttInaug, Reg.ttModeStat], u ≠ p.unit ∨ off ≠ o :=
    fun o ho => hoff o (List.mem_append_left _ (List.mem_append_left _ ho))
  simp only [List.forall_mem_cons] at hone
  obtain ⟨h1, h2, h3, h4, h5, h6, -⟩ := hone
  have hsync : ∀ i ∈ List.range 8, ∀ (t : State) (w : Word), (t.setReg p.unit (Reg.tbSync i) w).reg u off = t.reg u off :=
    fun i hi t w => reg_setReg_other _ _ (hoff _ (List.mem_append_left _ (List.mem_append_right _ (List.mem_map_of_mem hi))))
  have hport : ∀ q ∈ Port.list, ∀ o ∈ [Reg.tbLink q.idx, Reg.tbNbr q.idx], u ≠ p.unit ∨ off ≠ o :=
    fun q hq o ho => hoff o (List.mem_append_right _ (List.mem_flatMap.2 ⟨q, hq, ho⟩))
  have hlink : ∀ q ∈ Port.list, ∀ t : State, (((t.setFld p.unit (Reg.tbLink q.idx) 31 30 (x.links.get q).phase.code).setFld
      p.unit (Reg.tbLink q.idx) 15 0 (x.links.get q).delay).setReg p.unit (Reg.tbNbr q.idx) (x.links.get q).nbr).reg u off =
      t.reg u off := fun q hq t => by
    have hq' := hport q hq
    simp only [List.forall_mem_cons] at hq'
    obtain ⟨hl, hn, -⟩ := hq'
    rw [reg_setReg_other _ _ hn, reg_setFld_other _ _ _ _ hl, reg_setFld_other _ _ _ _ hl]
  simp only [State.showCtl]
  split
  all_goals
    rw [reg_setFld_other _ _ _ _ h6, reg_setFld_other _ _ _ _ h6, reg_setFlag_other _ _ _ h6, reg_setReg_other _ _ h5,
      reg_foldl_of_each hlink, reg_foldl_of_each (fun i hi t => hsync i hi t _), reg_setReg_other _ _ h4, reg_setReg_other _ _ h3,
      reg_setReg_other _ _ h2, reg_setReg_other _ _ h1]

theorem reg_setNet_ctl (s : State) (p : PDie) (x : Net) {u : RUnit} {off : Nat} (h : u ≠ p.unit ∨ off ∉ ctlShown) :
    (s.setNet (.ctl p) x).reg u off = s.reg u off := (reg_showCtl _ p x h).trans rfl

theorem reg_cycleCounted_tbCfg (s : State) (p : PDie) : (s.cycleCounted p).reg p.unit Reg.tbCfg = s.reg p.unit Reg.tbCfg := by
  have hjudge : ∀ t due, (State.judgeRequest t p due).reg p.unit Reg.tbCfg = t.reg p.unit Reg.tbCfg := by
    intro t due
    rw [State.judgeRequest]
    split
    · split
      · rfl
      · exact reg_setFld_other _ _ _ _ (.inr (by decide))
    · rfl
  simp only [State.cycleCounted]
  split
  · split
    · rw [State.raisePAll, reg_raiseAll, hjudge, reg_setNet_ctl _ _ _ (.inr (by decide))]
    · rw [hjudge, reg_setNet_ctl _ _ _ (.inr (by decide))]
  · rw [hjudge, reg_setNet_ctl _ _ _ (.inr (by decide))]

theorem beginCycle_takes (s : State) (p : PDie) : ((s.beginCycle p).port p).cfg = s.reg p.unit Reg.tbCfg ∧
    ((s.beginCycle p).port p).heldNow = false := by
  have h : (s.beginCycle p).port p = { s.port p with cfg := s.reg p.unit Reg.tbCfg, heldNow := false } := by
    exact (port_setPort ..).trans (if_pos rfl)
  rw [h]
  exact ⟨rfl, rfl⟩

/-- The mode and the pending change that a cycle starts with. -/
theorem mode_startNetCycle (s : State) (n : NetId) :
    (dueChange (s.net n) ((s.net n).cycle + 1) = none →
      (s.startNetCycle n).mode = (s.net n).mode ∧ (s.startNetCycle n).pend = (s.net n).pend) ∧
    (∀ c, dueChange (s.net n) ((s.net n).cycle + 1) = some c →
      (s.startNetCycle n).mode = (if c.agreed = true then c.echo.target else (s.net n).mode) ∧ (s.startNetCycle n).pend = none) := by
  refine ⟨fun h => ?_, fun c h => ?_⟩
  · simp only [State.startNetCycle, h, Option.isSome_none, Bool.false_eq_true, if_false, and_self]
  · simp only [State.startNetCycle, h, Option.isSome_some, if_true, and_self]

theorem copySettle_of_none (h : (s.net (.ctl p)).wait = none) : s.copySettle p = s := by
  simp only [State.copySettle, State.settle, h]

/-! ### Mode requests -/

theorem exec_modeRequest {k : Strand} {v : Word} (hon : s.chOn p = true) (hr : s.reachesUnit (.strand k) p.unit Reg.ttModeReq) :
    exec (.modeRequest p k v) s = .next (if fieldOf v 31 4 ≠ 0 then s.logRsvd p.unit Reg.ttModeReq (.strand k)
      else s.modeReqWrite p v) := by
  show execModeRequest p k v s = _
  simp only [execModeRequest, atUnit_of_reaches hr, hon, Bool.not_true, Bool.false_eq_true, if_false]

/-- A first request in a node's view is held as the node judges it. -/
theorem pend_takeModeReq {f : KFrame} (h : (s.net (.ctl p)).pend = none) :
    ((s.takeModeReq p f).net (.ctl p)).pend = some ⟨⟨fieldOf (byteAt f.payload 0) 2 0, byteAt f.payload 1,
      BitVec.ofNat 16 (beAt f.payload 2 2)⟩, f.hdr.sender.toNat, f.hdr.cycle, s.modeReqOk (.ctl p) f, false, false⟩ := by
  simp only [State.takeModeReq, h, replaces, Option.isNone_none, ite_self, if_true, net_setNet_same]

/-- Settles O42: cycle starts and ends by what the keeper holds once a waiting copy is used; requests by the first rule broken. -/
theorem cyclesCountAndModesChangeByAgreement : Obligations.CyclesCountAndModesChangeByAgreement := by
  refine ⟨fun p s hon => ⟨copySettle_of_none, fun hph => ?_, fun hph => ?_, ?_⟩, fun p k v s hon => ⟨fun hr => ⟨fun hv => ?_,
    fun hv h3 => ?_, fun hv h3 hph => ?_, fun hv h3 hph hl => ?_, fun hv h3 hph hl hm hne hp hd hown => ?_⟩, fun f hup hk hh hf => ?_,
    fun f hno => ?_, ?_, fun c hc ha he hcy => ?_, fun hn => ?_, fun r hr he hn hcy => ?_, fun hn => ?_⟩⟩
  · exact congrArg Host.Outcome.next (if_neg (fun h => Bool.false_ne_true (hph.symm.trans (Bool.and_eq_true_iff.1 h).2)))
  · refine ⟨((s.copySettle p).cycleCounted p).beginCycle p, congrArg Host.Outcome.next (if_pos (Bool.and_eq_true_iff.2 ⟨hon, hph⟩)), ?_⟩
    rw [(keepsNet_beginCycle ..).net, net_cycleCounted, (beginCycle_takes ..).1, (beginCycle_takes ..).2, reg_cycleCounted_tbCfg]
    obtain ⟨hnone, hsome⟩ := mode_startNetCycle (s.copySettle p) (.ctl p)
    exact ⟨rfl, rfl, rfl, rfl, rfl, rfl, rfl, hnone, hsome, by rw [← nextCycle_eq]; simp⟩
  · obtain ⟨t, hrun, hkeep, hsame⟩ := exec_cycleEndSync hon
    refine ⟨t, hrun, fun hph h5 => ?_, fun hph h5 => hsame ?_, fun hph => ?_, fun hph hm => ?_, fun hph => hsame ?_⟩
    · rw [hkeep.net]
      simp only [State.endCycle, hph, State.endColdStart, h5, if_true, (keepsNet_ktnState ..).net, net_setNet_same]
    · simp only [State.endCycle, hph, State.endColdStart, Nat.not_le.2 h5, if_false]
    · obtain ⟨ms, ch, hmem⟩ := net_noteMembers ((s.copySettle p).endActive (.ctl p)) (.ctl p)
      have he : (s.copySettle p).endCycle p = ((s.copySettle p).endActive (.ctl p)).noteMembers (.ctl p) := by
        simp only [State.endCycle, hph]
      have hend := net_endActive (s.copySettle p) (.ctl p)
      rw [hph] at hend
      rw [hkeep.net, he, hmem]
      exact hend
    · obtain ⟨ms, ch, hmem⟩ := net_noteMembers ((s.copySettle p).endHoldover (.ctl p)) (.ctl p)
      have he : (s.copySettle p).endCycle p = ((s.copySettle p).endHoldover (.ctl p)).noteMembers (.ctl p) := by
        simp only [State.endCycle, hph]
      have hend := net_endHoldover (s.copySettle p) (.ctl p) hm
      rw [hph] at hend
      rw [hkeep.net, he, hmem]
      exact hend
    · rcases hph with h | h | h | h <;> simp only [State.endCycle, h]
  · rw [exec_modeRequest hon hr, if_pos hv]
  · rw [exec_modeRequest hon hr, if_neg (not_not.2 hv), State.modeReqWrite, h3]
    rfl
  · rw [exec_modeRequest hon hr, if_neg (not_not.2 hv)]
    simp only [State.modeReqWrite, h3, hph, Bool.not_true, Bool.false_eq_true, if_false, ne_eq, not_false_eq_true, if_true]
    rfl
  · rw [exec_modeRequest hon hr, if_neg (not_not.2 hv)]
    simp only [State.modeReqWrite, h3, hph, hl, Bool.not_true, Bool.not_false, Bool.false_eq_true, if_false, ne_eq, not_true_eq_false,
      if_true]
    rfl
  · have hne' : (fieldOf v 2 0 == (s.net (.ctl p)).mode) = false := beq_eq_false_iff_ne.2 hne
    rw [exec_modeRequest hon hr, if_neg (not_not.2 hv)]
    simp only [State.modeReqWrite, h3, hph, hl, hm, hne', hp, hd, hown, Bool.not_true, Bool.false_eq_true, if_false, ne_eq,
      not_true_eq_false, Bool.or_self, Option.isSome_none]
  · refine ⟨congrArg Host.Outcome.next (if_pos (by simp [hon, hup, hk, hh, hf])), fun hn => ⟨_, pend_takeModeReq hn, rfl, rfl, rfl, rfl⟩⟩
  · exact congrArg Host.Outcome.next (if_neg (by rcases hno with h | h | h | h <;> simp [h]))
  · exact congrArg Host.Outcome.next (if_pos hon)
  · have hcy' : ((s.net (.ctl p)).cycle == c.echo.cycle - 1) = true := beq_iff_eq.2 hcy
    simp only [State.expireChange, hc, ha, he, hcy', Bool.not_false, Bool.and_self, if_true]
  · simp only [State.expireChange, hn]
  · have hcy' : ((s.port p).net.cycle == r.echo.cycle - 1) = true := beq_iff_eq.2 hcy
    have hn' : (s.port p).net.pend = none := hn
    simp only [State.expireOwn, hr, he, hn', hcy', Bool.not_false, Bool.and_self, if_true]
  · simp only [State.expireOwn, hn]

end

end Sys2Proof.Machine
end

-- ==== Proofs: frames of a channel ====
section
/-! Reception, forwarding and sending of KTN frames (R186 to R188, R192, R203, R214, R235, R239, R257). -/

namespace Sys2Proof.Machine

section
variable {s : State} {p : PDie} {q : Port} {f : KFrame}

/-! ### Reception -/

/-- The receive stamp of a port is latched. -/
def State.stampPort (s : State) (p : PDie) (q : Port) (rx : Dword) : State :=
  s.setPort p { s.port p with rxStamp := (s.port p).rxStamp.set q (some rx) }

theorem net_stampPort (s : State) (p : PDie) (q : Port) (rx : Dword) (n : NetId) : (s.stampPort p q rx).net n = s.net n :=
  (keepsNet_setPort s p (x := { s.port p with rxStamp := (s.port p).rxStamp.set q (some rx) }) rfl rfl).net n

theorem ctl_stampPort (s : State) (p : PDie) (q : Port) (rx : Dword) : ((s.stampPort p q rx).port p).net = (s.port p).net :=
  net_stampPort s p q rx (.ctl p)

theorem isKtn_stampPort (s : State) (p : PDie) (q : Port) (rx : Dword) (n : NetId) (f : KFrame) :
    (s.stampPort p q rx).isKtn n f = s.isKtn n f := rfl

theorem isOwnFrame_stampPort (s : State) (p : PDie) (q : Port) (rx : Dword) (f : KFrame) :
    (s.stampPort p q rx).isOwnFrame p f = s.isOwnFrame p f := by
  simp only [State.isOwnFrame, ctl_stampPort]
  rfl

theorem checkConflict_of_kind (s : State) (p : PDie) (h : f.hdr.kind ≠ kindInaug) : s.checkConflict p f = s :=
  if_neg fun hc => h hc.1

/-- What a channel in a phase other than `off` does with a frame of its own network. -/
theorem exec_frameReceive_ktn (ago : Nat) (ue : Bool) (hd : f.dst ≠ linkAddr) (hon : s.chOn p = true) (hup : s.portUp p q = true)
    (hoff : (s.net (.ctl p)).phase ≠ .off) (hk : s.isKtn (.ctl p) f = true) :
    exec (.frameReceive p q f ago ue) s = .next (
      let u := s.stampPort p q (s.stamp (.ctl p) ago)
      if !headerOk f then (u.bump p.unit Reg.ttErr0 23 16).corrupted p
      else if !f.fcsOk then (u.bump p.unit Reg.ttErr0 31 24).corrupted p
      else if s.isOwnFrame p f then u.checkConflict p f
      else (u.checkConflict p f).frameIn p q f (s.stamp (.ctl p) ago) ue) := by
  have hph : ((s.net (.ctl p)).phase == NetPhase.off) = false := beq_false_of_ne hoff
  rw [← isOwnFrame_stampPort s p q (s.stamp (.ctl p) ago)]
  rw [← net_stampPort s p q (s.stamp (.ctl p) ago)] at hph
  rw [← isKtn_stampPort s p q (s.stamp (.ctl p) ago)] at hk
  refine congrArg Host.Outcome.next ((if_neg hd).trans ((if_neg (by simp [hon, hup])).trans ?_))
  refine if_neg (c := (((s.stampPort p q (s.stamp (.ctl p) ago)).net (.ctl p)).phase == NetPhase.off ||
    !(s.stampPort p q (s.stamp (.ctl p) ago)).isKtn (.ctl p) f) = true) ?_
  rw [hph, hk]
  simp

theorem frameIn_integrated (u : State) (rx : Dword) (ue : Bool) (h : (u.net (.ctl p)).phase = .active ∨ (u.net (.ctl p)).phase = .holdover) :
    u.frameIn p q f rx ue = u.frameActive p q f rx ue := by
  rcases h with h | h <;> simp only [State.frameIn, h]

/-! ### Forwarding -/

theorem exec_frameForward_ktn (ago r : Nat) (hd : f.dst ≠ linkAddr) (hon : s.chOn p = true) (hup : s.portUp p q = true)
    (hoff : (s.net (.ctl p)).phase ≠ .off) :
    exec (.frameForward p q f ago r) s = .next (
      if !s.isKtn (.ctl p) f then s.bump p.unit Reg.ttErr0 15 8
      else if !headerOk f then s
      else
        let t := if f.hdr.hop.toNat = 127 then s.bump p.unit Reg.ttErr1 7 0 else s
        let fits := !t.ktnUp p || t.acceptance (.ctl p) f (s.stamp (.ctl p) ago) (pathDelay (s.net (.ctl p)) f q false) == .ok
        if f.hdr.hop.toNat = 127 || t.notForwarded p f || !fits || !t.portUp p q.other then t
        else t.passOn p q f (s.stamp (.ctl p) ago) r) :=
  congrArg Host.Outcome.next (if_neg (by simp [hon, hup, beq_false_of_ne hd, beq_false_of_ne hoff]))

theorem passOn_passes {rx : Dword} {r : Nat} (hbusy : s.lineBusy p q.other true (rx + BitVec.ofNat 64 r - 64) = false)
    (hp : s.passesForward p = true) : s.passOn p q f rx r = s.setPort p { s.port p with
      line := (s.port p).line.set q.other (some ⟨forwarded (s.net (.ctl p)) q f r, rx + BitVec.ofNat 64 r - 64, false⟩) } :=
  (if_neg (ne_true_of_eq_false hbusy)).trans (if_pos hp)

theorem passOn_held {rx : Dword} {r : Nat} (hbusy : s.lineBusy p q.other true (rx + BitVec.ofNat 64 r - 64) = false)
    (hp : s.passesForward p = false) : s.passOn p q f rx r = s :=
  (if_neg (ne_true_of_eq_false hbusy)).trans (if_neg (by simp [hp]))

theorem corr_forwarded (x : Net) (q : Port) (f : KFrame) (r : Nat) : (forwarded x q f r).hdr.corr.toNat =
    min (2 ^ 32 - 1) (f.hdr.corr.toNat + 16 * r + (x.links.get q).delay) := by
  simp only [forwarded, withHcrc, BitVec.toNat_ofNat]
  omega

theorem headBytes_withHcrc (h : KHeader) : headBytes (withHcrc h) = headBytes h := by
  cases h
  simp only [headBytes, withHcrc]

theorem hcrc_withHcrc (h : KHeader) : (withHcrc h).hcrc = crc16 (headBytes (withHcrc h)) := by
  rw [headBytes_withHcrc]
  simp only [withHcrc]

theorem hcrc_forwarded (x : Net) (q : Port) (f : KFrame) (r : Nat) :
    (forwarded x q f r).hdr.hcrc = crc16 (headBytes (forwarded x q f r).hdr) := by
  simp only [forwarded]
  exact hcrc_withHcrc _

/-! ### A line of the port -/

theorem port_setPort_same (s : State) (p : PDie) (x : PortDie) : (s.setPort p x).port p = x := by
  rw [port_setPort, if_pos rfl]

theorem we_get_set {α : Type} (w : WE α) (q : Port) (a : α) : (w.set q a).get q = a := by
  cases q <;> rfl

theorem line_putLine_some (st : Dword) {g : KFrame} (h : s.passes p f st = some g) :
    ((s.putLine p q f st).port p).line.get q = some ⟨g, st, true⟩ := by
  simp only [State.putLine, h, port_setPort_same, we_get_set]

theorem line_putLine_none (st : Dword) (h : s.passes p f st = none) : ((s.putLine p q f st).port p).line.get q = none := by
  simp only [State.putLine, h, port_setPort_same, we_get_set]

end

/-- Settles O43, branch by branch of the reception, the forwarding and the sending of a frame. -/
theorem framesAreCheckedForwardedAndSent : Obligations.FramesAreCheckedForwardedAndSent := by
  intro p q f ago ue s n x rx u
  refine ⟨fun hd => ⟨?_, fun r => ?_⟩, fun hd hoff => ⟨?_, fun r => ?_⟩, fun hd hon hup => ⟨fun h => ?_, fun hoff hk r => ?_, fun hoff hk => ⟨?_, ?_, ?_, ?_, ?_⟩⟩,
    fun hc => ?_, fun hc => ?_, fun r => ⟨?_, ?_, ?_, ?_⟩, fun hon => ⟨?_, ?_, ?_⟩, ?_, ?_⟩
  · exact congrArg Host.Outcome.next (if_pos hd)
  · exact congrArg Host.Outcome.next (if_pos (by simp [hd]))
  · refine congrArg Host.Outcome.next ((if_neg hd).trans (if_pos ?_))
    rcases hoff with h | h <;> simp [h]
  · refine congrArg Host.Outcome.next (if_pos ?_)
    rcases hoff with h | h <;> simp [h]
  · refine congrArg Host.Outcome.next ((if_neg hd).trans ((if_neg (by simp [hon, hup])).trans (if_pos ?_)))
    show ((((s.stampPort p q rx).net n).phase == NetPhase.off) || !(s.isKtn n f)) = true
    rw [net_stampPort]
    rcases h with h | h
    · rw [show (s.net n).phase = NetPhase.off from h]
      rfl
    · rw [h, Bool.not_false, Bool.or_true]
  · rw [exec_frameForward_ktn ago r hd hon hup hoff]
    exact congrArg Host.Outcome.next (if_pos (by simp [show s.isKtn (.ctl p) f = false from hk]))
  · intro hh
    refine ⟨?_, fun r => ?_⟩
    · rw [exec_frameReceive_ktn ago ue hd hon hup hoff hk]
      exact congrArg Host.Outcome.next (if_pos (by simp [hh]))
    · rw [exec_frameForward_ktn ago r hd hon hup hoff]
      exact congrArg Host.Outcome.next ((if_neg (by simp [show s.isKtn (.ctl p) f = true from hk])).trans (if_pos (by simp [hh])))
  · intro hh hfcs
    rw [exec_frameReceive_ktn ago ue hd hon hup hoff hk]
    exact congrArg Host.Outcome.next ((if_neg (by simp [hh])).trans (if_pos (by simp [hfcs])))
  · intro hh hfcs hkind
    have key := exec_frameReceive_ktn ago ue hd hon hup hoff hk
    simp only [checkConflict_of_kind _ _ hkind] at key
    refine ⟨fun hown => ?_, fun hown hph => ?_⟩
    · rw [key]
      exact congrArg Host.Outcome.next ((if_neg (by simp [hh])).trans ((if_neg (by simp [hfcs])).trans (if_pos hown)))
    · rw [key]
      refine congrArg Host.Outcome.next ((if_neg (by simp [hh])).trans ((if_neg (by simp [hfcs])).trans ((if_neg (by simp [hown])).trans ?_)))
      exact frameIn_integrated _ rx ue (by rw [net_stampPort]; exact hph)
  · intro r hh hhop
    rw [exec_frameForward_ktn ago r hd hon hup hoff]
    refine congrArg Host.Outcome.next ((if_neg (by simp [show s.isKtn (.ctl p) f = true from hk])).trans ((if_neg (by simp [hh])).trans ?_))
    simp only [if_pos hhop]
    exact if_pos (by simp [hhop])
  · intro r hh hhop hown hup' hother hbusy
    have key : exec (.frameForward p q f ago r) s = .next (s.passOn p q f rx r) := by
      rw [exec_frameForward_ktn ago r hd hon hup hoff]
      refine congrArg Host.Outcome.next ((if_neg (by simp [show s.isKtn (.ctl p) f = true from hk])).trans ((if_neg (by simp [hh])).trans ?_))
      simp only [if_neg hhop]
      exact if_neg (by simp [hhop, hown, hup', hother])
    rw [key]
    exact ⟨fun hp => congrArg Host.Outcome.next (passOn_passes hbusy hp), fun hp => congrArg Host.Outcome.next (passOn_held hbusy hp)⟩
  · have hx : s.corrupted p = (s.setNet n { x with phase := .backoff, since := x.clock }).ktnState n := if_pos hc
    rw [hx, (keepsNet_ktnState _ n).net n, net_setNet_same]
    exact ⟨rfl, rfl⟩
  · exact if_neg hc
  · rfl
  · exact corr_forwarded x q f r
  · rfl
  · exact hcrc_forwarded x q f r
  · intro i hi
    refine congrArg Host.Outcome.next ((if_neg (by simp [hon])).trans ?_)
    simp only [show s.slotInForce (.ctl p) i = none from hi]
  · intro i sl hi hph
    refine congrArg Host.Outcome.next ((if_neg (by simp [hon])).trans ?_)
    simp only [show s.slotInForce (.ctl p) i = some sl from hi]
    exact if_pos hph
  · intro i sl hi hph
    have hph' : (s.net (.ctl p)).phase = .coldstart := hph
    refine congrArg Host.Outcome.next ((if_neg (by simp [hon])).trans ?_)
    simp only [show s.slotInForce (.ctl p) i = some sl from hi, hph']
    rfl
  · exact fun g st h => line_putLine_some st h
  · exact fun st h => line_putLine_none st h

end Sys2Proof.Machine
end

-- ==== Proofs: inauguration, dropped paths and link delays ====
section
/-! The two keepers of a channel, each on its own: its controller and the guardian in the other die (R225 to R228, R234 to R238,
R246, R253). -/

namespace Sys2Proof.Machine

section
variable {s t u : State} {n m : NetId} {p : PDie} {q : Port}

/-! ### The guardian of a die and its registers stand while the other die's controller works -/

/-- The guardian in a die and the die's registers are the same. -/
structure KeepsGuard (d : PDie) (s t : State) : Prop where
  guard : (t.port d).guard = (s.port d).guard
  reg : ∀ off, t.reg d.unit off = s.reg d.unit off

theorem KeepsGuard.refl (d : PDie) (s : State) : KeepsGuard d s s := ⟨rfl, fun _ => rfl⟩

theorem KeepsGuard.trans {d : PDie} (h : KeepsGuard d s t) (g : KeepsGuard d t u) : KeepsGuard d s u :=
  ⟨g.guard.trans h.guard, fun off => (g.reg off).trans (h.reg off)⟩

theorem KeepsGuard.net {d : PDie} (h : KeepsGuard d s t) : t.net (.gd d) = s.net (.gd d) := congrArg Guard.net h.guard

theorem KeepsGuard.live {d : PDie} (h : KeepsGuard d s t) : t.guardLive d = s.guardLive d := by
  simp only [State.guardLive, State.guard, h.guard]

theorem KeepsGuard.tt {d : PDie} (h : KeepsGuard d s t) (off : Nat) : t.tt (.gd d) off = s.tt (.gd d) off := h.reg _

theorem KeepsGuard.ttf {d : PDie} (h : KeepsGuard d s t) (off hi lo : Nat) : t.ttf (.gd d) off hi lo = s.ttf (.gd d) off hi lo := by
  simp only [State.ttf, h.tt]

theorem KeepsGuard.inaugRound {d : PDie} (h : KeepsGuard d s t) : t.inaugRound (.gd d) = s.inaugRound (.gd d) := by
  simp only [State.inaugRound, h.ttf]

theorem KeepsGuard.viewSettled {d : PDie} (h : KeepsGuard d s t) : t.viewSettled (.gd d) = s.viewSettled (.gd d) := by
  simp only [State.viewSettled, h.net, h.inaugRound]

theorem keepsGuard_of_ports {d : PDie} (h : t.ports = s.ports) (hr : t.regs = s.regs) : KeepsGuard d s t :=
  ⟨by simp only [State.port, h], fun off => reg_of_regs hr _ _⟩

theorem pdie_ne_other (p : PDie) : p.other ≠ p := by cases p <;> decide

theorem unit_other_ne (p : PDie) : p.other.unit ≠ p.unit := by cases p <;> decide

theorem keepsGuard_setPort (s : State) (p : PDie) (x : PortDie) : KeepsGuard p.other s (s.setPort p x) :=
  ⟨by rw [port_setPort, if_neg (pdie_ne_other p)], fun _ => rfl⟩

theorem keepsGuard_setNet (s : State) (p : PDie) (x : Net) : KeepsGuard p.other s (s.setNet (.ctl p) x) :=
  ⟨by rw [port_setNet]; exact congrArg PortDie.guard (if_neg (pdie_ne_other p)),
    fun _ => reg_setNet_ctl s p x (.inl (unit_other_ne p))⟩

theorem keepsGuard_bump (s : State) (p : PDie) (off hi lo : Nat) : KeepsGuard p.other s (s.bump p.unit off hi lo) :=
  ⟨rfl, fun _ => reg_setFld_other _ _ _ _ (.inl (unit_other_ne p))⟩

theorem keepsGuard_ktnState (s : State) (p d : PDie) : KeepsGuard d s (s.ktnState (.ctl p)) := by
  obtain ⟨_, _, _, h⟩ := raisePAll_frame s p 56
  rw [show s.ktnState (.ctl p) = _ from h]
  exact keepsGuard_of_ports rfl rfl

theorem keepsGuard_logP (s : State) (p d : PDie) (c : LogCode) (arg : List Nat) : KeepsGuard d s (s.logP p c arg) := by
  obtain ⟨_, h⟩ := logEv_frame s (Die.logSrc (Die.ofPDie p)) none c arg
  rw [show s.logP p c arg = _ from h]
  exact keepsGuard_of_ports rfl rfl

/-! ### Links and records of a keeper -/

theorem noteEnds_eq (s : State) (x : Net) : ∃ e, s.noteEnds x = { x with endless := e } := by
  rw [State.noteEnds]
  split <;> exact ⟨_, rfl⟩

/-- A view taken anew leaves records and links. -/
theorem review_eq (s : State) (n : NetId) :
    ∃ y, s.review n = s.setNet n y ∧ y.records = (s.net n).records ∧ y.links = (s.net n).links := by
  obtain ⟨e, he⟩ := noteEnds_eq s (s.net n)
  by_cases hv : s.viewOfLine n (s.noteEnds (s.net n)) = (s.noteEnds (s.net n)).view
  · exact ⟨_, if_pos hv, by rw [he], by rw [he]⟩
  · refine ⟨_, if_neg hv, ?_, ?_⟩ <;> simp only [he]

theorem net_review_setNet (s : State) (n : NetId) (x : Net) :
    (((s.setNet n x).review n).net n).records = x.records ∧ (((s.setNet n x).review n).net n).links = x.links := by
  obtain ⟨y, h, hr, hl⟩ := review_eq (s.setNet n x) n
  rw [net_setNet_same] at hr hl
  rw [h, net_setNet_same]
  exact ⟨hr, hl⟩

theorem net_review_setNet_other (s : State) (x : Net) (h : m ≠ n) : ((s.setNet n x).review n).net m = s.net m := by
  obtain ⟨_, h', -, -⟩ := review_eq (s.setNet n x) n
  rw [h', net_setNet_other _ _ h, net_setNet_other _ _ h]

theorem keepsGuard_review_setNet (s : State) (p : PDie) (x : Net) :
    KeepsGuard p.other s ((s.setNet (.ctl p) x).review (.ctl p)) := by
  obtain ⟨_, h, -, -⟩ := review_eq (s.setNet (.ctl p) x) (.ctl p)
  rw [h]
  exact (keepsGuard_setNet s p x).trans (keepsGuard_setNet _ p _)

theorem get_set_other {α : Type} (w : WE α) (q : Port) (a : α) : (w.set q a).get q.other = w.get q.other := by
  cases q <;> rfl

theorem links_netLink (s : State) (n : NetId) (q : Port) (b : Bool) : (((s.netLink n q b).net n).links.get q).up = b ∧
    (((s.netLink n q b).net n).links.get q).phase = (if b = true then .provisional else .down) ∧
    ((s.netLink n q b).net n).links.get q.other = (s.net n).links.get q.other := by
  have h : ((s.netLink n q b).net n).links =
      (s.net n).links.set q (linkChange ((s.net n).links.get q) b (s.linkDef n) (s.net n).run) := (net_review_setNet s n _).2
  rw [h, we_get_set, get_set_other]
  cases b <;> exact ⟨rfl, rfl, rfl⟩

theorem guardOf_ne_ctl (p : PDie) : guardOf p ≠ .ctl p := nofun

/-- A command that the controller and its guardian each carry out on their own: neither sees what the other did. -/
theorem keepers_apart (s : State) (p : PDie) (a : Bool) {F G : State → State} (hF : KeepsGuard p.other s (F s))
    (hG : ∀ t, (G t).net (.ctl p) = t.net (.ctl p)) :
    let t := if a then F s else s
    let r := if t.guardLive p.other then G t else t
    (a = true → r.net (.ctl p) = (F s).net (.ctl p)) ∧ (a = false → r.net (.ctl p) = s.net (.ctl p)) ∧
    (s.guardLive p.other = true → ∃ u, KeepsGuard p.other s u ∧ r.net (guardOf p) = (G u).net (guardOf p)) ∧
    (s.guardLive p.other = false → r.net (guardOf p) = s.net (guardOf p)) := by
  intro t r
  have ht : KeepsGuard p.other s t := by
    show KeepsGuard p.other s (if a then F s else s)
    split
    · exact hF
    · exact .refl _ s
  have hr : r.net (.ctl p) = t.net (.ctl p) := by
    show State.net (if t.guardLive p.other then G t else t) _ = _
    split
    · exact hG t
    · rfl
  refine ⟨fun h => ?_, fun h => ?_, fun h => ⟨t, ht, ?_⟩, fun h => ?_⟩
  · rw [hr]
    show State.net (if a then F s else s) _ = _
    rw [h, if_pos rfl]
  · rw [hr]
    show State.net (if a then F s else s) _ = _
    rw [h, if_neg Bool.false_ne_true]
  · show State.net (if t.guardLive p.other then G t else t) _ = _
    rw [ht.live, h, if_pos rfl]
  · show State.net (if t.guardLive p.other then G t else t) _ = _
    rw [ht.live, h, if_neg Bool.false_ne_true]
    exact ht.net

/-- A guardian for which nothing is due stands. -/
theorem guard_stands {G : State → State} {due : Net → Bool} (hG : ∀ w : State, due (w.net (guardOf p)) = false → G w = w)
    (hl : s.guardLive p.other = true → ∃ u, KeepsGuard p.other s u ∧ t.net (guardOf p) = (G u).net (guardOf p))
    (hd : s.guardLive p.other = false → t.net (guardOf p) = s.net (guardOf p))
    (h : s.guardLive p.other = false ∨ due (s.net (guardOf p)) = false) : t.net (guardOf p) = s.net (guardOf p) := by
  cases hlive : s.guardLive p.other with
  | false => exact hd hlive
  | true =>
    obtain ⟨w, hw, hr⟩ := hl hlive
    have hnet : w.net (guardOf p) = s.net (guardOf p) := hw.net
    rw [hr, hG w (by rw [hnet]; exact h.resolve_left (by simp [hlive])), hnet]

theorem ctl_ne_guardOf (p : PDie) : NetId.ctl p ≠ guardOf p := nofun

theorem records_expire (s : State) (p : PDie) : ∃ t, exec (.inaugRecordExpire p) s = .next t ∧
    (s.chOn p = true → (t.net (.ctl p)).records =
      (s.net (.ctl p)).records.filter fun r => decide ((s.net (.ctl p)).total < r.at' + 2 * s.inaugRound (.ctl p))) ∧
    (s.chOn p = false → t.net (.ctl p) = s.net (.ctl p)) ∧
    (s.guardLive p.other = true → (t.net (guardOf p)).records = (s.net (guardOf p)).records.filter fun r =>
      decide ((s.net (guardOf p)).total < r.at' + 2 * s.inaugRound (guardOf p))) ∧
    (s.guardLive p.other = false → t.net (guardOf p) = s.net (guardOf p)) := by
  obtain ⟨h1, h2, h3, h4⟩ := keepers_apart s p (s.chOn p) (F := fun t => t.expireRecords (.ctl p))
    (G := fun t => t.expireRecords (guardOf p)) (keepsGuard_review_setNet s p _)
    (fun t => net_review_setNet_other t _ (ctl_ne_guardOf p))
  refine ⟨_, rfl, fun h => ?_, h2, fun h => ?_, h4⟩
  · rw [h1 h]
    exact (net_review_setNet s (.ctl p) _).1
  · obtain ⟨u, hu, hr⟩ := h3 h
    rw [hr]
    refine (net_review_setNet u (guardOf p) _).1.trans ?_
    rw [show u.net (guardOf p) = s.net (guardOf p) from hu.net, show u.inaugRound (guardOf p) = s.inaugRound (guardOf p) from hu.inaugRound]

/-! ### Dropped paths -/

theorem undrop_eq (s : State) (n : NetId) (node : Nat) : ∃ y, (s.undrop n node = s ∨ s.undrop n node = s.setNet n y) := by
  simp only [State.undrop]
  (repeat' split) <;> first | exact ⟨s.net n, .inl rfl⟩ | exact ⟨_, .inr rfl⟩

theorem net_undrop_other (s : State) (node : Nat) (h : m ≠ n) : (s.undrop n node).net m = s.net m := by
  obtain ⟨y, he | he⟩ := undrop_eq s n node
  · rw [he]
  · rw [he, net_setNet_other _ _ h]

theorem keepsGuard_undrop (s : State) (p : PDie) (node : Nat) : KeepsGuard p.other s (s.undrop (.ctl p) node) := by
  obtain ⟨y, he | he⟩ := undrop_eq s (.ctl p) node
  · rw [he]
    exact .refl _ s
  · rw [he]
    exact keepsGuard_setNet s p y

theorem dropAt_modifySync (x : Net) {i c : Nat} (h : (((x.syncs[i]?).getD emptySyncRec).dropAt) = some c) :
    (((((modifySync x i (fun r => { r with dropAt := none })).syncs)[i]?).getD emptySyncRec).dropAt) = none := by
  cases hi : x.syncs[i]? with
  | none =>
    rw [hi] at h
    cases h
  | some r =>
    obtain ⟨hlt, -⟩ := List.getElem?_eq_some_iff.1 hi
    simp only [modifySync, List.getElem?_set_self hlt, Option.getD_some]

theorem net_undrop (s : State) {node i c : Nat} (hi : s.syncIndex n node = some i)
    (hd : (((s.net n).syncs[i]?).getD emptySyncRec).dropAt = some c) :
    (c + 64 ≤ (s.net n).total → ((((s.undrop n node).net n).syncs[i]?).getD emptySyncRec).dropAt = none ∧
      ((s.undrop n node).net n).changed = true) ∧
    ((s.net n).total < c + 64 → (s.undrop n node).net n = s.net n) := by
  refine ⟨fun h => ?_, fun h => ?_⟩
  · simp only [State.undrop, hi, hd, if_pos h, net_setNet_same]
    exact ⟨dropAt_modifySync _ hd, trivial⟩
  · simp only [State.undrop, hi, hd, if_neg (Nat.not_le_of_lt h)]

theorem KeepsGuard.syncIndex {d : PDie} (h : KeepsGuard d s t) (node : Nat) : t.syncIndex (.gd d) node = s.syncIndex (.gd d) node := by
  simp only [State.syncIndex, State.syncList, State.idList, h.ttf]

theorem paths_undrop (s : State) (p : PDie) (node : Byte) : ∃ t, exec (.pathDropExpire p node) s = .next t ∧
    ∀ n i c, (n = .ctl p ∧ s.chOn p = true) ∨ (n = guardOf p ∧ s.guardLive p.other = true) →
      s.syncIndex n node.toNat = some i → (((s.net n).syncs[i]?).getD emptySyncRec).dropAt = some c →
      (c + 64 ≤ (s.net n).total →
        (((t.net n).syncs[i]?).getD emptySyncRec).dropAt = none ∧ (t.net n).changed = true) ∧
      ((s.net n).total < c + 64 → t.net n = s.net n) := by
  obtain ⟨h1, h2, h3, h4⟩ := keepers_apart s p (s.chOn p) (F := fun t => t.undrop (.ctl p) node.toNat)
    (G := fun t => t.undrop (guardOf p) node.toNat) (keepsGuard_undrop s p _)
    (fun t => net_undrop_other t _ (ctl_ne_guardOf p))
  refine ⟨_, rfl, ?_⟩
  rintro n i c (⟨rfl, hon⟩ | ⟨rfl, hlive⟩) hi hd
  · rw [h1 hon]
    exact net_undrop s hi hd
  · obtain ⟨u, hu, hr⟩ := h3 hlive
    have hn : u.net (guardOf p) = s.net (guardOf p) := hu.net
    rw [hr, ← hn]
    refine net_undrop u ?_ (by rw [hn]; exact hd)
    rw [show u.syncIndex (guardOf p) node.toNat = _ from hu.syncIndex _]
    exact hi

/-! ### Views that settle -/

theorem settledView_stable (s : State) (n : NetId) : (s.settledView n).stable = true := by
  rw [State.settledView]
  split
  · rw [State.stableView]
    (repeat' split) <;> rfl
  · rfl

theorem stableView_complete (s : State) (n : NetId) (c pos : Nat) : (s.stableView n c pos).count = c ∧ (s.stableView n c pos).pos = pos ∧
    (s.stableView n c pos).stable = true ∧
    (s.ttIdsrc n = true → pos ≠ (s.net n).pos →
      ((s.net n).pos = 0 → (s.stableView n c pos).id = if pos ≤ 128 then pos else 0) ∧
      ((s.net n).pos ≠ 0 → (s.stableView n c pos).newId = some (if pos ≤ 128 then pos else 0) ∧
        (s.stableView n c pos).mute = true ∧ (s.stableView n c pos).id = (s.net n).id)) := by
  by_cases hk : s.ttIdsrc n = false ∨ pos = (s.net n).pos
  · have he : s.stableView n c pos = { s.net n with stable := true, count := c, pos := pos } := if_pos hk
    rw [he]
    refine ⟨rfl, rfl, rfl, fun hs hne => ?_⟩
    rcases hk with h | h
    · rw [hs] at h
      cases h
    · exact absurd h hne
  · by_cases h0 : (s.net n).pos = 0
    · have he : s.stableView n c pos = { s.net n with stable := true, count := c, pos := pos, id := if pos ≤ 128 then pos else 0 } :=
        (if_neg hk).trans (if_pos h0)
      rw [he]
      exact ⟨rfl, rfl, rfl, fun _ _ => ⟨fun _ => rfl, fun h => absurd h0 h⟩⟩
    · have he : s.stableView n c pos = { s.net n with
          stable := true, count := c, pos := pos, newId := some (if pos ≤ 128 then pos else 0), mute := true } :=
        (if_neg hk).trans (if_neg h0)
      rw [he]
      exact ⟨rfl, rfl, rfl, fun _ _ => ⟨fun h => absurd h h0, fun _ => ⟨rfl, rfl, rfl⟩⟩⟩

theorem net_settleView (s : State) (p : PDie) : (s.settleView p).net (.ctl p) = s.settledView (.ctl p) := by
  have hlog : ∀ (t : State) (c : LogCode) (arg : List Nat), (t.logP p c arg).net (.ctl p) = t.net (.ctl p) :=
    fun t c arg => (keepsNet_logEv t _ _ _ _).net _
  simp only [State.settleView]
  (repeat' split) <;> simp only [hlog, (keepsNet_ktnState _ _).net, net_setNet_same]

theorem keepsGuard_settleView (s : State) (p : PDie) : KeepsGuard p.other s (s.settleView p) := by
  have h0 := keepsGuard_setNet s p (s.settledView (.ctl p))
  have hk := h0.trans (keepsGuard_ktnState _ p p.other)
  simp only [State.settleView]
  (repeat' split) <;> simp only [h0, hk, h0.trans (keepsGuard_logP _ ..), hk.trans (keepsGuard_logP _ ..),
    (h0.trans (keepsGuard_logP _ ..)).trans (keepsGuard_logP _ ..), (hk.trans (keepsGuard_logP _ ..)).trans (keepsGuard_logP _ ..)]

theorem port_setGuard (s : State) (p d : PDie) (g : Guard) :
    (s.setGuard p g).port d = if d = p then { s.port p with guard := g } else s.port d := by
  obtain ⟨_, h⟩ := regsOnly_showGuard (s.setPort p { s.port p with guard := g }) p g
  simp only [State.setGuard]
  rw [h]
  exact port_setPort ..

/-- A guardian whose keeper stands. -/
theorem keepsNet_setGuard (s : State) (p : PDie) {g : Guard} (hg : g.net = (s.port p).guard.net) : KeepsNet s (s.setGuard p g) := by
  refine ⟨fun n => ?_⟩
  cases n with
  | ctl d => by_cases h : d = p <;> simp [State.net, port_setGuard, h]
  | gd d => by_cases h : d = p <;> simp [State.net, port_setGuard, h, hg]

theorem net_settleGuardView (s : State) (p : PDie) : (s.settleGuardView p).net (guardOf p) = s.settledView (guardOf p) ∧
    (s.settleGuardView p).net (.ctl p) = s.net (.ctl p) := by
  have h : KeepsNet (s.setNet (guardOf p) (s.settledView (guardOf p))) (s.settleGuardView p) := by
    simp only [State.settleGuardView]
    split
    · exact keepsNet_setGuard _ _ rfl
    · exact .refl _
  rw [h.net, h.net, net_setNet_same, net_setNet_other _ _ (ctl_ne_guardOf p)]
  exact ⟨rfl, rfl⟩

theorem view_settles (s : State) (p : PDie) : ∃ t, exec (.inaugViewStable p) s = .next t ∧
    (s.chOn p = true → s.viewSettled (.ctl p) = true → (t.net (.ctl p)).stable = true ∧
      ∀ c pos, (s.net (.ctl p)).view = .complete c pos → (t.net (.ctl p)).count = c ∧ (t.net (.ctl p)).pos = pos) ∧
    (s.viewSettled (.ctl p) = false → t.net (.ctl p) = s.net (.ctl p)) ∧
    (s.guardLive p.other = true → s.viewSettled (guardOf p) = true → (t.net (guardOf p)).stable = true) := by
  obtain ⟨h1, h2, h3, -⟩ := keepers_apart s p (s.chOn p && s.viewSettled (.ctl p)) (F := fun t => t.settleView p)
    (G := fun t => if t.viewSettled (guardOf p) then t.settleGuardView p else t) (keepsGuard_settleView s p)
    (fun t => by
      show State.net (if _ then _ else _) _ = _
      split
      · exact (net_settleGuardView t p).2
      · rfl)
  refine ⟨if (if s.chOn p && s.viewSettled (.ctl p) then s.settleView p else s).guardLive p.other then _ else _,
    congrArg Host.Outcome.next ?_, fun hon hv => ?_, fun hv => h2 (by simp [hv]), fun hl hv => ?_⟩
  · simp only [Bool.and_eq_true]
    rw [ite_and]
  · rw [h1 (by rw [hon, hv]; rfl), net_settleView]
    refine ⟨settledView_stable s _, fun c pos hc => ?_⟩
    have he : s.settledView (.ctl p) = s.stableView (.ctl p) c pos := by simp only [State.settledView, hc]
    rw [he]
    exact ⟨(stableView_complete s _ c pos).1, (stableView_complete s _ c pos).2.1⟩
  · obtain ⟨u, hu, hr⟩ := h3 hl
    rw [hr]
    show (State.net (if u.viewSettled (guardOf p) then u.settleGuardView p else u) (guardOf p)).stable = true
    rw [show u.viewSettled (guardOf p) = true from hu.viewSettled.trans hv, if_pos rfl, (net_settleGuardView u p).1]
    exact settledView_stable u _

/-! ### Link delay frames go out -/

/-- The cycle in which the frames went out is noted. -/
def State.noteLinkCycle (s : State) (p : PDie) : State :=
  s.setPort p { s.port p with linkSentAt := some (s.net (.ctl p)).total }

theorem linkFrameOf_noteLinkCycle (s : State) (p : PDie) (q : Port) : (s.noteLinkCycle p).linkFrameOf p q = s.linkFrameOf p q := by
  cases p <;> rfl

theorem linkPasses_noteLinkCycle (s : State) (p : PDie) (f : LinkDelayFrame) (st : Dword) :
    (s.noteLinkCycle p).linkPasses p f st = s.linkPasses p f st := by
  cases p <;> rfl

theorem linkStart_noteLinkCycle (s : State) (p : PDie) : (s.noteLinkCycle p).linkStart p = s.linkStart p := by
  cases p <;> rfl

theorem net_noteLinkCycle (s : State) (p : PDie) (n : NetId) : (s.noteLinkCycle p).net n = s.net n :=
  (keepsNet_setPort s p (x := { s.port p with linkSentAt := some (s.net (.ctl p)).total }) rfl rfl).net n

theorem linkFrame_setNet (s : State) (n : NetId) (x : Net) (d : PDie) : ((s.setNet n x).port d).linkFrame = (s.port d).linkFrame ∧
    ((s.setNet n x).port d).linkSentAt = (s.port d).linkSentAt := by
  rw [port_setNet]
  cases n with
  | ctl p => by_cases h : d = p <;> simp [h]
  | gd p => by_cases h : d = p <;> simp [h]

theorem lanes_setNet (s : State) (n : NetId) (x : Net) : (s.setNet n x).lanes = s.lanes ∧ (s.setNet n x).wires = s.wires := by
  cases n with
  | ctl p =>
    obtain ⟨_, h⟩ := regsOnly_showCtl (s.setPort p { s.port p with net := x }) p x
    rw [show s.setNet (.ctl p) x = _ from h]
    exact ⟨rfl, rfl⟩
  | gd p => exact ⟨rfl, rfl⟩

theorem sendLink_spec (s : State) (p : PDie) (q : Port) :
    ((s.sendLink p q).port p).linkFrame = (s.port p).linkFrame.set q (s.linkPasses p (s.linkFrameOf p q) (s.linkStart p)) ∧
    ((s.sendLink p q).port p).linkSentAt = (s.port p).linkSentAt ∧
    (((s.sendLink p q).net (.ctl p)).links.get q).seq = ((s.net (.ctl p)).links.get q).seq + 1 ∧
    (s.sendLink p q).lanes = s.lanes ∧ (s.sendLink p q).wires = s.wires := by
  refine ⟨?_, ?_, ?_, ?_, ?_⟩
  · simp only [State.sendLink, State.noteLinkSent, linkFrame_setNet]
    cases p <;> rfl
  · simp only [State.sendLink, State.noteLinkSent, linkFrame_setNet]
    cases p <;> rfl
  · have hn : ∀ v, State.net (State.useFree (s.setPort p { s.port p with linkFrame := v })) (.ctl p) = s.net (.ctl p) :=
      fun v => by cases p <;> rfl
    simp only [State.sendLink, State.noteLinkSent, net_setNet_other _ _ (ctl_ne_guardOf p), net_setNet_same, hn, setLink, we_get_set]
  · simp only [State.sendLink, State.noteLinkSent, lanes_setNet]
    rfl
  · simp only [State.sendLink, State.noteLinkSent, lanes_setNet]
    rfl

theorem upPorts_single (h : s.portUp p q = true) (ho : s.portUp p q.other = false) : s.upPorts p = [q] := by
  cases q <;> simp_all [State.upPorts, Port.list, Port.other]

theorem exec_linkDelaySend_idle (hx : (s.net (.ctl p)).phase ≠ .adopted ∧ (s.net (.ctl p)).phase ≠ .active ∧
    (s.net (.ctl p)).phase ≠ .holdover ∨ (s.port p).linkSentAt = some (s.net (.ctl p)).total) :
    exec (.linkDelaySend p) s = .next s := by
  refine congrArg Host.Outcome.next (if_pos ?_)
  rcases hx with ⟨h1, h2, h3⟩ | h
  · show (!s.chOn p || !((s.net (.ctl p)).phase == .adopted || (s.net (.ctl p)).phase == .active ||
      (s.net (.ctl p)).phase == .holdover) || _) = true
    rw [beq_false_of_ne h1, beq_false_of_ne h2, beq_false_of_ne h3]
    simp
  · show (_ || (s.port p).linkSentAt == some (s.net (.ctl p)).total) = true
    rw [h, beq_self_eq_true, Bool.or_true]

theorem exec_linkDelaySend_single (hon : s.chOn p = true) (hph : (s.net (.ctl p)).phase = .adopted ∨ (s.net (.ctl p)).phase = .active ∨
    (s.net (.ctl p)).phase = .holdover) (hsent : (s.port p).linkSentAt ≠ some (s.net (.ctl p)).total)
    (h : s.portUp p q = true) (ho : s.portUp p q.other = false) :
    exec (.linkDelaySend p) s = .next ((s.noteLinkCycle p).sendLink p q) := by
  have hports : (s.noteLinkCycle p).upPorts p = [q] :=
    upPorts_single (by rw [State.portUp, show ((s.noteLinkCycle p).port p).net = _ from net_noteLinkCycle s p (.ctl p)]; exact h)
      (by rw [State.portUp, show ((s.noteLinkCycle p).port p).net = _ from net_noteLinkCycle s p (.ctl p)]; exact ho)
  refine congrArg Host.Outcome.next ((if_neg ?_).trans ?_)
  · show ¬ ((!s.chOn p || !((s.net (.ctl p)).phase == .adopted || (s.net (.ctl p)).phase == .active ||
      (s.net (.ctl p)).phase == .holdover) || (s.port p).linkSentAt == some (s.net (.ctl p)).total) = true)
    rw [hon, beq_false_of_ne hsent]
    rcases hph with h | h | h <;> rw [h] <;> decide
  · show List.foldl _ _ ((s.noteLinkCycle p).upPorts p) = _
    rw [hports]
    rfl

theorem linkStart_add (s : State) (p : PDie) :
    s.linkStart p + 1600 = (s.net (.ctl p)).cycleAt + BitVec.ofNat 64 (s.cycleNs (.ctl p) (s.net (.ctl p)).mode) := by
  simp only [State.linkStart, BitVec.sub_add_cancel]
  rfl

/-! ### Link delay frames come in -/

theorem takeLinkFrame_eq (s : State) (n : NetId) (q : Port) (f : LinkDelayFrame) (rx : Dword) :
    ∃ y, (s.takeLinkFrame n q f rx).1 = s.setNet n y := by
  rw [State.takeLinkFrame]
  split
  · exact ⟨_, rfl⟩
  · cases measure ((s.net n).links.get q) f (s.net n).total with
    | none => exact ⟨_, rfl⟩
    | some d => by_cases hd : d < 0 ∨ 32000 < d <;> simp only [hd, if_true, if_false] <;> exact ⟨_, rfl⟩

theorem get_of_setNet {r : State × Bool} {l : LinkState} {b : Bool} (h : r = (s.setNet n (setLink (s.net n) q l), b)) :
    (r.1.net n).links.get q = l := by
  rw [h, net_setNet_same]
  exact we_get_set ..

/-- What a keeper makes of a link delay frame: the link that it then keeps, and whether a measurement was rejected. -/
theorem takeLinkFrame_spec (s : State) (m : NetId) (q : Port) (f : LinkDelayFrame) (rx : Dword) :
    let l := (s.net m).links.get q
    let r := s.takeLinkFrame m q f rx
    let l' := (r.1.net m).links.get q
    l'.got = some (f.seq, (s.net m).total, rx) ∧
    (f.serial ≠ l.nbr → r.2 = false ∧ l'.nbr = f.serial ∧ l'.phase = .provisional ∧ l'.delay = s.linkDef m ∧ l'.meas = []) ∧
    (f.serial = l.nbr → measure l f (s.net m).total = none → r.2 = false ∧ l' = { l with got := l'.got }) ∧
    (∀ d, f.serial = l.nbr → measure l f (s.net m).total = some d →
      (d < 0 ∨ 32000 < d → r.2 = true ∧ l' = { l with got := l'.got }) ∧
      (0 ≤ d → d ≤ 32000 → r.2 = false ∧
        l' = { useMeasure l (inbound d (s.ownAsym m q) f.asym.toInt) (s.net m).run with got := l'.got })) := by
  intro l r l'
  by_cases hs : f.serial ≠ l.nbr
  · have hr : r = (s.setNet m (setLink (s.net m) q { l with
        nbr := f.serial, phase := .provisional, delay := s.linkDef m, meas := [], first := true
        got := some (f.seq, (s.net m).total, rx), measAt := (s.net m).run }), false) := if_pos hs
    have hl := get_of_setNet hr
    exact ⟨congrArg LinkState.got hl, fun _ => ⟨congrArg Prod.snd hr, congrArg LinkState.nbr hl, congrArg LinkState.phase hl,
      congrArg LinkState.delay hl, congrArg LinkState.meas hl⟩, fun h => absurd h hs, fun d h => absurd h hs⟩
  · cases hm : measure ((s.net m).links.get q) f (s.net m).total with
    | none =>
      have hr : r = (s.setNet m (setLink (s.net m) q { l with got := some (f.seq, (s.net m).total, rx) }), false) :=
        (if_neg hs).trans (by simp only [hm]; rfl)
      have hl := get_of_setNet hr
      exact ⟨congrArg LinkState.got hl, fun h => absurd h hs,
        fun _ _ => ⟨congrArg Prod.snd hr, by rw [show l' = _ from hl]⟩, nofun⟩
    | some d =>
      by_cases hd : d < 0 ∨ 32000 < d
      · have hr : r = (s.setNet m (setLink (s.net m) q { l with got := some (f.seq, (s.net m).total, rx) }), true) :=
          (if_neg hs).trans (by simp only [hm, hd, if_true]; rfl)
        have hl := get_of_setNet hr
        refine ⟨congrArg LinkState.got hl, fun h => absurd h hs, nofun, ?_⟩
        rintro d' - hd'
        obtain rfl := Option.some.inj hd'
        refine ⟨fun _ => ⟨congrArg Prod.snd hr, by rw [show l' = _ from hl]⟩, fun h0 h1 => absurd hd ?_⟩
        omega
      · have hr : r = (s.setNet m (setLink (s.net m) q
            { useMeasure l (inbound d (s.ownAsym m q) f.asym.toInt) (s.net m).run with
              got := some (f.seq, (s.net m).total, rx) }), false) := (if_neg hs).trans (by simp only [hm, hd, if_false]; rfl)
        have hl := get_of_setNet hr
        refine ⟨congrArg LinkState.got hl, fun h => absurd h hs, nofun, ?_⟩
        rintro d' - hd'
        obtain rfl := Option.some.inj hd'
        exact ⟨fun h => absurd h hd, fun _ _ => ⟨congrArg Prod.snd hr, by rw [show l' = _ from hl]⟩⟩

theorem takeLinkFrame_congr (hn : t.net n = s.net n) (hd : t.linkDef n = s.linkDef n) (ha : t.ownAsym n q = s.ownAsym n q)
    (f : LinkDelayFrame) (rx : Dword) : (t.takeLinkFrame n q f rx).1.net n = (s.takeLinkFrame n q f rx).1.net n ∧
      (t.takeLinkFrame n q f rx).2 = (s.takeLinkFrame n q f rx).2 := by
  simp only [State.takeLinkFrame, hn, hd, ha]
  split
  · simp only [net_setNet_same, and_self]
  · cases measure ((s.net n).links.get q) f (s.net n).total with
    | none => simp only [net_setNet_same, and_self]
    | some d => by_cases hd : d < 0 ∨ 32000 < d <;> simp only [hd, if_true, if_false, net_setNet_same, and_self]

theorem net_takeLinkFrame_other (s : State) (f : LinkDelayFrame) (rx : Dword) (h : m ≠ n) :
    (s.takeLinkFrame n q f rx).1.net m = s.net m := by
  obtain ⟨y, hy⟩ := takeLinkFrame_eq s n q f rx
  rw [hy, net_setNet_other _ _ h]

theorem keepsGuard_takeLinkFrame (s : State) (p : PDie) (q : Port) (f : LinkDelayFrame) (rx : Dword) :
    KeepsGuard p.other s (s.takeLinkFrame (.ctl p) q f rx).1 := by
  obtain ⟨y, hy⟩ := takeLinkFrame_eq s (.ctl p) q f rx
  rw [hy]
  exact keepsGuard_setNet s p y

theorem rxStamp_setNet (s : State) (n : NetId) (x : Net) (d : PDie) : ((s.setNet n x).port d).rxStamp = (s.port d).rxStamp := by
  rw [port_setNet]
  cases n with
  | ctl p => by_cases h : d = p <;> simp [h]
  | gd p => by_cases h : d = p <;> simp [h]

theorem rxStamp_takeLinkFrame (s : State) (n : NetId) (f : LinkDelayFrame) (rx : Dword) (d : PDie) :
    ((s.takeLinkFrame n q f rx).1.port d).rxStamp = (s.port d).rxStamp ∧
    ((s.takeLinkFrame n q f rx).1.port d).linkFrame = (s.port d).linkFrame := by
  obtain ⟨y, hy⟩ := takeLinkFrame_eq s n q f rx
  rw [hy]
  exact ⟨rxStamp_setNet .., (linkFrame_setNet ..).1⟩

theorem base_takeLinkFrame (s : State) (n : NetId) (q : Port) (f : LinkDelayFrame) (rx : Dword) :
    (s.takeLinkFrame n q f rx).1.base = s.base := by
  obtain ⟨y, hy⟩ := takeLinkFrame_eq s n q f rx
  rw [hy, State.setNet_base]

/-- What a controller does with a good link delay frame of a port that is up. -/
structure LinkTakenIn (p : PDie) (q : Port) (f : LinkDelayFrame) (rx : Dword) (s t : State) : Prop where
  net : t.net (.ctl p) = (s.takeLinkFrame (.ctl p) q f rx).1.net (.ctl p)
  stamp : (t.port p).rxStamp.get q = some rx
  frame : (t.port p).linkFrame = (s.port p).linkFrame
  rejected : t.fld p.unit (Reg.tbLink q.idx) 23 16 = satAdd 8 (s.fld p.unit (Reg.tbLink q.idx) 23 16)
    (bitNat (s.takeLinkFrame (.ctl p) q f rx).2)
  guard : KeepsGuard p.other s t
  base : t.base = s.base

theorem fld_foldl {α : Type} {f : State → α → State} {x : RUnit} {off hi lo : Nat}
    (h : ∀ t a, (f t a).fld x off hi lo = t.fld x off hi lo) (as : List α) (s : State) :
    (as.foldl f s).fld x off hi lo = s.fld x off hi lo := by
  induction as generalizing s with
  | nil => rfl
  | cons a as ih => exact (ih _).trans (h s a)

/-- A controller's state shows in its links' state and delay, not in their counts of rejected measurements. -/
theorem rejects_showCtl (s : State) (p : PDie) (x : Net) (q : Port) :
    (s.showCtl p x).fld p.unit (Reg.tbLink q.idx) 23 16 = s.fld p.unit (Reg.tbLink q.idx) 23 16 := by
  have hset : ∀ (t : State) (off : Nat) (w : Word), off ≠ Reg.tbLink q.idx →
      (t.setReg p.unit off w).fld p.unit (Reg.tbLink q.idx) 23 16 = t.fld p.unit (Reg.tbLink q.idx) 23 16 :=
    fun t off w h => by rw [State.fld, reg_setReg_other _ _ (.inr h.symm), State.fld]
  have hfld : ∀ (t : State) (off hi lo v : Nat), off ≠ Reg.tbLink q.idx →
      (t.setFld p.unit off hi lo v).fld p.unit (Reg.tbLink q.idx) 23 16 = t.fld p.unit (Reg.tbLink q.idx) 23 16 :=
    fun t off hi lo v h => hset t off _ h
  have hflag : ∀ (t : State) (off i : Nat) (b : Bool), off ≠ Reg.tbLink q.idx →
      (t.setFlag p.unit off i b).fld p.unit (Reg.tbLink q.idx) 23 16 = t.fld p.unit (Reg.tbLink q.idx) 23 16 :=
    fun t off i b h => hset t off _ h
  have hlink : ∀ (t : State) (q' : Port), (((t.setFld p.unit (Reg.tbLink q'.idx) 31 30 (x.links.get q').phase.code).setFld
      p.unit (Reg.tbLink q'.idx) 15 0 (x.links.get q').delay).setReg p.unit (Reg.tbNbr q'.idx) (x.links.get q').nbr).fld p.unit
        (Reg.tbLink q.idx) 23 16 = t.fld p.unit (Reg.tbLink q.idx) 23 16 := by
    intro t q'
    rw [hset _ _ _ (by cases q <;> cases q' <;> decide)]
    by_cases hq : q' = q
    · rw [hq, fld_setFld_other _ _ _ _ (by decide), fld_setFld_other _ _ _ _ (by decide)]
    · have hne : Reg.tbLink q'.idx ≠ Reg.tbLink q.idx := by cases q <;> cases q' <;> first | exact absurd rfl hq | decide
      rw [hfld _ _ _ _ _ hne, hfld _ _ _ _ _ hne]
  have hsync : ∀ (t : State) (i : Nat) (w : Word), (t.setReg p.unit (Reg.tbSync i) w).fld p.unit (Reg.tbLink q.idx) 23 16 =
      t.fld p.unit (Reg.tbLink q.idx) 23 16 := fun t i w => hset t _ w (by cases q <;> simp [Reg.tbSync, Reg.tbLink, Port.idx] <;> omega)
  have ho : Reg.ttState ≠ Reg.tbLink q.idx ∧ Reg.ttCycle ≠ Reg.tbLink q.idx ∧ Reg.tbStat ≠ Reg.tbLink q.idx ∧
      Reg.tbRate ≠ Reg.tbLink q.idx ∧ Reg.ttInaug ≠ Reg.tbLink q.idx ∧ Reg.ttModeStat ≠ Reg.tbLink q.idx := by
    cases q <;> decide
  obtain ⟨h1, h2, h3, h4, h5, h6⟩ := ho
  simp only [State.showCtl]
  split
  all_goals
    rw [hfld _ _ _ _ _ h6, hfld _ _ _ _ _ h6, hflag _ _ _ _ h6, hset _ _ _ h5, fld_foldl hlink,
      fld_foldl (fun t i => hsync t i _), hset _ _ _ h4, hset _ _ _ h3, hset _ _ _ h2, hset _ _ _ h1]

theorem linkIn_ok (s : State) (p : PDie) (q : Port) {f : LinkDelayFrame} (rx : Dword) (hok : linkFrameOk f = true) :
    LinkTakenIn p q f rx s (s.linkIn p q f rx) := by
  have hnet : (s.stampPort p q rx).net (.ctl p) = s.net (.ctl p) := net_stampPort s p q rx _
  have hdef : (s.stampPort p q rx).linkDef (.ctl p) = s.linkDef (.ctl p) := by cases p <;> rfl
  obtain ⟨hn, hb⟩ := takeLinkFrame_congr (q := q) hnet hdef (by cases p <;> rfl) f rx
  obtain ⟨hst, hfr⟩ := rxStamp_takeLinkFrame (q := q) (s.stampPort p q rx) (.ctl p) f rx p
  have hfld : ((s.stampPort p q rx).takeLinkFrame (.ctl p) q f rx).1.fld p.unit (Reg.tbLink q.idx) 23 16 =
      s.fld p.unit (Reg.tbLink q.idx) 23 16 := by
    obtain ⟨y, hy⟩ := takeLinkFrame_eq (s.stampPort p q rx) (.ctl p) q f rx
    rw [hy]
    exact rejects_showCtl ..
  have hg : KeepsGuard p.other s ((s.stampPort p q rx).takeLinkFrame (.ctl p) q f rx).1 :=
    (keepsGuard_setPort s p _).trans (keepsGuard_takeLinkFrame ..)
  have hbase : ((s.stampPort p q rx).takeLinkFrame (.ctl p) q f rx).1.base = s.base := base_takeLinkFrame ..
  have hport : ((s.stampPort p q rx).port p).rxStamp.get q = some rx ∧ ((s.stampPort p q rx).port p).linkFrame = (s.port p).linkFrame := by
    rw [State.stampPort, port_setPort_same]
    exact ⟨we_get_set .., rfl⟩
  have he : s.linkIn p q f rx = if ((s.stampPort p q rx).takeLinkFrame (.ctl p) q f rx).2 = true then
      ((s.stampPort p q rx).takeLinkFrame (.ctl p) q f rx).1.linkReject p q
      else ((s.stampPort p q rx).takeLinkFrame (.ctl p) q f rx).1 := if_neg (by simp [hok])
  rw [he]
  cases hr : ((s.stampPort p q rx).takeLinkFrame (.ctl p) q f rx).2 with
  | true =>
    rw [if_pos rfl]
    refine ⟨hn, hst ▸ hport.1, hfr.trans hport.2, ?_, hg.trans (keepsGuard_bump ..), hbase⟩
    rw [State.linkReject, fld_bump _ _ _ _ _ (by decide), hfld, ← hb, hr]
    rfl
  | false =>
    rw [if_neg Bool.false_ne_true]
    refine ⟨hn, hst ▸ hport.1, hfr.trans hport.2, ?_, hg, hbase⟩
    rw [hfld, ← hb, hr]
    exact (Nat.min_eq_left (Nat.le_sub_one_of_lt (fieldOf_lt _ 23 16))).symm

theorem linkTaken_damaged {f : LinkDelayFrame} (ago : Nat) (hon : s.chOn p = true) (hok : linkFrameOk f = false) :
    s.linkTaken p q f ago = if s.portUp p q = true then
      (s.stampPort p q (s.stamp (.ctl p) ago)).bump p.unit (Reg.tbLink q.idx) 23 16 else s := by
  have hin : s.linkIn p q f (s.stamp (.ctl p) ago) =
      (s.stampPort p q (s.stamp (.ctl p) ago)).bump p.unit (Reg.tbLink q.idx) 23 16 := if_pos (by simp [hok])
  simp only [State.linkTaken, hok, hon, hin, Bool.and_false, Bool.false_eq_true, if_false, Bool.true_and]

/-- The guardian's tap of a good link delay frame. -/
def State.tapLink (s : State) (p : PDie) (q : Port) (f : LinkDelayFrame) (rx : Dword) : State :=
  if s.guardLive p.other && ((s.net (guardOf p)).links.get q).up && linkFrameOk f then
    (s.takeLinkFrame (guardOf p) q f rx).1 else s

theorem linkTaken_eq (s : State) (p : PDie) (q : Port) (f : LinkDelayFrame) (ago : Nat) : s.linkTaken p q f ago =
    State.tapLink (if s.chOn p && s.portUp p q then s.linkIn p q f (s.stamp (.ctl p) ago) else s) p q f
      (tenNs (s.stamp (guardOf p) ago)) := rfl

theorem reg_setNet_gd (s : State) (d : PDie) (x : Net) {u : RUnit} (off : Nat) (h : u ≠ d.unit) :
    (s.setNet (.gd d) x).reg u off = s.reg u off := by
  simp only [State.setNet, State.setGuard, State.showGuard, reg_setFld_other _ _ _ _ (.inl h)]
  rfl

/-- The tap changes nothing of the controller. -/
theorem tapLink_ctl (s : State) (p : PDie) (q : Port) (f : LinkDelayFrame) (rx : Dword) :
    (s.tapLink p q f rx).net (.ctl p) = s.net (.ctl p) ∧ ((s.tapLink p q f rx).port p).rxStamp = (s.port p).rxStamp ∧
    (∀ off hi lo, (s.tapLink p q f rx).fld p.unit off hi lo = s.fld p.unit off hi lo) ∧ (s.tapLink p q f rx).base = s.base := by
  rw [State.tapLink]
  split
  · refine ⟨net_takeLinkFrame_other _ _ _ (ctl_ne_guardOf p), (rxStamp_takeLinkFrame ..).1, fun off hi lo => ?_, base_takeLinkFrame ..⟩
    obtain ⟨y, hy⟩ := takeLinkFrame_eq s (guardOf p) q f rx
    rw [hy]
    exact congrArg (fieldOf · hi lo) (reg_setNet_gd s p.other y off (unit_other_ne p).symm)
  · exact ⟨rfl, rfl, fun _ _ _ => rfl, rfl⟩

/-- The tap takes the frame as the guardian would have before the controller took it. -/
theorem tapLink_guard (hk : KeepsGuard p.other s t) (hf : (t.port p).linkFrame = (s.port p).linkFrame) {f : LinkDelayFrame}
    (rx : Dword) (hok : linkFrameOk f = true) :
    (s.guardLive p.other = true → ((s.net (guardOf p)).links.get q).up = true →
      (t.tapLink p q f rx).net (guardOf p) = (s.takeLinkFrame (guardOf p) q f rx).1.net (guardOf p)) ∧
    (s.guardLive p.other = false ∨ ((s.net (guardOf p)).links.get q).up = false →
      (t.tapLink p q f rx).net (guardOf p) = s.net (guardOf p)) := by
  have hnet : t.net (guardOf p) = s.net (guardOf p) := hk.net
  have hasym : t.ownAsym (guardOf p) q = s.ownAsym (guardOf p) q := by
    have hpp : p.other.other = p := by cases p <;> rfl
    simp only [State.ownAsym, guardOf, hpp, hf]
  refine ⟨fun hl hu => ?_, fun h => ?_⟩
  · rw [State.tapLink, if_pos (by rw [hk.live, hnet, hl, hu, hok]; rfl)]
    exact (takeLinkFrame_congr hnet rfl hasym f rx).1
  · rw [State.tapLink, if_neg (by rw [hk.live, hnet]; rcases h with h | h <;> simp [h])]
    exact hnet

/-- Both keepers of a channel take a good link delay frame, each on its own. -/
theorem linkTaken_ok {f : LinkDelayFrame} (ago : Nat) (hon : s.chOn p = true) (hok : linkFrameOk f = true) :
    let t := s.linkTaken p q f ago
    (s.portUp p q = true → t.net (.ctl p) = (s.takeLinkFrame (.ctl p) q f (s.stamp (.ctl p) ago)).1.net (.ctl p) ∧
      (t.port p).rxStamp.get q = some (s.stamp (.ctl p) ago) ∧
      t.fld p.unit (Reg.tbLink q.idx) 23 16 = satAdd 8 (s.fld p.unit (Reg.tbLink q.idx) 23 16)
        (bitNat (s.takeLinkFrame (.ctl p) q f (s.stamp (.ctl p) ago)).2)) ∧
    (s.portUp p q = false → t.net (.ctl p) = s.net (.ctl p)) ∧
    (s.guardLive p.other = true → ((s.net (guardOf p)).links.get q).up = true →
      t.net (guardOf p) = (s.takeLinkFrame (guardOf p) q f (tenNs (s.stamp (guardOf p) ago))).1.net (guardOf p)) ∧
    (s.guardLive p.other = false ∨ ((s.net (guardOf p)).links.get q).up = false → t.net (guardOf p) = s.net (guardOf p)) ∧
    t.base = s.base := by
  rw [linkTaken_eq, hon, Bool.true_and]
  intro t
  cases hup : s.portUp p q with
  | true =>
    have hin := linkIn_ok s p q (s.stamp (.ctl p) ago) hok
    have ht : t = State.tapLink (s.linkIn p q f (s.stamp (.ctl p) ago)) p q f (tenNs (s.stamp (guardOf p) ago)) := by
      show State.tapLink (if s.portUp p q = true then _ else _) p q f _ = _
      rw [if_pos hup]
    obtain ⟨hn, hst, hfld, hb⟩ := tapLink_ctl (s.linkIn p q f (s.stamp (.ctl p) ago)) p q f (tenNs (s.stamp (guardOf p) ago))
    obtain ⟨hg1, hg2⟩ := tapLink_guard hin.guard hin.frame (q := q) (tenNs (s.stamp (guardOf p) ago)) hok
    rw [ht, hn, hst, hfld, hb]
    exact ⟨fun _ => ⟨hin.net, hin.stamp, hin.rejected⟩, nofun, hg1, hg2, hin.base⟩
  | false =>
    have ht : t = State.tapLink s p q f (tenNs (s.stamp (guardOf p) ago)) := by
      show State.tapLink (if s.portUp p q = true then _ else _) p q f _ = _
      rw [hup, if_neg Bool.false_ne_true]
    obtain ⟨hn, -, -, hb⟩ := tapLink_ctl s p q f (tenNs (s.stamp (guardOf p) ago))
    obtain ⟨hg1, hg2⟩ := tapLink_guard (.refl p.other s) rfl (q := q) (tenNs (s.stamp (guardOf p) ago)) hok
    rw [ht, hn, hb]
    exact ⟨nofun, fun _ => rfl, hg1, hg2, rfl⟩

theorem mapLink_spec (s : State) (n : NetId) (q : Port) (f : LinkState → LinkState) :
    ((s.mapLink n q f).net n).links.get q = f ((s.net n).links.get q) := by
  rw [State.mapLink, net_setNet_same]
  exact we_get_set ..

theorem linkPeriod_spec (s : State) (n : NetId) (q : Port) :
    (periodDue ((s.net n).links.get q) (s.net n).run = true →
      ((s.linkPeriod n q).net n).links.get q = periodMedian ((s.net n).links.get q)) ∧
    (periodDue ((s.net n).links.get q) (s.net n).run = false → s.linkPeriod n q = s) :=
  ⟨fun h => by rw [State.linkPeriod, if_pos h, mapLink_spec], fun h => if_neg (by simp [h])⟩

theorem linkStale_spec (s : State) (n : NetId) (q : Port) :
    (staleDue ((s.net n).links.get q) (s.net n).run = true → (((s.linkStale n q).net n).links.get q).phase = .stale ∧
      (((s.linkStale n q).net n).links.get q).delay = ((s.net n).links.get q).delay) ∧
    (staleDue ((s.net n).links.get q) (s.net n).run = false → s.linkStale n q = s) :=
  ⟨fun h => by rw [State.linkStale, if_pos h, mapLink_spec]; exact ⟨rfl, rfl⟩, fun h => if_neg (by simp [h])⟩

theorem net_linkPeriod_other (s : State) (q : Port) (h : m ≠ n) : (s.linkPeriod n q).net m = s.net m := by
  rw [State.linkPeriod]
  split
  · exact net_setNet_other _ _ h
  · rfl

theorem net_linkStale_other (s : State) (q : Port) (h : m ≠ n) : (s.linkStale n q).net m = s.net m := by
  rw [State.linkStale]
  split
  · exact net_setNet_other _ _ h
  · rfl

theorem keepsGuard_linkPeriod (s : State) (p : PDie) (q : Port) : KeepsGuard p.other s (s.linkPeriod (.ctl p) q) := by
  rw [State.linkPeriod]
  split
  · exact keepsGuard_setNet ..
  · exact .refl _ s

theorem keepsGuard_linkStale (s : State) (p : PDie) (q : Port) : KeepsGuard p.other s (s.linkStale (.ctl p) q) := by
  rw [State.linkStale]
  split
  · exact keepsGuard_setNet ..
  · exact .refl _ s

end

/-- Settles O44: each keeper of the channel does its part on its own state. -/
theorem inaugurationPathsAndLinkDelays : Obligations.InaugurationPathsAndLinkDelays := by
  refine ⟨fun p s => ⟨fun q b h => congrArg Host.Outcome.next (if_pos h), fun q b h => congrArg Host.Outcome.next (if_neg h),
    fun n q b => links_netLink s n q b, records_expire s p, fun node => paths_undrop s p node, view_settles s p,
    fun n c pos => stableView_complete s n c pos⟩, ?_⟩
  intro p q s hon n g u
  refine ⟨?_, ?_, ?_, ?_, ?_, ?_, ?_, ?_, ?_, ?_, ?_⟩
  · exact fun h1 h2 h3 => exec_linkDelaySend_idle (.inl ⟨h1, h2, h3⟩)
  · exact fun h => exec_linkDelaySend_idle (.inr h)
  · intro hph hsent hup hother
    obtain ⟨hf, hs, hseq, hl, hw⟩ := sendLink_spec (s.noteLinkCycle p) p q
    rw [linkFrameOf_noteLinkCycle, linkPasses_noteLinkCycle, linkStart_noteLinkCycle] at hf
    rw [net_noteLinkCycle] at hseq
    have hport : ((s.noteLinkCycle p).port p) = { s.port p with linkSentAt := some (s.net (.ctl p)).total } := port_setPort_same ..
    refine ⟨_, exec_linkDelaySend_single hon hph hsent hup hother, ?_, ?_, ?_, hseq, hl, hw⟩
    · rw [hf, we_get_set]
    · rw [hf, get_set_other, hport]
    · rw [hs, hport]
  · intro f st at'
    refine ⟨fun r hr hle => ?_, fun r hr hlt => ?_, fun hr ho => ?_⟩
    · simp only [State.linkPasses, show s.enableRoom p.other (s.guardTime p.other st) = some r from hr, if_pos hle]
    · simp only [State.linkPasses, show s.enableRoom p.other (s.guardTime p.other st) = some r from hr, if_neg (Nat.not_le_of_lt hlt)]
    · simp only [State.linkPasses, show s.enableRoom p.other (s.guardTime p.other st) = none from hr,
        show s.enablesOpen p.other (s.guardTime p.other st + BitVec.ofNat 64 linkWireNs) = false from ho, Bool.false_eq_true, if_false]
  · exact linkStart_add s p
  · exact fun f ago h => congrArg Host.Outcome.next (if_pos h)
  · intro f ago hd hbad
    have hok : linkFrameOk f = false := by
      rw [linkFrameOk]
      rcases hbad with h | h
      · rw [h, Bool.false_and]
      · rw [beq_false_of_ne h, Bool.and_false]
    exact congrArg Host.Outcome.next ((if_neg (not_not.2 hd)).trans (linkTaken_damaged ago hon hok))
  · intro f ago hd hok hcrc
    exact ⟨_, congrArg Host.Outcome.next (if_neg (not_not.2 hd)),
      linkTaken_ok ago hon (by rw [linkFrameOk, hok, hcrc, beq_self_eq_true]; rfl)⟩
  · exact fun m f rx => takeLinkFrame_spec s m q f rx
  · obtain ⟨h1, -, h3, h4⟩ := keepers_apart s p (s.chOn p) (F := fun t => t.linkPeriod (.ctl p) q)
      (G := fun t => t.linkPeriod (guardOf p) q) (keepsGuard_linkPeriod s p q) (fun t => net_linkPeriod_other t q (ctl_ne_guardOf p))
    obtain ⟨hd, hn⟩ := linkPeriod_spec s (.ctl p) q
    refine ⟨_, rfl, fun h => (congrArg (·.links.get q) (h1 hon)).trans (hd h),
      fun h => (h1 hon).trans (congrArg (·.net (.ctl p)) (hn h)), fun hl h => ?_, fun h => ?_⟩
    · obtain ⟨w, hw, hr⟩ := h3 hl
      have hnet : w.net (guardOf p) = s.net (guardOf p) := hw.net
      refine (congrArg (·.links.get q) hr).trans (((linkPeriod_spec w (guardOf p) q).1 ?_).trans ?_) <;> rw [hnet]
      exact h
    · exact guard_stands (due := fun x => periodDue (x.links.get q) x.run) (fun w => (linkPeriod_spec w (guardOf p) q).2) h3 h4 h
  · obtain ⟨h1, -, h3, h4⟩ := keepers_apart s p (s.chOn p) (F := fun t => t.linkStale (.ctl p) q)
      (G := fun t => t.linkStale (guardOf p) q) (keepsGuard_linkStale s p q) (fun t => net_linkStale_other t q (ctl_ne_guardOf p))
    obtain ⟨hd, hn⟩ := linkStale_spec s (.ctl p) q
    refine ⟨_, rfl, fun h => ?_, fun h => (h1 hon).trans (congrArg (·.net (.ctl p)) (hn h)), fun hl h => ?_, fun h => ?_⟩
    · have hl := congrArg (·.links.get q) (h1 hon)
      exact ⟨(congrArg LinkState.phase hl).trans (hd h).1, (congrArg LinkState.delay hl).trans (hd h).2⟩
    · obtain ⟨w, hw, hr⟩ := h3 hl
      have hnet : w.net (guardOf p) = s.net (guardOf p) := hw.net
      have hl' := congrArg (·.links.get q) hr
      rw [← hnet] at h ⊢
      obtain ⟨hp, hdl⟩ := (linkStale_spec w (guardOf p) q).1 h
      exact ⟨(congrArg LinkState.phase hl').trans hp, (congrArg LinkState.delay hl').trans hdl⟩
    · exact guard_stands (due := fun x => staleDue (x.links.get q) x.run) (fun w => (linkStale_spec w (guardOf p) q).2) h3 h4 h

end Sys2Proof.Machine
end

-- ==== Proofs: table commits of a channel ====
section
/-! The table commit of a channel and its guardian's part in it (R205 to R207, R259). -/

namespace Sys2Proof.Machine

section
variable {s t : State} {p : PDie}

/-! ### RESULT and BUSY of a commit register -/

theorem fld_commitResult (s : State) (u : RUnit) (off res : Nat) : (s.commitResult u off res).fld u off 15 8 = res % 256 :=
  fld_setFld_same _ _ _ _ _ _ (by decide)

theorem flag_setFld_other (s : State) (u : RUnit) (off : Nat) {hi lo i : Nat} (v : Nat) (h : i < lo ∨ hi < i) :
    (s.setFld u off hi lo v).flag u off i = s.flag u off i := by
  simp only [State.flag, State.setFld, reg_setReg_same, bitOf_withField_other _ v h]

theorem commitBusy_commitResult (s : State) (u : RUnit) (off res : Nat) : (s.commitResult u off res).commitBusy u off = false := by
  rw [State.commitResult, State.commitBusy, flag_setFld_other _ _ _ _ (.inl (by decide)), flag_setFlag_same _ _ _ _ _ (by decide)]

theorem port_commitResult (s : State) (u : RUnit) (off res : Nat) (d : PDie) : (s.commitResult u off res).port d = s.port d := rfl

/-- The controller drops its commit. -/
def State.commitDropped (s : State) (p : PDie) : State := s.setPort p { s.port p with commit := none }

theorem ttRefuse_eq (s : State) (p : PDie) (code : Nat) : s.ttRefuse p code = ((s.commitDropped p).setGuard p.other
    { ((s.commitDropped p).port p.other).guard with commit := none, reply := none }).commitResult p.unit Reg.ttCommit code := rfl

theorem port_ttRefuse (s : State) (p : PDie) (code : Nat) : ((s.ttRefuse p code).port p).commit = none := by
  rw [ttRefuse_eq, port_commitResult, port_setGuard, if_neg (pdie_ne_other p).symm, State.commitDropped, port_setPort_same]

/-- A commit that ends with a refusal. -/
theorem ttRefuse_spec (s : State) (p : PDie) (code : Nat) (hc : code < 256) : ((s.ttRefuse p code).port p).commit = none ∧
    (s.ttRefuse p code).fld p.unit Reg.ttCommit 15 8 = code ∧ (s.ttRefuse p code).commitBusy p.unit Reg.ttCommit = false :=
  ⟨port_ttRefuse s p code, (fld_commitResult ..).trans (Nat.mod_eq_of_lt hc), commitBusy_commitResult ..⟩

/-! ### GO -/

/-- GO whose tables pass every check of the controller. -/
def State.ttWaits (s : State) (p : PDie) (c : Option Half) : State :=
  let t := s.setReg p.unit Reg.ttTblCrcStg (crc32cWords (s.ttWords (.ctl p)))
  let t := t.setPort p { t.port p with commit := some ⟨c, false, t.ns⟩ }
  t.setFlag p.unit Reg.ttCommit 1 true

theorem ttGo_waits (hb : s.commitBusy p.unit Reg.ttCommit = false) (hc : s.ttCheck (.ctl p) = none) :
    ∃ c, s.ttGo p = s.ttWaits p c ∧
      (c = none ↔ ¬ ((s.net (.ctl p)).phase = .adopted ∨ (s.net (.ctl p)).phase = .active ∨ (s.net (.ctl p)).phase = .holdover)) := by
  refine ⟨if (s.net (.ctl p)).phase = .adopted ∨ (s.net (.ctl p)).phase = .active ∨ (s.net (.ctl p)).phase = .holdover then
    some (switchCycle (s.net (.ctl p)).cycle (s.modeAlign (.ctl p))) else none, (if_neg (by simp [hb])).trans ?_, ?_⟩
  · simp only [hc]
    rfl
  · split <;> simp [*]

theorem port_ttWaits (s : State) (p : PDie) (c : Option Half) : ((s.ttWaits p c).port p).commit = some ⟨c, false, s.ns⟩ := by
  show (State.port (State.setPort _ p _) p).commit = _
  rw [port_setPort_same]
  rfl

theorem regs_ttWaits (s : State) (p : PDie) (c : Option Half) : (s.ttWaits p c).commitBusy p.unit Reg.ttCommit = true ∧
    (s.ttWaits p c).reg p.unit Reg.ttTblCrcStg = crc32cWords (s.ttWords (.ctl p)) := by
  refine ⟨flag_setFlag_same _ _ _ _ _ (by decide), ?_⟩
  rw [State.ttWaits, reg_setFlag_other _ _ _ (.inr (by decide))]
  exact reg_setReg_same ..

/-! ### The guardian's check and its reply -/

theorem guardCheck_replies {g : PDie} {c : TtCommit} (hc : (s.port g.other).commit = some c) (hm : (s.consumer .m).running = true)
    (ha : c.accepted = false) (hr : (s.port g).guard.reply = none) (hs : (s.port g).guard.stopped = false) :
    ((s.guardCheck g).port g).guard.reply.map (·.1) = some (crc32cWords (s.ttWords (.gd g))) := by
  simp only [State.guardCheck, hc]
  rw [if_neg (by simp [hm, ha, hr, hs]), port_setGuard, if_pos rfl]
  rfl

/-- The reply is taken, and its CRC shown. -/
def State.replyTaken (s : State) (p : PDie) (crc : Word) : State :=
  (s.setReg p.unit Reg.ttGdCrc crc).setGuard p.other { (s.port p.other).guard with reply := none }

theorem reg_setGuard (s : State) (d : PDie) (g : Guard) {u : RUnit} (off : Nat) (h : u ≠ d.unit) :
    (s.setGuard d g).reg u off = s.reg u off := by
  simp only [State.setGuard, State.showGuard, reg_setFld_other _ _ _ _ (.inl h)]
  rfl

theorem crc_replyTaken (s : State) (p : PDie) (crc : Word) :
    (s.replyTaken p crc).reg p.unit Reg.ttTblCrcStg = s.reg p.unit Reg.ttTblCrcStg := by
  rw [State.replyTaken, reg_setGuard _ _ _ _ (unit_other_ne p).symm, reg_setReg_other _ _ (.inr (by decide))]

/-- What a reply to a commit that waits does. -/
theorem exec_guardCommitReply {c : TtCommit} {crc : Word} {ok : Bool} (hon : s.chOn p = true) (hc : (s.port p).commit = some c)
    (hr : (s.port p.other).guard.reply = some (crc, ok)) (ha : c.accepted = false) :
    exec (.guardCommitReply p) s = .next (
      let t := s.replyTaken p crc
      if crc ≠ s.reg p.unit Reg.ttTblCrcStg then t.ttRefuse p 0x08
      else if !ok then t.ttRefuse p 0x09
      else if c.cycle = none then t.ttTakeEffect p
      else t.setPort p { t.port p with commit := some { c with accepted := true } }) := by
  refine congrArg Host.Outcome.next ?_
  rw [← crc_replyTaken s p crc]
  simp only [State.guardReply, hc, hr]
  rw [if_neg (by simp [hon, ha])]
  obtain ⟨k, a, at'⟩ := c
  cases k <;> rfl

end

/-- Settles O45, command by command of the commit. -/
theorem tableCommitNeedsItsGuardian : Obligations.TableCommitNeedsItsGuardian := by
  intro p s hon n
  refine ⟨fun hm hb => ?_, fun c hm hb hc => ?_, fun hm hb hc => ?_, fun hm => ?_, fun g => ⟨rfl, fun hc => ?_, fun c hc hm ha hr hs => ?_⟩,
    fun c crc ok hc hr ha => ⟨fun hne => ?_, fun heq hok => ?_, fun heq hok hk => ?_⟩, fun c hc ha => ⟨fun h => ?_, fun h => ?_⟩,
    fun k at' hc => ⟨fun h => ?_, fun h ht => ?_⟩⟩
  · exact congrArg Host.Outcome.next ((if_pos (by simp [hon, hm])).trans (if_pos hb))
  · refine congrArg Host.Outcome.next ((if_pos (by simp [hon, hm])).trans ((if_neg (by simp [hb])).trans ?_))
    simp only [show s.ttCheck (.ctl p) = some c from hc]
  · obtain ⟨c, hgo, hcn⟩ := ttGo_waits hb hc
    obtain ⟨hbusy, hcrc⟩ := regs_ttWaits s p c
    exact ⟨_, c, congrArg Host.Outcome.next ((if_pos (by simp [hon, hm])).trans hgo), port_ttWaits s p c, hbusy, rfl, hcrc, hcn⟩
  · exact congrArg Host.Outcome.next (if_neg (by simp [hm]))
  · simp only [State.guardCheck, hc]
  · exact guardCheck_replies hc hm ha hr hs
  · obtain ⟨h1, h2, h3⟩ := ttRefuse_spec (s.replyTaken p crc) p 0x08 (by decide)
    exact ⟨_, (exec_guardCommitReply hon hc hr ha).trans (congrArg Host.Outcome.next (if_pos hne)), h1, h2, h3⟩
  · obtain ⟨h1, h2, h3⟩ := ttRefuse_spec (s.replyTaken p crc) p 0x09 (by decide)
    exact ⟨_, (exec_guardCommitReply hon hc hr ha).trans
      (congrArg Host.Outcome.next ((if_neg (not_not.2 heq)).trans (if_pos (by simp [hok])))), h1, h2, h3⟩
  · refine ⟨_, (exec_guardCommitReply hon hc hr ha).trans
      (congrArg Host.Outcome.next ((if_neg (not_not.2 heq)).trans ((if_neg (by simp [hok])).trans (if_neg hk)))), ?_⟩
    rw [port_setPort_same]
  · refine congrArg Host.Outcome.next ?_
    simp only [hc]
    exact if_pos (by rw [hon, ha, decide_eq_true h]; rfl)
  · refine congrArg Host.Outcome.next ?_
    simp only [hc]
    exact if_neg (by rw [decide_eq_false (Nat.not_le_of_lt h), Bool.and_false]; exact Bool.false_ne_true)
  · refine congrArg Host.Outcome.next ?_
    simp only [hc]
    refine if_pos ?_
    rcases h with h | h
    · rw [hon, show serialLt (s.port p).net.cycle k = false from h]
      rfl
    · rw [hon, show (s.port p).net.phase.timed = false from h, Bool.not_false, Bool.or_true]
      rfl
  · refine congrArg Host.Outcome.next ?_
    simp only [hc]
    refine if_neg ?_
    rw [hon, show serialLt (s.port p).net.cycle k = true from h, show (s.port p).net.phase.timed = true from ht]
    decide

end Sys2Proof.Machine
end

-- ==== Proofs: guardians ====
section
/-! The states, the violations and the latch of a guardian (R253 to R258). -/

namespace Sys2Proof.Machine

section
variable {s t : State} {p : PDie} {q : Port}

/-! ### What passes by a guardian: vectors, views and log entries -/

/-- The port dies and the registers of every die but M. -/
structure KeepsPorts (s t : State) : Prop where
  ports : t.ports = s.ports
  wires : t.wires = s.wires
  reg : ∀ u, u ≠ .m → ∀ off, t.reg u off = s.reg u off

theorem KeepsPorts.refl (s : State) : KeepsPorts s s := ⟨rfl, rfl, fun _ _ _ => rfl⟩

theorem KeepsPorts.trans {u : State} (h : KeepsPorts s t) (g : KeepsPorts t u) : KeepsPorts s u :=
  ⟨g.ports.trans h.ports, g.wires.trans h.wires, fun u hu off => (g.reg u hu off).trans (h.reg u hu off)⟩

theorem KeepsPorts.port (h : KeepsPorts s t) (d : PDie) : t.port d = s.port d := by simp only [State.port, h.ports]

theorem KeepsPorts.guard (h : KeepsPorts s t) (d : PDie) : t.guard d = s.guard d := congrArg PortDie.guard (h.port d)

theorem unit_ne_m (p : PDie) : p.unit ≠ .m := by cases p <;> decide

theorem KeepsPorts.fld (h : KeepsPorts s t) (p : PDie) (off hi lo : Nat) : t.fld p.unit off hi lo = s.fld p.unit off hi lo := by
  simp only [State.fld, h.reg _ (unit_ne_m p)]

theorem KeepsPorts.flag (h : KeepsPorts s t) (p : PDie) (off i : Nat) : t.flag p.unit off i = s.flag p.unit off i := by
  simp only [State.flag, h.reg _ (unit_ne_m p)]

theorem keepsPorts_foldl {α : Type} {f : State → α → State} (hf : ∀ t x, KeepsPorts t (f t x)) (xs : List α) (s : State) :
    KeepsPorts s (xs.foldl f s) := by
  induction xs generalizing s with
  | nil => exact .refl s
  | cons x xs ih => exact (hf s x).trans (ih _)

theorem keepsPorts_sendOne (s : State) {w : Wire} {r : Lane × Die × Bool × VChannel} (h : w.route = some r) :
    KeepsPorts s (s.sendOne w) := by
  obtain ⟨ls, hs⟩ := sendOne_route s h
  rw [hs]
  exact ⟨rfl, rfl, fun _ _ _ => rfl⟩

theorem keepsPorts_raise (s : State) (d : Die) (k : Strand) (v : Nat) : KeepsPorts s (s.raise d k v) := by
  rw [State.raise]
  split
  · have hsend : ∀ (ls : List Lane) (o : Occ) (t : State), KeepsPorts t (t.send (ls.map fun l => .occurrence l d k o)) := by
      intro ls o
      induction ls with
      | nil => exact .refl
      | cons l ls ih => exact fun t => (keepsPorts_sendOne t (w := .occurrence l d k o) rfl).trans (ih _)
    exact KeepsPorts.trans (t := s.countOcc d k) ⟨rfl, rfl, fun _ _ _ => rfl⟩ (hsend (s.linked d) (s.nextOcc d k v) _)
  · exact .refl s

theorem keepsPorts_raisePAll (s : State) (p : PDie) (off : Nat) : KeepsPorts s (s.raisePAll p off) :=
  keepsPorts_foldl (fun t k => keepsPorts_raise t _ k _) _ s

theorem keepsPorts_logEv (s : State) (src : Nat) (k : Option Strand) (code : LogCode) (arg : List Nat) :
    KeepsPorts s (s.logEv src k code arg) := by
  obtain ⟨_, h⟩ := logEv_frame s src k code arg
  rw [h]
  exact ⟨rfl, rfl, fun _ _ _ => rfl⟩

/-- Two views that disagree show in `MG_DISAGREE`. -/
def State.disagreeShown (s : State) (i : Nat) (v : UnitView) : State :=
  (State.setReg { s with views := s.views.set i v } .m Reg.mgDisagree
    (withField (withField (withField (withBit (s.reg .m Reg.mgDisagree) 31 true) 15 12 i) 11 10 v.mg) 9 8 (bitNat v.out))).bump .m
    Reg.mgDisagree 7 0

theorem keepsPorts_disagreeShown (s : State) (i : Nat) (v : UnitView) : KeepsPorts s (s.disagreeShown i v) := by
  refine ⟨rfl, rfl, fun u hu off => ?_⟩
  simp only [State.disagreeShown, State.bump, State.bumpBy]
  rw [reg_setFld_other _ _ _ _ (.inl hu), reg_setReg_other _ _ (.inl hu)]
  rfl

theorem keepsPorts_setView (s : State) (i : Nat) (v : UnitView) : KeepsPorts s (s.setView i v) := by
  by_cases h : v = s.viewOf i ∨ viewsAgree v = true
  · rw [show s.setView i v = { s with views := s.views.set i v } from if_pos h]
    exact ⟨rfl, rfl, fun _ _ _ => rfl⟩
  · rw [show s.setView i v = ((s.disagreeShown i v).raiseAll .m 218).logEv 6 none .mgDisagree [i, v.mg, bitNat v.out] from if_neg h]
    exact ((keepsPorts_disagreeShown s i v).trans (keepsPorts_foldl (fun t k => keepsPorts_raise t _ k _) _ _)).trans
      (keepsPorts_logEv ..)

theorem keepsPorts_setPathOut (s : State) (i : Nat) : KeepsPorts s (s.setPathOut i) := keepsPorts_setView ..
theorem keepsPorts_setPathIn (s : State) (i : Nat) : KeepsPorts s (s.setPathIn i) := keepsPorts_setView ..

theorem guard_setFld (s : State) (u : RUnit) (off hi lo v : Nat) (d : PDie) : (s.setFld u off hi lo v).guard d = s.guard d := rfl

theorem guard_setGuard (s : State) (p : PDie) (g : Guard) : (s.setGuard p g).guard p = g := by
  rw [State.guard, port_setGuard, if_pos rfl]

/-- A guardian's state shows in `GD_STAT` alone. -/
theorem reg_setGuard_other (s : State) (p : PDie) (g : Guard) {off : Nat} (h : off ≠ Reg.gdStat) (u : RUnit) :
    (s.setGuard p g).reg u off = s.reg u off := by
  simp only [State.setGuard, State.showGuard, reg_setFld_other _ _ _ _ (.inr h)]
  rfl

theorem fld_setGuard_other (s : State) (p : PDie) (g : Guard) {off : Nat} (h : off ≠ Reg.gdStat) (u : RUnit) (hi lo : Nat) :
    (s.setGuard p g).fld u off hi lo = s.fld u off hi lo := by
  rw [State.fld, reg_setGuard_other _ _ _ h, State.fld]

/-! ### Windows -/

theorem slotRoom_limit (s : State) (p : PDie) (at' : Dword) (sl : Slot) {r : Nat} (h : s.slotRoom p at' sl = some r) :
    r ≤ (42 + max sl.pmax 30) * 8 + 16 ∧ s.slotOpen p sl = true := by
  have hroom : ∀ (c : Prop) [Decidable c] (k : Nat), (if c then some (min (slotLimit sl) k) else none) = some r → r ≤ slotLimit sl := by
    intro c _ k hc
    split at hc
    · rw [← Option.some.inj hc]
      exact Nat.min_le_left _ _
    · cases hc
  simp only [State.slotRoom] at h
  split at h
  · next ho =>
    refine ⟨?_, ho⟩
    rcases Option.or_eq_some_iff.1 h with h | ⟨-, h⟩
    · exact hroom _ _ h
    · exact hroom _ _ h
  · cases h

/-! ### Transmissions that are cut -/

theorem port_cutLine {q : Port} {f : KFrame} {st : Dword} (lasted : Nat) (h : (s.port p).line.get q = some ⟨f, st, true⟩) :
    ((s.cutLine p lasted q).port p).line.get q = some ⟨cutFrame f lasted, st, true⟩ := by
  simp only [State.cutLine, h, if_true, port_setPort_same, we_get_set]

theorem port_cutLinks (s : State) (p : PDie) (q : Port) :
    ((s.cutLinks p).port p).linkFrame.get q = ((s.port p).linkFrame.get q).map (fun f => { f with ok := false }) ∧
    ((s.cutLinks p).port p).line = (s.port p).line := by
  simp only [State.cutLinks, port_setPort_same, and_true]
  cases q <;> rfl

theorem tailRoom_limit (s : State) (p : PDie) (at' : Dword) {r : Nat} (h : s.tailRoom p at' = some r) : r ≤ 592 := by
  rw [State.tailRoom] at h
  split at h
  · rw [← Option.some.inj h]
    exact Nat.min_le_left _ _
  · cases h

theorem coldRoom_limit (s : State) (p : PDie) (at' : Dword) {r : Nat} (h : s.coldRoom p at' = some r) : r = 592 := by
  rw [State.coldRoom] at h
  (repeat' split at h) <;> first | exact (Option.some.inj h).symm | cases h

theorem guardLive_of_enablesOpen (at' : Dword) (h : s.enablesOpen p at' = true) : s.guardLive p = true := by
  by_contra hl
  rw [State.enablesOpen, State.enableRoom, if_neg hl] at h
  cases h

/-! ### Violations -/

/-- The violations of the last 1000 cycles, with one of now. -/
def State.violsNow (s : State) (p : PDie) : List Nat :=
  (s.guard p).net.total :: (s.guard p).viols.filter fun v => decide ((s.guard p).net.total < v + 1000)

/-- A counted violation, before the guardian latches. -/
def State.counted (s : State) (p : PDie) (hi lo : Nat) : State :=
  (((s.bump p.unit Reg.gdViol hi lo).setGuard p { s.guard p with viols := s.violsNow p }).setFld p.unit Reg.gdViol 1 0
    (min 3 (s.violsNow p).length)).raisePAll p 58

theorem violation_exempt {at' : Dword} (hi lo : Nat) (h : (s.inTail p at' || decide ((s.guard p).net.total < (s.guard p).exemptUntil)) = true) :
    s.violation p hi lo at' = (s.bump p.unit Reg.gdViol 15 8).raisePAll p 58 := if_pos h

theorem violation_counted {at' : Dword} (hi lo : Nat) (h : (s.inTail p at' || decide ((s.guard p).net.total < (s.guard p).exemptUntil)) = false)
    (hn : (s.violsNow p).length < 3) : s.violation p hi lo at' = s.counted p hi lo :=
  (if_neg (by simp [h])).trans (if_neg fun hc => Nat.not_le_of_lt hn hc.1)

theorem violation_latches {at' : Dword} (hi lo : Nat) (h : (s.inTail p at' || decide ((s.guard p).net.total < (s.guard p).exemptUntil)) = false)
    (hn : 3 ≤ (s.violsNow p).length) (ht : guardTimed (s.guard p) = true) (hl : s.guardLive p = true) :
    s.violation p hi lo at' = (s.counted p hi lo).latchGuard p :=
  (if_neg (by simp [h])).trans (if_pos ⟨hn, by rw [ht, Bool.or_true], hl⟩)

theorem guard_counted (s : State) (p : PDie) (hi lo : Nat) : (s.counted p hi lo).guard p = { s.guard p with viols := s.violsNow p } := by
  rw [State.counted, (keepsPorts_raisePAll ..).guard, guard_setFld, guard_setGuard]

theorem count_counted (s : State) (p : PDie) : (s.counted p 31 24).fld p.unit Reg.gdViol 31 24 =
      satAdd 8 (s.fld p.unit Reg.gdViol 31 24) 1 ∧
    (s.counted p 31 24).fld p.unit Reg.gdViol 1 0 = min 3 (s.violsNow p).length := by
  simp only [State.counted, (keepsPorts_raisePAll ..).fld]
  refine ⟨?_, ?_⟩
  · rw [fld_setFld_other _ _ _ _ (by decide), fld_setGuard_other _ _ _ (by decide), fld_bump _ _ _ _ _ (by decide)]
    generalize s.fld p.unit Reg.gdViol 31 24 = x
    rfl
  · rw [fld_setFld_same _ _ _ _ _ _ (by decide)]
    exact Nat.mod_eq_of_lt (Nat.lt_of_le_of_lt (Nat.min_le_left ..) (by decide))

theorem guard_latchGuard (s : State) (p : PDie) : ((s.latchGuard p).guard p).latched = true := by
  have h : (s.latchGuard p).guard p = (s.setGuard p { s.guard p with latched := true, net := relisten (s.guard p).net }).guard p :=
    ((keepsPorts_logEv ..).trans (keepsPorts_setPathOut ..)).guard p
  rw [h, guard_setGuard]

/-! ### RESET and the lanes' fence commands -/

/-- A latch that is lifted. -/
def State.unlatched (s : State) (p : PDie) : State :=
  (s.setGuard p { s.guard p with latched := false, viols := [], net := relisten (s.guard p).net }).setFld p.unit Reg.gdViol 1 0 0

theorem guardUnlatch_eq (h : (s.guard p).latched = true) (hf : (s.guard p).fenced = false) :
    s.guardUnlatch p = (s.unlatched p).setPathIn (7 + p.idx) := if_pos (by simp [h, hf])

theorem guard_unlatched (s : State) (p : PDie) : (s.unlatched p).guard p =
    { s.guard p with latched := false, viols := [], net := relisten (s.guard p).net } := by
  rw [State.unlatched, guard_setFld, guard_setGuard]

/-- The lanes whose fence command has come. -/
def State.fencing (s : State) (p : PDie) : List Lane := Lane.list.filter fun l => s.flag p.unit Reg.gdFence l.idx

/-- A lane's fence command is recorded. -/
def State.fenceNoted (s : State) (p : PDie) (l : Lane) : State := (s.arrive (.guardFence p l)).setFlag p.unit Reg.gdFence l.idx true

/-- A guardian is fenced. -/
def State.fenced (s : State) (p : PDie) : State := (s.setGuard p { s.guard p with fenced := true }).setPathOut (7 + p.idx)

theorem exec_guardFenceCommand (p : PDie) (l : Lane) (s : State) : exec (.guardFenceCommand p l) s = .next (
    if 2 ≤ ((s.fenceNoted p l).fencing p).length then (s.fenceNoted p l).fenced p else s.fenceNoted p l) := rfl

theorem guard_fenced (s : State) (p : PDie) : ((s.fenced p).guard p).fenced = true := by
  rw [State.fenced, (keepsPorts_setPathOut ..).guard, guard_setGuard]

theorem flag_fenced (s : State) (p : PDie) (i : Nat) : (s.fenced p).flag p.unit Reg.gdFence i = s.flag p.unit Reg.gdFence i := by
  rw [State.fenced, (keepsPorts_setPathOut ..).flag, State.flag, reg_setGuard_other _ _ _ (by decide), State.flag]

theorem wires_fenced (s : State) (p : PDie) : (s.fenced p).wires = s.wires := (keepsPorts_setPathOut ..).wires

theorem flag_fenceNoted (s : State) (p : PDie) (l : Lane) : (s.fenceNoted p l).flag p.unit Reg.gdFence l.idx = true ∧
    ∀ l', l' ≠ l → (s.fenceNoted p l).flag p.unit Reg.gdFence l'.idx = s.flag p.unit Reg.gdFence l'.idx := by
  refine ⟨flag_setFlag_same _ _ _ _ _ (by cases l <;> decide), fun l' h => ?_⟩
  exact flag_setFlag_other _ _ _ _ (by cases l <;> cases l' <;> first | exact absurd rfl h | decide)

theorem two_fencing {l l' : Lane} (hne : l' ≠ l) (h : s.flag p.unit Reg.gdFence l.idx = true) (h' : s.flag p.unit Reg.gdFence l'.idx = true) :
    2 ≤ (s.fencing p).length := by
  have hsub : [l, l'].Subperm (s.fencing p) := List.subperm_of_subset (by simp [hne.symm])
    (by intro x hx; simp only [List.mem_cons, List.not_mem_nil, or_false] at hx
        rcases hx with rfl | rfl <;> simp [State.fencing, *] <;> cases x <;> decide)
  exact hsub.length_le

/-! ### Cycles of a guardian -/

theorem net_guardNextCycle (ht : guardTimed (s.guard p) = true) :
    ((s.guardNextCycle p).guard p).net.cycle = (s.guard p).net.cycle + 1 ∧
    ((s.guardNextCycle p).guard p).viols = (s.guard p).viols.filter fun v => decide ((s.guard p).net.total + 1 < v + 1000) := by
  have haged : (State.agedViols (s.setNet (.gd p) (s.startNetCycle (.gd p))) p).guard p = { s.guard p with
      net := s.startNetCycle (.gd p), viols := (s.guard p).viols.filter fun v => decide ((s.guard p).net.total + 1 < v + 1000) } := by
    rw [State.agedViols, guard_setFld, guard_setGuard, State.setNet, guard_setGuard]
    rfl
  by_cases hid : (s.startNetCycle (.gd p)).id = (s.net (.gd p)).id
  · rw [show s.guardNextCycle p = State.agedViols (s.setNet (.gd p) (s.startNetCycle (.gd p))) p from (if_pos ht).trans (if_pos hid), haged]
    exact ⟨rfl, rfl⟩
  · rw [show s.guardNextCycle p = _ from (if_pos ht).trans (if_neg hid), guard_setGuard, haged]
    exact ⟨rfl, rfl⟩

theorem exec_guardListenTimeout (hlive : s.guardLive p = true) (hdue : s.listenDue (.gd p) = true) : exec (.guardListenTimeout p) s =
    .next (if (s.guard p).net.phase = .listen then
        (if s.ttCsNode (.gd p) then s.setGuard p { s.guard p with
            net := { (s.guard p).net with phase := .coldstart, mode := s.startMode (.gd p) }, csCount := 0, lastStart := none }
         else s.setNet (.gd p) { (s.guard p).net with since := (s.guard p).net.clock })
      else if (s.guard p).net.phase = .integrate ∨ (s.guard p).net.phase = .adopted then s.setNet (.gd p) (relisten (s.guard p).net)
      else s) := by
  refine congrArg Host.Outcome.next ((if_neg (by simp [hlive, hdue])).trans ?_)
  rw [show s.net (.gd p) = (s.guard p).net from rfl]
  cases h : (s.guard p).net.phase <;> simp [h]

theorem exec_guardCycleEnd (hlive : s.guardLive p = true) (hw : (s.guard p).net.wait = none) : exec (.guardCycleEnd p) s =
    .next (if (s.guard p).net.phase = .adopted then ((s.endAdopted (.gd p) 4).noteMembers (.gd p)).guardNextCycle p
      else if (s.guard p).net.phase = .active ∨ (s.guard p).net.phase = .holdover then
        ((s.endOpen (.gd p)).noteMembers (.gd p)).guardNextCycle p
      else s) := by
  refine congrArg Host.Outcome.next ((if_neg (by simp [hlive])).trans ?_)
  have hset : s.settle (.gd p) (fun t w => t.tapUse p w) = s := by
    simp only [State.settle, show (s.net (.gd p)).wait = none from hw]
  simp only [hset, show s.net (.gd p) = (s.guard p).net from rfl]
  cases (s.guard p).net.phase <;> simp

theorem tapFrame_active {q : Port} {own : Bool} {f : KFrame} {rx : Dword} (h : (s.guard p).net.phase = .active ∨ (s.guard p).net.phase = .holdover) :
    s.tapFrame p q own f rx = s.tapActive p q own f rx (pathDelay (s.guard p).net f q own) := by
  simp only [State.tapFrame]
  rw [show s.net (.gd p) = (s.guard p).net from rfl]
  rcases h with h | h <;> simp only [h]

end

/-- Settles O46: the windows, the violations and the commands of a guardian, each from its own lemma. -/
theorem guardiansKeepTheirOwnStatesAndLatch : Obligations.GuardiansKeepTheirOwnStatesAndLatch := by
  refine ⟨fun p at' lasted s => ?_, fun p s => ?_⟩
  · intro g x exempt recent
    have hviols : (s.violsNow p).length = recent + 1 := rfl
    have hruns : x.phase ≠ .off → g.stopped = false → ¬ (((s.guard p).net.phase == NetPhase.off || (s.guard p).stopped) = true) :=
      fun ho hs => by rw [beq_false_of_ne (show (s.guard p).net.phase ≠ .off from ho), show (s.guard p).stopped = false from hs]; decide
    refine ⟨fun ho hs hc => ?_, fun ho hs hc hp => ?_, fun hp hs hc => ?_, fun h => ?_, fun r hr => ⟨fun h => ?_, fun h => ?_⟩, fun hr => ?_,
      fun q f st h => port_cutLine lasted h, fun q => port_cutLinks s p.other q, fun sl r h => slotRoom_limit s p at' sl h,
      fun r h => tailRoom_limit s p at' h, fun r h => coldRoom_limit s p at' h, fun h => ?_, fun h hn => ?_, fun h hn ht hl => ?_,
      fun h => guardLive_of_enablesOpen at' h⟩
    · exact congrArg Host.Outcome.next ((if_neg (hruns ho hs)).trans (if_neg (by simp [hc])))
    · exact congrArg Host.Outcome.next ((if_neg (hruns ho hs)).trans ((if_pos hc).trans (if_neg hp)))
    · refine ⟨_, congrArg Host.Outcome.next ((if_neg (hruns (by rw [hp]; decide) hs)).trans ((if_pos hc).trans (if_pos hp))), ?_⟩
      rw [guard_setGuard]
      exact ⟨rfl, rfl, rfl, rfl⟩
    · refine congrArg Host.Outcome.next (if_pos ?_)
      rcases h with h | h
      · rw [show (s.guard p).net.phase = .off from h]
        rfl
      · rw [show (s.guard p).stopped = true from h, Bool.or_true]
    · refine congrArg Host.Outcome.next ?_
      simp only [hr]
      exact if_pos h
    · refine congrArg Host.Outcome.next ?_
      simp only [hr]
      exact if_neg (Nat.not_le_of_lt h)
    · refine congrArg Host.Outcome.next ?_
      simp only [hr]
    · rw [violation_exempt 31 24 h]
      refine ⟨?_, ?_, (keepsPorts_raisePAll ..).guard p⟩
      · rw [(keepsPorts_raisePAll ..).fld, fld_bump _ _ _ _ _ (by decide)]
        generalize s.fld p.unit Reg.gdViol 15 8 = x
        rfl
      · rw [(keepsPorts_raisePAll ..).fld]
        exact fld_setFld_other _ _ _ _ (by decide)
    · obtain ⟨hc, hw⟩ := count_counted s p
      rw [violation_counted 31 24 h (by omega), guard_counted]
      exact ⟨hc, hw.trans (by omega), rfl⟩
    · rw [violation_latches 31 24 h (by omega) ht hl]
      exact guard_latchGuard _ p
  · intro g x
    refine ⟨fun h => ?_, fun hl hf hm => ?_, fun l => ?_, fun h => ⟨fun q own f ago => ?_, ?_, ?_, ?_⟩, fun h => ?_, fun hlive => ⟨fun hd => ⟨fun hp hcs => ?_, fun hp hcs => ?_, fun hp => ?_⟩,
      fun hp hh => ?_, fun hp hh => ?_, fun hw => ⟨fun hp => ?_, fun hp => ?_, fun hp => ?_⟩, fun ht => net_guardNextCycle ht, fun q own f ago h => ?_, fun q own f ago h1 h2 h3 h4 h5 => ?_⟩⟩
    · rw [show exec (.guardReset p) s = .next (if s.mOn then s.guardUnlatch p else s) from rfl]
      refine congrArg Host.Outcome.next ?_
      split
      · next hm =>
        refine if_neg (?_ : ¬ ((s.guard p).latched && !(s.guard p).fenced) = true)
        rcases h with h | h | h
        · rw [show (s.guard p).latched = false from h, Bool.false_and]
          decide
        · rw [show (s.guard p).fenced = true from h, Bool.not_true, Bool.and_false]
          decide
        · rw [h] at hm
          cases hm
      · rfl
    · refine ⟨(s.unlatched p).setPathIn (7 + p.idx), congrArg Host.Outcome.next ((if_pos hm).trans (guardUnlatch_eq hl hf)), ?_⟩
      rw [(keepsPorts_setPathIn ..).guard, (keepsPorts_setPathIn ..).fld, guard_unlatched]
      exact ⟨rfl, rfl, rfl, hf, fld_setFld_same _ _ _ _ _ _ (by decide)⟩
    · obtain ⟨hflag, hother⟩ := flag_fenceNoted s p l
      rw [exec_guardFenceCommand]
      by_cases h2 : 2 ≤ ((s.fenceNoted p l).fencing p).length
      · rw [if_pos h2]
        refine ⟨_, rfl, ?_⟩
        simp only [flag_fenced, wires_fenced, guard_fenced, implies_true, and_true]
        exact ⟨hflag, rfl, trivial, hother⟩
      · rw [if_neg h2]
        refine ⟨_, rfl, hflag, rfl, id, hother, ?_⟩
        rintro ⟨l', hne, hl'⟩
        exact absurd (two_fencing hne hflag ((hother l' hne).trans hl')) h2
    · exact congrArg Host.Outcome.next (if_pos (by simp [h]))
    · exact congrArg Host.Outcome.next (if_pos (by simp [h]))
    · exact congrArg Host.Outcome.next (if_pos (by simp [h]))
    · exact congrArg Host.Outcome.next (if_neg (by simp [h]))
    · exact congrArg Host.Outcome.next (if_pos (by simp [h]))
    · refine ⟨_, (exec_guardListenTimeout hlive hd).trans (congrArg Host.Outcome.next ((if_pos hp).trans (if_pos hcs))), ?_⟩
      rw [guard_setGuard]
      exact ⟨rfl, rfl⟩
    · exact (exec_guardListenTimeout hlive hd).trans (congrArg Host.Outcome.next ((if_pos hp).trans (if_neg (by simp [hcs]))))
    · refine (exec_guardListenTimeout hlive hd).trans (congrArg Host.Outcome.next ((if_neg fun hl => ?_).trans (if_pos hp)))
      rcases hp with hp | hp <;> exact absurd (hl.symm.trans hp) (by decide)
    · refine congrArg Host.Outcome.next (if_pos ?_)
      rw [hlive, show (s.net (.gd p)).phase = .holdover from hp, decide_eq_true (show s.guardHoldMax p ≤ (s.net (.gd p)).hcount from hh)]
      rfl
    · refine congrArg Host.Outcome.next (if_neg ?_)
      rw [decide_eq_false (Nat.not_le_of_lt (show (s.net (.gd p)).hcount < s.guardHoldMax p from hh)), Bool.and_false]
      decide
    · refine (exec_guardCycleEnd hlive hw).trans (congrArg Host.Outcome.next ((if_neg fun ha => ?_).trans (if_pos hp)))
      rcases hp with hp | hp <;> exact absurd (ha.symm.trans hp) (by decide)
    · exact (exec_guardCycleEnd hlive hw).trans (congrArg Host.Outcome.next (if_pos hp))
    · refine (exec_guardCycleEnd hlive hw).trans (congrArg Host.Outcome.next ((if_neg fun ha => ?_).trans (if_neg fun ha => ?_)))
      · rcases hp with hp | hp | hp | hp <;> exact absurd (ha.symm.trans hp) (by decide)
      · rcases hp with hp | hp | hp | hp <;> rcases ha with ha | ha <;> exact absurd (ha.symm.trans hp) (by decide)
    · refine congrArg Host.Outcome.next (if_pos ?_)
      rcases h with h | h | h | h <;> simp [h]
    · exact congrArg Host.Outcome.next ((if_neg (by simp [hlive, h1, h2, h3, h4])).trans (tapFrame_active h5))

end Sys2Proof.Machine
end

-- ==== Proofs: leases ====
section
/-! The lease timers of the two guardian islands (R344 to R356). -/

namespace Sys2Proof.Machine

section
variable {s t u : State} {p : PDie}

/-! ### What a lease timer touches -/

/-- The port dies stand, and of the registers all but the two that show a lease timer. -/
structure LeaseRegs (p : PDie) (s t : State) : Prop where
  ports : t.ports = s.ports
  reg : ∀ u off, u ≠ p.unit ∨ (off ≠ Reg.lsStat ∧ off ≠ Reg.lsCnt) → u ≠ .m → t.reg u off = s.reg u off

theorem LeaseRegs.refl (p : PDie) (s : State) : LeaseRegs p s s := ⟨rfl, fun _ _ _ _ => rfl⟩

theorem LeaseRegs.trans (h : LeaseRegs p s t) (g : LeaseRegs p t u) : LeaseRegs p s u :=
  ⟨g.ports.trans h.ports, fun u off hu hm => (g.reg u off hu hm).trans (h.reg u off hu hm)⟩

theorem leaseRegs_setReg (s : State) (p : PDie) {off : Nat} (v : Word) (h : off = Reg.lsStat ∨ off = Reg.lsCnt) :
    LeaseRegs p s (s.setReg p.unit off v) := by
  refine ⟨rfl, fun u o ho _ => reg_setReg_other _ _ ?_⟩
  rcases h with rfl | rfl
  · exact ho.imp_right And.left
  · exact ho.imp_right And.right

theorem KeepsPorts.leaseRegs (h : KeepsPorts s t) (p : PDie) : LeaseRegs p s t := ⟨h.ports, fun u off _ hm => h.reg u hm off⟩

theorem LeaseRegs.port (h : LeaseRegs p s t) (d : PDie) : t.port d = s.port d := by simp only [State.port, h.ports]

theorem LeaseRegs.lease (h : LeaseRegs p s t) : t.lease p = s.lease p := congrArg PortDie.lease (h.port p)

theorem LeaseRegs.guard (h : LeaseRegs p s t) : t.guard p = s.guard p := congrArg PortDie.guard (h.port p)

theorem LeaseRegs.keep (h : LeaseRegs p s t) {off : Nat} (h1 : off ≠ Reg.lsStat) (h2 : off ≠ Reg.lsCnt) : t.reg p.unit off = s.reg p.unit off :=
  h.reg _ _ (.inr ⟨h1, h2⟩) (unit_ne_m p)

theorem LeaseRegs.lsLen (h : LeaseRegs p s t) : t.lsLen p = s.lsLen p := by
  simp only [State.lsLen, State.fld, h.keep (show Reg.lsCfg ≠ Reg.lsStat by decide) (by decide)]

theorem LeaseRegs.lsPref (h : LeaseRegs p s t) : t.lsPref p = s.lsPref p := by
  simp only [State.lsPref, State.flag, h.keep (show Reg.lsCfg ≠ Reg.lsStat by decide) (by decide)]

theorem LeaseRegs.setIds (h : LeaseRegs p s t) : t.setIds (.gd p) = s.setIds (.gd p) := by
  have htt : ∀ i, i < 2 → t.tt (.gd p) (Reg.ttSynclist i) = s.tt (.gd p) (Reg.ttSynclist i) := fun i hi =>
    h.keep (by show Reg.ttSynclist i + 0x2100000 ≠ Reg.lsStat; simp only [Reg.ttSynclist, Reg.lsStat]; omega)
      (by show Reg.ttSynclist i + 0x2100000 ≠ Reg.lsCnt; simp only [Reg.ttSynclist, Reg.lsCnt]; omega)
  have hlist : t.syncList (.gd p) = s.syncList (.gd p) := by
    simp only [State.syncList, State.idList]
    refine List.map_congr_left fun i hi => ?_
    have hi' : i / 4 < 2 := by have := List.mem_range.1 hi; omega
    simp only [State.ttf, htt _ hi']
  simp only [State.setIds, hlist, show t.net (.gd p) = s.net (.gd p) from congrArg Guard.net h.guard]

theorem LeaseRegs.qualified (h : LeaseRegs p s t) : t.qualified p = s.qualified p := by
  simp only [State.qualified, State.guardLive, h.guard, h.setIds]

/-! ### Fields of `LS_STAT` -/

/-- A step that leaves `LS_STAT`. -/
theorem leaseRegs_bump (s : State) (p : PDie) (hi lo : Nat) : LeaseRegs p s (s.bump p.unit Reg.lsCnt hi lo) ∧
    (s.bump p.unit Reg.lsCnt hi lo).reg p.unit Reg.lsStat = s.reg p.unit Reg.lsStat :=
  ⟨leaseRegs_setReg s p _ (.inr rfl), reg_setFld_other _ _ _ _ (.inr (by decide))⟩

theorem leaseRegs_setFld (s : State) (p : PDie) (hi lo v : Nat) : LeaseRegs p s (s.setFld p.unit Reg.lsStat hi lo v) :=
  leaseRegs_setReg s p _ (.inl rfl)

theorem leaseRegs_setFlag (s : State) (p : PDie) (i : Nat) (b : Bool) : LeaseRegs p s (s.setFlag p.unit Reg.lsStat i b) :=
  leaseRegs_setReg s p _ (.inl rfl)

theorem leaseRegs_setLeaseState (s : State) (p : PDie) (st : Nat) (v : Half) : LeaseRegs p s (s.setLeaseState p st v) := by
  have h := (leaseRegs_setFld s p 31 30 st).trans (leaseRegs_setFld _ p 15 0 (if st = lsHeld then v.toNat else 0))
  simp only [State.setLeaseState]
  split
  · exact h
  · exact h.trans (KeepsPorts.leaseRegs (keepsPorts_raisePAll ..) p)

/-- The word of `LS_STAT` in a new state. -/
theorem stat_setLeaseState (s : State) (p : PDie) (st : Nat) (v : Half) : (s.setLeaseState p st v).reg p.unit Reg.lsStat =
    withField (withField (s.reg p.unit Reg.lsStat) 31 30 st) 15 0 (if st = lsHeld then v.toNat else 0) := by
  have h : ((s.setFld p.unit Reg.lsStat 31 30 st).setFld p.unit Reg.lsStat 15 0 (if st = lsHeld then v.toNat else 0)).reg p.unit
      Reg.lsStat = withField (withField (s.reg p.unit Reg.lsStat) 31 30 st) 15 0 (if st = lsHeld then v.toNat else 0) := by
    simp only [State.setFld, reg_setReg_same]
  simp only [State.setLeaseState]
  split
  · exact h
  · rw [(keepsPorts_raisePAll ..).reg _ (unit_ne_m p), h]

theorem cnt_setLeaseState (s : State) (p : PDie) (st : Nat) (v : Half) :
    (s.setLeaseState p st v).reg p.unit Reg.lsCnt = s.reg p.unit Reg.lsCnt := by
  have h : ((s.setFld p.unit Reg.lsStat 31 30 st).setFld p.unit Reg.lsStat 15 0 (if st = lsHeld then v.toNat else 0)).reg p.unit
      Reg.lsCnt = s.reg p.unit Reg.lsCnt := by
    rw [reg_setFld_other _ _ _ _ (.inr (by decide)), reg_setFld_other _ _ _ _ (.inr (by decide))]
  simp only [State.setLeaseState]
  split
  · exact h
  · rw [(keepsPorts_raisePAll ..).reg _ (unit_ne_m p), h]

theorem setLeaseState_spec (s : State) (p : PDie) {st : Nat} (v : Half) (hst : st < 4) :
    (s.setLeaseState p st v).leaseState p = st ∧ (s.setLeaseState p st v).silent p = s.silent p ∧
    (s.setLeaseState p st v).fld p.unit Reg.lsStat 15 0 = (if st = lsHeld then v.toNat else 0) ∧
    ∀ i, 16 ≤ i → i < 30 → (s.setLeaseState p st v).flag p.unit Reg.lsStat i = s.flag p.unit Reg.lsStat i := by
  simp only [State.leaseState, State.silent, State.fld, State.flag, stat_setLeaseState]
  refine ⟨?_, ?_, ?_, fun i h1 h2 => ?_⟩
  · rw [fieldOf_withField_other _ _ (by decide), fieldOf_withField _ _ _ _ (by decide)]
    exact Nat.mod_eq_of_lt hst
  · rw [fieldOf_withField_other _ _ (by decide), fieldOf_withField_other _ _ (by decide)]
  · rw [fieldOf_withField _ _ _ _ (by decide)]
    refine Nat.mod_eq_of_lt ?_
    split
    · exact v.isLt
    · decide
  · rw [bitOf_withField_other _ _ (.inr (by omega)), bitOf_withField_other _ _ (.inl h2)]

/-! ### Qualification -/

theorem leaseState_lt (s : State) (p : PDie) : s.leaseState p < 4 := fieldOf_lt _ 31 30

/-- A qualified timer only shows QUAL. -/
theorem requalify_of_qualified (h : s.qualified p = true) : s.requalify p = s.setFlag p.unit Reg.lsStat 28 true := by
  simp only [State.requalify, h, if_true]

/-- QUAL and SILENT of a timer that is not qualified. -/
def State.unqualified (s : State) (p : PDie) : State := (s.setFlag p.unit Reg.lsStat 28 false).setFld p.unit Reg.lsStat 23 16 0

theorem leaseRegs_unqualified (s : State) (p : PDie) : LeaseRegs p s (s.unqualified p) :=
  (leaseRegs_setFlag s p 28 false).trans (leaseRegs_setFld _ p 23 16 0)

theorem fld_setFlag_other (s : State) (u : RUnit) (off : Nat) {hi lo i : Nat} (b : Bool) (h : i < lo ∨ hi < i) :
    (s.setFlag u off i b).fld u off hi lo = s.fld u off hi lo := by
  simp only [State.fld, State.setFlag, reg_setReg_same, fieldOf_withBit_other _ b h]

theorem unqualified_spec (s : State) (p : PDie) : (s.unqualified p).leaseState p = s.leaseState p ∧ (s.unqualified p).silent p = 0 ∧
    (s.unqualified p).flag p.unit Reg.lsStat 28 = false ∧
    ∀ i, 24 ≤ i → i < 30 → i ≠ 28 → (s.unqualified p).flag p.unit Reg.lsStat i = s.flag p.unit Reg.lsStat i := by
  refine ⟨?_, fld_setFld_same _ _ _ _ _ _ (by decide), ?_, fun i h1 h2 h3 => ?_⟩
  · rw [State.unqualified, State.leaseState, fld_setFld_other _ _ _ _ (by decide), fld_setFlag_other _ _ _ _ (by decide), State.leaseState]
  · rw [State.unqualified, flag_setFld_other _ _ _ _ (by decide), flag_setFlag_same _ _ _ _ _ (by decide)]
  · rw [State.unqualified, flag_setFld_other _ _ _ _ (.inr (by omega)), flag_setFlag_other _ _ _ _ h3]

theorem requalify_of_unqualified (h : s.qualified p = false) : s.requalify p = if lsProvisional ≤ s.leaseState p then
    ((s.unqualified p).setLeaseState p lsStandby 0).bumpExpired p else s.unqualified p := by
  rw [← (unqualified_spec s p).1]
  simp only [State.requalify, h]
  rfl

/-- What the timer shows once its qualification is judged. -/
structure Requalified (p : PDie) (s t : State) : Prop where
  regs : LeaseRegs p s t
  qual : t.flag p.unit Reg.lsStat 28 = s.qualified p
  flags : ∀ i, 24 ≤ i → i < 30 → i ≠ 28 → t.flag p.unit Reg.lsStat i = s.flag p.unit Reg.lsStat i
  kept : s.qualified p = true → t = s.setFlag p.unit Reg.lsStat 28 true
  silent : s.qualified p = false → t.silent p = 0
  state : s.qualified p = false → t.leaseState p = if lsProvisional ≤ s.leaseState p then lsStandby else s.leaseState p
  other : s.leaseState p < lsProvisional → ∀ u off, u ≠ p.unit ∨ off ≠ Reg.lsStat → t.reg u off = s.reg u off
  expired : s.qualified p = false → lsProvisional ≤ s.leaseState p →
    t.fld p.unit Reg.lsCnt 15 8 = satAdd 8 (s.fld p.unit Reg.lsCnt 15 8) 1

theorem requalified (s : State) (p : PDie) : Requalified p s (s.requalify p) := by
  cases hq : s.qualified p with
  | true =>
    rw [requalify_of_qualified hq]
    exact ⟨leaseRegs_setFlag .., (flag_setFlag_same _ _ _ _ _ (by decide)).trans hq.symm, fun i _ _ h => flag_setFlag_other _ _ _ _ h,
      fun _ => rfl, fun h => absurd (hq.symm.trans h) (by decide), fun h => absurd (hq.symm.trans h) (by decide),
      fun _ u off h => reg_setFlag_other _ _ _ h, fun h => absurd (hq.symm.trans h) (by decide)⟩
  | false =>
    obtain ⟨hs, hsil, hfl, hfls⟩ := unqualified_spec s p
    have hne : ¬ s.qualified p = true := by rw [hq]; decide
    rw [requalify_of_unqualified hq]
    by_cases hp : lsProvisional ≤ s.leaseState p
    · rw [if_pos hp]
      obtain ⟨hb, hbs⟩ := leaseRegs_bump ((s.unqualified p).setLeaseState p lsStandby 0) p 15 8
      obtain ⟨h1, h2, -, h4⟩ := setLeaseState_spec (s.unqualified p) p (st := lsStandby) 0 (by decide)
      have hfld : ∀ hi lo, (((s.unqualified p).setLeaseState p lsStandby 0).bumpExpired p).fld p.unit Reg.lsStat hi lo =
          ((s.unqualified p).setLeaseState p lsStandby 0).fld p.unit Reg.lsStat hi lo := fun hi lo => congrArg (fieldOf · hi lo) hbs
      have hflag : ∀ i, (((s.unqualified p).setLeaseState p lsStandby 0).bumpExpired p).flag p.unit Reg.lsStat i =
          ((s.unqualified p).setLeaseState p lsStandby 0).flag p.unit Reg.lsStat i := fun i => congrArg (bitOf · i) hbs
      refine ⟨((leaseRegs_unqualified s p).trans (leaseRegs_setLeaseState ..)).trans hb, ?_, fun i ha hb hc => ?_, fun h => absurd h hne,
        fun _ => ?_, fun _ => ?_, fun h => absurd hp (Nat.not_le_of_lt h), fun _ _ => ?_⟩
      · rw [hflag, h4 28 (by decide) (by decide), hfl, hq]
      · rw [hflag, h4 i (by omega) hb, hfls i ha hb hc]
      · rw [State.silent, hfld]
        exact h2.trans hsil
      · rw [State.leaseState, hfld]
        exact h1.trans (if_pos hp).symm
      · have hc : ((s.unqualified p).setLeaseState p lsStandby 0).fld p.unit Reg.lsCnt 15 8 = s.fld p.unit Reg.lsCnt 15 8 := by
          rw [State.fld, cnt_setLeaseState, State.unqualified, reg_setFld_other _ _ _ _ (.inr (by decide)),
            reg_setFlag_other _ _ _ (.inr (by decide)), State.fld]
        rw [State.bumpExpired, fld_bump _ _ _ _ _ (by decide), hc]
        generalize s.fld p.unit Reg.lsCnt 15 8 = x
        rfl
    · rw [if_neg hp]
      exact ⟨leaseRegs_unqualified s p, hfl.trans hq.symm, hfls, fun h => absurd h hne, fun _ => hsil,
        fun _ => hs.trans (if_neg hp).symm,
        fun _ u off h => by rw [State.unqualified, reg_setFld_other _ _ _ _ h, reg_setFlag_other _ _ _ h],
        fun _ h => absurd h hp⟩

theorem Requalified.spec_of_qualified (h : Requalified p s t) (hq : s.qualified p = true) :
    t.leaseState p = s.leaseState p ∧ t.silent p = s.silent p ∧ t.fld p.unit Reg.lsStat 15 0 = s.fld p.unit Reg.lsStat 15 0 := by
  rw [h.kept hq]
  exact ⟨fld_setFlag_other _ _ _ _ (by decide), fld_setFlag_other _ _ _ _ (by decide), fld_setFlag_other _ _ _ _ (by decide)⟩

theorem Requalified.stands (h : Requalified p s t) (hq : s.qualified p = false) : t.leaseState p < lsProvisional := by
  rw [h.state hq]
  split
  · decide
  · omega

/-! ### The start of a cycle -/

/-- The start of a cycle at a timer whose qualification is judged. -/
theorem leaseStart_eq (s : State) (p : PDie) : s.leaseStart p =
    let t := s.requalify p
    if t.leaseState p = lsStandby ∧ s.qualified p = true ∧ t.leaseArmed p = true ∧ (s.lease p).prevOwnSight = true ∧
      s.lsLen p + 2 ≤ t.silent p then t.setLeaseState p lsProvisional 0
    else if t.leaseState p = lsHeld ∧ t.fld p.unit Reg.lsStat 15 0 = (s.guard p).net.cycle.toNat then
      (t.setLeaseState p lsStandby 0).bumpExpired p
    else t := by
  have h := requalified s p
  simp only [State.leaseStart, h.regs.qualified, h.regs.lease, h.regs.lsLen, h.regs.guard]
  rfl

/-- Whatever the timer's state, the start of a cycle leaves QUAL and SILENT as they were judged. -/
theorem leaseStart_shows (s : State) (p : PDie) : (s.leaseStart p).flag p.unit Reg.lsStat 28 = s.qualified p ∧
    (s.qualified p = false → (s.leaseStart p).silent p = 0) := by
  have h := requalified s p
  have hprov := setLeaseState_spec (s.requalify p) p (st := lsProvisional) 0 (by decide)
  have hstd := setLeaseState_spec (s.requalify p) p (st := lsStandby) 0 (by decide)
  have hb := (leaseRegs_bump ((s.requalify p).setLeaseState p lsStandby 0) p 15 8).2
  rw [leaseStart_eq]
  simp only
  split
  · obtain ⟨-, hsil, -, hfl⟩ := hprov
    exact ⟨(hfl 28 (by decide) (by decide)).trans h.qual, fun hq => hsil.trans (h.silent hq)⟩
  · split
    · obtain ⟨-, hsil, -, hfl⟩ := hstd
      exact ⟨((congrArg (bitOf · 28) hb).trans (hfl 28 (by decide) (by decide))).trans h.qual,
        fun hq => ((congrArg (fieldOf · 23 16) hb).trans hsil).trans (h.silent hq)⟩
    · exact ⟨h.qual, h.silent⟩

theorem leaseStart_none (hn : s.leaseState p = lsNone) : s.leaseStart p = s.requalify p := by
  have h := requalified s p
  have hs : (s.requalify p).leaseState p = lsNone := by
    cases hq : s.qualified p with
    | true => exact (h.spec_of_qualified hq).1.trans hn
    | false =>
      rw [h.state hq, hn]
      rfl
  rw [leaseStart_eq]
  simp only [hs]
  rfl

/-! ### The end of a cycle -/

/-- A step of a timer that leaves its flags. -/
structure LeaseFlags (p : PDie) (s t : State) : Prop where
  regs : LeaseRegs p s t
  flag : ∀ i, 24 ≤ i → i < 30 → t.flag p.unit Reg.lsStat i = s.flag p.unit Reg.lsStat i

theorem LeaseFlags.refl (p : PDie) (s : State) : LeaseFlags p s s := ⟨.refl p s, fun _ _ _ => rfl⟩

theorem LeaseFlags.trans (h : LeaseFlags p s t) (g : LeaseFlags p t u) : LeaseFlags p s u :=
  ⟨h.regs.trans g.regs, fun i h1 h2 => (g.flag i h1 h2).trans (h.flag i h1 h2)⟩

theorem leaseFlags_countSilent (s : State) (p : PDie) : LeaseFlags p s (s.countSilent p) :=
  ⟨leaseRegs_setFld .., fun i h1 _ => flag_setFld_other _ _ _ _ (.inr (by omega))⟩

theorem leaseFlags_setLeaseState (s : State) (p : PDie) {st : Nat} (v : Half) (h : st < 4) : LeaseFlags p s (s.setLeaseState p st v) :=
  ⟨leaseRegs_setLeaseState .., fun i h1 h2 => (setLeaseState_spec s p v h).2.2.2 i (by omega) h2⟩

theorem leaseFlags_bump (s : State) (p : PDie) (hi lo : Nat) : LeaseFlags p s (s.bump p.unit Reg.lsCnt hi lo) :=
  ⟨(leaseRegs_bump s p hi lo).1, fun i _ _ => congrArg (bitOf · i) (leaseRegs_bump s p hi lo).2⟩

theorem leaseFlags_endProvisional (s : State) (p : PDie) (v : Half) : LeaseFlags p s (s.endProvisional p v) := by
  have hc := leaseFlags_countSilent s p
  have hb := leaseFlags_bump s p 31 24
  simp only [State.endProvisional]
  (repeat' split)
  · exact hc.trans (leaseFlags_setLeaseState _ p 0 (by decide))
  · exact hb.trans (leaseFlags_setLeaseState _ p 0 (by decide))
  · exact hc.trans (leaseFlags_setLeaseState _ p v (by decide))
  · exact hb.trans (leaseFlags_setLeaseState _ p 0 (by decide))

theorem leaseFlags_endHeld (s : State) (p : PDie) (v : Half) : LeaseFlags p s (s.endHeld p v) := by
  have hstd : ∀ t, LeaseFlags p s t → LeaseFlags p s (t.setLeaseState p lsStandby 0) :=
    fun t h => h.trans (leaseFlags_setLeaseState t p 0 (by decide))
  have hrest : ∀ t, LeaseFlags p s t → LeaseFlags p s (
      if (s.lease p).release then t.setLeaseState p lsStandby 0
      else if (s.lease p).ownPlain then (t.setLeaseState p lsStandby 0).bumpExpired p
      else if ((s.lease p).partHold && (s.lsPref p || (s.lease p).prevPartHold)) && !s.lsPref p then t.setLeaseState p lsStandby 0
      else if (s.lease p).ownRenew then t.setLeaseState p lsHeld v else t) := by
    intro t h
    (repeat' split)
    · exact hstd t h
    · exact (hstd t h).trans (leaseFlags_bump _ p 15 8)
    · exact hstd t h
    · exact h.trans (leaseFlags_setLeaseState t p v (by decide))
    · exact h
  refine hrest _ ?_
  split
  · exact (leaseFlags_countSilent s p).trans (leaseFlags_bump _ p 23 16)
  · exact leaseFlags_countSilent s p

/-- The timer after the end of a cycle was judged, before the flags of the new cycle. -/
def State.leaseJudged (s : State) (p : PDie) (v : Half) : State :=
  if s.leaseState p = lsProvisional then s.endProvisional p v
  else if s.leaseState p = lsHeld then s.endHeld p v
  else if s.qualified p then s.countSilent p else s

theorem leaseFlags_leaseJudged (s : State) (p : PDie) (v : Half) : LeaseFlags p s (s.leaseJudged p v) := by
  rw [State.leaseJudged]
  (repeat' split)
  · exact leaseFlags_endProvisional s p v
  · exact leaseFlags_endHeld s p v
  · exact leaseFlags_countSilent s p
  · exact .refl p s

/-- PARTNER_SEEN follows the sights of two cycles. -/
def State.partnerSeen (s : State) (p : PDie) : State :=
  (s.requalify p).setFlag p.unit Reg.lsStat 26 ((s.lease p).partSight || (s.lease p).prevPartSight)

/-- Until when a lease renewed in this cycle is held. -/
def State.leaseUntil (s : State) (p : PDie) : Half := (s.guard p).net.cycle + BitVec.ofNat 16 (s.lsLen p + 1)

theorem leaseRegs_partnerSeen (s : State) (p : PDie) : LeaseRegs p s (s.partnerSeen p) :=
  (requalified s p).regs.trans (leaseRegs_setFlag ..)

theorem leaseEnd_eq (s : State) (p : PDie) : s.leaseEnd p =
    ((s.partnerSeen p).leaseJudged p (s.leaseUntil p)).setLease p (nextLease (s.lease p)) := by
  have h := (requalified s p).regs
  have hl : ((s.partnerSeen p).leaseJudged p (s.leaseUntil p)).lease p = s.lease p :=
    (leaseFlags_leaseJudged ..).regs.lease.trans (leaseRegs_partnerSeen s p).lease
  rw [← hl]
  simp only [State.leaseEnd, State.leaseUntil, State.partnerSeen, h.lease, h.lsLen, h.guard]
  rfl

theorem fld_partnerSeen (s : State) (p : PDie) {hi lo : Nat} (h : 26 < lo ∨ hi < 26) :
    (s.partnerSeen p).fld p.unit Reg.lsStat hi lo = (s.requalify p).fld p.unit Reg.lsStat hi lo :=
  fld_setFlag_other _ _ _ _ h

/-- Whatever the timer's state, the end of a cycle leaves QUAL and SILENT as they were judged, shows PARTNER_SEEN, and begins
the flags of the next cycle. -/
theorem leaseEnd_shows (s : State) (p : PDie) : (s.leaseEnd p).flag p.unit Reg.lsStat 28 = s.qualified p ∧
    (s.qualified p = false → (s.leaseEnd p).silent p = 0) ∧
    (s.leaseEnd p).flag p.unit Reg.lsStat 26 = ((s.lease p).partSight || (s.lease p).prevPartSight) ∧
    (s.leaseEnd p).lease p = nextLease (s.lease p) := by
  have h := requalified s p
  have hj := leaseFlags_leaseJudged (s.partnerSeen p) p (s.leaseUntil p)
  rw [leaseEnd_eq]
  refine ⟨?_, fun hq => ?_, ?_, ?_⟩
  · refine (hj.flag 28 (by decide) (by decide)).trans ?_
    rw [State.partnerSeen, flag_setFlag_other _ _ _ _ (by decide)]
    exact h.qual
  · have hst : (s.partnerSeen p).leaseState p < lsProvisional := by
      rw [State.leaseState, fld_partnerSeen _ _ (by decide)]
      exact h.stands hq
    have hjq : (s.partnerSeen p).leaseJudged p (s.leaseUntil p) = s.partnerSeen p := by
      rw [State.leaseJudged, if_neg (by omega), if_neg (by simp only [lsProvisional, lsHeld] at hst ⊢; omega),
        (leaseRegs_partnerSeen s p).qualified, hq]
      rfl
    rw [hjq]
    exact (fld_partnerSeen _ _ (by decide)).trans (h.silent hq)
  · refine (hj.flag 26 (by decide) (by decide)).trans ?_
    exact flag_setFlag_same _ _ _ _ _ (by decide)
  · rw [State.lease, State.setLease, port_setPort_same]

/-- The states of a timer that holds nothing, at the end of a cycle. -/
theorem leaseEnd_idle (hs : s.leaseState p < lsProvisional) : s.leaseEnd p =
    (if s.qualified p then (s.partnerSeen p).countSilent p else s.partnerSeen p).setLease p (nextLease (s.lease p)) := by
  have h := requalified s p
  have hst : (s.partnerSeen p).leaseState p < lsProvisional := by
    rw [State.leaseState, fld_partnerSeen _ _ (by decide)]
    cases hq : s.qualified p with
    | true =>
      rw [show (s.requalify p).fld p.unit Reg.lsStat 31 30 = s.leaseState p from (h.spec_of_qualified hq).1]
      exact hs
    | false => exact h.stands hq
  rw [leaseEnd_eq, State.leaseJudged, if_neg (by omega), if_neg (by simp only [lsProvisional, lsHeld] at hst ⊢; omega),
    (leaseRegs_partnerSeen s p).qualified]

/-- The other registers at the end of a cycle of a timer that holds nothing. -/
theorem leaseEnd_other (hs : s.leaseState p < lsProvisional) {u : RUnit} {off : Nat} (hu : u ≠ p.unit ∨ off ≠ Reg.lsStat) :
    (s.leaseEnd p).reg u off = s.reg u off := by
  have hpart : (s.partnerSeen p).reg u off = s.reg u off :=
    (reg_setFlag_other _ _ _ hu).trans ((requalified s p).other hs u off hu)
  rw [leaseEnd_idle hs]
  refine (?_ : State.reg (if s.qualified p then (s.partnerSeen p).countSilent p else s.partnerSeen p) u off = _)
  split
  · exact (reg_setFld_other _ _ _ _ hu).trans hpart
  · exact hpart

theorem leaseEnd_idle_state (hs : s.leaseState p < lsProvisional) : (s.leaseEnd p).leaseState p = s.leaseState p := by
  have h := requalified s p
  have hst : (s.partnerSeen p).leaseState p = s.leaseState p := by
    rw [State.leaseState, fld_partnerSeen _ _ (by decide)]
    cases hq : s.qualified p with
    | true => exact (h.spec_of_qualified hq).1
    | false => exact (h.state hq).trans (if_neg (Nat.not_le_of_lt hs))
  rw [leaseEnd_idle hs]
  refine (?_ : State.leaseState (if s.qualified p then (s.partnerSeen p).countSilent p else s.partnerSeen p) p = _)
  split
  · exact (fld_setFld_other _ _ _ _ (by decide)).trans hst
  · exact hst

theorem leaseEnd_idle_silent (hs : s.leaseState p < lsProvisional) (hq : s.qualified p = true) :
    (s.leaseEnd p).silent p = if (s.lease p).partRenew = true then 0 else satAdd 8 (s.silent p) 1 := by
  have hsil : (s.partnerSeen p).silent p = s.silent p :=
    (fld_partnerSeen _ _ (by decide)).trans ((requalified s p).spec_of_qualified hq).2.1
  rw [leaseEnd_idle hs, if_pos hq]
  refine (fld_setFld_same (s.partnerSeen p) p.unit Reg.lsStat 23 16 _ (by decide)).trans ?_
  rw [(leaseRegs_partnerSeen s p).lease, hsil]
  refine Nat.mod_eq_of_lt ?_
  split
  · decide
  · exact satAdd_lt 8 _ _

theorem leaseEnd_provisional (hs : s.leaseState p = lsProvisional) (hq : s.qualified p = true) : s.leaseEnd p =
    ((s.partnerSeen p).endProvisional p (s.leaseUntil p)).setLease p (nextLease (s.lease p)) := by
  have hst : (s.partnerSeen p).leaseState p = lsProvisional := by
    rw [State.leaseState, fld_partnerSeen _ _ (by decide)]
    exact ((requalified s p).spec_of_qualified hq).1.trans hs
  rw [leaseEnd_eq, State.leaseJudged, if_pos hst]

theorem endProvisional_eq (v : Half) (hr : (s.lease p).release = false) : s.endProvisional p v =
    if (s.lease p).ownRenew = true ∧ (s.lsPref p = true ∨ (s.lease p).partRenew = false) then (s.countSilent p).setLeaseState p lsHeld v
    else (s.bumpHalf p).setLeaseState p lsStandby 0 := by
  simp only [State.endProvisional, hr, Bool.false_eq_true, if_false, Bool.and_eq_true, Bool.or_eq_true, Bool.not_eq_true']

/-! ### Frames and commands -/

theorem leaseFrame_bad {f : KFrame} {ok : Bool}
    (h : f.fcsOk = false ∨ headerOk f = false ∨ s.leasePayloadOk p f = false ∨ ok = false) :
    s.leaseFrame p f ok = s.bump p.unit Reg.lsCnt 7 0 := by
  refine if_pos ?_
  rcases h with h | h | h | h <;> simp [h]

theorem lsCmd_owner {k : Strand} (h : k = s.lsOwner p) : s.lsCmd p k 1 = s.setFlag p.unit Reg.lsStat 29 true ∧
    s.lsCmd p k 2 = s.setFlag p.unit Reg.lsStat 29 false ∧
    (lsProvisional ≤ s.leaseState p → s.lsCmd p k 3 = s.setLease p { s.lease p with release := true }) ∧
    (s.leaseState p < lsProvisional → s.lsCmd p k 3 = s) := by
  refine ⟨?_, ?_, fun hp => ?_, fun hp => ?_⟩ <;> refine (if_neg (not_not.2 h)).trans ?_
  · rfl
  · rfl
  · exact (if_neg (by decide)).trans ((if_neg (by decide)).trans (if_pos ⟨rfl, hp⟩))
  · exact (if_neg (by decide)).trans ((if_neg (by decide)).trans (if_neg fun hc => Nat.not_le_of_lt hp hc.2))

/-! ### The module-held state -/

theorem refreshOut_frame (s : State) (n : Nat) : ∃ os, s.refreshOut n =
    { s.setFlag .f Reg.fdDoStat n (s.expected n) with field := { s.field with outs := os } } := ⟨_, rfl⟩

/-- What the outputs' refresh leaves. -/
theorem refreshOuts_keeps (s : State) : s.refreshOuts.ports = s.ports ∧ s.refreshOuts.lanes = s.lanes ∧
    s.refreshOuts.field.held = s.field.held ∧ ∀ u, u ≠ .f → ∀ off, s.refreshOuts.reg u off = s.reg u off := by
  rw [State.refreshOuts]
  induction List.range 16 generalizing s with
  | nil => exact ⟨rfl, rfl, rfl, fun _ _ _ => rfl⟩
  | cons n ns ih =>
    obtain ⟨os, hs⟩ := refreshOut_frame s n
    obtain ⟨h1, h2, h3, h4⟩ := ih (s.refreshOut n)
    rw [List.foldl_cons, h1, h2, h3]
    refine ⟨by rw [hs]; rfl, by rw [hs]; rfl, by rw [hs], fun u hu off => (h4 u hu off).trans ?_⟩
    rw [hs]
    exact reg_setFlag_other _ _ _ (.inl hu)

/-- A port die shows its view of the module-held state. -/
structure HeldShown (p : PDie) (s t : State) : Prop where
  ports : t.ports = s.ports
  lanes : t.lanes = s.lanes
  flag : t.flag p.unit Reg.lsStat 27 = s.modHeld p
  state : ∀ d, t.leaseState d = s.leaseState d
  reg : ∀ u off, u ≠ p.unit ∨ off ≠ Reg.lsStat → u ≠ .m → t.reg u off = s.reg u off

theorem lanes_raisePAll (s : State) (p : PDie) (off : Nat) : (s.raisePAll p off).lanes = s.lanes := by
  obtain ⟨_, _, _, h⟩ := raisePAll_frame s p off
  rw [h]

theorem showHeld_shown (s : State) (p : PDie) : HeldShown p s (s.showHeld p) := by
  have hk : HeldShown p s (s.setFlag p.unit Reg.lsStat 27 (s.modHeld p)) := by
    refine ⟨rfl, rfl, flag_setFlag_same _ _ _ _ _ (by decide), fun d => ?_, fun u off h _ => reg_setFlag_other _ _ _ h⟩
    by_cases hd : d = p
    · rw [hd]
      exact fld_setFlag_other _ _ _ _ (by decide)
    · have hu : d.unit ≠ p.unit := by cases d <;> cases p <;> first | exact absurd rfl hd | decide
      exact congrArg (fieldOf · 31 30) (reg_setFlag_other s 27 (s.modHeld p) (.inl hu))
  simp only [State.showHeld]
  split
  · exact hk
  · have hr := keepsPorts_raisePAll (s.setFlag p.unit Reg.lsStat 27 (s.modHeld p)) p 63
    exact ⟨hr.ports.trans hk.ports, (lanes_raisePAll ..).trans hk.lanes, (hr.flag p _ _).trans hk.flag,
      fun d => (hr.fld d _ _ _).trans (hk.state d), fun u off h hm => (hr.reg u hm off).trans (hk.reg u off h hm)⟩

theorem modHeld_congr {d : PDie} (hp : (t.port d).heldBy = (s.port d).heldBy) (hl : t.lanes = s.lanes)
    (hr : ∀ l : Lane, ∀ off, t.reg l.unit off = s.reg l.unit off) : t.modHeld d = s.modHeld d := by
  have h : t.holdReports d = s.holdReports d := by
    simp only [State.holdReports, State.lane, State.retired, State.flag, hp, hl, hr]
  rw [State.modHeld, h, State.modHeld]

theorem lane_unit_ne (l : Lane) (p : PDie) : l.unit ≠ p.unit ∧ l.unit ≠ .m ∧ l.unit ≠ .f := by
  cases l <;> cases p <;> decide

/-- The relay of the lanes' reports to a port die. -/
theorem relayHeld_shown (s : State) (p : PDie) : HeldShown p (s.setPort p { s.port p with heldBy := Tri.all s.bothHeld }) (s.relayHeld p) :=
  showHeld_shown _ p

theorem leaseState_relayHeld (s : State) (p d : PDie) : (s.relayHeld p).leaseState d = s.leaseState d :=
  (relayHeld_shown s p).state d

theorem bothHeld_relayHeld (s : State) (p : PDie) : (s.relayHeld p).bothHeld = s.bothHeld := by
  simp only [State.bothHeld, leaseState_relayHeld]

theorem port_relayHeld (s : State) (p d : PDie) :
    (s.relayHeld p).port d = if d = p then { s.port p with heldBy := Tri.all s.bothHeld } else s.port d := by
  simp only [State.port, (relayHeld_shown s p).ports]
  exact port_setPort ..

theorem lanes_relayHeld (s : State) (p : PDie) : (s.relayHeld p).lanes = s.lanes := (relayHeld_shown s p).lanes

theorem reg_relayHeld (s : State) (p : PDie) {u : RUnit} (off : Nat) (h : u ≠ p.unit) (hm : u ≠ .m) :
    (s.relayHeld p).reg u off = s.reg u off := (relayHeld_shown s p).reg u off (.inl h) hm

theorem flag_relayHeld (s : State) (p : PDie) : (s.relayHeld p).flag p.unit Reg.lsStat 27 = (s.relayHeld p).modHeld p := by
  have h := relayHeld_shown s p
  refine h.flag.trans (modHeld_congr ?_ h.lanes fun l off => h.reg _ off (.inl (lane_unit_ne l p).1) (lane_unit_ne l p).2.1).symm
  exact congrArg PortDie.heldBy (congrArg (fun ps => Duo.get ps p) h.ports)

/-- The module-held state after both port dies have it. -/
def State.heldRelayed (s : State) : State := (s.relayHeld .p1).relayHeld .p2

theorem heldRelayed_spec (s : State) (d : PDie) : (s.heldRelayed.port d).heldBy = Tri.all s.bothHeld ∧
    s.heldRelayed.flag d.unit Reg.lsStat 27 = s.heldRelayed.modHeld d ∧ s.heldRelayed.leaseState d = s.leaseState d := by
  refine ⟨?_, ?_, ?_⟩
  · cases d <;> simp [State.heldRelayed, port_relayHeld, bothHeld_relayHeld]
  · cases d with
    | p1 =>
      have hm : s.heldRelayed.modHeld .p1 = (s.relayHeld .p1).modHeld .p1 := modHeld_congr
        (by rw [State.heldRelayed, port_relayHeld, if_neg (by decide)]) (lanes_relayHeld ..)
        fun l off => reg_relayHeld _ _ off (lane_unit_ne l .p2).1 (lane_unit_ne l .p2).2.1
      rw [hm, ← flag_relayHeld, State.flag, State.heldRelayed, reg_relayHeld _ _ _ (by decide) (by decide), State.flag]
    | p2 => exact flag_relayHeld _ .p2
  · rw [State.heldRelayed, leaseState_relayHeld, leaseState_relayHeld]

theorem bothHeld_iff (s : State) : s.bothHeld = true ↔ s.leaseState .p1 = lsHeld ∧ s.leaseState .p2 = lsHeld := by
  simp only [State.bothHeld, Bool.and_eq_true, beq_iff_eq]

/-- The module-held state reaches F. -/
def State.heldAtF (s : State) : State := { s with field := { s.field with held := s.bothHeld } }

theorem exec_modHeldChange (s : State) : exec .modHeldChange s = .next s.heldRelayed.heldAtF.refreshOuts := rfl

theorem modHeldChange_spec (s : State) : let t := s.heldRelayed.heldAtF.refreshOuts
    (t.field.held = true ↔ s.leaseState .p1 = lsHeld ∧ s.leaseState .p2 = lsHeld) ∧
    ∀ d : PDie, (∀ l, (t.port d).heldBy.get l = s.bothHeld) ∧ t.flag d.unit Reg.lsStat 27 = t.modHeld d := by
  intro t
  obtain ⟨hp, hl, hf, hr⟩ := refreshOuts_keeps s.heldRelayed.heldAtF
  have hport : ∀ d, t.port d = s.heldRelayed.port d := fun d => congrArg (fun ps => Duo.get ps d) hp
  refine ⟨?_, fun d => ?_⟩
  · rw [show t.field.held = s.heldRelayed.bothHeld from hf, bothHeld_iff, (heldRelayed_spec s .p1).2.2, (heldRelayed_spec s .p2).2.2]
  · obtain ⟨hby, hfl, -⟩ := heldRelayed_spec s d
    have hu : d.unit ≠ .f := by cases d <;> decide
    refine ⟨fun l => ?_, ?_⟩
    · rw [hport, hby]
      cases l <;> rfl
    · have hm : t.modHeld d = s.heldRelayed.modHeld d := modHeld_congr (by rw [hport]) hl fun l off => hr _ (lane_unit_ne l d).2.2 off
      rw [hm, ← hfl]
      exact congrArg (bitOf · 27) (hr _ hu _)

end

/-- The status word with the timer's state. -/
def State.sampledStatus (s : State) (p : PDie) : Half :=
  withBit (withBit (s.curStatus p) 11 (s.leaseState p == lsHeld)) 7 (s.leaseState p == lsProvisional)

theorem sampledStatus_bits (s : State) (p : PDie) :
    bitOf ((s.setStatusWord p (s.sampledStatus p)).reg p.unit Reg.ttStatusWord) 11 = (s.leaseState p == lsHeld) ∧
    bitOf ((s.setStatusWord p (s.sampledStatus p)).reg p.unit Reg.ttStatusWord) 7 = (s.leaseState p == lsProvisional) := by
  rw [State.setStatusWord, reg_setReg_same]
  simp only [bitOf, BitVec.getLsbD_setWidth, State.sampledStatus, getLsbD_withBit]
  exact ⟨by simp, by simp⟩

/-- Settles O47: the timer's words of `LS_STAT` at each command, and the relay of the module-held state. -/
theorem leaseTimersChangeStateAndHeldLeasesReachOutputs : Obligations.LeaseTimersChangeStateAndHeldLeasesReachOutputs := by
  refine ⟨fun p s => ?_, fun p s => ?_⟩
  · intro n
    refine ⟨fun k hk hr => ?_, fun k hk hr => ?_, fun c hc => ?_, fun hs hq => ?_, ?_, fun hs hq => ?_, fun hs hq => ?_, fun hs hq hn => ?_,
      fun hs hq hrel => ?_, fun q own f ago => ⟨fun hsync hslot => ⟨?_, fun ok h => leaseFrame_bad h⟩, fun h => ?_⟩⟩
    · obtain ⟨h1, h2, h3, h4⟩ := lsCmd_owner hk
      refine ⟨⟨_, congrArg Host.Outcome.next ((atUnit_of_reaches hr).trans h1), rfl⟩,
        ⟨_, congrArg Host.Outcome.next ((atUnit_of_reaches hr).trans h2), rfl⟩,
        fun hp => ⟨_, congrArg Host.Outcome.next ((atUnit_of_reaches hr).trans (h3 hp)), ?_, rfl⟩,
        fun hp => congrArg Host.Outcome.next ((atUnit_of_reaches hr).trans (h4 hp))⟩
      rw [State.lease, State.setLease, port_setPort_same]
    · have hi : ∀ op, s.lsCmd p k op = s.ignored p.unit Reg.lsCmd (.strand k) := fun op => if_pos hk
      exact ⟨congrArg Host.Outcome.next ((atUnit_of_reaches hr).trans (hi 1)), congrArg Host.Outcome.next ((atUnit_of_reaches hr).trans (hi 2)),
        congrArg Host.Outcome.next ((atUnit_of_reaches hr).trans (hi 3))⟩
    · have h := requalified s p
      have hlt : s.leaseState p = lsNone → s.leaseState p < lsProvisional := fun e => by rw [e]; decide
      have hnone : s.leaseState p = lsNone → (s.requalify p).leaseState p = lsNone := fun e => by
        cases hq : s.qualified p with
        | true => exact (h.spec_of_qualified hq).1.trans e
        | false =>
          rw [h.state hq, e]
          rfl
      simp only [List.mem_cons, List.not_mem_nil, or_false] at hc
      rcases hc with rfl | rfl | rfl
      · obtain ⟨hf, hsil⟩ := leaseStart_shows s p
        refine ⟨s.leaseStart p, rfl, fun u off hu e => ?_, fun e => ?_, hf, hsil⟩ <;> rw [leaseStart_none e]
        · exact h.other (hlt e) u off hu
        · exact hnone e
      · obtain ⟨hf, hsil, -, -⟩ := leaseEnd_shows s p
        exact ⟨s.leaseEnd p, rfl, fun u off hu e => leaseEnd_other (hlt e) hu, fun e => (leaseEnd_idle_state (hlt e)).trans e, hf, hsil⟩
      · exact ⟨s.requalify p, rfl, fun u off hu e => h.other (hlt e) u off hu, hnone, h.qual, h.silent⟩
    · exact ⟨s.leaseEnd p, rfl, leaseEnd_idle_state hs, leaseEnd_idle_silent hs hq⟩
    · obtain ⟨-, -, hseen, hl⟩ := leaseEnd_shows s p
      exact ⟨s.leaseEnd p, rfl, hseen, hl⟩
    · have h := requalified s p
      exact ⟨s.requalify p, rfl, (h.state hq).trans (if_pos hs), h.silent hq, h.qual.trans hq, h.expired hq hs⟩
    · obtain ⟨hst, hsil, -⟩ := (requalified s p).spec_of_qualified hq
      have harm : (s.requalify p).leaseArmed p = s.leaseArmed p := (requalified s p).flags 29 (by decide) (by decide) (by decide)
      refine ⟨s.leaseStart p, rfl, ?_⟩
      simp only [leaseStart_eq, hst, hs, hsil, hq, harm, true_and]
      by_cases hc : s.leaseArmed p = true ∧ (s.lease p).prevOwnSight = true ∧ s.lsLen p + 2 ≤ s.silent p
      · rw [if_pos hc]
        exact ⟨fun _ => hc, fun _ => (setLeaseState_spec _ p 0 (by decide)).1⟩
      · rw [if_neg hc, if_neg (fun h => absurd h.1 (by decide))]
        exact ⟨fun h => absurd ((hst.trans hs).symm.trans h) (by decide), fun h => absurd h hc⟩
    · obtain ⟨hst, -, hun⟩ := (requalified s p).spec_of_qualified hq
      refine ⟨s.leaseStart p, rfl, ?_⟩
      simp only [leaseStart_eq, hst, hs]
      rw [if_neg (fun h => absurd h.1 (by decide)), if_pos ⟨trivial, hun.trans hn⟩]
      exact (congrArg (fieldOf · 31 30) (leaseRegs_bump _ p 15 8).2).trans (setLeaseState_spec _ p 0 (by decide)).1
    · have hl := (leaseRegs_partnerSeen s p).lease
      have hpref := (leaseRegs_partnerSeen s p).lsPref
      have hend := leaseEnd_provisional hs hq
      rw [endProvisional_eq _ (by rw [hl]; exact hrel), hl, hpref] at hend
      refine ⟨s.leaseEnd p, rfl, ?_⟩
      rw [hend]
      by_cases hc : (s.lease p).ownRenew = true ∧ (s.lsPref p = true ∨ (s.lease p).partRenew = false)
      · rw [if_pos hc]
        obtain ⟨h1, -, h2, -⟩ := setLeaseState_spec ((s.partnerSeen p).countSilent p) p (st := lsHeld) (s.leaseUntil p) (by decide)
        exact ⟨⟨fun _ => hc, fun _ => ⟨h1, h2.trans (if_pos rfl)⟩⟩, .inl h1⟩
      · rw [if_neg hc]
        obtain ⟨h1, -, -, -⟩ := setLeaseState_spec ((s.partnerSeen p).bumpHalf p) p (st := lsStandby) 0 (by decide)
        exact ⟨⟨fun h => absurd (h1.symm.trans h.1) (by decide), fun h => absurd h hc⟩, .inr h1⟩
    · exact congrArg Host.Outcome.next (if_pos ⟨hsync, hslot⟩)
    · refine congrArg Host.Outcome.next (if_neg fun hc => ?_)
      rcases h with h | h
      · exact absurd (h.symm.trans hc.1) (by decide)
      · exact absurd (h.symm.trans hc.2) (by decide)
  · refine ⟨fun hon => ?_, fun hon => congrArg Host.Outcome.next (if_neg (by simp [hon])), ?_, decide_eq_true_iff, fun l h hl => ?_⟩
    · refine ⟨_, congrArg Host.Outcome.next (if_pos hon), ?_, ?_, ?_, fun u off h => reg_setReg_other _ _ h, rfl⟩
      · rw [port_setPort_same]
        exact modHeld_congr rfl rfl fun l off => reg_setReg_other _ _ (.inl (lane_unit_ne l p).1)
      · exact (Bool.eq_iff_iff.1 (sampledStatus_bits s p).1).trans beq_iff_eq
      · exact (Bool.eq_iff_iff.1 (sampledStatus_bits s p).2).trans beq_iff_eq
    · obtain ⟨h1, h2⟩ := modHeldChange_spec s
      exact ⟨_, exec_modHeldChange s, h1, h2, exec_base rfl (exec_modHeldChange s)⟩
    · simp only [State.holdReports, List.mem_filter, Bool.and_eq_true, Bool.not_eq_true'] at hl
      rcases h with h | h
      · exact absurd (h.symm.trans hl.2.1.2) (by decide)
      · exact absurd (h.symm.trans hl.2.2) (by decide)

end Sys2Proof.Machine
end

-- ==== Proofs: DMA channels ====
section
/-! The channel registers and the quiesce of a port die's DMA (R267 to R270, R290 to R293). -/

namespace Sys2Proof.Machine

section
variable {s t u : State} {p : PDie} {ch : Nat}

/-! ### What the DMA of a port die touches -/

/-- Registers, port dies, links, occurrence numbers and the marks of lost writes; free values may be used up. -/
def DmaOnly (s t : State) : Prop :=
  ∃ rg la cs ps ls ws fr, t = { s with regs := rg, lanes := la, consumers := cs, ports := ps, links := ls, wires := ws, free := fr }

theorem DmaOnly.refl (s : State) : DmaOnly s s := ⟨_, _, _, _, _, _, _, rfl⟩

theorem DmaOnly.trans (h : DmaOnly s t) (g : DmaOnly t u) : DmaOnly s u := by
  obtain ⟨_, _, _, _, _, _, _, rfl⟩ := h
  obtain ⟨_, _, _, _, _, _, _, rfl⟩ := g
  exact ⟨_, _, _, _, _, _, _, rfl⟩

theorem DmaOnly.mgmt (h : DmaOnly s t) : t.mgmt = s.mgmt := by
  obtain ⟨_, _, _, _, _, _, _, rfl⟩ := h
  rfl

theorem dmaOnly_foldl {α : Type} {f : State → α → State} (hf : ∀ t x, DmaOnly t (f t x)) (xs : List α) (s : State) :
    DmaOnly s (xs.foldl f s) := by
  induction xs generalizing s with
  | nil => exact .refl s
  | cons x xs ih => exact (hf s x).trans (ih _)

theorem RegsOnly.dmaOnly (h : RegsOnly s t) : DmaOnly s t := by
  obtain ⟨_, rfl⟩ := h
  exact ⟨_, _, _, _, _, _, _, rfl⟩

theorem dmaOnly_setFld (s : State) (x : RUnit) (off hi lo v : Nat) : DmaOnly s (s.setFld x off hi lo v) := (regsOnly_setFld ..).dmaOnly
theorem dmaOnly_setFlag (s : State) (x : RUnit) (off i : Nat) (b : Bool) : DmaOnly s (s.setFlag x off i b) := (regsOnly_setFlag ..).dmaOnly
theorem dmaOnly_setReg (s : State) (x : RUnit) (off : Nat) (v : Word) : DmaOnly s (s.setReg x off v) := (regsOnly_setReg ..).dmaOnly

theorem dmaOnly_setPort (s : State) (p : PDie) (x : PortDie) : DmaOnly s (s.setPort p x) := ⟨_, _, _, _, _, _, _, rfl⟩

theorem dmaOnly_setChan (s : State) (p : PDie) (ch : Nat) (c : Chan) : DmaOnly s (s.setChan p ch c) := dmaOnly_setPort ..

theorem dmaOnly_mapAct (s : State) (p : PDie) (ch i : Nat) (f : Act → Act) : DmaOnly s (s.mapAct p ch i f) := dmaOnly_setPort ..

theorem dmaOnly_endAct (s : State) (p : PDie) (ch i st a : Nat) : DmaOnly s (s.endAct p ch i st a) := dmaOnly_mapAct ..

theorem dmaOnly_send (s : State) (ws : List Wire) : DmaOnly s (s.send ws) := by
  obtain ⟨_, _, h⟩ := s.send_eq ws
  rw [h]
  exact ⟨_, _, _, _, _, _, _, rfl⟩

theorem dmaOnly_pwFail (s : State) (d : Die) (k : Option Strand) (r : WerrRec) : DmaOnly s (s.pwFail d k r) := by
  obtain ⟨_, _, _, _, h⟩ := pwFail_frame s d k r
  rw [h]
  exact ⟨_, _, _, _, _, _, _, rfl⟩

/-! ### Fetch units -/

theorem dmaOnly_failFetch (s : State) (p : PDie) (f : Fetch) : DmaOnly s (s.failFetch p f) := by
  have h : DmaOnly s (s.endFetch p f.id) := dmaOnly_setPort ..
  simp only [State.failFetch]
  split
  · split
    · exact h.trans (dmaOnly_endAct ..)
    · exact h
  · exact h

theorem dmaOnly_askCopy (s : State) (p : PDie) (id : Nat) (l : Lane) : DmaOnly s (s.askCopy p id l) := by
  simp only [State.askCopy]
  (repeat' split)
  · exact .refl s
  · exact .refl s
  · exact dmaOnly_setPort ..
  · exact .refl s
  · exact (dmaOnly_setPort ..).trans (dmaOnly_send ..)
  · exact dmaOnly_setPort ..

theorem dmaOnly_askCopies (s : State) (p : PDie) (k : Strand) : DmaOnly s (s.askCopies p k) :=
  (dmaOnly_foldl (fun t (f : Fetch) => dmaOnly_foldl (fun t l => dmaOnly_askCopy t p f.id l) _ t) _ s).trans
    (dmaOnly_foldl (fun t f => dmaOnly_failFetch t p f) _ _)

/-! ### Writes -/

theorem dmaOnly_loseWrite (s : State) (l : Lane) (w : Broadcast) (c : Nat) : DmaOnly s (s.loseWrite l w c) := by
  simp only [State.loseWrite]
  split
  · exact (dmaOnly_pwFail ..).trans ⟨_, _, _, _, _, _, _, rfl⟩
  · exact dmaOnly_pwFail ..

theorem dmaOnly_broadcastTo (s : State) (w : Broadcast) (l : Lane) : DmaOnly s (s.broadcastTo w l) := by
  simp only [State.broadcastTo]
  split
  · exact dmaOnly_send ..
  · exact dmaOnly_loseWrite ..

theorem dmaOnly_keepWrite (s : State) (p : PDie) (h : HeldWrite) : DmaOnly s (s.keepWrite p h) :=
  (dmaOnly_setPort ..).trans (((dmaOnly_setFld ..).trans (RegsOnly.dmaOnly (regsOnly_raiseMax ..))))

theorem dmaOnly_broadcast (s : State) (w : Broadcast) : DmaOnly s (s.broadcast w) := by
  rw [State.broadcast]
  split
  · exact dmaOnly_keepWrite ..
  · have hall : DmaOnly s (s.liveLanes.foldl (fun t l => t.broadcastTo w l) s) := dmaOnly_foldl (fun t l => dmaOnly_broadcastTo t w l) _ _
    rw [State.broadcastNow]
    split
    · split
      · exact hall
      · exact dmaOnly_pwFail ..
    · exact hall

theorem dmaOnly_releaseWb (s : State) (p : PDie) (l : Lane) : DmaOnly s (s.releaseWb p l) := by
  simp only [State.releaseWb]
  split
  · exact dmaOnly_setPort ..
  · exact (dmaOnly_setPort ..).trans (dmaOnly_foldl (fun t (h : HeldWrite) => dmaOnly_broadcastTo t h.w l) _ _)

theorem dmaOnly_releaseWbs (s : State) (p : PDie) : DmaOnly s (s.releaseWbs p) := dmaOnly_foldl (fun t l => dmaOnly_releaseWb t p l) _ s

theorem dmaOnly_sendWb (s : State) (p : PDie) (h : HeldWrite) : DmaOnly s (s.sendWb p h) := by
  rw [State.sendWb]
  split
  · exact dmaOnly_keepWrite ..
  · exact dmaOnly_foldl (fun t l => (dmaOnly_setPort ..).trans (dmaOnly_releaseWb ..)) _ s

theorem dmaOnly_putWb (s : State) (p : PDie) (ch addr : Nat) (bs : List Byte) (a : Act) (e : Bool) :
    DmaOnly s (s.putWb p ch addr bs a e) := by
  have hocc : DmaOnly s (s.wbOcc p ch e).1 := by
    by_cases h : (e && s.vectorFitted (32 + 64 * p.idx + (if 20 ≤ ch then ch + 2 else ch))) = true
    · rw [show s.wbOcc p ch e = _ from if_pos h]
      exact ⟨_, _, _, _, _, _, _, rfl⟩
    · rw [show s.wbOcc p ch e = _ from if_neg h]
      exact .refl s
  exact hocc.trans (dmaOnly_sendWb ..)

theorem dmaOnly_putChained (s : State) (p : PDie) (ch : Nat) (a : Act) : DmaOnly s (s.putChained p ch a) := by
  rw [State.putChained]
  split
  · exact DmaOnly.trans ⟨_, _, _, _, _, _, _, rfl⟩ (dmaOnly_putWb ..)
  · exact dmaOnly_putWb ..

/-! ### Activations -/

theorem dmaOnly_startFetch (s : State) (p : PDie) (ch i a n : Nat) : DmaOnly s (s.startFetch p ch i a n) := by
  simp only [State.startFetch]
  split
  · exact .refl s
  · exact ((dmaOnly_setPort ..).trans (dmaOnly_mapAct ..)).trans (dmaOnly_askCopies ..)

theorem dmaOnly_askNext (s : State) (p : PDie) (ch : Nat) (a : Act) : DmaOnly s (s.askNext p ch a) := by
  simp only [State.askNext]
  (repeat' split) <;> first | exact .refl s | exact dmaOnly_startFetch .. | exact dmaOnly_endAct ..

theorem dmaOnly_nextRead (s : State) (p : PDie) (ch i : Nat) : DmaOnly s (s.nextRead p ch i) := by
  simp only [State.nextRead]
  (repeat' split) <;> first | exact .refl s | exact dmaOnly_setFld .. | exact dmaOnly_askNext ..

theorem dmaOnly_enableChan (s : State) (p : PDie) (ch : Nat) (b : Bool) : DmaOnly s (s.enableChan p ch b) := by
  simp only [State.enableChan]
  split
  · exact (dmaOnly_setFlag ..).trans (dmaOnly_setFlag ..)
  · exact ((((dmaOnly_setFlag ..).trans (dmaOnly_setFlag ..)).trans (dmaOnly_setReg ..)).trans (dmaOnly_setFld ..)).trans (dmaOnly_setChan ..)

/-- A halting status after a write-back. -/
theorem dmaOnly_afterWb (s : State) (p : PDie) (ch : Nat) (a : Act) (st : Nat) : DmaOnly s (s.afterWb p ch a st) := by
  have hhead : DmaOnly s ((s.setFld p.unit (Reg.dmIdx ch) 11 0 ((a.index + 1) % (s.chan p ch).size)).bumpWrap p.unit (Reg.dmCnt ch) 15 0) :=
    (dmaOnly_setFld ..).trans (dmaOnly_setFld ..)
  simp only [State.afterWb]
  split
  · refine DmaOnly.trans ?_ (dmaOnly_releaseWbs ..)
    refine DmaOnly.trans ?_ (dmaOnly_setReg ..)
    refine DmaOnly.trans ?_ (dmaOnly_setReg ..)
    refine DmaOnly.trans ?_ (dmaOnly_setFld ..)
    refine DmaOnly.trans ?_ (dmaOnly_setFld ..)
    exact (hhead.trans (dmaOnly_setChan ..)).trans (dmaOnly_setPort ..)
  · have hacts := fun c => hhead.trans (dmaOnly_setChan _ p ch c)
    (repeat' split)
    · exact hacts _
    · exact ((hacts _).trans (dmaOnly_setFld ..)).trans (dmaOnly_enableChan ..)
    · exact (hacts _).trans (dmaOnly_setFld ..)
    · exact (hacts _).trans (dmaOnly_setFld ..)
    · exact hacts _

theorem dmaOnly_ite {c : Prop} [Decidable c] {s t u : State} (ht : DmaOnly s t) (hu : DmaOnly s u) : DmaOnly s (if c then t else u) := by
  split
  · exact ht
  · exact hu

theorem dmaOnly_completeAct (s : State) (p : PDie) (ch : Nat) (a : Act) : DmaOnly s (s.completeAct p ch a) := by
  have hcrc : ∀ (c : Prop) [Decidable c] (x : Nat) (bs : List Byte), DmaOnly s (if c then s.dmaWrite p ch x bs else s) :=
    fun c _ x bs => dmaOnly_ite (dmaOnly_broadcast ..) (.refl s)
  simp only [State.completeAct]
  split
  · refine DmaOnly.trans (DmaOnly.trans (dmaOnly_ite ?_ ?_) (dmaOnly_mapAct ..)) (dmaOnly_nextRead ..)
    · exact (hcrc _ _ _).trans (dmaOnly_mapAct ..)
    · exact (hcrc _ _ _).trans (dmaOnly_putChained ..)
  · have hfree : ∀ t, DmaOnly s t → DmaOnly s t.useFree := fun t h => h.trans ⟨_, _, _, _, _, _, _, rfl⟩
    refine DmaOnly.trans (DmaOnly.trans (dmaOnly_ite (hfree _ ?_) ?_) (dmaOnly_putWb ..)) (dmaOnly_afterWb ..)
    all_goals exact dmaOnly_ite (hcrc _ _ _) ((hcrc _ _ _).trans (dmaOnly_putChained ..))

theorem dmaOnly_completeList (s : State) (p : PDie) (ch : Nat) (acts : List Act) : DmaOnly s (s.completeList p ch acts) := by
  induction acts generalizing s with
  | nil => exact .refl s
  | cons a rest ih =>
    rw [State.completeList]
    split
    · exact dmaOnly_setChan ..
    · exact ((dmaOnly_setChan ..).trans (dmaOnly_completeAct ..)).trans (ih _)

theorem dmaOnly_abortChan (s : State) (p : PDie) (ch domain : Nat) : DmaOnly s (s.abortChan p ch domain) := by
  simp only [State.abortChan]
  split
  · exact .refl s
  · exact (dmaOnly_setChan ..).trans (dmaOnly_completeList ..)

theorem dmaOnly_powerAbort (s : State) (p : PDie) (domain : Nat) : DmaOnly s (s.powerAbort p domain) :=
  ((dmaOnly_foldl (fun t ch => dmaOnly_abortChan t p ch domain) _ s).trans (dmaOnly_setPort ..)).trans (dmaOnly_releaseWbs ..)

/-! ### Asking for copies -/

/-- What asking for the copies of fetch units leaves: registers, lanes, and the instant of a quiesce. -/
structure AsksOnly (p : PDie) (s t : State) : Prop where
  regs : t.regs = s.regs
  lanes : t.lanes = s.lanes
  asked : (t.port p).quiesceAt = (s.port p).quiesceAt

theorem AsksOnly.refl (p : PDie) (s : State) : AsksOnly p s s := ⟨rfl, rfl, rfl⟩

theorem AsksOnly.trans (h : AsksOnly p s t) (g : AsksOnly p t u) : AsksOnly p s u :=
  ⟨g.regs.trans h.regs, g.lanes.trans h.lanes, g.asked.trans h.asked⟩

theorem asksOnly_foldl {α : Type} {f : State → α → State} (hf : ∀ t x, AsksOnly p t (f t x)) (xs : List α) (s : State) :
    AsksOnly p s (xs.foldl f s) := by
  induction xs generalizing s with
  | nil => exact .refl p s
  | cons x xs ih => exact (hf s x).trans (ih _)

theorem asksOnly_setPort (s : State) {x : PortDie} (h : x.quiesceAt = (s.port p).quiesceAt) : AsksOnly p s (s.setPort p x) :=
  ⟨rfl, rfl, by rw [port_setPort_same, h]⟩

theorem asksOnly_failFetch (s : State) (p : PDie) (f : Fetch) : AsksOnly p s (s.failFetch p f) := by
  have h : AsksOnly p s (s.endFetch p f.id) := asksOnly_setPort s rfl
  simp only [State.failFetch]
  split
  · split
    · exact h.trans (asksOnly_setPort _ rfl)
    · exact h
  · exact h

theorem asksOnly_send (s : State) (p : PDie) (ws : List Wire) : AsksOnly p s (s.send ws) := by
  obtain ⟨_, _, h⟩ := s.send_eq ws
  rw [h]
  exact ⟨rfl, rfl, rfl⟩

theorem asksOnly_askCopy (s : State) (p : PDie) (id : Nat) (l : Lane) : AsksOnly p s (s.askCopy p id l) := by
  have hput : ∀ f, AsksOnly p s (s.putFetch p f) := fun f => asksOnly_setPort s rfl
  simp only [State.askCopy]
  (repeat' split)
  · exact .refl p s
  · exact .refl p s
  · exact hput _
  · exact .refl p s
  · exact (hput _).trans (asksOnly_send ..)
  · exact hput _

theorem asksOnly_askCopies (s : State) (p : PDie) (k : Strand) : AsksOnly p s (s.askCopies p k) :=
  (asksOnly_foldl (fun t (f : Fetch) => asksOnly_foldl (fun t l => asksOnly_askCopy t p f.id l) _ t) _ s).trans
    (asksOnly_foldl (fun t f => asksOnly_failFetch t p f) _ _)

/-! ### The registers of a channel -/

theorem ofCode_code (x : ChState) : ChState.ofCode (x.code % 8) = x := by cases x <;> decide

theorem chState_setChState (s : State) (p : PDie) (ch : Nat) (x : ChState) : (s.setChState p ch x).chState p ch = x := by
  rw [State.chState, State.setChState, fld_setFld_same _ _ _ _ _ _ (by decide)]
  exact ofCode_code x

theorem chState_of_stat (h : t.reg p.unit (Reg.dmStat ch) = s.reg p.unit (Reg.dmStat ch)) : t.chState p ch = s.chState p ch := by
  simp only [State.chState, State.fld, h]

theorem chIdx_of_reg (h : t.reg p.unit (Reg.dmIdx ch) = s.reg p.unit (Reg.dmIdx ch)) :
    t.chHead p ch = s.chHead p ch ∧ t.chTail p ch = s.chTail p ch := by
  simp only [State.chHead, State.chTail, State.fld, h, and_self]

/-- The registers of one channel lie at different offsets. -/
theorem chan_regs_apart (ch : Nat) : Reg.dmCtl ch ≠ Reg.dmStat ch ∧ Reg.dmCtl ch ≠ Reg.dmIdx ch ∧ Reg.dmIdx ch ≠ Reg.dmStat ch := by
  simp only [Reg.dmCtl, Reg.dmStat, Reg.dmIdx]
  omega

theorem chan_setChan (s : State) (p : PDie) (c : Chan) (h : ch < (s.port p).chans.length) : (s.setChan p ch c).chan p ch = c := by
  rw [State.chan, State.setChan, port_setPort_same]
  simp only [List.getElem?_set_self h, Option.getD_some]

theorem atChan_of_there {m : Master} {off : Nat} (hc : s.chanThere p ch = true) (hr : s.reachesUnit m p.unit off) (t : State) :
    s.atChan m p ch off t = t := by
  have hlt : ch < 28 := by
    simp only [State.chanThere, Bool.and_eq_true, decide_eq_true_eq] at hc
    exact hc.1.2
  rw [State.atChan, if_pos hlt, atUnit_of_reaches hr, if_pos hc]

theorem dmCtlWrite_of_writer {m : Master} (h : s.chanWriter m p ch = true) (v : Word) : s.dmCtlWrite m p ch v =
    let t := if bitOf v 1 then s.writeResume p ch else s
    if bitOf v 0 then t.writeEn1 p ch else t.writeEn0 p ch := if_neg (by simp [h])

theorem dmCtlWrite_of_other {m : Master} (h : s.chanWriter m p ch = false) (v : Word) :
    s.dmCtlWrite m p ch v = s.ignored p.unit (Reg.dmCtl ch) m := if_pos (by simp [h])

/-- The ring of a channel, as its registers give it. -/
def State.ringSize (s : State) (p : PDie) (ch : Nat) : Nat := 2 ^ min 12 (max 4 (s.fld p.unit (Reg.dmRcfg ch) 3 0))
def State.ringBase (s : State) (p : PDie) (ch : Nat) : Nat := (s.reg64 p.unit (Reg.dmBaseLo ch)).toNat

/-- The registers of a channel that EN starts. -/
def State.chanStarted (s : State) (p : PDie) (ch : Nat) : State :=
  (((s.setFlag p.unit (Reg.dmCtl ch) 0 true).setFlag p.unit (Reg.dmStat ch) 20 false).setReg p.unit (Reg.dmIdx ch) 0).setChState p ch .idle

theorem enableChan_started (hp : placeOf (s.chOwner p ch) (s.ringBase p ch) (32 * s.ringSize p ch) = .partition)
    (ha : s.ringBase p ch % 4096 = 0) : s.enableChan p ch false = (s.chanStarted p ch).setChan p ch { (s.chanStarted p ch).chan p ch with
      acts := [], base := s.ringBase p ch, size := s.ringSize p ch, again := false, handed := [] } := by
  refine if_neg ?_
  rw [show placeOf (s.chOwner p ch) (s.reg64 p.unit (Reg.dmBaseLo ch)).toNat (32 * 2 ^ min 12 (max 4 (s.fld p.unit (Reg.dmRcfg ch) 3 0))) =
    .partition from hp, show (s.reg64 p.unit (Reg.dmBaseLo ch)).toNat % 4096 = 0 from ha]
  decide

theorem chanStarted_spec (s : State) (p : PDie) (ch : Nat) : (s.chanStarted p ch).chState p ch = .idle ∧
    (s.chanStarted p ch).flag p.unit (Reg.dmCtl ch) 0 = true ∧ (s.chanStarted p ch).chHead p ch = 0 ∧ (s.chanStarted p ch).chTail p ch = 0 := by
  obtain ⟨h1, h2, h3⟩ := chan_regs_apart ch
  have hidx : (s.chanStarted p ch).reg p.unit (Reg.dmIdx ch) = 0 := by
    rw [State.chanStarted, State.setChState, reg_setFld_other _ _ _ _ (.inr h3), reg_setReg_same]
  refine ⟨chState_setChState .., ?_, ?_, ?_⟩
  · rw [State.chanStarted, State.setChState, State.flag, reg_setFld_other _ _ _ _ (.inr h1), reg_setReg_other _ _ (.inr h2),
      reg_setFlag_other _ _ _ (.inr h1)]
    exact flag_setFlag_same _ _ _ _ _ (by decide)
  · rw [State.chHead, State.fld, hidx]
    decide
  · rw [State.chTail, State.fld, hidx]
    decide

theorem aligned_of_and {x : Dword} (h : x &&& 0xFFF = 0) : x.toNat % 4096 = 0 := by
  have := congrArg BitVec.toNat h
  rw [BitVec.toNat_and] at this
  exact (Nat.and_two_pow_sub_one_eq_mod x.toNat 12).symm.trans this

/-! ### The registers of a quiesce -/

theorem request_bits : ∀ d : BitVec 3, bitOf (BitVec.ofNat 32 (0x200 + d.toNat)) 12 = false ∧
    bitOf (BitVec.ofNat 32 (0x200 + d.toNat)) 9 = true ∧ fieldOf (BitVec.ofNat 32 (0x200 + d.toNat)) 2 0 = d.toNat := by decide

theorem release_bits : ∀ x < 4, bitOf (0x1000 + BitVec.ofNat 32 x : Word) 12 = true ∧ bitOf (0x1000 + BitVec.ofNat 32 x : Word) 9 = false ∧
    fieldOf (0x1000 + BitVec.ofNat 32 x : Word) 2 0 = x := by decide

/-- The flags of a quiesce. -/
def State.quiesceFlags (s : State) (p : PDie) (req ack tmo : Bool) : State :=
  ((s.setFlag p.unit Reg.dmQuiesce 9 req).setFlag p.unit Reg.dmQuiesce 10 ack).setFlag p.unit Reg.dmQuiesce 11 tmo

theorem quiesceFlags_spec (s : State) (p : PDie) (a b c : Bool) : (s.quiesceFlags p a b c).flag p.unit Reg.dmQuiesce 9 = a ∧
    (s.quiesceFlags p a b c).flag p.unit Reg.dmQuiesce 10 = b ∧ (s.quiesceFlags p a b c).flag p.unit Reg.dmQuiesce 11 = c ∧
    (s.quiesceFlags p a b c).fld p.unit Reg.dmQuiesce 2 0 = s.fld p.unit Reg.dmQuiesce 2 0 := by
  refine ⟨?_, ?_, ?_, ?_⟩
  · rw [State.quiesceFlags, flag_setFlag_other _ _ _ _ (by decide), flag_setFlag_other _ _ _ _ (by decide),
      flag_setFlag_same _ _ _ _ _ (by decide)]
  · rw [State.quiesceFlags, flag_setFlag_other _ _ _ _ (by decide), flag_setFlag_same _ _ _ _ _ (by decide)]
  · exact flag_setFlag_same _ _ _ _ _ (by decide)
  · rw [State.quiesceFlags, fld_setFlag_other _ _ _ _ (by decide), fld_setFlag_other _ _ _ _ (by decide),
      fld_setFlag_other _ _ _ _ (by decide)]

/-- A quiesce that is asked for, before the reads that it keeps back are given up. -/
def State.quiesceAsked (s : State) (p : PDie) (domain : Nat) : State :=
  let t := (s.setFld p.unit Reg.dmQuiesce 2 0 domain).quiesceFlags p true false false
  t.setPort p { t.port p with quiesceAt := t.ns }

theorem quiesceWrite_request {d : BitVec 3} (hd : d.toNat ≤ 3) (hf : s.flag p.unit Reg.dmQuiesce 9 = false) :
    s.quiesceWrite .mgmt p (BitVec.ofNat 32 (0x200 + d.toNat)) =
      Strand.list.foldl (fun t k => t.askCopies p k) (s.quiesceAsked p d.toNat) := by
  obtain ⟨h12, h9, hfld⟩ := request_bits d
  have hd' : ¬ ((Master.mgmt ≠ .mgmt) ∨ 3 < d.toNat) := fun h => h.elim (fun h => h rfl) (Nat.not_lt_of_le hd)
  simp only [State.quiesceWrite, h12, h9, hfld, Bool.false_eq_true, if_false, hf]
  rw [if_neg hd', if_pos (by rw [flag_setFld_other _ _ _ _ (.inr (by decide)), hf]; rfl)]
  rfl

theorem quiesceWrite_release {x : Nat} (hx : x < 4) : s.quiesceWrite .mgmt p (0x1000 + BitVec.ofNat 32 x) =
    (s.quiesceFlags p false false false).setFld p.unit Reg.dmQuiesce 2 0 x := by
  obtain ⟨h12, h9, hfld⟩ := release_bits x hx
  have hd' : ¬ ((Master.mgmt ≠ .mgmt) ∨ 3 < x) := fun h => h.elim (fun h => h rfl) (Nat.not_lt_of_le (by omega))
  have hflag : State.flag (((s.setFlag p.unit Reg.dmQuiesce 9 false).setFlag p.unit Reg.dmQuiesce 10 false).setFlag p.unit
      Reg.dmQuiesce 11 false) p.unit Reg.dmQuiesce 9 = false := (quiesceFlags_spec s p false false false).1
  simp only [State.quiesceWrite, h12, h9, hfld, if_true, Bool.false_and, Bool.false_eq_true, if_false, hflag]
  rw [if_neg hd']
  rfl

theorem downGo_of_none (h : s.mgmt.down = none) : s.downGo = s := by
  rw [State.downGo]
  split
  · exact foldl_eq_self _ fun _ => by simp only [State.downStep, h]
  · rfl

theorem setView_mgmt (s : State) (i : Nat) (v : UnitView) : (s.setView i v).mgmt = s.mgmt := by
  have hraise : ∀ t : State, (t.raiseAll .m 218).mgmt = t.mgmt := fun t => by
    obtain ⟨_, _, _, h⟩ := raiseAll_frame t .m 218
    rw [h]
  have hlog : ∀ (t : State) (arg : List Nat), (t.logEv 6 none .mgDisagree arg).mgmt = t.mgmt := fun t arg => by
    obtain ⟨_, h⟩ := logEv_frame t 6 none .mgDisagree arg
    rw [h]
  by_cases h : v = s.viewOf i ∨ viewsAgree v = true
  · rw [show s.setView i v = { s with views := s.views.set i v } from if_pos h]
  · rw [show s.setView i v = ((s.disagreeShown i v).raiseAll .m 218).logEv 6 none .mgDisagree [i, v.mg, bitNat v.out] from if_neg h,
      hlog, hraise]
    rfl

/-- The power of a retired lane goes; the port dies stand. -/
theorem powerOffRetired_keeps (s : State) (domain : Nat) : KeepsPorts s (s.powerOffRetired domain) ∧
    (s.powerOffRetired domain).mgmt = s.mgmt := by
  rw [State.powerOffRetired]
  split
  · next l _ =>
    split
    · have hf : KeepsPorts s ((s.setFlag .m Reg.mgPwr l.idx false).setFlag .m Reg.mgPwr (3 + l.idx) false) :=
        ⟨rfl, rfl, fun u hu off => by rw [reg_setFlag_other _ _ _ (.inl hu), reg_setFlag_other _ _ _ (.inl hu)]⟩
      generalize hx : (s.setFlag .m Reg.mgPwr l.idx false).setFlag .m Reg.mgPwr (3 + l.idx) false = x at hf ⊢
      exact ⟨hf.trans (keepsPorts_setView x l.idx _), (setView_mgmt x l.idx _).trans (by rw [← hx]; rfl)⟩
    · exact ⟨.refl s, rfl⟩
  · exact ⟨.refl s, rfl⟩

/-- A channel that EN 0 stops, with its EN bit cleared. -/
def State.enCleared (s : State) (p : PDie) (ch : Nat) : State := s.setFlag p.unit (Reg.dmCtl ch) 0 false

theorem writeEn0_idle (hst : s.chState p ch = .idle) (ha : (s.chan p ch).acts = []) : s.writeEn0 p ch =
    (((s.enCleared p ch).setChan p ch { (s.enCleared p ch).chan p ch with acts := [], again := false, handed := [] }).dropUndecided
      p ch none).setChState p ch .off := by
  have hp : inProgress ch (s.chan p ch).acts = [] := by
    rw [ha, inProgress]
    split <;> rfl
  refine (if_neg (by simp [hst])).trans ((if_neg (by simp [hst])).trans ((if_neg ?_).trans rfl))
  rw [hp]
  simp

/-- The rules of R270 for a doorbell. -/
def State.bellOk (s : State) (p : PDie) (ch : Nat) (v : Word) : Prop :=
  (s.chState p ch = .idle ∨ s.chState p ch = .running ∨ s.chState p ch = .halted) ∧ fieldOf v 11 0 < (s.chan p ch).size ∧
    s.ringBound p ch = none ∧ (fieldOf v 11 0 + (s.chan p ch).size - s.chTail p ch) % (s.chan p ch).size ≤
      (s.chHead p ch + 2 * (s.chan p ch).size - s.chTail p ch - 1) % (s.chan p ch).size

/-- TAIL moves. -/
def State.tailMoved (s : State) (p : PDie) (ch : Nat) (v : Word) : State := s.setFld p.unit (Reg.dmIdx ch) 27 16 (fieldOf v 11 0)

theorem tailMoved_spec (s : State) (p : PDie) (ch : Nat) (v : Word) :
    (s.tailMoved p ch v).chTail p ch = fieldOf v 11 0 ∧ (s.tailMoved p ch v).chHead p ch = s.chHead p ch := by
  refine ⟨?_, ?_⟩
  · rw [State.chTail, State.tailMoved, fld_setFld_same _ _ _ _ _ _ (by decide)]
    exact Nat.mod_eq_of_lt (fieldOf_lt v 11 0)
  · rw [State.chHead, State.tailMoved, fld_setFld_other _ _ _ _ (by decide), State.chHead]

theorem doorbell_eq {m : Master} (hw : s.chanWriter m p ch = true) (v : Word) :
    (s.bellOk p ch v → s.doorbell m p ch v =
      if (fieldOf v 11 0 + (s.chan p ch).size - s.chTail p ch) % (s.chan p ch).size = 0 then s.tailMoved p ch v
      else (s.tailMoved p ch v).setChan p ch { s.chan p ch with handed := (s.chan p ch).handed ++
        [(s.releasedOrd p m, (fieldOf v 11 0 + (s.chan p ch).size - s.chTail p ch) % (s.chan p ch).size)] }) ∧
    (¬ s.bellOk p ch v → s.doorbell m p ch v = s.bump p.unit (Reg.dmCnt ch) 31 24) := by
  have hok : ((s.chState p ch == .idle || s.chState p ch == .running || s.chState p ch == .halted) &&
      decide (fieldOf v 11 0 < (s.chan p ch).size) &&
      decide ((fieldOf v 11 0 + (s.chan p ch).size - s.chTail p ch) % (s.chan p ch).size ≤
        (s.chHead p ch + 2 * (s.chan p ch).size - s.chTail p ch - 1) % (s.chan p ch).size) && (s.ringBound p ch).isNone) = true ↔
      s.bellOk p ch v := by
    simp only [State.bellOk, Bool.and_eq_true, Bool.or_eq_true, beq_iff_eq, decide_eq_true_eq, Option.isNone_iff_eq_none, or_assoc]
    constructor
    · rintro ⟨⟨⟨h1, h2⟩, h3⟩, h4⟩
      exact ⟨h1, h2, h4, h3⟩
    · rintro ⟨h1, h2, h4, h3⟩
      exact ⟨⟨⟨h1, h2⟩, h3⟩, h4⟩
  have hw' : ¬ (!s.chanWriter m p ch) = true := by simp [hw]
  exact ⟨fun h => (if_neg hw').trans (if_pos (hok.2 h)), fun h => (if_neg hw').trans (if_neg (mt hok.1 h))⟩

end

/-- Settles O48, by the equation of each write of `DM_CTL`, of a doorbell and of `DM_QUIESCE`. -/
theorem dmaChannelsFollowTheirControls : Obligations.DmaChannelsFollowTheirControls := by
  intro m p ch s
  refine ⟨fun hc hw hr => ⟨fun hst hrb hal hpl hlen => ?_, fun hst hacts => ?_, fun hst hen => ?_, fun v hv hrd => ⟨fun hok => ?_, fun hok => ?_⟩⟩,
    fun hc hw hr => ⟨?_, ?_, ?_, fun v hrd => ?_⟩, fun d hm hrun hf hd => ?_, fun h9 h10 => ⟨fun ho => ?_, fun ho hdn => ?_, fun hlt => ?_, fun hle hdn => ?_⟩,
    fun hm hrun hfld => ?_⟩
  · have he : s.dmCtlWrite m p ch 1 = s.enableChan p ch false := by
      rw [dmCtlWrite_of_writer hw]
      show State.writeEn1 s p ch = _
      rw [State.writeEn1, if_pos hst, hrb]
      rfl
    obtain ⟨h1, h2, h3, h4⟩ := chanStarted_spec s p ch
    have hlen' : ch < ((s.chanStarted p ch).port p).chans.length := hlen
    refine ⟨_, congrArg Host.Outcome.next ((atChan_of_there hc hr _).trans (he.trans (enableChan_started hpl (aligned_of_and hal)))),
      h1, h2, h3, h4, ?_, ?_, rfl⟩ <;> rw [chan_setChan _ _ _ hlen'] <;> rfl
  · have he : s.dmCtlWrite m p ch 0 = s.writeEn0 p ch := dmCtlWrite_of_writer hw 0
    have hex : exec (.dmaDisable m p ch) s = .next _ :=
      congrArg Host.Outcome.next (((atChan_of_there hc hr (s.dmCtlWrite m p ch 0)).trans he).trans (writeEn0_idle hst hacts))
    refine ⟨_, hex, chState_setChState .., ?_, exec_base rfl hex⟩
    rw [State.setChState, State.flag, reg_setFld_other _ _ _ _ (.inr (chan_regs_apart ch).1)]
    exact flag_setFlag_same _ _ _ _ _ (by decide)
  · have he : s.dmCtlWrite m p ch (2 + BitVec.ofNat 32 (bitNat (s.flag p.unit (Reg.dmCtl ch) 0))) =
        s.setChState p ch (if s.chHead p ch = s.chTail p ch then .idle else .running) := by
      rw [dmCtlWrite_of_writer hw, hen]
      show State.writeEn1 (s.writeResume p ch) p ch = _
      rw [State.writeResume, if_pos hst, State.writeEn1, chState_setChState]
      split <;> rfl
    exact ⟨_, congrArg Host.Outcome.next ((atChan_of_there hc hr _).trans he), chState_setChState .., rfl, rfl⟩
  · obtain ⟨ht, hh⟩ := tailMoved_spec s p ch v
    have hex : s.atChan m p ch (Reg.dmDb ch) (if s.chanWriter m p ch && fieldOf v 31 12 != 0 then s.logRsvd p.unit (Reg.dmDb ch) m
        else s.doorbell m p ch v) = _ := (atChan_of_there hc hrd _).trans ((if_neg (by simp [hv])).trans ((doorbell_eq hw v).1 hok))
    refine ⟨_, congrArg Host.Outcome.next hex, ?_⟩
    split
    · next hn => exact ⟨ht, hh, rfl, fun _ => rfl, fun hne => absurd hn hne⟩
    · next hn => exact ⟨ht, hh, rfl, fun h0 => absurd h0 hn, fun _ hlen => chan_setChan _ _ _ hlen⟩
  · exact congrArg Host.Outcome.next ((atChan_of_there hc hrd _).trans ((if_neg (by simp [hv])).trans ((doorbell_eq hw v).2 hok)))
  · exact congrArg Host.Outcome.next ((atChan_of_there hc hr _).trans (dmCtlWrite_of_other hw _))
  · exact congrArg Host.Outcome.next ((atChan_of_there hc hr _).trans (dmCtlWrite_of_other hw _))
  · exact congrArg Host.Outcome.next ((atChan_of_there hc hr _).trans (dmCtlWrite_of_other hw _))
  · exact congrArg Host.Outcome.next ((atChan_of_there hc hrd _).trans ((if_neg (by simp [hw])).trans (if_pos (by simp [hw]))))
  · have hasks : AsksOnly p (s.quiesceAsked p d.toNat) (Strand.list.foldl (fun t k => t.askCopies p k) (s.quiesceAsked p d.toNat)) :=
      asksOnly_foldl (fun t k => asksOnly_askCopies t p k) _ _
    have hreg := fun off => reg_of_regs hasks.regs p.unit off
    obtain ⟨h9, h10, h11, hdom⟩ := quiesceFlags_spec (s.setFld p.unit Reg.dmQuiesce 2 0 d.toNat) p true false false
    have hflag : ∀ i, State.flag (Strand.list.foldl (fun t k => t.askCopies p k) (s.quiesceAsked p d.toNat)) p.unit Reg.dmQuiesce i =
        ((s.setFld p.unit Reg.dmQuiesce 2 0 d.toNat).quiesceFlags p true false false).flag p.unit Reg.dmQuiesce i :=
      fun i => congrArg (bitOf · i) (hreg Reg.dmQuiesce)
    refine ⟨_, congrArg Host.Outcome.next ((if_pos (by simp [hm, hrun])).trans (quiesceWrite_request hd hf)),
      (hflag 9).trans h9, (hflag 10).trans h10, (hflag 11).trans h11, ?_, hasks.asked.trans ?_, hasks.lanes⟩
    · refine (congrArg (fieldOf · 2 0) (hreg Reg.dmQuiesce)).trans (hdom.trans ?_)
      rw [fld_setFld_same _ _ _ _ _ _ (by decide)]
      exact Nat.mod_eq_of_lt d.isLt
    · rw [State.quiesceAsked, port_setPort_same]
      rfl
  · exact congrArg Host.Outcome.next (if_neg (by simp [ho]))
  · obtain ⟨hk, hmg⟩ := powerOffRetired_keeps (s.setFlag p.unit Reg.dmQuiesce 10 true) (s.fld p.unit Reg.dmQuiesce 2 0)
    refine ⟨_, congrArg Host.Outcome.next ((if_pos (by simp [h9, h10, ho])).trans (downGo_of_none ((congrArg (·.down) hmg).trans hdn))), ?_, hk.ports⟩
    exact (hk.flag p _ _).trans (flag_setFlag_same _ _ _ _ _ (by decide))
  · refine congrArg Host.Outcome.next (if_neg ?_)
    rw [decide_eq_false (Nat.not_le_of_lt hlt), Bool.and_false]
    decide
  · have hab := (dmaOnly_powerAbort s p (s.fld p.unit Reg.dmQuiesce 2 0)).mgmt
    obtain ⟨hk, hmg⟩ := powerOffRetired_keeps (((s.powerAbort p (s.fld p.unit Reg.dmQuiesce 2 0)).setFlag p.unit Reg.dmQuiesce 11
      true).setFlag p.unit Reg.dmQuiesce 10 true) (s.fld p.unit Reg.dmQuiesce 2 0)
    refine ⟨_, congrArg Host.Outcome.next ((if_pos ?_).trans (downGo_of_none ((congrArg (·.down) (hmg.trans hab)).trans hdn))), ?_, ?_⟩
    · rw [h9, h10, decide_eq_true hle]
      rfl
    · exact (hk.flag p _ _).trans (flag_setFlag_same _ _ _ _ _ (by decide))
    · refine (hk.flag p _ _).trans ?_
      rw [flag_setFlag_other _ _ _ _ (by decide), flag_setFlag_same _ _ _ _ _ (by decide)]
  · obtain ⟨g9, g10, g11, -⟩ := quiesceFlags_spec s p false false false
    have hout : ∀ i, 9 ≤ i → ((s.quiesceFlags p false false false).setFld p.unit Reg.dmQuiesce 2 0 (s.fld p.unit Reg.dmQuiesce 2 0)).flag
        p.unit Reg.dmQuiesce i = (s.quiesceFlags p false false false).flag p.unit Reg.dmQuiesce i :=
      fun i hi => flag_setFld_other _ _ _ _ (.inr (by omega))
    exact ⟨_, congrArg Host.Outcome.next ((if_pos (by simp [hm, hrun])).trans (quiesceWrite_release (Nat.lt_succ_of_le hfld))),
      (hout 9 (by decide)).trans g9, (hout 10 (by decide)).trans g10, (hout 11 (by decide)).trans g11, rfl, rfl⟩

end Sys2Proof.Machine
end

-- ==== Proofs: descriptors of a ring ====
section
/-! The start of a descriptor (R271, R291). -/

namespace Sys2Proof.Machine

/-- After reset, with one descriptor in the ring of a KTN_TX channel and a quiesce of lane A's memory requested, lane A retired but
still in the set of the die's voter. -/
def retiredInSet : State :=
  ((((State.reset.setFld .p1 (Reg.dmStat 0) 23 21 1).setFld .p1 (Reg.dmIdx 0) 27 16 1).setFlag .p1 Reg.dmQuiesce 9 true).setFld .p1
    Reg.dmQuiesce 2 0 1).setFlag .la Reg.rjLane 0 true

/-- The fetch units that a command leaves at P1. -/
def fetchesAfter : Out → List Fetch
  | .next t => (t.port .p1).fetches
  | _ => []

/-- The start of the descriptor there asks for no copy: the fetch unit would be read from the quiesced lane. -/
theorem fetchesAfter_retiredInSet : fetchesAfter (exec (.descriptorStart .p1 0) retiredInSet) = [] := by decide

/-- Refutes O49: a quiesce of a retired lane's memory stops no descriptor, since its write-back goes to no retired lane, but it stops
the fetch unit while the voter's set still holds the lane (R291); the clause about the start asks only for the first. -/
theorem not_descriptorsAreFetchedByVoteAndWrittenBack : ¬ Obligations.DescriptorsAreFetchedByVoteAndWrittenBack := by
  intro h
  obtain ⟨hstart, -⟩ := h .p1 0 retiredInSet
  obtain ⟨t, ht, -, -, -, f, hf, -⟩ := hstart (by decide) (by decide) (by decide) (by decide) (.inl (by decide)) (by decide) (by decide)
    (by decide) (by decide) (by decide)
  have hnone : (t.port .p1).fetches = [] := (congrArg fetchesAfter ht).symm.trans fetchesAfter_retiredInSet
  rw [hnone] at hf
  cases hf

end Sys2Proof.Machine
end

-- ==== Proofs: the Gallery ====
section
/-! An engine between two COMMON destinations of one trigger event (R299, R303). -/

namespace Sys2Proof.Machine

/-- The firing of trigger 0 that the engine works through: COMMON destinations 0 and 1 are left. -/
def commonEvent : GwEvent := .trigger 0 0

/-- After reset, with COMMON destinations 0 and 1 of P1, a trigger whose occurrence follows its broadcasts (EVT 1), and engine 0 at
the first of the two. -/
def atFirstCommon : State :=
  let s := (State.reset.setReg .p1 (Reg.gwPduCfg 0) 0xE0000000).setReg .p1 (Reg.gwPduCfg 1) 0xE0000000
  let s := (s.setFlag .p1 (Reg.tbTrigCtl 0) 25 true).setEngState .p1 false 1
  let s := s.setConsumer .p1 { s.consumer .p1 with running := true }
  s.setGw .p1 { s.gw .p1 with pdus := [⟨0, [], [], false, false, none⟩], work0 := some (commonEvent, [0, 1]) }

/-- How many occurrences P1 has numbered for the strand that owns the trigger. -/
def occurrencesAfter : Out → Nat
  | .next t => ((t.consumer .p1).occNum.get .s0).toNat
  | _ => 0

/-- The engine keeps the occurrence back for destination 1, which it has not processed yet. -/
theorem occurrencesAfter_atFirstCommon :
    occurrencesAfter (exec (.gwEventProcess .p1 false) atFirstCommon) = 1 := by decide

/-- With the rest of the event forgotten, destination 0 would be its last one and bring the occurrence. -/
theorem occurrencesAfter_restForgotten : occurrencesAfter (.next (((atFirstCommon.setGwWork .p1 false none).endProcessing .p1 false
    commonEvent 0).beginWork .p1 false commonEvent [1])) = 2 := by decide

/-- Refutes O50: while a destination ends, the engine still holds the rest of its event, by which the occurrence of a trigger waits
for the last COMMON broadcast (R299); the clause lets the destination end with an engine that holds nothing. -/
theorem not_galleryTakesArrivalsAndWorksThroughEvents : ¬ Obligations.GalleryTakesArrivalsAndWorksThroughEvents := by
  intro h
  obtain ⟨-, -, -, -, -, -, hengines, -⟩ := h .p1 .s0 0 atFirstCommon (by decide)
  obtain ⟨-, -, hnext⟩ := hengines false (by decide)
  have hsame := congrArg occurrencesAfter (hnext commonEvent 0 [1] rfl)
  rw [occurrencesAfter_atFirstCommon, occurrencesAfter_restForgotten] at hsame
  exact absurd hsame (by decide)

end Sys2Proof.Machine
end

-- ==== Proofs: remote reads ====
section
/-! The tags of remote reads (R316) and the management queue (R377). -/

namespace Sys2Proof.Machine

theorem tag_rrTag (s : State) (p : PDie) (k : Strand) (n : Nat) : (s.rrTag p k n).tag = n := by
  rw [State.rrTag]
  cases h : (s.rrTags p k).find? fun t => t.tag == n with
  | none => rfl
  | some t => simpa using List.find?_some h

theorem rrTag_of_port {s t : State} {p : PDie} (h : t.port p = s.port p) (k : Strand) (n : Nat) : t.rrTag p k n = s.rrTag p k n := by
  rw [State.rrTag, State.rrTags, h]
  rfl

theorem port_raiseP (s : State) (p q : PDie) (k : Strand) (off : Nat) : (s.raiseP p k off).port q = s.port q := by
  obtain ⟨_, _, _, h⟩ := raiseP_frame s p k off
  rw [h]
  rfl

theorem quad_get_set_same {α : Type} (t : Quad α) (k : Strand) (x : α) : (t.set k x).get k = x := by
  rw [Quad.get_set, if_pos rfl]

theorem rrTags_setRrTag (s : State) (p : PDie) (k : Strand) (t : RrTag) :
    (s.setRrTag p k t).rrTags p k = t :: (s.rrTags p k).filter fun x => x.tag != t.tag := by
  show ((s.setPort p { s.port p with tags := _ }).port p).tags.get k = _
  rw [port_setPort_same]
  exact quad_get_set_same ..

theorem rrTag_setRrTag_same (s : State) (p : PDie) (k : Strand) (t : RrTag) : (s.setRrTag p k t).rrTag p k t.tag = t := by
  rw [State.rrTag, rrTags_setRrTag, List.find?_cons_of_pos (by simp)]
  rfl

theorem rrTag_setRrTag_other (s : State) (p : PDie) (k : Strand) (t : RrTag) {n : Nat} (h : n ≠ t.tag) :
    (s.setRrTag p k t).rrTag p k n = s.rrTag p k n := by
  have hf : ((s.rrTags p k).filter fun x => x.tag != t.tag).find? (fun x => x.tag == n) = (s.rrTags p k).find? fun x => x.tag == n := by
    rw [List.find?_filter]
    refine congrArg (fun f => List.find? f _) (funext fun x => ?_)
    by_cases hx : x.tag = n <;> simp [hx, h]
  rw [State.rrTag, rrTags_setRrTag, List.find?_cons_of_neg (by simpa using Ne.symm h), hf]
  rfl

theorem mgAll_setRrTag (s : State) (p : PDie) (k : Strand) (t : RrTag) : ((s.setRrTag p k t).port p).mgAll = (s.port p).mgAll := by
  show ((s.setPort p { s.port p with tags := _ }).port p).mgAll = _
  rw [port_setPort_same]
  rfl

/-- A stored response is the tag's, whose generation and use stay. -/
theorem rrTag_storeRr (s : State) (p : PDie) (k : Strand) (n st : Nat) (d : List Byte) :
    (s.storeRr p k n st d).rrTag p k n = { s.rrTag p k n with resp := some (st, d), since := s.ns } := by
  have h := rrTag_setRrTag_same s p k { s.rrTag p k n with resp := some (st, d), since := s.ns }
  rw [show RrTag.tag { s.rrTag p k n with resp := some (st, d), since := s.ns } = n from tag_rrTag s p k n] at h
  rw [State.storeRr, rrTag_of_port (port_raiseP ..), h]

theorem mgAll_refillMg (x : PortDie) : x.refillMg.mgAll = x.mgAll := by
  simp [PortDie.refillMg, PortDie.mgAll]

theorem exec_rrRequest {k : Strand} {p : PDie} {lo hi : Word} {s : State} (hon : s.rrOn p = true)
    (hr : s.reachesUnit (.strand k) p.unit (Reg.gwRrReqHi k.idx)) (h₁ : fieldOf lo 15 6 = 0) (h₂ : fieldOf hi 31 25 = 0)
    (h₃ : fieldOf hi 15 11 = 0) : exec (.rrRequest k p lo hi) s = .next (s.rrAsk p k lo hi) := by
  refine congrArg Host.Outcome.next ((atUnit_of_reaches hr).trans ?_)
  rw [if_neg (by simp [hon]), if_neg (by simp [h₁, h₂, h₃])]

theorem rrCfgNs_bounds (s : State) (p : PDie) (lo : Nat) : 1000000 ≤ s.rrCfgNs p lo ∧ s.rrCfgNs p lo ≤ 1000000000 := by
  unfold State.rrCfgNs
  omega

/-- What is not a response to this node is not taken. -/
theorem exec_rrResponseReceive_other {p : PDie} {bs : List Byte} {s : State}
    (h : isRr bs = false ∨ (rrOf bs).svc ≠ 2 ∨ (rrOf bs).peer.toNat ≠ (s.port p).net.id) :
    exec (.rrResponseReceive p bs) s = .next s := by
  refine congrArg Host.Outcome.next ?_
  obtain h | h | h := h
  · exact if_neg (by simp [h])
  · exact if_neg (by simp [h])
  · rw [State.rrTake, if_pos h, ite_self]

/-- The conditions under which a request is timed out, one by one. -/
theorem exec_rrTimeout_early {p : PDie} {k : Strand} {n : Nat} {s : State} (h : (s.rrTag p k n).used = false ∨
    (s.rrTag p k n).resp ≠ none ∨ s.rrUnsent p k (s.rrTag p k n) = true ∨ s.ns < (s.rrTag p k n).since + s.rrCfgNs p 0) :
    exec (.rrTimeout p k n) s = .next s := by
  refine congrArg Host.Outcome.next (if_neg ?_)
  obtain h | h | h | h := h
  · simp [h]
  · simp [h]
  · simp [h]
  · simp only [Bool.and_eq_true, decide_eq_true_eq, not_and]
    intro _
    omega

/-- What a write of `GW_RR_FREE[k]` leaves of the tags and of the queue. -/
theorem rrFree_spec (s : State) (p : PDie) (k : Strand) {v : Word} (hv : fieldOf v 31 6 = 0) :
    ((s.rrFree p k v).rrTag p k (fieldOf v 5 0)).used = false ∧
    ((s.rrFree p k v).rrTag p k (fieldOf v 5 0)).gen = (s.rrTag p k (fieldOf v 5 0)).gen ∧
    (∀ n, n ≠ fieldOf v 5 0 → (s.rrFree p k v).rrTag p k n = s.rrTag p k n) ∧
    ((s.rrFree p k v).port p).mgAll = (s.port p).mgAll.filter fun m =>
      !((s.rrTag p k (fieldOf v 5 0)).used && isRequestOf k (s.rrTag p k (fieldOf v 5 0)) m) := by
  rw [State.rrFree, if_neg (by simp [hv])]
  dsimp only
  have htag := tag_rrTag s p k (fieldOf v 5 0)
  generalize fieldOf v 5 0 = n at htag ⊢
  generalize s.rrTag p k n = r at htag ⊢
  subst htag
  generalize ht : s.setPort p _ = t
  have hrest : t.rrTags p k = s.rrTags p k := by
    subst ht
    rw [State.rrTags, port_setPort_same]
    rfl
  have hsame : (t.setRrTag p k { r with used := false, resp := none }).rrTag p k r.tag = { r with used := false, resp := none } :=
    rrTag_setRrTag_same t p k { r with used := false, resp := none }
  refine ⟨congrArg RrTag.used hsame, (congrArg RrTag.gen hsame :), fun n hn => ?_, ?_⟩
  · rw [rrTag_setRrTag_other t p k _ (show n ≠ RrTag.tag { r with used := false, resp := none } from hn), State.rrTag, hrest]
    rfl
  · rw [mgAll_setRrTag, ← ht, port_setPort_same, mgAll_refillMg]
    exact (List.filter_append _ _).symm

theorem rrTag_asked (s : State) (p : PDie) (k : Strand) (n : Nat) (g : Byte) (st : Nat) :
    ∃ t, (s.setRrTag p k ⟨n, g, true, none, s.ns⟩).storeRr p k n st [] = t ∧ (t.rrTag p k n).used = true ∧
      (t.rrTag p k n).gen = g ∧ (t.rrTag p k n).resp = some (st, []) := by
  have h := rrTag_setRrTag_same s p k ⟨n, g, true, none, s.ns⟩
  refine ⟨_, rfl, ?_⟩
  rw [rrTag_storeRr, h]
  exact ⟨rfl, rfl, rfl⟩

theorem discarded_spec (s : State) (p : PDie) (k : Strand) (n : Nat) :
    ∃ t, (s.setRrTag p k { s.rrTag p k n with used := false, resp := none }).bump p.unit (Reg.gwRrStat k.idx) 31 24 = t ∧
      (t.rrTag p k n).used = false ∧ (t.rrTag p k n).resp = none ∧
      t.fld p.unit (Reg.gwRrStat k.idx) 31 24 = satAdd 8 (s.fld p.unit (Reg.gwRrStat k.idx) 31 24) 1 := by
  have h := rrTag_setRrTag_same s p k { s.rrTag p k n with used := false, resp := none }
  rw [show RrTag.tag { s.rrTag p k n with used := false, resp := none } = n from tag_rrTag s p k n] at h
  refine ⟨_, rfl, ?_⟩
  rw [show ∀ t : State, (t.bump p.unit (Reg.gwRrStat k.idx) 31 24).rrTag p k n = t.rrTag p k n from fun _ => rfl, h]
  refine ⟨rfl, rfl, ?_⟩
  rw [fld_bump _ _ _ _ _ (by decide), State.setRrTag, fld_setFld_other _ _ _ _ (.inr (by decide))]
  rfl

/-- Settles O51: a tag in the list of its strand is the one that was last put there, and what waits in the management queue keeps
its order. -/
theorem remoteReadsUseOneTagEach : Obligations.RemoteReadsUseOneTagEach := by
  intro k p s hon
  refine ⟨fun lo hi h₁ h₂ h₃ hr => ?_, fun bs h₁ h₂ h₃ => ?_, fun bs h => exec_rrResponseReceive_other h, fun n h₁ h₂ h₃ h₄ => ?_,
    fun n h => exec_rrTimeout_early h, fun v hv hr => ?_, rrCfgNs_bounds s p, fun n h₁ h₂ h₃ => ?_, ?_, fun f bs rest hq hf hbs => ?_⟩
  · rw [exec_rrRequest hon hr h₁ h₂ h₃]
    refine ⟨fun hused => ?_, fun hused hbad => ?_, fun hused hl₀ hl hn₀ hn hid => ⟨fun hup => ?_, fun hup hslot => ?_⟩⟩
    · exact congrArg Host.Outcome.next (if_pos hused)
    · obtain ⟨t, ht, hspec⟩ := rrTag_asked s p k (fieldOf lo 5 0) ((s.rrTag p k (fieldOf lo 5 0)).gen + 1) 5
      exact ⟨t, congrArg Host.Outcome.next ((if_neg (by simp [hused])).trans ((if_pos hbad).trans ht)), hspec⟩
    · obtain ⟨t, ht, -, -, hresp⟩ := rrTag_asked s p k (fieldOf lo 5 0) ((s.rrTag p k (fieldOf lo 5 0)).gen + 1) 6
      refine ⟨t, congrArg Host.Outcome.next ((if_neg (by simp [hused])).trans ((if_neg ?_).trans ((if_pos ?_).trans ht))), hresp⟩
      · simp only [hl₀, hn₀, hn, hid, or_false, false_or]
        omega
      · simpa using hup
    · refine congrArg Host.Outcome.next ((if_neg (by simp [hused])).trans ((if_neg ?_).trans (if_neg ?_)))
      · simp only [hl₀, hn₀, hn, hid, or_false, false_or]
        omega
      · simp [hup, hslot]
  · refine congrArg Host.Outcome.next ((if_pos (by simp [hon, h₁, h₂])).trans ?_)
    rw [State.rrTake, if_neg (not_not.mpr h₃), if_neg (by simp [h₂]), if_pos h₂]
  · exact congrArg Host.Outcome.next (if_pos (by simp [hon, h₁, h₂, h₃, h₄]))
  · exact ⟨_, congrArg Host.Outcome.next ((atUnit_of_reaches hr).trans (if_pos hon)), rrFree_spec s p k hv⟩
  · obtain ⟨t, ht, hspec⟩ := discarded_spec s p k n
    exact ⟨t, congrArg Host.Outcome.next ((if_pos (by simp [hon, h₁, Option.isSome_iff_ne_none, h₂, h₃])).trans ht), hspec⟩
  · exact ⟨_, congrArg Host.Outcome.next (if_pos hon), congrArg PortDie.mgq (port_setPort_same ..), rfl⟩
  · subst hbs
    rw [hq]
    cases f with
    | plain x => exact absurd rfl (hf x)
    | answer => rfl

end Sys2Proof.Machine
end

-- ==== Proofs: CAN controllers ====
section
/-! The mode, the error counters and the candidates of a CAN controller (R310 to R314). -/

namespace Sys2Proof.Machine

theorem fld_raiseP (s : State) (p : PDie) (k : Strand) (v : Nat) (u : RUnit) (off hi lo : Nat) :
    (s.raiseP p k v).fld u off hi lo = s.fld u off hi lo := by
  obtain ⟨_, _, _, h⟩ := raiseP_frame s p k v
  rw [h]
  rfl

theorem lanes_raiseP (s : State) (p : PDie) (k : Strand) (v : Nat) : (s.raiseP p k v).lanes = s.lanes := by
  obtain ⟨_, _, _, h⟩ := raiseP_frame s p k v
  rw [h]

theorem fld_lt (s : State) (u : RUnit) (off hi lo : Nat) : s.fld u off hi lo < 2 ^ (hi + 1 - lo) := fieldOf_lt ..

/-! ### The controller's own writes (R310, R311) -/

theorem exec_canModeWrite {m : Master} {p : PDie} {c : Bool} {v : Word} {s : State} (hon : s.canThere p = true)
    (hr : s.reachesUnit m p.unit (Reg.cnCtl (bitNat c))) :
    exec (.canModeWrite m p c v) s = .next (s.canCtlWrite m p c v) :=
  congrArg Host.Outcome.next ((atUnit_of_reaches hr).trans (if_pos hon))

theorem canCtlWrite_allowed {m : Master} {p : PDie} {c : Bool} {v : Word} {s : State} (hw : s.canWriter m p c = true)
    (hv : fieldOf v 31 3 = 0) : s.canCtlWrite m p c v =
      if bitOf v 2 then (s.writeCanMode p c (fieldOf v 1 0)).startRecovery p c else s.writeCanMode p c (fieldOf v 1 0) :=
  (if_neg (by simp [hv])).trans (if_neg (by simp [hw]))

/-- A write of RECOVER beside a mode. -/
theorem recover_word {n : Nat} (h : n < 4) : fieldOf (4 + BitVec.ofNat 32 n) 31 3 = 0 ∧ fieldOf (4 + BitVec.ofNat 32 n) 1 0 = n ∧
    bitOf (4 + BitVec.ofNat 32 n) 2 = true := by
  interval_cases n <;> decide

theorem exec_recover {m : Master} {p : PDie} {c : Bool} {s : State} (hon : s.canThere p = true)
    (hr : s.reachesUnit m p.unit (Reg.cnCtl (bitNat c))) (hw : s.canWriter m p c = true) : exec (.recover m p c) s = .next
      ((s.writeCanMode p c (s.fld p.unit (Reg.cnCtl (bitNat c)) 1 0)).startRecovery p c) := by
  obtain ⟨hres, hmode, hrec⟩ := recover_word (fld_lt s p.unit (Reg.cnCtl (bitNat c)) 1 0)
  refine congrArg Host.Outcome.next ((atUnit_of_reaches hr).trans ((if_pos hon).trans ?_))
  rw [canCtlWrite_allowed hw hres, if_pos hrec, hmode]

theorem canRecovered_spec {p : PDie} {c : Bool} {s : State} (hon : s.canThere p = true) (h4 : s.canState p c = 4) :
    ∃ t, exec (.canRecoveryDone p c) s = .next t ∧ t.canState p c = (if s.canMode p c = .init then 0 else 1) ∧
      t.fld p.unit (Reg.cnStat (bitNat c)) 15 8 = 0 ∧ t.fld p.unit (Reg.cnStat (bitNat c)) 7 0 = 0 := by
  refine ⟨_, congrArg Host.Outcome.next (if_pos (by simp [hon, h4])), ?_⟩
  generalize hz : (s.setFld p.unit (Reg.cnStat (bitNat c)) 15 8 0).setFld p.unit (Reg.cnStat (bitNat c)) 7 0 0 = z
  have hmode : z.canMode p c = s.canMode p c := by
    subst hz
    have hne : Reg.cnCtl (bitNat c) ≠ Reg.cnStat (bitNat c) := by cases c <;> decide
    rw [State.canMode, State.fld, reg_setFld_other _ _ _ _ (.inr hne), reg_setFld_other _ _ _ _ (.inr hne)]
    rfl
  simp only [State.canState, State.raiseCstat, fld_raiseP, State.setCanState]
  refine ⟨?_, ?_, ?_⟩
  · rw [fld_setFld_same _ _ _ _ _ _ (by decide), hmode]
    split <;> rfl
  · rw [fld_setFld_other _ _ _ _ (.inl (by decide)), ← hz, fld_setFld_other _ _ _ _ (.inr (by decide)),
      fld_setFld_same _ _ _ _ _ _ (by decide)]
    rfl
  · rw [fld_setFld_other _ _ _ _ (.inl (by decide)), ← hz, fld_setFld_same _ _ _ _ _ _ (by decide)]
    rfl

/-! ### The error state (ISO 11898-1) -/

/-- Both counters as a controller that is not in BUS_OFF shows them. -/
def State.countersShown (s : State) (p : PDie) (c : Bool) (tec rec : Nat) : State :=
  (s.setFld p.unit (Reg.cnStat (bitNat c)) 7 0 (min rec 255)).setFld p.unit (Reg.cnStat (bitNat c)) 15 8 tec

theorem fld_countersShown (s : State) (p : PDie) (c : Bool) {tec rec : Nat} (h : tec ≤ 255) :
    (s.countersShown p c tec rec).fld p.unit (Reg.cnStat (bitNat c)) 15 8 = tec ∧
    (s.countersShown p c tec rec).fld p.unit (Reg.cnStat (bitNat c)) 7 0 = min rec 255 ∧
    (s.countersShown p c tec rec).canState p c = s.canState p c := by
  refine ⟨?_, ?_, ?_⟩
  · rw [State.countersShown, fld_setFld_same _ _ _ _ _ _ (by decide)]
    exact Nat.mod_eq_of_lt (Nat.lt_succ_of_le h)
  · rw [State.countersShown, fld_setFld_other _ _ _ _ (.inl (by decide)), fld_setFld_same _ _ _ _ _ _ (by decide)]
    exact Nat.mod_eq_of_lt (Nat.lt_succ_of_le (Nat.min_le_right ..))
  · rw [State.countersShown, State.canState, fld_setFld_other _ _ _ _ (.inr (by decide)),
      fld_setFld_other _ _ _ _ (.inr (by decide))]
    rfl

theorem canErrors_live (s : State) (p : PDie) (c : Bool) {tec : Nat} (rec : Nat) (h : tec ≤ 255) :
    s.canErrors p c tec rec = if (if 127 < tec ∨ 127 < rec then 2 else 1) = s.canState p c then s.countersShown p c tec rec
      else ((s.countersShown p c tec rec).setCanState p c (if 127 < tec ∨ 127 < rec then 2 else 1)).raiseCstat p c :=
  if_neg (Nat.not_lt.mpr h)

theorem canErrors_spec (s : State) (p : PDie) (c : Bool) {tec : Nat} (rec : Nat) (h : tec ≤ 255) :
    (s.canErrors p c tec rec).canState p c = (if 127 < tec ∨ 127 < rec then 2 else 1) ∧
    (s.canErrors p c tec rec).fld p.unit (Reg.cnStat (bitNat c)) 15 8 = tec ∧
    (s.canErrors p c tec rec).fld p.unit (Reg.cnStat (bitNat c)) 7 0 = min rec 255 := by
  obtain ⟨htec, hrec, hst⟩ := fld_countersShown s p c (rec := rec) h
  have hv : (if 127 < tec ∨ 127 < rec then 2 else 1) < 8 := by split <;> decide
  rw [canErrors_live s p c rec h]
  generalize (if 127 < tec ∨ 127 < rec then 2 else 1) = v at hv ⊢
  split
  case isTrue hsame => exact ⟨hst.trans hsame.symm, htec, hrec⟩
  case isFalse =>
    simp only [State.canState, State.raiseCstat, fld_raiseP, State.setCanState]
    rw [fld_setFld_same _ _ _ _ _ _ (by decide), fld_setFld_other _ _ _ _ (.inl (by decide)),
      fld_setFld_other _ _ _ _ (.inl (by decide))]
    exact ⟨Nat.mod_eq_of_lt hv, htec, hrec⟩

/-- BUS_OFF: the state shows it, and the frames of the Gallery are given up. -/
theorem canErrors_busOff (s : State) (p : PDie) (c : Bool) {tec : Nat} (rec : Nat) (h : 255 < tec) :
    (s.canErrors p c tec rec).canState p c = 3 ∧ ((s.canErrors p c tec rec).can p c).gwq = [] := by
  rw [State.canErrors, if_pos h]
  dsimp only
  generalize State.useFree _ = z
  have hne : Reg.cnStat (bitNat c) ≠ Reg.cnCnt (bitNat c) := by cases c <;> decide
  constructor
  · simp only [State.canState, State.raiseCstat, fld_raiseP]
    rw [State.fld, reg_bump_other _ _ _ (.inr hne)]
    exact fld_setFld_same _ _ _ _ _ _ (by decide)
  · rw [State.can, State.raiseCstat, port_raiseP]
    show (if c = true then ((z.setCan p c ⟨[]⟩).port p).can1 else ((z.setCan p c ⟨[]⟩).port p).can0).gwq = []
    rw [State.setCan, port_setPort_same]
    cases c <;> rfl

theorem can_setCan (s : State) (p : PDie) (c : Bool) (x : CanCtl) : (s.setCan p c x).can p c = x := by
  rw [State.can, State.setCan, port_setPort_same]
  cases c <;> rfl

/-! ### Reception and transmission (R312, R314) -/

/-- The filters of a controller do not see its status. -/
theorem filterHit_setStat (s : State) (p : PDie) (c : Bool) (hi lo v : Nat) (f : CanFrame) :
    (s.setFld p.unit (Reg.cnStat (bitNat c)) hi lo v).filterHit p (bitNat c) f = s.filterHit p (bitNat c) f := by
  have h : ∀ i, (s.setFld p.unit (Reg.cnStat (bitNat c)) hi lo v).canFilter p (bitNat c) i = s.canFilter p (bitNat c) i := by
    intro i
    have h₁ : Reg.cnFltId (bitNat c) i ≠ Reg.cnStat (bitNat c) := by unfold Reg.cnFltId Reg.cnStat; omega
    have h₂ : Reg.cnFltMask (bitNat c) i ≠ Reg.cnStat (bitNat c) := by unfold Reg.cnFltMask Reg.cnStat; omega
    have h₃ : Reg.cnFltRt (bitNat c) i ≠ Reg.cnStat (bitNat c) := by unfold Reg.cnFltRt Reg.cnStat; omega
    rw [State.canFilter, reg_setFld_other _ _ _ _ (.inr h₁), reg_setFld_other _ _ _ _ (.inr h₂),
      reg_setFld_other _ _ _ _ (.inr h₃)]
    rfl
  simp only [State.filterHit, h]

theorem canUnfiltered_spec {p : PDie} {c : Bool} {s : State} {f : CanFrame} (time : Dword) (ue : Bool) (hbus : s.onBus p c = true)
    (hf : s.filterHit p (bitNat c) f = none) (hrec : s.fld p.unit (Reg.cnStat (bitNat c)) 7 0 ≤ 127)
    (htec : s.fld p.unit (Reg.cnStat (bitNat c)) 15 8 ≤ 127) (hst : s.canState p c = 1) :
    ∃ t, exec (.canFrameReceive p c (.good f time ue)) s = .next t ∧
      t.fld p.unit (Reg.cnCnt (bitNat c)) 31 24 = satAdd 8 (s.fld p.unit (Reg.cnCnt (bitNat c)) 31 24) 1 ∧
      t.fld p.unit (Reg.cnStat (bitNat c)) 7 0 = s.fld p.unit (Reg.cnStat (bitNat c)) 7 0 - 1 ∧ t.canState p c = 1 ∧
      t.lanes = s.lanes := by
  refine ⟨_, congrArg Host.Outcome.next (if_neg (by simp [hbus])), ?_⟩
  dsimp only
  generalize s.fld p.unit (Reg.cnStat (bitNat c)) 7 0 = rec at hrec ⊢
  generalize s.fld p.unit (Reg.cnStat (bitNat c)) 15 8 = tec at htec ⊢
  have hgood : recAfterGood rec s.freeVal = rec - 1 := if_neg (Nat.not_lt.mpr hrec)
  have hpassive : ¬(127 < tec ∨ 127 < rec - 1) := by omega
  have hshown : s.canErrors p c tec (rec - 1) = s.countersShown p c tec (rec - 1) := by
    rw [canErrors_live s p c _ (by omega), if_pos (by rw [if_neg hpassive, hst])]
  have hhit : (s.countersShown p c tec (rec - 1)).filterHit p (bitNat c) f = none := by
    rw [State.countersShown, filterHit_setStat, filterHit_setStat, hf]
  have hne : Reg.cnCnt (bitNat c) ≠ Reg.cnStat (bitNat c) := by cases c <;> decide
  obtain ⟨-, hshownRec, hshownSt⟩ := fld_countersShown s p c (rec := rec - 1) (show tec ≤ 255 by omega)
  rw [if_neg (Nat.not_lt.mpr hrec), hgood, hshown, State.canRoute, hhit]
  refine ⟨?_, ?_, ?_, rfl⟩
  · rw [fld_bump _ _ _ _ _ (by decide), State.countersShown, State.fld, reg_setFld_other _ _ _ _ (.inr hne),
      reg_setFld_other _ _ _ _ (.inr hne)]
    rfl
  · rw [State.fld, reg_bump_other _ _ _ (.inr hne.symm)]
    exact hshownRec.trans (by omega)
  · rw [State.canState, State.fld, reg_bump_other _ _ _ (.inr hne.symm)]
    exact hshownSt.trans hst

theorem exec_canTransmit {p : PDie} {c : Bool} {s : State} (hbus : s.onBus p c = true) (hm : s.canMode p c = .normal)
    {x : CanCandidate} (hx : s.canCandidate p c = some x) :
    exec (.canTransmit p c .lostArbitration) s = .next s ∧
    (∀ time, exec (.canTransmit p c (.sent time)) s = .next ((s.canSent p c x time).canErrors p c
      (s.fld p.unit (Reg.cnStat (bitNat c)) 15 8 - 1) (s.fld p.unit (Reg.cnStat (bitNat c)) 7 0))) ∧
    exec (.canTransmit p c .ecc) s = .next (s.canEcc p c x) ∧
    (∀ lec e n, exec (.canTransmit p c (.error lec e n)) s = .next
      ((s.setFld p.unit (Reg.cnStat (bitNat c)) 27 25 (lec.toNat % 7)).canErrors p c
        (tecAfterError (s.fld p.unit (Reg.cnStat (bitNat c)) 15 8) (s.canState p c == 2) lec e n)
        (s.fld p.unit (Reg.cnStat (bitNat c)) 7 0))) := by
  have hgo : ¬((!s.onBus p c || s.canMode p c != .normal) = true) := by simp [hbus, hm]
  refine ⟨?_, fun time => ?_, ?_, fun lec e n => ?_⟩ <;>
    exact congrArg Host.Outcome.next ((if_neg hgo).trans (by simp only [hx]))

theorem exec_canTransmit_idle {p : PDie} {c : Bool} {s : State}
    (h : s.onBus p c = false ∨ s.canMode p c ≠ .normal ∨ s.canCandidate p c = none) (e : CanTxEnd) :
    exec (.canTransmit p c e) s = .next s := by
  refine congrArg Host.Outcome.next ?_
  obtain h | h | h := h
  · exact if_pos (by simp [h])
  · exact if_pos (by simp [h])
  · simp only [h, ite_self]

theorem recAfterGood_passive {r : Nat} (free : Dword) (h : 127 < r) : 119 ≤ recAfterGood r free ∧ recAfterGood r free ≤ 127 := by
  rw [recAfterGood, if_pos h]
  omega

/-- Settles O52: each event of a controller is one equation, and what the error state shows follows from the two counters alone. -/
theorem canControllersKeepTheirErrorState : Obligations.CanControllersKeepTheirErrorState := by
  intro p c s hon
  refine ⟨fun m hr => ⟨fun v hv hw => ?_, fun v hv hw h2 => ?_, fun v hv => ?_, fun hw => exec_recover hon hr hw⟩, fun h4 => ?_,
    fun h4 => canRecovered_spec hon h4, fun hbus => ⟨fun e => ?_, exec_canTransmit_idle (.inl hbus)⟩, fun hbus => ⟨fun f time ue hf hrec
    htec hst => canUnfiltered_spec time ue hbus hf hrec htec hst, fun lec dom n => ?_, fun hm => ⟨fun hx => exec_canTransmit_idle
    (.inr (.inr hx)), fun x hx => exec_canTransmit hbus hm hx⟩, fun hm => exec_canTransmit_idle (.inr (.inl hm))⟩,
    fun r dom n => ⟨?_, fun free => recAfterGood_passive free⟩, fun x lec n => ⟨rfl, rfl⟩, fun x rec => canErrors_spec s p c rec,
    fun x rec => canErrors_busOff s p c rec, fun n d time => ?_⟩
  · rw [exec_canModeWrite hon hr]
    exact congrArg Host.Outcome.next ((if_neg (by simp [hv])).trans (if_pos (by simp [hw])))
  · rw [exec_canModeWrite hon hr, canCtlWrite_allowed hw hv, if_neg (by simp [h2])]
  · rw [exec_canModeWrite hon hr]
    exact congrArg Host.Outcome.next (if_pos hv)
  · exact congrArg Host.Outcome.next (if_neg (by simp [h4]))
  · exact congrArg Host.Outcome.next (if_pos (by simp [hbus]))
  · exact congrArg Host.Outcome.next (if_neg (by simp [hbus]))
  · unfold recAfterError
    omega
  · exact congrArg CanCtl.gwq (can_setCan ..)

end Sys2Proof.Machine
end

-- ==== Proofs: analog inputs ====
section
/-! The conversion of every 1 ms when every input waits for a trigger (R340). -/

namespace Sys2Proof.Machine

/-- F after reset, running, with TRIG 1 on all eight analog inputs: none of them is converted without a trigger. -/
def allTriggered : State :=
  let s := [0, 1, 2, 3, 4, 5, 6, 7].foldl (fun t n => State.setFlag t .f (Reg.fdAiCfg n) 30 true) State.reset
  s.setConsumer .f { s.consumer .f with running := true }

/-- What the converters give in the commands below; no input takes it. -/
def noReadings : Tri (List AiRaw) := Tri.all []

/-- How many conversions run after a command. -/
def conversionsAfter : Out → Nat
  | .next t => t.field.aiRuns.length
  | _ => 0

/-- No conversion begins. -/
theorem conversionsAfter_allTriggered : conversionsAfter (exec (.aiConversionStart none noReadings) allTriggered) = 0 := by decide

/-- Refutes O53: with TRIG 1 on every input and a trigger not overdue, the conversion of every 1 ms has no input to convert, and none
begins (R340); the clause lets one begin, of no input. -/
theorem not_fieldSamplesGoToEveryLinkedLane : ¬ Obligations.FieldSamplesGoToEveryLinkedLane := by
  intro h
  obtain ⟨-, -, -, -, -, -, -, -, -, -, -, -, -, -, -, hstart, -⟩ := h allTriggered (by decide)
  obtain ⟨t, ht, -, hruns, -⟩ := hstart noReadings (.inl (by decide))
  have hnone : t.field.aiRuns.length = 0 := (congrArg conversionsAfter ht).symm.trans conversionsAfter_allTriggered
  rw [hruns, List.length_append] at hnone
  exact absurd hnone (Nat.succ_ne_zero _)

end Sys2Proof.Machine
end

-- ==== Proofs: digital outputs ====
section
/-! Faults, OFF pulses and the switch bridge of the digital outputs (R330, R335 to R337). -/

namespace Sys2Proof.Machine

theorem reg_raise (s : State) (d : Die) (k : Strand) (v : Nat) (u : RUnit) (off : Nat) : (s.raise d k v).reg u off = s.reg u off := by
  obtain ⟨_, _, _, h⟩ := raise_frame s d k v
  rw [h]
  rfl

/-! ### The fault causes (R337) -/

/-- The latched cause of an output is written. -/
def State.setFault (s : State) (n c : Nat) : State := s.setFld .f (faultReg n) (4 * (n % 8) + 3) (4 * (n % 8)) c

theorem faultReg_ne_stat (n : Nat) : faultReg n ≠ Reg.fdDoStat := by
  unfold faultReg
  split <;> decide

theorem outFault_of_reg {s t : State} {n : Nat} (h : t.reg .f (faultReg n) = s.reg .f (faultReg n)) : t.outFault n = s.outFault n := by
  rw [State.outFault, State.fld, h]
  rfl

theorem outFault_refreshOut (s : State) (m n : Nat) : (s.refreshOut m).outFault n = s.outFault n :=
  outFault_of_reg (reg_refreshOut_other s m (faultReg_ne_stat n))

theorem outFault_raise (s : State) (d : Die) (k : Strand) (v n : Nat) : (s.raise d k v).outFault n = s.outFault n :=
  outFault_of_reg (reg_raise ..)

theorem outFault_setOut (s : State) (m n : Nat) (o : OutState) : (s.setOut m o).outFault n = s.outFault n := rfl

theorem outFault_bump (s : State) (hi lo n : Nat) : (s.bump .f Reg.fdDoPulse hi lo).outFault n = s.outFault n := by
  refine outFault_of_reg (reg_bump_other s _ _ (.inr ?_))
  unfold faultReg
  split <;> decide

theorem outFault_setFault_same (s : State) (n : Nat) {c : Nat} (h : c < 16) : (s.setFault n c).outFault n = c := by
  rw [State.outFault, State.setFault, fld_setFld_same _ _ _ _ _ _ (by omega), show 4 * (n % 8) + 3 + 1 - 4 * (n % 8) = 4 by omega]
  exact Nat.mod_eq_of_lt h

theorem outFault_setFault_other (s : State) {m n : Nat} (c : Nat) (hm : m < 16) (hn : n < 16) (h : m ≠ n) :
    (s.setFault n c).outFault m = s.outFault m := by
  by_cases hr : faultReg m = faultReg n
  · have hcol : m % 8 ≠ n % 8 := by
      unfold faultReg at hr
      split at hr <;> split at hr <;> first | omega | exact absurd hr (by decide)
    rw [State.outFault, State.outFault, hr]
    exact fld_setFld_other s .f _ c (by omega)
  · exact outFault_of_reg (reg_setFld_other _ _ _ _ (.inr hr))

theorem expected_of_fault {s : State} {n : Nat} (h : s.outFault n ≠ 0) : s.expected n = false := by
  simp [State.expected, State.enabled, h]

theorem flag_refreshOut (s : State) {n : Nat} (hn : n < 16) : (s.refreshOut n).flag .f Reg.fdDoStat n = s.expected n :=
  flag_setFlag_same s .f Reg.fdDoStat n (s.expected n) (by omega)

theorem latchFault_free {s : State} {n : Nat} (c : Nat) (h : s.outFault n = 0) :
    s.latchFault n c = ((s.setFault n c).raise .f (s.outOwner n) (196 + groupOf n)).refreshOut n := by
  rw [State.latchFault, if_pos h]
  rfl

theorem latchFault_latched {s : State} {n : Nat} (c : Nat) (h : s.outFault n ≠ 0) : s.latchFault n c = s := if_neg h

theorem outFault_latchFault_same (s : State) (n : Nat) {c : Nat} (hc : c < 16) :
    (s.latchFault n c).outFault n = if s.outFault n = 0 then c else s.outFault n := by
  split
  case isTrue h => rw [latchFault_free c h, outFault_refreshOut, outFault_raise, outFault_setFault_same s n hc]
  case isFalse h => rw [latchFault_latched c h]

theorem outFault_latchFault_other (s : State) {m n : Nat} (c : Nat) (hm : m < 16) (hn : n < 16) (h : m ≠ n) :
    (s.latchFault n c).outFault m = s.outFault m := by
  by_cases hf : s.outFault n = 0
  · rw [latchFault_free c hf, outFault_refreshOut, outFault_raise, outFault_setFault_other s c hm hn h]
  · rw [latchFault_latched c hf]

/-- A fault that latches takes the enables, which EXP shows. -/
theorem latchFault_spec {s : State} {n c : Nat} (hn : n < 16) (hc : c < 16) (hc₀ : c ≠ 0) (h : s.outFault n = 0) :
    (s.latchFault n c).outFault n = c ∧ (s.latchFault n c).flag .f Reg.fdDoStat n = false := by
  refine ⟨by rw [outFault_latchFault_same s n hc, if_pos h], ?_⟩
  rw [latchFault_free c h, flag_refreshOut _ hn]
  apply expected_of_fault
  rwa [outFault_raise, outFault_setFault_same s n hc]

theorem outFault_foldl_latch (P : Nat → Bool) {m : Nat} (hm : m < 16) (ns : List Nat) (hns : ∀ n ∈ ns, n < 16) (t : State) :
    (ns.foldl (fun t n => if P n then t.latchFault n 7 else t) t).outFault m =
      if m ∈ ns ∧ P m = true ∧ t.outFault m = 0 then 7 else t.outFault m := by
  induction ns generalizing t with
  | nil => simp
  | cons n ns ih =>
    have hn := hns n List.mem_cons_self
    rw [List.foldl_cons, ih (fun x hx => hns x (List.mem_cons_of_mem _ hx))]
    by_cases hP : P n = true
    · rw [if_pos hP]
      by_cases hmn : m = n
      · subst hmn
        rw [outFault_latchFault_same t m (by decide)]
        by_cases h₀ : t.outFault m = 0 <;> simp [h₀, hP]
      · rw [outFault_latchFault_other t 7 hm hn hmn]
        simp [hmn]
    · rw [if_neg hP]
      by_cases hmn : m = n
      · subst hmn
        simp [hP]
      · simp [hmn]

/-! ### Clearing (R337) -/

theorem clearFault_latched {s : State} {n : Nat} (h : s.outFault n ≠ 0) :
    ∃ o, s.clearFault n = ((s.setFault n 0).setOut n o).refreshOut n := by
  rw [State.clearFault, if_neg h]
  exact ⟨_, rfl⟩

theorem clearFault_free {s : State} {n : Nat} (h : s.outFault n = 0) : s.clearFault n = s := if_pos h

theorem outOwner_clearFault (s : State) (m n : Nat) : (s.clearFault n).outOwner m = s.outOwner m := by
  by_cases h : s.outFault n = 0
  · rw [clearFault_free h]
  · have hne : Reg.fdDoOwn ≠ faultReg n := by unfold faultReg; split <;> decide
    obtain ⟨o, ho⟩ := clearFault_latched h
    have hreg : (s.clearFault n).reg .f Reg.fdDoOwn = s.reg .f Reg.fdDoOwn := by
      rw [ho, reg_refreshOut_other _ _ (by decide)]
      exact (reg_setFld_other (u := .f) (u' := .f) s (4 * (n % 8) + 3) (4 * (n % 8)) 0 (.inr hne) :)
    rw [State.outOwner, State.fld, hreg]
    rfl

theorem outFault_clearFault (s : State) {m n : Nat} (hm : m < 16) (hn : n < 16) :
    (s.clearFault n).outFault m = if m = n then 0 else s.outFault m := by
  by_cases h₀ : s.outFault n = 0
  · rw [clearFault_free h₀]
    split
    case isTrue h => rw [h, h₀]
    case isFalse => rfl
  · obtain ⟨o, ho⟩ := clearFault_latched h₀
    rw [ho, outFault_refreshOut, outFault_setOut]
    split
    case isTrue h => rw [h, outFault_setFault_same s n (by decide)]
    case isFalse h => exact outFault_setFault_other s 0 hm hn h

theorem outFault_foldl_clear (w : Word) (k : Strand) {m : Nat} (hm : m < 16) (ns : List Nat) (hns : ∀ n ∈ ns, n < 16) (t : State) :
    (ns.foldl (fun t n => if bitOf w n && t.outOwner n == k then t.clearFault n else t) t).outFault m =
      if m ∈ ns ∧ bitOf w m = true ∧ t.outOwner m = k then 0 else t.outFault m := by
  induction ns generalizing t with
  | nil => simp
  | cons n ns ih =>
    have hn := hns n List.mem_cons_self
    have hrest : ∀ x ∈ ns, x < 16 := fun x hx => hns x (List.mem_cons_of_mem _ hx)
    rw [List.foldl_cons]
    by_cases hc : bitOf w n = true ∧ t.outOwner n = k
    · rw [if_pos (by simpa using hc), ih hrest, outOwner_clearFault, outFault_clearFault t hm hn]
      by_cases hmn : m = n
      · subst hmn
        simp [hc]
      · simp [hmn]
    · rw [if_neg (by simpa using hc), ih hrest]
      by_cases hmn : m = n
      · subst hmn
        rw [if_neg fun h => hc h.2, if_neg fun h => hc h.2]
      · simp [hmn]

theorem exec_doFaultClear {s : State} {k : Strand} {w : Word} (hon : s.fOn = true) (hr : s.reachesUnit (.strand k) .f Reg.fdDoClr)
    (hw : fieldOf w 31 16 = 0) : exec (.doFaultClear k w) s = .next (s.clearFaults k w) :=
  congrArg Host.Outcome.next ((atUnit_of_reaches hr).trans ((if_neg (by simp [hon])).trans (if_neg (not_not.mpr hw))))

/-- Bits that name no latched fault of the strand's own outputs clear nothing. -/
theorem clearFaults_idle {s : State} {k : Strand} {w : Word}
    (h : ∀ i, i < 16 → bitOf w i = true → s.outOwner i ≠ k ∨ s.outFault i = 0) : s.clearFaults k w = s := by
  refine foldl_eq_self_of_mem fun i hi => ?_
  split
  case isTrue hc =>
    obtain ⟨hb, ho⟩ : bitOf w i = true ∧ s.outOwner i = k := by simpa using hc
    exact if_pos ((h i (List.mem_range.mp hi) hb).resolve_left (not_not.mpr ho))
  case isFalse => rfl

/-! ### The bridge (R330, R336) -/

theorem bridgeOn_iff (s : State) (n : Nat) : s.bridgeOn n =
    (((s.activeLatch .a).getLsbD n && (s.activeLatch .b).getLsbD n) || ((s.activeLatch .b).getLsbD n && (s.activeLatch .c).getLsbD n) ||
      ((s.activeLatch .a).getLsbD n && (s.activeLatch .c).getLsbD n)) := by
  simp only [State.bridgeOn, Lane.list, List.filter]
  cases (s.activeLatch .a).getLsbD n <;> cases (s.activeLatch .b).getLsbD n <;> cases (s.activeLatch .c).getLsbD n <;> rfl

/-- The three paths of a bridge, each with the latches of its two lanes. -/
theorem energised_eq (s : State) (n : Nat) : s.energised n = (s.enabled n &&
    (((s.activeLatch .a).getLsbD n && !s.pulseOpens n 0 false && ((s.activeLatch .b).getLsbD n && !s.pulseOpens n 0 true)) ||
     ((s.activeLatch .b).getLsbD n && !s.pulseOpens n 1 false && ((s.activeLatch .c).getLsbD n && !s.pulseOpens n 1 true)) ||
     ((s.activeLatch .a).getLsbD n && !s.pulseOpens n 2 false && ((s.activeLatch .c).getLsbD n && !s.pulseOpens n 2 true)))) := by
  have h : s.energised n = ((s.switchClosed n 0 false && s.switchClosed n 0 true) || ((s.switchClosed n 1 false && s.switchClosed n 1 true) ||
      ((s.switchClosed n 2 false && s.switchClosed n 2 true) || false))) := rfl
  rw [h]
  simp only [State.switchClosed, switchLane, show (1 : Nat) ≠ 0 from by decide, show (2 : Nat) ≠ 0 from by decide,
    show (2 : Nat) ≠ 1 from by decide, if_true, if_false, Bool.false_eq_true]
  cases s.enabled n <;> simp [Bool.or_assoc]

theorem enabled_of_energised {s : State} {n : Nat} (h : s.energised n = true) : s.enabled n = true ∧ s.bridgeOn n = true := by
  rw [energised_eq, Bool.and_eq_true] at h
  obtain ⟨hen, hpath⟩ := h
  refine ⟨hen, ?_⟩
  rw [bridgeOn_iff]
  simp only [Bool.or_eq_true, Bool.and_eq_true] at hpath ⊢
  tauto

theorem expected_iff (s : State) (n : Nat) :
    s.expected n = true ↔ s.bridgeOn n = true ∧ s.enabled n = true ∧ (s.out n).pulse = none := by
  simp [State.expected, and_assoc]

theorem energised_of_expected {s : State} {n : Nat} (h : s.expected n = true) : s.energised n = true := by
  obtain ⟨hbr, hen, hp⟩ := (expected_iff s n).mp h
  have hopen : ∀ path second, s.pulseOpens n path second = false := fun path second => by rw [State.pulseOpens, hp]
  rw [bridgeOn_iff] at hbr
  simpa only [energised_eq, hen, hopen, Bool.not_false, Bool.and_true, Bool.true_and] using hbr

theorem expected_needs {s : State} {n : Nat} (h : s.expected n = true) :
    2 ≤ (Lane.list.filter fun l => (s.activeLatch l).getLsbD n).length ∧ s.outFault n = 0 ∧
      s.flag .f Reg.fdStat 0 = true ∧ (s.flag .f Reg.fdLsBind n = true → s.field.held = true) := by
  obtain ⟨hbr, hen, -⟩ := (expected_iff s n).mp h
  rw [State.enabled] at hen
  simp only [Bool.and_eq_true, beq_iff_eq, Bool.or_eq_true, Bool.not_eq_true'] at hen
  obtain ⟨⟨⟨-, hconf⟩, hfault⟩, hheld⟩ := hen
  exact ⟨of_decide_eq_true hbr, hfault, hconf, fun hb => hheld.resolve_left (by simp [hb])⟩

theorem pulseDue_iff (s : State) (n : Nat) : s.pulseDue n = true ↔ s.pulseEnabled n = true ∧ s.expected n = true ∧
    (∃ x, (s.out n).onFrom = some x ∧ x + 1000000000 ≤ s.ns) ∧ ∀ x, (s.out n).pulseAt = some x → x + 1000000000 ≤ s.ns := by
  rw [State.pulseDue, ← show oneSecond = 1000000000 from rfl]
  simp [Option.any_eq_true, Option.all_eq_true, and_assoc]

/-! ### Delays and pulses (R335, R336) -/

theorem out_setOut_same {s : State} {n : Nat} (h : n < s.field.outs.length) (o : OutState) : (s.setOut n o).out n = o := by
  simp [State.out, State.setOut, h]

/-- A refresh keeps what an output says of its pulse. -/
theorem pulse_refreshOut {s : State} {n : Nat} (h : n < s.field.outs.length) : ((s.refreshOut n).out n).pulse = (s.out n).pulse ∧
    ((s.refreshOut n).out n).nextY = (s.out n).nextY ∧ ((s.refreshOut n).out n).pulseAt = (s.out n).pulseAt := by
  rw [State.refreshOut, out_setOut_same (show n < (s.setFlag .f Reg.fdDoStat n (s.expected n)).field.outs.length from h)]
  dsimp only
  split <;> split <;> exact ⟨rfl, rfl, rfl⟩

theorem offPulseStart_spec {s : State} {n : Nat} (hon : s.fOn = true) (hn : n < 16) (hdue : s.pulseDue n = true)
    (hl : n < s.field.outs.length) : ∃ t, exec (.offPulseStart n) s = .next t ∧ (t.out n).pulse = some (!(s.out n).nextY) ∧
      (t.out n).nextY = !(s.out n).nextY ∧ (t.out n).pulseAt = some s.ns ∧ t.flag .f Reg.fdDoStat n = false := by
  refine ⟨_, congrArg Host.Outcome.next (if_pos (by simp [hon, hdue])), ?_⟩
  generalize ho : OutState.mk _ _ _ _ _ _ _ _ = o
  have hout := out_setOut_same hl o
  obtain ⟨hp, hy, hat⟩ := pulse_refreshOut (s := s.setOut n o) (n := n) (by simpa [State.setOut] using hl)
  rw [hout] at hp hy hat
  subst ho
  refine ⟨hp, hy, hat, ?_⟩
  rw [flag_refreshOut _ hn, State.expected, hout]
  simp

theorem exec_offPulseEnd {s : State} {n : Nat} {x : Bool} (hon : s.fOn = true) (hp : (s.out n).pulse = some x) (hover : s.pulseOver n = true) :
    exec (.offPulseEnd n) s = .next (if s.flag .f Reg.fdDoStat (16 + n) then
      ((((s.setOut n { s.out n with pulse := none }).bump .f Reg.fdDoPulse 23 16).latchFault n (if x then 3 else 4)).refreshOut n)
      else ((s.setOut n { s.out n with pulse := none }).bump .f Reg.fdDoPulse 31 24).refreshOut n) := by
  refine congrArg Host.Outcome.next ((if_neg (by simp [hon, hover])).trans ?_)
  simp only [hp]

theorem fld_doPulse_refreshOut (s : State) (n hi lo : Nat) :
    (s.refreshOut n).fld .f Reg.fdDoPulse hi lo = s.fld .f Reg.fdDoPulse hi lo := by
  rw [State.fld, reg_refreshOut_other s n (by decide)]
  rfl

theorem fld_doPulse_latchFault (s : State) (n c hi lo : Nat) :
    (s.latchFault n c).fld .f Reg.fdDoPulse hi lo = s.fld .f Reg.fdDoPulse hi lo := by
  by_cases h : s.outFault n = 0
  · have hne : Reg.fdDoPulse ≠ faultReg n := by unfold faultReg; split <;> decide
    rw [latchFault_free c h, fld_doPulse_refreshOut, State.fld, reg_raise, State.setFault, reg_setFld_other _ _ _ _ (.inr hne)]
    rfl
  · rw [latchFault_latched c h]

theorem offPulsePassed {s : State} {n : Nat} {x : Bool} (hon : s.fOn = true) (hp : (s.out n).pulse = some x)
    (hover : s.pulseOver n = true) (hrb : s.flag .f Reg.fdDoStat (16 + n) = false) :
    ∃ t, exec (.offPulseEnd n) s = .next t ∧ t.fld .f Reg.fdDoPulse 31 24 = satAdd 8 (s.fld .f Reg.fdDoPulse 31 24) 1 ∧
      t.outFault n = s.outFault n := by
  refine ⟨_, (exec_offPulseEnd hon hp hover).trans (congrArg Host.Outcome.next (if_neg (by simp [hrb]))), ?_, ?_⟩
  · rw [fld_doPulse_refreshOut, fld_bump _ _ _ _ _ (by decide)]
    rfl
  · rw [outFault_refreshOut, outFault_bump, outFault_setOut]

theorem offPulseFailed {s : State} {n : Nat} {x : Bool} (hon : s.fOn = true) (hp : (s.out n).pulse = some x)
    (hover : s.pulseOver n = true) (hrb : s.flag .f Reg.fdDoStat (16 + n) = true) (hf : s.outFault n = 0) :
    ∃ t, exec (.offPulseEnd n) s = .next t ∧ t.fld .f Reg.fdDoPulse 23 16 = satAdd 8 (s.fld .f Reg.fdDoPulse 23 16) 1 ∧
      t.outFault n = (if x = true then 3 else 4) := by
  refine ⟨_, (exec_offPulseEnd hon hp hover).trans (congrArg Host.Outcome.next (if_pos hrb)), ?_, ?_⟩
  · rw [fld_doPulse_refreshOut, fld_doPulse_latchFault, fld_bump _ _ _ _ _ (by decide)]
    rfl
  · rw [outFault_refreshOut, outFault_latchFault_same _ _ (by split <;> decide), outFault_bump, outFault_setOut, if_pos hf]

/-- Settles O55: a fault's cause stands in a field of its own, which the enables and so the bridge follow; and of the three paths of a
bridge one is closed exactly when two lanes command the output ON. -/
theorem outputFaultsOpenTheBridge : Obligations.OutputFaultsOpenTheBridge := by
  intro n s hon hn
  refine ⟨expected_needs, fun h₀ => ⟨?_, ?_⟩, fun h => ⟨?_, ?_⟩, fun g h => ?_, fun g i hi h => ?_, fun k w hr => ⟨fun hw => ?_,
    fun hw h => ?_, fun hw hb ho => ?_⟩, fun hwait hover hl => ?_, fun h => ?_, pulseDue_iff s n, enabled_of_energised,
    energised_of_expected, offPulseStart_spec hon hn, fun h => ?_, fun h => ?_, fun x => offPulsePassed hon, fun x => offPulseFailed hon⟩
  · exact ⟨_, congrArg Host.Outcome.next (if_pos (by simp [hon, hn])), latchFault_spec hn (by decide) (by decide) h₀⟩
  · exact ⟨_, congrArg Host.Outcome.next (if_pos (by simp [hon, hn])), latchFault_spec hn (by decide) (by decide) h₀⟩
  · exact congrArg Host.Outcome.next ((if_pos (by simp [hon, hn])).trans (latchFault_latched 5 h))
  · exact congrArg Host.Outcome.next ((if_pos (by simp [hon, hn])).trans (latchFault_latched 6 h))
  · refine congrArg Host.Outcome.next ((if_pos hon).trans (foldl_eq_self_of_mem fun m hm => if_neg ?_))
    obtain ⟨i, hi, rfl⟩ := List.mem_map.mp hm
    simp [h i (List.mem_range.mp hi)]
  · have hg : bitNat g ≤ 1 := by cases g <;> decide
    refine ⟨_, congrArg Host.Outcome.next (if_pos hon), ?_⟩
    have hlist : ∀ m ∈ (List.range 8).map (fun i => 8 * bitNat g + i), m < 16 := fun m hm => by
      obtain ⟨j, hj, rfl⟩ := List.mem_map.mp hm
      have := List.mem_range.mp hj
      omega
    have hmem : 8 * bitNat g + i ∈ (List.range 8).map (fun i => 8 * bitNat g + i) :=
      List.mem_map.mpr ⟨i, List.mem_range.mpr hi, rfl⟩
    rw [outFault_foldl_latch s.expected (by omega) _ hlist, if_pos ⟨hmem, h, (expected_needs h).2.1⟩]
  · exact congrArg Host.Outcome.next ((atUnit_of_reaches hr).trans ((if_neg (by simp [hon])).trans (if_pos hw)))
  · rw [exec_doFaultClear hon hr hw, clearFaults_idle h]
  · refine ⟨_, exec_doFaultClear hon hr hw, ?_⟩
    rw [State.clearFaults, outFault_foldl_clear w k hn _ (fun m hm => List.mem_range.mp hm),
      if_pos ⟨List.mem_range.mpr hn, hb, ho⟩]
  · refine ⟨_, congrArg Host.Outcome.next (if_pos (by simp [hon, hwait, hover])), ?_⟩
    rw [out_setOut_same hl]
    exact ⟨rfl, rfl, rfl⟩
  · refine congrArg Host.Outcome.next (if_neg ?_)
    simp only [Bool.and_eq_true, decide_eq_true_eq, not_and]
    intro hw
    obtain h | h := h
    · simp [h] at hw
    · omega
  · exact congrArg Host.Outcome.next (if_neg (by simp [h]))
  · refine congrArg Host.Outcome.next ?_
    obtain h | h := h
    · simp only [h, ite_self]
    · exact if_pos (by simp [h])

end Sys2Proof.Machine
end

-- ==== Proofs: mailboxes and locks ====
section
/-! The mailboxes (R361 to R368) and the locks (R371 to R374) of the management die. -/

namespace Sys2Proof.Machine

/-- The register at an index of a mailbox view is the one named, with the reserved bits given, and has no bit that a read alone shows. -/
def mbDecodes (n : Nat) (far : Bool) (i : Nat) (id : RegId) (rsv : Word) : Bool :=
  match regAt .m (mbKey n far i) with
  | some (d, is) => decide (d.id = id) && reservedBits d is == rsv && accMask d.fields [.ro, .rc] == 0
  | none => false

/-- The registers of the twelve mailboxes that the commands write. -/
theorem mbDecodes_written : ∀ n < 12, ∀ far, mbDecodes n far 0x00 .mbTxword 0 = true ∧ mbDecodes n far 0x04 .mbTxdb 0 = true ∧
    mbDecodes n far 0x10 .mbRxpop 0xFFFFFFFE = true ∧ mbDecodes n far 0x14 .mbRxdb 0 = true ∧
    mbDecodes n far 0x18 .mbRxmask 0 = true ∧ mbDecodes n far 0x20 .mbCtl 0xFFFFFFFC = true := by decide +kernel

theorem regAt_of_mbDecodes {n : Nat} {far : Bool} {i : Nat} {id : RegId} {rsv : Word} (h : mbDecodes n far i id rsv = true) :
    ∃ d is, regAt .m (mbKey n far i) = some (d, is) ∧ d.id = id ∧ reservedBits d is = rsv ∧ accMask d.fields [.ro, .rc] = 0 := by
  rw [mbDecodes] at h
  cases hr : regAt .m (mbKey n far i) with
  | none => rw [hr] at h; cases h
  | some r =>
    obtain ⟨d, is⟩ := r
    rw [hr] at h
    simp only [Bool.and_eq_true, decide_eq_true_eq, beq_iff_eq] at h
    obtain ⟨⟨hid, hres⟩, hro⟩ := h
    exact ⟨d, is, rfl, hid, hres, hro⟩

/-- What a whole word written by its owner to a register of a view does. -/
def State.mbEffect (s : State) (m : Master) (n : Nat) (far : Bool) (id : RegId) (w : Word) : State :=
  match id with
  | .mbTxword => s.mbSend n far (.word m.number w)
  | .mbTxdb => s.mbDoorbell m n far w
  | .mbRxpop => if bitOf w 0 then s.mbTake n far .pop else s
  | .mbRxdb => s.mbTake n far (.clearDb w)
  | .mbRxmask => s.mbMask n far ((((s.mailbox n).rx far).mask &&& ~~~fullMask) ||| w)
  | .mbTxstat => s.mbSend n far (.clearTx w)
  | .mbRxstat => s.mbTake n far (.clearRx w)
  | .mbCtl =>
    let t := if bitOf w 0 then s.mbRxReset n far else s
    if bitOf w 1 then t.mbTxReset n far else t
  | _ => s

section
variable {s : State} {m : Master} {n : Nat} {far : Bool} {i : Nat} {id : RegId} {rsv : Word}

theorem mbWrite_foreign (h : mbDecodes n far i id rsv = true) (ho : mbOwns m n far = false) (v : Word) :
    s.mbWrite m n far i fullMask v = s.mbForeign m (mbKey n far i) := by
  obtain ⟨d, is, hr, -⟩ := regAt_of_mbDecodes h
  simp only [State.mbWrite, hr, ho, Bool.not_false, if_true]

theorem mbWrite_own (h : mbDecodes n far i id rsv = true) (ho : mbOwns m n far = true) {v : Word} (hv : v &&& rsv = 0) :
    s.mbWrite m n far i fullMask v = s.mbEffect m n far id v := by
  obtain ⟨d, is, hr, hid, hres, hro⟩ := regAt_of_mbDecodes h
  have hall : v &&& fullMask = v := BitVec.and_allOnes
  have hdif : differsRo d (s.mbRead m n far i) fullMask v = false := by simp [differsRo, hro]
  simp only [State.mbWrite, hr, ho, Bool.not_true, Bool.false_eq_true, if_false, hall, hres, hv, bne_self_eq_false, hdif, hid,
    State.mbEffect] <;> rfl

theorem atMailbox_of (hm : s.mOn = true) (hf : s.strandFenced m .m = false) (hn : n < 12) (mask v : Word) :
    s.atMailbox m n far i mask v = s.mbWrite m n far i mask v := by
  rw [State.atMailbox, if_pos hn, State.atM, hm, hf]
  rfl

end

/-! ### The acts of one cycle (R368) -/

theorem act_spec (x : Mailbox) (now : Nat) (out : Bool) (a : MbAct) : let y := x.act now out a
    (x.fresh now = true → y.acts = [(out, a)] ∧ y.outBase = x.out ∧ y.innBase = x.inn ∧ y.at' = now) ∧
    (x.fresh now = false → y.acts = insertAct (out, a) x.acts ∧ y.outBase = x.outBase ∧ y.innBase = x.innBase) ∧
    (if out = true then y.out = applyActs true y.outBase y.acts ∧ y.inn = x.inn
      else y.inn = applyActs false y.innBase y.acts ∧ y.out = x.out) := by
  cases hf : x.fresh now <;> cases out <;> simp [Mailbox.act, hf, insertAct]

/-- The first act of a cycle on the direction that a view sends on. -/
theorem act_send {x : Mailbox} {now : Nat} (hf : x.fresh now = true) (far : Bool) (a : MbAct) :
    (x.act now (!far) a).tx far = a.apply (x.tx far) ∧ (x.act now (!far) a).rx far = x.rx far ∧
      (x.act now (!far) a).notices = x.notices := by
  cases far <;> simp [Mailbox.act, hf, insertAct, applyActs, Mailbox.tx, Mailbox.rx]

/-- The first act of a cycle on the direction that a view receives on. -/
theorem act_take {x : Mailbox} {now : Nat} (hf : x.fresh now = true) (far : Bool) (a : MbAct) :
    (x.act now far a).rx far = a.apply (x.rx far) ∧ (x.act now far a).tx far = x.tx far ∧ (x.act now far a).notices = x.notices := by
  cases far <;> simp [Mailbox.act, hf, insertAct, applyActs, Mailbox.tx, Mailbox.rx]

/-! ### Mailboxes in the state -/

theorem putMailbox_frame (s : State) (n : Nat) (x : Mailbox) :
    (s.putMailbox n x).mailboxes = s.mailboxes.set n x ∧ (s.putMailbox n x).regs = s.regs := by
  rw [State.putMailbox]
  split
  · obtain ⟨_, _, _, h⟩ := raise_frame { s with mailboxes := s.mailboxes.set n x } .m (mbStrand n) 211
    rw [h]
    exact ⟨rfl, rfl⟩
  · exact ⟨rfl, rfl⟩

theorem mailbox_of_mailboxes {s t : State} (h : t.mailboxes = s.mailboxes) (j : Nat) : t.mailbox j = s.mailbox j := by
  rw [State.mailbox, h]
  rfl

theorem mailbox_putMailbox_same {s : State} {n : Nat} (hn : n < s.mailboxes.length) (x : Mailbox) : (s.putMailbox n x).mailbox n = x := by
  rw [State.mailbox, (putMailbox_frame s n x).1, List.getElem?_set_self hn]
  rfl

theorem mailbox_putMailbox_other (s : State) {n j : Nat} (h : j ≠ n) (x : Mailbox) : (s.putMailbox n x).mailbox j = s.mailbox j := by
  rw [State.mailbox, (putMailbox_frame s n x).1, List.getElem?_set_ne (Ne.symm h)]
  rfl

theorem length_putMailbox (s : State) (n : Nat) (x : Mailbox) : (s.putMailbox n x).mailboxes.length = s.mailboxes.length := by
  rw [(putMailbox_frame s n x).1, List.length_set]

theorem mailbox_raise (s : State) (d : Die) (k : Strand) (v j : Nat) : (s.raise d k v).mailbox j = s.mailbox j := by
  obtain ⟨_, _, _, h⟩ := raise_frame s d k v
  exact mailbox_of_mailboxes (by rw [h]) j

theorem regs_raise (s : State) (d : Die) (k : Strand) (v : Nat) : (s.raise d k v).regs = s.regs := by
  obtain ⟨_, _, _, h⟩ := raise_frame s d k v
  rw [h]

/-- A notification changes neither direction, and counts where it is a line's. -/
theorem mbNotify_spec {s : State} {n : Nat} (hn : n < s.mailboxes.length) (b far : Bool) :
    ((s.mbNotify n b).mailbox n).tx far = (s.mailbox n).tx far ∧ ((s.mbNotify n b).mailbox n).rx far = (s.mailbox n).rx far ∧
    (s.mbNotify n b).regs = s.regs ∧ (b = false → ((s.mbNotify n b).mailbox n).notices = (s.mailbox n).notices + 1) := by
  cases b with
  | true => exact ⟨by rw [State.mbNotify, if_pos rfl, mailbox_raise], by rw [State.mbNotify, if_pos rfl, mailbox_raise],
      regs_raise .., fun h => nomatch h⟩
  | false =>
    rw [State.mbNotify, if_neg Bool.false_ne_true, mailbox_putMailbox_same hn]
    exact ⟨rfl, rfl, (putMailbox_frame ..).2, fun _ => rfl⟩

section
variable {s : State} {n : Nat} (hn : n < s.mailboxes.length) (hf : (s.mailbox n).fresh (mCycle s.ns) = true) (far : Bool)
include hn hf

theorem mbSend_spec (a : MbAct) : ((s.mbSend n far a).mailbox n).tx far = a.apply ((s.mailbox n).tx far) ∧
    ((s.mbSend n far a).mailbox n).rx far = (s.mailbox n).rx far ∧
    ((s.mbSend n far a).mailbox n).notices = (s.mailbox n).notices := by
  rw [State.mbSend, mailbox_putMailbox_same hn]
  exact act_send hf far a

theorem mbTake_spec (a : MbAct) : ((s.mbTake n far a).mailbox n).rx far = a.apply ((s.mailbox n).rx far) ∧
    ((s.mbTake n far a).mailbox n).tx far = (s.mailbox n).tx far ∧
    ((s.mbTake n far a).mailbox n).notices = (s.mailbox n).notices := by
  rw [State.mbTake, mailbox_putMailbox_same hn]
  exact act_take hf far a

/-- The doorbell closes the open message and ORs its bits; a receiver that enables one of them is notified. -/
theorem mbDoorbell_spec (m : Master) (v : Word) :
    ((s.mbDoorbell m n far v).mailbox n).tx far = ringDoorbell ((s.mailbox n).tx far) m.number v ∧
    ((s.mbDoorbell m n far v).mailbox n).rx far = (s.mailbox n).rx far ∧ (s.mbDoorbell m n far v).regs = s.regs ∧
    (far = false → v &&& ((s.mailbox n).tx far).mask ≠ 0 →
      ((s.mbDoorbell m n far v).mailbox n).notices = (s.mailbox n).notices + 1) := by
  obtain ⟨htx, hrx, hnotices⟩ := mbSend_spec hn hf far (.doorbell m.number v)
  have hregs : (s.mbSend n far (.doorbell m.number v)).regs = s.regs := (putMailbox_frame ..).2
  have hlen : n < (s.mbSend n far (.doorbell m.number v)).mailboxes.length := by rwa [State.mbSend, length_putMailbox]
  obtain ⟨ntx, nrx, nregs, nnotices⟩ := mbNotify_spec hlen far far
  rw [State.mbDoorbell]
  split
  case isTrue => exact ⟨ntx.trans htx, nrx.trans hrx, nregs.trans hregs, fun hb _ => (nnotices hb).trans (by rw [hnotices])⟩
  case isFalse h => exact ⟨htx, hrx, hregs, fun _ hb => absurd (by simpa using hb) h⟩

theorem mbMask_spec (v : Word) : ((s.mbMask n far v).mailbox n).rx far = { (s.mailbox n).rx far with mask := v } := by
  obtain ⟨hrx, -, -⟩ := mbTake_spec hn hf far (.mask v)
  have hlen : n < (s.mbTake n far (.mask v)).mailboxes.length := by rwa [State.mbTake, length_putMailbox]
  rw [State.mbMask]
  split
  · exact (mbNotify_spec hlen (!far) far).2.1.trans hrx
  · exact hrx

end

/-- A doorbell write closes an open message of at least one word. -/
theorem ringDoorbell_spec (d : MbDir) (m : Nat) (v : Word) : (ringDoorbell d m v).db = d.db ||| v ∧
    (d.openWords = [] → (ringDoorbell d m v).msgs = d.msgs) ∧
    (d.openWords ≠ [] → (ringDoorbell d m v).openWords = [] ∧
      (ringDoorbell d m v).msgs.map (·.words) = d.msgs.map (·.words) ++ [d.openWords]) := by
  by_cases h : d.openWords = []
  · simp [ringDoorbell, h]
  · simp [ringDoorbell, h]

theorem appendWord_room {d : MbDir} (h : mbHeld d < 16) (m : Nat) (v : Word) :
    (appendWord d m v).openWords = d.openWords ++ [v] ∧ (appendWord d m v).msgs = d.msgs := by
  simp [appendWord, h]

theorem appendWord_full {d : MbDir} (h : 16 ≤ mbHeld d) (ho : d.openWords ≠ []) (m : Nat) (v : Word) :
    (appendWord d m v).openWords = d.openWords.dropLast ++ [v] ∧ (appendWord d m v).openColl = true ∧
      (appendWord d m v).collTx = true ∧ (appendWord d m v).collRx = true ∧ (appendWord d m v).msgs = d.msgs := by
  simp [appendWord, Nat.not_lt.mpr h, ho, replaceLast]

/-! ### The commands of a mailbox (R361) -/

section
variable {s : State} {m : Master} {n : Nat} {far : Bool} (hm : s.mOn = true) (hf : s.strandFenced m .m = false) (hn : n < 12)
include hm hf hn

theorem mb_foreign (ho : mbOwns m n far = false) (v : Word) :
    exec (.mbTxword m n far v) s = .next (s.mbForeign m (mbKey n far 0x00)) ∧
    exec (.mbTxdb m n far v) s = .next (s.mbForeign m (mbKey n far 0x04)) ∧
    exec (.mbRxpop m n far v) s = .next (s.mbForeign m (mbKey n far 0x10)) ∧
    exec (.mbRxdbClear m n far v) s = .next (s.mbForeign m (mbKey n far 0x14)) ∧
    exec (.mbRxmaskWrite m n far v) s = .next (s.mbForeign m (mbKey n far 0x18)) ∧
    exec (.rxReset m n far) s = .next (s.mbForeign m (mbKey n far 0x20)) ∧
    exec (.txReset m n far) s = .next (s.mbForeign m (mbKey n far 0x20)) := by
  obtain ⟨h00, h04, h10, h14, h18, h20⟩ := mbDecodes_written n hn far
  have at' := fun i v => atMailbox_of (far := far) (i := i) hm hf hn fullMask v
  exact ⟨congrArg Host.Outcome.next ((at' _ _).trans (mbWrite_foreign h00 ho _)),
    congrArg Host.Outcome.next ((at' _ _).trans (mbWrite_foreign h04 ho _)),
    congrArg Host.Outcome.next ((at' _ _).trans (mbWrite_foreign h10 ho _)),
    congrArg Host.Outcome.next ((at' _ _).trans (mbWrite_foreign h14 ho _)),
    congrArg Host.Outcome.next ((at' _ _).trans (mbWrite_foreign h18 ho _)),
    congrArg Host.Outcome.next ((at' _ _).trans (mbWrite_foreign h20 ho _)),
    congrArg Host.Outcome.next ((at' _ _).trans (mbWrite_foreign h20 ho _))⟩

variable (ho : mbOwns m n far = true)
include ho

theorem exec_mbTxword (v : Word) : exec (.mbTxword m n far v) s = .next (s.mbSend n far (.word m.number v)) :=
  congrArg Host.Outcome.next ((atMailbox_of hm hf hn ..).trans (mbWrite_own (mbDecodes_written n hn far).1 ho BitVec.and_zero))

theorem exec_mbTxdb (v : Word) : exec (.mbTxdb m n far v) s = .next (s.mbDoorbell m n far v) :=
  congrArg Host.Outcome.next ((atMailbox_of hm hf hn ..).trans (mbWrite_own (mbDecodes_written n hn far).2.1 ho BitVec.and_zero))

theorem exec_mbRxpop {v : Word} (hr : v &&& 0xFFFFFFFE = 0) (hb : bitOf v 0 = true) :
    exec (.mbRxpop m n far v) s = .next (s.mbTake n far .pop) := by
  obtain ⟨-, -, h10, -⟩ := mbDecodes_written n hn far
  exact congrArg Host.Outcome.next ((atMailbox_of hm hf hn ..).trans ((mbWrite_own h10 ho hr).trans (if_pos hb)))

theorem exec_mbRxdbClear (v : Word) : exec (.mbRxdbClear m n far v) s = .next (s.mbTake n far (.clearDb v)) := by
  obtain ⟨-, -, -, h14, -⟩ := mbDecodes_written n hn far
  exact congrArg Host.Outcome.next ((atMailbox_of hm hf hn ..).trans (mbWrite_own h14 ho BitVec.and_zero))

theorem exec_mbRxmaskWrite (v : Word) : exec (.mbRxmaskWrite m n far v) s = .next (s.mbMask n far v) := by
  obtain ⟨-, -, -, -, h18, -⟩ := mbDecodes_written n hn far
  refine congrArg Host.Outcome.next ((atMailbox_of hm hf hn ..).trans ((mbWrite_own h18 ho BitVec.and_zero).trans ?_))
  have hmask : ∀ w : Word, (w &&& ~~~fullMask) ||| v = v := fun w => by
    rw [show ~~~fullMask = (0 : Word) from by decide]
    exact (congrArg (· ||| v) BitVec.and_zero).trans BitVec.zero_or
  exact congrArg (s.mbMask n far) (hmask _)

theorem exec_rxReset : exec (.rxReset m n far) s = .next (s.mbTake n far .rxReset) := by
  obtain ⟨-, -, -, -, -, h20⟩ := mbDecodes_written n hn far
  exact congrArg Host.Outcome.next ((atMailbox_of hm hf hn ..).trans (mbWrite_own h20 ho (by decide)))

theorem exec_txReset : exec (.txReset m n far) s = .next (s.mbSend n far .txReset) := by
  obtain ⟨-, -, -, -, -, h20⟩ := mbDecodes_written n hn far
  exact congrArg Host.Outcome.next ((atMailbox_of hm hf hn ..).trans (mbWrite_own h20 ho (by decide)))

end

/-! ### Locks (R371 to R374) -/

theorem number_lt (m : Master) : m.number < 16 := by
  rcases m with _ | k | ⟨p, g⟩ | _
  · decide
  · cases k <;> decide
  · cases p <;> cases g <;> decide
  · decide

/-- The least of the numbers of some masters is one of theirs. -/
theorem lowestMaster_spec : ∀ ms : List Master, ms ≠ [] →
    (∃ x ∈ ms, lowestMaster ms = x.number) ∧ ∀ x ∈ ms, lowestMaster ms ≤ x.number
  | [], h => absurd rfl h
  | [m], _ => by simp [lowestMaster]
  | m :: m' :: ms, _ => by
    obtain ⟨⟨y, hy, hyn⟩, hle⟩ := lowestMaster_spec (m' :: ms) (by simp)
    have hmin : lowestMaster (m :: m' :: ms) = min m.number (lowestMaster (m' :: ms)) := rfl
    refine ⟨?_, fun x hx => ?_⟩
    · by_cases h : m.number ≤ lowestMaster (m' :: ms)
      · exact ⟨m, List.mem_cons_self, by rw [hmin, Nat.min_eq_left h]⟩
      · exact ⟨y, List.mem_cons_of_mem _ hy, by rw [hmin, Nat.min_eq_right (by omega), hyn]⟩
    · rw [hmin]
      obtain rfl | hx := List.mem_cons.mp hx
      · exact Nat.min_le_left ..
      · exact (Nat.min_le_right ..).trans (hle x hx)

theorem lowestMaster_lt {ms : List Master} (h : ms ≠ []) : lowestMaster ms < 16 := by
  obtain ⟨x, -, hx⟩ := (lowestMaster_spec ms h).1
  exact hx ▸ number_lt x

theorem lockOwner_setOwner_same (s : State) (i : Nat) {v : Nat} (h : v < 16) : (s.setFld .m (Reg.smLock i) 3 0 v).lockOwner i = v := by
  rw [State.lockOwner, fld_setFld_same _ _ _ _ _ _ (by decide)]
  exact Nat.mod_eq_of_lt h

theorem lockOwner_of_reg {s t : State} {i : Nat} (h : t.reg .m (Reg.smLock i) = s.reg .m (Reg.smLock i)) :
    t.lockOwner i = s.lockOwner i := by
  rw [State.lockOwner, State.fld, h]
  rfl

theorem lockOwner_setOwner_other (s : State) {i j : Nat} (v : Nat) (h : j ≠ i) :
    (s.setFld .m (Reg.smLock i) 3 0 v).lockOwner j = s.lockOwner j :=
  lockOwner_of_reg (reg_setFld_other _ _ _ _ (.inr (by unfold Reg.smLock; omega)))

theorem smStat_ne_lock {i : Nat} (h : i < 64) : Reg.smStat ≠ Reg.smLock i := by
  unfold Reg.smStat Reg.smLock
  omega

theorem lockOwner_bump (s : State) (hi lo : Nat) {i : Nat} (h : i < 64) : (s.bump .m Reg.smStat hi lo).lockOwner i = s.lockOwner i :=
  lockOwner_of_reg (reg_bump_other _ _ _ (.inr (smStat_ne_lock h).symm))

theorem lockOwner_logEv (s : State) (src : Nat) (k : Option Strand) (c : LogCode) (arg : List Nat) (i : Nat) :
    (s.logEv src k c arg).lockOwner i = s.lockOwner i := by
  obtain ⟨_, h⟩ := logEv_frame s src k c arg
  rw [h]
  rfl

theorem fld_logEv (s : State) (src : Nat) (k : Option Strand) (c : LogCode) (arg : List Nat) (u : RUnit) (off hi lo : Nat) :
    (s.logEv src k c arg).fld u off hi lo = s.fld u off hi lo := by
  obtain ⟨_, h⟩ := logEv_frame s src k c arg
  rw [h]
  rfl

theorem lockOpen_iff (s : State) (i : Nat) : s.lockOpen i = true ↔ ∃ x ∈ s.lockTaken, x.lock = i ∧ x.cycle = mCycle s.ns := by
  simp [State.lockOpen, List.any_eq_true]

theorem vcQueue_setVcQueue_lane (s : State) {l l' : Lane} (h : l' ≠ l) (d : Die) (down : Bool) (c : VChannel) (ws : List Wire) :
    (s.setVcQueue l d down c ws).vcQueue l' d down c = s.vcQueue l' d down c := by
  have hl : (s.setVcQueue l d down c ws).jlink l' d = s.jlink l' d := by
    rw [State.setVcQueue, jlink_setJLink, if_neg fun hl => h hl.1]
  rw [State.vcQueue, hl]
  rfl

/-- Each lane's results on their way from M, mapped in turn. -/
theorem vcQueue_foldl_lanes (f : Wire → Wire) (l : Lane) (s : State) :
    (Lane.list.foldl (fun t l => t.setVcQueue l .m true .response ((t.vcQueue l .m true .response).map f)) s).vcQueue l .m true
      .response = (s.vcQueue l .m true .response).map f := by
  simp only [Lane.list, List.foldl_cons, List.foldl_nil]
  cases l
  · rw [vcQueue_setVcQueue_lane _ (by decide), vcQueue_setVcQueue_lane _ (by decide), vcQueue_setVcQueue_same]
  · rw [vcQueue_setVcQueue_lane _ (by decide), vcQueue_setVcQueue_same, vcQueue_setVcQueue_lane _ (by decide)]
  · rw [vcQueue_setVcQueue_same, vcQueue_setVcQueue_lane _ (by decide), vcQueue_setVcQueue_lane _ (by decide)]

theorem vcQueue_relock (s : State) (b : Beat) (i w : Nat) (l : Lane) : (s.relock b i w).vcQueue l .m true .response =
    (s.vcQueue l .m true .response).map (Wire.relock b i (BitVec.ofNat 32 w)) :=
  vcQueue_foldl_lanes ..

/-- The answers that change on their way leave registers, locks and log as they were. -/
theorem relock_frame (s : State) (b : Beat) (i w : Nat) : ∃ vs ls, s.relock b i w = { s with voters := vs, links := ls } :=
  ⟨_, _, rfl⟩

/-- A read takes a lock, by which its cycle is noted. -/
def State.lockTook (s : State) (i m : Nat) : State :=
  { s.setFld .m (Reg.smLock i) 3 0 m with
    lockTaken := ⟨i, mCycle s.ns, none⟩ :: s.lockTaken.filter fun x => x.lock != i && x.cycle == mCycle s.ns }

theorem lockOpen_lockTook (s : State) (i m : Nat) : (s.lockTook i m).lockOpen i = true := by
  rw [State.lockOpen, State.lockTook, List.any_cons]
  simp only [BEq.rfl, Bool.true_and, Bool.or_eq_true]
  exact .inl (beq_self_eq_true (mCycle s.ns))

theorem lockTook_spec (s : State) (i : Nat) {m : Nat} (hm : m < 16) : (s.lockTook i m).lockOwner i = m ∧
    (s.lockTook i m).lockOpen i = true ∧ (∀ j, j ≠ i → (s.lockTook i m).lockOwner j = s.lockOwner j) ∧
    (s.lockTook i m).log = s.log :=
  ⟨lockOwner_setOwner_same s i hm, lockOpen_lockTook s i m, fun _ hj => lockOwner_setOwner_other s m hj, rfl⟩

/-- A read that wins a lock takes it, once answers on their way are put right. -/
theorem lockRead_wins {s : State} {i m : Nat} (h : s.lockWins i m = true) :
    ∃ vs ls, s.lockRead i m = State.lockTook { s with voters := vs, links := ls } i m := by
  rw [State.lockRead, if_pos h]
  split
  case h_1 b _ =>
    obtain ⟨vs, ls, hr⟩ := relock_frame s b i m
    rw [hr]
    exact ⟨vs, ls, rfl⟩
  case h_2 => exact ⟨s.voters, s.links, rfl⟩

theorem lockWins_iff (s : State) (i m : Nat) :
    s.lockWins i m = true ↔ s.lockOwner i = 0 ∨ s.lockOpen i = true ∧ m < s.lockOwner i := by
  simp [State.lockWins]

theorem lockRead_spec {s : State} {i m : Nat} (hm : m < 16) (h : s.lockWins i m = true) :
    (s.lockRead i m).lockOwner i = m ∧ (s.lockRead i m).lockOpen i = true ∧
    (∀ j, j ≠ i → j < 64 → (s.lockRead i m).lockOwner j = s.lockOwner j) ∧ (s.lockRead i m).log = s.log := by
  obtain ⟨vs, ls, hr⟩ := lockRead_wins h
  rw [hr]
  obtain ⟨hown, hopen, hother, hlog⟩ := lockTook_spec { s with voters := vs, links := ls } i hm
  exact ⟨hown, hopen, fun j hj _ => hother j hj, hlog⟩

theorem exec_smLockRead {s : State} {i : Nat} {ms : List Master} (hm : s.mOn = true) (hi : i < 64) :
    exec (.smLockRead i ms) s = .next (if (ms.filter fun x => !s.strandFenced x .m) ≠ [] then
      s.lockRead i (lowestMaster (ms.filter fun x => !s.strandFenced x .m)) else s) := by
  refine congrArg Host.Outcome.next ?_
  generalize ms.filter _ = rs
  cases rs with
  | nil => simp
  | cons r rs => rw [if_pos (by simp [hm, hi]), if_pos (by simp)]

/-- A word that carries a number below 16 alone. -/
theorem ownerWord {v : Word} (h : v &&& 0xFFFFFFF0 = 0) : fieldOf v 3 0 = v.toNat := by
  have hlt : v.toNat < 2 ^ 4 := Nat.lt_pow_two_of_testBit _ fun i hi => by
    by_cases h32 : i < 32
    · have hb := congrArg (fun x => x.getLsbD i) h
      have hm : (0xFFFFFFF0 : Word).getLsbD i = true := by interval_cases i <;> rfl
      rw [BitVec.getLsbD_and, hm, Bool.and_true] at hb
      exact hb.trans BitVec.getLsbD_zero
    · exact Nat.testBit_lt_two_pow (Nat.lt_of_lt_of_le v.isLt (Nat.pow_le_pow_right (by decide) (Nat.le_of_not_lt h32)))
  rw [fieldOf, Nat.shiftRight_zero, Nat.mod_eq_of_lt hlt]

theorem ownerWord_number (m : Master) :
    (BitVec.ofNat 32 m.number &&& 0xFFFFFFF0 = 0) ∧ fieldOf (BitVec.ofNat 32 m.number) 3 0 = m.number := by
  have h := number_lt m
  generalize m.number = x at h ⊢
  interval_cases x <;> decide

theorem lockWord {i : Nat} (h : i < 64) :
    (BitVec.ofNat 32 i &&& 0xFFFFFFC0 = 0) ∧ fieldOf (BitVec.ofNat 32 i) 5 0 = i := by
  interval_cases i <;> decide

theorem headCode {o : Option LogEntry} {c : LogCode} {src : Nat} {arg : List Nat}
    (h : (o.map fun e => (e.code, e.src, e.arg)) = some (c, src, arg)) :
    (o.map fun e => e.code) = some c ∧ (o.map fun e => (e.code, e.arg)) = some (c, arg) := by
  cases o with
  | none => cases h
  | some e =>
    injection h with h
    simp only [Prod.mk.injEq] at h
    obtain ⟨hc, -, ha⟩ := h
    simp [hc, ha]

section
variable {s : State} {m : Master} {i : Nat} (hm : s.mOn = true) (hf : s.strandFenced m .m = false) (hi : i < 64)
include hm hf hi

theorem exec_smRelease {v : Word} (hv : v &&& 0xFFFFFFF0 = 0) : exec (.smRelease m i v) s = .next
    (if s.lockOwner i = m.number ∧ v.toNat = m.number then s.freeLock i
      else (s.bump .m Reg.smStat 7 0).logEv 6 (masterStrand m) .smBadRelease [i, m.number]) := by
  have hall : v &&& fullMask = v := BitVec.and_allOnes
  have hat : ∀ t : State, s.atM m t = t := fun t => by rw [State.atM, hm, hf]; rfl
  refine congrArg Host.Outcome.next ((if_pos hi).trans ((hat _).trans ((if_neg ?_).trans ((if_neg (by decide)).trans ?_))))
  · rw [hall, hv]
    decide
  · rw [ownerWord hv]
    cases m <;> rfl

theorem released_spec (ho : s.lockOwner i = m.number) :
    ∃ t, exec (.smRelease m i (BitVec.ofNat 32 m.number)) s = .next t ∧ t.lockOwner i = 0 ∧
      t.fld .m Reg.smStat 7 0 = s.fld .m Reg.smStat 7 0 ∧ t.log = s.log := by
  obtain ⟨hv, -⟩ := ownerWord_number m
  have hn : (BitVec.ofNat 32 m.number).toNat = m.number := Nat.mod_eq_of_lt (Nat.lt_trans (number_lt m) (by decide))
  refine ⟨_, (exec_smRelease hm hf hi hv).trans (congrArg Host.Outcome.next (if_pos ⟨ho, hn⟩)), ?_, ?_, rfl⟩
  · exact lockOwner_setOwner_same s i (by decide)
  · show State.fld (s.setFld .m (Reg.smLock i) 3 0 0) .m Reg.smStat 7 0 = _
    rw [State.fld, reg_setFld_other _ _ _ _ (.inr (smStat_ne_lock hi))]
    rfl

theorem badRelease_spec {v : Word} (hv : v &&& 0xFFFFFFF0 = 0) (ho : s.lockOwner i ≠ m.number ∨ v.toNat ≠ m.number) :
    ∃ t, exec (.smRelease m i v) s = .next t ∧ t.lockOwner i = s.lockOwner i ∧
      t.fld .m Reg.smStat 7 0 = satAdd 8 (s.fld .m Reg.smStat 7 0) 1 ∧
      (s.floodCount 6 < 64 → (t.log.entries.head?.map fun e => e.code) = some .smBadRelease) := by
  refine ⟨_, (exec_smRelease hm hf hi hv).trans (congrArg Host.Outcome.next (if_neg fun h => ?_)), ?_, ?_, fun hflood => ?_⟩
  · exact ho.elim (fun h' => h' h.1) (fun h' => h' h.2)
  · rw [lockOwner_logEv, lockOwner_bump s 7 0 hi]
  · rw [fld_logEv, fld_bump _ _ _ _ _ (by decide)]
    rfl
  · have h := logEv_head (s := s.bump .m Reg.smStat 7 0) hm hflood (masterStrand m) .smBadRelease [i, m.number]
    exact (headCode h).1

end

section
variable {s : State} {i : Nat} (hm : s.mOn = true) (hi : i < 64)
include hm hi

theorem exec_smForce : exec (.smForce .mgmt (BitVec.ofNat 32 i)) s =
    .next (if s.lockOwner i = 0 then s else s.forceLock i (s.lockOwner i)) := by
  obtain ⟨hv, hf⟩ := lockWord hi
  have hat : ∀ t : State, s.atM .mgmt t = t := fun t => by rw [State.atM, hm]; rfl
  refine congrArg Host.Outcome.next ((hat _).trans ?_)
  rw [State.lockForce, if_neg (by simp), if_neg (by rw [hv]; decide), hf]

theorem forced_spec (ho : s.lockOwner i ≠ 0) : ∃ t, exec (.smForce .mgmt (BitVec.ofNat 32 i)) s = .next t ∧ t.lockOwner i = 0 ∧
    t.fld .m Reg.smStat 15 8 = satAdd 8 (s.fld .m Reg.smStat 15 8) 1 ∧
    (s.floodCount 6 < 64 → (t.log.entries.head?.map fun e => (e.code, e.arg)) = some (.smForced, [i, s.lockOwner i])) := by
  have hfree : (s.freeLock i).lockOwner i = 0 := lockOwner_setOwner_same s i (by decide)
  have hstat : (s.freeLock i).fld .m Reg.smStat 15 8 = s.fld .m Reg.smStat 15 8 := by
    show State.fld (s.setFld .m (Reg.smLock i) 3 0 0) .m Reg.smStat 15 8 = _
    rw [State.fld, reg_setFld_other _ _ _ _ (.inr (smStat_ne_lock hi))]
    rfl
  refine ⟨_, (exec_smForce hm hi).trans (congrArg Host.Outcome.next (if_neg ho)), ?_, ?_, fun hflood => ?_⟩
  · rw [State.forceLock, lockOwner_logEv, lockOwner_bump _ _ _ hi, hfree]
  · rw [State.forceLock, fld_logEv, fld_bump _ _ _ _ _ (by decide), hstat]
    rfl
  · have h := logEv_head (s := (s.freeLock i).bump .m Reg.smStat 15 8) hm hflood none .smForced [i, s.lockOwner i]
    exact (headCode h).2

end

/-- What a lock read does, decided together with the other reads of its cycle. -/
theorem smLockRead_spec {s : State} {i : Nat} (hm : s.mOn = true) (hi : i < 64) (ms : List Master) :
    let rs := ms.filter fun x => !s.strandFenced x .m
    (rs ≠ [] → s.lockOwner i = 0 ∨ s.lockOpen i = true ∧ lowestMaster rs < s.lockOwner i →
      ∃ t, exec (.smLockRead i ms) s = .next t ∧ t.lockOwner i = lowestMaster rs ∧ t.lockOpen i = true ∧
        (∀ j, j ≠ i → j < 64 → t.lockOwner j = s.lockOwner j) ∧ t.log = s.log) ∧
    (rs = [] ∨ s.lockOwner i ≠ 0 ∧ (s.lockOpen i = false ∨ s.lockOwner i ≤ lowestMaster rs) →
      exec (.smLockRead i ms) s = .next s) := by
  rw [exec_smLockRead hm hi]
  generalize ms.filter _ = rs
  refine ⟨fun hrs hw => ⟨_, congrArg Host.Outcome.next (if_pos hrs), lockRead_spec (lowestMaster_lt hrs) ((lockWins_iff ..).mpr hw)⟩,
    fun h => congrArg Host.Outcome.next ?_⟩
  obtain h | ⟨h₀, h⟩ := h
  · exact if_neg (not_not.mpr h)
  · have hno : ¬s.lockWins i (lowestMaster rs) = true := by
      rw [lockWins_iff]
      rintro (h' | ⟨ho, hlt⟩)
      · exact h₀ h'
      · obtain h | h := h
        · rw [h] at ho
          cases ho
        · omega
    rw [State.lockRead, if_neg hno, ite_self]

/-- The first act of a cycle, register by register. -/
theorem mb_firstAct {m : Master} {n : Nat} {far : Bool} {v : Word} {s : State} (hm : s.mOn = true)
    (hf : s.strandFenced m .m = false) (hn : n < 12) (ho : mbOwns m n far = true) (hl : n < s.mailboxes.length)
    (hfr : (s.mailbox n).fresh (mCycle s.ns) = true) : let x := s.mailbox n
    (mbHeld (x.tx far) < 16 → ∃ t, exec (.mbTxword m n far v) s = .next t ∧
      ((t.mailbox n).tx far).openWords = (x.tx far).openWords ++ [v] ∧
      ((t.mailbox n).tx far).msgs = (x.tx far).msgs ∧ (t.mailbox n).rx far = x.rx far ∧ t.regs = s.regs ∧
      (∀ j, j ≠ n → t.mailbox j = s.mailbox j)) ∧
    (16 ≤ mbHeld (x.tx far) → (x.tx far).openWords ≠ [] → ∃ t, exec (.mbTxword m n far v) s = .next t ∧
      ((t.mailbox n).tx far).openWords = (x.tx far).openWords.dropLast ++ [v] ∧
      ((t.mailbox n).tx far).openColl = true ∧ ((t.mailbox n).tx far).collTx = true ∧
      ((t.mailbox n).tx far).collRx = true ∧ ((t.mailbox n).tx far).msgs = (x.tx far).msgs) ∧
    (∃ t, exec (.mbTxdb m n far v) s = .next t ∧ ((t.mailbox n).tx far).db = (x.tx far).db ||| v ∧
      ((x.tx far).openWords = [] → ((t.mailbox n).tx far).msgs = (x.tx far).msgs) ∧
      ((x.tx far).openWords ≠ [] → ((t.mailbox n).tx far).openWords = [] ∧
        ((t.mailbox n).tx far).msgs.map (·.words) = (x.tx far).msgs.map (·.words) ++ [(x.tx far).openWords]) ∧
      (far = false → v &&& (x.tx far).mask ≠ 0 → (t.mailbox n).notices = x.notices + 1) ∧
      (t.mailbox n).rx far = x.rx far ∧ t.regs = s.regs) ∧
    (v &&& 0xFFFFFFFE = 0 → bitOf v 0 = true → ∃ t, exec (.mbRxpop m n far v) s = .next t ∧
      ((t.mailbox n).rx far).msgs = (x.rx far).msgs.tail ∧ ((t.mailbox n).rx far).openWords = (x.rx far).openWords ∧
      (t.mailbox n).tx far = x.tx far) ∧
    (∃ t, exec (.rxReset m n far) s = .next t ∧ ((t.mailbox n).rx far).msgs = [] ∧ ((t.mailbox n).rx far).openWords = [] ∧
      ((t.mailbox n).rx far).db = 0 ∧ ((t.mailbox n).rx far).mask = (x.rx far).mask ∧
      ((t.mailbox n).rx far).flushTx = true ∧ ((t.mailbox n).rx far).flushRx = true) ∧
    (∃ t, exec (.txReset m n far) s = .next t ∧ ((t.mailbox n).tx far).openWords = [] ∧
      ((t.mailbox n).tx far).epoch = (x.tx far).epoch + 1 ∧ ((t.mailbox n).tx far).msgs = (x.tx far).msgs) ∧
    (∃ t, exec (.mbRxdbClear m n far v) s = .next t ∧ ((t.mailbox n).rx far).db = (x.rx far).db &&& ~~~v ∧
      ((t.mailbox n).rx far).msgs = (x.rx far).msgs) ∧
    (∃ t, exec (.mbRxmaskWrite m n far v) s = .next t ∧ ((t.mailbox n).rx far).mask = v ∧
      ((t.mailbox n).rx far).db = (x.rx far).db) := by
  refine ⟨fun hroom => ⟨_, exec_mbTxword hm hf hn ho v, ?_⟩, fun hfull hopen => ⟨_, exec_mbTxword hm hf hn ho v, ?_⟩,
    ⟨_, exec_mbTxdb hm hf hn ho v, ?_⟩, fun hr hb => ⟨_, exec_mbRxpop hm hf hn ho hr hb, ?_⟩, ⟨_, exec_rxReset hm hf hn ho, ?_⟩,
    ⟨_, exec_txReset hm hf hn ho, ?_⟩, ⟨_, exec_mbRxdbClear hm hf hn ho v, ?_⟩, ⟨_, exec_mbRxmaskWrite hm hf hn ho v, ?_⟩⟩
  · obtain ⟨htx, hrx, -⟩ := mbSend_spec hl hfr far (.word m.number v)
    obtain ⟨hwords, hmsgs⟩ := appendWord_room hroom m.number v
    exact ⟨(congrArg MbDir.openWords htx).trans hwords, (congrArg MbDir.msgs htx).trans hmsgs, hrx, (putMailbox_frame ..).2,
      fun j hj => mailbox_putMailbox_other s hj _⟩
  · obtain ⟨htx, -⟩ := mbSend_spec hl hfr far (.word m.number v)
    rw [htx]
    exact appendWord_full hfull hopen m.number v
  · obtain ⟨htx, hrx, hregs, hnotice⟩ := mbDoorbell_spec hl hfr far m v
    obtain ⟨hdb, hclosed, hopen⟩ := ringDoorbell_spec ((s.mailbox n).tx far) m.number v
    rw [htx]
    exact ⟨hdb, hclosed, hopen, hnotice, hrx, hregs⟩
  · obtain ⟨hrx, htx, -⟩ := mbTake_spec hl hfr far .pop
    rw [hrx]
    exact ⟨rfl, rfl, htx⟩
  · rw [(mbTake_spec hl hfr far .rxReset).1]
    exact ⟨rfl, rfl, rfl, rfl, rfl, rfl⟩
  · rw [(mbSend_spec hl hfr far .txReset).1]
    exact ⟨rfl, rfl, rfl⟩
  · rw [(mbTake_spec hl hfr far (.clearDb v)).1]
    exact ⟨rfl, rfl⟩
  · rw [mbMask_spec hl hfr far v]
    exact ⟨rfl, rfl⟩

/-- Settles O56: the first act of a cycle is done on the direction as it stood, and a lock's owner stands in a field of its own. -/
theorem mailboxesAndLocksOfTheManagementDie : Obligations.MailboxesAndLocksOfTheManagementDie := by
  refine ⟨fun m n far v s hm hf hn => ⟨fun ho => mb_foreign hm hf hn ho v, fun ho => ⟨exec_mbTxword hm hf hn ho v,
    exec_mbTxdb hm hf hn ho v, fun hr hb => exec_mbRxpop hm hf hn ho hr hb, exec_rxReset hm hf hn ho, exec_txReset hm hf hn ho⟩,
    fun out a => act_spec _ _ out a, fun ho hl hfr => mb_firstAct hm hf hn ho hl hfr⟩,
    fun i m s hm hf hi => ⟨smLockRead_spec hm hi, lockOpen_iff s i, fun b w l => vcQueue_relock s b i w l, lowestMaster_spec,
    released_spec hm hf hi, fun v hv ho => badRelease_spec hm hf hi hv ho, fun hg v => ?_, fun x v hx => ?_, fun ho => ?_,
    forced_spec hm hi⟩⟩
  · have hat : ∀ t : State, s.atM m t = t := fun t => by rw [State.atM, hm, hf]; rfl
    exact congrArg Host.Outcome.next ((hat _).trans (if_pos hg))
  · have hat : ∀ t : State, s.atM x t = s := fun t => by rw [State.atM, hx, hm]; rfl
    exact ⟨congrArg Host.Outcome.next (hat _), congrArg Host.Outcome.next ((if_pos hi).trans (hat _))⟩
  · exact (exec_smForce hm hi).trans (congrArg Host.Outcome.next (if_pos ho))

end Sys2Proof.Machine
end

-- ==== Proofs: governors of Dripstone ====
section
/-! The governors of the lanes and the step in force (R410 to R417). -/

namespace Sys2Proof.Machine

/-! ### Readings (R410) -/

theorem foldl_min_spec (xs : List Byte) (n : Nat) : let m := xs.foldl (fun n x => min n x.toNat) n
    m ≤ n ∧ (∀ x ∈ xs, m ≤ x.toNat) ∧ (m = n ∨ ∃ x ∈ xs, m = x.toNat) := by
  induction xs generalizing n with
  | nil => exact ⟨Nat.le_refl n, fun x hx => absurd hx List.not_mem_nil, .inl rfl⟩
  | cons y ys ih =>
    obtain ⟨hle, hall, hsome⟩ := ih (min n y.toNat)
    refine ⟨hle.trans (Nat.min_le_left ..), fun x hx => ?_, ?_⟩
    · obtain rfl | hx := List.mem_cons.mp hx
      · exact hle.trans (Nat.min_le_right ..)
      · exact hall x hx
    · obtain h | ⟨x, hx, h⟩ := hsome
      · by_cases hy : n ≤ y.toNat
        · exact .inl (h.trans (Nat.min_eq_left hy))
        · exact .inr ⟨y, List.mem_cons_self, h.trans (Nat.min_eq_right (by omega))⟩
      · exact .inr ⟨x, List.mem_cons_of_mem _ hx, h⟩

theorem slackOf_spec (r : GovReading) : (∀ x ∈ r.replicas, slackOf r ≤ x.toNat) ∧ slackOf r ≤ 255 ∧
    (slackOf r = 255 ∨ ∃ x ∈ r.replicas, slackOf r = x.toNat) := by
  obtain ⟨hle, hall, hsome⟩ := foldl_min_spec r.replicas 255
  exact ⟨hall, hle, hsome⟩

/-! ### What M shows (R422) -/

/-- A register of M that shows the governors. -/
def showsDs (off : Nat) : Bool := off == Reg.dsStat || off == Reg.dsStep || Lane.list.any fun l => off == Reg.dsLane l.idx

/-- `DS_LANE` of every lane. -/
def State.lanesShown (s : State) : State :=
  Lane.list.foldl (fun (t : State) l =>
    let g := t.gov l
    let w := withField (withField (withField (withField (withField (0 : Word) 31 24 g.slack) 23 20 (g.limits.get l))
      19 16 (g.plan.get l)) 13 8 g.volt) 7 0 g.temp.toNat
    t.setReg .m (Reg.dsLane l.idx) w) s

/-- DROPS and RAISES of `DS_STAT`. -/
def State.stepCounted (s : State) (step : Nat) : State :=
  let old := s.fld .m Reg.dsStep 27 24
  if step < old then s.bump .m Reg.dsStat 31 24 else if old < step then s.bump .m Reg.dsStat 23 16 else s

theorem showDs_eq (s : State) : s.showDs = s ∨ ∃ n w, s.showDs = (s.lanesShown.stepCounted n).setReg .m Reg.dsStep w := by
  by_cases h : s.mOn = true
  · exact .inr ⟨_, _, if_neg (by simp [h])⟩
  · exact .inl (if_pos (by simp [h]))

theorem stepCounted_frame (s : State) (n : Nat) : ∃ rg, s.stepCounted n = { s with regs := rg } := by
  simp only [State.stepCounted]
  split
  · exact ⟨_, rfl⟩
  · split <;> exact ⟨_, rfl⟩

theorem showDs_frame (s : State) : ∃ rg, s.showDs = { s with regs := rg } := by
  obtain h | ⟨n, w, h⟩ := showDs_eq s
  · exact ⟨s.regs, h⟩
  · obtain ⟨rg, hc⟩ := stepCounted_frame s.lanesShown n
    rw [h, hc]
    exact ⟨_, rfl⟩

theorem reg_lanesShown_other (s : State) {u : RUnit} {off : Nat} (h : u ≠ .m ∨ ∀ l : Lane, off ≠ Reg.dsLane l.idx) :
    s.lanesShown.reg u off = s.reg u off :=
  reg_foldl_of_each (fun l _ t => reg_setReg_other t _ (h.imp_right fun h => h l)) s

theorem reg_stepCounted_other (s : State) (n : Nat) {u : RUnit} {off : Nat} (h : u ≠ .m ∨ off ≠ Reg.dsStat) :
    (s.stepCounted n).reg u off = s.reg u off := by
  simp only [State.stepCounted]
  split
  · exact reg_bump_other _ _ _ h
  · split
    · exact reg_bump_other _ _ _ h
    · rfl

theorem fld_stepCounted (s : State) (n : Nat) : (s.stepCounted n).fld .m Reg.dsStat 15 8 = s.fld .m Reg.dsStat 15 8 := by
  simp only [State.stepCounted]
  split
  · exact fld_setFld_other _ _ _ _ (.inl (by decide))
  · split
    · exact fld_setFld_other _ _ _ _ (.inl (by decide))
    · rfl

theorem reg_showDs_other (s : State) {u : RUnit} {off : Nat} (h : u ≠ .m ∨ showsDs off = false) : s.showDs.reg u off = s.reg u off := by
  have hne : u ≠ .m ∨ (off ≠ Reg.dsStat ∧ off ≠ Reg.dsStep ∧ ∀ l : Lane, off ≠ Reg.dsLane l.idx) := by
    refine h.imp_right fun hs => ?_
    simp only [showsDs, Bool.or_eq_false_iff, beq_eq_false_iff_ne, List.any_eq_false, beq_iff_eq] at hs
    obtain ⟨⟨h₁, h₂⟩, h₃⟩ := hs
    exact ⟨h₁, h₂, fun l => h₃ l (by cases l <;> decide)⟩
  obtain hs | ⟨n, w, hs⟩ := showDs_eq s
  · rw [hs]
  · rw [hs, reg_setReg_other _ _ (hne.imp_right fun h => h.2.1), reg_stepCounted_other _ _ (hne.imp_right fun h => h.1),
      reg_lanesShown_other _ (hne.imp_right fun h => h.2.2)]

theorem fld_dsStat_showDs (s : State) : s.showDs.fld .m Reg.dsStat 15 8 = s.fld .m Reg.dsStat 15 8 := by
  obtain hs | ⟨n, w, hs⟩ := showDs_eq s
  · rw [hs]
  · rw [hs, State.fld, reg_setReg_other _ _ (.inr (by decide))]
    refine (fld_stepCounted _ n).trans ?_
    rw [State.fld, reg_lanesShown_other _ (.inr fun l => by cases l <;> decide)]
    rfl

theorem gov_showDs (s : State) (l : Lane) : s.showDs.gov l = s.gov l := by
  obtain ⟨_, h⟩ := showDs_frame s
  rw [h]
  rfl

theorem wires_showDs (s : State) : s.showDs.wires = s.wires := by
  obtain ⟨_, h⟩ := showDs_frame s
  rw [h]

theorem retired_showDs (s : State) (l : Lane) : s.showDs.retired l = s.retired l :=
  retired_congr (fun x => reg_showDs_other s (.inl (by cases x <;> decide))) l

/-! ### A lane's governor -/

theorem gov_setGov (s : State) (l x : Lane) (g : Governor) : (s.setGov l g).gov x = if x = l then g else s.gov x := Tri.get_set ..

theorem gov_setGov_same (s : State) (l : Lane) (g : Governor) : (s.setGov l g).gov l = g := by rw [gov_setGov, if_pos rfl]

theorem setGov_setGov (s : State) (l : Lane) (g h : Governor) : (s.setGov l g).setGov l h = s.setGov l h := by
  cases l <;> rfl

theorem setGov_self (s : State) (l : Lane) : s.setGov l (s.gov l) = s := by
  cases l <;> rfl

/-- The values by which a step is computed stay. -/
def Governor.samePace (g h : Governor) : Prop := h.limits = g.limits ∧ h.plan = g.plan ∧ h.ceils = g.ceils

theorem stepOf_setGov (s : State) (l : Lane) {g : Governor} (h : (s.gov l).samePace g) : (s.setGov l g).stepOf l = s.stepOf l := by
  obtain ⟨hl, hp, hc⟩ := h
  rw [State.stepOf, gov_setGov_same, hl, hp, hc]
  rfl

/-- A governor after a step was computed (R415, R417). -/
def Governor.stepped (g : Governor) (n now : Nat) : Governor :=
  if n ≤ g.step then { g with step := n, raising := none }
  else if (g.raising.map (·.1)) = some n then g
  else { g with volt := min 50 (g.volt + 8), raising := some (n, now) }

theorem stepped_lower {g : Governor} {n : Nat} (now : Nat) (h : n ≤ g.step) : g.stepped n now = { g with step := n, raising := none } :=
  if_pos h

theorem stepped_higher {g : Governor} {n : Nat} (now : Nat) (h : g.step < n) (hr : g.raising.map (·.1) ≠ some n) :
    g.stepped n now = { g with volt := min 50 (g.volt + 8), raising := some (n, now) } :=
  (if_neg (Nat.not_le.mpr h)).trans (if_neg hr)

theorem samePace_stepped (g : Governor) (n now : Nat) : g.samePace (g.stepped n now) := by
  rw [Governor.stepped]
  split
  · exact ⟨rfl, rfl, rfl⟩
  · split <;> exact ⟨rfl, rfl, rfl⟩

theorem step_stepped_le (g : Governor) (n now : Nat) : (g.stepped n now).step ≤ n := by
  rw [Governor.stepped]
  split
  · exact Nat.le_refl n
  · split <;> exact Nat.le_of_not_le ‹_›

/-- The wait for a calm voltage touches its own start alone. -/
theorem trackCalm_eq (s : State) (l : Lane) : ∃ c, s.trackCalm l = s.setGov l { s.gov l with calmSince := c } := by
  rw [State.trackCalm]
  dsimp only
  split
  · split
    · exact ⟨(s.gov l).calmSince, (setGov_self s l).symm⟩
    · exact ⟨_, rfl⟩
  · exact ⟨_, rfl⟩

theorem reStep_eq {s : State} {l : Lane} (hr : s.retired l = false) :
    ∃ c, s.reStep l = s.setGov l { (s.gov l).stepped (s.stepOf l) s.ns with calmSince := c } := by
  obtain ⟨c, hc⟩ := trackCalm_eq (s.setGov l ((s.gov l).stepped (s.stepOf l) s.ns)) l
  rw [gov_setGov_same, setGov_setGov] at hc
  exact ⟨c, (if_neg (by simp [hr])).trans hc⟩

/-- Whatever a lane does with a step that it computes, the values it holds stay. -/
theorem reStep_samePace (s : State) (l : Lane) : ∃ g, s.reStep l = s.setGov l g ∧ (s.gov l).samePace g := by
  by_cases hr : s.retired l = true
  · exact ⟨s.gov l, (if_pos hr).trans (setGov_self s l).symm, rfl, rfl, rfl⟩
  · obtain ⟨c, hc⟩ := reStep_eq (by simpa using hr : s.retired l = false)
    exact ⟨_, hc, samePace_stepped ..⟩

theorem trackCalm_samePace (s : State) (l : Lane) : ∃ g, s.trackCalm l = s.setGov l g ∧ (s.gov l).samePace g := by
  obtain ⟨c, hc⟩ := trackCalm_eq s l
  exact ⟨_, hc, rfl, rfl, rfl⟩

/-- A governor that changed nothing of its pace, at the step it computes: only the waits change. -/
theorem settled_eq {s : State} {l : Lane} {g : Governor} (hr : s.retired l = false) (hp : (s.gov l).samePace g)
    (hstep : s.stepOf l = g.step) : ∃ c, ((s.setGov l g).trackCalm l).reStep l = s.setGov l { g with raising := none, calmSince := c } := by
  obtain ⟨c, hc⟩ := trackCalm_eq (s.setGov l g) l
  rw [gov_setGov_same, setGov_setGov] at hc
  obtain ⟨c', hc'⟩ := reStep_eq (s := s.setGov l { g with calmSince := c }) (l := l) hr
  have hsame : (s.gov l).samePace { g with calmSince := c } := hp
  rw [gov_setGov_same, stepOf_setGov s l hsame, setGov_setGov,
    stepped_lower _ (show s.stepOf l ≤ Governor.step { g with calmSince := c } from hstep.le), hstep] at hc'
  exact ⟨c', by rw [hc, hc']⟩

/-! ### Messages of the pace coupling (R415) -/

theorem send_pace (s : State) (ls : List Lane) (v : PaceValue) :
    s.send (ls.map fun x => .pace x v) = { s with wires := s.wires ++ ls.map fun x => .pace x v } := by
  induction ls generalizing s with
  | nil => simp [State.send]
  | cons l ls ih =>
    have h := ih { s with wires := s.wires ++ [.pace l v] }
    simp only [State.send, List.map_cons, List.foldl_cons] at h ⊢
    rw [show s.sendOne (.pace l v) = { s with wires := s.wires ++ [.pace l v] } from rfl, h, List.append_assoc]
    rfl

/-- Keeping a lane's pace, and nothing outside its governor. -/
theorem keep_pace {s t : State} {l : Lane} (h : ∃ g, t = s.setGov l g ∧ (s.gov l).samePace g) :
    (s.gov l).samePace (t.gov l) ∧ (∀ x, x ≠ l → t.gov x = s.gov x) ∧ t.wires = s.wires := by
  obtain ⟨g, rfl, hp⟩ := h
  refine ⟨by rwa [gov_setGov_same], fun x hx => by rw [gov_setGov, if_neg hx], rfl⟩

theorem samePace_trans {g h k : Governor} (h₁ : g.samePace h) (h₂ : h.samePace k) : g.samePace k :=
  ⟨h₂.1.trans h₁.1, h₂.2.1.trans h₁.2.1, h₂.2.2.trans h₁.2.2⟩

/-- A changed GOV_LIMIT is the lane's own, and the other lanes are told. -/
theorem setLimit_spec (s : State) (l : Lane) (n : Nat) :
    ((s.setLimit l n).gov l).limits = (s.gov l).limits.set l n ∧
    (s.setLimit l n).wires = s.wires ++ (s.peers l).map fun x => .pace x (.limit l n) := by
  rw [State.setLimit, send_pace]
  generalize hu : State.setGov s l _ = u
  have hgov : (u.gov l).limits = (s.gov l).limits.set l n := by rw [← hu, gov_setGov_same]
  have hwires : u.wires = s.wires := by rw [← hu]; rfl
  generalize hv : ({ u with wires := u.wires ++ (s.peers l).map fun x => .pace x (.limit l n) } : State) = v
  obtain ⟨hp₁, -, hw₁⟩ := keep_pace (reStep_samePace v l)
  obtain ⟨hp₂, -, hw₂⟩ := keep_pace (trackCalm_samePace (v.reStep l) l)
  have hlim : (v.gov l).limits = (s.gov l).limits.set l n := by rw [← hv]; exact hgov
  refine ⟨(hp₂.1.trans hp₁.1).trans hlim, ?_⟩
  rw [hw₂, hw₁, ← hv, ← hwires]

theorem get_set_lane {α : Type} (t : Tri α) (l : Lane) (x : α) : (t.set l x).get l = x := by rw [Tri.get_set, if_pos rfl]

/-! ### The commands of a governor (R411, R412, R415) -/

/-- A governor with what a reading shows. -/
def Governor.read (g : Governor) (r : GovReading) : Governor := { g with slack := slackOf r, temp := tempOf r }

/-- What a reading does to the voltage and the limit, before the step is computed again. -/
def State.governed (s : State) (l : Lane) (r : GovReading) : State :=
  let g := (s.gov l).read r
  if slackOf r < 16 then
    if g.volt < 50 then s.setGov l { g with volt := g.volt + 1, low := 0 }
    else if 3 ≤ g.low ∧ 0 < g.limits.get l then (s.setGov l g).setLimit l (g.limits.get l - 1)
    else s.setGov l { g with low := min 3 (g.low + 1) }
  else if 32 < slackOf r ∧ 0 < g.volt then s.setGov l { g with volt := g.volt - 1, low := 0 }
  else s.setGov l { g with low := 0 }

section
variable {s : State} {l : Lane} {r : GovReading}

theorem govern_eq : s.govern l r = (((s.governed l r).trackCalm l).reStep l).showDs := rfl

theorem governed_raises (h : slackOf r < 16) (hv : (s.gov l).volt < 50) :
    s.governed l r = s.setGov l { (s.gov l).read r with volt := (s.gov l).volt + 1, low := 0 } := by
  rw [State.governed, if_pos h, if_pos (show ((s.gov l).read r).volt < 50 from hv)]
  rfl

theorem governed_lowers (h : 32 < slackOf r) (hv : 0 < (s.gov l).volt) :
    s.governed l r = s.setGov l { (s.gov l).read r with volt := (s.gov l).volt - 1, low := 0 } := by
  rw [State.governed, if_neg (by omega), if_pos ⟨h, show 0 < ((s.gov l).read r).volt from hv⟩]
  rfl

theorem governed_limits (h : slackOf r < 16) (hv : 50 ≤ (s.gov l).volt) (hlow : 3 ≤ (s.gov l).low) (hlim : 0 < (s.gov l).limits.get l) :
    s.governed l r = (s.setGov l ((s.gov l).read r)).setLimit l ((s.gov l).limits.get l - 1) := by
  rw [State.governed, if_pos h, if_neg (show ¬((s.gov l).read r).volt < 50 from Nat.not_lt.mpr hv),
    if_pos (show 3 ≤ ((s.gov l).read r).low ∧ 0 < ((s.gov l).read r).limits.get l from ⟨hlow, hlim⟩)]
  rfl

theorem governed_counts (h : slackOf r < 16) (hv : 50 ≤ (s.gov l).volt) (hlow : (s.gov l).low < 3) :
    s.governed l r = s.setGov l { (s.gov l).read r with low := (s.gov l).low + 1 } := by
  rw [State.governed, if_pos h, if_neg (show ¬((s.gov l).read r).volt < 50 from Nat.not_lt.mpr hv),
    if_neg (show ¬(3 ≤ ((s.gov l).read r).low ∧ 0 < ((s.gov l).read r).limits.get l) from fun h => absurd h.1 (Nat.not_le.mpr hlow)),
    show min 3 (((s.gov l).read r).low + 1) = (s.gov l).low + 1 from Nat.min_eq_right hlow]

theorem exec_governorReading (hr : s.retired l = false) (hp : s.corePowered l = true) :
    exec (.governorReading l r) s = .next (((s.governed l r).trackCalm l).reStep l).showDs :=
  congrArg Host.Outcome.next (if_neg (by simp [hr, hp]))

/-- The governor that a reading leaves when the limit stays and the step is the one in force. -/
theorem settled_spec (hr : s.retired l = false) {g : Governor} (hp : (s.gov l).samePace g) (hstep : s.stepOf l = g.step) :
    let u := (((s.setGov l g).trackCalm l).reStep l).showDs
    (u.gov l).volt = g.volt ∧ (u.gov l).slack = g.slack ∧ (u.gov l).temp = g.temp ∧ (u.gov l).limits = g.limits ∧
      (u.gov l).low = g.low ∧ (∀ x, x ≠ l → u.gov x = s.gov x) ∧ u.wires = s.wires := by
  obtain ⟨c, hc⟩ := settled_eq hr hp hstep
  rw [hc]
  dsimp only
  rw [gov_showDs, wires_showDs, gov_setGov_same]
  exact ⟨rfl, rfl, rfl, rfl, rfl, fun x hx => by rw [gov_showDs, gov_setGov, if_neg hx], rfl⟩

/-- A changed limit outlasts the step that is computed after it. -/
theorem limited_spec (u : State) (n : Nat) : let t := (((u.setLimit l n).trackCalm l).reStep l).showDs
    (t.gov l).limits = (u.gov l).limits.set l n ∧ t.wires = u.wires ++ (u.peers l).map fun x => .pace x (.limit l n) := by
  obtain ⟨hlim, hwires⟩ := setLimit_spec u l n
  obtain ⟨hp₁, -, hw₁⟩ := keep_pace (trackCalm_samePace (u.setLimit l n) l)
  obtain ⟨hp₂, -, hw₂⟩ := keep_pace (reStep_samePace ((u.setLimit l n).trackCalm l) l)
  dsimp only
  rw [gov_showDs, wires_showDs]
  exact ⟨(hp₂.1.trans hp₁.1).trans hlim, (hw₂.trans hw₁).trans hwires⟩

end

section
variable {s : State} {l : Lane} (hr : s.retired l = false)
include hr

/-- A reading with too little slack, and one with more than enough (R411). -/
theorem governorReading_spec (hp : s.corePowered l = true) :
    (∀ r : GovReading, slackOf r < 16 → (s.gov l).volt < 50 → s.stepOf l = (s.gov l).step →
      ∃ t, exec (.governorReading l r) s = .next t ∧ (t.gov l).volt = (s.gov l).volt + 1 ∧ (t.gov l).slack = slackOf r ∧
        (t.gov l).temp = tempOf r ∧ (t.gov l).limits = (s.gov l).limits ∧ (∀ x, x ≠ l → t.gov x = s.gov x) ∧ t.wires = s.wires) ∧
    (∀ r : GovReading, 32 < slackOf r → 0 < (s.gov l).volt → s.stepOf l = (s.gov l).step →
      ∃ t, exec (.governorReading l r) s = .next t ∧ (t.gov l).volt = (s.gov l).volt - 1 ∧ (t.gov l).limits = (s.gov l).limits) ∧
    (∀ r : GovReading, slackOf r < 16 → 50 ≤ (s.gov l).volt → 3 ≤ (s.gov l).low → 0 < (s.gov l).limits.get l →
      ∃ t, exec (.governorReading l r) s = .next t ∧ (t.gov l).limits.get l = (s.gov l).limits.get l - 1 ∧
        t.wires = s.wires ++ (s.peers l).map fun x => .pace x (.limit l ((s.gov l).limits.get l - 1))) ∧
    (∀ r : GovReading, slackOf r < 16 → 50 ≤ (s.gov l).volt → (s.gov l).low < 3 → s.stepOf l = (s.gov l).step →
      ∃ t, exec (.governorReading l r) s = .next t ∧ (t.gov l).limits = (s.gov l).limits ∧ (t.gov l).volt = (s.gov l).volt ∧
        (t.gov l).low = (s.gov l).low + 1) := by
  refine ⟨fun r hsl hv hst => ⟨_, exec_governorReading hr hp, ?_⟩, fun r hsl hv hst => ⟨_, exec_governorReading hr hp, ?_⟩,
    fun r hsl hv hlow hlim => ⟨_, exec_governorReading hr hp, ?_⟩, fun r hsl hv hlow hst => ⟨_, exec_governorReading hr hp, ?_⟩⟩
  · obtain ⟨hvolt, hslack, htemp, hlimits, -, hother, hwires⟩ := settled_spec hr
      (g := { (s.gov l).read r with volt := (s.gov l).volt + 1, low := 0 }) ⟨rfl, rfl, rfl⟩ hst
    rw [governed_raises hsl hv]
    exact ⟨hvolt, hslack, htemp, hlimits, hother, hwires⟩
  · obtain ⟨hvolt, -, -, hlimits, -⟩ := settled_spec hr
      (g := { (s.gov l).read r with volt := (s.gov l).volt - 1, low := 0 }) ⟨rfl, rfl, rfl⟩ hst
    rw [governed_lowers hsl hv]
    exact ⟨hvolt, hlimits⟩
  · obtain ⟨hlimits, hwires⟩ := limited_spec (l := l) (s.setGov l ((s.gov l).read r)) ((s.gov l).limits.get l - 1)
    rw [governed_limits hsl hv hlow hlim]
    refine ⟨?_, hwires⟩
    rw [hlimits, get_set_lane]
  · obtain ⟨hvolt, -, -, hlimits, hlow', -⟩ := settled_spec hr
      (g := { (s.gov l).read r with low := (s.gov l).low + 1 }) ⟨rfl, rfl, rfl⟩ hst
    rw [governed_counts hsl hv hlow]
    exact ⟨hlimits, hvolt, hlow'⟩

/-- The limit rises after 60 s of a calm voltage (R412). -/
theorem govLimitRaise_spec {x : Nat} (hc : (s.gov l).calmSince = some x) (hl : (s.gov l).limits.get l < 8) :
    (x + 60000000000 ≤ s.ns → ∃ t, exec (.govLimitRaise l) s = .next t ∧ (t.gov l).limits.get l = (s.gov l).limits.get l + 1 ∧
      t.wires = s.wires ++ (s.peers l).map fun y => .pace y (.limit l ((s.gov l).limits.get l + 1))) ∧
    (s.ns < x + 60000000000 → exec (.govLimitRaise l) s = .next s) := by
  obtain ⟨hlim, hwires⟩ := setLimit_spec s l ((s.gov l).limits.get l + 1)
  have hgo : (!s.retired l && (s.gov l).calmSince.any (fun x => decide (x + 60000000000 ≤ s.ns)) &&
      decide ((s.gov l).limits.get l < 8)) = decide (x + 60000000000 ≤ s.ns) := by
    rw [hr, hc, Option.any_some, decide_eq_true hl, Bool.not_false, Bool.true_and, Bool.and_true]
  refine ⟨fun h => ⟨_, congrArg Host.Outcome.next (if_pos (hgo.trans (decide_eq_true h))), ?_, ?_⟩, fun h => ?_⟩
  · rw [gov_showDs, hlim, get_set_lane]
  · rw [wires_showDs, hwires]
  · exact congrArg Host.Outcome.next (if_neg (by rw [hgo, decide_eq_true_eq]; exact Nat.not_le.mpr h))

/-- A step that a lane computes (R415, R417). -/
theorem reStep_spec :
    (s.stepOf l ≤ (s.gov l).step → ((s.reStep l).gov l).step = s.stepOf l ∧ ((s.reStep l).gov l).raising = none ∧
      ((s.reStep l).gov l).volt = (s.gov l).volt) ∧
    ((s.gov l).step < s.stepOf l → (s.gov l).raising.map (·.1) ≠ some (s.stepOf l) → ((s.reStep l).gov l).step = (s.gov l).step ∧
      ((s.reStep l).gov l).raising = some (s.stepOf l, s.ns) ∧ ((s.reStep l).gov l).volt = min 50 ((s.gov l).volt + 8)) := by
  obtain ⟨c, hc⟩ := reStep_eq hr
  rw [hc, gov_setGov_same]
  refine ⟨fun h => ?_, fun h hn => ?_⟩
  · rw [stepped_lower _ h]
    exact ⟨rfl, rfl, rfl⟩
  · rw [stepped_higher _ h hn]
    exact ⟨rfl, rfl, rfl⟩

/-- A raise that waited acts after 20 µs. -/
theorem stepRaise_spec {n since : Nat} (hg : (s.gov l).raising = some (n, since)) :
    (since + 20000 ≤ s.ns → ∃ t, exec (.stepRaise l) s = .next t ∧ (t.gov l).step = n ∧ (t.gov l).raising = none ∧
      (t.gov l).volt = (s.gov l).volt) ∧
    (s.ns < since + 20000 → exec (.stepRaise l) s = .next s) := by
  have hx : exec (.stepRaise l) s = .next (if s.retired l || decide (s.ns < since + 20000) then s
      else ((s.setGov l { s.gov l with step := n, raising := none }).trackCalm l).showDs) := by
    refine congrArg Host.Outcome.next ?_
    simp only [hg]
  rw [hx]
  refine ⟨fun h => ⟨_, congrArg Host.Outcome.next (if_neg (by simp [hr, Nat.not_lt.mpr h])), ?_⟩,
    fun h => congrArg Host.Outcome.next (if_pos (by simp [h]))⟩
  obtain ⟨c, hc⟩ := trackCalm_eq (s.setGov l { s.gov l with step := n, raising := none }) l
  rw [gov_showDs, hc, gov_setGov_same, gov_setGov_same]
  exact ⟨rfl, rfl, rfl⟩

end

/-- A value that a lane takes, and what its governor holds of it. -/
theorem govLimitReceive_spec {s : State} {l : Lane} (v : PaceValue) (hr : s.retired l = false)
    (hf : paceFromM v = false ∨ (s.lane l).fenceM = false) :
    ∃ t, exec (.govLimitReceive l v) s = .next t ∧ t.wires = eraseFirst (.pace l v) s.wires ∧ (t.gov l).step ≤ t.stepOf l ∧
      (t.gov l).limits = ((s.gov l).take v).limits ∧ (t.gov l).plan = ((s.gov l).take v).plan ∧
      (t.gov l).ceils = ((s.gov l).take v).ceils ∧ ∀ x, x ≠ l → t.gov x = s.gov x := by
  generalize hu : State.setGov { s with wires := eraseFirst (.pace l v) s.wires } l ((s.gov l).take v) = u
  have hru : u.retired l = false := by rw [← hu]; exact hr
  have hgu : u.gov l = (s.gov l).take v := by rw [← hu, gov_setGov_same]
  refine ⟨(u.reStep l).showDs, ?_, ?_⟩
  · rw [← hu]
    refine congrArg Host.Outcome.next (if_neg ?_)
    show ¬((s.retired l || (paceFromM v && (s.lane l).fenceM)) = true)
    rw [hr]
    obtain h | h := hf <;> simp [h]
  · obtain ⟨c, hc⟩ := reStep_eq hru
    have hp := samePace_stepped (u.gov l) (u.stepOf l) u.ns
    have hstep : (u.reStep l).showDs.stepOf l = u.stepOf l := by
      have hs : ∀ t : State, t.showDs.stepOf l = t.stepOf l := fun t => by
        rw [State.stepOf, gov_showDs, liveLanes_congr (retired_showDs t)]
        rfl
      rw [hs, hc, stepOf_setGov u l (g := { (u.gov l).stepped (u.stepOf l) u.ns with calmSince := c }) hp]
    obtain ⟨h₁, h₂, h₃⟩ := hp
    rw [hstep, wires_showDs, gov_showDs, hc, gov_setGov_same]
    refine ⟨by rw [← hu]; rfl, step_stepped_le .., by rw [← hgu]; exact h₁, by rw [← hgu]; exact h₂, by rw [← hgu]; exact h₃,
      fun x hx => ?_⟩
    rw [gov_showDs, gov_setGov, if_neg hx, ← hu, gov_setGov, if_neg hx]
    rfl

end Sys2Proof.Machine
end

-- ==== Proofs: ceilings and the planner of Dripstone ====
section
/-! Ceilings, plans and the records of ageing (R415, R416, R418 to R421). -/

namespace Sys2Proof.Machine

/-! ### Values relayed to the lanes (R415) -/

theorem relay_eq (s : State) (v : PaceValue) :
    s.relay v = State.showDs { s with wires := s.wires ++ s.liveLanes.map fun l => .pace l v } := by
  rw [State.relay, send_pace]

theorem relay_frame (s : State) (v : PaceValue) :
    ∃ rg, s.relay v = { s with regs := rg, wires := s.wires ++ s.liveLanes.map fun l => .pace l v } := by
  obtain ⟨rg, h⟩ := showDs_frame { s with wires := s.wires ++ s.liveLanes.map fun l => .pace l v }
  exact ⟨rg, by rw [relay_eq, h]⟩

theorem reg_relay_other (s : State) (v : PaceValue) {u : RUnit} {off : Nat} (h : u ≠ .m ∨ showsDs off = false) :
    (s.relay v).reg u off = s.reg u off := by
  rw [relay_eq, reg_showDs_other _ h]
  rfl

theorem fld_dsStat_relay (s : State) (v : PaceValue) : (s.relay v).fld .m Reg.dsStat 15 8 = s.fld .m Reg.dsStat 15 8 := by
  rw [relay_eq, fld_dsStat_showDs]
  rfl

theorem liveLanes_setM (s : State) (off : Nat) (w : Word) : (s.setReg .m off w).liveLanes = s.liveLanes :=
  liveLanes_congr fun x => retired_congr (fun y => reg_setReg_other _ _ (.inl (by cases y <;> decide))) x

theorem showsDs_ceil (k : Strand) : showsDs (Reg.dsCeil k.idx) = false := by cases k <;> decide

theorem showsDs_plan (l : Lane) : showsDs (Reg.dsPlan l.idx) = false := by cases l <;> decide

theorem setCeil_frame (s : State) (k : Strand) (n : Nat) (b : Bool) :
    ∃ rg, s.setCeil k n b = { s with regs := rg, wires := s.wires ++ s.liveLanes.map fun l => .pace l (.ceiling k n) } := by
  obtain ⟨rg, h⟩ := relay_frame (s.setReg .m (Reg.dsCeil k.idx) (withBit (BitVec.ofNat 32 n) 8 b)) (.ceiling k n)
  rw [liveLanes_setM] at h
  exact ⟨rg, h⟩

theorem reg_setCeil (s : State) (k : Strand) (n : Nat) (b : Bool) :
    (s.setCeil k n b).reg .m (Reg.dsCeil k.idx) = withBit (BitVec.ofNat 32 n) 8 b := by
  rw [State.setCeil, reg_relay_other _ _ (.inr (showsDs_ceil k)), reg_setReg_same]

theorem fld_dsStat_setCeil (s : State) (k : Strand) (n : Nat) (b : Bool) :
    (s.setCeil k n b).fld .m Reg.dsStat 15 8 = s.fld .m Reg.dsStat 15 8 := by
  rw [State.setCeil, fld_dsStat_relay, State.fld, reg_setReg_other _ _ (.inr (by cases k <;> decide))]
  rfl

/-- The word of a ceiling: its value and CLAMPED. -/
theorem ceilWord {n : Nat} (h : n ≤ 8) (b : Bool) :
    fieldOf (withBit (BitVec.ofNat 32 n) 8 b) 7 0 = n ∧ bitOf (withBit (BitVec.ofNat 32 n) 8 b) 8 = b := by
  interval_cases n <;> cases b <;> decide

theorem setCeil_spec (s : State) (k : Strand) {n : Nat} (b : Bool) (h : n ≤ 8) :
    (s.setCeil k n b).fld .m (Reg.dsCeil k.idx) 7 0 = n ∧ (s.setCeil k n b).flag .m (Reg.dsCeil k.idx) 8 = b ∧
    (s.setCeil k n b).governors = s.governors ∧
    (s.setCeil k n b).wires = s.wires ++ s.liveLanes.map fun l => .pace l (.ceiling k n) := by
  obtain ⟨hval, hclamp⟩ := ceilWord h b
  obtain ⟨rg, hf⟩ := setCeil_frame s k n b
  refine ⟨by rw [State.fld, reg_setCeil, hval], by rw [State.flag, reg_setCeil, hclamp], ?_, ?_⟩ <;> rw [hf]

theorem setPlan_frame (s : State) (l : Lane) (n : Nat) :
    ∃ rg, s.setPlan l n = { s with regs := rg, wires := s.wires ++ s.liveLanes.map fun x => .pace x (.plan l n) } := by
  obtain ⟨rg, h⟩ := relay_frame (s.setReg .m (Reg.dsPlan l.idx) (BitVec.ofNat 32 n)) (.plan l n)
  rw [liveLanes_setM] at h
  exact ⟨rg, h⟩

theorem reg_setPlan (s : State) (l x : Lane) (n : Nat) : (s.setPlan l n).reg .m (Reg.dsPlan x.idx) =
    if x = l then BitVec.ofNat 32 n else s.reg .m (Reg.dsPlan x.idx) := by
  rw [State.setPlan, reg_relay_other _ _ (.inr (showsDs_plan x))]
  split
  case isTrue h => rw [h, reg_setReg_same]
  case isFalse h => rw [reg_setReg_other _ _ (.inr (by cases x <;> cases l <;> first | exact absurd rfl h | decide))]

theorem liveLanes_setPlan (s : State) (l : Lane) (n : Nat) : (s.setPlan l n).liveLanes = s.liveLanes := by
  rw [State.setPlan, relay_eq, liveLanes_congr (retired_showDs _)]
  exact liveLanes_setM s _ _

theorem setPlan_spec (s : State) (l : Lane) (n : Nat) : (s.setPlan l n).reg .m (Reg.dsPlan l.idx) = BitVec.ofNat 32 n ∧
    (s.setPlan l n).governors = s.governors ∧
    (s.setPlan l n).wires = s.wires ++ s.liveLanes.map fun x => .pace x (.plan l n) := by
  obtain ⟨rg, hf⟩ := setPlan_frame s l n
  refine ⟨by rw [reg_setPlan, if_pos rfl], ?_, ?_⟩ <;> rw [hf]

/-! ### Ceilings (R418) -/

theorem foldl_minNat_le (xs : List Nat) (d : Nat) : xs.foldl min d ≤ d := by
  induction xs generalizing d with
  | nil => exact Nat.le_refl d
  | cons x xs ih => exact (ih (min d x)).trans (Nat.min_le_left ..)

theorem lowestLimit_le (s : State) : s.lowestLimit ≤ 8 := foldl_minNat_le _ 8

theorem entryStrand {o : Option LogEntry} {c : LogCode} {src : Nat} {k : Option Strand} {arg : List Nat}
    (h : (o.map fun e => (e.code, e.src, e.strand, e.arg)) = some (c, src, k, arg)) :
    (o.map fun e => (e.code, e.strand, e.arg)) = some (c, k, arg) := by
  cases o with
  | none => cases h
  | some e =>
    injection h with h
    simp only [Prod.mk.injEq] at h
    obtain ⟨hc, -, hk, ha⟩ := h
    simp [hc, hk, ha]

section
variable {s : State} {k : Strand} {v : Word} (hm : s.mOn = true) (hf : s.flag .m Reg.vtFence 0 = false) (hv : v &&& 0xFFFFFEF0 = 0)
  (hb : bitOf v 8 = s.flag .m (Reg.dsCeil k.idx) 8)
include hm hf hv hb

/-- A strand's own write, which changes no bit that only a read shows. -/
theorem exec_dsCeilWrite_own : exec (.dsCeilWrite k (.strand k) v) s = .next (s.ceilTake k (ceilOf v)) := by
  have hat : ∀ t : State, s.atM (.strand k) t = t := fun t => exec_atM hm (by simp [State.strandFenced, masterStrand, Die.unit, hf])
  refine congrArg Host.Outcome.next ((hat _).trans ((if_neg (fun h => h rfl)).trans ((if_neg (by rw [hv]; decide)).trans ?_)))
  rw [if_neg (by simp [hb])]

theorem ceilWrite_taken (hlim : ceilOf v ≤ s.lowestLimit) :
    exec (.dsCeilWrite k (.strand k) v) s = .next (s.setCeil k (ceilOf v) false) :=
  (exec_dsCeilWrite_own hm hf hv hb).trans (congrArg Host.Outcome.next (if_neg (Nat.not_lt.mpr hlim)))

/-- A ceiling above the lowest limit is clamped to it, shown, told to the strand, logged and counted. -/
theorem ceilWrite_clamped (hlim : s.lowestLimit < ceilOf v) : ∃ t, exec (.dsCeilWrite k (.strand k) v) s = .next t ∧
    t.fld .m (Reg.dsCeil k.idx) 7 0 = s.lowestLimit ∧ t.flag .m (Reg.dsCeil k.idx) 8 = true ∧
    t.fld .m Reg.dsStat 15 8 = satAdd 8 (s.fld .m Reg.dsStat 15 8) 1 ∧
    (∀ l ∈ s.linked .m, ∃ o, Wire.occurrence l .m k o ∈ t.vcQueue l .m true .posted ∧ o.vec = 216) ∧
    (s.floodCount 6 < 64 → (t.log.entries.head?.map fun e => (e.code, e.strand, e.arg)) =
      some (.policyClamped, some k, [ceilOf v, s.lowestLimit])) := by
  refine ⟨_, (exec_dsCeilWrite_own hm hf hv hb).trans (congrArg Host.Outcome.next (if_pos hlim)), ?_⟩
  obtain ⟨hval, hclamp, -, -⟩ := setCeil_spec s k true (lowestLimit_le s)
  obtain ⟨rg, hframe⟩ := setCeil_frame s k s.lowestLimit true
  have hstat := fld_dsStat_setCeil s k s.lowestLimit true
  generalize s.setCeil k s.lowestLimit true = c at hval hclamp hframe hstat ⊢
  have hlinked : c.linked .m = s.linked .m := by rw [hframe]; rfl
  have hcan : c.canRaise .m 216 := by
    refine ⟨by rw [hframe]; exact hm, ?_, rfl⟩
    simp [State.vectorFitted]
  have hflood : (c.raise .m k 216).floodCount 6 = s.floodCount 6 := by
    obtain ⟨_, _, _, h⟩ := raise_frame c .m k 216
    rw [h, hframe]
    rfl
  have hrun : (c.raise .m k 216).mOn = true := by
    show ((c.raise .m k 216).consumer .m).running = true
    rw [running_raise, hframe]
    exact hm
  have hreg : ∀ off, ((c.raise .m k 216).logEv 6 (some k) .policyClamped [ceilOf v, s.lowestLimit]).reg .m off = c.reg .m off :=
    fun off => by rw [reg_logEv, reg_raise]
  refine ⟨?_, ?_, ?_, fun l hl => ?_, fun h => ?_⟩
  · rw [State.fld, reg_bump_other _ _ _ (.inr (by cases k <;> decide)), hreg]
    exact hval
  · rw [State.flag, reg_bump_other _ _ _ (.inr (by cases k <;> decide)), hreg]
    exact hclamp
  · rw [fld_bump _ _ _ _ _ (by decide), State.fld, hreg, ← hstat]
    rfl
  · obtain ⟨o, ho, hvec⟩ := exists_occurrence_raise (k := k) hcan (hlinked ▸ hl)
    refine ⟨o, ?_, hvec⟩
    rw [← vcQueue_logEv (c.raise .m k 216) l .m true .posted 6 (some k) .policyClamped [ceilOf v, s.lowestLimit]] at ho
    exact ho
  · exact entryStrand (logEv_entry hrun (by rw [hflood]; exact h) ..)

end

/-! ### The planner (R419) -/

/-- The highest of the first steps that a test accepts. -/
theorem foldl_highest (P : Nat → Bool) (n : Nat) : let r := (List.range n).foldl (fun m i => if P i then i else m) 0
    (∀ i, i < n → P i = true → i ≤ r) ∧ (r = 0 ∨ r < n ∧ P r = true) := by
  induction n with
  | zero => exact ⟨fun i h => absurd h (Nat.not_lt_zero i), .inl rfl⟩
  | succ n ih =>
    obtain ⟨hle, hr⟩ := ih
    dsimp only at hle hr ⊢
    rw [List.range_succ, List.foldl_append, List.foldl_cons, List.foldl_nil]
    split
    case isTrue hP => exact ⟨fun i hi _ => Nat.le_of_lt_succ hi, .inr ⟨Nat.lt_succ_self n, hP⟩⟩
    case isFalse hP =>
      refine ⟨fun i hi hPi => hle i ?_ hPi, hr.imp_right fun h => ⟨Nat.lt_succ_of_lt h.1, h.2⟩⟩
      exact Nat.lt_of_le_of_ne (Nat.le_of_lt_succ hi) fun h => hP (h ▸ hPi)

theorem highestStep_spec (xs : List Nat) : let r := highestStep xs fun v => decide (v ≤ 930)
    (∀ i, i ≤ 8 → (∃ v, xs[i]? = some v ∧ v ≤ 930) → i ≤ r) ∧ r ≤ 8 ∧ (r = 0 ∨ ∃ v, xs[r]? = some v ∧ v ≤ 930) := by
  have hany : ∀ i : Nat, (xs[i]?).any (fun v => decide (v ≤ 930)) = true ↔ ∃ v, xs[i]? = some v ∧ v ≤ 930 := fun i => by
    simp [Option.any_eq_true]
  obtain ⟨hle, hr⟩ := foldl_highest (fun i => (xs[i]?).any fun v => decide (v ≤ 930)) 9
  refine ⟨fun i hi h => hle i (Nat.lt_succ_of_le hi) ((hany i).mpr h), ?_, hr.imp_right fun h => (hany _).mp h.2⟩
  obtain h | ⟨h, -⟩ := hr
  · exact (congrArg (· ≤ 8) h).mpr (Nat.zero_le 8)
  · exact Nat.le_of_lt_succ h

theorem replan_spec (s : State) (f : Lane → Nat) :
    (∀ l, (Lane.list.foldl (fun t l => State.setPlan t l (f l)) s).reg .m (Reg.dsPlan l.idx) = BitVec.ofNat 32 (f l)) ∧
    (Lane.list.foldl (fun t l => State.setPlan t l (f l)) s).wires =
      s.wires ++ Lane.list.flatMap fun l => s.liveLanes.map fun x => .pace x (.plan l (f l)) := by
  have hw : ∀ (t : State) (l : Lane), (t.setPlan l (f l)).wires = t.wires ++ t.liveLanes.map fun x => .pace x (.plan l (f l)) :=
    fun t l => (setPlan_spec t l (f l)).2.2
  simp only [Lane.list, List.foldl_cons, List.foldl_nil, List.flatMap_cons, List.flatMap_nil, hw, liveLanes_setPlan, List.append_nil,
    List.append_assoc, and_true]
  intro l
  cases l <;> simp [reg_setPlan]

/-! ### Ageing (R420) -/

/-- A percentage is at its upper bound when the latest record is no worse than the first, and at 0 when nothing is left. -/
theorem marginOf_bounds (u first last : Nat) : marginOf u first last true = some 0 ∧
    (u < 3 → first < 950 → last ≤ first → marginOf u first last false = some 100) ∧
    (u < 3 → first < 950 → 950 ≤ last → marginOf u first last false = some 0) := by
  have hm : u < 3 → first < 950 → marginOf u first last false =
      some (clampInt 0 100 ((100 * (950 - (last : Int))) / (950 - first))).toNat := fun hu hf => by
    rw [marginOf, if_neg Bool.false_ne_true, if_pos hu, percentOf, if_neg (by omega), Int.fdiv_eq_ediv_of_nonneg _ (by omega)]
  refine ⟨rfl, fun hu hf hl => ?_, fun hu hf hl => ?_⟩
  · rw [hm hu hf]
    have h : 100 ≤ (100 * (950 - (last : Int))) / (950 - first) := Int.le_ediv_of_mul_le (by omega) (by omega)
    rw [clampInt, min_eq_left h]
    rfl
  · rw [hm hu hf]
    have h : (100 * (950 - (last : Int))) / (950 - first) < 1 := Int.ediv_lt_of_lt_mul (by omega) (by omega)
    rw [clampInt, max_eq_left (le_trans (min_le_right ..) (Int.le_of_lt_add_one h))]
    rfl

theorem age_setAge_same {s : State} {u : Nat} (h : u < s.ages.length) (x : AgeRec) : (s.setAge u x).age u = x := by
  simp [State.age, State.setAge, h]

theorem age_of_ages {s t : State} (h : t.ages = s.ages) (u : Nat) : t.age u = s.age u := by
  rw [State.age, h]
  rfl

theorem age_setAge_other (s : State) {u j : Nat} (h : j ≠ u) (x : AgeRec) : (s.setAge u x).age j = s.age j := by
  simp [State.age, State.setAge, List.getElem?_set_ne (Ne.symm h)]

/-- A unit's sample of the day was taken, and nothing else happened but that free values were used. -/
def Sampled (u : Nat) (s t : State) : Prop :=
  ∃ fr x, x.day.isSome = true ∧ t = State.setAge { s with free := fr } u x

theorem sampled_lane (s : State) (l : Lane) (r : GovReading) : Sampled l.idx s (s.sampleLane l r) := by
  simp only [State.sampleLane]
  split <;> exact ⟨_, _, rfl, rfl⟩

theorem sampled_port (s : State) (p : PDie) (r : GovReading) : Sampled (3 + p.idx) s (s.samplePort p r) := by
  simp only [State.samplePort]
  split <;> exact ⟨_, _, rfl, rfl⟩

/-- Samples of some units, one after the other. -/
theorem sampled_foldl {α : Type} {f : State → α → State} {key : α → Nat} (h : ∀ t x, Sampled (key x) t (f t x)) (xs : List α) (s : State) :
    (∀ u, u < s.ages.length → (s.age u).day.isSome = true ∨ u ∈ xs.map key → ((xs.foldl f s).age u).day.isSome = true) ∧
    (xs.foldl f s).ages.length = s.ages.length ∧ (xs.foldl f s).regs = s.regs ∧ (xs.foldl f s).lanes = s.lanes := by
  induction xs generalizing s with
  | nil => exact ⟨fun u _ h => h.elim id fun h => absurd h List.not_mem_nil, rfl, rfl, rfl⟩
  | cons x xs ih =>
    obtain ⟨fr, y, hy, ht⟩ := h s x
    obtain ⟨hdays, hlen, hregs, hlanes⟩ := ih (f s x)
    have hlen' : (f s x).ages.length = s.ages.length := by rw [ht]; exact List.length_set
    refine ⟨fun u hu hor => hdays u (hlen'.symm ▸ hu) ?_, hlen.trans hlen', by rw [List.foldl_cons, hregs, ht]; rfl,
      by rw [List.foldl_cons, hlanes, ht]; rfl⟩
    by_cases hk : u = key x
    · left
      rw [hk] at hu ⊢
      rw [ht, age_setAge_same (s := { s with free := fr }) hu]
      exact hy
    · rw [List.map_cons, List.mem_cons] at hor
      refine hor.imp (fun h => ?_) fun h => h.resolve_left hk
      rw [ht, age_setAge_other _ hk]
      exact h

theorem plannerSample_spec {s : State} (hm : s.mOn = true) (lanes : Tri GovReading) (ports : Duo GovReading) :
    ∃ t, exec (.plannerSample lanes ports) s = .next t ∧
      (5 ≤ s.ages.length → (∀ l, s.retired l = false → (t.age l.idx).day.isSome = true) ∧
        ∀ p : PDie, (t.age (3 + p.idx)).day.isSome = true) ∧ t.regs = s.regs ∧ t.lanes = s.lanes := by
  obtain ⟨hdays, hlen, hregs, hlanes⟩ := sampled_foldl (key := Lane.idx) (fun t l => sampled_lane t l (lanes.get l)) s.liveLanes s
  generalize hu : s.liveLanes.foldl (fun t l => t.sampleLane l (lanes.get l)) s = u at hdays hlen hregs hlanes
  obtain ⟨hdays', -, hregs', hlanes'⟩ := sampled_foldl (key := fun p : PDie => 3 + p.idx) (fun t p => sampled_port t p (ports.get p))
    PDie.list u
  refine ⟨_, congrArg Host.Outcome.next (if_pos hm), ?_⟩
  rw [hu]
  refine ⟨fun h5 => ⟨fun l hl => ?_, fun p => ?_⟩, hregs'.trans hregs, hlanes'.trans hlanes⟩
  · have hi : l.idx < s.ages.length := by cases l <;> simp [Lane.idx] <;> omega
    refine hdays' l.idx (hlen.symm ▸ hi) (.inl (hdays l.idx hi (.inr (List.mem_map_of_mem ?_))))
    exact List.mem_filter.mpr ⟨by cases l <;> decide, by simp [hl]⟩
  · have hi : 3 + p.idx < u.ages.length := by rw [hlen]; cases p <;> simp [PDie.idx] <;> omega
    exact hdays' _ hi (.inr (List.mem_map_of_mem (by cases p <;> decide)))

/-- A unit's record and its margin register take new values. -/
def State.dayClosed (s : State) (fr u : Nat) (x : AgeRec) (w : Word) : State :=
  (State.setAge { s with free := fr } u x).setReg .m (Reg.dsMargin u) w

theorem told_or (c : Prop) [Decidable c] (t : State) (arg : List Nat) :
    (if c then t else (t.raiseAll .m 215).logEv 6 none .dsWarn arg) = t ∨
      (if c then t else (t.raiseAll .m 215).logEv 6 none .dsWarn arg) = (t.raiseAll .m 215).logEv 6 none .dsWarn arg := by
  split
  · exact .inl rfl
  · exact .inr rfl

/-- The close of a day is a new record, a new margin and, where the level changed, what tells of it. -/
theorem closeDay_eq {s : State} {u v : Nat} (hd : (s.age u).day = some v) : ∃ fr mars w arg,
    (s.closeDay u = s.dayClosed fr u ⟨none, false, (s.age u).records ++ [v], mars⟩ w ∨
      s.closeDay u = ((s.dayClosed fr u ⟨none, false, (s.age u).records ++ [v], mars⟩ w).raiseAll .m 215).logEv 6 none .dsWarn arg) ∧
    ∀ mg, marginOf u ((s.age u).records.headD v) v (s.age u).spent = some mg → mg ≤ 100 → fieldOf w 6 0 = mg := by
  have hhead : ((s.age u).records ++ [v]).headD v = (s.age u).records.headD v := by cases (s.age u).records <;> rfl
  have hfield : ∀ (x : Word) (n : Nat), n ≤ 100 → fieldOf (withField x 6 0 n) 6 0 = n := fun x n hn => by
    rw [fieldOf_withField _ _ _ _ (by decide)]
    exact Nat.mod_eq_of_lt (by omega)
  simp only [State.closeDay, hd, hhead]
  cases hmar : marginOf u ((s.age u).records.headD v) v (s.age u).spent with
  | some pct =>
    refine ⟨s.free, _, _, _, told_or _ (s.dayClosed s.free u _ _) _, fun mg hmg hle => ?_⟩
    injection hmg with hmg
    subst hmg
    exact hfield _ _ hle
  | none => exact ⟨s.free + 1, _, _, _, told_or _ (s.dayClosed (s.free + 1) u _ _) _, fun mg hmg => nomatch hmg⟩

theorem ages_told (t : State) (arg : List Nat) : ((t.raiseAll .m 215).logEv 6 none .dsWarn arg).ages = t.ages := by
  obtain ⟨_, _, _, hr⟩ := raiseAll_frame t .m 215
  obtain ⟨_, hl⟩ := logEv_frame (t.raiseAll .m 215) 6 none .dsWarn arg
  rw [hl, hr]

/-- The close of a day, as its ages and its registers show it. -/
theorem closeDay_frame {s : State} {u v : Nat} (hd : (s.age u).day = some v) : ∃ fr mars w,
    (∀ j, (s.closeDay u).age j = (s.dayClosed fr u ⟨none, false, (s.age u).records ++ [v], mars⟩ w).age j) ∧
    (s.closeDay u).ages.length = s.ages.length ∧
    (∀ off, (s.closeDay u).reg .m off = (s.dayClosed fr u ⟨none, false, (s.age u).records ++ [v], mars⟩ w).reg .m off) ∧
    ∀ mg, marginOf u ((s.age u).records.headD v) v (s.age u).spent = some mg → mg ≤ 100 → fieldOf w 6 0 = mg := by
  obtain ⟨fr, mars, w, arg, h, hmg⟩ := closeDay_eq hd
  have hlen : (s.dayClosed fr u ⟨none, false, (s.age u).records ++ [v], mars⟩ w).ages.length = s.ages.length := List.length_set
  refine ⟨fr, mars, w, ?_, ?_, ?_, hmg⟩
  · obtain h | h := h
    · exact fun j => by rw [h]
    · exact fun j => by rw [h]; exact age_of_ages (ages_told ..) j
  · obtain h | h := h
    · rw [h, hlen]
    · rw [h, ages_told, hlen]
  · obtain h | h := h
    · exact fun off => by rw [h]
    · exact fun off => by rw [h, reg_logEv, reg_raiseAll]

/-- What the close of a unit's day leaves: its records, and its margin where one is defined. -/
theorem closeDay_spec {s : State} {u v : Nat} (hu : u < s.ages.length) (hd : (s.age u).day = some v) :
    ((s.closeDay u).age u).day = none ∧ ((s.closeDay u).age u).records = (s.age u).records ++ [v] ∧
    ∀ mg, marginOf u ((s.age u).records.headD v) v (s.age u).spent = some mg → mg ≤ 100 →
      (s.closeDay u).fld .m (Reg.dsMargin u) 6 0 = mg := by
  obtain ⟨fr, mars, w, hage, -, hreg, hmg⟩ := closeDay_frame hd
  have hsame : (s.dayClosed fr u ⟨none, false, (s.age u).records ++ [v], mars⟩ w).age u =
      ⟨none, false, (s.age u).records ++ [v], mars⟩ := age_setAge_same (s := { s with free := fr }) hu _
  rw [hage, hsame]
  refine ⟨rfl, rfl, fun mg h hle => ?_⟩
  rw [State.fld, hreg, State.dayClosed, reg_setReg_same, hmg mg h hle]

/-- The close of a unit's day leaves the other units. -/
theorem closeDay_other (s : State) {u j : Nat} (h : j ≠ u) : (s.closeDay u).age j = s.age j ∧
    (s.closeDay u).reg .m (Reg.dsMargin j) = s.reg .m (Reg.dsMargin j) := by
  cases hd : (s.age u).day with
  | none => simp only [State.closeDay, hd, and_self]
  | some v =>
    obtain ⟨fr, mars, w, hage, -, hreg, -⟩ := closeDay_frame hd
    refine ⟨(hage j).trans (age_setAge_other _ h _), (hreg _).trans ?_⟩
    exact reg_setReg_other _ _ (.inr (by unfold Reg.dsMargin; omega))

theorem length_closeDay (s : State) (u : Nat) : (s.closeDay u).ages.length = s.ages.length := by
  cases hd : (s.age u).day with
  | none => simp only [State.closeDay, hd]
  | some v =>
    obtain ⟨_, _, _, -, hlen, -⟩ := closeDay_frame hd
    exact hlen

/-- The days of other units close around a unit's own. -/
theorem closeDays_other {us : List Nat} {u : Nat} (h : u ∉ us) (s : State) :
    (us.foldl (fun t u => t.closeDay u) s).age u = s.age u ∧
    (us.foldl (fun t u => t.closeDay u) s).reg .m (Reg.dsMargin u) = s.reg .m (Reg.dsMargin u) ∧
    (us.foldl (fun t u => t.closeDay u) s).ages.length = s.ages.length := by
  induction us generalizing s with
  | nil => exact ⟨rfl, rfl, rfl⟩
  | cons x us ih =>
    obtain ⟨hx, hus⟩ : u ≠ x ∧ u ∉ us := by simpa using h
    obtain ⟨hage, hreg, hlen⟩ := ih hus (s.closeDay x)
    obtain ⟨hage', hreg'⟩ := closeDay_other s hx
    exact ⟨hage.trans hage', hreg.trans hreg', hlen.trans (length_closeDay s x)⟩

theorem closeDays_spec {us : List Nat} {u v : Nat} (hn : us.Nodup) (hu : u ∈ us) {s : State} (hl : u < s.ages.length)
    (hd : (s.age u).day = some v) : let t := us.foldl (fun t u => State.closeDay t u) s
    (t.age u).day = none ∧ (t.age u).records = (s.age u).records ++ [v] ∧
    ∀ mg, marginOf u ((s.age u).records.headD v) v (s.age u).spent = some mg → mg ≤ 100 → t.fld .m (Reg.dsMargin u) 6 0 = mg := by
  obtain ⟨before, after, rfl⟩ := List.append_of_mem hu
  rw [List.nodup_middle, List.nodup_cons, List.mem_append, not_or] at hn
  obtain ⟨⟨hb, ha⟩, -⟩ := hn
  dsimp only
  rw [List.foldl_append, List.foldl_cons]
  generalize hx : before.foldl (fun t u => State.closeDay t u) s = x
  obtain ⟨hage, -, hlen⟩ := closeDays_other hb s
  rw [hx] at hage hlen
  obtain ⟨hday, hrec, hmg⟩ := closeDay_spec (hlen ▸ hl : u < x.ages.length) (hage ▸ hd)
  obtain ⟨hage', hreg', -⟩ := closeDays_other ha (x.closeDay u)
  rw [hage', State.fld, hreg', ← hage]
  exact ⟨hday, hrec, hmg⟩

theorem nodup_agingUnits (s : State) : s.agingUnits.Nodup := by
  have h : s.agingUnits = (Lane.list.filter fun l => !s.retired l).map Lane.idx ++ [3, 4] := rfl
  rw [h]
  simp only [Lane.list, List.filter]
  cases s.retired .a <;> cases s.retired .b <;> cases s.retired .c <;> decide

theorem marginDailyRecord_spec {s : State} (hm : s.mOn = true) : ∃ t, exec .marginDailyRecord s = .next t ∧ (5 ≤ s.ages.length →
    (∀ l, s.retired l = false → ∀ v, (s.age l.idx).day = some v → (t.age l.idx).day = none ∧
      (t.age l.idx).records = (s.age l.idx).records ++ [v] ∧
      ∀ mg, marginOf l.idx ((s.age l.idx).records.headD v) v (s.age l.idx).spent = some mg → mg ≤ 100 →
        t.fld .m (Reg.dsMargin l.idx) 6 0 = mg) ∧
    ∀ p : PDie, ∀ v, (s.age (3 + p.idx)).day = some v → (t.age (3 + p.idx)).records = (s.age (3 + p.idx)).records ++ [v]) := by
  refine ⟨_, congrArg Host.Outcome.next (if_pos hm), fun h5 => ⟨fun l hl v hd => ?_, fun p v hd => ?_⟩⟩
  · have hi : l.idx < s.ages.length := by cases l <;> simp [Lane.idx] <;> omega
    refine closeDays_spec (nodup_agingUnits s) (List.mem_append_left _ (List.mem_map_of_mem ?_)) hi hd
    exact List.mem_filter.mpr ⟨by cases l <;> decide, by simp [hl]⟩
  · have hi : 3 + p.idx < s.ages.length := by cases p <;> simp [PDie.idx] <;> omega
    obtain ⟨-, hrec, -⟩ := closeDays_spec (nodup_agingUnits s) (List.mem_append_right _ (by cases p <;> decide)) hi hd
    exact hrec

/-! ### All of Dripstone -/

theorem limitReceived_spec {s : State} {l : Lane} (v : PaceValue) (hr : s.retired l = false)
    (hf : paceFromM v = false ∨ (s.lane l).fenceM = false) :
    ∃ t, exec (.govLimitReceive l v) s = .next t ∧ t.wires = eraseFirst (.pace l v) s.wires ∧ (t.gov l).step ≤ t.stepOf l ∧
      (∀ x n, v = .limit x n → (t.gov l).limits = (s.gov l).limits.set x (min 8 n) ∧ (t.gov l).plan = (s.gov l).plan ∧
        (t.gov l).ceils = (s.gov l).ceils) ∧
      (∀ x n, v = .plan x n → (t.gov l).plan = (s.gov l).plan.set x (min 8 n) ∧ (t.gov l).limits = (s.gov l).limits ∧
        (t.gov l).ceils = (s.gov l).ceils) ∧
      (∀ k n, v = .ceiling k n → (t.gov l).ceils = (s.gov l).ceils.set k (min 8 n) ∧ (t.gov l).limits = (s.gov l).limits ∧
        (t.gov l).plan = (s.gov l).plan) ∧
      ∀ x, x ≠ l → t.gov x = s.gov x := by
  obtain ⟨t, ht, hw, hstep, hlim, hplan, hceil, hother⟩ := govLimitReceive_spec v hr hf
  refine ⟨t, ht, hw, hstep, ?_, ?_, ?_, hother⟩ <;>
    · rintro x n rfl
      exact ⟨by assumption, by assumption, by assumption⟩

/-- Settles O57: a governor's step follows the values it holds whatever else it does, and M's values go out as they are written. -/
theorem governorsAndCeilingsOfDripstone : Obligations.GovernorsAndCeilingsOfDripstone := by
  refine ⟨fun l s => ⟨fun r h => ?_, slackOf_spec, governorReading_spec, fun x hr hc hl => govLimitRaise_spec hr hc hl, fun h => ?_,
    limitReceived_spec, fun v h => ?_, fun h => ?_, fun n since hg hr => stepRaise_spec hr hg, reStep_spec⟩,
    fun s hm => ⟨fun k w v hf => ?_, fun k w v hw hf => ?_, fun k v hf hv hb => ceilWrite_taken hm hf hv hb,
    fun k v hf hv hb => ceilWrite_clamped hm hf hv hb, fun k n b => setCeil_spec s k b, fun l v hv => ?_,
    fun l n _ => setPlan_spec s l n, fun l v hv => ?_, fun mv => ⟨fun l i => (highestStep_spec (mv.get l)).1 i,
    fun l => (highestStep_spec (mv.get l)).2, _, congrArg Host.Outcome.next (if_pos hm), replan_spec s _⟩, marginOf_bounds,
    plannerSample_spec hm, marginDailyRecord_spec hm⟩⟩
  · refine congrArg Host.Outcome.next (if_pos ?_)
    obtain h | h := h <;> simp [h]
  · refine congrArg Host.Outcome.next (if_neg ?_)
    obtain h | h | h := h
    · simp [h]
    · simp [h]
    · rw [decide_eq_false (Nat.not_lt.mpr h), Bool.and_false]
      exact Bool.false_ne_true
  · refine congrArg Host.Outcome.next (if_pos ?_)
    show (s.retired l || (paceFromM v && (s.lane l).fenceM)) = true
    obtain h | ⟨h, h'⟩ := h
    · simp [h]
    · simp [h, h']
  · refine congrArg Host.Outcome.next ?_
    simp only [h]
  · refine congrArg Host.Outcome.next ?_
    rw [State.atM, hf, hm]
    rfl
  · refine congrArg Host.Outcome.next ?_
    rw [State.atM, hf, hm]
    exact if_pos hw
  · exact congrArg Host.Outcome.next ((if_pos hm).trans (if_neg (by rw [hv]; decide)))
  · exact congrArg Host.Outcome.next ((if_pos hm).trans (if_pos (by simpa using hv)))

end Sys2Proof.Machine
end

-- ==== Proofs: captures ====
section
/-! The time that a capture keeps of a contact's edge (R265, R437). -/

namespace Sys2Proof.Machine

/-- After reset, with capture unit 0 of P1 enabled for rising edges of source 32, a capture contact. -/
def contactSelected : State :=
  let s := (State.reset.setFlag .p1 (Reg.tbCapCtl 0) 31 true).setFld .p1 (Reg.tbCapCtl 0) 5 0 32
  s.setConsumer .p1 { s.consumer .p1 with running := true }

/-- A rising edge of the contact at 1000 ns of network time. -/
def contactEdge : Edge := { src := 32, rising := true, time := 1000 }

/-- The time that a command leaves in the capture unit. -/
def capturedTime : Out → Dword
  | .next t => t.reg64 .p1 (Reg.tbCapLo 0)
  | _ => 0

/-- The input delay of 400 ns of a contact is removed. -/
theorem capturedTime_contact : capturedTime (exec (.captureEdge .p1 0 contactEdge) contactSelected) = 600 := by decide

/-- Refutes O58: the time kept of a capture contact's edge is 400 ns before it shows at the pin (R437); the clause keeps the pin's time
for every source. -/
theorem not_triggersCapturesAndTimestampsOfAPort : ¬ Obligations.TriggersCapturesAndTimestampsOfAPort := by
  intro h
  obtain ⟨-, -, -, -, -, hcap, -⟩ := h .mgmt .p1 contactSelected (by decide)
  obtain ⟨hfirst, -⟩ := hcap 0 contactEdge (by decide) (by decide) (by decide) (.inl (by decide)) (by decide) (.inr (by decide))
  obtain ⟨t, ht, htime, -⟩ := hfirst (by decide)
  have hsame : t.reg64 .p1 (Reg.tbCapLo 0) = 600 := (congrArg capturedTime ht).symm.trans capturedTime_contact
  exact absurd (htime.symm.trans hsame) (by decide)

end Sys2Proof.Machine
end

-- ==== Proofs: register commands at a lane ====
section
/-! A strand's register command beyond the pages of its lane (R86). -/

namespace Sys2Proof.Machine

/-- A write of eight bytes at the offset of LA where the window of P1 begins: 4 GiB past the pages. -/
def pastThePages : RegWrite := ⟨0x100000000, 8, 0⟩

/-- The ordinal of the next beat of strand 0's replica in LA at P1. -/
def nextBeatAtP1 (s : State) : Word := (s.replica .a .s0).ord.get .p1

/-- The store is a device write: it issues a beat. -/
theorem nextBeatAtP1_store : nextBeatAtP1 (State.reset.doStore .a .s0 (0x200000000 + pastThePages.off)
    (leBytes pastThePages.size pastThePages.data.toNat)) = 1 := by decide

/-- A store of the strand page issues none. -/
theorem nextBeatAtP1_page : nextBeatAtP1 (((State.reset.pageStore .a .s0 (pastThePages.off % 0x10000)
    (leBytes pastThePages.size pastThePages.data.toNat)).foldSig .a .s0 sigPage (0x200000000 + pastThePages.off)
      (leBytes pastThePages.size pastThePages.data.toNat)).retire .a .s0) = 0 := by decide

/-- Refutes O59: what a strand's rights allow at an offset past the pages is no page store; at the window of P1 it is a device write.
The clause asks only that the store is allowed, not that it lies in the strand's page. -/
theorem not_registersAreWrittenByTheirAccessCodes : ¬ Obligations.RegistersAreWrittenByTheirAccessCodes := by
  intro h
  obtain ⟨⟨-, -, hlane, -⟩, -⟩ := h
  obtain ⟨hstrand, -⟩ := hlane .a State.reset
  obtain ⟨-, -, hstore, -⟩ := hstrand .s0 pastThePages (by decide)
  have hsame := congrArg nextBeatAtP1 (hstore (by decide))
  rw [nextBeatAtP1_store, nextBeatAtP1_page] at hsame
  exact absurd hsame (by decide)

end Sys2Proof.Machine
end

-- ==== Proofs: the messages of the exchange and the crawlway's errors ====
section
/-! What a lane takes up from the exchange (R48 to R73) and what counts as a crawlway error (R30 to R32). -/

namespace Sys2Proof.Machine

/-! ### Messages of the exchange -/

/-- A message of the crawlway leaves the wires and nothing else. -/
theorem arrive_wires (s : State) {w : Wire} (h : Wire.route w = none) :
    s.arrive w = { s with wires := eraseFirst w s.wires } := by
  rw [State.arrive, h]

theorem retired_arrive (s : State) (w : Wire) (l : Lane) : (s.arrive w).retired l = s.retired l := by
  simp [State.retired, State.flag, State.reg]

theorem echo_arrive (s : State) (w : Wire) (l : Lane) (k : Strand) : (s.arrive w).echo l k = s.echo l k :=
  echo_of_lanes (State.arrive_lanes ..) l k

theorem vcQueue_arrive {s : State} {w : Wire} {l : Lane} {d : Die} {down : Bool} {c : VChannel}
    (h : Wire.route w = some (l, d, down, c)) :
    (s.arrive w).vcQueue l d down c = eraseFirst w (s.vcQueue l d down c) := by
  simp only [State.arrive, h]
  exact vcQueue_setVcQueue_same ..

theorem wires_arrive {s : State} {w : Wire} {r : Lane × Die × Bool × VChannel} (h : Wire.route w = some r) :
    (s.arrive w).wires = s.wires := by
  obtain ⟨l, d, down, c⟩ := r
  simp only [State.arrive, h, State.setVcQueue_wires, State.countLanded]
  split <;> rfl

theorem exec_publicationReceive (l x : Lane) (p : Publication) (s : State) :
    exec (.publicationReceive l x p) s = .next (
      if s.retired l = true ∨ s.retired x = true then s.arrive (.publication l x p)
      else if badPublication p = true then (s.arrive (.publication l x p)).crawlError l x
      else (s.arrive (.publication l x p)).acceptPub l p.strand p) := by
  show execPublicationReceive l x p s = _
  simp only [execPublicationReceive, retired_arrive, Bool.or_eq_true]

theorem exec_pairClaimReceive {l : Lane} {c : PairClaim} {s : State} (hl : s.retired l = false)
    (hc : s.retired c.sender = false) (hh : (s.echo l c.strand).halted = false)
    (hn : ((s.echo l c.strand).claims.any fun x => x.point == c.point && x.sender == c.sender) = false) :
    exec (.pairClaimReceive l c) s = .next (State.tryAgree agreeDepth ((s.arrive (.pairClaim l c)).setEcho l c.strand
      { s.echo l c.strand with claims := (s.echo l c.strand).claims ++ [c] }) l c.strand) := by
  show execPairClaimReceive l c s = _
  simp [execPairClaimReceive, retired_arrive, echo_arrive, hl, hc, hh, hn]

theorem exec_occurrenceLatch {l : Lane} {d : Die} {k : Strand} {o : Occ} {s : State}
    (ha : s.mayArrive (.occurrence l d k o) = true) (hr : s.retired l = false) :
    exec (.occurrenceLatch l d k o) s = .next ((s.arrive (.occurrence l d k o)).latch l k o) := by
  show execOccurrenceLatch l d k o s = _
  simp [execOccurrenceLatch, retired_arrive, ha, hr]

theorem occurrence_is_latched {l : Lane} {d : Die} {k : Strand} {o : Occ} {s : State}
    (ha : s.mayArrive (.occurrence l d k o) = true) (hr : s.retired l = false) :
    ∃ t, exec (.occurrenceLatch l d k o) s = .next t ∧
      (t.echo l k).latched = (s.echo l k).latched ++ [⟨o, none, false⟩] ∧
      t.vcQueue l d true .posted = eraseFirst (.occurrence l d k o) (s.vcQueue l d true .posted) ∧
      (∀ l' k', l' ≠ l ∨ k' ≠ k → t.echo l' k' = s.echo l' k') ∧ t.wires = s.wires ∧ t.regs = s.regs ∧
      t.base = s.base := by
  have hw : Wire.route (.occurrence l d k o) = some (l, d, true, .posted) := rfl
  refine ⟨_, exec_occurrenceLatch ha hr, ?_, ?_, ?_, ?_, ?_, ?_⟩
  · simp [State.latch, echo_setEcho, echo_arrive]
  · exact vcQueue_arrive hw
  · intro l' k' h
    have h' : ¬ (l' = l ∧ k' = k) := not_and_or.2 h
    simp only [State.latch, echo_setEcho, if_neg h', echo_arrive]
  · exact wires_arrive hw
  · exact State.arrive_regs ..
  · simp

/-- The lane after it took up a field triple (R65): of 33 triples the oldest goes. -/
def LaneState.holdTriple (x : LaneState) (tr : Triple) (now : Nat) : LaneState :=
  { x with triples := (x.triples ++ [tr]).drop ((x.triples ++ [tr]).length - 32), tripleAt := now, fstale := false }

theorem exec_fieldTripleReceive {l : Lane} {tr : Triple} {s : State} (hf : s.fFitted = true)
    (hj : (s.lane l).junction.f = true) :
    exec (.fieldTripleReceive l tr) s =
      .next ((s.arrive (.triple l tr)).setLane l ((s.lane l).holdTriple tr s.ns)) := by
  have ha : s.arrive (.triple l tr) = { s with wires := eraseFirst (.triple l tr) s.wires } := arrive_wires s rfl
  show execFieldTripleReceive l tr s = _
  simp only [execFieldTripleReceive, ha]
  refine congrArg Host.Outcome.next (if_pos ?_)
  rw [Bool.and_eq_true]
  exact ⟨hf, hj⟩

theorem length_holdTriple (x : LaneState) (tr : Triple) (now : Nat) (h : x.triples.length ≤ 32) :
    (x.holdTriple tr now).triples.length = min 32 (x.triples.length + 1) := by
  simp only [LaneState.holdTriple, List.length_drop, List.length_append, List.length_singleton]
  omega

theorem getLast?_holdTriple (x : LaneState) (tr : Triple) (now : Nat) :
    (x.holdTriple tr now).triples.getLast? = some tr := by
  have hlt : ¬ (x.triples ++ [tr]).length ≤ (x.triples ++ [tr]).length - 32 := by
    simp only [List.length_append, List.length_singleton]; omega
  rw [LaneState.holdTriple, List.getLast?_drop, if_neg hlt, List.getLast?_concat]

theorem field_triple_is_held {l : Lane} {tr : Triple} {s : State} (hf : s.fFitted = true)
    (hj : (s.lane l).junction.f = true) :
    ∃ t, exec (.fieldTripleReceive l tr) s = .next t ∧ (t.lane l).triples.getLast? = some tr ∧
      ((s.lane l).triples.length ≤ 32 → (t.lane l).triples.length = min 32 ((s.lane l).triples.length + 1)) ∧
      (t.lane l).fstale = false ∧ t.regs = s.regs ∧ t.base = s.base ∧ (∀ l', l' ≠ l → t.lane l' = s.lane l') := by
  refine ⟨_, exec_fieldTripleReceive hf hj, ?_, ?_, ?_, ?_, ?_, ?_⟩
  · rw [lane_setLane, if_pos rfl]; exact getLast?_holdTriple ..
  · rw [lane_setLane, if_pos rfl]; exact length_holdTriple _ _ _
  · rw [lane_setLane, if_pos rfl]; rfl
  · exact State.arrive_regs ..
  · rw [setLane_base _ _ _ (by rw [arrive_wires s rfl]; rfl), State.arrive_base]
  · intro l' h
    rw [lane_setLane, if_neg h, arrive_wires s rfl]
    rfl

theorem exec_sqCopyArrive {l : Lane} {src dst : Strand} {m : SqMsg} {s : State} (hr : s.retired l = false) :
    exec (.sqCopyArrive l src dst m) s = .next ((s.arrive (.sqCopy l src dst m)).commitMsg l src dst m) := by
  show execSqCopyArrive l src dst m s = _
  simp [execSqCopyArrive, retired_arrive, hr]

/-- The next message of its sender joins the queue, where none waited for it (R73). -/
theorem commitMsg_next {s : State} {l : Lane} {src dst : Strand} {m : SqMsg}
    (hc : m.count = (s.echo l dst).inCount.get src + 1) (hi : (s.echo l dst).inAhead.get src = []) :
    s.commitMsg l src dst m = s.setEcho l dst (takeMsg (s.echo l dst) src m) := by
  simp only [State.commitMsg, if_pos hc, hi, List.length_nil, takeAhead]

/-- A message that is not the next one reaches no queue yet. -/
theorem inQ_commitMsg_other {s : State} {l : Lane} {src dst : Strand} {m : SqMsg}
    (hc : m.count ≠ (s.echo l dst).inCount.get src + 1) :
    ((s.commitMsg l src dst m).echo l dst).inQ = (s.echo l dst).inQ := by
  simp only [State.commitMsg, if_neg hc]
  split
  · simp [echo_setEcho]
  · rfl

theorem takeMsg_open {e : Echo} (h : e.halted = false) (src : Strand) (m : SqMsg) :
    (takeMsg e src m).inQ.get src = e.inQ.get src ++ [m] ∧ (takeMsg e src m).inCount.get src = m.count := by
  simp [takeMsg, h, Quad.get_set]

theorem next_copy_joins {l : Lane} {src dst : Strand} {m : SqMsg} {s : State} (hr : s.retired l = false)
    (hh : (s.echo l dst).halted = false) (hc : m.count = (s.echo l dst).inCount.get src + 1)
    (hi : (s.echo l dst).inAhead.get src = []) :
    ∃ t, exec (.sqCopyArrive l src dst m) s = .next t ∧
      (t.echo l dst).inQ.get src = (s.echo l dst).inQ.get src ++ [m] ∧
      (t.echo l dst).inCount.get src = m.count ∧ t.regs = s.regs ∧ t.base = s.base := by
  have hc' : m.count = ((s.arrive (.sqCopy l src dst m)).echo l dst).inCount.get src + 1 := by rwa [echo_arrive]
  have hi' : ((s.arrive (.sqCopy l src dst m)).echo l dst).inAhead.get src = [] := by rwa [echo_arrive]
  obtain ⟨hq, hn⟩ := takeMsg_open hh src m
  refine ⟨_, exec_sqCopyArrive hr, ?_⟩
  rw [commitMsg_next hc' hi', echo_setEcho, if_pos ⟨rfl, rfl⟩, echo_arrive]
  exact ⟨hq, hn, State.arrive_regs .., by simp⟩

theorem other_copy_waits {l : Lane} {src dst : Strand} {m : SqMsg} {s : State} (hr : s.retired l = false)
    (hc : m.count ≠ (s.echo l dst).inCount.get src + 1) :
    ∃ t, exec (.sqCopyArrive l src dst m) s = .next t ∧ (t.echo l dst).inQ = (s.echo l dst).inQ ∧ t.base = s.base := by
  refine ⟨_, exec_sqCopyArrive hr, ?_, by simp⟩
  rw [inQ_commitMsg_other (by rwa [echo_arrive]), echo_arrive]

/-- Settles O16, message by message. -/
theorem exchangeMessagesAreTakenUp : Obligations.ExchangeMessagesAreTakenUp := by
  unfold Obligations.ExchangeMessagesAreTakenUp
  intro l s
  refine ⟨fun x p => exec_publicationReceive l x p s, fun c => exec_pairClaimReceive, fun d k o => ⟨fun h => ?_, ?_⟩,
    fun tr => field_triple_is_held, fun h => congrArg Host.Outcome.next (if_pos h),
    fun h => congrArg Host.Outcome.next (if_neg (Nat.not_le.2 h)), fun src dst m => next_copy_joins,
    fun src dst m => other_copy_waits⟩
  · exact congrArg Host.Outcome.next (if_neg (by simp [h]))
  · exact occurrence_is_latched

/-! ### Errors of the crawlway -/

theorem badPublication_iff (p : Publication) : badPublication p = true ↔
    p.lane = 3 ∨ 32 < p.nOcc.toNat ∨ ∃ o ∈ p.occ, 5 ≤ o.src.toNat := by
  simp [badPublication, or_assoc]

theorem exec_crawlwayLinkFailed {l o : Lane} {s : State} (hne : l ≠ o) (hr : s.retired l = false) :
    exec (.crawlwayLinkFailed l o) s = .next (s.failLink l o) :=
  congrArg Host.Outcome.next (if_neg (by simp [hne, hr]))

theorem sendRetire_regs (s : State) (x : Lane) (c : LaneFault) : (s.sendRetire x c).regs = s.regs := by
  unfold State.sendRetire
  split <;> simp

theorem sendRetire_live {s : State} {x : Lane} (h : s.retired x = false) (c : LaneFault) :
    s.sendRetire x c = { s with wires := s.wires ++ [.retireNotice x c] } := by
  rw [State.sendRetire, if_neg (by simp [h])]
  rfl

/-- Marking a link of `EC_LINK` failed is no retirement. -/
theorem retired_setFlag_ecLink (s : State) (u : RUnit) (i b : Nat) (hi : i < 3) (v : Bool) (x : Lane) :
    (s.setFlag u (Reg.ecLink i) b v).retired x = s.retired x :=
  retired_congr (fun y => reg_setFlag_other _ _ _ (.inr (by
    simp only [Reg.rjLane, Reg.ecLink]; omega))) x

theorem linkIndex_lt (l o : Lane) : linkIndex l o < 3 := by cases l <;> cases o <;> decide

theorem failLink_idle {s : State} (h : s.rejoin = none) (l o : Lane) :
    s.failLink l o = (s.setFlag l.unit (Reg.ecLink (linkIndex l o)) 24 true).sendRetire (higherLane l o) .crawlway := by
  have h' : (s.setFlag l.unit (Reg.ecLink (linkIndex l o)) 24 true).rejoin = none := h
  simp only [State.failLink, h']

theorem failLink_shows {s : State} (h : s.rejoin = none) (l o : Lane) :
    (s.failLink l o).flag l.unit (Reg.ecLink (linkIndex l o)) 24 = true := by
  rw [failLink_idle h, State.flag, State.reg, sendRetire_regs]
  exact flag_setFlag_same _ _ _ _ _ (by decide)

theorem failLink_notifies {s : State} (h : s.rejoin = none) {l o : Lane} (hr : s.retired (higherLane l o) = false) :
    (s.failLink l o).wires = s.wires ++ [.retireNotice (higherLane l o) .crawlway] := by
  rw [failLink_idle h, sendRetire_live (by rwa [retired_setFlag_ecLink _ _ _ _ (linkIndex_lt l o)])]
  rfl

theorem exec_bad_publication {l x : Lane} {p : Publication} {s : State} (hl : s.retired l = false)
    (hx : s.retired x = false) (hb : badPublication p = true) :
    exec (.publicationReceive l x p) s = .next ((s.arrive (.publication l x p)).crawlError l x) := by
  rw [exec_publicationReceive, if_neg (by simp [hl, hx]), if_pos hb]

/-! ### Exchanges that stay open -/

theorem exchangeOf_eq_some {e : Echo} {pt : Word} {x y : HeldPub} (h : exchangeOf e pt = some (x, y)) :
    ∃ r, ((decidedPair e pt).orElse fun _ => firstPair (pubsFor e pt)) = some r ∧
      (pubFrom e pt (Pair.lanes r).1 = some x ∧ pubFrom e pt (Pair.lanes r).2 = some y ∨
        pubFrom e pt (Pair.lanes r).1 = some y ∧ pubFrom e pt (Pair.lanes r).2 = some x) := by
  unfold exchangeOf at h
  cases hr : (decidedPair e pt).orElse fun _ => firstPair (pubsFor e pt) with
  | none => rw [hr] at h; cases h
  | some r =>
    refine ⟨r, rfl, ?_⟩
    rw [hr] at h
    dsimp only at h
    cases ha : pubFrom e pt (Pair.lanes r).1 <;> cases hb : pubFrom e pt (Pair.lanes r).2 <;> rw [ha, hb] at h
    case some.some a b =>
      dsimp only at h
      by_cases hab : heldBefore a b = true
      · rw [if_pos hab] at h; cases h; exact .inl ⟨rfl, rfl⟩
      · rw [if_neg hab] at h; cases h; exact .inr ⟨rfl, rfl⟩
    all_goals cases h

/-- The state in which an open exchange of lane `l` with `o` has been counted (R30). -/
def State.exchangeLate (s : State) (l : Lane) (k : Strand) (pt : Word) (o : Lane) : State :=
  ((s.setEcho l k { s.echo l k with timedOut := pt :: (s.echo l k).timedOut }).bump l.unit
    (Reg.ecLink (linkIndex l o)) 23 16).crawlError l o

theorem exec_echoTimeout {l : Lane} {k : Strand} {pt : Word} {s : State} {x y : HeldPub} {p q : Lane}
    (hx : exchangeOf (s.echo l k) pt = some (x, y)) (hp : pubLane x.pub = some p) (hq : pubLane y.pub = some q)
    (hg : ((s.echo l k).agreed.any fun g => g.point == pt) = false) (hr : s.retired l = false)
    (hh : (s.echo l k).halted = false) (hs : y.since + 200 < s.ns) (ht : pt ∉ (s.echo l k).timedOut) :
    exec (.echoTimeout l k pt) s = .next (s.exchangeLate l k pt (if q = l then p else q)) := by
  show execEchoTimeout l k pt s = _
  simp only [execEchoTimeout, hx, hp, hq]
  refine congrArg Host.Outcome.next (if_neg ?_)
  simp [hg, hr, hh, ht]
  omega

theorem exec_echoTimeout_counted {l : Lane} {k : Strand} {pt : Word} {s : State} (ht : pt ∈ (s.echo l k).timedOut) :
    exec (.echoTimeout l k pt) s = .next s := by
  show execEchoTimeout l k pt s = _
  cases hx : exchangeOf (s.echo l k) pt with
  | none => simp only [execEchoTimeout, hx]
  | some z =>
    simp only [execEchoTimeout, hx]
    exact congrArg Host.Outcome.next (if_pos (by simp [ht]))

/-- Settles O17. -/
theorem sixteenErrorsFailACrawlwayLink : Obligations.SixteenErrorsFailACrawlwayLink := by
  unfold Obligations.SixteenErrorsFailACrawlwayLink
  refine ⟨badPublication_iff, ?_, ?_, ?_, fun l d s => ⟨rfl, rfl⟩, fun l k pt s x y => exchangeOf_eq_some, ?_, ?_⟩
  · exact fun l o s hne hr => ⟨exec_crawlwayLinkFailed hne hr, fun h => ⟨failLink_shows h l o, failLink_notifies h⟩⟩
  · intro l x p s hl hx hb
    have hL : (s.arrive (.publication l x p)).lane l = s.lane l := by rw [arrive_wires s rfl]; rfl
    simp only [exec_bad_publication hl hx hb, State.crawlError, hL]
  · exact fun l o s hne => congrArg Host.Outcome.next (if_neg hne)
  · exact fun l k pt s x y p q hx hp hq hg hr hh hs ht => exec_echoTimeout hx hp hq hg hr hh hs ht
  · exact fun l k pt s ht => exec_echoTimeout_counted ht

end Sys2Proof.Machine
end

-- ==== Proofs: what the dies leave of the lanes ====
section
/-! The lanes' side of the module: replicas, Echo units, lane registers and what goes with them. Voters, ports, F and
management change none of it, whatever they do at an exclusion, a halt or the end of a hold. The answers that a voter sends
to a challenge are left out, and so is the mark that a broadcast missed the lane. -/

namespace Sys2Proof.Machine

/-- The register space of a lane. -/
def laneUnit : RUnit → Bool
  | .la | .lb | .lc => true
  | _ => false

def portUnit : RUnit → Bool
  | .p1 | .p2 => true
  | _ => false

/-- The registers of a lane, and the lease status that a port die shows. -/
def sideReg (u : RUnit) (off : Nat) : Bool := laneUnit u || (portUnit u && decide (off = Reg.lsStat))

@[simp] theorem laneUnit_die (d : Die) : laneUnit d.unit = false := by cases d <;> rfl
@[simp] theorem laneUnit_pdie (p : PDie) : laneUnit p.unit = false := by cases p <;> rfl
theorem laneUnit_lane (l : Lane) : laneUnit l.unit = true := by cases l <;> rfl

@[simp] theorem sideReg_m (off : Nat) : sideReg .m off = false := by simp [sideReg, laneUnit, portUnit]
@[simp] theorem sideReg_f (off : Nat) : sideReg .f off = false := by simp [sideReg, laneUnit, portUnit]

theorem sideReg_die {off : Nat} (d : Die) (h : off ≠ Reg.lsStat) : sideReg d.unit off = false := by simp [sideReg, h]
theorem sideReg_pdie {off : Nat} (p : PDie) (h : off ≠ Reg.lsStat) : sideReg p.unit off = false := by simp [sideReg, h]

/-! The registers of a die's voter, its write errors and its channels are not `LS_STAT`. -/

@[simp] theorem sideReg_vtStat (d : Die) (i : Nat) : sideReg d.unit (Reg.vtStat i) = false :=
  sideReg_die d (by simp only [Reg.vtStat, Reg.lsStat]; omega)
@[simp] theorem sideReg_vtCause (d : Die) (i : Nat) : sideReg d.unit (Reg.vtCause i) = false :=
  sideReg_die d (by simp only [Reg.vtCause, Reg.lsStat]; omega)
@[simp] theorem sideReg_vtOrd (d : Die) (i : Nat) : sideReg d.unit (Reg.vtOrd i) = false :=
  sideReg_die d (by simp only [Reg.vtOrd, Reg.lsStat]; omega)
@[simp] theorem sideReg_vtSumpHwm (d : Die) (i : Nat) : sideReg d.unit (Reg.vtSumpHwm i) = false :=
  sideReg_die d (by simp only [Reg.vtSumpHwm, Reg.lsStat]; omega)
@[simp] theorem sideReg_vtRob (d : Die) (i : Nat) : sideReg d.unit (Reg.vtRob i) = false :=
  sideReg_die d (by simp only [Reg.vtRob, Reg.lsStat]; omega)
@[simp] theorem sideReg_pdWerrOvf (d : Die) (k : Strand) : sideReg d.unit (Reg.pdWerrOvf k.idx) = false :=
  sideReg_die d (by cases k <;> decide)
@[simp] theorem sideReg_pdWerrOvf_none (d : Die) : sideReg d.unit (Reg.pdWerrOvf 4) = false := sideReg_die d (by decide)
@[simp] theorem sideReg_dmHold (p : PDie) : sideReg p.unit Reg.dmHold = false := sideReg_pdie p (by decide)
@[simp] theorem sideReg_dmIdx (p : PDie) (i : Nat) : sideReg p.unit (Reg.dmIdx i) = false :=
  sideReg_pdie p (by simp only [Reg.dmIdx, Reg.lsStat]; omega)
@[simp] theorem sideReg_dmCnt (p : PDie) (i : Nat) : sideReg p.unit (Reg.dmCnt i) = false :=
  sideReg_pdie p (by simp only [Reg.dmCnt, Reg.lsStat]; omega)
@[simp] theorem sideReg_dmCtl (p : PDie) (i : Nat) : sideReg p.unit (Reg.dmCtl i) = false :=
  sideReg_pdie p (by simp only [Reg.dmCtl, Reg.lsStat]; omega)
theorem sideReg_dmStat (p : PDie) {i : Nat} (h : i < 28) : sideReg p.unit (Reg.dmStat i) = false :=
  sideReg_pdie p (by simp only [Reg.dmStat, Reg.lsStat]; omega)

/-- What belongs to the lanes. -/
structure LaneSide where
  lane : Lane → LaneState
  echo : Lane → Strand → Echo
  regs : Lane → Nat → Word
  shown : PDie → Word
  heldBy : PDie → Tri Bool
  running : Die → Bool
  released : Quad Bool
  rejoin : Option RejoinRun
  rejoinQueue : Quad (Option Lane)
  changes : Quad (List Change)
  echoNum : Quad Half
  tcfg : Quad (Option TcfgCommit)
  ns : Nat
  variant : Variant

/-- A lane without its Echo units and the mark of R132. -/
def LaneState.bare (x : LaneState) : LaneState := { x with echo := Quad.all ResetValue.echo, commonStale := false }

def Echo.bare (e : Echo) : Echo := { e with answers := [] }

def State.side (s : State) : LaneSide :=
  ⟨fun l => (s.lane l).bare, fun l k => (s.echo l k).bare, fun l off => s.reg l.unit off, fun p => s.reg p.unit Reg.lsStat,
    fun p => (s.port p).heldBy, fun d => (s.consumer d).running, s.released, s.rejoin, s.rejoinQueue, s.changes, s.echoNum,
    s.tcfg, s.ns, s.variant⟩

@[simp] theorem side_ite (c : Prop) [Decidable c] (x y : State) :
    (if c then x else y).side = if c then x.side else y.side := by split <;> rfl

theorem side_foldl {β : Type} (g : State → β → State) (hg : ∀ t x, (g t x).side = t.side) (xs : List β)
    (s : State) : (xs.foldl g s).side = s.side := by
  induction xs generalizing s with
  | nil => rfl
  | cons x xs ih => rw [List.foldl_cons, ih, hg]

/-- The same, of a list whose every member keeps the lanes' side. -/
theorem side_foldl_mem {β : Type} (g : State → β → State) (xs : List β) (hg : ∀ t, ∀ x ∈ xs, (g t x).side = t.side)
    (s : State) : (xs.foldl g s).side = s.side := by
  induction xs generalizing s with
  | nil => rfl
  | cons x xs ih =>
    rw [List.foldl_cons, ih (fun t y hy => hg t y (List.mem_cons_of_mem _ hy)), hg s x List.mem_cons_self]

/-- A record update of what is not the lanes'. -/
theorem side_mk (x : State) (heldLo' : List (RUnit × Nat × Word)) (voters' : Four (Quad Voter)) (links' : Tri (Four JLink))
    (wires' : List Wire) (areas' : List Area) (field' : FieldDie) (mailboxes' : List Mailbox) (lockTaken' : List LockTake)
    (mgmt' : Mgmt) (governors' : Tri Governor) (ages' : List AgeRec) (supply' : Supply) (views' : List UnitView) (log' : Log)
    (absentLogged' : List Nat) (free' : Nat) (pending' : List Instr) :
    (State.mk x.variant x.ns x.regs heldLo' x.lanes voters' x.consumers x.ports links' wires' x.released x.tcfg x.rejoinQueue
      x.rejoin x.changes x.echoNum areas' field' mailboxes' lockTaken' mgmt' governors' ages' supply' views' log'
      absentLogged' free' pending').side = x.side := rfl

/-! ### The operations -/

theorem side_setLane (s : State) (l : Lane) (x : LaneState) (h : x.bare = (s.lane l).bare)
    (he : ∀ k, (x.echo.get k).bare = (s.echo l k).bare) : (s.setLane l x).side = s.side := by
  have h1 : (fun m => ((s.setLane l x).lane m).bare) = fun m => (s.lane m).bare := by
    funext m
    rw [lane_setLane]
    split
    · next e => rw [e, h]
    · rfl
  have h2 : (fun m k => ((s.setLane l x).echo m k).bare) = fun m k => (s.echo m k).bare := by
    funext m k
    rw [State.echo, lane_setLane]
    split
    · next e => rw [e, he]
    · rfl
  show LaneSide.mk _ _ _ _ _ _ _ _ _ _ _ _ _ _ = _
  rw [h1, h2]
  rfl

@[simp] theorem State.setVoter_side (s : State) (d : Die) (k : Strand) (v : Voter) : (s.setVoter d k v).side = s.side := rfl

@[simp] theorem State.setReg_side (s : State) (u : RUnit) (off : Nat) (v : Word) (h : sideReg u off = false) :
    (s.setReg u off v).side = s.side := by
  rw [sideReg, Bool.or_eq_false_iff, Bool.and_eq_false_iff, decide_eq_false_iff_not] at h
  have h1 : (fun (l : Lane) off' => (s.setReg u off v).reg l.unit off') = fun l off' => s.reg l.unit off' := by
    funext l off'
    exact reg_setReg_other _ _ (.inl fun e => by rw [← e, laneUnit_lane] at h; exact absurd h.1 (by decide))
  have h2 : (fun (p : PDie) => (s.setReg u off v).reg p.unit Reg.lsStat) = fun p => s.reg p.unit Reg.lsStat := by
    funext p
    refine reg_setReg_other _ _ ?_
    rcases h.2 with h | h
    · exact .inl fun e => by rw [← e] at h; cases p <;> exact absurd h (by decide)
    · exact .inr fun e => h e.symm
  show LaneSide.mk _ _ _ _ _ _ _ _ _ _ _ _ _ _ = _
  rw [h1, h2]
  rfl

@[simp] theorem State.setFld_side (s : State) (u : RUnit) (off hi lo v : Nat) (h : sideReg u off = false) :
    (s.setFld u off hi lo v).side = s.side := by
  simp [State.setFld, h]

@[simp] theorem State.setFlag_side (s : State) (u : RUnit) (off i : Nat) (b : Bool) (h : sideReg u off = false) :
    (s.setFlag u off i b).side = s.side := by
  simp [State.setFlag, h]

@[simp] theorem State.bumpBy_side (s : State) (u : RUnit) (off hi lo n : Nat) (h : sideReg u off = false) :
    (s.bumpBy u off hi lo n).side = s.side := by
  simp [State.bumpBy, h]

@[simp] theorem State.bump_side (s : State) (u : RUnit) (off hi lo : Nat) (h : sideReg u off = false) :
    (s.bump u off hi lo).side = s.side := by
  simp [State.bump, h]

@[simp] theorem State.bumpWrap_side (s : State) (u : RUnit) (off hi lo : Nat) (h : sideReg u off = false) :
    (s.bumpWrap u off hi lo).side = s.side := by
  simp [State.bumpWrap, h]

@[simp] theorem State.raiseMax_side (s : State) (u : RUnit) (off hi lo v : Nat) (h : sideReg u off = false) :
    (s.raiseMax u off hi lo v).side = s.side := by
  simp [State.raiseMax, h]

@[simp] theorem State.setReg64_side (s : State) (u : RUnit) (off : Nat) (v : Dword) (h : sideReg u off = false)
    (h' : sideReg u (off + 4) = false) : (s.setReg64 u off v).side = s.side := by
  simp [State.setReg64, h, h']

theorem side_setEcho (s : State) (l : Lane) (k : Strand) (e : Echo) (h : e.bare = (s.echo l k).bare) :
    (s.setEcho l k e).side = s.side := by
  refine side_setLane _ _ _ rfl fun j => ?_
  show ((Quad.set _ k e).get j).bare = _
  rw [Quad.get_set]
  split
  · next hj => rw [hj, h]
  · rfl

@[simp] theorem State.setConsumer_side (s : State) (d : Die) (c : Consumer) (h : c.running = (s.consumer d).running) :
    (s.setConsumer d c).side = s.side := by
  have h1 : (fun e => ((s.setConsumer d c).consumer e).running) = fun e => (s.consumer e).running := by
    funext e
    rw [consumer_setConsumer]
    split
    · next he => rw [he, h]
    · rfl
  show LaneSide.mk _ _ _ _ _ _ _ _ _ _ _ _ _ _ = _
  rw [h1]
  rfl

@[simp] theorem State.setPort_side (s : State) (p : PDie) (x : PortDie) (h : x.heldBy = (s.port p).heldBy) :
    (s.setPort p x).side = s.side := by
  have h1 : (fun q => ((s.setPort p x).port q).heldBy) = fun q => (s.port q).heldBy := by
    funext q
    rw [port_setPort]
    split
    · next hq => rw [hq, h]
    · rfl
  show LaneSide.mk _ _ _ _ _ _ _ _ _ _ _ _ _ _ = _
  rw [h1]
  rfl

@[simp] theorem State.useFree_side (s : State) : (State.useFree s).side = s.side := by
  simp [State.useFree, side_foldl, side_mk]

@[simp] theorem State.setJLink_side (s : State) (l : Lane) (d : Die) (x : JLink) : (State.setJLink s l d x).side = s.side := by
  simp [State.setJLink, side_foldl, side_mk]

@[simp] theorem State.setVcQueue_side (s : State) (l : Lane) (d : Die) (down : Bool) (c : VChannel) (ws : List Wire) : (State.setVcQueue s l d down c ws).side = s.side := by
  simp [State.setVcQueue]

@[simp] theorem State.sendOne_side (s : State) (w : Wire) : (State.sendOne s w).side = s.side := by
  unfold State.sendOne
  (repeat' split) <;> simp [side_foldl, side_mk]

@[simp] theorem State.send_side (s : State) (ws : List Wire) : (s.send ws).side = s.side := by
  obtain ⟨ls, ws', h⟩ := s.send_eq ws
  rw [h]
  rfl

@[simp] theorem State.countLanded_side (s : State) (l : Lane) (d : Die) (down : Bool) (c : VChannel) : (State.countLanded s l d down c).side = s.side := by
  simp [State.countLanded]

@[simp] theorem State.arrive_side (s : State) (w : Wire) : (s.arrive w).side = s.side := by
  obtain ⟨ls, ws', h⟩ := s.arrive_eq w
  rw [h]
  rfl

@[simp] theorem State.appendLog_side (s : State) (code : LogCode) (src : Nat) (k : Option Strand) (arg : List Nat) : (State.appendLog s code src k arg).side = s.side := by
  simp [State.appendLog, side_foldl, side_mk]

@[simp] theorem State.setFlood_side (s : State) (src n : Nat) : (State.setFlood s src n).side = s.side := by
  simp [State.setFlood, side_foldl, side_mk]

@[simp] theorem State.logEv_side (s : State) (src : Nat) (k : Option Strand) (code : LogCode) (arg : List Nat) : (State.logEv s src k code arg).side = s.side := by
  simp [State.logEv, side_foldl, side_mk]

@[simp] theorem State.countOcc_side (s : State) (d : Die) (k : Strand) : (State.countOcc s d k).side = s.side := by
  simp [State.countOcc]

@[simp] theorem State.raise_side (s : State) (d : Die) (k : Strand) (v : Nat) : (State.raise s d k v).side = s.side := by
  simp [State.raise]

@[simp] theorem State.raiseAll_side (s : State) (d : Die) (v : Nat) : (State.raiseAll s d v).side = s.side := by
  simp [State.raiseAll, side_foldl, side_mk]

@[simp] theorem State.pwFail_side (s : State) (d : Die) (k : Option Strand) (r : WerrRec) : (State.pwFail s d k r).side = s.side := by
  unfold State.pwFail
  split <;> simp

@[simp] theorem State.loseWrite_side (s : State) (l : Lane) (w : Broadcast) (cause : Nat) : (s.loseWrite l w cause).side = s.side := by
  simp only [State.loseWrite]
  split
  · exact (side_setLane _ _ _ (by rfl) fun k => by rfl).trans (State.pwFail_side ..)
  · exact State.pwFail_side ..

@[simp] theorem State.broadcastTo_side (s : State) (w : Broadcast) (l : Lane) : (State.broadcastTo s w l).side = s.side := by
  unfold State.broadcastTo
  (repeat' split) <;> simp [side_foldl, side_mk]

@[simp] theorem State.broadcastNow_side (s : State) (w : Broadcast) : (State.broadcastNow s w).side = s.side := by
  unfold State.broadcastNow
  (repeat' split) <;> simp [side_foldl, side_mk]

@[simp] theorem State.showHold_side (s : State) (p : PDie) : (State.showHold s p).side = s.side := by
  simp [State.showHold]

@[simp] theorem State.keepWrite_side (s : State) (p : PDie) (h : HeldWrite) : (State.keepWrite s p h).side = s.side := by
  simp [State.keepWrite]

@[simp] theorem State.setVCause_side (s : State) (d : Die) (k : Strand) (c : Cause) (repl : Option Lane) (ord : Word) : (State.setVCause s d k c repl ord).side = s.side := by
  simp [State.setVCause]

@[simp] theorem State.showSump_side (s : State) (d : Die) (k : Strand) : (State.showSump s d k).side = s.side := by
  simp [State.showSump, side_foldl, side_mk]

@[simp] theorem State.disturb_side (s : State) : (State.disturb s).side = s.side := by
  simp [State.disturb, side_foldl, side_mk]

@[simp] theorem State.setOut_side (s : State) (n : Nat) (o : OutState) : (State.setOut s n o).side = s.side := by
  simp [State.setOut, side_foldl, side_mk]

@[simp] theorem State.refreshOut_side (s : State) (n : Nat) : (State.refreshOut s n).side = s.side := by
  simp [State.refreshOut]

@[simp] theorem State.refreshOuts_side (s : State) : (State.refreshOuts s).side = s.side := by
  simp [State.refreshOuts, side_foldl, side_mk]

@[simp] theorem State.setLatches_side (s : State) (l : Lane) (pend active : BitVec 16) : (State.setLatches s l pend active).side = s.side := by
  simp [State.setLatches]

@[simp] theorem State.clearLatches_side (s : State) (l : Lane) (mask : BitVec 16) : (State.clearLatches s l mask).side = s.side := by
  simp [State.clearLatches]

@[simp] theorem State.clearStrandLatches_side (s : State) (l : Lane) (k : Strand) : (State.clearStrandLatches s l k).side = s.side := by
  simp [State.clearStrandLatches]

@[simp] theorem State.freeLock_side (s : State) (i : Nat) : (State.freeLock s i).side = s.side := by
  simp [State.freeLock, side_foldl, side_mk]

@[simp] theorem State.forceLock_side (s : State) (i : Nat) (by' : Nat) : (State.forceLock s i by').side = s.side := by
  simp [State.forceLock]

@[simp] theorem State.freeLocksOf_side (s : State) (owner : Nat) : (State.freeLocksOf s owner).side = s.side := by
  simp [State.freeLocksOf, side_foldl, side_mk]

@[simp] theorem State.setView_side (s : State) (i : Nat) (v : UnitView) : (State.setView s i v).side = s.side := by
  simp [State.setView, side_foldl, side_mk]

@[simp] theorem State.setPathOut_side (s : State) (i : Nat) : (State.setPathOut s i).side = s.side := by
  simp [State.setPathOut]

@[simp] theorem State.setChan_side (s : State) (p : PDie) (ch : Nat) (c : Chan) : (State.setChan s p ch c).side = s.side := by
  simp [State.setChan]

theorem side_setChState (s : State) (p : PDie) {ch : Nat} (x : ChState) (h : ch < 28) : (s.setChState p ch x).side = s.side := by
  simp [State.setChState, sideReg_dmStat p h]

@[simp] theorem State.dropFetches_side (s : State) (p : PDie) (ch : Nat) : (State.dropFetches s p ch).side = s.side := by
  simp [State.dropFetches]

@[simp] theorem State.stopChan_side (s : State) (p : PDie) (ch : Nat) : (State.stopChan s p ch).side = s.side := by
  simp [State.stopChan]

theorem side_haltChan (s : State) (p : PDie) {ch : Nat} (h : ch < 28) : (s.haltChan p ch).side = s.side := by
  unfold State.haltChan
  split
  · rfl
  · rw [side_setChState _ _ _ h, State.stopChan_side]

@[simp] theorem State.dropHeldWb_side (s : State) (p : PDie) (k : Strand) : (State.dropHeldWb s p k).side = s.side := by
  simp [State.dropHeldWb]

@[simp] theorem State.haltChansOf_side (s : State) (k : Strand) : (s.haltChansOf k).side = s.side := by
  refine side_foldl _ (fun t p => ?_) _ _
  refine (side_foldl_mem _ _ (fun u ch h => ?_) _).trans (State.dropHeldWb_side ..)
  rw [side_ite, side_haltChan _ _ (List.mem_range.1 h), ite_self]

@[simp] theorem State.resetChansOf_side (s : State) (k : Strand) : (s.resetChansOf k).side = s.side := by
  refine side_foldl _ (fun t p => ?_) _ _
  refine side_foldl_mem _ _ (fun u ch h => ?_) _
  split
  · refine (State.setPort_side _ _ _ (by rfl)).trans ?_
    simp [side_setChState _ _ _ (List.mem_range.1 h)]
  · rfl

@[simp] theorem State.stopAllChans_side (s : State) (p : PDie) : (s.stopAllChans p).side = s.side := by
  simp only [State.stopAllChans, State.showHold_side]
  refine (State.setPort_side _ _ _ (by rfl)).trans ?_
  exact side_foldl_mem _ _ (fun u ch h => side_haltChan _ _ (List.mem_range.1 h)) _

@[simp] theorem State.setActs_side (s : State) (p : PDie) (ch : Nat) (acts : List Act) : (State.setActs s p ch acts).side = s.side := by
  simp [State.setActs]

@[simp] theorem State.mapAct_side (s : State) (p : PDie) (ch index : Nat) (f : Act → Act) : (State.mapAct s p ch index f).side = s.side := by
  simp [State.mapAct]

@[simp] theorem State.endAct_side (s : State) (p : PDie) (ch index st addr : Nat) : (State.endAct s p ch index st addr).side = s.side := by
  simp [State.endAct]

@[simp] theorem State.endFetch_side (s : State) (p : PDie) (id : Nat) : (State.endFetch s p id).side = s.side := by
  simp [State.endFetch]

@[simp] theorem State.failFetch_side (s : State) (p : PDie) (f : Fetch) : (State.failFetch s p f).side = s.side := by
  simp only [State.failFetch]
  (repeat' split) <;> simp [side_foldl, side_mk]

@[simp] theorem State.failHopeless_side (s : State) (p : PDie) (k : Strand) : (State.failHopeless s p k).side = s.side := by
  simp [State.failHopeless, side_foldl, side_mk]

@[simp] theorem State.dropCopies_side (s : State) (p : PDie) (k : Strand) (x : Lane) : (State.dropCopies s p k x).side = s.side := by
  simp [State.dropCopies]

@[simp] theorem State.releaseWb_side (s : State) (p : PDie) (l : Lane) : (State.releaseWb s p l).side = s.side := by
  simp [State.releaseWb, side_foldl, side_mk]

@[simp] theorem State.releaseWbs_side (s : State) (p : PDie) : (State.releaseWbs s p).side = s.side := by
  simp [State.releaseWbs, side_foldl, side_mk]

@[simp] theorem State.sendWb_side (s : State) (p : PDie) (h : HeldWrite) : (State.sendWb s p h).side = s.side := by
  simp [State.sendWb, side_foldl, side_mk]

@[simp] theorem State.unstall_side (s : State) (p : PDie) (k : Strand) : (s.unstall p k).side = s.side := by
  refine side_foldl_mem _ _ (fun t ch h => ?_) s
  rw [side_ite, side_setChState _ _ _ (List.mem_range.1 h), ite_self]

@[simp] theorem State.stallCopies_side (s : State) (p : PDie) (k : Strand) : (s.stallCopies p k).side = s.side := by
  refine side_foldl_mem _ _ (fun t ch h => ?_) s
  rw [side_ite, side_setChState _ _ _ (List.mem_range.1 h), ite_self]

@[simp] theorem State.showMode_side (s : State) (d : Die) (k : Strand) : (State.showMode s d k).side = s.side := by
  simp [State.showMode]

@[simp] theorem State.voterClean_side (s : State) (d : Die) (k : Strand) : (State.voterClean s d k).side = s.side := by
  simp [State.voterClean]

@[simp] theorem State.sendExclusion_side (s : State) (ls : List Lane) (k : Strand) (x : Lane) (c : Cause) : (State.sendExclusion s ls k x c).side = s.side := by
  simp [State.sendExclusion]

@[simp] theorem State.sendSplit_side (s : State) (ls : List Lane) (k : Strand) (c : Cause) : (State.sendSplit s ls k c).side = s.side := by
  simp [State.sendSplit]

@[simp] theorem State.chalDecide_side (s : State) (d : Die) (k : Strand) : (s.chalDecide d k).side = s.side := by
  simp only [State.chalDecide]
  split
  · rfl
  · refine (side_foldl _ (fun t l => side_setEcho _ _ _ _ (by rfl)) _ _).trans ?_
    rw [State.raise_side, State.setVoter_side]

@[simp] theorem State.voterRemove_side (s : State) (d : Die) (k : Strand) (x : Lane) : (State.voterRemove s d k x).side = s.side := by
  unfold State.voterRemove
  split <;> simp

@[simp] theorem State.voterStop_side (s : State) (d : Die) (k : Strand) : (State.voterStop s d k).side = s.side := by
  simp [State.voterStop]

@[simp] theorem State.voterSplit_side (s : State) (d : Die) (k : Strand) (c : Cause) (ord : Word) : (State.voterSplit s d k c ord).side = s.side := by
  simp [State.voterSplit]

@[simp] theorem State.voterResettle_side (s : State) (d : Die) (k : Strand) : (State.voterResettle s d k).side = s.side := by
  unfold State.voterResettle
  (repeat' split) <;> simp [side_foldl, side_mk]

@[simp] theorem State.voterNotice_side (s : State) (d : Die) (k : Strand) (x : Lane) : (State.voterNotice s d k x).side = s.side := by
  simp [State.voterNotice]

@[simp] theorem State.releaseHold_side (s : State) (p : PDie) : (State.releaseHold s p).side = s.side := by
  unfold State.releaseHold
  (repeat' split) <;> simp [side_foldl, side_mk]

@[simp] theorem State.releaseHolds_side (s : State) : (State.releaseHolds s).side = s.side := by
  simp [State.releaseHolds]

@[simp] theorem State.sendRetire_side (s : State) (x : Lane) (c : LaneFault) : (State.sendRetire s x c).side = s.side := by
  simp [State.sendRetire]

@[simp] theorem State.checkRetired_side (s : State) (l : Lane) : (State.checkRetired s l).side = s.side := by
  simp [State.checkRetired, side_foldl, side_mk]

@[simp] theorem State.haltDevices_side (s : State) (k : Strand) : (State.haltDevices s k).side = s.side := by
  simp [State.haltDevices, side_foldl, side_mk]

@[simp] theorem State.putMailbox_side (s : State) (n : Nat) (x : Mailbox) : (State.putMailbox s n x).side = s.side := by
  simp [State.putMailbox, side_foldl, side_mk]

@[simp] theorem State.mbSend_side (s : State) (n : Nat) (far : Bool) (a : MbAct) : (State.mbSend s n far a).side = s.side := by
  simp [State.mbSend]

@[simp] theorem State.mbTake_side (s : State) (n : Nat) (far : Bool) (a : MbAct) : (State.mbTake s n far a).side = s.side := by
  simp [State.mbTake]

@[simp] theorem State.mbRxReset_side (s : State) (n : Nat) (far : Bool) : (State.mbRxReset s n far).side = s.side := by
  simp [State.mbRxReset]

@[simp] theorem State.mbTxReset_side (s : State) (n : Nat) (far : Bool) : (State.mbTxReset s n far).side = s.side := by
  simp [State.mbTxReset]

@[simp] theorem State.mbRestart_side (s : State) (k : Strand) : (State.mbRestart s k).side = s.side := by
  simp [State.mbRestart]

@[simp] theorem State.showDs_side (s : State) : (State.showDs s).side = s.side := by
  simp [State.showDs, side_foldl, side_mk]

@[simp] theorem State.relay_side (s : State) (v : PaceValue) : (State.relay s v).side = s.side := by
  simp [State.relay]

@[simp] theorem State.setCeil_side (s : State) (k : Strand) (n : Nat) (clamped : Bool) : (State.setCeil s k n clamped).side = s.side := by
  simp [State.setCeil]

@[simp] theorem State.setBank_side (s : State) (n : Nat) (b : SafeBank) : (State.setBank s n b).side = s.side := by
  simp [State.setBank, side_foldl, side_mk]

@[simp] theorem State.showBank_side (s : State) : (State.showBank s).side = s.side := by
  simp [State.showBank]

@[simp] theorem State.writeRecs_side (s : State) (r : SafeRecs) : (State.writeRecs s r).side = s.side := by
  simp [State.writeRecs, side_foldl, side_mk]

@[simp] theorem State.writeBoot_side (s : State) (b : BootRec) : (State.writeBoot s b).side = s.side := by
  simp [State.writeBoot]

@[simp] theorem State.setUpd_side (s : State) (st : Nat) : (State.setUpd s st).side = s.side := by
  simp [State.setUpd]

@[simp] theorem State.setUpdResult_side (s : State) (r : Nat) : (State.setUpdResult s r).side = s.side := by
  simp [State.setUpdResult]

@[simp] theorem State.cancelUpdate_side (s : State) (reason : Nat) : (State.cancelUpdate s reason).side = s.side := by
  simp [State.cancelUpdate]

@[simp] theorem State.endDebugAuth_side (s : State) : (State.endDebugAuth s).side = s.side := by
  simp [State.endDebugAuth]

@[simp] theorem State.fenceMgmt_side (s : State) : (State.fenceMgmt s).side = s.side := by
  simp [State.fenceMgmt]

@[simp] theorem State.freshVoter_side (s : State) (d : Die) (k : Strand) (ls : List Lane) : (State.freshVoter s d k ls).side = s.side := by
  simp [State.freshVoter, side_foldl, side_mk]


/-! ### What follows -/

section
variable {s t : State}

theorem lane_of_side (h : t.side = s.side) (l : Lane) : (t.lane l).bare = (s.lane l).bare :=
  congrFun (congrArg LaneSide.lane h) l

theorem replica_of_side (h : t.side = s.side) (l : Lane) (k : Strand) : t.replica l k = s.replica l k :=
  (congrArg (fun x : LaneState => x.repl.get k) (lane_of_side h l) :)

theorem echo_of_side (h : t.side = s.side) (l : Lane) (k : Strand) : (t.echo l k).bare = (s.echo l k).bare :=
  congrFun (congrFun (congrArg LaneSide.echo h) l) k

theorem inStep_of_side (h : t.side = s.side) (l : Lane) (k : Strand) : (t.echo l k).inStep = (s.echo l k).inStep :=
  (congrArg Echo.inStep (echo_of_side h l k) :)

theorem halted_of_side (h : t.side = s.side) (l : Lane) (k : Strand) : (t.echo l k).halted = (s.echo l k).halted :=
  (congrArg Echo.halted (echo_of_side h l k) :)

theorem latched_of_side (h : t.side = s.side) (l : Lane) (k : Strand) : (t.echo l k).latched = (s.echo l k).latched :=
  (congrArg Echo.latched (echo_of_side h l k) :)

theorem reg_of_side (h : t.side = s.side) (l : Lane) (off : Nat) : t.reg l.unit off = s.reg l.unit off :=
  congrFun (congrFun (congrArg LaneSide.regs h) l) off

theorem retired_of_side (h : t.side = s.side) (l : Lane) : t.retired l = s.retired l :=
  retired_congr (fun x => reg_of_side h x _) l

theorem liveLanes_of_side (h : t.side = s.side) : t.liveLanes = s.liveLanes :=
  liveLanes_congr (retired_of_side h)

theorem running_of_side (h : t.side = s.side) (d : Die) : (t.consumer d).running = (s.consumer d).running :=
  congrFun (congrArg LaneSide.running h) d

end

end Sys2Proof.Machine
end

-- ==== Proofs: what a rejoin, a change and a commit leave of the strands ====
section
/-! The part of the lanes' side that outlasts an abandoned rejoin, a replica state change and a timing commit: the
replicas, the Echo units' sets and queues, and every register but `LN_REPL`, `LN_TCFG`, the pending bits, and the registers
of the rejoin unit and of the commit. -/

namespace Sys2Proof.Machine

/-- The registers of a lane that a change, a commit or the end of a rejoin may write. -/
def movedReg (off : Nat) : Bool :=
  (decide (0x80100 ≤ off) && decide (off < 0x80140)) || (decide (0x83010 ≤ off) && decide (off < 0x83100)) ||
  decide (off = 0x83104) ||
  (decide (off < 0x40000) && (decide (off % 0x10000 = 0x24) || decide (off % 0x10000 = 0x28) ||
    (decide (0x400 ≤ off % 0x10000) && decide (off % 0x10000 < 0x420))))

/-- A register that stays through these. -/
def calmReg (u : RUnit) (off : Nat) : Bool := if laneUnit u then !movedReg off else sideReg u off

theorem calmReg_lane (l : Lane) (off : Nat) : calmReg l.unit off = !movedReg off := by simp [calmReg, laneUnit_lane]

@[simp] theorem calmReg_rjStat (l : Lane) (k : Strand) : calmReg l.unit (Reg.rjStat k.idx) = false := by
  cases l <;> cases k <;> decide
@[simp] theorem calmReg_rjDirty (l : Lane) (k : Strand) : calmReg l.unit (Reg.rjDirty k.idx) = false := by
  cases l <;> cases k <;> decide
@[simp] theorem calmReg_rjStall (l : Lane) (k : Strand) : calmReg l.unit (Reg.rjStall k.idx) = false := by
  cases l <;> cases k <;> decide
@[simp] theorem calmReg_rjHist (l : Lane) (k : Strand) : calmReg l.unit (Reg.rjHist k.idx) = false := by
  cases l <;> cases k <;> decide
@[simp] theorem calmReg_rjDbg (l : Lane) : calmReg l.unit Reg.rjDbg = false := by cases l <;> decide
@[simp] theorem calmReg_lnRepl (l : Lane) (k : Strand) : calmReg l.unit (Reg.lnRepl k) = false := by
  cases l <;> cases k <;> decide
@[simp] theorem calmReg_lnTcfg (l : Lane) (k : Strand) : calmReg l.unit (Reg.lnTcfg k) = false := by
  cases l <;> cases k <;> decide
@[simp] theorem calmReg_lnTcfgCommit (l : Lane) (k : Strand) : calmReg l.unit (Reg.lnTcfgCommit k.idx) = false := by
  cases l <;> cases k <;> decide
theorem calmReg_lnEvPend (l : Lane) (k : Strand) {i : Nat} (h : i < 8) : calmReg l.unit (Reg.lnEvPend k i) = false := by
  rw [calmReg_lane, Bool.not_eq_false']
  have hk : k.idx < 4 := by cases k <;> decide
  have hp : Reg.lnEvPend k i < 0x40000 ∧ 0x400 ≤ Reg.lnEvPend k i % 0x10000 ∧ Reg.lnEvPend k i % 0x10000 < 0x420 := by
    simp only [Reg.lnEvPend]; omega
  simp only [movedReg, decide_eq_true hp.1, decide_eq_true hp.2.1, decide_eq_true hp.2.2, Bool.and_self, Bool.or_true]

/-- What stays. -/
structure Calm where
  lane : Lane → LaneState
  repl : Lane → Strand → Replica
  echo : Lane → Strand → Echo
  regs : Lane → Nat → Word
  shown : PDie → Word
  heldBy : PDie → Tri Bool
  running : Die → Bool
  released : Quad Bool
  ns : Nat
  variant : Variant

/-- A replica but for where it waits. -/
def Replica.calm (r : Replica) : Replica := { r with phase := .run, waitSince := 0 }

/-- An Echo unit but for what it latched and what a rejoin or a commit arranged with it. -/
def Echo.calm (e : Echo) : Echo :=
  { e with answers := [], latched := [], stallAt := none, asideAt := Tri.all none, tcfgFrom := none, tcfgTook := none }

/-- A lane but for its replicas and Echo units. -/
def LaneState.calm (x : LaneState) : LaneState := { x.bare with repl := Quad.all ResetValue.replica }

def State.calm (s : State) : Calm :=
  ⟨fun l => (s.lane l).calm, fun l k => (s.replica l k).calm, fun l k => (s.echo l k).calm,
    fun l off => if movedReg off then 0 else s.reg l.unit off, fun p => s.reg p.unit Reg.lsStat,
    fun p => (s.port p).heldBy, fun d => (s.consumer d).running, s.released, s.ns, s.variant⟩

@[simp] theorem calm_ite (c : Prop) [Decidable c] (x y : State) :
    (if c then x else y).calm = if c then x.calm else y.calm := by split <;> rfl

theorem calm_foldl {β : Type} (g : State → β → State) (hg : ∀ t x, (g t x).calm = t.calm) (xs : List β)
    (s : State) : (xs.foldl g s).calm = s.calm := by
  induction xs generalizing s with
  | nil => rfl
  | cons x xs ih => rw [List.foldl_cons, ih, hg]

/-- What keeps the lanes' side keeps this part of it. -/
theorem calm_of_side {s t : State} (h : t.side = s.side) : t.calm = s.calm := by
  have h1 : (fun l => (t.lane l).calm) = fun l => (s.lane l).calm :=
    funext fun l => (congrArg (fun x : LaneState => { x with repl := Quad.all ResetValue.replica }) (lane_of_side h l) :)
  have h2 : (fun l k => (t.replica l k).calm) = fun l k => (s.replica l k).calm :=
    funext fun l => funext fun k => congrArg Replica.calm (replica_of_side h l k)
  have h3 : (fun l k => (t.echo l k).calm) = fun l k => (s.echo l k).calm :=
    funext fun l => funext fun k => (congrArg Echo.calm (echo_of_side h l k) :)
  have h4 : (fun (l : Lane) off => if movedReg off then 0 else t.reg l.unit off) =
      fun l off => if movedReg off then 0 else s.reg l.unit off :=
    funext fun l => funext fun off => by rw [reg_of_side h]
  show Calm.mk _ _ _ _ _ _ _ _ _ _ = Calm.mk _ _ _ _ _ _ _ _ _ _
  rw [h1, h2, h3, h4]
  exact congrArg (fun x : LaneSide => Calm.mk _ _ _ _ x.shown x.heldBy x.running x.released x.ns x.variant) h

/-- A record update of what the strands do not keep. -/
theorem calm_mk (x : State) (heldLo' : List (RUnit × Nat × Word)) (voters' : Four (Quad Voter)) (links' : Tri (Four JLink))
    (wires' : List Wire) (tcfg' : Quad (Option TcfgCommit)) (rejoinQueue' : Quad (Option Lane)) (rejoin' : Option RejoinRun)
    (changes' : Quad (List Change)) (echoNum' : Quad Half) (areas' : List Area) (field' : FieldDie)
    (mailboxes' : List Mailbox) (lockTaken' : List LockTake)
    (mgmt' : Mgmt) (governors' : Tri Governor) (ages' : List AgeRec) (supply' : Supply) (views' : List UnitView) (log' : Log)
    (absentLogged' : List Nat) (free' : Nat) (pending' : List Instr) :
    (State.mk x.variant x.ns x.regs heldLo' x.lanes voters' x.consumers x.ports links' wires' x.released tcfg' rejoinQueue'
      rejoin' changes' echoNum' areas' field' mailboxes' lockTaken' mgmt' governors' ages' supply' views' log'
      absentLogged' free' pending').calm = x.calm := rfl

/-! ### What keeps the whole side -/

@[simp] theorem State.send_calm (s : State) (ws : List Wire) : (s.send ws).calm = s.calm := calm_of_side (State.send_side ..)
@[simp] theorem State.arrive_calm (s : State) (w : Wire) : (s.arrive w).calm = s.calm := calm_of_side (State.arrive_side ..)
@[simp] theorem State.logEv_calm (s : State) (src : Nat) (k : Option Strand) (code : LogCode) (arg : List Nat) :
    (s.logEv src k code arg).calm = s.calm := calm_of_side (State.logEv_side ..)
@[simp] theorem State.raise_calm (s : State) (d : Die) (k : Strand) (v : Nat) : (s.raise d k v).calm = s.calm :=
  calm_of_side (State.raise_side ..)
@[simp] theorem State.setView_calm (s : State) (i : Nat) (v : UnitView) : (s.setView i v).calm = s.calm :=
  calm_of_side (State.setView_side ..)
@[simp] theorem State.setPathOut_calm (s : State) (i : Nat) : (s.setPathOut i).calm = s.calm :=
  calm_of_side (State.setPathOut_side ..)
@[simp] theorem State.sendExclusion_calm (s : State) (ls : List Lane) (k : Strand) (x : Lane) (c : Cause) :
    (s.sendExclusion ls k x c).calm = s.calm := calm_of_side (State.sendExclusion_side ..)
@[simp] theorem State.sendSplit_calm (s : State) (ls : List Lane) (k : Strand) (c : Cause) :
    (s.sendSplit ls k c).calm = s.calm := calm_of_side (State.sendSplit_side ..)
@[simp] theorem State.voterNotice_calm (s : State) (d : Die) (k : Strand) (x : Lane) : (s.voterNotice d k x).calm = s.calm :=
  calm_of_side (State.voterNotice_side ..)
@[simp] theorem State.clearLatches_calm (s : State) (l : Lane) (m : BitVec 16) : (s.clearLatches l m).calm = s.calm :=
  calm_of_side (State.clearLatches_side ..)
@[simp] theorem State.clearStrandLatches_calm (s : State) (l : Lane) (k : Strand) : (s.clearStrandLatches l k).calm = s.calm :=
  calm_of_side (State.clearStrandLatches_side ..)
@[simp] theorem State.releaseHolds_calm (s : State) : s.releaseHolds.calm = s.calm := calm_of_side (State.releaseHolds_side ..)
@[simp] theorem State.sendRetire_calm (s : State) (x : Lane) (c : LaneFault) : (s.sendRetire x c).calm = s.calm :=
  calm_of_side (State.sendRetire_side ..)
@[simp] theorem State.checkRetired_calm (s : State) (l : Lane) : (s.checkRetired l).calm = s.calm :=
  calm_of_side (State.checkRetired_side ..)
@[simp] theorem State.haltDevices_calm (s : State) (k : Strand) : (s.haltDevices k).calm = s.calm :=
  calm_of_side (State.haltDevices_side ..)
@[simp] theorem State.stopAllChans_calm (s : State) (p : PDie) : (s.stopAllChans p).calm = s.calm :=
  calm_of_side (State.stopAllChans_side ..)
@[simp] theorem State.fenceMgmt_calm (s : State) : s.fenceMgmt.calm = s.calm := calm_of_side (State.fenceMgmt_side ..)
@[simp] theorem State.showLaneView_calm (s : State) (x : Lane) : (s.showLaneView x).calm = s.calm := by
  rw [State.showLaneView, State.setView_calm]

/-! ### The operations of a lane -/

@[simp] theorem State.setReg_calm (s : State) (u : RUnit) (off : Nat) (v : Word) (h : calmReg u off = false) :
    (s.setReg u off v).calm = s.calm := by
  by_cases hu : laneUnit u = true
  · have hm : movedReg off = true := by simpa [calmReg, hu] using h
    have h1 : (fun (l : Lane) off' => if movedReg off' then 0 else (s.setReg u off v).reg l.unit off') =
        fun l off' => if movedReg off' then 0 else s.reg l.unit off' := by
      funext l off'
      by_cases he : off' = off
      · rw [he, hm]; rfl
      · rw [reg_setReg_other _ _ (.inr he)]
    have h2 : (fun (p : PDie) => (s.setReg u off v).reg p.unit Reg.lsStat) = fun p => s.reg p.unit Reg.lsStat := by
      funext p
      refine reg_setReg_other _ _ (.inl fun e => ?_)
      rw [← e, laneUnit_pdie] at hu
      exact absurd hu (by decide)
    show Calm.mk _ _ _ _ _ _ _ _ _ _ = _
    rw [h1, h2]
    rfl
  · exact calm_of_side (State.setReg_side _ _ _ _ (by simpa [calmReg, hu] using h))

@[simp] theorem State.setFld_calm (s : State) (u : RUnit) (off hi lo v : Nat) (h : calmReg u off = false) :
    (s.setFld u off hi lo v).calm = s.calm := by
  simp [State.setFld, h]

@[simp] theorem State.setFlag_calm (s : State) (u : RUnit) (off i : Nat) (b : Bool) (h : calmReg u off = false) :
    (s.setFlag u off i b).calm = s.calm := by
  simp [State.setFlag, h]

@[simp] theorem State.raiseMax_calm (s : State) (u : RUnit) (off hi lo v : Nat) (h : calmReg u off = false) :
    (s.raiseMax u off hi lo v).calm = s.calm := by
  simp [State.raiseMax, h]

theorem setLaneFld_calm (s : State) {off : Nat} (hi lo v : Nat) (h : movedReg off = true) :
    (s.setLaneFld off hi lo v).calm = s.calm := by
  have hc (u : RUnit) (hu : laneUnit u = true) : calmReg u off = false := by simp [calmReg, hu, h]
  rw [State.setLaneFld, State.setFld_calm _ _ _ _ _ _ (hc _ rfl), State.setFld_calm _ _ _ _ _ _ (hc _ rfl),
    State.setFld_calm _ _ _ _ _ _ (hc _ rfl)]

theorem calm_setReplica (s : State) (l : Lane) (k : Strand) (r : Replica) (h : r.calm = (s.replica l k).calm) :
    (s.setReplica l k r).calm = s.calm := by
  have h1 : (fun m => ((s.setReplica l k r).lane m).calm) = fun m => (s.lane m).calm := by
    funext m
    rw [State.setReplica, lane_setLane]
    split
    · next e => rw [e]; rfl
    · rfl
  have h2 : (fun m j => ((s.setReplica l k r).replica m j).calm) = fun m j => (s.replica m j).calm := by
    funext m j
    rw [replica_setReplica]
    split
    · next e => rw [e.1, e.2, h]
    · rfl
  have h3 : (fun m j => ((s.setReplica l k r).echo m j).calm) = fun m j => (s.echo m j).calm := by
    funext m j
    rw [echo_setReplica]
  show Calm.mk _ _ _ _ _ _ _ _ _ _ = _
  rw [h1, h2, h3]
  rfl

theorem calm_setEcho (s : State) (l : Lane) (k : Strand) (e : Echo) (h : e.calm = (s.echo l k).calm) :
    (s.setEcho l k e).calm = s.calm := by
  have h1 : (fun m => ((s.setEcho l k e).lane m).calm) = fun m => (s.lane m).calm := by
    funext m
    rw [State.setEcho, lane_setLane]
    split
    · next e => rw [e]; rfl
    · rfl
  have h2 : (fun m j => ((s.setEcho l k e).replica m j).calm) = fun m j => (s.replica m j).calm := by
    funext m j
    rw [replica_setEcho]
  have h3 : (fun m j => ((s.setEcho l k e).echo m j).calm) = fun m j => (s.echo m j).calm := by
    funext m j
    rw [echo_setEcho]
    split
    · next e => rw [e.1, e.2, h]
    · rfl
  show Calm.mk _ _ _ _ _ _ _ _ _ _ = _
  rw [h1, h2, h3]
  rfl

theorem State.setPending_calm (s : State) (l : Lane) (k : Strand) {v : Nat} (h : v < 256) :
    (s.setPending l k v).calm = s.calm := by
  unfold State.setPending
  split
  · exact State.setFlag_calm _ _ _ _ _ (calmReg_lnEvPend l k (by omega))
  · rfl

theorem latch_calm (s : State) (l : Lane) (k : Strand) (o : Occ) : (s.latch l k o).calm = s.calm := calm_setEcho _ _ _ _ rfl

@[simp] theorem State.latchChange_calm (s : State) (l : Lane) (k : Strand) (x : Lane) (ev : ReplEvent) :
    (s.latchChange l k x ev).calm = s.calm := by
  simp only [State.latchChange]
  split <;> exact latch_calm ..

@[simp] theorem State.latchChangeAll_calm (s : State) (k : Strand) (x : Lane) (ev : ReplEvent) :
    (s.latchChangeAll k x ev).calm = s.calm := calm_foldl _ (fun _ _ => State.latchChange_calm ..) _ _

@[simp] theorem State.showDebug_calm (s : State) (l : Lane) (k : Strand) : (s.showDebug l k).calm = s.calm :=
  calm_foldl _ (fun _ _ => State.setFld_calm _ _ _ _ _ _ (calmReg_rjDbg _)) _ _

@[simp] theorem State.applyChange_calm (s : State) (l : Lane) (k : Strand) (c : Change) (now : Dword) :
    (s.applyChange l k c now).calm = s.calm := by
  have hp (t : State) (v : Nat) (h : v < 256) : (t.setPending l k v).calm = t.calm := State.setPending_calm _ _ _ h
  have hf (t : State) (xs : List Lane) (hi lo v : Nat) :
      (xs.foldl (fun t x => t.setFld x.unit (Reg.lnRepl k) hi lo v) t).calm = t.calm :=
    calm_foldl _ (fun _ _ => State.setFld_calm _ _ _ _ _ _ (calmReg_lnRepl _ _)) _ _
  have hs (t : State) (x : Lane) : (t.setEcho l k { t.echo l k with asideAt := (t.echo l k).asideAt.set x (some t.ns) }).calm = t.calm :=
    calm_setEcho _ _ _ _ rfl
  cases hc : c.event <;>
    simp [State.applyChange, hc, hp, hf, hs, calm_mk, State.pruneChanges]

@[simp] theorem State.applyChangesAtHalt_calm (s : State) (l : Lane) (k : Strand) :
    (s.applyChangesAtHalt l k).calm = s.calm := calm_foldl _ (fun _ _ => State.applyChange_calm ..) _ _

@[simp] theorem State.showTcfg_calm (s : State) (k : Strand) (busy : Bool) (res : Option Nat) :
    (s.showTcfg k busy res).calm = s.calm := by
  refine calm_foldl _ (fun t l => ?_) _ _
  cases res <;> simp

@[simp] theorem State.refuseTcfg_calm (s : State) (k : Strand) (res : Nat) : (s.refuseTcfg k res).calm = s.calm := by
  rw [State.refuseTcfg, State.showTcfg_calm]
  rfl

@[simp] theorem State.tcfgFinish_calm (s : State) (k : Strand) (c : TcfgCommit) (a : Option Word) :
    (s.tcfgFinish k c a).calm = s.calm := by
  simp only [State.tcfgFinish, State.showTcfg_calm, calm_mk]
  refine calm_foldl _ (fun t x => ?_) _ _
  refine (calm_setEcho _ _ _ _ ?_).trans (State.setReg_calm _ _ _ _ (calmReg_lnTcfg _ _))
  rfl

@[simp] theorem State.tcfgSettle_calm (s : State) (k : Strand) : (s.tcfgSettle k).calm = s.calm := by
  unfold State.tcfgSettle
  (repeat' split) <;> simp [calm_mk]

@[simp] theorem State.recordStall_calm (s : State) (r : RejoinRun) : (s.recordStall r).calm = s.calm := by
  unfold State.recordStall
  split
  · rfl
  · exact calm_foldl _ (fun _ _ => by simp) _ _

@[simp] theorem State.resumePaused_calm (s : State) (k : Strand) : (s.resumePaused k).calm = s.calm := by
  refine calm_foldl _ (fun t l => ?_) _ _
  have he : (t.setEcho l k { t.echo l k with stallAt := none }).calm = t.calm := calm_setEcho _ _ _ _ rfl
  dsimp only
  split
  · exact (calm_setReplica _ _ _ _ (by rfl)).trans he
  · exact he

@[simp] theorem State.setRjResult_calm (s : State) (k : Strand) (res : Nat) : (s.setRjResult k res).calm = s.calm :=
  setLaneFld_calm _ _ _ _ (by cases k <;> decide)

@[simp] theorem State.setRjPhase_calm (s : State) (k : Strand) (ph : Nat) : (s.setRjPhase k ph).calm = s.calm :=
  setLaneFld_calm _ _ _ _ (by cases k <;> decide)

theorem setRjHist_calm (s : State) (k : Strand) (hi lo v : Nat) : (s.setLaneFld (Reg.rjHist k.idx) hi lo v).calm = s.calm :=
  setLaneFld_calm _ _ _ _ (by cases k <;> decide)

@[simp] theorem State.abandonRejoin_calm (s : State) (res : Nat) : (s.abandonRejoin res).calm = s.calm := by
  unfold State.abandonRejoin
  split
  · rfl
  · dsimp only
    rw [State.latchChangeAll_calm, State.resumePaused_calm, State.releaseHolds_calm, setRjHist_calm, State.setRjPhase_calm,
      State.setRjResult_calm]
    exact (State.setReg_calm _ _ _ _ (calmReg_rjDirty _ _)).trans (State.recordStall_calm ..)

@[simp] theorem State.abandonRejoinOf_calm (s : State) (k : Strand) (res : Nat) : (s.abandonRejoinOf k res).calm = s.calm := by
  unfold State.abandonRejoinOf
  split
  · simp
  · rfl

/-! ### What follows -/

section
variable {s t : State}

theorem replica_of_calm (h : t.calm = s.calm) (l : Lane) (k : Strand) : (t.replica l k).calm = (s.replica l k).calm :=
  congrFun (congrFun (congrArg Calm.repl h) l) k

theorem mode_of_calm (h : t.calm = s.calm) (l : Lane) (k : Strand) : (t.replica l k).mode = (s.replica l k).mode :=
  (congrArg Replica.mode (replica_of_calm h l k) :)

theorem echo_of_calm (h : t.calm = s.calm) (l : Lane) (k : Strand) : (t.echo l k).calm = (s.echo l k).calm :=
  congrFun (congrFun (congrArg Calm.echo h) l) k

theorem inStep_of_calm (h : t.calm = s.calm) (l : Lane) (k : Strand) : (t.echo l k).inStep = (s.echo l k).inStep :=
  (congrArg Echo.inStep (echo_of_calm h l k) :)

theorem halted_of_calm (h : t.calm = s.calm) (l : Lane) (k : Strand) : t.haltedAt l k = s.haltedAt l k :=
  (congrArg Echo.halted (echo_of_calm h l k) :)

theorem reg_of_calm (h : t.calm = s.calm) (l : Lane) {off : Nat} (ho : movedReg off = false) :
    t.reg l.unit off = s.reg l.unit off := by
  have h' := congrFun (congrFun (congrArg Calm.regs h) l) off
  simpa [State.calm, ho] using h'

theorem retired_of_calm (h : t.calm = s.calm) (l : Lane) : t.retired l = s.retired l :=
  retired_congr (fun x => reg_of_calm h x (by decide)) l

theorem liveLanes_of_calm (h : t.calm = s.calm) : t.liveLanes = s.liveLanes := liveLanes_congr (retired_of_calm h)

end

end Sys2Proof.Machine
end

-- ==== Proofs: what is not logged ====
section
/-! A halt makes its own log entry; what comes before it (the end of a rejoin, the changes a lane applies, a
retirement notice) leaves the log as it was. -/

namespace Sys2Proof.Machine

theorem log_foldl {β : Type} (g : State → β → State) (hg : ∀ t x, (g t x).log = t.log) (xs : List β) (s : State) :
    (xs.foldl g s).log = s.log := by
  induction xs generalizing s with
  | nil => rfl
  | cons x xs ih => rw [List.foldl_cons, ih, hg]

@[simp] theorem log_ite (c : Prop) [Decidable c] (x y : State) :
    (if c then x else y).log = if c then x.log else y.log := by split <;> rfl

@[simp] theorem State.setFld_log (s : State) (u : RUnit) (off hi lo v : Nat) : (State.setFld s u off hi lo v).log = s.log := by
  simp [State.setFld]

@[simp] theorem State.setFlag_log (s : State) (u : RUnit) (off i : Nat) (b : Bool) : (State.setFlag s u off i b).log = s.log := by
  simp [State.setFlag]

@[simp] theorem State.bumpBy_log (s : State) (u : RUnit) (off hi lo n : Nat) : (State.bumpBy s u off hi lo n).log = s.log := by
  simp [State.bumpBy]

@[simp] theorem State.bump_log (s : State) (u : RUnit) (off hi lo : Nat) : (State.bump s u off hi lo).log = s.log := by
  simp [State.bump]

@[simp] theorem State.raiseMax_log (s : State) (u : RUnit) (off hi lo v : Nat) : (State.raiseMax s u off hi lo v).log = s.log := by
  simp [State.raiseMax]

@[simp] theorem State.setLaneFld_log (s : State) (off hi lo v : Nat) : (State.setLaneFld s off hi lo v).log = s.log := by
  simp [State.setLaneFld]

@[simp] theorem State.sendOne_log (s : State) (w : Wire) : (State.sendOne s w).log = s.log := by
  unfold State.sendOne
  split <;> simp

@[simp] theorem State.countOcc_log (s : State) (d : Die) (k : Strand) : (State.countOcc s d k).log = s.log := by
  simp [State.countOcc]

@[simp] theorem State.raise_log (s : State) (d : Die) (k : Strand) (v : Nat) : (State.raise s d k v).log = s.log := by
  simp [State.raise]

@[simp] theorem State.pwFail_log (s : State) (d : Die) (k : Option Strand) (r : WerrRec) : (State.pwFail s d k r).log = s.log := by
  unfold State.pwFail
  split <;> simp

@[simp] theorem State.loseWrite_log (s : State) (l : Lane) (w : Broadcast) (cause : Nat) : (State.loseWrite s l w cause).log = s.log := by
  unfold State.loseWrite
  split <;> simp

@[simp] theorem State.broadcastTo_log (s : State) (w : Broadcast) (l : Lane) : (State.broadcastTo s w l).log = s.log := by
  unfold State.broadcastTo
  (repeat' split) <;> simp [log_foldl]

@[simp] theorem State.broadcastNow_log (s : State) (w : Broadcast) : (State.broadcastNow s w).log = s.log := by
  unfold State.broadcastNow
  (repeat' split) <;> simp [log_foldl]

@[simp] theorem State.showHold_log (s : State) (p : PDie) : (State.showHold s p).log = s.log := by
  simp [State.showHold]

@[simp] theorem State.keepWrite_log (s : State) (p : PDie) (h : HeldWrite) : (State.keepWrite s p h).log = s.log := by
  simp [State.keepWrite]

@[simp] theorem State.setPending_log (s : State) (l : Lane) (k : Strand) (v : Nat) : (State.setPending s l k v).log = s.log := by
  simp [State.setPending]

@[simp] theorem State.setLCause_log (s : State) (l : Lane) (k : Strand) (c : Cause) (repl : Option Lane) : (State.setLCause s l k c repl).log = s.log := by
  simp [State.setLCause]

@[simp] theorem State.showSump_log (s : State) (d : Die) (k : Strand) : (State.showSump s d k).log = s.log := by
  simp [State.showSump, log_foldl]

@[simp] theorem State.disturb_log (s : State) : (State.disturb s).log = s.log := by
  simp [State.disturb]

@[simp] theorem State.setOut_log (s : State) (n : Nat) (o : OutState) : (State.setOut s n o).log = s.log := by
  simp [State.setOut]

@[simp] theorem State.refreshOut_log (s : State) (n : Nat) : (State.refreshOut s n).log = s.log := by
  simp [State.refreshOut]

@[simp] theorem State.refreshOuts_log (s : State) : (State.refreshOuts s).log = s.log := by
  simp [State.refreshOuts, log_foldl]

@[simp] theorem State.setLatches_log (s : State) (l : Lane) (pend active : BitVec 16) : (State.setLatches s l pend active).log = s.log := by
  simp [State.setLatches]

@[simp] theorem State.clearLatches_log (s : State) (l : Lane) (mask : BitVec 16) : (State.clearLatches s l mask).log = s.log := by
  simp [State.clearLatches]

@[simp] theorem State.clearStrandLatches_log (s : State) (l : Lane) (k : Strand) : (State.clearStrandLatches s l k).log = s.log := by
  simp [State.clearStrandLatches]

@[simp] theorem State.setChan_log (s : State) (p : PDie) (ch : Nat) (c : Chan) : (State.setChan s p ch c).log = s.log := by
  simp [State.setChan]

@[simp] theorem State.setChState_log (s : State) (p : PDie) (ch : Nat) (x : ChState) : (State.setChState s p ch x).log = s.log := by
  simp [State.setChState]

@[simp] theorem State.dropFetches_log (s : State) (p : PDie) (ch : Nat) : (State.dropFetches s p ch).log = s.log := by
  simp [State.dropFetches]

@[simp] theorem State.stopChan_log (s : State) (p : PDie) (ch : Nat) : (State.stopChan s p ch).log = s.log := by
  simp [State.stopChan]

@[simp] theorem State.haltChan_log (s : State) (p : PDie) (ch : Nat) : (State.haltChan s p ch).log = s.log := by
  simp [State.haltChan]

@[simp] theorem State.dropHeldWb_log (s : State) (p : PDie) (k : Strand) : (State.dropHeldWb s p k).log = s.log := by
  simp [State.dropHeldWb]

@[simp] theorem State.haltChansOf_log (s : State) (k : Strand) : (State.haltChansOf s k).log = s.log := by
  simp [State.haltChansOf, log_foldl]

@[simp] theorem State.releaseWb_log (s : State) (p : PDie) (l : Lane) : (State.releaseWb s p l).log = s.log := by
  simp [State.releaseWb, log_foldl]

@[simp] theorem State.releaseWbs_log (s : State) (p : PDie) : (State.releaseWbs s p).log = s.log := by
  simp [State.releaseWbs, log_foldl]

@[simp] theorem State.sendWb_log (s : State) (p : PDie) (h : HeldWrite) : (State.sendWb s p h).log = s.log := by
  simp [State.sendWb, log_foldl]

@[simp] theorem State.unstall_log (s : State) (p : PDie) (k : Strand) : (State.unstall s p k).log = s.log := by
  simp [State.unstall, log_foldl]

@[simp] theorem State.voterStop_log (s : State) (d : Die) (k : Strand) : (State.voterStop s d k).log = s.log := by
  simp [State.voterStop]

@[simp] theorem State.latch_log (s : State) (l : Lane) (k : Strand) (o : Occ) : (State.latch s l k o).log = s.log := by
  simp [State.latch]

@[simp] theorem State.latchChange_log (s : State) (l : Lane) (k : Strand) (x : Lane) (ev : ReplEvent) : (State.latchChange s l k x ev).log = s.log := by
  unfold State.latchChange
  split <;> simp

@[simp] theorem State.latchChangeAll_log (s : State) (k : Strand) (x : Lane) (ev : ReplEvent) : (State.latchChangeAll s k x ev).log = s.log := by
  simp [State.latchChangeAll, log_foldl]

@[simp] theorem State.showDebug_log (s : State) (l : Lane) (k : Strand) : (State.showDebug s l k).log = s.log := by
  simp [State.showDebug, log_foldl]

@[simp] theorem State.pruneChanges_log (s : State) (k : Strand) : (State.pruneChanges s k).log = s.log := by
  simp [State.pruneChanges]

@[simp] theorem State.applyChange_log (s : State) (l : Lane) (k : Strand) (c : Change) (now : Dword) : (State.applyChange s l k c now).log = s.log := by
  unfold State.applyChange
  (repeat' split) <;> simp [log_foldl]

@[simp] theorem State.applyChangesAtHalt_log (s : State) (l : Lane) (k : Strand) : (State.applyChangesAtHalt s l k).log = s.log := by
  simp [State.applyChangesAtHalt, log_foldl]

@[simp] theorem State.popAll_log (s : State) (l : Lane) (k : Strand) : (State.popAll s l k).log = s.log := by
  simp [State.popAll]

@[simp] theorem State.releaseHold_log (s : State) (p : PDie) : (State.releaseHold s p).log = s.log := by
  unfold State.releaseHold
  (repeat' split) <;> simp [log_foldl]

@[simp] theorem State.releaseHolds_log (s : State) : (State.releaseHolds s).log = s.log := by
  simp [State.releaseHolds]

@[simp] theorem State.recordStall_log (s : State) (r : RejoinRun) : (State.recordStall s r).log = s.log := by
  unfold State.recordStall
  (repeat' split) <;> simp [log_foldl]

@[simp] theorem State.resumePaused_log (s : State) (k : Strand) : (State.resumePaused s k).log = s.log := by
  simp [State.resumePaused, log_foldl]

@[simp] theorem State.setRjResult_log (s : State) (k : Strand) (res : Nat) : (State.setRjResult s k res).log = s.log := by
  simp [State.setRjResult]

@[simp] theorem State.setRjPhase_log (s : State) (k : Strand) (ph : Nat) : (State.setRjPhase s k ph).log = s.log := by
  simp [State.setRjPhase]

@[simp] theorem State.abandonRejoin_log (s : State) (res : Nat) : (State.abandonRejoin s res).log = s.log := by
  unfold State.abandonRejoin
  split <;> simp

@[simp] theorem State.abandonRejoinOf_log (s : State) (k : Strand) (res : Nat) : (State.abandonRejoinOf s k res).log = s.log := by
  unfold State.abandonRejoinOf
  split <;> simp

@[simp] theorem State.sendRetire_log (s : State) (x : Lane) (c : LaneFault) : (State.sendRetire s x c).log = s.log := by
  simp [State.sendRetire]

@[simp] theorem State.checkRetired_log (s : State) (l : Lane) : (State.checkRetired s l).log = s.log := by
  simp [State.checkRetired, log_foldl]


end Sys2Proof.Machine
end

-- ==== Proofs: halts and exclusions ====
section
/-! What a halt and an exclusion do in a lane (R101, R102, R128), and what no agreement, halt or exclusion takes back: a
replica that left a set, and a core that was stopped with nothing under way. -/

namespace Sys2Proof.Machine

/-! ### A halt in one lane -/

/-- What happens in a lane before the core stops: the strand's rejoin ends, and the changes are applied (R129, R145). -/
def State.beforeHalt (s : State) (l : Lane) (k : Strand) : State :=
  State.checkRetired (State.applyChangesAtHalt
    (if (!s.liveLanes.any fun x => s.haltedAt x k) = true then s.abandonRejoinOf k 0x23 else s) l k) l

/-- The Echo unit and the replica of a halted strand (R102, R128). -/
def State.stopStrand (s : State) (l : Lane) (k : Strand) : State :=
  let t := State.popAll (s.setEcho l k { s.echo l k with halted := true, splitWait := none, stallAt := none }) l k
  t.setReplica l k { t.replica l k with
    mode := if (t.replica l k).mode = .debugHalted then .debugHalted else .stopped
    load := none, out := [], sqOpen := [], sqEnding := [] }

/-- The log entry of a halt, after the lane's outputs went off (R129, R333). -/
def State.logHalt (s : State) (l : Lane) (k : Strand) (c : Cause) (repl : Option Lane) : State :=
  let t := s.clearStrandLatches l k
  t.logEv l.idx (some k) .strandHalt [Cause.code c, replCode repl, (t.reg64 l.unit (Reg.lnPointLo k)).toNat]

/-- A starved strand shows as such (R60). -/
def State.showStarved (s : State) (l : Lane) (k : Strand) (c : Cause) : State :=
  if c = .starved then s.setFlag l.unit (Reg.ecStat k.idx) 2 true else s

theorem haltAt_eq {s : State} {l : Lane} {k : Strand} (hh : s.haltedAt l k = false) (hr : s.retired l = false)
    (c : Cause) (repl : Option Lane) :
    s.haltAt l k c repl =
      (let u := ((((s.beforeHalt l k).stopStrand l k).logHalt l k c repl).showStarved l k c)
      if (!s.liveLanes.any fun x => s.haltedAt x k) = true then u.haltDevices k else u) :=
  if_neg (by simp [hh, hr])

theorem haltAt_idle {s : State} {l : Lane} {k : Strand} (h : s.haltedAt l k = true ∨ s.retired l = true)
    (c : Cause) (repl : Option Lane) : s.haltAt l k c repl = s ∧ s.haltOwn l k c repl = s :=
  have h' : (s.haltedAt l k || s.retired l) = true := by rcases h with h | h <;> simp [h]
  ⟨if_pos h', if_pos h'⟩

theorem haltOwn_eq {s : State} {l : Lane} {k : Strand} (hh : s.haltedAt l k = false) (hr : s.retired l = false)
    (c : Cause) (repl : Option Lane) : s.haltOwn l k c repl = (s.setLCause l k c repl).haltAt l k c repl :=
  if_neg (by simp [hh, hr])

theorem beforeHalt_calm (s : State) (l : Lane) (k : Strand) : (s.beforeHalt l k).calm = s.calm := by
  simp only [State.beforeHalt, State.checkRetired_calm, State.applyChangesAtHalt_calm, calm_ite,
    State.abandonRejoinOf_calm, ite_self]

theorem beforeHalt_log (s : State) (l : Lane) (k : Strand) : (s.beforeHalt l k).log = s.log := by
  simp [State.beforeHalt]

/-- The end of a halt leaves the strands as the lane stopped them. -/
theorem haltAt_calm {s : State} {l : Lane} {k : Strand} (hh : s.haltedAt l k = false) (hr : s.retired l = false)
    (c : Cause) (repl : Option Lane) :
    (s.haltAt l k c repl).calm = ((((s.beforeHalt l k).stopStrand l k).logHalt l k c repl).showStarved l k c).calm := by
  rw [haltAt_eq hh hr]
  dsimp only
  split
  · exact State.haltDevices_calm ..
  · rfl

theorem logHalt_calm (s : State) (l : Lane) (k : Strand) (c : Cause) (repl : Option Lane) :
    (s.logHalt l k c repl).calm = s.calm := by
  simp only [State.logHalt, State.logEv_calm, State.clearStrandLatches_calm]

theorem replica_showStarved (s : State) (l : Lane) (k : Strand) (c : Cause) (m : Lane) (j : Strand) :
    (s.showStarved l k c).replica m j = s.replica m j := by
  unfold State.showStarved
  split <;> rfl

theorem echo_showStarved (s : State) (l : Lane) (k : Strand) (c : Cause) (m : Lane) (j : Strand) :
    (s.showStarved l k c).echo m j = s.echo m j := by
  unfold State.showStarved
  split <;> rfl

theorem reg_showStarved_other (s : State) (l : Lane) (k : Strand) (c : Cause) {u : RUnit} {off : Nat}
    (h : off ≠ Reg.ecStat k.idx) : (s.showStarved l k c).reg u off = s.reg u off := by
  unfold State.showStarved
  split
  · exact reg_setFlag_other _ _ _ (.inr h)
  · rfl

theorem reg_stopStrand (s : State) (l : Lane) (k : Strand) (u : RUnit) (off : Nat) :
    (s.stopStrand l k).reg u off = s.reg u off := rfl

theorem replica_stopStrand (s : State) (l : Lane) (k : Strand) :
    (s.stopStrand l k).replica l k = { s.replica l k with
      mode := if (s.replica l k).mode = .debugHalted then .debugHalted else .stopped
      load := none, out := [], sqOpen := [], sqEnding := [] } := by
  simp only [State.stopStrand, State.popAll, replica_setReplica, replica_setEcho, and_self, if_true]

theorem replica_stopStrand_other (s : State) {l m : Lane} {k j : Strand} (h : ¬ (m = l ∧ j = k)) :
    (s.stopStrand l k).replica m j = s.replica m j := by
  simp only [State.stopStrand, State.popAll, replica_setReplica, replica_setEcho, if_neg h]

theorem echo_stopStrand (s : State) (l : Lane) (k : Strand) :
    ((s.stopStrand l k).echo l k).halted = true ∧ ((s.stopStrand l k).echo l k).inQ = Quad.all [] ∧
      ((s.stopStrand l k).echo l k).inStep = (s.echo l k).inStep ∧
      ((s.stopStrand l k).echo l k).latched = (s.echo l k).latched := by
  simp [State.stopStrand, State.popAll, echo_setReplica, echo_setEcho]

theorem echo_stopStrand_other (s : State) {l m : Lane} {k j : Strand} (h : ¬ (m = l ∧ j = k)) :
    (s.stopStrand l k).echo m j = s.echo m j := by
  simp only [State.stopStrand, State.popAll, echo_setReplica, echo_setEcho, if_neg h]

section
variable {s : State} {l : Lane} {k : Strand} (hh : s.haltedAt l k = false) (hr : s.retired l = false) (c : Cause)
  (repl : Option Lane)
include hh hr

theorem haltAt_replica (m : Lane) (j : Strand) : ((s.haltAt l k c repl).replica m j).calm =
    (((s.beforeHalt l k).stopStrand l k).replica m j).calm := by
  rw [replica_of_calm (haltAt_calm hh hr c repl), replica_showStarved]
  exact replica_of_calm (logHalt_calm ..) m j

theorem haltAt_echo (m : Lane) (j : Strand) : ((s.haltAt l k c repl).echo m j).calm =
    (((s.beforeHalt l k).stopStrand l k).echo m j).calm := by
  rw [echo_of_calm (haltAt_calm hh hr c repl), echo_showStarved]
  exact echo_of_calm (logHalt_calm ..) m j

theorem haltAt_reg {off : Nat} (x : Lane) (hm : movedReg off = false) (ho : off ≠ Reg.ecStat k.idx) :
    (s.haltAt l k c repl).reg x.unit off = s.reg x.unit off := by
  rw [reg_of_calm (haltAt_calm hh hr c repl) x hm, reg_showStarved_other _ _ _ _ ho,
    reg_of_calm (logHalt_calm ..) x hm, reg_stopStrand, reg_of_calm (beforeHalt_calm ..) x hm]

/-- The core of the halted replica stops, a debugged one stays in its debugger, and nothing is under way. -/
theorem haltAt_stops :
    ((s.haltAt l k c repl).replica l k).mode =
        (if (s.replica l k).mode = .debugHalted then .debugHalted else .stopped) ∧
      ((s.haltAt l k c repl).replica l k).out = [] ∧ ((s.haltAt l k c repl).replica l k).load = none := by
  have h := haltAt_replica hh hr c repl l k
  rw [replica_stopStrand] at h
  refine ⟨(congrArg Replica.mode h :).trans ?_, (congrArg Replica.out h :), (congrArg Replica.load h :)⟩
  show (if ((s.beforeHalt l k).replica l k).mode = .debugHalted then _ else _) = _
  rw [mode_of_calm (beforeHalt_calm ..)]

theorem haltAt_other {m : Lane} {j : Strand} (h : ¬ (m = l ∧ j = k)) :
    ((s.haltAt l k c repl).replica m j).calm = (s.replica m j).calm ∧
      ((s.haltAt l k c repl).echo m j).calm = (s.echo m j).calm := by
  rw [haltAt_replica hh hr, haltAt_echo hh hr, replica_stopStrand_other _ h, echo_stopStrand_other _ h]
  exact ⟨replica_of_calm (beforeHalt_calm ..) m j, echo_of_calm (beforeHalt_calm ..) m j⟩

theorem haltAt_halts : (s.haltAt l k c repl).haltedAt l k = true ∧
    ((s.haltAt l k c repl).echo l k).inQ = Quad.all [] := by
  have h := haltAt_echo hh hr c repl l k
  obtain ⟨h1, h2, -, -⟩ := echo_stopStrand (s.beforeHalt l k) l k
  exact ⟨(congrArg Echo.halted h :).trans h1, (congrArg Echo.inQ h :).trans h2⟩

theorem haltAt_inStep (m : Lane) (j : Strand) : ((s.haltAt l k c repl).echo m j).inStep = (s.echo m j).inStep := by
  by_cases h : m = l ∧ j = k
  · obtain ⟨rfl, rfl⟩ := h
    exact ((congrArg Echo.inStep (haltAt_echo hh hr c repl m j) :).trans (echo_stopStrand _ m j).2.2.1).trans
      (inStep_of_calm (beforeHalt_calm ..) m j)
  · exact (congrArg Echo.inStep (haltAt_other hh hr c repl h).2 :)

end

/-! ### The log of a halt -/

/-- The entry lies among the newest `n` of the log. -/
def State.logsWithin (s : State) (n : Nat) (p : LogEntry → Prop) : Prop :=
  ∃ i e, i ≤ n ∧ s.log.entries[i]? = some e ∧ p e

theorem bumpFlood_getElem? (src : Nat) (es : List LogEntry) (i : Nat) {e : LogEntry} (h : es[i]? = some e)
    (hc : e.code ≠ .logFlood) : (bumpFlood src es)[i]? = some e := by
  induction es generalizing i with
  | nil => simp at h
  | cons x xs ih =>
    rw [bumpFlood]
    cases i with
    | zero =>
      obtain rfl : x = e := by simpa using h
      rw [if_neg (fun hx => hc hx.1)]
      rfl
    | succ i =>
      have h' : xs[i]? = some e := by simpa using h
      split
      · simpa using h'
      · simpa using ih i h'

/-- One event more moves an entry by one place, while the ring has room for both. -/
theorem logsWithin_logEv {s : State} {n : Nat} {p : LogEntry → Prop} (hn : n + 1 < logRing)
    (hp : ∀ e, p e → e.code ≠ .logFlood) (h : s.logsWithin n p)
    (src : Nat) (k : Option Strand) (code : LogCode) (arg : List Nat) :
    (s.logEv src k code arg).logsWithin (n + 1) p := by
  obtain ⟨i, e, hi, he, hpe⟩ := h
  have append (t : State) (c : LogCode) (q : Option Strand) (a : List Nat) (ht : t.log.entries[i]? = some e) :
      (t.appendLog c src q a).logsWithin (n + 1) p := by
    refine ⟨i + 1, e, by omega, ?_, hpe⟩
    rw [State.appendLog, List.getElem?_take_of_lt (by omega)]
    simpa using ht
  unfold State.logEv
  dsimp only
  (repeat' split)
  · exact ⟨i, e, by omega, he, hpe⟩
  · exact append _ _ _ _ he
  · exact append _ _ _ _ he
  · exact ⟨i, e, by omega, bumpFlood_getElem? _ _ _ he (hp e hpe), hpe⟩

theorem logsWithin_of_log {s t : State} {n : Nat} {p : LogEntry → Prop} (h : t.log = s.log) (hs : s.logsWithin n p) :
    t.logsWithin n p := by
  obtain ⟨i, e, hi, he, hpe⟩ := hs
  exact ⟨i, e, hi, by rwa [h], hpe⟩

theorem logsWithin_freeLocksOf {s : State} {p : LogEntry → Prop} (hp : ∀ e, p e → e.code ≠ .logFlood)
    (h : s.logsWithin 0 p) (owner : Nat) : (s.freeLocksOf owner).logsWithin 64 p := by
  have step (is : List Nat) (t : State) (n : Nat) (hn : n + is.length < logRing) (ht : t.logsWithin n p) :
      (is.foldl (fun t i => if t.lockOwner i = owner then t.forceLock i owner else t) t).logsWithin
        (n + is.length) p := by
    induction is generalizing t n with
    | nil => exact ht
    | cons i is ih =>
      rw [List.length_cons] at hn ⊢
      rw [List.foldl_cons, show n + (is.length + 1) = n + 1 + is.length by omega]
      refine ih _ (n + 1) (by omega) ?_
      split
      · exact logsWithin_logEv (s := (t.freeLock i).bump .m Reg.smStat 15 8) (by omega) hp (logsWithin_of_log rfl ht) _ _ _ _
      · obtain ⟨j, e, hj, he, hpe⟩ := ht
        exact ⟨j, e, by omega, he, hpe⟩
  have h64 := step (List.range 64) s 0 (by simp only [List.length_range, logRing]; omega) h
  unfold State.freeLocksOf
  simpa using h64

theorem logsWithin_haltDevices {s : State} {p : LogEntry → Prop} (hp : ∀ e, p e → e.code ≠ .logFlood)
    (h : s.logsWithin 0 p) (k : Strand) : (s.haltDevices k).logsWithin 64 p := by
  have hv : (s.dies.foldl (fun t d => t.voterStop d k) s).log = s.log := log_foldl _ (fun _ _ => State.voterStop_log ..) _ _
  refine logsWithin_of_log ?_ (logsWithin_freeLocksOf hp (logsWithin_of_log hv h) (2 + k.idx))
  simp only [State.haltDevices, State.disturb_log]
  rw [log_foldl _ (fun _ _ => State.raise_log ..), State.haltChansOf_log]

/-- Below the limit of its source, a halt is in the log, and the locks freed with it do not push it out. -/
theorem haltAt_logs {s : State} {l : Lane} {k : Strand} (hh : s.haltedAt l k = false) (hr : s.retired l = false)
    (hm : s.consumers.m.running = true) (hf : s.floodCount l.idx < 64) (c : Cause) (repl : Option Lane) :
    ∃ e ∈ (s.haltAt l k c repl).log.entries,
      e.code = .strandHalt ∧ e.src = l.idx ∧ e.strand = some k ∧ e.arg.headD 0 = Cause.code c := by
  let p (e : LogEntry) : Prop := e.code = .strandHalt ∧ e.src = l.idx ∧ e.strand = some k ∧ e.arg.headD 0 = Cause.code c
  have hp (e : LogEntry) (h : p e) : e.code ≠ .logFlood := by rw [h.1]; decide
  let u := ((s.beforeHalt l k).stopStrand l k).clearStrandLatches l k
  have hlog : u.log = s.log := (State.clearStrandLatches_log ..).trans (beforeHalt_log s l k)
  have hcalm : u.calm = ((s.beforeHalt l k).stopStrand l k).calm := State.clearStrandLatches_calm ..
  have hrun : u.consumers.m.running = true := by
    have h1 := congrFun (congrArg Calm.running hcalm) .m
    have h2 := congrFun (congrArg Calm.running (beforeHalt_calm s l k)) .m
    exact (h1.trans h2).trans hm
  have hns : u.ns = s.ns := (congrArg Calm.ns hcalm :).trans (congrArg Calm.ns (beforeHalt_calm s l k) :)
  have hfl : u.floodCount l.idx < 64 := by rwa [State.floodCount, hlog, hns]
  have hent : (((s.beforeHalt l k).stopStrand l k).logHalt l k c repl).logsWithin 0 p := by
    have h := logEv_entry hrun hfl (some k) .strandHalt
      [Cause.code c, replCode repl, (u.reg64 l.unit (Reg.lnPointLo k)).toNat]
    rw [Option.map_eq_some_iff] at h
    obtain ⟨e, he, hv⟩ := h
    simp only [Prod.mk.injEq] at hv
    obtain ⟨h1, h2, h3, h4⟩ := hv
    exact ⟨0, e, le_rfl, by rwa [← List.head?_eq_getElem?], h1, h2, h3, by rw [h4]; rfl⟩
  have hst : ((((s.beforeHalt l k).stopStrand l k).logHalt l k c repl).showStarved l k c).logsWithin 0 p := by
    refine logsWithin_of_log ?_ hent
    unfold State.showStarved
    split <;> simp
  rw [haltAt_eq hh hr]
  have hall : (let u := ((((s.beforeHalt l k).stopStrand l k).logHalt l k c repl).showStarved l k c)
      if (!s.liveLanes.any fun x => s.haltedAt x k) = true then u.haltDevices k else u).logsWithin 64 p := by
    dsimp only
    split
    · exact logsWithin_haltDevices hp hst k
    · obtain ⟨i, e, hi, he, hpe⟩ := hst
      exact ⟨i, e, by omega, he, hpe⟩
  obtain ⟨i, e, -, he, hpe⟩ := hall
  exact ⟨e, List.mem_of_getElem? he, hpe⟩

end Sys2Proof.Machine
end

-- ==== Proofs: what exclusions leave ====
section
/-! What an exclusion does in a lane (R101), and what no agreement, halt or exclusion takes back. -/

namespace Sys2Proof.Machine

/-- The lanes that took no part in a commit take its value (R80). -/
def State.takeValue (s : State) (k : Strand) (c : TcfgCommit) (a : Option Word) : State :=
  (s.liveLanes.filter fun x => !c.took.contains x).foldl (fun t x =>
    (t.setReg x.unit (Reg.lnTcfg k) c.value).setEcho x k { t.echo x k with tcfgFrom := none, tcfgTook := a }) s

theorem tcfgFinish_eq (s : State) (k : Strand) (c : TcfgCommit) (a : Option Word) :
    s.tcfgFinish k c a = State.showTcfg { s.takeValue k c a with tcfg := (s.takeValue k c a).tcfg.set k none } k false (some 0) :=
  rfl

/-- What the registers of the rejoin units show once a rejoin is abandoned (R145). -/
def State.rejoinOver (s : State) (r : RejoinRun) (res : Nat) : State :=
  let t := { (s.recordStall r).setReg r.donor.unit (Reg.rjDirty r.strand.idx) 0 with rejoin := none }
  ((t.setRjResult r.strand res).setRjPhase r.strand 0).setLaneFld (Reg.rjHist r.strand.idx)
    (17 + 2 * r.target.idx) (16 + 2 * r.target.idx) (min 3 (t.abn r.donor r.strand r.target + 1))

theorem abandonRejoin_eq {s : State} {r : RejoinRun} (h : s.rejoin = some r) (res : Nat) : s.abandonRejoin res =
    ((s.rejoinOver r res).releaseHolds.resumePaused r.strand).latchChangeAll r.strand r.target .abandoned := by
  simp only [State.abandonRejoin, h, State.rejoinOver]

theorem abandonRejoin_none {s : State} (h : s.rejoin = none) (res : Nat) : s.abandonRejoin res = s := by
  simp only [State.abandonRejoin, h]

theorem rejoinOver_lanes (s : State) (r : RejoinRun) (res : Nat) : (s.rejoinOver r res).lanes = s.lanes := by
  simp only [State.rejoinOver, State.setLaneFld, State.setFld, State.setRjPhase, State.setRjResult, State.setReg_lanes]
  unfold State.recordStall
  split <;> rfl

/-! ### Latched occurrences stay latched -/

/-- Every occurrence latched before is latched after. -/
structure Latches (s t : State) : Prop where
  stays : ∀ m j, ∀ h ∈ (s.echo m j).latched, h ∈ (t.echo m j).latched

theorem Latches.refl (s : State) : Latches s s := ⟨fun _ _ _ h => h⟩

theorem lanes_foldl {β : Type} (g : State → β → State) (hg : ∀ t x, (g t x).lanes = t.lanes) (xs : List β) (s : State) :
    (xs.foldl g s).lanes = s.lanes := by
  induction xs generalizing s with
  | nil => rfl
  | cons x xs ih => rw [List.foldl_cons, ih, hg]

section
variable {s t u : State} (h : Latches s t)
include h

theorem Latches.trans (h' : Latches t u) : Latches s u := ⟨fun m j x hx => h'.stays m j x (h.stays m j x hx)⟩

theorem Latches.echoes (hu : ∀ m j, u.echo m j = t.echo m j) : Latches s u :=
  ⟨fun m j x hx => by rw [hu m j]; exact h.stays m j x hx⟩

theorem Latches.lanes (hu : u.lanes = t.lanes) : Latches s u := h.echoes (echo_of_lanes hu)

theorem Latches.side (hu : u.side = t.side) : Latches s u :=
  ⟨fun m j x hx => by rw [latched_of_side hu m j]; exact h.stays m j x hx⟩

theorem Latches.ite {c : Prop} [Decidable c] (h' : Latches s u) : Latches s (if c then t else u) := by
  split
  · exact h
  · exact h'

theorem Latches.foldl {β : Type} (g : State → β → State) (hg : ∀ t x, Latches s t → Latches s (g t x)) (xs : List β) :
    Latches s (xs.foldl g t) := by
  induction xs generalizing t with
  | nil => exact h
  | cons x xs ih => exact ih (hg t x h)

theorem Latches.setEcho (l : Lane) (k : Strand) {e : Echo} (he : ∀ x ∈ (t.echo l k).latched, x ∈ e.latched) :
    Latches s (t.setEcho l k e) := by
  refine ⟨fun m j x hx => ?_⟩
  have hx' := h.stays m j x hx
  rw [echo_setEcho]
  split
  · next hm => rw [hm.1, hm.2] at hx'; exact he x hx'
  · exact hx'

theorem Latches.latch (l : Lane) (k : Strand) (o : Occ) : Latches s (t.latch l k o) :=
  h.setEcho _ _ fun _ hx => List.mem_append_left _ hx

theorem Latches.latchChange (l : Lane) (k : Strand) (x : Lane) (ev : ReplEvent) : Latches s (t.latchChange l k x ev) := by
  simp only [State.latchChange]
  split
  · exact .latch (h.lanes (by rfl)) ..
  · exact .latch (h.lanes (by rfl)) ..

theorem Latches.latchChangeAll (k : Strand) (x : Lane) (ev : ReplEvent) : Latches s (t.latchChangeAll k x ev) :=
  h.foldl _ (fun _ _ ht => ht.latchChange ..) _

theorem Latches.resumePaused (k : Strand) : Latches s (t.resumePaused k) := by
  refine h.foldl _ (fun u l hu => ?_) _
  have he : Latches s (u.setEcho l k { u.echo l k with stallAt := none }) := hu.setEcho _ _ fun _ hx => hx
  exact .ite (he.echoes fun m j => echo_setReplica ..) he

theorem Latches.abandonRejoin (res : Nat) : Latches s (t.abandonRejoin res) := by
  cases hr : t.rejoin with
  | none => rw [abandonRejoin_none hr]; exact h
  | some r =>
    rw [abandonRejoin_eq hr]
    exact .latchChangeAll (.resumePaused (.side (h.lanes (rejoinOver_lanes ..)) (State.releaseHolds_side _)) _) ..

theorem Latches.setPending (l : Lane) (k : Strand) (v : Nat) : Latches s (t.setPending l k v) :=
  h.lanes (setPending_lanes ..)

theorem Latches.setAside (l : Lane) (k : Strand) (a : Tri (Option Nat)) :
    Latches s (t.setEcho l k { t.echo l k with asideAt := a }) := h.setEcho _ _ fun _ hx => hx

theorem Latches.showDebug (l : Lane) (k : Strand) : Latches s (t.showDebug l k) := by
  simp only [State.showDebug]
  exact h.lanes (lanes_foldl _ (fun _ _ => by rfl) _ _)

theorem Latches.applyChange (l : Lane) (k : Strand) (c : Change) (now : Dword) :
    Latches s (t.applyChange l k c now) := by
  have h1 (u : State) (hu : u.lanes = t.lanes) (xs : List Lane) (hi lo v : Nat) :
      Latches s ((xs.foldl (fun t x => t.setFld x.unit (Reg.lnRepl k) hi lo v) u).showDebug l k) :=
    .showDebug ((h.lanes hu).lanes (lanes_foldl _ (fun _ _ => by rfl) _ _)) ..
  have h2 (u v : State) (hu : Latches s u) (hv : Latches s v) (b b' : Prop) [Decidable b] [Decidable b'] :
      Latches s (if b' then (if b then u else v) else (if b then u else v).setPending l k 1) :=
    .ite (.ite hu hv) (.setPending (.ite hu hv) ..)
  simp only [State.applyChange]
  split
  · exact .setPending (h2 _ _ (.setAside (h1 _ (by rfl) ..) ..) (h1 _ (by rfl) ..) _ _) ..
  · exact .setPending (h2 _ _ (.setAside (h1 _ (by rfl) ..) ..) (h1 _ (by rfl) ..) _ _) ..
  · exact .setPending (h2 _ _ (.setAside (h1 _ (by rfl) ..) ..) (h1 _ (by rfl) ..) _ _) ..
  · exact h2 _ _ (.setAside (h1 _ (by rfl) ..) ..) (h1 _ (by rfl) ..) _ _

theorem Latches.showTcfg (k : Strand) (b : Bool) (r : Option Nat) : Latches s (t.showTcfg k b r) := by
  refine h.lanes (lanes_foldl _ (fun t l => ?_) _ _)
  cases r <;> rfl

theorem Latches.tcfgSettle (k : Strand) : Latches s (t.tcfgSettle k) := by
  unfold State.tcfgSettle
  split
  · exact h
  · refine .ite (.ite ?_ h) (.ite ?_ h)
    · rw [tcfgFinish_eq]
      refine .showTcfg (.lanes (t := t.takeValue _ _ _) ?_ (by rfl)) ..
      refine h.foldl _ (fun u x hu => ?_) _
      exact .setEcho (hu.lanes (by rfl)) _ _ fun _ hx => hx
    · split
      · simp only [State.refuseTcfg]
        exact .showTcfg (h.lanes (by rfl)) ..
      · exact h.lanes rfl

theorem Latches.beforeHalt (l : Lane) (k : Strand) : Latches s (t.beforeHalt l k) := by
  refine .side (.foldl ?_ _ (fun _ _ hu => hu.applyChange ..) _) (State.checkRetired_side ..)
  refine .ite ?_ h
  unfold State.abandonRejoinOf
  split
  · exact .ite (h.abandonRejoin _) h
  · exact h

theorem Latches.stopStrand (l : Lane) (k : Strand) : Latches s (t.stopStrand l k) := by
  refine ⟨fun m j x hx => ?_⟩
  by_cases hm : m = l ∧ j = k
  · rw [hm.1, hm.2, (echo_stopStrand t l k).2.2.2, ← hm.1, ← hm.2]
    exact h.stays m j x hx
  · rw [echo_stopStrand_other t hm]
    exact h.stays m j x hx

theorem Latches.haltAt (l : Lane) (k : Strand) (c : Cause) (repl : Option Lane) : Latches s (t.haltAt l k c repl) := by
  by_cases hi : t.haltedAt l k = true ∨ t.retired l = true
  · rw [(haltAt_idle hi c repl).1]; exact h
  · rw [not_or, Bool.not_eq_true, Bool.not_eq_true] at hi
    have hl : Latches s (((t.beforeHalt l k).stopStrand l k).logHalt l k c repl) :=
      ((h.beforeHalt l k).stopStrand l k).side ((State.logEv_side ..).trans (State.clearStrandLatches_side ..))
    have hs := hl.echoes (echo_showStarved _ l k c)
    rw [haltAt_eq hi.1 hi.2]
    exact .ite (hs.side (State.haltDevices_side ..)) hs

theorem Latches.haltOwn (l : Lane) (k : Strand) (c : Cause) (repl : Option Lane) : Latches s (t.haltOwn l k c repl) :=
  .ite h (.haltAt (h.lanes (by rfl)) ..)

end

/-- The change has an occurrence of the Echo source (R52). -/
theorem latchChange_occ (s : State) (l : Lane) (k : Strand) (x : Lane) (ev : ReplEvent) :
    ∃ h ∈ ((s.latchChange l k x ev).echo l k).latched, h.occ.src = 0 ∧ h.occ.vec = 1 := by
  simp only [State.latchChange]
  split <;>
  · rw [State.latch, echo_setEcho, if_pos ⟨rfl, rfl⟩]
    exact ⟨_, List.mem_append_right _ (List.mem_singleton.2 rfl), rfl, rfl⟩

/-- Every lane that is not retired latches the change. -/
theorem latchChangeAll_occ (s : State) (k : Strand) (x : Lane) (ev : ReplEvent) {l : Lane} (hl : s.retired l = false) :
    ∃ h ∈ ((s.latchChangeAll k x ev).echo l k).latched, h.occ.src = 0 ∧ h.occ.vec = 1 := by
  have key (ls : List Lane) (t : State) (h : l ∈ ls) :
      ∃ h ∈ ((ls.foldl (fun t l => t.latchChange l k x ev) t).echo l k).latched, h.occ.src = 0 ∧ h.occ.vec = 1 := by
    obtain ⟨as, bs, rfl⟩ := List.append_of_mem h
    rw [List.foldl_append, List.foldl_cons]
    obtain ⟨o, ho, hs⟩ := latchChange_occ (as.foldl (fun t l => t.latchChange l k x ev) t) l k x ev
    exact ⟨o, ((Latches.refl _).foldl _ (fun _ _ ht => ht.latchChange ..) bs).stays l k o ho, hs⟩
  exact key _ _ (mem_liveLanes hl)

/-! ### An exclusion in one lane -/

/-- The notices to the voters, and the core of the lane's own replica, which stops (R101, R127). -/
def State.giveNotice (s : State) (l : Lane) (k : Strand) (x : Lane) : State :=
  let t := (s.dies.filter fun d => (s.lane l).junction.get d).foldl (fun t d => t.voterNotice d k x) s
  if l = x then (t.dropBeats l k).clearStrandLatches l k else t

/-- The replica leaves the lane's set, and its change is latched (R101). -/
def State.leaveSet (s : State) (l : Lane) (k : Strand) (x : Lane) : State :=
  let t := s.latchChange l k x .excluded
  (t.setEcho l k { t.echo l k with inStep := (t.echo l k).inStep.set x false }).showLaneView x

/-- A rejoin of the strand that loses its donor ends (R145). -/
def State.endRejoinBut (s : State) (k : Strand) (x : Lane) : State :=
  match s.rejoin with
  | some r => if r.strand = k ∧ r.target ≠ x then s.abandonRejoin 0x23 else s
  | none => s

/-- The state in which the set is judged again. -/
def State.excludedAt (s : State) (l : Lane) (k : Strand) (x : Lane) : State :=
  ((s.giveNotice l k x).leaveSet l k x).endRejoinBut k x

theorem excludeAt_absent {s : State} {l : Lane} {k : Strand} {x : Lane} (h : (s.echo l k).inStep.get x = false)
    (c : Cause) : s.excludeAt l k x c = s := if_pos (by simp [h])

theorem excludeAt_eq {s : State} {l : Lane} {k : Strand} {x : Lane} (hh : s.haltedAt l k = false) (hr : s.retired l = false)
    (hx : (s.echo l k).inStep.get x = true) (c : Cause) :
    s.excludeAt l k x c = (let t := s.excludedAt l k x
      if (t.inStepAt l k).length < 2 then t.haltOwn l k c (some x) else t.tcfgSettle k) :=
  if_neg (by
    have hh' : (s.echo l k).halted = false := hh
    simp [hh', hr, hx])

theorem endRejoinBut_calm (s : State) (k : Strand) (x : Lane) : (s.endRejoinBut k x).calm = s.calm := by
  unfold State.endRejoinBut
  split
  · rw [calm_ite, State.abandonRejoin_calm, ite_self]
  · rfl

theorem giveNotice_echo (s : State) (l : Lane) (k : Strand) (x m : Lane) (j : Strand) :
    ((s.giveNotice l k x).echo m j).bare = (s.echo m j).bare := by
  have hn := side_foldl (fun t d => t.voterNotice d k x) (fun _ _ => State.voterNotice_side ..)
    (s.dies.filter fun d => (s.lane l).junction.get d) s
  unfold State.giveNotice
  dsimp only
  split
  · rw [echo_of_side (State.clearStrandLatches_side ..), State.dropBeats, echo_setReplica, echo_of_side hn]
  · exact echo_of_side hn m j

theorem giveNotice_reg (s : State) (l : Lane) (k : Strand) (x y : Lane) (off : Nat) :
    (s.giveNotice l k x).reg y.unit off = s.reg y.unit off := by
  have hn := side_foldl (fun t d => t.voterNotice d k x) (fun _ _ => State.voterNotice_side ..)
    (s.dies.filter fun d => (s.lane l).junction.get d) s
  unfold State.giveNotice
  dsimp only
  split
  · rw [reg_of_side (State.clearStrandLatches_side ..)]; exact reg_of_side hn y off
  · exact reg_of_side hn y off

theorem giveNotice_own (s : State) (l : Lane) (k : Strand) :
    ((s.giveNotice l k l).replica l k).mode = .stopped ∧ ((s.giveNotice l k l).replica l k).out = [] := by
  simp only [State.giveNotice, if_true, replica_of_side (State.clearStrandLatches_side ..), State.dropBeats,
    replica_setReplica, and_self]

theorem replica_leaveSet (s : State) (l : Lane) (k : Strand) (x m : Lane) (j : Strand) :
    ((s.leaveSet l k x).replica m j).calm = (s.replica m j).calm := by
  simp only [State.leaveSet]
  rw [replica_of_calm (State.showLaneView_calm ..), replica_setEcho, replica_of_calm (State.latchChange_calm ..)]

theorem inStep_leaveSet (s : State) (l : Lane) (k : Strand) (x m : Lane) (j : Strand) :
    ((s.leaveSet l k x).echo m j).inStep =
      if m = l ∧ j = k then (s.echo l k).inStep.set x false else (s.echo m j).inStep := by
  simp only [State.leaveSet]
  rw [inStep_of_calm (State.showLaneView_calm ..), echo_setEcho]
  split
  · rw [inStep_of_calm (State.latchChange_calm ..)]
  · rw [inStep_of_calm (State.latchChange_calm ..)]

theorem halted_leaveSet (s : State) (l : Lane) (k : Strand) (x m : Lane) (j : Strand) :
    (s.leaveSet l k x).haltedAt m j = s.haltedAt m j := by
  have hc := halted_of_calm (State.latchChange_calm s l k x .excluded) m j
  simp only [State.leaveSet]
  rw [halted_of_calm (State.showLaneView_calm ..), State.haltedAt, echo_setEcho]
  split
  · next h => rw [h.1, h.2] at hc ⊢; exact hc
  · exact hc

theorem reg_leaveSet (s : State) (l : Lane) (k : Strand) (x y : Lane) {off : Nat} (h : movedReg off = false) :
    (s.leaveSet l k x).reg y.unit off = s.reg y.unit off := by
  simp only [State.leaveSet]
  rw [reg_of_calm (State.showLaneView_calm ..) _ h]
  exact reg_of_calm (State.latchChange_calm ..) _ h

theorem latched_leaveSet (s : State) (l : Lane) (k : Strand) (x : Lane) :
    ∃ h ∈ ((s.leaveSet l k x).echo l k).latched, h.occ.src = 0 ∧ h.occ.vec = 1 := by
  obtain ⟨o, ho, hs⟩ := latchChange_occ s l k x .excluded
  refine ⟨o, ?_, hs⟩
  simp only [State.leaveSet]
  rw [State.showLaneView, latched_of_side (State.setView_side ..), echo_setEcho, if_pos ⟨rfl, rfl⟩]
  exact ho

section
variable (s : State) (l : Lane) (k : Strand) (x : Lane)

theorem excludedAt_inStep (m : Lane) (j : Strand) : ((s.excludedAt l k x).echo m j).inStep =
    if m = l ∧ j = k then (s.echo l k).inStep.set x false else (s.echo m j).inStep := by
  have hg (m : Lane) (j : Strand) : ((s.giveNotice l k x).echo m j).inStep = (s.echo m j).inStep :=
    (congrArg Echo.inStep (giveNotice_echo s l k x m j) :)
  rw [State.excludedAt, inStep_of_calm (endRejoinBut_calm ..), inStep_leaveSet, hg, hg]

theorem excludedAt_halted (m : Lane) (j : Strand) : (s.excludedAt l k x).haltedAt m j = s.haltedAt m j := by
  rw [State.excludedAt, halted_of_calm (endRejoinBut_calm ..), halted_leaveSet]
  exact (congrArg Echo.halted (giveNotice_echo s l k x m j) :)

theorem excludedAt_reg (y : Lane) {off : Nat} (h : movedReg off = false) :
    (s.excludedAt l k x).reg y.unit off = s.reg y.unit off := by
  rw [State.excludedAt, reg_of_calm (endRejoinBut_calm ..) _ h, reg_leaveSet _ _ _ _ _ h, giveNotice_reg]

theorem excludedAt_retired (y : Lane) : (s.excludedAt l k x).retired y = s.retired y :=
  retired_congr (fun z => excludedAt_reg s l k x z (by decide)) y

theorem excludedAt_own : ((s.excludedAt l k l).replica l k).mode = .stopped ∧ ((s.excludedAt l k l).replica l k).out = [] := by
  have h := (replica_of_calm (endRejoinBut_calm ((s.giveNotice l k l).leaveSet l k l) k l) l k).trans
    (replica_leaveSet (s.giveNotice l k l) l k l l k)
  obtain ⟨h1, h2⟩ := giveNotice_own s l k
  exact ⟨(congrArg Replica.mode h :).trans h1, (congrArg Replica.out h :).trans h2⟩

theorem excludedAt_latched : ∃ h ∈ ((s.excludedAt l k x).echo l k).latched, h.occ.src = 0 ∧ h.occ.vec = 1 := by
  obtain ⟨o, ho, hs⟩ := latched_leaveSet (s.giveNotice l k x) l k x
  refine ⟨o, ?_, hs⟩
  rw [State.excludedAt]
  unfold State.endRejoinBut
  split
  · split
    · exact ((Latches.refl _).abandonRejoin _).stays l k o ho
    · exact ho
  · exact ho

end

section
variable {s : State} {l : Lane} {k : Strand} {x : Lane} (hh : s.haltedAt l k = false) (hr : s.retired l = false)
  (hx : (s.echo l k).inStep.get x = true) (c : Cause)
include hh hr hx

/-- What the last judgement of the set leaves: the sets, and what was latched. -/
theorem excludeAt_inStep (m : Lane) (j : Strand) :
    ((s.excludeAt l k x c).echo m j).inStep = ((s.excludedAt l k x).echo m j).inStep := by
  rw [excludeAt_eq hh hr hx]
  dsimp only
  split
  · have hh' : (s.excludedAt l k x).haltedAt l k = false := by rw [excludedAt_halted, hh]
    have hr' : (s.excludedAt l k x).retired l = false := by rw [excludedAt_retired, hr]
    rw [haltOwn_eq hh' hr', haltAt_inStep (by exact hh') (by
      rw [State.setLCause, retired_congr (fun y => reg_setReg_other _ _ (.inr (by cases k <;> decide))), hr'])]
    rfl
  · exact inStep_of_calm (State.tcfgSettle_calm ..) m j

theorem excludeAt_latches : Latches (s.excludedAt l k x) (s.excludeAt l k x c) := by
  rw [excludeAt_eq hh hr hx]
  dsimp only
  split
  · exact (Latches.refl _).haltOwn ..
  · exact (Latches.refl _).tcfgSettle _

end

end Sys2Proof.Machine
end

-- ==== Proofs: what an agreement takes back of nothing ====
section
/-! What no agreement, halt, exclusion or retirement of a lane takes back: a replica that left a set stays out, and a core that
was stopped with nothing under way stays so; the retired lanes, the late claims counted (R84) and the leases shown stay as
they are. -/

namespace Sys2Proof.Machine

/-- A core that is stopped, with nothing under way. -/
def Replica.still (r : Replica) : Prop := r.mode = .stopped ∧ r.out = [] ∧ r.load = none

structure Wanes (s t : State) : Prop where
  inStep : ∀ m j y, (s.echo m j).inStep.get y = false → (t.echo m j).inStep.get y = false
  still : ∀ m j, (s.replica m j).still → (t.replica m j).still
  rjLane : ∀ x : Lane, t.reg x.unit Reg.rjLane = s.reg x.unit Reg.rjLane
  late : ∀ (x : Lane) (j : Strand), t.fld x.unit (Reg.ecFaults j.idx) 7 0 = s.fld x.unit (Reg.ecFaults j.idx) 7 0
  shown : ∀ p : PDie, t.reg p.unit Reg.lsStat = s.reg p.unit Reg.lsStat
  heldBy : ∀ p : PDie, (t.port p).heldBy = (s.port p).heldBy
  junction : ∀ x : Lane, (t.lane x).junction = (s.lane x).junction

theorem Wanes.refl (s : State) : Wanes s s :=
  ⟨fun _ _ _ h => h, fun _ _ h => h, fun _ => rfl, fun _ _ => rfl, fun _ => rfl, fun _ => rfl, fun _ => rfl⟩

/-- A register that an agreement or a halt may write. -/
def mayWrite (off : Nat) : Bool := off != Reg.rjLane && Strand.list.all fun j => off != Reg.ecFaults j.idx

theorem mayWrite_spec {off : Nat} (h : mayWrite off = true) : off ≠ Reg.rjLane ∧ ∀ j : Strand, off ≠ Reg.ecFaults j.idx := by
  simp only [mayWrite, Bool.and_eq_true, bne_iff_ne, List.all_eq_true] at h
  exact ⟨h.1, fun j => h.2 j (by cases j <;> decide)⟩

theorem get_set_false {i : Tri Bool} {x y : Lane} (hy : i.get y = false) : (i.set x false).get y = false := by
  rw [Tri.get_set]
  split
  · rfl
  · exact hy

theorem inStep_takeMsg (e : Echo) (src : Strand) (m : SqMsg) : (takeMsg e src m).inStep = e.inStep := by
  unfold takeMsg
  dsimp only
  split <;> rfl

theorem inStep_takeAhead (n : Nat) (e : Echo) (src : Strand) : (takeAhead n e src).inStep = e.inStep := by
  induction n generalizing e with
  | zero => rfl
  | succ n ih =>
    unfold takeAhead
    split
    · rw [ih, inStep_takeMsg]
    · rfl

section
variable {s t u : State} (h : Wanes s t)
include h

theorem Wanes.trans (h' : Wanes t u) : Wanes s u :=
  ⟨fun m j y hy => h'.inStep m j y (h.inStep m j y hy), fun m j hs => h'.still m j (h.still m j hs),
    fun x => (h'.rjLane x).trans (h.rjLane x), fun x j => (h'.late x j).trans (h.late x j),
    fun p => (h'.shown p).trans (h.shown p), fun p => (h'.heldBy p).trans (h.heldBy p),
    fun x => (h'.junction x).trans (h.junction x)⟩

theorem Wanes.calm (hu : u.calm = t.calm) : Wanes s u := by
  refine h.trans ⟨fun m j y hy => ?_, fun m j hs => ?_, fun x => reg_of_calm hu x (by decide), fun x j => ?_,
    fun p => congrFun (congrArg Calm.shown hu :) p, fun p => congrFun (congrArg Calm.heldBy hu :) p, fun x => ?_⟩
  · rw [inStep_of_calm hu]; exact hy
  · have hr := replica_of_calm hu m j
    exact ⟨(congrArg Replica.mode hr :).trans hs.1, (congrArg Replica.out hr :).trans hs.2.1,
      (congrArg Replica.load hr :).trans hs.2.2⟩
  · rw [State.fld, reg_of_calm hu x (by cases j <;> decide)]; rfl
  · exact (congrArg LaneState.junction (congrFun (congrArg Calm.lane hu) x) :)

theorem Wanes.side (hu : u.side = t.side) : Wanes s u := h.calm (calm_of_side hu)

theorem Wanes.ite {c : Prop} [Decidable c] (h' : Wanes s u) : Wanes s (if c then t else u) := by
  split
  · exact h
  · exact h'

theorem Wanes.foldl {β : Type} (g : State → β → State) (hg : ∀ t x, Wanes s t → Wanes s (g t x)) (xs : List β) :
    Wanes s (xs.foldl g t) := by
  induction xs generalizing t with
  | nil => exact h
  | cons x xs ih => exact ih (hg t x h)

theorem Wanes.setEcho (l : Lane) (k : Strand) {e : Echo}
    (he : ∀ y, (t.echo l k).inStep.get y = false → e.inStep.get y = false) : Wanes s (t.setEcho l k e) := by
  refine h.trans ⟨fun m j y hy => ?_, fun m j hs => ?_, fun _ => rfl, fun _ _ => rfl, fun _ => rfl, fun _ => rfl, fun x => ?_⟩
  · rw [echo_setEcho]
    split
    · next hm => rw [hm.1, hm.2] at hy; exact he y hy
    · exact hy
  · rw [replica_setEcho]; exact hs
  · rw [State.setEcho, lane_setLane]
    split
    · next hx => rw [hx]
    · rfl

theorem Wanes.setReplica (l : Lane) (k : Strand) {r : Replica} (hr : (t.replica l k).still → r.still) :
    Wanes s (t.setReplica l k r) := by
  refine h.trans ⟨fun m j y hy => ?_, fun m j hs => ?_, fun _ => rfl, fun _ _ => rfl, fun _ => rfl, fun _ => rfl, fun x => ?_⟩
  · rw [echo_setReplica]; exact hy
  · rw [replica_setReplica]
    split
    · next hm => rw [hm.1, hm.2] at hs; exact hr hs
    · exact hs
  · rw [State.setReplica, lane_setLane]
    split
    · next hx => rw [hx]
    · rfl

theorem Wanes.setLinkRun (l : Lane) (f : Tri Nat) : Wanes s (t.setLane l { t.lane l with linkRun := f }) := by
  have hl (m : Lane) : ∃ f', (t.setLane l { t.lane l with linkRun := f }).lane m = { t.lane m with linkRun := f' } := by
    rw [lane_setLane]
    split
    · next hm => exact ⟨f, by rw [hm]⟩
    · exact ⟨_, rfl⟩
  refine h.trans ⟨fun m j y hy => ?_, fun m j hs => ?_, fun _ => rfl, fun _ _ => rfl, fun _ => rfl, fun _ => rfl, fun x => ?_⟩
  · obtain ⟨f', hf⟩ := hl m; rw [State.echo, hf]; exact hy
  · obtain ⟨f', hf⟩ := hl m; rw [State.replica, hf]; exact hs
  · obtain ⟨f', hf⟩ := hl x; rw [hf]

theorem Wanes.setReg (l : Lane) {off : Nat} (v : Word) (ho : mayWrite off = true) : Wanes s (t.setReg l.unit off v) := by
  refine h.trans ⟨fun _ _ _ hy => hy, fun _ _ hs => hs, fun x => reg_setReg_other _ _ (.inr (mayWrite_spec ho).1.symm), fun x j => ?_,
    fun p => reg_setReg_other _ _ (.inl ?_), fun _ => rfl, fun _ => rfl⟩
  · rw [State.fld, reg_setReg_other _ _ (.inr ((mayWrite_spec ho).2 j).symm)]; rfl
  · cases l <;> cases p <;> decide

theorem Wanes.setFld (l : Lane) {off : Nat} (hi lo v : Nat) (ho : mayWrite off = true) :
    Wanes s (t.setFld l.unit off hi lo v) := h.setReg l _ ho

theorem Wanes.setFlag (l : Lane) {off : Nat} (i : Nat) (b : Bool) (ho : mayWrite off = true) :
    Wanes s (t.setFlag l.unit off i b) := h.setReg l _ ho

/-- A counter of `EC_FAULTS` above the count of late claims. -/
theorem Wanes.countFault (l : Lane) (k : Strand) (hi n : Nat) {lo : Nat} (hlo : 7 < lo) :
    Wanes s (t.bumpBy l.unit (Reg.ecFaults k.idx) hi lo n) := by
  refine h.trans ⟨fun _ _ _ hy => hy, fun _ _ hs => hs, fun x => reg_setFld_other _ _ _ _ (.inr (by cases k <;> decide)),
    fun x j => ?_, fun p => reg_setFld_other _ _ _ _ (.inl (by cases l <;> cases p <;> decide)), fun _ => rfl, fun _ => rfl⟩
  by_cases hx : x = l ∧ j = k
  · rw [hx.1, hx.2]
    exact fld_setFld_other _ _ _ _ (.inl hlo)
  · rw [State.fld, State.bumpBy, reg_setFld_other _ _ _ _ ?_]
    · rfl
    · rcases not_and_or.1 hx with hx | hx
      · exact .inl (by revert hx; cases x <;> cases l <;> decide)
      · exact .inr (by revert hx; cases j <;> cases k <;> decide)

/-! ### Halts and exclusions -/

theorem Wanes.setLCause (l : Lane) (k : Strand) (c : Cause) (x : Option Lane) : Wanes s (t.setLCause l k c x) :=
  h.setReg l _ (by cases k <;> decide)

theorem Wanes.stopStrand (l : Lane) (k : Strand) : Wanes s (t.stopStrand l k) := by
  refine .setReplica (.setEcho (h.setEcho _ _ ?_) _ _ ?_) _ _ fun hs => ?_
  · exact fun _ hy => hy
  · exact fun _ hy => hy
  · exact ⟨if_neg fun e => absurd (hs.1.symm.trans e) (by decide), rfl, rfl⟩

theorem Wanes.haltAt (l : Lane) (k : Strand) (c : Cause) (repl : Option Lane) : Wanes s (t.haltAt l k c repl) := by
  by_cases hi : t.haltedAt l k = true ∨ t.retired l = true
  · rw [(haltAt_idle hi c repl).1]; exact h
  · rw [not_or, Bool.not_eq_true, Bool.not_eq_true] at hi
    refine .calm ?_ (haltAt_calm hi.1 hi.2 c repl)
    have hl : Wanes s (((t.beforeHalt l k).stopStrand l k).logHalt l k c repl) :=
      ((h.calm (beforeHalt_calm ..)).stopStrand l k).calm (logHalt_calm ..)
    exact .ite (hl.setFlag l _ _ (by cases k <;> decide)) hl

theorem Wanes.haltOwn (l : Lane) (k : Strand) (c : Cause) (repl : Option Lane) : Wanes s (t.haltOwn l k c repl) :=
  .ite h (.haltAt (h.setLCause ..) ..)

theorem Wanes.giveNotice (l : Lane) (k : Strand) (x : Lane) : Wanes s (t.giveNotice l k x) := by
  have hn : Wanes s ((t.dies.filter fun d => (t.lane l).junction.get d).foldl (fun t d => t.voterNotice d k x) t) :=
    h.foldl _ (fun _ _ hu => hu.calm (State.voterNotice_calm ..)) _
  refine .ite (.calm (hn.setReplica l k ?_) (State.clearStrandLatches_calm ..)) hn
  exact fun hs => ⟨rfl, rfl, hs.2.2⟩

theorem Wanes.leaveSet (l : Lane) (k : Strand) (x : Lane) : Wanes s (t.leaveSet l k x) :=
  .calm (.setEcho (h.calm (State.latchChange_calm ..)) _ _ (by exact fun _ hy => get_set_false hy)) (State.showLaneView_calm ..)

theorem Wanes.excludeAt (l : Lane) (k : Strand) (x : Lane) (c : Cause) : Wanes s (t.excludeAt l k x c) := by
  by_cases hi : t.haltedAt l k = false ∧ t.retired l = false ∧ (t.echo l k).inStep.get x = true
  · obtain ⟨hh, hr, hx⟩ := hi
    have he : Wanes s (t.excludedAt l k x) := .calm (.leaveSet (h.giveNotice l k x) ..) (endRejoinBut_calm ..)
    rw [excludeAt_eq hh hr hx]
    exact .ite (he.haltOwn ..) (he.calm (State.tcfgSettle_calm ..))
  · have hc : ((t.echo l k).halted || t.retired l || !(t.echo l k).inStep.get x) = true := by
      by_contra hn
      simp only [Bool.or_eq_true, Bool.not_eq_true', not_or, Bool.not_eq_true, Bool.not_eq_false] at hn
      exact hi ⟨hn.1.1, hn.1.2, hn.2⟩
    rw [State.excludeAt, if_pos hc]
    exact h

theorem Wanes.echoExcludes (l : Lane) (k : Strand) (x : Lane) (c : Cause) : Wanes s (t.echoExcludes l k x c) :=
  .excludeAt (.calm (h.setLCause ..) (State.sendExclusion_calm ..)) ..

theorem Wanes.echoSplits (l : Lane) (k : Strand) (c : Cause) : Wanes s (t.echoSplits l k c) :=
  .haltOwn (h.calm (State.sendSplit_calm ..)) ..

/-! ### Agreements -/

theorem Wanes.commitMsg (l : Lane) (src dst : Strand) (m : SqMsg) : Wanes s (t.commitMsg l src dst m) := by
  refine .ite ?_ (.ite ?_ h)
  · refine h.setEcho _ _ fun y hy => ?_
    rw [inStep_takeAhead, inStep_takeMsg]
    exact hy
  · exact h.setEcho _ _ fun _ hy => hy

theorem Wanes.commitEpoch (l : Lane) (k : Strand) (pt : Word) (pair : Pair) : Wanes s (t.commitEpoch l k pt pair) := by
  have hr : Wanes s (t.setReplica l k { t.replica l k with
      sqEnding := (t.replica l k).sqEnding.filter fun x => x.1 != pt }) := h.setReplica _ _ fun hs => hs
  have hm := hr.foldl (fun t x => t.commitMsg l k x.1 x.2) (fun _ _ hu => hu.commitMsg ..)
    ((((t.replica l k).sqEnding.find? fun x => x.1 == pt).map Prod.snd).getD [])
  exact .ite (.ite (hm.calm (State.send_calm ..)) hm) hr

theorem Wanes.completeWith (l : Lane) (k : Strand) (pair : Pair) (ha hb : HeldPub) :
    Wanes s (t.completeWith l k pair ha hb) := by
  have hx (e : Echo) (he : e.inStep = (t.echo l k).inStep) (n a b v w : Nat) : Wanes s
      (((((t.setEcho l k e).bumpBy l.unit (Reg.ecFaults k.idx) 23 16 n).bumpWrap l.unit (Reg.ecPairs k.idx) a b).setFld
        l.unit (Reg.ecStat k.idx) 1 0 v).raiseMax l.unit (Reg.ecXchgMax k.idx) 31 0 w) := by
    have h1 : Wanes s (t.setEcho l k e) := h.setEcho _ _ fun y hy => by rw [he]; exact hy
    refine .setFld (.setFld (.setFld (h1.countFault l k _ _ (by decide)) l _ _ _ ?_) l _ _ _ ?_) l _ _ _ ?_ <;>
      cases k <;> decide
  simp only [State.completeWith]
  refine .ite (.commitEpoch (.ite (.setLinkRun ?_ ..) ?_) ..) (.ite (.setLinkRun ?_ ..) ?_) <;>
    exact hx _ (by rfl) ..

theorem Wanes.checkThird (l : Lane) (k : Strand) (pt : Word) : Wanes s (t.checkThird l k pt) := by
  unfold State.checkThird
  dsimp only
  split
  · exact h
  · split
    · exact .ite (.echoExcludes (h.setFld l _ _ _ (by cases k <;> decide)) ..) h
    · exact h

theorem Wanes.sigOdd (l : Lane) (k : Strand) (x : Lane) : Wanes s (t.sigOdd l k x) := .ite (h.echoExcludes ..) h

theorem Wanes.resolveSplit (l : Lane) (k : Strand) (pair : Pair) (ha hb : HeldPub) :
    Wanes s (t.resolveSplit l k pair ha hb) := by
  have ht (w : Option Word) : Wanes s ((t.setEcho l k { t.echo l k with splitWait := w }).bump l.unit
      (Reg.vtSigcmp k.idx) 15 8) := by
    refine .setFld (h.setEcho _ _ ?_) l _ _ _ (by cases k <;> decide)
    exact fun _ hy => hy
  have h1 := Wanes.ite (c := (t.echo l k).splitWait = some ha.pub.point) h (ht (some ha.pub.point))
  simp only [State.resolveSplit]
  split
  · exact .ite (.sigOdd (h1.completeWith ..) ..) (.ite (.sigOdd (h1.completeWith ..) ..) (h1.echoSplits ..))
  · exact .ite h1 (h1.echoSplits ..)

theorem Wanes.tryAgree (n : Nat) (l : Lane) (k : Strand) : Wanes s (t.tryAgree n l k) := by
  induction n generalizing t with
  | zero => exact h
  | succ n ih =>
    simp only [State.tryAgree]
    refine .ite h ?_
    split
    · exact h
    · split
      · exact .ite (.ite (h.resolveSplit ..) (ih (h.resolveSplit ..))) (ih (.checkThird (h.completeWith ..) ..))
      · exact h

theorem Wanes.agreeAgain : Wanes s t.agreeAgain :=
  h.foldl _ (fun _ _ hu => hu.foldl _ (fun _ _ hv => .ite (hv.tryAgree ..) hv) _) _

end

end Sys2Proof.Machine
end

-- ==== Proofs: claims, notices and solo occurrences ====
section
/-! What an Echo unit does alone or on the notice of another (R56, R60, R84, R101, R102). -/

namespace Sys2Proof.Machine

/-! ### Solo occurrences -/

theorem soloIn_iff (e : Echo) (l : Lane) (o : Occ) (limit now : Nat) : soloIn e l o limit now = true ↔
    ∃ h ∈ e.pubs, pubLane h.pub = some l ∧ o ∈ h.pub.occ ∧ h.since + limit < now ∧
      ∀ x ∈ e.pubs, pubLane x.pub ≠ some l → o ∈ x.pub.occ → h.since + limit < x.since ∨ x.since + limit < h.since := by
  simp only [soloIn, List.any_eq_true, Bool.and_eq_true, beq_iff_eq, decide_eq_true_eq, List.contains_eq_mem,
    Bool.not_eq_true', ← Bool.not_eq_true, not_exists, not_and, bne_iff_ne, and_assoc]
  refine exists_congr fun h => and_congr_right fun _ => and_congr_right fun _ => and_congr_right fun _ =>
    and_congr_right fun _ => forall_congr' fun x => forall_congr' fun _ => forall_congr' fun _ => forall_congr' fun _ => ?_
  omega

/-- The state in which a solo occurrence is counted and noted (R56). -/
def State.countSolo (s : State) (l : Lane) (k : Strand) (o : Occ) : State :=
  (s.setEcho l k { s.echo l k with solo := o :: (s.echo l k).solo }).bump l.unit (Reg.ecFaults k.idx) 15 8

def State.noteSolo (s : State) (l : Lane) (k : Strand) (o : Occ) : State :=
  (s.countSolo l k o).logEv l.idx (some k) .evSolo [o.src.toNat, o.vec.toNat, o.num.toNat]

theorem exec_evSolo {l : Lane} {k : Strand} {o : Occ} {s : State}
    (hs : soloIn (s.echo l k) l o (s.skewLimitNs l k) s.ns = true) (ho : o ∉ (s.echo l k).solo) (hr : s.retired l = false) :
    exec (.evSolo l k o) s = .next (s.noteSolo l k o) :=
  congrArg Host.Outcome.next (if_pos (by simp [hs, ho, hr]))

theorem exec_evSolo_noted {l : Lane} {k : Strand} {o : Occ} {s : State} (ho : o ∈ (s.echo l k).solo) :
    exec (.evSolo l k o) s = .next s := congrArg Host.Outcome.next (if_neg (by simp [ho]))

theorem noteSolo_keeps (s : State) (l : Lane) (k : Strand) (o : Occ) :
    (s.noteSolo l k o).fld l.unit (Reg.ecFaults k.idx) 15 8 = satAdd 8 (s.fld l.unit (Reg.ecFaults k.idx) 15 8) 1 ∧
      (∀ u off, u ≠ l.unit ∨ off ≠ Reg.ecFaults k.idx → (s.noteSolo l k o).reg u off = s.reg u off) ∧
      (s.noteSolo l k o).lanes = (s.setEcho l k { s.echo l k with solo := o :: (s.echo l k).solo }).lanes ∧
      (s.noteSolo l k o).voters = s.voters ∧ (s.noteSolo l k o).wires = s.wires ∧ (s.noteSolo l k o).links = s.links := by
  obtain ⟨lg, hlg⟩ := logEv_frame (s.countSolo l k o) l.idx (some k) .evSolo [o.src.toNat, o.vec.toNat, o.num.toNat]
  have hreg (u : RUnit) (off : Nat) : (s.noteSolo l k o).reg u off = (s.countSolo l k o).reg u off := reg_logEv ..
  refine ⟨?_, fun u off h => (hreg u off).trans (reg_bump_other _ _ _ h), ?_⟩
  · rw [State.fld, hreg]
    exact fld_bump _ _ _ 15 8 (by decide)
  · rw [State.noteSolo, hlg]
    exact ⟨rfl, rfl, rfl, rfl⟩

theorem noteSolo_entry {s : State} (hm : s.consumers.m.running = true) {l : Lane} (hf : s.floodCount l.idx < 64)
    (k : Strand) (o : Occ) : ((s.noteSolo l k o).log.entries.head?.map fun e => (e.code, e.src, e.strand, e.arg)) =
      some (.evSolo, l.idx, some k, [o.src.toNat, o.vec.toNat, o.num.toNat]) :=
  logEv_entry (s := s.countSolo l k o) hm hf ..

/-! ### Claims and notices -/

theorem exec_starveTimeout {l : Lane} {k : Strand} {s : State} (ha : s.atSteps l k = true)
    (hp : 2 ≤ (s.reg64 l.unit (Reg.lnPointLo k)).toNat) (hd : s.dueAgreement l k = none)
    (hw : (s.replica l k).waitSince + s.skewLimitNs l k < s.ns) :
    exec (.starveTimeout l k) s =
      .next ((s.send ((s.peers l).map fun x => .starveClaim x l k)).haltOwn l k .starved none) :=
  congrArg Host.Outcome.next (if_pos (by simp [ha, hp, hd, hw]))

theorem exec_starveClaimReceive (l x : Lane) (k : Strand) (s : State) : exec (.starveClaimReceive l x k) s =
    .next (if s.retired x then s.arrive (.starveClaim l x k) else (s.arrive (.starveClaim l x k)).haltOwn l k .starved none) := by
  show execStarveClaimReceive l x k s = _
  simp only [execStarveClaimReceive, retired_arrive]
  rfl

theorem runs_arrive (s : State) (w : Wire) (l : Lane) (k : Strand) : (s.arrive w).runs l k = s.runs l k := by
  simp only [State.runs, State.haltedAt, echo_arrive, retired_arrive, State.arrive_released]

theorem exec_lateClaim {l x : Lane} {k : Strand} {pt : Word} {s : State} (hr : s.runs l k = true)
    (hx : s.awaitedThird l k pt = some x) : exec (.lateClaim l k pt) s =
      .next ((s.send ((s.peers l).map fun y => .lateClaim y ⟨k, pt, l, x⟩)).lateAt l k pt x) := by
  show execLateClaim l k pt s = _
  simp only [execLateClaim, hr, hx, if_true]

theorem exec_lateClaimReceive {l : Lane} {c : LateClaim} {s : State} (hr : s.runs l c.strand = true)
    (hc : s.retired c.sender = false) :
    exec (.lateClaimReceive l c) s = .next ((s.arrive (.lateClaim l c)).lateAt l c.strand c.point c.repl) := by
  show execLateClaimReceive l c s = _
  simp only [execLateClaimReceive, runs_arrive, retired_arrive, hr, hc, Bool.not_false, Bool.and_self, if_true]

/-! ### Halts -/

theorem setLCause_retired (s : State) (l : Lane) (k : Strand) (c : Cause) (x : Option Lane) (m : Lane) :
    (s.setLCause l k c x).retired m = s.retired m :=
  retired_congr (fun _ => reg_setReg_other _ _ (.inr (by cases k <;> decide))) m

section
variable {s : State} {l : Lane} {k : Strand} (hh : s.haltedAt l k = false) (hr : s.retired l = false) (c : Cause)
  (x : Option Lane)
include hh hr

theorem haltOwn_cause : (s.haltOwn l k c x).reg l.unit (Reg.vtLcause k.idx) = causeWord c x := by
  have hh' : (s.setLCause l k c x).haltedAt l k = false := hh
  have hr' : (s.setLCause l k c x).retired l = false := by rw [setLCause_retired, hr]
  rw [haltOwn_eq hh hr, haltAt_reg hh' hr' c x l (by cases k <;> decide) (by cases k <;> decide)]
  exact reg_setReg_same ..

theorem haltOwn_starved (hc : c = .starved) : (s.haltOwn l k c x).flag l.unit (Reg.ecStat k.idx) 2 = true := by
  have hh' : (s.setLCause l k c x).haltedAt l k = false := hh
  have hr' : (s.setLCause l k c x).retired l = false := by rw [setLCause_retired, hr]
  rw [haltOwn_eq hh hr, State.flag, reg_of_calm (haltAt_calm hh' hr' c x) l (by cases k <;> decide)]
  rw [State.showStarved, if_pos hc]
  exact flag_setFlag_same _ _ _ _ _ (by decide)

theorem haltOwn_spec : let t := s.haltOwn l k c x
    t.haltedAt l k = true ∧
      (t.replica l k).mode = (if (s.replica l k).mode = .debugHalted then .debugHalted else .stopped) ∧
      (t.replica l k).out = [] ∧ (t.replica l k).load = none ∧ (t.echo l k).inQ = Quad.all [] ∧
      t.reg l.unit (Reg.vtLcause k.idx) = causeWord c x ∧
      (c = .starved → t.flag l.unit (Reg.ecStat k.idx) 2 = true) ∧
      (s.consumers.m.running = true → s.floodCount l.idx < 64 → ∃ e ∈ t.log.entries,
        e.code = .strandHalt ∧ e.src = l.idx ∧ e.strand = some k ∧ e.arg.headD 0 = Cause.code c) ∧
      (∀ j, j ≠ k → (t.replica l j).mode = (s.replica l j).mode ∧ t.haltedAt l j = s.haltedAt l j) ∧ t.base = s.base := by
  have hh' : (s.setLCause l k c x).haltedAt l k = false := hh
  have hr' : (s.setLCause l k c x).retired l = false := by rw [setLCause_retired, hr]
  have hcause := haltOwn_cause hh hr c x
  have hstarved := haltOwn_starved hh hr c x
  dsimp only
  rw [haltOwn_eq hh hr] at hcause hstarved ⊢
  obtain ⟨hmode, hout, hload⟩ := haltAt_stops hh' hr' c x
  obtain ⟨hhalt, hq⟩ := haltAt_halts hh' hr' c x
  refine ⟨hhalt, hmode, hout, hload, hq, hcause, hstarved, fun hm hf => haltAt_logs hh' hr' hm hf c x, fun j hj => ?_, by simp⟩
  obtain ⟨h1, h2⟩ := haltAt_other hh' hr' c x (m := l) (j := j) fun e => hj e.2
  exact ⟨(congrArg Replica.mode h1 :), (congrArg Echo.halted h2 :)⟩

theorem excludeAt_spec (y : Lane) (hy : (s.echo l k).inStep.get y = true) : let t := s.excludeAt l k y c
    (t.echo l k).inStep.get y = false ∧ (∀ z, z ≠ y → (t.echo l k).inStep.get z = (s.echo l k).inStep.get z) ∧
      (∃ h ∈ (t.echo l k).latched, h.occ.src = 0 ∧ h.occ.vec = 1) ∧
      (y = l → (t.replica l k).mode = .stopped ∧ (t.replica l k).out = []) ∧
      ((t.inStepAt l k).length < 2 → t.haltedAt l k = true) ∧ t.base = s.base := by
  have hin : ((s.excludeAt l k y c).echo l k).inStep = (s.echo l k).inStep.set y false := by
    rw [excludeAt_inStep hh hr hy, excludedAt_inStep, if_pos ⟨rfl, rfl⟩]
  obtain ⟨o, ho, hs⟩ := excludedAt_latched s l k y
  have hh' : (s.excludedAt l k y).haltedAt l k = false := by rw [excludedAt_halted, hh]
  have hr' : (s.excludedAt l k y).retired l = false := by rw [excludedAt_retired, hr]
  refine ⟨by rw [hin, Tri.get_set, if_pos rfl], fun z hz => by rw [hin, Tri.get_set, if_neg hz],
    ⟨o, (excludeAt_latches hh hr hy c).stays l k o ho, hs⟩, fun e => ?_, fun hlen => ?_, by simp⟩
  · subst e
    obtain ⟨h1, h2⟩ := excludedAt_own s y k
    rw [excludeAt_eq hh hr hy]
    dsimp only
    split
    · obtain ⟨hm, ho', -, -⟩ := haltOwn_spec hh' hr' c (some y) |>.2
      exact ⟨hm.trans (if_neg fun e => absurd (h1.symm.trans e) (by decide)), ho'⟩
    · have hc := replica_of_calm (State.tcfgSettle_calm (s.excludedAt y k y) k) y k
      exact ⟨(congrArg Replica.mode hc :).trans h1, (congrArg Replica.out hc :).trans h2⟩
  · have hlen' : ((s.excludedAt l k y).inStepAt l k).length < 2 := by
      rwa [State.inStepAt, excludeAt_inStep hh hr hy] at hlen
    rw [excludeAt_eq hh hr hy]
    dsimp only
    rw [if_pos hlen']
    exact (haltOwn_spec hh' hr' c (some y)).1

end

/-! ### Late replicas -/

/-- The late claim is counted and noted (R84). -/
def State.countLate (s : State) (l : Lane) (k : Strand) (pt : Word) (x : Lane) : State :=
  (s.setEcho l k { s.echo l k with late := (s.echo l k).late ++ [(pt, x)] }).bump l.unit (Reg.ecFaults k.idx) 7 0

/-- The late replica is excluded. -/
def State.excludeLate (s : State) (l : Lane) (k : Strand) (pt : Word) (x : Lane) : State :=
  if (s.echo l k).inStep.get x = true then ((s.countLate l k pt x).setLCause l k .late (some x)).excludeAt l k x .late
  else s.countLate l k pt x

theorem lateAt_eq (s : State) (l : Lane) (k : Strand) (pt : Word) (x : Lane) : s.lateAt l k pt x =
    if (s.echo l k).splitWait = some pt then (s.excludeLate l k pt x).echoSplits l k .diverge2oo2
    else (s.excludeLate l k pt x).tryAgree agreeDepth l k := rfl

theorem excludeLate_wanes (s : State) (l : Lane) (k : Strand) (pt : Word) (x : Lane) :
    Wanes (s.countLate l k pt x) (s.excludeLate l k pt x) :=
  .ite (.excludeAt (.setLCause (.refl _) ..) ..) (.refl _)

theorem lateAt_wanes (s : State) (l : Lane) (k : Strand) (pt : Word) (x : Lane) :
    Wanes (s.excludeLate l k pt x) (s.lateAt l k pt x) := by
  rw [lateAt_eq]
  exact .ite (.echoSplits (.refl _) ..) (.tryAgree (.refl _) ..)

theorem excludeLate_out {s : State} {l : Lane} {k : Strand} (pt : Word) (x : Lane) (hh : s.haltedAt l k = false)
    (hr : s.retired l = false) : ((s.excludeLate l k pt x).echo l k).inStep.get x = false := by
  have hc : (s.countLate l k pt x).retired l = false := by
    rw [← hr]
    exact retired_congr (fun _ => reg_bump_other _ _ _ (.inr (by cases k <;> decide))) l
  have he : (s.countLate l k pt x).echo l k = { s.echo l k with late := (s.echo l k).late ++ [(pt, x)] } :=
    (echo_setEcho ..).trans (if_pos ⟨rfl, rfl⟩)
  unfold State.excludeLate
  split
  · next hx =>
    refine (excludeAt_spec (s := (s.countLate l k pt x).setLCause l k .late (some x)) ?_ ?_ _ x ?_).1
    · exact (congrArg Echo.halted he).trans hh
    · rw [setLCause_retired, hc]
    · exact (congrArg (fun e : Echo => e.inStep.get x) he).trans hx
  · next hx =>
    rw [he]
    exact Bool.not_eq_true _ ▸ hx

theorem lateAt_spec (s : State) (l : Lane) (k : Strand) (pt : Word) (x : Lane) : let t := s.lateAt l k pt x
    t.fld l.unit (Reg.ecFaults k.idx) 7 0 = satAdd 8 (s.fld l.unit (Reg.ecFaults k.idx) 7 0) 1 ∧
      (s.haltedAt l k = false → s.retired l = false → (t.echo l k).inStep.get x = false) ∧ t.base = s.base := by
  have h := lateAt_wanes s l k pt x
  refine ⟨?_, fun hh hr => h.inStep l k x (excludeLate_out pt x hh hr), by simp⟩
  rw [h.late, (excludeLate_wanes ..).late]
  exact fld_bump _ _ _ 7 0 (by decide)

/-! ### Replica state changes -/

theorem nextReplState_lt {st : Nat} (h : st < 8) (ev : ReplEvent) (b : Bool) : nextReplState st ev b < 8 := by
  cases ev <;> simp only [nextReplState] <;> (repeat' split) <;> omega

/-- A lane and the lanes that show what it applies come to show a value (log entry 125). -/
theorem fld_showIn (s t : State) (l : Lane) (k : Strand) {off hi lo : Nat} (v : Nat) (h : hi < 32) :
    ((s.showIn l k).foldl (fun t x => t.setFld x.unit off hi lo v) t).fld l.unit off hi lo = v % 2 ^ (hi + 1 - lo) := by
  have rest (xs : List Lane) (hx : ∀ x ∈ xs, x ≠ l) (t : State) :
      (xs.foldl (fun t x => t.setFld x.unit off hi lo v) t).reg l.unit off = t.reg l.unit off := by
    induction xs generalizing t with
    | nil => rfl
    | cons x xs ih =>
      have hxl : l.unit ≠ x.unit := by
        have := hx x List.mem_cons_self
        revert this
        cases x <;> cases l <;> decide
      rw [List.foldl_cons, ih (fun y hy => hx y (List.mem_cons_of_mem _ hy)), reg_setFld_other _ _ _ _ (.inl hxl)]
  rw [State.showIn, List.foldl_cons, State.fld, rest]
  · exact fld_setFld_same _ _ _ _ _ _ h
  · intro x hx
    have := (List.mem_filter.1 hx).2
    simp only [Bool.and_eq_true, bne_iff_ne] at this
    exact this.1

theorem reg_showDebug (s : State) (l : Lane) (k : Strand) (u : RUnit) {off : Nat} (h : off ≠ Reg.rjDbg) :
    (s.showDebug l k).reg u off = s.reg u off := by
  unfold State.showDebug
  exact reg_foldl_of_each (fun _ _ _ => reg_setFld_other _ _ _ _ (.inr h)) _

theorem reg_ite (c : Prop) [Decidable c] (s t : State) (u : RUnit) (off : Nat) :
    (if c then s else t).reg u off = if c then s.reg u off else t.reg u off := by split <;> rfl

/-- The state in which a change shows in `LN_REPL` and `RJ_DBG`, before its vectors are raised. -/
def State.showChange (s : State) (l : Lane) (k : Strand) (c : Change) (now : Dword) : State :=
  let t := State.pruneChanges { s with changes := s.changes.set k ((s.changes.get k).map fun (c' : Change) =>
    if c'.num = c.num then { c' with applied := l :: c'.applied } else c') } k
  ((s.showIn l k).foldl (fun t x => t.setFld x.unit (Reg.lnRepl k) (3 * c.repl.idx + 2) (3 * c.repl.idx)
    (nextReplState (s.replState l k c.repl) c.event (s.budgetReached l k c.repl now))) t).showDebug l k

theorem reg_applyChange (s : State) (l : Lane) (k : Strand) (c : Change) (now : Dword) {off : Nat}
    (h : off ≠ Reg.lnEvPend k 0) : (s.applyChange l k c now).reg l.unit off = (s.showChange l k c now).reg l.unit off := by
  have hp (t : State) (v : Nat) (hv : v < 32) : (t.setPending l k v).reg l.unit off = t.reg l.unit off :=
    reg_setPending_other _ _ _ (by rwa [Nat.div_eq_of_lt hv])
  have he (t : State) (e : Echo) : (t.setEcho l k e).reg l.unit off = t.reg l.unit off := rfl
  simp only [State.applyChange, State.showChange]
  split <;> simp only [hp _ 1 (by decide), hp _ 2 (by decide), he, reg_ite, ite_self]

/-- A lane that applies a change shows the replica's next state (R126). -/
theorem fld_applyChange (s : State) (l : Lane) (k : Strand) (c : Change) (now : Dword) :
    (s.applyChange l k c now).fld l.unit (Reg.lnRepl k) (3 * c.repl.idx + 2) (3 * c.repl.idx) =
      nextReplState (s.replState l k c.repl) c.event (s.budgetReached l k c.repl now) := by
  have hst : s.replState l k c.repl < 8 := by
    have h := fieldOf_lt (s.reg l.unit (Reg.lnRepl k)) (3 * c.repl.idx + 2) (3 * c.repl.idx)
    rwa [show 3 * c.repl.idx + 2 + 1 - 3 * c.repl.idx = 3 by omega] at h
  have hi : 3 * c.repl.idx + 2 < 32 ∧ 3 * c.repl.idx + 2 + 1 - 3 * c.repl.idx = 3 := by cases c.repl <;> decide
  rw [State.fld, reg_applyChange _ _ _ _ _ (by cases k <;> decide), State.showChange,
    reg_showDebug _ _ _ _ (by cases k <;> decide)]
  refine (fld_showIn s _ l k _ hi.1).trans ?_
  rw [hi.2]
  exact Nat.mod_eq_of_lt (nextReplState_lt hst ..)

/-- Settles O18: the frame of a halt and of an exclusion is `haltOwn_spec` and `excludeAt_spec`, that of a late claim
`lateAt_spec`. -/
theorem claimsNoticesAndSoloOccurrencesAct : Obligations.ClaimsNoticesAndSoloOccurrencesAct := by
  unfold Obligations.ClaimsNoticesAndSoloOccurrencesAct
  refine ⟨⟨fun l k o s h => exec_evSolo_noted h, ?_⟩, fun l k s => ⟨exec_starveTimeout, fun x => ⟨fun h => ?_, fun h => ?_⟩,
    fun pt x => exec_lateClaim, ?_, fun x c => rfl, fun c => rfl, fun h c x => ?_, fun hh hr c x => haltOwn_spec hh hr c x,
    fun x c h => excludeAt_absent h c, fun x c hh hr hx => excludeAt_spec hh hr c x hx, fun pt x => lateAt_spec s l k pt x,
    fun c now => fld_applyChange s l k c now, ?_⟩⟩
  · intro l k o s h hr ho hp hl hmem hsince hothers
    obtain ⟨hcount, hreg, hlanes, hvoters, hwires, hlinks⟩ := noteSolo_keeps s l k o
    refine ⟨s.noteSolo l k o, exec_evSolo ?_ ho hr, hcount, hreg, hlanes, hvoters, hwires, hlinks,
      fun hm hf => noteSolo_entry hm hf k o⟩
    exact (soloIn_iff ..).2 ⟨h, hp, hl, hmem, hsince, hothers⟩
  · rw [exec_starveClaimReceive, if_neg (by simp [h])]
  · rw [exec_starveClaimReceive, if_pos h]
  · intro c hk hr hc
    subst hk
    exact exec_lateClaimReceive hr hc
  · obtain ⟨h1, h2⟩ := haltAt_idle h c x
    exact ⟨h2, h1⟩
  · refine ⟨rfl, rfl, rfl, rfl, rfl, rfl, rfl, fun st b => rfl⟩

end Sys2Proof.Machine
end

-- ==== Proofs: the retirement of a lane ====
section
/-! A lane-wide fault and the lane-retire notice (R148, R173), and what a failed junction link loses (R33). -/

namespace Sys2Proof.Machine

/-! ### A flag that every lane shows -/

/-- One bit of a register in every lane. -/
def State.flagAll (s : State) (off i : Nat) (b : Bool) : State := Lane.list.foldl (fun t x => t.setFlag x.unit off i b) s

section
variable (s : State) (x : Lane) {off i : Nat} (b : Bool)

theorem flag_flagAll (hi : i < 32) : (s.flagAll off i b).flag x.unit off i = b := by
  cases x <;> simp [State.flagAll, Lane.list, State.flag, State.setFlag, reg_setReg, Lane.unit, hi]

theorem flag_flagAll_other {j : Nat} (h : j ≠ i) : (s.flagAll off i b).flag x.unit off j = s.flag x.unit off j := by
  cases x <;> simp [State.flagAll, Lane.list, State.flag, State.setFlag, reg_setReg, Lane.unit, bitOf_withBit_other _ _ h]

theorem fld_flagAll_other {hi lo : Nat} (h : i < lo ∨ hi < i) : (s.flagAll off i b).fld x.unit off hi lo = s.fld x.unit off hi lo := by
  cases x <;> simp [State.flagAll, Lane.list, State.fld, State.setFlag, reg_setReg, Lane.unit, fieldOf_withBit_other _ b h]

theorem flag_setLaneFld_other {hi lo j : Nat} (v : Nat) (h : j < lo ∨ hi < j) :
    (s.setLaneFld off hi lo v).flag x.unit off j = s.flag x.unit off j := by
  cases x <;> simp [State.setLaneFld, State.flag, State.setFld, reg_setReg, Lane.unit, bitOf_withField_other _ v h]

theorem flagAll_eq : ∃ rg, s.flagAll off i b = { s with regs := rg } := ⟨_, rfl⟩

end

/-! ### The fault line -/

/-- The fault line shows in every lane, the class in the faulty one, whose cores stop (R173). -/
def State.showFault (s : State) (l : Lane) (c : LaneFault) : State :=
  (((s.arrive (.faultLine l c)).flagAll Reg.lnLfault l.idx true).setFld l.unit Reg.lnLfault 10 8
    (LaneFault.code c)).coresStopped l

theorem showFault_frame (s : State) (l : Lane) (c : LaneFault) : ∃ lanes,
    s.showFault l c = { ((s.arrive (.faultLine l c)).flagAll Reg.lnLfault l.idx true).setFld l.unit Reg.lnLfault 10 8
      (LaneFault.code c) with lanes := lanes } := coresStopped_frame ..

theorem exec_faultLineAssert {l : Lane} {s : State} (hm : s.consumers.m.running = true) (c : LaneFault) :
    exec (.faultLineAssert l c) s = .next ((s.showFault l c).sendRetire l c) := by
  have h : (s.showFault l c).consumers.m.running = true := hm
  have hc : ¬ ((((s.showFault l c).peers l).isEmpty && !(s.showFault l c).consumers.m.running) = true) := by simp [h]
  exact congrArg Host.Outcome.next (if_neg hc)

theorem lane_idx_lt (l : Lane) : l.idx < 3 := by cases l <;> decide

theorem reg_showFault (s : State) (l : Lane) (c : LaneFault) (u : RUnit) (off : Nat) : (s.showFault l c).reg u off =
    (((s.arrive (.faultLine l c)).flagAll Reg.lnLfault l.idx true).setFld l.unit Reg.lnLfault 10 8
      (LaneFault.code c)).reg u off := by
  obtain ⟨lanes, h⟩ := showFault_frame s l c
  rw [h]
  rfl

theorem flag_showFault (s : State) (l x : Lane) (c : LaneFault) : (s.showFault l c).flag x.unit Reg.lnLfault l.idx = true := by
  have hi := lane_idx_lt l
  rw [State.flag, reg_showFault]
  by_cases hx : x = l
  · rw [hx]
    exact (flag_setFld_other _ _ _ _ (.inl (by omega))).trans (flag_flagAll _ l true (by omega))
  · have hu : x.unit ≠ l.unit := by revert hx; cases x <;> cases l <;> decide
    rw [reg_setFld_other _ _ _ _ (.inl hu)]
    exact flag_flagAll _ x true (by omega)

theorem retired_showFault (s : State) (l x : Lane) (c : LaneFault) : (s.showFault l c).retired x = s.retired x := by
  refine (retired_congr (fun y => ?_) x).trans (retired_arrive s (.faultLine l c) x)
  rw [reg_showFault, reg_setFld_other _ _ _ _ (.inr (by decide))]
  exact reg_foldl_of_each (fun _ _ _ => reg_setFlag_other _ _ _ (.inr (by decide))) _

theorem fault_line_shows {l : Lane} {s : State} (hr : s.retired l = false) (hm : s.consumers.m.running = true) (c : LaneFault) :
    ∃ t, exec (.faultLineAssert l c) s = .next t ∧ t.wires = eraseFirst (.faultLine l c) s.wires ++ [.retireNotice l c] ∧
      (∀ x : Lane, t.flag x.unit Reg.lnLfault l.idx = true) ∧ t.fld l.unit Reg.lnLfault 10 8 = LaneFault.code c ∧
      (∀ k, (t.replica l k).mode = .stopped) ∧ t.base = s.base := by
  have hrf : (s.showFault l c).retired l = false := by rw [retired_showFault, hr]
  have hx := exec_faultLineAssert (l := l) hm c
  rw [sendRetire_live hrf] at hx
  refine ⟨_, hx, ?_, fun x => flag_showFault s l x c, ?_, fun k => ?_, ?_⟩
  · rfl
  · show fieldOf ((s.showFault l c).reg _ _) _ _ = _
    rw [reg_showFault]
    exact (fld_setFld_same _ _ _ _ _ _ (by decide)).trans (Nat.mod_eq_of_lt (code_lt c))
  · exact congrArg Replica.mode (replica_coresStopped _ l k)
  · exact exec_base rfl hx

/-! ### The retirement of a lane -/

section
variable {s t : State} (h : Wanes s t)
include h

theorem Wanes.retireAt (l : Lane) (k : Strand) (x : Lane) : Wanes s (t.retireAt l k x) := by
  have hl : Wanes s ((t.latchChange l k x .retired).setEcho l k { (t.latchChange l k x .retired).echo l k with
      inStep := ((t.latchChange l k x .retired).echo l k).inStep.set x false }) := by
    refine .setEcho (h.calm (State.latchChange_calm ..)) _ _ ?_
    exact fun _ hy => get_set_false hy
  refine .ite ?_ (.ite (hl.haltOwn ..) (hl.calm (State.tcfgSettle_calm ..)))
  exact .calm (.calm (hl.calm (State.applyChangesAtHalt_calm ..)) (State.checkRetired_calm ..)) (State.tcfgSettle_calm ..)

end

/-- The retired lane leaves the set of every Echo unit that hears of it. -/
theorem retireAt_out (s : State) (l : Lane) (k : Strand) (x : Lane) : ((s.retireAt l k x).echo l k).inStep.get x = false := by
  let u := (s.latchChange l k x .retired).setEcho l k { (s.latchChange l k x .retired).echo l k with
    inStep := ((s.latchChange l k x .retired).echo l k).inStep.set x false }
  have hu : (u.echo l k).inStep.get x = false := by
    rw [echo_setEcho, if_pos ⟨rfl, rfl⟩]
    exact get_set_lane ..
  have hw : Wanes u (s.retireAt l k x) := by
    refine .ite ?_ (.ite (.haltOwn (.refl u) ..) (.calm (.refl u) (State.tcfgSettle_calm ..)))
    exact .calm (.calm (.calm (.refl u) (State.applyChangesAtHalt_calm ..)) (State.checkRetired_calm ..))
      (State.tcfgSettle_calm ..)
  exact hw.inStep l k x hu

/-- Every Echo unit of a list, on the retirement of a lane. -/
theorem retireAll_out (ls : List Lane) (s : State) (k : Strand) (x : Lane) {l : Lane} (hl : l ∈ ls) :
    ((ls.foldl (fun t l => t.retireAt l k x) s).echo l k).inStep.get x = false := by
  obtain ⟨as, bs, rfl⟩ := List.append_of_mem hl
  rw [List.foldl_append, List.foldl_cons]
  exact ((Wanes.refl _).foldl _ (fun _ _ hu => hu.retireAt ..) bs).inStep l k x (retireAt_out ..)

/-- A rejoin of the lane ends (R145). -/
def State.endRejoinOf (s : State) (x : Lane) : State :=
  match s.rejoin with
  | some r => if r.target = x ∨ r.donor = x then s.abandonRejoin 0x13 else s
  | none => s

/-- `RJ_LANE` shows the retired lane and the cause (R172). -/
def State.showRetirement (s : State) (x : Lane) (c : LaneFault) : State :=
  State.flagAll ((s.endRejoinOf x).setLaneFld Reg.rjLane (6 + 4 * x.idx) (4 + 4 * x.idx) (LaneFault.code c)) Reg.rjLane x.idx true

/-- The lane's replica of a strand stops, and the voters hear of it. -/
def State.stopReplica (s : State) (x : Lane) (k : Strand) : State :=
  let t := s.setReplica x k { s.replica x k with mode := .stopped, load := none, out := [] }
  t.dies.foldl (fun t d => t.voterNotice d k x) t

/-- The replicas of the lane have stopped. -/
def State.stopLane (s : State) (x : Lane) (c : LaneFault) : State :=
  (Strand.list.foldl (fun t k => t.stopReplica x k) (s.showRetirement x c)).clearLatches x 0xFFFF

theorem retireLane_eq {s : State} {x : Lane} (h : s.retired x = false) (c : LaneFault) : s.retireLane x c =
    ((Strand.list.foldl (fun t k => t.liveLanes.foldl (fun t l => t.retireAt l k x) t) (s.stopLane x c)).logEv 6 none
      .laneRetired [x.idx, LaneFault.code c]).setPathOut x.idx :=
  if_neg (by simp [h])

theorem endRejoinOf_calm (s : State) (x : Lane) : (s.endRejoinOf x).calm = s.calm := by
  unfold State.endRejoinOf
  split
  · rw [calm_ite, State.abandonRejoin_calm, ite_self]
  · rfl

section
variable (s : State) (x : Lane) (c : LaneFault)

theorem flag_showRetirement (l : Lane) : (s.showRetirement x c).flag l.unit Reg.rjLane x.idx = true :=
  flag_flagAll _ l true (by have := lane_idx_lt x; omega)

theorem fld_showRetirement (l : Lane) :
    (s.showRetirement x c).fld l.unit Reg.rjLane (6 + 4 * x.idx) (4 + 4 * x.idx) = LaneFault.code c := by
  have hx := lane_idx_lt x
  rw [State.showRetirement, fld_flagAll_other _ l true (.inl (by omega)), fld_setLaneFld_same _ _ _ _ _ l (show 6 + 4 * x.idx < 32 by omega),
    show 6 + 4 * x.idx + 1 - (4 + 4 * x.idx) = 3 by omega]
  exact Nat.mod_eq_of_lt (code_lt c)

theorem retired_showRetirement {l : Lane} (h : l ≠ x) : (s.showRetirement x c).retired l = s.retired l := by
  have hi : l.idx ≠ x.idx := by revert h; cases l <;> cases x <;> decide
  rw [State.retired, State.showRetirement, flag_flagAll_other _ l true hi, ← retired_of_calm (endRejoinOf_calm s x) l]
  have hl := lane_idx_lt l
  exact flag_setLaneFld_other _ l _ (.inl (by omega))

/-- What follows the cause in `RJ_LANE` takes none of it back. -/
theorem stopReplica_wanes (k : Strand) : Wanes s (s.stopReplica x k) := by
  refine .foldl (.setReplica (.refl s) _ _ ?_) _ (fun _ _ hu => hu.calm (State.voterNotice_calm ..)) _
  exact fun _ => ⟨rfl, rfl, rfl⟩

theorem stopReplica_still (k : Strand) : ((s.stopReplica x k).replica x k).still := by
  have hw : Wanes (s.setReplica x k { s.replica x k with mode := .stopped, load := none, out := [] }) (s.stopReplica x k) :=
    .foldl (.refl _) _ (fun _ _ hu => hu.calm (State.voterNotice_calm ..)) _
  refine hw.still x k ?_
  rw [replica_setReplica, if_pos ⟨rfl, rfl⟩]
  exact ⟨rfl, rfl, rfl⟩

theorem stopLane_wanes : Wanes (s.showRetirement x c) (s.stopLane x c) :=
  .calm (.foldl (.refl _) _ (fun t k hu => hu.trans (stopReplica_wanes t x k)) _) (State.clearLatches_calm ..)

theorem stopLane_still (k : Strand) : ((s.stopLane x c).replica x k).still := by
  have key (ks : List Strand) (t : State) (hk : k ∈ ks) : ((ks.foldl (fun t k => t.stopReplica x k) t).replica x k).still := by
    obtain ⟨as, bs, rfl⟩ := List.append_of_mem hk
    rw [List.foldl_append, List.foldl_cons]
    exact ((Wanes.refl _).foldl _ (fun t k hu => hu.trans (stopReplica_wanes t x k)) bs).still x k (stopReplica_still ..)
  exact (Wanes.calm (.refl _) (State.clearLatches_calm ..)).still x k (key _ _ (by cases k <;> decide))

end

theorem retireLane_wanes {s : State} {x : Lane} (h : s.retired x = false) (c : LaneFault) :
    Wanes (s.stopLane x c) (s.retireLane x c) := by
  rw [retireLane_eq h]
  refine .calm (.calm (.foldl (.refl _) _ (fun t k hu => ?_) _) (State.logEv_calm ..)) (State.setPathOut_calm ..)
  exact hu.foldl _ (fun _ _ hv => hv.retireAt ..) _

theorem Wanes.retired {s t : State} (h : Wanes s t) (x : Lane) : t.retired x = s.retired x := retired_congr h.rjLane x

/-- No Echo unit of a live lane holds the retired lane in step any more. -/
theorem retireLane_out {s : State} {x l : Lane} (h : s.retired x = false) (hl : l ≠ x) (hr : s.retired l = false)
    (c : LaneFault) (k : Strand) : ((s.retireLane x c).echo l k).inStep.get x = false := by
  have key (ks : List Strand) (t : State) (hk : k ∈ ks) (ht : t.retired l = false) :
      ((ks.foldl (fun t k => t.liveLanes.foldl (fun t l => t.retireAt l k x) t) t).echo l k).inStep.get x = false := by
    have step (t : State) (k : Strand) : Wanes t (t.liveLanes.foldl (fun t l => t.retireAt l k x) t) :=
      .foldl (.refl t) _ (fun _ _ hu => hu.retireAt ..) _
    obtain ⟨as, bs, rfl⟩ := List.append_of_mem hk
    have ha : Wanes t (as.foldl (fun t k => t.liveLanes.foldl (fun t l => t.retireAt l k x) t) t) :=
      .foldl (.refl t) _ (fun _ _ hu => hu.trans (step ..)) _
    rw [List.foldl_append, List.foldl_cons]
    refine ((Wanes.refl _).foldl _ (fun _ _ hu => hu.trans (step ..)) bs).inStep l k x ?_
    exact retireAll_out _ _ k x (mem_liveLanes (by rw [ha.retired, ht]))
  have hs : (s.stopLane x c).retired l = false := by
    rw [(stopLane_wanes s x c).retired, retired_showRetirement s x c hl, hr]
  rw [retireLane_eq h, inStep_of_calm (State.setPathOut_calm ..), inStep_of_calm (State.logEv_calm ..)]
  exact key _ _ (by cases k <;> decide) hs

/-! ### What the lanes report of the leases -/

theorem modHeld_of_wanes {s t : State} (h : Wanes s t) (p : PDie) : t.modHeld p = s.modHeld p := by
  have hr : t.holdReports p = s.holdReports p := by
    simp only [State.holdReports, h.heldBy, h.junction, h.retired]
  rw [State.modHeld, hr, State.modHeld]

theorem showHeldAll_shows (s : State) (p : PDie) :
    s.showHeldAll.flag p.unit Reg.lsStat 27 = s.modHeld p ∧ s.showHeldAll.modHeld p = s.modHeld p ∧
      s.showHeldAll.lanes = s.lanes ∧ ∀ x : Lane, ∀ off, s.showHeldAll.reg x.unit off = s.reg x.unit off := by
  have h1 := showHeld_shown s .p1
  have h2 := showHeld_shown (s.showHeld .p1) .p2
  have hreg (x : Lane) (off : Nat) : s.showHeldAll.reg x.unit off = s.reg x.unit off := by
    obtain ⟨hu1, hm, -⟩ := lane_unit_ne x .p1
    obtain ⟨hu2, -, -⟩ := lane_unit_ne x .p2
    exact (h2.reg _ _ (.inl hu2) hm).trans (h1.reg _ _ (.inl hu1) hm)
  have hports (q : PDie) : (s.showHeldAll.port q).heldBy = (s.port q).heldBy := by
    simp only [State.port, State.showHeldAll, h2.ports, h1.ports]
  have hmod (q : PDie) : s.showHeldAll.modHeld q = s.modHeld q :=
    modHeld_congr (hports q) (h2.lanes.trans h1.lanes) hreg
  refine ⟨?_, hmod p, h2.lanes.trans h1.lanes, hreg⟩
  cases p with
  | p1 =>
    refine Eq.trans ?_ h1.flag
    exact congrArg (bitOf · 27) (h2.reg _ _ (.inl (by decide)) (by decide))
  | p2 =>
    refine h2.flag.trans (modHeld_congr ?_ h1.lanes fun x off => ?_)
    · simp only [State.port, h1.ports]
    · obtain ⟨hu1, hm, -⟩ := lane_unit_ne x .p1
      exact h1.reg _ _ (.inl hu1) hm

theorem reStepAll_side (s : State) : s.reStepAll.side = s.side := by
  rw [State.reStepAll, State.showDs_side]
  refine side_foldl _ (fun t l => ?_) _ _
  obtain ⟨g, hg, -⟩ := reStep_samePace t l
  rw [hg]
  rfl

/-- The state that the lane-retire notice leaves (R148, R352, R414). -/
def State.afterRetire (s : State) (l : Lane) (c : LaneFault) : State :=
  (s.retireLane l c).reStepAll.showHeldAll.agreeAgain

/-- What the retirement of a lane takes back of nothing, but what a port die shows of the leases. -/
theorem afterRetire_keeps {s : State} {l : Lane} (h : s.retired l = false) (c : LaneFault) :
    (∀ x : Lane, (s.afterRetire l c).reg x.unit Reg.rjLane = (s.showRetirement l c).reg x.unit Reg.rjLane) ∧
      (∀ k, ((s.afterRetire l c).replica l k).still) ∧
      (∀ k x, x ≠ l → s.retired x = false → ((s.afterRetire l c).echo x k).inStep.get l = false) ∧
      ∀ p : PDie, (s.afterRetire l c).flag p.unit Reg.lsStat 27 = (s.afterRetire l c).modHeld p := by
  have hw := (retireLane_wanes h c).side (reStepAll_side _)
  have ha : Wanes (s.retireLane l c).reStepAll.showHeldAll (s.afterRetire l c) := .agreeAgain (.refl _)
  have hlanes := (showHeldAll_shows (s.retireLane l c).reStepAll .p1).2.2.1
  have hregs := (showHeldAll_shows (s.retireLane l c).reStepAll .p1).2.2.2
  refine ⟨fun x => ?_, fun k => ha.still l k ?_, fun k x hx hr => ha.inStep x k l ?_, fun p => ?_⟩
  · rw [ha.rjLane, hregs, hw.rjLane, (stopLane_wanes s l c).rjLane]
  · rw [replica_of_lanes hlanes]
    exact hw.still l k (stopLane_still s l c k)
  · rw [echo_of_lanes hlanes, inStep_of_side (reStepAll_side _)]
    exact retireLane_out h hx hr c k
  · obtain ⟨hf, hm, -, -⟩ := showHeldAll_shows (s.retireLane l c).reStepAll p
    rw [modHeld_of_wanes ha, hm, ← hf, State.flag, ha.shown]
    rfl

theorem exec_laneRetire (l : Lane) (c : LaneFault) (s : State) : exec (.laneRetire l c) s =
    .next (if (s.arrive (.retireNotice l c)).retired l = true then s.arrive (.retireNotice l c)
      else (s.arrive (.retireNotice l c)).afterRetire l c) := rfl

theorem lane_is_retired {l : Lane} {s : State} (hr : s.retired l = false) (c : LaneFault) :
    let u := s.arrive (.retireNotice l c)
    ∃ t, exec (.laneRetire l c) s = .next t ∧ t = (u.retireLane l c).reStepAll.showHeldAll.agreeAgain ∧
      t.retired l = true ∧
      (∀ x : Lane, t.flag x.unit Reg.rjLane l.idx = true ∧
        t.fld x.unit Reg.rjLane (6 + 4 * l.idx) (4 + 4 * l.idx) = LaneFault.code c) ∧
      (∀ k, (t.replica l k).mode = .stopped ∧ (t.replica l k).out = [] ∧ (t.replica l k).load = none ∧
        ∀ x, x ≠ l → s.retired x = false → (t.echo x k).inStep.get l = false) ∧
      (∀ p : PDie, t.flag p.unit Reg.lsStat 27 = t.modHeld p) ∧ t.base = s.base := by
  dsimp only
  have hr' : (s.arrive (.retireNotice l c)).retired l = false := by rw [retired_arrive, hr]
  have hx := exec_laneRetire l c s
  rw [if_neg (by simp [hr'])] at hx
  obtain ⟨hreg, hstill, hout, hheld⟩ := afterRetire_keeps hr' c
  refine ⟨_, hx, rfl, ?_, fun x => ⟨?_, ?_⟩, fun k => ⟨(hstill k).1, (hstill k).2.1, (hstill k).2.2, fun x hne hxr => ?_⟩,
    hheld, exec_base rfl hx⟩
  · rw [State.retired, State.flag, hreg]
    exact flag_showRetirement _ l c l
  · rw [State.flag, hreg]
    exact flag_showRetirement _ l c x
  · rw [State.fld, hreg]
    exact fld_showRetirement _ l c x
  · exact hout k x hne (by rw [retired_arrive, hxr])

/-! ### A failed junction link (R33) -/

/-- The link of a lane and a die has failed, and carries only what `j` holds. -/
structure DeadLink (l : Lane) (d : Die) (j : JLink) (s : State) : Prop where
  junction : (s.lane l).junction.get d = false
  jlink : s.jlink l d = j

section
variable {l : Lane} {d : Die} {j : JLink}

theorem DeadLink.sendOne {s : State} (h : DeadLink l d j s) {w : Wire} (hw : ∀ down c, w.route ≠ some (l, d, down, c)) :
    DeadLink l d j (s.sendOne w) := by
  rw [State.sendOne]
  split
  next m e down c hr =>
    have hne : ¬ (l = m ∧ d = e) := by
      rintro ⟨rfl, rfl⟩
      exact hw _ _ hr
    refine ⟨h.junction, ?_⟩
    rw [State.setVcQueue, jlink_setJLink, if_neg hne, h.jlink]
  next => exact ⟨h.junction, h.jlink⟩

theorem DeadLink.send {s : State} (h : DeadLink l d j s) {ws : List Wire}
    (hw : ∀ w ∈ ws, ∀ down c, w.route ≠ some (l, d, down, c)) : DeadLink l d j (s.send ws) := by
  induction ws generalizing s with
  | nil => exact h
  | cons w ws ih =>
    exact ih (h.sendOne (hw w List.mem_cons_self)) fun x hx => hw x (List.mem_cons_of_mem _ hx)

theorem DeadLink.foldl {β : Type} {g : State → β → State} (hg : ∀ t x, DeadLink l d j t → DeadLink l d j (g t x))
    (xs : List β) {s : State} (h : DeadLink l d j s) : DeadLink l d j (xs.foldl g s) := by
  induction xs generalizing s with
  | nil => exact h
  | cons x xs ih => exact ih (hg s x h)

/-- A die raises a vector over its working links only. -/
theorem DeadLink.raise {s : State} (h : DeadLink l d j s) (e : Die) (k : Strand) (v : Nat) : DeadLink l d j (s.raise e k v) := by
  rw [State.raise]
  split
  · have hc : DeadLink l d j (s.countOcc e k) := ⟨h.junction, h.jlink⟩
    refine hc.send fun w hw down c hr => ?_
    obtain ⟨m, hm, rfl⟩ := List.mem_map.1 hw
    simp only [Wire.route, Option.some.injEq, Prod.mk.injEq] at hr
    obtain ⟨rfl, rfl, -⟩ := hr
    simp [State.linked, h.junction] at hm
  · exact h

theorem DeadLink.showHeld {s : State} (h : DeadLink l d j s) (p : PDie) : DeadLink l d j (s.showHeld p) := by
  have ht : DeadLink l d j (s.setFlag p.unit Reg.lsStat 27 (s.modHeld p)) := ⟨h.junction, h.jlink⟩
  rw [State.showHeld]
  split
  · exact ht
  · exact .foldl (fun t k hu => hu.raise ..) _ ht

theorem DeadLink.pwFail {s : State} (h : DeadLink l d j s) (e : Die) (k : Option Strand) (r : WerrRec) :
    DeadLink l d j (s.pwFail e k r) := by
  rw [State.pwFail.eq_def]
  dsimp only
  split
  · refine DeadLink.raise ?_ ..
    split <;> exact ⟨h.junction, h.jlink⟩
  · split <;> exact ⟨h.junction, h.jlink⟩

theorem DeadLink.loseWrite {s : State} (h : DeadLink l d j s) (m : Lane) (w : Broadcast) (cause : Nat) :
    DeadLink l d j (s.loseWrite m w cause) := by
  have hp := h.pwFail (Die.ofPDie w.die) (some w.strand) ⟨cause, BitVec.ofNat 16 (w.unit.toNat * 256), w.addr.toNat, 1⟩
  simp only [State.loseWrite]
  split
  · refine ⟨?_, hp.jlink⟩
    rw [lane_setLane]
    split
    next hm =>
      subst hm
      exact hp.junction
    next => exact hp.junction
  · exact hp

/-- A broadcast leaves on a working link only. -/
theorem DeadLink.broadcastTo {s : State} (h : DeadLink l d j s) (w : Broadcast) (m : Lane) :
    DeadLink l d j (s.broadcastTo w m) := by
  by_cases hj : (s.lane m).junction.get (Die.ofPDie w.die) = true
  · have hne : ¬ (m = l ∧ Die.ofPDie w.die = d) := by
      rintro ⟨rfl, rfl⟩
      simp [h.junction] at hj
    simp only [State.broadcastTo]
    split
    · refine h.send fun x hx down c hr => ?_
      rcases List.mem_cons.1 hx with rfl | hx
      · simp only [Wire.route, Option.some.injEq, Prod.mk.injEq] at hr
        exact hne ⟨hr.1, hr.2.1⟩
      · split at hx
        · rw [List.mem_singleton.1 hx] at hr
          simp only [Wire.route, Option.some.injEq, Prod.mk.injEq] at hr
          exact hne ⟨hr.1, hr.2.1⟩
        · simp at hx
    · exact h.loseWrite ..
  · simp only [State.broadcastTo, hj, Bool.not_false, if_true]
    exact h.loseWrite ..

theorem DeadLink.showHeldAll {s : State} (h : DeadLink l d j s) : DeadLink l d j s.showHeldAll :=
  (h.showHeld .p1).showHeld .p2

end

/-- A lane notes that its link to a die has failed. -/
def State.cutJunction (s : State) (l : Lane) (d : Die) : State :=
  State.logEv (s.setLane l { s.lane l with junction := (s.lane l).junction.set d false }) l.idx none .linkFail
    [l.idx, Die.logSrc d]

/-- A link with nothing under way. -/
def JLink.emptied (j : JLink) : JLink := { j with up := ⟨[], [], []⟩, down := ⟨[], [], []⟩ }

/-- The link of a lane and a die as it fails: with nothing under way. -/
def State.cutLink (s : State) (l : Lane) (d : Die) : State :=
  (s.cutJunction l d).setJLink l d ((s.cutJunction l d).jlink l d).emptied

/-- What becomes of a message on a link that fails. -/
def State.loseWire (l : Lane) (s : State) (w : Wire) : State :=
  match w with
  | .broadcast _ b => s.loseBroadcast l b
  | _ => s

theorem exec_linkFail (l : Lane) (d : Die) (s : State) : exec (.linkFail l d) s =
    .next ((s.vcQueue l d true .posted).foldl (State.loseWire l) (s.cutLink l d)).showHeldAll := rfl

theorem cutLink_dead (l : Lane) (d : Die) (s : State) :
    DeadLink l d ((s.cutLink l d).jlink l d) (s.cutLink l d) ∧
      ∀ down c, (s.cutLink l d).vcQueue l d down c = [] := by
  refine ⟨⟨?_, rfl⟩, fun down c => ?_⟩
  · have hf := logEv_frame (s.setLane l { s.lane l with junction := (s.lane l).junction.set d false }) l.idx none .linkFail
      [l.idx, Die.logSrc d]
    have h : ((s.cutJunction l d).lane l).junction = (s.lane l).junction.set d false := by
      obtain ⟨_, hf⟩ := hf
      rw [State.cutJunction, hf]
      exact congrArg LaneState.junction ((lane_setLane ..).trans (if_pos rfl))
    exact (congrArg (Four.get · d) h).trans ((Four.get_set ..).trans (if_pos rfl))
  · rw [State.vcQueue, State.cutLink, jlink_setJLink, if_pos (And.intro rfl rfl)]
    cases down <;> cases c <;> rfl

theorem loseWire_dead {l : Lane} {d : Die} {j : JLink} (s : State) (m : Lane) (w : Wire) (h : DeadLink l d j s) :
    DeadLink l d j (s.loseWire m w) := by
  cases w with
  | broadcast _ b => exact h.broadcastTo b m
  | _ => exact h

theorem link_is_lost (l : Lane) (d : Die) (s : State) :
    ∃ t, exec (.linkFail l d) s = .next t ∧ (t.lane l).junction.get d = false ∧
      (∀ down c, t.vcQueue l d down c = []) ∧ (∀ w, t.mayArrive w = true → ∀ down c, Wire.route w ≠ some (l, d, down, c)) ∧
      t.base = s.base := by
  obtain ⟨hd, hq⟩ := cutLink_dead l d s
  have h : DeadLink l d _ ((s.vcQueue l d true .posted).foldl (State.loseWire l) (s.cutLink l d)).showHeldAll :=
    (DeadLink.foldl (fun t w hu => loseWire_dead t l w hu) _ hd).showHeldAll
  refine ⟨_, exec_linkFail l d s, h.junction, fun down c => ?_, fun w hw down c hr => ?_, exec_base rfl (exec_linkFail l d s)⟩
  · rw [State.vcQueue, h.jlink]
    exact hq down c
  · simp [State.mayArrive, hr, h.junction] at hw

/-- Settles O29: the fault line, the lane-retire notice and a failed link, each by what the operation leaves. -/
theorem laneFaultsLeadToRetirement : Obligations.LaneFaultsLeadToRetirement := by
  intro l s
  refine ⟨fun c hr hm => ?_, fun c => ⟨fun hr => ?_, fun hr => ?_⟩, fun d => link_is_lost l d s, fun d hb => ?_,
    fun p => (showHeldAll_shows s p).1⟩
  · exact fault_line_shows hr hm c
  · rw [exec_laneRetire, if_pos (by rw [retired_arrive, hr])]
  · exact lane_is_retired hr c
  · rw [exec_linkFail, foldl_eq_self_of_mem]
    · rfl
    · intro w hw
      cases w with
      | broadcast x b => exact absurd rfl (hb _ hw x b)
      | _ => rfl

end Sys2Proof.Machine
end

-- ==== Proofs: the agreed set as a replica applies it (O14) ====
section
/-! Steps 2 to 4 of R46. What the application of an agreement leaves alone is one relation, closed under each operation of
step 3: pending bits stay set, and the registers and counts of a part that the operation does not write stay. -/

namespace Sys2Proof.Machine

/-! ### The registers of the strand page that the agreement fills -/

/-- The strand time and its status. -/
def timeReg (k : Strand) (off : Nat) : Prop := k.idx * 0x10000 + 0x18 ≤ off ∧ off < k.idx * 0x10000 + 0x24
/-- The agreed inputs. -/
def finReg (k : Strand) (off : Nat) : Prop := k.idx * 0x10000 + 0x40 ≤ off ∧ off < k.idx * 0x10000 + 0x50
/-- The compare values, periods and control of the timers. -/
def timerReg (k : Strand) (off : Nat) : Prop := k.idx * 0x10000 + 0x480 ≤ off ∧ off < k.idx * 0x10000 + 0x4b4
/-- The pending bits. -/
def pendReg (k : Strand) (off : Nat) : Prop := k.idx * 0x10000 + 0x400 ≤ off ∧ off < k.idx * 0x10000 + 0x420

/-- One of these. -/
def agreedReg (k : Strand) (off : Nat) : Prop := timeReg k off ∨ finReg k off ∨ timerReg k off

/-- What an operation of step 3 keeps: the registers of `P` in the lane, every pending bit that is set, the mask, the field
triples, and, if `C` asks for it, the counts of the strand queues. -/
structure Applied (l : Lane) (k : Strand) (P : Nat → Prop) (C : Prop) (s t : State) : Prop where
  reg : ∀ off, P off → t.reg l.unit off = s.reg l.unit off
  pend : ∀ v, v < 256 → s.pendingBit l k v = true → t.pendingBit l k v = true
  visible : C → (t.echo l k).visible = (s.echo l k).visible
  credPop : C → (t.echo l k).credPop = (s.echo l k).credPop
  mask : (t.replica l k).mask = (s.replica l k).mask
  triples : (t.lane l).triples = (s.lane l).triples
  variant : t.variant = s.variant

theorem pendingBit_of_regs {s t : State} {l : Lane} {k : Strand}
    (h : ∀ off, pendReg k off → t.reg l.unit off = s.reg l.unit off) {v : Nat} (hv : v < 256) :
    t.pendingBit l k v = s.pendingBit l k v := by
  refine pendingBit_congr (h _ ?_)
  simp only [pendReg, Reg.lnEvPend]
  omega

namespace Applied

section
variable {l : Lane} {k : Strand} {P : Nat → Prop} {C : Prop} {s t u : State}

theorem refl (s : State) : Applied l k P C s s := ⟨fun _ _ => rfl, fun _ _ h => h, fun _ => rfl, fun _ => rfl, rfl, rfl, rfl⟩

theorem trans (h : Applied l k P C s t) (g : Applied l k P C t u) : Applied l k P C s u :=
  ⟨fun off ho => (g.reg off ho).trans (h.reg off ho), fun v hv hp => g.pend v hv (h.pend v hv hp),
    fun hc => (g.visible hc).trans (h.visible hc), fun hc => (g.credPop hc).trans (h.credPop hc), g.mask.trans h.mask,
    g.triples.trans h.triples, g.variant.trans h.variant⟩

theorem weaken {P' : Nat → Prop} {C' : Prop} (h : Applied l k P C s t) (hp : ∀ off, P' off → P off) (hc : C' → C) :
    Applied l k P' C' s t :=
  ⟨fun off ho => h.reg off (hp off ho), h.pend, fun c => h.visible (hc c), fun c => h.credPop (hc c), h.mask, h.triples,
    h.variant⟩

theorem ite {c : Prop} [Decidable c] {v : State} (h : c → Applied l k P C s t) (g : ¬ c → Applied l k P C s v) :
    Applied l k P C s (if c then t else v) := by
  split
  · exact h ‹_›
  · exact g ‹_›

theorem foldl {β : Type} (h : Applied l k P C s t) (g : State → β → State)
    (hg : ∀ t x, Applied l k P C s t → Applied l k P C s (g t x)) (xs : List β) :
    Applied l k P C s (xs.foldl g t) := by
  induction xs generalizing t with
  | nil => exact h
  | cons x xs ih => exact ih (hg t x h)

theorem foldl_mem {β : Type} {xs : List β} (h : Applied l k P C s t) (g : State → β → State)
    (hg : ∀ t, ∀ x ∈ xs, Applied l k P C s t → Applied l k P C s (g t x)) : Applied l k P C s (xs.foldl g t) := by
  induction xs generalizing t with
  | nil => exact h
  | cons x xs ih => exact ih (hg t x List.mem_cons_self h) fun u y hy => hg u y (List.mem_cons_of_mem _ hy)

theorem side (h : Applied l k P C s t) (he : u.side = t.side) : Applied l k P C s u := by
  have hr := reg_of_side he l
  refine h.trans ⟨fun off _ => hr off, fun v _ hp => ?_, fun _ => ?_, fun _ => ?_, ?_, ?_, ?_⟩
  · rwa [pendingBit_congr (hr _)]
  · exact (congrArg Echo.visible (echo_of_side he l k) :)
  · exact (congrArg Echo.credPop (echo_of_side he l k) :)
  · rw [replica_of_side he]
  · exact (congrArg LaneState.triples (lane_of_side he l) :)
  · exact congrArg LaneSide.variant he

/-- An update of neither lanes nor registers. -/
theorem same (h : Applied l k P C s t) (hr : u.regs = t.regs) (hl : u.lanes = t.lanes) (hv : u.variant = t.variant) :
    Applied l k P C s u := by
  have hreg (off : Nat) : u.reg l.unit off = t.reg l.unit off := by rw [State.reg, State.reg, hr]
  refine h.trans ⟨fun off _ => hreg off, fun v _ hp => ?_, fun _ => by rw [echo_of_lanes hl], fun _ => by rw [echo_of_lanes hl],
    by rw [replica_of_lanes hl], by rw [State.lane, hl, State.lane], hv⟩
  rwa [pendingBit_congr (hreg _)]

theorem setReg (h : Applied l k P C s t) {m : RUnit} {off : Nat} (v : Word)
    (ho : m = l.unit → ¬ P off ∧ ¬ pendReg k off) : Applied l k P C s (t.setReg m off v) := by
  have hreg {o : Nat} (hq : P o ∨ pendReg k o) : (t.setReg m off v).reg l.unit o = t.reg l.unit o := by
    refine reg_setReg_other _ _ ?_
    by_cases hm : l.unit = m
    · refine .inr fun he => ?_
      subst he
      exact hq.elim (ho hm.symm).1 (ho hm.symm).2
    · exact .inl hm
  refine h.trans ⟨fun o hp => hreg (.inl hp), fun w hw hp => ?_, fun _ => rfl, fun _ => rfl, rfl, rfl, rfl⟩
  rwa [pendingBit_of_regs (fun o hq => hreg (.inr hq)) hw]

theorem setFld (h : Applied l k P C s t) {m : RUnit} {off : Nat} (hi lo v : Nat)
    (ho : m = l.unit → ¬ P off ∧ ¬ pendReg k off) : Applied l k P C s (t.setFld m off hi lo v) := h.setReg _ ho

theorem setFlag (h : Applied l k P C s t) {m : RUnit} {off : Nat} (i : Nat) (b : Bool)
    (ho : m = l.unit → ¬ P off ∧ ¬ pendReg k off) : Applied l k P C s (t.setFlag m off i b) := h.setReg _ ho

/-- A vector that is raised takes no pending bit back. -/
theorem setPending (h : Applied l k P C s t) (v : Nat) (hp : ¬ P (Reg.lnEvPend k (v / 32))) :
    Applied l k P C s (t.setPending l k v) := by
  refine h.trans ⟨fun off ho => reg_setPending_other _ _ _ fun he => hp (he ▸ ho), fun w _ hw => ?_, fun _ => ?_, fun _ => ?_,
    ?_, ?_, ?_⟩
  · rw [State.setPending]
    split
    · rw [State.pendingBit, State.flag] at hw ⊢
      by_cases hr : Reg.lnEvPend k (w / 32) = Reg.lnEvPend k (v / 32)
      · rw [hr] at hw ⊢
        rw [State.setFlag, reg_setReg_same, bitOf_withBit]
        split
        · rfl
        · exact hw
      · rwa [reg_setFlag_other _ _ _ (.inr hr)]
    · exact hw
  · rw [echo_of_lanes (setPending_lanes ..)]
  · rw [echo_of_lanes (setPending_lanes ..)]
  · rw [replica_of_lanes (setPending_lanes ..)]
  · rw [State.lane, setPending_lanes, State.lane]
  · rw [State.setPending]
    split <;> rfl

theorem setLane (h : Applied l k P C s t) (m : Lane) (x : LaneState) (hr : x.repl = (t.lane m).repl)
    (he : x.echo = (t.lane m).echo) (ht : x.triples = (t.lane m).triples) : Applied l k P C s (t.setLane m x) := by
  have hl (f : LaneState → Prop) (h1 : f (t.lane l)) (h2 : l = m → f x) : f ((t.setLane m x).lane l) := by
    rw [lane_setLane]
    split
    · exact h2 ‹_›
    · exact h1
  have hecho : (t.setLane m x).echo l k = t.echo l k :=
    hl (fun y => y.echo.get k = t.echo l k) rfl fun hm => by rw [he, hm]; rfl
  have hrepl : (t.setLane m x).replica l k = t.replica l k :=
    hl (fun y => y.repl.get k = t.replica l k) rfl fun hm => by rw [hr, hm]; rfl
  exact h.trans ⟨fun _ _ => rfl, fun _ _ h => h, fun _ => by rw [hecho], fun _ => by rw [hecho], by rw [hrepl],
    hl (fun y => y.triples = (t.lane l).triples) rfl fun hm => by rw [ht, hm], rfl⟩

theorem setEcho (h : Applied l k P C s t) (m : Lane) (j : Strand) (e : Echo)
    (he : C → m = l → j = k → e.visible = (t.echo l k).visible ∧ e.credPop = (t.echo l k).credPop) :
    Applied l k P C s (t.setEcho m j e) := by
  have hecho (hc : C) : ((t.setEcho m j e).echo l k).visible = (t.echo l k).visible ∧
      ((t.setEcho m j e).echo l k).credPop = (t.echo l k).credPop := by
    rw [echo_setEcho]
    split
    next hm => exact he hc hm.1.symm hm.2.symm
    next => exact ⟨rfl, rfl⟩
  have hlane : ((t.setEcho m j e).lane l).triples = (t.lane l).triples := by
    rw [State.setEcho, lane_setLane]
    split
    next hm => rw [hm]
    next => rfl
  exact h.trans ⟨fun _ _ => rfl, fun _ _ h => h, fun hc => (hecho hc).1, fun hc => (hecho hc).2,
    by rw [replica_setEcho], hlane, rfl⟩

theorem setReplica (h : Applied l k P C s t) (m : Lane) (j : Strand) (r : Replica)
    (hr : m = l → j = k → r.mask = (t.replica l k).mask) : Applied l k P C s (t.setReplica m j r) := by
  have hlane : ((t.setReplica m j r).lane l).triples = (t.lane l).triples := by
    rw [State.setReplica, lane_setLane]
    split
    next hm => rw [hm]
    next => rfl
  refine h.trans ⟨fun _ _ => rfl, fun _ _ h => h, fun _ => by rw [echo_setReplica], fun _ => by rw [echo_setReplica], ?_, hlane,
    rfl⟩
  rw [replica_setReplica]
  split
  next hm => exact hr hm.1.symm hm.2.symm
  next => rfl

end

/-! ### The operations of step 3 -/

section
variable {l : Lane} {k : Strand} {P : Nat → Prop} {C : Prop} {s t : State} (hP : ∀ off, P off → agreedReg k off)
  (h : Applied l k P C s t)
include hP h

theorem setPending_lt {v : Nat} (hv : v < 256) : Applied l k P C s (t.setPending l k v) := by
  refine h.setPending v fun hp => ?_
  have := hP _ hp
  simp only [agreedReg, timeReg, finReg, timerReg, Reg.lnEvPend] at this
  omega

/-- A register beyond the strand pages. -/
theorem setFld_beyond (m : RUnit) {off : Nat} (hi lo v : Nat) (ho : 0x40000 ≤ off) : Applied l k P C s (t.setFld m off hi lo v) := by
  have hk := idx_lt_four k
  refine h.setFld _ _ _ fun _ => ⟨fun hp => ?_, fun hp => ?_⟩
  · have hq := hP _ hp
    simp only [agreedReg, timeReg, finReg, timerReg] at hq
    omega
  · simp only [pendReg] at hp
    omega

theorem setFlag_beyond (m : RUnit) {off : Nat} (i : Nat) (b : Bool) (ho : 0x40000 ≤ off) :
    Applied l k P C s (t.setFlag m off i b) := by
  have hk := idx_lt_four k
  refine h.setFlag _ _ fun _ => ⟨fun hp => ?_, fun hp => ?_⟩
  · have hq := hP _ hp
    simp only [agreedReg, timeReg, finReg, timerReg] at hq
    omega
  · simp only [pendReg] at hp
    omega

/-- `LN_TCFG` and `LN_REPL`. -/
theorem setReg_repl (m : RUnit) (j : Strand) {off : Nat} (v : Word) (ho : off = Reg.lnTcfg j ∨ off = Reg.lnRepl j) :
    Applied l k P C s (t.setReg m off v) := by
  have hk := idx_lt_four k
  have hj := idx_lt_four j
  simp only [Reg.lnTcfg, Reg.lnRepl] at ho
  refine h.setReg _ fun _ => ⟨fun hp => ?_, fun hp => ?_⟩
  · have hq := hP _ hp
    simp only [agreedReg, timeReg, finReg, timerReg] at hq
    omega
  · simp only [pendReg] at hp
    omega

theorem showDebug : Applied l k P C s (t.showDebug l k) :=
  h.foldl _ (fun _ _ ht => setFld_beyond hP ht _ _ _ _ (by decide)) _

theorem applyChange (c : Change) (now : Dword) : Applied l k P C s (t.applyChange l k c now) := by
  have shown (u : State) (hu : Applied l k P C s u) (xs : List Lane) (hi lo v : Nat) :
      Applied l k P C s ((xs.foldl (fun t x => t.setFld x.unit (Reg.lnRepl k) hi lo v) u).showDebug l k) :=
    showDebug hP (hu.foldl _ (fun _ _ ht => setReg_repl hP ht _ k _ (.inr rfl)) _)
  have aside (u : State) (hu : Applied l k P C s u) (a : Tri (Option Nat)) :
      Applied l k P C s (u.setEcho l k { u.echo l k with asideAt := a }) := hu.setEcho _ _ _ (by exact fun _ _ _ => ⟨rfl, rfl⟩)
  have raised (u v : State) (hu : Applied l k P C s u) (hv : Applied l k P C s v) (b b' : Prop) [Decidable b] [Decidable b'] :
      Applied l k P C s (if b' then (if b then u else v) else (if b then u else v).setPending l k 1) :=
    .ite (fun _ => .ite (fun _ => hu) fun _ => hv) fun _ => setPending_lt hP (.ite (fun _ => hu) fun _ => hv) (by decide)
  have start : Applied l k P C s (State.pruneChanges { t with changes := t.changes.set k ((t.changes.get k).map
      fun (c' : Change) => if c'.num = c.num then { c' with applied := l :: c'.applied } else c') } k) :=
    h.same (by rfl) (by rfl) (by rfl)
  simp only [State.applyChange]
  split
  · exact setPending_lt hP (raised _ _ (aside _ (shown _ start ..) _) (shown _ start ..) _ _) (by decide)
  · exact setPending_lt hP (raised _ _ (aside _ (shown _ start ..) _) (shown _ start ..) _ _) (by decide)
  · exact setPending_lt hP (raised _ _ (aside _ (shown _ start ..) _) (shown _ start ..) _ _) (by decide)
  · exact raised _ _ (aside _ (shown _ start ..) _) (shown _ start ..) _ _

omit hP in
theorem fenceDie (d : Die) : Applied l k P C s (t.fenceDie l k d) := by
  have shown (u : State) (hu : u.side = t.side) (d : Die) : (Strand.list.foldl (fun t j => t.setFlag d.unit (Reg.vtStat j.idx) 8 true)
      ((u.setFlag d.unit (Reg.vtStat k.idx) 9 true))).side = t.side :=
    (side_foldl _ (fun _ _ => State.setFlag_side _ _ _ _ _ (sideReg_vtStat ..)) _ _).trans
      ((State.setFlag_side _ _ _ _ _ (sideReg_vtStat ..)).trans hu)
  have fence (u : State) (d : Die) (i : Nat) : (u.setFlag d.unit Reg.vtFence i true).side = u.side :=
    State.setFlag_side _ _ _ _ _ (sideReg_die d (by decide))
  have start : Applied l k P C s (Strand.list.foldl (fun t j => t.setFlag d.unit (Reg.vtStat j.idx) 8 true)
      ((((t.setFlag d.unit Reg.vtFence (4 + k.idx) true).setFlag d.unit Reg.vtFence 0 true)).setFlag d.unit
        (Reg.vtStat k.idx) 9 true)) := h.side (shown _ ((fence ..).trans (fence ..)) d)
  simp only [State.fenceDie]
  refine side ?_ (State.setPathOut_side ..)
  split
  · exact side (.ite (fun _ => start.side (State.send_side ..)) fun _ => start) (State.stopAllChans_side ..)
  · exact side (.ite (fun _ => start.side (State.send_side ..)) fun _ => start) (State.stopAllChans_side ..)
  · exact start.foldl _ (fun u x hu => (hu.setLane _ _ (by rfl) (by rfl) (by rfl)).side (State.clearLatches_side ..)) _
  · exact side (start.foldl _ (fun u x hu => hu.setLane _ _ (by rfl) (by rfl) (by rfl)) _) (State.fenceMgmt_side ..)

theorem judge (a : ChalAnswer) : Applied l k P C s (t.judge l k a) := by
  simp only [State.judge]
  split
  · exact h
  · next c hc =>
    have held (u : State) (hu : Applied l k P C s u) (w : Word) : Applied l k P C s (u.setReg a.die.unit (Reg.vtChal k.idx) w) :=
      hu.side (State.setReg_side _ _ _ _ (sideReg_die _ (by simp only [Reg.vtChal, Reg.lsStat]; omega)))
    have step (u : State) (hu : Applied l k P C s u) (b b' : Prop) [Decidable b] [Decidable b'] (w : Word) :
        Applied l k P C s (if b then if b' then (u.setReg a.die.unit (Reg.vtChal k.idx) w).bump a.die.unit (Reg.vtChal k.idx) 15 8
          else u.setReg a.die.unit (Reg.vtChal k.idx) w else u) :=
      .ite (fun _ => .ite (fun _ => held _ (held _ hu w) _) fun _ => held _ hu w) fun _ => hu
    have start (e : Echo) (he : e.visible = (t.echo l k).visible ∧ e.credPop = (t.echo l k).credPop) :
        Applied l k P C s ((t.setEcho l k e).setPending l k 7) :=
      setPending_lt hP (h.setEcho _ _ _ fun _ _ _ => he) (by decide)
    exact .ite (fun _ => step _ (start _ (by exact ⟨rfl, rfl⟩)) ..) fun _ => fenceDie (step _ (start _ (by exact ⟨rfl, rfl⟩)) ..) _

theorem applyOcc (now : Dword) (o : Occ) : Applied l k P C s (t.applyOcc l k now o) := by
  have latched (e : Echo) (he : e.visible = (t.echo l k).visible ∧ e.credPop = (t.echo l k).credPop) :
      Applied l k P C s (t.setEcho l k e) := h.setEcho _ _ _ fun _ _ _ => he
  simp only [State.applyOcc]
  split
  · split
    · exact applyChange hP (latched _ (by exact ⟨rfl, rfl⟩)) ..
    · exact latched _ (by exact ⟨rfl, rfl⟩)
  · split
    · refine judge hP (setEcho (setPending_lt hP (latched _ ?_) o.vec.isLt) _ _ _ ?_) _
      · exact ⟨rfl, rfl⟩
      · exact fun _ _ _ => ⟨rfl, rfl⟩
    · exact setPending_lt hP (latched _ (by exact ⟨rfl, rfl⟩)) o.vec.isLt

theorem challengeDeadline : Applied l k P C s (t.challengeDeadline l k) :=
  foldl (h.setEcho _ _ _ (by exact fun _ _ _ => ⟨rfl, rfl⟩)) _ (fun _ _ hu => fenceDie (setPending_lt hP hu (by decide)) _) _

theorem showTcfg (j : Strand) (b : Bool) (r : Option Nat) : Applied l k P C s (t.showTcfg j b r) := by
  refine h.foldl _ (fun u x hu => ?_) _
  have hb : Applied l k P C s (u.setFlag x.unit (Reg.lnTcfgCommit j.idx) 1 b) :=
    setFlag_beyond hP hu _ _ _ (by simp only [Reg.lnTcfgCommit]; omega)
  cases r with
  | none => exact hb
  | some r => exact setFld_beyond hP hb _ _ _ _ (by simp only [Reg.lnTcfgCommit]; omega)

theorem tcfgSettle (j : Strand) : Applied l k P C s (t.tcfgSettle j) := by
  unfold State.tcfgSettle
  split
  · exact h
  · next c hc =>
    refine .ite (fun _ => .ite (fun _ => ?_) fun _ => h) fun _ => .ite (fun _ => ?_) fun _ => h
    · rw [tcfgFinish_eq]
      refine showTcfg hP (same (t := t.takeValue j c c.tookAt) ?_ (by rfl) (by rfl) (by rfl)) ..
      refine h.foldl _ (fun u x hu => ?_) _
      exact setEcho (setReg_repl hP hu _ j _ (.inl rfl)) _ _ _ fun _ hx hj => by subst hx hj; exact ⟨rfl, rfl⟩
    · split
      · simp only [State.refuseTcfg]
        exact showTcfg hP (h.same (by rfl) (by rfl) (by rfl)) ..
      · exact h.same rfl rfl rfl

theorem takeTcfg : Applied l k P C s (t.takeTcfg l k) := by
  have noted (n : Option Word) : Applied l k P C s (t.setEcho l k { t.echo l k with tcfgFrom := none, tcfgTook := n }) :=
    h.setEcho _ _ _ (by exact fun _ _ _ => ⟨rfl, rfl⟩)
  have taken (n : Option Word) (w : Word) : Applied l k P C s (((t.setEcho l k
      { t.echo l k with tcfgFrom := none, tcfgTook := n }).setReg l.unit (Reg.lnTcfg k) w).setPending l k 3) :=
    setPending_lt hP (setReg_repl hP (noted n) l.unit k w (.inl rfl)) (by decide)
  simp only [State.takeTcfg]
  split
  · exact noted _
  · next c hc =>
    refine tcfgSettle hP (same (taken (some (loWord (t.reg64 l.unit (Reg.lnPointLo k)))) c.value) ?_ ?_ ?_) _
    all_goals rfl

theorem switchTcfg : Applied l k P C s (t.switchTcfg l k) := by
  simp only [State.switchTcfg]
  exact .ite (fun _ => (takeTcfg hP h).setReplica _ _ _ (by exact fun _ _ => rfl)) fun _ => h

theorem showHist : Applied l k P C s (t.showHist l k) := by
  refine h.foldl _ (fun u x hu => hu.foldl _ (fun v y hv => setFld_beyond hP hv _ _ _ _ ?_) _) _
  simp only [Reg.rjHist]
  omega

theorem noteStall (a : Agreement) : Applied l k P C s (t.noteStall l k a) :=
  setFld_beyond hP h _ _ _ _ (by simp only [Reg.ecLeadMax]; omega)

omit hP in
theorem leaveBoundary : Applied l k P C s (t.leaveBoundary l k) := by
  have issued : Applied l k P C s (t.issueChallenge l k) := by
    simp only [State.issueChallenge]
    refine .ite (fun _ => h) fun _ => foldl (h.setEcho _ _ _ (by exact fun _ _ _ => ⟨rfl, rfl⟩)) _ (fun u _ hu => ?_) _
    exact side (hu.setEcho _ _ _ (by exact fun _ _ _ => ⟨rfl, rfl⟩)) (State.send_side ..)
  rw [State.leaveBoundary]
  refine .ite (fun _ => ?_) fun _ => h
  simp only [State.startScrub]
  exact .ite (fun _ => issued.setLane _ _ (by rfl) (by rfl) (by rfl)) fun _ => issued.setLane _ _ (by rfl) (by rfl) (by rfl)

end

/-! ### Time, inputs, timers and counts -/

section
variable {l : Lane} {k : Strand} {P : Nat → Prop} {C : Prop} {s t : State} (h : Applied l k P C s t)
include h

theorem applyTime (hP : ∀ off, P off → finReg k off ∨ timerReg k off) (a : Agreement) :
    Applied l k P C s (t.applyTime l k a) := by
  have hA (off : Nat) (hp : P off) : agreedReg k off := .inr (hP off hp)
  have hout {off : Nat} (ho : off = Reg.lnStimeLo k ∨ off = Reg.lnStimeLo k + 4 ∨ off = Reg.lnStimeStat k) :
      ¬ P off ∧ ¬ pendReg k off := by
    simp only [Reg.lnStimeLo, Reg.lnStimeStat] at ho
    refine ⟨fun hp => ?_, fun hp => ?_⟩
    · have hq := hP _ hp
      simp only [finReg, timerReg] at hq
      omega
    · simp only [pendReg] at hp
      omega
  have hset : Applied l k P C s ((t.setReg64 l.unit (Reg.lnStimeLo k) a.stime).setReg l.unit (Reg.lnStimeStat k) (stimeStat a)) :=
    ((h.setReg _ fun _ => hout (.inl rfl)).setReg _ fun _ => hout (.inr (.inl rfl))).setReg _ fun _ => hout (.inr (.inr rfl))
  exact .ite (fun _ => hset) fun _ => setPending_lt hA hset (by decide)

theorem applyFin (hP : ∀ off, P off → timeReg k off ∨ timerReg k off) (f : FinRule) :
    Applied l k P C s (t.applyFin l k f) := by
  have hout {off : Nat} (ho : k.idx * 0x10000 + 0x40 ≤ off ∧ off < k.idx * 0x10000 + 0x70) : ¬ P off ∧ ¬ pendReg k off := by
    refine ⟨fun hp => ?_, fun hp => ?_⟩
    · have hq := hP _ hp
      simp only [timeReg, timerReg] at hq
      omega
    · simp only [pendReg] at hp
      omega
  have hset (x y z w : Word) : Applied l k P C s ((((t.setReg l.unit (Reg.lnFinSeq k) x).setReg l.unit (Reg.lnFinDi k) y).setReg
      l.unit (Reg.lnFinDqLo k) z).setReg l.unit (Reg.lnFinDqHi k) w) := by
    refine (((h.setReg _ fun _ => hout ?_).setReg _ fun _ => hout ?_).setReg _ fun _ => hout ?_).setReg _ fun _ => hout ?_
    · simp only [Reg.lnFinSeq]; omega
    · simp only [Reg.lnFinDi]; omega
    · simp only [Reg.lnFinDqLo]; omega
    · simp only [Reg.lnFinDqHi]; omega
  have hai (g : State → Nat → Word) (u : State) (hu : Applied l k P C s u) : Applied l k P C s
      ((List.range 8).foldl (fun t n => t.setReg l.unit (Reg.lnFinAi k n) (g t n)) u) := by
    refine foldl_mem hu _ (fun v n hn hv => hv.setReg _ fun _ => hout ?_)
    have := List.mem_range.1 hn
    simp only [Reg.lnFinAi]
    omega
  simp only [State.applyFin]
  split
  · exact h
  · exact hai _ _ (hset ..)
  · split
    · exact h
    · exact hai _ _ (hset ..)

end
end Applied

/-- The timer is on, and its compare value is reached (R180). -/
def State.timerDue (s : State) (l : Lane) (k : Strand) (now : Dword) (i : Nat) : Prop :=
  s.flag l.unit (Reg.lnTmrCtl k) i = true ∧ (s.reg64 l.unit (Reg.lnTmrCmpLo k i)).toNat ≤ now.toNat

section
variable (s : State) (l : Lane) (k : Strand) (now : Dword)

theorem evalTimer_cases (i : Nat) : s.evalTimer l k now i = s ∨
    s.evalTimer l k now i = (s.setPending l k (8 + i)).setFlag l.unit (Reg.lnTmrCtl k) i false ∨
    ∃ n, s.evalTimer l k now i = s.rearmTimer l k i n := by
  by_cases hd : s.timerDue l k now i
  · rcases Nat.eq_zero_or_pos (s.reg l.unit (Reg.lnTmrPer k i)).toNat with hp | hp
    · exact .inr (.inl (evalTimer_of_due_oneShot hd.1 hd.2 hp))
    · exact .inr (.inr ⟨_, evalTimer_of_due_periodic hd.1 hd.2 hp⟩)
  · refine .inl (evalTimer_of_not_due ?_)
    rw [State.timerDue, not_and_or, Bool.not_eq_true] at hd
    exact hd.imp id Nat.not_le.1

theorem pendingBit_evalTimer {i : Nat} (hi : i < 4) (hd : s.timerDue l k now i) :
    (s.evalTimer l k now i).pendingBit l k (8 + i) = true := by
  rcases Nat.eq_zero_or_pos (s.reg l.unit (Reg.lnTmrPer k i)).toNat with hp | hp
  · rw [evalTimer_of_due_oneShot hd.1 hd.2 hp]
    exact (oneShot_effect hi).1
  · rw [evalTimer_of_due_periodic hd.1 hd.2 hp]
    exact (rearmTimer_effect hi _).1

/-- A timer's evaluation writes its own registers, the pending bits, and the bits of the other timers in none. -/
theorem reg_evalTimer {i off : Nat} (hi : i < 4) (hc : off ≠ Reg.lnTmrCtl k ∧ off ≠ Reg.lnTmrMiss k)
    (hp : off ≠ Reg.lnEvPend k 0) (ho : off ≠ Reg.lnTmrCmpLo k i ∧ off ≠ Reg.lnTmrCmpLo k i + 4) :
    (s.evalTimer l k now i).reg l.unit off = s.reg l.unit off := by
  have hpend : off ≠ Reg.lnEvPend k ((8 + i) / 32) := by rwa [show (8 + i) / 32 = 0 by omega]
  rcases evalTimer_cases s l k now i with h | h | ⟨n, h⟩
  · rw [h]
  · rw [h, reg_setFlag_other _ _ _ (.inr hc.1), reg_setPending_other _ _ _ hpend]
  · rw [h, rearmTimer_reg_other hc.2 ho, reg_setPending_other _ _ _ hpend]

theorem flag_evalTimer {i j : Nat} (hi : i < 4) (hj : j ≠ i) :
    (s.evalTimer l k now i).flag l.unit (Reg.lnTmrCtl k) j = s.flag l.unit (Reg.lnTmrCtl k) j := by
  have hpend : Reg.lnTmrCtl k ≠ Reg.lnEvPend k ((8 + i) / 32) := by
    rw [show (8 + i) / 32 = 0 by omega]
    simp only [Reg.lnTmrCtl, Reg.lnEvPend]
    omega
  rcases evalTimer_cases s l k now i with h | h | ⟨n, h⟩
  · rw [h]
  · rw [h, flag_setFlag_other _ _ _ _ hj, State.flag, reg_setPending_other _ _ _ hpend, State.flag]
  · rw [h, State.flag, rearmTimer_reg_other, reg_setPending_other _ _ _ hpend, State.flag]
    · simp only [Reg.lnTmrCtl, Reg.lnTmrMiss]; omega
    · simp only [Reg.lnTmrCtl, Reg.lnTmrCmpLo]; omega

theorem timerDue_evalTimer {i j : Nat} (hi : i < 4) (hj : j < 4) (hne : j ≠ i) (h : s.timerDue l k now j) :
    (s.evalTimer l k now i).timerDue l k now j := by
  refine ⟨(flag_evalTimer s l k now hi hne).trans h.1, ?_⟩
  rw [reg64_congr (reg_evalTimer s l k now hi ?_ ?_ ?_) (reg_evalTimer s l k now hi ?_ ?_ ?_)]
  · exact h.2
  all_goals simp only [Reg.lnTmrCmpLo, Reg.lnTmrCtl, Reg.lnTmrMiss, Reg.lnEvPend]; omega

end

namespace Applied

section
variable {l : Lane} {k : Strand} {P : Nat → Prop} {C : Prop} {s t : State} (h : Applied l k P C s t)
include h

theorem evalTimer (hP : ∀ off, P off → timeReg k off ∨ finReg k off) (now : Dword) {i : Nat} (hi : i < 4) :
    Applied l k P C s (t.evalTimer l k now i) := by
  have hout {off : Nat} (ho : k.idx * 0x10000 + 0x420 ≤ off ∧ off < k.idx * 0x10000 + 0x1000) : ¬ P off ∧ ¬ pendReg k off := by
    refine ⟨fun hp => ?_, fun hp => ?_⟩
    · have hq := hP _ hp
      simp only [timeReg, finReg] at hq
      omega
    · simp only [pendReg] at hp
      omega
  have hp : Applied l k P C s (t.setPending l k (8 + i)) :=
    setPending_lt (fun off ho => (hP off ho).imp id .inl) h (by omega)
  rcases evalTimer_cases t l k now i with he | he | ⟨n, he⟩
  · rwa [he]
  · rw [he]
    refine hp.setFlag _ _ fun _ => hout ?_
    simp only [Reg.lnTmrCtl]
    omega
  · rw [he]
    refine setFld (setReg (hp.setReg _ fun _ => hout ?_) _ fun _ => hout ?_) _ _ _ fun _ => hout ?_
    all_goals
      simp only [Reg.lnTmrCmpLo, Reg.lnTmrMiss]
      omega

theorem evalTimers (hP : ∀ off, P off → timeReg k off ∨ finReg k off) (now : Dword) {is : List Nat} (hi : ∀ i ∈ is, i < 4) :
    Applied l k P C s (is.foldl (fun t i => t.evalTimer l k now i) t) :=
  h.foldl_mem _ fun _ i hm hu => hu.evalTimer hP now (hi i hm)

end

section
variable {l : Lane} {k : Strand} {P : Nat → Prop} {C : Prop} {s t : State} (hP : ∀ off, P off → agreedReg k off)
  (h : Applied l k P C s t)
include hP h

/-- `LN_SQ_CRED` and `LN_SQ_RXCNT`. -/
theorem setFld_counts {off : Nat} (hi lo v : Nat) (ho : off = Reg.lnSqRxcnt k ∨ off = Reg.lnSqCred k) :
    Applied l k P C s (t.setFld l.unit off hi lo v) := by
  simp only [Reg.lnSqRxcnt, Reg.lnSqCred] at ho
  refine h.setFld _ _ _ fun _ => ⟨fun hp => ?_, fun hp => ?_⟩
  · have hq := hP _ hp
    simp only [agreedReg, timeReg, finReg, timerReg] at hq
    omega
  · simp only [pendReg] at hp
    omega

theorem showCounts : Applied l k P C s ((t.showVisible l k).showCredits l k) :=
  foldl (h.foldl _ (fun _ _ hu => setFld_counts hP hu _ _ _ (.inl rfl)) _) _
    (fun _ _ hu => setFld_counts hP hu _ _ _ (.inr rfl)) _

end

/-- The counts of the strand queues change with the agreement of an epoch alone. -/
theorem applyCounts {l : Lane} {k : Strand} {s t : State} (h : Applied l k (agreedReg k) False s t) (a : Agreement) :
    Applied l k (agreedReg k) False s (t.applyCounts l k a) := by
  have hP (off : Nat) (ho : agreedReg k off) : agreedReg k off := ho
  simp only [State.applyCounts]
  refine .ite (fun _ => h) fun _ => setPending_lt hP ?_ (by decide)
  have hs (e : Echo) : Applied l k (agreedReg k) False s (((t.setEcho l k e).showVisible l k).showCredits l k) :=
    showCounts hP (h.setEcho _ _ _ fun hc => hc.elim)
  have hp (u : State) (hu : Applied l k (agreedReg k) False s u) (b b' : Bool) : Applied l k (agreedReg k) False s
      (if b' = true then (if b = true then u.setPending l k 240 else u).setPending l k 4
        else if b = true then u.setPending l k 240 else u) := by
    have hb : Applied l k (agreedReg k) False s (if b = true then u.setPending l k 240 else u) :=
      .ite (fun _ => setPending_lt hP hu (by decide)) fun _ => hu
    exact .ite (fun _ => setPending_lt hP hb (by decide)) fun _ => hb
  exact hp _ (hs _) _ _

end Applied

/-- The word of `LN_FIN_SEQ` for a sample: its number under the valid mark. -/
theorem seqWord (q : Half) : fieldOf (withBit (BitVec.ofNat 32 q.toNat) 16 true) 16 0 = 65536 + q.toNat := by
  have hq := q.isLt
  have hor : q.toNat ||| 65536 = 65536 + q.toNat := by
    rw [Nat.or_comm]
    exact (Nat.two_pow_add_eq_or_of_lt (i := 16) hq 1).symm
  simp only [fieldOf, withBit, if_true, BitVec.toNat_or, BitVec.toNat_ofNat, Nat.shiftRight_zero]
  rw [Nat.mod_eq_of_lt (by omega : q.toNat < 2 ^ 32), show 1 <<< 16 % 2 ^ 32 = 65536 by decide, hor]
  exact Nat.mod_eq_of_lt (by omega)

/-- The word of `LN_EV_CUR`: the vector under the valid mark. -/
theorem curWord {v : Nat} (hv : v < 256) : withBit (BitVec.ofNat 32 v) 8 true = BitVec.ofNat 32 (256 + v) := by
  have hor : v ||| 256 = 256 + v := by
    rw [Nat.or_comm]
    exact (Nat.two_pow_add_eq_or_of_lt (i := 8) hv 1).symm
  refine BitVec.eq_of_toNat_eq ?_
  simp only [withBit, if_true, BitVec.toNat_or, BitVec.toNat_ofNat]
  rw [Nat.mod_eq_of_lt (by omega : v < 2 ^ 32), show 1 <<< 8 % 2 ^ 32 = 256 by decide, hor]
  exact (Nat.mod_eq_of_lt (by omega)).symm

/-! ### The stages of the application -/

/-- Step 4, and what the replica does as it leaves the point. -/
def State.endSteps (s : State) (l : Lane) (k : Strand) : State :=
  let t := (s.raiseSoft l k).takeException l k
  (t.setReplica l k { t.replica l k with phase := .run }).leaveBoundary l k

def State.occsApplied (s : State) (l : Lane) (k : Strand) (a : Agreement) : State :=
  a.occs.foldl (fun t o => t.applyOcc l k a.stime o) (s.noteStall l k a)

def State.inputsApplied (s : State) (l : Lane) (k : Strand) (a : Agreement) : State :=
  ((s.occsApplied l k a).applyTime l k a).applyFin l k a.fin

def State.timersApplied (s : State) (l : Lane) (k : Strand) (a : Agreement) : State :=
  (List.range 4).foldl (fun t i => t.evalTimer l k a.stime i) (s.inputsApplied l k a)

def State.countsApplied (s : State) (l : Lane) (k : Strand) (a : Agreement) : State :=
  (s.timersApplied l k a).applyCounts l k a

/-- What follows the counts: the history, the lanes' retirement, the challenges and a new timing (R80, R122, R146, R148). -/
def State.boundaryDone (s : State) (l : Lane) (k : Strand) : State :=
  let t := (s.showHist l k).checkRetired l
  (if (t.replica l k).sincePoints = 0 then t.challengeDeadline l k else t).switchTcfg l k

theorem agreedSetApply_early {s : State} {l : Lane} {k : Strand} (h : (s.reg64 l.unit (Reg.lnPointLo k)).toNat < 2) :
    s.agreedSetApply l k = s.endSteps l k := by
  simp only [State.agreedSetApply, if_pos h]
  rfl

theorem agreedSetApply_due {s : State} {l : Lane} {k : Strand} {a : Agreement}
    (h : 2 ≤ (s.reg64 l.unit (Reg.lnPointLo k)).toNat) (ha : s.dueAgreement l k = some a) :
    s.agreedSetApply l k = ((s.countsApplied l k a).boundaryDone l k).endSteps l k := by
  simp only [State.agreedSetApply, if_neg (Nat.not_lt.2 h), ha]
  rfl

theorem exec_agreedSetApply {s : State} {l : Lane} {k : Strand} (hat : s.atSteps l k = true) (hr : s.stepsReady l k = true) :
    exec (.agreedSetApply l k) s = .next (s.agreedSetApply l k) := by
  show execAgreedSetApply l k s = _
  rw [execAgreedSetApply, hat, hr]
  rfl

namespace Applied

section
variable {l : Lane} {k : Strand} {s t : State}

theorem endSteps {C : Prop} (h : Applied l k (fun off => timeReg k off ∨ finReg k off) C s t)
    (hm : (t.replica l k).mask = true) : Applied l k (fun off => timeReg k off ∨ finReg k off) C s (t.endSteps l k) := by
  have soft : Applied l k (fun off => timeReg k off ∨ finReg k off) C t (t.raiseSoft l k) := by
    refine foldl ((Applied.refl t).setReplica _ _ _ (by exact fun _ _ => rfl)) _ (fun _ v hu => hu.setPending v ?_) _
    simp only [timeReg, finReg, Reg.lnEvPend]
    omega
  have taken : (t.raiseSoft l k).takeException l k = t.raiseSoft l k := by
    rw [State.takeException]
    split
    · rw [if_pos (by rw [soft.mask, hm])]
    · rfl
  simp only [State.endSteps]
  rw [taken]
  exact leaveBoundary ((h.trans soft).setReplica _ _ _ (by exact fun _ _ => rfl))

theorem boundaryDone {P : Nat → Prop} {C : Prop} (hP : ∀ off, P off → agreedReg k off) (h : Applied l k P C s t) :
    Applied l k P C s (t.boundaryDone l k) := by
  have hh : Applied l k P C s ((t.showHist l k).checkRetired l) := side (showHist hP h) (State.checkRetired_side ..)
  exact switchTcfg hP (.ite (fun _ => challengeDeadline hP hh) fun _ => hh)

theorem occsApplied (a : Agreement) : Applied l k (agreedReg k) True s (s.occsApplied l k a) :=
  foldl (noteStall (fun _ ho => ho) (refl s) a) _ (fun _ _ hu => applyOcc (fun _ ho => ho) hu ..) _

end

end Applied

section
variable (s : State) (l : Lane) (k : Strand) (a : Agreement)

/-- From the agreed inputs on, time and inputs stay. -/
theorem inputs_to_counts : Applied l k (fun off => timeReg k off ∨ finReg k off) False (s.inputsApplied l k a) (s.countsApplied l k a) := by
  have timers : Applied l k (fun off => timeReg k off ∨ finReg k off) True (s.inputsApplied l k a) (s.timersApplied l k a) :=
    .evalTimers (.refl _) (fun _ ho => ho) _ fun i hi => List.mem_range.1 hi
  refine (timers.weaken (fun _ ho => ho) False.elim).trans ?_
  exact (Applied.applyCounts (.refl _) a).weaken (fun off ho => ho.imp id .inl) id

theorem reg_applyTime : (s.applyTime l k a).reg64 l.unit (Reg.lnStimeLo k) = a.stime ∧
    (s.applyTime l k a).reg l.unit (Reg.lnStimeStat k) = stimeStat a := by
  have hp (t : State) {off : Nat} (ho : off < k.idx * 0x10000 + 0x400) : (t.setPending l k 5).reg l.unit off = t.reg l.unit off :=
    reg_setPending_other _ _ _ (by simp only [Reg.lnEvPend]; omega)
  have hst (off : Nat) (ho : off < k.idx * 0x10000 + 0x400) : (s.applyTime l k a).reg l.unit off =
      ((s.setReg64 l.unit (Reg.lnStimeLo k) a.stime).setReg l.unit (Reg.lnStimeStat k) (stimeStat a)).reg l.unit off := by
    simp only [State.applyTime]
    split
    · rfl
    · exact hp _ ho
  refine ⟨?_, ?_⟩
  · rw [reg64_congr (hst _ ?_) (hst _ ?_), reg64_congr (reg_setReg_other _ _ (.inr ?_)) (reg_setReg_other _ _ (.inr ?_)),
      reg64_setReg64_same]
    all_goals simp only [Reg.lnStimeLo, Reg.lnStimeStat]; omega
  · rw [hst _ (by simp only [Reg.lnStimeStat]; omega), reg_setReg_same]

/-- A timer that is due is raised, whatever the others do. -/
theorem pendingBit_evalTimers {now : Dword} {i : Nat} (is : List Nat) (his : ∀ j ∈ is, j < 4) (hn : is.Nodup) (hi : i ∈ is)
    (hd : s.timerDue l k now i) : (is.foldl (fun t j => t.evalTimer l k now j) s).pendingBit l k (8 + i) = true := by
  induction is generalizing s with
  | nil => simp at hi
  | cons j is ih =>
    obtain ⟨hj, hrest⟩ := List.nodup_cons.1 hn
    have hj4 := his j List.mem_cons_self
    have his' : ∀ x ∈ is, x < 4 := fun x hx => his x (List.mem_cons_of_mem _ hx)
    rcases List.mem_cons.1 hi with rfl | hm
    · have hfold : Applied l k (fun _ => False) True (s.evalTimer l k now i)
          (is.foldl (fun t j => t.evalTimer l k now j) (s.evalTimer l k now i)) :=
        .evalTimers (.refl _) (fun _ hf => hf.elim) _ his'
      exact hfold.pend _ (by omega) (pendingBit_evalTimer s l k now hj4 hd)
    · exact ih _ his' hrest hm (timerDue_evalTimer s l k now hj4 (his' i hm) (fun he => hj (he ▸ hm)) hd)

/-- The registers below the analog inputs, after these were written. -/
theorem reg_finAi (g : State → Nat → Word) (t : State) {off : Nat} (ho : off < k.idx * 0x10000 + 0x50) :
    ((List.range 8).foldl (fun t n => t.setReg l.unit (Reg.lnFinAi k n) (g t n)) t).reg l.unit off = t.reg l.unit off :=
  reg_foldl_of_each (fun _ _ _ => reg_setReg_other _ _ (.inr (by simp only [Reg.lnFinAi]; omega))) _

/-- The inputs of an agreement without a sample (R66). -/
theorem applyFin_invalid : (s.applyFin l k .invalid).flag l.unit (Reg.lnFinSeq k) 16 = false ∧
    (s.applyFin l k .invalid).reg l.unit (Reg.lnFinDi k) = 0 ∧
    (s.applyFin l k .invalid).reg l.unit (Reg.lnFinDqLo k) = 0xFFFFFFFF ∧
    (s.applyFin l k .invalid).reg l.unit (Reg.lnFinDqHi k) = 0xFFFFFFFF := by
  have hreg {off : Nat} (ho : off < k.idx * 0x10000 + 0x50) : (s.applyFin l k .invalid).reg l.unit off =
      ((((s.setFlag l.unit (Reg.lnFinSeq k) 16 false).setReg l.unit (Reg.lnFinDi k) 0).setReg l.unit (Reg.lnFinDqLo k)
        0xFFFFFFFF).setReg l.unit (Reg.lnFinDqHi k) 0xFFFFFFFF).reg l.unit off := by
    simp only [State.applyFin]
    exact reg_foldl_of_each (fun _ _ _ => reg_setFld_other _ _ _ _ (.inr (by simp only [Reg.lnFinAi]; omega))) _
  refine ⟨?_, ?_, ?_, ?_⟩
  · rw [State.flag, hreg (by simp only [Reg.lnFinSeq]; omega), reg_setReg_other, reg_setReg_other, reg_setReg_other]
    · exact flag_setFlag_same _ _ _ _ _ (by decide)
    all_goals exact .inr (by simp only [Reg.lnFinSeq, Reg.lnFinDi, Reg.lnFinDqLo, Reg.lnFinDqHi]; omega)
  · rw [hreg (by simp only [Reg.lnFinDi]; omega), reg_setReg_other, reg_setReg_other, reg_setReg_same]
    all_goals exact .inr (by simp only [Reg.lnFinDi, Reg.lnFinDqLo, Reg.lnFinDqHi]; omega)
  · rw [hreg (by simp only [Reg.lnFinDqLo]; omega), reg_setReg_other, reg_setReg_same]
    exact .inr (by simp only [Reg.lnFinDqLo, Reg.lnFinDqHi]; omega)
  · rw [hreg (by simp only [Reg.lnFinDqHi]; omega), reg_setReg_same]

/-- The inputs of an agreed sample (R67). -/
theorem applyFin_sample {q : Half} {tr : Triple} (h : s.tripleOf l q = some tr) :
    (s.applyFin l k (.sample q)).reg l.unit (Reg.lnFinDi k) = diWord tr.ch ∧
    (s.applyFin l k (.sample q)).reg l.unit (Reg.lnFinDqLo k) = dqWord tr.ch 0 ∧
    (s.applyFin l k (.sample q)).reg l.unit (Reg.lnFinDqHi k) = dqWord tr.ch 16 ∧
    (s.applyFin l k (.sample q)).fld l.unit (Reg.lnFinSeq k) 16 0 = 65536 + q.toNat := by
  have hreg {off : Nat} (ho : off < k.idx * 0x10000 + 0x50) : (s.applyFin l k (.sample q)).reg l.unit off =
      ((((s.setReg l.unit (Reg.lnFinSeq k) (withBit (BitVec.ofNat 32 q.toNat) 16 true)).setReg l.unit (Reg.lnFinDi k)
        (diWord tr.ch)).setReg l.unit (Reg.lnFinDqLo k) (dqWord tr.ch 0)).setReg l.unit (Reg.lnFinDqHi k)
        (dqWord tr.ch 16)).reg l.unit off := by
    simp only [State.applyFin, h]
    exact reg_finAi l k (fun t n => withField (BitVec.ofNat 32 ((reduceAi tr.ch n).1.getD (t.fld l.unit (Reg.lnFinAi k n) 15 0)))
      17 16 (reduceAi tr.ch n).2) _ ho
  refine ⟨?_, ?_, ?_, ?_⟩
  · rw [hreg (by simp only [Reg.lnFinDi]; omega), reg_setReg_other, reg_setReg_other, reg_setReg_same]
    all_goals exact .inr (by simp only [Reg.lnFinDi, Reg.lnFinDqLo, Reg.lnFinDqHi]; omega)
  · rw [hreg (by simp only [Reg.lnFinDqLo]; omega), reg_setReg_other, reg_setReg_same]
    exact .inr (by simp only [Reg.lnFinDqLo, Reg.lnFinDqHi]; omega)
  · rw [hreg (by simp only [Reg.lnFinDqHi]; omega), reg_setReg_same]
  · rw [State.fld, hreg (by simp only [Reg.lnFinSeq]; omega), reg_setReg_other, reg_setReg_other, reg_setReg_other,
      reg_setReg_same]
    · exact seqWord q
    all_goals exact .inr (by simp only [Reg.lnFinSeq, Reg.lnFinDi, Reg.lnFinDqLo, Reg.lnFinDqHi]; omega)

theorem showCounts_lanes : ((s.showVisible l k).showCredits l k).lanes = s.lanes :=
  (lanes_foldl _ (fun _ _ => by rfl) _ _).trans (lanes_foldl _ (fun _ _ => by rfl) _ _)

/-- The counts of an epoch's agreement are visible at step 3 (R72), and EPOCH is raised. -/
theorem applyCounts_epoch (h : a.epoch = true) : ((s.applyCounts l k a).echo l k).visible = a.sqIn ∧
    ((s.applyCounts l k a).echo l k).credPop = a.credPop ∧ (s.applyCounts l k a).pendingBit l k 0 = true := by
  have hraised : ∃ X : State, s.applyCounts l k a = X.setPending l k 0 ∧
      X.lanes = (s.setEcho l k { s.echo l k with visible := a.sqIn, credPop := a.credPop }).lanes := by
    simp only [State.applyCounts, h, Bool.not_true, Bool.false_eq_true, if_false]
    refine ⟨_, rfl, ?_⟩
    (repeat' split) <;> simp only [setPending_lanes, showCounts_lanes]
  obtain ⟨X, he, hX⟩ := hraised
  have hecho : (s.applyCounts l k a).echo l k = { s.echo l k with visible := a.sqIn, credPop := a.credPop } := by
    rw [he, echo_of_lanes (setPending_lanes ..), echo_of_lanes hX, echo_setEcho, if_pos ⟨rfl, rfl⟩]
  exact ⟨by rw [hecho], by rw [hecho], by rw [he, pendingBit_setPending _ _ _ (vectorFitted_of_lt _ (by omega))]⟩

theorem applyCounts_inside (h : a.epoch = false) : s.applyCounts l k a = s := by
  simp only [State.applyCounts, h, Bool.not_false, if_true]

theorem startScrub_eq (n : Word) : ∃ x, s.startScrub l k n = s.setScrub l k x := by
  simp only [State.startScrub]
  (repeat' split) <;> exact ⟨_, rfl⟩

/-- What the replica does as it leaves a boundary touches no replica and no register of its lane. -/
theorem leaveBoundary_keeps : ((s.leaveBoundary l k).replica l k = s.replica l k) ∧
    ∀ off, (s.leaveBoundary l k).reg l.unit off = s.reg l.unit off := by
  have issued : (s.issueChallenge l k).replica l k = s.replica l k ∧
      ∀ off, (s.issueChallenge l k).reg l.unit off = s.reg l.unit off := by
    have fold (n : List Nat) (t : State) : (n.foldl (fun t _ => t.sendChallenge l k) t).replica l k = t.replica l k ∧
        ∀ off, (n.foldl (fun t _ => t.sendChallenge l k) t).reg l.unit off = t.reg l.unit off := by
      induction n generalizing t with
      | nil => exact ⟨rfl, fun _ => rfl⟩
      | cons x n ih =>
        rw [List.foldl_cons]
        have hs := State.send_side
        refine ⟨(ih _).1.trans ?_, fun off => ((ih _).2 off).trans ?_⟩
        · rw [State.sendChallenge, replica_of_side (hs _ _), replica_setEcho]
        · rw [State.sendChallenge, reg_of_side (hs _ _)]
          rfl
    simp only [State.issueChallenge]
    split
    · exact ⟨rfl, fun _ => rfl⟩
    · exact ⟨(fold _ _).1.trans (replica_setEcho ..), fun off => (fold _ _).2 off⟩
  rw [State.leaveBoundary]
  split
  · obtain ⟨x, hx⟩ := startScrub_eq (s.issueChallenge l k) l k (loWord (s.reg64 l.unit (Reg.lnPointLo k)))
    rw [hx]
    refine ⟨Eq.trans ?_ issued.1, fun off => issued.2 off⟩
    rw [State.setScrub, State.replica, lane_setLane, if_pos rfl]
    rfl
  · exact ⟨rfl, fun _ => rfl⟩

theorem leaveBoundary_inside (h : (s.replica l k).sincePoints ≠ 0) : s.leaveBoundary l k = s := if_neg h

/-- An event exception is taken (R157). -/
def State.atException (s : State) (l : Lane) (k : Strand) (v : Nat) : State :=
  let t := (s.clearPending l k v).setReg l.unit (Reg.lnEvCur k) (withBit (BitVec.ofNat 32 v) 8 true)
  t.setReplica l k { t.replica l k with mode := .running }

theorem phase_endSteps : ((s.endSteps l k).replica l k).phase = .run := by
  simp only [State.endSteps]
  rw [(leaveBoundary_keeps ..).1, replica_setReplica, if_pos ⟨rfl, rfl⟩]

theorem raiseSoft_of_nil (h : (s.replica l k).soft = []) : s.raiseSoft l k = s := by
  have hr : ({ s.replica l k with soft := [] } : Replica) = s.replica l k := by rw [← h]
  simp only [State.raiseSoft, h, List.foldl_nil]
  rw [hr, setReplica_self]

/-- At points 0 and 1, with nothing to raise and nothing to take. -/
theorem endSteps_idle (h : (s.replica l k).soft = []) (hd : s.dueVector l k = none) :
    s.endSteps l k = (s.setReplica l k { s.replica l k with phase := .run }).leaveBoundary l k := by
  have ht : s.takeException l k = s := by rw [State.takeException, hd]
  simp only [State.endSteps, raiseSoft_of_nil _ _ _ h, ht]

/-- At points 0 and 1, with an exception to take (R157). -/
theorem endSteps_takes (h : (s.replica l k).soft = []) (hm : (s.replica l k).mask = false) {v : Nat}
    (hd : s.dueVector l k = some v) : (s.endSteps l k).reg l.unit (Reg.lnEvCur k) = BitVec.ofNat 32 (256 + v) ∧
      (s.endSteps l k).pendingBit l k v = false ∧
      (∀ w, w < 256 → w ≠ v → (s.endSteps l k).pendingBit l k w = s.pendingBit l k w) ∧
      ((s.endSteps l k).replica l k).mode = .running := by
  have hv : v < 256 := List.mem_range.1 (List.mem_of_find?_eq_some hd)
  have hne (w : Nat) (hw : w < 256) : Reg.lnEvPend k (w / 32) ≠ Reg.lnEvCur k := by
    simp only [Reg.lnEvPend, Reg.lnEvCur]
    omega
  have htake : s.takeException l k = s.atException l k v := by
    simp only [State.takeException, hd, hm]
    rfl
  have he : s.endSteps l k = ((s.atException l k v).setReplica l k
      { (s.atException l k v).replica l k with phase := .run }).leaveBoundary l k := by
    simp only [State.endSteps, raiseSoft_of_nil _ _ _ h, htake]
  have hreg (off : Nat) : (s.endSteps l k).reg l.unit off = ((s.clearPending l k v).setReg l.unit (Reg.lnEvCur k)
      (withBit (BitVec.ofNat 32 v) 8 true)).reg l.unit off := by rw [he, (leaveBoundary_keeps ..).2]; rfl
  have hpend (w : Nat) (hw : w < 256) : (s.endSteps l k).pendingBit l k w = (s.clearPending l k v).pendingBit l k w :=
    pendingBit_congr ((hreg _).trans (reg_setReg_other _ _ (.inr (hne w hw))))
  refine ⟨?_, ?_, fun w hw hwv => ?_, ?_⟩
  · rw [hreg, reg_setReg_same, curWord hv]
  · rw [hpend v hv]
    exact flag_setFlag_same _ _ _ _ _ (Nat.mod_lt _ (by decide))
  · rw [hpend w hw, State.pendingBit, State.clearPending]
    by_cases hr : Reg.lnEvPend k (w / 32) = Reg.lnEvPend k (v / 32)
    · rw [hr, flag_setFlag_other _ _ _ _ (by simp only [Reg.lnEvPend] at hr; omega), ← hr]
      rfl
    · rw [State.flag, reg_setFlag_other _ _ _ (.inr hr)]
      rfl
  · rw [he, (leaveBoundary_keeps ..).1, replica_setReplica, if_pos ⟨rfl, rfl⟩]
    show ((s.atException l k v).replica l k).mode = _
    rw [State.atException, replica_setReplica, if_pos ⟨rfl, rfl⟩]

end

section
variable {s : State} {l : Lane} {k : Strand} {a : Agreement}

theorem vectorFitted_of_variant {t : State} (h : t.variant = s.variant) (v : Nat) : t.vectorFitted v = s.vectorFitted v := by
  simp only [State.vectorFitted, State.fFitted, State.canFitted, h]

/-- An occurrence that is no change of a replica's state is raised as it is applied (R55). -/
theorem pendingBit_applyOcc (now : Dword) {o : Occ} (ho : o.src ≠ 0 ∨ o.vec ≠ 1) (hf : s.vectorFitted o.vec.toNat = true) :
    (s.applyOcc l k now o).pendingBit l k o.vec.toNat = true := by
  have hP (off : Nat) (hp : False) : agreedReg k off := hp.elim
  have hn : ¬ (o.src = 0 ∧ o.vec = 1) := fun h => ho.elim (fun h' => h' h.1) fun h' => h' h.2
  simp only [State.applyOcc, if_neg hn]
  split
  · have hj (u : State) (e : Echo) (x : ChalAnswer) (hu : u.pendingBit l k o.vec.toNat = true) :
        ((u.setEcho l k e).judge l k x).pendingBit l k o.vec.toNat = true :=
      (Applied.judge (P := fun _ => False) (C := False) hP ((Applied.refl u).setEcho l k e fun hc => hc.elim) x).pend _
        o.vec.isLt hu
    exact hj _ _ _ (pendingBit_setPending _ _ _ hf)
  · exact pendingBit_setPending _ _ _ hf

theorem pendingBit_occsApplied {o : Occ} (hm : o ∈ a.occs) (ho : o.src ≠ 0 ∨ o.vec ≠ 1)
    (hf : s.vectorFitted o.vec.toNat = true) : (s.occsApplied l k a).pendingBit l k o.vec.toNat = true := by
  have fold (os : List Occ) (t : State) : Applied l k (agreedReg k) True t (os.foldl (fun t o => t.applyOcc l k a.stime o) t) :=
    (Applied.refl t).foldl _ (fun _ _ hu => .applyOcc (fun _ hp => hp) hu ..) os
  obtain ⟨as, bs, he⟩ := List.append_of_mem hm
  rw [State.occsApplied, he, List.foldl_append, List.foldl_cons]
  refine (fold bs _).pend _ o.vec.isLt (pendingBit_applyOcc _ ho ?_)
  rwa [vectorFitted_of_variant ((fold as _).variant), vectorFitted_of_variant (t := s.noteStall l k a) (by rfl)]

theorem occs_to_time : Applied l k (fun off => finReg k off ∨ timerReg k off) True (s.occsApplied l k a)
    ((s.occsApplied l k a).applyTime l k a) := .applyTime (.refl _) (fun _ ho => ho) a

theorem time_to_inputs : Applied l k (fun off => timeReg k off ∨ timerReg k off) True
    ((s.occsApplied l k a).applyTime l k a) (s.inputsApplied l k a) := .applyFin (.refl _) (fun _ ho => ho) a.fin

theorem start_to_inputs : Applied l k (timerReg k) True s (s.inputsApplied l k a) :=
  (((Applied.occsApplied a).weaken (fun _ ho => .inr (.inr ho)) id).trans (occs_to_time.weaken (fun _ ho => .inr ho) id)).trans
    (time_to_inputs.weaken (fun _ ho => .inr ho) id)

theorem counts_to_end (hm : (s.replica l k).mask = true) : Applied l k (fun off => timeReg k off ∨ finReg k off) True
    (s.countsApplied l k a) (((s.countsApplied l k a).boundaryDone l k).endSteps l k) := by
  have hb : Applied l k (fun off => timeReg k off ∨ finReg k off) True (s.countsApplied l k a)
      ((s.countsApplied l k a).boundaryDone l k) := .boundaryDone (fun off ho => ho.imp id .inl) (.refl _)
  refine hb.endSteps ?_
  rw [hb.mask, (inputs_to_counts s l k a).mask, start_to_inputs.mask, hm]

/-- From the agreed inputs to the end, time and inputs stay. -/
theorem inputs_to_end (hm : (s.replica l k).mask = true) : Applied l k (fun off => timeReg k off ∨ finReg k off) False
    (s.inputsApplied l k a) (((s.countsApplied l k a).boundaryDone l k).endSteps l k) :=
  (inputs_to_counts s l k a).trans ((counts_to_end hm).weaken (fun _ ho => ho) False.elim)

/-- A timer that is due before the application is raised in it. -/
theorem pendingBit_timersApplied {i : Nat} (hi : i < 4) (hd : s.timerDue l k a.stime i) :
    (s.timersApplied l k a).pendingBit l k (8 + i) = true := by
  have hreg {off : Nat} (ho : timerReg k off) : (s.inputsApplied l k a).reg l.unit off = s.reg l.unit off :=
    start_to_inputs.reg off ho
  refine pendingBit_evalTimers _ l k _ (fun j hj => List.mem_range.1 hj) List.nodup_range (List.mem_range.2 hi) ⟨?_, ?_⟩
  · rw [State.flag, hreg (by simp only [timerReg, Reg.lnTmrCtl]; omega)]
    exact hd.1
  · rw [reg64_congr (hreg ?_) (hreg ?_)]
    · exact hd.2
    all_goals
      simp only [timerReg, Reg.lnTmrCmpLo]
      omega

/-- What an agreement of a point from 2 on leaves, while no exception is taken (R46, R55, R64 to R67, R72, R180). -/
theorem agreement_is_applied (hm : (s.replica l k).mask = true) :
    let t := ((s.countsApplied l k a).boundaryDone l k).endSteps l k
    t.reg64 l.unit (Reg.lnStimeLo k) = a.stime ∧ t.reg l.unit (Reg.lnStimeStat k) = stimeStat a ∧
      (∀ o ∈ a.occs, o.src ≠ 0 ∨ o.vec ≠ 1 → s.vectorFitted o.vec.toNat = true → t.pendingBit l k o.vec.toNat = true) ∧
      (∀ i, i < 4 → s.flag l.unit (Reg.lnTmrCtl k) i = true → (s.reg64 l.unit (Reg.lnTmrCmpLo k i)).toNat ≤ a.stime.toNat →
        s.vectorFitted (8 + i) = true → t.pendingBit l k (8 + i) = true) ∧
      (a.epoch = true → (t.echo l k).visible = a.sqIn ∧ (t.echo l k).credPop = a.credPop ∧
        (s.vectorFitted 0 = true → t.pendingBit l k 0 = true)) ∧
      (a.epoch = false → (t.echo l k).visible = (s.echo l k).visible ∧ (t.echo l k).credPop = (s.echo l k).credPop) ∧
      (a.fin = .hold → t.reg l.unit (Reg.lnFinSeq k) = s.reg l.unit (Reg.lnFinSeq k)) ∧
      (a.fin = .invalid → t.flag l.unit (Reg.lnFinSeq k) 16 = false ∧ t.reg l.unit (Reg.lnFinDi k) = 0 ∧
        t.reg l.unit (Reg.lnFinDqLo k) = 0xFFFFFFFF ∧ t.reg l.unit (Reg.lnFinDqHi k) = 0xFFFFFFFF) ∧
      (∀ q tr, a.fin = .sample q → s.tripleOf l q = some tr → t.reg l.unit (Reg.lnFinDi k) = diWord tr.ch ∧
        t.reg l.unit (Reg.lnFinDqLo k) = dqWord tr.ch 0 ∧ t.reg l.unit (Reg.lnFinDqHi k) = dqWord tr.ch 16 ∧
        t.fld l.unit (Reg.lnFinSeq k) 16 0 = 65536 + q.toNat) := by
  intro t
  have hend : Applied l k (fun off => timeReg k off ∨ finReg k off) False (s.inputsApplied l k a) t := inputs_to_end hm
  have hlast : Applied l k (fun off => timeReg k off ∨ finReg k off) True (s.countsApplied l k a) t := counts_to_end hm
  have hcounts : Applied l k (agreedReg k) False (s.timersApplied l k a) (s.countsApplied l k a) :=
    .applyCounts (.refl _) a
  have htime {off : Nat} (ho : timeReg k off) : t.reg l.unit off = ((s.occsApplied l k a).applyTime l k a).reg l.unit off :=
    (hend.reg off (.inl ho)).trans (time_to_inputs.reg off (.inl ho))
  have hfin {off : Nat} (ho : finReg k off) : t.reg l.unit off = (s.inputsApplied l k a).reg l.unit off := hend.reg off (.inr ho)
  have htimers : Applied l k (fun off => timeReg k off ∨ finReg k off) True (s.inputsApplied l k a) (s.timersApplied l k a) :=
    .evalTimers (.refl _) (fun _ ho => ho) _ fun i hi => List.mem_range.1 hi
  have inTime : timeReg k (Reg.lnStimeLo k) ∧ timeReg k (Reg.lnStimeLo k + 4) ∧ timeReg k (Reg.lnStimeStat k) := by
    simp only [timeReg, Reg.lnStimeLo, Reg.lnStimeStat]
    omega
  have inFin : finReg k (Reg.lnFinSeq k) ∧ finReg k (Reg.lnFinDi k) ∧ finReg k (Reg.lnFinDqLo k) ∧ finReg k (Reg.lnFinDqHi k) := by
    simp only [finReg, Reg.lnFinSeq, Reg.lnFinDi, Reg.lnFinDqLo, Reg.lnFinDqHi]
    omega
  obtain ⟨hst, hstat⟩ := reg_applyTime (s.occsApplied l k a) l k a
  refine ⟨(reg64_congr (htime inTime.1) (htime inTime.2.1)).trans hst, (htime inTime.2.2).trans hstat,
    fun o ho hsrc hf => ?_, fun i hi hon hd _ => ?_, fun he => ?_, fun he => ?_, fun hf => ?_, fun hf => ?_, fun q tr hf htr => ?_⟩
  · refine hend.pend _ o.vec.isLt (time_to_inputs.pend _ o.vec.isLt (occs_to_time.pend _ o.vec.isLt ?_))
    exact pendingBit_occsApplied ho hsrc hf
  · exact hlast.pend _ (by omega) (hcounts.pend _ (by omega) (pendingBit_timersApplied hi ⟨hon, hd⟩))
  · obtain ⟨hvis, hcred, hp⟩ := applyCounts_epoch (s.timersApplied l k a) l k a he
    exact ⟨(hlast.visible trivial).trans hvis, (hlast.credPop trivial).trans hcred, fun _ => hlast.pend 0 (by omega) hp⟩
  · have hsame : s.countsApplied l k a = s.timersApplied l k a := applyCounts_inside _ l k a he
    rw [hsame] at hlast
    have hs := start_to_inputs (s := s) (l := l) (k := k) (a := a)
    exact ⟨((hlast.visible trivial).trans (htimers.visible trivial)).trans (hs.visible trivial),
      ((hlast.credPop trivial).trans (htimers.credPop trivial)).trans (hs.credPop trivial)⟩
  · rw [hfin inFin.1, State.inputsApplied, hf]
    exact (occs_to_time.reg _ (.inl inFin.1)).trans ((Applied.occsApplied a).reg _ (.inr (.inl inFin.1)))
  · rw [State.flag, hfin inFin.1, hfin inFin.2.1, hfin inFin.2.2.1, hfin inFin.2.2.2, State.inputsApplied, hf]
    exact applyFin_invalid _ l k
  · have hheld : ((s.occsApplied l k a).applyTime l k a).tripleOf l q = some tr := by
      rw [State.tripleOf, occs_to_time.triples, (Applied.occsApplied a).triples]
      exact htr
    rw [State.fld, hfin inFin.1, hfin inFin.2.1, hfin inFin.2.2.1, hfin inFin.2.2.2, State.inputsApplied, hf]
    exact applyFin_sample _ l k hheld

/-- A replica's change of state shows in `LN_REPL` (R126). -/
theorem fld_applyOcc {o : Occ} {c : Change} (now : Dword) (hsrc : o.src = 0) (hvec : o.vec = 1)
    (hf : ((s.changes.get k).find? fun x => x.num == o.num) = some c) :
    (s.applyOcc l k now o).fld l.unit (Reg.lnRepl k) (3 * c.repl.idx + 2) (3 * c.repl.idx) =
      nextReplState (s.replState l k c.repl) c.event (s.budgetReached l k c.repl now) := by
  have marked (e : Echo) (he : e.rejoins = (s.echo l k).rejoins) :
      ((s.setEcho l k e).applyChange l k c now).fld l.unit (Reg.lnRepl k) (3 * c.repl.idx + 2) (3 * c.repl.idx) =
        nextReplState (s.replState l k c.repl) c.event (s.budgetReached l k c.repl now) := by
    have hb : (s.setEcho l k e).budgetReached l k c.repl now = s.budgetReached l k c.repl now := by
      simp only [State.budgetReached, echo_setEcho, and_self, if_true, he]
      rfl
    rw [fld_applyChange, hb]
    rfl
  have hc (e : Echo) : ((s.setEcho l k e).changes.get k).find? (fun x => x.num == o.num) = some c := hf
  simp only [State.applyOcc, if_pos (And.intro hsrc hvec), hc]
  exact marked _ rfl

/-- Settles O14: the stages of the application, each by what it writes and by what the later ones leave. -/
theorem agreedSetReleasesTheReplica : Obligations.AgreedSetReleasesTheReplica := by
  intro l k s hat hr
  have hx := exec_agreedSetApply hat hr
  refine ⟨hx, ⟨_, hx, ?_, exec_base rfl hx⟩, fun h2 hs hd => ?_, fun h2 hs hm v hd => ?_, fun a ha h2 hm => ?_,
    fun o c now hsrc hvec hf => ?_⟩
  · rw [State.agreedSetApply.eq_def]
    exact phase_endSteps _ l k
  · rw [hx, agreedSetApply_early h2, endSteps_idle _ _ _ hs hd]
    refine ⟨rfl, fun hp => congrArg Host.Outcome.next (leaveBoundary_inside (s.setReplica l k _) l k ?_)⟩
    rwa [replica_setReplica, if_pos (And.intro rfl rfl)]
  · exact ⟨_, hx.trans (congrArg Host.Outcome.next (agreedSetApply_early h2)), endSteps_takes s l k hs hm hd⟩
  · exact ⟨_, hx.trans (congrArg Host.Outcome.next (agreedSetApply_due h2 ha)), agreement_is_applied hm⟩
  · exact fld_applyOcc now hsrc hvec hf

end

end Sys2Proof.Machine
end

-- ==== Proofs: what a release and a join leave of the voters ====
section
/-! The voters and what `VT_STAT` shows of them outlast what a release, a restart and a join do outside the dies' voters. -/

namespace Sys2Proof.Machine

/-- `VT_STAT` and what stands next to it. -/
def votReg (off : Nat) : Bool := decide (0xf000000 ≤ off) && decide (off < 0xf000100)

theorem votReg_vtStat (k : Strand) : votReg (Reg.vtStat k.idx) = true := by cases k <;> decide

@[simp] theorem votReg_pdWerrOvf (k : Strand) : votReg (Reg.pdWerrOvf k.idx) = false := by cases k <;> decide
@[simp] theorem votReg_pdWerrOvf_none : votReg (Reg.pdWerrOvf 4) = false := by decide
@[simp] theorem votReg_dmHold : votReg Reg.dmHold = false := by decide
theorem votReg_dmStat {i : Nat} (h : i < 28) : votReg (Reg.dmStat i) = false := by
  have : ¬ 0xf000000 ≤ Reg.dmStat i := by simp only [Reg.dmStat]; omega
  rw [votReg, decide_eq_false this, Bool.false_and]
theorem votReg_dmIdx {i : Nat} (h : i < 28) : votReg (Reg.dmIdx i) = false := by
  have : ¬ 0xf000000 ≤ Reg.dmIdx i := by simp only [Reg.dmIdx]; omega
  rw [votReg, decide_eq_false this, Bool.false_and]
theorem votReg_dmCnt {i : Nat} (h : i < 28) : votReg (Reg.dmCnt i) = false := by
  have : ¬ 0xf000000 ≤ Reg.dmCnt i := by simp only [Reg.dmCnt]; omega
  rw [votReg, decide_eq_false this, Bool.false_and]
theorem votReg_dmCtl {i : Nat} (h : i < 28) : votReg (Reg.dmCtl i) = false := by
  have : ¬ 0xf000000 ≤ Reg.dmCtl i := by simp only [Reg.dmCtl]; omega
  rw [votReg, decide_eq_false this, Bool.false_and]
@[simp] theorem votReg_rjStat (k : Strand) : votReg (Reg.rjStat k.idx) = false := by cases k <;> decide
@[simp] theorem votReg_rjDirty (k : Strand) : votReg (Reg.rjDirty k.idx) = false := by cases k <;> decide
@[simp] theorem votReg_rjStall (k : Strand) : votReg (Reg.rjStall k.idx) = false := by cases k <;> decide
@[simp] theorem votReg_rjHist (k : Strand) : votReg (Reg.rjHist k.idx) = false := by cases k <;> decide
@[simp] theorem votReg_lnTcfg (k : Strand) : votReg (Reg.lnTcfg k) = false := by cases k <;> decide
@[simp] theorem votReg_lnTcfgCommit (k : Strand) : votReg (Reg.lnTcfgCommit k.idx) = false := by cases k <;> decide
@[simp] theorem votReg_lnSqCred (k : Strand) : votReg (Reg.lnSqCred k) = false := by cases k <;> decide
@[simp] theorem votReg_lnRepl (k : Strand) : votReg (Reg.lnRepl k) = false := by cases k <;> decide
@[simp] theorem votReg_ecStat (k : Strand) : votReg (Reg.ecStat k.idx) = false := by cases k <;> decide
@[simp] theorem votReg_dsCeil (k : Strand) : votReg (Reg.dsCeil k.idx) = false := by cases k <;> decide
@[simp] theorem votReg_mgDisagree : votReg Reg.mgDisagree = false := by decide
@[simp] theorem votReg_dsStep : votReg Reg.dsStep = false := by decide
@[simp] theorem votReg_dsLane (l : Lane) : votReg (Reg.dsLane l.idx) = false := by cases l <;> decide
@[simp] theorem votReg_dsStat : votReg Reg.dsStat = false := by decide
theorem votReg_lnEvPend (k : Strand) {v : Nat} (h : v < 256) : votReg (Reg.lnEvPend k (v / 32)) = false := by
  have hk := idx_lt_four k
  have : ¬ 0xf000000 ≤ Reg.lnEvPend k (v / 32) := by simp only [Reg.lnEvPend]; omega
  rw [votReg, decide_eq_false this, Bool.false_and]

/-- The voters, and what shows of them. -/
structure Voting where
  voters : Four (Quad Voter)
  shown : Die → Nat → Word

def State.voting (s : State) : Voting := ⟨s.voters, fun d off => if votReg off then s.reg d.unit off else 0⟩

theorem voting_congr {s t : State} (hv : t.voters = s.voters)
    (hr : ∀ d off, votReg off = true → t.reg (Die.unit d) off = s.reg d.unit off) : t.voting = s.voting := by
  have h : (fun (d : Die) off => if votReg off then t.reg d.unit off else 0) = fun d off => if votReg off then s.reg d.unit off else 0 := by
    funext d off
    split
    · exact hr d off ‹_›
    · rfl
  rw [State.voting, State.voting, hv, h]

@[simp] theorem voting_ite (c : Prop) [Decidable c] (x y : State) :
    (if c then x else y).voting = if c then x.voting else y.voting := by split <;> rfl

theorem voting_foldl {β : Type} (g : State → β → State) (hg : ∀ t x, (g t x).voting = t.voting) (xs : List β)
    (s : State) : (xs.foldl g s).voting = s.voting := by
  induction xs generalizing s with
  | nil => rfl
  | cons x xs ih => rw [List.foldl_cons, ih, hg]

theorem voting_foldl_mem {β : Type} (g : State → β → State) (xs : List β) (hg : ∀ t, ∀ x ∈ xs, (g t x).voting = t.voting)
    (s : State) : (xs.foldl g s).voting = s.voting := by
  induction xs generalizing s with
  | nil => rfl
  | cons x xs ih =>
    rw [List.foldl_cons, ih (fun t y hy => hg t y (List.mem_cons_of_mem _ hy)), hg _ x List.mem_cons_self]

/-- A record update of anything but the voters and the registers. -/
theorem voting_mk (x : State) (heldLo' : List (RUnit × Nat × Word)) (lanes' : Tri LaneState) (consumers' : Four Consumer)
    (ports' : Duo PortDie) (links' : Tri (Four JLink)) (ns' : Nat) (released' : Quad Bool)
    (wires' : List Wire) (tcfg' : Quad (Option TcfgCommit)) (rejoinQueue' : Quad (Option Lane)) (rejoin' : Option RejoinRun)
    (changes' : Quad (List Change)) (echoNum' : Quad Half) (areas' : List Area) (field' : FieldDie)
    (mailboxes' : List Mailbox) (lockTaken' : List LockTake)
    (mgmt' : Mgmt) (governors' : Tri Governor) (ages' : List AgeRec) (supply' : Supply) (views' : List UnitView) (log' : Log)
    (absentLogged' : List Nat) (free' : Nat) (pending' : List Instr) :
    (State.mk x.variant ns' x.regs heldLo' lanes' x.voters consumers' ports' links' wires' released' tcfg' rejoinQueue'
      rejoin' changes' echoNum' areas' field' mailboxes' lockTaken' mgmt' governors' ages' supply' views' log'
      absentLogged' free' pending').voting = x.voting := rfl

/-- The word of `DS_LANE`. -/
def dsLaneWord (t : State) (l : Lane) : Word :=
  let g := t.gov l
  withField (withField (withField (withField (withField (0 : Word) 31 24 g.slack) 23 20 (g.limits.get l))
    19 16 (g.plan.get l)) 13 8 g.volt) 7 0 g.temp.toNat

@[simp] theorem State.setReg_voting (s : State) (u : RUnit) (off : Nat) (v : Word) (h : votReg off = false) :
    (s.setReg u off v).voting = s.voting := by
  refine voting_congr rfl fun d off' ho => reg_setReg_other _ _ (.inr fun he => ?_)
  rw [he, h] at ho
  exact absurd ho (by decide)

@[simp] theorem State.setFld_voting (s : State) (u : RUnit) (off hi lo v : Nat) (h : votReg off = false) :
    (s.setFld u off hi lo v).voting = s.voting := by
  simp [State.setFld, h]

@[simp] theorem State.setFlag_voting (s : State) (u : RUnit) (off i : Nat) (b : Bool) (h : votReg off = false) :
    (s.setFlag u off i b).voting = s.voting := by
  simp [State.setFlag, h]

@[simp] theorem State.bumpBy_voting (s : State) (u : RUnit) (off hi lo n : Nat) (h : votReg off = false) :
    (s.bumpBy u off hi lo n).voting = s.voting := by
  simp [State.bumpBy, h]

@[simp] theorem State.bump_voting (s : State) (u : RUnit) (off hi lo : Nat) (h : votReg off = false) :
    (s.bump u off hi lo).voting = s.voting := by
  simp [State.bump, h]

@[simp] theorem State.raiseMax_voting (s : State) (u : RUnit) (off hi lo v : Nat) (h : votReg off = false) :
    (s.raiseMax u off hi lo v).voting = s.voting := by
  simp [State.raiseMax, h]

@[simp] theorem State.setLaneFld_voting (s : State) (off hi lo v : Nat) (h : votReg off = false) :
    (s.setLaneFld off hi lo v).voting = s.voting := by
  simp [State.setLaneFld, h]

@[simp] theorem State.setLane_voting (s : State) (l : Lane) (x : LaneState) : (s.setLane l x).voting = s.voting := rfl

@[simp] theorem State.setReplica_voting (s : State) (l : Lane) (k : Strand) (r : Replica) : (State.setReplica s l k r).voting = s.voting := by
  simp [State.setReplica]

@[simp] theorem State.setEcho_voting (s : State) (l : Lane) (k : Strand) (e : Echo) : (State.setEcho s l k e).voting = s.voting := by
  simp [State.setEcho]

@[simp] theorem State.setScrub_voting (s : State) (l : Lane) (k : Strand) (x : Scrub) : (State.setScrub s l k x).voting = s.voting := by
  simp [State.setScrub]

@[simp] theorem State.setConsumer_voting (s : State) (d : Die) (c : Consumer) : (State.setConsumer s d c).voting = s.voting := by
  simp [State.setConsumer, voting_foldl, voting_mk]

@[simp] theorem State.setPort_voting (s : State) (p : PDie) (x : PortDie) : (State.setPort s p x).voting = s.voting := by
  simp [State.setPort, voting_foldl, voting_mk]

@[simp] theorem State.setJLink_voting (s : State) (l : Lane) (d : Die) (x : JLink) : (State.setJLink s l d x).voting = s.voting := by
  simp [State.setJLink, voting_foldl, voting_mk]

@[simp] theorem State.setVcQueue_voting (s : State) (l : Lane) (d : Die) (down : Bool) (c : VChannel) (ws : List Wire) : (State.setVcQueue s l d down c ws).voting = s.voting := by
  simp [State.setVcQueue]

@[simp] theorem State.sendOne_voting (s : State) (w : Wire) : (State.sendOne s w).voting = s.voting := by
  unfold State.sendOne
  (repeat' split) <;> simp [voting_foldl, voting_mk]

@[simp] theorem State.send_voting (s : State) (ws : List Wire) : (s.send ws).voting = s.voting := by
  obtain ⟨ls, ws', h⟩ := s.send_eq ws
  rw [h]
  rfl

@[simp] theorem State.countLanded_voting (s : State) (l : Lane) (d : Die) (down : Bool) (c : VChannel) : (State.countLanded s l d down c).voting = s.voting := by
  simp [State.countLanded]

@[simp] theorem State.arrive_voting (s : State) (w : Wire) : (s.arrive w).voting = s.voting := by
  obtain ⟨ls, ws', h⟩ := s.arrive_eq w
  rw [h]
  rfl

@[simp] theorem State.appendLog_voting (s : State) (code : LogCode) (src : Nat) (k : Option Strand) (arg : List Nat) : (State.appendLog s code src k arg).voting = s.voting := by
  simp [State.appendLog, voting_foldl, voting_mk]

@[simp] theorem State.setFlood_voting (s : State) (src n : Nat) : (State.setFlood s src n).voting = s.voting := by
  simp [State.setFlood, voting_foldl, voting_mk]

@[simp] theorem State.logEv_voting (s : State) (src : Nat) (k : Option Strand) (code : LogCode) (arg : List Nat) : (State.logEv s src k code arg).voting = s.voting := by
  simp [State.logEv, voting_foldl, voting_mk]

@[simp] theorem State.countOcc_voting (s : State) (d : Die) (k : Strand) : (State.countOcc s d k).voting = s.voting := by
  simp [State.countOcc]

@[simp] theorem State.raise_voting (s : State) (d : Die) (k : Strand) (v : Nat) : (State.raise s d k v).voting = s.voting := by
  simp [State.raise]

@[simp] theorem State.raiseAll_voting (s : State) (d : Die) (v : Nat) : (State.raiseAll s d v).voting = s.voting := by
  simp [State.raiseAll, voting_foldl, voting_mk]

@[simp] theorem State.pwFail_voting (s : State) (d : Die) (k : Option Strand) (r : WerrRec) : (State.pwFail s d k r).voting = s.voting := by
  unfold State.pwFail
  split <;> simp

@[simp] theorem State.showDirty_voting (s : State) : (State.showDirty s).voting = s.voting := by
  unfold State.showDirty
  split <;> simp

@[simp] theorem State.loseWrite_voting (s : State) (l : Lane) (w : Broadcast) (cause : Nat) : (s.loseWrite l w cause).voting = s.voting := by
  simp only [State.loseWrite]
  split
  · exact (State.setLane_voting ..).trans (State.pwFail_voting ..)
  · exact State.pwFail_voting ..

@[simp] theorem State.broadcastTo_voting (s : State) (w : Broadcast) (l : Lane) : (State.broadcastTo s w l).voting = s.voting := by
  unfold State.broadcastTo
  (repeat' split) <;> simp [voting_foldl, voting_mk]

@[simp] theorem State.broadcastNow_voting (s : State) (w : Broadcast) : (State.broadcastNow s w).voting = s.voting := by
  unfold State.broadcastNow
  (repeat' split) <;> simp [voting_foldl, voting_mk]

@[simp] theorem State.showHold_voting (s : State) (p : PDie) : (State.showHold s p).voting = s.voting := by
  simp [State.showHold]

@[simp] theorem State.keepWrite_voting (s : State) (p : PDie) (h : HeldWrite) : (State.keepWrite s p h).voting = s.voting := by
  simp [State.keepWrite]

theorem State.setPending_voting (s : State) (l : Lane) (k : Strand) {v : Nat} (h : v < 256) :
    (s.setPending l k v).voting = s.voting := by
  rw [State.setPending]
  split
  · exact State.setFlag_voting _ _ _ _ _ (votReg_lnEvPend k h)
  · rfl

@[simp] theorem State.setView_voting (s : State) (i : Nat) (v : UnitView) : (State.setView s i v).voting = s.voting := by
  simp [State.setView, voting_foldl, voting_mk]

@[simp] theorem State.setChan_voting (s : State) (p : PDie) (ch : Nat) (c : Chan) : (State.setChan s p ch c).voting = s.voting := by
  simp [State.setChan]

theorem voting_setChState (s : State) (p : PDie) {ch : Nat} (x : ChState) (h : ch < 28) : (s.setChState p ch x).voting = s.voting :=
  State.setFld_voting _ _ _ _ _ _ (votReg_dmStat h)

@[simp] theorem State.dropFetches_voting (s : State) (p : PDie) (ch : Nat) : (State.dropFetches s p ch).voting = s.voting := by
  simp [State.dropFetches]

@[simp] theorem State.stopChan_voting (s : State) (p : PDie) (ch : Nat) : (State.stopChan s p ch).voting = s.voting := by
  simp [State.stopChan]

@[simp] theorem State.resetChansOf_voting (s : State) (k : Strand) : (s.resetChansOf k).voting = s.voting := by
  refine voting_foldl _ (fun t p => ?_) _ _
  refine voting_foldl_mem _ _ (fun u ch h => ?_) _
  have hch := List.mem_range.1 h
  split
  · refine (State.setPort_voting ..).trans ?_
    simp [voting_setChState _ _ _ hch, votReg_dmIdx hch, votReg_dmCnt hch, votReg_dmCtl hch]
  · rfl

@[simp] theorem State.releaseWb_voting (s : State) (p : PDie) (l : Lane) : (State.releaseWb s p l).voting = s.voting := by
  simp [State.releaseWb, voting_foldl, voting_mk]

@[simp] theorem State.releaseWbs_voting (s : State) (p : PDie) : (State.releaseWbs s p).voting = s.voting := by
  simp [State.releaseWbs, voting_foldl, voting_mk]

@[simp] theorem State.sendWb_voting (s : State) (p : PDie) (h : HeldWrite) : (State.sendWb s p h).voting = s.voting := by
  simp [State.sendWb, voting_foldl, voting_mk]

@[simp] theorem State.unstall_voting (s : State) (p : PDie) (k : Strand) : (s.unstall p k).voting = s.voting := by
  refine voting_foldl_mem _ _ (fun t ch h => ?_) s
  rw [voting_ite, voting_setChState _ _ _ (List.mem_range.1 h), ite_self]

@[simp] theorem State.stallCopies_voting (s : State) (p : PDie) (k : Strand) : (s.stallCopies p k).voting = s.voting := by
  refine voting_foldl_mem _ _ (fun t ch h => ?_) s
  rw [voting_ite, voting_setChState _ _ _ (List.mem_range.1 h), ite_self]

@[simp] theorem State.latch_voting (s : State) (l : Lane) (k : Strand) (o : Occ) : (State.latch s l k o).voting = s.voting := by
  simp [State.latch]

@[simp] theorem State.latchChange_voting (s : State) (l : Lane) (k : Strand) (x : Lane) (ev : ReplEvent) : (State.latchChange s l k x ev).voting = s.voting := by
  unfold State.latchChange
  (repeat' split) <;> simp [voting_foldl, voting_mk]

@[simp] theorem State.latchChangeAll_voting (s : State) (k : Strand) (x : Lane) (ev : ReplEvent) : (State.latchChangeAll s k x ev).voting = s.voting := by
  simp [State.latchChangeAll, voting_foldl, voting_mk]

@[simp] theorem State.showCredits_voting (s : State) (l : Lane) (k : Strand) : (State.showCredits s l k).voting = s.voting := by
  simp [State.showCredits, voting_foldl, voting_mk]

@[simp] theorem State.showTcfg_voting (s : State) (k : Strand) (busy : Bool) (res : Option Nat) : (State.showTcfg s k busy res).voting = s.voting := by
  unfold State.showTcfg
  (repeat' split) <;> simp [voting_foldl, voting_mk]

@[simp] theorem State.tcfgFinish_voting (s : State) (k : Strand) (c : TcfgCommit) (at' : Option Word) : (State.tcfgFinish s k c at').voting = s.voting := by
  simp [State.tcfgFinish, voting_foldl, voting_mk]

@[simp] theorem State.releaseHold_voting (s : State) (p : PDie) : (State.releaseHold s p).voting = s.voting := by
  unfold State.releaseHold
  (repeat' split) <;> simp [voting_foldl, voting_mk]

@[simp] theorem State.releaseHolds_voting (s : State) : (State.releaseHolds s).voting = s.voting := by
  simp [State.releaseHolds]

@[simp] theorem State.recordStall_voting (s : State) (r : RejoinRun) : (State.recordStall s r).voting = s.voting := by
  unfold State.recordStall
  (repeat' split) <;> simp [voting_foldl, voting_mk]

@[simp] theorem State.resumePaused_voting (s : State) (k : Strand) : (State.resumePaused s k).voting = s.voting := by
  simp [State.resumePaused, voting_foldl, voting_mk]

@[simp] theorem State.setRjResult_voting (s : State) (k : Strand) (res : Nat) : (State.setRjResult s k res).voting = s.voting := by
  simp [State.setRjResult]

@[simp] theorem State.setRjPhase_voting (s : State) (k : Strand) (ph : Nat) : (State.setRjPhase s k ph).voting = s.voting := by
  simp [State.setRjPhase]

@[simp] theorem State.showLaneView_voting (s : State) (x : Lane) : (State.showLaneView s x).voting = s.voting := by
  simp [State.showLaneView]

@[simp] theorem State.putMailbox_voting (s : State) (n : Nat) (x : Mailbox) : (State.putMailbox s n x).voting = s.voting := by
  simp [State.putMailbox, voting_foldl, voting_mk]

@[simp] theorem State.mbSend_voting (s : State) (n : Nat) (far : Bool) (a : MbAct) : (State.mbSend s n far a).voting = s.voting := by
  simp [State.mbSend]

@[simp] theorem State.mbTake_voting (s : State) (n : Nat) (far : Bool) (a : MbAct) : (State.mbTake s n far a).voting = s.voting := by
  simp [State.mbTake]

@[simp] theorem State.mbRxReset_voting (s : State) (n : Nat) (far : Bool) : (State.mbRxReset s n far).voting = s.voting := by
  simp [State.mbRxReset]

@[simp] theorem State.mbTxReset_voting (s : State) (n : Nat) (far : Bool) : (State.mbTxReset s n far).voting = s.voting := by
  simp [State.mbTxReset]

@[simp] theorem State.mbRestart_voting (s : State) (k : Strand) : (State.mbRestart s k).voting = s.voting := by
  simp [State.mbRestart]

@[simp] theorem State.showDs_voting (s : State) : (s.showDs).voting = s.voting := by
  have hl (t : State) : (Lane.list.foldl (fun (t : State) l => t.setReg .m (Reg.dsLane l.idx) (dsLaneWord t l)) t).voting = t.voting :=
    voting_foldl _ (fun _ _ => by simp) _ _
  simp only [State.showDs]
  split
  · rfl
  · refine (State.setReg_voting _ _ _ _ votReg_dsStep).trans ?_
    refine Eq.trans ?_ (hl s)
    split
    · exact State.bump_voting _ _ _ _ _ votReg_dsStat
    · split
      · exact State.bump_voting _ _ _ _ _ votReg_dsStat
      · rfl

@[simp] theorem State.relay_voting (s : State) (v : PaceValue) : (State.relay s v).voting = s.voting := by
  simp [State.relay]

@[simp] theorem State.setCeil_voting (s : State) (k : Strand) (n : Nat) (clamped : Bool) : (State.setCeil s k n clamped).voting = s.voting := by
  simp [State.setCeil]

@[simp] theorem State.commitMsg_voting (s : State) (l : Lane) (src dst : Strand) (m : SqMsg) : (State.commitMsg s l src dst m).voting = s.voting := by
  simp [State.commitMsg]

@[simp] theorem State.setQueued_voting (s : State) (k : Strand) (b : Bool) : (State.setQueued s k b).voting = s.voting := by
  simp [State.setQueued]

@[simp] theorem State.endDebug_voting (s : State) (x : Lane) (k : Strand) : (State.endDebug s x k).voting = s.voting := by
  simp [State.endDebug]

@[simp] theorem State.tcfgAtStart_voting (s : State) (k : Strand) : (s.tcfgAtStart k).voting = s.voting := by
  unfold State.tcfgAtStart
  split
  · split
    · exact (State.tcfgFinish_voting ..).trans
        (voting_foldl _ (fun _ _ => State.setPending_voting _ _ _ (by decide)) _ _)
    · rfl
  · rfl

@[simp] theorem State.landCopies_voting (s : State) (k : Strand) : (s.landCopies k).voting = s.voting := by
  refine voting_foldl _ (fun t w => ?_) _ _
  split
  · split
    · rw [State.commitMsg_voting, State.arrive_voting]
    · rfl
  · rfl

@[simp] theorem State.freshPage_voting (s : State) (l : Lane) (k : Strand) : (s.freshPage l k).voting = s.voting := by
  have hfile (f : RegFile) : State.voting { s with regs := s.regs.set l.unit f } = s.voting := by
    refine voting_congr rfl fun d off _ => ?_
    rw [State.reg, State.reg, Seven.get_set, if_neg (by cases d <;> cases l <;> decide)]
  simp [State.freshPage, hfile]

@[simp] theorem State.dropUp_voting (s : State) (k : Strand) (l : Lane) : (State.dropUp s k l).voting = s.voting := by
  simp [State.dropUp, voting_foldl, voting_mk]

@[simp] theorem State.freshLane_voting (s : State) (k : Strand) (ls : List Lane) (pops sent : Quad Half) (l : Lane) : (State.freshLane s k ls pops sent l).voting = s.voting := by
  simp [State.freshLane]

@[simp] theorem State.markReleased_voting (s : State) (k : Strand) : (State.markReleased s k).voting = s.voting := by
  simp [State.markReleased, voting_foldl, voting_mk]


end Sys2Proof.Machine
end

-- ==== Proofs: restarts of a halted strand (O34) ====
section
/-! A restart loads the sections of the eligible lanes and releases the strand anew (R130, R450). -/

namespace Sys2Proof.Machine

/-! ### What the loading of a section leaves alone -/

/-- What the load of a strand's section, and the broadcasts that land before it, leave. -/
structure LoadsOnly (s t : State) : Prop where
  released : t.released = s.released
  voters : t.voters = s.voters
  consumers : t.consumers = s.consumers
  variant : t.variant = s.variant
  echo : ∀ l k, t.echo l k = s.echo l k
  replica : ∀ l k, t.replica l k = s.replica l k
  junction : ∀ l, (t.lane l).junction = (s.lane l).junction

namespace LoadsOnly

section
variable {s t u : State}

theorem refl (s : State) : LoadsOnly s s := ⟨rfl, rfl, rfl, rfl, fun _ _ => rfl, fun _ _ => rfl, fun _ => rfl⟩

theorem trans (h : LoadsOnly s t) (g : LoadsOnly t u) : LoadsOnly s u :=
  ⟨g.released.trans h.released, g.voters.trans h.voters, g.consumers.trans h.consumers, g.variant.trans h.variant,
    fun l k => (g.echo l k).trans (h.echo l k), fun l k => (g.replica l k).trans (h.replica l k),
    fun l => (g.junction l).trans (h.junction l)⟩

theorem foldl {β : Type} (h : LoadsOnly s t) (g : State → β → State) (hg : ∀ t x, LoadsOnly t (g t x)) (xs : List β) :
    LoadsOnly s (xs.foldl g t) := by
  induction xs generalizing t with
  | nil => exact h
  | cons x xs ih => exact ih (h.trans (hg t x))

theorem setLane (s : State) (l : Lane) (x : LaneState) (hr : x.repl = (s.lane l).repl) (he : x.echo = (s.lane l).echo)
    (hj : x.junction = (s.lane l).junction) : LoadsOnly s (s.setLane l x) := by
  have hl {m : Lane} (f : LaneState → Prop) (h1 : f (s.lane m)) (h2 : m = l → f x) : f ((s.setLane l x).lane m) := by
    rw [lane_setLane]
    split
    · exact h2 ‹_›
    · exact h1
  exact ⟨rfl, rfl, rfl, rfl, fun m k => hl (fun y => y.echo.get k = s.echo m k) rfl fun hm => by rw [he, hm]; rfl,
    fun m k => hl (fun y => y.repl.get k = s.replica m k) rfl fun hm => by rw [hr, hm]; rfl,
    fun m => hl (fun y => y.junction = (s.lane m).junction) rfl fun hm => by rw [hj, hm]⟩

theorem loadSection (s : State) (l : Lane) (k : Strand) (image : List Byte) : LoadsOnly s (s.loadSection l k image) :=
  setLane _ _ _ rfl rfl rfl

theorem arrive (s : State) (w : Wire) : LoadsOnly s (s.arrive w) := by
  obtain ⟨ls, ws, h⟩ := s.arrive_eq w
  rw [h]
  exact ⟨rfl, rfl, rfl, rfl, fun _ _ => rfl, fun _ _ => rfl, fun _ => rfl⟩

theorem noteLanded (s : State) (p : PDie) (l : Lane) : LoadsOnly s (s.noteLanded p l) := by
  obtain ⟨rj, h⟩ := noteLanded_frame s p l
  rw [h]
  exact ⟨rfl, rfl, rfl, rfl, fun _ _ => rfl, fun _ _ => rfl, fun _ => rfl⟩

theorem setScrub (s : State) (l : Lane) (k : Strand) (x : Scrub) : LoadsOnly s (s.setScrub l k x) := setLane _ _ _ rfl rfl rfl

theorem noteBroadcast (s : State) (l : Lane) (k : Strand) (a : Nat) : LoadsOnly s (s.noteBroadcast l k a) := by
  rw [State.noteBroadcast]
  split
  · exact (setScrub s l k _).trans (setScrub ..)
  · exact refl s

theorem landBroadcast (s : State) (l : Lane) (w : Broadcast) : LoadsOnly s (s.landBroadcast l w) := by
  have hstore : LoadsOnly s (s.laneStore l w.addr.toNat w.bytes) := setLane _ _ _ rfl rfl rfl
  have hmarks : LoadsOnly s ((s.laneStore l w.addr.toNat w.bytes).markDirtyRange l w.addr.toNat w.bytes.length) := by
    obtain ⟨rg, rj, h, -⟩ := marksOnly_markDirtyRange (s.laneStore l w.addr.toNat w.bytes) l w.addr.toNat w.bytes.length
    rw [h]
    exact hstore.trans ⟨rfl, rfl, rfl, rfl, fun _ _ => rfl, fun _ _ => rfl, fun _ => rfl⟩
  rw [State.landBroadcast]
  split
  · split
    · exact hmarks.trans (noteBroadcast ..)
    · exact (hmarks.trans (noteBroadcast ..)).trans (noteBroadcast ..)
  · exact hmarks

theorem landBroadcasts (s : State) (k : Strand) : LoadsOnly s (s.landBroadcasts k) := by
  refine foldl (refl s) _ (fun t l => foldl (refl t) _ (fun t p => foldl (refl t) _ (fun t w => ?_) _) _) _
  cases w with
  | broadcast a b =>
    dsimp only
    split
    · exact ((arrive ..).trans (noteLanded ..)).trans (landBroadcast ..)
    · exact refl t
  | _ => exact refl t

end

end LoadsOnly

/-- The strand's section in every lane of a list. -/
def State.loadSections (s : State) (k : Strand) (img : Lane → List Byte) (ls : List Lane) : State :=
  ls.foldl (fun t l => t.loadSection l k (img l)) s

/-! ### The bytes of a loaded section -/

theorem cellGet_memClear {n : Nat} (m : List (Nat × BitVec n)) (base size i : Nat) :
    cellGet (memClear m base size) i = if base ≤ i ∧ i < base + size then 0 else cellGet m i := by
  induction m with
  | nil => simp [memClear, cellGet]
  | cons c m ih =>
    obtain ⟨a, v⟩ := c
    rw [memClear] at ih ⊢
    rw [List.filter_cons]
    by_cases hc : base ≤ a ∧ a < base + size
    · rw [if_neg (by simp [hc]), ih, cellGet]
      split
      · rfl
      · rw [if_neg (by omega)]
    · rw [if_pos (by simp only [Bool.not_eq_true', Bool.and_eq_false_iff, decide_eq_false_iff_not]; omega), cellGet, ih, cellGet]
      split
      · rw [if_neg (by omega)]
      · rfl

/-- The partition and the slice of a strand hold its image, and zeros behind it. -/
def Loaded (k : Strand) (image : List Byte) (m : Memory) : Prop :=
  (∀ i, i < 0x38000000 → cellGet m (k.idx * 0x38000000 + i) = (image[i]?).getD 0) ∧
    ∀ i, i < 0x40000 → cellGet m (0x100000000 + k.idx * 0x40000 + i) = 0

theorem loaded_loadSection (s : State) (l : Lane) (k : Strand) (image : List Byte) :
    Loaded k image ((s.loadSection l k image).lane l).mem := by
  have hk := idx_lt_four k
  have hm : ((s.loadSection l k image).lane l).mem = memWrite (memClear (memClear (s.lane l).mem (k.idx * 0x38000000) 0x38000000)
      (0x100000000 + k.idx * 0x40000) 0x40000) (k.idx * 0x38000000) (image.take 0x38000000) := by
    rw [State.loadSection, lane_setLane, if_pos rfl]
    rfl
  have hlen : (image.take 0x38000000).length ≤ 0x38000000 := by rw [List.length_take]; omega
  rw [hm]
  refine ⟨fun i hi => ?_, fun i hi => ?_⟩
  · rw [cellGet_memWrite]
    split
    next h =>
      have hi' : i < image.length := by
        have := h.2
        rw [List.length_take] at this
        omega
      rw [List.getElem_take, List.getElem?_eq_getElem hi']
      simp only [Nat.add_sub_cancel_left, Option.getD_some]
    next h =>
      have hi' : image.length ≤ i := by
        rw [List.length_take] at h
        omega
      rw [cellGet_memClear, if_neg (by omega), cellGet_memClear, if_pos (by omega), List.getElem?_eq_none hi']
      rfl
  · rw [cellGet_memWrite_outside _ _ (by omega), cellGet_memClear, if_pos (by omega)]

theorem lane_loadSection_other (s : State) {l m : Lane} (h : m ≠ l) (k : Strand) (image : List Byte) :
    (s.loadSection l k image).lane m = s.lane m := by
  rw [State.loadSection, lane_setLane, if_neg h]

theorem loaded_loadSections (s : State) (k : Strand) {img : Lane → List Byte} {ls : List Lane} {l : Lane} (hl : l ∈ ls) :
    Loaded k (img l) ((s.loadSections k img ls).lane l).mem := by
  have keep (xs : List Lane) (t : State) (h : Loaded k (img l) (t.lane l).mem) :
      Loaded k (img l) ((t.loadSections k img xs).lane l).mem := by
    induction xs generalizing t with
    | nil => exact h
    | cons x xs ih =>
      refine ih _ ?_
      by_cases hx : l = x
      · subst hx
        exact loaded_loadSection ..
      · rwa [lane_loadSection_other _ hx]
  obtain ⟨as, bs, rfl⟩ := List.append_of_mem hl
  rw [State.loadSections, List.foldl_append, List.foldl_cons]
  exact keep bs _ (loaded_loadSection ..)

/-! ### What a release carries over -/

/-- What runs, what is released and what the lanes reach. -/
structure Carried (s t : State) : Prop where
  released : t.released = s.released
  running : ∀ d, (t.consumer d).running = (s.consumer d).running
  junction : ∀ l, (t.lane l).junction = (s.lane l).junction
  variant : t.variant = s.variant

namespace Carried

section
variable {s t u : State}

theorem refl (s : State) : Carried s s := ⟨rfl, fun _ => rfl, fun _ => rfl, rfl⟩

theorem trans (h : Carried s t) (g : Carried t u) : Carried s u :=
  ⟨g.released.trans h.released, fun d => (g.running d).trans (h.running d), fun l => (g.junction l).trans (h.junction l),
    g.variant.trans h.variant⟩

theorem calm (h : t.calm = s.calm) : Carried s t :=
  ⟨congrArg Calm.released h, fun d => congrFun (congrArg Calm.running h) d,
    fun l => (congrArg LaneState.junction (congrFun (congrArg Calm.lane h) l) :), congrArg Calm.variant h⟩

theorem side (h : t.side = s.side) : Carried s t := calm (calm_of_side h)

theorem loads (h : LoadsOnly s t) : Carried s t :=
  ⟨h.released, fun d => by rw [State.consumer, h.consumers, State.consumer], h.junction, h.variant⟩

theorem foldl {β : Type} (g : State → β → State) (hg : ∀ t x, Carried t (g t x)) (xs : List β) (s : State) :
    Carried s (xs.foldl g s) := by
  induction xs generalizing s with
  | nil => exact refl s
  | cons x xs ih => exact (hg s x).trans (ih _)

theorem setLane (s : State) (l : Lane) (x : LaneState) (hj : x.junction = (s.lane l).junction) : Carried s (s.setLane l x) := by
  refine ⟨rfl, fun _ => rfl, fun m => ?_, rfl⟩
  rw [lane_setLane]
  split
  next hm => rw [hj, hm]
  next => rfl

theorem setEcho (s : State) (l : Lane) (k : Strand) (e : Echo) : Carried s (s.setEcho l k e) := setLane _ _ _ rfl
theorem setReplica (s : State) (l : Lane) (k : Strand) (r : Replica) : Carried s (s.setReplica l k r) := setLane _ _ _ rfl
theorem setScrub (s : State) (l : Lane) (k : Strand) (x : Scrub) : Carried s (s.setScrub l k x) := setLane _ _ _ rfl

theorem commitMsg (s : State) (l : Lane) (j k : Strand) (m : SqMsg) : Carried s (s.commitMsg l j k m) := by
  simp only [State.commitMsg]
  split
  · exact setEcho ..
  · split
    · exact setEcho ..
    · exact refl s

theorem landCopies (s : State) (k : Strand) : Carried s (s.landCopies k) := by
  refine foldl _ (fun t w => ?_) _ _
  split
  · split
    · exact (side (State.arrive_side ..)).trans (commitMsg ..)
    · exact refl t
  · exact refl t

theorem dropUp (s : State) (k : Strand) (l : Lane) : Carried s (s.dropUp k l) :=
  side (side_foldl _ (fun _ _ => State.setJLink_side ..) _ _)

theorem freshPage (s : State) (l : Lane) (k : Strand) : Carried s (s.freshPage l k) := by
  simp only [State.freshPage]
  refine trans ?_ (foldl _ (fun t d => ?_) _ _)
  · exact ⟨rfl, fun _ => rfl, fun _ => rfl, rfl⟩
  · exact ⟨rfl, fun _ => rfl, fun _ => rfl, rfl⟩

theorem freshLane (s : State) (k : Strand) (ls : List Lane) (pops sent : Quad Half) (l : Lane) :
    Carried s (s.freshLane k ls pops sent l) :=
  ((((setEcho s l k _).trans (setReplica ..)).trans (dropUp ..)).trans (setScrub ..)).trans (freshPage ..)

end

end Carried

theorem freshPage_lanes (s : State) (l : Lane) (k : Strand) : (s.freshPage l k).lanes = s.lanes := by
  simp only [State.freshPage]
  exact lanes_foldl _ (fun _ _ => by rfl) _ _

theorem dropUp_lanes (s : State) (k : Strand) (l : Lane) : (s.dropUp k l).lanes = s.lanes :=
  lanes_foldl _ (fun _ _ => by rfl) _ _

/-- What a lane of a strand's release starts from. -/
theorem freshLane_starts (s : State) (k : Strand) (ls : List Lane) (pops sent : Quad Half) (l : Lane) :
    (∀ m j, (s.freshLane k ls pops sent l).replica m j =
      if m = l ∧ j = k then freshReplica (ls.contains l) (s.replica l k) else s.replica m j) ∧
    (∀ m j, (s.freshLane k ls pops sent l).echo m j =
      if m = l ∧ j = k then freshEcho (s.echo l k) (triOf ls) pops sent else s.echo m j) := by
  have key (t : State) (x : Scrub) : (∀ m j, (((t.dropUp k l).setScrub l k x).freshPage l k).replica m j = t.replica m j) ∧
      ∀ m j, (((t.dropUp k l).setScrub l k x).freshPage l k).echo m j = t.echo m j := by
    have hs := LoadsOnly.setScrub (t.dropUp k l) l k x
    refine ⟨fun m j => ?_, fun m j => ?_⟩
    · rw [replica_of_lanes (freshPage_lanes ..), hs.replica, replica_of_lanes (dropUp_lanes ..)]
    · rw [echo_of_lanes (freshPage_lanes ..), hs.echo, echo_of_lanes (dropUp_lanes ..)]
  refine ⟨fun m j => ((key _ _).1 m j).trans ?_, fun m j => ((key _ _).2 m j).trans ?_⟩
  · rw [replica_setReplica, replica_setEcho, replica_setEcho]
  · rw [echo_setReplica, echo_setEcho]

/-! ### The strand page at its reset values -/

theorem cellGet_cellPutAll_other {n : Nat} (cs : List (Nat × BitVec n)) (m : List (Nat × BitVec n)) {i : Nat}
    (h : ∀ c ∈ cs, c.1 ≠ i) : cellGet (cellPutAll m cs) i = cellGet m i := by
  rw [cellPutAll]
  induction cs generalizing m with
  | nil => rfl
  | cons c cs ih =>
    rw [List.foldl_cons, ih _ fun x hx => h x (List.mem_cons_of_mem _ hx),
      cellGet_cellSet_other _ _ (h c List.mem_cons_self).symm]

/-- A register that a lane's reset leaves at 0 reads 0 after a copy of the reset values. -/
theorem cellGet_memCopy_zero {m src : RegFile} {base size i : Nat} (hi : base ≤ i ∧ i < base + size)
    (h : ∀ c ∈ src, c.1 ≠ i) : cellGet (memCopy m src base size) i = 0 := by
  have hr : ∀ c ∈ memRange src base size, c.1 ≠ i := fun c hc => h c (List.mem_of_mem_filter hc)
  rw [memCopy, cellGet_cellPutAll_other _ _ hr, cellGet_memClear, if_pos hi]

theorem reg_freshPage (s : State) (l : Lane) (k : Strand) {off : Nat}
    (hi : k.idx * 0x10000 ≤ off ∧ off < k.idx * 0x10000 + 0x10000) (h : ∀ c ∈ laneRegsReset, c.1 ≠ off)
    (ho : off ≠ Reg.lnRepl k ∧ off ≠ Reg.lnTcfg k ∧ off ≠ Reg.lnSqCred k) : (s.freshPage l k).reg l.unit off = 0 := by
  have he : off ≠ Reg.ecStat k.idx := by
    have := idx_lt_four k
    simp only [Reg.ecStat]
    omega
  have hc (t : State) : (t.showCredits l k).reg l.unit off = t.reg l.unit off :=
    reg_foldl_of_each (fun _ _ _ => reg_setFld_other _ _ _ _ (.inr ho.2.2)) _
  simp only [State.freshPage]
  rw [hc, reg_setFlag_other _ _ _ (.inr he), reg_setReg_other _ _ (.inr ho.2.1), reg_setReg_other _ _ (.inr ho.1)]
  rw [State.reg, Seven.get_set, if_pos rfl]
  exact cellGet_memCopy_zero hi h

theorem reg_freshPage_lane (s : State) {l m : Lane} (h : m ≠ l) (k : Strand) (off : Nat) :
    (s.freshPage l k).reg m.unit off = s.reg m.unit off := by
  have hu : m.unit ≠ l.unit := by revert h; cases m <;> cases l <;> decide
  have hc (t : State) : (t.showCredits l k).reg m.unit off = t.reg m.unit off :=
    reg_foldl_of_each (fun _ _ _ => reg_setFld_other _ _ _ _ (.inl hu)) _
  simp only [State.freshPage]
  rw [hc, reg_setFlag_other _ _ _ (.inl hu), reg_setReg_other _ _ (.inl hu), reg_setReg_other _ _ (.inl hu)]
  rw [State.reg, Seven.get_set, if_neg hu]
  rfl

/-! ### The release -/

/-- The voters of the dies as they start. -/
def State.startVoters (s : State) (k : Strand) (ls : List Lane) : State := s.dies.foldl (fun t d => t.freshVoter d k ls) s

/-- The lanes as they start, from what the first of those released agreed on. -/
def State.startLanes (s : State) (k : Strand) (ls : List Lane) : State :=
  Lane.list.foldl (fun (t : State) l => t.freshLane k ls (s.popsFor (ls.headD .a) k) (s.sentBy (ls.headD .a) k) l) s

theorem releaseStrand_eq (s : State) (k : Strand) (ls : List Lane) : s.releaseStrand k ls = Lane.list.foldl State.showLaneView
    ((((s.startVoters k ls).landCopies k).startLanes k ls).markReleased k |>.tcfgAtStart k) := rfl

@[simp] theorem State.tcfgAtStart_calm (s : State) (k : Strand) : (s.tcfgAtStart k).calm = s.calm := by
  unfold State.tcfgAtStart
  split
  · split
    · exact (State.tcfgFinish_calm ..).trans (calm_foldl _ (fun _ _ => State.setPending_calm _ _ _ (by decide)) _ _)
    · rfl
  · rfl

section
variable (s : State) (k : Strand) (ls : List Lane)

/-- After the lanes have started, the strand is released and nothing else of what matters to the strands changes. -/
theorem releaseStrand_calm : (s.releaseStrand k ls).calm =
    ((((s.startVoters k ls).landCopies k).startLanes k ls).markReleased k).calm := by
  rw [releaseStrand_eq, calm_foldl _ (fun _ _ => State.showLaneView_calm ..), State.tcfgAtStart_calm]

omit ls in
theorem markReleased_carries : (s.markReleased k).released = s.released.set k true ∧
    (∀ d, ((s.markReleased k).consumer d).running = (s.consumer d).running) ∧
    (∀ l, ((s.markReleased k).lane l).junction = (s.lane l).junction) ∧ (s.markReleased k).variant = s.variant :=
  ⟨rfl, fun _ => rfl, fun _ => rfl, rfl⟩

theorem releaseStrand_released : (s.releaseStrand k ls).released = s.released.set k true := by
  have hstart : Carried s (((s.startVoters k ls).landCopies k).startLanes k ls) :=
    ((Carried.foldl _ (fun t d => .side (State.freshVoter_side t d k ls)) _ _).trans (.landCopies ..)).trans
      (.foldl _ (fun _ _ => .freshLane ..) _ _)
  have hm := markReleased_carries (((s.startVoters k ls).landCopies k).startLanes k ls) k
  rw [(Carried.calm (releaseStrand_calm s k ls)).released, hm.1, hstart.released]

/-- What runs and what the lanes reach stay through a release. -/
theorem releaseStrand_reach : (∀ d, ((s.releaseStrand k ls).consumer d).running = (s.consumer d).running) ∧
    (∀ l, ((s.releaseStrand k ls).lane l).junction = (s.lane l).junction) ∧ (s.releaseStrand k ls).variant = s.variant := by
  have hstart : Carried s (((s.startVoters k ls).landCopies k).startLanes k ls) :=
    ((Carried.foldl _ (fun t d => .side (State.freshVoter_side t d k ls)) _ _).trans (.landCopies ..)).trans
      (.foldl _ (fun _ _ => .freshLane ..) _ _)
  have hm := markReleased_carries (((s.startVoters k ls).landCopies k).startLanes k ls) k
  have h := Carried.calm (releaseStrand_calm s k ls)
  exact ⟨fun d => (h.running d).trans ((hm.2.1 d).trans (hstart.running d)),
    fun l => (h.junction l).trans ((hm.2.2.1 l).trans (hstart.junction l)),
    h.variant.trans (hm.2.2.2.trans hstart.variant)⟩

/-- The voters stand as they started. -/
theorem releaseStrand_voting : (s.releaseStrand k ls).voting = (s.startVoters k ls).voting := by
  rw [releaseStrand_eq, voting_foldl _ (fun _ _ => State.showLaneView_voting ..), State.tcfgAtStart_voting,
    State.markReleased_voting, State.startLanes, voting_foldl _ (fun _ _ => State.freshLane_voting ..), State.landCopies_voting]

/-- Every lane's Echo unit and replica of the strand, as they started. -/
theorem startLanes_starts (l : Lane) :
    (s.startLanes k ls).replica l k = freshReplica (ls.contains l) (s.replica l k) ∧
      (s.startLanes k ls).echo l k = freshEcho (s.echo l k) (triOf ls) (s.popsFor (ls.headD .a) k) (s.sentBy (ls.headD .a) k) := by
  have hsame (t : State) (x : Lane) (p q : Quad Half) : (t.freshLane k ls p q x).replica x k =
      freshReplica (ls.contains x) (t.replica x k) ∧ (t.freshLane k ls p q x).echo x k = freshEcho (t.echo x k) (triOf ls) p q := by
    obtain ⟨hr, he⟩ := freshLane_starts t k ls p q x
    exact ⟨(hr x k).trans (if_pos ⟨rfl, rfl⟩), (he x k).trans (if_pos ⟨rfl, rfl⟩)⟩
  have hother (t : State) (x m : Lane) (p q : Quad Half) (hne : m ≠ x) : (t.freshLane k ls p q x).replica m k = t.replica m k ∧
      (t.freshLane k ls p q x).echo m k = t.echo m k := by
    obtain ⟨hr, he⟩ := freshLane_starts t k ls p q x
    exact ⟨(hr m k).trans (if_neg fun h => hne h.1), (he m k).trans (if_neg fun h => hne h.1)⟩
  have step (x : Lane) (as bs : List Lane) (ha : x ∉ as) (hb : x ∉ bs) (f : State → Lane → State)
      (hf : f = fun t l => t.freshLane k ls (s.popsFor (ls.headD .a) k) (s.sentBy (ls.headD .a) k) l) :
      ((as ++ x :: bs).foldl f s).replica x k = freshReplica (ls.contains x) (s.replica x k) ∧
        ((as ++ x :: bs).foldl f s).echo x k =
          freshEcho (s.echo x k) (triOf ls) (s.popsFor (ls.headD .a) k) (s.sentBy (ls.headD .a) k) := by
    have others (xs : List Lane) (t : State) (hx : x ∉ xs) :
        (xs.foldl f t).replica x k = t.replica x k ∧ (xs.foldl f t).echo x k = t.echo x k := by
      induction xs generalizing t with
      | nil => exact ⟨rfl, rfl⟩
      | cons y ys ih =>
        have hy : x ≠ y := fun h => hx (h ▸ List.mem_cons_self)
        have hys : x ∉ ys := fun h => hx (List.mem_cons_of_mem _ h)
        obtain ⟨h1, h2⟩ := ih (f t y) hys
        obtain ⟨g1, g2⟩ := hother t y x (s.popsFor (ls.headD .a) k) (s.sentBy (ls.headD .a) k) hy
        rw [List.foldl_cons, h1, h2, hf]
        exact ⟨g1, g2⟩
    obtain ⟨h1, h2⟩ := others bs (f (as.foldl f s) x) hb
    obtain ⟨g1, g2⟩ := others as s ha
    obtain ⟨e1, e2⟩ := hsame (as.foldl f s) x (s.popsFor (ls.headD .a) k) (s.sentBy (ls.headD .a) k)
    rw [List.foldl_append, List.foldl_cons, h1, h2, ← g1, ← g2]
    rw [hf] at e1 e2 ⊢
    exact ⟨e1, e2⟩
  cases l with
  | a => exact step .a [] [.b, .c] (by decide) (by decide) _ rfl
  | b => exact step .b [.a] [.c] (by decide) (by decide) _ rfl
  | c => exact step .c [.a, .b] [] (by decide) (by decide) _ rfl

theorem reg_startLanes {off : Nat} (hi : k.idx * 0x10000 ≤ off ∧ off < k.idx * 0x10000 + 0x10000)
    (h : ∀ c ∈ laneRegsReset, c.1 ≠ off) (ho : off ≠ Reg.lnRepl k ∧ off ≠ Reg.lnTcfg k ∧ off ≠ Reg.lnSqCred k) (l : Lane) :
    (s.startLanes k ls).reg l.unit off = 0 := by
  have hsame (t : State) (x : Lane) (p q : Quad Half) : (t.freshLane k ls p q x).reg x.unit off = 0 :=
    reg_freshPage _ _ _ hi h ho
  have hother (t : State) (x m : Lane) (p q : Quad Half) (hne : m ≠ x) :
      (t.freshLane k ls p q x).reg m.unit off = t.reg m.unit off := by
    refine (reg_freshPage_lane _ hne _ _).trans ?_
    exact reg_foldl_of_each (fun _ _ _ => by rfl) _
  simp only [State.startLanes, Lane.list, List.foldl_cons, List.foldl_nil]
  cases l with
  | a => rw [hother _ _ _ _ _ (by decide), hother _ _ _ _ _ (by decide), hsame]
  | b => rw [hother _ _ _ _ _ (by decide), hsame]
  | c => rw [hsame]

end

/-! ### The voters at a strand's start -/

section
variable (s : State) (d : Die) (k : Strand)

theorem flag_showSump {i : Nat} (h : i < 5) : (s.showSump d k).flag d.unit (Reg.vtStat k.idx) i = s.flag d.unit (Reg.vtStat k.idx) i := by
  have hk := idx_lt_four k
  have hh : Reg.vtStat k.idx ≠ Reg.vtSumpHwm k.idx ∧ Reg.vtStat k.idx ≠ Reg.vtRob k.idx := by
    simp only [Reg.vtStat, Reg.vtSumpHwm, Reg.vtRob]
    omega
  have step (t : State) (l : Lane) (b : Bool) (v : Nat) : ((t.setFlag d.unit (Reg.vtStat k.idx) (5 + l.idx) b).raiseMax d.unit
      (Reg.vtSumpHwm k.idx) (10 * l.idx + 9) (10 * l.idx) v).flag d.unit (Reg.vtStat k.idx) i = t.flag d.unit (Reg.vtStat k.idx) i := by
    rw [State.flag, State.raiseMax, reg_setFld_other _ _ _ _ (.inr hh.1)]
    exact flag_setFlag_other _ _ _ _ (by omega)
  simp only [State.showSump, State.raiseMax] at step ⊢
  rw [State.flag, reg_setFld_other _ _ _ _ (.inr hh.2), reg_setFld_other _ _ _ _ (.inr hh.2), ← State.flag]
  simp only [Lane.list, List.foldl_cons, List.foldl_nil]
  rw [step, step, step]

theorem flag_showMode {i : Nat} (h : i < 3) : (s.showMode d k).flag d.unit (Reg.vtStat k.idx) i = s.flag d.unit (Reg.vtStat k.idx) i := by
  simp only [State.showMode]
  split
  · rfl
  · exact flag_setFld_other _ _ _ _ (.inl h)

theorem showSump_voters : (s.showSump d k).voters = s.voters := by
  have hstep (t : State) (hi lo v off : Nat) : (t.raiseMax d.unit off hi lo v).voters = t.voters := rfl
  simp only [State.showSump]
  rw [hstep]
  rfl

theorem showMode_voters : (s.showMode d k).voters = s.voters := by
  simp only [State.showMode]
  split <;> rfl

end

/-- The lanes of a list as a voter's set. -/
def State.showSet (s : State) (d : Die) (k : Strand) (ls : List Lane) : State :=
  Lane.list.foldl (fun t l => t.setFlag d.unit (Reg.vtStat k.idx) l.idx (ls.contains l)) s

theorem flag_showSet (s : State) (d : Die) (k : Strand) (ls : List Lane) (x : Lane) :
    (s.showSet d k ls).flag d.unit (Reg.vtStat k.idx) x.idx = ls.contains x := by
  simp only [State.showSet, Lane.list, List.foldl_cons, List.foldl_nil]
  cases x with
  | a => rw [flag_setFlag_other _ _ _ _ (by decide), flag_setFlag_other _ _ _ _ (by decide), flag_setFlag_same _ _ _ _ _ (by decide)]
  | b => rw [flag_setFlag_other _ _ _ _ (by decide), flag_setFlag_same _ _ _ _ _ (by decide)]
  | c => rw [flag_setFlag_same _ _ _ _ _ (by decide)]

theorem freshVoter_eq (s : State) (d : Die) (k : Strand) (ls : List Lane) : s.freshVoter d k ls =
    ((State.showSet ((s.setVoter d k { ResetValue.voter with notices := (s.voter d k).notices }).setFld d.unit (Reg.vtStat k.idx)
      4 3 0) d k ls).showMode d k).showSump d k := rfl

theorem freshVoter_voters (s : State) (d : Die) (k : Strand) (ls : List Lane) : (s.freshVoter d k ls).voters =
    (s.setVoter d k { ResetValue.voter with notices := (s.voter d k).notices }).voters := by
  have hset (t : State) : (t.showSet d k ls).voters = t.voters := rfl
  have hfld (t : State) (hi lo v off : Nat) : (t.setFld d.unit off hi lo v).voters = t.voters := rfl
  rw [freshVoter_eq, showSump_voters, showMode_voters, hset, hfld]

/-- A strand's own voter starts anew with the lanes of the release in its set. -/
theorem freshVoter_starts (s : State) (d : Die) (k : Strand) (ls : List Lane) :
    (s.freshVoter d k ls).voterIn d k = Lane.list.filter (fun l => ls.contains l) ∧ ((s.freshVoter d k ls).voter d k).next = 0 := by
  refine ⟨?_, ?_⟩
  · rw [State.voterIn]
    refine List.filter_congr fun x _ => ?_
    have hx := lane_idx_lt x
    rw [freshVoter_eq, flag_showSump _ _ _ (by omega), flag_showMode _ _ _ hx, flag_showSet]
  · rw [State.voter, freshVoter_voters]
    exact congrArg Voter.next ((voter_setVoter ..).trans (if_pos ⟨rfl, rfl⟩))

/-- The voter of another die stays. -/
theorem freshVoter_other (s : State) {d e : Die} (h : e ≠ d) (k : Strand) (ls : List Lane) :
    (s.freshVoter d k ls).voterIn e k = s.voterIn e k ∧ (s.freshVoter d k ls).voter e k = s.voter e k := by
  have hu : e.unit ≠ d.unit := by revert h; cases d <;> cases e <;> decide
  have hf (t : State) (hi lo v off : Nat) : (t.setFld d.unit off hi lo v).reg e.unit (Reg.vtStat k.idx) = t.reg e.unit (Reg.vtStat k.idx) :=
    reg_setFld_other _ _ _ _ (.inl hu)
  have hg (t : State) (i off : Nat) (b : Bool) : (t.setFlag d.unit off i b).reg e.unit (Reg.vtStat k.idx) = t.reg e.unit (Reg.vtStat k.idx) :=
    reg_setFlag_other _ _ _ (.inl hu)
  have hmode (t : State) : (t.showMode d k).reg e.unit (Reg.vtStat k.idx) = t.reg e.unit (Reg.vtStat k.idx) := by
    simp only [State.showMode]
    split
    · rfl
    · exact hf ..
  have hsump (t : State) : (t.showSump d k).reg e.unit (Reg.vtStat k.idx) = t.reg e.unit (Reg.vtStat k.idx) := by
    simp only [State.showSump, State.raiseMax]
    rw [hf, hf]
    exact reg_foldl_of_each (fun _ _ _ => by rw [hf, hg]) _
  have hset (t : State) : (t.showSet d k ls).reg e.unit (Reg.vtStat k.idx) = t.reg e.unit (Reg.vtStat k.idx) :=
    reg_foldl_of_each (fun _ _ _ => hg ..) _
  refine ⟨?_, ?_⟩
  · simp only [State.voterIn, State.flag]
    rw [freshVoter_eq, hsump, hmode, hset, hf]
    rfl
  · rw [State.voter, freshVoter_voters]
    exact (voter_setVoter ..).trans (if_neg fun he => h he.1)

theorem startVoters_starts (s : State) (k : Strand) (ls : List Lane) {d : Die} (hd : d ∈ s.dies) :
    (s.startVoters k ls).voterIn d k = Lane.list.filter (fun l => ls.contains l) ∧ ((s.startVoters k ls).voter d k).next = 0 := by
  have keep (xs : List Die) (t : State) (h : t.voterIn d k = Lane.list.filter (fun l => ls.contains l) ∧ (t.voter d k).next = 0) :
      (xs.foldl (fun t d => t.freshVoter d k ls) t).voterIn d k = Lane.list.filter (fun l => ls.contains l) ∧
        ((xs.foldl (fun t d => t.freshVoter d k ls) t).voter d k).next = 0 := by
    induction xs generalizing t with
    | nil => exact h
    | cons e xs ih =>
      refine ih _ ?_
      by_cases he : d = e
      · subst he
        exact freshVoter_starts t d k ls
      · obtain ⟨h1, h2⟩ := freshVoter_other t he k ls
        rw [h1, h2]
        exact h
  obtain ⟨as, bs, he⟩ := List.append_of_mem hd
  rw [State.startVoters, he, List.foldl_append, List.foldl_cons]
  exact keep bs _ (freshVoter_starts ..)

theorem voterIn_of_voting {s t : State} (h : t.voting = s.voting) (d : Die) (k : Strand) :
    t.voterIn d k = s.voterIn d k ∧ t.voter d k = s.voter d k := by
  have hr : t.reg d.unit (Reg.vtStat k.idx) = s.reg d.unit (Reg.vtStat k.idx) := by
    have := congrFun (congrFun (congrArg Voting.shown h) d) (Reg.vtStat k.idx)
    simpa only [State.voting, votReg_vtStat, if_true] using this
  have hv : t.voters = s.voters := (congrArg Voting.voters h :)
  refine ⟨?_, ?_⟩
  · simp only [State.voterIn, State.flag, hr]
  · rw [State.voter, State.voter, hv]

/-- The eligible lanes, in order. -/
theorem eligible_eq_filter (s : State) (k : Strand) : Lane.list.filter (fun l => (s.eligible k).contains l) = s.eligible k := by
  have hmem (l : Lane) : (s.eligible k).contains l = (!s.retired l && (s.echo s.viewLane k).inStep.get l) := by
    have hl : l ∈ Lane.list := by cases l <;> decide
    rw [Bool.eq_iff_iff, List.contains_iff_mem, State.eligible, State.tcfgLanes, List.mem_filter, State.liveLanes, List.mem_filter,
      Bool.and_eq_true]
    exact ⟨fun h => ⟨h.1.2, h.2⟩, fun h => ⟨⟨hl, h.1⟩, h.2⟩⟩
  rw [List.filter_congr fun l _ => hmem l, State.eligible, State.tcfgLanes, State.liveLanes, List.filter_filter]
  exact List.filter_congr fun l _ => Bool.and_comm ..

/-! ### The restart -/

/-- The state in which the eligible lanes hold their sections. -/
def State.restartLoads (s : State) (k : Strand) (image : List Byte) (rec : Tri (Option (List Byte))) : State :=
  (s.landBroadcasts k).loadSections k (receivedBy image rec) (s.eligible k)

/-- The strand as released, before the other strands learn of it. -/
def State.restartReleases (s : State) (k : Strand) (ls : List Lane) : State :=
  (((s.releaseStrand k ls).resetChansOf k).mbRestart k).setCeil k 8 false

theorem exec_restart {s : State} (h : s.mgmtCommands = true) (k : Strand) (image : List Byte) (rec : Tri (Option (List Byte))) :
    exec (.restart k image rec) s = .next (s.restart k image rec) := congrArg Host.Outcome.next (if_pos h)

theorem restartLoads_only (s : State) (k : Strand) (image : List Byte) (rec : Tri (Option (List Byte))) :
    LoadsOnly s (s.restartLoads k image rec) :=
  (LoadsOnly.landBroadcasts s k).foldl _ (fun _ _ => .loadSection ..) _

theorem setRjResult_shows (s : State) (k : Strand) {res : Nat} (h : res < 256) (l : Lane) :
    (s.setRjResult k res).fld l.unit (Reg.rjStat k.idx) 31 24 = res := by
  rw [State.setRjResult, fld_setLaneFld_same _ _ _ _ _ _ (by decide)]
  exact Nat.mod_eq_of_lt h

theorem markReleased_lanes (s : State) (k : Strand) : (s.markReleased k).lanes = s.lanes ∧ (s.markReleased k).regs = s.regs :=
  ⟨rfl, rfl⟩

/-- No instruction count stands among a lane's reset values. -/
theorem laneRegsReset_icount (k : Strand) (c : Nat × Word) (h : c ∈ laneRegsReset) :
    c.1 ≠ Reg.lnIcountLo k ∧ c.1 ≠ Reg.lnIcountLo k + 4 := by
  have hall : (laneRegsReset.all fun c => !decide (c.1 = Reg.lnIcountLo k) && !decide (c.1 = Reg.lnIcountLo k + 4)) = true := by
    cases k <;> decide
  simpa using List.all_eq_true.1 hall c h

theorem movedReg_icount (k : Strand) : movedReg (Reg.lnIcountLo k) = false ∧ movedReg (Reg.lnIcountLo k + 4) = false := by
  cases k <;> decide

/-- What the strands keep of a replica's release. -/
theorem released_of_calm {r old : Replica} (h : r.calm = (freshReplica true old).calm) : r.mode = .running ∧ r.nextPoint = 0 ∧
    r.sig = 0xFFFFFFFFFFFFFFFF ∧ r.ord = Four.all 0 :=
  ⟨(congrArg Replica.mode h :), (congrArg Replica.nextPoint h :), (congrArg Replica.sig h :), (congrArg Replica.ord h :)⟩

/-- The strand of a restart that is not refused, as the others learn of it. -/
def State.restartTells (s : State) (k : Strand) (ls : List Lane) : State :=
  ((Strand.list.filter fun j => j != k).foldl (fun t j => t.raise .m j 214) (s.restartReleases k ls)).setRjResult k 0x30

theorem restart_eq {s : State} {k : Strand} (hh : s.halted k = true) (hl : 2 ≤ (s.eligible k).length) (image : List Byte)
    (rec : Tri (Option (List Byte))) : s.restart k image rec =
      if !((s.eligible k).all fun l => sameHash (receivedBy image rec l) (receivedBy image rec ((s.eligible k).headD .a)))
        then (s.restartLoads k image rec).setRjResult k 0x33
      else (s.restartLoads k image rec).restartTells k (s.eligible k) := by
  simp only [State.restart, hh, Bool.not_true, Bool.false_eq_true, if_false, if_neg (Nat.not_lt.2 hl)]
  rfl

section
variable (s : State) (k : Strand) (ls : List Lane)

theorem restartReleases_side : (s.restartReleases k ls).side = (s.releaseStrand k ls).side := by
  rw [State.restartReleases, State.setCeil_side, State.mbRestart_side, State.resetChansOf_side]

theorem restartTells_calm : (s.restartTells k ls).calm =
    ((((s.startVoters k ls).landCopies k).startLanes k ls).markReleased k).calm := by
  rw [State.restartTells, State.setRjResult_calm, calm_foldl _ (fun _ _ => State.raise_calm ..), calm_of_side (restartReleases_side s k ls),
    releaseStrand_calm]

theorem restartTells_voting : (s.restartTells k ls).voting = (s.startVoters k ls).voting := by
  rw [State.restartTells, State.setRjResult_voting, voting_foldl _ (fun _ _ => State.raise_voting ..), State.restartReleases, State.setCeil_voting,
    State.mbRestart_voting, State.resetChansOf_voting, releaseStrand_voting]

theorem restartTells_base : (s.restartTells k ls).base = s.base := by
  rw [State.restartTells, State.setRjResult_base, base_foldl _ (fun _ _ => State.raise_base ..), State.restartReleases]
  simp

/-- The other strands learn of the restart (R450). -/
theorem restartTells_tells (hm : s.mOn = true) {j : Strand} (hj : j ≠ k) {l : Lane} (hl : l ∈ s.linked .m) :
    ∃ o, Wire.occurrence l .m j o ∈ (s.restartTells k ls).vcQueue l .m true .posted ∧ o.vec = 214 := by
  obtain ⟨hrun, hjun, -⟩ := releaseStrand_reach s k ls
  have hc : Carried (s.releaseStrand k ls) (s.restartReleases k ls) := .side (restartReleases_side s k ls)
  have hlinked : (s.restartReleases k ls).linked .m = s.linked .m := by
    simp only [State.linked, hc.junction, hjun]
  have hr : (s.restartReleases k ls).canRaise .m 214 := by
    refine ⟨(hc.running .m).trans ((hrun .m).trans hm), ?_, rfl⟩
    simp [State.vectorFitted]
  exact exists_occurrence_foldl_raise (List.mem_filter.2 ⟨by cases j <;> decide, by simpa using hj⟩) hr (by rwa [hlinked])

/-- The replicas that are released. -/
theorem restartTells_replica {l : Lane} (hl : l ∈ ls) : ((s.restartTells k ls).replica l k).mode = .running ∧
    ((s.restartTells k ls).replica l k).nextPoint = 0 ∧ ((s.restartTells k ls).replica l k).sig = 0xFFFFFFFFFFFFFFFF ∧
    ∀ d, ((s.restartTells k ls).replica l k).ord.get d = 0 := by
  have h := replica_of_calm (restartTells_calm s k ls) l k
  have hs := (startLanes_starts ((s.startVoters k ls).landCopies k) k ls l).1
  have hc : ls.contains l = true := by simpa using hl
  rw [hc] at hs
  rw [replica_of_lanes (markReleased_lanes ..).1, hs] at h
  obtain ⟨hmode, hpoint, hsig, hord⟩ := released_of_calm h
  refine ⟨hmode, hpoint, hsig, fun d => ?_⟩
  rw [hord]
  cases d <;> rfl

/-- The count of instructions lies in the strand's page, and not at `LN_REPL`, `LN_TCFG` or `LN_SQ_CRED`. -/
theorem icount_of_page {j : Strand} {off : Nat} (h : off = j.idx * 0x10000 ∨ off = j.idx * 0x10000 + 4) :
    (j.idx * 0x10000 ≤ off ∧ off < j.idx * 0x10000 + 0x10000) ∧
    (off ≠ Reg.lnRepl j ∧ off ≠ Reg.lnTcfg j ∧ off ≠ Reg.lnSqCred j) := by
  rw [Reg.lnRepl, Reg.lnTcfg, Reg.lnSqCred]
  omega

/-- Every lane's registers and Echo unit of the strand. -/
theorem restartTells_lane (l : Lane) : (s.restartTells k ls).reg64 l.unit (Reg.lnIcountLo k) = 0 ∧
    (s.restartTells k ls).haltedAt l k = false ∧ ∀ x, ((s.restartTells k ls).echo l k).inStep.get x = ls.contains x := by
  have hcalm := restartTells_calm s k ls
  have hecho := (startLanes_starts ((s.startVoters k ls).landCopies k) k ls l).2
  rw [← echo_of_lanes (markReleased_lanes _ k).1] at hecho
  have hreg {off : Nat} (hoff : off = k.idx * 0x10000 ∨ off = k.idx * 0x10000 + 4) (hmoved : movedReg off = false)
      (hreset : ∀ c ∈ laneRegsReset, c.1 ≠ off) : (s.restartTells k ls).reg l.unit off = 0 := by
    refine (reg_of_calm hcalm l hmoved).trans ?_
    rw [State.reg, (markReleased_lanes ..).2]
    exact reg_startLanes _ k ls (icount_of_page hoff).1 hreset (icount_of_page hoff).2 l
  refine ⟨?_, ?_, fun x => ?_⟩
  · have h0 := hreg (off := Reg.lnIcountLo k) (.inl (Nat.add_zero _)) (movedReg_icount k).1 fun c hc => (laneRegsReset_icount k c hc).1
    have h4 := hreg (off := Reg.lnIcountLo k + 4) (.inr (congrArg (· + 4) (Nat.add_zero _))) (movedReg_icount k).2 fun c hc => (laneRegsReset_icount k c hc).2
    rw [State.reg64, h0, h4]
    rfl
  · rw [halted_of_calm hcalm, State.haltedAt, hecho]
    rfl
  · rw [inStep_of_calm hcalm, hecho]
    cases x <;> rfl

end

theorem sameHash_self (bs : List Byte) : sameHash bs bs = true := by simp [sameHash]

/-- Settles O34: the refusals, and a release by what each of its parts leaves. -/
theorem restartReleasesAHaltedStrand : Obligations.RestartReleasesAHaltedStrand := by
  intro k image rec s hcmd
  have hx := exec_restart hcmd k image rec
  have hload := restartLoads_only s k image rec
  refine ⟨fun hh => ?_, fun hh hl => ?_, fun hh hl hdiff => ?_, fun hh hl hsame => ?_⟩
  · rw [hx, State.restart, hh]
    rfl
  · rw [hx]
    simp only [State.restart, hh, Bool.not_true, Bool.false_eq_true, if_false, if_pos hl]
  · have hall : ((s.eligible k).all fun l => sameHash (receivedBy image rec l) (receivedBy image rec ((s.eligible k).headD .a))) =
        false := by
      obtain ⟨l, hm, hf⟩ := hdiff
      exact List.all_eq_false.2 ⟨l, hm, by rw [hf]; decide⟩
    rw [restart_eq hh hl, hall] at hx
    exact ⟨_, hx, setRjResult_shows _ k (by decide), hload.released, hload.voters, hload.echo,
      fun l j => congrArg Replica.mode (hload.replica l j)⟩
  · have hall : ((s.eligible k).all fun l => sameHash (receivedBy image rec l) (receivedBy image rec ((s.eligible k).headD .a))) =
        true := by
      have hhead : (s.eligible k).headD .a ∈ s.eligible k := by
        cases he : s.eligible k with
        | nil => simp [he] at hl
        | cons x xs => exact List.mem_cons_self
      refine List.all_eq_true.2 fun l hm => ?_
      rw [hsame l hm, hsame _ hhead, sameHash_self]
    rw [restart_eq hh hl, hall] at hx
    have hlinked : (s.restartLoads k image rec).linked .m = s.linked .m := by simp only [State.linked, hload.junction]
    have hdies : (s.restartLoads k image rec).dies = s.dies := by
      have hv := hload.variant
      simp only [State.dies]
      refine List.filter_congr fun d _ => ?_
      cases d <;> simp only [State.dieFitted, State.fFitted, hv]
    refine ⟨_, hx, setRjResult_shows _ k (by decide), ?_, fun l hm => restartTells_replica _ k _ hm, restartTells_lane _ k _,
      fun d hd => ?_, fun hm j hj l hlk => ?_, fun l hm => ?_⟩
    · show Quad.get (State.released (State.restartTells _ _ _)) k = true
      rw [(Carried.calm (restartTells_calm ..)).released, (markReleased_carries ..).1, Quad.get_set, if_pos rfl]
    · obtain ⟨hin, hv⟩ := voterIn_of_voting (restartTells_voting (s.restartLoads k image rec) k (s.eligible k)) d k
      obtain ⟨hset, hnext⟩ := startVoters_starts (s.restartLoads k image rec) k (s.eligible k) (by rwa [hdies])
      exact ⟨hin.trans (hset.trans (eligible_eq_filter s k)), (congrArg Voter.next hv).trans hnext⟩
    · refine restartTells_tells _ k _ ?_ hj (by rwa [hlinked])
      rw [State.mOn, hload.consumers]
      exact hm
    · have hmem := mem_of_base (restartTells_base (s.restartLoads k image rec) k (s.eligible k)) l
      have hloaded : Loaded k (receivedBy image rec l) ((s.restartLoads k image rec).lane l).mem := loaded_loadSections _ k hm
      rw [hsame l hm] at hloaded
      show Loaded k image ((State.restartTells _ _ _).lane l).mem
      rw [hmem]
      exact hloaded

end Sys2Proof.Machine
end

-- ==== Proofs: the phases of a rejoin (O32) ====
section
/-! Start, copy passes, hold, final copy and join of a rejoin (R133 to R146). -/

namespace Sys2Proof.Machine

/-! ### What the rejoin unit writes -/

/-- A change latched in every lane writes the Echo units, the changes under way and their numbers. -/
theorem latchChangeAll_frame (s : State) (k : Strand) (x : Lane) (ev : ReplEvent) :
    ∃ ls cs ns, s.latchChangeAll k x ev = { s with lanes := ls, changes := cs, echoNum := ns } := by
  have fold (xs : List Lane) (t : State) : ∃ ls cs ns, xs.foldl (fun t l => t.latchChange l k x ev) t =
      { t with lanes := ls, changes := cs, echoNum := ns } := by
    induction xs generalizing t with
    | nil => exact ⟨t.lanes, t.changes, t.echoNum, rfl⟩
    | cons y ys ih =>
      obtain ⟨_, _, _, h⟩ := ih (t.latchChange y k x ev)
      rw [List.foldl_cons, h, State.latchChange]
      split <;> exact ⟨_, _, _, rfl⟩
  exact fold ..

theorem showDirty_frame (s : State) : ∃ rg, s.showDirty = { s with regs := rg } := by
  rw [State.showDirty]
  split
  · exact ⟨_, rfl⟩
  · exact ⟨s.regs, rfl⟩

theorem reg_showDirty (s : State) (u : RUnit) {off : Nat} (h : ∀ k : Strand, off ≠ Reg.rjDirty k.idx) :
    s.showDirty.reg u off = s.reg u off := by
  rw [State.showDirty]
  split
  · exact reg_setReg_other _ _ (.inr (h _))
  · rfl

theorem stallCopies_frame (s : State) (p : PDie) (k : Strand) : ∃ rg, s.stallCopies p k = { s with regs := rg } := by
  rw [State.stallCopies]
  generalize List.range 28 = xs
  induction xs generalizing s with
  | nil => exact ⟨s.regs, rfl⟩
  | cons ch xs ih =>
    rw [List.foldl_cons]
    split
    · obtain ⟨rg, h⟩ := ih (s.setChState p ch .stalled)
      exact ⟨rg, h⟩
    · exact ih s

/-! ### The start -/

/-- A request leaves the queue as it starts. -/
def State.takeQueued (s : State) (k : Strand) : State :=
  ({ s with rejoinQueue := s.rejoinQueue.set k none }).setQueued k false

/-- The record of a rejoin that starts. -/
def State.startRun (s : State) (k : Strand) (x d : Lane) : RejoinRun where
  strand := k
  target := x
  donor := d
  fromDebug := s.replState d k x == 3
  pass := none
  passFrom := s.ns
  pagesRead := 0
  dirty := []
  forced := false
  boundary := none
  stallFrom := none
  holdSent := false
  holdAt := 0
  owed := Duo.all (Tri.all 0)
  acked := Duo.all false
  copied := false

/-- What the registers show of a rejoin that starts. -/
def State.showStart (s : State) (k : Strand) (x d : Lane) : State :=
  (((({ s with rejoin := some (s.startRun k x d) }).setLaneFld (Reg.rjStat k.idx) 23 20 0).setLaneFld (Reg.rjStat k.idx) 17 16
    d.idx).setLaneFld (Reg.rjStat k.idx) 13 12 x.idx).setRjPhase k 1

def State.startRejoin (s : State) (k : Strand) (x d : Lane) : State :=
  ((s.showStart k x d).showDirty.endDebug x k).latchChangeAll k x .rejoinStart

section
variable (s : State) (k : Strand)

theorem reg_takeQueued (u : RUnit) {off : Nat} (h : off ≠ Reg.rjStat k.idx) : (s.takeQueued k).reg u off = s.reg u off :=
  reg_setLaneFld_other _ _ _ _ _ h

theorem retired_takeQueued (l : Lane) : (s.takeQueued k).retired l = s.retired l :=
  retired_congr (fun _ => reg_takeQueued s k _ (by cases k <;> decide)) l

theorem viewLane_takeQueued : (s.takeQueued k).viewLane = s.viewLane := by
  rw [State.viewLane, liveLanes_congr (retired_takeQueued s k), State.viewLane]

theorem replState_takeQueued (l : Lane) (j : Strand) (x : Lane) : (s.takeQueued k).replState l j x = s.replState l j x := by
  rw [State.replState, State.fld, reg_takeQueued s k _ (by cases j <;> cases k <;> decide)]
  rfl

theorem donorOf_takeQueued (j : Strand) : (s.takeQueued k).donorOf j = s.donorOf j := by
  rw [State.donorOf, viewLane_takeQueued]
  rfl

theorem rejoinRefusal_takeQueued (j : Strand) (x : Lane) : (s.takeQueued k).rejoinRefusal j x = s.rejoinRefusal j x := by
  have hv : (s.takeQueued k).donorView j = s.donorView j := by
    rw [State.donorView, donorOf_takeQueued, viewLane_takeQueued, State.donorView]
  simp only [State.rejoinRefusal, hv, replState_takeQueued, retired_takeQueued, State.halted, State.haltedAt, State.inStepAt,
    viewLane_takeQueued]
  rfl

end

theorem exec_rejoinStart {s : State} {k : Strand} {x d : Lane} (hq : s.rejoinQueue.get k = some x) (hr : s.rejoin = none)
    (hf : s.firstQueued k = true) (ho : s.rejoinRefusal k x = none) (hd : s.donorOf k = some d) :
    exec (.rejoinStart k) s = .next ((s.takeQueued k).startRejoin k x d) := by
  rw [← rejoinRefusal_takeQueued s k] at ho
  rw [← donorOf_takeQueued s k] at hd
  have hx : exec (.rejoinStart k) s = execRejoinStart k s := rfl
  rw [hx, execRejoinStart]
  split
  next y hy hn =>
    cases hq.symm.trans hy
    rw [if_neg (by simp [hf])]
    refine congrArg Host.Outcome.next ?_
    dsimp only
    split
    next res hres => exact absurd (ho.symm.trans hres) (by simp)
    next hres hnone => exact absurd (hd.symm.trans hnone) (by simp)
    next e hres he =>
      cases hd.symm.trans he
      rfl
  next h => exact absurd hr (h _ hq)

theorem replica_endDebug (s : State) (x : Lane) (k : Strand) :
    ((s.endDebug x k).replica x k).mode = .stopped ∧ ((s.endDebug x k).replica x k).debug = false := by
  rw [State.endDebug, replica_setReplica, if_pos ⟨rfl, rfl⟩]
  exact ⟨rfl, rfl⟩

theorem regs_startRejoin (s : State) (k : Strand) (x d : Lane) : (s.startRejoin k x d).regs = (s.showStart k x d).showDirty.regs := by
  obtain ⟨ls, cs, ns, h⟩ := latchChangeAll_frame ((s.showStart k x d).showDirty.endDebug x k) k x .rejoinStart
  rw [State.startRejoin, h]
  rfl

theorem rjStat_startRejoin (s : State) (k : Strand) (x d l : Lane) (hi lo : Nat) :
    (s.startRejoin k x d).fld l.unit (Reg.rjStat k.idx) hi lo = (s.showStart k x d).fld l.unit (Reg.rjStat k.idx) hi lo := by
  have h : (s.startRejoin k x d).reg l.unit (Reg.rjStat k.idx) = (s.showStart k x d).showDirty.reg l.unit (Reg.rjStat k.idx) := by
    unfold State.reg
    rw [regs_startRejoin]
  rw [State.fld, h, reg_showDirty _ _ (fun j => by cases j <;> cases k <;> decide)]
  rfl

theorem rjStat_showStart (s : State) (k : Strand) (x d l : Lane) :
    (s.showStart k x d).fld l.unit (Reg.rjStat k.idx) 10 8 = 1 ∧ (s.showStart k x d).fld l.unit (Reg.rjStat k.idx) 23 20 = 0 ∧
    (s.showStart k x d).fld l.unit (Reg.rjStat k.idx) 17 16 = d.idx ∧
    (s.showStart k x d).fld l.unit (Reg.rjStat k.idx) 13 12 = x.idx := by
  simp only [State.showStart, State.setRjPhase]
  have hx := lane_idx_lt x
  have hd := lane_idx_lt d
  refine ⟨fld_setLaneFld_same _ _ _ _ _ _ (by decide), ?_, ?_, ?_⟩
  · rw [fld_setLaneFld_other _ _ _ _ _ _ (.inr (by decide)), fld_setLaneFld_other _ _ _ _ _ _ (.inr (by decide)),
      fld_setLaneFld_other _ _ _ _ _ _ (.inr (by decide)), fld_setLaneFld_same _ _ _ _ _ _ (by decide)]
    rfl
  · rw [fld_setLaneFld_other _ _ _ _ _ _ (.inr (by decide)), fld_setLaneFld_other _ _ _ _ _ _ (.inr (by decide)),
      fld_setLaneFld_same _ _ _ _ _ _ (by decide)]
    exact Nat.mod_eq_of_lt (by omega)
  · rw [fld_setLaneFld_other _ _ _ _ _ _ (.inr (by decide)), fld_setLaneFld_same _ _ _ _ _ _ (by decide)]
    exact Nat.mod_eq_of_lt (by omega)

theorem startRejoin_starts (s : State) (k : Strand) (x d : Lane) :
    (s.startRejoin k x d).rejoin = some (s.startRun k x d) ∧ (s.startRejoin k x d).rejoinQueue = s.rejoinQueue ∧
    (s.startRejoin k x d).voters = s.voters := by
  have he (u : State) : (u.endDebug x k).rejoin = u.rejoin ∧ (u.endDebug x k).rejoinQueue = u.rejoinQueue ∧
    (u.endDebug x k).voters = u.voters := ⟨rfl, rfl, rfl⟩
  have hf (u : State) (off hi lo v : Nat) : (u.setLaneFld off hi lo v).rejoin = u.rejoin ∧
    (u.setLaneFld off hi lo v).rejoinQueue = u.rejoinQueue ∧ (u.setLaneFld off hi lo v).voters = u.voters := ⟨rfl, rfl, rfl⟩
  have hd (u : State) : u.showDirty.rejoin = u.rejoin ∧ u.showDirty.rejoinQueue = u.rejoinQueue ∧
      u.showDirty.voters = u.voters := by
    obtain ⟨rg, h⟩ := showDirty_frame u
    rw [h]
    exact ⟨rfl, rfl, rfl⟩
  obtain ⟨ls, cs, ns, h⟩ := latchChangeAll_frame ((s.showStart k x d).showDirty.endDebug x k) k x .rejoinStart
  simp only [State.startRejoin, h, he, hd]
  simp only [State.showStart, State.setRjPhase, hf, and_self]

theorem mode_startRejoin (s : State) (k : Strand) (x d : Lane) :
    ((s.startRejoin k x d).replica x k).mode = .stopped ∧ ((s.startRejoin k x d).replica x k).debug = false := by
  have h := replica_of_calm (State.latchChangeAll_calm ((s.showStart k x d).showDirty.endDebug x k) k x .rejoinStart) x k
  have ⟨hm, hd⟩ := replica_endDebug (s.showStart k x d).showDirty x k
  exact ⟨(congrArg Replica.mode h :).trans hm, (congrArg Replica.debug h :).trans hd⟩

theorem startRun_takeQueued (s : State) (k : Strand) (x d : Lane) : (s.takeQueued k).startRun k x d = s.startRun k x d := by
  rw [State.startRun, replState_takeQueued]
  rfl

/-- What REJOIN_START leads to. -/
theorem rejoinStart_starts {s : State} {k : Strand} {x d : Lane} (hq : s.rejoinQueue.get k = some x) (hr : s.rejoin = none)
    (hf : s.firstQueued k = true) (ho : s.rejoinRefusal k x = none) (hd : s.donorOf k = some d) :
    ∃ t, exec (.rejoinStart k) s = .next t ∧ t.rejoinQueue = s.rejoinQueue.set k none ∧ t.rejoin = some (s.startRun k x d) ∧
      (∀ l : Lane, t.fld l.unit (Reg.rjStat k.idx) 10 8 = 1 ∧ t.fld l.unit (Reg.rjStat k.idx) 23 20 = 0 ∧
        t.fld l.unit (Reg.rjStat k.idx) 17 16 = d.idx ∧ t.fld l.unit (Reg.rjStat k.idx) 13 12 = x.idx) ∧
      (t.replica x k).mode = .stopped ∧ (t.replica x k).debug = false ∧ t.base = s.base ∧ t.voters = s.voters := by
  have he := exec_rejoinStart hq hr hf ho hd
  obtain ⟨h1, h2, h3⟩ := startRejoin_starts (s.takeQueued k) k x d
  obtain ⟨hm, hg⟩ := mode_startRejoin (s.takeQueued k) k x d
  refine ⟨_, he, h2.trans rfl, h1.trans (congrArg some (startRun_takeQueued ..)), fun l => ?_, hm, hg, exec_base rfl he, h3.trans rfl⟩
  simp only [rjStat_startRejoin]
  exact rjStat_showStart ..

/-! ### Copy passes -/

/-- What a pass copied, and what is dirty behind it. -/
def State.passCopied (s : State) (r : RejoinRun) : State :=
  State.showDirty { s.copyPages r.strand r.donor r.target r.pass with rejoin := some (r.readTo (passSize r.pass)) }

theorem copyPages_frame (s : State) (k : Strand) (src dst : Lane) (pages : Option (List Nat)) :
    ∃ m p, s.copyPages k src dst pages = s.setLane dst { s.lane dst with mem := m, poison := p } := by
  cases pages <;> exact ⟨_, _, rfl⟩

theorem reg_passCopied (s : State) (r : RejoinRun) (u : RUnit) {off : Nat} (h : ∀ k : Strand, off ≠ Reg.rjDirty k.idx) :
    (s.passCopied r).reg u off = s.reg u off := by
  rw [State.passCopied, reg_showDirty _ _ h]
  obtain ⟨m, p, hx⟩ := copyPages_frame s r.strand r.donor r.target r.pass
  rw [hx]
  rfl

/-- The exec function of COPY_PASS_END, with what the pass copied under a name of its own. -/
theorem exec_copyPassEnd {s : State} {r : RejoinRun} (hr : s.rejoin = some r) :
    exec .copyPassEnd s = .next (if s.passOver r = false then s
      else if s.fld r.donor.unit (Reg.rjStat r.strand.idx) 10 8 = 1 ∨ s.fld r.donor.unit (Reg.rjStat r.strand.idx) 10 8 = 2 then
        if (r.readTo (passSize r.pass)).dirty.length ≤ stallPages (s.rjStallMax r.donor) (s.rjBw r.donor) then
          (s.passCopied r).arrangeStall (r.readTo (passSize r.pass))
        else (s.passCopied r).nextPass (r.readTo (passSize r.pass))
      else if s.fld r.donor.unit (Reg.rjStat r.strand.idx) 10 8 = 3 then
        State.showDirty { s.passCopied r with rejoin := some ((r.readTo (passSize r.pass)).startPass s.ns) }
      else s) := by
  have hx : exec .copyPassEnd s = execCopyPassEnd s := rfl
  have hc : ∀ k : Strand, Reg.rjCfg ≠ Reg.rjDirty k.idx := fun k => by cases k <;> decide
  have hb : (s.passCopied r).rjBw r.donor = s.rjBw r.donor := by
    rw [State.rjBw, State.fld, reg_passCopied s r _ hc, State.rjBw, State.fld]
  have hm : (s.passCopied r).rjStallMax r.donor = s.rjStallMax r.donor := by
    rw [State.rjStallMax, State.fld, reg_passCopied s r _ hc, State.rjStallMax, State.fld]
  simp only [State.passCopied] at hb hm
  simp only [hx, execCopyPassEnd, hr, State.passCopied, Bool.not_eq_true', hb, hm]

theorem passOver_iff (s : State) (r : RejoinRun) :
    s.passOver r = true ↔ passSize r.pass * 4096 ≤ (s.ns - r.passFrom) * s.rjBw r.donor := by simp [State.passOver]

/-! ### The hold -/

/-- What the hold leaves of the module. -/
theorem holdAt_keeps (s : State) (r : RejoinRun) (p : PDie) : (s.holdAt r p).rejoin = s.rejoin ∧
    (s.holdAt r p).lanes = s.lanes ∧ (s.holdAt r p).voters = s.voters ∧ (s.holdAt r p).links = s.links ∧
    (s.holdAt r p).wires = s.wires := by
  rw [State.holdAt]
  split
  · obtain ⟨rg, h⟩ := stallCopies_frame (s.setPort p { s.port p with hold := some r.strand }) p r.strand
    rw [h]
    exact ⟨rfl, rfl, rfl, rfl, rfl⟩
  · exact ⟨rfl, rfl, rfl, rfl, rfl⟩

theorem hold_holdAt (s : State) (r : RejoinRun) (p q : PDie) : ((s.holdAt r p).port q).hold =
    if q = p ∧ (s.lane r.donor).junction.get (Die.ofPDie p) = true then some r.strand else (s.port q).hold := by
  rw [State.holdAt]
  split
  next hj =>
    obtain ⟨rg, h⟩ := stallCopies_frame (s.setPort p { s.port p with hold := some r.strand }) p r.strand
    rw [h]
    refine (congrArg PortDie.hold (port_setPort s p q { s.port p with hold := some r.strand })).trans ?_
    by_cases hq : q = p <;> simp [hq, hj]
  next hj => rw [if_neg (fun h => hj h.2)]

/-- The rejoin unit's record once the hold is sent. -/
def State.holdSent (s : State) (r : RejoinRun) : State :=
  { s with rejoin := some { r with holdSent := true, holdAt := s.ns, owed := ⟨s.broadcastsTo .p1, s.broadcastsTo .p2⟩ } }

theorem exec_rejoinHold {s : State} {r : RejoinRun} (hr : s.rejoin = some r) (hf : r.stallFrom.isSome = true)
    (hs : r.holdSent = false) : exec .rejoinHold s = .next (((s.holdSent r).holdAt r .p1).holdAt r .p2) := by
  have hx : exec .rejoinHold s = execRejoinHold s := rfl
  rw [hx, execRejoinHold, hr]
  exact congrArg Host.Outcome.next (if_pos (by simp [hf, hs]))

theorem rejoinHold_holds {s : State} {r : RejoinRun} (hr : s.rejoin = some r) (hf : r.stallFrom.isSome = true)
    (hs : r.holdSent = false) : ∃ t, exec .rejoinHold s = .next t ∧
      t.rejoin = some { r with holdSent := true, holdAt := s.ns, owed := ⟨s.broadcastsTo .p1, s.broadcastsTo .p2⟩ } ∧
      (∀ p : PDie, (t.port p).hold = if (s.lane r.donor).junction.get (Die.ofPDie p) = true then some r.strand
        else (s.port p).hold) ∧ t.lanes = s.lanes ∧ t.voters = s.voters ∧ t.links = s.links ∧ t.wires = s.wires := by
  obtain ⟨hr1, hl1, hv1, hk1, hw1⟩ := holdAt_keeps (s.holdSent r) r .p1
  obtain ⟨hr2, hl2, hv2, hk2, hw2⟩ := holdAt_keeps ((s.holdSent r).holdAt r .p1) r .p2
  refine ⟨_, exec_rejoinHold hr hf hs, hr2.trans hr1, fun p => ?_, hl2.trans hl1, hv2.trans hv1, hk2.trans hk1, hw2.trans hw1⟩
  have hlane : ((s.holdSent r).holdAt r .p1).lane r.donor = s.lane r.donor := by rw [State.lane, hl1]; rfl
  have hlane0 : (s.holdSent r).lane r.donor = s.lane r.donor := rfl
  have hport : (s.holdSent r).port p = s.port p := rfl
  rw [hold_holdAt, hlane, hold_holdAt, hlane0, hport]
  cases p <;> simp

theorem holdDone_iff (s : State) (r : RejoinRun) (p : PDie) : s.holdDone r p = true ↔ (s.port p).hold = some r.strand ∧
    (s.lane r.donor).junction.get (Die.ofPDie p) = true ∧ s.broadcastOwed r p = false := by
  simp [State.holdDone, and_assoc]

/-! ### Acknowledgements and time limits -/

/-- The record once a die has acknowledged. -/
def RejoinRun.ackBy (r : RejoinRun) (p : PDie) : RejoinRun := { r with acked := r.acked.set p true }

/-- What both acknowledgements lead to. -/
def State.allAcked (s : State) (r : RejoinRun) : State :=
  if (s.settlePass r).2.dirty.length ≤ (s.settlePass r).1.stallLimit (s.settlePass r).2 then
    (s.settlePass r).1.finalCopy (s.settlePass r).2
  else if (s.settlePass r).2.forced = true then
    (((s.settlePass r).1.recordStall (s.settlePass r).2).releaseHolds.resumePaused (s.settlePass r).2.strand).abandonRejoin 0x20
  else (((s.settlePass r).1.recordStall (s.settlePass r).2).releaseHolds.resumePaused (s.settlePass r).2.strand).nextPass
    (s.settlePass r).2

theorem exec_holdAck {s : State} {r : RejoinRun} (hr : s.rejoin = some r) (p : PDie) :
    exec (.holdAck p) s = .next (
      if (r.holdSent && !(r.acked.p1 && r.acked.p2) && decide (r.holdAt + 5000 < s.ns)) = true then s.abandonRejoin 0x22
      else if (r.holdSent && !r.acked.get p && s.holdDone r p && (!r.acked.get p.other || s.boundaryAgreed r)) = true then
        if ((r.ackBy p).acked.p1 && (r.ackBy p).acked.p2) = true then
          ({ s with rejoin := some (r.ackBy p) } : State).allAcked (r.ackBy p)
        else { s with rejoin := some (r.ackBy p) }
      else s) := by
  have hx : exec (.holdAck p) s = execHoldAck p s := rfl
  rw [hx, execHoldAck, hr]
  rfl

/-- The pages of the pass that the stall ended are in the target as far as they were read. -/
def State.passSettled (s : State) (r : RejoinRun) : State :=
  { s.copyPages r.strand r.donor r.target (some ((r.pass.getD []).take (s.pagesDue r))) with
    rejoin := some (r.readTo (s.pagesDue r)) }

theorem settlePass_acked (s : State) (r : RejoinRun) (p : PDie) :
    ({ s with rejoin := some (r.ackBy p) } : State).settlePass (r.ackBy p) =
      (s.passSettled (r.ackBy p), (r.ackBy p).readTo (s.pagesDue (r.ackBy p))) := rfl

theorem stallLimit_passSettled (s : State) (r q : RejoinRun) : (s.passSettled r).stallLimit q = s.stallLimit q := rfl

section
variable {s : State} {r : RejoinRun} (hr : s.rejoin = some r) (p : PDie)
include hr

theorem holdAck_late (hs : r.holdSent = true) (ha : r.acked.p1 = false ∨ r.acked.p2 = false) (ht : r.holdAt + 5000 < s.ns) :
    exec (.holdAck p) s = .next (s.abandonRejoin 0x22) := by
  rw [exec_holdAck hr, if_pos]
  rcases ha with ha | ha <;> simp [hs, ha, ht]

theorem holdAck_unchanged (ht : r.holdSent = false ∨ r.acked.p1 = true ∧ r.acked.p2 = true ∨ s.ns ≤ r.holdAt + 5000)
    (h : r.holdSent = false ∨ r.acked.get p = true ∨ s.holdDone r p = false ∨
      r.acked.get p.other = true ∧ s.boundaryAgreed r = false) : exec (.holdAck p) s = .next s := by
  rw [exec_holdAck hr, if_neg, if_neg]
  · rcases h with h | h | h | ⟨h, h'⟩ <;> simp [*]
  · rcases ht with h | ⟨h, h'⟩ | h
    · simp [h]
    · simp [h, h']
    · simp [Nat.not_lt.2 h]

theorem holdAck_first (ht : s.ns ≤ r.holdAt + 5000) (hs : r.holdSent = true) (ha : r.acked.get p = false)
    (ho : r.acked.get p.other = false) (hd : s.holdDone r p = true) :
    exec (.holdAck p) s = .next { s with rejoin := some (r.ackBy p) } := by
  rw [exec_holdAck hr, if_neg (by simp [Nat.not_lt.2 ht]), if_pos (by simp [hs, ha, ho, hd]), if_neg]
  cases p <;> simp [RejoinRun.ackBy, Duo.set] <;> exact ho

theorem holdAck_second (ht : s.ns ≤ r.holdAt + 5000) (hs : r.holdSent = true) (ha : r.acked.get p = false)
    (ho : r.acked.get p.other = true) (hd : s.holdDone r p = true) (hb : s.boundaryAgreed r = true) :
    exec (.holdAck p) s = .next (({ s with rejoin := some (r.ackBy p) } : State).allAcked (r.ackBy p)) := by
  rw [exec_holdAck hr, if_neg (by simp [Nat.not_lt.2 ht]), if_pos (by simp [hs, ha, hd, hb]), if_pos]
  cases p <;> simp [RejoinRun.ackBy, Duo.set] <;> exact ho

theorem holdTimeout_abandons (hs : r.holdSent = true) (ha : r.acked.p1 = false ∨ r.acked.p2 = false) (ht : r.holdAt + 5000 ≤ s.ns) :
    exec .holdTimeout s = .next (s.abandonRejoin 0x22) := by
  have hx : exec .holdTimeout s = execHoldTimeout s := rfl
  rw [hx, execHoldTimeout, hr]
  refine congrArg Host.Outcome.next (if_pos ?_)
  rcases ha with ha | ha <;> simp [hs, ha, ht]

theorem stallOver_abandons {t : Nat} (hf : r.stallFrom = some t)
    (ht : t + 1000 * (if r.forced = true then 2000 else s.rjStallMax r.donor) ≤ s.ns) :
    exec .stallOver s = .next (s.abandonRejoin 0x21) := by
  have hx : exec .stallOver s = execStallOver s := rfl
  rw [hx, execStallOver, hr]
  exact congrArg Host.Outcome.next (if_pos (by simpa [hf, State.stallBoundNs] using ht))

end

theorem no_rejoin_no_effect {s : State} (hr : s.rejoin = none) : exec .copyPassEnd s = .next s ∧ exec .rejoinHold s = .next s ∧
    (∀ p, exec (.holdAck p) s = .next s) ∧ exec .holdTimeout s = .next s ∧ exec .stallOver s = .next s ∧
    exec .joinNotice s = .next s := by
  have h1 : exec .copyPassEnd s = execCopyPassEnd s := rfl
  have h2 : exec .rejoinHold s = execRejoinHold s := rfl
  have h3 (p) : exec (.holdAck p) s = execHoldAck p s := rfl
  have h4 : exec .holdTimeout s = execHoldTimeout s := rfl
  have h5 : exec .stallOver s = execStallOver s := rfl
  have h6 : exec .joinNotice s = execJoinNotice s := rfl
  refine ⟨?_, ?_, fun p => ?_, ?_, ?_, ?_⟩
  · rw [h1, execCopyPassEnd, hr]
  · rw [h2, execRejoinHold, hr]
  · rw [h3, execHoldAck, hr]
  · rw [h4, execHoldTimeout, hr]
  · rw [h5, execStallOver, hr]
  · rw [h6, execJoinNotice, hr]

/-! ### The bytes that a copy brings -/

/-- No entry of a canonical list lies at or below its bound. -/
theorem cellGet_below {n a i : Nat} {m : List (Nat × BitVec n)} (h : cellsWfFrom (some a) m = true) (hi : i ≤ a) :
    cellGet m i = 0 := by
  induction m generalizing a with
  | nil => rfl
  | cons c t ih =>
    obtain ⟨b, v⟩ := c
    obtain ⟨hb, -, ht⟩ := cellsWfFrom_cons.1 h
    have hab := hb a rfl
    rw [cellGet, if_neg (by omega), ih ht (by omega)]

theorem cellGet_cellPutAll {n i : Nat} {lo : Option Nat} {cs : List (Nat × BitVec n)} (h : cellsWfFrom lo cs = true)
    (m : List (Nat × BitVec n)) : cellGet (cellPutAll m cs) i = if cellGet cs i = 0 then cellGet m i else cellGet cs i := by
  induction cs generalizing m lo with
  | nil => simp [cellPutAll, cellGet]
  | cons c t ih =>
    obtain ⟨a, v⟩ := c
    obtain ⟨-, hv, ht⟩ := cellsWfFrom_cons.1 h
    have hput : cellPutAll m ((a, v) :: t) = cellPutAll (cellSet m a v) t := rfl
    rw [hput, ih ht, cellGet_cellSet, cellGet]
    by_cases hi : a = i
    · subst hi
      rw [if_pos (cellGet_below ht (Nat.le_refl _)), if_pos rfl, if_pos rfl, if_neg hv]
    · rw [if_neg hi, if_neg (Ne.symm hi)]

theorem cellGet_memRange {n : Nat} (m : List (Nat × BitVec n)) (base size i : Nat) :
    cellGet (memRange m base size) i = if base ≤ i ∧ i < base + size then cellGet m i else 0 := by
  induction m with
  | nil => simp [memRange, cellGet]
  | cons c m ih =>
    obtain ⟨a, v⟩ := c
    rw [memRange] at ih ⊢
    rw [List.filter_cons]
    by_cases hc : base ≤ a ∧ a < base + size
    · rw [if_pos (by simp [hc]), cellGet, ih, cellGet]
      split
      · rw [if_pos (by omega)]
      · rfl
    · rw [if_neg (by simpa using hc), ih, cellGet]
      split
      · rw [if_neg (by omega)]
      · rfl

theorem cellGet_memCopy {n : Nat} (dst : List (Nat × BitVec n)) {src : List (Nat × BitVec n)} (h : cellsWf src = true)
    (base size i : Nat) :
    cellGet (memCopy dst src base size) i = if base ≤ i ∧ i < base + size then cellGet src i else cellGet dst i := by
  have hr : cellsWfFrom none (memRange src base size) = true := memRange_wf base size h
  rw [memCopy, cellGet_cellPutAll hr, cellGet_memRange, cellGet_memClear]
  split
  · split
    · next h0 => exact h0.symm
    · rfl
  · rw [if_pos rfl]

theorem cellGet_copyAll {n : Nat} {src : List (Nat × BitVec n)} (h : cellsWf src = true) (base : Nat → Nat) (size i : Nat)
    (ps : List Nat) (dst : List (Nat × BitVec n)) :
    cellGet (ps.foldl (fun acc p => memCopy acc src (base p) size) dst) i =
      if ∃ p ∈ ps, base p ≤ i ∧ i < base p + size then cellGet src i else cellGet dst i := by
  induction ps generalizing dst with
  | nil => simp
  | cons p ps ih =>
    rw [List.foldl_cons, ih, cellGet_memCopy dst h]
    simp only [List.exists_mem_cons_iff]
    by_cases h1 : base p ≤ i ∧ i < base p + size
    · rw [if_pos h1, if_pos (Or.inl h1), ite_self]
    · rw [if_neg h1]
      simp only [h1, false_or]

/-! ### The final copy -/

theorem replica_commitMsg (s : State) (l : Lane) (j k : Strand) (m : SqMsg) (x : Lane) (i : Strand) :
    (s.commitMsg l j k m).replica x i = s.replica x i := by
  simp only [State.commitMsg]
  split
  · exact replica_setEcho ..
  · split
    · exact replica_setEcho ..
    · rfl

theorem rejoin_commitMsg (s : State) (l : Lane) (j k : Strand) (m : SqMsg) : (s.commitMsg l j k m).rejoin = s.rejoin := by
  simp only [State.commitMsg]
  split
  · rfl
  · split <;> rfl

theorem keepMsgs_keeps (s : State) (l : Lane) (k : Strand) (old : Echo) : (s.keepMsgs l k old).rejoin = s.rejoin ∧
    ∀ x i, (s.keepMsgs l k old).replica x i = s.replica x i := by
  have inner (j : Strand) (ms : List SqMsg) (t : State) :
      (ms.foldl (fun t m => t.commitMsg l j k m) t).rejoin = t.rejoin ∧
      ∀ x i, (ms.foldl (fun t m => t.commitMsg l j k m) t).replica x i = t.replica x i := by
    induction ms generalizing t with
    | nil => exact ⟨rfl, fun _ _ => rfl⟩
    | cons m ms ih =>
      obtain ⟨hr, hx⟩ := ih (t.commitMsg l j k m)
      exact ⟨hr.trans (rejoin_commitMsg ..), fun x i => (hx x i).trans (replica_commitMsg ..)⟩
  rw [State.keepMsgs]
  generalize Strand.list = js
  induction js generalizing s with
  | nil => exact ⟨rfl, fun _ _ => rfl⟩
  | cons j js ih =>
    obtain ⟨hr, hx⟩ := ih ((old.inQ.get j ++ old.inAhead.get j).foldl (fun t m => t.commitMsg l j k m) s)
    obtain ⟨hr', hx'⟩ := inner j (old.inQ.get j ++ old.inAhead.get j) s
    exact ⟨hr.trans hr', fun x i => (hx x i).trans (hx' x i)⟩

/-- The pages and the strand page of the target as the final copy leaves them. -/
def State.pagesJoined (s : State) (r : RejoinRun) : State :=
  (State.showDirty { s.copyPages r.strand r.donor r.target (some r.dirty) with
    rejoin := some { r.startPass s.ns with copied := true } }).copyPage r.strand r.donor r.target

/-- The target's replica as the donor's, stopped. -/
def State.replicaJoined (s : State) (r : RejoinRun) : State :=
  s.setReplica r.target r.strand { joinReplica (s.replica r.donor r.strand) with mode := .stopped }

/-- The target's Echo unit and scrub position as the donor's. -/
def State.echoJoined (s : State) (r : RejoinRun) : State :=
  let t := (s.setEcho r.target r.strand (joinEcho (s.echo r.donor r.strand) (s.echo r.target r.strand))).keepMsgs r.target r.strand
    (s.echo r.target r.strand)
  t.setScrub r.target r.strand (joinScrub (t.scrub r.donor r.strand))

/-- What the donor applied of a change, the target applied. -/
def State.changesJoined (s : State) (r : RejoinRun) : State :=
  { s with changes := s.changes.set r.strand ((s.changes.get r.strand).map fun (c : Change) =>
    if c.applied.contains r.donor then { c with applied := r.target :: c.applied } else c) }

theorem finalCopy_eq (s : State) (r : RejoinRun) :
    s.finalCopy r = (((s.pagesJoined r).replicaJoined r).echoJoined r).changesJoined r := rfl

theorem echoJoined_keeps (s : State) (r : RejoinRun) : (s.echoJoined r).rejoin = s.rejoin ∧
    ∀ x i, (s.echoJoined r).replica x i = s.replica x i := by
  obtain ⟨hr, hx⟩ := keepMsgs_keeps (s.setEcho r.target r.strand (joinEcho (s.echo r.donor r.strand) (s.echo r.target r.strand)))
    r.target r.strand (s.echo r.target r.strand)
  refine ⟨hr, fun x i => ?_⟩
  rw [State.echoJoined]
  refine Eq.trans ?_ ((hx x i).trans (replica_setEcho ..))
  rw [State.replica, State.setScrub, lane_setLane]
  split
  · next h => rw [h]; rfl
  · rfl

theorem replica_pagesJoined (s : State) (r : RejoinRun) (x : Lane) (i : Strand) :
    (s.pagesJoined r).replica x i = s.replica x i := by
  obtain ⟨m, p, hc⟩ := copyPages_frame s r.strand r.donor r.target (some r.dirty)
  obtain ⟨rg, hd⟩ := showDirty_frame { s.copyPages r.strand r.donor r.target (some r.dirty) with
    rejoin := some { r.startPass s.ns with copied := true } }
  have h : (s.pagesJoined r).replica x i = (s.copyPages r.strand r.donor r.target (some r.dirty)).replica x i := by
    rw [State.pagesJoined, hd]
    rfl
  rw [h, hc, State.replica, lane_setLane]
  split
  · next h => rw [h]; rfl
  · rfl

theorem rejoin_pagesJoined (s : State) (r : RejoinRun) :
    (s.pagesJoined r).rejoin = some { r.startPass s.ns with copied := true } := by
  obtain ⟨rg, hd⟩ := showDirty_frame { s.copyPages r.strand r.donor r.target (some r.dirty) with
    rejoin := some { r.startPass s.ns with copied := true } }
  rw [State.pagesJoined, hd]
  rfl

theorem replica_finalCopy (s : State) (r : RejoinRun) : (s.finalCopy r).replica r.target r.strand =
    { joinReplica (s.replica r.donor r.strand) with mode := .stopped } := by
  have h : (s.finalCopy r).replica r.target r.strand =
      (((s.pagesJoined r).replicaJoined r).echoJoined r).replica r.target r.strand := by rw [finalCopy_eq]; rfl
  rw [h, (echoJoined_keeps ..).2, State.replicaJoined, replica_setReplica, if_pos ⟨rfl, rfl⟩, replica_pagesJoined]

theorem rejoin_finalCopy (s : State) (r : RejoinRun) :
    (s.finalCopy r).rejoin = some { r with pass := some r.dirty, passFrom := s.ns, pagesRead := 0, copied := true } := by
  have h : (s.finalCopy r).rejoin = (((s.pagesJoined r).replicaJoined r).echoJoined r).rejoin := by rw [finalCopy_eq]; rfl
  have h' : ((s.pagesJoined r).replicaJoined r).rejoin = (s.pagesJoined r).rejoin := rfl
  rw [h, (echoJoined_keeps ..).1, h', rejoin_pagesJoined]
  rfl

theorem finalCopy_base (s : State) (r : RejoinRun) :
    (s.finalCopy r).base = (s.copyPages r.strand r.donor r.target (some r.dirty)).base := by
  have h (u : State) : ((((u.showDirty.copyPage r.strand r.donor r.target).replicaJoined r).echoJoined r).changesJoined r).base =
      u.base := by
    have h1 (v : State) : (v.changesJoined r).base = v.base := rfl
    have h2 (v : State) : (v.echoJoined r).base = v.base := by simp [State.echoJoined]
    have h3 (v : State) : (v.replicaJoined r).base = v.base := by simp [State.replicaJoined]
    rw [h1, h2, h3, State.copyPage_base, State.showDirty_base]
  rw [finalCopy_eq, State.pagesJoined, h]
  rfl

theorem cellGet_finalCopy (s : State) (r : RejoinRun) (h : memoriesWf s = true) (l : Lane) (i : Nat) :
    cellGet ((s.finalCopy r).lane l).mem i =
      if l = r.target ∧ (∃ n ∈ r.dirty, pageBase r.strand n ≤ i ∧ i < pageBase r.strand n + 4096) then
        cellGet (s.lane r.donor).mem i else cellGet (s.lane l).mem i := by
  rw [mem_of_base (finalCopy_base s r), State.copyPages, lane_setLane]
  by_cases hl : l = r.target
  · rw [if_pos hl, cellGet_copyAll ((memoriesWf_iff s).1 h _), hl]
    simp only [true_and]
  · rw [if_neg hl, if_neg (fun hc => hl hc.1)]

/-! ### The join notice -/

/-- The die's own voter with the target in its set. -/
def State.voterTakes (s : State) (r : RejoinRun) (d : Die) : State :=
  (((s.setVoter d r.strand { s.voter d r.strand with
    join := (s.voter d r.strand).join.set r.target (some ((s.replica r.donor r.strand).ord.get d)) }).setFlag d.unit
      (Reg.vtStat r.strand.idx) r.target.idx true).showMode d r.strand).showSump d r.strand

theorem voterTakes_side (s : State) (r : RejoinRun) (d : Die) : (s.voterTakes r d).side = s.side := by
  simp [State.voterTakes]

theorem joinVoter_side (s : State) (r : RejoinRun) (d : Die) : (s.joinVoter r d).side = s.side := by
  refine Eq.trans ?_ (voterTakes_side s r d)
  cases d with
  | p1 => exact State.setPort_side _ _ _ (by rfl)
  | p2 => exact State.setPort_side _ _ _ (by rfl)
  | m => rfl
  | f => rfl

theorem joinVoter_voting (s : State) (r : RejoinRun) (d : Die) : (s.joinVoter r d).voting = (s.voterTakes r d).voting := by
  cases d with
  | p1 => exact State.setPort_voting ..
  | p2 => exact State.setPort_voting ..
  | m => rfl
  | f => rfl

/-- The target in a voter's set, from the donor's next ordinal on. -/
def State.TakenIn (s t : State) (r : RejoinRun) (d : Die) : Prop :=
  t.flag d.unit (Reg.vtStat r.strand.idx) r.target.idx = true ∧
  (t.voter d r.strand).join.get r.target = some ((s.replica r.donor r.strand).ord.get d)

theorem shown_of_voting {s t : State} (h : t.voting = s.voting) (d : Die) (k : Strand) :
    t.reg d.unit (Reg.vtStat k.idx) = s.reg d.unit (Reg.vtStat k.idx) ∧ t.voter d k = s.voter d k := by
  have hr := congrFun (congrFun (congrArg Voting.shown h) d) (Reg.vtStat k.idx)
  have hv : t.voters = s.voters := (congrArg Voting.voters h :)
  refine ⟨by simpa only [State.voting, votReg_vtStat, if_true] using hr, ?_⟩
  rw [State.voter, State.voter, hv]

theorem takenIn_of_voting {s t u : State} {r : RejoinRun} {d : Die} (h : u.voting = t.voting) (ht : s.TakenIn t r d) :
    s.TakenIn u r d := by
  obtain ⟨hr, hv⟩ := shown_of_voting h d r.strand
  rw [State.TakenIn, State.flag, hr, hv]
  exact ht

theorem voterTakes_voters (s : State) (r : RejoinRun) (d : Die) : (s.voterTakes r d).voters = (s.setVoter d r.strand
    { s.voter d r.strand with
      join := (s.voter d r.strand).join.set r.target (some ((s.replica r.donor r.strand).ord.get d)) }).voters := by
  have hfld (t : State) (i off : Nat) (b : Bool) : (t.setFlag d.unit off i b).voters = t.voters := rfl
  rw [State.voterTakes, showSump_voters, showMode_voters, hfld]

theorem voterTakes_takes {s t : State} {r : RejoinRun} (d : Die) (h : t.side = s.side) : s.TakenIn (t.voterTakes r d) r d := by
  have hx := lane_idx_lt r.target
  refine ⟨?_, ?_⟩
  · rw [State.voterTakes, flag_showSump _ _ _ (by omega), flag_showMode _ _ _ (by omega), flag_setFlag_same _ _ _ _ _ (by omega)]
  · rw [State.voter, voterTakes_voters]
    refine (congrArg (fun v : Voter => v.join.get r.target) ((voter_setVoter ..).trans (if_pos ⟨rfl, rfl⟩))).trans ?_
    rw [replica_of_side h]
    exact (Tri.get_set ..).trans (if_pos rfl)

theorem voterTakes_other {s : State} (r : RejoinRun) {d e : Die} (h : e ≠ d) :
    (s.voterTakes r d).reg e.unit (Reg.vtStat r.strand.idx) = s.reg e.unit (Reg.vtStat r.strand.idx) ∧
    (s.voterTakes r d).voter e r.strand = s.voter e r.strand := by
  have hu : e.unit ≠ d.unit := by revert h; cases d <;> cases e <;> decide
  have hf (t : State) (hi lo v off : Nat) : (t.setFld d.unit off hi lo v).reg e.unit (Reg.vtStat r.strand.idx) =
      t.reg e.unit (Reg.vtStat r.strand.idx) := reg_setFld_other _ _ _ _ (.inl hu)
  have hg (t : State) (i off : Nat) (b : Bool) : (t.setFlag d.unit off i b).reg e.unit (Reg.vtStat r.strand.idx) =
      t.reg e.unit (Reg.vtStat r.strand.idx) := reg_setFlag_other _ _ _ (.inl hu)
  have hmode (t : State) : (t.showMode d r.strand).reg e.unit (Reg.vtStat r.strand.idx) = t.reg e.unit (Reg.vtStat r.strand.idx) := by
    simp only [State.showMode]
    split
    · rfl
    · exact hf ..
  have hsump (t : State) : (t.showSump d r.strand).reg e.unit (Reg.vtStat r.strand.idx) = t.reg e.unit (Reg.vtStat r.strand.idx) := by
    simp only [State.showSump, State.raiseMax]
    rw [hf, hf]
    exact reg_foldl_of_each (fun _ _ _ => by rw [hf, hg]) _
  refine ⟨?_, ?_⟩
  · rw [State.voterTakes, hsump, hmode, hg]
    rfl
  · rw [State.voter, voterTakes_voters]
    exact (voter_setVoter ..).trans (if_neg fun he => h he.1)

/-- The target joins at every die. -/
def State.votersJoin (s : State) (r : RejoinRun) : State := s.dies.foldl (fun t d => t.joinVoter r d) s

theorem votersJoin_side (s : State) (r : RejoinRun) : (s.votersJoin r).side = s.side :=
  side_foldl _ (fun _ _ => joinVoter_side ..) _ _

theorem votersJoin_takes (s : State) (r : RejoinRun) {d : Die} (hd : d ∈ s.dies) : s.TakenIn (s.votersJoin r) r d := by
  have step (t : State) (e : Die) (ht : t.side = s.side) (h : e = d ∨ s.TakenIn t r d) : s.TakenIn (t.joinVoter r e) r d := by
    refine takenIn_of_voting (joinVoter_voting t r e) ?_
    by_cases he : d = e
    · rw [he]
      exact voterTakes_takes e ht
    · obtain ⟨hr, hv⟩ := voterTakes_other (s := t) r he
      rw [State.TakenIn, State.flag, hr, hv]
      exact h.resolve_left (fun h => he h.symm)
  have keep (xs : List Die) (t : State) (ht : t.side = s.side) (h : s.TakenIn t r d) :
      s.TakenIn (xs.foldl (fun t d => t.joinVoter r d) t) r d := by
    induction xs generalizing t with
    | nil => exact h
    | cons e xs ih => exact ih _ ((joinVoter_side ..).trans ht) (step t e ht (.inr h))
  obtain ⟨as, bs, he⟩ := List.append_of_mem hd
  have has : (as.foldl (fun t d => t.joinVoter r d) s).side = s.side := side_foldl _ (fun _ _ => joinVoter_side ..) _ _
  rw [State.votersJoin, he, List.foldl_append, List.foldl_cons]
  exact keep bs _ ((joinVoter_side ..).trans has) (step _ d has (.inl rfl))

/-- No rejoin runs any more. -/
def State.rejoinEnds (s : State) : State := { s with rejoin := none }

/-- The target's core goes on as the donor's. -/
def State.coreJoins (s : State) (r : RejoinRun) : State :=
  s.setReplica r.target r.strand { s.replica r.target r.strand with mode := (s.replica r.donor r.strand).mode }

/-- One lane's Echo unit takes the target in. -/
def State.echoTakes (s : State) (r : RejoinRun) (tm : Dword) (l : Lane) : State :=
  s.setEcho l r.strand { s.echo l r.strand with
    inStep := (s.echo l r.strand).inStep.set r.target true
    pubFirst := (s.echo l r.strand).pubFirst.set r.target (r.boundary.map fun b => b + 1)
    rejoins := if r.fromDebug then (s.echo l r.strand).rejoins
      else (s.echo l r.strand).rejoins.set r.target (tm :: (s.echo l r.strand).rejoins.get r.target) }

def State.echoesTake (s : State) (r : RejoinRun) (tm : Dword) : State := s.liveLanes.foldl (fun t l => t.echoTakes r tm l) s

/-- What the registers of the rejoin units show of the join. -/
def State.showJoined (s : State) (r : RejoinRun) : State :=
  (((s.setLaneFld (Reg.rjHist r.strand.idx) (17 + 2 * r.target.idx) (16 + 2 * r.target.idx) 0).setRjResult r.strand
    (if r.forced then 0x02 else 0x01)).setRjPhase r.strand 0).setReg r.donor.unit (Reg.rjDirty r.strand.idx) 0

/-- The replicas go on, and the lane's view follows. -/
def State.goOnJoined (s : State) (r : RejoinRun) : State := (s.releaseHolds.resumePaused r.strand).showLaneView r.target

/-- The state in which the voters and the core have taken the target in. -/
def State.coreIn (s : State) (r : RejoinRun) : State := (((s.recordStall r).votersJoin r).rejoinEnds).coreJoins r

/-- The state in which every lane's Echo unit has taken it in as well. -/
def State.allTake (s : State) (r : RejoinRun) : State := (s.coreIn r).echoesTake r (s.boundaryTime r)

/-- The state after a join notice. -/
def State.joined (s : State) (r : RejoinRun) : State :=
  (((s.allTake r).latchChangeAll r.strand r.target .joined).showJoined r).goOnJoined r

theorem exec_joinNotice {s : State} {r : RejoinRun} (hr : s.rejoin = some r) : exec .joinNotice s = .next (
    if (!r.copied || !s.passOver r) = true then s
    else if (r.stallFrom.any fun t => decide (t + s.stallBoundNs r < s.ns)) = true then s.abandonRejoin 0x21
    else s.joined r) := by
  have hx : exec .joinNotice s = execJoinNotice s := rfl
  rw [hx, execJoinNotice, hr]
  simp only [State.joined, State.allTake, State.coreIn, State.goOnJoined, State.showJoined, State.echoesTake, State.echoTakes, State.coreJoins, State.rejoinEnds,
    State.votersJoin]

section
variable (s : State) (r : RejoinRun)

theorem resumePaused_keeps (k : Strand) : (s.resumePaused k).rejoin = s.rejoin ∧ (s.resumePaused k).regs = s.regs := by
  rw [State.resumePaused]
  generalize Lane.list = ls
  induction ls generalizing s with
  | nil => exact ⟨rfl, rfl⟩
  | cons l ls ih =>
    rw [List.foldl_cons]
    dsimp only
    refine ⟨(ih _).1.trans ?_, (ih _).2.trans ?_⟩ <;> split <;> rfl

theorem showLaneView_side (x : Lane) : (s.showLaneView x).side = s.side := State.setView_side ..

theorem goOnJoined_rejoin : (s.goOnJoined r).rejoin = s.rejoin := by
  have h1 : (s.goOnJoined r).rejoin = (s.releaseHolds.resumePaused r.strand).rejoin :=
    (congrArg LaneSide.rejoin (showLaneView_side ..) :)
  rw [h1, (resumePaused_keeps ..).1]
  exact (congrArg LaneSide.rejoin (State.releaseHolds_side s) :)

theorem goOnJoined_reg (l : Lane) (off : Nat) : (s.goOnJoined r).reg l.unit off = s.reg l.unit off := by
  rw [State.goOnJoined, reg_of_side (showLaneView_side ..), State.reg, (resumePaused_keeps ..).2]
  exact reg_of_side (State.releaseHolds_side s) l off

theorem goOnJoined_calm : (s.goOnJoined r).calm = s.calm := by simp [State.goOnJoined]

theorem goOnJoined_voting : (s.goOnJoined r).voting = s.voting := by simp [State.goOnJoined]

theorem goOnJoined_latches {t : State} (h : Latches s t) : Latches s (t.goOnJoined r) :=
  .side (.resumePaused (h.side (State.releaseHolds_side t)) _) (showLaneView_side ..)

theorem showJoined_calm : (s.showJoined r).calm = s.calm := by
  rw [State.showJoined, State.setReg_calm _ _ _ _ (calmReg_rjDirty _ _), State.setRjPhase_calm, State.setRjResult_calm,
    setRjHist_calm]

theorem showJoined_voting : (s.showJoined r).voting = s.voting := by
  rw [State.showJoined, State.setReg_voting _ _ _ _ (votReg_rjDirty _), State.setRjPhase_voting, State.setRjResult_voting,
    State.setLaneFld_voting _ _ _ _ _ (votReg_rjHist _)]

theorem showJoined_keeps : (s.showJoined r).lanes = s.lanes ∧ (s.showJoined r).rejoin = s.rejoin := by
  have hf (u : State) (off hi lo v : Nat) : (u.setLaneFld off hi lo v).lanes = u.lanes ∧
    (u.setLaneFld off hi lo v).rejoin = u.rejoin := ⟨rfl, rfl⟩
  have hr (u : State) (x : RUnit) (off : Nat) (v : Word) : (u.setReg x off v).lanes = u.lanes ∧
    (u.setReg x off v).rejoin = u.rejoin := ⟨rfl, rfl⟩
  simp only [State.showJoined, State.setRjPhase, State.setRjResult, hr, hf, and_self]

theorem showJoined_shows (l : Lane) :
    (s.showJoined r).fld l.unit (Reg.rjStat r.strand.idx) 31 24 = (if r.forced = true then 2 else 1) ∧
    (s.showJoined r).fld l.unit (Reg.rjStat r.strand.idx) 10 8 = 0 ∧
    (s.showJoined r).fld l.unit (Reg.rjHist r.strand.idx) (17 + 2 * r.target.idx) (16 + 2 * r.target.idx) = 0 := by
  have hs : Reg.rjStat r.strand.idx ≠ Reg.rjDirty r.strand.idx := by cases r.strand <;> decide
  have hh : Reg.rjHist r.strand.idx ≠ Reg.rjDirty r.strand.idx := by cases r.strand <;> decide
  have hn : Reg.rjHist r.strand.idx ≠ Reg.rjStat r.strand.idx := by cases r.strand <;> decide
  have hx := lane_idx_lt r.target
  simp only [State.showJoined]
  refine ⟨?_, ?_, ?_⟩
  · rw [State.fld, reg_setReg_other _ _ (.inr hs), ← State.fld, State.setRjPhase,
      fld_setLaneFld_other _ _ _ _ _ _ (.inr (by decide))]
    split
    · exact setRjResult_shows _ _ (by decide) _
    · exact setRjResult_shows _ _ (by decide) _
  · rw [State.fld, reg_setReg_other _ _ (.inr hs), ← State.fld, State.setRjPhase, fld_setLaneFld_same _ _ _ _ _ _ (by decide)]
    rfl
  · rw [State.fld, reg_setReg_other _ _ (.inr hh), State.setRjPhase, reg_setLaneFld_other _ _ _ _ _ hn, State.setRjResult,
      reg_setLaneFld_other _ _ _ _ _ hn, ← State.fld, fld_setLaneFld_same _ _ _ _ _ _ (by omega)]
    exact Nat.zero_mod _

theorem echoTakes_takes (tm : Dword) (l m : Lane) :
    ((s.echoTakes r tm l).echo m r.strand).inStep.get r.target = (decide (m = l) || (s.echo m r.strand).inStep.get r.target) := by
  rw [State.echoTakes, echo_setEcho]
  by_cases h : m = l
  · rw [if_pos ⟨h, rfl⟩]
    simp only [h, decide_true, Bool.true_or]
    exact (Tri.get_set ..).trans (if_pos rfl)
  · rw [if_neg (fun hc => h hc.1)]
    simp [h]

theorem echoesTake_takes (tm : Dword) {l : Lane} (hl : s.retired l = false) :
    ((s.echoesTake r tm).echo l r.strand).inStep.get r.target = true := by
  have key (xs : List Lane) (t : State) (h : l ∈ xs ∨ (t.echo l r.strand).inStep.get r.target = true) :
      ((xs.foldl (fun t l => t.echoTakes r tm l) t).echo l r.strand).inStep.get r.target = true := by
    induction xs generalizing t with
    | nil => exact h.resolve_left (by simp)
    | cons x xs ih =>
      refine ih _ ?_
      rw [echoTakes_takes]
      rcases h with h | h
      · rcases List.mem_cons.1 h with h | h
        · simp [h]
        · exact .inl h
      · simp [h]
  exact key _ _ (.inl (mem_liveLanes hl))

theorem echoesTake_keeps (tm : Dword) : (s.echoesTake r tm).rejoin = s.rejoin ∧ (s.echoesTake r tm).regs = s.regs ∧
    (s.echoesTake r tm).voters = s.voters ∧ ∀ x i, (s.echoesTake r tm).replica x i = s.replica x i := by
  rw [State.echoesTake]
  generalize s.liveLanes = ls
  induction ls generalizing s with
  | nil => exact ⟨rfl, rfl, rfl, fun _ _ => rfl⟩
  | cons l ls ih =>
    obtain ⟨h1, h2, h3, h4⟩ := ih (s.echoTakes r tm l)
    exact ⟨h1, h2, h3, fun x i => (h4 x i).trans (replica_setEcho ..)⟩

theorem joined_calm : (s.joined r).calm = (s.allTake r).calm := by
  rw [State.joined, goOnJoined_calm, showJoined_calm, State.latchChangeAll_calm]

theorem votersJoin_calm : ((s.recordStall r).votersJoin r).calm = s.calm :=
  (calm_of_side (votersJoin_side ..)).trans (State.recordStall_calm ..)

/-- The core's join leaves the registers and the voters; no rejoin runs. -/
theorem coreIn_keeps : (s.coreIn r).rejoin = none ∧ (s.coreIn r).regs = ((s.recordStall r).votersJoin r).regs ∧
    (s.coreIn r).voters = ((s.recordStall r).votersJoin r).voters := by
  have h (u : State) : (u.rejoinEnds.coreJoins r).rejoin = none ∧ (u.rejoinEnds.coreJoins r).regs = u.regs ∧
    (u.rejoinEnds.coreJoins r).voters = u.voters := ⟨rfl, rfl, rfl⟩
  exact h _

theorem mode_coreIn : ((s.coreIn r).replica r.target r.strand).mode = (s.replica r.donor r.strand).mode := by
  have h (u : State) : ((u.rejoinEnds.coreJoins r).replica r.target r.strand).mode = (u.replica r.donor r.strand).mode := by
    rw [State.coreJoins, replica_setReplica, if_pos ⟨rfl, rfl⟩]
    rfl
  exact (h _).trans (mode_of_calm (votersJoin_calm s r) _ _)

theorem retired_coreIn (l : Lane) : (s.coreIn r).retired l = s.retired l := by
  refine Eq.trans (retired_congr (fun x => ?_) l) (retired_of_calm (votersJoin_calm s r) l)
  rw [State.reg, (coreIn_keeps s r).2.1, State.reg]

theorem retired_allTake (l : Lane) : (s.allTake r).retired l = s.retired l := by
  refine Eq.trans (retired_congr (fun x => ?_) l) (retired_coreIn s r l)
  rw [State.reg, State.allTake, (echoesTake_keeps ..).2.1, State.reg]

theorem mode_joined : ((s.joined r).replica r.target r.strand).mode = (s.replica r.donor r.strand).mode := by
  rw [mode_of_calm (joined_calm s r), State.allTake, (echoesTake_keeps ..).2.2.2, mode_coreIn]

theorem inStep_joined {l : Lane} (hl : s.retired l = false) : ((s.joined r).echo l r.strand).inStep.get r.target = true := by
  rw [inStep_of_calm (joined_calm s r), State.allTake]
  exact echoesTake_takes _ _ _ ((retired_coreIn s r l).trans hl)

theorem latched_joined {l : Lane} (hl : s.retired l = false) :
    ∃ h ∈ ((s.joined r).echo l r.strand).latched, h.occ.src = 0 ∧ h.occ.vec = 1 := by
  obtain ⟨h, hm, ho⟩ := latchChangeAll_occ (s.allTake r) r.strand r.target .joined ((retired_allTake s r l).trans hl)
  refine ⟨h, ?_, ho⟩
  rw [State.joined]
  exact (goOnJoined_latches _ r ((Latches.refl _).lanes (showJoined_keeps ..).1)).stays _ _ _ hm

theorem rejoin_joined : (s.joined r).rejoin = none := by
  have hl (u : State) : (u.latchChangeAll r.strand r.target .joined).rejoin = u.rejoin := by
    obtain ⟨_, _, _, h⟩ := latchChangeAll_frame u r.strand r.target .joined
    rw [h]
  rw [State.joined, goOnJoined_rejoin, (showJoined_keeps ..).2, hl, State.allTake, (echoesTake_keeps ..).1, (coreIn_keeps s r).1]

theorem joined_voting : (s.joined r).voting = ((s.recordStall r).votersJoin r).voting := by
  rw [State.joined, goOnJoined_voting, showJoined_voting, State.latchChangeAll_voting]
  obtain ⟨-, hr, hx, -⟩ := echoesTake_keeps (s.coreIn r) r (s.boundaryTime r)
  obtain ⟨-, hr', hx'⟩ := coreIn_keeps s r
  refine voting_congr (hx.trans hx') fun d off _ => ?_
  rw [State.reg, State.allTake, hr, hr', State.reg]

theorem takenIn_joined {d : Die} (hd : d ∈ s.dies) : s.TakenIn (s.joined r) r d := by
  have hc := State.recordStall_calm s r
  have hvar : (s.recordStall r).variant = s.variant := congrArg Calm.variant hc
  have hdies : (s.recordStall r).dies = s.dies := by
    have hf : (s.recordStall r).dieFitted = s.dieFitted := by
      funext e
      cases e with
      | f => exact congrArg (fun v => v == Variant.kw3120) hvar
      | p1 | p2 | m => rfl
    rw [State.dies, hf, State.dies]
  have ht : (s.recordStall r).TakenIn ((s.recordStall r).votersJoin r) r d := votersJoin_takes _ r (hdies ▸ hd)
  have ho : ((s.recordStall r).replica r.donor r.strand).ord = (s.replica r.donor r.strand).ord :=
    (congrArg Replica.ord (replica_of_calm hc ..) :)
  have := takenIn_of_voting (joined_voting s r) ht
  rwa [State.TakenIn, ho] at this

theorem shows_joined (l : Lane) :
    (s.joined r).fld l.unit (Reg.rjStat r.strand.idx) 31 24 = (if r.forced = true then 2 else 1) ∧
    (s.joined r).fld l.unit (Reg.rjStat r.strand.idx) 10 8 = 0 ∧
    (s.joined r).fld l.unit (Reg.rjHist r.strand.idx) (17 + 2 * r.target.idx) (16 + 2 * r.target.idx) = 0 := by
  have h := showJoined_shows ((s.allTake r).latchChangeAll r.strand r.target .joined) r l
  simp only [State.fld] at h ⊢
  simp only [State.joined, goOnJoined_reg]
  exact h

end

section
variable {s : State} {r : RejoinRun} (hr : s.rejoin = some r)
include hr

theorem joinNotice_joins (hc : r.copied = true) (hp : s.passOver r = true)
    (hb : ∀ t, r.stallFrom = some t → s.ns ≤ t + s.stallBoundNs r) : exec .joinNotice s = .next (s.joined r) := by
  rw [exec_joinNotice hr, if_neg (by simp [hc, hp]), if_neg]
  cases hf : r.stallFrom with
  | none => simp
  | some t => simpa using hb t hf

theorem joinNotice_late {t : Nat} (hc : r.copied = true) (hp : s.passOver r = true) (hf : r.stallFrom = some t)
    (ht : t + s.stallBoundNs r < s.ns) : exec .joinNotice s = .next (s.abandonRejoin 0x21) := by
  rw [exec_joinNotice hr, if_neg (by simp [hc, hp]), if_pos]
  simpa [hf] using ht

theorem joinNotice_early (h : r.copied = false ∨ s.passOver r = false) : exec .joinNotice s = .next s := by
  rw [exec_joinNotice hr, if_pos]
  rcases h with h | h <;> simp [h]

end

/-- Settles O32: each phase of the rejoin unit as its command leaves it; the final copy byte by byte; the join voter by voter and
lane by lane. -/
theorem rejoinPhasesLeadToTheJoin : Obligations.RejoinPhasesLeadToTheJoin := by
  unfold Obligations.RejoinPhasesLeadToTheJoin
  refine ⟨⟨fun k x d s hq hr hf ho hd => rejoinStart_starts hq hr hf ho hd, fun s r hr => ⟨?_, ?_, ?_, ?_, ?_, ?_, ?_, ?_, ?_, ?_⟩,
    fun s hr => no_rejoin_no_effect hr⟩, fun s r hr => ⟨?_, ?_, ?_, fun h => cellGet_finalCopy s r h, ?_, rejoin_finalCopy s r, ?_, ?_⟩⟩
  · refine ⟨passOver_iff s r, fun hp => ?_, fun hp hph => ⟨fun hd => ?_, fun hd => ?_⟩, fun hp hph => ?_⟩
    · rw [exec_copyPassEnd hr, if_pos hp]
    · rw [exec_copyPassEnd hr, if_neg (by simp [hp]), if_pos hph, if_pos hd]; rfl
    · rw [exec_copyPassEnd hr, if_neg (by simp [hp]), if_pos hph, if_neg (Nat.not_le.2 hd)]; rfl
    · rw [exec_copyPassEnd hr, if_neg (by simp [hp]), if_neg (by simp [hph]), if_pos hph]; rfl
  · exact fun hf hs => rejoinHold_holds hr hf hs
  · exact fun p => holdDone_iff s r p
  · exact fun p hs ha ht => holdAck_late hr p hs ha ht
  · intro p ht hs ha ho hd hb
    have he := holdAck_second hr p ht hs ha ho hd hb
    refine ⟨fun hn => he.trans (congrArg Host.Outcome.next ?_), fun hn => he.trans (congrArg Host.Outcome.next ?_)⟩
    · exact if_pos hn
    · exact if_neg (Nat.not_le.2 hn)
  · exact fun p ht hs ha ho hd => holdAck_first hr p ht hs ha ho hd
  · intro p h
    refine holdAck_unchanged hr p (h.imp_right .inl) (h.imp_right fun h => .inl ?_)
    cases p with
    | p1 => exact h.1
    | p2 => exact h.2
  · exact fun p ht h => holdAck_unchanged hr p (.inr (.inr ht)) h
  · exact fun hs ha ht => holdTimeout_abandons hr hs ha ht
  · exact fun t hf ht => stallOver_abandons hr hf ht
  · rw [replica_finalCopy]
  · rw [replica_finalCopy]; rfl
  · rw [replica_finalCopy]; rfl
  · exact fun h => joinNotice_early hr h
  · exact fun t hc hp hf ht => joinNotice_late hr hc hp hf ht
  · intro hc hp hb
    have he := joinNotice_joins hr hc hp hb
    exact ⟨_, he, rejoin_joined s r, exec_base rfl he, mode_joined s r, fun d hd => takenIn_joined s r hd,
      fun l hl => ⟨inStep_joined s r hl, latched_joined s r hl⟩, shows_joined s r⟩

end Sys2Proof.Machine
end

-- ==== Proofs: power, supply and reference clocks (O35) ====
section
/-! What a power-good, the supply and a lost reference clock leave (R37, R40, R431, R432). -/

namespace Sys2Proof.Machine

/-! ### Power-good -/

theorem reg_keepBits_all (s t : State) (u : RUnit) (off : Nat) : (s.keepBits t u off 0xFFFFFFFF).reg u off = s.reg u off := by
  have hb (x y : Word) : (x &&& BitVec.allOnes 32) ||| (y &&& ~~~BitVec.allOnes 32) = x := by
    rw [BitVec.not_allOnes, BitVec.and_allOnes, BitVec.and_zero, BitVec.or_zero]
  rw [State.keepBits, reg_setReg_same]
  exact hb ..

theorem reg_keepBits_other (s t : State) {u v : RUnit} {off o : Nat} (mask : Word) (h : v ≠ u ∨ o ≠ off) :
    (s.keepBits t u off mask).reg v o = t.reg v o := reg_setReg_other _ _ h

/-- The state with its stored things and the capabilities, before the mailboxes show FLUSHED. -/
def State.capsKept (s : State) : State := s.keepBits (s.keepStored State.reset) .m Reg.mgCaps 0xFFFFFFFF

/-- What a power-good leaves: the reset state, but for what is stored. -/
structure Powered (s t : State) : Prop where
  lanes : t.lanes = State.reset.lanes
  ports : t.ports = State.reset.ports
  field : t.field = State.reset.field
  released : t.released = State.reset.released
  wires : t.wires = []
  links : t.links = State.reset.links
  regs : ∀ u off, u ≠ .m ∨ off ≠ Reg.mgCaps → t.reg u off = State.reset.reg u off
  caps : t.reg .m Reg.mgCaps = s.reg .m Reg.mgCaps
  log : t.log = s.log
  bank0 : t.mgmt.bank0 = s.mgmt.bank0
  bank1 : t.mgmt.bank1 = s.mgmt.bank1
  slotA : t.mgmt.slotA = s.mgmt.slotA
  slotB : t.mgmt.slotB = s.mgmt.slotB
  keys : t.mgmt.keys = s.mgmt.keys
  mark : t.supply.mark = s.supply.mark

theorem afterPower_powered (s : State) : Powered s s.afterPower := by
  have hr : s.afterPower.regs = s.capsKept.regs := rfl
  have hreg (u off) : s.afterPower.reg u off = s.capsKept.reg u off := by rw [State.reg, hr, State.reg]
  have hk (u off) : (s.keepStored State.reset).reg u off = State.reset.reg u off := rfl
  exact {
    lanes := rfl, ports := rfl, field := rfl, released := rfl, wires := rfl, links := rfl
    regs := fun u off h => by rw [hreg, State.capsKept, reg_keepBits_other _ _ _ h, hk]
    caps := (hreg ..).trans (reg_keepBits_all ..)
    log := rfl, bank0 := rfl, bank1 := rfl, slotA := rfl, slotB := rfl, keys := rfl, mark := rfl }

/-! ### The supply -/

section
variable {s : State}

/-- The hold-up takes over. -/
def State.onHoldup (s : State) : State :=
  { s.setFlag .m Reg.mgBoard 31 true with
    supply := { s.supply with holdup := true, mark := s.supply.mark || s.mgmt.running && s.mOn } }

theorem exec_supplyInterruption (hg : s.supply.good = true) (hh : s.supply.holdup = false) :
    exec .supplyInterruption s = .next s.onHoldup := by
  have hx : exec .supplyInterruption s = execSupplyInterruption s := rfl
  rw [hx, execSupplyInterruption, if_pos (by simp [hg, hh])]
  rfl

/-- The supply is back. -/
def State.offHoldup (s : State) : State :=
  { (s.setFlag .m Reg.mgBoard 31 false).bump .m Reg.mgBoard 7 0 with supply := { s.supply with holdup := false, mark := false } }

theorem exec_supplyReturn (hg : s.supply.good = true) (hh : s.supply.holdup = true) :
    exec .supplyReturn s = .next s.offHoldup := by
  have hx : exec .supplyReturn s = execSupplyReturn s := rfl
  rw [hx, execSupplyReturn, if_pos (by simp [hg, hh])]
  rfl

/-- Every die stands. -/
def State.diesStopped (s : State) : State :=
  Die.list.foldl (fun t d => t.setConsumer d { t.consumer d with running := false }) s

/-- No island has power. -/
def State.unpowered (s : State) : State :=
  { s.diesStopped.setReg .m Reg.mgPwr 0 with supply := { s.supply with good := false } }

theorem exec_holdupExhausted (hg : s.supply.good = true) (hh : s.supply.holdup = true) :
    exec .holdupExhausted s = .next s.cutWrite.afterPower.unpowered := by
  have hx : exec .holdupExhausted s = execHoldupExhausted s := rfl
  rw [hx, execHoldupExhausted, if_pos (by simp [hg, hh])]
  rfl

theorem no_holdup_no_effect (hh : s.supply.holdup = false) :
    exec .supplyReturn s = .next s ∧ exec .holdupExhausted s = .next s := by
  have h1 : exec .supplyReturn s = execSupplyReturn s := rfl
  have h2 : exec .holdupExhausted s = execHoldupExhausted s := rfl
  rw [h1, h2, execSupplyReturn, execHoldupExhausted, if_neg (by simp [hh]), if_neg (by simp [hh])]
  exact ⟨rfl, rfl⟩

theorem onHoldup_shows (s : State) : s.onHoldup.flag .m Reg.mgBoard 31 = true ∧
    (∀ u off, u ≠ .m ∨ off ≠ Reg.mgBoard → s.onHoldup.reg u off = s.reg u off) ∧ s.onHoldup.supply.holdup = true ∧
    s.onHoldup.supply.good = s.supply.good ∧ s.onHoldup.supply.mark = (s.supply.mark || s.mgmt.running && s.mOn) ∧
    s.onHoldup.lanes = s.lanes ∧ s.onHoldup.mgmt = s.mgmt := by
  refine ⟨?_, fun u off h => ?_, rfl, rfl, rfl, rfl, rfl⟩
  · exact flag_setFlag_same s .m Reg.mgBoard 31 true (by decide)
  · exact reg_setFlag_other s 31 true h

theorem offHoldup_shows (s : State) : s.offHoldup.flag .m Reg.mgBoard 31 = false ∧
    s.offHoldup.fld .m Reg.mgBoard 7 0 = satAdd 8 (s.fld .m Reg.mgBoard 7 0) 1 ∧
    (∀ u off, u ≠ .m ∨ off ≠ Reg.mgBoard → s.offHoldup.reg u off = s.reg u off) ∧
    s.offHoldup.supply = ⟨s.supply.good, false, false⟩ ∧ s.offHoldup.lanes = s.lanes ∧ s.offHoldup.mgmt = s.mgmt := by
  have hreg (u : RUnit) (off : Nat) : s.offHoldup.reg u off =
      ((s.setFlag .m Reg.mgBoard 31 false).bump .m Reg.mgBoard 7 0).reg u off := rfl
  refine ⟨?_, ?_, fun u off h => ?_, rfl, rfl, rfl⟩
  · rw [State.flag, hreg, ← State.flag, flag_bump_other _ _ _ (.inr (by decide)), flag_setFlag_same _ _ _ _ _ (by decide)]
  · rw [State.fld, hreg, ← State.fld, fld_bump _ _ _ _ _ (by decide), fld_setFlag_other _ _ _ _ (.inr (by decide)), satAdd]
  · rw [hreg, reg_bump_other _ _ _ h, reg_setFlag_other _ _ _ h]

/-- What the loss of every island leaves. -/
theorem unpowered_shows (s : State) : s.unpowered.supply.good = false ∧ s.unpowered.supply.mark = s.supply.mark ∧
    s.unpowered.reg .m Reg.mgPwr = 0 ∧ s.unpowered.lanes = s.lanes ∧ s.unpowered.log = s.log ∧ s.unpowered.mgmt = s.mgmt ∧
    s.unpowered.consumers = s.diesStopped.consumers := by
  have h : s.diesStopped.lanes = s.lanes ∧ s.diesStopped.log = s.log ∧ s.diesStopped.mgmt = s.mgmt := ⟨rfl, rfl, rfl⟩
  have hp : s.unpowered.reg .m Reg.mgPwr = (s.diesStopped.setReg .m Reg.mgPwr 0).reg .m Reg.mgPwr := rfl
  exact ⟨rfl, rfl, hp.trans (reg_setReg_same ..), h.1, h.2.1, h.2.2, rfl⟩

theorem running_diesStopped (s : State) (d : Die) : (s.diesStopped.consumer d).running = false := by
  cases d <;> rfl

theorem cutWrite_keeps (s : State) : s.cutWrite.log = s.log ∧ s.cutWrite.supply = s.supply ∧ s.cutWrite.mgmt.slotA = s.mgmt.slotA ∧
    s.cutWrite.mgmt.slotB = s.mgmt.slotB := by
  rw [State.cutWrite]
  split
  · simp only [State.setBank, State.useFree]
    split <;> simp only [and_self]
  · exact ⟨rfl, rfl, rfl, rfl⟩

end

/-! ### Lost references -/

/-- The ports outlast what management notes of a unit. -/
theorem raiseAll_ports (s : State) (d : Die) (v : Nat) : (s.raiseAll d v).ports = s.ports := by
  obtain ⟨_, _, _, h⟩ := raiseAll_frame s d v
  rw [h]

theorem setView_ports (s : State) (i : Nat) (v : UnitView) : (s.setView i v).ports = s.ports := by
  rw [State.setView]
  split
  · rfl
  · generalize withField (withField (withField (withBit _ 31 true) 15 12 i) 11 10 v.mg) 9 8 (bitNat v.out) = w
    dsimp only
    obtain ⟨lg, h⟩ := logEv_frame (((({ s with views := s.views.set i v } : State).setReg .m Reg.mgDisagree w).bump .m
      Reg.mgDisagree 7 0).raiseAll .m 218) 6 none .mgDisagree [i, v.mg, bitNat v.out]
    rw [h]
    exact (raiseAll_ports ..).trans rfl

theorem seeFault_keeps (s : State) (i mg : Nat) : (s.seeFault i mg).ports = s.ports ∧ (s.seeFault i mg).side = s.side := by
  rw [State.seeFault]
  split
  · exact ⟨setView_ports .., State.setView_side ..⟩
  · exact ⟨rfl, rfl⟩

theorem requalify_ports (s : State) (p : PDie) : (s.requalify p).ports = s.ports := by
  have hraise (t : State) (v : Nat) : (t.raisePAll p v).ports = t.ports := raiseAll_ports ..
  have hset (t : State) (st : Nat) (u : Half) : (t.setLeaseState p st u).ports = t.ports := by
    simp only [State.setLeaseState]
    split
    · rfl
    · exact (hraise ..).trans rfl
  simp only [State.requalify]
  split
  · rfl
  · split
    · exact (hset ..).trans rfl
    · rfl

theorem refreshOuts_consumers (s : State) : s.refreshOuts.consumers = s.consumers ∧ s.refreshOuts.variant = s.variant := by
  rw [State.refreshOuts]
  generalize List.range 16 = ns
  induction ns generalizing s with
  | nil => exact ⟨rfl, rfl⟩
  | cons n ns ih => exact ih (s.refreshOut n)

/-- The port die without its transmitters and its channel. -/
def State.silencePort (s : State) (p : PDie) : State :=
  s.setPort p { s.port p with net := { relisten (s.port p).net with phase := .off }, line := WE.all none }

/-- A die that stands. -/
def State.haltDie (s : State) (d : Die) : State := s.setConsumer d { s.consumer d with running := false }

theorem stopPort_eq (s : State) (p : PDie) :
    s.stopPort p = (((s.stopAllChans p).silencePort p).haltDie (Die.ofPDie p)).seeFault (3 + p.idx) 1 := rfl

theorem stopPort_stops (s : State) (p : PDie) : (s.stopPort p).pdOn p = false ∧ ((s.stopPort p).port p).line = WE.all none ∧
    ((s.stopPort p).port p).net.phase = .off := by
  have hh (t : State) : (t.haltDie (Die.ofPDie p)).ports = t.ports ∧ ((t.haltDie (Die.ofPDie p)).consumer (Die.ofPDie p)).running = false :=
    ⟨rfl, congrArg Consumer.running ((consumer_setConsumer ..).trans (if_pos rfl))⟩
  obtain ⟨hp, hs⟩ := seeFault_keeps (((s.stopAllChans p).silencePort p).haltDie (Die.ofPDie p)) (3 + p.idx) 1
  have hport : (s.stopPort p).port p = ((s.stopAllChans p).silencePort p).port p := by
    rw [State.port, stopPort_eq, hp, (hh _).1, State.port]
  refine ⟨?_, ?_, ?_⟩
  · rw [State.pdOn, stopPort_eq]
    exact (running_of_side hs _).trans (hh _).2
  · rw [hport, State.silencePort, port_setPort_same]
  · rw [hport, State.silencePort, port_setPort_same]

theorem stopGuard_stops (s : State) (p : PDie) : ((s.stopGuard p).port p).guard.stopped = true := by
  have h : (s.stopGuard p).ports = (s.setGuard p { (s.port p).guard with stopped := true }).ports := by
    rw [State.stopGuard, (seeFault_keeps ..).1, requalify_ports]
  rw [State.port, h]
  exact congrArg Guard.stopped (guard_setGuard ..)

theorem stopField_stops (s : State) : (s.stopField).consumers.f.running = false ∧ s.stopField.fOn = false := by
  have hrun : (s.stopField.consumer .f).running = false := by
    rw [State.stopField, running_of_side (seeFault_keeps ..).2]
    exact (congrArg (fun c : Four Consumer => (c.get .f).running) (refreshOuts_consumers _).1).trans
      (congrArg Consumer.running ((consumer_setConsumer ..).trans (if_pos rfl)))
  have hf : s.stopField.consumers.f.running = false := hrun
  exact ⟨hf, by rw [State.fOn, hf, Bool.and_false]⟩

theorem stopMgmt_stops (s : State) : s.stopMgmt.mOn = false ∧ s.stopMgmt.mgmt.running = false ∧ s.stopMgmt.regs = s.regs ∧
    s.stopMgmt.lanes = s.lanes ∧ s.stopMgmt.supply = s.supply := ⟨rfl, rfl, rfl, rfl, rfl⟩

theorem exec_refClockLost (r : Ref) (s : State) : exec (.refClockLost r) s = execRefClockLost r s := rfl

/-- Settles O35: each supply and clock command by its state; the reset state's fields through a power-good. -/
theorem powerAndClockLossesLeaveWhatIsStored : Obligations.PowerAndClockLossesLeaveWhatIsStored := by
  unfold Obligations.PowerAndClockLossesLeaveWhatIsStored
  refine ⟨fun s => ⟨?_, ?_, fun hg hh => ⟨?_, ?_⟩, no_holdup_no_effect⟩, fun s => ⟨?_, ?_, ?_, ?_, ?_, ?_, ?_, ?_⟩⟩
  · have h := afterPower_powered s
    exact ⟨_, rfl, h.lanes, h.ports, h.field, h.released, h.wires, h.links, h.regs, h.caps, h.log, h.bank0, h.bank1, h.slotA,
      h.slotB, h.keys, h.mark⟩
  · intro hg hh
    obtain ⟨h31, hreg, hup, hgood, hmark, hlanes, hmgmt⟩ := onHoldup_shows s
    exact ⟨_, exec_supplyInterruption hg hh, hup, hgood.trans hg, h31, fun hr hm => by rw [hmark, hr, hm, Bool.and_self, Bool.or_true],
      hreg, hlanes, hmgmt⟩
  · obtain ⟨h31, hcount, hreg, hsup, hlanes, hmgmt⟩ := offHoldup_shows s
    exact ⟨_, exec_supplyReturn hg hh, by rw [hsup, hg], h31, hcount, hreg, hlanes, hmgmt⟩
  · obtain ⟨hlog, hsup, ha, hb⟩ := cutWrite_keeps s
    have h := afterPower_powered s.cutWrite
    obtain ⟨hgood, hmark, hpwr, hlanes, hlog', hmgmt, hcons⟩ := unpowered_shows s.cutWrite.afterPower
    refine ⟨_, exec_holdupExhausted hg hh, hgood, ?_, hpwr, fun d => ?_, hlanes.trans h.lanes, (hlog'.trans h.log).trans hlog,
      ?_, ?_⟩
    · rw [hmark, h.mark, hsup]
    · rw [State.consumer, hcons]
      exact running_diesStopped _ d
    · rw [hmgmt, h.slotA, ha]
    · rw [hmgmt, h.slotB, hb]
  · exact fun l hl => (exec_refClockLost _ s).trans (congrArg Host.Outcome.next (if_neg (by simp [hl])))
  · intro p hp
    have he : exec (.refClockLost (.port p)) s = .next (s.stopPort p) :=
      (exec_refClockLost _ s).trans (congrArg Host.Outcome.next (if_pos hp))
    obtain ⟨h1, h2, h3⟩ := stopPort_stops s p
    exact ⟨_, he, h1, h2, h3, exec_base rfl he⟩
  · intro p hp
    have he : exec (.refClockLost (.guard p)) s = .next (s.stopGuard p) :=
      (exec_refClockLost _ s).trans (congrArg Host.Outcome.next (if_neg (by simp [hp])))
    exact ⟨_, he, stopGuard_stops s p, exec_base rfl he⟩
  · intro hf
    have he : exec (.refClockLost .field) s = .next s.stopField :=
      (exec_refClockLost _ s).trans (congrArg Host.Outcome.next (if_pos hf))
    exact ⟨_, he, (stopField_stops s).1, (stopField_stops s).2, exec_base rfl he⟩
  · intro hm
    exact ⟨_, (exec_refClockLost _ s).trans (congrArg Host.Outcome.next (if_pos hm)), stopMgmt_stops s⟩
  · exact exec_refClockLost _ s
  · intro p hp hw
    have hx : exec (.refClockRestored p) s = execRefClockRestored p s := rfl
    rw [hx, execRefClockRestored, if_neg (by simp [hp, hw])]
  · intro p hp
    have hx : exec (.refClockRestored p) s = execRefClockRestored p s := rfl
    rw [hx, execRefClockRestored, if_pos (by simp [hp])]

end Sys2Proof.Machine
end

-- ==== Proofs: commits aborted by a reset of their block (O36) ====
section
/-! R20 for a table commit: the guardian that drops it shows its own state anew, and so not in `TT_COMMIT` alone. -/

namespace Sys2Proof.Machine

/-- A table commit of channel A waits, and the guardian on P2 took its ID 5 without showing it in `GD_STAT` yet. -/
def staleGuardian : State :=
  let s := State.reset.setFlag .p1 Reg.ttCommit 1 true
  s.setPort .p2 { s.port .p2 with guard := { (s.port .p2).guard with net := { (s.port .p2).guard.net with id := 5 } } }

/-- `GD_STAT` of P2 after a step. -/
def gdStatOf : Out → Option Word
  | .next t => some (t.reg .p2 Reg.gdStat)
  | _ => none

theorem staleGuardian_busy : staleGuardian.commitBusy .p1 Reg.ttCommit = true := by decide

theorem gdStat_staleGuardian : staleGuardian.reg .p2 Reg.gdStat = 0 := by decide

theorem gdStat_abort_staleGuardian :
    gdStatOf (exec (.commitAbortedByReset (.tt .p1)) staleGuardian) = some 0x50000 := by decide

/-- Refutes O36: the abort of a table commit takes it from the channel's guardian too, which shows its state in `GD_STAT` anew.
Over every state that register need not have shown it before, so that more than `TT_COMMIT` changes. -/
theorem not_bootAttemptsAndRestartsOfManagement : ¬ Obligations.BootAttemptsAndRestartsOfManagement := by
  unfold Obligations.BootAttemptsAndRestartsOfManagement
  intro h
  obtain ⟨-, -, -, -, -, -, -, -, -, -, -, -, -, habort, -⟩ := h staleGuardian
  obtain ⟨t, he, -, -, -, -, hreg, -⟩ := habort .p1 staleGuardian_busy
  have hafter := gdStat_abort_staleGuardian
  rw [he] at hafter
  have hsame : t.reg .p2 Reg.gdStat = 0 := (hreg .p2 Reg.gdStat (.inl (by decide))).trans gdStat_staleGuardian
  exact absurd (Option.some.inj hafter) (by rw [hsame]; decide)

end Sys2Proof.Machine
end

-- ==== Proofs: the register spaces stay canonical (O4) ====
section
/-! Every operation of the model writes registers through `setReg`, or copies a range of canonical entries; each keeps the
register spaces in canonical form: one lemma per operation, from the lemmas of the operations that it calls. The lemmas of
this and the next sections are elaborated in turn; side by side they would need too much memory. -/

namespace Sys2Proof.Machine

set_option Elab.async false

/-- Every register space is in canonical form. -/
structure State.Fine (s : State) : Prop where
  files : ∀ u, cellsWf (s.regs.get u) = true

/-- What a step answers has its register spaces in canonical form. -/
def FineOut (o : Out) : Prop := ∀ t, o = .next t → t.Fine

theorem fine_iff (s : State) : s.Fine ↔ registersWf s = true := by
  simp only [registersWf, Bool.and_eq_true]
  refine ⟨fun h => ⟨⟨⟨⟨⟨⟨h.files .la, h.files .lb⟩, h.files .lc⟩, h.files .p1⟩, h.files .p2⟩, h.files .f⟩, h.files .m⟩, ?_⟩
  rintro ⟨⟨⟨⟨⟨⟨hla, hlb⟩, hlc⟩, hp1⟩, hp2⟩, hf⟩, hm⟩
  exact ⟨fun u => by cases u <;> assumption⟩

section
variable {s : State} (hs : s.Fine)
include hs

theorem fine_of_regs {t : State} (h : t.regs = s.regs) : t.Fine := ⟨by rw [h]; exact hs.files⟩

/-- One register space replaced by a canonical one. -/
theorem fine_set (u : RUnit) {f : RegFile} (hf : cellsWf f = true) : State.Fine { s with regs := s.regs.set u f } := by
  refine ⟨fun v => ?_⟩
  rw [Seven.get_set]
  split
  · exact hf
  · exact hs.files v

theorem fine_foldl {β : Type} {g : State → β → State} (hg : ∀ t x, t.Fine → (g t x).Fine) (xs : List β) : (xs.foldl g s).Fine := by
  induction xs generalizing s with
  | nil => exact hs
  | cons x xs ih => exact ih (hg s x hs)

theorem fine_foldl_fst {α β : Type} {a : α} {g : State × α → β → State × α} (hg : ∀ t x, t.1.Fine → (g t x).1.Fine) (xs : List β) :
    (xs.foldl g (s, a)).1.Fine := by
  have key (ys : List β) (t : State × α) (ht : t.1.Fine) : (ys.foldl g t).1.Fine := by
    induction ys generalizing t with
    | nil => exact ht
    | cons x xs ih => exact ih _ (hg t x ht)
  exact key xs (s, a) hs

/-- A record update outside the registers. -/
theorem fine_mk (variant' : Variant) (ns' : Nat) (heldLo' : List (RUnit × Nat × Word)) (lanes' : Tri LaneState)
    (voters' : Four (Quad Voter)) (consumers' : Four Consumer) (ports' : Duo PortDie) (links' : Tri (Four JLink))
    (wires' : List Wire) (released' : Quad Bool) (tcfg' : Quad (Option TcfgCommit)) (rejoinQueue' : Quad (Option Lane))
    (rejoin' : Option RejoinRun) (changes' : Quad (List Change)) (echoNum' : Quad Half) (areas' : List Area) (field' : FieldDie)
    (mailboxes' : List Mailbox) (lockTaken' : List LockTake) (mgmt' : Mgmt) (governors' : Tri Governor) (ages' : List AgeRec)
    (supply' : Supply) (views' : List UnitView) (log' : Log) (absentLogged' : List Nat) (free' : Nat) (pending' : List Instr) :
    (State.mk variant' ns' s.regs heldLo' lanes' voters' consumers' ports' links' wires' released' tcfg' rejoinQueue' rejoin'
      changes' echoNum' areas' field' mailboxes' lockTaken' mgmt' governors' ages' supply' views' log' absentLogged' free'
      pending').Fine := fine_of_regs hs rfl

end

/-- The register spaces of the state that an attempt of the boot leaves are canonical. -/
def Attempt.Fine (x : Attempt) : Prop := x.state.Fine

theorem fine_released {s : State} (hs : s.Fine) : (Attempt.released s).Fine := hs
theorem fine_failed {s : State} (hs : s.Fine) : (Attempt.failed s).Fine := hs
theorem fine_reverts {s : State} (hs : s.Fine) (r : Nat) : (Attempt.reverts s r).Fine := hs

theorem fine_ite (c : Prop) [Decidable c] {s t : State} (hs : s.Fine) (ht : t.Fine) : (if c then s else t).Fine := by
  split
  · exact hs
  · exact ht

theorem fineOut_next {s : State} (hs : s.Fine) : FineOut (.next s) := fun _ h => Host.Outcome.next.inj h ▸ hs

theorem fineOut_ite (c : Prop) [Decidable c] {o o' : Out} (ho : FineOut o) (ho' : FineOut o') : FineOut (if c then o else o') := by
  split
  · exact ho
  · exact ho'

theorem fine_some {s : State} (hs : s.Fine) : ∀ s', some s = some s' → s'.Fine := fun _ h => Option.some.inj h ▸ hs

theorem fine_none : ∀ s' : State, none = some s' → s'.Fine := fun _ h => nomatch h

theorem fine_map {β : Type} {g : β → State} (hg : ∀ x, (g x).Fine) (o : Option β) : ∀ s', o.map g = some s' → s'.Fine := by
  intro t h
  obtain ⟨x, -, rfl⟩ := Option.map_eq_some_iff.1 h
  exact hg x

theorem reset_fine : State.reset.Fine := (fine_iff _).2 (Bool.and_eq_true_iff.1 resetIsSound.1).2

theorem fineOut_fault (f : Fault) : FineOut (.fault f) := fun _ h => nomatch h

/-! ### The operations -/

theorem State.setReg_fine {s : State} (hs : s.Fine) (u : RUnit) (off : Nat) (v : Word) : (s.setReg u off v).Fine :=
  fine_set hs u (cellSet_wf off v (hs.files u))

theorem State.setFld_fine {s : State} (hs : s.Fine) (u : RUnit) (off hi lo v : Nat) : (s.setFld u off hi lo v).Fine := by
  grind [State.setFld, ← State.setReg_fine]

theorem State.setFlag_fine {s : State} (hs : s.Fine) (u : RUnit) (off i : Nat) (b : Bool) : (s.setFlag u off i b).Fine := by
  grind [State.setFlag, ← State.setReg_fine]

theorem State.bumpBy_fine {s : State} (hs : s.Fine) (u : RUnit) (off hi lo n : Nat) : (s.bumpBy u off hi lo n).Fine := by
  grind [State.bumpBy, ← State.setFld_fine]

theorem State.bump_fine {s : State} (hs : s.Fine) (u : RUnit) (off hi lo : Nat) : (s.bump u off hi lo).Fine := by
  grind [State.bump, ← State.bumpBy_fine]

theorem State.bumpWrap_fine {s : State} (hs : s.Fine) (u : RUnit) (off hi lo : Nat) : (s.bumpWrap u off hi lo).Fine := by
  grind [State.bumpWrap, ← State.setFld_fine]

theorem State.raiseMax_fine {s : State} (hs : s.Fine) (u : RUnit) (off hi lo v : Nat) : (s.raiseMax u off hi lo v).Fine := by
  grind [State.raiseMax, ← State.setFld_fine]

theorem State.setReg64_fine {s : State} (hs : s.Fine) (u : RUnit) (lo : Nat) (v : Dword) : (s.setReg64 u lo v).Fine := by
  grind [State.setReg64, ← State.setReg_fine]

theorem State.setLaneFld_fine {s : State} (hs : s.Fine) (off hi lo v : Nat) : (s.setLaneFld off hi lo v).Fine := by
  grind [State.setLaneFld, ← State.setFld_fine]

theorem State.setLane_fine {s : State} (hs : s.Fine) (l : Lane) (x : LaneState) : (s.setLane l x).Fine := by
  grind [State.setLane, ← fine_mk]

theorem State.setReplica_fine {s : State} (hs : s.Fine) (l : Lane) (k : Strand) (r : Replica) : (s.setReplica l k r).Fine := by
  grind [State.setReplica, ← fine_mk, ← State.setLane_fine]

theorem State.setEcho_fine {s : State} (hs : s.Fine) (l : Lane) (k : Strand) (e : Echo) : (s.setEcho l k e).Fine := by
  grind [State.setEcho, ← fine_mk, ← State.setLane_fine]

theorem State.setScrub_fine {s : State} (hs : s.Fine) (l : Lane) (k : Strand) (x : Scrub) : (s.setScrub l k x).Fine := by
  grind [State.setScrub, ← fine_mk, ← State.setLane_fine]

theorem State.setVoter_fine {s : State} (hs : s.Fine) (d : Die) (k : Strand) (v : Voter) : (s.setVoter d k v).Fine := by
  grind [State.setVoter, ← fine_mk]

theorem State.setConsumer_fine {s : State} (hs : s.Fine) (d : Die) (c : Consumer) : (s.setConsumer d c).Fine := by
  grind [State.setConsumer, ← fine_mk]

theorem State.setPort_fine {s : State} (hs : s.Fine) (p : PDie) (x : PortDie) : (s.setPort p x).Fine := by
  grind [State.setPort, ← fine_mk]

theorem State.useFree_fine {s : State} (hs : s.Fine) : (s.useFree).Fine := by
  grind [State.useFree, ← fine_mk]

theorem State.setJLink_fine {s : State} (hs : s.Fine) (l : Lane) (d : Die) (x : JLink) : (s.setJLink l d x).Fine := by
  grind [State.setJLink, ← fine_mk]

theorem State.setVcQueue_fine {s : State} (hs : s.Fine) (l : Lane) (d : Die) (down : Bool) (c : VChannel) (ws : List Wire) :
    (s.setVcQueue l d down c ws).Fine := by
  grind [State.setVcQueue, ← fine_mk, ← State.setJLink_fine]

theorem State.sendOne_fine {s : State} (hs : s.Fine) (w : Wire) : (s.sendOne w).Fine := by
  grind [State.sendOne, ← fine_mk, ← State.setVcQueue_fine]

theorem State.send_fine {s : State} (hs : s.Fine) (ws : List Wire) : (s.send ws).Fine := by
  grind [State.send, ← fine_foldl, ← State.sendOne_fine]

theorem State.countLanded_fine {s : State} (hs : s.Fine) (l : Lane) (d : Die) (down : Bool) (c : VChannel) : (s.countLanded l d
    down c).Fine := by
  grind [State.countLanded, ← fine_mk, ← State.setJLink_fine]

theorem State.arrive_fine {s : State} (hs : s.Fine) (w : Wire) : (s.arrive w).Fine := by
  grind [State.arrive, ← fine_mk, ← State.setVcQueue_fine, ← State.countLanded_fine]

theorem State.appendLog_fine {s : State} (hs : s.Fine) (code : LogCode) (src : Nat) (k : Option Strand) (arg : List Nat) :
    (s.appendLog code src k arg).Fine := by
  grind [State.appendLog, ← fine_mk]

theorem State.setFlood_fine {s : State} (hs : s.Fine) (src n : Nat) : (s.setFlood src n).Fine := by
  grind [State.setFlood, ← fine_mk]

theorem State.logEv_fine {s : State} (hs : s.Fine) (src : Nat) (k : Option Strand) (code : LogCode) (arg : List Nat) : (s.logEv
    src k code arg).Fine := by
  grind [State.logEv, ← fine_mk, ← State.appendLog_fine, ← State.setFlood_fine]

theorem State.ignored_fine {s : State} (hs : s.Fine) (u : RUnit) (off : Nat) (m : Master) : (s.ignored u off m).Fine := by
  unfold State.ignored
  grind [← fine_mk, ← State.logEv_fine]

theorem State.logAbsent_fine {s : State} (hs : s.Fine) (n : Nat) : (s.logAbsent n).Fine := by
  grind [State.logAbsent, ← fine_mk, ← State.logEv_fine]

theorem State.noteAbsent_fine {s : State} (hs : s.Fine) (d : Die) (off : Nat) : (s.noteAbsent d off).Fine := by
  grind [State.noteAbsent, ← fine_mk, ← State.logAbsent_fine]

theorem State.noteAbsentUnit_fine {s : State} (hs : s.Fine) (u : RUnit) (off : Nat) : (s.noteAbsentUnit u off).Fine := by
  grind [State.noteAbsentUnit, ← fine_mk, ← State.noteAbsent_fine]

theorem State.atUnit_fine {s : State} (hs : s.Fine) (m : Master) (u : RUnit) (off : Nat) {t : State} (ht : t.Fine) : (s.atUnit m
    u off t).Fine := by
  grind [State.atUnit, ← fine_mk, ← State.noteAbsentUnit_fine]

theorem State.atM_fine {s : State} (hs : s.Fine) (m : Master) {t : State} (ht : t.Fine) : (s.atM m t).Fine := by
  grind [State.atM]

theorem State.countOcc_fine {s : State} (hs : s.Fine) (d : Die) (k : Strand) : (s.countOcc d k).Fine := by
  grind [State.countOcc, ← fine_mk, ← State.setConsumer_fine]

theorem State.raise_fine {s : State} (hs : s.Fine) (d : Die) (k : Strand) (v : Nat) : (s.raise d k v).Fine := by
  grind [State.raise, ← State.send_fine, ← State.countOcc_fine]

theorem State.raiseAll_fine {s : State} (hs : s.Fine) (d : Die) (v : Nat) : (s.raiseAll d v).Fine := by
  grind [State.raiseAll, ← fine_foldl, ← State.raise_fine]

theorem State.raiseP_fine {s : State} (hs : s.Fine) (p : PDie) (k : Strand) (off : Nat) : (s.raiseP p k off).Fine := by
  grind [State.raiseP, ← State.raise_fine]

theorem State.raisePAll_fine {s : State} (hs : s.Fine) (p : PDie) (off : Nat) : (s.raisePAll p off).Fine := by
  grind [State.raisePAll, ← State.raiseAll_fine]

theorem State.pwFail_fine {s : State} (hs : s.Fine) (d : Die) (k : Option Strand) (r : WerrRec) : (s.pwFail d k r).Fine := by
  unfold State.pwFail
  grind [← fine_mk, ← State.bump_fine, ← State.setConsumer_fine, ← State.raise_fine]

theorem State.showDirty_fine {s : State} (hs : s.Fine) : (s.showDirty).Fine := by
  grind [State.showDirty, ← fine_mk, ← State.setReg_fine]

theorem State.markDirty_fine {s : State} (hs : s.Fine) (l : Lane) (a : Nat) : (s.markDirty l a).Fine := by
  grind [State.markDirty, ← fine_mk, ← State.showDirty_fine]

theorem State.laneStore_fine {s : State} (hs : s.Fine) (l : Lane) (a : Nat) (bs : List Byte) : (s.laneStore l a bs).Fine := by
  grind [State.laneStore, ← fine_mk, ← State.setLane_fine]

theorem State.markDirtyRange_fine {s : State} (hs : s.Fine) (l : Lane) (a len : Nat) : (s.markDirtyRange l a len).Fine := by
  grind [State.markDirtyRange, ← fine_foldl, ← State.markDirty_fine]

theorem State.loseWrite_fine {s : State} (hs : s.Fine) (l : Lane) (w : Broadcast) (cause : Nat) : (s.loseWrite l w cause).Fine :=
    by
  grind [State.loseWrite, ← fine_mk, ← State.setLane_fine, ← State.pwFail_fine]

theorem State.broadcastTo_fine {s : State} (hs : s.Fine) (w : Broadcast) (l : Lane) : (s.broadcastTo w l).Fine := by
  grind [State.broadcastTo, ← fine_mk, ← State.send_fine, ← State.loseWrite_fine]

theorem State.broadcastNow_fine {s : State} (hs : s.Fine) (w : Broadcast) : (s.broadcastNow w).Fine := by
  grind [State.broadcastNow, ← fine_mk, ← fine_foldl, ← State.pwFail_fine, ← State.broadcastTo_fine]

theorem State.showHold_fine {s : State} (hs : s.Fine) (p : PDie) : (s.showHold p).Fine := by
  grind [State.showHold, ← State.setFld_fine, ← State.raiseMax_fine]

theorem State.keepWrite_fine {s : State} (hs : s.Fine) (p : PDie) (h : HeldWrite) : (s.keepWrite p h).Fine := by
  grind [State.keepWrite, ← fine_mk, ← State.setPort_fine, ← State.showHold_fine]

theorem State.broadcast_fine {s : State} (hs : s.Fine) (w : Broadcast) : (s.broadcast w).Fine := by
  grind [State.broadcast, ← State.broadcastNow_fine, ← State.keepWrite_fine]

theorem State.setPending_fine {s : State} (hs : s.Fine) (l : Lane) (k : Strand) (v : Nat) : (s.setPending l k v).Fine := by
  grind [State.setPending, ← State.setFlag_fine]

theorem State.clearPending_fine {s : State} (hs : s.Fine) (l : Lane) (k : Strand) (v : Nat) : (s.clearPending l k v).Fine := by
  grind [State.clearPending, ← State.setFlag_fine]

theorem State.setLCause_fine {s : State} (hs : s.Fine) (l : Lane) (k : Strand) (c : Cause) (repl : Option Lane) : (s.setLCause l
    k c repl).Fine := by
  grind [State.setLCause, ← State.setReg_fine]

theorem State.setVCause_fine {s : State} (hs : s.Fine) (d : Die) (k : Strand) (c : Cause) (repl : Option Lane) (ord : Word) :
    (s.setVCause d k c repl ord).Fine := by
  grind [State.setVCause, ← State.setReg_fine]

theorem State.showSump_fine {s : State} (hs : s.Fine) (d : Die) (k : Strand) : (s.showSump d k).Fine := by
  grind [State.showSump, ← fine_foldl, ← State.setFld_fine, ← State.setFlag_fine, ← State.raiseMax_fine]

theorem State.disturb_fine {s : State} (hs : s.Fine) : (s.disturb).Fine := by
  grind [State.disturb, ← fine_mk]

theorem State.setOut_fine {s : State} (hs : s.Fine) (n : Nat) (o : OutState) : (s.setOut n o).Fine := by
  grind [State.setOut, ← fine_mk]

theorem State.refreshOut_fine {s : State} (hs : s.Fine) (n : Nat) : (s.refreshOut n).Fine := by
  grind [State.refreshOut, ← fine_mk, ← State.setFlag_fine, ← State.setOut_fine]

theorem State.refreshOuts_fine {s : State} (hs : s.Fine) : (s.refreshOuts).Fine := by
  grind [State.refreshOuts, ← fine_foldl, ← State.refreshOut_fine]

theorem State.setLatches_fine {s : State} (hs : s.Fine) (l : Lane) (pend active : BitVec 16) : (s.setLatches l pend active).Fine
    := by
  grind [State.setLatches, ← State.setReg_fine, ← State.refreshOuts_fine]

theorem State.clearLatches_fine {s : State} (hs : s.Fine) (l : Lane) (mask : BitVec 16) : (s.clearLatches l mask).Fine := by
  grind [State.clearLatches, ← State.setLatches_fine]

theorem State.clearStrandLatches_fine {s : State} (hs : s.Fine) (l : Lane) (k : Strand) : (s.clearStrandLatches l k).Fine := by
  grind [State.clearStrandLatches, ← State.clearLatches_fine]

theorem State.freeLock_fine {s : State} (hs : s.Fine) (i : Nat) : (s.freeLock i).Fine := by
  grind [State.freeLock, ← fine_mk, ← State.setFld_fine]

theorem State.forceLock_fine {s : State} (hs : s.Fine) (i : Nat) (by' : Nat) : (s.forceLock i by').Fine := by
  grind [State.forceLock, ← State.bump_fine, ← State.logEv_fine, ← State.freeLock_fine]

theorem State.freeLocksOf_fine {s : State} (hs : s.Fine) (owner : Nat) : (s.freeLocksOf owner).Fine := by
  grind [State.freeLocksOf, ← fine_foldl, ← State.forceLock_fine]

theorem State.setView_fine {s : State} (hs : s.Fine) (i : Nat) (v : UnitView) : (s.setView i v).Fine := by
  grind [State.setView, ← fine_mk, ← State.setReg_fine, ← State.bump_fine, ← State.logEv_fine, ← State.raiseAll_fine]

theorem State.setMgView_fine {s : State} (hs : s.Fine) (i mg : Nat) : (s.setMgView i mg).Fine := by
  grind [State.setMgView, ← fine_mk, ← State.setView_fine]

theorem State.setPathOut_fine {s : State} (hs : s.Fine) (i : Nat) : (s.setPathOut i).Fine := by
  grind [State.setPathOut, ← fine_mk, ← State.setView_fine]

theorem State.setPathIn_fine {s : State} (hs : s.Fine) (i : Nat) : (s.setPathIn i).Fine := by
  grind [State.setPathIn, ← fine_mk, ← State.setView_fine]

theorem State.setChan_fine {s : State} (hs : s.Fine) (p : PDie) (ch : Nat) (c : Chan) : (s.setChan p ch c).Fine := by
  grind [State.setChan, ← fine_mk, ← State.setPort_fine]

theorem State.setChState_fine {s : State} (hs : s.Fine) (p : PDie) (ch : Nat) (x : ChState) : (s.setChState p ch x).Fine := by
  grind [State.setChState, ← State.setFld_fine]

theorem State.dropFetches_fine {s : State} (hs : s.Fine) (p : PDie) (ch : Nat) : (s.dropFetches p ch).Fine := by
  grind [State.dropFetches, ← fine_mk, ← State.setPort_fine]

theorem State.dropUndecided_fine {s : State} (hs : s.Fine) (p : PDie) (ch : Nat) (keep : Option Nat) : (s.dropUndecided p ch
    keep).Fine := by
  grind [State.dropUndecided, ← fine_mk, ← State.setPort_fine]

theorem State.stopChan_fine {s : State} (hs : s.Fine) (p : PDie) (ch : Nat) : (s.stopChan p ch).Fine := by
  grind [State.stopChan, ← fine_mk, ← State.setChan_fine, ← State.dropFetches_fine]

theorem State.haltChan_fine {s : State} (hs : s.Fine) (p : PDie) (ch : Nat) : (s.haltChan p ch).Fine := by
  grind [State.haltChan, ← State.setChState_fine, ← State.stopChan_fine]

theorem State.dropHeldWb_fine {s : State} (hs : s.Fine) (p : PDie) (k : Strand) : (s.dropHeldWb p k).Fine := by
  grind [State.dropHeldWb, ← fine_mk, ← State.setPort_fine]

theorem State.haltChansOf_fine {s : State} (hs : s.Fine) (k : Strand) : (s.haltChansOf k).Fine := by
  grind [State.haltChansOf, ← fine_foldl, ← State.haltChan_fine, ← State.dropHeldWb_fine]

theorem State.resetChansOf_fine {s : State} (hs : s.Fine) (k : Strand) : (s.resetChansOf k).Fine := by
  refine fine_foldl hs (fun t p ht => fine_foldl ht (fun u ch hu => ?_) _) _
  split
  · refine State.setPort_fine ?_ ..
    exact State.setFlag_fine (State.setReg_fine (State.setReg_fine (State.setChState_fine (State.stopChan_fine hu ..) ..) ..) ..) ..
  · exact hu

theorem State.stopAllChans_fine {s : State} (hs : s.Fine) (p : PDie) : (s.stopAllChans p).Fine := by
  grind [State.stopAllChans, ← fine_mk, ← fine_foldl, ← State.setPort_fine, ← State.showHold_fine, ← State.haltChan_fine]

theorem State.setActs_fine {s : State} (hs : s.Fine) (p : PDie) (ch : Nat) (acts : List Act) : (s.setActs p ch acts).Fine := by
  grind [State.setActs, ← fine_mk, ← State.setChan_fine]

theorem State.mapAct_fine {s : State} (hs : s.Fine) (p : PDie) (ch index : Nat) (f : Act → Act) : (s.mapAct p ch index f).Fine :=
    by
  grind [State.mapAct, ← State.setActs_fine]

theorem State.endAct_fine {s : State} (hs : s.Fine) (p : PDie) (ch index st addr : Nat) : (s.endAct p ch index st addr).Fine := by
  grind [State.endAct, ← State.mapAct_fine]

theorem State.endFetch_fine {s : State} (hs : s.Fine) (p : PDie) (id : Nat) : (s.endFetch p id).Fine := by
  grind [State.endFetch, ← fine_mk, ← State.setPort_fine]

theorem State.putFetch_fine {s : State} (hs : s.Fine) (p : PDie) (f : Fetch) : (s.putFetch p f).Fine := by
  grind [State.putFetch, ← fine_mk, ← State.setPort_fine]

theorem State.failFetch_fine {s : State} (hs : s.Fine) (p : PDie) (f : Fetch) : (s.failFetch p f).Fine := by
  grind [State.failFetch, ← fine_mk, ← State.endAct_fine, ← State.endFetch_fine]

theorem State.failHopeless_fine {s : State} (hs : s.Fine) (p : PDie) (k : Strand) : (s.failHopeless p k).Fine := by
  grind [State.failHopeless, ← fine_foldl, ← State.failFetch_fine]

theorem State.askCopy_fine {s : State} (hs : s.Fine) (p : PDie) (id : Nat) (l : Lane) : (s.askCopy p id l).Fine := by
  grind [State.askCopy, ← fine_mk, ← State.send_fine, ← State.putFetch_fine]

theorem State.askCopies_fine {s : State} (hs : s.Fine) (p : PDie) (k : Strand) : (s.askCopies p k).Fine := by
  grind [State.askCopies, ← fine_foldl, ← State.failHopeless_fine, ← State.askCopy_fine]

theorem State.dropCopies_fine {s : State} (hs : s.Fine) (p : PDie) (k : Strand) (x : Lane) : (s.dropCopies p k x).Fine := by
  grind [State.dropCopies, ← fine_mk, ← State.setPort_fine, ← State.failHopeless_fine]

theorem State.releaseWb_fine {s : State} (hs : s.Fine) (p : PDie) (l : Lane) : (s.releaseWb p l).Fine := by
  grind [State.releaseWb, ← fine_mk, ← fine_foldl, ← fine_foldl_fst, ← State.setPort_fine, ← State.broadcastTo_fine]

theorem State.releaseWbs_fine {s : State} (hs : s.Fine) (p : PDie) : (s.releaseWbs p).Fine := by
  grind [State.releaseWbs, ← fine_foldl, ← State.releaseWb_fine]

theorem State.sendWb_fine {s : State} (hs : s.Fine) (p : PDie) (h : HeldWrite) : (s.sendWb p h).Fine := by
  grind [State.sendWb, ← fine_mk, ← fine_foldl, ← State.setPort_fine, ← State.keepWrite_fine, ← State.releaseWb_fine]

end Sys2Proof.Machine
end

-- ==== Proofs: register spaces, the voters, exclusion, halt and the DMA channels (O4) ====
section
/-! Voters, exclusion and halt, retirement, and the channels of the ring DMA up to their enable and resume. -/

namespace Sys2Proof.Machine

set_option Elab.async false

theorem State.unstall_fine {s : State} (hs : s.Fine) (p : PDie) (k : Strand) : (s.unstall p k).Fine := by
  grind [State.unstall, ← fine_foldl, ← State.setChState_fine]

theorem State.stallCopies_fine {s : State} (hs : s.Fine) (p : PDie) (k : Strand) : (s.stallCopies p k).Fine := by
  grind [State.stallCopies, ← fine_foldl, ← State.setChState_fine]

theorem State.showMode_fine {s : State} (hs : s.Fine) (d : Die) (k : Strand) : (s.showMode d k).Fine := by
  grind [State.showMode, ← State.setFld_fine]

theorem State.voterClean_fine {s : State} (hs : s.Fine) (d : Die) (k : Strand) : (s.voterClean d k).Fine := by
  grind [State.voterClean, ← fine_mk, ← State.setVoter_fine, ← State.showSump_fine]

theorem State.sendExclusion_fine {s : State} (hs : s.Fine) (ls : List Lane) (k : Strand) (x : Lane) (c : Cause) :
    (s.sendExclusion ls k x c).Fine := by
  grind [State.sendExclusion, ← State.send_fine]

theorem State.sendSplit_fine {s : State} (hs : s.Fine) (ls : List Lane) (k : Strand) (c : Cause) : (s.sendSplit ls k c).Fine := by
  grind [State.sendSplit, ← State.send_fine]

theorem State.chalDecide_fine {s : State} (hs : s.Fine) (d : Die) (k : Strand) : (s.chalDecide d k).Fine := by
  grind [State.chalDecide, ← fine_mk, ← fine_foldl, ← State.setEcho_fine, ← State.setVoter_fine, ← State.raise_fine]

theorem State.voterRemove_fine {s : State} (hs : s.Fine) (d : Die) (k : Strand) (x : Lane) : (s.voterRemove d k x).Fine := by
  have hkey (v : Voter) : ((((s.setFlag d.unit (Reg.vtStat k.idx) x.idx false).setVoter d k v).showMode d k).chalDecide d k).Fine :=
    State.chalDecide_fine (State.showMode_fine (State.setVoter_fine (State.setFlag_fine hs ..) ..) ..) ..
  cases d with
  | p1 => exact State.releaseWbs_fine (State.dropCopies_fine (hkey _) ..) ..
  | p2 => exact State.releaseWbs_fine (State.dropCopies_fine (hkey _) ..) ..
  | f => exact State.clearStrandLatches_fine (hkey _) ..
  | m => exact hkey _

theorem State.voterStop_fine {s : State} (hs : s.Fine) (d : Die) (k : Strand) : (s.voterStop d k).Fine := by
  grind [State.voterStop, ← fine_mk, ← State.setFld_fine, ← State.setVoter_fine, ← State.showSump_fine]

theorem State.voterSplit_fine {s : State} (hs : s.Fine) (d : Die) (k : Strand) (c : Cause) (ord : Word) : (s.voterSplit d k c
    ord).Fine := by
  grind [State.voterSplit, ← State.setVCause_fine, ← State.sendSplit_fine, ← State.voterStop_fine]

theorem State.voterResettle_fine {s : State} (hs : s.Fine) (d : Die) (k : Strand) : (s.voterResettle d k).Fine := by
  grind [State.voterResettle, ← fine_mk, ← State.setVoter_fine, ← State.voterClean_fine, ← State.voterSplit_fine]

theorem State.voterNotice_fine {s : State} (hs : s.Fine) (d : Die) (k : Strand) (x : Lane) : (s.voterNotice d k x).Fine := by
  grind [State.voterNotice, ← fine_mk, ← State.setVoter_fine, ← State.voterRemove_fine, ← State.voterResettle_fine]

theorem State.voterExclude_fine {s : State} (hs : s.Fine) (d : Die) (k : Strand) (x : Lane) (c : Cause) (ord : Word) :
    (s.voterExclude d k x c ord).Fine := by
  unfold State.voterExclude
  grind [← fine_mk, ← State.bump_fine, ← State.setVCause_fine, ← State.sendExclusion_fine, ← State.voterRemove_fine,
      ← State.voterResettle_fine]

theorem State.retire_fine {s : State} (hs : s.Fine) (l : Lane) (k : Strand) : (s.retire l k).Fine := by
  grind [State.retire, ← State.setReg64_fine]

theorem State.finishLoad_fine {s : State} (hs : s.Fine) (l : Lane) (k : Strand) (bs : List Byte) : (s.finishLoad l k bs).Fine :=
    by
  grind [State.finishLoad, ← fine_mk, ← State.setReplica_fine, ← State.retire_fine]

theorem State.deliverRead_fine {s : State} (hs : s.Fine) (l : Lane) (k : Strand) (d : Die) (ord : Word) (data : Dword) :
    (s.deliverRead l k d ord data).Fine := by
  grind [State.deliverRead, ← fine_mk, ← State.setReplica_fine, ← State.finishLoad_fine]

theorem State.latch_fine {s : State} (hs : s.Fine) (l : Lane) (k : Strand) (o : Occ) : (s.latch l k o).Fine := by
  grind [State.latch, ← fine_mk, ← State.setEcho_fine]

theorem State.latchChange_fine {s : State} (hs : s.Fine) (l : Lane) (k : Strand) (x : Lane) (ev : ReplEvent) : (s.latchChange l k
    x ev).Fine := by
  grind [State.latchChange, ← fine_mk, ← State.latch_fine]

theorem State.latchChangeAll_fine {s : State} (hs : s.Fine) (k : Strand) (x : Lane) (ev : ReplEvent) : (s.latchChangeAll k x
    ev).Fine := by
  grind [State.latchChangeAll, ← fine_foldl, ← State.latchChange_fine]

theorem State.showDebug_fine {s : State} (hs : s.Fine) (l : Lane) (k : Strand) : (s.showDebug l k).Fine := by
  grind [State.showDebug, ← fine_mk, ← fine_foldl, ← State.setFld_fine]

theorem State.pruneChanges_fine {s : State} (hs : s.Fine) (k : Strand) : (s.pruneChanges k).Fine := by
  grind [State.pruneChanges, ← fine_mk]

theorem State.applyChange_fine {s : State} (hs : s.Fine) (l : Lane) (k : Strand) (c : Change) (now : Dword) : (s.applyChange l k
    c now).Fine := by
  unfold State.applyChange
  grind [← fine_mk, ← fine_foldl, ← State.setFld_fine, ← State.setEcho_fine, ← State.setPending_fine, ← State.showDebug_fine,
      ← State.pruneChanges_fine]

theorem State.applyChangesAtHalt_fine {s : State} (hs : s.Fine) (l : Lane) (k : Strand) : (s.applyChangesAtHalt l k).Fine := by
  grind [State.applyChangesAtHalt, ← fine_foldl, ← State.applyChange_fine]

theorem State.stopCore_fine {s : State} (hs : s.Fine) (l : Lane) (k : Strand) : (s.stopCore l k).Fine := by
  grind [State.stopCore, ← fine_mk, ← State.setReplica_fine]

theorem State.showCredits_fine {s : State} (hs : s.Fine) (l : Lane) (k : Strand) : (s.showCredits l k).Fine := by
  grind [State.showCredits, ← fine_foldl, ← State.setFld_fine]

theorem State.showVisible_fine {s : State} (hs : s.Fine) (l : Lane) (k : Strand) : (s.showVisible l k).Fine := by
  grind [State.showVisible, ← fine_foldl, ← State.setFld_fine]

theorem State.popAll_fine {s : State} (hs : s.Fine) (l : Lane) (k : Strand) : (s.popAll l k).Fine := by
  grind [State.popAll, ← fine_mk, ← State.setEcho_fine]

theorem State.showTcfg_fine {s : State} (hs : s.Fine) (k : Strand) (busy : Bool) (res : Option Nat) : (s.showTcfg k busy
    res).Fine := by
  grind [State.showTcfg, ← fine_mk, ← fine_foldl, ← State.setFld_fine, ← State.setFlag_fine]

theorem State.refuseTcfg_fine {s : State} (hs : s.Fine) (k : Strand) (res : Nat) : (s.refuseTcfg k res).Fine := by
  grind [State.refuseTcfg, ← fine_mk, ← State.showTcfg_fine]

theorem State.tcfgFinish_fine {s : State} (hs : s.Fine) (k : Strand) (c : TcfgCommit) (at' : Option Word) : (s.tcfgFinish k c
    at').Fine := by
  grind [State.tcfgFinish, ← fine_mk, ← fine_foldl, ← State.setReg_fine, ← State.setEcho_fine, ← State.showTcfg_fine]

theorem State.tcfgSettle_fine {s : State} (hs : s.Fine) (k : Strand) : (s.tcfgSettle k).Fine := by
  grind [State.tcfgSettle, ← fine_mk, ← State.refuseTcfg_fine, ← State.tcfgFinish_fine]

theorem State.releaseHold_fine {s : State} (hs : s.Fine) (p : PDie) : (s.releaseHold p).Fine := by
  grind [State.releaseHold, ← fine_mk, ← fine_foldl, ← State.setPort_fine, ← State.broadcastNow_fine, ← State.showHold_fine,
      ← State.releaseWbs_fine, ← State.sendWb_fine, ← State.unstall_fine]

theorem State.releaseHolds_fine {s : State} (hs : s.Fine) : (s.releaseHolds).Fine := by
  grind [State.releaseHolds, ← State.releaseHold_fine]

theorem State.recordStall_fine {s : State} (hs : s.Fine) (r : RejoinRun) : (s.recordStall r).Fine := by
  grind [State.recordStall, ← fine_mk, ← fine_foldl, ← State.setFld_fine, ← State.raiseMax_fine]

theorem State.resumePaused_fine {s : State} (hs : s.Fine) (k : Strand) : (s.resumePaused k).Fine := by
  grind [State.resumePaused, ← fine_mk, ← fine_foldl, ← State.setReplica_fine, ← State.setEcho_fine]

theorem State.setRjResult_fine {s : State} (hs : s.Fine) (k : Strand) (res : Nat) : (s.setRjResult k res).Fine := by
  grind [State.setRjResult, ← State.setLaneFld_fine]

theorem State.setRjPhase_fine {s : State} (hs : s.Fine) (k : Strand) (ph : Nat) : (s.setRjPhase k ph).Fine := by
  grind [State.setRjPhase, ← State.setLaneFld_fine]

theorem State.abandonRejoin_fine {s : State} (hs : s.Fine) (res : Nat) : (s.abandonRejoin res).Fine := by
  simp only [State.abandonRejoin]
  split
  · exact hs
  next r _ =>
    have hr : ((s.recordStall r).setReg r.donor.unit (Reg.rjDirty r.strand.idx) 0).Fine :=
      State.setReg_fine (State.recordStall_fine hs r) ..
    refine State.latchChangeAll_fine (State.resumePaused_fine (State.releaseHolds_fine ?_) ..) ..
    exact State.setLaneFld_fine (State.setRjPhase_fine (State.setRjResult_fine (fine_mk hr ..) ..) ..) ..

theorem State.abandonRejoinOf_fine {s : State} (hs : s.Fine) (k : Strand) (res : Nat) : (s.abandonRejoinOf k res).Fine := by
  grind [State.abandonRejoinOf, ← fine_mk, ← State.abandonRejoin_fine]

theorem State.sendRetire_fine {s : State} (hs : s.Fine) (x : Lane) (c : LaneFault) : (s.sendRetire x c).Fine := by
  grind [State.sendRetire, ← State.send_fine]

theorem State.checkRetired_fine {s : State} (hs : s.Fine) (l : Lane) : (s.checkRetired l).Fine := by
  grind [State.checkRetired, ← fine_foldl, ← State.sendRetire_fine]

theorem State.haltDevices_fine {s : State} (hs : s.Fine) (k : Strand) : (s.haltDevices k).Fine := by
  unfold State.haltDevices
  grind [← fine_foldl, ← State.raise_fine, ← State.disturb_fine, ← State.freeLocksOf_fine, ← State.haltChansOf_fine,
      ← State.voterStop_fine]

theorem State.haltAt_fine {s : State} (hs : s.Fine) (l : Lane) (k : Strand) (c : Cause) (repl : Option Lane) :
    (s.haltAt l k c repl).Fine := by
  have hstop (t : State) (ht : t.Fine) (r : Replica) (c' : LogCode) (arg : List Nat) :
      (((t.setReplica l k r).clearStrandLatches l k).logEv l.idx (some k) c' arg).Fine :=
    State.logEv_fine (State.clearStrandLatches_fine (State.setReplica_fine ht ..) ..) ..
  have hpop (t : State) (ht : t.Fine) (e : Echo) : ((t.setEcho l k e).popAll l k).Fine :=
    State.popAll_fine (State.setEcho_fine ht ..) ..
  have hflag (t : State) (ht : t.Fine) (b : Prop) [Decidable b] :
      (if b then t.setFlag l.unit (Reg.ecStat k.idx) 2 true else t).Fine := by grind [← State.setFlag_fine]
  simp only [State.haltAt]
  split
  · exact hs
  · split <;>
    · try refine State.haltDevices_fine ?_ ..
      refine hflag _ (hstop _ (hpop _ (State.checkRetired_fine (State.applyChangesAtHalt_fine ?_ ..) ..) _) ..) _
      grind [← State.abandonRejoinOf_fine]

theorem State.haltOwn_fine {s : State} (hs : s.Fine) (l : Lane) (k : Strand) (c : Cause) (repl : Option Lane) : (s.haltOwn l k c
    repl).Fine := by
  grind [State.haltOwn, ← State.setLCause_fine, ← State.haltAt_fine]

theorem State.showLaneView_fine {s : State} (hs : s.Fine) (x : Lane) : (s.showLaneView x).Fine := by
  grind [State.showLaneView, ← fine_mk, ← State.setView_fine]

theorem State.dropBeats_fine {s : State} (hs : s.Fine) (l : Lane) (k : Strand) : (s.dropBeats l k).Fine := by
  grind [State.dropBeats, ← fine_mk, ← State.setReplica_fine]

theorem State.excludeAt_fine {s : State} (hs : s.Fine) (l : Lane) (k : Strand) (x : Lane) (c : Cause) :
    (s.excludeAt l k x c).Fine := by
  have hheard : ((s.dies.filter fun d => (s.lane l).junction.get d).foldl (fun t d => t.voterNotice d k x) s).Fine :=
    fine_foldl hs (fun t d ht => State.voterNotice_fine ht ..) _
  have hdrop (t : State) (ht : t.Fine) : (if l = x then (t.dropBeats l k).clearStrandLatches l k else t).Fine := by
    grind [← State.dropBeats_fine, ← State.clearStrandLatches_fine]
  have hleave (t : State) (ht : t.Fine) (e : Echo) : ((t.setEcho l k e).showLaneView x).Fine :=
    State.showLaneView_fine (State.setEcho_fine ht ..) ..
  simp only [State.excludeAt]
  split
  · exact hs
  · have ht := hleave _ (State.latchChange_fine (hdrop _ hheard) l k x .excluded)
    grind [← State.abandonRejoin_fine, ← State.haltOwn_fine, ← State.tcfgSettle_fine]

theorem State.echoExcludes_fine {s : State} (hs : s.Fine) (l : Lane) (k : Strand) (x : Lane) (c : Cause) : (s.echoExcludes l k x
    c).Fine := by
  grind [State.echoExcludes, ← State.setLCause_fine, ← State.sendExclusion_fine, ← State.excludeAt_fine]

theorem State.echoSplits_fine {s : State} (hs : s.Fine) (l : Lane) (k : Strand) (c : Cause) : (s.echoSplits l k c).Fine := by
  grind [State.echoSplits, ← State.sendSplit_fine, ← State.haltOwn_fine]

theorem State.retireAt_fine {s : State} (hs : s.Fine) (l : Lane) (k : Strand) (x : Lane) : (s.retireAt l k x).Fine := by
  grind [State.retireAt, ← fine_mk, ← State.setEcho_fine, ← State.latchChange_fine, ← State.applyChangesAtHalt_fine,
      ← State.tcfgSettle_fine, ← State.checkRetired_fine, ← State.haltOwn_fine]

theorem State.retireLane_fine {s : State} (hs : s.Fine) (x : Lane) (c : LaneFault) : (s.retireLane x c).Fine := by
  unfold State.retireLane
  grind [← fine_mk, ← fine_foldl, ← State.setFlag_fine, ← State.setLaneFld_fine, ← State.setReplica_fine, ← State.logEv_fine,
      ← State.clearLatches_fine, ← State.setPathOut_fine, ← State.voterNotice_fine, ← State.abandonRejoin_fine,
      ← State.retireAt_fine]

theorem State.logRsvd_fine {s : State} (hs : s.Fine) (u : RUnit) (off : Nat) (m : Master) : (s.logRsvd u off m).Fine := by
  unfold State.logRsvd
  grind [← fine_mk, ← State.logEv_fine]

theorem State.dropHeld_fine {s : State} (hs : s.Fine) (u : RUnit) (off : Nat) : (s.dropHeld u off).Fine := by
  grind [State.dropHeld, ← fine_mk]

theorem State.holdLow_fine {s : State} (hs : s.Fine) (u : RUnit) (off : Nat) (w : Word) : (s.holdLow u off w).Fine := by
  grind [State.holdLow, ← fine_mk]

theorem State.plainWrite_fine {s : State} (hs : s.Fine) (u : RUnit) (off : Nat) (d : RegDesc) (mask data : Word) (wide : Bool) :
    (s.plainWrite u off d mask data wide).Fine := by
  grind [State.plainWrite, ← State.setReg_fine, ← State.dropHeld_fine, ← State.holdLow_fine]

theorem State.plainRead_fine {s : State} (hs : s.Fine) (u : RUnit) (off : Nat) (d : RegDesc) : (s.plainRead u off d).1.Fine := by
  grind [State.plainRead, ← State.setReg_fine]

theorem State.startFetch_fine {s : State} (hs : s.Fine) (p : PDie) (ch index addr len : Nat) : (s.startFetch p ch index addr
    len).Fine := by
  grind [State.startFetch, ← fine_mk, ← fine_foldl, ← State.setPort_fine, ← State.mapAct_fine, ← State.askCopies_fine]

theorem State.askNext_fine {s : State} (hs : s.Fine) (p : PDie) (ch : Nat) (a : Act) : (s.askNext p ch a).Fine := by
  grind [State.askNext, ← fine_mk, ← State.endAct_fine, ← State.startFetch_fine]

theorem State.nextRead_fine {s : State} (hs : s.Fine) (p : PDie) (ch index : Nat) : (s.nextRead p ch index).Fine := by
  grind [State.nextRead, ← fine_mk, ← State.setChState_fine, ← State.askNext_fine]

theorem State.takeDesc_fine {s : State} (hs : s.Fine) (p : PDie) (ch index : Nat) (bs : List Byte) : (s.takeDesc p ch index
    bs).Fine := by
  grind [State.takeDesc, ← fine_mk, ← State.mapAct_fine, ← State.endAct_fine, ← State.nextRead_fine]

theorem State.dmaWrite_fine {s : State} (hs : s.Fine) (p : PDie) (ch addr : Nat) (bs : List Byte) : (s.dmaWrite p ch addr
    bs).Fine := by
  grind [State.dmaWrite, ← State.broadcast_fine]

theorem State.moveData_fine {s : State} (hs : s.Fine) (p : PDie) (ch index : Nat) (bs : List Byte) : (s.moveData p ch index
    bs).Fine := by
  grind [State.moveData, ← fine_mk, ← State.mapAct_fine, ← State.endAct_fine, ← State.nextRead_fine, ← State.dmaWrite_fine]

theorem State.takeData_fine {s : State} (hs : s.Fine) (p : PDie) (ch index : Nat) (bs : List Byte) : (s.takeData p ch index
    bs).Fine := by
  grind [State.takeData, ← fine_mk, ← State.mapAct_fine, ← State.endAct_fine, ← State.nextRead_fine, ← State.moveData_fine]

theorem State.goOn_fine {s : State} (hs : s.Fine) (p : PDie) (ch : Nat) (a : Act) : (s.goOn p ch a).Fine := by
  grind [State.goOn, ← State.nextRead_fine, ← State.moveData_fine]

theorem State.useFetch_fine {s : State} (hs : s.Fine) (p : PDie) (f : Fetch) (bs : List Byte) (ue : Bool) : (s.useFetch p f bs
    ue).Fine := by
  grind [State.useFetch, ← fine_mk, ← State.endAct_fine, ← State.takeDesc_fine, ← State.takeData_fine]

theorem execDescriptorStart_fine (p : PDie) (ch : Nat) {s : State} (hs : s.Fine) : FineOut (execDescriptorStart p ch s) := by
  grind [execDescriptorStart, ← fine_mk, ← fineOut_next, ← State.setChan_fine, ← State.setChState_fine, ← State.nextRead_fine,
      ← State.goOn_fine]

theorem State.wbOcc_fine {s : State} (hs : s.Fine) (p : PDie) (ch : Nat) (wanted : Bool) : (s.wbOcc p ch wanted).1.Fine := by
  grind [State.wbOcc, ← State.countOcc_fine]

theorem State.putWb_fine {s : State} (hs : s.Fine) (p : PDie) (ch addr : Nat) (bs : List Byte) (a : Act) (event : Bool) :
    (s.putWb p ch addr bs a event).Fine := by
  grind [State.putWb, ← State.sendWb_fine, ← State.wbOcc_fine]

theorem State.enableChan_fine {s : State} (hs : s.Fine) (p : PDie) (ch : Nat) (bound : Bool) : (s.enableChan p ch bound).Fine :=
    by
  grind [State.enableChan, ← fine_mk, ← State.setReg_fine, ← State.setFlag_fine, ← State.setChan_fine, ← State.setChState_fine]

theorem State.afterWb_fine {s : State} (hs : s.Fine) (p : PDie) (ch : Nat) (a : Act) (st : Nat) : (s.afterWb p ch a st).Fine := by
  have hdone (v : Nat) : ((s.setFld p.unit (Reg.dmIdx ch) 11 0 v).bumpWrap p.unit (Reg.dmCnt ch) 15 0).Fine :=
    State.bumpWrap_fine (State.setFld_fine hs ..) ..
  have hhalt (t : State) (ht : t.Fine) (x y : Word) : ((((t.setChState p ch .halted).setFld p.unit (Reg.dmStat ch) 31 24 st).setReg
      p.unit (Reg.dmErrLo ch) x).setReg p.unit (Reg.dmErrHi ch) y).Fine :=
    State.setReg_fine (State.setReg_fine (State.setFld_fine (State.setChState_fine ht ..) ..) ..) ..
  simp only [State.afterWb]
  split
  · exact State.releaseWbs_fine (hhalt _ (State.dropUndecided_fine (State.setChan_fine (hdone _) ..) ..) ..) ..
  · have ht := State.setActs_fine (hdone ((a.index + 1) % (s.chan p ch).size)) p ch
    grind [← State.setChState_fine, ← State.enableChan_fine]

theorem State.putChained_fine {s : State} (hs : s.Fine) (p : PDie) (ch : Nat) (a : Act) : (s.putChained p ch a).Fine := by
  grind [State.putChained, ← State.useFree_fine, ← State.putWb_fine]

theorem State.completeAct_fine {s : State} (hs : s.Fine) (p : PDie) (ch : Nat) (a : Act) : (s.completeAct p ch a).Fine := by
  grind [State.completeAct, ← fine_mk, ← State.useFree_fine, ← State.mapAct_fine, ← State.nextRead_fine, ← State.dmaWrite_fine,
      ← State.putWb_fine, ← State.afterWb_fine, ← State.putChained_fine]

theorem State.completeDesc_fine {s : State} (hs : s.Fine) (p : PDie) (ch : Nat) : (s.completeDesc p ch).Fine := by
  grind [State.completeDesc, ← fine_mk, ← State.completeAct_fine]

theorem State.completeList_fine {s : State} (hs : s.Fine) (p : PDie) (ch : Nat) (x0 : List Act) : (s.completeList p ch x0).Fine
    := by
  fun_induction State.completeList <;> grind [← State.setActs_fine, ← State.completeAct_fine]

theorem State.voteFail_fine {s : State} (hs : s.Fine) (p : PDie) (f : Fetch) : (s.voteFail p f).Fine := by
  grind [State.voteFail, ← fine_mk, ← State.completeList_fine]

theorem execDescriptorComplete_fine (p : PDie) (ch : Nat) {s : State} (hs : s.Fine) : FineOut (execDescriptorComplete p ch s) :=
    by
  grind [execDescriptorComplete, ← fineOut_next, ← State.completeDesc_fine]

theorem State.decideFetch_fine {s : State} (hs : s.Fine) (p : PDie) (f : Fetch) (ue : Bool) : (s.decideFetch p f ue).Fine := by
  grind [State.decideFetch, ← fine_mk, ← State.endFetch_fine, ← State.putFetch_fine, ← State.voterSplit_fine,
      ← State.voterExclude_fine, ← State.useFetch_fine, ← State.voteFail_fine]

theorem execFetchCopyArrive_fine (p : PDie) (k : Strand) (id : Nat) (l : Lane) (ue : Bool) {s : State} (hs : s.Fine) : FineOut
    (execFetchCopyArrive p k id l ue s) := by
  unfold execFetchCopyArrive
  split <;> grind [← fine_mk, ← fineOut_next, ← State.arrive_fine, ← State.putFetch_fine, ← State.askCopies_fine,
      ← State.releaseWbs_fine, ← State.decideFetch_fine]

theorem execFetchSkewTimeout_fine (p : PDie) (k : Strand) (id : Nat) {s : State} (hs : s.Fine) : FineOut (execFetchSkewTimeout p
    k id s) := by
  grind [execFetchSkewTimeout, ← fine_mk, ← fineOut_next, ← State.voterExclude_fine]

theorem execDmaBusTimeout_fine (p : PDie) (k : Strand) (id : Nat) (l : Lane) {s : State} (hs : s.Fine) : FineOut
    (execDmaBusTimeout p k id l s) := by
  grind [execDmaBusTimeout, ← fine_mk, ← fineOut_next, ← State.putFetch_fine, ← State.failHopeless_fine]

theorem State.rxDeliver_fine {s : State} (hs : s.Fine) (p : PDie) (ch : Nat) (bs : List Byte) (time : Dword) (i0 i1 i2 : Word)
    (ue : Bool) : (s.rxDeliver p ch bs time i0 i1 i2 ue).Fine := by
  grind [State.rxDeliver, ← fine_mk, ← State.bump_fine, ← State.mapAct_fine, ← State.endAct_fine, ← State.dmaWrite_fine]

theorem State.writeEn1_fine {s : State} (hs : s.Fine) (p : PDie) (ch : Nat) : (s.writeEn1 p ch).Fine := by
  grind [State.writeEn1, ← fine_mk, ← State.setFlag_fine, ← State.setChan_fine, ← State.enableChan_fine]

theorem State.writeEn0_fine {s : State} (hs : s.Fine) (p : PDie) (ch : Nat) : (s.writeEn0 p ch).Fine := by
  grind [State.writeEn0, ← fine_mk, ← State.setFlag_fine, ← State.setChan_fine, ← State.setChState_fine,
      ← State.dropUndecided_fine, ← State.setActs_fine]

theorem State.writeResume_fine {s : State} (hs : s.Fine) (p : PDie) (ch : Nat) : (s.writeResume p ch).Fine := by
  grind [State.writeResume, ← State.setChState_fine]

theorem State.dmCtlWrite_fine {s : State} (hs : s.Fine) (m : Master) (p : PDie) (ch : Nat) (v : Word) : (s.dmCtlWrite m p ch
    v).Fine := by
  grind [State.dmCtlWrite, ← State.ignored_fine, ← State.writeEn1_fine, ← State.writeEn0_fine, ← State.writeResume_fine]

theorem State.doorbell_fine {s : State} (hs : s.Fine) (m : Master) (p : PDie) (ch : Nat) (v : Word) : (s.doorbell m p ch v).Fine
    := by
  grind [State.doorbell, ← fine_mk, ← State.setFld_fine, ← State.bump_fine, ← State.ignored_fine, ← State.setChan_fine]

theorem State.atChan_fine {s : State} (hs : s.Fine) (m : Master) (p : PDie) (ch off : Nat) {t : State} (ht : t.Fine) : (s.atChan
    m p ch off t).Fine := by
  grind [State.atChan, ← State.atUnit_fine]

theorem execDmaEnable_fine (m : Master) (p : PDie) (ch : Nat) {s : State} (hs : s.Fine) : FineOut (execDmaEnable m p ch s) := by
  grind [execDmaEnable, ← fineOut_next, ← State.dmCtlWrite_fine, ← State.atChan_fine]

theorem execDmaDisable_fine (m : Master) (p : PDie) (ch : Nat) {s : State} (hs : s.Fine) : FineOut (execDmaDisable m p ch s) := by
  grind [execDmaDisable, ← fineOut_next, ← State.dmCtlWrite_fine, ← State.atChan_fine]

theorem execResume_fine (m : Master) (p : PDie) (ch : Nat) {s : State} (hs : s.Fine) : FineOut (execResume m p ch s) := by
  grind [execResume, ← fineOut_next, ← State.dmCtlWrite_fine, ← State.atChan_fine]

end Sys2Proof.Machine
end

-- ==== Proofs: register spaces, quiesces, channel views, the Gallery and CAN (O4) ====
section
/-! Doorbells and quiesces, what a channel and its guardian show, the Gallery's events and commits, the CAN controllers and the
queues of remote reads. -/

namespace Sys2Proof.Machine

set_option Elab.async false

theorem execDmaDoorbell_fine (m : Master) (p : PDie) (ch : Nat) (data : Word) {s : State} (hs : s.Fine) : FineOut
    (execDmaDoorbell m p ch data s) := by
  grind [execDmaDoorbell, ← fineOut_next, ← State.logRsvd_fine, ← State.doorbell_fine, ← State.atChan_fine]

theorem State.quiesceWrite_fine {s : State} (hs : s.Fine) (m : Master) (p : PDie) (v : Word) : (s.quiesceWrite m p v).Fine := by
  have hask (t : State) (ht : t.Fine) : (Strand.list.foldl (fun t k => t.askCopies p k) t).Fine :=
    fine_foldl ht (fun t k ht => State.askCopies_fine ht ..) _
  have hflags (t : State) (ht : t.Fine) (b : Bool) : (((t.setFlag p.unit Reg.dmQuiesce 9 b).setFlag p.unit Reg.dmQuiesce 10
      false).setFlag p.unit Reg.dmQuiesce 11 false).Fine :=
    State.setFlag_fine (State.setFlag_fine (State.setFlag_fine ht ..) ..) ..
  have hclear (b : Bool) : (if b then ((s.setFlag p.unit Reg.dmQuiesce 9 false).setFlag p.unit Reg.dmQuiesce 10
      false).setFlag p.unit Reg.dmQuiesce 11 false else s).Fine := by
    split
    · exact hflags _ hs _
    · exact hs
  have hdomain (t : State) (ht : t.Fine) (b : Bool) (d : Nat) :
      (if b then t else t.setFld p.unit Reg.dmQuiesce 2 0 d).Fine := by grind [← State.setFld_fine]
  simp only [State.quiesceWrite]
  split
  · exact State.ignored_fine hs ..
  · refine fine_ite _ (hask _ (State.setPort_fine (hflags _ ?_ _) ..)) ?_ <;> exact hdomain _ (hclear _) _ _

theorem execQuiesceRequest_fine (p : PDie) (domain : BitVec 3) {s : State} (hs : s.Fine) : FineOut (execQuiesceRequest p domain
    s) := by
  grind [execQuiesceRequest, ← fineOut_next, ← State.quiesceWrite_fine]

theorem State.abortChan_fine {s : State} (hs : s.Fine) (p : PDie) (ch domain : Nat) : (s.abortChan p ch domain).Fine := by
  grind [State.abortChan, ← fine_mk, ← State.setChan_fine, ← State.completeList_fine]

theorem State.powerAbort_fine {s : State} (hs : s.Fine) (p : PDie) (domain : Nat) : (s.powerAbort p domain).Fine := by
  grind [State.powerAbort, ← fine_mk, ← fine_foldl, ← State.setPort_fine, ← State.releaseWbs_fine, ← State.abortChan_fine]

theorem execQuiesceRelease_fine (p : PDie) {s : State} (hs : s.Fine) : FineOut (execQuiesceRelease p s) := by
  grind [execQuiesceRelease, ← fineOut_next, ← State.quiesceWrite_fine]

theorem State.showCtl_fine {s : State} (hs : s.Fine) (p : PDie) (x : Net) : (s.showCtl p x).Fine := by
  have hsyncs (t : State) (ht : t.Fine) (f : Nat → Word) :
      ((List.range 8).foldl (fun t i => t.setReg p.unit (Reg.tbSync i) (f i)) t).Fine :=
    fine_foldl ht (fun t i ht => State.setReg_fine ht ..) _
  have hlinks (t : State) (ht : t.Fine) : (Port.list.foldl (fun t q =>
      ((t.setFld p.unit (Reg.tbLink q.idx) 31 30 (x.links.get q).phase.code).setFld p.unit (Reg.tbLink q.idx) 15 0
        (x.links.get q).delay).setReg p.unit (Reg.tbNbr q.idx) (x.links.get q).nbr) t).Fine :=
    fine_foldl ht (fun t q ht => State.setReg_fine (State.setFld_fine (State.setFld_fine ht ..) ..) ..) _
  have hstat (t : State) (ht : t.Fine) (u v w z : Word) : ((((t.setReg p.unit Reg.ttState u).setReg p.unit Reg.ttCycle v).setReg
      p.unit Reg.tbStat w).setReg p.unit Reg.tbRate z).Fine :=
    State.setReg_fine (State.setReg_fine (State.setReg_fine (State.setReg_fine ht ..) ..) ..) ..
  have hmode (t : State) (ht : t.Fine) (v w : Nat) :
      ((t.setFld p.unit Reg.ttModeStat 23 21 v).setFld p.unit Reg.ttModeStat 15 0 w).Fine :=
    State.setFld_fine (State.setFld_fine ht ..) ..
  simp only [State.showCtl]
  split <;>
  exact hmode _ (State.setFlag_fine (State.setReg_fine (hlinks _ (hsyncs _ (hstat _ hs ..) _)) ..) ..) ..

theorem State.showGuard_fine {s : State} (hs : s.Fine) (p : PDie) (g : Guard) : (s.showGuard p g).Fine := by
  grind [State.showGuard, ← State.setFld_fine]

theorem State.setGuard_fine {s : State} (hs : s.Fine) (p : PDie) (g : Guard) : (s.setGuard p g).Fine := by
  grind [State.setGuard, ← fine_mk, ← State.setPort_fine, ← State.showGuard_fine]

theorem State.setNet_fine {s : State} (hs : s.Fine) (n : NetId) (x : Net) : (s.setNet n x).Fine := by
  unfold State.setNet
  split <;> grind [← fine_mk, ← State.setPort_fine, ← State.showCtl_fine, ← State.setGuard_fine]

theorem State.ktnState_fine {s : State} (hs : s.Fine) (n : NetId) : (s.ktnState n).Fine := by
  unfold State.ktnState
  grind [← fine_mk, ← State.raisePAll_fine]

theorem State.pathChange_fine {s : State} (hs : s.Fine) (n : NetId) (i : Nat) (id : Nat) : (s.pathChange n i id).Fine := by
  unfold State.pathChange
  split <;> grind [← fine_mk, ← State.setReg_fine, ← State.bump_fine, ← State.logEv_fine, ← State.raisePAll_fine,
      ← State.setNet_fine]

theorem State.useTiming_fine {s : State} (hs : s.Fine) (n : NetId) (port : Port) (f : KFrame) (tRx : Dword) (P : Int) :
    (s.useTiming n port f tRx P).Fine := by
  grind [State.useTiming, ← fine_mk, ← State.setNet_fine, ← State.pathChange_fine]

theorem State.settle_fine {s : State} (hs : s.Fine) (n : NetId) {use : State → WaitCopy → State}
    (huse : ∀ t w, t.Fine → (use t w).Fine) : (s.settle n use).Fine := by
  grind [State.settle, ← State.setNet_fine]

theorem State.offer_fine {s : State} (hs : s.Fine) (n : NetId) {use : State → WaitCopy → State}
    (huse : ∀ t w, t.Fine → (use t w).Fine) (v : WaitCopy) : (s.offer n use v).1.Fine := by
  grind [State.offer, ← State.setNet_fine, ← State.settle_fine]

theorem State.offerEarly_fine {s : State} (hs : s.Fine) (n : NetId) {use : State → WaitCopy → State}
    (huse : ∀ t w, t.Fine → (use t w).Fine) (v : WaitCopy) : (s.offerEarly n use v).Fine := by
  grind [State.offerEarly, ← State.setNet_fine, ← State.settle_fine]

theorem State.settleLate_fine {s : State} (hs : s.Fine) (n : NetId) {use : State → WaitCopy → State}
    (huse : ∀ t w, t.Fine → (use t w).Fine) : (s.settleLate n use).Fine := by
  grind [State.settleLate, ← State.settle_fine]

theorem State.integrateFrame_fine {s : State} (hs : s.Fine) (n : NetId) (port : Port) (f : KFrame) (tRx : Dword) (P : Int) :
    (s.integrateFrame n port f tRx P).Fine := by
  grind [State.integrateFrame, ← fine_mk, ← State.setNet_fine, ← State.ktnState_fine]

theorem State.adoptedUse_fine {s : State} (hs : s.Fine) (n : NetId) (w : WaitCopy) (P : Int) : (s.adoptedUse n w P).Fine := by
  grind [State.adoptedUse, ← fine_mk, ← State.setNet_fine, ← State.useTiming_fine]

theorem State.loseSync_fine {s : State} (hs : s.Fine) (n : NetId) : (s.loseSync n).Fine := by
  grind [State.loseSync, ← State.setNet_fine, ← State.ktnState_fine]

theorem State.noteHeard_fine {s : State} (hs : s.Fine) (n : NetId) (f : KFrame) (ok : Bool) : (s.noteHeard n f ok).Fine := by
  grind [State.noteHeard, ← fine_mk, ← State.setNet_fine]

theorem State.foreignSync_fine {s : State} (hs : s.Fine) (n : NetId) (f : KFrame) : (s.foreignSync n f).Fine := by
  unfold State.foreignSync
  grind [← fine_mk, ← State.bump_fine, ← State.loseSync_fine]

theorem State.showMid_fine {s : State} (hs : s.Fine) (n : NetId) (m : Int) (k : Nat) : (s.showMid n m k).Fine := by
  unfold State.showMid
  grind [← fine_mk, ← State.setReg_fine]

theorem State.endAdopted_fine {s : State} (hs : s.Fine) (n : NetId) (need : Nat) : (s.endAdopted n need).Fine := by
  grind [State.endAdopted, ← fine_mk, ← State.setNet_fine, ← State.ktnState_fine, ← State.showMid_fine]

theorem State.endActive_fine {s : State} (hs : s.Fine) (n : NetId) : (s.endActive n).Fine := by
  grind [State.endActive, ← fine_mk, ← State.setNet_fine, ← State.ktnState_fine, ← State.loseSync_fine, ← State.showMid_fine]

theorem State.endHoldover_fine {s : State} (hs : s.Fine) (n : NetId) : (s.endHoldover n).Fine := by
  grind [State.endHoldover, ← fine_mk, ← State.setNet_fine, ← State.ktnState_fine, ← State.loseSync_fine, ← State.showMid_fine]

theorem State.noteMembers_fine {s : State} (hs : s.Fine) (n : NetId) : (s.noteMembers n).Fine := by
  grind [State.noteMembers, ← fine_mk, ← State.setNet_fine]

theorem State.review_fine {s : State} (hs : s.Fine) (n : NetId) : (s.review n).Fine := by
  grind [State.review, ← fine_mk, ← State.setNet_fine]

theorem State.recordInaug_fine {s : State} (hs : s.Fine) (n : NetId) (port : Port) (f : KFrame) : (s.recordInaug n port f).Fine
    := by
  grind [State.recordInaug, ← fine_mk, ← State.setNet_fine, ← State.review_fine]

theorem State.expireRecords_fine {s : State} (hs : s.Fine) (n : NetId) : (s.expireRecords n).Fine := by
  grind [State.expireRecords, ← fine_mk, ← State.setNet_fine, ← State.review_fine]

theorem State.setGw_fine {s : State} (hs : s.Fine) (p : PDie) (g : Gallery) : (s.setGw p g).Fine := by
  grind [State.setGw, ← fine_mk, ← State.setPort_fine]

theorem State.setBuf_fine {s : State} (hs : s.Fine) (p : PDie) (b : PduBuf) : (s.setBuf p b).Fine := by
  grind [State.setBuf, ← fine_mk, ← State.setGw_fine]

theorem State.setEngState_fine {s : State} (hs : s.Fine) (p : PDie) (g : Bool) (v : Nat) : (s.setEngState p g v).Fine := by
  grind [State.setEngState, ← State.setFld_fine]

theorem State.setGwQueue_fine {s : State} (hs : s.Fine) (p : PDie) (g : Bool) (q : List (Nat × GwEvent)) : (s.setGwQueue p g
    q).Fine := by
  grind [State.setGwQueue, ← fine_mk, ← State.setGw_fine]

theorem State.setGwWork_fine {s : State} (hs : s.Fine) (p : PDie) (g : Bool) (w : Option (GwEvent × List Nat)) : (s.setGwWork p g
    w).Fine := by
  grind [State.setGwWork, ← fine_mk, ← State.setGw_fine]

theorem State.gaveUp_fine {s : State} (hs : s.Fine) (p : PDie) (g : Bool) (ev : GwEvent) : (s.gaveUp p g ev).Fine := by
  unfold State.gaveUp
  grind [← fine_mk, ← State.raiseP_fine]

theorem State.queueEvent_fine {s : State} (hs : s.Fine) (p : PDie) (g : Bool) (ev : GwEvent) : (s.queueEvent p g ev).1.Fine := by
  grind [State.queueEvent, ← fine_mk, ← State.bump_fine, ← State.setGwQueue_fine, ← State.gaveUp_fine]

theorem State.queueBoth_fine {s : State} (hs : s.Fine) (p : PDie) (ev : GwEvent) : (s.queueBoth p ev).Fine := by
  grind [State.queueBoth, ← State.queueEvent_fine]

theorem State.setStale_fine {s : State} (hs : s.Fine) (p : PDie) (m : SigMap) (v : Bool) : (s.setStale p m v).Fine := by
  grind [State.setStale, ← State.setFlag_fine, ← State.raiseP_fine]

theorem State.exchange_fine {s : State} (hs : s.Fine) (p : PDie) (n : Nat) : (s.exchange p n).Fine := by
  grind [State.exchange, ← fine_mk, ← State.setGw_fine, ← State.setBuf_fine]

theorem State.noteCover_fine {s : State} (hs : s.Fine) (p : PDie) (n vlen : Nat) : (s.noteCover p n vlen).Fine := by
  grind [State.noteCover, ← fine_mk, ← State.setGw_fine]

theorem State.arrived_fine {s : State} (hs : s.Fine) (p : PDie) (n vlen : Nat) : (s.arrived p n vlen).Fine := by
  grind [State.arrived, ← fine_mk, ← State.bump_fine, ← State.setGw_fine, ← State.queueBoth_fine, ← State.exchange_fine,
      ← State.noteCover_fine]

theorem State.pduArrives_fine {s : State} (hs : s.Fine) (p : PDie) (n : Nat) (payload : List Byte) : (s.pduArrives p n
    payload).Fine := by
  grind [State.pduArrives, ← fine_mk, ← State.setBuf_fine, ← State.arrived_fine]

theorem State.publish_fine {s : State} (hs : s.Fine) (p : PDie) (n : Nat) : (s.publish p n).Fine := by
  grind [State.publish, ← State.arrived_fine]

theorem State.swWrite_fine {s : State} (hs : s.Fine) (p : PDie) (n i : Nat) (bs : List Byte) : (s.swWrite p n i bs).Fine := by
  grind [State.swWrite, ← fine_mk, ← State.setBuf_fine]

theorem State.runHeld_fine {s : State} (hs : s.Fine) (p : PDie) (n : Nat) (x0 : List (Nat × Option (Nat × List Byte))) :
    (s.runHeld p n x0).Fine := by
  fun_induction State.runHeld <;> grind [← fine_mk, ← State.setGw_fine, ← State.publish_fine, ← State.swWrite_fine]

theorem State.lateExchange_fine {s : State} (hs : s.Fine) (p : PDie) (n : Nat) : (s.lateExchange p n).Fine := by
  grind [State.lateExchange, ← fine_mk, ← State.setGw_fine, ← State.exchange_fine, ← State.runHeld_fine]

theorem execPduArrival_fine (p : PDie) (pdu : Nat) (payload : List Byte) {s : State} (hs : s.Fine) : FineOut (execPduArrival p
    pdu payload s) := by
  grind [execPduArrival, ← fineOut_next, ← State.pduArrives_fine]

theorem execPduExchange_fine (p : PDie) (pdu : Nat) {s : State} (hs : s.Fine) : FineOut (execPduExchange p pdu s) := by
  grind [execPduExchange, ← fineOut_next, ← State.lateExchange_fine]

theorem State.swDataWrite_fine {s : State} (hs : s.Fine) (k : Strand) (p : PDie) (off size : Nat) (data : Dword) : (s.swDataWrite
    k p off size data).Fine := by
  simp only [State.swDataWrite]
  (repeat' split) <;> grind [← fine_mk, ← State.ignored_fine, ← State.setGw_fine, ← State.swWrite_fine]

theorem execGwSwDataWrite_fine (k : Strand) (p : PDie) (w : RegWrite) {s : State} (hs : s.Fine) : FineOut (execGwSwDataWrite k p
    w s) := by
  grind [execGwSwDataWrite, ← fineOut_next, ← State.atUnit_fine, ← State.swDataWrite_fine]

theorem State.swPub_fine {s : State} (hs : s.Fine) (k : Strand) (p : PDie) (v : Word) : (s.swPub k p v).Fine := by
  grind [State.swPub, ← fine_mk, ← State.ignored_fine, ← State.logRsvd_fine, ← State.setGw_fine, ← State.publish_fine]

theorem execGwSwPub_fine (k : Strand) (p : PDie) (data : Word) {s : State} (hs : s.Fine) : FineOut (execGwSwPub k p data s) := by
  grind [execGwSwPub, ← fineOut_next, ← State.atUnit_fine, ← State.swPub_fine]

theorem State.runMap_fine {s : State} (hs : s.Fine) (p : PDie) (g : Bool) (bs : List Byte) (m : SigMap) : (s.runMap p g bs
    m).1.Fine := by
  grind [State.runMap, ← State.bump_fine, ← State.setStale_fine]

theorem State.runMaps_fine {s : State} (hs : s.Fine) (p : PDie) (g : Bool) (d : Pdu) (back : List Byte) : (s.runMaps p g d
    back).1.Fine := by
  grind [State.runMaps, ← fine_foldl, ← fine_foldl_fst, ← State.runMap_fine]

theorem State.setCan_fine {s : State} (hs : s.Fine) (p : PDie) (second : Bool) (c : CanCtl) : (s.setCan p second c).Fine := by
  grind [State.setCan, ← fine_mk, ← State.setPort_fine]

theorem State.offerCan_fine {s : State} (hs : s.Fine) (p : PDie) (d : Pdu) (front : List Byte) : (s.offerCan p d front).Fine := by
  grind [State.offerCan, ← State.bump_fine, ← State.setCan_fine]

theorem State.settleBufs_fine {s : State} (hs : s.Fine) (p : PDie) : (s.settleBufs p).Fine := by
  grind [State.settleBufs, ← fine_mk, ← State.setGw_fine]

theorem State.endProcessing_fine {s : State} (hs : s.Fine) (p : PDie) (g : Bool) (ev : GwEvent) (n : Nat) : (s.endProcessing p g
    ev n).Fine := by
  unfold State.endProcessing
  grind [← fine_mk, ← State.countOcc_fine, ← State.broadcast_fine, ← State.setBuf_fine, ← State.runMaps_fine,
      ← State.offerCan_fine]

theorem State.beginWork_fine {s : State} (hs : s.Fine) (p : PDie) (g : Bool) (ev : GwEvent) (ds : List Nat) : (s.beginWork p g ev
    ds).Fine := by
  grind [State.beginWork, ← fine_foldl, ← State.setGwWork_fine, ← State.lateExchange_fine]

theorem execGwEventProcess_fine (p : PDie) (second : Bool) {s : State} (hs : s.Fine) : FineOut (execGwEventProcess p second s) :=
    by
  grind [execGwEventProcess, ← fine_mk, ← fineOut_next, ← State.setGwQueue_fine, ← State.setGwWork_fine,
      ← State.endProcessing_fine, ← State.beginWork_fine]

theorem execGwFreshnessScan_fine (p : PDie) (e : Nat) {s : State} (hs : s.Fine) : FineOut (execGwFreshnessScan p e s) := by
  grind [execGwFreshnessScan, ← fineOut_next, ← State.queueEvent_fine]

theorem State.gwStop_fine {s : State} (hs : s.Fine) (p : PDie) (g : Bool) : (s.gwStop p g).Fine := by
  grind [State.gwStop, ← fine_foldl, ← fine_foldl_fst, ← State.logEv_fine, ← State.setEngState_fine, ← State.setGwQueue_fine,
      ← State.setGwWork_fine, ← State.setStale_fine]

theorem execGwEcc_fine (p : PDie) (corrected eng0 eng1 : Bool) {s : State} (hs : s.Fine) : FineOut (execGwEcc p corrected eng0
    eng1 s) := by
  grind [execGwEcc, ← fineOut_next, ← State.bump_fine, ← State.gwStop_fine]

theorem State.gwRingFrame_fine {s : State} (hs : s.Fine) (p : PDie) (ring : Nat) (start : Dword) : (s.gwRingFrame p ring
    start).1.Fine := by
  grind [State.gwRingFrame, ← fine_mk, ← State.setBuf_fine]

theorem State.commitResult_fine {s : State} (hs : s.Fine) (u : RUnit) (off res : Nat) : (s.commitResult u off res).Fine := by
  grind [State.commitResult, ← State.setFld_fine, ← State.setFlag_fine]

theorem State.gwGo_fine {s : State} (hs : s.Fine) (p : PDie) : (s.gwGo p).Fine := by
  grind [State.gwGo, ← fine_mk, ← State.setFlag_fine, ← State.ignored_fine, ← State.commitResult_fine]

theorem execGwCommitGo_fine (p : PDie) {s : State} (hs : s.Fine) : FineOut (execGwCommitGo p s) := by
  grind [execGwCommitGo, ← fineOut_next, ← State.gwGo_fine]

theorem State.copyRegs_fine {s : State} (hs : s.Fine) (u : RUnit) (src dst size : Nat) : (s.copyRegs u src dst size).Fine :=
  fine_set hs u (cellPutAll_wf _ (memClear_wf _ _ (hs.files u)))

theorem State.gwTakeEffect_fine {s : State} (hs : s.Fine) (p : PDie) : (s.gwTakeEffect p).Fine := by
  have hstale (t : State) (ht : t.Fine) :
      ((List.range 128).foldl (fun t i => t.setReg p.unit (Reg.gwStale i) 0) t).Fine :=
    fine_foldl ht (fun t i ht => State.setReg_fine ht ..) _
  have hmaps (t : State) (ht : t.Fine) : ((t.allMaps p).foldl (fun t x =>
      t.setFlag p.unit (Reg.gwStale (x.2.num / 32)) (x.2.num % 32) true) t).Fine :=
    fine_foldl ht (fun t x ht => State.setFlag_fine ht ..) _
  have hcopied (a b c d e f g h i : Nat) : (((s.copyRegs p.unit a b c).copyRegs p.unit d e f).copyRegs p.unit g h i).Fine :=
    State.copyRegs_fine (State.copyRegs_fine (State.copyRegs_fine hs ..) ..) ..
  simp only [State.gwTakeEffect]
  split
  · exact hs
  · exact State.commitResult_fine (State.setEngState_fine (State.setEngState_fine (hmaps _ (hstale _ (State.setGw_fine
      (State.copyRegs_fine (State.copyRegs_fine (hcopied ..) ..) ..) ..))) ..) ..) ..

theorem execGwCommitTakeEffect_fine (p : PDie) {s : State} (hs : s.Fine) : FineOut (execGwCommitTakeEffect p s) := by
  grind [execGwCommitTakeEffect, ← fineOut_next, ← State.gwTakeEffect_fine]

theorem State.setCanState_fine {s : State} (hs : s.Fine) (p : PDie) (second : Bool) (v : Nat) : (s.setCanState p second v).Fine
    := by
  grind [State.setCanState, ← State.setFld_fine]

theorem State.raiseCstat_fine {s : State} (hs : s.Fine) (p : PDie) (second : Bool) : (s.raiseCstat p second).Fine := by
  grind [State.raiseCstat, ← State.raiseP_fine]

theorem State.writeCanMode_fine {s : State} (hs : s.Fine) (p : PDie) (second : Bool) (code : Nat) : (s.writeCanMode p second
    code).Fine := by
  grind [State.writeCanMode, ← State.setFld_fine, ← State.setFlag_fine, ← State.setCanState_fine]

theorem State.startRecovery_fine {s : State} (hs : s.Fine) (p : PDie) (second : Bool) : (s.startRecovery p second).Fine := by
  grind [State.startRecovery, ← State.setCanState_fine]

theorem State.canCtlWrite_fine {s : State} (hs : s.Fine) (m : Master) (p : PDie) (second : Bool) (v : Word) : (s.canCtlWrite m p
    second v).Fine := by
  grind [State.canCtlWrite, ← State.ignored_fine, ← State.logRsvd_fine, ← State.writeCanMode_fine, ← State.startRecovery_fine]

theorem execCanModeWrite_fine (m : Master) (p : PDie) (second : Bool) (data : Word) {s : State} (hs : s.Fine) : FineOut
    (execCanModeWrite m p second data s) := by
  grind [execCanModeWrite, ← fineOut_next, ← State.atUnit_fine, ← State.canCtlWrite_fine]

theorem execRecover_fine (m : Master) (p : PDie) (second : Bool) {s : State} (hs : s.Fine) : FineOut (execRecover m p second s)
    := by
  grind [execRecover, ← fineOut_next, ← State.atUnit_fine, ← State.canCtlWrite_fine]

theorem execCanRecoveryDone_fine (p : PDie) (second : Bool) {s : State} (hs : s.Fine) : FineOut (execCanRecoveryDone p second s)
    := by
  grind [execCanRecoveryDone, ← fineOut_next, ← State.setFld_fine, ← State.setCanState_fine, ← State.raiseCstat_fine]

theorem State.canErrors_fine {s : State} (hs : s.Fine) (p : PDie) (second : Bool) (tec rec : Nat) : (s.canErrors p second tec
    rec).Fine := by
  unfold State.canErrors
  grind [← State.setFld_fine, ← State.bumpBy_fine, ← State.bump_fine, ← State.useFree_fine, ← State.setCan_fine,
      ← State.setCanState_fine, ← State.raiseCstat_fine]

theorem State.canRoute_fine {s : State} (hs : s.Fine) (p : PDie) (second : Bool) (f : CanFrame) (time : Dword) (ue : Bool) :
    (s.canRoute p second f time ue).Fine := by
  grind [State.canRoute, ← fine_mk, ← State.bump_fine, ← State.rxDeliver_fine, ← State.pduArrives_fine]

theorem execCanFrameReceive_fine (p : PDie) (second : Bool) (e : CanRxEnd) {s : State} (hs : s.Fine) : FineOut
    (execCanFrameReceive p second e s) := by
  unfold execCanFrameReceive
  grind [← fine_mk, ← fineOut_next, ← State.setFld_fine, ← State.useFree_fine, ← State.canErrors_fine, ← State.canRoute_fine]

theorem State.canSent_fine {s : State} (hs : s.Fine) (p : PDie) (second : Bool) (c : CanCandidate) (time : Dword) : (s.canSent p
    second c time).Fine := by
  unfold State.canSent
  grind [← fine_mk, ← State.mapAct_fine, ← State.endAct_fine, ← State.setCan_fine]

theorem State.canEcc_fine {s : State} (hs : s.Fine) (p : PDie) (second : Bool) (c : CanCandidate) : (s.canEcc p second c).Fine :=
    by
  unfold State.canEcc
  grind [← fine_mk, ← State.endAct_fine]

theorem execCanTransmit_fine (p : PDie) (second : Bool) (e : CanTxEnd) {s : State} (hs : s.Fine) : FineOut (execCanTransmit p
    second e s) := by
  unfold execCanTransmit
  grind [← fine_mk, ← fineOut_next, ← State.setFld_fine, ← State.canErrors_fine, ← State.canSent_fine, ← State.canEcc_fine]

theorem State.setRrTag_fine {s : State} (hs : s.Fine) (p : PDie) (k : Strand) (t : RrTag) : (s.setRrTag p k t).Fine := by
  grind [State.setRrTag, ← fine_mk, ← State.setFld_fine, ← State.setPort_fine]

theorem State.storeRr_fine {s : State} (hs : s.Fine) (p : PDie) (k : Strand) (n status : Nat) (data : List Byte) : (s.storeRr p k
    n status data).Fine := by
  grind [State.storeRr, ← fine_mk, ← State.raiseP_fine, ← State.setRrTag_fine]

theorem State.queueMg_fine {s : State} (hs : s.Fine) (p : PDie) (f : MgFrame) : (s.queueMg p f).Fine := by
  grind [State.queueMg, ← fine_mk, ← State.setPort_fine]

theorem State.rrAsk_fine {s : State} (hs : s.Fine) (p : PDie) (k : Strand) (lo hi : Word) : (s.rrAsk p k lo hi).Fine := by
  grind [State.rrAsk, ← State.bump_fine, ← State.setRrTag_fine, ← State.storeRr_fine, ← State.queueMg_fine]

theorem execRrRequest_fine (k : Strand) (p : PDie) (lo hi : Word) {s : State} (hs : s.Fine) : FineOut (execRrRequest k p lo hi s)
    := by
  grind [execRrRequest, ← fineOut_next, ← State.atUnit_fine, ← State.logRsvd_fine, ← State.rrAsk_fine]

end Sys2Proof.Machine
end

-- ==== Proofs: register spaces, remote reads, triggers and the frames of a channel (O4) ====
section
/-! Remote reads, timestamps and triggers, mode changes, and how frames are sent, forwarded and received. -/

namespace Sys2Proof.Machine

set_option Elab.async false

theorem execRrServe_fine (p : PDie) {s : State} (hs : s.Fine) : FineOut (execRrServe p s) := by
  grind [execRrServe, ← fine_mk, ← fineOut_next, ← State.setPort_fine]

theorem State.rrResponse_fine {s : State} (hs : s.Fine) (p : PDie) (f : RrFrame) : (s.rrResponse p f).Fine := by
  grind [State.rrResponse, ← State.bump_fine, ← State.storeRr_fine]

theorem State.rrTake_fine {s : State} (hs : s.Fine) (p : PDie) (sender : Byte) (bs : List Byte) : (s.rrTake p sender bs).Fine :=
    by
  grind [State.rrTake, ← State.queueMg_fine, ← State.rrResponse_fine]

theorem execRrResponseReceive_fine (p : PDie) (payload : List Byte) {s : State} (hs : s.Fine) : FineOut (execRrResponseReceive p
    payload s) := by
  grind [execRrResponseReceive, ← fineOut_next, ← State.rrTake_fine]

theorem State.rrSent_fine {s : State} (hs : s.Fine) (p : PDie) (m : MgFrame) : (s.rrSent p m).Fine := by
  grind [State.rrSent, ← fine_mk, ← fine_foldl, ← State.setRrTag_fine]

theorem execRrTimeout_fine (p : PDie) (k : Strand) (tag : Nat) {s : State} (hs : s.Fine) : FineOut (execRrTimeout p k tag s) := by
  grind [execRrTimeout, ← fineOut_next, ← State.storeRr_fine]

theorem State.rrFree_fine {s : State} (hs : s.Fine) (p : PDie) (k : Strand) (v : Word) : (s.rrFree p k v).Fine := by
  grind [State.rrFree, ← fine_mk, ← State.setPort_fine, ← State.logRsvd_fine, ← State.setRrTag_fine]

theorem execRrFree_fine (k : Strand) (p : PDie) (data : Word) {s : State} (hs : s.Fine) : FineOut (execRrFree k p data s) := by
  grind [execRrFree, ← fineOut_next, ← State.atUnit_fine, ← State.rrFree_fine]

theorem execRrDiscard_fine (p : PDie) (k : Strand) (tag : Nat) {s : State} (hs : s.Fine) : FineOut (execRrDiscard p k tag s) := by
  grind [execRrDiscard, ← fine_mk, ← fineOut_next, ← State.bump_fine, ← State.setRrTag_fine]

theorem State.setTsq_fine {s : State} (hs : s.Fine) (p : PDie) (q : Port) (es : List TsqEntry) : (s.setTsq p q es).Fine := by
  grind [State.setTsq, ← fine_mk, ← State.setPort_fine]

theorem State.pushTsq_fine {s : State} (hs : s.Fine) (p : PDie) (q : Port) (e : TsqEntry) : (s.pushTsq p q e).Fine := by
  grind [State.pushTsq, ← State.bump_fine, ← State.raiseP_fine, ← State.setTsq_fine]

theorem State.tsqPop_fine {s : State} (hs : s.Fine) (m : Master) (p : PDie) (q : Port) : (s.tsqPop m p q).1.Fine := by
  grind [State.tsqPop, ← fine_mk, ← State.setReg64_fine, ← State.setTsq_fine]

theorem execTsqPop_fine (m : Master) (p : PDie) (port : Port) {s : State} (hs : s.Fine) : FineOut (execTsqPop m p port s) := by
  grind [execTsqPop, ← fineOut_next, ← State.atUnit_fine, ← State.tsqPop_fine]

theorem State.trigAdvance_fine {s : State} (hs : s.Fine) (p : PDie) (t : Nat) : (s.trigAdvance p t).Fine := by
  grind [State.trigAdvance, ← fine_mk, ← State.setFlag_fine, ← State.bumpBy_fine, ← State.setReg64_fine, ← State.setPort_fine]

theorem State.trigAction_fine {s : State} (hs : s.Fine) (p : PDie) (t : Nat) : (s.trigAction p t).Fine := by
  grind [State.trigAction, ← fine_mk, ← State.setPort_fine]

theorem State.trigEffect_fine {s : State} (hs : s.Fine) (p : PDie) (t : Nat) : (s.trigEffect p t).Fine := by
  grind [State.trigEffect, ← fine_mk, ← State.raiseP_fine, ← State.setGw_fine, ← State.queueEvent_fine, ← State.trigAction_fine]

theorem State.trigPaid_fine {s : State} (hs : s.Fine) (p : PDie) (t : Nat) : (s.trigPaid p t).Fine := by
  grind [State.trigPaid, ← fine_mk, ← State.setPort_fine]

theorem State.fireTrigger_fine {s : State} (hs : s.Fine) (p : PDie) (t : Nat) : (s.fireTrigger p t).Fine := by
  grind [State.fireTrigger, ← State.trigAdvance_fine, ← State.trigEffect_fine, ← State.trigPaid_fine]

theorem State.trigStep_fine {s : State} (hs : s.Fine) (p : PDie) : (s.trigStep p).Fine := by
  grind [State.trigStep, ← fine_mk, ← fine_foldl, ← State.setPort_fine, ← State.trigAdvance_fine, ← State.trigPaid_fine]

theorem State.trigReturn_fine {s : State} (hs : s.Fine) (p : PDie) : (s.trigReturn p).Fine := by
  grind [State.trigReturn, ← fine_foldl, ← State.trigEffect_fine, ← State.trigPaid_fine, ← State.fireTrigger_fine]

theorem execTriggerFire_fine (p : PDie) (t : Nat) {s : State} (hs : s.Fine) : FineOut (execTriggerFire p t s) := by
  grind [execTriggerFire, ← fineOut_next, ← State.fireTrigger_fine]

theorem execCaptureEdge_fine (p : PDie) (c : Nat) (e : Edge) {s : State} (hs : s.Fine) : FineOut (execCaptureEdge p c e s) := by
  grind [execCaptureEdge, ← fineOut_next, ← State.setFlag_fine, ← State.setReg64_fine, ← State.raiseP_fine]

theorem State.noteLate_fine {s : State} (hs : s.Fine) (p : PDie) (t : Nat) : (s.noteLate p t).Fine := by
  grind [State.noteLate, ← fine_mk, ← State.setPort_fine]

theorem State.unitWrite_fine {s : State} (hs : s.Fine) (m : Master) (p : PDie) (off : Nat) (d : RegDesc) (is : List Nat) (mask
    data : Word) (wide : Bool) : (s.unitWrite m p off d is mask data wide).Fine := by
  grind [State.unitWrite, ← fine_mk, ← State.setPort_fine, ← State.ignored_fine, ← State.plainWrite_fine,
      ← State.fireTrigger_fine, ← State.noteLate_fine]

theorem State.unitWriteAll_fine {s : State} (hs : s.Fine) (m : Master) (p : PDie) (off size : Nat) (data : Dword) :
    (s.unitWriteAll m p off size data).Fine := by
  grind [State.unitWriteAll, ← fine_mk, ← fine_foldl, ← fine_foldl_fst, ← State.ignored_fine, ← State.logRsvd_fine,
      ← State.plainWrite_fine, ← State.unitWrite_fine]

theorem execTriggerWrite_fine (m : Master) (p : PDie) (w : RegWrite) {s : State} (hs : s.Fine) : FineOut (execTriggerWrite m p w
    s) := by
  grind [execTriggerWrite, ← fineOut_next, ← State.atUnit_fine, ← State.unitWriteAll_fine]

theorem State.setWerrQueue_fine {s : State} (hs : s.Fine) (d : Die) (q : Nat) (rs : List WerrRec) : (s.setWerrQueue d q rs).Fine
    := by
  grind [State.setWerrQueue, ← fine_mk, ← State.setConsumer_fine]

theorem State.werrPop_fine {s : State} (hs : s.Fine) (m : Master) (d : Die) (q : Nat) : (s.werrPop m d q).1.Fine := by
  unfold State.werrPop
  grind [← fine_mk, ← State.setReg_fine, ← State.setWerrQueue_fine]

theorem execWerrPop_fine (m : Master) (d : Die) (q : Nat) {s : State} (hs : s.Fine) : FineOut (execWerrPop m d q s) := by
  grind [execWerrPop, ← fineOut_next, ← State.atUnit_fine, ← State.werrPop_fine]

theorem State.logP_fine {s : State} (hs : s.Fine) (p : PDie) (c : LogCode) (arg : List Nat) : (s.logP p c arg).Fine := by
  grind [State.logP, ← State.logEv_fine]

theorem State.netLink_fine {s : State} (hs : s.Fine) (n : NetId) (q : Port) (up : Bool) : (s.netLink n q up).Fine := by
  grind [State.netLink, ← State.setNet_fine, ← State.review_fine]

theorem execPortLinkChange_fine (p : PDie) (port : Port) (up : Bool) {s : State} (hs : s.Fine) : FineOut (execPortLinkChange p
    port up s) := by
  grind [execPortLinkChange, ← fineOut_next, ← State.netLink_fine]

theorem State.setStatusWord_fine {s : State} (hs : s.Fine) (p : PDie) (w : Half) : (s.setStatusWord p w).Fine := by
  grind [State.setStatusWord, ← State.setReg_fine]

theorem State.setModeResult_fine {s : State} (hs : s.Fine) (p : PDie) (r : Nat) : (s.setModeResult p r).Fine := by
  grind [State.setModeResult, ← State.setFld_fine]

theorem State.beginCycle_fine {s : State} (hs : s.Fine) (p : PDie) : (s.beginCycle p).Fine := by
  grind [State.beginCycle, ← fine_mk, ← State.setPort_fine, ← State.setStatusWord_fine]

theorem State.judgeRequest_fine {s : State} (hs : s.Fine) (p : PDie) (due : Option ModeChange) : (s.judgeRequest p due).Fine := by
  grind [State.judgeRequest, ← fine_mk, ← State.setPort_fine, ← State.setModeResult_fine]

theorem State.nextCycle_fine {s : State} (hs : s.Fine) (p : PDie) : (s.nextCycle p).Fine := by
  grind [State.nextCycle, ← fine_mk, ← State.raisePAll_fine, ← State.setNet_fine, ← State.beginCycle_fine,
      ← State.judgeRequest_fine]

theorem State.modeReqWrite_fine {s : State} (hs : s.Fine) (p : PDie) (v : Word) : (s.modeReqWrite p v).Fine := by
  grind [State.modeReqWrite, ← fine_mk, ← State.setPort_fine, ← State.setModeResult_fine]

theorem execModeRequest_fine (p : PDie) (k : Strand) (data : Word) {s : State} (hs : s.Fine) : FineOut (execModeRequest p k data
    s) := by
  grind [execModeRequest, ← fineOut_next, ← State.atUnit_fine, ← State.logRsvd_fine, ← State.modeReqWrite_fine]

theorem State.takeModeReq_fine {s : State} (hs : s.Fine) (p : PDie) (f : KFrame) : (s.takeModeReq p f).Fine := by
  grind [State.takeModeReq, ← fine_mk, ← State.setNet_fine]

theorem execModeReqReceive_fine (p : PDie) (f : KFrame) {s : State} (hs : s.Fine) : FineOut (execModeReqReceive p f s) := by
  grind [execModeReqReceive, ← fineOut_next, ← State.takeModeReq_fine]

theorem State.expireChange_fine {s : State} (hs : s.Fine) (p : PDie) : (s.expireChange p).Fine := by
  grind [State.expireChange, ← fine_mk, ← State.setNet_fine, ← State.logP_fine]

theorem State.expireOwn_fine {s : State} (hs : s.Fine) (p : PDie) : (s.expireOwn p).Fine := by
  grind [State.expireOwn, ← fine_mk, ← State.setPort_fine, ← State.logP_fine]

theorem execModeExpired_fine (p : PDie) {s : State} (hs : s.Fine) : FineOut (execModeExpired p s) := by
  grind [execModeExpired, ← fineOut_next, ← State.expireChange_fine, ← State.expireOwn_fine]

theorem State.noteCollision_fine {s : State} (hs : s.Fine) (p : PDie) (hit : Bool) : (s.noteCollision p hit).Fine := by
  grind [State.noteCollision, ← fine_mk, ← State.setPort_fine]

theorem State.truncate_fine {s : State} (hs : s.Fine) (p : PDie) (q : Port) (t : Dword) : (s.truncate p q t).Fine := by
  grind [State.truncate, ← fine_mk, ← State.bump_fine, ← State.setPort_fine]

theorem State.putLine_fine {s : State} (hs : s.Fine) (p : PDie) (q : Port) (f : KFrame) (start : Dword) : (s.putLine p q f
    start).Fine := by
  grind [State.putLine, ← fine_mk, ← State.setPort_fine]

theorem State.sendOwn_fine {s : State} (hs : s.Fine) (p : PDie) (sl : Slot) (cut : WE Bool) (o : OwnFrame) : (s.sendOwn p sl cut
    o).Fine := by
  grind [State.sendOwn, ← fine_foldl, ← State.truncate_fine, ← State.putLine_fine]

theorem State.oversize_fine {s : State} (hs : s.Fine) (p : PDie) : (s.oversize p).Fine := by
  grind [State.oversize, ← State.bump_fine]

theorem State.spoilLines_fine {s : State} (hs : s.Fine) (p : PDie) : (s.spoilLines p).Fine := by
  grind [State.spoilLines, ← fine_mk, ← fine_foldl, ← State.setPort_fine]

theorem State.sendRing_fine {s : State} (hs : s.Fine) (p : PDie) (sl : Slot) (cut : WE Bool) (kind : BitVec 3) (a : Act) (ue :
    Bool) : (s.sendRing p sl cut kind a ue).Fine := by
  grind [State.sendRing, ← fine_mk, ← fine_foldl, ← State.useFree_fine, ← State.mapAct_fine, ← State.endAct_fine,
      ← State.pushTsq_fine, ← State.sendOwn_fine, ← State.spoilLines_fine]

theorem State.sendFromRing_fine {s : State} (hs : s.Fine) (p : PDie) (sl : Slot) (cut : WE Bool) (kind : BitVec 3) (ue : Bool) :
    (s.sendFromRing p sl cut kind ue).Fine := by
  grind [State.sendFromRing, ← fine_mk, ← State.endAct_fine, ← State.gwRingFrame_fine, ← State.sendOwn_fine,
      ← State.oversize_fine, ← State.sendRing_fine]

theorem State.sendModeReq_fine {s : State} (hs : s.Fine) (p : PDie) (sl : Slot) (cut : WE Bool) (d : DueRequest) : (s.sendModeReq
    p sl cut d).Fine := by
  grind [State.sendModeReq, ← fine_mk, ← State.setPort_fine, ← State.setNet_fine, ← State.setModeResult_fine,
      ← State.sendOwn_fine]

theorem State.noteOwnSync_fine {s : State} (hs : s.Fine) (p : PDie) (f : KFrame) : (s.noteOwnSync p f).Fine := by
  grind [State.noteOwnSync, ← fine_mk, ← State.setNet_fine]

theorem State.sendMg_fine {s : State} (hs : s.Fine) (p : PDie) (sl : Slot) (cut : WE Bool) : (s.sendMg p sl cut).Fine := by
  grind [State.sendMg, ← fine_mk, ← State.setPort_fine, ← State.rrSent_fine, ← State.sendOwn_fine, ← State.oversize_fine]

theorem State.sendActive_fine {s : State} (hs : s.Fine) (p : PDie) (sl : Slot) (cut : WE Bool) (ue : Bool) : (s.sendActive p sl
    cut ue).Fine := by
  grind [State.sendActive, ← fine_mk, ← State.noteCollision_fine, ← State.sendOwn_fine, ← State.oversize_fine,
      ← State.sendFromRing_fine, ← State.sendModeReq_fine, ← State.noteOwnSync_fine, ← State.sendMg_fine]

theorem State.sendCold_fine {s : State} (hs : s.Fine) (p : PDie) (sl : Slot) (cut : WE Bool) : (s.sendCold p sl cut).Fine := by
  grind [State.sendCold, ← State.sendOwn_fine]

theorem execOwnFrameSend_fine (p : PDie) (slot : Nat) (ue : Bool) {s : State} (hs : s.Fine) : FineOut (execOwnFrameSend p slot ue
    s) := by
  grind [execOwnFrameSend, ← fine_mk, ← fineOut_next, ← State.sendActive_fine, ← State.sendCold_fine]

theorem State.takeLinkFrame_fine {s : State} (hs : s.Fine) (n : NetId) (q : Port) (f : LinkDelayFrame) (tRx : Dword) :
    (s.takeLinkFrame n q f tRx).1.Fine := by
  grind [State.takeLinkFrame, ← fine_mk, ← State.setNet_fine]

theorem State.linkReject_fine {s : State} (hs : s.Fine) (p : PDie) (q : Port) : (s.linkReject p q).Fine := by
  grind [State.linkReject, ← State.bump_fine]

theorem State.linkIn_fine {s : State} (hs : s.Fine) (p : PDie) (port : Port) (f : LinkDelayFrame) (tRx : Dword) : (s.linkIn p
    port f tRx).Fine := by
  grind [State.linkIn, ← fine_mk, ← State.setPort_fine, ← State.takeLinkFrame_fine, ← State.linkReject_fine]

theorem State.linkTaken_fine {s : State} (hs : s.Fine) (p : PDie) (port : Port) (f : LinkDelayFrame) (ago : Nat) : (s.linkTaken p
    port f ago).Fine := by
  grind [State.linkTaken, ← State.takeLinkFrame_fine, ← State.linkIn_fine]

theorem State.dropForward_fine {s : State} (hs : s.Fine) (p : PDie) (q : Port) : (s.dropForward p q).Fine := by
  grind [State.dropForward, ← fine_mk, ← State.bump_fine, ← State.noteCollision_fine]

theorem State.passOn_fine {s : State} (hs : s.Fine) (p : PDie) (port : Port) (f : KFrame) (tRx : Dword) (residence : Nat) :
    (s.passOn p port f tRx residence).Fine := by
  grind [State.passOn, ← fine_mk, ← State.setPort_fine, ← State.dropForward_fine]

theorem execFrameForward_fine (p : PDie) (port : Port) (f : KFrame) (ago : Nat) (residence : Nat) {s : State} (hs : s.Fine) :
    FineOut (execFrameForward p port f ago residence s) := by
  unfold execFrameForward
  split <;> grind [← fineOut_next, ← State.bump_fine, ← State.passOn_fine]

theorem State.deliverFrame_fine {s : State} (hs : s.Fine) (p : PDie) (port : Port) (f : KFrame) (tRx : Dword) (sl : Slot) (ue :
    Bool) : (s.deliverFrame p port f tRx sl ue).Fine := by
  grind [State.deliverFrame, ← fine_mk, ← State.setPort_fine, ← State.rxDeliver_fine, ← State.pduArrives_fine,
      ← State.rrTake_fine]

theorem State.checkConflict_fine {s : State} (hs : s.Fine) (p : PDie) (f : KFrame) : (s.checkConflict p f).Fine := by
  grind [State.checkConflict, ← fine_mk, ← State.bump_fine, ← State.setNet_fine, ← State.logP_fine]

theorem State.checkSched_fine {s : State} (hs : s.Fine) (p : PDie) (f : KFrame) : (s.checkSched p f).Fine := by
  grind [State.checkSched, ← State.bump_fine]

theorem State.acceptFrame_fine {s : State} (hs : s.Fine) (p : PDie) (w : WaitCopy) (P : Int) (sl : Slot) : (s.acceptFrame p w P
    sl).Fine := by
  grind [State.acceptFrame, ← State.useTiming_fine, ← State.recordInaug_fine, ← State.takeModeReq_fine,
      ← State.deliverFrame_fine, ← State.checkSched_fine]

theorem State.follows_fine {s : State} (hs : s.Fine) (p : PDie) (port : Port) (f : KFrame) (tRx : Dword) : (s.follows p port f
    tRx).Fine := by
  grind [State.follows, ← State.setNet_fine, ← State.ktnState_fine]

theorem State.earlyUse_fine {s : State} (hs : s.Fine) (p : PDie) (w : WaitCopy) : (s.earlyUse p w).Fine := by
  grind [State.earlyUse, ← fine_mk, ← State.integrateFrame_fine, ← State.trigStep_fine, ← State.follows_fine]

theorem State.slotUse_fine {s : State} (hs : s.Fine) (p : PDie) (w : WaitCopy) : (s.slotUse p w).Fine := by
  grind [State.slotUse, ← fine_mk, ← State.acceptFrame_fine]

theorem State.copyUse_fine {s : State} (hs : s.Fine) (p : PDie) (w : WaitCopy) : (s.copyUse p w).Fine := by
  grind [State.copyUse, ← fine_mk, ← State.adoptedUse_fine, ← State.earlyUse_fine, ← State.slotUse_fine]

theorem State.copyOffer_fine {s : State} (hs : s.Fine) (p : PDie) (key : Nat) (port : Port) (f : KFrame) (tRx : Dword) (ue :
    Bool) : (s.copyOffer p key port f tRx ue).1.Fine := by
  grind [State.copyOffer, ← State.offer_fine, ← State.copyUse_fine]

theorem State.copySettle_fine {s : State} (hs : s.Fine) (p : PDie) : (s.copySettle p).Fine := by
  grind [State.copySettle, ← State.settle_fine, ← State.copyUse_fine]

theorem State.noteForeign_fine {s : State} (hs : s.Fine) (n : NetId) (f : KFrame) : (s.noteForeign n f).Fine := by
  grind [State.noteForeign, ← State.foreignSync_fine]

theorem State.frameActive_fine {s : State} (hs : s.Fine) (p : PDie) (port : Port) (f : KFrame) (tRx : Dword) (ue : Bool) :
    (s.frameActive p port f tRx ue).Fine := by
  grind [State.frameActive, ← fine_mk, ← State.bump_fine, ← State.noteHeard_fine, ← State.copyOffer_fine,
      ← State.noteForeign_fine]

theorem State.frameAdopted_fine {s : State} (hs : s.Fine) (p : PDie) (port : Port) (f : KFrame) (tRx : Dword) (ue : Bool) :
    (s.frameAdopted p port f tRx ue).Fine := by
  grind [State.frameAdopted, ← fine_mk, ← State.setNet_fine, ← State.noteHeard_fine, ← State.copyOffer_fine]

theorem State.frameIn_fine {s : State} (hs : s.Fine) (p : PDie) (port : Port) (f : KFrame) (tRx : Dword) (ue : Bool) : (s.frameIn
    p port f tRx ue).Fine := by
  grind [State.frameIn, ← fine_mk, ← State.offerEarly_fine, ← State.copyUse_fine, ← State.frameActive_fine,
      ← State.frameAdopted_fine]

theorem State.corrupted_fine {s : State} (hs : s.Fine) (p : PDie) : (s.corrupted p).Fine := by
  grind [State.corrupted, ← fine_mk, ← State.setNet_fine, ← State.ktnState_fine]

theorem execFrameReceive_fine (p : PDie) (port : Port) (f : KFrame) (ago : Nat) (ue : Bool) {s : State} (hs : s.Fine) : FineOut
    (execFrameReceive p port f ago ue s) := by
  unfold execFrameReceive
  (repeat' split) <;> grind [← fine_mk, ← fineOut_next, ← State.bump_fine, ← State.setPort_fine, ← State.linkTaken_fine,
      ← State.checkConflict_fine, ← State.frameIn_fine, ← State.corrupted_fine]

theorem execCycleStart_fine (p : PDie) {s : State} (hs : s.Fine) : FineOut (execCycleStart p s) := by
  grind [execCycleStart, ← fineOut_next, ← State.nextCycle_fine, ← State.copySettle_fine]

theorem State.coldStart_fine {s : State} (hs : s.Fine) (p : PDie) : (s.coldStart p).Fine := by
  grind [State.coldStart, ← State.setNet_fine, ← State.ktnState_fine, ← State.trigStep_fine, ← State.beginCycle_fine]

theorem execListenTimeout_fine (p : PDie) {s : State} (hs : s.Fine) : FineOut (execListenTimeout p s) := by
  grind [execListenTimeout, ← fine_mk, ← fineOut_next, ← State.setNet_fine, ← State.ktnState_fine, ← State.coldStart_fine]

theorem execBackoffExpire_fine (p : PDie) {s : State} (hs : s.Fine) : FineOut (execBackoffExpire p s) := by
  grind [execBackoffExpire, ← fineOut_next, ← State.coldStart_fine]

theorem execIdConflictClear_fine (p : PDie) {s : State} (hs : s.Fine) : FineOut (execIdConflictClear p s) := by
  grind [execIdConflictClear, ← fine_mk, ← fineOut_next, ← State.setNet_fine]

theorem execInaugRecordExpire_fine (p : PDie) {s : State} (hs : s.Fine) : FineOut (execInaugRecordExpire p s) := by
  grind [execInaugRecordExpire, ← fineOut_next, ← State.expireRecords_fine]

theorem State.settleView_fine {s : State} (hs : s.Fine) (p : PDie) : (s.settleView p).Fine := by
  grind [State.settleView, ← fine_mk, ← State.setNet_fine, ← State.ktnState_fine, ← State.logP_fine]

theorem State.settleGuardView_fine {s : State} (hs : s.Fine) (p : PDie) : (s.settleGuardView p).Fine := by
  grind [State.settleGuardView, ← fine_mk, ← State.setGuard_fine, ← State.setNet_fine]

theorem execInaugViewStable_fine (p : PDie) {s : State} (hs : s.Fine) : FineOut (execInaugViewStable p s) := by
  grind [execInaugViewStable, ← fineOut_next, ← State.settleView_fine, ← State.settleGuardView_fine]

end Sys2Proof.Machine
end

-- ==== Proofs: register spaces, cycle ends, link delays, tables and field I/O (O4) ====
section
/-! Ends of cycles, path and link delays, table commits, outputs, samples and conversions of the field die, and what a guardian
hears. -/

namespace Sys2Proof.Machine

set_option Elab.async false

theorem State.endColdStart_fine {s : State} (hs : s.Fine) (n : NetId) : (s.endColdStart n).Fine := by
  grind [State.endColdStart, ← fine_mk, ← State.setNet_fine, ← State.ktnState_fine]

theorem State.endCycle_fine {s : State} (hs : s.Fine) (p : PDie) : (s.endCycle p).Fine := by
  grind [State.endCycle, ← fine_mk, ← State.endAdopted_fine, ← State.endActive_fine, ← State.endHoldover_fine,
      ← State.noteMembers_fine, ← State.endColdStart_fine]

theorem execCycleEndSync_fine (p : PDie) {s : State} (hs : s.Fine) : FineOut (execCycleEndSync p s) := by
  grind [execCycleEndSync, ← fineOut_next, ← State.trigReturn_fine, ← State.copySettle_fine, ← State.endCycle_fine]

theorem execHoldoverExpire_fine (p : PDie) {s : State} (hs : s.Fine) : FineOut (execHoldoverExpire p s) := by
  grind [execHoldoverExpire, ← fineOut_next, ← State.loseSync_fine]

theorem State.undrop_fine {s : State} (hs : s.Fine) (n : NetId) (node : Nat) : (s.undrop n node).Fine := by
  grind [State.undrop, ← fine_mk, ← State.setNet_fine]

theorem execPathDropExpire_fine (p : PDie) (node : Byte) {s : State} (hs : s.Fine) : FineOut (execPathDropExpire p node s) := by
  grind [execPathDropExpire, ← fineOut_next, ← State.undrop_fine]

theorem State.noteLinkSent_fine {s : State} (hs : s.Fine) (n : NetId) (q : Port) (tx : Dword) : (s.noteLinkSent n q tx).Fine := by
  grind [State.noteLinkSent, ← fine_mk, ← State.setNet_fine]

theorem State.sendLink_fine {s : State} (hs : s.Fine) (p : PDie) (q : Port) : (s.sendLink p q).Fine := by
  unfold State.sendLink
  grind [← fine_mk, ← State.setPort_fine, ← State.useFree_fine, ← State.setNet_fine, ← State.noteLinkSent_fine]

theorem execLinkDelaySend_fine (p : PDie) {s : State} (hs : s.Fine) : FineOut (execLinkDelaySend p s) := by
  grind [execLinkDelaySend, ← fine_mk, ← fine_foldl, ← fineOut_next, ← State.setPort_fine, ← State.sendLink_fine]

theorem execLinkDelayReceive_fine (p : PDie) (port : Port) (f : LinkDelayFrame) (ago : Nat) {s : State} (hs : s.Fine) : FineOut
    (execLinkDelayReceive p port f ago s) := by
  grind [execLinkDelayReceive, ← fineOut_next, ← State.linkTaken_fine]

theorem State.mapLink_fine {s : State} (hs : s.Fine) (n : NetId) (q : Port) (f : LinkState → LinkState) : (s.mapLink n q f).Fine
    := by
  grind [State.mapLink, ← State.setNet_fine]

theorem State.linkPeriod_fine {s : State} (hs : s.Fine) (n : NetId) (q : Port) : (s.linkPeriod n q).Fine := by
  grind [State.linkPeriod, ← State.mapLink_fine]

theorem State.linkStale_fine {s : State} (hs : s.Fine) (n : NetId) (q : Port) : (s.linkStale n q).Fine := by
  grind [State.linkStale, ← fine_mk, ← State.mapLink_fine]

theorem execLinkDelayUpdate_fine (p : PDie) (port : Port) {s : State} (hs : s.Fine) : FineOut (execLinkDelayUpdate p port s) := by
  grind [execLinkDelayUpdate, ← fineOut_next, ← State.linkPeriod_fine]

theorem execLinkDelayStale_fine (p : PDie) (port : Port) {s : State} (hs : s.Fine) : FineOut (execLinkDelayStale p port s) := by
  grind [execLinkDelayStale, ← fineOut_next, ← State.linkStale_fine]

theorem State.applyTables_fine {s : State} (hs : s.Fine) (n : NetId) : (s.applyTables n).Fine := by
  grind [State.applyTables, ← fine_foldl, ← State.setReg_fine, ← State.copyRegs_fine]

theorem State.takeTables_fine {s : State} (hs : s.Fine) (p : PDie) : (s.takeTables p).Fine := by
  grind [State.takeTables, ← State.setNet_fine, ← State.ktnState_fine, ← State.applyTables_fine]

theorem State.takeGuardTables_fine {s : State} (hs : s.Fine) (p : PDie) : (s.takeGuardTables p).Fine := by
  grind [State.takeGuardTables, ← fine_mk, ← State.setReg_fine, ← State.setGuard_fine, ← State.applyTables_fine]

theorem State.ttTakeEffect_fine {s : State} (hs : s.Fine) (p : PDie) : (s.ttTakeEffect p).Fine := by
  grind [State.ttTakeEffect, ← fine_mk, ← State.setPort_fine, ← State.commitResult_fine, ← State.takeTables_fine,
      ← State.takeGuardTables_fine]

theorem State.ttRefuse_fine {s : State} (hs : s.Fine) (p : PDie) (code : Nat) : (s.ttRefuse p code).Fine := by
  grind [State.ttRefuse, ← fine_mk, ← State.setPort_fine, ← State.setGuard_fine, ← State.commitResult_fine]

theorem State.ttGo_fine {s : State} (hs : s.Fine) (p : PDie) : (s.ttGo p).Fine := by
  grind [State.ttGo, ← fine_mk, ← State.setReg_fine, ← State.setFlag_fine, ← State.setPort_fine, ← State.ignored_fine,
      ← State.commitResult_fine]

theorem execTtCommitGo_fine (p : PDie) {s : State} (hs : s.Fine) : FineOut (execTtCommitGo p s) := by
  grind [execTtCommitGo, ← fineOut_next, ← State.ttGo_fine]

theorem State.guardCheck_fine {s : State} (hs : s.Fine) (p : PDie) : (s.guardCheck p).Fine := by
  grind [State.guardCheck, ← fine_mk, ← State.setReg_fine, ← State.setFld_fine, ← State.setGuard_fine]

theorem execGuardCommitCheck_fine (p : PDie) {s : State} (hs : s.Fine) : FineOut (execGuardCommitCheck p s) := by
  grind [execGuardCommitCheck, ← fineOut_next, ← State.guardCheck_fine]

theorem State.guardReply_fine {s : State} (hs : s.Fine) (p : PDie) : (s.guardReply p).Fine := by
  grind [State.guardReply, ← fine_mk, ← State.setReg_fine, ← State.setPort_fine, ← State.setGuard_fine,
      ← State.ttTakeEffect_fine, ← State.ttRefuse_fine]

theorem execGuardCommitReply_fine (p : PDie) {s : State} (hs : s.Fine) : FineOut (execGuardCommitReply p s) := by
  grind [execGuardCommitReply, ← fineOut_next, ← State.guardReply_fine]

theorem execGuardTimeout_fine (p : PDie) {s : State} (hs : s.Fine) : FineOut (execGuardTimeout p s) := by
  grind [execGuardTimeout, ← fine_mk, ← fineOut_next, ← State.ttRefuse_fine]

theorem execTtCommitTakeEffect_fine (p : PDie) {s : State} (hs : s.Fine) : FineOut (execTtCommitTakeEffect p s) := by
  grind [execTtCommitTakeEffect, ← fine_mk, ← fineOut_next, ← State.ttTakeEffect_fine]

theorem State.useDie_fine {s : State} (hs : s.Fine) (act : Nat) (p : PDie) (fallback : Bool) : (s.useDie act p fallback).Fine :=
    by
  grind [State.useDie, ← State.setFlag_fine]

theorem State.markPref_fine {s : State} (hs : s.Fine) (act : Nat) : (s.markPref act).Fine := by
  grind [State.markPref, ← fine_mk]

theorem State.noteTrigger_fine {s : State} (hs : s.Fine) (act : Nat) (p : PDie) : (s.noteTrigger act p).Fine := by
  grind [State.noteTrigger, ← State.useDie_fine, ← State.markPref_fine]

theorem execTriggerFallback_fine (action : BitVec 2) {s : State} (hs : s.Fine) : FineOut (execTriggerFallback action s) := by
  grind [execTriggerFallback, ← fineOut_next, ← State.useDie_fine]

theorem State.takeTrigSel_fine {s : State} (hs : s.Fine) : (s.takeTrigSel).Fine := by
  grind [State.takeTrigSel, ← fine_mk, ← fine_foldl, ← State.useDie_fine, ← State.markPref_fine]

theorem State.commandLatches_fine {s : State} (hs : s.Fine) (l : Lane) (k : Strand) (w : Word) : (s.commandLatches l k w).Fine :=
    by
  grind [State.commandLatches, ← fine_foldl, ← fine_foldl_fst, ← State.setLatches_fine]

theorem State.doCmdTake_fine {s : State} (hs : s.Fine) (l : Lane) (k : Strand) (ordinal : Word) (w : Word) : (s.doCmdTake l k
    ordinal w).Fine := by
  grind [State.doCmdTake, ← State.commandLatches_fine]

theorem execDoCmdBeat_fine (l : Lane) (k : Strand) (ordinal : Word) (data : Word) {s : State} (hs : s.Fine) : FineOut
    (execDoCmdBeat l k ordinal data s) := by
  grind [execDoCmdBeat, ← fineOut_next, ← State.doCmdTake_fine]

theorem State.updateOutputs_fine {s : State} (hs : s.Fine) : (s.updateOutputs).Fine := by
  grind [State.updateOutputs, ← fine_foldl, ← State.setLatches_fine]

theorem State.takeMark_fine {s : State} (hs : s.Fine) (p : PDie) (a : Nat) : ∀ s', s.takeMark p a = some s' → s'.Fine := by
  grind [State.takeMark, ← fine_mk, ← State.setPort_fine]

theorem execOutputUpdateInstant_fine (p : PDie) {s : State} (hs : s.Fine) : FineOut (execOutputUpdateInstant p s) := by
  refine fineOut_next ?_
  split
  next u hu =>
    have ht := State.takeMark_fine hs p 3 u hu
    exact fine_ite _ ht (fine_ite _ (State.updateOutputs_fine (State.noteTrigger_fine ht ..)) (State.noteTrigger_fine ht ..))
  · exact hs

theorem State.latchFault_fine {s : State} (hs : s.Fine) (n cause : Nat) : (s.latchFault n cause).Fine := by
  grind [State.latchFault, ← State.setFld_fine, ← State.raise_fine, ← State.refreshOut_fine]

theorem State.clearFault_fine {s : State} (hs : s.Fine) (n : Nat) : (s.clearFault n).Fine := by
  grind [State.clearFault, ← fine_mk, ← State.setFld_fine, ← State.setOut_fine, ← State.refreshOut_fine]

theorem State.clearFaults_fine {s : State} (hs : s.Fine) (k : Strand) (w : Word) : (s.clearFaults k w).Fine := by
  grind [State.clearFaults, ← fine_foldl, ← State.clearFault_fine]

theorem execDoFaultClear_fine (k : Strand) (data : Word) {s : State} (hs : s.Fine) : FineOut (execDoFaultClear k data s) := by
  grind [execDoFaultClear, ← fineOut_next, ← State.atUnit_fine, ← State.logRsvd_fine, ← State.clearFaults_fine]

theorem execOvercurrent_fine (n : Nat) {s : State} (hs : s.Fine) : FineOut (execOvercurrent n s) := by
  grind [execOvercurrent, ← fineOut_next, ← State.latchFault_fine]

theorem execThermal_fine (n : Nat) {s : State} (hs : s.Fine) : FineOut (execThermal n s) := by
  grind [execThermal, ← fineOut_next, ← State.latchFault_fine]

theorem execGroupOvercurrent_fine (second : Bool) {s : State} (hs : s.Fine) : FineOut (execGroupOvercurrent second s) := by
  grind [execGroupOvercurrent, ← fine_foldl, ← fineOut_next, ← State.latchFault_fine]

theorem execOutVerifyDelayExpire_fine (n : Nat) {s : State} (hs : s.Fine) : FineOut (execOutVerifyDelayExpire n s) := by
  grind [execOutVerifyDelayExpire, ← fine_mk, ← fineOut_next, ← State.setOut_fine]

theorem State.verifyOut_fine {s : State} (hs : s.Fine) (n : Nat) : (s.verifyOut n).Fine := by
  grind [State.verifyOut, ← fine_mk, ← State.setFlag_fine, ← State.setOut_fine, ← State.latchFault_fine]

theorem execOffPulseStart_fine (n : Nat) {s : State} (hs : s.Fine) : FineOut (execOffPulseStart n s) := by
  grind [execOffPulseStart, ← fine_mk, ← fineOut_next, ← State.setOut_fine, ← State.refreshOut_fine]

theorem execOffPulseEnd_fine (n : Nat) {s : State} (hs : s.Fine) : FineOut (execOffPulseEnd n s) := by
  grind [execOffPulseEnd, ← fine_mk, ← fineOut_next, ← State.bump_fine, ← State.setOut_fine, ← State.refreshOut_fine,
      ← State.latchFault_fine]

theorem execFieldSupplyChange_fine (second : Bool) (present : Bool) {s : State} (hs : s.Fine) : FineOut (execFieldSupplyChange
    second present s) := by
  grind [execFieldSupplyChange, ← fineOut_next, ← State.setFlag_fine, ← State.raiseAll_fine]

theorem State.setFieldChan_fine {s : State} (hs : s.Fine) (l : Lane) (x : FieldChan) : (s.setFieldChan l x).Fine := by
  grind [State.setFieldChan, ← fine_mk]

theorem State.pushCos_fine {s : State} (hs : s.Fine) (k : Strand) (e : CosEntry) : (s.pushCos k e).Fine := by
  grind [State.pushCos, ← fine_mk, ← State.raise_fine]

theorem State.detectCos_fine {s : State} (hs : s.Fine) (new : Word) (now : Nat) (time : Dword) : (s.detectCos new now time).Fine
    := by
  grind [State.detectCos, ← fine_mk, ← fine_foldl, ← State.pushCos_fine]

theorem State.showWire_fine {s : State} (hs : s.Fine) : (s.showWire).Fine := by
  grind [State.showWire, ← fine_foldl, ← State.setFlag_fine, ← State.raise_fine]

theorem State.showAiFault_fine {s : State} (hs : s.Fine) (n : Nat) : (s.showAiFault n).Fine := by
  grind [State.showAiFault, ← State.setFlag_fine, ← State.raise_fine]

theorem State.completeAi_fine {s : State} (hs : s.Fine) (c : AiConv) : (s.completeAi c).Fine := by
  have htake (t : State) (ht : t.Fine) (l : Lane) (r : List AiRaw) (b : Nat → Bool) : (c.inputs.foldl (fun (t : State) n =>
      t.setFieldChan l (t.takeAi l n ((r[n]?).getD ⟨0⟩) (b n))) t).Fine :=
    fine_foldl ht (fun t n ht => State.setFieldChan_fine ht ..) _
  have hall : (Lane.list.foldl (fun t l => c.inputs.foldl (fun (t : State) n =>
      t.setFieldChan l (t.takeAi l n (((c.raw.get l)[n]?).getD ⟨0⟩) (s.freeVal.getLsbD (8 * l.idx + n)))) t) s.useFree).Fine :=
    fine_foldl (State.useFree_fine hs) (fun t l ht => htake t ht l _ _) _
  have hshow (t : State) (ht : t.Fine) : (c.inputs.foldl (fun t n => t.showAiFault n) t).Fine :=
    fine_foldl ht (fun t n ht => State.showAiFault_fine ht ..) _
  simp only [State.completeAi]
  split
  · exact fine_foldl (State.setFld_fine (hshow _ hall) ..) (fun t k ht => State.raise_fine ht ..) _
  · exact hshow _ hall

theorem State.dueAi_fine {s : State} (hs : s.Fine) (now : Nat) : (s.dueAi now).Fine := by
  grind [State.dueAi, ← fine_mk, ← fine_foldl, ← State.completeAi_fine]

theorem State.convert_fine {s : State} (hs : s.Fine) (byTrigger : Bool) (raw : Tri (List AiRaw)) : (s.convert byTrigger raw).Fine
    := by
  grind [State.convert, ← fine_mk]

theorem execAiConversionStart_fine (trigger : Option PDie) (raw : Tri (List AiRaw)) {s : State} (hs : s.Fine) :
    FineOut (execAiConversionStart trigger raw s) := by
  refine fineOut_next ?_
  split
  · exact fine_ite _ (State.convert_fine (fine_mk hs ..) ..) hs
  · split
    next u hu =>
      have ht := State.takeMark_fine hs _ 2 u hu
      have hn := State.noteTrigger_fine ht
      exact fine_ite _ ht (fine_ite _ (State.convert_fine (fine_mk (hn ..) ..) ..) (hn ..))
    · exact hs

theorem execAiDone_fine {s : State} (hs : s.Fine) : FineOut (execAiDone s) := by
  grind [execAiDone, ← fine_mk, ← fineOut_next, ← State.completeAi_fine]

theorem State.fdAtSample_fine {s : State} (hs : s.Fine) (now : Nat) : (s.fdAtSample now).1.Fine := by
  unfold State.fdAtSample
  (repeat' split) <;> grind [← fine_mk, ← fine_foldl, ← fine_foldl_fst, ← State.setReg_fine, ← State.setFlag_fine,
      ← State.refreshOuts_fine, ← State.commitResult_fine]

theorem State.fdGo_fine {s : State} (hs : s.Fine) : (s.fdGo).Fine := by
  grind [State.fdGo, ← State.setFlag_fine, ← State.ignored_fine]

theorem execFdCommitGo_fine {s : State} (hs : s.Fine) : FineOut (execFdCommitGo s) := by
  grind [execFdCommitGo, ← fineOut_next, ← State.fdGo_fine]

theorem State.takeUnstaged_fine {s : State} (hs : s.Fine) : (s.takeUnstaged).Fine := by
  grind [State.takeUnstaged, ← fine_mk, ← State.takeTrigSel_fine]

theorem State.sample_fine {s : State} (hs : s.Fine) (raw : Tri ChannelRaw) (now : Nat) : (s.sample raw now).Fine := by
  have hstep (t : State) (ht : t.Fine) (r : Bool) : (Lane.list.foldl (fun (t : State) l =>
      State.useFree (t.setFieldChan l (t.stepChannel (t.fieldChan l) (raw.get l) t.freeVal now r))) t).Fine :=
    fine_foldl ht (fun t l ht => State.useFree_fine (State.setFieldChan_fine ht ..)) _
  have hverify (t : State) (ht : t.Fine) : ((List.range 16).foldl (fun t n => t.verifyOut n) t).Fine :=
    fine_foldl ht (fun t n ht => State.verifyOut_fine ht ..) _
  have hat := State.fdAtSample_fine (State.takeUnstaged_fine hs) now
  refine State.send_fine (fine_mk (hverify _ (State.detectCos_fine (State.showWire_fine (hstep _ (State.dueAi_fine ?_ ..) _)) ..)) ..) ..
  exact fine_ite _ (fine_mk hat ..) hat

theorem execFieldSample_fine (raw : Tri ChannelRaw) {s : State} (hs : s.Fine) : FineOut (execFieldSample raw s) := by
  grind [execFieldSample, ← fineOut_next, ← State.sample_fine]

theorem execChannelSelfTest_fine (ch : Lane) (pass : Bool) {s : State} (hs : s.Fine) : FineOut (execChannelSelfTest ch pass s) :=
    by
  grind [execChannelSelfTest, ← fine_mk, ← fineOut_next, ← State.setFlag_fine, ← State.raiseAll_fine, ← State.setFieldChan_fine]

theorem State.noteInstant_fine {s : State} (hs : s.Fine) (p : PDie) (at' : Nat) : (s.noteInstant p at').Fine := by
  grind [State.noteInstant, ← fine_mk, ← State.noteTrigger_fine]

theorem execTriggerAnnounce_fine (p : PDie) (ahead : Option Nat) {s : State} (hs : s.Fine) :
    FineOut (execTriggerAnnounce p ahead s) := by
  refine fineOut_next ?_
  split
  · split
    · exact fine_ite _ (State.noteInstant_fine (State.setPort_fine hs ..) ..) (State.setPort_fine hs ..)
    · exact hs
  · split
    next u hu =>
      have ht := State.takeMark_fine hs p 1 u hu
      exact fine_ite _ (State.noteInstant_fine ht ..) ht
    · exact hs

theorem State.cosPop_fine {s : State} (hs : s.Fine) (k : Strand) : (s.cosPop k).1.Fine := by
  grind [State.cosPop, ← fine_mk]

theorem execCosPop_fine (k : Strand) {s : State} (hs : s.Fine) : FineOut (execCosPop k s) := by
  grind [execCosPop, ← fineOut_next, ← State.atUnit_fine, ← State.cosPop_fine]

theorem State.cosOverflow_fine {s : State} (hs : s.Fine) (k : Strand) : (s.cosOverflow k).1.Fine := by
  grind [State.cosOverflow, ← fine_mk]

theorem State.ownCold_fine {s : State} (hs : s.Fine) (p : PDie) (f : KFrame) (tRx : Dword) (P : Int) : (s.ownCold p f tRx P).Fine
    := by
  grind [State.ownCold, ← fine_mk, ← State.setGuard_fine]

theorem State.tapEarly_fine {s : State} (hs : s.Fine) (p : PDie) (w : WaitCopy) : (s.tapEarly p w).Fine := by
  grind [State.tapEarly, ← fine_mk, ← State.setNet_fine, ← State.integrateFrame_fine, ← State.ownCold_fine]

theorem State.tapSlot_fine {s : State} (hs : s.Fine) (p : PDie) (w : WaitCopy) : (s.tapSlot p w).Fine := by
  grind [State.tapSlot, ← fine_mk, ← State.useTiming_fine, ← State.recordInaug_fine]

theorem State.tapUse_fine {s : State} (hs : s.Fine) (p : PDie) (w : WaitCopy) : (s.tapUse p w).Fine := by
  grind [State.tapUse, ← fine_mk, ← State.adoptedUse_fine, ← State.tapEarly_fine, ← State.tapSlot_fine]

theorem State.tapOffer_fine {s : State} (hs : s.Fine) (p : PDie) (key : Nat) (port : Port) (own : Bool) (f : KFrame) (tRx :
    Dword) : (s.tapOffer p key port own f tRx).Fine := by
  grind [State.tapOffer, ← State.offer_fine, ← State.tapUse_fine]

theorem State.tapActive_fine {s : State} (hs : s.Fine) (p : PDie) (port : Port) (own : Bool) (f : KFrame) (tRx : Dword) (P : Int)
    : (s.tapActive p port own f tRx P).Fine := by
  grind [State.tapActive, ← fine_mk, ← State.noteHeard_fine, ← State.tapOffer_fine]

theorem State.tapAdopted_fine {s : State} (hs : s.Fine) (p : PDie) (port : Port) (own : Bool) (f : KFrame) (tRx : Dword) :
    (s.tapAdopted p port own f tRx).Fine := by
  grind [State.tapAdopted, ← fine_mk, ← State.setNet_fine, ← State.noteHeard_fine, ← State.tapOffer_fine]

theorem State.tapFrame_fine {s : State} (hs : s.Fine) (p : PDie) (port : Port) (own : Bool) (f : KFrame) (tRx : Dword) :
    (s.tapFrame p port own f tRx).Fine := by
  grind [State.tapFrame, ← fine_mk, ← State.offerEarly_fine, ← State.tapUse_fine, ← State.tapActive_fine, ← State.tapAdopted_fine]

theorem execGuardFrameTap_fine (p : PDie) (port : Port) (own : Bool) (f : KFrame) (ago : Nat) {s : State} (hs : s.Fine) : FineOut
    (execGuardFrameTap p port own f ago s) := by
  grind [execGuardFrameTap, ← fineOut_next, ← State.tapFrame_fine]

theorem State.endOpen_fine {s : State} (hs : s.Fine) (n : NetId) : (s.endOpen n).Fine := by
  grind [State.endOpen, ← fine_mk, ← State.setNet_fine]

theorem State.agedViols_fine {s : State} (hs : s.Fine) (p : PDie) : (s.agedViols p).Fine := by
  grind [State.agedViols, ← fine_mk, ← State.setFld_fine, ← State.setGuard_fine]

theorem State.guardNextCycle_fine {s : State} (hs : s.Fine) (p : PDie) : (s.guardNextCycle p).Fine := by
  grind [State.guardNextCycle, ← fine_mk, ← State.setGuard_fine, ← State.setNet_fine, ← State.agedViols_fine]

theorem execGuardCycleEnd_fine (p : PDie) {s : State} (hs : s.Fine) : FineOut (execGuardCycleEnd p s) := by
  grind [execGuardCycleEnd, ← fine_mk, ← fineOut_next, ← State.settle_fine, ← State.endAdopted_fine, ← State.noteMembers_fine,
      ← State.tapUse_fine, ← State.endOpen_fine, ← State.guardNextCycle_fine]

theorem execGuardListenTimeout_fine (p : PDie) {s : State} (hs : s.Fine) : FineOut (execGuardListenTimeout p s) := by
  grind [execGuardListenTimeout, ← fine_mk, ← fineOut_next, ← State.setGuard_fine, ← State.setNet_fine]

theorem execGuardHoldExpire_fine (p : PDie) {s : State} (hs : s.Fine) : FineOut (execGuardHoldExpire p s) := by
  grind [execGuardHoldExpire, ← fineOut_next, ← State.setNet_fine]

theorem State.latchGuard_fine {s : State} (hs : s.Fine) (p : PDie) : (s.latchGuard p).Fine := by
  grind [State.latchGuard, ← fine_mk, ← State.setPathOut_fine, ← State.setGuard_fine, ← State.logP_fine]

theorem State.violation_fine {s : State} (hs : s.Fine) (p : PDie) (hi lo : Nat) (t : Dword) : (s.violation p hi lo t).Fine := by
  grind [State.violation, ← fine_mk, ← State.setFld_fine, ← State.bump_fine, ← State.raisePAll_fine, ← State.setGuard_fine,
      ← State.latchGuard_fine]

end Sys2Proof.Machine
end

-- ==== Proofs: register spaces, guardians, leases, mailboxes, locks and ageing (O4) ====
section
/-! Guardian states, lease timers, mailboxes and locks, and the governors, ceilings and records of Dripstone. -/

namespace Sys2Proof.Machine

set_option Elab.async false

theorem State.cutLine_fine {s : State} (hs : s.Fine) (p : PDie) (lasted : Nat) (q : Port) : (s.cutLine p lasted q).Fine := by
  grind [State.cutLine, ← fine_mk, ← State.setPort_fine]

theorem State.cutLinks_fine {s : State} (hs : s.Fine) (p : PDie) : (s.cutLinks p).Fine := by
  grind [State.cutLinks, ← fine_mk, ← State.setPort_fine]

theorem execGuardTxAttempt_fine (p : PDie) (t : Dword) {s : State} (hs : s.Fine) : FineOut (execGuardTxAttempt p t s) := by
  grind [execGuardTxAttempt, ← fine_mk, ← fineOut_next, ← State.setGuard_fine, ← State.violation_fine]

theorem execGuardLengthLimit_fine (p : PDie) (t : Dword) (lasted : Nat) {s : State} (hs : s.Fine) : FineOut (execGuardLengthLimit
    p t lasted s) := by
  grind [execGuardLengthLimit, ← fine_mk, ← fine_foldl, ← fineOut_next, ← State.violation_fine, ← State.cutLine_fine,
      ← State.cutLinks_fine]

theorem State.guardUnlatch_fine {s : State} (hs : s.Fine) (p : PDie) : (s.guardUnlatch p).Fine := by
  grind [State.guardUnlatch, ← fine_mk, ← State.setFld_fine, ← State.setPathIn_fine, ← State.setGuard_fine]

theorem execGuardReset_fine (p : PDie) {s : State} (hs : s.Fine) : FineOut (execGuardReset p s) := by
  grind [execGuardReset, ← fineOut_next, ← State.guardUnlatch_fine]

theorem execGuardFenceCommand_fine (p : PDie) (l : Lane) {s : State} (hs : s.Fine) : FineOut (execGuardFenceCommand p l s) := by
  grind [execGuardFenceCommand, ← fine_mk, ← fineOut_next, ← State.setFlag_fine, ← State.arrive_fine, ← State.setPathOut_fine,
      ← State.setGuard_fine]

theorem State.setLease_fine {s : State} (hs : s.Fine) (p : PDie) (x : LeaseTimer) : (s.setLease p x).Fine := by
  grind [State.setLease, ← fine_mk, ← State.setPort_fine]

theorem State.setLeaseState_fine {s : State} (hs : s.Fine) (p : PDie) (st : Nat) (until' : Half) : (s.setLeaseState p st
    until').Fine := by
  grind [State.setLeaseState, ← State.setFld_fine, ← State.raisePAll_fine]

theorem State.bumpHalf_fine {s : State} (hs : s.Fine) (p : PDie) : (s.bumpHalf p).Fine := by
  grind [State.bumpHalf, ← State.bump_fine]

theorem State.bumpConflict_fine {s : State} (hs : s.Fine) (p : PDie) : (s.bumpConflict p).Fine := by
  grind [State.bumpConflict, ← State.bump_fine]

theorem State.bumpExpired_fine {s : State} (hs : s.Fine) (p : PDie) : (s.bumpExpired p).Fine := by
  grind [State.bumpExpired, ← State.bump_fine]

theorem State.requalify_fine {s : State} (hs : s.Fine) (p : PDie) : (s.requalify p).Fine := by
  grind [State.requalify, ← State.setFld_fine, ← State.setFlag_fine, ← State.setLeaseState_fine, ← State.bumpExpired_fine]

theorem State.leaseEnable_fine {s : State} (hs : s.Fine) (p : PDie) : (s.leaseEnable p).Fine := by
  grind [State.leaseEnable, ← State.setLeaseState_fine]

theorem State.leaseAtRelease_fine {s : State} (hs : s.Fine) : (s.leaseAtRelease).Fine := by
  grind [State.leaseAtRelease, ← fine_mk, ← fine_foldl, ← State.logEv_fine, ← State.setLease_fine, ← State.leaseEnable_fine]

theorem State.leaseFrame_fine {s : State} (hs : s.Fine) (p : PDie) (f : KFrame) (tOk : Bool) : (s.leaseFrame p f tOk).Fine := by
  grind [State.leaseFrame, ← fine_mk, ← State.setFlag_fine, ← State.bump_fine, ← State.setLease_fine]

theorem execLeaseFrameReceive_fine (p : PDie) (port : Port) (own : Bool) (f : KFrame) (ago : Nat) {s : State} (hs : s.Fine) :
    FineOut (execLeaseFrameReceive p port own f ago s) := by
  grind [execLeaseFrameReceive, ← fineOut_next, ← State.leaseFrame_fine]

theorem State.leaseStart_fine {s : State} (hs : s.Fine) (p : PDie) : (s.leaseStart p).Fine := by
  grind [State.leaseStart, ← State.setLeaseState_fine, ← State.bumpExpired_fine, ← State.requalify_fine]

theorem execLeaseCycleStart_fine (p : PDie) {s : State} (hs : s.Fine) : FineOut (execLeaseCycleStart p s) := by
  grind [execLeaseCycleStart, ← fineOut_next, ← State.leaseStart_fine]

theorem State.countSilent_fine {s : State} (hs : s.Fine) (p : PDie) : (s.countSilent p).Fine := by
  grind [State.countSilent, ← State.setFld_fine]

theorem State.endProvisional_fine {s : State} (hs : s.Fine) (p : PDie) (until' : Half) : (s.endProvisional p until').Fine := by
  grind [State.endProvisional, ← State.setLeaseState_fine, ← State.bumpHalf_fine, ← State.countSilent_fine]

theorem State.endHeld_fine {s : State} (hs : s.Fine) (p : PDie) (until' : Half) : (s.endHeld p until').Fine := by
  grind [State.endHeld, ← State.setLeaseState_fine, ← State.bumpConflict_fine, ← State.bumpExpired_fine, ← State.countSilent_fine]

theorem State.leaseEnd_fine {s : State} (hs : s.Fine) (p : PDie) : (s.leaseEnd p).Fine := by
  grind [State.leaseEnd, ← State.setFlag_fine, ← State.setLease_fine, ← State.requalify_fine, ← State.countSilent_fine,
      ← State.endProvisional_fine, ← State.endHeld_fine]

theorem execLeaseCycleEnd_fine (p : PDie) {s : State} (hs : s.Fine) : FineOut (execLeaseCycleEnd p s) := by
  grind [execLeaseCycleEnd, ← fineOut_next, ← State.leaseEnd_fine]

theorem execLeaseUnqualified_fine (p : PDie) {s : State} (hs : s.Fine) : FineOut (execLeaseUnqualified p s) := by
  grind [execLeaseUnqualified, ← fineOut_next, ← State.requalify_fine]

theorem State.lsCmd_fine {s : State} (hs : s.Fine) (p : PDie) (k : Strand) (op : Nat) : (s.lsCmd p k op).Fine := by
  grind [State.lsCmd, ← fine_mk, ← State.setFlag_fine, ← State.ignored_fine, ← State.setLease_fine]

theorem execArmLease_fine (p : PDie) (k : Strand) {s : State} (hs : s.Fine) : FineOut (execArmLease p k s) := by
  grind [execArmLease, ← fineOut_next, ← State.atUnit_fine, ← State.lsCmd_fine]

theorem execDisarm_fine (p : PDie) (k : Strand) {s : State} (hs : s.Fine) : FineOut (execDisarm p k s) := by
  grind [execDisarm, ← fineOut_next, ← State.atUnit_fine, ← State.lsCmd_fine]

theorem execRelease_fine (p : PDie) (k : Strand) {s : State} (hs : s.Fine) : FineOut (execRelease p k s) := by
  grind [execRelease, ← fineOut_next, ← State.atUnit_fine, ← State.lsCmd_fine]

theorem State.showHeld_fine {s : State} (hs : s.Fine) (p : PDie) : (s.showHeld p).Fine := by
  grind [State.showHeld, ← State.setFlag_fine, ← State.raisePAll_fine]

theorem State.showHeldAll_fine {s : State} (hs : s.Fine) : (s.showHeldAll).Fine := by
  grind [State.showHeldAll, ← State.showHeld_fine]

theorem State.relayHeld_fine {s : State} (hs : s.Fine) (p : PDie) : (s.relayHeld p).Fine := by
  grind [State.relayHeld, ← fine_mk, ← State.setPort_fine, ← State.showHeld_fine]

theorem execModHeldChange_fine {s : State} (hs : s.Fine) : FineOut (execModHeldChange s) := by
  unfold execModHeldChange
  grind [← fine_mk, ← fineOut_next, ← State.refreshOuts_fine, ← State.relayHeld_fine]

theorem execLeaseStateSample_fine (p : PDie) {s : State} (hs : s.Fine) : FineOut (execLeaseStateSample p s) := by
  grind [execLeaseStateSample, ← fine_mk, ← fineOut_next, ← State.setPort_fine, ← State.setStatusWord_fine]

theorem State.putMailbox_fine {s : State} (hs : s.Fine) (n : Nat) (x : Mailbox) : (s.putMailbox n x).Fine := by
  grind [State.putMailbox, ← fine_mk, ← State.raise_fine]

theorem State.mbSend_fine {s : State} (hs : s.Fine) (n : Nat) (far : Bool) (a : MbAct) : (s.mbSend n far a).Fine := by
  grind [State.mbSend, ← State.putMailbox_fine]

theorem State.mbTake_fine {s : State} (hs : s.Fine) (n : Nat) (far : Bool) (a : MbAct) : (s.mbTake n far a).Fine := by
  grind [State.mbTake, ← State.putMailbox_fine]

theorem State.endMailbox_fine {s : State} (hs : s.Fine) (n : Nat) : (s.endMailbox n).Fine := by
  grind [State.endMailbox, ← fine_mk, ← State.raise_fine]

theorem State.endMailboxes_fine {s : State} (hs : s.Fine) : (s.endMailboxes).Fine := by
  grind [State.endMailboxes, ← fine_foldl, ← State.endMailbox_fine]

theorem State.mbNotify_fine {s : State} (hs : s.Fine) (n : Nat) (toStrand : Bool) : (s.mbNotify n toStrand).Fine := by
  grind [State.mbNotify, ← fine_mk, ← State.raise_fine, ← State.putMailbox_fine]

theorem State.mbDoorbell_fine {s : State} (hs : s.Fine) (m : Master) (n : Nat) (far : Bool) (bits : Word) : (s.mbDoorbell m n far
    bits).Fine := by
  grind [State.mbDoorbell, ← State.mbSend_fine, ← State.mbNotify_fine]

theorem State.mbMask_fine {s : State} (hs : s.Fine) (n : Nat) (far : Bool) (mask : Word) : (s.mbMask n far mask).Fine := by
  grind [State.mbMask, ← State.mbTake_fine, ← State.mbNotify_fine]

theorem State.mbRxReset_fine {s : State} (hs : s.Fine) (n : Nat) (far : Bool) : (s.mbRxReset n far).Fine := by
  grind [State.mbRxReset, ← State.mbTake_fine]

theorem State.mbTxReset_fine {s : State} (hs : s.Fine) (n : Nat) (far : Bool) : (s.mbTxReset n far).Fine := by
  grind [State.mbTxReset, ← State.mbSend_fine]

theorem State.mbForeign_fine {s : State} (hs : s.Fine) (m : Master) (key : Nat) : (s.mbForeign m key).Fine := by
  unfold State.mbForeign
  grind [← fine_mk, ← State.logEv_fine]

theorem State.mbWrite_fine {s : State} (hs : s.Fine) (m : Master) (n : Nat) (far : Bool) (i : Nat) (mask data : Word) :
    (s.mbWrite m n far i mask data).Fine := by
  grind [State.mbWrite, ← fine_mk, ← State.ignored_fine, ← State.logRsvd_fine, ← State.mbSend_fine, ← State.mbTake_fine,
      ← State.mbDoorbell_fine, ← State.mbMask_fine, ← State.mbRxReset_fine, ← State.mbTxReset_fine, ← State.mbForeign_fine]

theorem State.atMailbox_fine {s : State} (hs : s.Fine) (m : Master) (n : Nat) (far : Bool) (i : Nat) (mask data : Word) :
    (s.atMailbox m n far i mask data).Fine := by
  grind [State.atMailbox, ← State.atM_fine, ← State.mbWrite_fine]

theorem execMbTxword_fine (m : Master) (n : Nat) (far : Bool) (data : Word) {s : State} (hs : s.Fine) : FineOut (execMbTxword m n
    far data s) := by
  grind [execMbTxword, ← fineOut_next, ← State.atMailbox_fine]

theorem execMbTxdb_fine (m : Master) (n : Nat) (far : Bool) (data : Word) {s : State} (hs : s.Fine) : FineOut (execMbTxdb m n far
    data s) := by
  grind [execMbTxdb, ← fineOut_next, ← State.atMailbox_fine]

theorem execMbRxpop_fine (m : Master) (n : Nat) (far : Bool) (data : Word) {s : State} (hs : s.Fine) : FineOut (execMbRxpop m n
    far data s) := by
  grind [execMbRxpop, ← fineOut_next, ← State.atMailbox_fine]

theorem execMbRxdbClear_fine (m : Master) (n : Nat) (far : Bool) (data : Word) {s : State} (hs : s.Fine) : FineOut
    (execMbRxdbClear m n far data s) := by
  grind [execMbRxdbClear, ← fineOut_next, ← State.atMailbox_fine]

theorem execMbRxmaskWrite_fine (m : Master) (n : Nat) (far : Bool) (data : Word) {s : State} (hs : s.Fine) : FineOut
    (execMbRxmaskWrite m n far data s) := by
  grind [execMbRxmaskWrite, ← fineOut_next, ← State.atMailbox_fine]

theorem execRxReset_fine (m : Master) (n : Nat) (far : Bool) {s : State} (hs : s.Fine) : FineOut (execRxReset m n far s) := by
  grind [execRxReset, ← fineOut_next, ← State.atMailbox_fine]

theorem execTxReset_fine (m : Master) (n : Nat) (far : Bool) {s : State} (hs : s.Fine) : FineOut (execTxReset m n far s) := by
  grind [execTxReset, ← fineOut_next, ← State.atMailbox_fine]

theorem State.mbRestart_fine {s : State} (hs : s.Fine) (k : Strand) : (s.mbRestart k).Fine := by
  grind [State.mbRestart, ← fine_foldl, ← State.mbRxReset_fine, ← State.mbTxReset_fine]

theorem State.tellFlushed_fine {s : State} (hs : s.Fine) (k : Strand) : (s.tellFlushed k).Fine := by
  grind [State.tellFlushed, ← State.raise_fine]

theorem State.mbMRestart_fine {s : State} (hs : s.Fine) : (s.mbMRestart).Fine := by
  grind [State.mbMRestart, ← fine_mk, ← fine_foldl, ← State.setFld_fine, ← State.tellFlushed_fine]

theorem State.relock_fine {s : State} (hs : s.Fine) (b : Beat) (i winner : Nat) : (s.relock b i winner).Fine := by
  grind [State.relock, ← fine_mk, ← fine_foldl, ← State.setVoter_fine, ← State.setVcQueue_fine]

theorem State.lockRead_fine {s : State} (hs : s.Fine) (i : Nat) (m : Nat) : (s.lockRead i m).Fine := by
  grind [State.lockRead, ← fine_mk, ← State.setFld_fine, ← State.relock_fine]

theorem execSmLockRead_fine (i : Nat) (readers : List Master) {s : State} (hs : s.Fine) : FineOut (execSmLockRead i readers s) :=
    by
  grind [execSmLockRead, ← fineOut_next, ← State.lockRead_fine]

theorem State.lockWrite_fine {s : State} (hs : s.Fine) (m : Master) (i : Nat) (mask data : Word) : (s.lockWrite m i mask
    data).Fine := by
  unfold State.lockWrite
  grind [← fine_mk, ← State.bump_fine, ← State.logEv_fine, ← State.freeLock_fine, ← State.logRsvd_fine]

theorem execSmRelease_fine (m : Master) (i : Nat) (data : Word) {s : State} (hs : s.Fine) : FineOut (execSmRelease m i data s) :=
    by
  grind [execSmRelease, ← fineOut_next, ← State.atM_fine, ← State.lockWrite_fine]

theorem State.lockForce_fine {s : State} (hs : s.Fine) (m : Master) (data : Word) : (s.lockForce m data).Fine := by
  grind [State.lockForce, ← State.ignored_fine, ← State.forceLock_fine, ← State.logRsvd_fine]

theorem execSmForce_fine (m : Master) (data : Word) {s : State} (hs : s.Fine) : FineOut (execSmForce m data s) := by
  grind [execSmForce, ← fineOut_next, ← State.atM_fine, ← State.lockForce_fine]

theorem State.setGov_fine {s : State} (hs : s.Fine) (l : Lane) (g : Governor) : (s.setGov l g).Fine := by
  grind [State.setGov, ← fine_mk]

theorem State.showDs_fine {s : State} (hs : s.Fine) : (s.showDs).Fine := by
  grind [State.showDs, ← fine_foldl, ← State.setReg_fine, ← State.bump_fine]

theorem State.trackCalm_fine {s : State} (hs : s.Fine) (l : Lane) : (s.trackCalm l).Fine := by
  grind [State.trackCalm, ← fine_mk, ← State.setGov_fine]

theorem State.reStep_fine {s : State} (hs : s.Fine) (l : Lane) : (s.reStep l).Fine := by
  grind [State.reStep, ← fine_mk, ← State.setGov_fine, ← State.trackCalm_fine]

theorem State.reStepAll_fine {s : State} (hs : s.Fine) : (s.reStepAll).Fine := by
  grind [State.reStepAll, ← fine_foldl, ← State.showDs_fine, ← State.reStep_fine]

theorem State.setLimit_fine {s : State} (hs : s.Fine) (l : Lane) (n : Nat) : (s.setLimit l n).Fine := by
  grind [State.setLimit, ← fine_mk, ← State.send_fine, ← State.setGov_fine, ← State.trackCalm_fine, ← State.reStep_fine]

theorem State.govern_fine {s : State} (hs : s.Fine) (l : Lane) (r : GovReading) : (s.govern l r).Fine := by
  grind [State.govern, ← fine_mk, ← State.setGov_fine, ← State.showDs_fine, ← State.trackCalm_fine, ← State.reStep_fine,
      ← State.setLimit_fine]

theorem execGovernorReading_fine (l : Lane) (r : GovReading) {s : State} (hs : s.Fine) : FineOut (execGovernorReading l r s) := by
  grind [execGovernorReading, ← fineOut_next, ← State.govern_fine]

theorem execGovLimitRaise_fine (l : Lane) {s : State} (hs : s.Fine) : FineOut (execGovLimitRaise l s) := by
  grind [execGovLimitRaise, ← fineOut_next, ← State.showDs_fine, ← State.setLimit_fine]

theorem execGovLimitReceive_fine (l : Lane) (v : PaceValue) {s : State} (hs : s.Fine) : FineOut (execGovLimitReceive l v s) := by
  grind [execGovLimitReceive, ← fineOut_next, ← State.arrive_fine, ← State.setGov_fine, ← State.showDs_fine, ← State.reStep_fine]

theorem execStepRaise_fine (l : Lane) {s : State} (hs : s.Fine) : FineOut (execStepRaise l s) := by
  grind [execStepRaise, ← fine_mk, ← fineOut_next, ← State.setGov_fine, ← State.showDs_fine, ← State.trackCalm_fine]

theorem State.relay_fine {s : State} (hs : s.Fine) (v : PaceValue) : (s.relay v).Fine := by
  grind [State.relay, ← State.send_fine, ← State.showDs_fine]

theorem State.setCeil_fine {s : State} (hs : s.Fine) (k : Strand) (n : Nat) (clamped : Bool) : (s.setCeil k n clamped).Fine := by
  grind [State.setCeil, ← State.setReg_fine, ← State.relay_fine]

theorem State.ceilTake_fine {s : State} (hs : s.Fine) (k : Strand) (n : Nat) : (s.ceilTake k n).Fine := by
  grind [State.ceilTake, ← State.bump_fine, ← State.logEv_fine, ← State.raise_fine, ← State.setCeil_fine]

theorem State.ceilWrite_fine {s : State} (hs : s.Fine) (k : Strand) (writer : Master) (data : Word) : (s.ceilWrite k writer
    data).Fine := by
  grind [State.ceilWrite, ← State.ignored_fine, ← State.logRsvd_fine, ← State.ceilTake_fine]

theorem execDsCeilWrite_fine (k : Strand) (writer : Master) (data : Word) {s : State} (hs : s.Fine) : FineOut (execDsCeilWrite k
    writer data s) := by
  grind [execDsCeilWrite, ← fineOut_next, ← State.atM_fine, ← State.ceilWrite_fine]

theorem State.setPlan_fine {s : State} (hs : s.Fine) (l : Lane) (n : Nat) : (s.setPlan l n).Fine := by
  grind [State.setPlan, ← State.setReg_fine, ← State.relay_fine]

theorem State.planWrite_fine {s : State} (hs : s.Fine) (l : Lane) (data : Word) : (s.planWrite l data).Fine := by
  grind [State.planWrite, ← State.logRsvd_fine, ← State.setPlan_fine]

theorem execDsPlanWrite_fine (l : Lane) (data : Word) {s : State} (hs : s.Fine) : FineOut (execDsPlanWrite l data s) := by
  grind [execDsPlanWrite, ← fineOut_next, ← State.planWrite_fine]

theorem State.replan_fine {s : State} (hs : s.Fine) (predicted : Tri (List Nat)) : (s.replan predicted).Fine := by
  grind [State.replan, ← fine_foldl, ← State.setPlan_fine]

theorem execPlannerReplan_fine (predicted : Tri (List Nat)) {s : State} (hs : s.Fine) : FineOut (execPlannerReplan predicted s)
    := by
  grind [execPlannerReplan, ← fineOut_next, ← State.replan_fine]

theorem State.setAge_fine {s : State} (hs : s.Fine) (u : Nat) (x : AgeRec) : (s.setAge u x).Fine := by
  grind [State.setAge, ← fine_mk]

theorem State.sampleLane_fine {s : State} (hs : s.Fine) (l : Lane) (r : GovReading) : (s.sampleLane l r).Fine := by
  grind [State.sampleLane, ← fine_mk, ← State.useFree_fine, ← State.setAge_fine]

theorem State.samplePort_fine {s : State} (hs : s.Fine) (p : PDie) (r : GovReading) : (s.samplePort p r).Fine := by
  grind [State.samplePort, ← fine_mk, ← State.useFree_fine, ← State.setAge_fine]

theorem execPlannerSample_fine (lanes : Tri GovReading) (ports : Duo GovReading) {s : State} (hs : s.Fine) : FineOut
    (execPlannerSample lanes ports s) := by
  grind [execPlannerSample, ← fine_foldl, ← fineOut_next, ← State.sampleLane_fine, ← State.samplePort_fine]

theorem State.closeDay_fine {s : State} (hs : s.Fine) (u : Nat) : (s.closeDay u).Fine := by
  grind [State.closeDay, ← fine_mk, ← State.setReg_fine, ← State.useFree_fine, ← State.logEv_fine, ← State.raiseAll_fine,
      ← State.setAge_fine]

end Sys2Proof.Machine
end

-- ==== Proofs: register spaces, the safe store, the exchange and the instructions (O4) ====
section
/-! Boot record and update state, the Echo exchange with its agreements, and the instructions of a replica. -/

namespace Sys2Proof.Machine

set_option Elab.async false

theorem execMarginDailyRecord_fine {s : State} (hs : s.Fine) : FineOut (execMarginDailyRecord s) := by
  grind [execMarginDailyRecord, ← fine_foldl, ← fineOut_next, ← State.closeDay_fine]

theorem State.setBank_fine {s : State} (hs : s.Fine) (n : Nat) (b : SafeBank) : (s.setBank n b).Fine := by
  grind [State.setBank, ← fine_mk]

theorem State.showBank_fine {s : State} (hs : s.Fine) : (s.showBank).Fine := by
  grind [State.showBank, ← State.setFlag_fine]

theorem State.writeRecs_fine {s : State} (hs : s.Fine) (r : SafeRecs) : (s.writeRecs r).Fine := by
  grind [State.writeRecs, ← fine_mk, ← State.setBank_fine, ← State.showBank_fine]

theorem State.cutWrite_fine {s : State} (hs : s.Fine) : (s.cutWrite).Fine := by
  grind [State.cutWrite, ← fine_mk, ← State.useFree_fine, ← State.setBank_fine]

theorem State.writeBoot_fine {s : State} (hs : s.Fine) (b : BootRec) : (s.writeBoot b).Fine := by
  grind [State.writeBoot, ← fine_mk, ← State.writeRecs_fine]

theorem State.setUpd_fine {s : State} (hs : s.Fine) (st : Nat) : (s.setUpd st).Fine := by
  grind [State.setUpd, ← State.setFld_fine]

theorem State.setUpdResult_fine {s : State} (hs : s.Fine) (r : Nat) : (s.setUpdResult r).Fine := by
  grind [State.setUpdResult, ← State.setFld_fine]

theorem State.showBoot_fine {s : State} (hs : s.Fine) : (s.showBoot).Fine := by
  grind [State.showBoot, ← State.setReg_fine, ← State.setFld_fine, ← State.setFlag_fine]

theorem State.cancelUpdate_fine {s : State} (hs : s.Fine) (reason : Nat) : (s.cancelUpdate reason).Fine := by
  have hshow : (((s.setUpd updStaged).setUpdResult reason).setReg64 .m Reg.mgUpdTLo 0).Fine :=
    State.setReg64_fine (State.setUpdResult_fine (State.setUpd_fine hs ..) ..) ..
  simp only [State.cancelUpdate]
  split
  · exact hs
  · exact State.logEv_fine (State.raiseAll_fine (State.writeBoot_fine hshow ..) ..) ..

theorem State.endDebugAuth_fine {s : State} (hs : s.Fine) : (s.endDebugAuth).Fine := by
  grind [State.endDebugAuth, ← State.setFld_fine, ← State.setFlag_fine, ← State.logEv_fine, ← State.freeLocksOf_fine]

theorem State.fenceMgmt_fine {s : State} (hs : s.Fine) : (s.fenceMgmt).Fine := by
  grind [State.fenceMgmt, ← State.cancelUpdate_fine, ← State.endDebugAuth_fine]

theorem State.setDbgUntil_fine {s : State} (hs : s.Fine) (n : Nat) : (s.setDbgUntil n).Fine := by
  grind [State.setDbgUntil, ← fine_mk]

theorem State.failLink_fine {s : State} (hs : s.Fine) (l o : Lane) : (s.failLink l o).Fine := by
  grind [State.failLink, ← fine_mk, ← State.setFlag_fine, ← State.abandonRejoin_fine, ← State.sendRetire_fine]

theorem State.crawlError_fine {s : State} (hs : s.Fine) (l o : Lane) : (s.crawlError l o).Fine := by
  grind [State.crawlError, ← fine_mk, ← State.setLane_fine, ← State.failLink_fine]

theorem State.commitMsg_fine {s : State} (hs : s.Fine) (l : Lane) (src dst : Strand) (m : SqMsg) : (s.commitMsg l src dst m).Fine
    := by
  grind [State.commitMsg, ← fine_mk, ← State.setEcho_fine]

theorem State.commitEpoch_fine {s : State} (hs : s.Fine) (l : Lane) (k : Strand) (pt : Word) (pair : Pair) : (s.commitEpoch l k
    pt pair).Fine := by
  grind [State.commitEpoch, ← fine_mk, ← fine_foldl, ← fine_foldl_fst, ← State.setReplica_fine, ← State.send_fine,
      ← State.commitMsg_fine]

theorem State.noteLag_fine {s : State} (hs : s.Fine) (l : Lane) (k : Strand) (pt : Word) (x : Lane) : (s.noteLag l k pt x).Fine
    := by
  grind [State.noteLag, ← fine_mk, ← State.raiseMax_fine]

theorem State.completeWith_fine {s : State} (hs : s.Fine) (l : Lane) (k : Strand) (pair : Pair) (ha hb : HeldPub) :
    (s.completeWith l k pair ha hb).Fine := by
  grind [State.completeWith, ← fine_mk, ← State.setFld_fine, ← State.bumpBy_fine, ← State.bumpWrap_fine, ← State.raiseMax_fine,
      ← State.setLane_fine, ← State.setEcho_fine, ← State.sample_fine, ← State.commitEpoch_fine]

theorem State.checkThird_fine {s : State} (hs : s.Fine) (l : Lane) (k : Strand) (pt : Word) : (s.checkThird l k pt).Fine := by
  grind [State.checkThird, ← fine_mk, ← State.bump_fine, ← State.echoExcludes_fine]

theorem State.sigOdd_fine {s : State} (hs : s.Fine) (l : Lane) (k : Strand) (x : Lane) : (s.sigOdd l k x).Fine := by
  grind [State.sigOdd, ← State.echoExcludes_fine]

theorem State.resolveSplit_fine {s : State} (hs : s.Fine) (l : Lane) (k : Strand) (pair : Pair) (ha hb : HeldPub) :
    (s.resolveSplit l k pair ha hb).Fine := by
  grind [State.resolveSplit, ← fine_mk, ← State.bump_fine, ← State.setEcho_fine, ← State.echoSplits_fine,
      ← State.completeWith_fine, ← State.sigOdd_fine]

theorem State.tryAgree_fine (x0 : Nat) {s : State} (hs : s.Fine) (x2 : Lane) (x3 : Strand) : (State.tryAgree x0 s x2 x3).Fine :=
    by
  fun_induction State.tryAgree <;> grind [← fine_mk, ← State.completeWith_fine, ← State.checkThird_fine,
      ← State.resolveSplit_fine]

theorem State.agreeAgain_fine {s : State} (hs : s.Fine) : (s.agreeAgain).Fine := by
  grind [State.agreeAgain, ← fine_foldl, ← State.tryAgree_fine]

theorem State.claimPair_fine {s : State} (hs : s.Fine) (l : Lane) (k : Strand) (pt : Word) : (s.claimPair l k pt).Fine := by
  grind [State.claimPair, ← fine_mk, ← State.setEcho_fine, ← State.send_fine]

theorem State.sendClaims_fine {s : State} (hs : s.Fine) (l : Lane) (k : Strand) : (s.sendClaims l k).Fine := by
  grind [State.sendClaims, ← fine_foldl, ← State.tryAgree_fine, ← State.claimPair_fine]

theorem State.acceptPub_fine {s : State} (hs : s.Fine) (l : Lane) (k : Strand) (p : Publication) : (s.acceptPub l k p).Fine := by
  grind [State.acceptPub, ← fine_mk, ← State.setEcho_fine, ← State.noteLag_fine, ← State.checkThird_fine, ← State.tryAgree_fine,
      ← State.claimPair_fine]

theorem State.markPublished_fine {s : State} (hs : s.Fine) (l : Lane) (k : Strand) (n : Word) : (s.markPublished l k n).Fine := by
  grind [State.markPublished, ← fine_mk, ← State.setEcho_fine]

theorem State.takeTcfg_fine {s : State} (hs : s.Fine) (l : Lane) (k : Strand) : (s.takeTcfg l k).Fine := by
  unfold State.takeTcfg
  split <;> grind [← fine_mk, ← State.setReg_fine, ← State.setEcho_fine, ← State.setPending_fine, ← State.tcfgSettle_fine]

theorem State.startScrub_fine {s : State} (hs : s.Fine) (l : Lane) (k : Strand) (n : Word) : (s.startScrub l k n).Fine := by
  grind [State.startScrub, ← fine_mk, ← State.setScrub_fine]

theorem State.sendChallenge_fine {s : State} (hs : s.Fine) (l : Lane) (k : Strand) : (s.sendChallenge l k).Fine := by
  grind [State.sendChallenge, ← fine_mk, ← State.setEcho_fine, ← State.send_fine]

theorem State.issueChallenge_fine {s : State} (hs : s.Fine) (l : Lane) (k : Strand) : (s.issueChallenge l k).Fine := by
  grind [State.issueChallenge, ← fine_mk, ← fine_foldl, ← State.setEcho_fine, ← State.sendChallenge_fine]

theorem State.noteBothPaused_fine {s : State} (hs : s.Fine) (k : Strand) (n : Word) : (s.noteBothPaused k n).Fine := by
  grind [State.noteBothPaused, ← fine_mk, ← State.setRjPhase_fine]

theorem State.eventPoint_fine {s : State} (hs : s.Fine) (l : Lane) (k : Strand) : (s.eventPoint l k).Fine := by
  grind [State.eventPoint, ← fine_mk, ← State.setReg64_fine, ← State.setReplica_fine, ← State.send_fine, ← State.acceptPub_fine,
      ← State.markPublished_fine, ← State.noteBothPaused_fine]

theorem execEventPoint_fine (l : Lane) (k : Strand) {s : State} (hs : s.Fine) : FineOut (execEventPoint l k s) := by
  grind [execEventPoint, ← fineOut_next, ← State.eventPoint_fine]

theorem State.applyFin_fine {s : State} (hs : s.Fine) (l : Lane) (k : Strand) (f : FinRule) : (s.applyFin l k f).Fine := by
  unfold State.applyFin
  (repeat' split) <;> grind [← fine_mk, ← fine_foldl, ← fine_foldl_fst, ← State.setReg_fine, ← State.setFld_fine,
      ← State.setFlag_fine]

theorem State.applyTime_fine {s : State} (hs : s.Fine) (l : Lane) (k : Strand) (a : Agreement) : (s.applyTime l k a).Fine := by
  grind [State.applyTime, ← State.setReg_fine, ← State.setReg64_fine, ← State.setPending_fine]

theorem State.evalTimer_fine {s : State} (hs : s.Fine) (l : Lane) (k : Strand) (now : Dword) (i : Nat) : (s.evalTimer l k now
    i).Fine := by
  grind [State.evalTimer, ← State.setFlag_fine, ← State.bumpBy_fine, ← State.setReg64_fine, ← State.setPending_fine]

theorem State.applyCounts_fine {s : State} (hs : s.Fine) (l : Lane) (k : Strand) (a : Agreement) : (s.applyCounts l k a).Fine :=
    by
  grind [State.applyCounts, ← fine_mk, ← State.setEcho_fine, ← State.setPending_fine, ← State.showCredits_fine,
      ← State.showVisible_fine]

theorem State.fenceDie_fine {s : State} (hs : s.Fine) (l : Lane) (k : Strand) (d : Die) : (s.fenceDie l k d).Fine := by
  have hflags : (((s.setFlag d.unit Reg.vtFence (4 + k.idx) true).setFlag d.unit Reg.vtFence 0 true).setFlag d.unit
      (Reg.vtStat k.idx) 9 true).Fine := State.setFlag_fine (State.setFlag_fine (State.setFlag_fine hs ..) ..) ..
  have hshow := fine_foldl hflags (g := fun t j => t.setFlag d.unit (Reg.vtStat j.idx) 8 true)
    (fun t j ht => State.setFlag_fine ht ..) Strand.list
  refine State.setPathOut_fine ?_ ..
  cases d with
  | p1 => exact State.stopAllChans_fine (fine_ite _ (State.send_fine hshow ..) hshow) ..
  | p2 => exact State.stopAllChans_fine (fine_ite _ (State.send_fine hshow ..) hshow) ..
  | f => exact fine_foldl hshow (fun t x ht => State.clearLatches_fine (State.setLane_fine ht ..) ..) _
  | m => exact State.fenceMgmt_fine (fine_foldl hshow (fun t x ht => State.setLane_fine ht ..) _)

theorem State.judge_fine {s : State} (hs : s.Fine) (l : Lane) (k : Strand) (a : ChalAnswer) : (s.judge l k a).Fine := by
  grind [State.judge, ← fine_mk, ← State.setReg_fine, ← State.bump_fine, ← State.setEcho_fine, ← State.setPending_fine,
      ← State.fenceDie_fine]

theorem State.challengeDeadline_fine {s : State} (hs : s.Fine) (l : Lane) (k : Strand) : (s.challengeDeadline l k).Fine := by
  grind [State.challengeDeadline, ← fine_mk, ← fine_foldl, ← State.setEcho_fine, ← State.setPending_fine, ← State.fenceDie_fine]

theorem State.applyOcc_fine {s : State} (hs : s.Fine) (l : Lane) (k : Strand) (now : Dword) (o : Occ) : (s.applyOcc l k now
    o).Fine := by
  grind [State.applyOcc, ← fine_mk, ← State.setEcho_fine, ← State.setPending_fine, ← State.applyChange_fine, ← State.judge_fine]

theorem State.showHist_fine {s : State} (hs : s.Fine) (l : Lane) (k : Strand) : (s.showHist l k).Fine := by
  grind [State.showHist, ← fine_foldl, ← State.setFld_fine]

theorem State.applyAgreement_fine {s : State} (hs : s.Fine) (l : Lane) (k : Strand) (a : Agreement) :
    (s.applyAgreement l k a).Fine := by
  have hoccs : (a.occs.foldl (fun t o => t.applyOcc l k a.stime o) s).Fine :=
    fine_foldl hs (fun t o ht => State.applyOcc_fine ht ..) _
  have htimers := fine_foldl (State.applyFin_fine (State.applyTime_fine hoccs l k a) l k a.fin)
    (g := fun t i => t.evalTimer l k a.stime i) (fun t i ht => State.evalTimer_fine ht ..) (List.range 4)
  exact State.checkRetired_fine (State.showHist_fine (State.applyCounts_fine htimers ..) ..) ..

theorem State.raiseSoft_fine {s : State} (hs : s.Fine) (l : Lane) (k : Strand) : (s.raiseSoft l k).Fine := by
  grind [State.raiseSoft, ← fine_mk, ← fine_foldl, ← State.setReplica_fine, ← State.setPending_fine]

theorem State.takeException_fine {s : State} (hs : s.Fine) (l : Lane) (k : Strand) : (s.takeException l k).Fine := by
  grind [State.takeException, ← fine_mk, ← State.setReg_fine, ← State.setReplica_fine, ← State.clearPending_fine]

theorem State.noteStall_fine {s : State} (hs : s.Fine) (l : Lane) (k : Strand) (a : Agreement) : (s.noteStall l k a).Fine := by
  grind [State.noteStall, ← State.raiseMax_fine]

theorem State.switchTcfg_fine {s : State} (hs : s.Fine) (l : Lane) (k : Strand) : (s.switchTcfg l k).Fine := by
  grind [State.switchTcfg, ← fine_mk, ← State.setReplica_fine, ← State.takeTcfg_fine]

theorem State.leaveBoundary_fine {s : State} (hs : s.Fine) (l : Lane) (k : Strand) : (s.leaveBoundary l k).Fine := by
  grind [State.leaveBoundary, ← State.startScrub_fine, ← State.issueChallenge_fine]

theorem State.agreedSetApply_fine {s : State} (hs : s.Fine) (l : Lane) (k : Strand) : (s.agreedSetApply l k).Fine := by
  unfold State.agreedSetApply
  grind [← fine_mk, ← State.setReplica_fine, ← State.challengeDeadline_fine, ← State.applyAgreement_fine, ← State.raiseSoft_fine,
      ← State.takeException_fine, ← State.noteStall_fine, ← State.switchTcfg_fine, ← State.leaveBoundary_fine]

theorem execAgreedSetApply_fine (l : Lane) (k : Strand) {s : State} (hs : s.Fine) : FineOut (execAgreedSetApply l k s) := by
  grind [execAgreedSetApply, ← fineOut_next, ← State.agreedSetApply_fine]

theorem execStrandTimerExpire_fine (l : Lane) (k : Strand) (t : Nat) {s : State} (hs : s.Fine) : FineOut (execStrandTimerExpire l
    k t s) := by
  grind [execStrandTimerExpire, ← fine_mk, ← fineOut_next, ← State.evalTimer_fine]

theorem execPublicationReceive_fine (l : Lane) (sender : Lane) (p : Publication) {s : State} (hs : s.Fine) : FineOut
    (execPublicationReceive l sender p s) := by
  grind [execPublicationReceive, ← fineOut_next, ← State.arrive_fine, ← State.crawlError_fine, ← State.acceptPub_fine]

theorem execPairClaimReceive_fine (l : Lane) (c : PairClaim) {s : State} (hs : s.Fine) : FineOut (execPairClaimReceive l c s) :=
    by
  grind [execPairClaimReceive, ← fine_mk, ← fineOut_next, ← State.setEcho_fine, ← State.arrive_fine, ← State.tryAgree_fine]

theorem execOccurrenceLatch_fine (l : Lane) (d : Die) (k : Strand) (o : Occ) {s : State} (hs : s.Fine) : FineOut
    (execOccurrenceLatch l d k o s) := by
  grind [execOccurrenceLatch, ← fineOut_next, ← State.arrive_fine, ← State.latch_fine]

theorem execEvSolo_fine (l : Lane) (k : Strand) (o : Occ) {s : State} (hs : s.Fine) : FineOut (execEvSolo l k o s) := by
  grind [execEvSolo, ← fine_mk, ← fineOut_next, ← State.bump_fine, ← State.setEcho_fine, ← State.logEv_fine]

theorem execFstaleTimeout_fine (l : Lane) {s : State} (hs : s.Fine) : FineOut (execFstaleTimeout l s) :=
  fineOut_next (fine_ite _ (State.setLane_fine hs ..) hs)

theorem execFieldTripleReceive_fine (l : Lane) (tr : Triple) {s : State} (hs : s.Fine) : FineOut (execFieldTripleReceive l tr s)
    := by
  grind [execFieldTripleReceive, ← fine_mk, ← fineOut_next, ← State.setLane_fine, ← State.arrive_fine]

theorem execEchoTimeout_fine (l : Lane) (k : Strand) (point : Word) {s : State} (hs : s.Fine) : FineOut (execEchoTimeout l k
    point s) := by
  grind [execEchoTimeout, ← fine_mk, ← fineOut_next, ← State.bump_fine, ← State.setEcho_fine, ← State.crawlError_fine]

theorem State.starve_fine {s : State} (hs : s.Fine) (l : Lane) (k : Strand) : (s.starve l k).Fine := by
  grind [State.starve, ← State.haltOwn_fine]

theorem execStarveTimeout_fine (l : Lane) (k : Strand) {s : State} (hs : s.Fine) : FineOut (execStarveTimeout l k s) := by
  grind [execStarveTimeout, ← fineOut_next, ← State.send_fine, ← State.starve_fine]

theorem execStarveClaimReceive_fine (l sender : Lane) (k : Strand) {s : State} (hs : s.Fine) : FineOut (execStarveClaimReceive l
    sender k s) := by
  grind [execStarveClaimReceive, ← fineOut_next, ← State.arrive_fine, ← State.starve_fine]

theorem State.lateAt_fine {s : State} (hs : s.Fine) (l : Lane) (k : Strand) (point : Word) (x : Lane) : (s.lateAt l k point
    x).Fine := by
  grind [State.lateAt, ← fine_mk, ← State.bump_fine, ← State.setEcho_fine, ← State.setLCause_fine, ← State.excludeAt_fine,
      ← State.echoSplits_fine, ← State.tryAgree_fine]

theorem execLateClaim_fine (l : Lane) (k : Strand) (point : Word) {s : State} (hs : s.Fine) : FineOut (execLateClaim l k point s)
    := by
  grind [execLateClaim, ← fine_mk, ← fineOut_next, ← State.send_fine, ← State.lateAt_fine]

theorem execLateClaimReceive_fine (l : Lane) (c : LateClaim) {s : State} (hs : s.Fine) : FineOut (execLateClaimReceive l c s) :=
    by
  grind [execLateClaimReceive, ← fineOut_next, ← State.arrive_fine, ← State.lateAt_fine]

theorem State.sqSend_fine {s : State} (hs : s.Fine) (l : Lane) (k : Strand) (v : Word) : (s.sqSend l k v).Fine := by
  grind [State.sqSend, ← fine_mk, ← State.bump_fine, ← State.setReplica_fine, ← State.setEcho_fine, ← State.showCredits_fine]

theorem State.sqPop_fine {s : State} (hs : s.Fine) (l : Lane) (k : Strand) (v : Word) : (s.sqPop l k v).Fine := by
  grind [State.sqPop, ← fine_mk, ← State.setEcho_fine, ← State.showVisible_fine]

theorem State.swEvent_fine {s : State} (hs : s.Fine) (l : Lane) (k : Strand) (v : Word) : (s.swEvent l k v).Fine := by
  grind [State.swEvent, ← fine_mk, ← State.setReplica_fine, ← State.ignored_fine]

theorem State.pageRead_fine {s : State} (hs : s.Fine) (l : Lane) (k : Strand) (off : Nat) : (s.pageRead l k off).1.Fine := by
  grind [State.pageRead, ← fine_mk, ← State.logEv_fine, ← State.plainRead_fine]

theorem State.pageWrite_fine {s : State} (hs : s.Fine) (l : Lane) (k : Strand) (off : Nat) (mask data : Word) (wide : Bool) :
    (s.pageWrite l k off mask data wide).Fine := by
  grind [State.pageWrite, ← fine_mk, ← State.logEv_fine, ← State.ignored_fine, ← State.logRsvd_fine, ← State.plainWrite_fine,
      ← State.sqSend_fine, ← State.sqPop_fine, ← State.swEvent_fine, ← State.pageRead_fine]

theorem State.pageStore_fine {s : State} (hs : s.Fine) (l : Lane) (k : Strand) (off : Nat) (bs : List Byte) : (s.pageStore l k
    off bs).Fine := by
  grind [State.pageStore, ← fine_mk, ← fine_foldl, ← fine_foldl_fst, ← State.logRsvd_fine, ← State.pageWrite_fine]

theorem State.pageLoad_fine {s : State} (hs : s.Fine) (l : Lane) (k : Strand) (off size : Nat) : (s.pageLoad l k off size).1.Fine
    := by
  grind [State.pageLoad, ← fine_foldl, ← fine_foldl_fst, ← State.pageRead_fine]

theorem State.eccAddr_fine {s : State} (hs : s.Fine) (l : Lane) (a src : Nat) (consumed : Bool) (k : Strand) : (s.eccAddr l a src
    consumed k).Fine := by
  grind [State.eccAddr, ← State.setReg_fine]

theorem State.consumePoison_fine {s : State} (hs : s.Fine) (l : Lane) (k : Strand) (a len : Nat) : (s.consumePoison l k a
    len).Fine := by
  grind [State.consumePoison, ← State.logEv_fine, ← State.stopCore_fine, ← State.eccAddr_fine]

theorem State.queueBeats_fine {s : State} (hs : s.Fine) (l : Lane) (k : Strand) (d : Die) (bs : List Beat) : (s.queueBeats l k d
    bs).Fine := by
  grind [State.queueBeats, ← fine_mk, ← State.setReplica_fine]

theorem State.noteAbsents_fine {s : State} (hs : s.Fine) (d : Die) (ds : List Dw) : (s.noteAbsents d ds).Fine := by
  grind [State.noteAbsents, ← fine_foldl, ← State.noteAbsent_fine]

theorem State.deviceLoad_fine {s : State} (hs : s.Fine) (l : Lane) (k : Strand) (d : Die) (a off size : Nat) : (s.deviceLoad l k
    d a off size).Fine := by
  grind [State.deviceLoad, ← fine_mk, ← State.setReplica_fine, ← State.finishLoad_fine, ← State.queueBeats_fine,
      ← State.noteAbsents_fine]

theorem State.doLoad_fine {s : State} (hs : s.Fine) (l : Lane) (k : Strand) (a size : Nat) : (s.doLoad l k a size).Fine := by
  grind [State.doLoad, ← fine_mk, ← State.finishLoad_fine, ← State.pageLoad_fine, ← State.consumePoison_fine,
      ← State.deviceLoad_fine]

theorem State.foldDwords_fine {s : State} (hs : s.Fine) (l : Lane) (k : Strand) (kind : Byte) (ds : List Dw) : (s.foldDwords l k
    kind ds).Fine := by
  grind [State.foldDwords, ← fine_mk, ← fine_foldl, ← State.setReplica_fine]

theorem State.foldSig_fine {s : State} (hs : s.Fine) (l : Lane) (k : Strand) (kind : Byte) (a : Nat) (bs : List Byte) :
    (s.foldSig l k kind a bs).Fine := by
  grind [State.foldSig, ← State.foldDwords_fine]

theorem State.voidScrub_fine {s : State} (hs : s.Fine) (l : Lane) (k : Strand) (a : Nat) : (s.voidScrub l k a).Fine := by
  grind [State.voidScrub, ← fine_mk, ← State.setScrub_fine]

theorem State.memoryStore_fine {s : State} (hs : s.Fine) (l : Lane) (k : Strand) (a : Nat) (bs : List Byte) : (s.memoryStore l k
    a bs).Fine := by
  grind [State.memoryStore, ← State.laneStore_fine, ← State.markDirtyRange_fine, ← State.retire_fine, ← State.consumePoison_fine,
      ← State.foldSig_fine, ← State.voidScrub_fine]

theorem State.deviceStore_fine {s : State} (hs : s.Fine) (l : Lane) (k : Strand) (d : Die) (a off : Nat) (bs : List Byte) :
    (s.deviceStore l k d a off bs).Fine := by
  grind [State.deviceStore, ← State.retire_fine, ← State.queueBeats_fine, ← State.noteAbsents_fine, ← State.foldDwords_fine]

theorem State.doStore_fine {s : State} (hs : s.Fine) (l : Lane) (k : Strand) (a : Nat) (bs : List Byte) : (s.doStore l k a
    bs).Fine := by
  grind [State.doStore, ← fine_mk, ← State.retire_fine, ← State.pageStore_fine, ← State.foldSig_fine, ← State.memoryStore_fine,
      ← State.deviceStore_fine]

theorem State.endStep_fine {s : State} (hs : s.Fine) (l : Lane) (k : Strand) : (s.endStep l k).Fine := by
  grind [State.endStep, ← fine_mk, ← State.setReplica_fine]

theorem State.execute_fine {s : State} (hs : s.Fine) (l : Lane) (k : Strand) (x0 : KcOp) : (s.execute l k x0).Fine := by
  unfold State.execute
  grind [← fine_mk, ← State.setReplica_fine, ← State.retire_fine, ← State.consumePoison_fine, ← State.doLoad_fine,
      ← State.doStore_fine]

theorem execKc64Instruction_fine (l : Lane) (k : Strand) (op : KcOp) (regs : List Dword) {s : State} (hs : s.Fine) : FineOut
    (execKc64Instruction l k op regs s) := by
  grind [execKc64Instruction, ← fine_mk, ← fineOut_next, ← State.setReplica_fine, ← State.endStep_fine, ← State.execute_fine]

theorem State.pageInstr_fine {s : State} (hs : s.Fine) (l : Lane) (k : Strand) (off : Nat) (data : Word) : (s.pageInstr l k off
    data).Fine := by
  grind [State.pageInstr, ← State.doStore_fine, ← State.endStep_fine]

theorem execSqSend_fine (l : Lane) (k : Strand) (data : Word) {s : State} (hs : s.Fine) : FineOut (execSqSend l k data s) := by
  grind [execSqSend, ← fineOut_next, ← State.pageInstr_fine]

end Sys2Proof.Machine
end

-- ==== Proofs: register spaces, lane memories, rejoin, restart and debug (O4) ====
section
/-! Landing broadcasts, scrub, lane faults, rejoin and join, timing commits, restarts and debug requests. -/

namespace Sys2Proof.Machine

set_option Elab.async false

theorem execSqRxpop_fine (l : Lane) (k : Strand) (data : Word) {s : State} (hs : s.Fine) : FineOut (execSqRxpop l k data s) := by
  grind [execSqRxpop, ← fineOut_next, ← State.pageInstr_fine]

theorem execSwEventSet_fine (l : Lane) (k : Strand) (data : Word) {s : State} (hs : s.Fine) : FineOut (execSwEventSet l k data s)
    := by
  grind [execSwEventSet, ← fineOut_next, ← State.pageInstr_fine]

theorem execEvPendClear_fine (l : Lane) (k : Strand) (n : Nat) (data : Word) {s : State} (hs : s.Fine) : FineOut (execEvPendClear
    l k n data s) := by
  grind [execEvPendClear, ← fineOut_next, ← State.pageInstr_fine]

theorem execSqCopyArrive_fine (l : Lane) (src dst : Strand) (m : SqMsg) {s : State} (hs : s.Fine) : FineOut (execSqCopyArrive l
    src dst m s) := by
  grind [execSqCopyArrive, ← fineOut_next, ← State.arrive_fine, ← State.commitMsg_fine]

theorem execEpochMark_fine (l : Lane) (k : Strand) {s : State} (hs : s.Fine) : FineOut (execEpochMark l k s) := by
  grind [execEpochMark, ← fine_mk, ← fineOut_next, ← State.setReplica_fine, ← State.retire_fine, ← State.endStep_fine]

theorem State.idleAdvance_fine {s : State} (hs : s.Fine) (l : Lane) (k : Strand) : (s.idleAdvance l k).Fine := by
  grind [State.idleAdvance, ← fine_mk, ← State.setReg64_fine, ← State.setReplica_fine]

theorem execWaitForEvent_fine (l : Lane) (k : Strand) {s : State} (hs : s.Fine) : FineOut (execWaitForEvent l k s) := by
  grind [execWaitForEvent, ← fineOut_next, ← State.retire_fine, ← State.idleAdvance_fine]

theorem execIdleAdvance_fine (l : Lane) (k : Strand) {s : State} (hs : s.Fine) : FineOut (execIdleAdvance l k s) := by
  grind [execIdleAdvance, ← fineOut_next, ← State.idleAdvance_fine]

theorem execAbsentUnitAccess_fine (l : Lane) (k : Strand) (addr : Addr) (size : Nat) (write : Bool) {s : State} (hs : s.Fine) :
    FineOut (execAbsentUnitAccess l k addr size write s) := by
  grind [execAbsentUnitAccess, ← fine_mk, ← fineOut_next, ← State.doLoad_fine, ← State.doStore_fine]

theorem State.debugPoke_fine {s : State} (hs : s.Fine) (l : Lane) (k : Strand) (a : Nat) (bs : List Byte) : (s.debugPoke l k a
    bs).Fine := by
  grind [State.debugPoke, ← fine_mk, ← State.laneStore_fine, ← State.pageStore_fine]

theorem execDebugRequest_fine (l : Lane) (k : Strand) (q : DebugReq) {s : State} (hs : s.Fine) : FineOut (execDebugRequest l k q
    s) := by
  unfold execDebugRequest
  grind [← fine_mk, ← fineOut_next, ← State.setReplica_fine, ← State.logEv_fine, ← State.debugPoke_fine]

theorem State.noteBroadcast_fine {s : State} (hs : s.Fine) (l : Lane) (k : Strand) (a : Nat) : (s.noteBroadcast l k a).Fine := by
  grind [State.noteBroadcast, ← fine_mk, ← State.setScrub_fine, ← State.voidScrub_fine]

theorem State.landBroadcast_fine {s : State} (hs : s.Fine) (l : Lane) (w : Broadcast) : (s.landBroadcast l w).Fine := by
  grind [State.landBroadcast, ← fine_mk, ← State.laneStore_fine, ← State.markDirtyRange_fine, ← State.noteBroadcast_fine]

theorem State.noteLanded_fine {s : State} (hs : s.Fine) (p : PDie) (l : Lane) : (s.noteLanded p l).Fine := by
  grind [State.noteLanded, ← fine_mk]

theorem execBroadcastWriteLand_fine (l : Lane) (w : Broadcast) (ue : Bool) {s : State} (hs : s.Fine) :
    FineOut (execBroadcastWriteLand l w ue s) := by
  have ht : ((s.arrive (.broadcast l w)).noteLanded w.die l).Fine := State.noteLanded_fine (State.arrive_fine hs _) ..
  rw [execBroadcastWriteLand]
  split
  · refine fineOut_next (fine_ite _ (fine_ite _ ht (fine_ite _ ?_ ?_)) hs)
    · exact State.loseWrite_fine ht ..
    · exact State.landBroadcast_fine ht ..
  · exact fineOut_fault _

theorem execScrubHashDone_fine (l : Lane) (k : Strand) {s : State} (hs : s.Fine) : FineOut (execScrubHashDone l k s) := by
  grind [execScrubHashDone, ← fine_mk, ← fineOut_next, ← State.setScrub_fine, ← State.logEv_fine, ← State.eccAddr_fine]

theorem State.scrubRetry_fine {s : State} (hs : s.Fine) (k : Strand) (h : ScrubHash) : (s.scrubRetry k h).Fine := by
  grind [State.scrubRetry, ← fine_mk, ← fine_foldl, ← State.bump_fine, ← State.setScrub_fine]

theorem State.scrubAdvance_fine {s : State} (hs : s.Fine) (k : Strand) (h : ScrubHash) : (s.scrubAdvance k h).Fine := by
  grind [State.scrubAdvance, ← fine_mk, ← fine_foldl, ← State.bumpWrap_fine, ← State.setScrub_fine, ← State.latch_fine]

theorem State.scrubExcludes_fine {s : State} (hs : s.Fine) (k : Strand) (x : Lane) : (s.scrubExcludes k x).Fine := by
  grind [State.scrubExcludes, ← fine_foldl, ← State.echoExcludes_fine]

theorem State.scrubCompare_fine {s : State} (hs : s.Fine) (k : Strand) (got : List (Lane × ScrubHash)) : (s.scrubCompare k
    got).Fine := by
  unfold State.scrubCompare
  split <;> grind [← fine_mk, ← fine_foldl, ← fine_foldl_fst, ← State.echoSplits_fine, ← State.scrubRetry_fine,
      ← State.scrubAdvance_fine, ← State.scrubExcludes_fine]

theorem execScrubCompare_fine (k : Strand) {s : State} (hs : s.Fine) : FineOut (execScrubCompare k s) := by
  grind [execScrubCompare, ← fine_mk, ← fineOut_next, ← State.scrubCompare_fine]

theorem State.ownFault_fine {s : State} (hs : s.Fine) (l : Lane) (c : LaneFault) : (s.ownFault l c).Fine := by
  grind [State.ownFault, ← fine_foldl, ← State.setFld_fine, ← State.send_fine, ← State.stopCore_fine]

theorem State.poisonWord_fine {s : State} (hs : s.Fine) (l : Lane) (a src : Nat) (k : Strand) : (s.poisonWord l a src k).Fine :=
    by
  grind [State.poisonWord, ← fine_mk, ← State.bump_fine, ← State.setLane_fine, ← State.eccAddr_fine]

theorem State.memoryUe_fine {s : State} (hs : s.Fine) (l : Lane) (loc : UeLoc) (a : Nat) : (s.memoryUe l loc a).Fine := by
  unfold State.memoryUe
  grind [← fine_mk, ← State.bump_fine, ← State.ownFault_fine, ← State.poisonWord_fine]

theorem execMemoryUe_fine (l : Lane) (loc : UeLoc) (addr : Addr) {s : State} (hs : s.Fine) : FineOut (execMemoryUe l loc addr s) := by
  have ht := State.memoryUe_fine hs l loc addr.toNat
  rw [execMemoryUe]
  split
  · exact fineOut_next (fine_ite _ (State.abandonRejoin_fine ht _) ht)
  · exact fineOut_fault _

theorem execPatrolRead_fine (l : Lane) (f : PatrolFind) (addr : Addr) {s : State} (hs : s.Fine) :
    FineOut (execPatrolRead l f addr s) := by
  have hat (v : Nat) := State.setFld_fine hs l.unit Reg.lnPatrol 15 0 v
  have ht (c : Prop) [Decidable c] (v : Nat) : (if c then (((s.setFld l.unit Reg.lnPatrol 15 0 v).setFld l.unit Reg.lnPatrol 15 0
      0).bumpWrap l.unit Reg.lnPatrol 31 16) else s.setFld l.unit Reg.lnPatrol 15 0 v).Fine :=
    fine_ite _ (State.bumpWrap_fine (State.setFld_fine (hat v) ..) ..) (hat v)
  rw [execPatrolRead]
  dsimp only
  split
  · cases f with
    | clean => exact fineOut_next (ht ..)
    | correctable => exact fineOut_next (State.bump_fine (ht ..) ..)
    | uncorrectable => exact fineOut_next (State.memoryUe_fine (ht ..) ..)
    | busy => exact fineOut_next (ht ..)
  · exact fineOut_fault _

theorem execFaultLineAssert_fine (l : Lane) (c : LaneFault) {s : State} (hs : s.Fine) : FineOut (execFaultLineAssert l c s) := by
  grind [execFaultLineAssert, ← fine_foldl, ← fineOut_next, ← State.setFld_fine, ← State.setFlag_fine, ← State.arrive_fine,
      ← State.stopCore_fine, ← State.sendRetire_fine]

theorem State.retireLate_fine {s : State} (hs : s.Fine) : (s.retireLate).Fine := by
  grind [State.retireLate, ← fine_mk, ← State.sendRetire_fine]

theorem execLaneRetire_fine (l : Lane) (c : LaneFault) {s : State} (hs : s.Fine) : FineOut (execLaneRetire l c s) := by
  grind [execLaneRetire, ← fineOut_next, ← State.arrive_fine, ← State.retireLane_fine, ← State.showHeldAll_fine,
      ← State.reStepAll_fine, ← State.agreeAgain_fine]

theorem execFlitReplay_fine (i : LinkId) {s : State} (hs : s.Fine) : FineOut (execFlitReplay i s) := by
  unfold execFlitReplay
  grind [← fine_mk, ← fineOut_next, ← State.bump_fine]

theorem execCrawlwayLinkFailed_fine (l o : Lane) {s : State} (hs : s.Fine) : FineOut (execCrawlwayLinkFailed l o s) := by
  grind [execCrawlwayLinkFailed, ← fineOut_next, ← State.failLink_fine]

theorem State.loseBroadcast_fine {s : State} (hs : s.Fine) (l : Lane) (w : Broadcast) : (s.loseBroadcast l w).Fine := by
  grind [State.loseBroadcast, ← State.broadcastTo_fine]

theorem execLinkFail_fine (l : Lane) (d : Die) {s : State} (hs : s.Fine) : FineOut (execLinkFail l d s) := by
  refine fineOut_next (State.showHeldAll_fine (fine_foldl
    (State.setJLink_fine (State.logEv_fine (State.setLane_fine hs ..) ..) ..) (fun t w ht => ?_) _))
  split
  · exact State.loseBroadcast_fine ht ..
  · exact ht

theorem State.setQueued_fine {s : State} (hs : s.Fine) (k : Strand) (b : Bool) : (s.setQueued k b).Fine := by
  grind [State.setQueued, ← State.setLaneFld_fine]

theorem State.requestRejoin_fine {s : State} (hs : s.Fine) (k : Strand) (x : Lane) : (s.requestRejoin k x).Fine := by
  rw [State.requestRejoin]
  split
  · exact State.ignored_fine hs ..
  · split
    · exact State.setRjResult_fine hs ..
    · exact State.setQueued_fine (fine_mk hs ..) ..

theorem execRejoin_fine (k : Strand) (repl : Lane) {s : State} (hs : s.Fine) : FineOut (execRejoin k repl s) := by
  grind [execRejoin, ← fineOut_next, ← State.requestRejoin_fine]

theorem State.autoAsked_fine {s : State} (hs : s.Fine) (k : Strand) (x : Lane) : (s.autoAsked k x).Fine := by
  grind [State.autoAsked, ← fine_mk, ← fine_foldl, ← State.setEcho_fine]

theorem execAutoRejoinRequest_fine (k : Strand) (repl : Lane) {s : State} (hs : s.Fine) : FineOut (execAutoRejoinRequest k repl
    s) := by
  grind [execAutoRejoinRequest, ← fineOut_next, ← State.requestRejoin_fine, ← State.autoAsked_fine]

theorem State.abandonCmd_fine {s : State} (hs : s.Fine) (k : Strand) : (s.abandonCmd k).Fine := by
  grind [State.abandonCmd, ← fine_mk, ← State.setRjResult_fine, ← State.abandonRejoinOf_fine, ← State.setQueued_fine]

theorem execAbandon_fine (k : Strand) {s : State} (hs : s.Fine) : FineOut (execAbandon k s) := by
  grind [execAbandon, ← fineOut_next, ← State.abandonCmd_fine]

theorem State.endDebug_fine {s : State} (hs : s.Fine) (x : Lane) (k : Strand) : (s.endDebug x k).Fine := by
  grind [State.endDebug, ← fine_mk, ← State.setReplica_fine]

theorem execRejoinStart_fine (k : Strand) {s : State} (hs : s.Fine) : FineOut (execRejoinStart k s) := by
  have hq (q : Quad (Option Lane)) : ({ s with rejoinQueue := q }.setQueued k false).Fine := State.setQueued_fine (fine_mk hs ..) ..
  have hshow (t : State) (ht : t.Fine) (x d : Lane) : ((((t.setLaneFld (Reg.rjStat k.idx) 23 20 0).setLaneFld (Reg.rjStat k.idx) 17 16
      d.idx).setLaneFld (Reg.rjStat k.idx) 13 12 x.idx).setRjPhase k 1).showDirty.Fine :=
    State.showDirty_fine (State.setRjPhase_fine (State.setLaneFld_fine (State.setLaneFld_fine (State.setLaneFld_fine ht ..) ..) ..) ..)
  refine fineOut_next ?_
  split
  · refine fine_ite _ hs ?_
    dsimp only
    split
    · exact State.setRjResult_fine (hq _) ..
    · exact State.setRjResult_fine (hq _) ..
    · exact State.latchChangeAll_fine (State.endDebug_fine (hshow _ (fine_mk (hq _) ..) ..) ..) ..
  · exact hs

theorem State.copyPages_fine {s : State} (hs : s.Fine) (k : Strand) (src dst : Lane) (pages : Option (List Nat)) : (s.copyPages k
    src dst pages).Fine := by
  unfold State.copyPages
  grind [← fine_mk, ← fine_foldl, ← State.setLane_fine]

theorem State.arrangeStall_fine {s : State} (hs : s.Fine) (r : RejoinRun) : (s.arrangeStall r).Fine := by
  grind [State.arrangeStall, ← fine_mk, ← fine_foldl, ← State.setEcho_fine, ← State.setRjPhase_fine]

theorem State.nextPass_fine {s : State} (hs : s.Fine) (r : RejoinRun) : (s.nextPass r).Fine := by
  grind [State.nextPass, ← fine_mk, ← State.setLaneFld_fine, ← State.showDirty_fine, ← State.setRjPhase_fine,
      ← State.abandonRejoin_fine, ← State.arrangeStall_fine]

theorem execCopyPassEnd_fine {s : State} (hs : s.Fine) : FineOut (execCopyPassEnd s) := by
  grind [execCopyPassEnd, ← fine_mk, ← fineOut_next, ← State.showDirty_fine, ← State.copyPages_fine, ← State.arrangeStall_fine,
      ← State.nextPass_fine]

theorem State.holdAt_fine {s : State} (hs : s.Fine) (r : RejoinRun) (p : PDie) : (s.holdAt r p).Fine := by
  grind [State.holdAt, ← fine_mk, ← State.setPort_fine, ← State.stallCopies_fine]

theorem execRejoinHold_fine {s : State} (hs : s.Fine) : FineOut (execRejoinHold s) := by
  grind [execRejoinHold, ← fine_mk, ← fineOut_next, ← State.holdAt_fine]

theorem State.keepMsgs_fine {s : State} (hs : s.Fine) (l : Lane) (k : Strand) (old : Echo) : (s.keepMsgs l k old).Fine := by
  grind [State.keepMsgs, ← fine_foldl, ← State.commitMsg_fine]

theorem State.copyPage_fine {s : State} (hs : s.Fine) (k : Strand) (src dst : Lane) : (s.copyPage k src dst).Fine :=
  fine_set hs dst.unit (memCopy_wf _ _ _ (hs.files _))

theorem State.settlePass_fine {s : State} (hs : s.Fine) (r : RejoinRun) : (s.settlePass r).1.Fine := by
  grind [State.settlePass, ← fine_mk, ← State.copyPages_fine]

theorem State.finalCopy_fine {s : State} (hs : s.Fine) (r : RejoinRun) : (s.finalCopy r).Fine := by
  have hpages (x : Option RejoinRun) : (State.showDirty { s.copyPages r.strand r.donor r.target (some r.dirty) with rejoin := x }).Fine :=
    State.showDirty_fine (fine_mk (State.copyPages_fine hs ..) ..)
  have hjoin (t : State) (ht : t.Fine) (x : Replica) (e old : Echo) :
      (((t.setReplica r.target r.strand x).setEcho r.target r.strand e).keepMsgs r.target r.strand old).Fine :=
    State.keepMsgs_fine (State.setEcho_fine (State.setReplica_fine ht ..) ..) ..
  exact fine_mk (State.setScrub_fine (hjoin _ (State.copyPage_fine (hpages _) ..) ..) ..) ..

theorem execHoldAck_fine (p : PDie) {s : State} (hs : s.Fine) : FineOut (execHoldAck p s) := by
  unfold execHoldAck
  grind [← fine_mk, ← fineOut_next, ← State.releaseHolds_fine, ← State.recordStall_fine, ← State.resumePaused_fine,
      ← State.abandonRejoin_fine, ← State.nextPass_fine, ← State.holdAt_fine, ← State.settlePass_fine, ← State.finalCopy_fine]

theorem execHoldTimeout_fine {s : State} (hs : s.Fine) : FineOut (execHoldTimeout s) := by
  grind [execHoldTimeout, ← fine_mk, ← fineOut_next, ← State.abandonRejoin_fine, ← State.holdAt_fine]

theorem execStallOver_fine {s : State} (hs : s.Fine) : FineOut (execStallOver s) := by
  grind [execStallOver, ← fine_mk, ← fineOut_next, ← State.abandonRejoin_fine]

theorem State.joinVoter_fine {s : State} (hs : s.Fine) (r : RejoinRun) (d : Die) : (s.joinVoter r d).Fine := by
  unfold State.joinVoter
  split <;> grind [← fine_mk, ← State.setFlag_fine, ← State.setVoter_fine, ← State.setPort_fine, ← State.showSump_fine,
      ← State.showMode_fine]

theorem execJoinNotice_fine {s : State} (hs : s.Fine) : FineOut (execJoinNotice s) := by
  have hvoters (r : RejoinRun) : ((s.recordStall r).dies.foldl (fun t d => t.joinVoter r d) (s.recordStall r)).Fine :=
    fine_foldl (State.recordStall_fine hs r) (fun t d ht => State.joinVoter_fine ht ..) _
  have hshow (t : State) (ht : t.Fine) (r : RejoinRun) (res : Nat) : ((((t.setLaneFld (Reg.rjHist r.strand.idx)
      (17 + 2 * r.target.idx) (16 + 2 * r.target.idx) 0).setRjResult r.strand res).setRjPhase r.strand 0).setReg r.donor.unit
      (Reg.rjDirty r.strand.idx) 0).Fine :=
    State.setReg_fine (State.setRjPhase_fine (State.setRjResult_fine (State.setLaneFld_fine ht ..) ..) ..) ..
  have hgo (t : State) (ht : t.Fine) (r : RejoinRun) : ((t.releaseHolds.resumePaused r.strand).showLaneView r.target).Fine :=
    State.showLaneView_fine (State.resumePaused_fine (State.releaseHolds_fine ht) ..) ..
  refine fineOut_next ?_
  split
  · refine fine_ite _ hs (fine_ite _ (State.abandonRejoin_fine hs _) (hgo _ (hshow _ (State.latchChangeAll_fine ?_ ..) ..) _))
    exact fine_foldl (State.setReplica_fine (fine_mk (hvoters _) ..) ..) (fun t l ht => State.setEcho_fine ht ..) _
  · exact hs

theorem State.tcfgGo_fine {s : State} (hs : s.Fine) (l : Lane) (k : Strand) : (s.tcfgGo l k).Fine := by
  grind [State.tcfgGo, ← fine_mk, ← State.ignored_fine, ← State.showTcfg_fine, ← State.tcfgSettle_fine]

theorem execTcfgCommitGo_fine (l : Lane) (k : Strand) {s : State} (hs : s.Fine) : FineOut (execTcfgCommitGo l k s) := by
  grind [execTcfgCommitGo, ← fineOut_next, ← State.tcfgGo_fine]

theorem execTcfgGoTimeout_fine (k : Strand) {s : State} (hs : s.Fine) : FineOut (execTcfgGoTimeout k s) := by
  grind [execTcfgGoTimeout, ← fine_mk, ← fineOut_next, ← State.refuseTcfg_fine, ← State.tcfgSettle_fine]

theorem State.tcfgAtStart_fine {s : State} (hs : s.Fine) (k : Strand) : (s.tcfgAtStart k).Fine := by
  grind [State.tcfgAtStart, ← fine_mk, ← fine_foldl, ← State.setPending_fine, ← State.tcfgFinish_fine]

theorem State.landCopies_fine {s : State} (hs : s.Fine) (k : Strand) : (s.landCopies k).Fine := by
  grind [State.landCopies, ← fine_mk, ← fine_foldl, ← State.arrive_fine, ← State.commitMsg_fine]

theorem State.landBroadcasts_fine {s : State} (hs : s.Fine) (k : Strand) : (s.landBroadcasts k).Fine := by
  unfold State.landBroadcasts
  grind [← fine_mk, ← fine_foldl, ← State.arrive_fine, ← State.landBroadcast_fine, ← State.noteLanded_fine]

theorem State.freshPage_fine {s : State} (hs : s.Fine) (l : Lane) (k : Strand) : (s.freshPage l k).Fine :=
  State.showCredits_fine (State.setFlag_fine (State.setReg_fine (State.setReg_fine
    (fine_set hs l.unit (memCopy_wf _ _ _ (hs.files _))) ..) ..) ..) ..

theorem State.freshVoter_fine {s : State} (hs : s.Fine) (d : Die) (k : Strand) (ls : List Lane) : (s.freshVoter d k ls).Fine := by
  unfold State.freshVoter
  grind [← fine_mk, ← fine_foldl, ← State.setFld_fine, ← State.setFlag_fine, ← State.setVoter_fine, ← State.showSump_fine,
      ← State.showMode_fine]

theorem State.dropUp_fine {s : State} (hs : s.Fine) (k : Strand) (l : Lane) : (s.dropUp k l).Fine := by
  grind [State.dropUp, ← fine_mk, ← fine_foldl, ← State.setJLink_fine]

theorem State.freshLane_fine {s : State} (hs : s.Fine) (k : Strand) (ls : List Lane) (pops sent : Quad Half) (l : Lane) :
    (s.freshLane k ls pops sent l).Fine := by
  grind [State.freshLane, ← State.setReplica_fine, ← State.setEcho_fine, ← State.setScrub_fine, ← State.freshPage_fine,
      ← State.dropUp_fine]

theorem State.markReleased_fine {s : State} (hs : s.Fine) (k : Strand) : (s.markReleased k).Fine := by
  grind [State.markReleased, ← fine_mk]

theorem State.releaseStrand_fine {s : State} (hs : s.Fine) (k : Strand) (ls : List Lane) : (s.releaseStrand k ls).Fine := by
  have hvoters : (s.dies.foldl (fun t d => t.freshVoter d k ls) s).Fine :=
    fine_foldl hs (fun t d ht => State.freshVoter_fine ht ..) _
  have hlanes (t : State) (ht : t.Fine) (p q : Quad Half) : (Lane.list.foldl (fun (t : State) l => t.freshLane k ls p q l) t).Fine :=
    fine_foldl ht (fun t l ht => State.freshLane_fine ht ..) _
  exact fine_foldl (State.tcfgAtStart_fine (State.markReleased_fine (hlanes _ (State.landCopies_fine hvoters ..) ..) ..) ..)
    (fun t l ht => State.showLaneView_fine ht l) _

theorem State.loadSection_fine {s : State} (hs : s.Fine) (l : Lane) (k : Strand) (image : List Byte) : (s.loadSection l k
    image).Fine := by
  grind [State.loadSection, ← fine_mk, ← State.setLane_fine]

theorem State.restart_fine {s : State} (hs : s.Fine) (k : Strand) (image : List Byte) (received : Tri (Option (List Byte))) :
    (s.restart k image received).Fine := by
  have hload (ls : List Lane) : (ls.foldl (fun (t : State) l => t.loadSection l k (receivedBy image received l))
      (s.landBroadcasts k)).Fine :=
    fine_foldl (State.landBroadcasts_fine hs k) (fun t l ht => State.loadSection_fine ht ..) _
  have htell (t : State) (ht : t.Fine) : ((Strand.list.filter fun j => j != k).foldl (fun t j => t.raise .m j 214) t).Fine :=
    fine_foldl ht (fun t j ht => State.raise_fine ht ..) _
  have hrelease (t : State) (ht : t.Fine) (ls : List Lane) : ((((t.releaseStrand k ls).resetChansOf k).mbRestart k).setCeil k 8
      false).Fine :=
    State.setCeil_fine (State.mbRestart_fine (State.resetChansOf_fine (State.releaseStrand_fine ht ..) ..) ..) ..
  refine fine_ite _ (State.setRjResult_fine hs ..) (fine_ite _ (State.setRjResult_fine hs ..) (fine_ite _ ?_ ?_))
  · exact State.setRjResult_fine (hload _) ..
  · exact State.setRjResult_fine (htell _ (hrelease _ (hload _) _)) ..

theorem execRestart_fine (k : Strand) (image : List Byte) (received : Tri (Option (List Byte))) {s : State} (hs : s.Fine) :
    FineOut (execRestart k image received s) := by
  grind [execRestart, ← fineOut_next, ← State.restart_fine]

theorem State.enterDebug_fine {s : State} (hs : s.Fine) (x : Lane) (k : Strand) : (s.enterDebug x k).Fine := by
  grind [State.enterDebug, ← fine_mk, ← State.setReplica_fine, ← State.finishLoad_fine]

theorem State.recordAttach_fine {s : State} (hs : s.Fine) (x : Lane) : (s.recordAttach x).Fine := by
  grind [State.recordAttach, ← fine_mk, ← fine_foldl, ← fine_foldl_fst, ← State.setFlag_fine, ← State.writeRecs_fine]

theorem State.attach_fine {s : State} (hs : s.Fine) (k : Strand) (x : Lane) : (s.attach k x).Fine := by
  have hheard : (((s.enterDebug x k).dies.filter (s.enterDebug x k).dieHears).foldl (fun t d => t.voterNotice d k x)
      (s.enterDebug x k)).Fine :=
    fine_foldl (State.enterDebug_fine hs ..) (fun t d ht => State.voterNotice_fine ht ..) _
  have hleave (t : State) (ht : t.Fine) : (t.liveLanes.foldl (fun (t : State) l =>
      t.setEcho l k { t.echo l k with inStep := (t.echo l k).inStep.set x false }) t).Fine :=
    fine_foldl ht (fun t l ht => State.setEcho_fine ht ..) _
  exact State.logEv_fine (State.recordAttach_fine (State.agreeAgain_fine (State.tcfgSettle_fine
    (hleave _ (State.latchChangeAll_fine hheard ..)) ..)) ..) ..

theorem execDebugAttach_fine (k : Strand) (repl : Lane) {s : State} (hs : s.Fine) : FineOut (execDebugAttach k repl s) := by
  grind [execDebugAttach, ← fine_mk, ← fineOut_next, ← State.logEv_fine, ← State.attach_fine]

theorem execDbgEnChange_fine (on : Bool) {s : State} (hs : s.Fine) : FineOut (execDbgEnChange on s) := by
  grind [execDbgEnChange, ← fine_foldl, ← fineOut_next, ← State.setFlag_fine]

theorem State.rjCmd_fine {s : State} (hs : s.Fine) (u : RUnit) (v : Word) (image' : Strand → List Byte) : (s.rjCmd u v
    image').Fine := by
  grind [State.rjCmd, ← fine_mk, ← State.ignored_fine, ← State.requestRejoin_fine, ← State.abandonCmd_fine, ← State.restart_fine]

theorem execExclusionNoticeReceive_fine (l : Lane) (k : Strand) (repl : Lane) (c : Cause) {s : State} (hs : s.Fine) : FineOut
    (execExclusionNoticeReceive l k repl c s) := by
  grind [execExclusionNoticeReceive, ← fineOut_next, ← State.arrive_fine, ← State.excludeAt_fine, ← State.tryAgree_fine]

theorem execSplitNoticeReceive_fine (l : Lane) (k : Strand) (c : Cause) {s : State} (hs : s.Fine) : FineOut
    (execSplitNoticeReceive l k c s) := by
  grind [execSplitNoticeReceive, ← fineOut_next, ← State.arrive_fine, ← State.haltAt_fine]

theorem execNetworkTimeTimeout_fine (l : Lane) (p : PDie) {s : State} (hs : s.Fine) : FineOut (execNetworkTimeTimeout l p s) := by
  grind [execNetworkTimeTimeout, ← fine_mk, ← fineOut_next, ← State.setLane_fine]

theorem State.setFlashSlot_fine {s : State} (hs : s.Fine) (i : Nat) (second : Bool) (x : FlashSlot) : (s.setFlashSlot i second
    x).Fine := by
  grind [State.setFlashSlot, ← fine_mk]

theorem State.vetoUpdate_fine {s : State} (hs : s.Fine) : (s.vetoUpdate).Fine := by
  grind [State.vetoUpdate, ← fine_mk, ← State.cancelUpdate_fine]

theorem State.endFreeze_fine {s : State} (hs : s.Fine) : (s.endFreeze).Fine := by
  grind [State.endFreeze, ← fine_mk]

theorem State.confirmUpdate_fine {s : State} (hs : s.Fine) : (s.confirmUpdate).Fine := by
  grind [State.confirmUpdate, ← fine_mk, ← State.setFld_fine, ← State.logEv_fine, ← State.writeRecs_fine, ← State.setUpd_fine,
      ← State.showBoot_fine, ← State.endFreeze_fine]

theorem State.updCtlWrite_fine {s : State} (hs : s.Fine) (v : Word) : (s.updCtlWrite v).Fine := by
  grind [State.updCtlWrite, ← State.vetoUpdate_fine, ← State.confirmUpdate_fine]

theorem State.updCtl_fine {s : State} (hs : s.Fine) (k : Strand) (v : Word) : (s.updCtl k v).Fine := by
  grind [State.updCtl, ← State.logRsvd_fine, ← State.updCtlWrite_fine]

theorem execVeto_fine (k : Strand) {s : State} (hs : s.Fine) : FineOut (execVeto k s) := by
  grind [execVeto, ← fineOut_next, ← State.atM_fine, ← State.updCtl_fine]

theorem execConfirm_fine (k : Strand) {s : State} (hs : s.Fine) : FineOut (execConfirm k s) := by
  grind [execConfirm, ← fineOut_next, ← State.atM_fine, ← State.updCtl_fine]

theorem execSuccessfulBoot_fine {s : State} (hs : s.Fine) : FineOut (execSuccessfulBoot s) := by
  have hcount (m : Mgmt) : State.Fine { s with mgmt := m } := fine_mk hs ..
  have hshow (m : Mgmt) (b : BootRec) : (({ s with mgmt := m } : State).writeBoot b).showBoot.Fine :=
    State.showBoot_fine (State.writeBoot_fine (hcount m) b)
  refine fineOut_next (fine_ite _ (fine_ite _ (hcount _) (fine_ite _ ?_ ?_)) hs)
  · exact State.showBoot_fine (State.endFreeze_fine (State.confirmUpdate_fine (hshow ..)))
  · exact hshow ..

end Sys2Proof.Machine
end

-- ==== Proofs: register spaces, register accesses, beats and the boot (O4) ====
section
/-! Register reads and writes by their access codes, the voters' beats, what a power loss keeps, and the steps of a boot. -/

namespace Sys2Proof.Machine

set_option Elab.async false

theorem State.unmapped_fine {s : State} (hs : s.Fine) (m : Master) (u : RUnit) (off : Nat) : (s.unmapped m u off).Fine := by
  grind [State.unmapped, ← State.logEv_fine]

theorem State.portAct_fine {s : State} (hs : s.Fine) (m : Master) (p : PDie) (off : Nat) (d : RegDesc) (is : List Nat)
    (mask data : Word) : ∀ s', s.portAct m p off d is mask data = some s' → s'.Fine := by
  unfold State.portAct
  dsimp only
  split
  case h_1 => exact fine_some (fine_ite _ (State.ttGo_fine hs ..) hs)
  case h_2 => exact fine_some (fine_ite _ (State.gwGo_fine hs ..) hs)
  case h_3 => exact fine_some (State.modeReqWrite_fine hs ..)
  case h_4 => exact fine_some (fine_ite _ (State.guardUnlatch_fine hs ..) hs)
  case h_5 => exact fine_some (State.dmCtlWrite_fine hs ..)
  case h_6 => exact fine_some (State.doorbell_fine hs ..)
  case h_7 => exact fine_some (State.quiesceWrite_fine hs ..)
  case h_8 => exact fine_map (fun k => State.swPub_fine hs ..) _
  case h_9 => exact fine_some (State.holdLow_fine hs ..)
  case h_10 => exact fine_map (fun k => State.rrAsk_fine (fine_mk hs ..) ..) _
  case h_11 => exact fine_map (fun k => State.rrFree_fine hs ..) _
  case h_12 => exact fine_some (State.canCtlWrite_fine hs ..)
  case h_13 => exact fine_map (fun k => State.lsCmd_fine hs ..) _
  case h_14 => exact fine_none

theorem State.mgmtAct_fine {s : State} (hs : s.Fine) (m : Master) (d : RegDesc) (is : List Nat) (mask data : Word) :
    ∀ s', s.mgmtAct m d is mask data = some s' → s'.Fine := by
  unfold State.mgmtAct
  dsimp only
  split
  case h_1 => exact fine_some (State.lockWrite_fine hs ..)
  case h_2 => exact fine_some (State.lockForce_fine hs ..)
  case h_3 => exact fine_some (fine_ite _ hs (State.ceilTake_fine hs ..))
  case h_4 => exact fine_map (fun l => fine_ite _ hs (State.planWrite_fine hs ..)) _
  case h_5 => exact fine_map (fun k => State.updCtl_fine hs ..) _
  case h_6 => exact fine_none

theorem State.laneAct_fine {s : State} (hs : s.Fine) (l : Lane) (d : RegDesc) (is : List Nat) (mask data : Word) : ∀ s',
    s.laneAct l d is mask data = some s' → s'.Fine := by
  grind [State.laneAct, ← fine_mk, ← State.tcfgGo_fine, ← State.rjCmd_fine]

theorem State.fieldAct_fine {s : State} (hs : s.Fine) (m : Master) (d : RegDesc) (mask data : Word) :
    ∀ s', s.fieldAct m d mask data = some s' → s'.Fine := by
  unfold State.fieldAct
  dsimp only
  split
  case h_1 => exact fine_some (fine_ite _ (State.fdGo_fine hs) hs)
  case h_2 => exact fine_some hs
  case h_3 => exact fine_map (fun k => State.clearFaults_fine hs ..) _
  case h_4 => exact fine_none

theorem State.writeAct_fine {s : State} (hs : s.Fine) (m : Master) (u : RUnit) (off : Nat) (d : RegDesc) (is : List Nat)
    (mask data : Word) : ∀ s', s.writeAct m u off d is mask data = some s' → s'.Fine := by
  cases u with
  | p1 => exact State.portAct_fine hs _ _ _ _ _ _ _
  | p2 => exact State.portAct_fine hs _ _ _ _ _ _ _
  | f => exact State.fieldAct_fine hs _ _ _ _
  | m => exact State.mgmtAct_fine hs _ _ _ _ _
  | la => exact State.laneAct_fine hs _ _ _ _ _
  | lb => exact State.laneAct_fine hs _ _ _ _ _
  | lc => exact State.laneAct_fine hs _ _ _ _ _

theorem State.lockedWrite_fine {s : State} (hs : s.Fine) (m : Master) (u : RUnit) (off : Nat) (d : RegDesc) (is : List Nat) : ∀
    s', s.lockedWrite m u off d is = some s' → s'.Fine := by
  grind [State.lockedWrite, ← fine_mk, ← State.ignored_fine, ← State.logP_fine]

theorem State.portRead_fine {s : State} (hs : s.Fine) (m : Master) (p : PDie) (off : Nat) (d : RegDesc) (is : List Nat) :
    (s.portRead m p off d is).1.Fine := by
  grind [State.portRead, ← fine_mk, ← State.plainRead_fine, ← State.tsqPop_fine]

theorem State.fieldRead_fine {s : State} (hs : s.Fine) (m : Master) (off : Nat) (d : RegDesc) : (s.fieldRead m off d).1.Fine := by
  unfold State.fieldRead
  grind [← fine_mk, ← State.plainRead_fine, ← State.cosPop_fine, ← State.cosOverflow_fine]

theorem State.measureVin_fine {s : State} (hs : s.Fine) : s.measureVin.Fine := by
  unfold State.measureVin
  exact fine_ite _ (State.useFree_fine (fine_mk (State.setFld_fine hs ..) ..)) hs

theorem State.mgmtRead_fine {s : State} (hs : s.Fine) (m : Master) (off : Nat) (d : RegDesc) (is : List Nat) : (s.mgmtRead m off
    d is).1.Fine := by
  grind [State.mgmtRead, ← fine_mk, ← State.plainRead_fine, ← State.lockRead_fine, ← State.measureVin_fine]

theorem State.werrRead_fine {s : State} (hs : s.Fine) (m : Master) (dd : Die) (off : Nat) (d : RegDesc) (is : List Nat) :
    (s.werrRead m dd off d is).1.Fine := by
  grind [State.werrRead, ← fine_mk, ← State.plainRead_fine, ← State.werrPop_fine]

theorem State.laneRead_fine {s : State} (hs : s.Fine) (l : Lane) (off : Nat) (d : RegDesc) (is : List Nat) : (s.laneRead l off d
    is).1.Fine := by
  grind [State.laneRead, ← fine_mk, ← State.plainRead_fine]

theorem State.readWord_fine {s : State} (hs : s.Fine) (m : Master) (u : RUnit) (off : Nat) : (s.readWord m u off).1.Fine := by
  grind [State.readWord, ← fine_mk, ← State.plainRead_fine, ← State.unmapped_fine, ← State.portRead_fine, ← State.fieldRead_fine,
      ← State.mgmtRead_fine, ← State.werrRead_fine, ← State.laneRead_fine]

theorem State.writeWord_fine {s : State} (hs : s.Fine) (m : Master) (u : RUnit) (off : Nat) (mask data : Word) (wide : Bool) :
    (s.writeWord m u off mask data wide).Fine := by
  have hro (b : Bool) : (if b then s.ignored u off m else s).Fine := fine_ite _ (State.ignored_fine hs ..) hs
  have hi := State.ignored_fine hs u off m
  unfold State.writeWord
  split
  · exact State.unmapped_fine hs ..
  · refine fine_ite _ (State.mbWrite_fine hs ..) (fine_ite _ hi (fine_ite _ hi (fine_ite _ (State.logRsvd_fine hs ..)
      (fine_ite _ hi ?_))))
    split
    next t ht => exact State.lockedWrite_fine hs _ _ _ _ _ t ht
    · dsimp only
      split
      next r hr => exact State.writeAct_fine (hro _) _ _ _ _ _ _ _ r hr
      · exact State.plainWrite_fine (hro _) ..

theorem State.writeWords_fine {s : State} (hs : s.Fine) (m : Master) (u : RUnit) (ws : List (Nat × Word × Word)) (wide : Bool) :
    (s.writeWords m u ws wide).Fine := by
  grind [State.writeWords, ← fine_mk, ← fine_foldl, ← fine_foldl_fst, ← State.logRsvd_fine, ← State.writeWord_fine]

theorem State.unitStore_fine {s : State} (hs : s.Fine) (m : Master) (u : RUnit) (off size : Nat) (data : Dword) : (s.unitStore m
    u off size data).Fine := by
  grind [State.unitStore, ← fine_mk, ← State.ignored_fine, ← State.swDataWrite_fine, ← State.unitWriteAll_fine,
      ← State.writeWords_fine]

theorem State.beatStore_fine {s : State} (hs : s.Fine) (d : Die) (b : Beat) : (s.beatStore d b).Fine := by
  grind [State.beatStore, ← State.unitStore_fine]

theorem State.unitLoad_fine {s : State} (hs : s.Fine) (m : Master) (u : RUnit) (off size : Nat) : (s.unitLoad m u off
    size).1.Fine := by
  grind [State.unitLoad, ← fine_foldl, ← fine_foldl_fst, ← State.readWord_fine]

theorem State.tagLocks_fine {s : State} (hs : s.Fine) (d : Die) (b : Beat) : (s.tagLocks d b).Fine := by
  grind [State.tagLocks, ← fine_mk]

theorem State.beatLoad_fine {s : State} (hs : s.Fine) (d : Die) (b : Beat) : (s.beatLoad d b).1.Fine := by
  grind [State.beatLoad, ← State.readWord_fine, ← State.tagLocks_fine]

theorem State.noteAbsentWords_fine {s : State} (hs : s.Fine) (m : Master) (u : RUnit) (off size : Nat) : (s.noteAbsentWords m u
    off size).Fine := by
  grind [State.noteAbsentWords, ← fine_foldl, ← fine_foldl_fst, ← State.noteAbsentUnit_fine]

theorem State.pageAccess_fine {s : State} (hs : s.Fine) (l : Lane) (k : Strand) (off : Nat) {access : Nat → State}
    (ha : ∀ a, (access a).Fine) : (s.pageAccess l k off access).Fine := by
  grind [State.pageAccess, ← State.endStep_fine]

theorem execGenericRegisterWrite_fine (m : Master) (u : RUnit) (w : RegWrite) {s : State} (hs : s.Fine) : FineOut
    (execGenericRegisterWrite m u w s) := by
  unfold execGenericRegisterWrite
  grind [← fine_mk, ← fineOut_next, ← State.doStore_fine, ← State.unitStore_fine, ← State.noteAbsentWords_fine,
      ← State.pageAccess_fine]

theorem execRcRead_fine (m : Master) (u : RUnit) (off size : Nat) {s : State} (hs : s.Fine) : FineOut (execRcRead m u off size s)
    := by
  unfold execRcRead
  grind [← fine_mk, ← fineOut_next, ← State.doLoad_fine, ← State.unitLoad_fine, ← State.noteAbsentWords_fine,
      ← State.pageAccess_fine]

theorem State.abortCommit_fine {s : State} (hs : s.Fine) (b : CommitBlock) : (s.abortCommit b).Fine := by
  unfold State.abortCommit
  grind [← fine_mk, ← State.refuseTcfg_fine, ← State.commitResult_fine, ← State.ttRefuse_fine]

theorem execCommitAbortedByReset_fine (b : CommitBlock) {s : State} (hs : s.Fine) : FineOut (execCommitAbortedByReset b s) := by
  grind [execCommitAbortedByReset, ← fineOut_next, ← State.abortCommit_fine]

theorem execBeatSend_fine (l : Lane) (k : Strand) {s : State} (hs : s.Fine) : FineOut (execBeatSend l k s) := by
  grind [execBeatSend, ← fine_mk, ← fineOut_next, ← State.setReplica_fine, ← State.send_fine]

theorem State.loseBeat_fine {s : State} (hs : s.Fine) (d : Die) (l : Lane) (b : Beat) : (s.loseBeat d l b).Fine := by
  grind [State.loseBeat, ← fine_mk, ← State.setConsumer_fine]

theorem State.fencedBeat_fine {s : State} (hs : s.Fine) (d : Die) (b : Beat) : (s.fencedBeat d b).Fine := by
  grind [State.fencedBeat, ← fine_mk, ← fine_foldl, ← State.setVoter_fine, ← State.pwFail_fine, ← State.showSump_fine]

theorem State.atArrival_fine {s : State} (hs : s.Fine) (d : Die) (l : Lane) (b : Beat) : (s.atArrival d l b).Fine := by
  grind [State.atArrival, ← fine_mk, ← fine_foldl, ← fine_foldl_fst, ← State.setPort_fine, ← State.askCopies_fine,
      ← State.doCmdTake_fine]

theorem State.sendResult_fine {s : State} (hs : s.Fine) (d : Die) (k : Strand) (ord : Word) (data : Dword) (l : Lane) :
    (s.sendResult d k ord data l).Fine := by
  grind [State.sendResult, ← State.send_fine]

theorem State.takeResults_fine {s : State} (hs : s.Fine) (l : Lane) (d : Die) : (s.takeResults l d).Fine := by
  grind [State.takeResults, ← fine_mk, ← fine_foldl, ← State.arrive_fine, ← State.deliverRead_fine]

theorem State.giveKept_fine {s : State} (hs : s.Fine) (d : Die) (l : Lane) (b : Beat) (ecc : BeatEcc) : (s.giveKept d l b
    ecc).Fine := by
  grind [State.giveKept, ← fine_mk, ← State.voterExclude_fine, ← State.sendResult_fine]

theorem State.decideOrd_fine {s : State} (hs : s.Fine) (d : Die) (l : Lane) (b : Beat) (o : OrdRec) (ecc : BeatEcc) :
    (s.decideOrd d l b o ecc).Fine := by
  grind [State.decideOrd, ← fine_mk, ← State.setVoter_fine, ← State.voterClean_fine, ← State.voterSplit_fine,
      ← State.voterExclude_fine, ← State.giveKept_fine]

theorem State.putBeat_fine {s : State} (hs : s.Fine) (d : Die) (l : Lane) (b : Beat) : (s.putBeat d l b).Fine := by
  grind [State.putBeat, ← fine_mk, ← State.setVoter_fine, ← State.showSump_fine]

theorem State.decideBeat_fine {s : State} (hs : s.Fine) (d : Die) (l : Lane) (b : Beat) (ecc : BeatEcc) : (s.decideBeat d l b
    ecc).Fine := by
  grind [State.decideBeat, ← fine_mk, ← State.decideOrd_fine]

theorem State.holdBeat_fine {s : State} (hs : s.Fine) (d : Die) (l : Lane) (b : Beat) (ecc : BeatEcc) : (s.holdBeat d l b
    ecc).Fine := by
  grind [State.holdBeat, ← fine_mk, ← State.putBeat_fine, ← State.decideBeat_fine]

theorem State.countCe_fine {s : State} (hs : s.Fine) (d : Die) (k : Strand) : (s.countCe d k).Fine := by
  grind [State.countCe, ← State.bump_fine]

theorem State.beatHeld_fine {s : State} (hs : s.Fine) (d : Die) (l : Lane) (b : Beat) (ecc : BeatEcc) : (s.beatHeld d l b
    ecc).Fine := by
  unfold State.beatHeld
  grind [← fine_mk, ← State.voterExclude_fine, ← State.putBeat_fine, ← State.decideBeat_fine, ← State.holdBeat_fine,
      ← State.countCe_fine]

theorem State.beatAt_fine {s : State} (hs : s.Fine) (d : Die) (l : Lane) (b : Beat) (ecc : BeatEcc) : (s.beatAt d l b ecc).Fine
    := by
  grind [State.beatAt, ← State.loseBeat_fine, ← State.fencedBeat_fine, ← State.atArrival_fine, ← State.beatHeld_fine]

theorem execBeatArrive_fine (d : Die) (l : Lane) (b : Beat) (ecc : BeatEcc) {s : State} (hs : s.Fine) : FineOut (execBeatArrive d
    l b ecc s) := by
  grind [execBeatArrive, ← fineOut_next, ← State.arrive_fine, ← State.beatAt_fine]

theorem execVoterSkewTimeout_fine (d : Die) (k : Strand) (ordinal : Word) {s : State} (hs : s.Fine) : FineOut
    (execVoterSkewTimeout d k ordinal s) := by
  grind [execVoterSkewTimeout, ← fine_mk, ← fineOut_next, ← State.voterExclude_fine]

theorem State.settleOrd_fine {s : State} (hs : s.Fine) (d : Die) (k : Strand) (o : OrdRec) (b : Beat) : (s.settleOrd d k o
    b).Fine := by
  grind [State.settleOrd, ← fine_mk, ← State.setVoter_fine]

theorem State.releaseCe_fine {s : State} (hs : s.Fine) (d : Die) (k : Strand) (ecc : BeatEcc) (o : OrdRec) : (s.releaseCe d k ecc
    o).Fine := by
  unfold State.releaseCe
  grind [← fine_mk, ← State.countCe_fine]

theorem execBeatRelease_fine (d : Die) (k : Strand) (ecc : BeatEcc) {s : State} (hs : s.Fine) : FineOut (execBeatRelease d k ecc
    s) := by
  grind [execBeatRelease, ← fine_mk, ← fineOut_next, ← State.pwFail_fine, ← State.voterClean_fine, ← State.voterExclude_fine,
      ← State.beatStore_fine, ← State.settleOrd_fine, ← State.releaseCe_fine]

theorem execReadOncePerform_fine (d : Die) (k : Strand) (ecc : BeatEcc) {s : State} (hs : s.Fine) : FineOut (execReadOncePerform
    d k ecc s) := by
  unfold execReadOncePerform
  split <;> grind [← fine_mk, ← fine_foldl, ← fine_foldl_fst, ← fineOut_next, ← State.setVoter_fine, ← State.showSump_fine,
      ← State.voterClean_fine, ← State.voterExclude_fine, ← State.beatLoad_fine, ← State.sendResult_fine, ← State.settleOrd_fine,
      ← State.releaseCe_fine]

theorem execRdTimeout_fine (l : Lane) (k : Strand) {s : State} (hs : s.Fine) : FineOut (execRdTimeout l k s) := by
  simp only [execRdTimeout]
  (repeat' split) <;> grind [← fine_mk, ← fineOut_next, ← State.setReplica_fine, ← State.logEv_fine, ← State.finishLoad_fine]

theorem execChallengeBeatArrive_fine (d : Die) (l : Lane) (k : Strand) (data : Dword) {s : State} (hs : s.Fine) : FineOut
    (execChallengeBeatArrive d l k data s) := by
  grind [execChallengeBeatArrive, ← fine_mk, ← fineOut_next, ← State.setVoter_fine, ← State.arrive_fine, ← State.chalDecide_fine]

theorem State.keepStored_fine {s t : State} (ht : t.Fine) : (s.keepStored t).Fine := by
  grind [State.keepStored, ← fine_mk]

theorem State.keepBits_fine {s t : State} (ht : t.Fine) (u : RUnit) (off : Nat) (mask : Word) :
    (s.keepBits t u off mask).Fine := by
  grind [State.keepBits, ← State.setReg_fine]

theorem State.showFence_fine {s : State} (hs : s.Fine) (d : Die) : (s.showFence d).Fine := by
  grind [State.showFence, ← fine_foldl, ← State.setFlag_fine]

theorem State.keepLatched_fine {s t : State} (ht : t.Fine) : (s.keepLatched t).Fine := by
  unfold State.keepLatched
  refine State.keepBits_fine (State.keepBits_fine (State.keepBits_fine (State.keepBits_fine (State.keepBits_fine
    (State.keepBits_fine (fine_foldl (fine_foldl (fine_foldl (fine_mk ht ..) ?_ _) ?_ _) ?_ _) ..) ..) ..) ..) ..) ..
  · intro u l hu
    exact State.setLane_fine (fine_foldl (State.keepBits_fine (State.keepBits_fine (State.keepBits_fine hu ..) ..) ..)
      (fun v i hv => State.keepBits_fine hv ..) _) ..
  · intro u d hu
    exact State.showFence_fine (State.keepBits_fine hu ..) d
  · intro u p hu
    exact State.setPort_fine (State.setGuard_fine (State.keepBits_fine hu ..) ..) ..

theorem State.setLastOff_fine {s : State} (hs : s.Fine) (cause : Nat) : (s.setLastOff cause).Fine := by
  grind [State.setLastOff, ← State.setFld_fine]

theorem State.freezeLeds_fine {s : State} (hs : s.Fine) : (s.freezeLeds).Fine := by
  grind [State.freezeLeds, ← fine_mk]

theorem State.islandsOff_fine (s : State) (cause : Nat) : (s.islandsOff cause).Fine :=
  fine_mk (State.setLastOff_fine (State.keepLatched_fine (State.keepStored_fine reset_fine)) cause) ..

theorem State.powerDown_fine (s : State) (cause : Nat) : (s.powerDown cause).Fine :=
  State.islandsOff_fine s.endDebugAuth cause

theorem State.openStore_fine {s : State} (hs : s.Fine) : (s.openStore).Fine := by
  grind [State.openStore, ← fine_mk, ← State.logEv_fine, ← State.writeRecs_fine]

theorem State.startFirmware_fine {s : State} (hs : s.Fine) (second : Bool) : (s.startFirmware second).Fine := by
  grind [State.startFirmware, ← fine_mk, ← State.openStore_fine]

theorem State.showStore_fine {s : State} (hs : s.Fine) : (s.showStore).Fine := by
  grind [State.showStore, ← State.setFld_fine, ← State.setFlag_fine, ← State.setReg64_fine, ← State.showBank_fine,
      ← State.setUpd_fine, ← State.showBoot_fine]

theorem State.reportLosses_fine {s : State} (hs : s.Fine) : (s.reportLosses).Fine := by
  grind [State.reportLosses, ← fine_mk, ← State.logEv_fine, ← State.setLastOff_fine]

theorem State.rom_fine {s : State} (hs : s.Fine) : ∀ s', s.rom = some s' → s'.Fine := by
  refine fine_map (fun b => State.showStore_fine (State.reportLosses_fine (fine_ite _ ?_ ?_))) _
  · exact State.startFirmware_fine hs ..
  · exact State.writeBoot_fine (State.startFirmware_fine hs ..) ..

theorem State.initGovernors_fine {s : State} (hs : s.Fine) (i : BootInput) : (s.initGovernors i).Fine := by
  grind [State.initGovernors, ← fine_mk, ← fine_foldl, ← State.setReg_fine, ← State.setGov_fine, ← State.showDs_fine]

theorem State.powerIsland_fine {s : State} (hs : s.Fine) (want : Word) (i : Nat) : (s.powerIsland want i).Fine := by
  grind [State.powerIsland, ← fine_mk, ← State.setFlag_fine, ← State.setConsumer_fine]

theorem State.powerUp_fine {s : State} (hs : s.Fine) (i : BootInput) : (s.powerUp i).Fine := by
  grind [State.powerUp, ← fine_mk, ← fine_foldl, ← State.replan_fine, ← State.initGovernors_fine, ← State.powerIsland_fine]

theorem State.readMemory_fine {s : State} (hs : s.Fine) (i : BootInput) (address : Nat) : (s.readMemory i address).1.Fine := by
  grind [State.readMemory, ← fine_mk, ← State.logEv_fine]

theorem State.loadCal_fine {s : State} (hs : s.Fine) (rs : List (Nat × List Byte)) : (s.loadCal rs).Fine := by
  grind [State.loadCal, ← fine_mk]

theorem State.readIdentity_fine {s : State} (hs : s.Fine) (i : BootInput) : (s.readIdentity i).Fine := by
  grind [State.readIdentity, ← fine_mk, ← fine_foldl, ← fine_foldl_fst, ← State.setReg_fine, ← State.setFld_fine,
      ← State.readMemory_fine, ← State.loadCal_fine]

theorem State.revertPackage_fine {s : State} (hs : s.Fine) (reason : Nat) : (s.revertPackage reason).Fine := by
  grind [State.revertPackage, ← fine_mk, ← State.logEv_fine, ← State.writeBoot_fine, ← State.setUpdResult_fine,
      ← State.startFirmware_fine, ← State.showStore_fine]

theorem State.finishTt_fine {s : State} (hs : s.Fine) (p : PDie) : (s.finishTt p).Fine := by
  grind [State.finishTt, ← fine_mk, ← State.ttTakeEffect_fine, ← State.ttRefuse_fine, ← State.guardCheck_fine,
      ← State.guardReply_fine]

theorem State.finishCommit_fine {s : State} (hs : s.Fine) (u : RUnit) (off : Nat) : (s.finishCommit u off).Fine := by
  grind [State.finishCommit, ← fine_mk, ← State.gwTakeEffect_fine, ← State.fdAtSample_fine, ← State.finishTt_fine]

theorem State.applyRecord_fine {s : State} (hs : s.Fine) (r : CfgRecord) : (s.applyRecord r).1.Fine := by
  grind [State.applyRecord, ← fine_mk, ← fine_foldl, ← fine_foldl_fst, ← State.unitStore_fine, ← State.finishCommit_fine]

theorem applyRecords_fine (x0 : List CfgRecord) {s : State} (hs : s.Fine) : (applyRecords x0 s).1.Fine := by
  fun_induction applyRecords <;> grind [← fine_mk, ← State.applyRecord_fine]

theorem State.applyImage_fine {s : State} (hs : s.Fine) (bs : List Byte) : (s.applyImage bs).1.Fine := by
  grind [State.applyImage, ← fine_mk, ← applyRecords_fine]

theorem State.writeAsym_fine {s : State} (hs : s.Fine) : (s.writeAsym).Fine := by
  grind [State.writeAsym, ← fine_foldl, ← State.setFld_fine]

theorem State.takeImage_fine {s : State} (hs : s.Fine) (bs : List Byte) : (s.takeImage bs).Fine := by
  grind [State.takeImage, ← fine_mk]

theorem State.applyConfig_fine {s : State} (hs : s.Fine) : (s.applyConfig).1.Fine := by
  grind [State.applyConfig, ← fine_mk, ← State.applyImage_fine, ← State.writeAsym_fine, ← State.takeImage_fine]

theorem State.loadLanes_fine {s : State} (hs : s.Fine) (i : BootInput) : (s.loadLanes i).Fine := by
  grind [State.loadLanes, ← fine_mk, ← fine_foldl, ← State.setReplica_fine, ← State.loadSection_fine]

theorem State.showHistory_fine {s : State} (hs : s.Fine) : (s.showHistory).Fine := by
  grind [State.showHistory, ← fine_foldl, ← State.setFlag_fine]

theorem State.compareCfg_fine {s : State} (hs : s.Fine) : (s.compareCfg).1.Fine := by
  grind [State.compareCfg, ← fine_foldl, ← fine_foldl_fst, ← State.logEv_fine]

theorem State.showRetired_fine {s : State} (hs : s.Fine) : (s.showRetired).Fine := by
  grind [State.showRetired, ← fine_foldl, ← State.setFld_fine]

theorem State.keepTrial_fine {s : State} (hs : s.Fine) : (s.keepTrial).Fine := by
  grind [State.keepTrial, ← fine_mk, ← State.writeBoot_fine, ← State.showStore_fine]

theorem State.releaseAll_fine {s : State} (hs : s.Fine) : s.releaseAll.Fine := by
  have hstrands := fine_foldl (State.showRetired_fine (State.leaseAtRelease_fine hs)) (g := fun t k => t.releaseStrand k t.liveLanes)
    (fun t k ht => State.releaseStrand_fine ht ..) Strand.list
  have htold := fine_foldl hstrands (g := State.tellFlushed) (fun t k ht => State.tellFlushed_fine ht k) Strand.list
  exact State.setFld_fine (State.keepTrial_fine (fine_mk (State.setReg_fine (State.setReg_fine htold ..) ..) ..)) ..

theorem State.finishBoot_fine {s : State} (hs : s.Fine) : s.finishBoot.Fine := by
  have ht := State.compareCfg_fine (State.showHistory_fine hs)
  simp only [State.finishBoot]
  split
  · exact State.releaseAll_fine ht
  · exact ht

theorem State.bootLanes_fine {s : State} (hs : s.Fine) (i : BootInput) : (s.bootLanes i).Fine := by
  unfold State.bootLanes
  split
  · exact hs
  · split
    · exact State.logEv_fine hs ..
    · split <;> exact hs
    · exact State.finishBoot_fine (State.loadLanes_fine hs i)

theorem State.loadMicrocode_fine {s : State} (hs : s.Fine) : (s.loadMicrocode).Fine := by
  grind [State.loadMicrocode, ← fine_mk, ← fine_foldl, ← State.setPort_fine]

theorem State.bootConfig_fine {s : State} (hs : s.Fine) (i : BootInput) : (s.bootConfig i).Fine := by
  have ht := State.applyConfig_fine (State.loadMicrocode_fine hs)
  unfold State.bootConfig
  dsimp only
  split
  · exact State.bootLanes_fine ht i
  · split <;> exact State.logEv_fine ht ..

theorem State.bootReverted_fine {s : State} (hs : s.Fine) (i : BootInput) (reason : Nat) : (s.bootReverted i reason).Fine := by
  unfold State.bootReverted
  dsimp only
  split
  · exact State.bootConfig_fine (State.revertPackage_fine hs _) i
  · exact State.bootLanes_fine (State.revertPackage_fine hs _) i

theorem State.bootFirst_fine {s : State} (hs : s.Fine) (i : BootInput) : (s.bootFirst i).Fine := by
  unfold State.bootFirst
  split
  · exact State.bootConfig_fine (State.revertPackage_fine hs _) i
  · exact State.bootConfig_fine hs i

theorem State.bootLoad_fine {s : State} (hs : s.Fine) (i : BootInput) : (s.bootLoad i).Fine := by
  have ht := State.setFld_fine hs .m Reg.mgStat 31 29 bootLoading
  have hf := State.bootFirst_fine ht i
  unfold State.bootLoad
  dsimp only
  split
  · exact ht
  · split
    next t r hr =>
      rw [hr] at hf
      exact State.bootReverted_fine hf i r
    · exact hf

end Sys2Proof.Machine
end

-- ==== Proofs: register spaces, power, clocks, the service protocol and the tick (O4) ====
section
/-! Boot attempts, power and clock losses, power-downs, the service operations, and what one ns brings. -/

namespace Sys2Proof.Machine

set_option Elab.async false

theorem State.bootFails_fine {s : State} (hs : s.Fine) (n : Nat) : (s.bootFails n).Fine := by
  unfold State.bootFails
  exact fine_ite _ (State.setFld_fine hs ..) (State.setFld_fine (State.setReg_fine (State.setLastOff_fine
    (fine_mk (fine_set (State.islandsOff_fine s 4) .m (hs.files .m)) ..) _) ..) ..)

theorem State.bootAttempt_fine {s : State} (hs : s.Fine) (i : BootInput) (n : Nat) : (s.bootAttempt i n).Fine := by
  have hload : Attempt.Fine _ := State.bootLoad_fine (State.readIdentity_fine (State.powerUp_fine (State.logEv_fine
    (State.setFld_fine (State.setFld_fine hs .m Reg.mgStat 31 29 bootPowering) .m Reg.mgStat 28 27 n) 6 none .boot
    [n, slotsRun ((s.setFld .m Reg.mgStat 31 29 bootPowering).setFld .m Reg.mgStat 28 27 n).boot,
      Variant.bit ((s.setFld .m Reg.mgStat 31 29 bootPowering).setFld .m Reg.mgStat 28 27 n).variant]) i) i) i
  unfold State.bootAttempt
  dsimp only
  split
  next t ht => rw [ht] at hload; exact hload
  next t ht => rw [ht] at hload; exact State.bootFails_fine hload n
  next t r ht => rw [ht] at hload; exact State.bootFails_fine hload n

theorem execBoot_fine (i : BootInput) {s : State} (hs : s.Fine) : FineOut (execBoot i s) := by
  refine fineOut_next (fine_ite _ hs (fine_ite _ ?_ (fine_ite _ (State.bootAttempt_fine hs ..) hs)))
  split
  next t ht => exact State.bootAttempt_fine (State.rom_fine hs t ht) ..
  next => exact hs

theorem State.afterPower_fine (s : State) : s.afterPower.Fine :=
  fine_mk (State.keepBits_fine (State.keepStored_fine reset_fine) ..) ..

theorem execPowerGood_fine (s : State) : FineOut (execPowerGood s) := fineOut_next (State.afterPower_fine s)

theorem execSupplyInterruption_fine {s : State} (hs : s.Fine) : FineOut (execSupplyInterruption s) := by
  grind [execSupplyInterruption, ← fine_mk, ← fineOut_next, ← State.setFlag_fine]

theorem execSupplyReturn_fine {s : State} (hs : s.Fine) : FineOut (execSupplyReturn s) := by
  grind [execSupplyReturn, ← fine_mk, ← fineOut_next, ← State.setFlag_fine, ← State.bump_fine]

theorem execHoldupExhausted_fine {s : State} (hs : s.Fine) : FineOut (execHoldupExhausted s) := by
  grind [execHoldupExhausted, ← fine_mk, ← fine_foldl, ← fineOut_next, ← State.setReg_fine, ← State.setConsumer_fine,
      ← State.cutWrite_fine, ← State.afterPower_fine]

theorem State.resyncVoter_fine {s : State} (hs : s.Fine) (d : Die) (k : Strand) : (s.resyncVoter d k).Fine := by
  grind [State.resyncVoter, ← fine_mk, ← fine_foldl, ← State.setVoter_fine, ← State.showSump_fine]

theorem State.recordLost_fine {s : State} (hs : s.Fine) (d : Die) (k : Strand) : (s.recordLost d k).Fine := by
  grind [State.recordLost, ← fine_mk, ← State.setConsumer_fine, ← State.pwFail_fine]

theorem State.resumeVoters_fine {s : State} (hs : s.Fine) (d : Die) : (s.resumeVoters d).Fine := by
  grind [State.resumeVoters, ← fine_foldl, ← State.resyncVoter_fine, ← State.recordLost_fine]

theorem State.resumeM_fine {s : State} (hs : s.Fine) : (s.resumeM).Fine := by
  grind [State.resumeM, ← fine_mk, ← State.setConsumer_fine, ← State.resumeVoters_fine]

theorem State.resetM_fine {s : State} (hs : s.Fine) : (s.resetM).Fine := by
  unfold State.resetM
  grind [← fine_mk, ← State.bump_fine, ← State.mbMRestart_fine, ← State.endDebugAuth_fine, ← State.retireLate_fine]

theorem State.goOnM_fine {s : State} (hs : s.Fine) : (s.goOnM).Fine := by
  grind [State.goOnM, ← fine_mk, ← State.setFld_fine, ← State.logEv_fine]

theorem execWdogRestart_fine {s : State} (hs : s.Fine) : FineOut (execWdogRestart s) := by
  grind [execWdogRestart, ← fineOut_next, ← State.disturb_fine, ← State.freezeLeds_fine, ← State.resumeM_fine,
      ← State.resetM_fine, ← State.goOnM_fine]

theorem State.seeFault_fine {s : State} (hs : s.Fine) (unit mg : Nat) : (s.seeFault unit mg).Fine := by
  grind [State.seeFault, ← State.setMgView_fine]

theorem State.stopPort_fine {s : State} (hs : s.Fine) (p : PDie) : (s.stopPort p).Fine := by
  grind [State.stopPort, ← fine_mk, ← State.setConsumer_fine, ← State.setPort_fine, ← State.stopAllChans_fine,
      ← State.seeFault_fine]

theorem State.stopGuard_fine {s : State} (hs : s.Fine) (p : PDie) : (s.stopGuard p).Fine := by
  grind [State.stopGuard, ← fine_mk, ← State.setGuard_fine, ← State.requalify_fine, ← State.seeFault_fine]

theorem State.stopField_fine {s : State} (hs : s.Fine) : (s.stopField).Fine := by
  grind [State.stopField, ← fine_mk, ← State.setConsumer_fine, ← State.refreshOuts_fine, ← State.abortCommit_fine,
      ← State.seeFault_fine]

theorem State.stopMgmt_fine {s : State} (hs : s.Fine) : (s.stopMgmt).Fine := by
  grind [State.stopMgmt, ← fine_mk, ← State.setConsumer_fine, ← State.freezeLeds_fine]

theorem execRefClockLost_fine (r : Ref) {s : State} (hs : s.Fine) : FineOut (execRefClockLost r s) := by
  unfold execRefClockLost
  grind [← fine_mk, ← fineOut_next, ← State.ownFault_fine, ← State.seeFault_fine, ← State.stopPort_fine, ← State.stopGuard_fine,
      ← State.stopField_fine, ← State.stopMgmt_fine]

theorem State.restartPort_fine {s : State} (hs : s.Fine) (p : PDie) : (s.restartPort p).Fine := by
  grind [State.restartPort, ← fine_mk, ← State.setConsumer_fine, ← State.setNet_fine, ← State.abortCommit_fine,
      ← State.resumeVoters_fine, ← State.seeFault_fine]

theorem execRefClockRestored_fine (p : PDie) {s : State} (hs : s.Fine) : FineOut (execRefClockRestored p s) := by
  grind [execRefClockRestored, ← fineOut_next, ← State.restartPort_fine]

theorem State.powerOffRetired_fine {s : State} (hs : s.Fine) (domain : Nat) : (s.powerOffRetired domain).Fine := by
  grind [State.powerOffRetired, ← fine_mk, ← State.setFlag_fine, ← State.setMgView_fine]

theorem State.askQuiesce_fine {s : State} (hs : s.Fine) (p : PDie) (domain : Nat) : (s.askQuiesce p domain).Fine := by
  grind [State.askQuiesce, ← State.quiesceWrite_fine]

theorem State.laneDown_fine {s : State} (hs : s.Fine) (l : Lane) : (s.laneDown l).Fine := by
  grind [State.laneDown, ← fine_mk, ← fine_foldl, ← State.setLane_fine, ← State.setJLink_fine]

theorem State.coresDown_fine {s : State} (hs : s.Fine) (l : Lane) : (s.coresDown l).Fine := by
  grind [State.coresDown, ← fine_mk, ← fine_foldl, ← State.setReplica_fine]

theorem State.islandDown_fine {s : State} (hs : s.Fine) (n : Nat) : (s.islandDown n).Fine := by
  grind [State.islandDown, ← fine_mk, ← State.setFlag_fine, ← State.stopPort_fine, ← State.stopGuard_fine,
      ← State.stopField_fine, ← State.laneDown_fine, ← State.coresDown_fine]

theorem State.setDown_fine {s : State} (hs : s.Fine) (x : Option (Nat × List Nat)) : (s.setDown x).Fine := by
  grind [State.setDown, ← fine_mk]

theorem State.downStep_fine {s : State} (hs : s.Fine) : (s.downStep).Fine := by
  grind [State.downStep, ← fine_mk, ← fine_foldl, ← State.powerDown_fine, ← State.askQuiesce_fine, ← State.islandDown_fine,
      ← State.setDown_fine]

theorem State.downGo_fine {s : State} (hs : s.Fine) : (s.downGo).Fine := by
  grind [State.downGo, ← fine_foldl, ← State.downStep_fine]

theorem State.shutDown_fine {s : State} (hs : s.Fine) (cause : Nat) : (s.shutDown cause).Fine := by
  grind [State.shutDown, ← State.setDown_fine, ← State.downGo_fine]

theorem execQuiesceAck_fine (p : PDie) {s : State} (hs : s.Fine) : FineOut (execQuiesceAck p s) := by
  grind [execQuiesceAck, ← fineOut_next, ← State.setFlag_fine, ← State.powerOffRetired_fine, ← State.downGo_fine]

theorem execQuiesceTimeout_fine (p : PDie) {s : State} (hs : s.Fine) : FineOut (execQuiesceTimeout p s) := by
  grind [execQuiesceTimeout, ← fineOut_next, ← State.setFlag_fine, ← State.powerAbort_fine, ← State.powerOffRetired_fine,
      ← State.downGo_fine]

theorem execUpdActivated_fine {s : State} (hs : s.Fine) : FineOut (execUpdActivated s) := by
  grind [execUpdActivated, ← fine_mk, ← fineOut_next, ← State.setReg64_fine, ← State.logEv_fine, ← State.writeBoot_fine,
      ← State.setUpd_fine, ← State.cancelUpdate_fine, ← State.shutDown_fine]

theorem State.offerMg_fine {s : State} (hs : s.Fine) (p : PDie) (bytes : List Byte) : (s.offerMg p bytes).Fine := by
  grind [State.offerMg, ← State.queueMg_fine]

theorem State.respond_fine {s : State} (hs : s.Fine) (h : SvcHead) (op status : Nat) (body : List Byte) : (s.respond h op status
    body).Fine := by
  grind [State.respond, ← fine_mk, ← State.offerMg_fine]

theorem State.authed_fine {s : State} (hs : s.Fine) (h : SvcHead) (op : Nat) {f : State → State} (hf : (f s).Fine) :
    (s.authed h op f).Fine := by
  grind [State.authed, ← State.respond_fine]

theorem execInfo_fine (h : SvcHead) {s : State} (hs : s.Fine) : FineOut (execInfo h s) := by
  grind [execInfo, ← fineOut_next, ← State.respond_fine]

theorem execNonce_fine (h : SvcHead) (value : List Byte) {s : State} (hs : s.Fine) : FineOut (execNonce h value s) := by
  grind [execNonce, ← fine_mk, ← fineOut_next, ← State.respond_fine]

theorem execAuth_fine (h : SvcHead) (slot : Nat) (key sig : List Byte) {s : State} (hs : s.Fine) : FineOut (execAuth h slot key
    sig s) := by
  grind [execAuth, ← fine_mk, ← fineOut_next, ← State.respond_fine]

theorem execLogRead_fine (h : SvcHead) (first : Word) (count : Nat) {s : State} (hs : s.Fine) : FineOut (execLogRead h first
    count s) := by
  grind [execLogRead, ← fineOut_next, ← State.respond_fine]

theorem execIdentRead_fine (h : SvcHead) (address : Nat) {s : State} (hs : s.Fine) : FineOut (execIdentRead h address s) := by
  grind [execIdentRead, ← fine_mk, ← fineOut_next, ← State.respond_fine]

theorem execStageBegin_fine (h : SvcHead) (length : Nat) (crc : Word) {s : State} (hs : s.Fine) : FineOut (execStageBegin h
    length crc s) := by
  grind [execStageBegin, ← fine_mk, ← fineOut_next, ← State.writeBoot_fine, ← State.setUpd_fine, ← State.showBoot_fine,
      ← State.respond_fine, ← State.authed_fine]

theorem State.storeParts_fine {s : State} (hs : s.Fine) (parts : List (Nat × List Byte)) : (s.storeParts parts).Fine := by
  grind [State.storeParts, ← fine_mk, ← fine_foldl, ← fine_foldl_fst, ← State.setFlashSlot_fine]

theorem execStageData_fine (h : SvcHead) (offset : Nat) (bytes : List Byte) {s : State} (hs : s.Fine) : FineOut (execStageData h
    offset bytes s) := by
  grind [execStageData, ← fine_mk, ← fineOut_next, ← State.respond_fine, ← State.authed_fine, ← State.storeParts_fine]

theorem execStageEnd_fine (h : SvcHead) {s : State} (hs : s.Fine) : FineOut (execStageEnd h s) := by
  refine fineOut_next (fine_ite _ (State.authed_fine hs h _ ?_) hs)
  dsimp only
  split
  · exact State.respond_fine hs ..
  next len crc parts _ =>
    exact fine_ite _ (State.respond_fine (State.logEv_fine (State.setUpd_fine (State.showBoot_fine (State.writeBoot_fine
        (fine_mk hs ..) ..)) ..) ..) ..)
      (State.respond_fine (State.setUpd_fine (fine_mk hs ..) ..) ..)

theorem execArm_fine (h : SvcHead) (t : Dword) {s : State} (hs : s.Fine) : FineOut (execArm h t s) := by
  refine fineOut_next (fine_ite _ (State.authed_fine hs h _ ?_) hs)
  have harmed := State.writeBoot_fine hs { s.boot with armed := some t, barred := s.boot.barred &&& ~~~s.boot.staged }
  exact fine_ite _ (State.respond_fine hs ..) (fine_ite _ (State.respond_fine (State.setUpdResult_fine hs _) ..)
    (fine_ite _ (State.respond_fine hs ..) (State.respond_fine (State.logEv_fine (State.raiseAll_fine (State.setReg64_fine
      (State.setUpd_fine harmed ..) ..) ..) ..) ..)))

theorem execCancel_fine (h : SvcHead) {s : State} (hs : s.Fine) : FineOut (execCancel h s) := by
  grind [execCancel, ← fineOut_next, ← State.cancelUpdate_fine, ← State.respond_fine, ← State.authed_fine]

theorem execRevert_fine (h : SvcHead) {s : State} (hs : s.Fine) : FineOut (execRevert h s) := by
  grind [execRevert, ← fine_mk, ← fineOut_next, ← State.writeBoot_fine, ← State.respond_fine, ← State.authed_fine]

theorem State.refusePowerDown_fine {s : State} (hs : s.Fine) : (s.refusePowerDown).Fine := by
  grind [State.refusePowerDown, ← State.ignored_fine]

theorem execReboot_fine (h : SvcHead) {s : State} (hs : s.Fine) : FineOut (execReboot h s) := by
  grind [execReboot, ← fineOut_next, ← State.shutDown_fine, ← State.respond_fine, ← State.authed_fine,
      ← State.refusePowerDown_fine]

theorem execDebugAuth_fine (h : SvcHead) (minutes : Nat) {s : State} (hs : s.Fine) : FineOut (execDebugAuth h minutes s) := by
  grind [execDebugAuth, ← fine_mk, ← fineOut_next, ← State.setFld_fine, ← State.setFlag_fine, ← State.logEv_fine,
      ← State.setDbgUntil_fine, ← State.respond_fine]

theorem execDebugRevoke_fine (h : SvcHead) {s : State} (hs : s.Fine) : FineOut (execDebugRevoke h s) := by
  grind [execDebugRevoke, ← fineOut_next, ← State.endDebugAuth_fine, ← State.respond_fine, ← State.authed_fine]

theorem execDebugAuthExpire_fine {s : State} (hs : s.Fine) : FineOut (execDebugAuthExpire s) := by
  grind [execDebugAuthExpire, ← fineOut_next, ← State.endDebugAuth_fine]

theorem execSessionExpire_fine {s : State} (hs : s.Fine) : FineOut (execSessionExpire s) := by
  grind [execSessionExpire, ← fine_mk, ← fineOut_next]

theorem execUpdateRejected_fine {s : State} (hs : s.Fine) : FineOut (execUpdateRejected s) := by
  grind [execUpdateRejected, ← fine_mk, ← fine_foldl, ← fineOut_next, ← State.useFree_fine, ← State.offerMg_fine]

theorem outState_fine {o : Out} (ho : FineOut o) {s : State} (hs : s.Fine) : (outState o s).Fine := by
  unfold outState
  split
  next t => exact ho t rfl
  next => exact hs

theorem State.svcOp_fine {s : State} (hs : s.Fine) (h : SvcHead) (op : Nat) (b : List Byte) : FineOut (s.svcOp h op b) := by
  have hbad : FineOut (.next (if s.svcTakes h then s.respond h op svcBadOp [] else s)) :=
    fineOut_next (fine_ite _ (State.respond_fine hs ..) hs)
  have hnonce := State.useFree_fine (State.useFree_fine hs)
  unfold State.svcOp
  iterate 14 refine fineOut_ite _ ?_ ?_; rotate_left
  · exact hbad
  · exact execInfo_fine h hs
  · exact execNonce_fine h _ hnonce
  · exact execAuth_fine h _ _ _ hs
  · exact execLogRead_fine h _ _ hs
  · exact execIdentRead_fine h _ hs
  · exact execStageBegin_fine h _ _ hs
  · exact execStageData_fine h _ _ hs
  · exact execStageEnd_fine h hs
  · exact execArm_fine h _ hs
  · exact execCancel_fine h hs
  · exact execRevert_fine h hs
  · exact execReboot_fine h hs
  · exact execDebugAuth_fine h _ hs
  · exact execDebugRevoke_fine h hs

theorem State.svcRun_fine {s : State} (hs : s.Fine) (who : Requester) (bs : List Byte) : (s.svcRun who bs).Fine := by
  unfold State.svcRun
  split
  · exact hs
  · exact fine_ite _ (outState_fine (State.svcOp_fine hs _ _ _) hs) (fine_ite _ (State.respond_fine hs ..) hs)

theorem State.takeSvc_fine {s : State} (hs : s.Fine) (p : PDie) : (s.takeSvc p).Fine := by
  grind [State.takeSvc, ← fine_mk, ← fine_foldl, ← fine_foldl_fst, ← State.setPort_fine, ← State.svcRun_fine]

theorem State.tickPort_fine {s : State} (hs : s.Fine) (p : PDie) : (s.tickPort p).Fine := by
  grind [State.tickPort, ← fine_mk, ← State.setPort_fine]

theorem State.settleCopies_fine {s : State} (hs : s.Fine) (p : PDie) : (s.settleCopies p).Fine := by
  grind [State.settleCopies, ← State.settleLate_fine, ← State.copyUse_fine, ← State.tapUse_fine]

theorem State.laneTime_fine {s : State} (hs : s.Fine) (l : Lane) (p : PDie) : (s.laneTime l p).Fine := by
  grind [State.laneTime, ← fine_mk, ← State.setLane_fine]

theorem State.endCycleM_fine {s : State} (hs : s.Fine) : (s.endCycleM).Fine := by
  grind [State.endCycleM, ← fine_foldl, ← State.endMailboxes_fine, ← State.takeResults_fine]

theorem State.endCycleLane_fine {s : State} (hs : s.Fine) (l : Lane) : (s.endCycleLane l).Fine := by
  grind [State.endCycleLane, ← fine_foldl, ← State.sendClaims_fine]

theorem State.tick_fine {s : State} (hs : s.Fine) : s.tick.Fine := by
  unfold State.tick
  refine fine_ite _ hs (fine_foldl (State.settleBufs_fine (State.settleBufs_fine (State.settleCopies_fine
    (State.settleCopies_fine (State.tickPort_fine (State.tickPort_fine (fine_foldl (State.takeSvc_fine (State.takeSvc_fine
      (fine_ite _ (fine_foldl (fine_mk (fine_ite _ (State.endCycleM_fine hs) hs) ..) ?_ _)
        (fine_mk (fine_ite _ (State.endCycleM_fine hs) hs) ..)) _) _) ?_ _) _) _) _) _) _) _) ?_ _)
  · exact fun t l ht => State.endCycleLane_fine ht l
  · exact fun t l ht => State.takeResults_fine (State.takeResults_fine (State.takeResults_fine ht ..) ..) ..
  · exact fun t l ht => State.laneTime_fine (State.laneTime_fine ht ..) ..

end Sys2Proof.Machine
end

-- ==== Proofs: register spaces, every command, and the step (O4) ====
section
/-! The command at the front and the empty queue, and with them the step. -/

namespace Sys2Proof.Machine

theorem exec_fine (i : Instr) {s : State} (hs : s.Fine) : FineOut (exec i s) := by
  cases i with
  | genericRegisterWrite m u w => exact execGenericRegisterWrite_fine m u w hs
  | rcRead m u off size => exact execRcRead_fine m u off size hs
  | absentUnitAccess l k addr size write => exact execAbsentUnitAccess_fine l k addr size write hs
  | commitAbortedByReset b => exact execCommitAbortedByReset_fine b hs
  | powerGood => exact execPowerGood_fine s
  | boot inp => exact execBoot_fine inp hs
  | wdogRestart => exact execWdogRestart_fine hs
  | refClockLost r => exact execRefClockLost_fine r hs
  | flitReplay k => exact execFlitReplay_fine k hs
  | crawlwayLinkFailed l other => exact execCrawlwayLinkFailed_fine l other hs
  | linkFail l d => exact execLinkFail_fine l d hs
  | echoTimeout l k point => exact execEchoTimeout_fine l k point hs
  | kc64Instruction l k op regs => exact execKc64Instruction_fine l k op regs hs
  | waitForEvent l k => exact execWaitForEvent_fine l k hs
  | idleAdvance l k => exact execIdleAdvance_fine l k hs
  | eventPoint l k => exact execEventPoint_fine l k hs
  | agreedSetApply l k => exact execAgreedSetApply_fine l k hs
  | strandTimerExpire l k t => exact execStrandTimerExpire_fine l k t hs
  | publicationReceive l sender p => exact execPublicationReceive_fine l sender p hs
  | pairClaimReceive l c => exact execPairClaimReceive_fine l c hs
  | occurrenceLatch l d k o => exact execOccurrenceLatch_fine l d k o hs
  | evSolo l k o => exact execEvSolo_fine l k o hs
  | fstaleTimeout l => exact execFstaleTimeout_fine l hs
  | fieldTripleReceive l t => exact execFieldTripleReceive_fine l t hs
  | starveTimeout l k => exact execStarveTimeout_fine l k hs
  | starveClaimReceive l sender k => exact execStarveClaimReceive_fine l sender k hs
  | lateClaim l k point => exact execLateClaim_fine l k point hs
  | lateClaimReceive l c => exact execLateClaimReceive_fine l c hs
  | sqSend l k data => exact execSqSend_fine l k data hs
  | sqCopyArrive l src dst m => exact execSqCopyArrive_fine l src dst m hs
  | sqRxpop l k data => exact execSqRxpop_fine l k data hs
  | epochMark l k => exact execEpochMark_fine l k hs
  | swEventSet l k data => exact execSwEventSet_fine l k data hs
  | evPendClear l k n data => exact execEvPendClear_fine l k n data hs
  | tcfgCommitGo l k => exact execTcfgCommitGo_fine l k hs
  | tcfgGoTimeout k => exact execTcfgGoTimeout_fine k hs
  | beatSend l k => exact execBeatSend_fine l k hs
  | beatArrive d l b ecc => exact execBeatArrive_fine d l b ecc hs
  | voterSkewTimeout d k ordinal => exact execVoterSkewTimeout_fine d k ordinal hs
  | beatRelease d k ecc => exact execBeatRelease_fine d k ecc hs
  | readOncePerform d k ecc => exact execReadOncePerform_fine d k ecc hs
  | rdTimeout l k => exact execRdTimeout_fine l k hs
  | challengeBeatArrive d l k data => exact execChallengeBeatArrive_fine d l k data hs
  | exclusionNoticeReceive l k repl c => exact execExclusionNoticeReceive_fine l k repl c hs
  | splitNoticeReceive l k c => exact execSplitNoticeReceive_fine l k c hs
  | fetchCopyArrive p k id l ue => exact execFetchCopyArrive_fine p k id l ue hs
  | fetchSkewTimeout p k id => exact execFetchSkewTimeout_fine p k id hs
  | broadcastWriteLand l w ue => exact execBroadcastWriteLand_fine l w ue hs
  | scrubHashDone l k => exact execScrubHashDone_fine l k hs
  | scrubCompare k => exact execScrubCompare_fine k hs
  | restart k image received => exact execRestart_fine k image received hs
  | rejoin k repl => exact execRejoin_fine k repl hs
  | abandon k => exact execAbandon_fine k hs
  | autoRejoinRequest k repl => exact execAutoRejoinRequest_fine k repl hs
  | rejoinStart k => exact execRejoinStart_fine k hs
  | copyPassEnd => exact execCopyPassEnd_fine hs
  | rejoinHold => exact execRejoinHold_fine hs
  | holdAck p => exact execHoldAck_fine p hs
  | holdTimeout => exact execHoldTimeout_fine hs
  | joinNotice => exact execJoinNotice_fine hs
  | stallOver => exact execStallOver_fine hs
  | laneRetire l c => exact execLaneRetire_fine l c hs
  | faultLineAssert l c => exact execFaultLineAssert_fine l c hs
  | memoryUe l loc addr => exact execMemoryUe_fine l loc addr hs
  | patrolRead l f addr => exact execPatrolRead_fine l f addr hs
  | debugAttach k repl => exact execDebugAttach_fine k repl hs
  | debugRequest l k r => exact execDebugRequest_fine l k r hs
  | dbgEnChange on => exact execDbgEnChange_fine on hs
  | portLinkChange p port up => exact execPortLinkChange_fine p port up hs
  | cycleStart p => exact execCycleStart_fine p hs
  | cycleEndSync p => exact execCycleEndSync_fine p hs
  | holdoverExpire p => exact execHoldoverExpire_fine p hs
  | ownFrameSend p slot ue => exact execOwnFrameSend_fine p slot ue hs
  | frameForward p port f ago residence => exact execFrameForward_fine p port f ago residence hs
  | frameReceive p port f ago ue => exact execFrameReceive_fine p port f ago ue hs
  | pathDropExpire p node => exact execPathDropExpire_fine p node hs
  | modeRequest p k data => exact execModeRequest_fine p k data hs
  | modeReqReceive p f => exact execModeReqReceive_fine p f hs
  | modeExpired p => exact execModeExpired_fine p hs
  | listenTimeout p => exact execListenTimeout_fine p hs
  | backoffExpire p => exact execBackoffExpire_fine p hs
  | idConflictClear p => exact execIdConflictClear_fine p hs
  | inaugRecordExpire p => exact execInaugRecordExpire_fine p hs
  | inaugViewStable p => exact execInaugViewStable_fine p hs
  | linkDelaySend p => exact execLinkDelaySend_fine p hs
  | linkDelayReceive p port f ago => exact execLinkDelayReceive_fine p port f ago hs
  | linkDelayUpdate p port => exact execLinkDelayUpdate_fine p port hs
  | linkDelayStale p port => exact execLinkDelayStale_fine p port hs
  | ttCommitGo p => exact execTtCommitGo_fine p hs
  | guardCommitReply p => exact execGuardCommitReply_fine p hs
  | guardTimeout p => exact execGuardTimeout_fine p hs
  | ttCommitTakeEffect p => exact execTtCommitTakeEffect_fine p hs
  | guardCommitCheck p => exact execGuardCommitCheck_fine p hs
  | guardFrameTap p port own f ago => exact execGuardFrameTap_fine p port own f ago hs
  | guardCycleEnd p => exact execGuardCycleEnd_fine p hs
  | guardListenTimeout p => exact execGuardListenTimeout_fine p hs
  | guardHoldExpire p => exact execGuardHoldExpire_fine p hs
  | guardTxAttempt p t => exact execGuardTxAttempt_fine p t hs
  | guardLengthLimit p t lasted => exact execGuardLengthLimit_fine p t lasted hs
  | guardReset p => exact execGuardReset_fine p hs
  | guardFenceCommand p l => exact execGuardFenceCommand_fine p l hs
  | tsqPop m p port => exact execTsqPop_fine m p port hs
  | triggerFire p t => exact execTriggerFire_fine p t hs
  | triggerWrite m p w => exact execTriggerWrite_fine m p w hs
  | captureEdge p c e => exact execCaptureEdge_fine p c e hs
  | dmaEnable m p ch => exact execDmaEnable_fine m p ch hs
  | dmaDisable m p ch => exact execDmaDisable_fine m p ch hs
  | resume m p ch => exact execResume_fine m p ch hs
  | dmaDoorbell m p ch data => exact execDmaDoorbell_fine m p ch data hs
  | descriptorStart p ch => exact execDescriptorStart_fine p ch hs
  | descriptorComplete p ch => exact execDescriptorComplete_fine p ch hs
  | dmaBusTimeout p k id l => exact execDmaBusTimeout_fine p k id l hs
  | quiesceRequest p domain => exact execQuiesceRequest_fine p domain hs
  | quiesceAck p => exact execQuiesceAck_fine p hs
  | quiesceTimeout p => exact execQuiesceTimeout_fine p hs
  | quiesceRelease p => exact execQuiesceRelease_fine p hs
  | gwCommitGo p => exact execGwCommitGo_fine p hs
  | gwCommitTakeEffect p => exact execGwCommitTakeEffect_fine p hs
  | pduArrival p pdu payload => exact execPduArrival_fine p pdu payload hs
  | pduExchange p pdu => exact execPduExchange_fine p pdu hs
  | gwSwDataWrite k p w => exact execGwSwDataWrite_fine k p w hs
  | gwSwPub k p data => exact execGwSwPub_fine k p data hs
  | gwEventProcess p second => exact execGwEventProcess_fine p second hs
  | gwFreshnessScan p e => exact execGwFreshnessScan_fine p e hs
  | gwEcc p corrected eng0 eng1 => exact execGwEcc_fine p corrected eng0 eng1 hs
  | rrRequest k p lo hi => exact execRrRequest_fine k p lo hi hs
  | rrServe p => exact execRrServe_fine p hs
  | rrResponseReceive p payload => exact execRrResponseReceive_fine p payload hs
  | rrTimeout p k tag => exact execRrTimeout_fine p k tag hs
  | rrFree k p data => exact execRrFree_fine k p data hs
  | rrDiscard p k tag => exact execRrDiscard_fine p k tag hs
  | canModeWrite m p second data => exact execCanModeWrite_fine m p second data hs
  | recover m p second => exact execRecover_fine m p second hs
  | canRecoveryDone p second => exact execCanRecoveryDone_fine p second hs
  | canFrameReceive p second e => exact execCanFrameReceive_fine p second e hs
  | canTransmit p second e => exact execCanTransmit_fine p second e hs
  | werrPop m d q => exact execWerrPop_fine m d q hs
  | fieldSample raw => exact execFieldSample_fine raw hs
  | fdCommitGo => exact execFdCommitGo_fine hs
  | channelSelfTest ch pass => exact execChannelSelfTest_fine ch pass hs
  | triggerAnnounce p ahead => exact execTriggerAnnounce_fine p ahead hs
  | triggerFallback action => exact execTriggerFallback_fine action hs
  | outputUpdateInstant p => exact execOutputUpdateInstant_fine p hs
  | doCmdBeat l k ordinal data => exact execDoCmdBeat_fine l k ordinal data hs
  | outVerifyDelayExpire n => exact execOutVerifyDelayExpire_fine n hs
  | offPulseStart n => exact execOffPulseStart_fine n hs
  | offPulseEnd n => exact execOffPulseEnd_fine n hs
  | overcurrent n => exact execOvercurrent_fine n hs
  | groupOvercurrent second => exact execGroupOvercurrent_fine second hs
  | thermal n => exact execThermal_fine n hs
  | doFaultClear k data => exact execDoFaultClear_fine k data hs
  | fieldSupplyChange second present => exact execFieldSupplyChange_fine second present hs
  | aiConversionStart trigger raw => exact execAiConversionStart_fine trigger raw hs
  | aiDone => exact execAiDone_fine hs
  | cosPop k => exact execCosPop_fine k hs
  | leaseFrameReceive p port own f ago => exact execLeaseFrameReceive_fine p port own f ago hs
  | leaseCycleStart p => exact execLeaseCycleStart_fine p hs
  | leaseCycleEnd p => exact execLeaseCycleEnd_fine p hs
  | leaseUnqualified p => exact execLeaseUnqualified_fine p hs
  | armLease p k => exact execArmLease_fine p k hs
  | disarm p k => exact execDisarm_fine p k hs
  | release p k => exact execRelease_fine p k hs
  | modHeldChange => exact execModHeldChange_fine hs
  | leaseStateSample p => exact execLeaseStateSample_fine p hs
  | mbTxword m n far data => exact execMbTxword_fine m n far data hs
  | mbTxdb m n far data => exact execMbTxdb_fine m n far data hs
  | mbRxpop m n far data => exact execMbRxpop_fine m n far data hs
  | mbRxdbClear m n far data => exact execMbRxdbClear_fine m n far data hs
  | mbRxmaskWrite m n far data => exact execMbRxmaskWrite_fine m n far data hs
  | rxReset m n far => exact execRxReset_fine m n far hs
  | txReset m n far => exact execTxReset_fine m n far hs
  | smLockRead inp readers => exact execSmLockRead_fine inp readers hs
  | smRelease m inp data => exact execSmRelease_fine m inp data hs
  | smForce m data => exact execSmForce_fine m data hs
  | info h => exact execInfo_fine h hs
  | nonce h value => exact execNonce_fine h value hs
  | auth h slot key sig => exact execAuth_fine h slot key sig hs
  | logRead h first count => exact execLogRead_fine h first count hs
  | identRead h address => exact execIdentRead_fine h address hs
  | stageBegin h length crc => exact execStageBegin_fine h length crc hs
  | stageData h offset bytes => exact execStageData_fine h offset bytes hs
  | stageEnd h => exact execStageEnd_fine h hs
  | arm h t => exact execArm_fine h t hs
  | cancel h => exact execCancel_fine h hs
  | revert h => exact execRevert_fine h hs
  | reboot h => exact execReboot_fine h hs
  | debugAuth h minutes => exact execDebugAuth_fine h minutes hs
  | debugRevoke h => exact execDebugRevoke_fine h hs
  | updateRejected => exact execUpdateRejected_fine hs
  | sessionExpire => exact execSessionExpire_fine hs
  | debugAuthExpire => exact execDebugAuthExpire_fine hs
  | updActivated => exact execUpdActivated_fine hs
  | veto k => exact execVeto_fine k hs
  | confirm k => exact execConfirm_fine k hs
  | successfulBoot => exact execSuccessfulBoot_fine hs
  | supplyInterruption => exact execSupplyInterruption_fine hs
  | supplyReturn => exact execSupplyReturn_fine hs
  | holdupExhausted => exact execHoldupExhausted_fine hs
  | governorReading l r => exact execGovernorReading_fine l r hs
  | govLimitRaise l => exact execGovLimitRaise_fine l hs
  | govLimitReceive l v => exact execGovLimitReceive_fine l v hs
  | stepRaise l => exact execStepRaise_fine l hs
  | dsCeilWrite k writer data => exact execDsCeilWrite_fine k writer data hs
  | dsPlanWrite l data => exact execDsPlanWrite_fine l data hs
  | plannerSample lanes ports => exact execPlannerSample_fine lanes ports hs
  | plannerReplan predicted => exact execPlannerReplan_fine predicted hs
  | marginDailyRecord => exact execMarginDailyRecord_fine hs
  | refClockRestored p => exact execRefClockRestored_fine p hs
  | networkTimeTimeout l p => exact execNetworkTimeTimeout_fine l p hs

theorem step_fine {s : State} (hs : s.Fine) : FineOut (step s) := by
  cases hp : s.pending with
  | nil => exact step_of_idle hp ▸ fineOut_next (State.tick_fine hs)
  | cons c rest => exact step_of_pending hp ▸ exec_fine c (fine_mk hs ..)

/-- Settles O4: the memories by O3, and the register spaces because every operation of every command keeps them canonical. -/
theorem stepKeepsStateSound : Obligations.StepKeepsStateSound := by
  unfold Obligations.StepKeepsStateSound
  intro s t hs hstep
  obtain ⟨hm, hr⟩ := Bool.and_eq_true_iff.1 hs
  exact Bool.and_eq_true_iff.2 ⟨stepKeepsMemoriesCanonical s t hm hstep, (fine_iff t).1 (step_fine ((fine_iff s).2 hr) t hstep)⟩

end Sys2Proof.Machine
end
